-- ==== Sys2Proof/Word.lean ====
section
/-! DEFINITION. The word types of the FK4 block model: set-up registers, table words and table bytes.
Everything that narrows, splits or extends a word stands in `Machine/Bits.lean`. -/
namespace Sys2Proof

/-- A set-up register, a table word or a handler register: 32 bits (00_scope.md R13). -/
abbrev Word := BitVec 32

/-- One byte of local memory, HBM or a frame. -/
abbrev Byte := BitVec 8

end Sys2Proof
end

