-- ==== Sys2Proof/Config.lean ====
section
/-! DEFINITION. What the spec leaves open, as constants without a body: nothing in Lean can evaluate them, and a
statement about one holds whatever it is. -/
namespace Sys2Proof

/-- A value the spec does not state, drawn by a counter of the state. -/
opaque Config.freeWord : Nat → Word
/-- An unstated natural number, drawn by a counter of the state. -/
opaque Config.freeNat : Nat → Nat
/-- SHA-384 of a byte string, as its 48 bytes in one number (14_management_security.md names the function; FIPS 180-4
is not in the spec). -/
opaque Config.sha384 : List Byte → Nat
/-- Does a signature (first argument: key, second: signed bytes, third: signature) verify (ECDSA P-384 with SHA-384, R490, R516, R520)? -/
opaque Config.verify : Nat → List Byte → List Byte → Bool
/-- Is a pattern set valid under a pattern key: do the digest and the signature of its header verify (R524)? The spec
does not lay the header out. -/
opaque Config.patternOk : Nat → List Byte → Bool
/-- The version in the header of a pattern set, 24 bits (R524). -/
opaque Config.patternVersion : List Byte → Nat
/-- The IANA enterprise number assigned to Jorrath (R487) and its JEDEC manufacturer code (R513). -/
opaque Config.ianaNumber : Nat
opaque Config.jedec : Nat
/-- The PCI vendor ID assigned to Jorrath (11_host_interface.md R384). -/
opaque Config.vendorId : Nat

end Sys2Proof
end

