-- ==== Sys2Proof/Machine/Bits.lean ====
section
/-! DEFINITION. Bit fields, sign extension and the one rounding of the device. -/
namespace Sys2Proof.Machine

/-- Field of `n` bits at bit `lo` of a register, as a number. -/
def fld (w : Word) (lo n : Nat) : Nat := w.toNat / 2 ^ lo % 2 ^ n

/-- `w` with the field of `n` bits at bit `lo` replaced by the low `n` bits of `v`. -/
def setFld (w : Word) (lo n v : Nat) : Word :=
  BitVec.ofNat 32 (w.toNat / 2 ^ (lo + n) * 2 ^ (lo + n) + v % 2 ^ n * 2 ^ lo + w.toNat % 2 ^ lo)

/-- Bit `i` of a register. -/
def tst (w : Word) (i : Nat) : Bool := fld w i 1 == 1

/-- A one-bit field value. -/
def b2n (b : Bool) : Nat := if b then 1 else 0

/-- Field of `n` bits at bit `lo` of a number. -/
def nfld (x lo n : Nat) : Nat := x / 2 ^ lo % 2 ^ n

/-- The low `n` bits of `x`, read as two's complement. -/
def sx (n x : Nat) : Int :=
  let v := x % 2 ^ n
  if v < 2 ^ (n - 1) then (v : Int) else (v : Int) - (2 ^ n : Nat)

/-- `x` reduced to `n` bits of two's complement (modulo 2^n). -/
def low (n : Nat) (x : Int) : Nat := (x % ((2 ^ n : Nat) : Int)).toNat

/-- `x` forced into `[lo, hi]`. -/
def clamp (x lo hi : Int) : Int := if x < lo then lo else if hi < x then hi else x

/-- `rnd x k` is x / 2^k to nearest, ties away from zero: the device's one rounding
(02_arithmetic.md R62, in the form R61 spells out). -/
def rnd (x : Int) (k : Nat) : Int :=
  if k = 0 then x
  else
    let q : Int := (((x.natAbs + 2 ^ (k - 1)) / 2 ^ k : Nat) : Int)
    if x < 0 then -q else q

/-- A 32-bit counter that sticks at 0xFFFF_FFFF. -/
def sticky (w : Word) (n : Nat) : Word := BitVec.ofNat 32 (min 0xFFFFFFFF (w.toNat + n))

/-- Number of bits of `m`: 0 for 0, floor(log2 m) + 1 otherwise (R68). -/
def bitWidth (m : Nat) : Nat := if m = 0 then 0 else Nat.log2 m + 1

/-- The low `n` bytes of `x`, least significant first. -/
def toBytes : Nat → Nat → List Byte
  | 0, _ => []
  | n + 1, x => BitVec.ofNat 8 x :: toBytes n (x / 256)

/-- Bytes read as a number, least significant first. -/
def ofBytes : List Byte → Nat
  | [] => 0
  | b :: bs => b.toNat + 256 * ofBytes bs

/-- Number of ones in the low `n` bits of `x`. -/
def popcount : Nat → Nat → Nat
  | 0, _ => 0
  | n + 1, x => x % 2 + popcount n (x / 2)

/-- The positions below `n` of the ones of `x`, lowest first. -/
def ones (n x : Nat) : List Nat := (List.range n).filter fun i => x / 2 ^ i % 2 == 1

/-- The first element of a list that satisfies `p`, with its position. -/
def findIdxFrom {α : Type} (p : α → Bool) : Nat → List α → Option Nat
  | _, [] => none
  | i, a :: as => if p a then some i else findIdxFrom p (i + 1) as

end Sys2Proof.Machine
end

