-- ==== Sys2Proof/Machine/Crc.lean ====
section
/-! DEFINITION. Check-value units (10_integrity.md R337 to R340) and the link code (05_fabric.md R179). -/
namespace Sys2Proof.Machine

/-- Bits of `x` below `n` in reverse order. -/
def reflect : Nat → Nat → Nat
  | 0, _ => 0
  | n + 1, x => x % 2 * 2 ^ n + reflect n (x / 2)

/-- The parameters of a check-value unit (R337). -/
structure CvuPar where
  w : Nat
  poly : Nat
  init : Nat
  refin : Bool
  refout : Bool
  xorout : Nat
  deriving DecidableEq, Repr

/-- Preset C32C (R338). -/
def c32c : CvuPar := ⟨32, 0x1EDC6F41, 0xFFFFFFFF, true, true, 0xFFFFFFFF⟩
/-- Preset C64E (R338). -/
def c64e : CvuPar := ⟨64, 0x42F0E1EBA9EA3693, 0xFFFFFFFFFFFFFFFF, true, true, 0xFFFFFFFFFFFFFFFF⟩
/-- Preset C16T (R338). -/
def c16t : CvuPar := ⟨16, 0x1021, 0xFFFF, false, false, 0⟩

/-- `n` bit steps of the working register (R337). -/
def cvuShift (p : CvuPar) : Nat → Nat → Nat
  | 0, r => r
  | n + 1, r =>
    let r' := r * 2 % 2 ^ p.w
    cvuShift p n (if r / 2 ^ (p.w - 1) % 2 = 1 then Nat.xor r' p.poly else r')

/-- One byte fed (R337). -/
def cvuByte (p : CvuPar) (r : Nat) (b : Byte) : Nat :=
  let x := if p.refin then reflect 8 b.toNat else b.toNat
  cvuShift p 8 (Nat.xor r (x * 2 ^ (p.w - 8)))

/-- Bytes fed in order. -/
def cvuFeed (p : CvuPar) (r : Nat) (bs : List Byte) : Nat := bs.foldl (cvuByte p) r

/-- The check value of a working register (R337). -/
def cvuValue (p : CvuPar) (r : Nat) : Nat :=
  Nat.xor (if p.refout then reflect p.w r else r) p.xorout

/-- The 8 bytes of a fold, least significant first, fed right after INIT (R339). -/
def cvuFold (p : CvuPar) (fold : Nat) : Nat := cvuFeed p p.init (toBytes 8 fold)

/-- Check value with no fold. -/
def crc (p : CvuPar) (bs : List Byte) : Nat := cvuValue p (cvuFeed p p.init bs)

/-- Check value with a fold (R339). -/
def crcFold (p : CvuPar) (fold : Nat) (bs : List Byte) : Nat := cvuValue p (cvuFeed p (cvuFold p fold) bs)

/-! ### RS(52, 48) over GF(2^8), polynomial x^8 + x^4 + x^3 + x^2 + 1 (R179) -/

/-- Product in the field, bit by bit of the second factor. -/
def gfMulAux : Nat → Nat → Nat → Nat
  | 0, _, _ => 0
  | n + 1, a, b =>
    let a2 := if a < 128 then a * 2 else Nat.xor (a * 2 % 256) 0x1D
    Nat.xor (if b % 2 = 1 then a else 0) (gfMulAux n a2 (b / 2))

/-- Product in the field. -/
def gfMul (a b : Nat) : Nat := gfMulAux 8 a b

/-- Power of the field's generator α = 2. -/
def gfPow : Nat → Nat
  | 0 => 1
  | n + 1 => gfMul (gfPow n) 2

/-- Value of a code word at a point, the first symbol being the highest coefficient. -/
def gfEval (ws : List Nat) (x : Nat) : Nat := ws.foldl (fun acc c => Nat.xor (gfMul acc x) c) 0

/-- The four syndromes, at α^0 to α^3. -/
def rsSyn (ws : List Nat) : List Nat := (List.range 4).map fun i => gfEval ws (gfPow i)

/-- A word has no error that the code sees. -/
def rsOk (ws : List Nat) : Bool := (rsSyn ws).all (· == 0)

/-- Symbol `i` of a word changed by `e`. -/
def flipSym (ws : List Nat) (i e : Nat) : List Nat := ws.set i (Nat.xor (ws.getD i 0) e)

/-- The error value and position of a single-symbol error, if the syndromes are those of one. -/
def rsFix1 (ws : List Nat) : Option (List Nat) :=
  match rsSyn ws with
  | [s0, _, _, _] =>
    if s0 = 0 then none
    else ((List.range 52).map fun i => flipSym ws i s0).find? rsOk
  | _ => none

/-- Correction of up to two symbols (R179): first none, then one, then two positions with the error values that
the first two syndromes give. -/
def rsCorrect (ws : List Nat) : Option (List Nat) :=
  if rsOk ws then some ws
  else match rsFix1 ws with
    | some c => some c
    | none =>
      let pairs := (List.range 52).flatMap fun i => ((List.range 52).filter (i < ·)).map fun j => (i, j)
      let s0 := gfEval ws 1
      let s1 := gfEval ws 2
      let try2 (ij : Nat × Nat) : Option (List Nat) :=
        let xi := gfPow (51 - ij.1)
        let xj := gfPow (51 - ij.2)
        -- e_i + e_j = s0, x_i e_i + x_j e_j = s1: e_j = (s1 + x_i s0) / (x_i + x_j)
        let num := Nat.xor s1 (gfMul xi s0)
        let den := Nat.xor xi xj
        match (List.range 256).find? fun e => gfMul e den == num with
        | some ej =>
          let c := flipSym (flipSym ws ij.1 (Nat.xor s0 ej)) ij.2 ej
          if rsOk c then some c else none
        | none => none
      pairs.findSome? try2

/-- What a received link flit of 52 bytes comes to (R179): the corrected 46 bytes and whether symbols were
corrected, or nothing where the flit is refused. Bytes 46 and 47 hold the CRC-16, high byte first, and it starts from 0xFFFF as
the preset C16T does (DESIGN CHOICE: R179 gives the polynomial and neither the first value nor the order of the bytes). -/
def linkDecode (bytes : List Byte) : Option (List Byte × Bool) :=
  let ws := bytes.map (·.toNat)
  match rsCorrect ws with
  | none => none
  | some c =>
    let data : List Byte := (c.take 46).map (BitVec.ofNat 8 ·)
    if crc c16t data = c.getD 46 0 * 256 + c.getD 47 0 then some (data, !(rsOk ws)) else none

end Sys2Proof.Machine
end

