-- ==== Sys2Proof/Machine/Arith.lean ====
section
/-! DEFINITION. The integer arithmetic of 02_arithmetic.md: the ten formats, the multiplier path, the rescale, the
adaptive decision and the way back to a weight code. -/
namespace Sys2Proof.Machine

/-- A format slot, split into its fields (R54). -/
structure FmtSlot where
  wfmt : Nat
  afmt : Nat
  zw : Nat
  za : Nat
  xb : Nat
  x4f4 : Bool
  reservedOk : Bool
  deriving DecidableEq, Repr

/-- The two words of a slot, split (R54). -/
def fmtSlotOf (w0 w1 : Word) : FmtSlot where
  wfmt := fld w0 0 4
  afmt := fld w0 4 4
  zw := fld w0 8 4
  za := fld w0 16 8
  xb := fld w1 8 8
  x4f4 := tst w1 0
  reservedOk := fld w0 24 8 == 0 && fld w0 12 4 == 0 && fld w1 16 16 == 0 && fld w1 1 7 == 0

/-- What R55 requires of a slot that something names. -/
def FmtSlot.ok (f : FmtSlot) : Bool :=
  decide (f.wfmt < 8) && (f.afmt == 8 || f.afmt == 9) && (f.zw == 0 || f.wfmt == 5) &&
    (f.za == 0 || f.afmt == 9) && (!f.x4f4 || f.wfmt == 7) && f.reservedOk

/-- Bits of one weight code (R48, R53). -/
def codeBits (wfmt : Nat) : Nat :=
  match wfmt with
  | 0 => 1 | 1 => 2 | 2 => 2 | 3 => 3 | 4 => 4 | 5 => 4 | 6 => 4 | 7 => 4 | _ => 8

/-- Weight codes in one 32-bit word (R53). -/
def codesPerWord (wfmt : Nat) : Nat :=
  match wfmt with
  | 0 => 32 | 1 => 16 | 2 => 16 | 3 => 10 | 4 => 8 | 5 => 8 | 6 => 8 | 7 => 8 | _ => 4

/-- Magnitude of an F4 operand in halves (R51). -/
def f4Mag (em : Nat) : Int :=
  match em with
  | 0 => 0 | 1 => 1 | 2 => 2 | 3 => 3 | 4 => 4 | 5 => 6 | 6 => 8 | _ => 12

/-- F4 code to operand (R51). -/
def f4Operand (code : Nat) : Int :=
  if nfld code 3 1 = 1 then -f4Mag (nfld code 0 3) else f4Mag (nfld code 0 3)

/-- Weight code to operand (R49, R51); an X4 element takes its own format. -/
def weightOperand (f : FmtSlot) (code : Nat) : Int :=
  match f.wfmt with
  | 0 => if nfld code 0 1 = 0 then 1 else -1
  | 1 => if nfld code 0 2 = 1 then 1 else if nfld code 0 2 = 3 then -1 else 0
  | 2 => sx 2 code
  | 3 => sx 3 code
  | 4 => sx 4 code
  | 5 => (nfld code 0 4 : Int) - (f.zw : Int)
  | 6 => f4Operand code
  | _ => if f.x4f4 then f4Operand code else sx 4 code

/-- A T2 code 0b10 counts once in CORE_FMT_ODD (R50). -/
def oddCode (f : FmtSlot) (code : Nat) : Bool := f.wfmt == 1 && nfld code 0 2 == 2

/-- The shift of an X4 group whose scale byte is `e` (R52). -/
def x4Shift (f : FmtSlot) (e : Nat) : Nat :=
  if e < f.xb then 0 else min 7 (e - f.xb)

/-- A clamped X4 group counts once in CORE_FMT_ODD (R52). -/
def oddScale (f : FmtSlot) (e : Nat) : Bool := f.wfmt == 7 && (decide (e < f.xb) || decide (f.xb + 7 < e))

/-- 8-bit event value or activation to operand (R59 step 2). -/
def actOperand (f : FmtSlot) (v : Nat) : Int :=
  if f.afmt = 9 then ((v % 256 : Nat) : Int) - (f.za : Int) else sx 8 v

/-- One product (R59 steps 3 and 4). -/
def product (w a : Int) (sh : Nat) : Int := w * a * ((2 ^ sh : Nat) : Int)

/-- Addition into an A24 word (R57). -/
def a24Add (x : Nat) (d : Int) : Nat := low 24 ((x : Int) + d)

/-- Addition into a 40-bit check sum (R58). -/
def sumAdd (x : Nat) (d : Int) : Nat := low 40 ((x : Int) + d)

/-- A Rescale Table entry, split into its fields (R64). -/
structure Resc where
  m : Nat
  s : Nat
  sat : Nat
  zoRaw : Nat
  tgt : Nat
  adapt : Bool
  history : Bool
  sMin : Nat
  sMax : Nat
  streak : Nat
  deriving DecidableEq, Repr

/-- The two words of an entry, split (R64). -/
def rescOf (w0 w1 : Word) : Resc where
  m := fld w0 0 16
  s := fld w0 16 6
  sat := fld w0 22 2
  zoRaw := fld w0 24 8
  tgt := fld w1 0 2
  adapt := tst w1 2
  history := tst w1 3
  sMin := fld w1 4 6
  sMax := fld w1 10 6
  streak := fld w1 16 4

/-- Lower bound of a target format (R63). -/
def tgtLo (tgt : Nat) : Int := match tgt with | 0 => -32768 | 1 => -128 | _ => 0
/-- Upper bound of a target format (R63). -/
def tgtHi (tgt : Nat) : Int := match tgt with | 0 => 32767 | 1 => 127 | _ => 255
/-- The width F of a target format (R63). -/
def tgtF (tgt : Nat) : Nat := match tgt with | 0 => 15 | 1 => 7 | _ => 8

/-- The zero point as the target reads it (R63). -/
def Resc.zo (e : Resc) : Int := if e.tgt = 1 then sx 8 e.zoRaw else (e.zoRaw : Int)

/-- What R65 requires of an entry that is named. -/
def Resc.ok (e : Resc) : Bool :=
  decide (e.s ≤ 40) && e.tgt != 3 && e.sat != 3 && (e.tgt != 0 || e.zoRaw == 0) &&
    (!e.adapt || (decide (e.sMin ≤ e.s) && decide (e.s ≤ e.sMax) && decide (e.sMax ≤ 40)))

/-- What one rescale gives: the output, the counted saturation and the width PEAK sees (R61, R63, R68). -/
structure RescOut where
  out : Int
  sat : Bool
  width : Nat
  deriving DecidableEq, Repr

/-- One rescale of a signed accumulator through an entry (R61, R63). -/
def rescale (e : Resc) (acc : Int) : RescOut :=
  let y := rnd (acc * (e.m : Int)) e.s
  let x := y + e.zo
  let lo := tgtLo e.tgt
  let hi := tgtHi e.tgt
  let d := min (e.zo - lo) (hi - e.zo)
  let l := match e.sat with | 0 => lo | 1 => e.zo - d | _ => e.zo
  let h := match e.sat with | 1 => e.zo + d | _ => hi
  let counted := if e.sat = 2 then decide (h < x) else decide (x < l) || decide (h < x)
  let yw := if e.sat = 2 then max y 0 else y
  { out := clamp x l h, sat := counted, width := min 31 (bitWidth yw.natAbs) }

/-- The monitors of one channel in the step in progress (R68). -/
structure Mon where
  samples : Nat
  satcnt : Nat
  peak : Nat
  deriving DecidableEq, Repr

/-- No sample yet. -/
def Mon.none : Mon := ⟨0, 0, 0⟩

/-- One more sample (R68). -/
def Mon.sample (m : Mon) (r : RescOut) : Mon :=
  ⟨m.samples + 1, min 127 (m.satcnt + b2n r.sat), max m.peak r.width⟩

/-- What the adaptive decision of one channel comes to (R69). -/
structure Adapt where
  s : Nat
  streak : Nat
  history : Bool
  changed : Bool
  limited : Bool
  deriving DecidableEq, Repr

/-- The decision at commit for a channel with ADAPT_EN = 1 (R69, R70). -/
def adaptDecide (e : Resc) (m : Mon) (satHi headLo headSteps : Nat) : Adapt :=
  if m.samples = 0 then ⟨e.s, e.streak, e.history, false, false⟩
  else if !e.history then ⟨e.s, 0, true, false, false⟩
  else if satHi < m.satcnt then
    if e.s < e.sMax then ⟨e.s + 1, 0, true, true, false⟩ else ⟨e.s, 0, true, false, true⟩
  else if m.peak < headLo then
    if max headSteps 1 ≤ e.streak + 1 then
      if e.sMin < e.s then ⟨e.s - 1, 0, true, true, false⟩ else ⟨e.s, 0, true, false, true⟩
    else ⟨e.s, e.streak + 1, true, false, false⟩
  else ⟨e.s, 0, true, false, false⟩

/-- Operand range of a weight format (R49), used by the clips of R74. -/
def operandLo (f : FmtSlot) : Int :=
  match f.wfmt with
  | 0 => -1 | 1 => -1 | 2 => -2 | 3 => -4 | 4 => -8 | 5 => -(f.zw : Int) | 6 => -12
  | _ => if f.x4f4 then -12 else -8

/-- Operand range of a weight format (R49), used by the clips of R74. -/
def operandHi (f : FmtSlot) : Int :=
  match f.wfmt with
  | 0 => 1 | 1 => 1 | 2 => 1 | 3 => 3 | 4 => 7 | 5 => 15 - (f.zw : Int) | 6 => 12
  | _ => if f.x4f4 then 12 else 7

/-- Nearest F4 magnitude of num / 2^k, ties away from zero (R74). -/
def f4Nearest (mag k : Nat) : Nat :=
  let at2 (t : Nat) : Bool := decide (t * 2 ^ k ≤ 2 * mag)
  if at2 20 then 7 else if at2 14 then 6 else if at2 10 then 5 else if at2 7 then 4
  else if at2 5 then 3 else if at2 3 then 2 else if at2 1 then 1 else 0

/-- An exact update x / 2^k in operand units, returned to a weight code (R74). -/
def toCode (f : FmtSlot) (x : Int) (k : Nat) : Nat :=
  let r := rnd x k
  let f4 : Nat :=
    let m := f4Nearest x.natAbs k
    if m = 0 then 0 else if x < 0 then 8 + m else m
  match f.wfmt with
  | 0 => if x < 0 then 1 else 0
  | 1 => low 2 (clamp r (-1) 1)
  | 2 => low 2 (clamp r (-2) 1)
  | 3 => low 3 (clamp r (-4) 3)
  | 4 => low 4 (clamp r (-8) 7)
  | 5 => low 4 (clamp (r + f.zw) 0 15)
  | 6 => f4
  | _ => if f.x4f4 then f4 else low 4 (clamp r (-8) 7)

end Sys2Proof.Machine
end

