-- ==== Sys2Proof/Machine/Store.lean ====
section
/-! DEFINITION. Sparse storage in one canonical form: (key, value) pairs, keys strictly rising, no entry equal
to what an unlisted key reads as. Memories, register files and tables of like units are all held so. -/
namespace Sys2Proof.Machine

/-- Sparse data by key. What an unlisted key reads as is an argument of every operation. -/
abbrev Store (β : Type) := List (Nat × β)

namespace Store

/-- What key `k` holds; an unlisted key reads as `d k`. -/
def get {β : Type} (d : Nat → β) : Store β → Nat → β
  | [], k => d k
  | (a, v) :: t, k => if a = k then v else get d t k

/-- All entries of key `k` taken out. -/
def erase {β : Type} (k : Nat) : Store β → Store β
  | [] => []
  | (a, v) :: t => if a = k then erase k t else (a, v) :: erase k t

/-- An entry put before the first larger key. -/
def insert {β : Type} (k : Nat) (v : β) : Store β → Store β
  | [] => [(k, v)]
  | (a, w) :: t => if k < a then (k, v) :: (a, w) :: t else (a, w) :: insert k v t

/-- Key `k` made to hold `v`; writing what an unlisted key reads as removes the entry. -/
def set {β : Type} [DecidableEq β] (d : Nat → β) (m : Store β) (k : Nat) (v : β) : Store β :=
  if v = d k then erase k m else insert k v (erase k m)

/-- Keys strictly rising. -/
def rising {β : Type} : Store β → Bool
  | [] => true
  | [_] => true
  | (a, _) :: (b, w) :: t => decide (a < b) && rising ((b, w) :: t)

/-- No entry equal to what an unlisted key reads as. -/
def noDefault {β : Type} [DecidableEq β] (d : Nat → β) : Store β → Bool
  | [] => true
  | (a, v) :: t => decide (v ≠ d a) && noDefault d t

/-- The canonical form. -/
def wf {β : Type} [DecidableEq β] (d : Nat → β) (m : Store β) : Bool := rising m && noDefault d m

/-- Every key of a list cleared back to what an unlisted key reads as. -/
def clearAll {β : Type} (p : Nat → Bool) : Store β → Store β
  | [] => []
  | (a, v) :: t => if p a then clearAll p t else (a, v) :: clearAll p t

/-- Entries moved from the keys of one window to another of the same length. -/
def copyWin {β : Type} [DecidableEq β] (d : Nat → β) (src dst len : Nat) (m : Store β) : Store β :=
  let cleared := clearAll (fun k => dst ≤ k && decide (k < dst + len)) m
  m.foldl (fun acc e => if src ≤ e.1 && decide (e.1 < src + len) then set d acc (e.1 - src + dst) e.2 else acc) cleared

end Store
end Sys2Proof.Machine
end

