-- ==== Sys2Proof/Syntax.lean ====
section
/-! DEFINITION. The commands of the block: one constructor for each row of spec/opcode_table.json, with the operands
its rule needs. Attachments are written `a` (0 to 7), partitions `k` (0 to 63; a router of that number where the command
is a router's), cores and routers `p` or `k` (0 to 9,215), groves `g`, event ports `e`, HBM stacks `st`, packets in
flight `i` (their position among those in flight), values of registers `v`. -/
namespace Sys2Proof

/-- A command: a register access, an event of the device, a packet's arrival, a handler instruction, a descriptor, a
management message or a change of a pin. -/
inductive Instr where
  /-- REGISTER_WRITE: attachment `a` writes `v` to set-up address `addr` (R16). -/
  | registerWrite (a addr : Nat) (v : Word)
  /-- REG64_LO_READ: attachment `a` reads the LO half of a 64-bit quantity, or another register, at set-up address
  `addr` (R14). -/
  | reg64LoRead (a addr : Nat)
  /-- ROLE_FENCE_WRITE: attachment `a` writes `v` to INT_PHYS_STATE of core `p` (R26). -/
  | roleFenceWrite (a p : Nat) (v : Word)
  /-- GROVE_FAULT: a fault of the rail segment, clock spine or sync unit of grove `g` (01_organisation.md R45). -/
  | groveFault (g cause : Nat)
  /-- STEP_OPEN: the pending fire opens the next step once the previous release has completed (R271). -/
  | stepOpen (k : Nat)
  /-- STEP_OPEN_INDICATION: the core clears its monitors and integrates its lane-neurons in index order (R92). A fault
  of the engine at `lane` exclusive-ors `flip` into the record and `value` into the event. -/
  | stepOpenIndication (p lane : Nat) (flip : Word) (value : Nat)
  /-- INTEGRATION_SPAN_END: the core's integration span ends, its STEP operations start in slot order (R140), and an
  audit of the core may begin (10_integrity.md R361). -/
  | integrationSpanEnd (p : Nat)
  /-- DEFERRED_DEPOSIT: the oldest waiting deposit of the core completes once its slot has been taken (R90). -/
  | deferredDeposit (p : Nat)
  /-- CORE_CLOCK_GATE: a core whose units are all idle gates its core logic (R102). -/
  | coreClockGate (p : Nat)
  /-- CORE_WAKE: a gated core wakes and resumes (R103). -/
  | coreWake (p src : Nat)
  /-- SYN_EVENT_TAKE: the synapse engine takes an event or a coalesced group (R122 to R124). `pair` and `err` are a
  disagreement of the multiplier arrays on its first product (10_integrity.md R342) (R123). -/
  | synEventTake (p pair : Nat) (err : Word)
  /-- ROW_REQUEST: packet `i`, a grove-row request, reaches its grove memory unit (R124). -/
  | rowRequest (i : Nat)
  /-- ROW_HEADER: packet `i`, a row header, reaches the row-home core, which adds a times ROWSUM to D_GRV (R124). -/
  | rowHeader (i : Nat)
  /-- BLOCK: packet `i`, a block, reaches its target core, which decodes and deposits it (R124, R125). -/
  | block (i pair : Nat) (err : Word)
  /-- HBM_READ_RETURN: the read of a row job, or of a DENSE stream, of grove `g` returns with a status; `t` is the
  failing transaction, and `flip` is exclusive-ored into the row's byte at `pos` on its way (R135). -/
  | hbmReadReturn (g j status t pos : Nat) (flip : Byte)
  /-- HBM_TRAINING_LOST: the controller of stack `st` loses training and retrains once; `ok` says whether that
  succeeds (R136). -/
  | hbmTrainingLost (st : Nat) (ok : Bool)
  /-- DENSE_COLUMN_BLOCK_DONE: a column block of the operation in progress finishes; `mismatch` is a fault of the tile
  (R143). -/
  | denseColumnBlockDone (p : Nat) (mismatch : Bool)
  /-- DENSE_OP_DONE: an operation whose column blocks are done completes (R140, R211, 11_host_interface.md R401). -/
  | denseOpDone (p : Nat)
  /-- CANOPY_PACKET_ARRIVE: packet `i` reaches the router it stands at, which replicates, ejects or forwards it (R158,
  R166, R172, 10_integrity.md R366). -/
  | canopyPacketArrive (i : Nat)
  /-- STOP_RECEIVE_COPY: the stop packet `i` has reached rewrites its tag, counts it, and passes it through port X
  into router 78 (R172, R176). A load or read of a table stays there: the stop's loader serves it
  (11_host_interface.md R397). -/
  | stopReceiveCopy (i : Nat)
  /-- LINK_FLIT_RECEIVE: a link flit of 52 bytes is received at a port, corrected and checked, or refused with a NACK
  to its sender (R179, R180). -/
  | linkFlitReceive (k port : Nat) (bytes : List Byte)
  /-- LINK_NACK: the sender at a port receives a NACK and resends from the refused flit, or abandons
  it after five refusals (R180, R181). `lost` names the first packet of the flit and how many it holds. -/
  | linkNack (k port : Nat) (lost : Nat × Nat)
  /-- LINK_RESYNC_DONE: the re-synchronisation after an abandoned flit ends (R181). -/
  | linkResyncDone (k port : Nat)
  /-- ROUTER_FAULT: a router detects an internal fault: FAULTY, its links DOWN, FLT_ROUTER reported (R186). -/
  | routerFault (k : Nat)
  /-- ROUTER_RESET: attachment `a` writes `v` with RESET to FAB_RTR_CTRL of core `k` (R189). -/
  | routerReset (a k : Nat) (v : Word)
  /-- ROUTER_RESET_DONE: the router returns to EXCLUDED with its links trained and its buffers empty (R189). -/
  | routerResetDone (k : Nat)
  /-- CLEARING_START: attachment `a` writes FAB_CLEAR_CTRL of partition `k` with START = 1 (R194). -/
  | clearingStart (a k : Nat)
  /-- CLEARING_RUN: at the step boundary the staged view is checked; then injection is held and the drain begins
  (R184). -/
  | clearingRun (k : Nat)
  /-- CLEARING_SWAP: the drain is complete; selectors flip, EXCLUDE takes effect and injection resumes (R184). -/
  | clearingSwap (k : Nat)
  /-- CLEARING_TIMEOUT: the drain is not complete 3 us after the boundary; nothing is swapped (R185). -/
  | clearingTimeout (k : Nat)
  /-- DELIVERY_EVALUATE: the sequencer evaluates the parity counters, declares delivery complete and asks each grove
  for its verdict (R177, R279). -/
  | deliveryEvaluate (k : Nat)
  /-- MSG: packet `i`, a one-word message, reaches a receive endpoint (R196, R200). A reserved MTYPE or sender
  identity is discarded and counted. -/
  | msg (i : Nat)
  /-- NOTIFY: packet `i` fills its reserved queue entry (R218). -/
  | notify (i : Nat)
  /-- AM_ARGS: packet `i` reaches a receive endpoint (R201). -/
  | amArgs (i : Nat)
  /-- RESPONSE: packet `i`, a response, reaches the core or the attachment that sent the message (R200, R213,
  11_host_interface.md R401). -/
  | response (i : Nat)
  /-- SYNC_REPLY: packet `i` writes the result and the value of the core's sync instruction (R200). -/
  | syncReply (i : Nat)
  /-- RESPONSE_SEND: the receive endpoint of core `p` injects one pending response (R197). -/
  | responseSend (p : Nat)
  /-- HANDLER_DISPATCH: an idle engine selects a queue and begins the handler of its oldest entry (R205). -/
  | handlerDispatch (p : Nat)
  /-- RET ends the handler (R209). -/
  | ret (p low : Nat)
  /-- ADD: rd = ra + rb modulo 2^32 (R209). -/
  | add (p rd ra rb ext : Nat)
  /-- SUB: rd = ra - rb modulo 2^32 (R209). -/
  | sub (p rd ra rb ext : Nat)
  /-- AND: bitwise and (R209). -/
  | and (p rd ra rb ext : Nat)
  /-- OR: bitwise or (R209). -/
  | or (p rd ra rb ext : Nat)
  /-- XOR: bitwise exclusive or (R209). -/
  | xor (p rd ra rb ext : Nat)
  /-- SHL: rd = ra << rb[4:0] (R209). -/
  | shl (p rd ra rb ext : Nat)
  /-- SHR: rd = ra >> rb[4:0], logical (R209). -/
  | shr (p rd ra rb ext : Nat)
  /-- SAR: rd = ra >> rb[4:0], arithmetic (R209). -/
  | sar (p rd ra rb ext : Nat)
  /-- SLT: rd = 1 if ra < rb as signed, else 0 (R209). -/
  | slt (p rd ra rb ext : Nat)
  /-- MUL: rd = sext(ra[15:0]) x sext(rb[15:0]), exact (R209). -/
  | mul (p rd ra rb ext : Nat)
  /-- ADDI: rd = ra + sext(imm18) (R209). -/
  | addi (p rd ra imm : Nat)
  /-- ANDI: rd = ra & zext(imm18) (R209). -/
  | andi (p rd ra imm : Nat)
  /-- ORI: rd = ra | zext(imm18) (R209). -/
  | ori (p rd ra imm : Nat)
  /-- LUI: rd = imm18 << 14; ra must be h0 (R209). -/
  | lui (p rd ra imm : Nat)
  /-- LD: rd = mem32[ra + sext(imm18)] (R209). -/
  | ld (p rd ra imm : Nat)
  /-- ST: mem32[ra + sext(imm18)] = rd (R209). -/
  | st (p rd ra imm : Nat)
  /-- LDB: rd = zero-extended mem8[ra + sext(imm18)] (R209). -/
  | ldb (p rd ra imm : Nat)
  /-- STB: mem8[ra + sext(imm18)] = rd[7:0] (R209). -/
  | stb (p rd ra imm : Nat)
  /-- NRD: rd and rd + 1 = words 0 and 1 of the live copy of lane-neuron ra + sext(imm18) (R101, R209, R212). -/
  | nrd (p rd ra imm : Nat)
  /-- SYS: rd = the system value that imm18 selects (R211). -/
  | sys (p rd ra imm : Nat)
  /-- EMIT: an event of the step open at the core, or of the next to open (R209, 08_step_commit.md R272); a handler
  that finds no log entry stops in its EMIT (R277). -/
  | emit (p rd ra rb ext : Nat)
  /-- DENSE: reserves a completion entry and starts the HANDLER operation (R211). -/
  | dense (p rd ra rb ext : Nat)
  /-- SEND: sends a message and waits for its response (R214). -/
  | send (p rd ra rb ext : Nat)
  /-- SENDW: sends as SEND and retries on NAK_FULL or NAK_TIMEOUT (R215). -/
  | sendw (p rd ra rb ext : Nat)
  /-- WAITQ: takes an entry of a DATA queue, or waits for one (R211). -/
  | waitq (p rd ra imm : Nat)
  /-- SADD: a sync ADD request (R209). -/
  | sadd (p rd ra rb ext : Nat)
  /-- SWAIT: reserves a notification entry and sends a sync WAIT request (R218). -/
  | swait (p rd ra rb ext : Nat)
  /-- SREAD: a sync READ request (R209). -/
  | sread (p rd ra rb ext : Nat)
  /-- BEQ: branch if ra = rb (R209). -/
  | beq (p ra rb off : Nat)
  /-- BNE: branch if ra differs from rb (R209). -/
  | bne (p ra rb off : Nat)
  /-- BLT: branch if ra < rb as signed (R209). -/
  | blt (p ra rb off : Nat)
  /-- BGE: branch if ra ≥ rb as signed (R209). -/
  | bge (p ra rb off : Nat)
  /-- J: pc = TARGET (R209). -/
  | j (p low : Nat)
  /-- HANDLER_BUDGET_EXPIRE: the budget of the handler that runs or waits is exhausted (R213). -/
  | handlerBudgetExpire (p : Nat)
  /-- SEND_RESPONSE_TIMEOUT: no response within RESP_TIMEOUT; the attempt ends with NAK_TIMEOUT (R214). -/
  | sendResponseTimeout (p : Nat)
  /-- SENDW_RETRY_GAP: the gap has passed; the destination is resolved again and the message resent (R215). -/
  | sendwRetryGap (p : Nat)
  /-- WAITQ_TIMEOUT: no entry within the limit; rd = 0x8000_0000 (R211). -/
  | waitqTimeout (p : Nat)
  /-- SYNC_ADD: an ADD request of a core (R217). -/
  | syncAdd (i : Nat)
  /-- SYNC_WAIT: a WAIT request of a core (R217). -/
  | syncWait (i : Nat)
  /-- SYNC_READ: a READ request of a core (R217); a request with the reserved OP is discarded here (R219). -/
  | syncRead (i : Nat)
  /-- SYNC_NOTIFY_ISSUE: the unit of grove `g` issues its oldest notification, translating the logical id (R218). -/
  | syncNotifyIssue (g : Nat)
  /-- HOST_SYNC_ADD: a host write to SYNC_ADD performs an ADD on the object (R387). -/
  | hostSyncAdd (a g i : Nat) (v : Word)
  /-- BAR2_SYNC_WRITE: a host write to SYNC_CFG (register 0), SYNC_TARGET (4) or SYNC_COUNT (8), unless waiters are
  armed, or an enabled object would be left with TARGET below 1 (R216, R387). -/
  | bar2SyncWrite (a g i reg : Nat) (v : Word)
  /-- ENC_COUNT: a filtered edge of A (0), of B (1), or a sample in which both change (2) (R236). -/
  | encCount (edge : Nat)
  /-- LINE_EDGE: a selected edge of the line pulse (R237). -/
  | lineEdge
  /-- MAINS_ZERO_CROSS: a selected edge of the mains input (R238). -/
  | mainsZeroCross
  /-- MAINS_TICK: a tick of the MAINS source: one owed at catch-up, one of the alignment, or the next of the cycle's
  2^k evenly spaced ones (R238). -/
  | mainsTick
  /-- PTP_FOLLOW_TICK: one cycle of following D forward (R239). -/
  | ptpFollowTick
  /-- INT_TICK: a tick of INT, or of the substitute of a lost source (R240, R244). -/
  | intTick
  /-- PHASE_LOST: a loss condition of the source is raised (R244). -/
  | phaseLost
  /-- SOURCE_AUTO_RETURN: a substituted source free of every loss condition for 1 ms returns, MAINS once locked again
  (R245). A lost source without substitute reads RUNNING again after the same time (DESIGN CHOICE: R244 sets LOST, no
  rule clears it but for MAINS, which its alignment returns). -/
  | sourceAutoReturn
  /-- PIN_STAMP: a filtered edge to `level` on an input that the source does not take; a selected one in STAMP mode is
  stamped and queued (R242). -/
  | pinStamp (i : Nat) (level : Bool)
  /-- STAMP_DELIVER: the oldest stamp of input `i` is applied through its context, or dropped (R439). -/
  | stampDeliver (i : Nat)
  /-- CHANNEL_FIRE: channel `ch` is found due and fires (R250). -/
  | channelFire (ch : Nat)
  /-- CHANNEL_ARM: attachment `a` writes TB_CH_CTRL of channel `ch` with ARM = 1; `v` gives the other bits (R252). -/
  | channelArm (a ch : Nat) (v : Word)
  /-- CHANNEL_DISARM: attachment `a` writes TB_CH_CTRL of channel `ch` with DISARM = 1; `v` gives the other bits
  (R252). -/
  | channelDisarm (a ch : Nat) (v : Word)
  /-- COMPARE_WRITE: attachment `a` writes the HI half of COMPARE of channel `ch`, which completes it (R249). -/
  | compareWrite (a ch : Nat) (hi : Word)
  /-- INTERVAL_WRITE: attachment `a` writes TB_CH_INTERVAL of channel `ch` (R251). -/
  | intervalWrite (a ch : Nat) (v : Word)
  /-- GROUP_START: attachment `a` writes TB_GROUP_START_HI; the LO half is what it wrote before (R255). -/
  | groupStart (a : Nat) (hi : Word)
  /-- SEQUENCER_FIRE: a STEP-class fire reaches sequencer `k` (R270). -/
  | sequencerFire (k : Nat)
  /-- STRETCH_LIMIT: the PTB has advanced MAX_STRETCH ticks past the pending fire without a commit (R286). -/
  | stretchLimit (k : Nat)
  /-- LAST_INJECTION_DECLARE: core `p` declares; once every core has, the step is closed at every endpoint (R273). -/
  | lastInjectionDeclare (p : Nat)
  /-- ROUND: once every core has declared or stalled and what was sent is delivered, the groves are asked for their
  verdict on the work so far; once each has passed, the round ends (R278). -/
  | round (k : Nat)
  /-- CHECK_REPORT: a core's report reaches its grove's collector (R344). -/
  | checkReport (i : Nat)
  /-- GROVE_VERDICT: the collector compares sums, flags and digests and reports its verdict (R345). It waits for every
  report, for an audit of the step and for outstanding HBM data. -/
  | groveVerdict (g : Nat)
  /-- SHADOW_COPY: packet `i` of the image of grove `g`'s replay reaches the sapling, and the next one leaves (R355). -/
  | shadowCopy (g i : Nat)
  /-- REPLAY_COPY_DONE: the image is complete and the sapling runs the core's step with injection disabled (R355,
  R363). `lane`, `flip` and `value` are a fault of the sapling's neuron engine. -/
  | replayCopyDone (g lane : Nat) (flip : Word) (value : Nat)
  /-- REPLAY_DONE: the sapling's execution is complete and its digests decide the outcome, or call for a second replay
  (R356, R357). An audit is decided once the audited core has declared (R361). -/
  | replayDone (g : Nat)
  /-- TWIN_REPAIR_DONE: the neuron area, the current slots and, for finding 6, the poisoned banks have been copied
  from the twin; the sums are set equal and the core takes a strike (R359). -/
  | twinRepairDone (g : Nat)
  /-- PARTITION_COMMIT: every grove has committed and the partition commits its step (R279, R280). -/
  | partitionCommit (k : Nat)
  /-- FENCE_MIGRATION_DONE: a fence that waited takes effect, or the copy to the reserved SAPLING is complete and the
  map entry changes (R365). -/
  | fenceMigrationDone (g : Nat)
  /-- PLS_PASS_DONE: the pass of grove `g` finishes; `bad` are the positions of list entries whose rows could not be
  read twice (R310, R322). A partition that has stopped loses its unapplied log (R326). -/
  | plsPassDone (g : Nat) (bad : List Nat)
  /-- APPLY_START: the last step of the epoch has committed and every pass has finished; the apply begins in every
  grove (R319). -/
  | applyStart (k : Nat)
  /-- APPLY_DONE: the apply of grove `g` completes; `bad` are the byte addresses of rows that could not be read twice
  (R320 to R322) (R321). -/
  | applyDone (g : Nat) (bad : List Nat)
  /-- END_EPOCH: attachment `a` writes PLS_PART_CTRL of partition `k` with END_EPOCH = 1; `v` gives the other bits
  (R330). -/
  | endEpoch (a k : Nat) (v : Word)
  /-- SCRUB: the scrubber of core `p` reads the next word of local memory; `err` is 0 for no error, 1 for a single-bit
  error, 2 for a double-bit error, which poisons the word and leaves its contents open (R346, R347). -/
  | scrub (p err : Nat)
  /-- CFG_DIGEST_PASS: a pass over partition `k` completes (R352, R353). -/
  | cfgDigestPass (k : Nat)
  /-- TEST_DUE: a good core of a grove that belongs to a partition falls due (R368); domains that are not ON wake
  first (13_memory_power.md R475). -/
  | testDue (p : Nat)
  /-- TEST_MIGRATE: the role of a due ACTIVE core moves to a sapling at the first step boundary that R220 allows, at
  once for a disabled partition, and the test begins; a due SAPLING is tested in place (R369). -/
  | testMigrate (p : Nat)
  /-- TEST_DEFER_EXPIRE: DEFER_S seconds have passed and the migration is forced (R369). -/
  | testDeferExpire (p : Nat)
  /-- TEST_DONE: the test of core `p` ends; local memory is left cleared (R371). -/
  | testDone (p : Nat) (pass : Bool) (pattern : Nat)
  /-- FUNCTION_LEVEL_RESET of attachment `a` (R385). -/
  | functionLevelReset (a : Nat)
  /-- PCIE_LINK_LOSS of attachment `a` (R385). -/
  | pcieLinkLoss (a : Nat)
  /-- PERST_CHANGE: PERST_N[a] takes a level (15_startup_pins.md R537). Low is a link loss of the attachment it
  governs. -/
  | perstChange (a : Nat) (level : Bool)
  /-- CONFIG_REQUEST: a configuration request of attachment `a`'s function: the dword, and the data of a write (11_host_interface.md R382, R384, 15_startup_pins.md R540). -/
  | configRequest (a : Nat) (req : Nat × Option Word)
  /-- SCAN_ENABLE: attachment `a` writes `v` to HIF_ATT_CTRL (R392). -/
  | scanEnable (a : Nat) (v : Word)
  /-- RING_ENABLE: attachment `a` writes `v`, which sets EN, to HIF_RING_CTRL of a ring (R388). -/
  | ringEnable (a kind r : Nat) (v : Word)
  /-- RING_DISABLE: attachment `a` writes `v`, which clears EN, to HIF_RING_CTRL of a ring (R415). -/
  | ringDisable (a kind r : Nat) (v : Word)
  /-- DOORBELL_SCAN: the scan of a period is issued, or skipped where the one before it has not returned (R390). -/
  | doorbellScan (a : Nat)
  /-- SCAN_RETURN: a scan returns host indices (kind, ring, index), and the descriptors that the device then reads,
  each with its command ring (R390). -/
  | scanReturn (a : Nat) (indices : List (Nat × Nat × Nat)) (descs : List (Nat × List Byte))
  /-- NOP: with FENCE, a barrier (R394). -/
  | nop (a r : Nat)
  /-- LOAD_MEM: host bytes to local memory, within R402. `payload` is what the host's memory holds; a payload of
  another length than LENGTH is a failed read (R399). -/
  | loadMem (a r : Nat) (payload : List Byte)
  /-- READ_MEM: local memory to host, at any time (R394). -/
  | readMem (a r : Nat)
  /-- LOAD_NEURONS: state records into both copies of each lane-neuron (R99). -/
  | loadNeurons (a r : Nat) (payload : List Byte)
  /-- READ_NEURONS: the live copies, between two commits of the partition (R100). -/
  | readNeurons (a r : Nat)
  /-- LOAD_TABLE: source and canopy entries go to their staged copies (R183) (R394). -/
  | loadTable (a r : Nat) (payload : List Byte)
  /-- READ_TABLE: STAGED selects the copy of a source or canopy entry (R394). -/
  | readTable (a r : Nat)
  /-- LOAD_ROWS: rows to local memory or HBM, every row checked before anything is written (R121, R398). -/
  | loadRows (a r : Nat) (payload : List Byte)
  /-- WRITE_HBM: a raw write (R131, R327). -/
  | writeHbm (a r : Nat) (payload : List Byte)
  /-- READ_HBM: a raw read, served after an apply of the partition (R323). `status` is what the stack reports: 0 good,
  1 corrected, 2 not correctable (R135, R399). -/
  | readHbm (a r status : Nat)
  /-- LOAD_CONTEXT (R431). -/
  | loadContext (a r : Nat) (payload : List Byte)
  /-- READ_CONTEXT: contexts of PART as they stand, zeros for the others (R431). -/
  | readContext (a r : Nat)
  /-- INGEST: events into a stream context (R400). -/
  | ingest (a r : Nat) (payload : List Byte)
  /-- MESSAGE: words to a queue of the target core, one message of the attachment at a time (R401). -/
  | message (a r : Nat)
  /-- MESSAGE_TIMEOUT: no response to attachment `a`'s message within 100 µs (R401). -/
  | messageTimeout (a : Nat)
  /-- DENSE_RUN: a DESC operation of the target core starts (R140, R401). -/
  | denseRun (a r : Nat)
  /-- LOAD_WRITE: packet `i` is applied by its loader, which answers the last one of a request (R397). -/
  | loadWrite (i : Nat)
  /-- LOAD_READ: packet `i` is answered by its loader (R397). -/
  | loadRead (i : Nat)
  /-- READ_RETURN: packet `i` reaches the attachment (R397): a load is over, or bytes go to the host's buffer. -/
  | readReturn (i : Nat)
  /-- TAP_COPY_ARRIVE: tap copy `i` reaches its attachment's host interface (R406, R407). -/
  | tapCopyArrive (i : Nat)
  /-- PARTITION_ENABLE: attachment `a` writes HIF_PART_CTRL of partition `k` with ENABLE = 1; `v` gives the other bits
  (R412). -/
  | partitionEnable (a k : Nat) (v : Word)
  /-- ENABLE_CHECK_DONE: the check of partition `k` ends (R412, R413). -/
  | enableCheckDone (k : Nat)
  /-- PARTITION_DISABLE: attachment `a` writes HIF_PART_CTRL of partition `k` with DISABLE = 1; `v` gives the other
  bits (R416). -/
  | partitionDisable (a k : Nat) (v : Word)
  /-- LYLET_FRAME_RECEIVE: port `e` receives a frame. The operands say whether its FCS holds, whether it found the
  receive buffer full (R424), and the FEC codewords corrected and not correctable since the last frame. A frame for
  IEEE 1588 is passed on: PTP_EVENT_MESSAGE is what it does (R429). -/
  | lyletFrameReceive (e : Nat) (fcsOk full : Bool) (corr uncorr : Nat) (bs : List Byte)
  /-- PTP_EVENT_MESSAGE: port `e` receives an IEEE 1588 event message and stamps it. The servo's algorithm is not the
  spec's; what it decides are operands: whether this message brings an adjustment, the offset measured, the step and
  the rate given to the clock, whether it holds the clock synchronised, and a reply that it sends (R449). -/
  | ptpEventMessage (e : Nat) (update synced : Bool) (offset step : Int) (rate : Word) (reply : List Byte)
  /-- PORT_TAP_COPY: tap copy `i` reaches its event port (R440). -/
  | portTapCopy (i : Nat)
  /-- FRAME_TRANSMIT: at a frame boundary port `e` sends the next frame by priority (R446). A TC0 frame that waits for
  tokens lets the lower queues pass (DEDUCED). -/
  | frameTransmit (e : Nat)
  /-- EVP_LINK_DOWN: port `e` loses its link (R447). -/
  | evpLinkDown (e : Nat)
  /-- POWER_REQUEST: attachment `a` writes `v` to PWR_CTRL at `addr`. Attachments write those of the cores and groves
  of their partitions; the domains at the die edge are the management controller's alone (R483) (R474). -/
  | powerRequest (a addr : Nat) (v : Word)
  /-- POWER_ENTRY_STAGE: the stage in progress ends. At an abort point a pending ON abandons the entry, else the next
  stage begins; after stage 4 the domain is in its target state (R477). -/
  | powerEntryStage (addr : Nat)
  /-- POWER_ABORT_DONE: the stages of an abandoned entry are undone and the domain is ON with its contents (R477). A
  core memory that waited for its core logic's entry stays ON with it. -/
  | powerAbortDone (addr : Nat)
  /-- POWER_WAKE_DONE: a domain finishes waking once everything it depends on is ON (R473, R479). A stack that wakes
  from OFF finishes with its clear (HBM_CLEAR_DONE). -/
  | powerWakeDone (addr : Nat)
  /-- BANK_HANDOVER: attachment `a` writes `v` to MEM_BANK_OWNER[b] of core `p` (R466). -/
  | bankHandover (a p b : Nat) (v : Word)
  /-- BANK_HANDOVER_EFFECT: no access of the old owner is in flight any more (R467). -/
  | bankHandoverEffect (p b : Nat)
  /-- GET_STATUS: the request, and every message that no other command carries (R489). -/
  | getStatus (path : Nat) (msg : List Byte)
  /-- GET_RECORDS (R489). -/
  | getRecords (path : Nat) (msg : List Byte)
  /-- STAGE (R508). -/
  | stage (path : Nat) (msg : List Byte)
  /-- CONFIRM (R510). -/
  | confirm (path : Nat) (msg : List Byte)
  /-- CANCEL (R510). -/
  | cancel (path : Nat) (msg : List Byte)
  /-- READ_STAGE (R489). -/
  | readStage (path : Nat) (msg : List Byte)
  /-- DEVCFG (R492). -/
  | devcfg (path : Nat) (msg : List Byte)
  /-- PATTERN_PUSH; `flashOk`: the test flash carries the writes and erases out (R525, R526). -/
  | patternPush (path : Nat) (msg : List Byte) (flashOk : Bool)
  /-- LIFECYCLE (R498). -/
  | lifecycle (path : Nat) (msg : List Byte)
  /-- READ_CORE_MEM (R523). -/
  | readCoreMem (path : Nat) (msg : List Byte)
  /-- MGMT_NET (R489). -/
  | mgmtNet (path : Nat) (msg : List Byte)
  /-- ACK: needs no signature and gets no response (R505). -/
  | ack (path : Nat) (msg : List Byte)
  /-- SET_ENDPOINT_ID: operation 0 or 1 assigns an endpoint ID; 0 and 0xFF are none (DSP0236, PRESUMED) (R487). -/
  | setEndpointId (op eid : Nat)
  /-- GET_ENDPOINT_ID (R487). -/
  | getEndpointId
  /-- GET_MCTP_VERSION_SUPPORT: version 1.3 of the base specification and of the two message types (R487). -/
  | getMctpVersionSupport (type : Nat)
  /-- GET_MESSAGE_TYPE_SUPPORT: the Emetur type (R487). -/
  | getMessageTypeSupport
  /-- GET_VENDOR_DEFINED_MESSAGE_SUPPORT: one set, the IANA number assigned to Jorrath (R487). -/
  | getVendorDefinedMessageSupport (selector : Nat)
  /-- NEIGHBOUR_REQUEST: an ARP request (`v6` false) or neighbour solicitation for `addr`, answered for the port's own
  addresses only (R487). -/
  | neighbourRequest (addr : Nat) (v6 : Bool)
  /-- STAGE_EXPIRE: the staged change of slot `i` reaches its deadline (R510). -/
  | stageExpire (i : Nat)
  /-- REPORT_RESEND: each unacknowledged record and notice is sent again every 100 ms (R505). -/
  | reportResend
  /-- TAMPER_FIRE: detector `d` fires (R503). -/
  | tamperFire (d : Nat)
  /-- BYPASS: one bit between TDI and TDO, captured as 0 (IEEE 1149.1, PRESUMED) (R513). -/
  | bypass
  /-- SAMPLE_PRELOAD: the pins are sampled and the boundary register is loaded with `v` (R513). -/
  | samplePreload (v : Nat)
  /-- EXTEST: the boundary register drives the pins; their levels are captured and the register is loaded with `v`
  (R513). -/
  | extest (v : Nat)
  /-- IDCODE (R513). -/
  | idcode
  /-- CLAMP: the boundary register holds the pins while BYPASS is selected (R513). -/
  | clamp
  /-- HIGHZ: the output pins float while BYPASS is selected (R513). -/
  | highz
  /-- DBG_STATUS: works in a locked port too; it shows MGT_DEBUG (DESIGN CHOICE: the form of the report) (R514). -/
  | dbgStatus
  /-- DBG_CHALLENGE: a fresh nonce replaces the one before (R520). -/
  | dbgChallenge
  /-- DBG_RESPONSE: a signature over the nonce, which it uses up, raises the level to FULL (R520). -/
  | dbgResponse (sig : List Byte)
  /-- DBG_PASSWORD: a length and as many bytes; their SHA-384 against the fused hash raises the level to OBSERVE
  (R519). -/
  | dbgPassword (len : Nat) (bytes : List Byte)
  /-- DBG_CLOSE: in FIELD the port returns to CLOSED (R515). -/
  | dbgClose
  /-- DBG_NONCE_EXPIRE: the nonce is over after 10 s (R520). -/
  | dbgNonceExpire
  /-- DEBUG_SETUP_ACCESS: a debugger reads (or, at FULL, writes `v` to) set-up address `addr`, unfiltered by
  ownership, in attachment `a`'s view; with `mem`, it reads the 32-bit word of local memory at key `addr` of a bank
  whose owner is CORE. A mailbox reads zero and ignores its write (R514). -/
  | debugSetupAccess (mem write : Bool) (a addr : Nat) (v : Word)
  /-- DEBUG_PARTITION_HALT: partition `k` is halted at its next step boundary, at once where no step is open (R522).
  -/
  | debugPartitionHalt (k : Nat)
  /-- DEBUG_CORE_HALT: core `p` stops its handler engine between instructions and its dense tile at a column-block
  boundary (R522). -/
  | debugCoreHalt (p : Nat)
  /-- DEBUG_RESUME: core `x`, or partition `x`, goes on where it stopped; its frozen channels are evaluated once
  (R522). -/
  | debugResume (core : Bool) (x : Nat)
  /-- SYS_RST_N_RISE: power-up. The straps are sampled and management boot begins; what it reads and fills is filled
  here (R535, R536, R539). The lifecycle state is the one the fuses have recorded (R498). -/
  | sysRstNRise
  /-- SYS_RST_N_FALL: every domain is held in reset and every enable output goes low (R534, R535). -/
  | sysRstNFall
  /-- MGMT_BOOT_DONE: PWR_EN_CORE rises (R539). -/
  | mgmtBootDone
  /-- PG_CORE_RISE: PWR_EN_IO rises; the central domain, every router and every grove sync/cache domain wake, the Core
  Map Table is built, and the core memories are cleared and left OFF (R539 stages 3 and 4). -/
  | pgCoreRise
  /-- PG_IO_RISE: the port domains of present units and the phase block come ON, and every HBM enable rises (R539
  stage 5). -/
  | pgIoRise
  /-- PG_HBM_RISE: the power-good of a stack rises (R539 stage 6). -/
  | pgHbmRise (st : Nat)
  /-- PG_WAIT_TIMEOUT: 20 ms without PG_CORE (0), PG_IO (1) or PG_HBM of stack `which` - 2 (R531). -/
  | pgWaitTimeout (which : Nat)
  /-- HBM_TRAINING_DONE: a stack finishes training and its clear begins, or it fails (13_memory_power.md R478; R541).
  -/
  | hbmTrainingDone (st : Nat) (ok : Bool)
  /-- HBM_CLEAR_DONE: every location of a stack reads zero, and the stack is READY (13_memory_power.md R479). -/
  | hbmClearDone (st : Nat)
  /-- PG_FALL: after start-up, the fall of PG_CORE (0), PG_IO (1) or PG_HBM of stack `which` - 2; the enables of that
  group and of those that follow it go low (R533). -/
  | pgFall (which : Nat)
  /-- THERMAL_TRIP: a die sensor reads 120 °C or more: THERMTRIP_N and DEV_FAULT_N low, every rail enable low,
  FLT_THERMAL, and the effects of R533 of every group (R538). -/
  | thermalTrip (sensor reading : Nat)
  /-- CVU_START: attachment `a` writes CVU_CTRL with START = 1; `v` gives the other bits (R341). -/
  | cvuStart (a : Nat) (v : Word)
  /-- CVU_RUNNING_WRITE: attachment `a` completes a write of RUNNING; the fold is not fed (R340). -/
  | cvuRunningWrite (a : Nat) (lo hi : Word)
  /-- EVP_LINK_UP: the link of an enabled, powered port comes up, with or without auto-negotiation (R422, R423)
  (R447). -/
  | evpLinkUp (e : Nat) (an : Bool)
  /-- PCIE_LINK_UP: the link of attachment `a` finishes training at a width and rate that the strap allows (R382,
  R383, R419, 15_startup_pins.md R537). -/
  | pcieLinkUp (a width rate : Nat)
  deriving DecidableEq, Repr

end Sys2Proof
end

