-- ==== Sys2Proof/Machine/State.lean ====
section
/-! DEFINITION. The state of the FK4 block: everything the spec gives the machine, as plain data, and the machine
right after reset. Set-up registers stand in one sparse store (`regs`); what no register shows stands in the records
below, one per core, grove, partition, attachment and port. -/
namespace Sys2Proof.Machine

/-- The fuses of the part (00_scope.md R1 to R6, 14_management_security.md R497). -/
structure Fuses where
  /-- GROVE_ACTIVE: active cores per grove. -/
  active : Nat
  /-- HBM stacks fitted, one bit each. -/
  fitted : Nat
  /-- L: plasticity engines. -/
  pls : Bool
  /-- P: phase-input block. -/
  phase : Bool
  /-- E2: second event port. -/
  eth2 : Bool
  stepping : Nat
  /-- Factory defect map: physical ids of defective cores. -/
  defects : List Nat
  /-- Device identity, 128 bits (R373 key 11). -/
  deviceId : Nat
  agentKeyId : Nat
  debugKeyId : Nat
  /-- P-384 points (R495), as numbers. -/
  agentKey : Nat
  debugKey : Nat
  lifeKey : Nat
  passwordHash : Nat
  mac : Nat
  patternKey : Nat
  /-- Lifecycle state number in force (R496), and the state the fuses give from the next power-up (R498). -/
  life : Nat
  next : Nat
  /-- Re-openings used and closings used (R498). -/
  opens : Nat
  closes : Nat
  deriving DecidableEq, Repr

/-- A spike event (05_fabric.md R167). -/
structure Ev where
  key : Nat
  parity : Nat
  value : Nat
  tclass : Nat
  lane : Nat
  retract : Bool
  spilled : Bool
  handler : Bool
  /-- The event replaces one that a correction has retracted (08_step_commit.md R291). No bit of the flit says so (DESIGN CHOICE:
  the spec does not say how the egress path knows). -/
  fix : Bool := false
  deriving DecidableEq, Repr

/-- A routing tag (R166). -/
inductive Tag where
  | unicast (endpoint phys : Nat)
  | canopy (remote : Bool) (grove index : Nat)
  | unit (unit sub : Nat)
  | reserved
  deriving DecidableEq, Repr

/-- The payload of a block or row-header packet (04_synapses_dense.md R125). -/
structure BlockPkt where
  values : List Nat
  mask : Nat
  fslot : Nat
  dmax : Nat
  retract : Bool
  header : Bool
  tgt : Nat
  /-- Window of the row-home core, for reports. -/
  win : Nat
  bytes : List Byte
  deriving DecidableEq, Repr

/-- A grove-row request (R124; the packet of R168). -/
structure RowReq where
  home : Nat
  win : Nat
  key : Nat
  parity : Nat
  retract : Bool
  mask : Nat
  values : List Nat
  /-- Row-home cores of the request packets merged into it, this one's first. -/
  homes : List Nat
  deriving DecidableEq, Repr

/-- A core's check report (10_integrity.md R344). -/
structure Report where
  core : Nat
  dLoc : Nat
  rLoc : Nat
  dGrv : Nat
  rGrv : Nat
  emit : Nat
  state : Nat
  flags : Nat
  parity : Nat
  round : Bool
  entries : Nat
  deriving DecidableEq, Repr

/-- A request flit to a sync unit (06_core_messaging.md R219). -/
structure SyncReq where
  from_ : Nat
  op : Nat
  object : Nat
  operand : Word
  gen16 : Nat
  queue : Nat
  /-- Number of the request among those of its core (`Core.sends`). -/
  mark : Nat
  deriving DecidableEq, Repr

/-- Who asked for a load packet: attachment, ring slot and descriptor number, or management. -/
structure LoadRef where
  att : Nat
  ring : Nat
  seq : Nat
  deriving DecidableEq, Repr

/-- The number that the message of a descriptor carries. -/
def LoadRef.mark (r : LoadRef) : Nat := 2 ^ 32 * r.ring + r.seq

/-- What a packet carries. -/
inductive Body where
  | event (e : Ev)
  | msg (mtype : Nat) (word : Word) (src queue rcode : Nat)
  | block (b : BlockPkt)
  | rowReq (r : RowReq)
  | amArgs (src queue : Nat) (words : List Word) (crc : Option Nat)
  | loadWrite (ref : LoadRef) (target kind addr : Nat) (bytes : List Byte) (last : Bool)
  | loadRead (ref : LoadRef) (target kind : Nat) (staged : Bool) (addr len : Nat)
  | readReturn (ref : LoadRef) (addr : Nat) (bytes : List Byte) (ue write : Bool)
  | check (r : Report)
  /-- A packet of a replay image: the position of its first byte in the image, and the bytes (10_integrity.md R355). -/
  | shadowCopy (grove pos : Nat) (bytes : List Byte)
  | sync (r : SyncReq)
  | badOpcode
  deriving DecidableEq, Repr

/-- Where a packet stands: at a router, on its way to an express stop, at an endpoint of a core or at a unit. -/
inductive Place where
  | router (k : Nat)
  | stop (g : Nat)
  | core (p : Nat)
  | unit (u : Nat)
  deriving DecidableEq, Repr

/-- One packet in flight (R166 to R168). -/
structure Flight where
  place : Place
  tag : Tag
  /-- Detour: the waypoint still to be reached, if any (R187). -/
  way : Option Nat
  part : Nat
  /-- Parity of step traffic (R175); none for other traffic. -/
  step : Option Nat
  body : Body
  /-- Number of the message that the packet is, or answers, among those of its sender. -/
  mark : Nat := 0
  /-- Its source endpoint (R157): a physical core, or 0x4000 + unit. -/
  src : Nat := 0
  /-- The input at which it stands: a port of its router or stop (4 is a router's port L; 6 a unit at the stop), or the M port it
  came by. -/
  inPort : Nat := 4
  /-- Link flits of it that are still on the link to that input. -/
  left : Nat := 0
  /-- It came in one link flit with the packet before it (R155). -/
  shares : Bool := false
  /-- It is on the second leg of a detour (R156, R187). -/
  second : Bool := false
  /-- On the overlay: groves that a copy of it is still to reach (R172). -/
  targets : List Nat := []
  /-- The injection leg of a moved role (10_integrity.md R366). -/
  toRoot : Bool := false
  deriving DecidableEq, Repr

/-- One word of a core's emit log: its slot in the log area and the step it belongs to (08_step_commit.md R274). -/
structure LogEnt where
  slot : Nat
  step : Nat
  deriving DecidableEq, Repr

/-- One entry of a receive queue (R195). -/
structure QEntry where
  words : List Word
  src : Nat
  deriving DecidableEq, Repr

/-- A receive queue: its entries, oldest first, and the number of reserved entries (R195, R196). -/
structure Queue where
  entries : List QEntry
  reserved : Nat
  deriving DecidableEq, Repr

/-- A message a handler is sending (R214, R215). -/
structure SendReq where
  rd : Nat
  dest : Nat
  queue : Nat
  words : List Word
  crc : Bool
  retrying : Bool
  resends : Nat
  /-- Number of the attempt among the messages of its core (`Core.sends`). -/
  mark : Nat
  deriving DecidableEq, Repr

/-- An event a handler asks to emit (R209). -/
structure EmitReq where
  key : Nat
  value : Nat
  lane : Nat
  cls : Nat
  deriving DecidableEq, Repr

/-- What a handler waits for (R226). -/
inductive HWait where
  | none
  | send (r : SendReq)
  | gap (r : SendReq)
  | sync (op rd queue mark : Nat)
  | waitq (mask rd : Nat)
  | emit (r : EmitReq)
  deriving DecidableEq, Repr

/-- The outer handler while a nested one runs (R215). -/
structure Outer where
  regs : List (Nat × Word)
  handler : Nat
  pc : Nat
  budget : Nat
  wait : SendReq
  deriving DecidableEq, Repr

/-- Who waits for a dense operation that stands outside the step (R140). -/
inductive DnsOwner where
  | step
  | desc (ref : LoadRef)
  | handler (queue : Nat) (word : Word)
  deriving DecidableEq, Repr

/-- A dense operation in progress (R139, R142, R143). -/
structure DnsRun where
  op : Nat
  cb : Nat
  owner : DnsOwner
  /-- First column block of the chunk in progress. -/
  chunk : Nat
  rerun : Bool
  /-- 1 when a chunk has failed its check twice, 2 when a poisoned word was read (R143, R347). -/
  failed : Nat
  /-- HBM byte address up to which the weight stream of the run has arrived (R141). -/
  got : Nat
  deriving DecidableEq, Repr

/-- What one step of one core counts for its commit (03_neurons.md R107, R108). -/
structure StepCounts where
  overdrive : Nat
  vsat : Nat
  rinSlots : Nat
  rinMag : Nat
  fired : Nat
  integrated : Nat
  deriving DecidableEq, Repr

/-- A deposit that waits for its lane-neuron's slot to be taken (03_neurons.md R90): lane-neuron, ring position, value,
and the ejections of a parity that count once it has completed. -/
structure Deferred where
  lane : Nat
  pos : Nat
  value : Int
  ej : Nat
  parity : Nat
  deriving DecidableEq, Repr

/-- A fault of the neuron engine in one lane-neuron: what it exclusive-ors into word 0 of the record and into the
event's value. The zero words are no fault. -/
structure NeuFault where
  lane : Nat
  flip : Word
  value : Nat
  deriving DecidableEq, Repr

def NeuFault.none : NeuFault := ⟨0, 0, 0⟩

/-- The state of one physical core that no set-up register holds. -/
structure Core where
  /-- Synapse input queue (R122). -/
  synQ : List Ev
  /-- Step whose indication is on its way to the core. -/
  openComing : Option Nat
  /-- Step open at the core. -/
  openStep : Option Nat
  spanEnded : Bool
  declared : Bool
  /-- Lane-neurons the neuron engine has still to integrate in the step, in order (R92). -/
  neuTodo : List Nat
  /-- Those of them whose slots are still to be taken: all, or none once the engine has stalled (R86, R277). -/
  neuTake : List Nat
  /-- The fault of the neuron engine in the step, if there is one. -/
  neuBad : NeuFault
  /-- Lane-neurons integrated in the step, in order. -/
  integ : List Nat
  /-- Block selectors, one bit a block (R85). -/
  selectors : Nat
  /-- Blocks integrated in the step, one bit a block. -/
  blocks : Nat
  /-- Ring positions written since last taken: 32 * lane-neuron + position (R97). -/
  touched : Store Bool
  /-- Deposits that wait for a slot to be taken, oldest first (R90). -/
  deferred : List Deferred
  mons : Store Mon
  counts : StepCounts
  /-- Log words in use, in emission order. -/
  log : List LogEnt
  /-- Entries of the step in emission order, STATE bits zero (R348). -/
  ents : List Word
  /-- Events held by a clearing in the injection queue (R184): log slot. -/
  injQ : List Nat
  /-- The core was cut in the step (R287). -/
  cut : Bool
  /-- Row-format failures and other flags seen, four sums of four parities: 4 * parity + index, D_LOC R_LOC D_GRV R_GRV (R343). -/
  sums : Store Nat
  /-- FLAGS of the step's report (R344). -/
  flags : Nat
  queues : Store Queue
  /-- Response table by sender identity (R197): 1 + queue + 8 * code + 128 * number of the message. -/
  responses : Store Nat
  respLast : Nat
  lastDispatch : Nat
  lastWaitq : Nat
  hregs : Store Word
  /-- Messages and sync requests sent so far. Each carries its number, and so does its answer: a late answer is told from the one
  that is waited for (R213; DESIGN CHOICE: the spec says that a late answer is discarded and not how it is known). -/
  sends : Nat
  budget : Nat
  wait : HWait
  outer : Option Outer
  dns : Option DnsRun
  /-- STEP operations still to run in the step. -/
  dnsSteps : List Nat
  /-- DESC and HANDLER operations that wait for the tile or are suspended (R140). -/
  dnsQ : List DnsRun
  /-- Event words of a column block that wait for log entries (R277). -/
  dnsEvents : List Word
  /-- Halted by the debugger (R522). -/
  halted : Bool
  /-- Banks handed over but not yet in effect: bank, new owner (R467). -/
  handover : List (Nat × Nat)
  gated : Bool
  /-- Scrub pointer, in words (R346). -/
  scrubPtr : Nat
  /-- Weight-digest walk: bytes done, running register, and its value at the end of each region walked; the same values of the last
  pass and of the baseline (R351). -/
  wdigPos : Nat
  wdigRun : Nat
  wdigMarks : List Nat
  wdigLast : List Nat
  wdigBase : List Nat
  /-- The pass under way is the first since an apply: it sets a new baseline (R351). -/
  wdigNew : Bool
  /-- A third strike was counted: the core is fenced at the commit (R364, R365). -/
  fencePending : Bool
  /-- Reference time at which the last in-field test ended, and at which the present one fell due (R368, R369). -/
  testEnd : Option Nat
  testDue : Nat
  deriving DecidableEq, Repr

/-- An object of a grove sync unit (R216). -/
structure SyncObj where
  cfg : Word
  target : Word
  count : Word
  gen : Word
  deriving DecidableEq, Repr

/-- A waiter record, in arming order (R218). -/
structure Waiter where
  object : Nat
  logical : Nat
  queue : Nat
  word : Word
  deriving DecidableEq, Repr

/-- A notification still to be issued (R218). -/
structure Notice where
  logical : Nat
  queue : Nat
  word : Word
  deriving DecidableEq, Repr

/-- A grove row being delivered (R124, R360). -/
structure RowJob where
  id : Nat
  req : RowReq
  /-- First block not yet delivered; the header counts as delivered when `headerSent`. -/
  next : Nat
  headerSent : Bool
  /-- CRC failures so far, and packets to take back. -/
  crcFails : Nat
  /-- An uncorrectable read was reported and the reissue is under way: the 64-byte transaction that failed. -/
  refetch : Option Nat
  deriving DecidableEq, Repr

/-- One execution of a core's step as a replay compares it (R356). -/
structure Exec where
  emit : Nat
  state : Nat
  entries : List Word
  mons : Store Mon
  counts : StepCounts
  dense : Bool
  core : Nat
  deriving DecidableEq, Repr

/-- A replay in progress (R354 to R357): trigger 1 twin digests, 2 audit, 3 DENSE_FAIL. -/
structure Replay where
  trigger : Nat
  core : Nat
  sapling : Nat
  /-- Bytes of the image sent, and those that have reached the sapling. -/
  sent : Nat
  copied : Nat
  running : Bool
  y1 : Option Exec
  deriving DecidableEq, Repr

/-- A neuron group, split out of its six registers (R109). -/
structure Grp where
  idx : Nat
  cls : Nat
  rin : Nat
  leakMode : Nat
  fire : Nat
  depth : Nat
  lanes : Nat
  nblk : Nat
  base : Nat
  vReset : Int
  theta0 : Int
  leakC : Int
  vMax : Int
  refrac : Nat
  aShift : Nat
  leakK : Nat
  aInc : Int
  axon : Nat
  value : Nat
  channel : Nat
  /-- Byte offset of its first lane-neuron in the neuron area (R82). -/
  area : Nat
  deriving DecidableEq, Repr

/-- The state of one grove's units that no set-up register holds. -/
structure Grove where
  /-- Cause of a grove-wide fault that lasts until power-up (01_organisation.md R45). -/
  faulted : Option Nat
  rows : List RowJob
  /-- Requests that wait for a ROW stream (R132). -/
  rowQ : List RowReq
  nextJob : Nat
  /-- Grove cache: set to its lines, most recently used first (R129). -/
  cache : Store (List Nat)
  objs : Store SyncObj
  waiters : List Waiter
  notices : List Notice
  reports : List Report
  /-- A verdict has been asked for: parity and whether for a round. -/
  asked : Option (Nat × Bool)
  passed : Bool
  held : Bool
  finding : Nat
  /-- Row jobs with an outstanding FLT_HBM_DATA (R345). -/
  hbmOut : List Nat
  replay : Option Replay
  /-- Twin repairs in progress, the next first: repaired core, its twin, finding (R354, R359). -/
  repair : List (Nat × Nat × Nat)
  /-- Rank of the core the next audit takes, and whether a step owes an audit that a round put off (R361). -/
  auditNext : Nat
  auditOwed : Bool
  /-- The step last audited or skipped. -/
  auditStep : Option Nat
  /-- FLT_SAPLING_LOW is armed (R367); `none`: as the map was built, armed where that gave the grove 2 SAPLINGs or more. -/
  lowArmed : Option Bool
  /-- Moves of fenced roles under way (R365): the role's old core and the SAPLING reserved for it. -/
  reserved : List (Nat × Nat)
  /-- Cores fenced by the host whose role still has a descriptor in progress (11_host_interface.md R396), each with the
  attachment that wrote the fence. -/
  fenceWaits : List (Nat × Nat)
  /-- A grove-wide fault has stopped every core of the grove: no handler runs until the next enable (01_organisation.md R45). -/
  stopped : Bool
  /-- Core under in-field test and core due. -/
  testing : Option Nat
  /-- HBM transactions that failed once and were fetched again. -/
  refetched : List Nat
  /-- A hold of the step in progress has been counted (08_step_commit.md R299). -/
  heldCount : Bool
  /-- The engine's copy of the group registers of each rank's core (09_plasticity.md R328). -/
  plsGrps : Store (List Grp)
  /-- Entries of the request list of the open step, and whether it was lost (R309). -/
  plsLen : Nat
  plsLost : Bool
  /-- The pass that runs: the lane-neurons that fired, by rank, the length of its request list, its step, and whether the list
  was lost or falls under PAUSE (R304, R309, R314). -/
  plsFired : List (Nat × Nat)
  plsRunLen : Nat
  plsRunStep : Nat
  plsRunLost : Bool
  plsRunPaused : Bool
  /-- Fill of each bucket, in records (R315). -/
  plsFill : Store Nat
  plsPass : Bool
  plsApply : Bool
  /-- Weight-digest walk: rank of the naming core it is at, bytes of that core's regions done, running register, and its value at the
  end of each region walked (R351). -/
  wdigAt : Nat
  wdigPos : Nat
  wdigRun : Nat
  wdigMarks : List Nat
  /-- The pass under way is the first since an apply: it sets a new baseline (R351). -/
  wdigNew : Bool
  /-- Those values of the last pass, and the baselines, by naming core (R351). -/
  wdigVals : Store (List Nat)
  wdigBases : Store (List Nat)
  deriving DecidableEq, Repr

/-- One entry of a step record: TYPE, logical id, body (R281). -/
structure RecEnt where
  kind : Nat
  logical : Nat
  body : Nat
  deriving DecidableEq, Repr

/-- Where a clearing stands (R184). -/
inductive Clearing where
  | none
  | pending
  | draining (startRef : Nat) (all : Bool)
  deriving DecidableEq, Repr

/-- The state of one partition and its sequencer that no set-up register holds. -/
structure Part where
  /-- The open step (none between steps). -/
  openStep : Option Nat
  /-- Fires on their way to the sequencer. -/
  fires : Nat
  /-- PTB at the pending fire. -/
  firePtb : Nat
  /-- The pending fire found its step uncommitted. -/
  overrun : Bool
  /-- Fires merged into the pending open, and into the open of the step in progress. -/
  merged : Nat
  mergedOpen : Nat
  /-- FLT_ classes recorded in the partition status. -/
  faults : List Nat
  closed : Bool
  delivered : Bool
  cut : Bool
  heldFlag : Bool
  stretched : Bool
  rounds : Nat
  roundAsked : Bool
  earlyRetract : Bool
  spilled : Nat
  /-- Spilled events of the step before are outstanding. -/
  spillOut : Bool
  recEnts : List RecEnt
  recQ : List (List Byte)
  clearing : Clearing
  /-- The apply phase: 0 none, 1 due once every pass has finished, 2 running (09_plasticity.md R319). -/
  applying : Nat
  endAsked : Bool
  /-- Debugger: halted, halt asked for (R522). -/
  halted : Bool
  haltAsked : Bool
  /-- A stop or disable that waits for an apply to complete: cause, and whether DISABLE asked (R326). -/
  stopAsked : Option (Nat × Bool)
  checkStart : Nat
  /-- Timestamps: reference counter at the start of the apply. -/
  applyStart : Nat
  /-- The partition digests reported as a mismatch (R353). -/
  cfgTold : List Nat
  deriving DecidableEq, Repr

/-- A failure signature (10_integrity.md R373). -/
structure Sig where
  cls : Nat
  ref : Nat
  ptb : Nat
  part : Option Nat
  step : Option Nat
  core : Option Nat
  logical : Option Nat
  grove : Option Nat
  seq : Nat
  detail : List Nat
  deriving DecidableEq, Repr

/-- What leaves the device. The host's memory, the networks and the debugger stand outside the model; what the device
sends them is listed here, newest first. -/
inductive Out where
  | hostWrite (att addr : Nat) (bytes : List Byte)
  | msix (att vector : Nat)
  | regData (att : Nat) (w : Word)
  /-- A Lylet frame of port `e`, from destination MAC to FCS. -/
  | frame (e : Nat) (bytes : List Byte)
  /-- An IEEE 1588 message of port `e`. -/
  | ptp (e : Nat) (bytes : List Byte)
  /-- An Emetur message: to a collector (0, 1), or an answer over SMBus (2) or SGMII (3). -/
  | emetur (dest : Nat) (bytes : List Byte)
  /-- The answer to an MCTP control message: its command, then its fields. -/
  | mctp (command : Nat) (fields : List Nat)
  /-- The management port answers a neighbour request for an address with its MAC address. -/
  | neighbour (addr mac : Nat)
  /-- What the TAP shifts out. -/
  | tap (value : Nat)
  /-- The answer to a configuration request: Request Retry Status, or a value. -/
  | config (att : Nat) (value : Option Word)
  /-- Data of a debugger's read. -/
  | debug (value : Nat)
  deriving DecidableEq, Repr

/-- An egress record held at an endpoint until its step commits (11_host_interface.md R410, 12_event_ports.md R441):
the step it is released with, the path, and the ring of an attachment or the context of a port. -/
structure HeldRec where
  step : Nat
  part : Nat
  path : Nat
  ring : Nat
  key : Nat
  value : Nat
  lane : Nat
  tc0 : Bool
  spilled : Bool
  /-- The record of an event that replaces a retracted one (08_step_commit.md R291). -/
  fix : Bool
  deriving DecidableEq, Repr

/-- A Lylet frame formed and queued by a port (R441, R442): its UDP payload. -/
structure TxFrame where
  ctx : Nat
  part : Nat
  tc0 : Bool
  early : Bool
  retract : Bool
  records : Nat
  /-- It has waited for egress tokens, counted once (R446). -/
  shaped : Bool
  bytes : List Byte
  deriving DecidableEq, Repr

/-- One event that an endpoint will inject: key, value, lane, class. -/
structure InEv where
  key : Nat
  value : Nat
  lane : Nat
  tclass : Nat
  deriving DecidableEq, Repr

/-- A frame, INGEST or stamp accepted while no step was open to it (R436); `host` is the attachment of an INGEST. -/
structure HeldIn where
  ctx : Nat
  host : Option Nat
  /-- PTB of a phase stamp, whose event value is formed at injection (R439). -/
  stamp : Option Nat
  evs : List InEv
  deriving DecidableEq, Repr

/-- A descriptor read from a command ring (11_host_interface.md R393 to R396): its ring and index, its 64 bytes, whether
it has started, its status and OPARG once known, what it still waits for, and bytes returned so far. -/
structure DescRun where
  ring : Nat
  index : Nat
  bytes : List Byte
  started : Bool
  status : Option (Nat × Nat)
  left : Nat
  ue : Bool
  /-- Physical core its TARGET was resolved to when it started. -/
  core : Nat
  /-- Committed step of a READ_NEURONS (R100). -/
  step : Nat
  deriving DecidableEq, Repr

/-- The state of one host attachment that no set-up register holds. -/
structure Att where
  held : List HeldRec
  /-- Early TC0 records of open steps (R290, R291). -/
  early : List HeldRec
  /-- Records dropped since the last LOSS record, by egress ring, and whether a full release buffer was a cause. -/
  lost : Store Nat
  lostFull : Store Bool
  lossTold : Store Bool
  /-- Descriptors fetched and not yet completed, in the order they were read. -/
  descs : List DescRun
  /-- A scan has been issued and has not returned (R390). -/
  scanOut : Bool
  /-- Reference time of the next scan. -/
  scanNext : Nat
  /-- Rings whose first scan since EN has been made (R388), by register key. -/
  scanned : Store Bool
  /-- The MESSAGE descriptor that awaits a response, and the core and queue it was sent to (R401). -/
  msgWait : Option (LoadRef × Nat × Nat)
  /-- Reference time at which it was sent. -/
  msgAt : Nat
  /-- The strap of the port creates the attachment (R383). -/
  present : Bool
  linkUp : Bool
  /-- Writable bits of the function's configuration space, by dword (R382, R384). -/
  config : Store Word
  /-- Reference time, plus 1, of the last interrupt message of a ring, and the rings that owe one, by the key of the ring (R391). -/
  irqAt : Store Nat
  irqOwed : Store Bool
  deriving DecidableEq, Repr

/-- The state of one event port that no set-up register holds. -/
structure Port where
  held : List HeldRec
  early : List HeldRec
  holdBuf : List HeldIn
  tx0 : List TxFrame
  tx1 : List TxFrame
  pacerQ : Store (List TxFrame)
  /-- Records lost since the last LOSS frame of a context, and whether the interruption was reported. -/
  lossOwed : Store Nat
  lossTold : Store Bool
  /-- Early records that wait together for the transmitter, by context (R442). -/
  earlyWait : Store (List HeldRec)
  /-- Tokens missing from a full bucket, in twentieths of a byte, by partition (R438). -/
  inUsed : Store Nat
  outUsed : Store Nat
  /-- PCS time-stamp of the last IEEE 1588 event message, and messages queued for the transmitter (R446, R449). -/
  ptpStamp : Nat
  txPtp : List (List Byte)
  /-- Frequency adjustment of the port clock in 2^-32 ns per ns (two's complement), its fraction of a nanosecond, and
  nanoseconds since EVP_PTP_AGE last counted. -/
  ptpRate : Word
  ptpFrac : Nat
  ptpAgeNs : Nat
  deriving DecidableEq, Repr

/-- What the timebase holds that no register shows (07_timebase.md R235 to R245). -/
structure Tb where
  /-- Reference time of the last INT or substitute tick. -/
  intLast : Nat
  /-- Reference times of the last selected LINE edge and of the last one counted. -/
  lineLast : Option Nat
  lineCounted : Nat
  /-- MAINS: time of the last accepted zero-cross, the last measured period, the run of measured periods (newest first),
  alignment, ticks issued in the cycle, and ticks still to be issued for catch-up and for alignment. -/
  mainsZero : Option Nat
  mainsRef : Option Nat
  mainsRun : List Nat
  mainsAligned : Bool
  mainsIssued : Nat
  mainsOwed : Nat
  mainsAlign : Nat
  /-- The multiplier has lost lock since the last loss was raised. -/
  lockLost : Bool
  /-- Times at which TB_ENC_ERR rose, newest first. -/
  errAt : List Nat
  /-- Time at which a loss condition last held. -/
  lossAt : Nat
  /-- Stamps queued for delivery, oldest first, by input: PTB and reference counter (R242). -/
  stamps : Store (List (Nat × Nat))
  /-- The PTB as the cores see it, and its later values on the broadcast spine with the reference times at which the timebase took
  them, oldest first (R246). -/
  spine : Nat
  spineQ : List (Nat × Nat)
  /-- Reference time of the last filtered edge of an input (R235). -/
  edgeAt : Store Nat
  deriving DecidableEq, Repr

/-- A staged protection change (14_management_security.md R508). -/
structure Slot where
  id : Nat
  party : Nat
  record : List Byte
  deadline : Nat
  deriving DecidableEq, Repr

/-- A queued notice: its code, its payload, its sequence number (R504, R505) and the reference time at which it was
formed. -/
structure Notice_ where
  code : Nat
  payload : List Byte
  seq : Nat
  at_ : Nat
  deriving DecidableEq, Repr

/-- A request on its way: its path (0 to 7 a mailbox, 8 SMBus, 9 SGMII), its bytes, its arrival time, and whether the
test flash will carry out what the request asks of it. -/
structure MgtReq where
  path : Nat
  msg : List Byte
  arrived : Nat
  flashOk : Bool
  deriving DecidableEq, Repr

/-- The management domain: heartwood (R500), queues, network settings, test flash and debug port. -/
structure Mgt where
  /-- The last request counter accepted (R490). -/
  lastCounter : Option Nat
  slots : Store (Option Slot)
  /-- The last STAGE_ID issued (R508). -/
  stageId : Nat
  /-- STAGE_IDs whose deadline has passed (R510). -/
  expired : List Nat
  notices : List Notice_
  noticeSeq : Nat
  /-- A lifecycle change has been made: only GET_STATUS and GET_RECORDS are served (R498). -/
  changed : Bool
  /-- Heartwood has been wiped: its copies of the keys are zero (R502). -/
  wiped : Bool
  /-- Reference time at which GO was written in a mailbox whose request waits, and LENGTH at that time, by attachment. -/
  goAt : Store Nat
  goLen : Store Nat
  /-- Reference time of the next repeat of the queued messages (R505). -/
  resendAt : Nat
  ip4 : Nat
  ip6 : Nat
  /-- The two collectors: address and port; 0 and 0 for none. -/
  collectors : List (Nat × Nat)
  /-- The MCTP endpoint ID. -/
  eid : Nat
  /-- Requests held until DEV_READY (R540). -/
  heldReqs : List MgtReq
  /-- A pattern push is in progress: the inactive slot holds it from its start (R525). -/
  pushing : Bool
  /-- The debug nonce and the time it was given (R520). -/
  dbgNonce : Option (Nat × Nat)
  /-- TAP instruction in force for the pins, and the boundary register (R513). -/
  tapMode : Nat
  boundary : Nat
  deriving DecidableEq, Repr

/-- The pins and start-up state (15_startup_pins.md R530 to R540). -/
structure Pins where
  sysRstN : Bool
  /-- Strap pins as the board ties them, and as sampled at start-up (R536). -/
  bifPins : Nat
  smbPins : Nat
  strapBif : Nat
  strapSmb : Nat
  /-- PERST_N inputs, one bit each. -/
  perstN : Nat
  pwrEnCore : Bool
  pwrEnIo : Bool
  hbmEn : Nat
  pgCore : Bool
  pgIo : Bool
  pgHbm : Nat
  devReady : Bool
  faultN : Bool
  tripN : Bool
  /-- Stacks whose part of stage 6 is over: READY or FAILED. -/
  hbmOver : Nat
  /-- Start-up has gone no further (R531), or groups have failed after it (R533, R538). -/
  halted : Bool
  /-- Management boot is complete. -/
  booted : Bool
  deriving DecidableEq, Repr

/-- The test flash, outside the die: its capacity in MiB (0: none fitted) and its two pattern slots (R524). They outlast a
power-up. -/
structure Flash where
  mib : Nat
  slotA : List Byte
  slotB : List Byte
  activeB : Bool
  deriving DecidableEq, Repr

/-- Why the machine stops. -/
inductive Fault where
  /-- Raised by nobody: every fault of the spec is a report or a status that the state records, and the device goes
  on. Safe. -/
  | none
  deriving DecidableEq, Repr

/-- Why a command has no meaning. -/
inductive Refusal where
  /-- Raised by an arm of `exec` whose command has no meaning yet. Safe: nothing can be proved of it. -/
  | notModelled (mnemonic : String)
  deriving DecidableEq, Repr

/-- A core as a power-up leaves it. Every value the spec does not give is 0, empty or none (DESIGN CHOICE). -/
def Core.init : Core where
  synQ := []
  openComing := none
  openStep := none
  spanEnded := false
  declared := false
  neuTodo := []
  neuTake := []
  neuBad := NeuFault.none
  integ := []
  selectors := 0
  blocks := 0
  touched := []
  deferred := []
  mons := []
  counts := ⟨0, 0, 0, 0, 0, 0⟩
  log := []
  ents := []
  injQ := []
  cut := false
  sums := []
  flags := 0
  queues := []
  responses := []
  respLast := 0
  lastDispatch := 7
  lastWaitq := 7
  hregs := []
  sends := 0
  budget := 0
  wait := .none
  outer := none
  dns := none
  dnsSteps := []
  dnsQ := []
  dnsEvents := []
  halted := false
  handover := []
  gated := false
  scrubPtr := 0
  wdigPos := 0
  wdigRun := 0
  wdigMarks := []
  wdigLast := []
  wdigBase := []
  wdigNew := false
  fencePending := false
  testEnd := none
  testDue := 0

/-- A grove's units as a power-up leaves them. -/
def Grove.init : Grove where
  faulted := none
  rows := []
  rowQ := []
  nextJob := 0
  cache := []
  objs := []
  waiters := []
  notices := []
  reports := []
  asked := none
  passed := false
  held := false
  finding := 0
  hbmOut := []
  replay := none
  repair := []
  auditNext := 0
  auditOwed := false
  auditStep := none
  lowArmed := none
  reserved := []
  fenceWaits := []
  stopped := false
  testing := none
  refetched := []
  heldCount := false
  plsGrps := []
  plsLen := 0
  plsLost := false
  plsFired := []
  plsRunLen := 0
  plsRunStep := 0
  plsRunLost := false
  plsRunPaused := false
  plsFill := []
  plsPass := false
  plsApply := false
  wdigAt := 0
  wdigPos := 0
  wdigRun := 0
  wdigMarks := []
  wdigNew := false
  wdigVals := []
  wdigBases := []

/-- A partition as a power-up leaves it. -/
def Part.init : Part where
  openStep := none
  fires := 0
  firePtb := 0
  overrun := false
  merged := 0
  mergedOpen := 0
  faults := []
  closed := false
  delivered := false
  cut := false
  heldFlag := false
  stretched := false
  rounds := 0
  roundAsked := false
  earlyRetract := false
  spilled := 0
  spillOut := false
  recEnts := []
  recQ := []
  clearing := .none
  applying := 0
  endAsked := false
  halted := false
  haltAsked := false
  stopAsked := none
  checkStart := 0
  applyStart := 0
  cfgTold := []

/-- An attachment as a power-up leaves it. -/
def Att.init : Att where
  held := []
  early := []
  lost := []
  lostFull := []
  lossTold := []
  descs := []
  scanOut := false
  scanNext := 0
  scanned := []
  msgWait := none
  msgAt := 0
  present := false
  linkUp := false
  config := []
  irqAt := []
  irqOwed := []

/-- An event port as a power-up leaves it. -/
def Port.init : Port where
  held := []
  early := []
  holdBuf := []
  tx0 := []
  tx1 := []
  pacerQ := []
  lossOwed := []
  lossTold := []
  earlyWait := []
  inUsed := []
  outUsed := []
  ptpStamp := 0
  txPtp := []
  ptpRate := 0
  ptpFrac := 0
  ptpAgeNs := 0

/-- The timebase at power-up. -/
def Tb.init : Tb where
  intLast := 0
  lineLast := none
  lineCounted := 0
  mainsZero := none
  mainsRef := none
  mainsRun := []
  mainsAligned := false
  mainsIssued := 0
  mainsOwed := 0
  mainsAlign := 0
  lockLost := false
  errAt := []
  lossAt := 0
  stamps := []
  spine := 0
  spineQ := []
  edgeAt := []

/-- The management domain at power-up (R501). -/
def Mgt.init : Mgt where
  lastCounter := none
  slots := []
  stageId := 0
  expired := []
  notices := []
  noticeSeq := 0
  changed := false
  wiped := false
  goAt := []
  goLen := []
  resendAt := 100000000
  ip4 := 0
  ip6 := 0
  collectors := []
  eid := 0
  heldReqs := []
  pushing := false
  dbgNonce := none
  tapMode := 0
  boundary := 0

/-- The pins with SYS_RST_N low, every input low and every strap at 0 (DESIGN CHOICE: the board ties the straps). -/
def Pins.init : Pins where
  sysRstN := false
  bifPins := 0
  smbPins := 0
  strapBif := 0
  strapSmb := 0
  perstN := 0
  pwrEnCore := false
  pwrEnIo := false
  hbmEn := 0
  pgCore := false
  pgIo := false
  pgHbm := 0
  devReady := false
  faultN := true
  tripN := true
  hbmOver := 0
  halted := false
  booted := false

/-- A full-grade part with every unit and no defect, in FIELD (DESIGN CHOICE: the fuses are the part's). -/
def Fuses.full : Fuses where
  active := 128
  fitted := 15
  pls := true
  phase := true
  eth2 := true
  stepping := 0
  defects := []
  deviceId := 0
  agentKeyId := 0
  debugKeyId := 0
  agentKey := 0
  debugKey := 0
  lifeKey := 0
  patternKey := 0
  passwordHash := 0
  mac := 0
  life := 2
  next := 2
  opens := 0
  closes := 0

/-- The FK4 block. -/
structure State where
  fuses : Fuses
  /-- PG_CORE has risen: the routers, the grove units and the core map are up (15_startup_pins.md R539). -/
  up : Bool
  /-- Set-up registers by key (RegNames); an unlisted key holds its reset value. -/
  regs : Store Word
  /-- Ones written to reserved bits, held invisibly (00_scope.md R15). -/
  heldBits : Store Word
  /-- HI halves latched by LO reads, and LO halves waiting for their HI write (R14). -/
  hiLatch : Store Word
  loPend : Store Word
  /-- Local memory of all cores: byte at 0x40000 * p + offset. -/
  mem : Store Byte
  /-- Poisoned 64-bit words of local memory, by byte key of the word (10_integrity.md R347). -/
  poison : Store Bool
  /-- Errors of SECDED words not yet read: 1 a single-bit error, 2 a double-bit error, by `memKey` of a word of local memory, `lineKey`
  of a line of a grove cache, `ctxKey` of a stream context (10_integrity.md R346, R347). -/
  flaws : Store Nat
  /-- HBM, by byte address (04_synapses_dense.md R134). -/
  hbm : Store Byte
  cores : Store Core
  groves : Store Grove
  parts : Store Part
  /-- Source tables: 1024 * p + entry; both words as one number (05_fabric.md R169, R183). -/
  srcLive : Store Nat
  srcStaged : Store Nat
  srcChanged : Store Bool
  /-- Canopy tables: 4096 * g + entry; the 128-byte image as one number (R171, R183). -/
  canLive : Store Nat
  canStaged : Store Nat
  canChanged : Store Bool
  /-- Live detour words by register key, and entries written since the last swap (R183, R187). -/
  detLive : Store Word
  detChanged : Store Bool
  /-- Link directions: refusals of the flit in hand (R180), by 8 * node + port (Routing: `linkPeer`). -/
  refusals : Store Nat
  nacked : Store Bool
  /-- Reference times of the abandons of a link, newest first (R181). -/
  abandons : Store (List Nat)
  resync : Store Bool
  /-- Link directions that abandons have taken DOWN until the next power-up (R181). -/
  linkDead : Store Bool
  /-- Routers whose exclusion a clearing has applied (05_fabric.md R189). -/
  excluded : Store Bool
  net : List Flight
  /-- Packets that a clearing keeps from being injected, oldest first (R184). -/
  waiting : List Flight
  /-- Endpoint XOUT by 256 * endpoint + 4 * partition + parity; endpoints 0-7 attachments, 8-9 ports (R176). -/
  epXout : Store Nat
  /-- Failure signatures waiting for the management domain (10_integrity.md R375). -/
  sigs : List Sig
  /-- Stream contexts by number, 256 bits each (12_event_ports.md R430), and those poisoned. -/
  ctx : Store Nat
  ctxPoison : Store Bool
  atts : Store Att
  ports : Store Port
  /-- Routers that forward for moved roles: by old core, the logical ids, each with the canopy entries whose EJECT there is the
  role's (10_integrity.md R366). -/
  forwards : Store (List (Nat × List Nat))
  /-- Contexts whose poison has been reported (12_event_ports.md R429). -/
  ctxTold : Store Bool
  tb : Tb
  mgt : Mgt
  pins : Pins
  flash : Flash
  /-- Entries in progress of power domains: by register base, stage (1 to 4, 0 while the domain waits for another) and
  target state (13_memory_power.md R477). -/
  pwrStage : Store (Option (Nat × Nat))
  /-- Held requests of power domains in transit: REQ + 1 (R476). -/
  pwrHeld : Store Nat
  out : List Out
  /-- Next free value (Config). -/
  free : Nat
  pending : List Instr
  deriving DecidableEq, Repr

/-- The machine before a power-up of a given part: SYS_RST_N is low and every domain is held in reset (R535); nothing is
listed and every counter is 0. -/
def State.cold (f : Fuses) (fl : Flash) (p : Pins) : State where
  fuses := f
  up := false
  regs := []
  heldBits := []
  hiLatch := []
  loPend := []
  mem := []
  poison := []
  flaws := []
  hbm := []
  cores := []
  groves := []
  parts := []
  srcLive := []
  srcStaged := []
  srcChanged := []
  canLive := []
  canStaged := []
  canChanged := []
  detLive := []
  detChanged := []
  refusals := []
  nacked := []
  abandons := []
  resync := []
  linkDead := []
  excluded := []
  net := []
  waiting := []
  epXout := []
  sigs := []
  ctx := []
  ctxPoison := []
  atts := []
  ports := []
  forwards := []
  ctxTold := []
  tb := Tb.init
  mgt := Mgt.init
  pins := p
  flash := fl
  pwrStage := []
  pwrHeld := []
  out := []
  free := 0
  pending := []

/-- The machine right after reset: SYS_RST_N is low (15_startup_pins.md R535). Start-up is what SYS_RST_N_RISE and the
commands after it do. -/
def State.reset : State := State.cold Fuses.full ⟨0, [], [], false⟩ Pins.init

end Sys2Proof.Machine
end

