-- ==== Sys2Proof/Machine/Emetur.lean ====
section
/-! DEFINITION. Emetur messages as bytes (14_management_security.md R488) and their CBOR payloads (10_integrity.md
R373, R504). -/
namespace Sys2Proof.Machine

/-! ### CBOR in core deterministic encoding -/

/-- The head of a data item: major type and argument in the shortest form. -/
def cborHead (major n : Nat) : List Byte :=
  let m := major * 32
  if n < 24 then [BitVec.ofNat 8 (m + n)]
  else if n < 2 ^ 8 then BitVec.ofNat 8 (m + 24) :: (toBytes 1 n).reverse
  else if n < 2 ^ 16 then BitVec.ofNat 8 (m + 25) :: (toBytes 2 n).reverse
  else if n < 2 ^ 32 then BitVec.ofNat 8 (m + 26) :: (toBytes 4 n).reverse
  else BitVec.ofNat 8 (m + 27) :: (toBytes 8 n).reverse

def cborUint (n : Nat) : List Byte := cborHead 0 n
def cborBytes (bs : List Byte) : List Byte := cborHead 2 bs.length ++ bs
def cborArray (xs : List Nat) : List Byte := cborHead 4 xs.length ++ xs.flatMap cborUint
/-- A map of small keys to encoded values, in the order given. -/
def cborMap (ps : List (Nat × List Byte)) : List Byte := cborHead 5 ps.length ++ ps.flatMap fun p => cborUint p.1 ++ p.2

/-- A key left out where it does not apply. -/
def cborOpt (key : Nat) (v : Option Nat) : List (Nat × List Byte) :=
  match v with | some n => [(key, cborUint n)] | none => []

/-- A failure signature record (R373). -/
def recordBytes (deviceId : Nat) (r : Sig) : List Byte :=
  cborMap ([(0, cborUint 1), (1, cborUint r.cls), (2, cborUint r.ref), (3, cborUint r.ptb)]
    ++ cborOpt 4 r.part ++ cborOpt 5 r.step ++ cborOpt 6 r.core ++ cborOpt 7 r.logical ++ cborOpt 8 r.grove
    ++ [(9, cborUint r.seq)] ++ (if r.detail.isEmpty then [] else [(10, cborArray (r.detail.take 8))])
    ++ [(11, cborBytes (toBytes 16 deviceId))])

/-! ### Messages (R488) -/

def emRequest : Nat := 0
def emResponse : Nat := 1
def emNotice : Nat := 2
def emRecord : Nat := 3
def emAck : Nat := 4

/-- Header and payload of a message without signature. -/
def emMessage (typ opcode result counter nonce : Nat) (payload : List Byte) : List Byte :=
  [1, BitVec.ofNat 8 typ] ++ toBytes 2 (24 + payload.length) ++ toBytes 2 opcode ++ [BitVec.ofNat 8 result, 0]
    ++ toBytes 8 counter ++ toBytes 4 nonce ++ toBytes 4 0 ++ payload

/-- The trailer of the network transports added. -/
def emTrailer (msg : List Byte) : List Byte := msg ++ toBytes 4 (crc c32c msg)

/-- The RECORD message of a failure signature. -/
def recordMsg (deviceId nonce : Nat) (r : Sig) : List Byte := emMessage emRecord 0 0 0 nonce (recordBytes deviceId r)
/-- The NOTICE message of a management event: its code as OPCODE, its sequence number as COUNTER (R488, R505). -/
def noticeMsg (nonce : Nat) (n : Notice_) : List Byte := emMessage emNotice n.code 0 n.seq nonce n.payload

end Sys2Proof.Machine
end

