-- ==== Sys2Proof/Machine/RegMap.lean ====
section
/-! DEFINITION. The set-up register map: every register of the spec's tables with its place, its reset value and
the access type of each of its bits (00_scope.md R13 to R16, 01_organisation.md R29 to R31). One row per register
or per array of like registers. -/
namespace Sys2Proof.Machine

/-- One register, or `count` like registers at `stride`, with its reset value and the bits of each access type
(R16). Bits in no mask are reserved. -/
structure RegDesc where
  off : Nat
  stride : Nat
  count : Nat
  reset : Nat
  rw : Nat
  rwl : Nat
  w1c : Nat
  wo : Nat
  ro : Nat
  deriving DecidableEq, Repr

/-- A block of the set-up space (R29): the unit whose register table a row belongs to. -/
inductive Blk where
  | core (p : Nat) | grove (g : Nat) | tb | fab | att | hif | evp (e : Nat) | int | pwr | mba | mgt
  | pls | plsg (g : Nat) | hbm (s : Nat) | cvu
  deriving DecidableEq, Repr

namespace RegTab

/-- Registers of block core, part 0. -/
def coreRows0 : List RegDesc := [
  ⟨0x80, 0x4, 1, 0x47F, 0x0, 0xFFF0F7F, 0x0, 0x0, 0x0⟩,  -- CORE_RESCALE_ADAPT (R75)
  ⟨0x84, 0x4, 1, 0x0, 0x0, 0x0, 0x0, 0x0, 0x1FF01FF⟩,  -- CORE_RESCALE_STATUS (R77)
  ⟨0x88, 0x4, 1, 0x0, 0xFFFFFFFF, 0x0, 0x0, 0x0, 0x0⟩,  -- CORE_RESCALE_LIMIT (R78)
  ⟨0x8C, 0x4, 1, 0x0, 0xFFFFFFFF, 0x0, 0x0, 0x0, 0x0⟩,  -- CORE_SAT_TOTAL (R79)
  ⟨0x90, 0x4, 1, 0x0, 0xFFFFFFFF, 0x0, 0x0, 0x0, 0x0⟩,  -- CORE_FMT_ODD (R80)
  ⟨0xA0, 0x4, 1, 0x0, 0x1FFF0000, 0x0, 0x0, 0x0, 0x80001FFF⟩,  -- CORE_EMIT_STATUS (R298)
  ⟨0xA4, 0x4, 1, 0x0, 0xFFFFFFFF, 0x0, 0x0, 0x0, 0x0⟩,  -- CORE_EMIT_STALLS (R298)
  ⟨0xA8, 0x4, 1, 0x0, 0xFFFFFFFF, 0x0, 0x0, 0x0, 0x0⟩,  -- CORE_EMIT_ROUNDS (R298)
  ⟨0xC0, 0x8, 4, 0x0, 0x0, 0x8FFFFFFF, 0x0, 0x0, 0x0⟩,  -- CORE_TAP_KEY (R405)
  ⟨0xC4, 0x8, 4, 0x0, 0x0, 0xF01FFFFF, 0x0, 0x0, 0x0⟩,  -- CORE_TAP_CNT (R405)
  ⟨0x100, 0x4, 1, 0x3, 0x0, 0x3, 0x0, 0x0, 0x0⟩,  -- NEU_CTRL (R104)
  ⟨0x104, 0x4, 1, 0x0, 0x0, 0x0, 0x0, 0x0, 0x1FFF0103⟩,  -- NEU_STATUS (R105)
  ⟨0x108, 0x4, 1, 0x0, 0x0, 0x0, 0x0, 0x0, 0x7F01FFFF⟩,  -- NEU_AREA (R106)
  ⟨0x10C, 0x4, 1, 0x0, 0x0, 0x0, 0x0, 0x0, 0x1FFF1FFF⟩,  -- NEU_LAST (R107)
  ⟨0x110, 0x4, 1, 0x0, 0x0, 0x0, 0x0, 0x0, 0xFFFFFFFF⟩,  -- NEU_LAST_STEP (R107)
  ⟨0x114, 0x4, 1, 0x0, 0xFFFFFFFF, 0x0, 0x0, 0x0, 0x0⟩,  -- NEU_OVERDRIVE (R108)
  ⟨0x118, 0x4, 1, 0x0, 0xFFFFFFFF, 0x0, 0x0, 0x0, 0x0⟩,  -- NEU_VSAT (R108)
  ⟨0x11C, 0x4, 1, 0x0, 0xFFFFFFFF, 0x0, 0x0, 0x0, 0x0⟩,  -- NEU_RIN_SLOTS (R108)
  ⟨0x120, 0x4, 1, 0x0, 0xFFFFFFFF, 0x0, 0x0, 0x0, 0x0⟩,  -- NEU_RIN_MAG (R108)
  ⟨0x124, 0x4, 1, 0x0, 0xFFFFFFFF, 0x0, 0x0, 0x0, 0x0⟩,  -- NEU_LANE_FOLD (R108)
  ⟨0x128, 0x4, 1, 0x0, 0xFFFFFFFF, 0x0, 0x0, 0x0, 0x0⟩,  -- NEU_DEFER (R108)
  ⟨0x12C, 0x4, 1, 0x0, 0xFFFFFFFF, 0x0, 0x0, 0x0, 0x0⟩,  -- NEU_WAKES (R108)
  ⟨0x180, 0x18, 16, 0x400000, 0x0, 0xFFFFF03F, 0x0, 0x0, 0x0⟩,  -- NEU_GRP_CFG (R109)
  ⟨0x184, 0x18, 16, 0x100, 0x0, 0xFFFFFFFF, 0x0, 0x0, 0x0⟩  -- NEU_GRP_THR (R109)
]
/-- Registers of block core, part 1. -/
def coreRows1 : List RegDesc := [
  ⟨0x188, 0x18, 16, 0x7FFF, 0x0, 0xFFFFFFFF, 0x0, 0x0, 0x0⟩,  -- NEU_GRP_LIM (R109)
  ⟨0x18C, 0x18, 16, 0x0, 0x0, 0xFFFFFFFF, 0x0, 0x0, 0x0⟩,  -- NEU_GRP_DYN (R109)
  ⟨0x190, 0x18, 16, 0x0, 0x0, 0xFFFFFFF, 0x0, 0x0, 0x0⟩,  -- NEU_GRP_AXON (R109)
  ⟨0x194, 0x18, 16, 0x10000, 0x0, 0xFF01FF, 0x0, 0x0, 0x0⟩,  -- NEU_GRP_OUT (R109)
  ⟨0x300, 0x4, 1, 0x1, 0x0, 0x1, 0x0, 0x0, 0x0⟩,  -- SYN_CTRL (R146)
  ⟨0x304, 0x4, 1, 0x0, 0x0, 0x0, 0x0, 0x0, 0xFF007F⟩,  -- SYN_STATUS (R146)
  ⟨0x308, 0x4, 1, 0x0, 0xFFFFFFFF, 0x0, 0x0, 0x0, 0x0⟩,  -- SYN_EVENTS (R147)
  ⟨0x30C, 0x4, 1, 0x0, 0xFFFFFFFF, 0x0, 0x0, 0x0, 0x0⟩,  -- SYN_OPS_LO (R147)
  ⟨0x310, 0x4, 1, 0x0, 0xFFFFFFFF, 0x0, 0x0, 0x0, 0x0⟩,  -- SYN_OPS_HI (R147)
  ⟨0x314, 0x4, 1, 0x0, 0xFFFFFFFF, 0x0, 0x0, 0x0, 0x0⟩,  -- SYN_NULL (R147)
  ⟨0x318, 0x4, 1, 0x0, 0xFFFFFFFF, 0x0, 0x0, 0x0, 0x0⟩,  -- SYN_KEY_MISS (R147)
  ⟨0x31C, 0x4, 1, 0x0, 0xFFFFFFFF, 0x0, 0x0, 0x0, 0x0⟩,  -- SYN_BAD_ROW (R147)
  ⟨0x320, 0x4, 1, 0x0, 0xFFFFFFFF, 0x0, 0x0, 0x0, 0x0⟩,  -- SYN_BAD_BLOCK (R147)
  ⟨0x324, 0x4, 1, 0x0, 0xFFFFFFFF, 0x0, 0x0, 0x0, 0x0⟩,  -- SYN_COALESCED (R147)
  ⟨0x328, 0x4, 1, 0x0, 0xFFFFFFFF, 0x0, 0x0, 0x0, 0x0⟩,  -- SYN_RETRACT (R147)
  ⟨0x340, 0x20, 8, 0x0, 0x0, 0x8FFFFFFF, 0x0, 0x0, 0x0⟩,  -- SYN_WIN_KEY (R148)
  ⟨0x344, 0x20, 8, 0x0, 0x0, 0x1FFFFF, 0x0, 0x0, 0x0⟩,  -- SYN_WIN_CNT (R148)
  ⟨0x348, 0x20, 8, 0x0, 0x0, 0x801FFFFF, 0x0, 0x0, 0x0⟩,  -- SYN_WIN_CFG (R148)
  ⟨0x34C, 0x20, 8, 0x0, 0x0, 0xFFFFFFFF, 0x0, 0x0, 0x0⟩,  -- SYN_WIN_DIR (R148)
  ⟨0x350, 0x20, 8, 0x0, 0x0, 0xFFFFFFFF, 0x0, 0x0, 0x0⟩,  -- SYN_WIN_EXT (R148)
  ⟨0x500, 0x4, 1, 0x249F0, 0x0, 0x3FFFF, 0x0, 0x0, 0x0⟩,  -- DNS_CTRL (R149)
  ⟨0x504, 0x4, 1, 0x0, 0x0, 0x0, 0x0, 0x0, 0xFFF0F⟩,  -- DNS_STATUS (R149)
  ⟨0x508, 0x4, 1, 0x0, 0xFFFFFFFF, 0x0, 0x0, 0x0, 0x0⟩,  -- DNS_MACS_LO (R150)
  ⟨0x50C, 0x4, 1, 0x0, 0xFFFFFFFF, 0x0, 0x0, 0x0, 0x0⟩  -- DNS_MACS_HI (R150)
]
/-- Registers of block core, part 2. -/
def coreRows2 : List RegDesc := [
  ⟨0x510, 0x4, 1, 0x0, 0xFFFFFFFF, 0x0, 0x0, 0x0, 0x0⟩,  -- DNS_CHUNKS (R150)
  ⟨0x514, 0x4, 1, 0x0, 0xFFFFFFFF, 0x0, 0x0, 0x0, 0x0⟩,  -- DNS_CHECK_FAIL (R150)
  ⟨0x518, 0x4, 1, 0x0, 0xFFFFFFFF, 0x0, 0x0, 0x0, 0x0⟩,  -- DNS_STALL (R150)
  ⟨0x540, 0x20, 4, 0x0, 0x0, 0xFFFF800F, 0x0, 0x0, 0x0⟩,  -- DNS_OP_CFG (R151)
  ⟨0x544, 0x20, 4, 0x0, 0x0, 0x1FFF7FFF, 0x0, 0x0, 0x0⟩,  -- DNS_OP_SHAPE (R151)
  ⟨0x548, 0x20, 4, 0x0, 0x0, 0x7FFFFFF, 0x0, 0x0, 0x0⟩,  -- DNS_OP_IN (R151)
  ⟨0x54C, 0x20, 4, 0x0, 0x0, 0xFFFFFFFF, 0x0, 0x0, 0x0⟩,  -- DNS_OP_W (R151)
  ⟨0x550, 0x20, 4, 0x0, 0x0, 0xFFFFFFF, 0x0, 0x0, 0x0⟩,  -- DNS_OP_OUT (R151)
  ⟨0x554, 0x20, 4, 0x0, 0x0, 0x1FF, 0x0, 0x0, 0x0⟩,  -- DNS_OP_CH (R151)
  ⟨0x600, 0x4, 1, 0x10004080, 0x0, 0xFFFFFFF3, 0x0, 0x0, 0x0⟩,  -- HDL_CTRL (R225)
  ⟨0x604, 0x4, 1, 0xA0000000, 0x0, 0x0, 0x0, 0x0, 0xF03F07FF⟩,  -- HDL_STATUS (R226)
  ⟨0x608, 0x4, 1, 0xFF, 0xFF, 0x0, 0x0, 0x0, 0x0⟩,  -- HDL_SEL_MASK (R227)
  ⟨0x60C, 0x4, 1, 0x0, 0x0, 0x3FFFF, 0x0, 0x0, 0x0⟩,  -- HDL_DATA_BASE (R227)
  ⟨0x610, 0x4, 1, 0x0, 0x0, 0x3FFFF, 0x0, 0x0, 0x0⟩,  -- HDL_DATA_SIZE (R227)
  ⟨0x614, 0x4, 1, 0x0, 0x0, 0x0, 0x80000000, 0x0, 0x73F07FF⟩,  -- HDL_FAULT (R227)
  ⟨0x618, 0x4, 1, 0x0, 0x0, 0x0, 0x0, 0x0, 0x870007FF⟩,  -- HDL_CHECK (R227)
  ⟨0x61C, 0x4, 1, 0x0, 0x0, 0x0, 0x0, 0x0, 0xFFFFFFFF⟩,  -- HDL_PART_GROVES_LO (R227)
  ⟨0x620, 0x4, 1, 0x0, 0x0, 0x0, 0x0, 0x0, 0xFFFFFFFF⟩,  -- HDL_PART_GROVES_HI (R227)
  ⟨0x630, 0x4, 1, 0x0, 0xFFFFFFFF, 0x0, 0x0, 0x0, 0x0⟩,  -- HDL_INVOKE (R228)
  ⟨0x634, 0x4, 1, 0x0, 0xFFFFFFFF, 0x0, 0x0, 0x0, 0x0⟩,  -- HDL_FAULTS (R228)
  ⟨0x638, 0x4, 1, 0x0, 0xFFFFFFFF, 0x0, 0x0, 0x0, 0x0⟩,  -- HDL_BAD_AM (R228)
  ⟨0x63C, 0x4, 1, 0x0, 0xFFFFFFFF, 0x0, 0x0, 0x0, 0x0⟩,  -- HDL_NAK_SENT (R228)
  ⟨0x640, 0x4, 1, 0x0, 0xFFFFFFFF, 0x0, 0x0, 0x0, 0x0⟩,  -- HDL_NAK_RCVD (R228)
  ⟨0x644, 0x4, 1, 0x0, 0xFFFFFFFF, 0x0, 0x0, 0x0, 0x0⟩  -- HDL_RETRIES (R228)
]
/-- Registers of block core, part 3. -/
def coreRows3 : List RegDesc := [
  ⟨0x648, 0x4, 1, 0x0, 0xFFFFFFFF, 0x0, 0x0, 0x0, 0x0⟩,  -- HDL_EXHAUSTED (R228)
  ⟨0x64C, 0x4, 1, 0x0, 0xFFFFFFFF, 0x0, 0x0, 0x0, 0x0⟩,  -- HDL_NESTED (R228)
  ⟨0x650, 0x4, 1, 0x0, 0xFFFFFFFF, 0x0, 0x0, 0x0, 0x0⟩,  -- HDL_STRAY (R228)
  ⟨0x680, 0x10, 8, 0x0, 0x0, 0x80000001, 0x0, 0x0, 0x0⟩,  -- HDL_Q_CFG (R229)
  ⟨0x684, 0x10, 8, 0x0, 0x3F000000, 0x0, 0x0, 0x0, 0x3F3F⟩,  -- HDL_Q_STATUS (R229)
  ⟨0x688, 0x10, 8, 0x0, 0xFFFFFFFF, 0x0, 0x0, 0x0, 0x0⟩,  -- HDL_Q_ACCEPT (R229)
  ⟨0x68C, 0x10, 8, 0x0, 0xFFFFFFFF, 0x0, 0x0, 0x0, 0x0⟩,  -- HDL_Q_DROP (R229)
  ⟨0x900, 0x40, 4, 0x0, 0x4000000, 0x38000000, 0x0, 0xC0000000, 0x0⟩,  -- TB_CH_CTRL (R267)
  ⟨0x904, 0x40, 4, 0x0, 0x0, 0x0, 0x4000003, 0x0, 0xF8000000⟩,  -- TB_CH_STATUS (R267)
  ⟨0x908, 0x40, 4, 0x0, 0xFFFFFFFF, 0x0, 0x0, 0x0, 0x0⟩,  -- TB_CH_COMPARE_LO (R267)
  ⟨0x90C, 0x40, 4, 0x0, 0xFFFFFFFF, 0x0, 0x0, 0x0, 0x0⟩,  -- TB_CH_COMPARE_HI (R267)
  ⟨0x910, 0x40, 4, 0x0, 0xFFFFFFFF, 0x0, 0x0, 0x0, 0x0⟩,  -- TB_CH_INTERVAL (R267)
  ⟨0x914, 0x40, 4, 0x0, 0xFFFFFFFF, 0x0, 0x0, 0x0, 0x0⟩,  -- TB_CH_MISSED (R267)
  ⟨0x918, 0x40, 4, 0x0, 0x0, 0xC3FFFFFF, 0x0, 0x0, 0x0⟩,  -- TB_CH_LINK (R267)
  ⟨0x91C, 0x40, 4, 0x0, 0xFFFF00, 0x80000007, 0x0, 0x0, 0x0⟩,  -- TB_CH_NOTIFY (R267)
  ⟨0x920, 0x40, 4, 0x0, 0x0, 0x0, 0x0, 0x0, 0xFFFFFFFF⟩,  -- TB_CH_LCOUNT_LO (R267)
  ⟨0x924, 0x40, 4, 0x0, 0x0, 0x0, 0x0, 0x0, 0xFFFFFFFF⟩,  -- TB_CH_LCOUNT_HI (R267)
  ⟨0x928, 0x40, 4, 0x0, 0x0, 0x0, 0x0, 0x0, 0xFFFFFFFF⟩,  -- TB_CH_BASE_LO (R267)
  ⟨0x92C, 0x40, 4, 0x0, 0x0, 0x0, 0x0, 0x0, 0xFFFFFFFF⟩,  -- TB_CH_BASE_HI (R267)
  ⟨0x930, 0x40, 4, 0x0, 0x0, 0x0, 0x0, 0x0, 0xFFFFFFFF⟩,  -- TB_CH_FIRE_REF_LO (R267)
  ⟨0x934, 0x40, 4, 0x0, 0x0, 0x0, 0x0, 0x0, 0xFFFFFFFF⟩,  -- TB_CH_FIRE_REF_HI (R267)
  ⟨0x938, 0x40, 4, 0x0, 0xFFFFFFFF, 0x0, 0x0, 0x0, 0x0⟩,  -- TB_CH_FIRES (R267)
  ⟨0x93C, 0x40, 4, 0x0, 0xFFFFFFFF, 0x0, 0x0, 0x0, 0x0⟩,  -- TB_CH_WORD (R267)
  ⟨0xA00, 0x4, 1, 0x0, 0x0, 0x80001FFF, 0x0, 0x0, 0x0⟩  -- INT_CORE_TWIN (R377)
]
/-- Registers of block core, part 4. -/
def coreRows4 : List RegDesc := [
  ⟨0xA04, 0x4, 1, 0x0, 0x0, 0x0, 0x0, 0x0, 0xCF000003⟩,  -- INT_CORE_STATUS (R377)
  ⟨0xA08, 0x4, 1, 0x0, 0x0, 0x0, 0x0, 0x0, 0xFFFFFFFF⟩,  -- INT_STRIKE_STEP0 (R377)
  ⟨0xA0C, 0x4, 1, 0x0, 0x0, 0x0, 0x0, 0x0, 0xFFFFFFFF⟩,  -- INT_STRIKE_STEP1 (R377)
  ⟨0xA10, 0x4, 1, 0x0, 0x0, 0x80000000, 0x0, 0x0, 0x60000000⟩,  -- INT_TEST (R377)
  ⟨0xA14, 0x4, 1, 0xFFFFFFFF, 0x0, 0x0, 0x0, 0x0, 0xFFFFFFFF⟩,  -- INT_TEST_LAST (R377)
  ⟨0xA18, 0x4, 1, 0x0, 0x0, 0x0, 0x0, 0x0, 0xFFFFFFFF⟩,  -- INT_CFG_DIGEST_LO (R377)
  ⟨0xA1C, 0x4, 1, 0x0, 0x0, 0x0, 0x0, 0x0, 0xFFFFFFFF⟩,  -- INT_CFG_DIGEST_HI (R377)
  ⟨0xA20, 0x4, 1, 0x0, 0x0, 0x0, 0x0, 0x0, 0xFFFFFFFF⟩,  -- INT_WDIG_LO (R377)
  ⟨0xA24, 0x4, 1, 0x0, 0x0, 0x0, 0x0, 0x0, 0xFFFFFFFF⟩,  -- INT_WDIG_HI (R377)
  ⟨0xA28, 0x4, 1, 0x0, 0x0, 0x0, 0x0, 0x0, 0xFFFFFFFF⟩,  -- INT_WDIG_BASE_LO (R377)
  ⟨0xA2C, 0x4, 1, 0x0, 0x0, 0x0, 0x0, 0x0, 0xFFFFFFFF⟩,  -- INT_WDIG_BASE_HI (R377)
  ⟨0xA30, 0x4, 1, 0x0, 0x0, 0x0, 0x40000000, 0x0, 0x8000FFFF⟩,  -- INT_DIG_STATUS (R377)
  ⟨0xA40, 0x4, 1, 0x0, 0xFFFFFFFF, 0x0, 0x0, 0x0, 0x0⟩,  -- INT_PAIR_MISS (R378)
  ⟨0xA44, 0x4, 1, 0x0, 0xFFFFFFFF, 0x0, 0x0, 0x0, 0x0⟩,  -- INT_SRAM_CE (R378)
  ⟨0xA48, 0x4, 1, 0x0, 0xFFFFFFFF, 0x0, 0x0, 0x0, 0x0⟩,  -- INT_SRAM_UE (R378)
  ⟨0xA4C, 0x4, 1, 0x0, 0xFFFFFFFF, 0x0, 0x0, 0x0, 0x0⟩,  -- INT_STRIKES (R378)
  ⟨0xA50, 0x4, 1, 0x0, 0xFFFFFFFF, 0x0, 0x0, 0x0, 0x0⟩,  -- INT_REPLAYS_RUN (R378)
  ⟨0xC00, 0x4, 1, 0x0, 0x1, 0x0, 0x0, 0x80000000, 0x0⟩,  -- FAB_RTR_CTRL (R190)
  ⟨0xC04, 0x4, 1, 0x0, 0x0, 0x0, 0x8, 0x0, 0x3F0007⟩,  -- FAB_RTR_STATUS (R190)
  ⟨0xC08, 0x4, 1, 0x0, 0xFFFFFFFF, 0x0, 0x0, 0x0, 0x0⟩,  -- FAB_SRC_MISS (R191)
  ⟨0xC0C, 0x4, 1, 0x0, 0xFFFFFFFF, 0x0, 0x0, 0x0, 0x0⟩,  -- FAB_BAD_PKT (R191)
  ⟨0xC10, 0x8, 4, 0x0, 0x8FFFFFFF, 0x0, 0x0, 0x0, 0x0⟩,  -- FAB_DETOUR_RANGE (R191)
  ⟨0xC14, 0x8, 4, 0x0, 0x3FFF, 0x0, 0x0, 0x0, 0x0⟩,  -- FAB_DETOUR_WAY (R191)
  ⟨0xC40, 0x40, 6, 0x0, 0xFFFFFFFF, 0x0, 0x0, 0x0, 0x0⟩  -- FAB_PORT_PKTS_LO (R192)
]
/-- Registers of block core, part 5. -/
def coreRows5 : List RegDesc := [
  ⟨0xC44, 0x40, 6, 0x0, 0xFFFFFFFF, 0x0, 0x0, 0x0, 0x0⟩,  -- FAB_PORT_PKTS_HI (R192)
  ⟨0xC48, 0x40, 6, 0x0, 0xFFFFFFFF, 0x0, 0x0, 0x0, 0x0⟩,  -- FAB_PORT_FLITS_LO (R192)
  ⟨0xC4C, 0x40, 6, 0x0, 0xFFFFFFFF, 0x0, 0x0, 0x0, 0x0⟩,  -- FAB_PORT_FLITS_HI (R192)
  ⟨0xC50, 0x40, 6, 0x0, 0xFFFFFFFF, 0x0, 0x0, 0x0, 0x0⟩,  -- FAB_PORT_QHIGH (R192)
  ⟨0xC54, 0x40, 6, 0x0, 0xFFFFFFFF, 0x0, 0x0, 0x0, 0x0⟩,  -- FAB_PORT_STALL (R192)
  ⟨0xC58, 0x40, 6, 0x0, 0xFFFFFFFF, 0x0, 0x0, 0x0, 0x0⟩,  -- FAB_PORT_FEC_CORR (R192)
  ⟨0xC5C, 0x40, 6, 0x0, 0xFFFFFFFF, 0x0, 0x0, 0x0, 0x0⟩,  -- FAB_PORT_RETRY (R192)
  ⟨0xC60, 0x40, 6, 0x0, 0xFFFFFFFF, 0x0, 0x0, 0x0, 0x0⟩,  -- FAB_PORT_ABANDON (R192)
  ⟨0xE00, 0x10, 3, 0x0, 0x3, 0x0, 0x0, 0x0, 0x0⟩,  -- PWR_CTRL (R482)
  ⟨0xE04, 0x10, 3, 0x0, 0x0, 0x0, 0x10000000, 0x0, 0xEFC00000⟩,  -- PWR_STATUS (R482)
  ⟨0xE08, 0x10, 3, 0x0, 0xFFFFFFFF, 0x0, 0x0, 0x0, 0x0⟩,  -- PWR_WAKES (R482)
  ⟨0xE0C, 0x10, 3, 0x0, 0xFFFFFFFF, 0x0, 0x0, 0x0, 0x0⟩,  -- PWR_ABORTS (R482)
  ⟨0xF00, 0x4, 16, 0x0, 0xC000FFFF, 0x0, 0x0, 0x0, 0x20000000⟩,  -- MEM_BANK_OWNER (R485)
  ⟨0xF40, 0x4, 1, 0x0, 0x0, 0x0, 0x0, 0x0, 0xC00F0000⟩,  -- MEM_BANK_STATUS (R485)
  ⟨0xF44, 0x4, 1, 0x0, 0xFFFFFFFF, 0x0, 0x0, 0x0, 0x0⟩,  -- MEM_BANK_DENIED (R485)
  ⟨0xF48, 0x4, 1, 0x4000, 0x0, 0x0, 0x0, 0x0, 0x3FFFF⟩  -- MEM_LAYOUT (R485)
]
/-- All registers of block core. -/
def core : List RegDesc := coreRows0 ++ coreRows1 ++ coreRows2 ++ coreRows3 ++ coreRows4 ++ coreRows5

/-- Registers of block grove, part 0. -/
def groveRows0 : List RegDesc := [
  ⟨0xC0000, 0x4, 1, 0x0, 0x0, 0x0, 0x0, 0x0, 0xC0000003⟩,  -- STEP_GROVE_STATUS (R299)
  ⟨0xC0004, 0x4, 1, 0x0, 0x0, 0x0, 0x0, 0x0, 0xFFFFFFFF⟩,  -- STEP_GROVE_COMMITTED (R299)
  ⟨0xC0008, 0x4, 1, 0x0, 0xFFFFFFFF, 0x0, 0x0, 0x0, 0x0⟩,  -- STEP_GROVE_HOLDS (R299)
  ⟨0xC000C, 0x4, 1, 0x0, 0xFFFFFFFF, 0x0, 0x0, 0x0, 0x0⟩,  -- STEP_GROVE_ROUNDS (R299)
  ⟨0xC1000, 0x4, 1, 0x0, 0x0, 0x0, 0x0, 0x0, 0xC0FF0000⟩,  -- INT_GRV_STATUS (R379)
  ⟨0xC1004, 0x4, 1, 0x0, 0x0, 0x0, 0x0, 0x0, 0xFF001FFF⟩,  -- INT_GRV_LAST (R379)
  ⟨0xC1008, 0x4, 1, 0x0, 0x0, 0x0, 0x0, 0x0, 0xFFFFFFFF⟩,  -- INT_GRV_CFG_DIGEST_LO (R379)
  ⟨0xC100C, 0x4, 1, 0x0, 0x0, 0x0, 0x0, 0x0, 0xFFFFFFFF⟩,  -- INT_GRV_CFG_DIGEST_HI (R379)
  ⟨0xC1010, 0x4, 1, 0x0, 0xFFFFFFFF, 0x0, 0x0, 0x0, 0x0⟩,  -- INT_GRV_FAILS (R379)
  ⟨0xC1014, 0x4, 1, 0x0, 0xFFFFFFFF, 0x0, 0x0, 0x0, 0x0⟩,  -- INT_GRV_REPLAYS (R379)
  ⟨0xC1018, 0x4, 1, 0x0, 0xFFFFFFFF, 0x0, 0x0, 0x0, 0x0⟩,  -- INT_GRV_DECIDES (R379)
  ⟨0xC101C, 0x4, 1, 0x0, 0xFFFFFFFF, 0x0, 0x0, 0x0, 0x0⟩,  -- INT_GRV_REPAIRS (R379)
  ⟨0xC1020, 0x4, 1, 0x0, 0xFFFFFFFF, 0x0, 0x0, 0x0, 0x0⟩,  -- INT_GRV_RESUMES (R379)
  ⟨0xC1024, 0x4, 1, 0x0, 0xFFFFFFFF, 0x0, 0x0, 0x0, 0x0⟩,  -- INT_GRV_UNRESOLVED (R379)
  ⟨0xC1028, 0x4, 1, 0x0, 0xFFFFFFFF, 0x0, 0x0, 0x0, 0x0⟩,  -- INT_GRV_AUDITS (R379)
  ⟨0xC102C, 0x4, 1, 0x0, 0xFFFFFFFF, 0x0, 0x0, 0x0, 0x0⟩,  -- INT_GRV_AUDIT_SKIP (R379)
  ⟨0xC1040, 0x4, 1, 0x0, 0x0, 0xFFFF, 0x0, 0x0, 0x0⟩,  -- INT_GRV_AUDIT (R379)
  ⟨0xC2000, 0x4, 1, 0x0, 0x0, 0x0, 0x0, 0x0, 0x7FFF⟩,  -- MEM_GC_STATUS (R152)
  ⟨0xC2004, 0x4, 1, 0x0, 0x7FF0000, 0x0, 0x0, 0x0, 0x7FF⟩,  -- MEM_RQ_STATUS (R152)
  ⟨0xC2008, 0x4, 1, 0x0, 0x0, 0x0, 0x0, 0x0, 0x1FF01FF⟩,  -- MEM_PF_STATUS (R152)
  ⟨0xC2010, 0x4, 1, 0x0, 0xFFFFFFFF, 0x0, 0x0, 0x0, 0x0⟩,  -- MEM_GC_HITS (R152)
  ⟨0xC2014, 0x4, 1, 0x0, 0xFFFFFFFF, 0x0, 0x0, 0x0, 0x0⟩,  -- MEM_GC_MISSES (R152)
  ⟨0xC2018, 0x4, 1, 0x0, 0xFFFFFFFF, 0x0, 0x0, 0x0, 0x0⟩,  -- MEM_GC_EVICT (R152)
  ⟨0xC201C, 0x4, 1, 0x0, 0xFFFFFFFF, 0x0, 0x0, 0x0, 0x0⟩  -- MEM_RQ_STALL (R152)
]
/-- Registers of block grove, part 1. -/
def groveRows1 : List RegDesc := [
  ⟨0xC2020, 0x4, 1, 0x0, 0xFFFFFFFF, 0x0, 0x0, 0x0, 0x0⟩,  -- MEM_GROVE_ROWS (R152)
  ⟨0xC2024, 0x4, 1, 0x0, 0xFFFFFFFF, 0x0, 0x0, 0x0, 0x0⟩,  -- MEM_COALESCED (R152)
  ⟨0xC2028, 0x4, 1, 0x0, 0xFFFFFFFF, 0x0, 0x0, 0x0, 0x0⟩,  -- MEM_BAD_ROW (R152)
  ⟨0xC2100, 0x8, 8, 0x0, 0x0, 0x3FFFFFFF, 0x0, 0x0, 0x0⟩,  -- MEM_GC_PIN_BASE (R152)
  ⟨0xC2104, 0x8, 8, 0x0, 0x0, 0x80007FFF, 0x0, 0x0, 0x0⟩,  -- MEM_GC_PIN_SIZE (R152)
  ⟨0xC3000, 0x4, 1, 0x0, 0x0, 0x0, 0x0, 0x0, 0x3F1FFF⟩,  -- FAB_XS_STATUS (R193)
  ⟨0xC3010, 0x10, 4, 0x0, 0x0, 0x0, 0x0, 0x0, 0xFFFFFFFF⟩,  -- FAB_PC_INJ (R193)
  ⟨0xC3014, 0x10, 4, 0x0, 0x0, 0x0, 0x0, 0x0, 0xFFFFFFFF⟩,  -- FAB_PC_EJ (R193)
  ⟨0xC3018, 0x10, 4, 0x0, 0x0, 0x0, 0x0, 0x0, 0xFFFFFFFF⟩,  -- FAB_PC_XOUT (R193)
  ⟨0xC301C, 0x10, 4, 0x0, 0x0, 0x0, 0x0, 0x0, 0xFFFFFFFF⟩,  -- FAB_PC_XIN (R193)
  ⟨0xC3100, 0x40, 6, 0x0, 0xFFFFFFFF, 0x0, 0x0, 0x0, 0x0⟩,  -- FAB_PORT_PKTS_LO (R193)
  ⟨0xC3104, 0x40, 6, 0x0, 0xFFFFFFFF, 0x0, 0x0, 0x0, 0x0⟩,  -- FAB_PORT_PKTS_HI (R193)
  ⟨0xC3108, 0x40, 6, 0x0, 0xFFFFFFFF, 0x0, 0x0, 0x0, 0x0⟩,  -- FAB_PORT_FLITS_LO (R193)
  ⟨0xC310C, 0x40, 6, 0x0, 0xFFFFFFFF, 0x0, 0x0, 0x0, 0x0⟩,  -- FAB_PORT_FLITS_HI (R193)
  ⟨0xC3110, 0x40, 6, 0x0, 0xFFFFFFFF, 0x0, 0x0, 0x0, 0x0⟩,  -- FAB_PORT_QHIGH (R193)
  ⟨0xC3114, 0x40, 6, 0x0, 0xFFFFFFFF, 0x0, 0x0, 0x0, 0x0⟩,  -- FAB_PORT_STALL (R193)
  ⟨0xC3118, 0x40, 6, 0x0, 0xFFFFFFFF, 0x0, 0x0, 0x0, 0x0⟩,  -- FAB_PORT_FEC_CORR (R193)
  ⟨0xC311C, 0x40, 6, 0x0, 0xFFFFFFFF, 0x0, 0x0, 0x0, 0x0⟩,  -- FAB_PORT_RETRY (R193)
  ⟨0xC3120, 0x40, 6, 0x0, 0xFFFFFFFF, 0x0, 0x0, 0x0, 0x0⟩,  -- FAB_PORT_ABANDON (R193)
  ⟨0xC4000, 0x10, 2, 0x0, 0x3, 0x0, 0x0, 0x0, 0x0⟩,  -- PWR_CTRL (R482)
  ⟨0xC4004, 0x10, 2, 0x0, 0x0, 0x0, 0x10000000, 0x0, 0xEFC00000⟩,  -- PWR_STATUS (R482)
  ⟨0xC4008, 0x10, 2, 0x0, 0xFFFFFFFF, 0x0, 0x0, 0x0, 0x0⟩,  -- PWR_WAKES (R482)
  ⟨0xC400C, 0x10, 2, 0x0, 0xFFFFFFFF, 0x0, 0x0, 0x0, 0x0⟩,  -- PWR_ABORTS (R482)
  ⟨0xC4020, 0x4, 1, 0x0, 0x0, 0x0, 0x0, 0x0, 0xC0000FFF⟩  -- PWR_RAIL (R484)
]
/-- Registers of block grove, part 2. -/
def groveRows2 : List RegDesc := [
  ⟨0xC5000, 0x4, 1, 0x0, 0x1FFF0000, 0x0, 0x0, 0x0, 0x1FFF⟩,  -- FAB_SYNC_STATUS (R230)
  ⟨0xC5004, 0x4, 1, 0x0, 0xFFFFFFFF, 0x0, 0x0, 0x0, 0x0⟩,  -- FAB_SYNC_OPS (R230)
  ⟨0xC5008, 0x4, 1, 0x0, 0xFFFFFFFF, 0x0, 0x0, 0x0, 0x0⟩,  -- FAB_SYNC_NOTIFY (R230)
  ⟨0xC500C, 0x4, 1, 0x0, 0xFFFFFFFF, 0x0, 0x0, 0x0, 0x0⟩,  -- FAB_SYNC_POOL_FULL (R230)
  ⟨0xC5010, 0x4, 1, 0x0, 0xFFFFFFFF, 0x0, 0x0, 0x0, 0x0⟩  -- FAB_SYNC_REJECT (R230)
]
/-- All registers of block grove. -/
def grove : List RegDesc := groveRows0 ++ groveRows1 ++ groveRows2

/-- Registers of block tb, part 0. -/
def tbRows0 : List RegDesc := [
  ⟨0x0, 0x4, 1, 0x0, 0x0, 0x0, 0x0, 0x0, 0xFFFFFFFF⟩,  -- TB_PTB_LO (R262)
  ⟨0x4, 0x4, 1, 0x0, 0x0, 0x0, 0x0, 0x0, 0xFFFFFFFF⟩,  -- TB_PTB_HI (R262)
  ⟨0x8, 0x4, 1, 0x0, 0x0, 0x0, 0x0, 0x0, 0xFFFFFFFF⟩,  -- TB_REF_LO (R262)
  ⟨0xC, 0x4, 1, 0x0, 0x0, 0x0, 0x0, 0x0, 0xFFFFFFFF⟩,  -- TB_REF_HI (R262)
  ⟨0x10, 0x4, 1, 0x500000, 0x0, 0x0, 0x0, 0x0, 0xFFFF0000⟩,  -- TB_SOURCE (R262)
  ⟨0x14, 0x4, 1, 0x3E8, 0x0, 0x0, 0x0, 0x0, 0xFFFFFFFF⟩,  -- TB_INT_DIV (R262)
  ⟨0x18, 0x4, 1, 0x3E8, 0x0, 0x0, 0x0, 0x0, 0xFFFFFFFF⟩,  -- TB_SUBST_DIV (R262)
  ⟨0x1C, 0x4, 1, 0x0, 0x0, 0x0, 0x0, 0x0, 0xFFFFFF00⟩,  -- TB_LOSS_CFG (R262)
  ⟨0x20, 0x4, 1, 0x0, 0x0, 0x0, 0x0, 0x0, 0xFFFFFFFF⟩,  -- TB_PTP_EPOCH_LO (R262)
  ⟨0x24, 0x4, 1, 0x0, 0x0, 0x0, 0x0, 0x0, 0xFFFFFFFF⟩,  -- TB_PTP_EPOCH_HI (R262)
  ⟨0x28, 0x4, 1, 0x400, 0x0, 0x0, 0x0, 0x0, 0xFFFFFFFF⟩,  -- TB_PTP_PERIOD (R262)
  ⟨0x2C, 0x4, 1, 0x0, 0x0, 0x0, 0x0, 0x0, 0x107⟩,  -- TB_STATUS (R262)
  ⟨0x30, 0x4, 1, 0x0, 0x0, 0x0, 0x0, 0x0, 0xFFFFFFFF⟩,  -- TB_BACKLASH (R262)
  ⟨0x34, 0x4, 1, 0x0, 0x0, 0x0, 0x0, 0x0, 0xFFFFFFFF⟩,  -- TB_MAINS_PERIOD (R262)
  ⟨0x40, 0x4, 1, 0x0, 0x0, 0x0, 0x0, 0x0, 0xFFFFFFFF⟩,  -- TB_ENC_ERR (R263)
  ⟨0x44, 0x4, 1, 0x0, 0x0, 0x0, 0x0, 0x0, 0xFFFFFFFF⟩,  -- TB_MAINS_GLITCH (R263)
  ⟨0x48, 0x4, 1, 0x0, 0x0, 0x0, 0x0, 0x0, 0xFFFFFFFF⟩,  -- TB_MAINS_CATCHUP (R263)
  ⟨0x4C, 0x4, 1, 0x0, 0x0, 0x0, 0x0, 0x0, 0xFFFFFFFF⟩,  -- TB_PTP_BACKSTEP (R263)
  ⟨0x50, 0x4, 1, 0x0, 0x0, 0x0, 0x0, 0x0, 0xFFFFFFFF⟩,  -- TB_LOSS_EVENTS (R263)
  ⟨0x100, 0x20, 8, 0x0, 0x0, 0x0, 0x0, 0x0, 0xFFFFFFFF⟩,  -- TB_PIN_CFG (R264)
  ⟨0x104, 0x20, 8, 0x0, 0x0, 0x0, 0x0, 0x0, 0xC000001F⟩,  -- TB_PIN_STATUS (R264)
  ⟨0x108, 0x20, 8, 0x0, 0x0, 0x0, 0x0, 0x0, 0xFFFFFFFF⟩,  -- TB_PIN_PTB_LO (R264)
  ⟨0x10C, 0x20, 8, 0x0, 0x0, 0x0, 0x0, 0x0, 0xFFFFFFFF⟩,  -- TB_PIN_PTB_HI (R264)
  ⟨0x110, 0x20, 8, 0x0, 0x0, 0x0, 0x0, 0x0, 0xFFFFFFFF⟩  -- TB_PIN_REF_LO (R264)
]
/-- Registers of block tb, part 1. -/
def tbRows1 : List RegDesc := [
  ⟨0x114, 0x20, 8, 0x0, 0x0, 0x0, 0x0, 0x0, 0xFFFFFFFF⟩,  -- TB_PIN_REF_HI (R264)
  ⟨0x118, 0x20, 8, 0x0, 0x0, 0x0, 0x0, 0x0, 0xFFFFFFFF⟩,  -- TB_PIN_EDGES (R264)
  ⟨0x11C, 0x20, 8, 0x0, 0x0, 0x0, 0x0, 0x0, 0xFFFFFFFF⟩,  -- TB_PIN_OVF (R264)
  ⟨0x200, 0x4, 1, 0x0, 0x0, 0x0, 0x0, 0xFFFFFFFF, 0x0⟩,  -- TB_GROUP_START_LO (R265)
  ⟨0x204, 0x4, 1, 0x0, 0x0, 0x0, 0x0, 0xFFFFFFFF, 0x0⟩,  -- TB_GROUP_START_HI (R265)
  ⟨0x2000, 0x4, 1024, 0x0, 0x0, 0x0, 0x0, 0x0, 0x8000003F⟩,  -- TB_GCH_OWNER (R266)
  ⟨0x10000, 0x40, 1024, 0x0, 0x4000000, 0x38000000, 0x0, 0xC0000000, 0x0⟩,  -- TB_CH_CTRL (R267)
  ⟨0x10004, 0x40, 1024, 0x0, 0x0, 0x0, 0x4000003, 0x0, 0xF8000000⟩,  -- TB_CH_STATUS (R267)
  ⟨0x10008, 0x40, 1024, 0x0, 0xFFFFFFFF, 0x0, 0x0, 0x0, 0x0⟩,  -- TB_CH_COMPARE_LO (R267)
  ⟨0x1000C, 0x40, 1024, 0x0, 0xFFFFFFFF, 0x0, 0x0, 0x0, 0x0⟩,  -- TB_CH_COMPARE_HI (R267)
  ⟨0x10010, 0x40, 1024, 0x0, 0xFFFFFFFF, 0x0, 0x0, 0x0, 0x0⟩,  -- TB_CH_INTERVAL (R267)
  ⟨0x10014, 0x40, 1024, 0x0, 0xFFFFFFFF, 0x0, 0x0, 0x0, 0x0⟩,  -- TB_CH_MISSED (R267)
  ⟨0x10018, 0x40, 1024, 0x0, 0x0, 0xC3FFFFFF, 0x0, 0x0, 0x0⟩,  -- TB_CH_LINK (R267)
  ⟨0x1001C, 0x40, 1024, 0x0, 0x0, 0x0, 0x0, 0x0, 0x0⟩,  -- TB_CH_NOTIFY (R267)
  ⟨0x10020, 0x40, 1024, 0x0, 0x0, 0x0, 0x0, 0x0, 0xFFFFFFFF⟩,  -- TB_CH_LCOUNT_LO (R267)
  ⟨0x10024, 0x40, 1024, 0x0, 0x0, 0x0, 0x0, 0x0, 0xFFFFFFFF⟩,  -- TB_CH_LCOUNT_HI (R267)
  ⟨0x10028, 0x40, 1024, 0x0, 0x0, 0x0, 0x0, 0x0, 0xFFFFFFFF⟩,  -- TB_CH_BASE_LO (R267)
  ⟨0x1002C, 0x40, 1024, 0x0, 0x0, 0x0, 0x0, 0x0, 0xFFFFFFFF⟩,  -- TB_CH_BASE_HI (R267)
  ⟨0x10030, 0x40, 1024, 0x0, 0x0, 0x0, 0x0, 0x0, 0xFFFFFFFF⟩,  -- TB_CH_FIRE_REF_LO (R267)
  ⟨0x10034, 0x40, 1024, 0x0, 0x0, 0x0, 0x0, 0x0, 0xFFFFFFFF⟩,  -- TB_CH_FIRE_REF_HI (R267)
  ⟨0x10038, 0x40, 1024, 0x0, 0xFFFFFFFF, 0x0, 0x0, 0x0, 0x0⟩,  -- TB_CH_FIRES (R267)
  ⟨0x1003C, 0x40, 1024, 0x0, 0x0, 0x0, 0x0, 0x0, 0x0⟩  -- TB_CH_WORD (R267)
]
/-- All registers of block tb. -/
def tb : List RegDesc := tbRows0 ++ tbRows1

/-- Registers of block fab, part 0. -/
def fabRows0 : List RegDesc := [
  ⟨0x0, 0x20, 64, 0x0, 0x0, 0x0, 0x0, 0x80000000, 0x0⟩,  -- FAB_CLEAR_CTRL (R194)
  ⟨0x4, 0x20, 64, 0x0, 0x0, 0x0, 0x0, 0x0, 0xE0FFFFFF⟩,  -- FAB_CLEAR_STATUS (R194)
  ⟨0x8, 0x20, 64, 0x0, 0x0, 0x0, 0x0, 0x0, 0xFFFFFFFF⟩,  -- FAB_CLEAR_TIME (R194)
  ⟨0xC, 0x20, 64, 0x0, 0xFFFFFFFF, 0x0, 0x0, 0x0, 0x0⟩  -- FAB_LOSS (R194)
]
/-- All registers of block fab. -/
def fab : List RegDesc := fabRows0

/-- Registers of block att, part 0. -/
def attRows0 : List RegDesc := [
  ⟨0x10, 0x4, 1, 0x0, 0x0, 0x0, 0x0, 0x0, 0xFFF00001⟩,  -- HIF_ATT_ID (R419)
  ⟨0x14, 0x4, 1, 0x0, 0x1, 0x0, 0x80000000, 0x0, 0x0⟩,  -- HIF_ATT_CTRL (R419)
  ⟨0x18, 0x4, 1, 0x3E8, 0xFFFFF, 0x0, 0x0, 0x0, 0x0⟩,  -- HIF_DB_PERIOD (R419)
  ⟨0x20, 0x4, 1, 0x0, 0xFFFFF000, 0x0, 0x0, 0x0, 0x0⟩,  -- HIF_DB_BASE_LO (R419)
  ⟨0x24, 0x4, 1, 0x0, 0xFFFFFFFF, 0x0, 0x0, 0x0, 0x0⟩,  -- HIF_DB_BASE_HI (R419)
  ⟨0x28, 0x4, 1, 0x0, 0xFFFFF000, 0x0, 0x0, 0x0, 0x0⟩,  -- HIF_SHADOW_BASE_LO (R419)
  ⟨0x2C, 0x4, 1, 0x0, 0xFFFFFFFF, 0x0, 0x0, 0x0, 0x0⟩,  -- HIF_SHADOW_BASE_HI (R419)
  ⟨0x30, 0x4, 1, 0x0, 0xFFFFFFFF, 0x0, 0x0, 0x0, 0x0⟩,  -- HIF_FILTERED (R419)
  ⟨0x34, 0x4, 1, 0x0, 0x0, 0x0, 0x0, 0x0, 0xFFFFFFFF⟩,  -- HIF_FILTER_ADDR (R419)
  ⟨0x38, 0x4, 1, 0x0, 0xFFFFFFFF, 0x0, 0x0, 0x0, 0x0⟩,  -- HIF_BAD_ACCESS (R419)
  ⟨0x3C, 0x4, 1, 0x0, 0xFFFFFFFF, 0x0, 0x0, 0x0, 0x0⟩,  -- HIF_DB_LATE (R419)
  ⟨0x40, 0x4, 1, 0x0, 0xFFFFFFFF, 0x0, 0x0, 0x0, 0x0⟩,  -- HIF_CHECK_ERR (R419)
  ⟨0x44, 0x4, 1, 0x0, 0xFFFFFFFF, 0x0, 0x0, 0x0, 0x0⟩,  -- HIF_HOST_ERR (R419)
  ⟨0x48, 0x4, 1, 0x0, 0x0, 0x0, 0x0, 0x0, 0x1FFFF⟩,  -- HIF_REL_STATUS (R419)
  ⟨0x4C, 0x4, 1, 0x0, 0xFFFFFFFF, 0x0, 0x0, 0x0, 0x0⟩,  -- HIF_REL_DROP (R419)
  ⟨0x50, 0x4, 1, 0x0, 0xFFFFFFFF, 0x0, 0x0, 0x0, 0x0⟩,  -- HIF_EGRESS_MISS (R419)
  ⟨0x10000, 0x20, 64, 0x6, 0xE03F001F, 0x0, 0x0, 0x0, 0x0⟩,  -- HIF_RING_CTRL (R420)
  ⟨0x10004, 0x20, 64, 0x0, 0x0, 0x0, 0x2000000, 0x0, 0xFC00000F⟩,  -- HIF_RING_STATUS (R420)
  ⟨0x10008, 0x20, 64, 0x0, 0xFFFFF000, 0x0, 0x0, 0x0, 0x0⟩,  -- HIF_RING_BASE_LO (R420)
  ⟨0x1000C, 0x20, 64, 0x0, 0xFFFFFFFF, 0x0, 0x0, 0x0, 0x0⟩,  -- HIF_RING_BASE_HI (R420)
  ⟨0x10010, 0x20, 64, 0x0, 0x0, 0x0, 0x0, 0x0, 0xFFFFFFFF⟩,  -- HIF_RING_DEV_IDX (R420)
  ⟨0x10014, 0x20, 64, 0x0, 0x0, 0x0, 0x0, 0x0, 0xFFFFFFFF⟩,  -- HIF_RING_HOST_IDX (R420)
  ⟨0x10018, 0x20, 64, 0x0, 0xFFFFFFFF, 0x0, 0x0, 0x0, 0x0⟩,  -- HIF_RING_COUNT (R420)
  ⟨0x20000, 0x20, 64, 0x6, 0xE03F001F, 0x0, 0x0, 0x0, 0x0⟩  -- HIF_RING_CTRL (R420)
]
/-- Registers of block att, part 1. -/
def attRows1 : List RegDesc := [
  ⟨0x20004, 0x20, 64, 0x0, 0x0, 0x0, 0x2000000, 0x0, 0xFC00000F⟩,  -- HIF_RING_STATUS (R420)
  ⟨0x20008, 0x20, 64, 0x0, 0xFFFFF000, 0x0, 0x0, 0x0, 0x0⟩,  -- HIF_RING_BASE_LO (R420)
  ⟨0x2000C, 0x20, 64, 0x0, 0xFFFFFFFF, 0x0, 0x0, 0x0, 0x0⟩,  -- HIF_RING_BASE_HI (R420)
  ⟨0x20010, 0x20, 64, 0x0, 0x0, 0x0, 0x0, 0x0, 0xFFFFFFFF⟩,  -- HIF_RING_DEV_IDX (R420)
  ⟨0x20014, 0x20, 64, 0x0, 0x0, 0x0, 0x0, 0x0, 0xFFFFFFFF⟩,  -- HIF_RING_HOST_IDX (R420)
  ⟨0x20018, 0x20, 64, 0x0, 0xFFFFFFFF, 0x0, 0x0, 0x0, 0x0⟩,  -- HIF_RING_COUNT (R420)
  ⟨0x40000, 0x20, 512, 0x6, 0xE03F001F, 0x0, 0x0, 0x0, 0x0⟩,  -- HIF_RING_CTRL (R420)
  ⟨0x40004, 0x20, 512, 0x0, 0x0, 0x0, 0x2000000, 0x0, 0xFC00000F⟩,  -- HIF_RING_STATUS (R420)
  ⟨0x40008, 0x20, 512, 0x0, 0xFFFFF000, 0x0, 0x0, 0x0, 0x0⟩,  -- HIF_RING_BASE_LO (R420)
  ⟨0x4000C, 0x20, 512, 0x0, 0xFFFFFFFF, 0x0, 0x0, 0x0, 0x0⟩,  -- HIF_RING_BASE_HI (R420)
  ⟨0x40010, 0x20, 512, 0x0, 0x0, 0x0, 0x0, 0x0, 0xFFFFFFFF⟩,  -- HIF_RING_DEV_IDX (R420)
  ⟨0x40014, 0x20, 512, 0x0, 0x0, 0x0, 0x0, 0x0, 0xFFFFFFFF⟩,  -- HIF_RING_HOST_IDX (R420)
  ⟨0x40018, 0x20, 512, 0x0, 0xFFFFFFFF, 0x0, 0x0, 0x0, 0x0⟩,  -- HIF_RING_COUNT (R420)
  ⟨0x60000, 0x10, 256, 0x0, 0x0, 0xFF0001FF, 0x0, 0x0, 0x0⟩,  -- HIF_EP_CFG (R407)
  ⟨0x60004, 0x10, 256, 0x0, 0x0, 0xFFFFFFF, 0x0, 0x0, 0x0⟩,  -- HIF_EP_KEY (R407)
  ⟨0x60008, 0x10, 256, 0x0, 0x0, 0x1FFFFF, 0x0, 0x0, 0x0⟩,  -- HIF_EP_CNT (R407)
  ⟨0x70000, 0x4, 256, 0x0, 0xFFFFFFFF, 0x0, 0x0, 0x0, 0x0⟩,  -- MSIX_TABLE (R384)
  ⟨0x71000, 0x4, 2, 0x0, 0x0, 0x0, 0x0, 0x0, 0xFFFFFFFF⟩  -- MSIX_PBA (R384)
]
/-- All registers of block att. -/
def att : List RegDesc := attRows0 ++ attRows1

/-- Registers of block hif, part 0. -/
def hifRows0 : List RegDesc := [
  ⟨0x0, 0x4, 1, 0x0, 0x0, 0x0, 0x0, 0x0, 0xFFFFFFFF⟩,  -- HIF_CAPABILITY0 (R6)
  ⟨0x4, 0x4, 1, 0x40, 0x0, 0x0, 0x0, 0x0, 0xFFFFFF⟩,  -- HIF_CAPABILITY1 (R6)
  ⟨0x80000, 0x20, 64, 0x0, 0x0, 0x0, 0x0, 0xC0000000, 0x0⟩,  -- HIF_PART_CTRL (R421)
  ⟨0x80004, 0x20, 64, 0x0, 0x0, 0x0, 0x0, 0x0, 0xE0000000⟩,  -- HIF_PART_STATUS (R421)
  ⟨0x80008, 0x20, 64, 0x0, 0x0, 0x0, 0x0, 0x0, 0xFFFFFFFF⟩,  -- HIF_PART_RESULT (R421)
  ⟨0x8000C, 0x20, 64, 0x0, 0x0, 0x0, 0x0, 0x0, 0x80000007⟩,  -- HIF_PART_OWNER (R421)
  ⟨0x80010, 0x20, 64, 0x0, 0x0, 0x0, 0x0, 0x0, 0xFFFFFFFF⟩,  -- HIF_PART_GROVES_LO (R421)
  ⟨0x80014, 0x20, 64, 0x0, 0x0, 0x0, 0x0, 0x0, 0xFFFFFFFF⟩,  -- HIF_PART_GROVES_HI (R421)
  ⟨0x80800, 0x4, 64, 0x0, 0x0, 0x0, 0x0, 0x0, 0xFFFFFFFF⟩,  -- HIF_PART_CHECK_NS (R421)
  ⟨0xF00000, 0x400, 64, 0x4000, 0x0, 0x7FF33, 0x0, 0x0, 0x0⟩,  -- STEP_POLICY (R300)
  ⟨0xF00004, 0x400, 64, 0xFFFFFFFF, 0x0, 0xFFFFFFFF, 0x0, 0x0, 0x0⟩,  -- STEP_MAX_STRETCH (R300)
  ⟨0xF00008, 0x400, 64, 0x0, 0x0, 0xFFFFFFFF, 0x0, 0x0, 0x0⟩,  -- STEP_START (R300)
  ⟨0xF0000C, 0x400, 64, 0x0, 0x0, 0x0, 0x0, 0x0, 0xFF800000⟩,  -- STEP_STATE (R300)
  ⟨0xF00010, 0x400, 64, 0x0, 0x0, 0x0, 0x0, 0x0, 0xFFFFFFFF⟩,  -- STEP_OPEN (R300)
  ⟨0xF00014, 0x400, 64, 0xFFFFFFFF, 0x0, 0x0, 0x0, 0x0, 0xFFFFFFFF⟩,  -- STEP_COMMITTED (R300)
  ⟨0xF00018, 0x400, 64, 0x0, 0x0, 0x0, 0x0, 0x0, 0xFFFFFFFF⟩,  -- STEP_OPEN_PTB_LO (R300)
  ⟨0xF0001C, 0x400, 64, 0x0, 0x0, 0x0, 0x0, 0x0, 0xFFFFFFFF⟩,  -- STEP_OPEN_PTB_HI (R300)
  ⟨0xF00020, 0x400, 64, 0x0, 0x0, 0x0, 0x0, 0x0, 0xFFFFFFFF⟩,  -- STEP_OPEN_REF_LO (R300)
  ⟨0xF00024, 0x400, 64, 0x0, 0x0, 0x0, 0x0, 0x0, 0xFFFFFFFF⟩,  -- STEP_OPEN_REF_HI (R300)
  ⟨0xF00028, 0x400, 64, 0x0, 0x0, 0x0, 0x0, 0x0, 0xFFFFFFFF⟩,  -- STEP_LAST_NS (R300)
  ⟨0xF0002C, 0x400, 64, 0x0, 0x0, 0x0, 0x0, 0x0, 0xFFFFFFFF⟩,  -- STEP_SPILL_PENDING (R300)
  ⟨0xF00030, 0x400, 64, 0x0, 0x0, 0xFFFFFFFF, 0x0, 0x0, 0x0⟩,  -- STEP_REC_BASE (R300)
  ⟨0xF00034, 0x400, 64, 0x7, 0x0, 0x1F, 0x0, 0x0, 0x0⟩,  -- STEP_REC_SIZE (R300)
  ⟨0xF00038, 0x400, 64, 0x0, 0x0, 0x0, 0x0, 0x0, 0xFFFFFFFF⟩  -- STEP_REC_HEAD (R300)
]
/-- Registers of block hif, part 1. -/
def hifRows1 : List RegDesc := [
  ⟨0xF00040, 0x400, 64, 0x0, 0xFFFFFFFF, 0x0, 0x0, 0x0, 0x0⟩,  -- STEP_STRETCHED (R301)
  ⟨0xF00044, 0x400, 64, 0x0, 0xFFFFFFFF, 0x0, 0x0, 0x0, 0x0⟩,  -- STEP_STRETCH_TICKS (R301)
  ⟨0xF00048, 0x400, 64, 0x0, 0xFFFFFFFF, 0x0, 0x0, 0x0, 0x0⟩,  -- STEP_MERGED (R301)
  ⟨0xF0004C, 0x400, 64, 0x0, 0xFFFFFFFF, 0x0, 0x0, 0x0, 0x0⟩,  -- STEP_SPILLS (R301)
  ⟨0xF00050, 0x400, 64, 0x0, 0xFFFFFFFF, 0x0, 0x0, 0x0, 0x0⟩,  -- STEP_SPILLED_EVENTS (R301)
  ⟨0xF00054, 0x400, 64, 0x0, 0xFFFFFFFF, 0x0, 0x0, 0x0, 0x0⟩,  -- STEP_HELD (R301)
  ⟨0xF00058, 0x400, 64, 0x0, 0xFFFFFFFF, 0x0, 0x0, 0x0, 0x0⟩,  -- STEP_ROUNDS (R301)
  ⟨0xF0005C, 0x400, 64, 0x0, 0xFFFFFFFF, 0x0, 0x0, 0x0, 0x0⟩,  -- STEP_RETRACTS (R301)
  ⟨0xF00060, 0x400, 64, 0x0, 0xFFFFFFFF, 0x0, 0x0, 0x0, 0x0⟩,  -- STEP_EARLY (R301)
  ⟨0xF00064, 0x400, 64, 0x0, 0xFFFFFFFF, 0x0, 0x0, 0x0, 0x0⟩,  -- STEP_EARLY_RETRACT (R301)
  ⟨0xF00068, 0x400, 64, 0x0, 0xFFFFFFFF, 0x0, 0x0, 0x0, 0x0⟩,  -- STEP_REC_LOST (R301)
  ⟨0xF0006C, 0x400, 64, 0x0, 0xFFFFFFFF, 0x0, 0x0, 0x0, 0x0⟩  -- STEP_REC_WRAPS (R301)
]
/-- All registers of block hif. -/
def hif : List RegDesc := hifRows0 ++ hifRows1

/-- Registers of block evp, part 0. -/
def evpRows0 : List RegDesc := [
  ⟨0x0, 0x4, 1, 0x2400, 0x0, 0x0, 0x0, 0x0, 0xCFFF3FFF⟩,  -- EVP_PORT_CFG (R455)
  ⟨0x4, 0x4, 1, 0x0, 0x0, 0x0, 0x0, 0x0, 0xC000000F⟩,  -- EVP_PORT_STATUS (R455)
  ⟨0x8, 0x4, 1, 0x0, 0x0, 0x0, 0x0, 0x0, 0xFFFFFFFF⟩,  -- EVP_MAC_LO (R455)
  ⟨0xC, 0x4, 1, 0x0, 0x0, 0x0, 0x0, 0x0, 0xFFFF⟩,  -- EVP_MAC_HI (R455)
  ⟨0x10, 0x4, 1, 0x0, 0x0, 0x0, 0x0, 0x0, 0xFFFFFFFF⟩,  -- EVP_IPV4 (R455)
  ⟨0x14, 0x4, 4, 0x0, 0x0, 0x0, 0x0, 0x0, 0xFFFFFFFF⟩,  -- EVP_IPV6 (R455)
  ⟨0x24, 0x4, 1, 0xBAB8, 0x0, 0x0, 0x0, 0x0, 0xFFFF⟩,  -- EVP_UDP (R455)
  ⟨0x100, 0x4, 1, 0x0, 0x0, 0x0, 0x0, 0x0, 0xFFFFFFFF⟩,  -- EVP_RX_FRAMES (R456)
  ⟨0x104, 0x4, 1, 0x0, 0x0, 0x0, 0x0, 0x0, 0xFFFFFFFF⟩,  -- EVP_RX_FCS_ERR (R456)
  ⟨0x108, 0x4, 1, 0x0, 0x0, 0x0, 0x0, 0x0, 0xFFFFFFFF⟩,  -- EVP_RX_NOT_MINE (R456)
  ⟨0x10C, 0x4, 1, 0x0, 0x0, 0x0, 0x0, 0x0, 0xFFFFFFFF⟩,  -- EVP_RX_IP_ERR (R456)
  ⟨0x110, 0x4, 1, 0x0, 0x0, 0x0, 0x0, 0x0, 0xFFFFFFFF⟩,  -- EVP_RX_FORMAT_ERR (R456)
  ⟨0x114, 0x4, 1, 0x0, 0x0, 0x0, 0x0, 0x0, 0xFFFFFFFF⟩,  -- EVP_RX_CRC_ERR (R456)
  ⟨0x118, 0x4, 1, 0x0, 0x0, 0x0, 0x0, 0x0, 0xFFFFFFFF⟩,  -- EVP_RX_CTX_UE (R456)
  ⟨0x11C, 0x4, 1, 0x0, 0x0, 0x0, 0x0, 0x0, 0xFFFFFFFF⟩,  -- EVP_RX_MISDIRECT (R456)
  ⟨0x120, 0x4, 1, 0x0, 0x0, 0x0, 0x0, 0x0, 0xFFFFFFFF⟩,  -- EVP_RX_NOT_RUNNING (R456)
  ⟨0x124, 0x4, 1, 0x0, 0x0, 0x0, 0x0, 0x0, 0xFFFFFFFF⟩,  -- EVP_RX_STALE (R456)
  ⟨0x128, 0x4, 1, 0x0, 0x0, 0x0, 0x0, 0x0, 0xFFFFFFFF⟩,  -- EVP_RX_RUN_ERR (R456)
  ⟨0x12C, 0x4, 1, 0x0, 0x0, 0x0, 0x0, 0x0, 0xFFFFFFFF⟩,  -- EVP_RX_OFFSET_MISS (R456)
  ⟨0x130, 0x4, 1, 0x0, 0x0, 0x0, 0x0, 0x0, 0xFFFFFFFF⟩,  -- EVP_RX_OVF (R456)
  ⟨0x134, 0x4, 1, 0x0, 0x0, 0x0, 0x0, 0x0, 0xFFFFFFFF⟩,  -- EVP_RX_HOLD_DROP (R456)
  ⟨0x138, 0x4, 1, 0x0, 0x0, 0x0, 0x0, 0x0, 0xFFFFFFFF⟩,  -- EVP_TC0_DEMOTED (R456)
  ⟨0x13C, 0x4, 1, 0x0, 0x0, 0x0, 0x0, 0x0, 0xFFFFFFFF⟩,  -- EVP_TX_FRAMES (R456)
  ⟨0x140, 0x4, 1, 0x0, 0x0, 0x0, 0x0, 0x0, 0xFFFFFFFF⟩  -- EVP_TX_EARLY (R456)
]
/-- Registers of block evp, part 1. -/
def evpRows1 : List RegDesc := [
  ⟨0x144, 0x4, 1, 0x0, 0x0, 0x0, 0x0, 0x0, 0xFFFFFFFF⟩,  -- EVP_TX_RETRACT (R456)
  ⟨0x148, 0x4, 1, 0x0, 0x0, 0x0, 0x0, 0x0, 0xFFFFFFFF⟩,  -- EVP_TX_DROP (R456)
  ⟨0x14C, 0x4, 1, 0x0, 0x0, 0x0, 0x0, 0x0, 0xFFFFFFFF⟩,  -- EVP_TC0_SHAPED (R456)
  ⟨0x150, 0x4, 1, 0x0, 0x0, 0x0, 0x0, 0x0, 0xFFFFFFFF⟩,  -- EVP_EGRESS_MISS (R456)
  ⟨0x154, 0x4, 1, 0x0, 0x0, 0x0, 0x0, 0x0, 0xFFFFFFFF⟩,  -- EVP_REL_DROP (R456)
  ⟨0x158, 0x4, 1, 0x0, 0x0, 0x0, 0x0, 0x0, 0xFFFFFFFF⟩,  -- EVP_FEC_CORR (R456)
  ⟨0x15C, 0x4, 1, 0x0, 0x0, 0x0, 0x0, 0x0, 0xFFFFFFFF⟩,  -- EVP_FEC_UNCORR (R456)
  ⟨0x200, 0x4, 1, 0x0, 0x0, 0x0, 0x0, 0x0, 0xFFFFFFFF⟩,  -- EVP_PTP_NS_LO (R455)
  ⟨0x204, 0x4, 1, 0x0, 0x0, 0x0, 0x0, 0x0, 0xFFFFFFFF⟩,  -- EVP_PTP_NS_HI (R455)
  ⟨0x208, 0x4, 1, 0x0, 0x0, 0x0, 0x0, 0x0, 0xC0000001⟩,  -- EVP_PTP_STATUS (R455)
  ⟨0x20C, 0x4, 1, 0x0, 0x0, 0x0, 0x0, 0x0, 0xFFFFFFFF⟩,  -- EVP_PTP_OFFSET (R455)
  ⟨0x210, 0x4, 1, 0xFFFFFFFF, 0x0, 0x0, 0x0, 0x0, 0xFFFFFFFF⟩,  -- EVP_PTP_AGE (R455)
  ⟨0x214, 0x4, 1, 0x0, 0x0, 0x0, 0x0, 0x0, 0xFFFFFFFF⟩,  -- EVP_PTP_UPDATES (R455)
  ⟨0x400, 0x4, 64, 0x0, 0x0, 0x0, 0x0, 0x0, 0x7F⟩,  -- EVP_TC0_BUDGET (R455)
  ⟨0x1000, 0x10, 64, 0x10000, 0x0, 0xFFFF03FF, 0x0, 0x0, 0x0⟩,  -- EVP_PACER_CFG (R457)
  ⟨0x1004, 0x10, 64, 0x0, 0x0, 0x1FFF, 0x0, 0x0, 0x0⟩,  -- EVP_PACER_CORE (R457)
  ⟨0x1008, 0x10, 64, 0x0, 0x0, 0x0, 0x0, 0x0, 0xFFFF⟩,  -- EVP_PACER_STATUS (R457)
  ⟨0x100C, 0x10, 64, 0x0, 0x0, 0x0, 0x0, 0x0, 0xFFFFFFFF⟩,  -- EVP_PACER_FIRES (R457)
  ⟨0x10000, 0x10, 256, 0x0, 0x0, 0xBF0FFFFF, 0x0, 0x0, 0x0⟩,  -- EVP_EP_CFG (R457)
  ⟨0x10004, 0x10, 256, 0x0, 0x0, 0xFFFFFFF, 0x0, 0x0, 0x0⟩,  -- EVP_EP_KEY (R457)
  ⟨0x10008, 0x10, 256, 0x0, 0x0, 0x1FFFFF, 0x0, 0x0, 0x0⟩,  -- EVP_EP_CNT (R457)
  ⟨0x20000, 0x20, 4096, 0x0, 0x0, 0xC000003F, 0x0, 0x0, 0x0⟩,  -- EVP_DST_CFG (R458)
  ⟨0x20004, 0x20, 4096, 0x0, 0x0, 0xFFFFFFFF, 0x0, 0x0, 0x0⟩,  -- EVP_DST_MAC_LO (R458)
  ⟨0x20008, 0x20, 4096, 0xBAB80000, 0x0, 0xFFFFFFFF, 0x0, 0x0, 0x0⟩  -- EVP_DST_MAC_HI (R458)
]
/-- Registers of block evp, part 2. -/
def evpRows2 : List RegDesc := [
  ⟨0x2000C, 0x20, 4096, 0x0, 0x0, 0xFFFFFFFF, 0x0, 0x0, 0x0⟩,  -- EVP_DST_IP0 (R458)
  ⟨0x20010, 0x20, 4096, 0x0, 0x0, 0xFFFFFFFF, 0x0, 0x0, 0x0⟩,  -- EVP_DST_IP1 (R458)
  ⟨0x20014, 0x20, 4096, 0x0, 0x0, 0xFFFFFFFF, 0x0, 0x0, 0x0⟩,  -- EVP_DST_IP2 (R458)
  ⟨0x20018, 0x20, 4096, 0x0, 0x0, 0xFFFFFFFF, 0x0, 0x0, 0x0⟩,  -- EVP_DST_IP3 (R458)
  ⟨0x2001C, 0x20, 4096, 0xBAB800B4, 0x0, 0xFFFF07FF, 0x0, 0x0, 0x0⟩  -- EVP_DST_LIM (R458)
]
/-- All registers of block evp. -/
def evp : List RegDesc := evpRows0 ++ evpRows1 ++ evpRows2

/-- Registers of block int, part 0. -/
def intRows0 : List RegDesc := [
  ⟨0x0, 0x4, 1, 0x0, 0x0, 0x0, 0x0, 0x0, 0xFFFFFFFF⟩,  -- INT_DEV_CFG_DIGEST_LO (R381)
  ⟨0x4, 0x4, 1, 0x0, 0x0, 0x0, 0x0, 0x0, 0xFFFFFFFF⟩,  -- INT_DEV_CFG_DIGEST_HI (R381)
  ⟨0x8, 0x4, 1, 0x64, 0x0, 0x0, 0x0, 0x0, 0xFFFF⟩,  -- INT_SCRUB_CFG (R381)
  ⟨0xC, 0x4, 1, 0x0, 0x0, 0x0, 0x0, 0x0, 0xFFFFFFFF⟩,  -- INT_FSIG_SEQ (R381)
  ⟨0x10, 0x4, 1, 0x0, 0x0, 0x0, 0x0, 0x0, 0xFFFFFFFF⟩,  -- INT_FSIG_LOST (R381)
  ⟨0x1000, 0x40, 64, 0x0, 0x40000000, 0x800000FF, 0x0, 0x0, 0x0⟩,  -- INT_PART_CTRL (R380)
  ⟨0x1004, 0x40, 64, 0x0, 0xFFFFFFFF, 0x0, 0x0, 0x0, 0x0⟩,  -- INT_PART_CFG_EPOCH (R380)
  ⟨0x1008, 0x40, 64, 0x0, 0x0, 0x0, 0x0, 0x0, 0xFFFFFFFF⟩,  -- INT_PART_CFG_DIGEST_LO (R380)
  ⟨0x100C, 0x40, 64, 0x0, 0x0, 0x0, 0x0, 0x0, 0xFFFFFFFF⟩,  -- INT_PART_CFG_DIGEST_HI (R380)
  ⟨0x1010, 0x40, 64, 0x0, 0xFFFFFFFF, 0x0, 0x0, 0x0, 0x0⟩,  -- INT_PART_CFG_EXPECT_LO (R380)
  ⟨0x1014, 0x40, 64, 0x0, 0xFFFFFFFF, 0x0, 0x0, 0x0, 0x0⟩,  -- INT_PART_CFG_EXPECT_HI (R380)
  ⟨0x1018, 0x40, 64, 0x0, 0x0, 0x0, 0xC0000000, 0x0, 0x20000000⟩,  -- INT_PART_STATUS (R380)
  ⟨0x2000, 0x4, 1, 0x800A0018, 0x0, 0x0, 0x0, 0x0, 0x8FFF00FF⟩,  -- INT_TEST_CFG (R381)
  ⟨0x2004, 0x4, 1, 0x0, 0x0, 0x0, 0x0, 0x0, 0x80FFFFFF⟩,  -- INT_TEST_STATUS (R381)
  ⟨0x2008, 0x4, 1, 0x0, 0x0, 0x0, 0x0, 0x0, 0xFFFFFFFF⟩,  -- INT_TEST_PASSED (R381)
  ⟨0x200C, 0x4, 1, 0x0, 0x0, 0x0, 0x0, 0x0, 0xFFFFFFFF⟩,  -- INT_TEST_FAILED (R381)
  ⟨0x3000, 0x4, 1, 0x0, 0x0, 0x0, 0x0, 0x0, 0xFFFFFFFF⟩,  -- INT_MAP_GEN (R27)
  ⟨0x4000, 0x4, 8192, 0x0, 0x0, 0x0, 0x0, 0x0, 0x80003FFF⟩,  -- INT_CORE_MAP (R24)
  ⟨0xC000, 0x4, 9216, 0x0, 0xF0000000, 0x0, 0x0, 0x0, 0x1FFF⟩  -- INT_PHYS_STATE (R25)
]
/-- All registers of block int. -/
def int : List RegDesc := intRows0

/-- Registers of block pwr, part 0. -/
def pwrRows0 : List RegDesc := [
  ⟨0x0, 0x10, 4, 0x0, 0x3, 0x0, 0x0, 0x0, 0x0⟩,  -- PWR_CTRL (R482)
  ⟨0x4, 0x10, 4, 0x0, 0x0, 0x0, 0x10000000, 0x0, 0xEFC00000⟩,  -- PWR_STATUS (R482)
  ⟨0x8, 0x10, 4, 0x0, 0xFFFFFFFF, 0x0, 0x0, 0x0, 0x0⟩,  -- PWR_WAKES (R482)
  ⟨0xC, 0x10, 4, 0x0, 0xFFFFFFFF, 0x0, 0x0, 0x0, 0x0⟩,  -- PWR_ABORTS (R482)
  ⟨0x40, 0x10, 2, 0x0, 0x3, 0x0, 0x0, 0x0, 0x0⟩,  -- PWR_CTRL (R482)
  ⟨0x44, 0x10, 2, 0x0, 0x0, 0x0, 0x10000000, 0x0, 0xEFC00000⟩,  -- PWR_STATUS (R482)
  ⟨0x48, 0x10, 2, 0x0, 0xFFFFFFFF, 0x0, 0x0, 0x0, 0x0⟩,  -- PWR_WAKES (R482)
  ⟨0x4C, 0x10, 2, 0x0, 0xFFFFFFFF, 0x0, 0x0, 0x0, 0x0⟩,  -- PWR_ABORTS (R482)
  ⟨0x60, 0x10, 4, 0x0, 0x3, 0x0, 0x0, 0x0, 0x0⟩,  -- PWR_CTRL (R482)
  ⟨0x64, 0x10, 4, 0x0, 0x0, 0x0, 0x10000000, 0x0, 0xEFC00000⟩,  -- PWR_STATUS (R482)
  ⟨0x68, 0x10, 4, 0x0, 0xFFFFFFFF, 0x0, 0x0, 0x0, 0x0⟩,  -- PWR_WAKES (R482)
  ⟨0x6C, 0x10, 4, 0x0, 0xFFFFFFFF, 0x0, 0x0, 0x0, 0x0⟩,  -- PWR_ABORTS (R482)
  ⟨0xA0, 0x4, 1, 0x0, 0x3, 0x0, 0x0, 0x0, 0x0⟩,  -- PWR_CTRL (R482)
  ⟨0xA4, 0x4, 1, 0x0, 0x0, 0x0, 0x10000000, 0x0, 0xEFC00000⟩,  -- PWR_STATUS (R482)
  ⟨0xA8, 0x4, 1, 0x0, 0xFFFFFFFF, 0x0, 0x0, 0x0, 0x0⟩,  -- PWR_WAKES (R482)
  ⟨0xAC, 0x4, 1, 0x0, 0xFFFFFFFF, 0x0, 0x0, 0x0, 0x0⟩  -- PWR_ABORTS (R482)
]
/-- All registers of block pwr. -/
def pwr : List RegDesc := pwrRows0

/-- Registers of block mba, part 0. -/
def mbaRows0 : List RegDesc := [
  ⟨0x0, 0x4, 1, 0x0, 0x1FF, 0x0, 0x0, 0x80000000, 0x0⟩,  -- MGT_MB_CTRL (R527)
  ⟨0x4, 0x4, 1, 0x0, 0x0, 0x0, 0x0, 0x0, 0xC0FF07FF⟩,  -- MGT_MB_STATUS (R527)
  ⟨0x100, 0x4, 64, 0x0, 0xFFFFFFFF, 0x0, 0x0, 0x0, 0x0⟩,  -- MGT_MB_REQ (R527)
  ⟨0x200, 0x4, 256, 0x0, 0x0, 0x0, 0x0, 0x0, 0xFFFFFFFF⟩,  -- MGT_MB_RSP (R527)
  ⟨0x2000, 0x20, 16, 0x0, 0x0, 0x0, 0x0, 0x0, 0x80000003⟩,  -- MGT_WIN_CFG (R529)
  ⟨0x2008, 0x20, 16, 0x0, 0x0, 0x0, 0x0, 0x0, 0xFFFFFFFF⟩,  -- MGT_WIN_BASE_LO (R529)
  ⟨0x200C, 0x20, 16, 0x0, 0x0, 0x0, 0x0, 0x0, 0xFFFFFFFF⟩,  -- MGT_WIN_BASE_HI (R529)
  ⟨0x2010, 0x20, 16, 0x0, 0x0, 0x0, 0x0, 0x0, 0xFFFFFFFF⟩,  -- MGT_WIN_SIZE_LO (R529)
  ⟨0x2014, 0x20, 16, 0x0, 0x0, 0x0, 0x0, 0x0, 0xFFFFFFFF⟩  -- MGT_WIN_SIZE_HI (R529)
]
/-- All registers of block mba. -/
def mba : List RegDesc := mbaRows0

/-- Registers of block mgt, part 0. -/
def mgtRows0 : List RegDesc := [
  ⟨0x1000, 0x4, 1, 0x0, 0x0, 0x0, 0x0, 0x0, 0xE0000FF7⟩,  -- MGT_LIFECYCLE (R528)
  ⟨0x1010, 0x4, 4, 0x0, 0x0, 0x0, 0x0, 0x0, 0xFFFFFFFF⟩,  -- MGT_DEVICE_ID (R528)
  ⟨0x1020, 0x4, 1, 0x0, 0x0, 0x0, 0x0, 0x0, 0xFFFFFFFF⟩,  -- MGT_BOOT_NONCE (R528)
  ⟨0x1024, 0x4, 1, 0x0, 0x0, 0x0, 0x0, 0x0, 0xFFFFFFFF⟩,  -- MGT_PROT_GEN (R528)
  ⟨0x1028, 0x4, 1, 0x0, 0x0, 0x0, 0x0, 0x0, 0xFF⟩,  -- MGT_DEVCFG_HOSTS (R528)
  ⟨0x1030, 0x4, 2, 0x0, 0x0, 0x0, 0x0, 0x0, 0xFFFFFFFF⟩,  -- MGT_AGENT_KEY_ID (R528)
  ⟨0x1038, 0x4, 2, 0x0, 0x0, 0x0, 0x0, 0x0, 0xFFFFFFFF⟩,  -- MGT_DEBUG_KEY_ID (R528)
  ⟨0x1040, 0x4, 8, 0x0, 0x0, 0x0, 0x0, 0x0, 0x80000007⟩,  -- MGT_COSIGN (R528)
  ⟨0x1080, 0x8, 8, 0x0, 0x0, 0x0, 0x0, 0x0, 0xCF0000FF⟩,  -- MGT_STAGE (R528)
  ⟨0x1084, 0x8, 8, 0x0, 0x0, 0x0, 0x0, 0x0, 0xFFFFFFFF⟩,  -- MGT_STAGE_ID (R528)
  ⟨0x10C0, 0x4, 1, 0x0, 0x0, 0x0, 0x0, 0x0, 0xE000000F⟩,  -- MGT_DEBUG (R528)
  ⟨0x10C4, 0x4, 1, 0x0, 0x0, 0x0, 0x0, 0x0, 0x80001F1F⟩,  -- MGT_TAMPER (R528)
  ⟨0x10C8, 0x4, 1, 0x1, 0x0, 0x0, 0x0, 0x0, 0x1⟩,  -- MGT_TAMPER_CFG (R528)
  ⟨0x10CC, 0x4, 1, 0x0, 0x0, 0x0, 0x0, 0x0, 0xE00001FF⟩,  -- MGT_FLASH (R528)
  ⟨0x10D0, 0x4, 1, 0xBAB90000, 0x0, 0x0, 0x0, 0x0, 0xFFFF0003⟩,  -- MGT_NET (R528)
  ⟨0x10D4, 0x4, 1, 0x0, 0x0, 0x0, 0x0, 0x0, 0xFFFFFFFF⟩,  -- MGT_NET_ERR (R528)
  ⟨0x10D8, 0x4, 1, 0x0, 0x0, 0x0, 0x0, 0x0, 0xFFFFFFFF⟩,  -- MGT_AUTH_FAIL (R528)
  ⟨0x10DC, 0x4, 1, 0x0, 0x0, 0x0, 0x0, 0x0, 0x7F1F⟩,  -- MGT_QUEUES (R528)
  ⟨0x1100, 0x4, 2, 0x802, 0x0, 0x0, 0x0, 0x0, 0xC0FF0F0F⟩,  -- MGT_PTP_SERVO (R528)
  ⟨0x3000, 0x10, 1024, 0x0, 0x0, 0x0, 0x0, 0x0, 0xFFFFFFFF⟩,  -- MGT_HBM_REGION_BASE (R529)
  ⟨0x3004, 0x10, 1024, 0x0, 0x0, 0x0, 0x0, 0x0, 0xFFFFFFFF⟩  -- MGT_HBM_REGION_SIZE (R529)
]
/-- All registers of block mgt. -/
def mgt : List RegDesc := mgtRows0

/-- Registers of block pls, part 0. -/
def plsRows0 : List RegDesc := [
  ⟨0x0, 0x40, 64, 0x400, 0x40000000, 0x7FFF, 0x0, 0x80000000, 0x0⟩,  -- PLS_PART_CTRL (R330)
  ⟨0x4, 0x40, 64, 0x0, 0x0, 0x0, 0x0, 0x0, 0xFFFFFFFF⟩,  -- PLS_EPOCH (R330)
  ⟨0x8, 0x40, 64, 0x0, 0x0, 0xFFFFFFFF, 0x0, 0x0, 0x0⟩,  -- PLS_EPOCH_START (R330)
  ⟨0xC, 0x40, 64, 0x0, 0x0, 0x0, 0x0, 0x0, 0xF0007FFF⟩,  -- PLS_PART_STATUS (R330)
  ⟨0x10, 0x40, 64, 0x0, 0x0, 0x0, 0x0, 0x0, 0xFFFFFFFF⟩,  -- PLS_APPLY_NS (R330)
  ⟨0x14, 0x40, 64, 0x0, 0xFFFFFFFF, 0x0, 0x0, 0x0, 0x0⟩,  -- PLS_APPLY_MAX_NS (R330)
  ⟨0x18, 0x40, 64, 0x0, 0x0, 0x0, 0x0, 0x0, 0xFFFFFFFF⟩,  -- PLS_BOUND_NS (R330)
  ⟨0x1C, 0x40, 64, 0x0, 0xFFFFFFFF, 0x0, 0x0, 0x0, 0x0⟩,  -- PLS_APPLIES (R330)
  ⟨0x20, 0x40, 64, 0x0, 0xFFFFFFFF, 0x0, 0x0, 0x0, 0x0⟩  -- PLS_EARLY_ENDS (R330)
]
/-- All registers of block pls. -/
def pls : List RegDesc := plsRows0

/-- Registers of block plsg, part 0. -/
def plsgRows0 : List RegDesc := [
  ⟨0x0, 0x4, 1, 0x0, 0x0, 0xFFFFFFFF, 0x0, 0x0, 0x0⟩,  -- PLS_LOG_BASE (R331)
  ⟨0x4, 0x4, 1, 0x4000000, 0x0, 0xFFF000F, 0x0, 0x0, 0x0⟩,  -- PLS_LOG_CFG (R331)
  ⟨0x8, 0x4, 1, 0x0, 0x0, 0xFFFFFFFF, 0x0, 0x0, 0x0⟩,  -- PLS_MIRROR_BASE (R331)
  ⟨0xC, 0x4, 1, 0x0, 0x0, 0xFFFFFFFF, 0x0, 0x0, 0x0⟩,  -- PLS_LIST_BASE (R331)
  ⟨0x10, 0x4, 1, 0xA, 0x0, 0x1F, 0x0, 0x0, 0x0⟩,  -- PLS_LIST_CFG (R331)
  ⟨0x14, 0x4, 1, 0x0, 0x0, 0x0, 0x0, 0x0, 0xCF001FFF⟩,  -- PLS_GRV_STATUS (R331)
  ⟨0x18, 0x4, 1, 0x0, 0x0, 0x0, 0x0, 0x0, 0xFFFFFFFF⟩,  -- PLS_GRV_RECORDS (R331)
  ⟨0x20, 0x4, 1, 0x0, 0xFFFFFFFF, 0x0, 0x0, 0x0, 0x0⟩,  -- PLS_PASSES (R332)
  ⟨0x24, 0x4, 1, 0x0, 0xFFFFFFFF, 0x0, 0x0, 0x0, 0x0⟩,  -- PLS_RECORDS (R332)
  ⟨0x28, 0x4, 1, 0x0, 0xFFFFFFFF, 0x0, 0x0, 0x0, 0x0⟩,  -- PLS_PASS_WAIT (R332)
  ⟨0x2C, 0x4, 1, 0x0, 0xFFFFFFFF, 0x0, 0x0, 0x0, 0x0⟩,  -- PLS_OVF_STEPS (R332)
  ⟨0x30, 0x4, 1, 0x0, 0xFFFFFFFF, 0x0, 0x0, 0x0, 0x0⟩,  -- PLS_LIST_LOST (R332)
  ⟨0x34, 0x4, 1, 0x0, 0xFFFFFFFF, 0x0, 0x0, 0x0, 0x0⟩,  -- PLS_FMT_SKIP (R332)
  ⟨0x38, 0x4, 1, 0x0, 0xFFFFFFFF, 0x0, 0x0, 0x0, 0x0⟩,  -- PLS_READ_SKIP (R332)
  ⟨0x3C, 0x4, 1, 0x0, 0xFFFFFFFF, 0x0, 0x0, 0x0, 0x0⟩,  -- PLS_CREATED (R332)
  ⟨0x40, 0x4, 1, 0x0, 0xFFFFFFFF, 0x0, 0x0, 0x0, 0x0⟩,  -- PLS_PRUNED (R332)
  ⟨0x44, 0x4, 1, 0x0, 0xFFFFFFFF, 0x0, 0x0, 0x0, 0x0⟩,  -- PLS_CLIPPED (R332)
  ⟨0x48, 0x4, 1, 0x0, 0xFFFFFFFF, 0x0, 0x0, 0x0, 0x0⟩,  -- PLS_CHANGED (R332)
  ⟨0x100, 0x80, 8, 0x0, 0x0, 0x8FFFFFFF, 0x0, 0x0, 0x0⟩,  -- PLS_RNG_KEY (R333)
  ⟨0x104, 0x80, 8, 0x0, 0x0, 0xFFFFFF, 0x0, 0x0, 0x0⟩,  -- PLS_RNG_CNT (R333)
  ⟨0x108, 0x80, 8, 0x0, 0x0, 0xFFFFFFFF, 0x0, 0x0, 0x0⟩,  -- PLS_RNG_PRE (R333)
  ⟨0x10C, 0x80, 8, 0x7F0004, 0x0, 0xFFF01FF, 0x0, 0x0, 0x0⟩,  -- PLS_RNG_FMT (R333)
  ⟨0x110, 0x80, 8, 0x0, 0x0, 0x3FFF, 0x0, 0x0, 0x0⟩,  -- PLS_RNG_RULE (R333)
  ⟨0x114, 0x80, 8, 0x7F8, 0x0, 0xFFFFFFFF, 0x0, 0x0, 0x0⟩  -- PLS_RNG_BOUNDS (R333)
]
/-- Registers of block plsg, part 1. -/
def plsgRows1 : List RegDesc := [
  ⟨0x140, 0x80, 8, 0x0, 0x0, 0xFFFFFFFF, 0x0, 0x0, 0x0⟩,  -- PLS_RNG_LTP0 (R334)
  ⟨0x144, 0x80, 8, 0x0, 0x0, 0xFFFFFFFF, 0x0, 0x0, 0x0⟩,  -- PLS_RNG_LTP1 (R334)
  ⟨0x148, 0x80, 8, 0x0, 0x0, 0xFFFFFFFF, 0x0, 0x0, 0x0⟩,  -- PLS_RNG_LTP2 (R334)
  ⟨0x14C, 0x80, 8, 0x0, 0x0, 0xFFFFFFFF, 0x0, 0x0, 0x0⟩,  -- PLS_RNG_LTP3 (R334)
  ⟨0x150, 0x80, 8, 0x0, 0x0, 0xFFFFFFFF, 0x0, 0x0, 0x0⟩,  -- PLS_RNG_LTP4 (R334)
  ⟨0x154, 0x80, 8, 0x0, 0x0, 0xFFFFFFFF, 0x0, 0x0, 0x0⟩,  -- PLS_RNG_LTP5 (R334)
  ⟨0x158, 0x80, 8, 0x0, 0x0, 0xFFFFFFFF, 0x0, 0x0, 0x0⟩,  -- PLS_RNG_LTP6 (R334)
  ⟨0x15C, 0x80, 8, 0x0, 0x0, 0xFFFFFFFF, 0x0, 0x0, 0x0⟩,  -- PLS_RNG_LTP7 (R334)
  ⟨0x160, 0x80, 8, 0x0, 0x0, 0xFFFFFFFF, 0x0, 0x0, 0x0⟩,  -- PLS_RNG_LTD0 (R334)
  ⟨0x164, 0x80, 8, 0x0, 0x0, 0xFFFFFFFF, 0x0, 0x0, 0x0⟩,  -- PLS_RNG_LTD1 (R334)
  ⟨0x168, 0x80, 8, 0x0, 0x0, 0xFFFFFFFF, 0x0, 0x0, 0x0⟩,  -- PLS_RNG_LTD2 (R334)
  ⟨0x16C, 0x80, 8, 0x0, 0x0, 0xFFFFFFFF, 0x0, 0x0, 0x0⟩,  -- PLS_RNG_LTD3 (R334)
  ⟨0x170, 0x80, 8, 0x0, 0x0, 0xFFFFFFFF, 0x0, 0x0, 0x0⟩,  -- PLS_RNG_LTD4 (R334)
  ⟨0x174, 0x80, 8, 0x0, 0x0, 0xFFFFFFFF, 0x0, 0x0, 0x0⟩,  -- PLS_RNG_LTD5 (R334)
  ⟨0x178, 0x80, 8, 0x0, 0x0, 0xFFFFFFFF, 0x0, 0x0, 0x0⟩,  -- PLS_RNG_LTD6 (R334)
  ⟨0x17C, 0x80, 8, 0x0, 0x0, 0xFFFFFFFF, 0x0, 0x0, 0x0⟩  -- PLS_RNG_LTD7 (R334)
]
/-- All registers of block plsg. -/
def plsg : List RegDesc := plsgRows0 ++ plsgRows1

/-- Registers of block hbm, part 0. -/
def hbmRows0 : List RegDesc := [
  ⟨0x0, 0x4, 1, 0x0, 0x0, 0x0, 0x0, 0x0, 0xFF00000D⟩,  -- MEM_HBM_STATUS (R153)
  ⟨0x4, 0x4, 1, 0x0, 0x0, 0x0, 0x0, 0x0, 0x3FFF3FFF⟩,  -- MEM_HBM_INFLIGHT (R153)
  ⟨0x8, 0x4, 1, 0x0, 0x0, 0x0, 0x0, 0x0, 0xFFFFFFFF⟩,  -- MEM_HBM_CE (R153)
  ⟨0xC, 0x4, 1, 0x0, 0x0, 0x0, 0x0, 0x0, 0xFFFFFFFF⟩,  -- MEM_HBM_UE (R153)
  ⟨0x10, 0x4, 1, 0x0, 0x0, 0x0, 0x0, 0x0, 0xFFFFFFFF⟩,  -- MEM_HBM_CRC (R153)
  ⟨0x14, 0x4, 1, 0x0, 0x0, 0x0, 0x0, 0x0, 0xFFFFFFFF⟩,  -- MEM_HBM_BYTES_LO (R153)
  ⟨0x18, 0x4, 1, 0x0, 0x0, 0x0, 0x0, 0x0, 0xFFFFFFFF⟩  -- MEM_HBM_BYTES_HI (R153)
]
/-- All registers of block hbm. -/
def hbm : List RegDesc := hbmRows0

/-- Registers of block cvu, part 0. -/
def cvuRows0 : List RegDesc := [
  ⟨0x0, 0x4, 1, 0x30200001, 0x707F0003, 0x0, 0x0, 0x80000000, 0x0⟩,  -- CVU_CTRL (R341)
  ⟨0x8, 0x4, 1, 0x1EDC6F41, 0xFFFFFFFF, 0x0, 0x0, 0x0, 0x0⟩,  -- CVU_POLY_LO (R341)
  ⟨0xC, 0x4, 1, 0x0, 0xFFFFFFFF, 0x0, 0x0, 0x0, 0x0⟩,  -- CVU_POLY_HI (R341)
  ⟨0x10, 0x4, 1, 0xFFFFFFFF, 0xFFFFFFFF, 0x0, 0x0, 0x0, 0x0⟩,  -- CVU_INIT_LO (R341)
  ⟨0x14, 0x4, 1, 0x0, 0xFFFFFFFF, 0x0, 0x0, 0x0, 0x0⟩,  -- CVU_INIT_HI (R341)
  ⟨0x18, 0x4, 1, 0xFFFFFFFF, 0xFFFFFFFF, 0x0, 0x0, 0x0, 0x0⟩,  -- CVU_XOROUT_LO (R341)
  ⟨0x1C, 0x4, 1, 0x0, 0xFFFFFFFF, 0x0, 0x0, 0x0, 0x0⟩,  -- CVU_XOROUT_HI (R341)
  ⟨0x20, 0x4, 1, 0x0, 0xFFFFFFFF, 0x0, 0x0, 0x0, 0x0⟩,  -- CVU_FOLD_LO (R341)
  ⟨0x24, 0x4, 1, 0x0, 0xFFFFFFFF, 0x0, 0x0, 0x0, 0x0⟩,  -- CVU_FOLD_HI (R341)
  ⟨0x28, 0x4, 1, 0x0, 0xFFFFFFFF, 0x0, 0x0, 0x0, 0x0⟩,  -- CVU_RUNNING_LO (R341)
  ⟨0x2C, 0x4, 1, 0x0, 0xFFFFFFFF, 0x0, 0x0, 0x0, 0x0⟩,  -- CVU_RUNNING_HI (R341)
  ⟨0x30, 0x4, 1, 0x0, 0x0, 0x0, 0x0, 0x0, 0xFFFFFFFF⟩,  -- CVU_VALUE_LO (R341)
  ⟨0x34, 0x4, 1, 0x0, 0x0, 0x0, 0x0, 0x0, 0xFFFFFFFF⟩  -- CVU_VALUE_HI (R341)
]
/-- All registers of block cvu. -/
def cvu : List RegDesc := cvuRows0

end RegTab

/-- The register table of a block. -/
def Blk.table : Blk → List RegDesc
  | .core _ => RegTab.core | .grove _ => RegTab.grove | .tb => RegTab.tb | .fab => RegTab.fab
  | .att => RegTab.att | .hif => RegTab.hif | .evp _ => RegTab.evp | .int => RegTab.int | .pwr => RegTab.pwr
  | .mba => RegTab.mba | .mgt => RegTab.mgt | .pls => RegTab.pls | .plsg _ => RegTab.plsg | .hbm _ => RegTab.hbm
  | .cvu => RegTab.cvu

/-- Does a row of the table hold the register at `off`? -/
def RegDesc.covers (d : RegDesc) (off : Nat) : Bool :=
  decide (d.off ≤ off) && (off - d.off) % d.stride == 0 && decide ((off - d.off) / d.stride < d.count)

/-- The row of a block's table that holds the register at `off`. -/
def findReg (b : Blk) (off : Nat) : Option RegDesc := b.table.find? (·.covers off)

end Sys2Proof.Machine
end

