-- ==== Sys2Proof/Machine/RegNames.lean ====
section
/-! DEFINITION. The keys of the set-up registers: where each register stands in the one store that holds them all.
A register of a window that every attachment sees alike is keyed by its set-up address (01_organisation.md R29);
one of an attachment's own view by that address behind the attachment's number. Names are the spec's. -/
namespace Sys2Proof.Machine

/-- Key of offset `off` of the window of physical core `p` (R29, R30). -/
def coreReg (p off : Nat) : Nat := p / 144 * 0x100000 + p % 144 * 0x1000 + off
/-- Key of offset `off` of the window of grove `g` (R31). -/
def groveReg (g off : Nat) : Nat := g * 0x100000 + off
/-- Key of a register of attachment `a`'s own view. -/
def attReg (a addr : Nat) : Nat := 0x100000000 * (a + 1) + addr
/-- Key of the check-value unit that no chapter places (10_integrity.md R341). -/
def cvuReg (off : Nat) : Nat := 0xF00000000 + off

namespace Reg

/-- R75. -/
def CORE_RESCALE_ADAPT (p : Nat) : Nat := coreReg p (0x80)
/-- R77. -/
def CORE_RESCALE_STATUS (p : Nat) : Nat := coreReg p (0x84)
/-- R78. -/
def CORE_RESCALE_LIMIT (p : Nat) : Nat := coreReg p (0x88)
/-- R79. -/
def CORE_SAT_TOTAL (p : Nat) : Nat := coreReg p (0x8C)
/-- R80. -/
def CORE_FMT_ODD (p : Nat) : Nat := coreReg p (0x90)
/-- R298. -/
def CORE_EMIT_STATUS (p : Nat) : Nat := coreReg p (0xA0)
/-- R298. -/
def CORE_EMIT_STALLS (p : Nat) : Nat := coreReg p (0xA4)
/-- R298. -/
def CORE_EMIT_ROUNDS (p : Nat) : Nat := coreReg p (0xA8)
/-- R405. -/
def CORE_TAP_KEY (p : Nat) (i : Nat) : Nat := coreReg p (0xC0 + 0x8 * i)
/-- R405. -/
def CORE_TAP_CNT (p : Nat) (i : Nat) : Nat := coreReg p (0xC4 + 0x8 * i)
/-- R104. -/
def NEU_CTRL (p : Nat) : Nat := coreReg p (0x100)
/-- R105. -/
def NEU_STATUS (p : Nat) : Nat := coreReg p (0x104)
/-- R106. -/
def NEU_AREA (p : Nat) : Nat := coreReg p (0x108)
/-- R107. -/
def NEU_LAST (p : Nat) : Nat := coreReg p (0x10C)
/-- R107. -/
def NEU_LAST_STEP (p : Nat) : Nat := coreReg p (0x110)
/-- R108. -/
def NEU_OVERDRIVE (p : Nat) : Nat := coreReg p (0x114)
/-- R108. -/
def NEU_VSAT (p : Nat) : Nat := coreReg p (0x118)
/-- R108. -/
def NEU_RIN_SLOTS (p : Nat) : Nat := coreReg p (0x11C)
/-- R108. -/
def NEU_RIN_MAG (p : Nat) : Nat := coreReg p (0x120)
/-- R108. -/
def NEU_LANE_FOLD (p : Nat) : Nat := coreReg p (0x124)
/-- R108. -/
def NEU_DEFER (p : Nat) : Nat := coreReg p (0x128)
/-- R108. -/
def NEU_WAKES (p : Nat) : Nat := coreReg p (0x12C)
/-- R109. -/
def NEU_GRP_CFG (p : Nat) (i : Nat) : Nat := coreReg p (0x180 + 0x18 * i)
/-- R109. -/
def NEU_GRP_THR (p : Nat) (i : Nat) : Nat := coreReg p (0x184 + 0x18 * i)
/-- R109. -/
def NEU_GRP_LIM (p : Nat) (i : Nat) : Nat := coreReg p (0x188 + 0x18 * i)
/-- R109. -/
def NEU_GRP_DYN (p : Nat) (i : Nat) : Nat := coreReg p (0x18C + 0x18 * i)
/-- R109. -/
def NEU_GRP_AXON (p : Nat) (i : Nat) : Nat := coreReg p (0x190 + 0x18 * i)
/-- R109. -/
def NEU_GRP_OUT (p : Nat) (i : Nat) : Nat := coreReg p (0x194 + 0x18 * i)
/-- R146. -/
def SYN_CTRL (p : Nat) : Nat := coreReg p (0x300)
/-- R146. -/
def SYN_STATUS (p : Nat) : Nat := coreReg p (0x304)
/-- R147. -/
def SYN_EVENTS (p : Nat) : Nat := coreReg p (0x308)
/-- R147. -/
def SYN_OPS_LO (p : Nat) : Nat := coreReg p (0x30C)
/-- R147. -/
def SYN_OPS_HI (p : Nat) : Nat := coreReg p (0x310)
/-- R147. -/
def SYN_NULL (p : Nat) : Nat := coreReg p (0x314)
/-- R147. -/
def SYN_KEY_MISS (p : Nat) : Nat := coreReg p (0x318)
/-- R147. -/
def SYN_BAD_ROW (p : Nat) : Nat := coreReg p (0x31C)
/-- R147. -/
def SYN_BAD_BLOCK (p : Nat) : Nat := coreReg p (0x320)
/-- R147. -/
def SYN_COALESCED (p : Nat) : Nat := coreReg p (0x324)
/-- R147. -/
def SYN_RETRACT (p : Nat) : Nat := coreReg p (0x328)
/-- R148. -/
def SYN_WIN_KEY (p : Nat) (i : Nat) : Nat := coreReg p (0x340 + 0x20 * i)
/-- R148. -/
def SYN_WIN_CNT (p : Nat) (i : Nat) : Nat := coreReg p (0x344 + 0x20 * i)
/-- R148. -/
def SYN_WIN_CFG (p : Nat) (i : Nat) : Nat := coreReg p (0x348 + 0x20 * i)
/-- R148. -/
def SYN_WIN_DIR (p : Nat) (i : Nat) : Nat := coreReg p (0x34C + 0x20 * i)
/-- R148. -/
def SYN_WIN_EXT (p : Nat) (i : Nat) : Nat := coreReg p (0x350 + 0x20 * i)
/-- R149. -/
def DNS_CTRL (p : Nat) : Nat := coreReg p (0x500)
/-- R149. -/
def DNS_STATUS (p : Nat) : Nat := coreReg p (0x504)
/-- R150. -/
def DNS_MACS_LO (p : Nat) : Nat := coreReg p (0x508)
/-- R150. -/
def DNS_MACS_HI (p : Nat) : Nat := coreReg p (0x50C)
/-- R150. -/
def DNS_CHUNKS (p : Nat) : Nat := coreReg p (0x510)
/-- R150. -/
def DNS_CHECK_FAIL (p : Nat) : Nat := coreReg p (0x514)
/-- R150. -/
def DNS_STALL (p : Nat) : Nat := coreReg p (0x518)
/-- R151. -/
def DNS_OP_CFG (p : Nat) (i : Nat) : Nat := coreReg p (0x540 + 0x20 * i)
/-- R151. -/
def DNS_OP_SHAPE (p : Nat) (i : Nat) : Nat := coreReg p (0x544 + 0x20 * i)
/-- R151. -/
def DNS_OP_IN (p : Nat) (i : Nat) : Nat := coreReg p (0x548 + 0x20 * i)
/-- R151. -/
def DNS_OP_W (p : Nat) (i : Nat) : Nat := coreReg p (0x54C + 0x20 * i)
/-- R151. -/
def DNS_OP_OUT (p : Nat) (i : Nat) : Nat := coreReg p (0x550 + 0x20 * i)
/-- R151. -/
def DNS_OP_CH (p : Nat) (i : Nat) : Nat := coreReg p (0x554 + 0x20 * i)
/-- R225. -/
def HDL_CTRL (p : Nat) : Nat := coreReg p (0x600)
/-- R226. -/
def HDL_STATUS (p : Nat) : Nat := coreReg p (0x604)
/-- R227. -/
def HDL_SEL_MASK (p : Nat) : Nat := coreReg p (0x608)
/-- R227. -/
def HDL_DATA_BASE (p : Nat) : Nat := coreReg p (0x60C)
/-- R227. -/
def HDL_DATA_SIZE (p : Nat) : Nat := coreReg p (0x610)
/-- R227. -/
def HDL_FAULT (p : Nat) : Nat := coreReg p (0x614)
/-- R227. -/
def HDL_CHECK (p : Nat) : Nat := coreReg p (0x618)
/-- R227. -/
def HDL_PART_GROVES_LO (p : Nat) : Nat := coreReg p (0x61C)
/-- R227. -/
def HDL_PART_GROVES_HI (p : Nat) : Nat := coreReg p (0x620)
/-- R228. -/
def HDL_INVOKE (p : Nat) : Nat := coreReg p (0x630)
/-- R228. -/
def HDL_FAULTS (p : Nat) : Nat := coreReg p (0x634)
/-- R228. -/
def HDL_BAD_AM (p : Nat) : Nat := coreReg p (0x638)
/-- R228. -/
def HDL_NAK_SENT (p : Nat) : Nat := coreReg p (0x63C)
/-- R228. -/
def HDL_NAK_RCVD (p : Nat) : Nat := coreReg p (0x640)
/-- R228. -/
def HDL_RETRIES (p : Nat) : Nat := coreReg p (0x644)
/-- R228. -/
def HDL_EXHAUSTED (p : Nat) : Nat := coreReg p (0x648)
/-- R228. -/
def HDL_NESTED (p : Nat) : Nat := coreReg p (0x64C)
/-- R228. -/
def HDL_STRAY (p : Nat) : Nat := coreReg p (0x650)
/-- R229. -/
def HDL_Q_CFG (p : Nat) (i : Nat) : Nat := coreReg p (0x680 + 0x10 * i)
/-- R229. -/
def HDL_Q_STATUS (p : Nat) (i : Nat) : Nat := coreReg p (0x684 + 0x10 * i)
/-- R229. -/
def HDL_Q_ACCEPT (p : Nat) (i : Nat) : Nat := coreReg p (0x688 + 0x10 * i)
/-- R229. -/
def HDL_Q_DROP (p : Nat) (i : Nat) : Nat := coreReg p (0x68C + 0x10 * i)
/-- R377. -/
def INT_CORE_TWIN (p : Nat) : Nat := coreReg p (0xA00)
/-- R377. -/
def INT_CORE_STATUS (p : Nat) : Nat := coreReg p (0xA04)
/-- R377. -/
def INT_STRIKE_STEP0 (p : Nat) : Nat := coreReg p (0xA08)
/-- R377. -/
def INT_STRIKE_STEP1 (p : Nat) : Nat := coreReg p (0xA0C)
/-- R377. -/
def INT_TEST (p : Nat) : Nat := coreReg p (0xA10)
/-- R377. -/
def INT_TEST_LAST (p : Nat) : Nat := coreReg p (0xA14)
/-- R377. -/
def INT_CFG_DIGEST_LO (p : Nat) : Nat := coreReg p (0xA18)
/-- R377. -/
def INT_CFG_DIGEST_HI (p : Nat) : Nat := coreReg p (0xA1C)
/-- R377. -/
def INT_WDIG_LO (p : Nat) : Nat := coreReg p (0xA20)
/-- R377. -/
def INT_WDIG_HI (p : Nat) : Nat := coreReg p (0xA24)
/-- R377. -/
def INT_WDIG_BASE_LO (p : Nat) : Nat := coreReg p (0xA28)
/-- R377. -/
def INT_WDIG_BASE_HI (p : Nat) : Nat := coreReg p (0xA2C)
/-- R377. -/
def INT_DIG_STATUS (p : Nat) : Nat := coreReg p (0xA30)
/-- R378. -/
def INT_PAIR_MISS (p : Nat) : Nat := coreReg p (0xA40)
/-- R378. -/
def INT_SRAM_CE (p : Nat) : Nat := coreReg p (0xA44)
/-- R378. -/
def INT_SRAM_UE (p : Nat) : Nat := coreReg p (0xA48)
/-- R378. -/
def INT_STRIKES (p : Nat) : Nat := coreReg p (0xA4C)
/-- R378. -/
def INT_REPLAYS_RUN (p : Nat) : Nat := coreReg p (0xA50)
/-- R190. -/
def FAB_RTR_CTRL (p : Nat) : Nat := coreReg p (0xC00)
/-- R190. -/
def FAB_RTR_STATUS (p : Nat) : Nat := coreReg p (0xC04)
/-- R191. -/
def FAB_SRC_MISS (p : Nat) : Nat := coreReg p (0xC08)
/-- R191. -/
def FAB_BAD_PKT (p : Nat) : Nat := coreReg p (0xC0C)
/-- R191. -/
def FAB_DETOUR_RANGE (p : Nat) (i : Nat) : Nat := coreReg p (0xC10 + 0x8 * i)
/-- R191. -/
def FAB_DETOUR_WAY (p : Nat) (i : Nat) : Nat := coreReg p (0xC14 + 0x8 * i)
/-- R485. -/
def MEM_BANK_OWNER (p : Nat) (i : Nat) : Nat := coreReg p (0xF00 + 0x4 * i)
/-- R485. -/
def MEM_BANK_STATUS (p : Nat) : Nat := coreReg p (0xF40)
/-- R485. -/
def MEM_BANK_DENIED (p : Nat) : Nat := coreReg p (0xF44)
/-- R485. -/
def MEM_LAYOUT (p : Nat) : Nat := coreReg p (0xF48)
/-- R299. -/
def STEP_GROVE_STATUS (g : Nat) : Nat := groveReg g (0xC0000)
/-- R299. -/
def STEP_GROVE_COMMITTED (g : Nat) : Nat := groveReg g (0xC0004)
/-- R299. -/
def STEP_GROVE_HOLDS (g : Nat) : Nat := groveReg g (0xC0008)
/-- R299. -/
def STEP_GROVE_ROUNDS (g : Nat) : Nat := groveReg g (0xC000C)
/-- R379. -/
def INT_GRV_STATUS (g : Nat) : Nat := groveReg g (0xC1000)
/-- R379. -/
def INT_GRV_LAST (g : Nat) : Nat := groveReg g (0xC1004)
/-- R379. -/
def INT_GRV_CFG_DIGEST_LO (g : Nat) : Nat := groveReg g (0xC1008)
/-- R379. -/
def INT_GRV_CFG_DIGEST_HI (g : Nat) : Nat := groveReg g (0xC100C)
/-- R379. -/
def INT_GRV_FAILS (g : Nat) : Nat := groveReg g (0xC1010)
/-- R379. -/
def INT_GRV_REPLAYS (g : Nat) : Nat := groveReg g (0xC1014)
/-- R379. -/
def INT_GRV_DECIDES (g : Nat) : Nat := groveReg g (0xC1018)
/-- R379. -/
def INT_GRV_REPAIRS (g : Nat) : Nat := groveReg g (0xC101C)
/-- R379. -/
def INT_GRV_RESUMES (g : Nat) : Nat := groveReg g (0xC1020)
/-- R379. -/
def INT_GRV_UNRESOLVED (g : Nat) : Nat := groveReg g (0xC1024)
/-- R379. -/
def INT_GRV_AUDITS (g : Nat) : Nat := groveReg g (0xC1028)
/-- R379. -/
def INT_GRV_AUDIT_SKIP (g : Nat) : Nat := groveReg g (0xC102C)
/-- R379. -/
def INT_GRV_AUDIT (g : Nat) : Nat := groveReg g (0xC1040)
/-- R152. -/
def MEM_GC_STATUS (g : Nat) : Nat := groveReg g (0xC2000)
/-- R152. -/
def MEM_RQ_STATUS (g : Nat) : Nat := groveReg g (0xC2004)
/-- R152. -/
def MEM_PF_STATUS (g : Nat) : Nat := groveReg g (0xC2008)
/-- R152. -/
def MEM_GC_HITS (g : Nat) : Nat := groveReg g (0xC2010)
/-- R152. -/
def MEM_GC_MISSES (g : Nat) : Nat := groveReg g (0xC2014)
/-- R152. -/
def MEM_GC_EVICT (g : Nat) : Nat := groveReg g (0xC2018)
/-- R152. -/
def MEM_RQ_STALL (g : Nat) : Nat := groveReg g (0xC201C)
/-- R152. -/
def MEM_GROVE_ROWS (g : Nat) : Nat := groveReg g (0xC2020)
/-- R152. -/
def MEM_COALESCED (g : Nat) : Nat := groveReg g (0xC2024)
/-- R152. -/
def MEM_BAD_ROW (g : Nat) : Nat := groveReg g (0xC2028)
/-- R152. -/
def MEM_GC_PIN_BASE (g : Nat) (i : Nat) : Nat := groveReg g (0xC2100 + 0x8 * i)
/-- R152. -/
def MEM_GC_PIN_SIZE (g : Nat) (i : Nat) : Nat := groveReg g (0xC2104 + 0x8 * i)
/-- R193. -/
def FAB_XS_STATUS (g : Nat) : Nat := groveReg g (0xC3000)
/-- R193. -/
def FAB_PC_INJ (g : Nat) (i : Nat) : Nat := groveReg g (0xC3010 + 0x10 * i)
/-- R193. -/
def FAB_PC_EJ (g : Nat) (i : Nat) : Nat := groveReg g (0xC3014 + 0x10 * i)
/-- R193. -/
def FAB_PC_XOUT (g : Nat) (i : Nat) : Nat := groveReg g (0xC3018 + 0x10 * i)
/-- R193. -/
def FAB_PC_XIN (g : Nat) (i : Nat) : Nat := groveReg g (0xC301C + 0x10 * i)
/-- R484. -/
def PWR_RAIL (g : Nat) : Nat := groveReg g (0xC4020)
/-- R230. -/
def FAB_SYNC_STATUS (g : Nat) : Nat := groveReg g (0xC5000)
/-- R230. -/
def FAB_SYNC_OPS (g : Nat) : Nat := groveReg g (0xC5004)
/-- R230. -/
def FAB_SYNC_NOTIFY (g : Nat) : Nat := groveReg g (0xC5008)
/-- R230. -/
def FAB_SYNC_POOL_FULL (g : Nat) : Nat := groveReg g (0xC500C)
/-- R230. -/
def FAB_SYNC_REJECT (g : Nat) : Nat := groveReg g (0xC5010)
/-- R262. -/
def TB_PTB_LO : Nat := 0x4000000 + 0x0
/-- R262. -/
def TB_PTB_HI : Nat := 0x4000000 + 0x4
/-- R262. -/
def TB_REF_LO : Nat := 0x4000000 + 0x8
/-- R262. -/
def TB_REF_HI : Nat := 0x4000000 + 0xC
/-- R262. -/
def TB_SOURCE : Nat := 0x4000000 + 0x10
/-- R262. -/
def TB_INT_DIV : Nat := 0x4000000 + 0x14
/-- R262. -/
def TB_SUBST_DIV : Nat := 0x4000000 + 0x18
/-- R262. -/
def TB_LOSS_CFG : Nat := 0x4000000 + 0x1C
/-- R262. -/
def TB_PTP_EPOCH_LO : Nat := 0x4000000 + 0x20
/-- R262. -/
def TB_PTP_EPOCH_HI : Nat := 0x4000000 + 0x24
/-- R262. -/
def TB_PTP_PERIOD : Nat := 0x4000000 + 0x28
/-- R262. -/
def TB_STATUS : Nat := 0x4000000 + 0x2C
/-- R262. -/
def TB_BACKLASH : Nat := 0x4000000 + 0x30
/-- R262. -/
def TB_MAINS_PERIOD : Nat := 0x4000000 + 0x34
/-- R263. -/
def TB_ENC_ERR : Nat := 0x4000000 + 0x40
/-- R263. -/
def TB_MAINS_GLITCH : Nat := 0x4000000 + 0x44
/-- R263. -/
def TB_MAINS_CATCHUP : Nat := 0x4000000 + 0x48
/-- R263. -/
def TB_PTP_BACKSTEP : Nat := 0x4000000 + 0x4C
/-- R263. -/
def TB_LOSS_EVENTS : Nat := 0x4000000 + 0x50
/-- R264. -/
def TB_PIN_CFG (i : Nat) : Nat := 0x4000000 + 0x100 + 0x20 * i
/-- R264. -/
def TB_PIN_STATUS (i : Nat) : Nat := 0x4000000 + 0x104 + 0x20 * i
/-- R264. -/
def TB_PIN_PTB_LO (i : Nat) : Nat := 0x4000000 + 0x108 + 0x20 * i
/-- R264. -/
def TB_PIN_PTB_HI (i : Nat) : Nat := 0x4000000 + 0x10C + 0x20 * i
/-- R264. -/
def TB_PIN_REF_LO (i : Nat) : Nat := 0x4000000 + 0x110 + 0x20 * i
/-- R264. -/
def TB_PIN_REF_HI (i : Nat) : Nat := 0x4000000 + 0x114 + 0x20 * i
/-- R264. -/
def TB_PIN_EDGES (i : Nat) : Nat := 0x4000000 + 0x118 + 0x20 * i
/-- R264. -/
def TB_PIN_OVF (i : Nat) : Nat := 0x4000000 + 0x11C + 0x20 * i
/-- R265. -/
def TB_GROUP_START_LO : Nat := 0x4000000 + 0x200
/-- R265. -/
def TB_GROUP_START_HI : Nat := 0x4000000 + 0x204
/-- R266. -/
def TB_GCH_OWNER (i : Nat) : Nat := 0x4000000 + 0x2000 + 0x4 * i
/-- R194. -/
def FAB_CLEAR_CTRL (i : Nat) : Nat := 0x5000000 + 0x0 + 0x20 * i
/-- R194. -/
def FAB_CLEAR_STATUS (i : Nat) : Nat := 0x5000000 + 0x4 + 0x20 * i
/-- R194. -/
def FAB_CLEAR_TIME (i : Nat) : Nat := 0x5000000 + 0x8 + 0x20 * i
/-- R194. -/
def FAB_LOSS (i : Nat) : Nat := 0x5000000 + 0xC + 0x20 * i
/-- R6. -/
def HIF_CAPABILITY0 : Nat := 0x6000000 + 0x0
/-- R6. -/
def HIF_CAPABILITY1 : Nat := 0x6000000 + 0x4
/-- R419. -/
def HIF_ATT_ID (a : Nat) : Nat := attReg a (0x6000000 + 0x10)
/-- R419. -/
def HIF_ATT_CTRL (a : Nat) : Nat := attReg a (0x6000000 + 0x14)
/-- R419. -/
def HIF_DB_PERIOD (a : Nat) : Nat := attReg a (0x6000000 + 0x18)
/-- R419. -/
def HIF_DB_BASE_LO (a : Nat) : Nat := attReg a (0x6000000 + 0x20)
/-- R419. -/
def HIF_DB_BASE_HI (a : Nat) : Nat := attReg a (0x6000000 + 0x24)
/-- R419. -/
def HIF_SHADOW_BASE_LO (a : Nat) : Nat := attReg a (0x6000000 + 0x28)
/-- R419. -/
def HIF_SHADOW_BASE_HI (a : Nat) : Nat := attReg a (0x6000000 + 0x2C)
/-- R419. -/
def HIF_FILTERED (a : Nat) : Nat := attReg a (0x6000000 + 0x30)
/-- R419. -/
def HIF_FILTER_ADDR (a : Nat) : Nat := attReg a (0x6000000 + 0x34)
/-- R419. -/
def HIF_BAD_ACCESS (a : Nat) : Nat := attReg a (0x6000000 + 0x38)
/-- R419. -/
def HIF_DB_LATE (a : Nat) : Nat := attReg a (0x6000000 + 0x3C)
/-- R419. -/
def HIF_CHECK_ERR (a : Nat) : Nat := attReg a (0x6000000 + 0x40)
/-- R419. -/
def HIF_HOST_ERR (a : Nat) : Nat := attReg a (0x6000000 + 0x44)
/-- R419. -/
def HIF_REL_STATUS (a : Nat) : Nat := attReg a (0x6000000 + 0x48)
/-- R419. -/
def HIF_REL_DROP (a : Nat) : Nat := attReg a (0x6000000 + 0x4C)
/-- R419. -/
def HIF_EGRESS_MISS (a : Nat) : Nat := attReg a (0x6000000 + 0x50)
/-- R407. -/
def HIF_EP_CFG (a : Nat) (i : Nat) : Nat := attReg a (0x6000000 + 0x60000 + 0x10 * i)
/-- R407. -/
def HIF_EP_KEY (a : Nat) (i : Nat) : Nat := attReg a (0x6000000 + 0x60004 + 0x10 * i)
/-- R407. -/
def HIF_EP_CNT (a : Nat) (i : Nat) : Nat := attReg a (0x6000000 + 0x60008 + 0x10 * i)
/-- R384. -/
def MSIX_TABLE (a : Nat) (i : Nat) : Nat := attReg a (0x6000000 + 0x70000 + 0x4 * i)
/-- R384. -/
def MSIX_PBA (a : Nat) (i : Nat) : Nat := attReg a (0x6000000 + 0x71000 + 0x4 * i)
/-- R421. -/
def HIF_PART_CTRL (i : Nat) : Nat := 0x6000000 + 0x80000 + 0x20 * i
/-- R421. -/
def HIF_PART_STATUS (i : Nat) : Nat := 0x6000000 + 0x80004 + 0x20 * i
/-- R421. -/
def HIF_PART_RESULT (i : Nat) : Nat := 0x6000000 + 0x80008 + 0x20 * i
/-- R421. -/
def HIF_PART_OWNER (i : Nat) : Nat := 0x6000000 + 0x8000C + 0x20 * i
/-- R421. -/
def HIF_PART_GROVES_LO (i : Nat) : Nat := 0x6000000 + 0x80010 + 0x20 * i
/-- R421. -/
def HIF_PART_GROVES_HI (i : Nat) : Nat := 0x6000000 + 0x80014 + 0x20 * i
/-- R421. -/
def HIF_PART_CHECK_NS (i : Nat) : Nat := 0x6000000 + 0x80800 + 0x4 * i
/-- R300. -/
def STEP_POLICY (i : Nat) : Nat := 0x6000000 + 0xF00000 + 0x400 * i
/-- R300. -/
def STEP_MAX_STRETCH (i : Nat) : Nat := 0x6000000 + 0xF00004 + 0x400 * i
/-- R300. -/
def STEP_START (i : Nat) : Nat := 0x6000000 + 0xF00008 + 0x400 * i
/-- R300. -/
def STEP_STATE (i : Nat) : Nat := 0x6000000 + 0xF0000C + 0x400 * i
/-- R300. -/
def STEP_OPEN (i : Nat) : Nat := 0x6000000 + 0xF00010 + 0x400 * i
/-- R300. -/
def STEP_COMMITTED (i : Nat) : Nat := 0x6000000 + 0xF00014 + 0x400 * i
/-- R300. -/
def STEP_OPEN_PTB_LO (i : Nat) : Nat := 0x6000000 + 0xF00018 + 0x400 * i
/-- R300. -/
def STEP_OPEN_PTB_HI (i : Nat) : Nat := 0x6000000 + 0xF0001C + 0x400 * i
/-- R300. -/
def STEP_OPEN_REF_LO (i : Nat) : Nat := 0x6000000 + 0xF00020 + 0x400 * i
/-- R300. -/
def STEP_OPEN_REF_HI (i : Nat) : Nat := 0x6000000 + 0xF00024 + 0x400 * i
/-- R300. -/
def STEP_LAST_NS (i : Nat) : Nat := 0x6000000 + 0xF00028 + 0x400 * i
/-- R300. -/
def STEP_SPILL_PENDING (i : Nat) : Nat := 0x6000000 + 0xF0002C + 0x400 * i
/-- R300. -/
def STEP_REC_BASE (i : Nat) : Nat := 0x6000000 + 0xF00030 + 0x400 * i
/-- R300. -/
def STEP_REC_SIZE (i : Nat) : Nat := 0x6000000 + 0xF00034 + 0x400 * i
/-- R300. -/
def STEP_REC_HEAD (i : Nat) : Nat := 0x6000000 + 0xF00038 + 0x400 * i
/-- R301. -/
def STEP_STRETCHED (i : Nat) : Nat := 0x6000000 + 0xF00040 + 0x400 * i
/-- R301. -/
def STEP_STRETCH_TICKS (i : Nat) : Nat := 0x6000000 + 0xF00044 + 0x400 * i
/-- R301. -/
def STEP_MERGED (i : Nat) : Nat := 0x6000000 + 0xF00048 + 0x400 * i
/-- R301. -/
def STEP_SPILLS (i : Nat) : Nat := 0x6000000 + 0xF0004C + 0x400 * i
/-- R301. -/
def STEP_SPILLED_EVENTS (i : Nat) : Nat := 0x6000000 + 0xF00050 + 0x400 * i
/-- R301. -/
def STEP_HELD (i : Nat) : Nat := 0x6000000 + 0xF00054 + 0x400 * i
/-- R301. -/
def STEP_ROUNDS (i : Nat) : Nat := 0x6000000 + 0xF00058 + 0x400 * i
/-- R301. -/
def STEP_RETRACTS (i : Nat) : Nat := 0x6000000 + 0xF0005C + 0x400 * i
/-- R301. -/
def STEP_EARLY (i : Nat) : Nat := 0x6000000 + 0xF00060 + 0x400 * i
/-- R301. -/
def STEP_EARLY_RETRACT (i : Nat) : Nat := 0x6000000 + 0xF00064 + 0x400 * i
/-- R301. -/
def STEP_REC_LOST (i : Nat) : Nat := 0x6000000 + 0xF00068 + 0x400 * i
/-- R301. -/
def STEP_REC_WRAPS (i : Nat) : Nat := 0x6000000 + 0xF0006C + 0x400 * i
/-- R455. -/
def EVP_PORT_CFG (e : Nat) : Nat := 0x7000000 + 0x100000 * e + 0x0
/-- R455. -/
def EVP_PORT_STATUS (e : Nat) : Nat := 0x7000000 + 0x100000 * e + 0x4
/-- R455. -/
def EVP_MAC_LO (e : Nat) : Nat := 0x7000000 + 0x100000 * e + 0x8
/-- R455. -/
def EVP_MAC_HI (e : Nat) : Nat := 0x7000000 + 0x100000 * e + 0xC
/-- R455. -/
def EVP_IPV4 (e : Nat) : Nat := 0x7000000 + 0x100000 * e + 0x10
/-- R455. -/
def EVP_IPV6 (e : Nat) (i : Nat) : Nat := 0x7000000 + 0x100000 * e + 0x14 + 0x4 * i
/-- R455. -/
def EVP_UDP (e : Nat) : Nat := 0x7000000 + 0x100000 * e + 0x24
/-- R456. -/
def EVP_RX_FRAMES (e : Nat) : Nat := 0x7000000 + 0x100000 * e + 0x100
/-- R456. -/
def EVP_RX_FCS_ERR (e : Nat) : Nat := 0x7000000 + 0x100000 * e + 0x104
/-- R456. -/
def EVP_RX_NOT_MINE (e : Nat) : Nat := 0x7000000 + 0x100000 * e + 0x108
/-- R456. -/
def EVP_RX_IP_ERR (e : Nat) : Nat := 0x7000000 + 0x100000 * e + 0x10C
/-- R456. -/
def EVP_RX_FORMAT_ERR (e : Nat) : Nat := 0x7000000 + 0x100000 * e + 0x110
/-- R456. -/
def EVP_RX_CRC_ERR (e : Nat) : Nat := 0x7000000 + 0x100000 * e + 0x114
/-- R456. -/
def EVP_RX_CTX_UE (e : Nat) : Nat := 0x7000000 + 0x100000 * e + 0x118
/-- R456. -/
def EVP_RX_MISDIRECT (e : Nat) : Nat := 0x7000000 + 0x100000 * e + 0x11C
/-- R456. -/
def EVP_RX_NOT_RUNNING (e : Nat) : Nat := 0x7000000 + 0x100000 * e + 0x120
/-- R456. -/
def EVP_RX_STALE (e : Nat) : Nat := 0x7000000 + 0x100000 * e + 0x124
/-- R456. -/
def EVP_RX_RUN_ERR (e : Nat) : Nat := 0x7000000 + 0x100000 * e + 0x128
/-- R456. -/
def EVP_RX_OFFSET_MISS (e : Nat) : Nat := 0x7000000 + 0x100000 * e + 0x12C
/-- R456. -/
def EVP_RX_OVF (e : Nat) : Nat := 0x7000000 + 0x100000 * e + 0x130
/-- R456. -/
def EVP_RX_HOLD_DROP (e : Nat) : Nat := 0x7000000 + 0x100000 * e + 0x134
/-- R456. -/
def EVP_TC0_DEMOTED (e : Nat) : Nat := 0x7000000 + 0x100000 * e + 0x138
/-- R456. -/
def EVP_TX_FRAMES (e : Nat) : Nat := 0x7000000 + 0x100000 * e + 0x13C
/-- R456. -/
def EVP_TX_EARLY (e : Nat) : Nat := 0x7000000 + 0x100000 * e + 0x140
/-- R456. -/
def EVP_TX_RETRACT (e : Nat) : Nat := 0x7000000 + 0x100000 * e + 0x144
/-- R456. -/
def EVP_TX_DROP (e : Nat) : Nat := 0x7000000 + 0x100000 * e + 0x148
/-- R456. -/
def EVP_TC0_SHAPED (e : Nat) : Nat := 0x7000000 + 0x100000 * e + 0x14C
/-- R456. -/
def EVP_EGRESS_MISS (e : Nat) : Nat := 0x7000000 + 0x100000 * e + 0x150
/-- R456. -/
def EVP_REL_DROP (e : Nat) : Nat := 0x7000000 + 0x100000 * e + 0x154
/-- R456. -/
def EVP_FEC_CORR (e : Nat) : Nat := 0x7000000 + 0x100000 * e + 0x158
/-- R456. -/
def EVP_FEC_UNCORR (e : Nat) : Nat := 0x7000000 + 0x100000 * e + 0x15C
/-- R455. -/
def EVP_PTP_NS_LO (e : Nat) : Nat := 0x7000000 + 0x100000 * e + 0x200
/-- R455. -/
def EVP_PTP_NS_HI (e : Nat) : Nat := 0x7000000 + 0x100000 * e + 0x204
/-- R455. -/
def EVP_PTP_STATUS (e : Nat) : Nat := 0x7000000 + 0x100000 * e + 0x208
/-- R455. -/
def EVP_PTP_OFFSET (e : Nat) : Nat := 0x7000000 + 0x100000 * e + 0x20C
/-- R455. -/
def EVP_PTP_AGE (e : Nat) : Nat := 0x7000000 + 0x100000 * e + 0x210
/-- R455. -/
def EVP_PTP_UPDATES (e : Nat) : Nat := 0x7000000 + 0x100000 * e + 0x214
/-- R455. -/
def EVP_TC0_BUDGET (e : Nat) (i : Nat) : Nat := 0x7000000 + 0x100000 * e + 0x400 + 0x4 * i
/-- R457. -/
def EVP_PACER_CFG (e : Nat) (i : Nat) : Nat := 0x7000000 + 0x100000 * e + 0x1000 + 0x10 * i
/-- R457. -/
def EVP_PACER_CORE (e : Nat) (i : Nat) : Nat := 0x7000000 + 0x100000 * e + 0x1004 + 0x10 * i
/-- R457. -/
def EVP_PACER_STATUS (e : Nat) (i : Nat) : Nat := 0x7000000 + 0x100000 * e + 0x1008 + 0x10 * i
/-- R457. -/
def EVP_PACER_FIRES (e : Nat) (i : Nat) : Nat := 0x7000000 + 0x100000 * e + 0x100C + 0x10 * i
/-- R457. -/
def EVP_EP_CFG (e : Nat) (i : Nat) : Nat := 0x7000000 + 0x100000 * e + 0x10000 + 0x10 * i
/-- R457. -/
def EVP_EP_KEY (e : Nat) (i : Nat) : Nat := 0x7000000 + 0x100000 * e + 0x10004 + 0x10 * i
/-- R457. -/
def EVP_EP_CNT (e : Nat) (i : Nat) : Nat := 0x7000000 + 0x100000 * e + 0x10008 + 0x10 * i
/-- R458. -/
def EVP_DST_CFG (e : Nat) (i : Nat) : Nat := 0x7000000 + 0x100000 * e + 0x20000 + 0x20 * i
/-- R458. -/
def EVP_DST_MAC_LO (e : Nat) (i : Nat) : Nat := 0x7000000 + 0x100000 * e + 0x20004 + 0x20 * i
/-- R458. -/
def EVP_DST_MAC_HI (e : Nat) (i : Nat) : Nat := 0x7000000 + 0x100000 * e + 0x20008 + 0x20 * i
/-- R458. -/
def EVP_DST_IP0 (e : Nat) (i : Nat) : Nat := 0x7000000 + 0x100000 * e + 0x2000C + 0x20 * i
/-- R458. -/
def EVP_DST_IP1 (e : Nat) (i : Nat) : Nat := 0x7000000 + 0x100000 * e + 0x20010 + 0x20 * i
/-- R458. -/
def EVP_DST_IP2 (e : Nat) (i : Nat) : Nat := 0x7000000 + 0x100000 * e + 0x20014 + 0x20 * i
/-- R458. -/
def EVP_DST_IP3 (e : Nat) (i : Nat) : Nat := 0x7000000 + 0x100000 * e + 0x20018 + 0x20 * i
/-- R458. -/
def EVP_DST_LIM (e : Nat) (i : Nat) : Nat := 0x7000000 + 0x100000 * e + 0x2001C + 0x20 * i
/-- R381. -/
def INT_DEV_CFG_DIGEST_LO : Nat := 0x8000000 + 0x0
/-- R381. -/
def INT_DEV_CFG_DIGEST_HI : Nat := 0x8000000 + 0x4
/-- R381. -/
def INT_SCRUB_CFG : Nat := 0x8000000 + 0x8
/-- R381. -/
def INT_FSIG_SEQ : Nat := 0x8000000 + 0xC
/-- R381. -/
def INT_FSIG_LOST : Nat := 0x8000000 + 0x10
/-- R380. -/
def INT_PART_CTRL (i : Nat) : Nat := 0x8000000 + 0x1000 + 0x40 * i
/-- R380. -/
def INT_PART_CFG_EPOCH (i : Nat) : Nat := 0x8000000 + 0x1004 + 0x40 * i
/-- R380. -/
def INT_PART_CFG_DIGEST_LO (i : Nat) : Nat := 0x8000000 + 0x1008 + 0x40 * i
/-- R380. -/
def INT_PART_CFG_DIGEST_HI (i : Nat) : Nat := 0x8000000 + 0x100C + 0x40 * i
/-- R380. -/
def INT_PART_CFG_EXPECT_LO (i : Nat) : Nat := 0x8000000 + 0x1010 + 0x40 * i
/-- R380. -/
def INT_PART_CFG_EXPECT_HI (i : Nat) : Nat := 0x8000000 + 0x1014 + 0x40 * i
/-- R380. -/
def INT_PART_STATUS (i : Nat) : Nat := 0x8000000 + 0x1018 + 0x40 * i
/-- R381. -/
def INT_TEST_CFG : Nat := 0x8000000 + 0x2000
/-- R381. -/
def INT_TEST_STATUS : Nat := 0x8000000 + 0x2004
/-- R381. -/
def INT_TEST_PASSED : Nat := 0x8000000 + 0x2008
/-- R381. -/
def INT_TEST_FAILED : Nat := 0x8000000 + 0x200C
/-- R27. -/
def INT_MAP_GEN : Nat := 0x8000000 + 0x3000
/-- R24. -/
def INT_CORE_MAP (i : Nat) : Nat := 0x8000000 + 0x4000 + 0x4 * i
/-- R25. -/
def INT_PHYS_STATE (i : Nat) : Nat := 0x8000000 + 0xC000 + 0x4 * i
/-- R527. -/
def MGT_MB_CTRL (a : Nat) : Nat := attReg a (0xA000000 + 0x0)
/-- R527. -/
def MGT_MB_STATUS (a : Nat) : Nat := attReg a (0xA000000 + 0x4)
/-- R527. -/
def MGT_MB_REQ (a : Nat) (i : Nat) : Nat := attReg a (0xA000000 + 0x100 + 0x4 * i)
/-- R527. -/
def MGT_MB_RSP (a : Nat) (i : Nat) : Nat := attReg a (0xA000000 + 0x200 + 0x4 * i)
/-- R529. -/
def MGT_WIN_CFG (a : Nat) (i : Nat) : Nat := attReg a (0xA000000 + 0x2000 + 0x20 * i)
/-- R529. -/
def MGT_WIN_BASE_LO (a : Nat) (i : Nat) : Nat := attReg a (0xA000000 + 0x2008 + 0x20 * i)
/-- R529. -/
def MGT_WIN_BASE_HI (a : Nat) (i : Nat) : Nat := attReg a (0xA000000 + 0x200C + 0x20 * i)
/-- R529. -/
def MGT_WIN_SIZE_LO (a : Nat) (i : Nat) : Nat := attReg a (0xA000000 + 0x2010 + 0x20 * i)
/-- R529. -/
def MGT_WIN_SIZE_HI (a : Nat) (i : Nat) : Nat := attReg a (0xA000000 + 0x2014 + 0x20 * i)
/-- R528. -/
def MGT_LIFECYCLE : Nat := 0xA000000 + 0x1000
/-- R528. -/
def MGT_DEVICE_ID (i : Nat) : Nat := 0xA000000 + 0x1010 + 0x4 * i
/-- R528. -/
def MGT_BOOT_NONCE : Nat := 0xA000000 + 0x1020
/-- R528. -/
def MGT_PROT_GEN : Nat := 0xA000000 + 0x1024
/-- R528. -/
def MGT_DEVCFG_HOSTS : Nat := 0xA000000 + 0x1028
/-- R528. -/
def MGT_AGENT_KEY_ID (i : Nat) : Nat := 0xA000000 + 0x1030 + 0x4 * i
/-- R528. -/
def MGT_DEBUG_KEY_ID (i : Nat) : Nat := 0xA000000 + 0x1038 + 0x4 * i
/-- R528. -/
def MGT_COSIGN (i : Nat) : Nat := 0xA000000 + 0x1040 + 0x4 * i
/-- R528. -/
def MGT_STAGE (i : Nat) : Nat := 0xA000000 + 0x1080 + 0x8 * i
/-- R528. -/
def MGT_STAGE_ID (i : Nat) : Nat := 0xA000000 + 0x1084 + 0x8 * i
/-- R528. -/
def MGT_DEBUG : Nat := 0xA000000 + 0x10C0
/-- R528. -/
def MGT_TAMPER : Nat := 0xA000000 + 0x10C4
/-- R528. -/
def MGT_TAMPER_CFG : Nat := 0xA000000 + 0x10C8
/-- R528. -/
def MGT_FLASH : Nat := 0xA000000 + 0x10CC
/-- R528. -/
def MGT_NET : Nat := 0xA000000 + 0x10D0
/-- R528. -/
def MGT_NET_ERR : Nat := 0xA000000 + 0x10D4
/-- R528. -/
def MGT_AUTH_FAIL : Nat := 0xA000000 + 0x10D8
/-- R528. -/
def MGT_QUEUES : Nat := 0xA000000 + 0x10DC
/-- R528. -/
def MGT_PTP_SERVO (i : Nat) : Nat := 0xA000000 + 0x1100 + 0x4 * i
/-- R529. -/
def MGT_HBM_REGION_BASE (i : Nat) : Nat := 0xA000000 + 0x3000 + 0x10 * i
/-- R529. -/
def MGT_HBM_REGION_SIZE (i : Nat) : Nat := 0xA000000 + 0x3004 + 0x10 * i
/-- R330. -/
def PLS_PART_CTRL (i : Nat) : Nat := 0xB000000 + 0x0 + 0x40 * i
/-- R330. -/
def PLS_EPOCH (i : Nat) : Nat := 0xB000000 + 0x4 + 0x40 * i
/-- R330. -/
def PLS_EPOCH_START (i : Nat) : Nat := 0xB000000 + 0x8 + 0x40 * i
/-- R330. -/
def PLS_PART_STATUS (i : Nat) : Nat := 0xB000000 + 0xC + 0x40 * i
/-- R330. -/
def PLS_APPLY_NS (i : Nat) : Nat := 0xB000000 + 0x10 + 0x40 * i
/-- R330. -/
def PLS_APPLY_MAX_NS (i : Nat) : Nat := 0xB000000 + 0x14 + 0x40 * i
/-- R330. -/
def PLS_BOUND_NS (i : Nat) : Nat := 0xB000000 + 0x18 + 0x40 * i
/-- R330. -/
def PLS_APPLIES (i : Nat) : Nat := 0xB000000 + 0x1C + 0x40 * i
/-- R330. -/
def PLS_EARLY_ENDS (i : Nat) : Nat := 0xB000000 + 0x20 + 0x40 * i
/-- R331. -/
def PLS_LOG_BASE (g : Nat) : Nat := 0xB010000 + 0x1000 * g + 0x0
/-- R331. -/
def PLS_LOG_CFG (g : Nat) : Nat := 0xB010000 + 0x1000 * g + 0x4
/-- R331. -/
def PLS_MIRROR_BASE (g : Nat) : Nat := 0xB010000 + 0x1000 * g + 0x8
/-- R331. -/
def PLS_LIST_BASE (g : Nat) : Nat := 0xB010000 + 0x1000 * g + 0xC
/-- R331. -/
def PLS_LIST_CFG (g : Nat) : Nat := 0xB010000 + 0x1000 * g + 0x10
/-- R331. -/
def PLS_GRV_STATUS (g : Nat) : Nat := 0xB010000 + 0x1000 * g + 0x14
/-- R331. -/
def PLS_GRV_RECORDS (g : Nat) : Nat := 0xB010000 + 0x1000 * g + 0x18
/-- R332. -/
def PLS_PASSES (g : Nat) : Nat := 0xB010000 + 0x1000 * g + 0x20
/-- R332. -/
def PLS_RECORDS (g : Nat) : Nat := 0xB010000 + 0x1000 * g + 0x24
/-- R332. -/
def PLS_PASS_WAIT (g : Nat) : Nat := 0xB010000 + 0x1000 * g + 0x28
/-- R332. -/
def PLS_OVF_STEPS (g : Nat) : Nat := 0xB010000 + 0x1000 * g + 0x2C
/-- R332. -/
def PLS_LIST_LOST (g : Nat) : Nat := 0xB010000 + 0x1000 * g + 0x30
/-- R332. -/
def PLS_FMT_SKIP (g : Nat) : Nat := 0xB010000 + 0x1000 * g + 0x34
/-- R332. -/
def PLS_READ_SKIP (g : Nat) : Nat := 0xB010000 + 0x1000 * g + 0x38
/-- R332. -/
def PLS_CREATED (g : Nat) : Nat := 0xB010000 + 0x1000 * g + 0x3C
/-- R332. -/
def PLS_PRUNED (g : Nat) : Nat := 0xB010000 + 0x1000 * g + 0x40
/-- R332. -/
def PLS_CLIPPED (g : Nat) : Nat := 0xB010000 + 0x1000 * g + 0x44
/-- R332. -/
def PLS_CHANGED (g : Nat) : Nat := 0xB010000 + 0x1000 * g + 0x48
/-- R333. -/
def PLS_RNG_KEY (g : Nat) (i : Nat) : Nat := 0xB010000 + 0x1000 * g + 0x100 + 0x80 * i
/-- R333. -/
def PLS_RNG_CNT (g : Nat) (i : Nat) : Nat := 0xB010000 + 0x1000 * g + 0x104 + 0x80 * i
/-- R333. -/
def PLS_RNG_PRE (g : Nat) (i : Nat) : Nat := 0xB010000 + 0x1000 * g + 0x108 + 0x80 * i
/-- R333. -/
def PLS_RNG_FMT (g : Nat) (i : Nat) : Nat := 0xB010000 + 0x1000 * g + 0x10C + 0x80 * i
/-- R333. -/
def PLS_RNG_RULE (g : Nat) (i : Nat) : Nat := 0xB010000 + 0x1000 * g + 0x110 + 0x80 * i
/-- R333. -/
def PLS_RNG_BOUNDS (g : Nat) (i : Nat) : Nat := 0xB010000 + 0x1000 * g + 0x114 + 0x80 * i
/-- R334. -/
def PLS_RNG_LTP0 (g : Nat) (i : Nat) : Nat := 0xB010000 + 0x1000 * g + 0x140 + 0x80 * i
/-- R334. -/
def PLS_RNG_LTP1 (g : Nat) (i : Nat) : Nat := 0xB010000 + 0x1000 * g + 0x144 + 0x80 * i
/-- R334. -/
def PLS_RNG_LTP2 (g : Nat) (i : Nat) : Nat := 0xB010000 + 0x1000 * g + 0x148 + 0x80 * i
/-- R334. -/
def PLS_RNG_LTP3 (g : Nat) (i : Nat) : Nat := 0xB010000 + 0x1000 * g + 0x14C + 0x80 * i
/-- R334. -/
def PLS_RNG_LTP4 (g : Nat) (i : Nat) : Nat := 0xB010000 + 0x1000 * g + 0x150 + 0x80 * i
/-- R334. -/
def PLS_RNG_LTP5 (g : Nat) (i : Nat) : Nat := 0xB010000 + 0x1000 * g + 0x154 + 0x80 * i
/-- R334. -/
def PLS_RNG_LTP6 (g : Nat) (i : Nat) : Nat := 0xB010000 + 0x1000 * g + 0x158 + 0x80 * i
/-- R334. -/
def PLS_RNG_LTP7 (g : Nat) (i : Nat) : Nat := 0xB010000 + 0x1000 * g + 0x15C + 0x80 * i
/-- R334. -/
def PLS_RNG_LTD0 (g : Nat) (i : Nat) : Nat := 0xB010000 + 0x1000 * g + 0x160 + 0x80 * i
/-- R334. -/
def PLS_RNG_LTD1 (g : Nat) (i : Nat) : Nat := 0xB010000 + 0x1000 * g + 0x164 + 0x80 * i
/-- R334. -/
def PLS_RNG_LTD2 (g : Nat) (i : Nat) : Nat := 0xB010000 + 0x1000 * g + 0x168 + 0x80 * i
/-- R334. -/
def PLS_RNG_LTD3 (g : Nat) (i : Nat) : Nat := 0xB010000 + 0x1000 * g + 0x16C + 0x80 * i
/-- R334. -/
def PLS_RNG_LTD4 (g : Nat) (i : Nat) : Nat := 0xB010000 + 0x1000 * g + 0x170 + 0x80 * i
/-- R334. -/
def PLS_RNG_LTD5 (g : Nat) (i : Nat) : Nat := 0xB010000 + 0x1000 * g + 0x174 + 0x80 * i
/-- R334. -/
def PLS_RNG_LTD6 (g : Nat) (i : Nat) : Nat := 0xB010000 + 0x1000 * g + 0x178 + 0x80 * i
/-- R334. -/
def PLS_RNG_LTD7 (g : Nat) (i : Nat) : Nat := 0xB010000 + 0x1000 * g + 0x17C + 0x80 * i
/-- R153. -/
def MEM_HBM_STATUS (s : Nat) : Nat := 0xC000000 + 0x1000 * s + 0x0
/-- R153. -/
def MEM_HBM_INFLIGHT (s : Nat) : Nat := 0xC000000 + 0x1000 * s + 0x4
/-- R153. -/
def MEM_HBM_CE (s : Nat) : Nat := 0xC000000 + 0x1000 * s + 0x8
/-- R153. -/
def MEM_HBM_UE (s : Nat) : Nat := 0xC000000 + 0x1000 * s + 0xC
/-- R153. -/
def MEM_HBM_CRC (s : Nat) : Nat := 0xC000000 + 0x1000 * s + 0x10
/-- R153. -/
def MEM_HBM_BYTES_LO (s : Nat) : Nat := 0xC000000 + 0x1000 * s + 0x14
/-- R153. -/
def MEM_HBM_BYTES_HI (s : Nat) : Nat := 0xC000000 + 0x1000 * s + 0x18
/-- R341. -/
def CVU_CTRL : Nat := cvuReg (0x0)
/-- R341. -/
def CVU_POLY_LO : Nat := cvuReg (0x8)
/-- R341. -/
def CVU_POLY_HI : Nat := cvuReg (0xC)
/-- R341. -/
def CVU_INIT_LO : Nat := cvuReg (0x10)
/-- R341. -/
def CVU_INIT_HI : Nat := cvuReg (0x14)
/-- R341. -/
def CVU_XOROUT_LO : Nat := cvuReg (0x18)
/-- R341. -/
def CVU_XOROUT_HI : Nat := cvuReg (0x1C)
/-- R341. -/
def CVU_FOLD_LO : Nat := cvuReg (0x20)
/-- R341. -/
def CVU_FOLD_HI : Nat := cvuReg (0x24)
/-- R341. -/
def CVU_RUNNING_LO : Nat := cvuReg (0x28)
/-- R341. -/
def CVU_RUNNING_HI : Nat := cvuReg (0x2C)
/-- R341. -/
def CVU_VALUE_LO : Nat := cvuReg (0x30)
/-- R341. -/
def CVU_VALUE_HI : Nat := cvuReg (0x34)

end Reg
end Sys2Proof.Machine
end

