-- ==== Sys2Proof/Machine/Resets.lean ====
section
/-! DEFINITION. What a set-up register holds that nothing has written: the tables' reset values, and those that the
fuses or the start-up give. -/
namespace Sys2Proof.Machine

/-! ### Reset values that depend on the fuses -/

/-- Good core indices of grove `g`, in increasing order (R21). -/
def Fuses.good (f : Fuses) (g : Nat) : List Nat :=
  (List.range 144).filter fun i => !(f.defects.contains (144 * g + i))

/-- The fuse map's entry of logical id `l` (R21, R24). -/
def Fuses.mapWord (f : Fuses) (l : Nat) : Word :=
  if f.active = 0 then 0
  else
    let g := l / f.active
    if g < 64 then
      match (f.good g)[l % f.active]? with
      | some i => BitVec.ofNat 32 (0x80000000 + 144 * g + i)
      | none => 0
    else 0

/-- The fuse map's state of physical core `p`: DEFECT, ACTIVE with its logical id, or SAPLING (R21, R25). -/
def Fuses.physWord (f : Fuses) (p : Nat) : Word :=
  let g := p / 144
  if f.defects.contains p then 0
  else
    let r := ((f.good g).filter (· < p % 144)).length
    if r < f.active then BitVec.ofNat 32 (0x10000000 + f.active * g + r) else 0x20000000

/-- Good cores of grove `g` beyond its active count (R2). -/
def Fuses.saplings (f : Fuses) (g : Nat) : Nat := (f.good g).length - f.active

/-- HIF_CAPABILITY0 (R6). -/
def Fuses.cap0 (f : Fuses) : Word :=
  BitVec.ofNat 32 ((if f.eth2 then 3 else 1) * 2 ^ 30 + b2n f.phase * 2 ^ 29 + b2n f.pls * 2 ^ 28
    + f.fitted % 16 * 2 ^ 24 + f.active % 256 * 2 ^ 16 + f.active * 64 % 65536)

/-- HIF_CAPABILITY1 (R6). -/
def Fuses.cap1 (f : Fuses) : Word :=
  let least := (List.range 64).foldl (fun m g => min m (f.saplings g)) 255
  BitVec.ofNat 32 (f.stepping % 256 * 65536 + least * 256 + 64)

/-- Does HBM stack `s` exist (R3)? -/
def Fuses.hasStack (f : Fuses) (s : Nat) : Bool := f.fitted / 2 ^ s % 2 == 1 && decide (s < 4)

/-- MGT_LIFECYCLE: the state from the next power-up, the closings and openings left, the present state
(14_management_security.md R528). -/
def Fuses.lifeWord (f : Fuses) : Word :=
  BitVec.ofNat 32 (f.next % 8 * 2 ^ 29 + (8 - f.closes) % 16 * 256 + (8 - f.opens) % 16 * 16 + f.life % 8)

/-- The set-up address of a window, as a block and an offset (R29 to R31). -/
def locate (key : Nat) : Option (Blk × Nat) :=
  let addr := key % 0x100000000
  if 0xF00000000 ≤ key then some (.cvu, key - 0xF00000000)
  else if addr < 0x4000000 then
    let g := addr / 0x100000
    let o := addr % 0x100000
    if o < 0x90000 then some (.core (144 * g + o / 0x1000), o % 0x1000)
    else if 0xC0000 ≤ o then some (.grove g, o) else none
  else if addr < 0x5000000 then some (.tb, addr - 0x4000000)
  else if addr < 0x6000000 then some (.fab, addr - 0x5000000)
  else if addr < 0x7000000 then
    let o := addr - 0x6000000
    if (findReg .att o).isSome then some (.att, o) else some (.hif, o)
  else if addr < 0x8000000 then
    let o := addr - 0x7000000
    if o < 0x200000 then some (.evp (o / 0x100000), o % 0x100000) else none
  else if addr < 0x9000000 then some (.int, addr - 0x8000000)
  else if addr < 0xA000000 then some (.pwr, addr - 0x9000000)
  else if addr < 0xB000000 then
    let o := addr - 0xA000000
    if (findReg .mba o).isSome then some (.mba, o) else some (.mgt, o)
  else if addr < 0xC000000 then
    let o := addr - 0xB000000
    if o < 0x10000 then some (.pls, o)
    else if o < 0x50000 then some (.plsg ((o - 0x10000) / 0x1000), o % 0x1000) else none
  else if addr < 0xD000000 then
    let o := addr - 0xC000000
    if o < 0x4000 then some (.hbm (o / 0x1000), o % 0x1000) else none
  else none

/-- PWR_CTRL, PWR_STATUS or PWR_WAKES of a domain that start-up brings ON (`auto`), that may have RETENTION and that start-up
wakes (13_memory_power.md R478, R482, R483; R479: power-up is a wake from OFF of every domain). Before start-up every domain
is OFF. -/
def pwrWord (up auto ret woke : Bool) (o : Nat) : Word :=
  let st : Nat := if up && auto then 0 else 2
  match o % 16 with
  | 0 => BitVec.ofNat 32 st
  | 4 => BitVec.ofNat 32 (st * 2 ^ 29 + b2n ret * 2 ^ 23)
  | 8 => BitVec.ofNat 32 (b2n (up && woke))
  | _ => 0

/-- The part of a register's reset value that the fuses, the straps or the start-up give. -/
def fuseWord (f : Fuses) (up : Bool) (b : Blk) (o : Nat) : Word :=
  match b with
  | .core p =>
    if 0xE00 ≤ o ∧ o < 0xE20 then pwrWord up false true (!(f.defects.contains p)) o
    else if 0xE20 ≤ o ∧ o < 0xE30 then pwrWord up true true true o
    else 0
  | .grove g =>
    if o = 0xC1000 then BitVec.ofNat 32 (f.saplings g * 65536)
    else if 0xC4000 ≤ o ∧ o < 0xC4010 then pwrWord up true true true o
    else if 0xC4010 ≤ o ∧ o < 0xC4020 then pwrWord up false true f.pls o
    else if o = 0xC4020 then BitVec.ofNat 32 (b2n up * 2 ^ 31)
    else 0
  | .hif => if o = 0 then f.cap0 else if o = 4 then f.cap1 else 0
  | .att => if 0x70000 ≤ o ∧ o < 0x70400 ∧ o % 16 = 12 then 1 else 0
  | .int =>
    if 0x4000 ≤ o ∧ o < 0xC000 then f.mapWord ((o - 0x4000) / 4)
    else if 0xC000 ≤ o ∧ o < 0x15000 then f.physWord ((o - 0xC000) / 4) else 0
  | .pwr =>
    if o < 0x40 ∨ 0xA0 ≤ o ∧ o < 0xB0 then pwrWord false false true false o
    else if o < 0xA0 then pwrWord false false false false o else 0
  | .hbm s => if o = 0 then BitVec.ofNat 32 (b2n (f.hasStack s)) else 0
  | .mgt =>
    if o = 0x1000 then f.lifeWord
    else if 0x1010 ≤ o ∧ o < 0x1020 then BitVec.ofNat 32 (f.deviceId / 2 ^ (8 * (o - 0x1010)))
    else if 0x1030 ≤ o ∧ o < 0x1038 then BitVec.ofNat 32 (f.agentKeyId / 2 ^ (8 * (o - 0x1030)))
    else if 0x1038 ≤ o ∧ o < 0x1040 then BitVec.ofNat 32 (f.debugKeyId / 2 ^ (8 * (o - 0x1038)))
    else 0
  | _ => 0

/-- What a set-up register holds that nothing has written: its reset value. -/
def resetWord (f : Fuses) (up : Bool) (key : Nat) : Word :=
  match locate key with
  | none => 0
  | some (b, o) =>
    match findReg b o with
    | none => 0
    | some d => BitVec.ofNat 32 d.reset ||| fuseWord f up b o

end Sys2Proof.Machine
end

