-- ==== Sys2Proof/Machine/Ops.lean ====
section
/-! DEFINITION. The named operations over the state: registers, records, local memory and HBM, roles and
partitions, reports. Every meaning reads and writes through them. -/
namespace Sys2Proof.Machine

/-! ### Registers -/

/-- The word a set-up register holds. -/
def State.rd (s : State) (key : Nat) : Word := Store.get (resetWord s.fuses s.up) s.regs key

/-- A set-up register made to hold `w`. -/
def State.wr (s : State) (key : Nat) (w : Word) : State :=
  { s with regs := Store.set (resetWord s.fuses s.up) s.regs key w }

/-- A field of a register. -/
def State.rf (s : State) (key lo n : Nat) : Nat := fld (s.rd key) lo n

/-- A field of a register made to hold `v`. -/
def State.wf' (s : State) (key lo n v : Nat) : State := s.wr key (setFld (s.rd key) lo n v)

/-- A flag of a register. -/
def State.bit (s : State) (key i : Nat) : Bool := tst (s.rd key) i

/-- A counter that sticks at 0xFFFF_FFFF moved on by `n`. -/
def State.count (s : State) (key n : Nat) : State := s.wr key (sticky (s.rd key) n)

/-- A counter that wraps moved on by `n`. -/
def State.countWrap (s : State) (key n : Nat) : State := s.wr key (s.rd key + BitVec.ofNat 32 n)

/-- A 64-bit pair (00_scope.md R14). -/
def State.rd64 (s : State) (lo : Nat) : Nat := (s.rd lo).toNat + 2 ^ 32 * (s.rd (lo + 4)).toNat

/-- A 64-bit pair made to hold `v`. -/
def State.wr64 (s : State) (lo v : Nat) : State :=
  (s.wr lo (BitVec.ofNat 32 v)).wr (lo + 4) (BitVec.ofNat 32 (v / 2 ^ 32))

/-- A 64-bit counter that wraps moved on by `n`. -/
def State.count64 (s : State) (lo n : Nat) : State := s.wr64 lo (s.rd64 lo + n)

/-- A high-water field raised to `v` where it is lower. -/
def State.high (s : State) (key lo n v : Nat) : State :=
  if s.rf key lo n < v then s.wf' key lo n v else s

/-! ### Records -/

def State.core (s : State) (p : Nat) : Core := Store.get (fun _ => Core.init) s.cores p
def State.setCore (s : State) (p : Nat) (c : Core) : State := { s with cores := Store.set (fun _ => Core.init) s.cores p c }
def State.updCore (s : State) (p : Nat) (f : Core → Core) : State := s.setCore p (f (s.core p))
def State.grove (s : State) (g : Nat) : Grove := Store.get (fun _ => Grove.init) s.groves g
def State.setGrove (s : State) (g : Nat) (v : Grove) : State := { s with groves := Store.set (fun _ => Grove.init) s.groves g v }
def State.updGrove (s : State) (g : Nat) (f : Grove → Grove) : State := s.setGrove g (f (s.grove g))
def State.part (s : State) (k : Nat) : Part := Store.get (fun _ => Part.init) s.parts k
def State.setPart (s : State) (k : Nat) (v : Part) : State := { s with parts := Store.set (fun _ => Part.init) s.parts k v }
def State.updPart (s : State) (k : Nat) (f : Part → Part) : State := s.setPart k (f (s.part k))

def State.att (s : State) (a : Nat) : Att := Store.get (fun _ => Att.init) s.atts a
def State.setAtt (s : State) (a : Nat) (v : Att) : State := { s with atts := Store.set (fun _ => Att.init) s.atts a v }
def State.updAtt (s : State) (a : Nat) (f : Att → Att) : State := s.setAtt a (f (s.att a))
def State.port (s : State) (e : Nat) : Port := Store.get (fun _ => Port.init) s.ports e
def State.setPort (s : State) (e : Nat) (v : Port) : State := { s with ports := Store.set (fun _ => Port.init) s.ports e v }
def State.updPort (s : State) (e : Nat) (f : Port → Port) : State := s.setPort e (f (s.port e))

/-- A stream context as one number: word `i` in bits 32i + 31 : 32i (12_event_ports.md R430). -/
def State.context (s : State) (c : Nat) : Nat := Store.get (fun _ => 0) s.ctx c
/-- Keys of the errors of a line of a grove cache and of a stream context; those of local memory are below 2^40. -/
def lineKey (g ln : Nat) : Nat := 2 ^ 40 + g * 2 ^ 32 + ln
def ctxKey (c : Nat) : Nat := 2 ^ 50 + c
/-- A stream context written; writing clears its poison, and an error not yet read (R347). -/
def State.setContext (s : State) (c v : Nat) : State :=
  { s with ctx := Store.set (fun _ => 0) s.ctx c (v % 2 ^ 256), ctxPoison := Store.erase c s.ctxPoison,
           flaws := Store.erase (ctxKey c) s.flaws }
/-- A stream context is read: a single-bit error is corrected, a double-bit error poisons it (R346, R347). -/
def State.meetCtx (s : State) (c : Nat) : State :=
  if Store.get (fun _ => 0) s.flaws (ctxKey c) = 2 then
    { s with ctxPoison := Store.set (fun _ => false) s.ctxPoison c true, flaws := Store.erase (ctxKey c) s.flaws }
  else { s with flaws := Store.erase (ctxKey c) s.flaws }
/-- Field of `n` bits at bit `lo` of word `w` of a context. -/
def cfld (c w lo n : Nat) : Nat := nfld c (32 * w + lo) n
/-- That field made to hold `v`. -/
def csetFld (c w lo n v : Nat) : Nat :=
  let p := 32 * w + lo
  c / 2 ^ (p + n) * 2 ^ (p + n) + v % 2 ^ n * 2 ^ p + c % 2 ^ p

/-- Something leaves the device. -/
def State.emitOut (s : State) (o : Out) : State := { s with out := o :: s.out }

/-! ### Clocks -/

/-- The reference counter, in nanoseconds (07_timebase.md R241). -/
def State.ref (s : State) : Nat := s.rd64 Reg.TB_REF_LO
/-- The Phase Time Base (R231). -/
def State.ptb (s : State) : Nat := s.rd64 Reg.TB_PTB_LO
/-- The PTB as a core sees it, 12 cycles after the timebase does (07_timebase.md R246). -/
def State.corePtb (s : State) : Nat := s.tb.spine

/-! ### Roles and partitions -/

/-- ROLE of physical core `p` (01_organisation.md R25). -/
def State.role (s : State) (p : Nat) : Nat := s.rf (Reg.INT_PHYS_STATE p) 28 4
/-- LOGICAL_ID of physical core `p`. -/
def State.logicalOf (s : State) (p : Nat) : Nat := s.rf (Reg.INT_PHYS_STATE p) 0 13
/-- The physical core that carries logical id `l`, where VALID (R24). -/
def State.physOf (s : State) (l : Nat) : Option Nat :=
  if l < 8192 ∧ s.bit (Reg.INT_CORE_MAP l) 31 = true then some (s.rf (Reg.INT_CORE_MAP l) 0 14) else none

def roleDefect : Nat := 0
def roleActive : Nat := 1
def roleSapling : Nat := 2
def roleFenced : Nat := 3
def roleTest : Nat := 4
def roleReplay : Nat := 5

/-- Physical cores of grove `g`, by core index. -/
def coresOf (g : Nat) : List Nat := (List.range 144).map fun i => 144 * g + i

/-- ACTIVE cores of grove `g`. -/
def State.activeCores (s : State) (g : Nat) : List Nat := (coresOf g).filter fun p => s.role p == roleActive

/-- Every ACTIVE core of grove `g` changed. -/
def State.updCores (s : State) (g : Nat) (f : Core → Core) : State := (s.activeCores g).foldl (fun t p => t.updCore p f) s

/-- The lowest-index SAPLING of grove `g` that no move has reserved (R22, R365). -/
def State.sapling (s : State) (g : Nat) : Option Nat :=
  (coresOf g).find? fun p => s.role p == roleSapling && (s.grove g).reserved.all fun r => r.2 != p

/-- Does partition `k` hold grove `g` (R35, HIF_PART_GROVES)? -/
def State.holds (s : State) (k g : Nat) : Bool :=
  s.bit (Reg.HIF_PART_OWNER k) 31 && s.rd64 (Reg.HIF_PART_GROVES_LO k) / 2 ^ g % 2 == 1

/-- The partition of grove `g`, where it belongs to one. -/
def State.partOf (s : State) (g : Nat) : Option Nat := (List.range 64).find? fun k => s.holds k g

/-- Groves of partition `k`. -/
def State.grovesOf (s : State) (k : Nat) : List Nat := (List.range 64).filter fun g => s.holds k g

/-- ACTIVE cores of partition `k`. -/
def State.coresOfPart (s : State) (k : Nat) : List Nat := (s.grovesOf k).flatMap s.activeCores

/-- The attachment that owns partition `k` (R36). -/
def State.ownerOf (s : State) (k : Nat) : Option Nat :=
  if s.bit (Reg.HIF_PART_OWNER k) 31 then some (s.rf (Reg.HIF_PART_OWNER k) 0 3) else none

/-- HIF_PART_STATUS.STATE of partition `k` (11_host_interface.md R421). -/
def State.pstate (s : State) (k : Nat) : Nat := s.rf (Reg.HIF_PART_STATUS k) 29 3
def psDisabled : Nat := 0
def psChecking : Nat := 1
def psRunning : Nat := 2
def psRefused : Nat := 3
def psStopped : Nat := 4

/-- A partition is enabled while CHECKING, RUNNING or STOPPED (00_scope.md R16, R412). -/
def State.enabled (s : State) (k : Nat) : Bool :=
  s.pstate k == psChecking || s.pstate k == psRunning || s.pstate k == psStopped

/-- Is grove `g` in an enabled partition? -/
def State.groveEnabled (s : State) (g : Nat) : Bool :=
  match s.partOf g with | some k => s.enabled k | none => false

/-- Does attachment `a` own the partition of grove `g` (R34)? -/
def State.ownsGrove (s : State) (a g : Nat) : Bool :=
  match s.partOf g with | some k => s.ownerOf k == some a | none => false

/-- Is core `p` ACTIVE in a RUNNING partition, and in which? -/
def State.runningPart (s : State) (p : Nat) : Option Nat :=
  match s.partOf (p / 144) with
  | some k => if s.pstate k = psRunning ∧ s.role p = roleActive then some k else none
  | none => none

/-- STATE of a power domain at a register base (13_memory_power.md R482); 0 is ON. -/
def State.pwr (s : State) (base : Nat) : Nat := s.rf (base + 4) 29 3

/-- Core memory domain ON. -/
def State.memOn (s : State) (p : Nat) : Bool := decide (p < 9216) && s.pwr (coreReg p 0xE10) == 0
/-- Core logic domain ON. -/
def State.logicOn (s : State) (p : Nat) : Bool := decide (p < 9216) && s.pwr (coreReg p 0xE00) == 0
/-- Router domain ON. -/
def State.routerOn (s : State) (p : Nat) : Bool := decide (p < 9216) && s.pwr (coreReg p 0xE20) == 0

/-! ### Local memory and HBM -/

/-- Key of byte `off` of the local memory of core `p`. -/
def memKey (p off : Nat) : Nat := 0x40000 * p + off

def zeroByte : Nat → Byte := fun _ => 0

def State.byte (s : State) (p off : Nat) : Byte := Store.get zeroByte s.mem (memKey p off)

/-- Is the 64-bit word of byte `off` poisoned (10_integrity.md R347)? -/
def State.bad (s : State) (p off : Nat) : Bool := Store.get (fun _ => false) s.poison (memKey p off / 8 * 8)

/-- A byte of local memory replaced, whatever its word. -/
def State.putByte (s : State) (p off : Nat) (b : Byte) : State :=
  { s with mem := Store.set zeroByte s.mem (memKey p off) b }

/-- One byte of a write of bytes `lo` to `hi` - 1. A poisoned word changes only where the write covers all its eight bytes,
which clears the poison (13_memory_power.md R464). -/
def State.setByte (s : State) (p lo hi off : Nat) (b : Byte) : State :=
  let w := off / 8 * 8
  if s.bad p off = true then
    if lo ≤ w ∧ w + 8 ≤ hi then
      let t := s.putByte p off b
      if off % 8 = 7 then { t with poison := Store.erase (memKey p w) t.poison } else t
    else s
  else s.putByte p off b

/-- `n` bytes of local memory. -/
def State.bytes (s : State) (p off n : Nat) : List Byte := (List.range n).map fun i => s.byte p (off + i)

/-- Bytes of a write of `lo` to `hi` - 1, from `off` on. -/
def State.setRun (s : State) (p lo hi off : Nat) : List Byte → State
  | [] => s
  | b :: bs => (s.setByte p lo hi off b).setRun p lo hi (off + 1) bs

/-- The errors of the words that `n` bytes from `off` cover whole are gone: they have been written (R347). -/
def State.rewritten (s : State) (p off n : Nat) : State :=
  { s with flaws := Store.clearAll (fun k => decide (memKey p off ≤ k) && decide (k + 8 ≤ memKey p off + n)) s.flaws }

/-- Bytes written to local memory from `off` on. -/
def State.setBytes (s : State) (p off : Nat) (bs : List Byte) : State :=
  (s.setRun p off (off + bs.length) off bs).rewritten p off bs.length

/-- `n` bytes of local memory as a little-endian number. -/
def State.num (s : State) (p off n : Nat) : Nat := ofBytes (s.bytes p off n)
/-- A little-endian number of `n` bytes written to local memory. -/
def State.setNum (s : State) (p off n v : Nat) : State := s.setBytes p off (toBytes n v)

def State.word (s : State) (p off : Nat) : Word := BitVec.ofNat 32 (s.num p off 4)
def State.setWord (s : State) (p off : Nat) (w : Word) : State := s.setNum p off 4 w.toNat

/-- Bytes of local memory whose keys satisfy `p` read zero, and none of them is poisoned. -/
def State.memClear (s : State) (p : Nat → Bool) : State :=
  { s with mem := Store.clearAll p s.mem, poison := Store.clearAll p s.poison, flaws := Store.clearAll p s.flaws }

/-- Any 64-bit word poisoned among `n` bytes from `off` (R347). -/
def State.poisoned (s : State) (p off n : Nat) : Bool :=
  (List.range n).any fun i => Store.get (fun _ => false) s.poison (memKey p (off + i) / 8 * 8)

def State.hbmByte (s : State) (a : Nat) : Byte := Store.get zeroByte s.hbm a
def State.setHbmByte (s : State) (a : Nat) (b : Byte) : State := { s with hbm := Store.set zeroByte s.hbm a b }
def State.hbmBytes (s : State) (a n : Nat) : List Byte := (List.range n).map fun i => s.hbmByte (a + i)
def State.setHbmBytes (s : State) (a : Nat) : List Byte → State
  | [] => s
  | b :: bs => (s.setHbmByte a b).setHbmBytes (a + 1) bs
/-- Bytes of HBM whose addresses satisfy `p` read zero. -/
def State.hbmClear (s : State) (p : Nat → Bool) : State := { s with hbm := Store.clearAll p s.hbm }
def State.hbmNum (s : State) (a n : Nat) : Nat := ofBytes (s.hbmBytes a n)

/-- 24 GiB, the size of a stack (04_synapses_dense.md R134). -/
def stackBytes : Nat := 24 * 2 ^ 30
/-- 96 GiB, the HBM address space. -/
def hbmSpace : Nat := 4 * stackBytes
/-- STATE of stack `s` (R153): 0 OFF, 1 TRAINING, 2 READY, 3 FAILED. -/
def State.stackState (s : State) (st : Nat) : Nat := s.rf (Reg.MEM_HBM_STATUS st) 2 2

/-! ### Tables in local memory -/

/-- The 4 KiB table region (13_memory_power.md R460). -/
def tableBase : Nat := 0x3000
/-- Format slot `i` of core `p` (02_arithmetic.md R54). -/
def State.fmtSlot (s : State) (p i : Nat) : FmtSlot :=
  fmtSlotOf (s.word p (tableBase + 8 * i)) (s.word p (tableBase + 8 * i + 4))
/-- Rescale Table entry `c` of core `p` (R64). -/
def State.resc (s : State) (p c : Nat) : Resc :=
  rescOf (s.word p (tableBase + 128 + 8 * c)) (s.word p (tableBase + 128 + 8 * c + 4))

/-! ### Reports -/

/-- What a failure signature names besides its class (10_integrity.md R373). -/
structure SigKeys where
  part : Option Nat := none
  step : Option Nat := none
  core : Option Nat := none
  logical : Option Nat := none
  grove : Option Nat := none
  detail : List Nat := []

/-- Records a failure signature waits in (R375). -/
def sigQueueLen : Nat := 64

/-- A message sent over SGMII to each collector that MGMT_NET has set (14_management_security.md R505). -/
def State.toCollectors (s : State) (msg : List Byte) : State :=
  ((List.range 2).filter fun i => match s.mgt.collectors[i]? with | some c => c != (0, 0) | none => false).foldl
    (fun t i => t.emitOut (.emetur i (emTrailer msg))) s

/-- A fault of an FLT_ class forms a failure signature and, where it names a partition, stands in that partition's
status (R373, R375). The sequence number is consumed even where the record is lost. -/
def State.report (s : State) (cls : Nat) (k : SigKeys) : State :=
  let seq := s.rd Reg.INT_FSIG_SEQ + 1
  let s1 := s.wr Reg.INT_FSIG_SEQ seq
  let rec_ : Sig :=
    { cls := cls, ref := s.ref, ptb := s.ptb, part := k.part, step := k.step, core := k.core, logical := k.logical,
      grove := k.grove, seq := seq.toNat, detail := k.detail }
  let s2 := if s.sigs.length < sigQueueLen then
      (({ s1 with sigs := s1.sigs ++ [rec_] }).wf' Reg.MGT_QUEUES 8 7 (s.sigs.length + 1)).toCollectors
        (recordMsg s.fuses.deviceId (s.rd Reg.MGT_BOOT_NONCE).toNat rec_)
    else s1.count Reg.INT_FSIG_LOST 1
  match k.part with
  | some q => s2.updPart q fun v => if v.faults.contains cls then v else { v with faults := v.faults ++ [cls] }
  | none => s2

def fltSparse : Nat := 1
def fltDense : Nat := 2
def fltReplica : Nat := 3
def fltAudit : Nat := 4
def fltStrike : Nat := 5
def fltFence : Nat := 6
def fltUnresolved : Nat := 7
def fltSaplingLow : Nat := 8
def fltSramUe : Nat := 9
def fltTestFail : Nat := 10
def fltCfgDigest : Nat := 11
def fltWeightDigest : Nat := 12
def fltGrove : Nat := 13
def fltThermal : Nat := 14
def fltRowFormat : Nat := 16
def fltHbmData : Nat := 17
def fltHbmStack : Nat := 18
def fltLinkDown : Nat := 19
def fltRouter : Nat := 20
def fltFabricLoss : Nat := 21
def fltHandler : Nat := 24
def fltPhaseLost : Nat := 25
def fltStepStopped : Nat := 26
def fltPlsOverflow : Nat := 27

/-- Keys of a report about core `p` in the step open there. -/
def State.coreKeys (s : State) (p : Nat) (detail : List Nat) : SigKeys :=
  let g := p / 144
  { part := s.partOf g, step := (s.core p).openStep, core := some p,
    logical := if s.role p = roleActive then some (s.logicalOf p) else none, grove := some g, detail := detail }

/-- INT_MAP_GEN moves on by one for one map or role event (01_organisation.md R27). -/
def State.mapEvent (s : State) : State := s.countWrap Reg.INT_MAP_GEN 1

/-- ROLE and LOGICAL_ID of core `p` set. -/
def State.setRole (s : State) (p role logical : Nat) : State :=
  s.wr (Reg.INT_PHYS_STATE p) (BitVec.ofNat 32 (role * 2 ^ 28 + logical % 2 ^ 13))

/-- CORE_MAP entry of logical id `l` set to core `p`. -/
def State.setMap (s : State) (l p : Nat) : State := s.wr (Reg.INT_CORE_MAP l) (BitVec.ofNat 32 (2 ^ 31 + p % 2 ^ 14))

/-- CORE_MAP entry of logical id `l` left with VALID = 0 (R28). -/
def State.unmap (s : State) (l : Nat) : State := s.wr (Reg.INT_CORE_MAP l) 0

/-- INT_GRV_STATUS.SAPLINGS follows the roles, and FLT_SAPLING_LOW is reported once on each fall below 2
(10_integrity.md R367). -/
def State.saplingCount (s : State) (g : Nat) : Nat := ((coresOf g).filter fun p => s.role p == roleSapling).length

def State.noteSaplings (s : State) (g : Nat) : State :=
  let n := s.saplingCount g
  let s1 := s.wf' (Reg.INT_GRV_STATUS g) 16 8 n
  if n < 2 then
    if (s1.grove g).lowArmed.getD (decide (2 ≤ s.fuses.saplings g)) then
      (s1.updGrove g fun v => { v with lowArmed := some false }).report fltSaplingLow
        { part := s.partOf g, grove := some g, detail := [n] }
    else s1
  else s1.updGrove g fun v => { v with lowArmed := some true }

/-! ### Parity counters (05_fabric.md R176) -/

def State.inj (s : State) (g p n : Nat) : State := s.countWrap (Reg.FAB_PC_INJ g p) n
def State.ej (s : State) (g p n : Nat) : State := s.countWrap (Reg.FAB_PC_EJ g p) n
def State.xout (s : State) (g p n : Nat) : State := s.countWrap (Reg.FAB_PC_XOUT g p) n
def State.xin (s : State) (g p n : Nat) : State := s.countWrap (Reg.FAB_PC_XIN g p) n

/-- Key of an endpoint's XOUT for a partition and a parity. -/
def epKey (e k p : Nat) : Nat := 256 * e + 4 * k + p
def State.epX (s : State) (e k p : Nat) : Nat := Store.get (fun _ => 0) s.epXout (epKey e k p)
def State.setEpX (s : State) (e k p v : Nat) : State :=
  { s with epXout := Store.set (fun _ => 0) s.epXout (epKey e k p) (v % 2 ^ 32) }

/-! ### Check sums (10_integrity.md R343) -/

def sumDLoc : Nat := 0
def sumRLoc : Nat := 1
def sumDGrv : Nat := 2
def sumRGrv : Nat := 3
def Core.sum (c : Core) (par i : Nat) : Nat := Store.get (fun _ => 0) c.sums (4 * par + i)
def Core.setSum (c : Core) (par i v : Nat) : Core := { c with sums := Store.set (fun _ => 0) c.sums (4 * par + i) v }
def Core.addSum (c : Core) (par i : Nat) (d : Int) : Core := c.setSum par i (sumAdd (c.sum par i) d)

/-! ### Flags of the step's report (10_integrity.md R344, R347) -/

def flagDense : Nat := 0
def flagSram : Nat := 1
def flagRow : Nat := 2
def flagPair : Nat := 3

/-- Is bit `b` of FLAGS set? -/
def Core.flag (c : Core) (b : Nat) : Bool := c.flags / 2 ^ b % 2 == 1
/-- FLAGS bit `b` set for the step's report (R344). -/
def Core.setFlag (c : Core) (b : Nat) : Core := if c.flag b then c else { c with flags := c.flags + 2 ^ b }
def State.flag (s : State) (p b : Nat) : State := s.updCore p fun c => c.setFlag b

/-- The machine takes the next free word: nothing constrains it. -/
def State.freeWord (s : State) : Word × State := (Config.freeWord s.free, { s with free := s.free + 1 })

/-- A 64-bit word of local memory poisoned; what it then holds is free (R347). -/
def State.spoil (s : State) (p off : Nat) : State :=
  let (a, s2) := s.freeWord
  let (b, s3) := s2.freeWord
  let s4 := s3.setNum p off 8 (a.toNat + 2 ^ 32 * b.toNat)
  { s4 with poison := Store.set (fun _ => false) s4.poison (memKey p off) true }

/-- The word at `off` of local memory is read with error `err`: 1 a single-bit error, corrected and counted; 2 a double-bit error, which
poisons the word, counted and reported once (R346, R347). -/
def State.readError (s : State) (p off err : Nat) : State :=
  match err with
  | 0 => s
  | 1 => s.count (Reg.INT_SRAM_CE p) 1
  | _ => if s.poisoned p off 8 then s else ((s.spoil p off).count (Reg.INT_SRAM_UE p) 1).report fltSramUe (s.coreKeys p [off])

/-- Words of `n` bytes at `off` of local memory are read: what errors they have come to light (R346). -/
def State.meet (s : State) (p off n : Nat) : State :=
  let found := s.flaws.filter fun e => n != 0 && decide (memKey p off / 8 * 8 ≤ e.1) && decide (e.1 < memKey p off + n)
  found.foldl (fun t e => ({ t with flaws := Store.erase e.1 t.flaws }).readError p (e.1 - memKey p 0) e.2) s

/-- Step work of core `p` reads local memory: a poisoned read sets SRAM_UE for the step (R347). -/
def State.stepRead (s : State) (p off len : Nat) : State :=
  let t := s.meet p off len
  if t.poisoned p off len then t.flag p flagSram else t

/-- Step work of core `p` writes local memory. A write of less than a 64-bit word reads the word to merge into it
(13_memory_power.md R464). -/
def State.stepNum (s : State) (p off n v : Nat) : State :=
  (if n = 8 ∧ off % 8 = 0 then s else s.stepRead p off n).setNum p off n v

/-! ### A free value (Config) -/

/-- A change of the timebase's own state. -/
def State.updTb (s : State) (f : Tb → Tb) : State := { s with tb := f s.tb }

/-- The machine takes the next free number. -/
def State.freeNat (s : State) : Nat × State := (Config.freeNat s.free, { s with free := s.free + 1 })

/-! ### The delta log of learning (09_plasticity.md R315, R331) -/

/-- Records a bucket holds. -/
def bucketLen : Nat := 4096

/-- What the log of a grove holds, shown (R331). -/
def State.logShow (s : State) (g : Nat) : State :=
  let fills := (s.grove g).plsFill.map (·.2)
  let top := fills.foldl max 0
  let total := fills.foldl (· + ·) 0
  let high := decide (bucketLen - s.rf (Reg.PLS_LOG_CFG g) 16 12 < top)
  ((s.wf' (Reg.PLS_GRV_STATUS g) 0 13 top).wf' (Reg.PLS_GRV_STATUS g) 30 1 (b2n high)).wr (Reg.PLS_GRV_RECORDS g) (BitVec.ofNat 32 total)

/-! ### SYN_STATUS (04_synapses_dense.md R146) -/

/-- Requests of core `p` outstanding at its grove memory unit: on their way, queued, or being served. -/
def State.groveOut (s : State) (p : Nat) : Nat :=
  let v := s.grove (p / 144)
  (s.net.filter fun f => match f.body with | .rowReq r => r.home == p | _ => false).length +
    ((v.rowQ.flatMap (·.homes)) ++ v.rows.flatMap fun j => j.req.homes).count p

/-- QUEUE and GROVE_OUT of core `p` shown. -/
def State.synShow (s : State) (p : Nat) : State :=
  (s.wf' (Reg.SYN_STATUS p) 0 7 (s.core p).synQ.length).wf' (Reg.SYN_STATUS p) 16 8 (min 255 (s.groveOut p))

end Sys2Proof.Machine
end

