-- ==== Sys2Proof/Machine/DenseCfg.lean ====
section
/-! DEFINITION. A dense operation slot as its registers give it (04_synapses_dense.md R137, R138, R142, R151). -/
namespace Sys2Proof.Machine

/-- An operation slot, split out of its six registers (R151). -/
structure DnsOp where
  en : Bool
  trigger : Nat
  membrane : Bool
  inPar : Nat
  events : Bool
  cls : Nat
  stream : Bool
  shared : Bool
  m : Nat
  fslot : Nat
  inGrp : Nat
  n : Nat
  k : Nat
  inCh : Nat
  inOff : Nat
  w : Nat
  out : Nat
  chBase : Nat
  /-- WFMT of its format slot. -/
  wfmt : Nat
  deriving DecidableEq, Repr

def trgStep : Nat := 0
def trgDesc : Nat := 1
def trgHandler : Nat := 2

/-- Operation slot `o` of core `p`. -/
def State.opCfg (s : State) (p o : Nat) : DnsOp :=
  let c := s.rd (Reg.DNS_OP_CFG p o)
  let sh := s.rd (Reg.DNS_OP_SHAPE p o)
  let i := s.rd (Reg.DNS_OP_IN p o)
  let w := s.rd (Reg.DNS_OP_W p o)
  { en := tst c 31, trigger := fld c 29 2, membrane := tst c 28, inPar := fld c 26 2, events := tst c 25,
    cls := fld c 24 1, stream := tst c 23, shared := tst c 22, m := fld c 19 3 + 1, fslot := fld c 15 4,
    inGrp := fld c 0 4, n := fld sh 16 13, k := fld sh 0 15, inCh := fld i 18 9, inOff := fld i 0 18,
    w := w.toNat, out := s.rf (Reg.DNS_OP_OUT p o) 0 28, chBase := s.rf (Reg.DNS_OP_CH p o) 0 9,
    wfmt := (s.fmtSlot p (fld c 15 4)).wfmt }

/-- Columns of a weight tile (R137). -/
def DnsOp.nc (op : DnsOp) : Nat := match op.wfmt with | 0 => 32 | 1 => 16 | 2 => 16 | _ => 8
/-- Bytes of a weight tile (R137). -/
def DnsOp.tile (op : DnsOp) : Nat := match op.wfmt with | 3 => 28 | 7 => 36 | _ => 32
/-- Column blocks of the operation. -/
def DnsOp.blocks (op : DnsOp) : Nat := (op.n + op.nc - 1) / op.nc
/-- Bytes of the whole weight area (R137). -/
def DnsOp.weightBytes (op : DnsOp) : Nat := op.blocks * (op.k / 8) * op.tile
/-- Multiply cycles of one column block (R139). -/
def DnsOp.blockCycles (op : DnsOp) : Nat := op.k / 8 * op.m
/-- Cycles of the last rescales and of the drain, once for the column blocks that run back to back (R139). -/
def DnsOp.tailCycles (op : DnsOp) : Nat := (op.nc * op.m + 7) / 8 + 6
/-- Bytes of one ACT output half. -/
def DnsOp.outBytes (op : DnsOp) : Nat := op.m * op.n

/-- Address of weight tile (cb, kt) (R137). -/
def DnsOp.tileAt (op : DnsOp) (cb kt : Nat) : Nat :=
  (if op.stream then 32 * op.w else op.w % 2 ^ 18) + (cb * (op.k / 8) + kt) * op.tile

/-- Offset of the half of step `n` of an array of `size` bytes (R140): FIXED 0, CUR, PREV. -/
def halfOf (par n size : Nat) : Nat :=
  match par with | 1 => n % 2 * size | 2 => (n + 1) % 2 * size | _ => 0

end Sys2Proof.Machine
end

