-- ==== Sys2Proof/Machine/Egress.lean ====
section
/-! DEFINITION. Egress at the endpoints: the rings of an attachment (11_host_interface.md R388 to R391, R409 to
R411) and the frames of an event port (12_event_ports.md R425 to R428, R440 to R444). -/
namespace Sys2Proof.Machine

/-! ### Rings -/

/-- The three kinds of ring: command, completion, egress (R388). -/
inductive RingKind where
  | command | completion | egress
  deriving DecidableEq, Repr

/-- Key of the first register of a ring (R420). -/
def ringBase (a : Nat) (kind : RingKind) (r : Nat) : Nat :=
  match kind with
  | .command => attReg a (0x6010000 + 0x20 * r)
  | .completion => attReg a (0x6020000 + 0x20 * r)
  | .egress => attReg a (0x6040000 + 0x20 * r)

/-- Bytes of a ring's entry (R388). -/
def ringEntry : RingKind → Nat
  | .command => 64
  | .completion => 16
  | .egress => 8

/-- Entries of a ring: LOG2 below 6 acts as 6 and above 16 as 16 (R420). -/
def State.ringSize (s : State) (b : Nat) : Nat := 2 ^ (min 16 (max 6 (s.rf b 0 5)))
/-- RUNNING: the ring is enabled and not in ERROR. -/
def State.ringRuns (s : State) (b : Nat) : Bool := s.rf (b + 4) 30 2 == 1
def State.ringAddr (s : State) (b : Nat) : Nat := s.rd64 (b + 8)
def State.ringDev (s : State) (b : Nat) : Nat := (s.rd (b + 16)).toNat
def State.ringHost (s : State) (b : Nat) : Nat := (s.rd (b + 20)).toNat

def causeWindow : Nat := 1
def causeIndex : Nat := 2
def causeFetch : Nat := 3
def causeNonzeroStart : Nat := 4
def causeCpl : Nat := 5

/-- The number that FLT_RING_ERROR's detail gives a ring: kind and number (R418). -/
def ringKindNum : RingKind → Nat
  | .command => 0
  | .completion => 1
  | .egress => 2

def fltRingError : Nat := 35
def fltEgressLoss : Nat := 36

/-- A ring enters ERROR with a cause, reported once (R388). -/
def State.ringError (s : State) (a : Nat) (kind : RingKind) (r cause : Nat) : State :=
  let b := ringBase a kind r
  if s.rf (b + 4) 30 2 = 2 then s
  else
    let st := setFld (setFld (s.rd (b + 4)) 30 2 2) 26 4 cause
    (s.wr (b + 4) st).report fltRingError { detail := [a, ringKindNum kind, r, cause] }

/-! ### Host memory windows (R392) -/

/-- Window `w` of attachment `a`: base, size and rights (14_management_security.md R529). -/
def State.window (s : State) (a w : Nat) : Nat × Nat × Nat :=
  if s.bit (Reg.MGT_WIN_CFG a w) 31 then
    (s.rd64 (Reg.MGT_WIN_BASE_LO a w), s.rd64 (Reg.MGT_WIN_SIZE_LO a w), s.rf (Reg.MGT_WIN_CFG a w) 0 2)
  else (0, 0, 0)

def permRead : Nat := 0
def permWrite : Nat := 1

/-- Windows of attachment `a` with a right. -/
def State.windows (s : State) (a perm : Nat) : List (Nat × Nat) :=
  ((List.range 16).map fun w => s.window a w).filterMap fun x => if x.2.2 / 2 ^ perm % 2 = 1 then some (x.1, x.2.1) else none

/-- A range wholly within one window with a right (R388, R392; the right under R507). -/
def State.inWindow (s : State) (a perm addr len : Nat) : Bool :=
  (s.windows a perm).any fun w => decide (w.1 ≤ addr) && decide (addr + len ≤ w.1 + w.2)

/-- Every byte from `pos` to `stop` - 1 lies in some window. -/
def winCover (ws : List (Nat × Nat)) : Nat → Nat → Nat → Bool
  | 0, pos, stop => decide (stop ≤ pos)
  | fuel + 1, pos, stop =>
    if stop ≤ pos then true
    else match ws.find? fun w => decide (w.1 ≤ pos) && decide (pos < w.1 + w.2) with
      | none => false
      | some w => winCover ws fuel (w.1 + w.2) stop

/-- Every byte of a descriptor's host range lies in windows with the right (R392). -/
def State.hostOk (s : State) (a perm addr len : Nat) : Bool := winCover (s.windows a perm) 17 addr (addr + len)

/-- The device writes host memory for attachment `a`, within its windows alone (R392). -/
def State.toHost (s : State) (a addr : Nat) (bytes : List Byte) : State :=
  if s.hostOk a permWrite addr bytes.length then s.emitOut (.hostWrite a addr bytes) else s

/-- Byte of the shadow page that holds a ring's index (R389). -/
def shadowOff (kind : RingKind) (r : Nat) : Nat :=
  match kind with
  | .command => 4 * r
  | .completion => 256 + 4 * r
  | .egress => 512 + 4 * r

/-- The ring at key `b` of attachment `a` sends its vector: at most one message in a microsecond, so one that comes sooner is sent when
that is over (R391). -/
def State.ringIrq (s : State) (a b : Nat) : State :=
  let last := Store.get (fun _ => 0) (s.att a).irqAt b
  if last = 0 ∨ last + 999 ≤ s.ref then
    (s.emitOut (.msix a (s.rf b 16 6))).updAtt a fun v => { v with
      irqAt := Store.set (fun _ => 0) v.irqAt b (s.ref + 1), irqOwed := Store.erase b v.irqOwed }
  else s.updAtt a fun v => { v with irqOwed := Store.set (fun _ => false) v.irqOwed b true }

/-- The device writes a ring's index into the shadow page, and sends the ring's vector where IRQ_EN = 1 (R391). -/
def State.shadow (s : State) (a : Nat) (kind : RingKind) (r : Nat) : State :=
  let b := ringBase a kind r
  let s1 := s.toHost a (s.rd64 (Reg.HIF_SHADOW_BASE_LO a) + shadowOff kind r) (toBytes 4 (s.ringDev b))
  if kind ≠ .command ∧ s.bit b 30 = true then s1.ringIrq a b else s1

/-- Units written into an egress ring at its tail, which moves on (R411). -/
def State.putUnits (s : State) (a r : Nat) (units : List Nat) : State :=
  let b := ringBase a .egress r
  let size := s.ringSize b
  let w := s.ringDev b
  let bytes := units.flatMap (toBytes 8)
  (s.toHost a (s.ringAddr b + w % size * 8) bytes).wr (b + 16) (BitVec.ofNat 32 (w + units.length))

/-- The PAD unit (R409). -/
def padUnit (n : Nat) : Nat := 4 * 2 ^ 61 + n
/-- The LOSS unit (R409). -/
def lossUnit (n : Nat) (full : Bool) : Nat := 2 * 2 ^ 61 + b2n full * 2 ^ 32 + min n 0xFFFFFFFF

/-- Units from the tail of egress ring `r` to the ring's end. -/
def State.ringRoom (s : State) (a r : Nat) : Nat :=
  let b := ringBase a .egress r
  s.ringSize b - s.ringDev b % s.ringSize b

/-- Is there room for `len` units, with the padding to the ring's end where they do not fit before it (R411 `put`)? -/
def State.ringFits (s : State) (a r len : Nat) : Bool :=
  let b := ringBase a .egress r
  let need := if s.ringRoom a r < len then s.ringRoom a r + len else len
  let used := (s.ringDev b + 2 ^ 32 - s.ringHost b) % 2 ^ 32
  decide (need ≤ s.ringSize b - used)

/-- The ring padded to its end where `len` units do not fit before it (R411 `put`). -/
def State.padRing (s : State) (a r len : Nat) : State :=
  if s.ringRoom a r < len then
    let b := ringBase a .egress r
    let w := s.ringDev b
    (s.toHost a (s.ringAddr b + w % s.ringSize b * 8) (toBytes 8 (padUnit (s.ringRoom a r)))).wr (b + 16)
      (BitVec.ofNat 32 (w + s.ringRoom a r))
  else s

/-- Units that fit written into ring `r`. -/
def State.putFit (s : State) (a r : Nat) (units : List Nat) : State :=
  (s.padRing a r units.length).putUnits a r units

/-- One more record of ring `r` dropped, counted, and FLT_EGRESS_LOSS reported once for the interruption. -/
def State.ringDrop (s : State) (a r : Nat) (full : Bool) : State :=
  let v := s.att a
  let n := Store.get (fun _ => 0) v.lost r + 1
  let s1 := s.setAtt a { v with
    lost := Store.set (fun _ => 0) v.lost r n,
    lostFull := if full then Store.set (fun _ => false) v.lostFull r true else v.lostFull,
    lossTold := Store.set (fun _ => false) v.lossTold r true }
  let s2 := s1.count (ringBase a .egress r + 24) 1
  if Store.get (fun _ => false) v.lossTold r then s2 else s2.report fltEgressLoss { detail := [a, r, b2n (Store.get (fun _ => false) (s2.att a).lostFull r)] }

/-- Does ring `r` owe a LOSS record? -/
def State.lossOwed (s : State) (a r : Nat) : Bool := Store.get (fun _ => 0) (s.att a).lost r != 0

/-- The LOSS record that ring `r` owes written (R411 `emit`). -/
def State.payLoss (s : State) (a r : Nat) : State :=
  if s.lossOwed a r then
    let v := s.att a
    (s.putFit a r [lossUnit (Store.get (fun _ => 0) v.lost r) (Store.get (fun _ => false) v.lostFull r)]).updAtt a
      fun v => { v with
        lost := Store.set (fun _ => 0) v.lost r 0, lostFull := Store.set (fun _ => false) v.lostFull r false,
        lossTold := Store.set (fun _ => false) v.lossTold r false }
  else s

/-- The units of a record written where ring `r` has room for them, else the record dropped. The answer says which. -/
def State.putRecord (s : State) (a r : Nat) (units : List Nat) : State × Bool :=
  if s.ringFits a r units.length then (s.putFit a r units, true) else (s.ringDrop a r false, false)

/-- One record written into an egress ring, a LOSS record first where one is owed (R411 `emit`). The second answer
says whether the record was written. -/
def State.ringEmit (s : State) (a r : Nat) (units : List Nat) : State × Bool :=
  if s.lossOwed a r && !(s.ringFits a r 1) then (s.ringDrop a r false, false) else (s.payLoss a r).putRecord a r units

/-- A record written at once, and the ring's index after whatever was written: the record, a LOSS record or padding (R391). -/
def State.ringSend (s : State) (a r : Nat) (units : List Nat) : State × Bool :=
  let (t, ok) := s.ringEmit a r units
  (if t.ringDev (ringBase a .egress r) = s.ringDev (ringBase a .egress r) then t else t.shadow a .egress r, ok)

/-- The EVENT unit of a record (R409). -/
def eventUnit (h : HeldRec) (early retract : Bool) : Nat :=
  h.key % 2 ^ 28 + h.value % 256 * 2 ^ 28 + h.lane % 8 * 2 ^ 36 + b2n h.tc0 * 2 ^ 39 + b2n early * 2 ^ 40
    + b2n retract * 2 ^ 41 + b2n h.spilled * 2 ^ 42 + h.step % 65536 * 2 ^ 45

/-- The COMMIT record of a step (R409). -/
def commitUnits (step part records ptb : Nat) : List Nat :=
  [1 * 2 ^ 61 + min records 262143 * 2 ^ 38 + part % 64 * 2 ^ 32 + step % 2 ^ 32, ptb % 2 ^ 64]

/-- The VECTOR record of an operation's output (R409). -/
def vectorUnits (step path : Nat) (bytes : List Byte) : List Nat :=
  let n := bytes.length
  let k := (n + 7) / 8
  (3 * 2 ^ 61 + n % 65536 * 2 ^ 40 + path % 256 * 2 ^ 32 + step % 2 ^ 32)
    :: (List.range k).map fun i => ofBytes ((bytes.drop (8 * i)).take 8)

/-- Units a release buffer of an attachment holds (R410). -/
def relUnits : Nat := 65536

/-! ### Frames -/

/-- The `n` low bytes of `x`, most significant first (network order). -/
def beBytes (n x : Nat) : List Byte := (toBytes n x).reverse
/-- Bytes read most significant first. -/
def ofBe (bs : List Byte) : Nat := ofBytes bs.reverse

/-- A Lylet UDP payload: header, event bytes, trailer (12_event_ports.md R426, R428). -/
def lylet (kind : Nat) (flags count ctx seq stamp step run : Nat) (events : List Byte) : List Byte :=
  let body := [BitVec.ofNat 8 (16 + kind), BitVec.ofNat 8 flags] ++ beBytes 2 count ++ beBytes 4 ctx ++ beBytes 4 seq
    ++ beBytes 8 stamp ++ beBytes 4 step ++ beBytes 4 run ++ events
  body ++ toBytes 4 (crcFold c32c (seq % 2 ^ 32 * 2 ^ 32 + ctx) body)

/-- Key of word `w` of egress path `i` of port `e` (R457). -/
def evpPath (e i w : Nat) : Nat := 0x7000000 + 0x100000 * e + 0x10000 + 0x10 * i + 4 * w
/-- Key of word `w` of destination `d` of port `e` (R458). -/
def evpDest (e d w : Nat) : Nat := 0x7000000 + 0x100000 * e + 0x20000 + 0x20 * d + 4 * w

/-- The extended form of an egress event: OFFSET counts from the KEY_BASE of its path (R427, R440). -/
def State.extEvent (s : State) (e : Nat) (h : HeldRec) : List Byte :=
  let base := s.rf (evpPath e h.path 1) 0 28
  beBytes 8 ((h.key - base) % 2 ^ 24 * 2 ^ 40 + h.value % 256 * 2 ^ 32 + h.lane % 8 * 2 ^ 29 + b2n h.spilled * 2 ^ 28)

/-- Flags of an egress frame: EXT and RUNCHK set, the class and the early marks as given (R426). -/
def frameFlags (tc0 early retract runchk : Bool) : Nat :=
  1 + b2n tc0 * 2 + b2n early * 4 + b2n retract * 8 + b2n runchk * 16

/-- A frame of context `c` formed: SEQ and the stream check move on in the context (R430, R441). -/
def State.formFrame (s : State) (e c kind step stamp : Nat) (early retract : Bool) (recs : List HeldRec) : TxFrame × State :=
  let w := s.context c
  let seq := cfld w 3 0 32
  let evs := recs.flatMap (s.extEvent e)
  let run := cvuFeed c32c (cfld w 4 0 32) evs
  let tc0 := cfld w 0 26 1 == 1
  let runchk := kind == 0
  let bytes := lylet kind (frameFlags tc0 early retract runchk) recs.length c seq stamp step
    (if runchk then cvuValue c32c run else 0) evs
  let s1 := s.setContext c (csetFld (csetFld w 3 0 32 (seq + 1)) 4 0 32 run)
  (⟨c, cfld w 0 0 6, tc0, early, retract, recs.length, false, bytes⟩, s1)

/-- STAMP of an egress frame of a step: the PTB at its open less PHASE_OFFSET (R441). -/
def State.frameStamp (s : State) (c k : Nat) : Nat :=
  let off := cfld (s.context c) 5 0 64
  (s.rd64 (Reg.STEP_OPEN_PTB_LO k) + 2 ^ 64 - off) % 2 ^ 64

/-- A frame queued for the transmitter, or for its context's pacer (R444). Early and retract frames never wait for a
pacer. -/
def State.queueFrame (s : State) (e : Nat) (f : TxFrame) : State :=
  let w := s.context f.ctx
  if cfld w 2 27 1 = 1 ∧ f.early = false then
    let j := cfld w 2 20 6
    let s1 := s.updPort e fun v => { v with
      pacerQ := Store.set (fun _ => []) v.pacerQ j (Store.get (fun _ => []) v.pacerQ j ++ [f]) }
    s1.wf' (Reg.EVP_PACER_STATUS e j) 0 16 ((Store.get (fun _ => []) (s1.port e).pacerQ j).length)
  else if f.tc0 then s.updPort e fun v => { v with tx0 := v.tx0 ++ [f] }
  else s.updPort e fun v => { v with tx1 := v.tx1 ++ [f] }

/-- A frame formed and queued, a LOSS frame first where one is owed (R443). -/
def State.sendFrame (s : State) (e c kind step stamp : Nat) (early retract : Bool) (recs : List HeldRec) : State :=
  let lost := Store.get (fun _ => 0) (s.port e).lossOwed c
  let s1 :=
    if lost = 0 then s
    else
      let (f, t) := s.formFrame e c 2 step lost early false []
      (t.queueFrame e f).updPort e fun v => { v with
        lossOwed := Store.set (fun _ => 0) v.lossOwed c 0, lossTold := Store.set (fun _ => false) v.lossTold c false }
  let (f, t) := s1.formFrame e c kind step stamp early retract recs
  t.queueFrame e f

/-- A list cut into pieces of at most `n`, at most `fuel` of them. -/
def chunks {α : Type} (n : Nat) : Nat → List α → List (List α)
  | 0, _ => []
  | _, [] => []
  | fuel + 1, a :: as => (a :: as).take (max n 1) :: chunks n fuel ((a :: as).drop (max n 1))

/-- MAX_EVENTS of the destination of a context (R458). -/
def State.maxEvents (s : State) (e c : Nat) : Nat := max 1 (s.rf (evpDest e (cfld (s.context c) 2 0 12) 7) 0 11)

/-- Early records of context `c` that wait together for the transmitter form one frame (R442). -/
def State.flushEarly (s : State) (e c : Nat) : State :=
  match Store.get (fun _ => []) (s.port e).earlyWait c with
  | [] => s
  | h :: hs =>
    (s.updPort e fun v => { v with earlyWait := Store.erase c v.earlyWait }).sendFrame e c 0 h.step
      (s.frameStamp c h.part) true false (h :: hs)

/-- Every early record that waits at a port formed into frames. -/
def State.flushAllEarly (s : State) (e : Nat) : State :=
  ((s.port e).earlyWait.map (·.1)).foldl (fun t c => t.flushEarly e c) s

end Sys2Proof.Machine
end

