-- ==== Sys2Proof/Machine/Stop.lean ====
section
/-! DEFINITION. Stopping a partition without committing its open step (08_step_commit.md R289), with what each
chapter adds to a stop: queues and waiters (R222), channels (R260), the plasticity log (R326), egress (R291, R448). -/
namespace Sys2Proof.Machine

/-! ### Compare channels by number: 0 to 1,023 global, 1,024 + 4 p + c for channel c of core p -/

/-- Key of the first register of a channel (07_timebase.md R267). -/
def chKey (ch : Nat) : Nat :=
  if ch < 1024 then 0x4010000 + 0x40 * ch else coreReg ((ch - 1024) / 4) (0x900 + 0x40 * ((ch - 1024) % 4))

/-- The number of channel `c` of core `p`. -/
def coreCh (p c : Nat) : Nat := 1024 + 4 * p + c

/-- The partition of a channel: by TB_GCH_OWNER for a global one, by the grove for a core's (R266). -/
def State.chPart (s : State) (ch : Nat) : Option Nat :=
  if ch < 1024 then
    if s.bit (Reg.TB_GCH_OWNER ch) 31 then some (s.rf (Reg.TB_GCH_OWNER ch) 0 6) else none
  else s.partOf ((ch - 1024) / 4 / 144)

/-- A channel put into IDLE (R252, R260). -/
def State.disarm (s : State) (ch : Nat) : State := s.wf' (chKey ch + 4) 30 2 0

/-- Global channels partition `k` owns. -/
def State.globalsOf (s : State) (k : Nat) : List Nat := (List.range 1024).filter fun c => s.chPart c == some k

/-- FROZEN shown for every global channel of a halted partition with FREEZE = 1 (07_timebase.md R258, R267). -/
def State.showHalt (s : State) (k : Nat) : State :=
  let h := (s.part k).halted
  (s.globalsOf k).foldl (fun t c => t.wf' (chKey c + 4) 29 1 (b2n (h && s.bit (chKey c) 26))) s

/-- A halt that was asked for takes effect at a step boundary (14_management_security.md R522). -/
def State.haltNow (s : State) (k : Nat) : State :=
  if (s.part k).haltAsked then (s.updPart k fun q => { q with halted := true, haltAsked := false }).showHalt k else s

/-- Every channel of partition `k` disarmed (R260). -/
def State.disarmPart (s : State) (k : Nat) : State :=
  let s1 := (s.globalsOf k).foldl State.disarm s
  (s.coresOfPart k).foldl (fun t p => (List.range 4).foldl (fun t c => t.disarm (coreCh p c)) t) s1

/-! ### Handlers and queues -/

/-- The handler engine of core `p` set to a state of R226. -/
def State.hdlState (s : State) (p st : Nat) : State := s.wf' (Reg.HDL_STATUS p) 29 3 st

def hsIdle : Nat := 0
def hsRunning : Nat := 1
def hsWaitResponse : Nat := 2
def hsWaitQueue : Nat := 3
def hsRetryGap : Nat := 4
def hsHalted : Nat := 5

/-- The engine of core `p` without a handler: IDLE while its partition is enabled and EN = 1, else HALTED (R226). -/
def State.restState (s : State) (p : Nat) : Nat :=
  if s.bit (Reg.HDL_CTRL p) 0 && s.groveEnabled (p / 144) then hsIdle else hsHalted

/-- The running handler of a core ends without a fault record and its queues are emptied (R222, R226, R229). -/
def State.emptyQueues (s : State) (p : Nat) : State :=
  let s1 := s.updCore p fun c => { c with queues := [], responses := [], hregs := [], wait := .none, outer := none }
  let s2 := (List.range 8).foldl (fun t q => (t.wf' (Reg.HDL_Q_STATUS p q) 0 6 0).wf' (Reg.HDL_Q_STATUS p q) 8 6 0) s1
  (s2.hdlState p (s2.restState p)).wf' (Reg.HDL_STATUS p) 28 1 0

/-- The step of a core abandoned: nothing of it is used again, and the live copies stay (03_neurons.md R87). -/
def Core.abandon (c : Core) : Core :=
  { c with openComing := none, openStep := none, spanEnded := false, declared := false, neuTodo := [], neuTake := [], neuBad := NeuFault.none, integ := [],
           blocks := 0, deferred := [], mons := [], counts := ⟨0, 0, 0, 0, 0, 0⟩, ents := [], injQ := [],
           cut := false, flags := 0, synQ := [], dns := none, dnsSteps := [], dnsQ := [], dnsEvents := [] }

/-- No step is in progress at the core: NEU_STATUS shows no sweep, and an engine that was integrating is idle
(03_neurons.md R105). -/
def State.idleNeurons (s : State) (p : Nat) : State :=
  let s1 := s.wf' (Reg.NEU_STATUS p) 8 1 0
  if s1.rf (Reg.NEU_STATUS p) 0 2 = 1 then s1.wf' (Reg.NEU_STATUS p) 0 2 0 else s1

/-- The work of a core ends: its step is abandoned, its handler and queues are empty, and its engines show that they are idle
(R222, R289, 04_synapses_dense.md R146, R149, 08_step_commit.md R298). -/
def State.quiet (s : State) (p : Nat) : State :=
  let s1 := ((s.updCore p Core.abandon).idleNeurons p).emptyQueues p
  ((s1.wr (Reg.SYN_STATUS p) 0).wr (Reg.DNS_STATUS p) 0).wf' (Reg.CORE_EMIT_STATUS p) 31 1 0

/-! ### Egress of a partition that stops -/

/-- The retract record of an early record, written at once (R291). Where its ring runs no longer it counts in HIF_EGRESS_MISS
(11_host_interface.md R385, R388). -/
def State.retractEarly (s : State) (a : Nat) (h : HeldRec) : State :=
  (if s.ringRuns (ringBase a .egress h.ring) then (s.ringSend a h.ring [eventUnit h true true]).1
   else s.count (Reg.HIF_EGRESS_MISS a) 1).count (Reg.STEP_EARLY_RETRACT h.part) 1

/-- The retract frame of an early record of a port, after the early records of its context (R442). -/
def State.retractEarlyPort (s : State) (e : Nat) (h : HeldRec) : State :=
  (((s.flushEarly e h.ring).sendFrame e h.ring 0 h.step (s.frameStamp h.ring h.part) true true [h]).count
    (Reg.STEP_EARLY_RETRACT h.part) 1)

/-- Held records discarded and early ones retracted at every attachment and port (R289, R291, R448). Held ingress of the
partition counts among a port's held records (DEDUCED from R448). -/
def State.stopEgress (s : State) (k : Nat) : State :=
  let s1 := (List.range 8).foldl (fun t a =>
    let mine := ((t.att a).early.filter fun h => h.part == k)
    let t1 := t.updAtt a fun v => { v with held := v.held.filter (·.part != k), early := v.early.filter (·.part != k) }
    mine.foldl (fun t h => t.retractEarly a h) t1) s
  (List.range 2).foldl (fun t e =>
    let mine := ((t.port e).early.filter fun h => h.part == k)
    let paced := (t.port e).pacerQ.map (·.1)
    let t0 := t.updPort e fun v => { v with
      held := v.held.filter (·.part != k), early := v.early.filter (·.part != k),
      holdBuf := v.holdBuf.filter fun h => cfld (s.context h.ctx) 0 0 6 != k,
      tx0 := v.tx0.filter fun f => f.part != k || f.early,
      tx1 := v.tx1.filter fun f => f.part != k || f.early,
      pacerQ := v.pacerQ.filterMap fun q =>
        let l := q.2.filter (·.part != k)
        if l.isEmpty then none else some (q.1, l) }
    let t1 := paced.foldl (fun u j => u.wf' (Reg.EVP_PACER_STATUS e j) 0 16 (Store.get (fun _ => []) (u.port e).pacerQ j).length) t0
    mine.foldl (fun t h => t.retractEarlyPort e h) t1) s1

/-! ### Groves of a partition that stops -/

/-- A core that runs a replay becomes SAPLING again (R22); a fenced one stays as it is. -/
def State.endSapling (s : State) (q : Nat) : State :=
  if s.role q = roleReplay then
    ((((s.setRole q roleSapling 0).mapEvent).updCore q fun c => { c with log := [], openStep := none }).wf' (Reg.CORE_EMIT_STATUS q) 0 13 0)
  else s

/-- A replay or repair of a grove ends: its saplings return to SAPLING (R22). -/
def State.endReplay (s : State) (g : Nat) : State :=
  let s0 := (s.updGrove g fun v => { v with replay := none, repair := [] }).wf' (Reg.INT_GRV_STATUS g) 30 1 0
  match (s.grove g).replay with
  | none => s0
  | some r =>
    let s1 := s0.endSapling r.sapling
    (match r.y1 with | some y => s1.endSapling y.core | none => s1).noteSaplings g

/-- What a stop leaves of a grove's units: waiters freed (R222), requests and reports dropped, the unapplied log
discarded (R326). -/
def State.stopGrove (s : State) (g : Nat) : State :=
  let s1 := s.endReplay g
  let s2 := s1.updGrove g fun v => { v with
    rows := [], rowQ := [], waiters := [], notices := [], reports := [], asked := none, passed := false, held := false,
    hbmOut := [], heldCount := false, plsLen := 0, plsLost := false, plsFill := if v.plsPass then v.plsFill else [] }
  let s3 := (s2.wf' (Reg.STEP_GROVE_STATUS g) 30 2 0).wf' (Reg.INT_GRV_STATUS g) 31 1 0
  (((s3.wf' (Reg.FAB_SYNC_STATUS g) 0 13 0).wf' (Reg.MEM_RQ_STATUS g) 0 11 0).wf' (Reg.MEM_PF_STATUS g) 0 9 0).logShow g

/-- STEP_STATE.STATE values (R300). -/
def ssDisabled : Nat := 0
def ssWaiting : Nat := 1
def ssOpen : Nat := 2
def ssChecking : Nat := 3
def ssHeld : Nat := 4
def ssRound : Nat := 5
def ssStopped : Nat := 6
/-- STEP_STATE.CAUSE values (R300). -/
def scHalt : Nat := 1
def scStretch : Nat := 2
def scGrove : Nat := 3
def scLoss : Nat := 4
def scStack : Nat := 5
def scIntegrity : Nat := 6
def scDisabled : Nat := 7

def State.stepState (s : State) (k st : Nat) : State := s.wf' (Reg.STEP_STATE k) 28 4 st

/-- Step traffic of a partition taken out of the fabric. -/
def dropStepTraffic (k : Nat) (net : List Flight) : List Flight :=
  net.filter fun f => f.part != k || f.step == none

/-- A DENSE_RUN of a core whose partition stops ends with ST_STOPPED (11_host_interface.md R401, R404; DEDUCED): its
operation is gone with the core's step work. -/
def State.stopDense (s : State) (cores : List Nat) : State :=
  let f (d : DescRun) : DescRun :=
    if d.started ∧ d.status = none ∧ d.bytes.head? = some 0x0E ∧ cores.contains d.core then { d with status := some (21, 0) } else d
  (List.range 8).foldl (fun t a =>
    if (t.att a).descs.isEmpty then t else t.updAtt a fun v => { v with descs := v.descs.map f }) s

/-- What a stop does to everything a partition owns (R289): cores, egress, channels, queues, groves, step traffic. -/
def State.stopEffects (s : State) (k : Nat) : State :=
  let cores := s.coresOfPart k
  let s1 := (cores.foldl State.quiet s).stopDense cores
  let s2 := s1.stopEgress k
  let s3 := s2.disarmPart k
  let s4 := (s3.grovesOf k).foldl State.stopGrove s3
  let s5 := { s4 with net := dropStepTraffic k s4.net }
  let s6 := s5.updPart k fun v => { v with
    openStep := none, fires := 0, overrun := false, merged := 0, closed := false, delivered := false, cut := false,
    roundAsked := false, spillOut := false, endAsked := false, stopAsked := none }
  ((s6.wf' (Reg.STEP_STATE k) 23 1 0).wf' (Reg.PLS_PART_STATUS k) 30 2 0).haltNow k

/-- The stop itself (R289): its effects, STOPPED with the cause, and the report. -/
def State.stopNow (s : State) (k cause : Nat) : State :=
  let n := (s.part k).openStep
  let s1 := s.stopEffects k
  let s2 := s1.wr (Reg.STEP_STATE k) (setFld (setFld (s1.rd (Reg.STEP_STATE k)) 28 4 ssStopped) 24 4 cause)
  (s2.wf' (Reg.HIF_PART_STATUS k) 29 3 psStopped).report fltStepStopped
    { part := some k, step := n, detail := [cause] }

/-- A partition becomes DISABLED (11_host_interface.md R416): its pinned lines and DENSE streams are given up with it. -/
def State.setDisabled (s : State) (k : Nat) : State :=
  let s0 := (s.stepState k ssDisabled).wf' (Reg.HIF_PART_STATUS k) 29 3 psDisabled
  let s1 := (s0.coresOfPart k).foldl (fun t p => t.hdlState p hsHalted) s0
  (s1.grovesOf k).foldl (fun t g => (t.wf' (Reg.MEM_GC_STATUS g) 0 15 0).wf' (Reg.MEM_PF_STATUS g) 16 9 0) s1

/-- A learning pass runs in a grove of partition `k`. -/
def State.passing (s : State) (k : Nat) : Bool := (s.grovesOf k).any fun g => (s.grove g).plsPass

/-- A partition that has stopped becomes DISABLED once no pass is left to finish (09_plasticity.md R326). Until then it reads
STOPPED (DESIGN CHOICE where no step was open: 11_host_interface.md R416 names no state for the wait). -/
def State.endDisable (s : State) (k : Nat) : State :=
  if s.passing k then
    ((s.stepState k ssStopped).wf' (Reg.HIF_PART_STATUS k) 29 3 psStopped).updPart k fun v => { v with stopAsked := some (scDisabled, true) }
  else s.setDisabled k

/-- A partition is disabled: it stops, with cause DISABLED when a step is open (11_host_interface.md R416). -/
def State.disableNow (s : State) (k : Nat) : State :=
  (if (s.part k).openStep.isSome then s.stopNow k scDisabled else s.stopEffects k).endDisable k

/-- A partition stops with a cause of R300. A stop that arrives during an apply waits for the apply to complete
(09_plasticity.md R326). -/
def State.stopPart (s : State) (k cause : Nat) : State :=
  if s.pstate k ≠ psRunning then s
  else if (s.part k).applying ≠ 0 then
    s.updPart k fun v => { v with stopAsked := some (cause, match v.stopAsked with | some q => q.2 | none => false) }
  else s.stopNow k cause

/-- Every partition that `p` selects stops with a cause. -/
def State.stopWhere (s : State) (p : Nat → Bool) (cause : Nat) : State :=
  ((List.range 64).filter p).foldl (fun t k => t.stopPart k cause) s

/-- `n` link flits of step traffic of a partition were abandoned in the fabric: FAB_LOSS counts them, FLT_FABRIC_LOSS is reported with the
parity, and the partition stops (05_fabric.md R182, R289). -/
def State.fabricLoss (s : State) (k parity n : Nat) : State :=
  let s1 := s.count (Reg.FAB_LOSS k) n
  (s1.report fltFabricLoss { part := some k, step := (s.part k).openStep, detail := [parity] }).stopPart k scLoss

/-- Every core of grove `g` stops at once, also where its partition stops only after an apply (01_organisation.md R19,
R45). -/
def State.stopCores (s : State) (g : Nat) : State :=
  (s.activeCores g).foldl State.quiet (s.updGrove g fun v => { v with stopped := true })

end Sys2Proof.Machine
end

