-- ==== Sys2Proof/Machine/Routing.lean ====
section
/-! DEFINITION. The fabric's tables, routes and counting (05_fabric.md): source tables, canopies, dimension order,
detours, ejection, discarding. A packet stands in the state at the router, stop or endpoint it has reached. -/
namespace Sys2Proof.Machine

/-! ### Tables -/

/-- Live canopy entry `c` of grove `g`: the 128-byte image as a number (R171). -/
def State.canopy (s : State) (g c : Nat) : Nat := Store.get (fun _ => 0) s.canLive (4096 * g + c)
/-- Staged canopy entry. -/
def State.canopyStaged (s : State) (g c : Nat) : Nat := Store.get (fun _ => 0) s.canStaged (4096 * g + c)
def canGroves (img : Nat) : Nat := nfld img 0 64
def canRemote (img : Nat) : Nat := nfld img 64 12
def canEjects (img : Nat) : Nat := nfld img 76 8
def canReserved (img : Nat) : Bool := nfld img 84 10 != 0 || nfld img 96 32 != 0 || nfld img 992 32 != 0
def canRooted (img : Nat) : Bool := nfld img 94 1 == 1
def canValid (img : Nat) : Bool := nfld img 95 1 == 1
/-- MASK[k]: N, E, S, W, AUX, EJECT from bit 0 up. -/
def canMask (img k : Nat) : Nat := nfld img (128 + 6 * k) 6
/-- Cores of the grove that eject a copy (EJECTS as the device counts it). -/
def canCount (img : Nat) : Nat := ((List.range 144).filter fun k => canMask img k / 32 == 1).length
/-- EJECTS set in an image. -/
def canSetEjects (img n : Nat) : Nat := img / 2 ^ 84 * 2 ^ 84 + n % 256 * 2 ^ 76 + img % 2 ^ 76

/-- Fields of a source-table entry, both words as one number (R169). -/
def srcEn (e : Nat) : Bool := nfld e 31 1 == 1
def srcBase (e : Nat) : Nat := nfld e 0 28
def srcCount (e : Nat) : Nat := nfld e 48 13
def srcCanopy (e : Nat) : Nat := nfld e 32 12
def srcReserved (e : Nat) : Bool := nfld e 28 3 != 0 || nfld e 61 3 != 0 || nfld e 44 4 != 0
/-- Live source-table entries of core `p`, with their keys in the store. -/
def State.srcOf (s : State) (p : Nat) : List (Nat × Nat) := s.srcLive.filter fun e => e.1 / 1024 == p
/-- The entry whose range holds a key (R170). -/
def State.srcMatch (s : State) (p key : Nat) : Option (Nat × Nat) :=
  (s.srcOf p).find? fun e => srcEn e.2 && decide (srcBase e.2 ≤ key) && decide (key < srcBase e.2 + srcCount e.2)

/-! ### The shape of a canopy -/

/-- Index reached from core index `i` by mesh port `port` without leaving the grove. -/
def stepIn (i port : Nat) : Option Nat :=
  match port with
  | 0 => if i < 12 then none else some (i - 12)
  | 1 => if i % 12 = 11 then none else some (i + 1)
  | 2 => if 132 ≤ i then none else some (i + 12)
  | 3 => if i % 12 = 0 then none else some (i - 1)
  | _ => none

/-- The routers that following the masks reaches, with repetition; none where a mask leaves the grove, or turns from a
column to a row (R173). The frontier pairs a router with whether it was entered from N or S. -/
def canWalk (img : Nat) : Nat → List (Nat × Bool) → List Nat → Option (List Nat)
  | 0, [], seen => some seen
  | 0, _ :: _, _ => none
  | _ + 1, [], seen => some seen
  | fuel + 1, (i, col) :: rest, seen =>
    let m := canMask img i
    if col && (m / 2 % 2 == 1 || m / 8 % 2 == 1) then none
    else
      let outs := (List.range 4).filter fun port => m / 2 ^ port % 2 == 1
      if outs.all fun port => (stepIn i port).isSome then
        canWalk img fuel (rest ++ outs.filterMap fun port => (stepIn i port).map fun j => (j, port == 0 || port == 2)) (i :: seen)
      else none

/-- Shape of a canopy from its root: every router with a non-zero mask is reached exactly once (R173). -/
def canShape (img root : Nat) : Bool :=
  match canWalk img 160 [(root, false)] [] with
  | none => false
  | some seen =>
    (List.range 144).all fun i => (seen.filter (· == i)).length == (if canMask img i = 0 ∧ i ≠ root then 0 else 1)

/-! ### The grid -/

def coreX (p : Nat) : Nat := p % 144 % 12
def coreY (p : Nat) : Nat := p % 144 / 12
/-- Mesh port toward core index `d` of the same grove: first along the row, then along the column (R158). -/
def hopPort (k d : Nat) : Nat :=
  if coreX k < coreX d then 1 else if coreX d < coreX k then 3 else if coreY k < coreY d then 2 else 0

/-- Grid column and row of a core (01_organisation.md R18). -/
def gridX (p : Nat) : Nat := 12 * (p / 144 % 8) + coreX p
def gridY (p : Nat) : Nat := 12 * (p / 144 / 8) + coreY p
/-- The core at a grid place. -/
def coreAt (x y : Nat) : Nat := 144 * (y / 12 * 8 + x / 12) + 12 * (y % 12) + x % 12
/-- The router at the other end of mesh port `port` of router `k`, where the grid has one (R154). -/
def neighbour (k port : Nat) : Option Nat :=
  let x := gridX k
  let y := gridY k
  match port with
  | 0 => if y = 0 then none else some (coreAt x (y - 1))
  | 1 => if x = 95 then none else some (coreAt (x + 1) y)
  | 2 => if y = 95 then none else some (coreAt x (y + 1))
  | 3 => if x = 0 then none else some (coreAt (x - 1) y)
  | _ => none
/-- The port at the other end of a mesh link. -/
def opposite (port : Nat) : Nat := match port with | 0 => 2 | 1 => 3 | 2 => 0 | 3 => 1 | n => n

/-- FAB_RTR_STATUS.STATE (R190). -/
def State.rtrState (s : State) (k : Nat) : Nat := s.rf (Reg.FAB_RTR_STATUS k) 0 3
def rsUp : Nat := 0
def rsExcluded : Nat := 1
def rsFaulty : Nat := 2
def rsResetting : Nat := 3
def rsOff : Nat := 4
/-- A router no route may cross: EXCLUDED, FAULTY, or on its way back to EXCLUDED. -/
def State.rtrBad (s : State) (k : Nat) : Bool := s.rtrState k != rsUp
/-- Port `port` of router `k` is DOWN. -/
def State.portDown (s : State) (k port : Nat) : Bool := s.bit (Reg.FAB_RTR_STATUS k) (16 + port)
/-- Stop port `q` of grove `g` is DOWN (R193). -/
def State.stopDown (s : State) (g q : Nat) : Bool := s.bit (Reg.FAB_XS_STATUS g) (16 + q)

/-- Mesh distance within a grove. -/
def dist (a b : Nat) : Nat :=
  (if coreX a < coreX b then coreX b - coreX a else coreX a - coreX b) +
    (if coreY a < coreY b then coreY b - coreY a else coreY a - coreY b)

/-- Core indices of a grove's M-port routers, by M port (R154). -/
def mRouters : List Nat := [39, 44, 99, 104]

/-- The M-port router of a grove nearest a core, excluded and FAULTY ones skipped; ties go to the lower index
(R154, R158). -/
def State.mPort (s : State) (k : Nat) : Option Nat :=
  let cands := (mRouters.map fun i => 144 * (k / 144) + i).filter fun m => !(s.rtrBad m)
  cands.foldl (fun best m => match best with
    | none => some m
    | some b => if dist m k < dist b k then some m else some b) none

/-- Stops on the overlay's dimension-order route from `g` to `h`, with the port taken at each (R158). -/
def overlayPath : Nat → Nat → Nat → List (Nat × Nat)
  | 0, _, _ => []
  | n + 1, g, h =>
    if g = h then []
    else if g % 8 < h % 8 then (g, 1) :: overlayPath n (g + 1) h
    else if h % 8 < g % 8 then (g, 3) :: overlayPath n (g - 1) h
    else if g < h then (g, 2) :: overlayPath n (g + 8) h
    else (g, 0) :: overlayPath n (g - 8) h

/-- The port that the stop of `g` takes toward the stop of another grove `h`. -/
def stopPort (g h : Nat) : Nat := if g % 8 < h % 8 then 1 else if h % 8 < g % 8 then 3 else if g < h then 2 else 0

/-- The stop of a unit outside the mesh (R159): its own grove's, or the edge stop of its endpoint. -/
def unitStop (u : Nat) : Nat :=
  if u < 0xC0 then u % 64
  else if u < 0xC8 then [0, 7, 56, 63].getD ((u - 0xC0) / 2) 0
  else if u = 0xD0 then 3 else if u = 0xD1 then 4 else 59

/-- Stops with an edge port (R159, R193). -/
def edgeStops : List Nat := [0, 7, 56, 63, 3, 4, 59]

/-! ### Links

A link joins two nodes at a port of each: a router is its core's number, the stop of grove g is 9,216 + g, the memory unit of
grove g is 10,000 + g (its ports are the four M ports), and the endpoints at the edge of stop g are 11,000 + g. -/

def stopNode (g : Nat) : Nat := 9216 + g
def memNode (g : Nat) : Nat := 10000 + g
def edgeNode (g : Nat) : Nat := 11000 + g

/-- The other end of a link: node and port (R154, R159). -/
def linkPeer (k port : Nat) : Option (Nat × Nat) :=
  if k < 9216 then
    if port < 4 then (neighbour k port).map fun n => (n, opposite port)
    else if port = 5 then
      if k % 144 = 78 then some (stopNode (k / 144), 4)
      else (mRouters.findIdx? (· == k % 144)).map fun j => (memNode (k / 144), j)
    else none
  else if k < 9280 then
    let g := k - 9216
    match port with
    | 0 => if g < 8 then none else some (stopNode (g - 8), 2)
    | 1 => if g % 8 = 7 then none else some (stopNode (g + 1), 3)
    | 2 => if 56 ≤ g then none else some (stopNode (g + 8), 0)
    | 3 => if g % 8 = 0 then none else some (stopNode (g - 1), 1)
    | 4 => some (144 * g + 78, 5)
    | 5 => if edgeStops.contains g then some (edgeNode g, 0) else none
    | _ => none
  else if 10000 ≤ k ∧ k < 10064 then (mRouters[port]?).map fun i => (144 * (k - 10000) + i, 5)
  else if 11000 ≤ k ∧ k < 11064 ∧ port = 0 ∧ edgeStops.contains (k - 11000) = true then some (stopNode (k - 11000), 5)
  else none

/-- Key of a router port's registers (R192) and of a stop port's (R193). -/
def portKey (k port : Nat) : Nat := coreReg k (0xC40 + 0x40 * port)
def stopPortKey (g q : Nat) : Nat := groveReg g (0xC3100 + 0x40 * q)

/-- Key of a link direction. -/
def linkId (k port : Nat) : Nat := 8 * k + port
/-- Key of the telemetry registers of a node's port, where it has them: units have none. -/
def linkKey (k port : Nat) : Option Nat :=
  if k < 9216 then some (portKey k port) else if k < 9280 then some (stopPortKey (k - 9216) port) else none

/-- A 32-bit counter at offset `off` of a port's telemetry moved on (R192). -/
def State.portCount (s : State) (k port off n : Nat) : State :=
  match linkKey k port with | some key => s.count (key + off) n | none => s

/-- Port `port` of a node is DOWN. -/
def State.nodeDown (s : State) (k port : Nat) : Bool :=
  if k < 9216 then s.portDown k port else if k < 9280 then s.stopDown (k - 9216) port else false

/-- A node takes nothing in: a FAULTY or unpowered router, or a stop whose domain is not ON. -/
def State.nodeOut (s : State) (n : Nat) : Bool :=
  if n < 9216 then s.rtrState n == rsFaulty || !(s.routerOn n)
  else if n < 9280 then s.pwr (groveReg (n - 9216) 0xC4000) != 0 else false

/-- A packet cannot leave node `k` by a link that is DOWN at either end, or toward a node that takes nothing in (R186). -/
def State.linkCut (s : State) (k port n q : Nat) : Bool := s.nodeDown k port || s.nodeDown n q || s.nodeOut n

/-! ### Packets and their flits -/

/-- Link flits of a packet: one for a CTRL packet, a header and the beats for a DATA packet (R155, R168). -/
def flits : Body → Nat
  | .event _ => 1
  | .msg .. => 1
  | .sync _ => 1
  | .badOpcode => 2
  | .block _ => 3
  | .rowReq _ => 2
  | .amArgs .. => 2
  | .check _ => 3
  | .shadowCopy _ _ bs => 1 + (bs.length + 31) / 32
  | .loadWrite _ _ _ _ bs _ => 1 + (bs.length + 31) / 32
  | .loadRead .. => 2
  | .readReturn _ _ bs _ _ => 1 + (bs.length + 31) / 32

/-- The virtual channel of a packet (R161): 0 CTRL-TC0, 1 CTRL-TC1, 2 DATA-TC1, 3 DATA-TC2. -/
def Body.vc : Body → Nat
  | .event e => if e.tclass = 0 then 0 else 1
  | .msg .. => 1
  | .sync _ => 1
  | .loadWrite .. => 3
  | .loadRead .. => 3
  | .readReturn .. => 3
  | _ => 2

/-- Link flits that an input of a router or a stop holds for a virtual channel (R163). -/
def vcDepth (n v : Nat) : Nat := if n < 9216 then (if v = 0 then 4 else 8) else 32

/-- Is a packet at input `q` of node `n`, or on the link to it? -/
def Flight.atInput (f : Flight) (n q : Nat) : Bool :=
  match f.place with
  | .router k => k == n && f.inPort == q
  | .stop g => stopNode g == n && f.inPort == q
  | .unit u => if u < 64 then memNode u == n && f.inPort == q else decide (0xC0 ≤ u) && edgeNode (unitStop u) == n && q == 0
  | .core _ => false

/-- Link flits of a packet that have arrived at its input. -/
def Flight.held (f : Flight) : Nat := if f.shares then 0 else flits f.body - f.left

/-- Packets of a virtual channel at an input or on the link to it. -/
def State.atInput (s : State) (n q v : Nat) : List Flight := s.net.filter fun f => f.atInput n q && f.body.vc == v

/-- A packet may be sent to input `q` of node `n`: its buffer has room for the packet, or is empty, and the replay buffer of the
link holds what is on it (R163, R180). -/
def State.roomAt (s : State) (n q : Nat) (b : Body) : Bool :=
  let here := (s.atInput n q b.vc).map fun f => if f.shares then 0 else flits f.body
  let out := (s.net.filter fun f => f.atInput n q).map (·.left)
  let fits := match linkKey n q with
    | none => true
    | some _ => decide (here.foldl (· + ·) 0 + min (flits b) (vcDepth n b.vc) ≤ vcDepth n b.vc)
  fits && decide (out.foldl (· + ·) 0 + flits b ≤ 64)

/-- The high-water mark of an input follows what it holds (R192). -/
def State.qHigh (s : State) (n q v : Nat) : State :=
  match linkKey n q with
  | none => s
  | some key => s.high (key + 0x10) (8 * v) 8 (min (vcDepth n v) (((s.atInput n q v).map Flight.held).foldl (· + ·) 0))

/-! ### Sending and loss -/

/-- A packet put into the fabric at the place it has reached. -/
def State.put (s : State) (f : Flight) : State := { s with net := s.net ++ [f] }

/-- A packet abandoned where its next hop is a FAULTY router or a DOWN link (R186): step traffic is reported. -/
def State.abandon (s : State) (f : Flight) : State :=
  match f.step with
  | some p => s.fabricLoss f.part p (flits f.body)
  | none => s

/-- The place of a packet that has been sent to a node. -/
def Flight.placeAt (f : Flight) (n : Nat) : Place :=
  if n < 9216 then .router n else if n < 9280 then .stop (n - 9216)
  else match f.tag with | .unit u _ => .unit u | _ => f.place

/-- A packet sent from node `k` on a port: counted there, and on the link (R155, R192). The link flits are counted as they are
received, for those that share a link flit show there (`execLinkFlitReceive`). -/
def State.sendOn (s : State) (k port : Nat) (f : Flight) : State :=
  match linkPeer k port with
  | none => s.abandon f
  | some (n, q) =>
    if s.linkCut k port n q then s.abandon f
    else
      let s1 := match linkKey k port with | some key => s.count64 key 1 | none => s
      s1.put { f with place := f.placeAt n, inPort := q, left := flits f.body, shares := false }

/-- May a packet leave node `k` on a port? Where it would be abandoned nothing holds it. -/
def State.maySend (s : State) (k port : Nat) (b : Body) : Bool :=
  match linkPeer k port with
  | none => true
  | some (n, q) => s.linkCut k port n q || s.roomAt n q b

/-- A packet that leaves a router for its own core is counted at port L (R192). -/
def State.sentL (s : State) (k : Nat) (b : Body) : State := (s.count64 (portKey k 4) 1).count64 (portKey k 4 + 8) (flits b)

/-- A packet discarded at an endpoint that may not take it: counted, and step traffic counted as ejected
(R176, R188, 13_memory_power.md R480). -/
def State.discard (s : State) (k : Nat) (f : Flight) : State :=
  let s1 := s.count (Reg.FAB_BAD_PKT k) 1
  match f.step with
  | some p => s1.ej (k / 144) p 1
  | none => s1

/-! ### Injection -/

/-- A clearing holds all injection of partition `k` (R184). -/
def State.holdsAll (s : State) (k : Nat) : Bool :=
  match (s.part k).clearing with | .draining _ all => all | _ => false

/-- A packet enters the fabric: at the input of a router or a stop, or from an endpoint at the edge over its link (R159). -/
def State.enter (s : State) (f : Flight) : State :=
  match f.place with
  | .router k => (s.put f).qHigh k f.inPort f.body.vc
  | .unit u => s.sendOn (edgeNode (unitStop u)) 0 f
  | _ => s.put f

/-- A packet injected: it waits while a clearing holds all injection of its partition (R184). Step traffic goes on: the events of
cores are held before they leave (`State.presentEntry`), an endpoint injects into open steps only, and what follows from a packet on
its way must pass for the drain to end (DEDUCED). Where it has a place of `.unit`, the unit sends it. -/
def State.inject (s : State) (f : Flight) : State :=
  if s.holdsAll f.part && f.step.isNone then { s with waiting := s.waiting ++ [f] } else s.enter f

/-- Source endpoints of units. -/
def unitSrc (u : Nat) : Nat := 0x4000 + u

/-- Groves of a canopy's GROVE_MASK. -/
def canTargets (img : Nat) : List Nat := ones 64 (canGroves img)

/-- A canopy packet injected at root router `k` on entry `c` of its grove by core `src`, counted under R176. -/
def State.rootInject (s : State) (k c src : Nat) (e : Ev) : State :=
  let g := k / 144
  let img := s.canopy g c
  let s1 := s.inj g e.parity (canEjects img + (canTargets img).length)
  s1.inject { place := .router k, tag := .canopy false g c, way := none, part := (s.partOf g).getD 0,
              step := some e.parity, body := .event e, src := src }

/-- The detour waypoint for a unicast packet that core `p` injects (R187): the lowest-numbered live entry whose range
holds the destination. -/
def State.detour (s : State) (p dest : Nat) : Option Nat :=
  let live (key : Nat) : Word := Store.get (fun _ => 0) s.detLive key
  ((List.range 4).find? fun d =>
      let r := live (Reg.FAB_DETOUR_RANGE p d)
      tst r 31 && decide (fld r 0 14 ≤ dest) && decide (dest ≤ fld r 14 14)).map
    fun d => fld (live (Reg.FAB_DETOUR_WAY p d)) 0 14

/-- A unicast packet of core `k`'s router for an endpoint of core `dest`. -/
def State.uniFlight (s : State) (k endpoint dest : Nat) (step : Option Nat) (b : Body) (mark : Nat) : Flight :=
  { place := .router k, tag := .unicast endpoint dest, way := s.detour k dest, part := (s.partOf (k / 144)).getD 0, step := step,
    body := b, mark := mark, src := k }

/-- A unicast packet injected at router `k` for an endpoint of core `dest`, with the number of its message. -/
def State.unicastMark (s : State) (k endpoint dest : Nat) (step : Option Nat) (b : Body) (mark : Nat) : State :=
  s.inject (s.uniFlight k endpoint dest step b mark)
def State.unicast (s : State) (k endpoint dest : Nat) (step : Option Nat) (b : Body) : State := s.unicastMark k endpoint dest step b 0

/-- A packet injected at router `k` for a unit. SUB names the sender to a unit that replies, and on a tap copy, whose ejection its
endpoint reports to the sender's grove; it is zero for the other units (R166; DESIGN CHOICE for tap copies: 11_host_interface.md
R406 does not say how the endpoint knows the grove). -/
def State.toUnitMark (s : State) (k u : Nat) (step : Option Nat) (b : Body) (mark : Nat) : State :=
  let sub := match b with | .sync _ => k | .event _ => k | .rowReq _ => k | _ => 0
  s.inject { place := .router k, tag := .unit u sub, way := none, part := (s.partOf (k / 144)).getD 0, step := step, body := b,
             mark := mark, src := k }
def State.toUnit (s : State) (k u : Nat) (step : Option Nat) (b : Body) : State := s.toUnitMark k u step b 0

/-- A packet from unit `u` at the stop of grove `g` to an endpoint of core `dest` (R159). -/
def State.fromStopMark (s : State) (g u endpoint dest : Nat) (b : Body) (mark : Nat) : State :=
  s.inject { place := .stop g, tag := .unicast endpoint dest, way := none, part := (s.partOf (dest / 144)).getD 0, step := none,
             body := b, mark := mark, src := unitSrc u, inPort := 6 }
def State.fromStop (s : State) (g u endpoint dest : Nat) (b : Body) : State := s.fromStopMark g u endpoint dest b 0

/-- A packet of the endpoint of unit `u`, at the edge of the overlay, for an endpoint of core `p` (R159). -/
def State.fromEdge (s : State) (u k endpoint p : Nat) (b : Body) (mark : Nat) : State :=
  s.inject { place := .unit u, tag := .unicast endpoint p, way := none, part := k, step := none, body := b, mark := mark,
             src := unitSrc u }

/-- Roles that the router of core `k` forwards for, each with its canopy entries (10_integrity.md R366). -/
def State.forwardsOf (s : State) (k : Nat) : List (Nat × List Nat) := Store.get (fun _ => []) s.forwards k

/-- The root of canopy image `img` for the role of core `p`: its own router, or the router that forwards for the role and from
which the entry's masks start (10_integrity.md R366). -/
def State.rootRouter (s : State) (p img : Nat) : Nat :=
  if canShape img (p % 144) then p
  else
    match s.forwards.find? fun f => f.1 / 144 == p / 144 && f.2.any (·.1 == s.logicalOf p) && canShape img (f.1 % 144) with
    | some f => f.1
    | none => p

/-- An event injected by core `p` on canopy entry `c`: at its own router, or unicast to the router that forwards for
its role (R366). -/
def State.canopyInject (s : State) (p c : Nat) (e : Ev) : State :=
  let old := s.rootRouter p (s.canopy (p / 144) c)
  if old = p then s.rootInject p c p e
  else (s.inj (p / 144) e.parity 1).inject { s.uniFlight p 0 old (some e.parity) (.event e) 0 with toRoot := true }

/-- Tap `t` of core `p` covers a key (11_host_interface.md R405). -/
def State.tapHits (s : State) (p t key : Nat) : Bool :=
  let base := s.rf (Reg.CORE_TAP_KEY p t) 0 28
  s.bit (Reg.CORE_TAP_KEY p t) 31 && decide (base ≤ key) && decide (key < base + s.rf (Reg.CORE_TAP_CNT p t) 0 21)

/-- The UNIT number of a tap's endpoint. -/
def State.tapUnit (s : State) (p t : Nat) : Nat :=
  let w := s.rd (Reg.CORE_TAP_CNT p t)
  if tst w 28 then 0xD0 + fld w 29 3 else 0xC0 + fld w 29 3

/-- One tap copy for each enabled tap that matches, counted in INJ (R405, R406). -/
def State.tapCopies (s : State) (p : Nat) (e : Ev) : State :=
  (List.range 4).foldl (fun t i =>
    if t.tapHits p i e.key then (t.inj (p / 144) e.parity 1).toUnit p (t.tapUnit p i) (some e.parity) (.event e) else t) s

/-- An event presented to the router of core `p`: tap copies, then the source table (R170, R405). -/
def State.present (s : State) (p : Nat) (e : Ev) : State :=
  let s1 := s.tapCopies p e
  match s1.srcMatch p e.key with
  | none => s1.count (Reg.FAB_SRC_MISS p) 1
  | some ent => s1.canopyInject p (srcCanopy ent.2) e

/-! ### Arrival at a router -/

/-- Events an input queue holds (04_synapses_dense.md R122). -/
def synQueueLen : Nat := 64

/-- What an endpoint of core `p` does with an ejected packet: take it, discard it (R172, R188, R221), or, for an event that finds
the synapse queue full, hold it at the router's port (04_synapses_dense.md R122). -/
inductive Eject where
  | take | drop | hold
  deriving DecidableEq, Repr

def State.ejects (s : State) (p endpoint : Nat) (b : Body) : Eject :=
  let loader : Bool := endpoint == 2
  let domainOn := if loader then s.memOn p else s.logicOn p
  if endpoint = 3 ∨ !domainOn ∨ !(s.role p == roleActive || loader) then .drop
  else match b with
    | .event e => if 2 ≤ e.tclass then .drop else if (s.core p).synQ.length < synQueueLen then .take else .hold
    | .badOpcode => .drop
    | _ => .take

/-- A packet ejected to an endpoint of core `p` (R172, R188, R221). -/
def State.eject (s : State) (p endpoint : Nat) (f : Flight) : State :=
  match s.ejects p endpoint f.body with
  | .drop => s.discard p f
  | _ =>
    let s1 := s.sentL p f.body
    match f.body with
    | .event e => (s1.updCore p fun c => { c with synQ := c.synQ ++ [e] }).synShow p
    | _ => s1.put { f with place := .core p, inPort := 4, left := 0, shares := false }

/-- The role whose EJECT of canopy entry `c` router `k` forwards, where it does (R366). -/
def State.ejectRole (s : State) (k c : Nat) : Option Nat := ((s.forwardsOf k).find? fun r => r.2.contains c).map (·.1)

/-- A canopy copy ejected at router `k`: to its core, or on to the core that now carries the role (R366). -/
def State.ejectCanopy (s : State) (k c : Nat) (f : Flight) (e : Ev) : State :=
  match s.ejectRole k c with
  | none => s.eject k 0 f
  | some l =>
    match s.physOf l with
    | none => s.discard k f
    | some q => ((s.ej (k / 144) e.parity 1).inj (k / 144) e.parity 1).unicast k 0 q (some e.parity) (.event e)

/-- Ports of router `k` on which a canopy packet leaves (R172). -/
def State.canopyPorts (s : State) (k g c : Nat) : List Nat :=
  let m := canMask (s.canopy g c) (k % 144)
  ((List.range 4).filter fun port => m / 2 ^ port % 2 == 1) ++ (if m / 16 % 2 = 1 ∧ k % 144 = 78 then [5] else [])

/-- A canopy packet at router `k` is sent on every port whose bit is set in MASK[k], and ejected where EJECT is set (R172). -/
def State.canopyArrive (s : State) (k : Nat) (f : Flight) (g c : Nat) (e : Ev) : State :=
  let s1 := (s.canopyPorts k g c).foldl (fun t port => t.sendOn k port f) s
  if canMask (s.canopy g c) (k % 144) / 32 = 1 then s1.ejectCanopy k c f e else s1

/-- Is a unit number one of R166's? -/
def unitKnown (u : Nat) : Bool :=
  decide (u < 0xC8) || u == 0xD0 || u == 0xD1 || u == 0xE0 || u == 0xF0

/-- A detoured packet that stands at its waypoint goes on with its second leg (R187). -/
def Flight.pastWay (f : Flight) (k : Nat) : Flight :=
  if f.way = some k then { f with way := none, second := true } else f

/-- The port by which router `k` sends a unicast packet on; none where it has arrived (R158, R187). -/
def uniPort (k dest : Nat) (f : Flight) : Option Nat :=
  let target := f.way.getD dest
  if k = target then none
  else if k / 144 = target / 144 then some (hopPort k target)
  else if k % 144 = 78 then some 5
  else some (hopPort k (144 * (k / 144) + 78))

/-- A unicast packet at router `k`: ejected at its end, else one hop further (R158, R187). The injection leg of a moved role is
counted there and injected as root, on the source table that has moved with the role (R366). -/
def State.unicastArrive (s : State) (k endpoint dest : Nat) (f : Flight) : State :=
  match uniPort k dest f with
  | some port => s.sendOn k port f
  | none =>
    match f.body, f.toRoot with
    | .event e, true =>
      let s1 := s.ej (k / 144) e.parity 1
      match s1.srcMatch f.src e.key with
      | none => s1
      | some ent => s1.rootInject k (srcCanopy ent.2) f.src e
    | _, _ => s.eject k endpoint f

/-- The port by which router `k` sends a packet to a unit on: out through an M port or port X, or toward it (R158, R159). None where
no M port is in service. -/
def State.unitPort (s : State) (k u : Nat) : Option Nat :=
  let exit := if u < 64 then s.mPort k else some (144 * (k / 144) + 78)
  exit.map fun m => if k = m then 5 else hopPort k m

/-- A packet to a unit at router `k`. -/
def State.unitArrive (s : State) (k u : Nat) (f : Flight) : State :=
  if !(unitKnown u) then s.discard k f
  else match s.unitPort k u with
    | none => s.abandon f
    | some port => s.sendOn k port f

/-- Ports on which the packet at router `k` leaves. -/
def State.routerPorts (s : State) (k : Nat) (f : Flight) : List Nat :=
  match f.tag with
  | .reserved => []
  | .unicast _ dest => (uniPort k dest (f.pastWay k)).toList
  | .unit u _ => if unitKnown u then (s.unitPort k u).toList else []
  | .canopy _ g c => if g = k / 144 then s.canopyPorts k g c else []

/-- A copy of the packet at router `k` is ejected there and finds the core's queue full. -/
def State.ejectHeld (s : State) (k : Nat) (f : Flight) : Bool :=
  match f.tag with
  | .unicast endpoint dest => (uniPort k dest (f.pastWay k)).isNone && !f.toRoot && s.ejects k endpoint f.body == .hold
  | .canopy _ g c =>
    g == k / 144 && canMask (s.canopy g c) (k % 144) / 32 == 1 && (s.ejectRole k c).isNone && s.ejects k 0 f.body == .hold
  | _ => false

/-- May the packet at router `k` be dealt with? Every output that a copy of it takes has room for it, the core's queue included
(R163; DESIGN CHOICE: the copies of a packet leave together, R160). -/
def State.routerReady (s : State) (k : Nat) (f : Flight) : Bool :=
  s.rtrState k == rsFaulty || ((s.routerPorts k f).all (fun port => s.maySend k port f.body) && !(s.ejectHeld k f))

/-- A packet at router `k` moves on (R158, R166, R172, R188). -/
def State.routerArrive (s : State) (k : Nat) (f0 : Flight) : State :=
  let f := f0.pastWay k
  if s.rtrState k = rsFaulty then s.abandon f
  else
    match f.tag with
    | .reserved => s.discard k f
    | .unicast endpoint dest => s.unicastArrive k endpoint dest f
    | .unit u _ => s.unitArrive k u f
    | .canopy _ g c =>
      match f.body with
      | .event e => if g = k / 144 then s.canopyArrive k f g c e else s.discard k f
      | _ => s.discard k f

/-! ### Arrival at a stop -/

/-- The loader of a stop serves this packet: a load or a read of a table of its grove (11_host_interface.md R397). -/
def stopLoads (g : Nat) (f : Flight) : Bool :=
  match f.body with
  | .loadWrite _ p kind .. => decide (2 ≤ kind) && p / 144 == g
  | .loadRead _ p kind .. => decide (2 ≤ kind) && p / 144 == g
  | _ => false

/-- The groves that a canopy packet at the stop of `g` is still to reach: at the root's stop those of GROVE_MASK (R172). -/
def State.stopTargets (s : State) (g : Nat) (f : Flight) : List Nat :=
  match f.tag with
  | .canopy false h c => if f.inPort = 4 ∧ h = g then canTargets (s.canopy g c) else f.targets
  | _ => f.targets

/-- The copies of a packet that the stop of `g` sends on: ports and packets. A canopy copy goes once over each link, for every grove
that lies beyond it, and through port X for its own grove; on the overlay its tag names the root's grove, with REMOTE for index
(R158, R172; DESIGN CHOICE: the spec does not say what the tag holds on the overlay, nor how a stop knows the groves beyond it). -/
def State.stopCopies (s : State) (g : Nat) (f : Flight) : List (Nat × Flight) :=
  match f.tag with
  | .canopy remote h c =>
    let ts := s.stopTargets g f
    let idx := if remote = false ∧ f.inPort = 4 ∧ h = g then canRemote (s.canopy g c) else c
    let onward := (List.range 4).filterMap fun q =>
      let l := ts.filter fun t => t != g && stopPort g t == q
      if l.isEmpty then none else some (q, { f with tag := .canopy remote h idx, targets := l })
    let own := if ts.contains g then
        [(4, { f with tag := .canopy true g idx, targets := [], part := (s.partOf g).getD f.part })] else []
    own ++ onward
  | .unicast _ dest =>
    let h := f.way.getD dest / 144
    [(if h = g then 4 else stopPort g h, f)]
  | .unit u _ =>
    let h := unitStop u
    if h ≠ g then [(stopPort g h, f)] else if u < 64 then [(4, f)] else if u < 0xC0 then [(6, f)] else [(5, f)]
  | .reserved => []

/-- What the stop of `g` counts as a canopy packet passes (R176): the root's stop an ejection and a copy out for each grove, the stop
of a grove that it reaches a copy in and its ejections. -/
def State.stopCounts (s : State) (g : Nat) (f : Flight) : State :=
  match f.tag, f.step with
  | .canopy false h c, some p =>
    if f.inPort = 4 ∧ h = g then
      let n := (canTargets (s.canopy g c)).length
      (s.ej g p n).xout g p n
    else if f.targets.contains g then (s.xin g p 1).inj g p (canEjects (s.canopy g c)) else s
  | .canopy true _ c, some p => if f.targets.contains g then (s.xin g p 1).inj g p (canEjects (s.canopy g c)) else s
  | _, _ => s

/-- One copy leaves the stop of `g`: to a unit there, or on a link. -/
def State.stopSend (s : State) (g : Nat) (x : Nat × Flight) : State :=
  if x.1 = 6 then
    match x.2.tag with
    | .unit u _ => s.put { x.2 with place := .unit u, inPort := 6, left := 0, shares := false }
    | _ => s
  else s.sendOn (stopNode g) x.1 x.2

/-- The packet at the stop of `g` passes it (R158, R172). -/
def State.stopArrive (s : State) (g : Nat) (f : Flight) : State :=
  (s.stopCopies g f).foldl (fun t x => t.stopSend g x) (s.stopCounts g f)

/-- Every output that a copy of it takes has room for it. -/
def State.stopReady (s : State) (g : Nat) (f : Flight) : Bool :=
  (s.stopCopies g f).all fun x => x.1 == 6 || s.maySend (stopNode g) x.1 f.body

/-! ### Taking a packet out of its place -/

/-- Two packets leave their place in the order in which they reached it (R164): at one input of a router or a stop those of one
virtual channel; at an endpoint those of one channel, source and destination. -/
def sameFlow (a b : Flight) : Bool :=
  a.place == b.place && a.body.vc == b.body.vc &&
    (match a.place with
    | .router _ => a.inPort == b.inPort
    | .stop _ => a.inPort == b.inPort
    | _ => a.src == b.src && a.tag == b.tag)

/-- The `i`-th packet taken out of the fabric, with the fabric without it: all of it has arrived, and no packet of its flow is
before it. -/
def State.take (s : State) (i : Nat) : Option (Flight × State) :=
  match s.net[i]? with
  | none => none
  | some f =>
    if f.left ≠ 0 ∨ ((s.net.take i).any (sameFlow f)) = true then none else some (f, { s with net := s.net.eraseIdx i })

/-- A packet that has reached a unit in the range `[lo, hi)`, taken out of the fabric. -/
def State.takeUnit (s : State) (i lo hi : Nat) : Option (Nat × Flight × State) :=
  match s.take i with
  | some (f, t) =>
    match f.place with
    | .unit u => if lo ≤ u ∧ u < hi then some (u - lo, f, t) else none
    | _ => none
  | none => none

/-- A packet that has reached an endpoint of a core, taken out of the fabric. -/
def State.takeCore (s : State) (i : Nat) : Option (Nat × Flight × State) :=
  match s.take i with
  | some (f, t) => match f.place with | .core p => some (p, f, t) | _ => none
  | none => none

end Sys2Proof.Machine
end

