-- ==== Sys2Proof/Machine/EmitLog.lean ====
section
/-! DEFINITION. Neuron groups as their registers give them (03_neurons.md R81, R82, R109), the places of lane-neuron
state in local memory, and the emit log (08_step_commit.md R274 to R277). -/
namespace Sys2Proof.Machine

/-- The neuron area begins here (13_memory_power.md R460). -/
def neuronBase : Nat := 0x4000

/-- Bytes of one lane-neuron at depth `d` (R82). -/
def laneBytes (d : Nat) : Nat := 16 + 3 * d

/-- Group `g` of core `p`, with its area not yet placed. -/
def State.grpRaw (s : State) (p g : Nat) : Grp :=
  let c := s.rd (Reg.NEU_GRP_CFG p g)
  let t := s.rd (Reg.NEU_GRP_THR p g)
  let l := s.rd (Reg.NEU_GRP_LIM p g)
  let d := s.rd (Reg.NEU_GRP_DYN p g)
  let o := s.rd (Reg.NEU_GRP_OUT p g)
  { idx := g, cls := fld c 30 1, rin := fld c 28 2, leakMode := fld c 27 1, fire := fld c 25 2,
    depth := 2 ^ fld c 22 3, lanes := fld c 19 3 + 1, nblk := fld c 12 7, base := fld c 0 6,
    vReset := sx 16 (fld t 16 16), theta0 := sx 16 (fld t 0 16), leakC := sx 16 (fld l 16 16),
    vMax := sx 16 (fld l 0 16), refrac := fld d 24 8, aShift := fld d 20 4, leakK := fld d 16 4,
    aInc := sx 16 (fld d 0 16), axon := s.rf (Reg.NEU_GRP_AXON p g) 0 28, value := fld o 16 8,
    channel := fld o 0 9, area := 0 }

/-- Enabled groups with a depth, in increasing order of BASE_BLK. Of two with the same BASE_BLK the lower index stands first
(DESIGN CHOICE: R82 orders by BASE_BLK alone; such a partition is refused, and the order decides only which group
CFG_NEURON_AREA names). -/
def insertGrp (x : Grp) : List Grp → List Grp
  | [] => [x]
  | y :: ys => if x.base < y.base then x :: y :: ys else y :: insertGrp x ys

def placeGrps : Nat → List Grp → List Grp
  | _, [] => []
  | off, g :: gs => { g with area := off } :: placeGrps (off + g.lanes * 64 * g.nblk * laneBytes g.depth) gs

/-- The enabled groups of core `p` placed in the neuron area (R82). -/
def State.grps (s : State) (p : Nat) : List Grp :=
  let en := (List.range 16).filter fun g => s.bit (Reg.NEU_GRP_CFG p g) 31 && decide (s.rf (Reg.NEU_GRP_CFG p g) 22 3 < 6)
  placeGrps 0 ((en.map fun g => s.grpRaw p g).foldl (fun acc g => insertGrp g acc) [])

/-- Neurons of one lane. -/
def Grp.n (g : Grp) : Nat := 64 * g.nblk
/-- Lane-neuron indices the group owns (R81). -/
def Grp.owns (g : Grp) (i : Nat) : Bool := decide (64 * g.base ≤ i) && decide (i < 64 * g.base + g.lanes * g.n)
/-- Lane-neuron index of neuron `j` in lane `l` (R81). -/
def Grp.lane (g : Grp) (l j : Nat) : Nat := 64 * g.base + l * g.n + j
/-- Lane and neuron of a lane-neuron index. -/
def Grp.laneOf (g : Grp) (i : Nat) : Nat := if g.n = 0 then 0 else (i - 64 * g.base) / g.n
def Grp.neuronOf (g : Grp) (i : Nat) : Nat := if g.n = 0 then 0 else (i - 64 * g.base) % g.n
/-- Byte offset of lane-neuron `i` of the group in local memory. Within the bytes R82 gives it, the two copies of the
record come first and the ring words after them (DESIGN CHOICE). -/
def Grp.at (g : Grp) (i : Nat) : Nat := neuronBase + g.area + (i - 64 * g.base) * laneBytes g.depth
/-- Byte offset of copy `c` of the record of lane-neuron `i`. -/
def Grp.copyAt (g : Grp) (i c : Nat) : Nat := g.at i + 8 * c
/-- Byte offset of ring position `r` of lane-neuron `i`. -/
def Grp.ringAt (g : Grp) (i r : Nat) : Nat := g.at i + 16 + 3 * r
/-- Byte offset of the current-slot word of lane-neuron `i` (13_memory_power.md R460). -/
def slotAt (i : Nat) : Nat := 3 * i

/-- The group that owns a lane-neuron index. -/
def State.grpOf (s : State) (p i : Nat) : Option Grp := (s.grps p).find? (·.owns i)

/-- The copy of block `b` that is live (R85). -/
def Core.live (c : Core) (b : Nat) : Nat := c.selectors / 2 ^ b % 2

/-! ### The emit log -/

/-- The emit-log area (13_memory_power.md R460). -/
def logBase : Nat := 0x3C000
def logLen : Nat := 4096
def logAt (slot : Nat) : Nat := logBase + 4 * slot

def kindNeuron : Nat := 0
def kindDense : Nat := 1
def kindKey : Nat := 2
def kindArg : Nat := 3
def lsPending : Nat := 0
def lsSent : Nat := 1
def lsSpill : Nat := 2
def lsSpillSent : Nat := 3

/-- KIND and STATE of a log word (R275). -/
def logKind (w : Word) : Nat := fld w 30 2
def logState (w : Word) : Nat := fld w 28 2

/-- Log entries in use. -/
def Core.logUsed (c : Core) : Nat := c.log.length
/-- Slots an event may use: one or two consecutive free slots after the newest entry (R274). -/
def Core.nextSlot (c : Core) (n : Nat) : Option Nat :=
  let start := match c.log.getLast? with | some e => (e.slot + 1) % logLen | none => 0
  let usedAt (i : Nat) : Bool := c.log.any fun e => e.slot == i
  if c.log.length = 0 then some 0
  else (List.range logLen).findSome? fun d =>
    let i := (start + d) % logLen
    if (List.range n).all fun j => !(usedAt ((i + j) % logLen)) then some i else none

/-- May an event of a class take `n` entries (R276)? -/
def State.logAllows (s : State) (p cls n : Nat) : Bool :=
  let free := logLen - (s.core p).logUsed
  let reserve := match s.partOf (p / 144) with | some k => s.rf (Reg.STEP_POLICY k) 8 11 | none => 0
  if cls = 0 then decide (n ≤ free) else decide (reserve < free) && decide (n ≤ free)

/-- The event that an entry's words stand for, with its class and parity (R275): one word, or the two of a handler
event. -/
def State.entEvent (s : State) (p step : Nat) (ws : List Word) : Option Ev :=
  let par := step % 4
  let w := ws.headD 0
  match logKind w with
  | 0 =>
    let i := fld w 0 12
    match s.grpOf p i with
    | none => none
    | some g => some { key := g.axon + g.neuronOf i, parity := par, value := fld w 20 8, tclass := 1 - g.cls,
                       lane := g.laneOf i, retract := false, spilled := false, handler := false }
  | 1 =>
    let o := fld w 18 2
    some { key := s.rf (Reg.DNS_OP_OUT p o) 0 28 + fld w 0 12, parity := par, value := fld w 20 8,
           tclass := 1 - s.rf (Reg.DNS_OP_CFG p o) 24 1, lane := fld w 15 3, retract := false, spilled := false,
           handler := false }
  | 2 =>
    let a := (ws.drop 1).headD 0
    some { key := fld w 0 28, parity := par, value := fld a 20 8, tclass := 1 - fld a 16 1, lane := fld a 17 3,
           retract := false, spilled := false, handler := true }
  | _ => none

/-- The words of the log entry that begins at a slot. -/
def State.entAt (s : State) (p slot : Nat) : List Word :=
  let w := s.word p (logAt slot)
  if logKind w = 2 then [w, s.word p (logAt ((slot + 1) % logLen))] else [w]

/-- The event a log entry stands for. -/
def State.logEvent (s : State) (p slot step : Nat) : Option Ev := s.entEvent p step (s.entAt p slot)

/-- STATE of a log entry set; both words of a handler event change together. -/
def State.setLogState (s : State) (p slot st : Nat) : State :=
  let w := s.word p (logAt slot)
  let s1 := s.stepNum p (logAt slot) 4 (setFld w 28 2 st).toNat
  if logKind w = 2 then
    let b := (slot + 1) % logLen
    s1.stepNum p (logAt b) 4 (setFld (s1.word p (logAt b)) 28 2 st).toNat
  else s1

/-- Words written as the newest entries of the log, for the step they belong to. -/
def State.logAppend (s : State) (p slot step : Nat) : List Word → State
  | [] => s
  | w :: ws =>
    let s1 := s.stepNum p (logAt slot) 4 w.toNat
    let s2 := s1.updCore p fun c => { c with log := c.log ++ [⟨slot, step⟩] }
    let s3 := (s2.wf' (Reg.CORE_EMIT_STATUS p) 0 13 ((s2.core p).logUsed)).high (Reg.CORE_EMIT_STATUS p) 16 13 ((s2.core p).logUsed)
    s3.logAppend p ((slot + 1) % logLen) step ws

/-- Entries of a replay: kept for the digests, and in the log of the sapling where it has room; nothing is injected
(10_integrity.md R355). -/
def State.logSilent (s : State) (q step : Nat) (ws : List Word) : State :=
  let s1 := s.updCore q fun c => { c with ents := c.ents ++ ws }
  match ws, (s.core q).nextSlot ws.length with
  | [], _ => s1
  | _, some slot => s1.logAppend q slot step ws
  | _, none => s1

/-- Does a clearing hold an event of this key at core `p` (05_fabric.md R184)? -/
def State.heldByClearing (s : State) (p key : Nat) : Bool :=
  let g := p / 144
  match s.partOf g with
  | none => false
  | some k =>
    match (s.part k).clearing with
    | .draining _ all =>
      all ||
      (match s.srcMatch p key with
      | none => false
      | some (ek, e) =>
        let c := srcCanopy e
        let mark (h i : Nat) : Bool := Store.get (fun _ => false) s.canChanged (4096 * h + i)
        let img := s.canopy g c
        let stg := s.canopyStaged g c
        Store.get (fun _ => false) s.srcChanged ek || mark g c ||
          (canTargets img).any (fun h => mark h (canRemote img)) || (canTargets stg).any (fun h => mark h (canRemote stg)))
    | _ => false

/-- A logged entry presented to the router, or held in the injection queue by a clearing; its STATE follows. -/
def State.presentEntry (s : State) (p slot step st : Nat) (spilled : Bool) : State :=
  match s.logEvent p slot step with
  | none => s
  | some e =>
    if s.heldByClearing p e.key then s.updCore p fun c => { c with injQ := c.injQ ++ [slot] }
    else (s.setLogState p slot st).present p { e with spilled := spilled }

/-- An event of the step is logged and injected (R272, R274 to R277); under a cut, TC1 events are logged as SPILL and
not injected (R287). No state where no entry may be used. `ws` are the entry's words with STATE zero. -/
def State.emit (s : State) (p step cls : Nat) (ws : List Word) : Option State :=
  if !(s.logAllows p cls ws.length) then none
  else
    match (s.core p).nextSlot ws.length with
    | none => none
    | some slot =>
      let cutNow := (s.core p).cut && decide (cls ≠ 0)
      let st := if cutNow then lsSpill else lsPending
      let s1 := s.logAppend p slot step (ws.map fun w => setFld w 28 2 st)
      let s2 := s1.updCore p fun c => { c with ents := c.ents ++ ws }
      if cutNow then
        match s.partOf (p / 144) with
        | some k =>
          some (((s2.updPart k fun v => { v with spilled := v.spilled + 1 }).count (Reg.STEP_SPILLED_EVENTS k) 1).count
            (Reg.STEP_SPILL_PENDING k) 1)
        | none => some s2
      else some (s2.presentEntry p slot step lsSent false)

/-- A unit of the core waits for a log entry: its neuron engine, whose slots are taken, its tile, or a handler in EMIT
(R277). -/
def Core.neuStalled (c : Core) : Bool := !c.neuTodo.isEmpty && c.neuTake.isEmpty
def Core.stalled (c : Core) : Bool :=
  c.neuStalled || !c.dnsEvents.isEmpty || (match c.wait with | .emit _ => true | _ => false)

/-- CORE_EMIT_STATUS.STALLED shown (R298). -/
def State.stallShow (s : State) (p : Nat) : State := s.wf' (Reg.CORE_EMIT_STATUS p) 31 1 (b2n (s.core p).stalled)

/-- The word of a neuron event (R275). -/
def neuronWord (value i : Nat) : Word := BitVec.ofNat 32 (value % 256 * 2 ^ 20 + i % 4096)
/-- The word of a dense event. -/
def denseWord (value op lane col : Nat) : Word :=
  BitVec.ofNat 32 (2 ^ 30 + value % 256 * 2 ^ 20 + op % 4 * 2 ^ 18 + lane % 8 * 2 ^ 15 + col % 4096)
/-- The two words of a handler event. -/
def handlerWords (e : EmitReq) : List Word :=
  [BitVec.ofNat 32 (2 * 2 ^ 30 + e.key % 2 ^ 28),
   BitVec.ofNat 32 (3 * 2 ^ 30 + e.value % 256 * 2 ^ 20 + e.lane % 8 * 2 ^ 17 + (1 - e.cls) % 2 * 2 ^ 16)]

/-- The step that is open at core `p`, about to open there, or else the partition's next (03_neurons.md R88, R288). -/
def State.stepAt (s : State) (p : Nat) : Nat :=
  let c := s.core p
  match c.openStep, c.openComing with
  | some n, _ => n
  | none, some n => n
  | none, none =>
    match s.partOf (p / 144) with
    | none => 0
    | some k =>
      match (s.part k).openStep with
      | some n => n
      | none => ((s.rd (Reg.STEP_COMMITTED k)).toNat + 1) % 2 ^ 32

/-- The next step to open at core `p`: the one after a step that is open there. -/
def State.nextStepAt (s : State) (p : Nat) : Nat :=
  if (s.core p).openStep.isSome then (s.stepAt p + 1) % 2 ^ 32 else s.stepAt p

/-- A handler event: of the step open at the core until it declares, and injected; at any other time it is logged as PENDING for
the next step to open, which injects it (R272, R274; DESIGN CHOICE: it takes its entries when the EMIT executes, where R272 says
that it is logged when the step opens and R274 that the log holds the handler events that wait for the next step). No state where
no entry may be used. -/
def State.handlerEmit (s : State) (p : Nat) (e : EmitReq) : Option State :=
  match (s.core p).openStep, (s.core p).declared with
  | some n, false => s.emit p n e.cls (handlerWords e)
  | _, _ =>
    if s.logAllows p e.cls 2 then
      ((s.core p).nextSlot 2).map fun slot => s.logAppend p slot (s.nextStepAt p) (handlerWords e)
    else none

/-- Entries of step `n` in the log of core `p`, by the slot of their first word. -/
def State.entriesOf (s : State) (p n : Nat) : List Nat :=
  ((s.core p).log.filter fun e => e.step == n && logKind (s.word p (logAt e.slot)) != kindArg).map (·.slot)

/-- Handler events that were logged for step `n` before it opened join its entries, and those not cut are injected (R272). -/
def State.openLogged (s : State) (p n : Nat) : State :=
  (s.entriesOf p n).foldl (fun t slot =>
    let st := logState (t.word p (logAt slot))
    let t1 := t.updCore p fun c => { c with ents := c.ents ++ (t.entAt p slot).map fun w => setFld w 28 2 0 }
    if st = lsPending then t1.presentEntry p slot n lsSent false else t1) s

end Sys2Proof.Machine
end

