-- ==== Sys2Proof/Machine/Neuron.lean ====
section
/-! DEFINITION. The neuron engine (03_neurons.md): one step of one lane-neuron, the integration of a core's
lane-neurons, deposits into delay rings, sleep and wake. -/
namespace Sys2Proof.Machine

/-! ### One step of one lane-neuron (R92 to R96) -/

/-- What the update of one lane-neuron gives. -/
structure NeuRes where
  w0 : Word
  w1 : Word
  /-- Value of the event, where it fires. -/
  event : Option Nat
  /-- The rescale of a non-zero slot: a sample of the channel's monitors. -/
  sample : Option RescOut
  overdrive : Bool
  vsat : Bool
  rinSlot : Bool
  rinMag : Nat
  deriving DecidableEq, Repr

/-- Leak (R93). -/
def leak (g : Grp) (v : Int) : Int :=
  if g.leakMode = 0 then v - rnd v g.leakK
  else if 0 < v then max (v - g.leakC) 0
  else if v < 0 then min (v + g.leakC) 0
  else 0

/-- What firing does to the membrane (R94): the new v, the count c, and whether the lane-neuron is overdriven. -/
def fireV (g : Grp) (v theta : Int) : Int × Nat × Bool :=
  match g.fire with
  | 0 => (g.vReset, 1, false)
  | 2 =>
    let q := (v / theta).toNat
    let c := min q 15
    let r := v - (c : Int) * theta
    if g.vMax < r then (g.vMax, c, true) else (r, c, decide (15 < q))
  | _ =>
    let r := v - theta
    if g.vMax < r then (g.vMax, 1, true) else (r, 1, false)

/-- A state record packed (R84). -/
def recWord0 (v a : Int) : Word := BitVec.ofNat 32 (low 16 a * 65536 + low 16 v)
def recWord1 (resv : Nat) (beyond fired spiked : Bool) (ref stamp : Nat) : Word :=
  BitVec.ofNat 32 (resv % 32 * 2 ^ 27 + b2n beyond * 2 ^ 26 + b2n fired * 2 ^ 25 + b2n spiked * 2 ^ 24
    + ref % 256 * 2 ^ 16 + stamp % 65536)

/-- A step whose number is a multiple of 16,384 sweeps stamps (R97). -/
def sweepStep (n : Nat) : Bool := n % 16384 == 0

/-- One lane-neuron of group `g` in step `n`, from its live record and its taken slot (R92). -/
def neuUpdate (g : Grp) (e : Resc) (n : Nat) (x0 x1 : Word) (cur : Nat) : NeuRes :=
  let stamp0 := fld x1 0 16
  let ref0 := fld x1 16 8
  let aged := sweepStep n && decide (32768 ≤ (n + 65536 - stamp0) % 65536)
  let spiked0 := tst x1 24 && !aged
  let ro : Option RescOut := if cur = 0 then none else some (rescale e (sx 24 cur))
  let u : Int := match ro with | some r => r.out | none => 0
  let v1 := leak g (sx 16 (fld x0 0 16))
  let wasRef := decide (0 < ref0)
  let vin := v1 + u
  let v2 := if wasRef then v1 else clamp vin (-32768) 32767
  let vsat := !wasRef && decide (v2 ≠ vin)
  let a0 := sx 16 (fld x0 16 16)
  let a1 := max (a0 - rnd a0 g.aShift) 0
  let theta := min (g.theta0 + a1) 32767
  let ignored := wasRef && decide (u ≠ 0)
  let rinSlot := ignored && g.rin == 1
  let rinMag := if ignored && g.rin == 2 then u.natAbs else 0
  let resv := fld x1 27 5
  if !wasRef && decide (theta ≤ v2) then
    let (v3, c, beyond) := fireV g v2 theta
    let a2 := min (a1 + (c : Int) * g.aInc) 32767
    { w0 := recWord0 v3 a2, w1 := recWord1 resv beyond true true g.refrac n,
      event := some (if g.fire = 2 then c else g.value), sample := ro, overdrive := beyond, vsat := vsat,
      rinSlot := rinSlot, rinMag := rinMag }
  else
    { w0 := recWord0 v2 a1, w1 := recWord1 resv false false spiked0 (if wasRef then ref0 - 1 else ref0) stamp0,
      event := none, sample := ro, overdrive := false, vsat := vsat, rinSlot := rinSlot, rinMag := rinMag }

/-! ### The integration of a core -/

/-- A record at rest: v = 0, a = 0, REF = 0 (R97). -/
def atRest (x0 x1 : Word) : Bool := x0 == 0 && fld x1 16 8 == 0

/-- The 64 lane-neurons of a block. -/
def blockLanes (b : Nat) : List Nat := (List.range 64).map fun j => 64 * b + j

/-- Key of a touched ring position (R97). -/
def touchKey (i r : Nat) : Nat := 32 * i + r

/-- Is block `b` of group `g` skipped in step `n` (R97)? -/
def State.skips (s : State) (p n : Nat) (g : Grp) (b : Nat) : Bool :=
  let c := s.core p
  s.bit (Reg.NEU_CTRL p) 1 && !(sweepStep n) &&
    (blockLanes b).all fun i =>
      atRest (s.word p (g.copyAt i (c.live b))) (s.word p (g.copyAt i (c.live b) + 4)) &&
        !(Store.get (fun _ => false) c.touched (touchKey i (n % g.depth)))

/-- Lane-neurons of core `p` to integrate in step `n`, in increasing order, each with its group. -/
def State.toIntegrate (s : State) (p n : Nat) : List (Nat × Grp) :=
  let gs := s.grps p
  (List.range 64).flatMap fun b =>
    match gs.find? (·.owns (64 * b)) with
    | none => []
    | some g => if s.skips p n g b then [] else (blockLanes b).map fun i => (i, g)

/-- The slot of step `n` of one lane-neuron is taken into the current-slot array (R86). -/
def State.takeSlot (s : State) (p n : Nat) (ig : Nat × Grp) : State :=
  let r := n % ig.2.depth
  let s0 := s.stepRead p (ig.2.ringAt ig.1 r) 3
  let v := s0.num p (ig.2.ringAt ig.1 r) 3
  let s1 := (s0.stepNum p (slotAt ig.1) 3 v).setNum p (ig.2.ringAt ig.1 r) 3 0
  s1.updCore p fun c => { c with touched := Store.set (fun _ => false) c.touched (touchKey ig.1 r) false }

/-- What the update of a lane-neuron leaves in the core's record. -/
def Core.integrated (c : Core) (i ch : Nat) (r : NeuRes) : Core :=
  { c with
    integ := c.integ ++ [i]
    blocks := if c.blocks / 2 ^ (i / 64) % 2 = 1 then c.blocks else c.blocks + 2 ^ (i / 64)
    mons := match r.sample with
      | none => c.mons
      | some o => Store.set (fun _ => Mon.none) c.mons ch ((Store.get (fun _ => Mon.none) c.mons ch).sample o)
    counts := { overdrive := c.counts.overdrive + b2n r.overdrive, vsat := c.counts.vsat + b2n r.vsat,
                rinSlots := c.counts.rinSlots + b2n r.rinSlot, rinMag := c.counts.rinMag + r.rinMag,
                fired := c.counts.fired + b2n r.event.isSome, integrated := c.counts.integrated + 1 } }

/-- A result as the fault leaves it. -/
def NeuFault.on (b : NeuFault) (i : Nat) (r : NeuRes) : NeuRes :=
  if i = b.lane then { r with w0 := r.w0 ^^^ b.flip, event := r.event.map fun v => Nat.xor v (b.value % 256) } else r

/-- The update of lane-neuron `i` of core `q` in step `n`, its event not yet emitted: the result and the state with
the shadow written. -/
def State.neuLane (s : State) (q n : Nat) (bad : NeuFault) (i : Nat) (g : Grp) : NeuRes × State :=
  let lv := (s.core q).live (i / 64)
  let s0 := (s.stepRead q (g.copyAt i lv) 8).stepRead q (slotAt i) 3
  let r := bad.on i (neuUpdate g (s0.resc q g.channel) n (s0.word q (g.copyAt i lv)) (s0.word q (g.copyAt i lv + 4))
    (s0.num q (slotAt i) 3))
  let s1 := s0.setNum q (g.copyAt i (1 - lv)) 8 (r.w0.toNat + 2 ^ 32 * r.w1.toNat)
  (r, s1.updCore q fun c => c.integrated i g.channel r)

/-- Lane-neurons with the groups that own them. -/
def State.withGroups (s : State) (p : Nat) (l : List Nat) : List (Nat × Grp) :=
  let gs := s.grps p
  l.filterMap fun i => (gs.find? (·.owns i)).map fun g => (i, g)

/-- Lane-neurons of step `n` integrated in order, `rest` left for later. `take` says that the slots are taken on the way.
The first that finds no log entry it may use stalls the engine: it and all after it are left to do, their slots taken at
once (08_step_commit.md R277). -/
def State.integrate (s : State) (p n : Nat) (take : Bool) (rest : List Nat) : List (Nat × Grp) → State
  | [] => s.updCore p fun c => { c with neuTodo := rest, neuTake := if take then rest else [] }
  | (i, g) :: more =>
    let s0 := if take then s.takeSlot p n (i, g) else s
    let (r, s1) := s0.neuLane p n (s.core p).neuBad i g
    match r.event with
    | none => s1.integrate p n take rest more
    | some v =>
      match s1.emit p n (1 - g.cls) [neuronWord v i] with
      | some s2 => s2.integrate p n take rest more
      | none =>
        let left := (i, g) :: more ++ s.withGroups p rest
        let s3 := if take then left.foldl (fun t ig => t.takeSlot p n ig) s else s
        s3.updCore p fun c => { c with neuTodo := left.map (·.1), neuTake := [] }

/-- The same on a core that runs a replay: entries are logged and nothing is injected (10_integrity.md R355). -/
def State.integrateSilent (s : State) (q n : Nat) (bad : NeuFault) : List (Nat × Grp) → State
  | [] => s
  | (i, g) :: rest =>
    let (r, s1) := s.neuLane q n bad i g
    let s2 := match r.event with
      | none => s1
      | some v => s1.logSilent q n [neuronWord v i]
    s2.integrateSilent q n bad rest

/-- NEU_STATUS set: STATE, PTR and SWEEP (R105). -/
def State.neuStatus (s : State) (p st ptr : Nat) (sweep : Bool) : State :=
  s.wr (Reg.NEU_STATUS p) (BitVec.ofNat 32 (ptr % 8192 * 65536 + b2n sweep * 256 + st % 4))

def nsIdle : Nat := 0
def nsIntegrating : Nat := 1
def nsAsleep : Nat := 2

/-- The engine goes on by at most `m` lane-neurons (R92). -/
def State.sweepOn (s : State) (p n m : Nat) : State :=
  let c := s.core p
  let s1 := (s.integrate p n (!c.neuTake.isEmpty) (c.neuTodo.drop m) (s.withGroups p (c.neuTodo.take m))).stallShow p
  s1.neuStatus p nsIntegrating (match (s1.core p).neuTodo with | [] => 4096 | i :: _ => i) (sweepStep n)

/-! ### Sleep and wake -/

/-- A gated core wakes (R103). -/
def State.wake (s : State) (p : Nat) : State :=
  if (s.core p).gated then
    let s1 := (s.updCore p fun c => { c with gated := false }).count (Reg.NEU_WAKES p) 1
    s1.wf' (Reg.NEU_STATUS p) 0 2 nsIdle
  else s

/-- What R102 requires before a core clock-gates. -/
def State.mayGate (s : State) (p : Nat) : Bool :=
  let c := s.core p
  s.logicOn p && s.bit (Reg.NEU_CTRL p) 0 && !c.gated && c.openComing == none &&
    (c.openStep == none || c.spanEnded) && c.synQ.isEmpty && c.deferred.isEmpty &&
    s.rf (Reg.SYN_STATUS p) 16 8 == 0 && c.dns == none && c.dnsSteps.isEmpty && c.dnsQ.isEmpty &&
    (s.rf (Reg.HDL_STATUS p) 29 3 == hsIdle || s.rf (Reg.HDL_STATUS p) 29 3 == hsHalted) &&
    c.queues.all fun q => q.2.entries.isEmpty

/-! ### Deposits -/

/-- A product added to ring position `r` of a lane-neuron (02_arithmetic.md R57). -/
def State.addRing (s : State) (p i : Nat) (g : Grp) (r : Nat) (d : Int) : State :=
  let a := g.ringAt i r
  (s.stepNum p a 3 (a24Add (s.num p a 3) d)).updCore p fun c =>
    { c with touched := Store.set (fun _ => false) c.touched (touchKey i r) true }

/-- A deposit of delay `dly` from lane `l` to neuron `j` of a group, in the step at the core (R88, R90, R98): with
d = D - 1 it waits until the slot has been taken. -/
def State.deposit (s : State) (p : Nat) (g : Grp) (l j dly : Nat) (d : Int) : State :=
  let fold := decide (g.lanes ≤ l)
  let i := g.lane (if fold then l % g.lanes else l) j
  let s1 := if fold then s.count (Reg.NEU_LANE_FOLD p) 1 else s
  let r := (s.stepAt p + 1 + dly) % g.depth
  if dly + 1 = g.depth ∧ ((s.core p).openStep = none ∨ (s.core p).neuTake.contains i = true) then
    s1.updCore p fun c => { c with deferred := c.deferred ++ [⟨i, r, d, 0, 0⟩] }
  else s1.addRing p i g r d

/-! ### The commands -/

/-- A packet, an open indication or a due channel stands at core `p` (R103). Sources: 0 a packet, 1 a step-open
indication, 2 a compare channel, 3 a descriptor. -/
def State.wakeSource (s : State) (p src : Nat) : Bool :=
  match src with
  | 0 => !((s.core p).synQ.isEmpty) || s.net.any (fun f => f.place == .core p)
  | 1 => (s.core p).openComing != none
  | 2 => (List.range 4).any fun c =>
      let b := chKey (coreCh p c)
      s.rf (b + 4) 30 2 == 2 && decide ((s.corePtb + 2 ^ 64 - s.rd64 (b + 8)) % 2 ^ 64 < 2 ^ 63)
  | _ => s.net.any fun f => f.place == .core p && (match f.body with | .loadWrite .. => true | .loadRead .. => true | _ => false)

/-- STEP_OPEN_INDICATION: the core clears its monitors, injects the handler events that were logged for the step
(08_step_commit.md R272), and starts on its lane-neurons (R92). `lane`, `flip` and `value` are a fault of the engine in
the step. -/
def execStepOpenIndication (p lane : Nat) (flip : Word) (value : Nat) (s : State) : Host.Outcome State Fault Refusal :=
  match (s.core p).openComing with
  | none => .next s
  | some n =>
    let s1 := s.wake p
    let todo := (s1.toIntegrate p n).map (·.1)
    let s2 := s1.updCore p fun c => { c with
      openComing := none, openStep := some n, spanEnded := false, declared := false, neuTodo := todo, neuTake := todo,
      neuBad := ⟨lane, flip, value⟩, integ := [], blocks := 0, mons := [], counts := ⟨0, 0, 0, 0, 0, 0⟩, ents := [], flags := 0 }
    .next ((s2.openLogged p n).neuStatus p nsIntegrating (match todo with | [] => 4096 | i :: _ => i) (sweepStep n))

/-- DEFERRED_DEPOSIT: the oldest waiting deposit of the core completes once its slot has been taken (R90). -/
def execDeferredDeposit (p : Nat) (s : State) : Host.Outcome State Fault Refusal :=
  match (s.core p).openStep, (s.core p).deferred with
  | some _, d :: rest =>
    if (s.core p).neuTake.contains d.lane then .next s
    else
      let s1 := (s.updCore p fun c => { c with deferred := rest }).count (Reg.NEU_DEFER p) 1
      let s2 := match s1.grpOf p d.lane with | none => s1 | some g => s1.addRing p d.lane g d.pos d.value
      .next (if d.ej = 0 then s2 else s2.ej (p / 144) d.parity d.ej)
  | _, _ => .next s

/-- CORE_CLOCK_GATE: a core whose units are all idle gates its core logic (R102). -/
def execCoreClockGate (p : Nat) (s : State) : Host.Outcome State Fault Refusal :=
  if s.mayGate p then .next ((s.updCore p fun c => { c with gated := true }).wf' (Reg.NEU_STATUS p) 0 2 nsAsleep)
  else .next s

/-- CORE_WAKE: a gated core wakes and resumes (R103). -/
def execCoreWake (p src : Nat) (s : State) : Host.Outcome State Fault Refusal :=
  if s.wakeSource p src then .next (s.wake p) else .next s

end Sys2Proof.Machine
end

