-- ==== Sys2Proof/Machine/PowerOps.lean ====
section
/-! DEFINITION. Power domains: their registers, what depends on what, and how a domain is asked to change state
(13_memory_power.md R471 to R477, R482, R483); the banks of local memory and their owners (R465 to R469, R485). -/
namespace Sys2Proof.Machine

/-- The power domains that have registers (R471, R482). -/
inductive Dom where
  | logic (p : Nat) | mem (p : Nat) | router (p : Nat) | sync (g : Nat) | pls (g : Nat)
  | hbm (st : Nat) | evp (e : Nat) | pcie (n : Nat) | phase
  deriving DecidableEq, Repr

/-- Key of PWR_CTRL of a domain (R483). -/
def Dom.base : Dom → Nat
  | .logic p => coreReg p 0xE00
  | .mem p => coreReg p 0xE10
  | .router p => coreReg p 0xE20
  | .sync g => groveReg g 0xC4000
  | .pls g => groveReg g 0xC4010
  | .hbm st => 0x9000000 + 0x10 * st
  | .evp e => 0x9000040 + 0x10 * e
  | .pcie n => 0x9000060 + 0x10 * n
  | .phase => 0x90000A0

/-- The domain whose four registers hold a set-up address (R483). -/
def Dom.ofAddr (addr : Nat) : Option Dom :=
  match locate addr with
  | some (.core p, o) =>
    if 0xE00 ≤ o ∧ o < 0xE10 then some (.logic p) else if 0xE10 ≤ o ∧ o < 0xE20 then some (.mem p)
    else if 0xE20 ≤ o ∧ o < 0xE30 then some (.router p) else none
  | some (.grove g, o) =>
    if 0xC4000 ≤ o ∧ o < 0xC4010 then some (.sync g) else if 0xC4010 ≤ o ∧ o < 0xC4020 then some (.pls g) else none
  | some (.pwr, o) =>
    if o < 0x40 then some (.hbm (o / 16)) else if o < 0x60 then some (.evp ((o - 0x40) / 16))
    else if o < 0xA0 then some (.pcie ((o - 0x60) / 16)) else if o < 0xB0 then some .phase else none
  | _ => none

/-- Does the part have the domain (R471)? The domains of a DEFECT core have their registers (R33). -/
def Fuses.hasDom (f : Fuses) : Dom → Bool
  | .logic p => decide (p < 9216)
  | .mem p => decide (p < 9216)
  | .router p => decide (p < 9216)
  | .sync g => decide (g < 64)
  | .pls g => f.pls && decide (g < 64)
  | .hbm st => f.hasStack st
  | .evp e => e == 0 || (e == 1 && f.eth2)
  | .pcie n => decide (n < 4)
  | .phase => f.phase

/-- Domains that support RETENTION (R478). -/
def Dom.retains : Dom → Bool
  | .evp _ => false
  | .pcie _ => false
  | _ => true

/-- What a domain depends on (R473). -/
def Dom.needs : Dom → List Dom
  | .logic p => [.mem p, .router p, .sync (p / 144)]
  | .pls g => [.sync g]
  | _ => []

/-- The domains that depend on a domain (R473). -/
def Dom.neededBy : Dom → List Dom
  | .mem p => [.logic p]
  | .router p => [.logic p]
  | .sync g => .pls g :: (coresOf g).map .logic
  | _ => []

/-- PWR_STATUS.STATE values (R482). -/
def pwOn : Nat := 0
def pwRet : Nat := 1
def pwOff : Nat := 2
def pwEntering : Nat := 3
def pwWaking : Nat := 4
def pwAborting : Nat := 5

def State.pw (s : State) (d : Dom) : Nat := s.pwr d.base
def State.domOn (s : State) (d : Dom) : Bool := s.pw d == pwOn
def State.setPw (s : State) (d : Dom) (st : Nat) : State := s.wf' (d.base + 4) 29 3 st

def State.stage (s : State) (d : Dom) : Option (Nat × Nat) := Store.get (fun _ => none) s.pwrStage d.base
def State.setStage (s : State) (d : Dom) (v : Option (Nat × Nat)) : State :=
  { s with pwrStage := Store.set (fun _ => none) s.pwrStage d.base v }

/-- The request a domain in transit holds: REQ + 1, or 0 (R476). -/
def State.heldReq (s : State) (d : Dom) : Nat := Store.get (fun _ => 0) s.pwrHeld d.base
/-- A request held or dropped; HELD shows one held for the end of the transition. -/
def State.holdReq (s : State) (d : Dom) (v : Nat) (shown : Bool) : State :=
  { s with pwrHeld := Store.set (fun _ => 0) s.pwrHeld d.base v }.wf' (d.base + 4) 22 1 (b2n shown)

/-- Were the contents of a domain that is not ON lost to OFF? -/
def State.lost (s : State) (d : Dom) : Bool :=
  s.pw d == pwOff || (match s.stage d with | some (_, x) => decide (2 ≤ x) | none => false)

/-- A stack marked in its status (04_synapses_dense.md R153): 0 OFF, 1 TRAINING, 2 READY, 3 FAILED. -/
def State.setStack (s : State) (st v : Nat) : State := s.wf' (Reg.MEM_HBM_STATUS st) 2 2 v

/-- A wake begins (R478): from OFF a stack trains; its status shows TRAINING from the start of the wake. -/
def State.beginWake (s : State) (d : Dom) : State :=
  let lost := s.lost d
  let s1 := (s.setPw d pwWaking).setStage d (some (0, if lost then 2 else 1))
  match d with
  | .hbm st => if lost then s1.setStack st 1 else s1
  | _ => s1

/-- ON asked of one domain, its REQ written (R474 to R477). A FAILED stack stays as it is until the next power-up. -/
def State.askOn1 (s : State) (d : Dom) : State :=
  let s1 := s.wf' d.base 0 2 0
  let failed := match d with | .hbm st => s.stackState st == 3 | _ => false
  if failed then s1
  else if s.pw d = pwRet ∨ s.pw d = pwOff then s1.beginWake d
  else if s.pw d = pwEntering then
    s1.holdReq d 1 (match s.stage d with | some (n, _) => n == 4 | none => false)
  else s1.holdReq d 0 false

/-- ON asked of a domain: everything it depends on wakes with it, in parallel (R473). -/
def State.powerOn (s : State) (d : Dom) : State :=
  if s.fuses.hasDom d then (d.needs.foldl (fun t e => t.askOn1 e) s).askOn1 d else s

/-- Entry into a target state begins at stage 1; a core memory waits for its core logic where that is ENTERING
(R473, R477). -/
def State.beginEntry (s : State) (d : Dom) (target : Nat) : State :=
  let waits := match d with | .mem p => s.pw (.logic p) == pwEntering | _ => false
  (s.setPw d pwEntering).setStage d (some (if waits then 0 else 1, target + (if s.lost d then 4 else 0)))

/-- RETENTION (1) or OFF (2) asked of a domain, its REQ written; held where the domain is in transit (R476). -/
def State.askDown (s : State) (d : Dom) (target : Nat) : State :=
  let s1 := s.wf' d.base 0 2 target
  if s.pw d = target then s1
  else if s.pw d = pwOn ∨ s.pw d = pwRet ∨ s.pw d = pwOff then s1.beginEntry d target
  else s1.holdReq d (target + 1) true

/-- The core logic and core memory of a core that the device takes for a replay, a test or a role go ON (R475). -/
def State.wakeCore (s : State) (p : Nat) : State := s.powerOn (.logic p)

/-- Both domains of a core ON. -/
def State.coreOn (s : State) (p : Nat) : Bool := s.memOn p && s.logicOn p

/-! ### Attachments -/

/-- An attachment reaches the device: its link is up and start-up is complete, without which its BARs do not respond
(15_startup_pins.md R540). -/
def State.busUp (s : State) (a : Nat) : Bool := (s.att a).linkUp && s.pins.devReady

/-! ### Memory banks (R465 to R469) -/

/-- Owners of a bank (R465). -/
def ownCore : Nat := 0
def ownLoader : Nat := 1
def ownTest : Nat := 2
def ownMgmt : Nat := 3

def State.bankOwner (s : State) (p b : Nat) : Nat := s.rf (Reg.MEM_BANK_OWNER p b) 30 2

/-- The owner a bank has or is about to have. -/
def State.nextOwner (s : State) (p b : Nat) : Nat :=
  match (s.core p).handover.find? (·.1 == b) with
  | some x => x.2
  | none => s.bankOwner p b

/-- May the agents of an owner reach bank `b` of core `p`? While a handover waits, the old owner's may not any more and the new
one's not yet (R465, R467). -/
def State.bankFor (s : State) (p b own : Nat) : Bool := s.bankOwner p b == own && s.nextOwner p b == own

/-- MEM_BANK_STATUS: the bank and the result of the last handover write (R485). -/
def State.bankResult (s : State) (p b r : Nat) : State := s.wr (Reg.MEM_BANK_STATUS p) (BitVec.ofNat 32 (r * 2 ^ 30 + b % 16 * 2 ^ 16))

/-- Bank `b` of core `p` handed to a new owner: TOKEN moves on, PENDING stands until the change is in effect, and the write's result is
DONE, whoever wrote (R466, R467, R485). -/
def State.handBank (s : State) (p b own : Nat) : State :=
  let r := Reg.MEM_BANK_OWNER p b
  let s1 := (s.wf' r 0 16 (s.rf r 0 16 + 1)).wf' r 29 1 1
  (s1.updCore p fun c => { c with handover := c.handover.filter (·.1 != b) ++ [(b, own)] }).bankResult p b 0

/-- An accepted handover in effect (R467). -/
def State.bankEffect (s : State) (p b : Nat) : State :=
  match (s.core p).handover.find? (·.1 == b) with
  | none => s
  | some x =>
    let r := Reg.MEM_BANK_OWNER p b
    ((s.wf' r 30 2 x.2).wf' r 29 1 0).updCore p fun c => { c with handover := c.handover.filter (·.1 != b) }

/-- A bank that no agent accesses handed over by the device, at once in effect (R466, R467). -/
def State.moveBank (s : State) (p own b : Nat) : State := (s.handBank p b own).bankEffect p b

/-- Every bank of core `p` handed over by the device. -/
def State.moveBanks (s : State) (p own : Nat) : State := (List.range 16).foldl (State.moveBank · p own) s

/-- Banks that `n` bytes at `off` touch. -/
def banksOf (off n : Nat) : List Nat := (List.range 16).filter fun b => decide (off < 0x4000 * (b + 1)) && decide (0x4000 * b < off + n)

end Sys2Proof.Machine
end

