-- ==== Sys2Proof/Machine/Strike.lean ====
section
/-! DEFINITION. Strikes and the fence of a core (10_integrity.md R364, R365, R557). -/
namespace Sys2Proof.Machine

/-- The step a strike on core `p` counts in. -/
def State.strikeStep (s : State) (p : Nat) : Nat :=
  match (s.core p).openStep, s.partOf (p / 144) with
  | some n, _ => n
  | none, some k => match (s.part k).openStep with | some n => n | none => (s.rd (Reg.STEP_COMMITTED k)).toNat
  | none, none => 0

/-- Strikes of a core still counted at step `n`, this one with them: those less than 2^20 steps old (R364). -/
def State.strikesIn (s : State) (p n : Nat) : Nat :=
  let kept := s.rf (Reg.INT_CORE_STATUS p) 0 2
  let near (w : Word) : Nat := b2n (decide ((n + 2 ^ 32 - w.toNat) % 2 ^ 32 < 2 ^ 20))
  match kept with
  | 0 => 1
  | 1 => 1 + near (s.rd (Reg.INT_STRIKE_STEP1 p))
  | _ => 1 + near (s.rd (Reg.INT_STRIKE_STEP1 p)) + near (s.rd (Reg.INT_STRIKE_STEP0 p))

/-- An entry of the step record of partition `k` (08_step_commit.md R281). -/
def State.recEntry (s : State) (k kind logical body : Nat) : State :=
  s.updPart k fun q => { q with recEnts := q.recEnts ++ [⟨kind, logical, body⟩] }

def recScale : Nat := 0
def recCheck : Nat := 1
def recFence : Nat := 2
def recRound : Nat := 3

/-- The CHECK entry of a failed verdict, with INT_GRV_LAST (R362, R379). `sapling` is the first sapling used, 0x3FFF
for none. -/
def State.checkEntry (s : State) (g finding outcome sapling suspect : Nat) : State :=
  let s1 := s.wr (Reg.INT_GRV_LAST g) (BitVec.ofNat 32 (outcome % 16 * 2 ^ 28 + finding % 16 * 2 ^ 24 + suspect % 2 ^ 13))
  match s.partOf g with
  | some k => s1.recEntry k recCheck suspect (finding % 16 * 2 ^ 24 + outcome % 16 * 2 ^ 20 + sapling % 2 ^ 14)
  | none => s1

/-- Outcomes of a failed verdict (R362). -/
def outOriginal : Nat := 0
def outReplay : Nat := 1
def outTwin : Nat := 2
def outRepaired : Nat := 3
def outResumed : Nat := 4
def outUnresolved : Nat := 5

/-- Grove `g` holds commit (R43): a step held is counted once (08_step_commit.md R299, R301), and a step whose verdicts are
awaited reads HELD (R300). -/
def State.holdGrove (s : State) (g : Nat) : State :=
  let s0 := (s.wf' (Reg.STEP_GROVE_STATUS g) 31 1 1).updGrove g fun v => { v with held := true, heldCount := true }
  let s1 := if (s.grove g).heldCount then s0 else s0.count (Reg.STEP_GROVE_HOLDS g) 1
  match s.partOf g with
  | none => s1
  | some k =>
    let s2 := if s1.rf (Reg.STEP_STATE k) 28 4 = ssChecking then s1.stepState k ssHeld else s1
    if (s.part k).heldFlag then s2
    else (s2.updPart k fun q => { q with heldFlag := true }).count (Reg.STEP_HELD k) 1

/-- Grove `g` holds commit no longer: once no grove of the partition does, STEP_STATE shows again where the step is (08_step_commit.md
R300). -/
def State.unholdGrove (s : State) (g : Nat) : State :=
  let s1 := (s.wf' (Reg.STEP_GROVE_STATUS g) 31 1 0).updGrove g fun v => { v with held := false }
  match s.partOf g with
  | none => s1
  | some k =>
    let q := s.part k
    if s1.rf (Reg.STEP_STATE k) 28 4 ≠ ssHeld ∨ ((s.grovesOf k).any fun h => (s1.grove h).held) = true then s1
    else s1.stepState k (if q.roundAsked then ssRound else if q.delivered then ssChecking else ssOpen)

def strikeRejected : Nat := 1
def strikeRepaired : Nat := 2
def strikeDGrv : Nat := 3
def strikePair : Nat := 4
def strikeChunk : Nat := 5
def strikeSapling : Nat := 6

/-- A SAPLING (or a core that runs a replay) becomes FENCED at once (R365). -/
def State.fenceSapling (s : State) (p count : Nat) : State :=
  let s1 := ((s.setRole p roleFenced 0).mapEvent).report fltFence
    { part := s.partOf (p / 144), core := some p, grove := some (p / 144), detail := [count, 0x3FFF] }
  s1.noteSaplings (p / 144)

/-- A strike against physical core `p` (R364): reported with its source, its step retained; a third within 2^20 steps
fences the core, an ACTIVE one at the commit of the step. -/
def State.strike (s : State) (p source : Nat) : State :=
  let n := s.strikeStep p
  let kept := s.rf (Reg.INT_CORE_STATUS p) 0 2
  let cnt := s.strikesIn p n
  let third := kept == 2 && decide ((n + 2 ^ 32 - (s.rd (Reg.INT_STRIKE_STEP0 p)).toNat) % 2 ^ 32 < 2 ^ 20)
  let s1 := (s.count (Reg.INT_STRIKES p) 1).report fltStrike
    { s.coreKeys p [cnt, source] with step := some n }
  let s2 := (s1.wr (Reg.INT_STRIKE_STEP0 p) (s1.rd (Reg.INT_STRIKE_STEP1 p))).wr (Reg.INT_STRIKE_STEP1 p) (BitVec.ofNat 32 n)
  let s3 := s2.wf' (Reg.INT_CORE_STATUS p) 0 2 (min 2 (kept + 1))
  if third then
    if s3.role p = roleActive then s3.updCore p fun c => { c with fencePending := true }
    else s3.fenceSapling p 3
  else s3

end Sys2Proof.Machine
end

