-- ==== Sys2Proof/Machine/Synapse.lean ====
section
/-! DEFINITION. The synapse engine (04_synapses_dense.md): input windows, rows, blocks and deposits; and the grove
memory unit with its cache, its row requests and its HBM reads. -/
namespace Sys2Proof.Machine

/-! ### Rows and blocks -/

/-- A row header (R112). -/
structure RowHdr where
  rowsum : Int
  key : Nat
  fslot : Nat
  nblk : Nat
  reserved : Bool
  crc : Nat
  deriving DecidableEq, Repr

/-- The 16 bytes of a row header, split (R112). -/
def rowHdrOf (bs : List Byte) : RowHdr :=
  let x := ofBytes bs
  { rowsum := sx 32 (nfld x 0 32), key := nfld x 32 28, fslot := nfld x 60 4, nblk := nfld x 64 16,
    reserved := nfld x 80 16 != 0, crc := nfld x 96 32 }

/-- Bytes of a block's weight area (R114). -/
def weightArea (wfmt : Nat) : Nat :=
  match wfmt with | 0 => 8 | 1 => 16 | 2 => 16 | 3 => 28 | _ => 32

/-- Bytes of a block (R114). -/
def blockSize (wfmt : Nat) : Nat := 8 + weightArea wfmt

/-- A block header (R113). -/
structure BlkHdr where
  grp : Nat
  dly : Nat
  count : Nat
  tbase : Nat
  rank : Nat
  e0 : Nat
  e1 : Nat
  reserved : Bool
  deriving DecidableEq, Repr

/-- The 8 bytes of a block header, split (R113). -/
def blkHdrOf (bs : List Byte) : BlkHdr :=
  let x := ofBytes bs
  { grp := nfld x 5 4, dly := nfld x 9 5, count := nfld x 14 6, tbase := nfld x 20 12, rank := nfld x 40 8,
    e0 := nfld x 48 8, e1 := nfld x 56 8, reserved := nfld x 0 5 != 0 || nfld x 32 8 != 0 }

/-- Code of element `k` of a packed area, given as a number (02_arithmetic.md R53). -/
def packedCode (f : FmtSlot) (area : Nat) (k : Nat) : Nat :=
  nfld area (32 * (k / codesPerWord f.wfmt) + k % codesPerWord f.wfmt * codeBits f.wfmt) (codeBits f.wfmt)

/-- Scale byte of element `k` of a block. -/
def BlkHdr.scale (h : BlkHdr) (k : Nat) : Nat := if k < 32 then h.e0 else h.e1

/-- Shift of element `k` of a block: 0 unless the format is X4 (R52, R115). -/
def blockShift (f : FmtSlot) (h : BlkHdr) (k : Nat) : Nat := if f.wfmt = 7 then x4Shift f (h.scale k) else 0

/-- Operand of element `k` in the domain of R60: the decoded code with its X4 shift applied. -/
def blockOperand (f : FmtSlot) (h : BlkHdr) (area k : Nat) : Int :=
  product (weightOperand f (packedCode f area k)) 1 (blockShift f h k)

/-- Non-canonical codes and clamped groups of a block's present elements, for CORE_FMT_ODD (R50, R52). -/
def blockOdd (f : FmtSlot) (h : BlkHdr) (area : Nat) : Nat :=
  ((List.range (h.count + 1)).filter fun k => oddCode f (packedCode f area k)).length
    + b2n (oddScale f h.e0) + b2n (decide (31 < h.count) && oddScale f h.e1)

/-- Sum of the operands of a block's present elements (R116). -/
def blockSum (f : FmtSlot) (bs : List Byte) : Int :=
  let h := blkHdrOf bs
  let area := ofBytes (bs.drop 8)
  (List.range (h.count + 1)).foldl (fun acc k => acc + blockOperand f h area k) 0

/-- The blocks of a row, laid out back to back (R112). -/
def rowBlocks (f : FmtSlot) (nblk : Nat) (bs : List Byte) : List (List Byte) :=
  (List.range nblk).map fun b => (bs.drop (b * blockSize f.wfmt)).take (blockSize f.wfmt)

/-- CRC-32C of a row: header bits 95:0 and all blocks (R112). -/
def rowCrc (hdr : List Byte) (blocks : List Byte) : Nat := crc c32c (hdr.take 12 ++ blocks)

/-- Conditions of R117 on a block, with the enabled groups of the core it is for; `rank` is what RANK must be. The group where
it passes. -/
def blockFits (groups : List Grp) (h : BlkHdr) (f : FmtSlot) (tgt dmax rank : Nat) : Option Grp :=
  match groups.find? fun g => g.idx == h.grp with
  | none => none
  | some g =>
    if tgt / 2 ^ h.grp % 2 = 1 ∧ h.tbase + h.count < g.n ∧ h.dly < g.depth ∧ h.dly ≤ dmax ∧ h.reserved = false ∧
        h.rank = rank ∧ f.ok = true then some g
    else none

/-- The group of a block that core `p` decodes (R117). -/
def State.blockGroup (s : State) (p : Nat) (h : BlkHdr) (f : FmtSlot) (tgt dmax rank : Nat) : Option Grp :=
  blockFits (s.grps p) h f tgt dmax rank

/-- FLT_ROW_FORMAT recorded for core `p` and a window (8: none), and marked in the core's report (R117, R118). -/
def State.rowFormat (s : State) (p window : Nat) : State :=
  (s.report fltRowFormat (s.coreKeys p [window])).flag p flagRow

/-- The products of one block: deposits, the receiving sum, SYN_OPS and CORE_FMT_ODD (R123). `lanes` are the lanes
with their operands, already negated for a retraction; `err` is what a faulty first array added to the first product
(10_integrity.md R342). `sum` is R_LOC or R_GRV of the parity. -/
def State.applyBlock (s : State) (p : Nat) (g : Grp) (f : FmtSlot) (bs : List Byte) (lanes : List (Nat × Int))
    (par sum : Nat) (err : Int) : State :=
  let h := blkHdrOf bs
  let area := ofBytes (bs.drop 8)
  let ks := List.range (h.count + 1)
  let s1 := ks.foldl (fun t k =>
    let w := weightOperand f (packedCode f area k)
    let sh := blockShift f h k
    lanes.foldl (fun t la =>
      let d := product w la.2 sh + (if k = 0 ∧ lanes.head? = some la then err else 0)
      (t.deposit p g la.1 (h.tbase + k) h.dly d).updCore p fun c => c.addSum par sum d) t) s
  ((s1.count64 (Reg.SYN_OPS_LO p) (ks.length * lanes.length)).count (Reg.CORE_FMT_ODD p) (blockOdd f h area))

/-- What a disagreement of the two multiplier arrays costs (10_integrity.md R342): 1 the group is formed again, 2 it
is decided two of three, 3 all three differ. From 4 up the arrays agree on a wrong value, and nothing notices here. -/
def State.pairFault (s : State) (p pair : Nat) : State :=
  match pair with
  | 0 => s
  | 1 => s.count (Reg.INT_PAIR_MISS p) 1
  | 2 => (s.count (Reg.INT_PAIR_MISS p) 1).strike p strikePair
  | 3 => (s.count (Reg.INT_PAIR_MISS p) 1).flag p flagPair
  | _ => s

/-- The error that reaches the sums: where all three formations differ, when the first array's value is taken, and where
the arrays agree on a wrong value. -/
def pairErr (pair : Nat) (err : Word) : Int := if pair < 3 then 0 else err.toInt

/-! ### Input windows -/

/-- An input window (R148). -/
structure Win where
  idx : Nat
  base : Nat
  count : Nat
  grove : Bool
  dmax : Nat
  tgt : Nat
  dir : Nat
  ext : Nat
  deriving DecidableEq, Repr

def State.win (s : State) (p w : Nat) : Win :=
  { idx := w, base := s.rf (Reg.SYN_WIN_KEY p w) 0 28, count := s.rf (Reg.SYN_WIN_CNT p w) 0 21,
    grove := s.bit (Reg.SYN_WIN_CFG p w) 31, dmax := s.rf (Reg.SYN_WIN_CFG p w) 16 5,
    tgt := s.rf (Reg.SYN_WIN_CFG p w) 0 16, dir := (s.rd (Reg.SYN_WIN_DIR p w)).toNat,
    ext := (s.rd (Reg.SYN_WIN_EXT p w)).toNat }

/-- Enabled windows of core `p`. -/
def State.wins (s : State) (p : Nat) : List Win :=
  ((List.range 8).filter fun w => s.bit (Reg.SYN_WIN_KEY p w) 31).map fun w => s.win p w

/-- The window a key matches (R118). -/
def State.winOf (s : State) (p key : Nat) : Option Win :=
  (s.wins p).find? fun w => decide (w.base ≤ key) && decide (key < w.base + w.count)

/-- A directory entry (R119), as a 64-bit number. -/
def dirAddr (e : Nat) : Nat := nfld e 0 32
def dirReserved (e : Nat) : Bool := nfld e 32 31 != 0
def dirValid (e : Nat) : Bool := nfld e 63 1 == 1

/-- Bytes of a row of `nblk` blocks. -/
def rowLen (f : FmtSlot) (nblk : Nat) : Nat := 16 + nblk * blockSize f.wfmt

/-- Row conditions of R117 for a LOCAL window: the row's offset, header and format where it passes. -/
def State.localRow (s : State) (p : Nat) (w : Win) (key e : Nat) : Option (Nat × RowHdr × FmtSlot) :=
  let a := dirAddr e
  let off := a % 2 ^ 18
  let h := rowHdrOf (s.bytes p off 16)
  let f := s.fmtSlot p h.fslot
  if dirReserved e = false ∧ a < 2 ^ 18 ∧ off % 16 = 0 ∧ h.key = key ∧ h.reserved = false ∧ f.wfmt < 8 ∧
      w.dir ≤ off ∧ off + rowLen f h.nblk ≤ w.dir + w.ext then some (off, h, f)
  else none

/-- A LOCAL row processed for a group of events (R123). `pair` and `err` are a fault of the multiplier arrays in the first
product that is formed (10_integrity.md R342). -/
def State.localGroup (s : State) (p : Nat) (w : Win) (evs : List Ev) (pair : Nat) (err : Word) : State :=
  match evs with
  | [] => s
  | e0 :: _ =>
    let da := w.dir + 8 * (e0.key - w.base)
    let s0 := s.stepRead p da 8
    let e := s0.num p da 8
    if !(dirValid e) then s0.count (Reg.SYN_NULL p) evs.length
    else
      let sh := s0.stepRead p (dirAddr e % 2 ^ 18) 16
      match sh.localRow p w e0.key e with
      | none => (sh.count (Reg.SYN_BAD_ROW p) 1).rowFormat p w.idx
      | some (off, h, f) =>
        let s1 := sh.stepRead p off (rowLen f h.nblk)
        let lanes := evs.map fun v =>
          let a := actOperand f v.value
          (v.lane, if v.retract then -a else a)
        let s2 := lanes.foldl (fun t la => t.updCore p fun c => c.addSum e0.parity sumDLoc (la.2 * h.rowsum)) s1
        let blocks := rowBlocks f h.nblk (s2.bytes p (off + 16) (h.nblk * blockSize f.wfmt))
        (blocks.foldl (fun (acc : State × Nat) bs =>
          match acc.1.blockGroup p (blkHdrOf bs) f w.tgt w.dmax 0 with
          | none => ((acc.1.count (Reg.SYN_BAD_BLOCK p) 1).rowFormat p w.idx, acc.2)
          | some g => ((acc.1.pairFault p acc.2).applyBlock p g f bs lanes e0.parity sumRLoc (pairErr acc.2 err), 0)) (s2, pair)).1

/-! ### The grove memory unit -/

/-- The most requests a grove's queue holds, and the streams of a grove (R132). -/
def rqLen : Nat := 1024
def gcStreams : Nat := 256

/-- The request queue of grove `g` is full (R132). -/
def State.rqFull (s : State) (g : Nat) : Bool := decide (rqLen ≤ (s.grove g).rowQ.length)

/-- A group of events handed to the grove memory unit as one request (R124, 05_fabric.md R168). -/
def State.groveRequest (s : State) (p : Nat) (w : Win) (evs : List Ev) : State :=
  match evs with
  | [] => s
  | e0 :: _ =>
    let mask := evs.foldl (fun m e => m + 2 ^ e.lane) 0
    let vals := (List.range 8).map fun l => match evs.find? (·.lane == l) with | some e => e.value | none => 0
    let r : RowReq := { home := p, win := w.idx, key := e0.key, parity := e0.parity, retract := e0.retract,
                        mask := mask, values := vals, homes := [p] }
    ((s.inj (p / 144) e0.parity 1).toUnit p (p / 144) (some e0.parity) (.rowReq r)).synShow p

/-- Lines of the grove cache that 128-byte line number `ln` shares a set with; the set is the line number modulo 2,048
(R129; DESIGN CHOICE: the spec gives no index). -/
def gcSet (ln : Nat) : Nat := ln % 2048

/-- Is a line pinned in grove `g` (R130)? -/
def State.pinned (s : State) (g ln : Nat) : Bool :=
  s.groveEnabled g && (List.range 8).any fun r =>
    s.bit (Reg.MEM_GC_PIN_SIZE g r) 31 &&
      (let b := s.rf (Reg.MEM_GC_PIN_BASE g r) 0 30
       decide (b ≤ ln) && decide (ln < b + s.rf (Reg.MEM_GC_PIN_SIZE g r) 0 15))

/-- Does the cache of grove `g` hold a line? -/
def State.gcHas (s : State) (g ln : Nat) : Bool := (Store.get (fun _ => []) (s.grove g).cache (gcSet ln)).contains ln

/-- One line read through the grove cache (R129): whether it hit, with the counters and the least-recently-used order
moved on. A line that arrives with an uncorrectable error (`good` false) is not allocated. -/
def State.gcLine (s : State) (g ln : Nat) (good : Bool) : State × Bool :=
  let held := Store.get (fun _ => []) (s.grove g).cache (gcSet ln)
  -- a single-bit error is corrected; a line with a double-bit error is invalidated and fetched again (10_integrity.md R346, R347)
  let set := if Store.get (fun _ => 0) s.flaws (lineKey g ln) = 2 then held.filter (· != ln) else held
  let s := { s with flaws := Store.erase (lineKey g ln) s.flaws }
  let v := s.grove g
  if set.contains ln then
    let order := ln :: set.filter (· != ln)
    ((s.setGrove g { v with cache := Store.set (fun _ => []) v.cache (gcSet ln) order }).count (Reg.MEM_GC_HITS g) 1, true)
  else
    let s1 := s.count (Reg.MEM_GC_MISSES g) 1
    if good = false then (s1, false)
    else if set.length < 16 then
      (s1.setGrove g { v with cache := Store.set (fun _ => []) v.cache (gcSet ln) (ln :: set) }, false)
    else
      match set.reverse.find? fun l => !(s.pinned g l) with
      | none => (s1, false)
      | some out =>
        ((s1.setGrove g { v with cache := Store.set (fun _ => []) v.cache (gcSet ln) (ln :: set.filter (· != out)) }).count
          (Reg.MEM_GC_EVICT g) 1, false)

/-- Bytes read from HBM are counted at their stack (R153). -/
def State.hbmRead (s : State) (addr n : Nat) : State :=
  (List.range 4).foldl (fun t st =>
    let lo := max addr (st * stackBytes)
    let hi := min (addr + n) ((st + 1) * stackBytes)
    if lo < hi then t.count64 (Reg.MEM_HBM_BYTES_LO st) (hi - lo) else t) s

/-- Lines of an HBM range. -/
def linesOf (addr len : Nat) : List Nat :=
  if len = 0 then [] else (List.range ((addr + len - 1) / 128 - addr / 128 + 1)).map fun i => addr / 128 + i

/-- A range read through the grove cache. `bad` is the 64-byte transaction that the read finds uncorrectable, if any: its
line is not allocated. -/
def State.gcRange (s : State) (g addr len : Nat) (bad : Option Nat) : State :=
  (linesOf addr len).foldl (fun t ln =>
    let (t1, hit) := t.gcLine g ln (match bad with | some x => x / 2 != ln | none => true)
    if hit then t1 else t1.hbmRead (128 * ln) 128) s

/-- Lines of a range taken out of a grove's cache. -/
def State.gcDrop (s : State) (g addr len : Nat) : State :=
  s.updGrove g fun v => { v with cache := v.cache.filterMap fun q =>
    let l := q.2.filter fun ln => !(decide (addr / 128 ≤ ln) && decide (128 * ln < addr + len))
    if l.isEmpty then none else some (q.1, l) }

/-- Every HBM write invalidates the matching lines in all 64 grove caches (R131; DESIGN CHOICE: the spec lets a write update
or invalidate them, and the next read then misses). -/
def State.gcInvalidate (s : State) (addr len : Nat) : State :=
  (List.range 64).foldl (fun t g => if (t.grove g).cache.isEmpty then t else t.gcDrop g addr len) s

/-- Bytes written to HBM by one of the paths of R131. -/
def State.hbmWrite (s : State) (addr : Nat) (bs : List Byte) : State :=
  ((s.setHbmBytes addr bs).hbmRead addr bs.length).gcInvalidate addr bs.length

/-- A request's lanes with their operands for format `f`. -/
def RowReq.lanes (r : RowReq) (f : FmtSlot) : List (Nat × Int) :=
  (ones 8 r.mask).map fun l =>
    let a := actOperand f (r.values.getD l 0)
    (l, if r.retract then -a else a)

/-- Same key, parity and retract flag, and lanes that do not meet (R124): eight lanes in all hold one event each. -/
def RowReq.joins (q r : RowReq) : Bool :=
  q.key == r.key && q.parity == r.parity && q.retract == r.retract &&
    (ones 8 q.mask).all fun l => r.mask / 2 ^ l % 2 == 0

/-- A request that takes in another: the row is read through the window of the first. -/
def RowReq.join (q r : RowReq) : RowReq :=
  { q with mask := q.mask + r.mask, homes := q.homes ++ r.homes,
           values := (List.range 8).map fun l =>
             if r.mask / 2 ^ l % 2 = 1 then r.values.getD l 0 else q.values.getD l 0 }


/-- A block or header packet of a request (R125). -/
def RowReq.pkt (r : RowReq) (w : Win) (fslot : Nat) (header retract : Bool) (bs : List Byte) : BlockPkt :=
  { values := r.values, mask := r.mask, fslot := fslot, dmax := w.dmax, retract := retract, header := header,
    tgt := w.tgt, win := w.idx, bytes := bs }

/-- A packet the grove memory unit injects through the M port nearest its target (R124, 05_fabric.md R158). -/
def State.unitInject (s : State) (g dest : Nat) (par : Nat) (b : Body) : State :=
  let f : Flight := { place := .unit g, tag := .unicast 0 dest, way := none, part := (s.partOf g).getD 0, step := some par, body := b,
                      src := unitSrc g }
  let s1 := s.inj g par 1
  match s.mPort dest with
  | none => s1.abandon f
  | some m => s1.sendOn (memNode g) ((mRouters.findIdx? (· == m % 144)).getD 0) { f with way := s.detour m dest }

/-- The core that a block with a RANK goes to (R124). -/
def State.rankCore (s : State) (g home rank : Nat) : Nat :=
  if rank < s.fuses.active then (s.physOf (s.fuses.active * g + rank)).getD home else home

/-- Blocks `[i, j)` of a row handed out (R124). -/
def State.sendBlocks (s : State) (g : Nat) (r : RowReq) (w : Win) (fslot : Nat) (retract : Bool) (blocks : List (List Byte)) : State :=
  blocks.foldl (fun t bs =>
    t.unitInject g (t.rankCore g r.home (blkHdrOf bs).rank) r.parity (.block (r.pkt w fslot false retract bs))) s

/-- Status of an HBM read: 0 good, 1 corrected, 2 uncorrectable (R133). -/
def hbmOk : Nat := 0
def hbmCorrected : Nat := 1
def hbmBad : Nat := 2

/-- A stack becomes FAILED (R136): reported, every partition that uses it stops, and its reads are uncorrectable. -/
def State.usesStack (s : State) (k st : Nat) : Bool :=
  let hit (addr len : Nat) : Bool := decide (addr < (st + 1) * stackBytes) && decide (st * stackBytes < addr + len)
  (List.range 16).any (fun r =>
      let b := 16 * k + r
      decide (0 < s.rf (Reg.MGT_HBM_REGION_SIZE b) 0 32) &&
        hit (2 ^ 16 * (s.rd (Reg.MGT_HBM_REGION_BASE b)).toNat) (2 ^ 16 * (s.rd (Reg.MGT_HBM_REGION_SIZE b)).toNat)) ||
    (s.coresOfPart k).any (fun p =>
      (s.wins p).any (fun w => w.grove && hit (32 * w.dir) (32 * w.ext)) ||
      (List.range 4).any (fun o => s.bit (Reg.DNS_OP_CFG p o) 31 && s.bit (Reg.DNS_OP_CFG p o) 23 &&
        hit (32 * (s.rd (Reg.DNS_OP_W p o)).toNat) (s.opCfg p o).weightBytes)) ||
    (s.grovesOf k).any (fun g => (List.range 8).any fun r => s.bit (Reg.MEM_GC_PIN_SIZE g r) 31 &&
      hit (128 * s.rf (Reg.MEM_GC_PIN_BASE g r) 0 30) (128 * s.rf (Reg.MEM_GC_PIN_SIZE g r) 0 15))

def State.stackFailed (s : State) (st : Nat) : State :=
  if s.stackState st = 3 then s
  else
    let s1 := (s.wf' (Reg.MEM_HBM_STATUS st) 2 2 3).report fltHbmStack { detail := [st] }
    s1.stopWhere (fun k => s.usesStack k st) scStack

/-- The grove holds commit for an outstanding FLT_HBM_DATA (R135). -/
def State.hbmSuspect (s : State) (g addr : Nat) (id : Nat) : State :=
  let k := s.partOf g
  let s1 := s.report fltHbmData
    { part := k, step := k.bind fun k => (s.part k).openStep, grove := some g, detail := [addr / stackBytes, addr / 32] }
  (s1.updGrove g fun v => { v with hbmOut := v.hbmOut.filter (· != id) ++ [id] }).holdGrove g

/-- The outstanding FLT_HBM_DATA of a job of core `home` is over: a resumption, finding 7 (10_integrity.md R360). -/
def State.hbmResumed (s : State) (g id home : Nat) : State :=
  if (s.grove g).hbmOut.contains id then
    let s1 := (s.updGrove g fun v => { v with hbmOut := v.hbmOut.filter (· != id) }).count (Reg.INT_GRV_RESUMES g) 1
    let s2 := s1.checkEntry g 7 outResumed 0x3FFF (s1.logicalOf home)
    if (s2.grove g).hbmOut.isEmpty ∧ (s2.grove g).finding = 0 then s2.unholdGrove g else s2
  else s

/-- What the row of a request turns out to be; a bad row has the address its entry gives. -/
inductive RowSeen where
  | null
  | bad (addr : Nat)
  | row (addr : Nat) (hdr : RowHdr) (fmt : FmtSlot)
  deriving DecidableEq, Repr

/-- Bytes of HBM as grove `g` reads them, `flip` exclusive-ored into byte `pos` of the row at `a` on its way from the stack; a
line that the cache holds does not come from the stack. Without a grove the bytes are taken as they stand. -/
def State.rowBytes (s : State) (g : Option Nat) (a off n pos : Nat) (flip : Byte) : List Byte :=
  let x := match g with
    | none => 0
    | some g => if s.gcHas g ((a + pos) / 128) then 0 else flip
  (s.hbmBytes (a + off) n).mapIdx fun i b => if off + i = pos then b ^^^ x else b

/-- Row conditions of R117 for a GROVE window, sized by slot FSLOT of the row-home core. -/
def State.groveRow (s : State) (r : RowReq) (w : Win) (g : Option Nat) (pos : Nat) (flip : Byte) : RowSeen :=
  let e := s.hbmNum (32 * w.dir + 8 * (r.key - w.base)) 8
  if !(dirValid e) then .null
  else
    let a := 32 * dirAddr e
    let h := rowHdrOf (s.rowBytes g a 0 16 pos flip)
    let f := s.fmtSlot r.home h.fslot
    if dirReserved e = false ∧ h.key = r.key ∧ h.reserved = false ∧ f.wfmt < 8 ∧ w.dir ≤ dirAddr e ∧
        a + rowLen f h.nblk ≤ 32 * (w.dir + w.ext) then .row a h f
    else .bad a

/-- 64-byte transactions of an HBM range. -/
def hbmTrans (addr len : Nat) : List Nat :=
  if len = 0 then [] else (List.range ((addr + len - 1) / 64 - addr / 64 + 1)).map fun i => addr / 64 + i

/-- Is the first transaction of an HBM address not in the cache of grove `g`? -/
def State.gcMiss (s : State) (g addr : Nat) : Bool := !(s.gcHas g (addr / 128))

/-- 64-byte transactions of a range that are not in the cache of grove `g`. -/
def State.missing (s : State) (g addr len : Nat) : List Nat :=
  (hbmTrans addr len).filter fun x => s.gcMiss g (64 * x)

/-- HBM byte address of the directory entry of a request (R118). -/
def Win.entryAt (w : Win) (key : Nat) : Nat := 32 * w.dir + 8 * (key - w.base)

/-- What of a row a reissued request reads: from the first block not delivered, or the whole row (10_integrity.md R360). -/
def RowJob.rest (j : RowJob) (f : FmtSlot) : Nat := if j.headerSent then 16 + j.next * blockSize f.wfmt else 0

/-- Transactions that a row job of grove `g` has in flight: its directory entry's until the entry is there, then those of its
row, up to eight ahead (R132; DESIGN CHOICE: how far a stream runs ahead is not fixed). -/
def State.jobFlight (s : State) (g : Nat) (j : RowJob) : List Nat :=
  let w := s.win j.req.home j.req.win
  let d := w.entryAt j.req.key
  if s.gcMiss g d then [d / 64]
  else
    match s.groveRow j.req w none 0 0 with
    | .null => []
    | .bad a => (s.missing g a 16).take 1
    | .row a h f =>
      if j.refetch.isSome then ((hbmTrans (a + j.rest f) (rowLen f h.nblk - j.rest f))).take 8
      else (s.missing g a (rowLen f h.nblk)).take 8

/-- Transactions that the weight stream of core `p` has in flight, up to sixteen ahead (R132, R141). -/
def State.streamFlight (s : State) (p : Nat) (c : Core) : List Nat :=
  match c.dns with
  | none => []
  | some r =>
    let op := s.opCfg p r.op
    if op.stream && decide (r.cb < op.blocks) then
      let from_ := max r.got (op.tileAt r.cb 0)
      (s.missing (p / 144) from_ (op.tileAt op.blocks 0 - from_)).take 16
    else []

/-- MEM_HBM_INFLIGHT shown for every stack (R153). -/
def State.flyShow (s : State) : State :=
  let all := (s.groves.flatMap fun x => x.2.rows.flatMap fun j => s.jobFlight x.1 j) ++ s.cores.flatMap fun x => s.streamFlight x.1 x.2
  (List.range 4).foldl (fun t st =>
    let n := min 8192 (all.filter fun x => decide (64 * x / stackBytes = st)).length
    (t.wf' (Reg.MEM_HBM_INFLIGHT st) 0 14 n).high (Reg.MEM_HBM_INFLIGHT st) 16 14 n) s

/-- Occupancy of the request queue, of the ROW streams and of the stacks shown (R152, R153). -/
def State.rqShow (s : State) (g : Nat) : State :=
  let q := (s.grove g).rowQ.length
  (((s.wf' (Reg.MEM_RQ_STATUS g) 0 11 q).high (Reg.MEM_RQ_STATUS g) 16 11 q).wf' (Reg.MEM_PF_STATUS g) 0 9
    (s.grove g).rows.length).flyShow

/-- Streams that the requests of grove `g` share: those not reserved for DENSE operations (R132). -/
def State.rowStreams (s : State) (g : Nat) : Nat := gcStreams - s.rf (Reg.MEM_PF_STATUS g) 16 9

/-- A stream opened for the oldest waiting request where one is free (R132). -/
def State.rqOpen (s : State) (g : Nat) : State :=
  let v := s.grove g
  match v.rowQ with
  | r :: rest =>
    if v.rows.length < s.rowStreams g then
      (s.setGrove g { v with rowQ := rest, nextJob := v.nextJob + 1, rows := v.rows ++
        [{ id := v.nextJob, req := r, next := 0, headerSent := false, crcFails := 0, refetch := none }] }).rqShow g
    else s.rqShow g
  | [] => s.rqShow g

/-- A request at the grove memory unit: merged with a waiting one, or queued (R124, R132). -/
def State.rowRequest (s : State) (g : Nat) (r : RowReq) : State :=
  let v := s.grove g
  if v.rowQ.any (·.joins r) then
    let rec go : List RowReq → List RowReq
      | [] => []
      | q :: qs => if q.joins r then q.join r :: qs else q :: go qs
    (s.setGrove g { v with rowQ := go v.rowQ }).count (Reg.MEM_COALESCED g) 1
  else (s.setGrove g { v with rowQ := v.rowQ ++ [r] }).rqOpen g

/-- The job of a request ends: its packets are counted ejected, the requests are no longer outstanding at the core, and
the stream is free for the next (05_fabric.md R176, R146). -/
def State.rowDone (s : State) (g : Nat) (j : RowJob) : State :=
  let s1 := s.updGrove g fun v => { v with rows := v.rows.filter (·.id != j.id), hbmOut := v.hbmOut.filter (· != j.id) }
  (j.req.homes.foldl State.synShow (s1.ej g j.req.parity j.req.homes.length)).rqOpen g

/-- The plastic range of grove `g` that holds a key (09_plasticity.md R302). -/
def State.plsRange (s : State) (g key : Nat) : Option Nat :=
  if s.fuses.pls then
    (List.range 8).find? fun r =>
      let b := s.rf (Reg.PLS_RNG_KEY g r) 0 28
      s.bit (Reg.PLS_RNG_KEY g r) 31 && decide (b ≤ key) && decide (key < b + s.rf (Reg.PLS_RNG_CNT g r) 0 21)
  else none

/-- An entry of a request list (09_plasticity.md R309): key, HBM byte address of the row header, range, lanes, sign and parity of
the pre step, with the groups and the delay limit of the window it came through. -/
structure PlsReq where
  key : Nat
  row : Nat
  range : Nat
  mask : Nat
  parity : Nat
  retract : Bool
  tgt : Nat
  dmax : Nat
  deriving DecidableEq, Repr

/-- The 16 bytes of an entry as a number (DESIGN CHOICE: R309 leaves the layout to the engine). -/
def PlsReq.pack (e : PlsReq) : Nat :=
  e.key % 2 ^ 28 + e.row / 32 % 2 ^ 32 * 2 ^ 28 + e.mask % 2 ^ 8 * 2 ^ 60 + b2n e.retract * 2 ^ 68 + e.parity % 4 * 2 ^ 69
    + e.range % 8 * 2 ^ 71 + e.tgt % 2 ^ 16 * 2 ^ 74 + e.dmax % 32 * 2 ^ 90

def plsReqOf (x : Nat) : PlsReq :=
  { key := nfld x 0 28, row := 32 * nfld x 28 32, mask := nfld x 60 8, retract := nfld x 68 1 == 1, parity := nfld x 69 2,
    range := nfld x 71 3, tgt := nfld x 74 16, dmax := nfld x 90 5 }

/-- Entries that a request list of grove `g` holds. -/
def State.listLen (s : State) (g : Nat) : Nat := 2 ^ s.rf (Reg.PLS_LIST_CFG g) 0 5

/-- HBM byte address of entry `i` of the list of step `n`: the two lists lie back to back and serve alternate steps (R309). -/
def State.listAt (s : State) (g n i : Nat) : Nat :=
  32 * (s.rd (Reg.PLS_LIST_BASE g)).toNat + 16 * (n % 2 * s.listLen g + i)

/-- Entry `i` of the list of step `n`. -/
def State.listEntry (s : State) (g n i : Nat) : PlsReq := plsReqOf (s.hbmNum (s.listAt g n i) 16)

/-- A served request joins the request list of the open step where it is plastic (09_plasticity.md R303, R309, R327). -/
def State.plsServe (s : State) (g : Nat) (r : RowReq) (w : Win) (a : Nat) (h : RowHdr) : State :=
  match s.plsRange g r.key with
  | none => s
  | some i =>
    let v := s.grove g
    if h.fslot ≠ s.rf (Reg.PLS_RNG_FMT g i) 24 4 then s.count (Reg.PLS_FMT_SKIP g) 1
    else if s.listLen g ≤ v.plsLen then s.updGrove g fun v => { v with plsLost := true }
    else
      let n := match s.partOf g with | some k => (s.part k).openStep.getD 0 | none => 0
      let e : PlsReq := { key := r.key, row := a, range := i, mask := r.mask, parity := r.parity, retract := r.retract,
                          tgt := w.tgt, dmax := w.dmax }
      (s.hbmWrite (s.listAt g n v.plsLen) (toBytes 16 e.pack)).updGrove g fun v => { v with plsLen := v.plsLen + 1 }

/-- The row of job `j` read and handed out, `bytes` being the row as the unit has received it (R124, R135, 10_integrity.md
R360). MEM_GROVE_ROWS counts a row once it has been delivered with a good CRC (DESIGN CHOICE: R152 does not say whether a row
that is fetched again counts). -/
def State.rowDeliver (s : State) (g : Nat) (j : RowJob) (w : Win) (a : Nat) (h : RowHdr) (f : FmtSlot)
    (bytes : List Byte) : State :=
  let blocks := rowBlocks f h.nblk (bytes.drop 16)
  let hd := bytes.take 16
  let s1 := if j.headerSent then s
    else s.unitInject g j.req.home j.req.parity (.block (j.req.pkt w h.fslot true j.req.retract hd))
  let s2 := s1.sendBlocks g j.req w h.fslot j.req.retract (blocks.drop j.next)
  if rowCrc hd (bytes.drop 16) = h.crc then (((s2.hbmResumed g j.id j.req.home).count (Reg.MEM_GROVE_ROWS g) 1).plsServe g j.req w a h).rowDone g j
  else
    let s3 := (s2.count (Reg.MEM_HBM_CRC (a / stackBytes)) 1).hbmSuspect g a j.id
    if j.crcFails = 0 then
      -- every block and header is retracted as it was delivered, the lines are invalidated, and the row is fetched whole again
      let s4 := s3.unitInject g j.req.home j.req.parity (.block (j.req.pkt w h.fslot true (!j.req.retract) hd))
      let s5 := (s4.sendBlocks g j.req w h.fslot (!j.req.retract) blocks).gcDrop g a (rowLen f h.nblk)
      (s5.updGrove g fun v => { v with rows := v.rows.map fun q =>
        if q.id = j.id then { j with next := 0, headerSent := false, crcFails := 1, refetch := none } else q }).rqShow g
    else
      match s3.partOf g with
      | some k => ((s3.checkEntry g 7 outUnresolved 0x3FFF (s3.logicalOf j.req.home)).count (Reg.INT_GRV_UNRESOLVED g) 1).stopPart k scIntegrity
      | none => s3

/-- Transaction `x` of job `j` is uncorrectable: its stack counts it, the grove holds commit, and the job waits for its
reissue with `next` blocks and, where `hdr` says so, its header delivered. Again uncorrectable, the stack has failed (R135,
R136). -/
def State.readBad (s : State) (g : Nat) (j : RowJob) (x next : Nat) (hdr : Bool) : State :=
  let st := 64 * x / stackBytes
  let s1 := (s.count (Reg.MEM_HBM_UE st) 1).hbmSuspect g (64 * x) j.id
  if j.refetch = some x then s1.stackFailed st
  else
    (s1.updGrove g fun v => { v with rows := v.rows.map fun q =>
      if q.id = j.id then { j with next := max j.next next, headerSent := j.headerSent || hdr, refetch := some x } else q }).rqShow g

/-- An uncorrectable read at transaction `x` of the row of job `j`: what lies before it is handed out, the rest waits (R135,
R136). -/
def State.rowBad (s : State) (g : Nat) (j : RowJob) (w : Win) (a : Nat) (h : RowHdr) (f : FmtSlot) (x : Nat) : State :=
  let good := 64 * x - a
  let hdrOk := decide (16 ≤ good)
  let s1 := if j.headerSent || !hdrOk then s
    else s.unitInject g j.req.home j.req.parity (.block (j.req.pkt w h.fslot true j.req.retract (s.hbmBytes a 16)))
  let nGood := if hdrOk then min h.nblk ((good - 16) / blockSize f.wfmt) else 0
  let blocks := rowBlocks f h.nblk (s.hbmBytes (a + 16) (h.nblk * blockSize f.wfmt))
  (s1.sendBlocks g j.req w h.fslot j.req.retract ((blocks.take nGood).drop j.next)).readBad g j x nGood hdrOk

/-- The uncorrectable transaction of a read of `mine`, the transactions that come from HBM: the one that failed, or the first
in a FAILED stack (R136). -/
def State.failing (s : State) (mine : List Nat) (status x : Nat) : Option Nat :=
  mine.find? fun y => (status == hbmBad && y == x) || decide (s.stackState (64 * y / stackBytes) = 3)

/-- A corrected read counts at its stack (R135). -/
def State.readCorrected (s : State) (mine : List Nat) (status x : Nat) : State :=
  if status = hbmCorrected ∧ mine.contains x then s.count (Reg.MEM_HBM_CE (64 * x / stackBytes)) 1 else s

/-- The transaction `t` that a read of job `j` names: the `t`-th of what the job reads, its directory entry's first and those of
its row after it. -/
def jobTrans (d a t : Nat) : Nat := if t = 0 then d / 64 else a / 64 + (t - 1)

/-- A read of job `j` returns (R124, R135): the directory entry and the row are read through the grove cache, a reissued row past
it from the first block not delivered. `t` names the transaction that the status is about (`jobTrans`). -/
def State.rowReturn (s : State) (g : Nat) (j : RowJob) (status t pos : Nat) (flip : Byte) : State :=
  let w := s.win j.req.home j.req.win
  let d := w.entryAt j.req.key
  let dm := s.missing g d 8
  match s.failing dm status (jobTrans d 0 t) with
  | some x => (s.gcRange g d 8 (some x)).readBad g j x 0 false
  | none =>
    let s0 := (s.gcRange g d 8 none).readCorrected dm status (jobTrans d 0 t)
    -- a header that has been delivered does not change any more
    match s0.groveRow j.req w (some g) pos (if j.headerSent then 0 else flip) with
    | .null => ((s0.hbmResumed g j.id j.req.home).count (Reg.SYN_NULL j.req.home) (popcount 8 j.req.mask)).rowDone g j
    | .bad a =>
      let hm := s0.missing g a 16
      (match s0.failing hm status (jobTrans d a t) with
      | some x => (s0.gcRange g a 16 (some x)).readBad g j x 0 false
      | none => (((((s0.gcRange g a 16 none).readCorrected hm status (jobTrans d a t)).hbmResumed g j.id j.req.home).count
          (Reg.MEM_BAD_ROW g) 1).rowFormat j.req.home w.idx).rowDone g j)
    | .row a h f =>
      let from_ := j.rest f
      let len := rowLen f h.nblk
      let rm := if j.refetch.isSome then hbmTrans (a + from_) (len - from_) else s0.missing g a len
      let bad := s0.failing rm status (jobTrans d a t)
      let s1 := if j.refetch.isSome then s0.hbmRead (a + from_) (len - from_) else s0.gcRange g a len bad
      match bad with
      | some x => s1.rowBad g j w a h f x
      | none =>
        let s2 := s1.readCorrected rm status (jobTrans d a t)
        let s3 := if j.refetch.isSome then s2.hbmResumed g j.id j.req.home else s2
        -- what was delivered before the reissue stands as it was delivered
        s3.rowDeliver g j w a h f (s0.rowBytes (some g) a 0 len pos (if pos < from_ then 0 else flip))

/-! ### The commands -/

/-- Events taken with the head of the input queue (R122): same key, parity and retract flag, each from a lane of its
own, up to eight. -/
def coalesce (e0 : Ev) : List Ev → List Ev → List Ev × List Ev
  | taken, [] => (taken, [])
  | taken, e :: es =>
    if e.key == e0.key && e.parity == e0.parity && e.retract == e0.retract &&
        decide (taken.length < 8) && !(taken.any (·.lane == e.lane)) then
      coalesce e0 (taken ++ [e]) es
    else
      let (t, r) := coalesce e0 taken es
      (t, e :: r)

/-- SYN_EVENT_TAKE: the synapse engine takes an event or a coalesced group (R122 to R124). `pair` and `err` are a
fault of the multiplier arrays in its first product (10_integrity.md R342; `pairFault`). While the request queue is full,
an event for a GROVE window stays at the head of the input queue (R132). -/
def execSynEventTake (p pair : Nat) (err : Word) (s : State) : Host.Outcome State Fault Refusal :=
  match (s.core p).synQ with
  | [] => .next s
  | e0 :: rest =>
    let s0 := s.wake p
    let (evs, left) := if s.bit (Reg.SYN_CTRL p) 0 then coalesce e0 [e0] rest else ([e0], rest)
    let wo := s0.winOf p e0.key
    let stall := match wo with | some w => w.grove && s0.rqFull (p / 144) | none => false
    if stall then .next s0
    else
      let s1 := (s0.updCore p fun c => { c with synQ := left }).count (Reg.SYN_EVENTS p) evs.length
      let s2 := (s1.count (Reg.SYN_COALESCED p) (evs.length - 1)).count (Reg.SYN_RETRACT p) (if e0.retract then evs.length else 0)
      let s3 := match wo with
        | none => (s2.count (Reg.SYN_KEY_MISS p) evs.length).rowFormat p 8
        | some w =>
          if w.grove then s2.groveRequest p w evs
          else s2.localGroup p w evs pair err
      -- the ejections count once the deposits are complete (05_fabric.md R176)
      let waits := decide ((s0.core p).deferred.length < (s3.core p).deferred.length)
      let s4 := if waits then s3.updCore p fun c => { c with deferred := match c.deferred.reverse with
          | [] => []
          | d :: ds => ({ d with ej := evs.length, parity := e0.parity } :: ds).reverse }
        else s3.ej (p / 144) e0.parity evs.length
      .next (s4.synShow p)

/-- ROW_REQUEST: packet `i`, a grove-row request, reaches its grove memory unit (R124). Where the queue is full it waits in the
fabric. -/
def execRowRequest (i : Nat) (s : State) : Host.Outcome State Fault Refusal :=
  match s.takeUnit i 0 64 with
  | some (g, f, t) =>
    match f.body with
    | .rowReq r => .next (if t.rqFull g && !((t.grove g).rowQ.any (·.joins r)) then s else t.rowRequest g r)
    | _ => .next s
  | none => .next s

/-- ROW_HEADER: packet `i`, a row header, reaches the row-home core, which adds a times ROWSUM to D_GRV (R124). -/
def execRowHeader (i : Nat) (s : State) : Host.Outcome State Fault Refusal :=
  match s.takeCore i with
  | some (p, f, t) =>
    match f.body with
    | .block b =>
      if b.header then
        let t0 := t.wake p
        let h := rowHdrOf b.bytes
        let fm := t0.fmtSlot p b.fslot
        let par := f.step.getD 0
        let t1 := (ones 8 b.mask).foldl (fun u l =>
          let a := actOperand fm (b.values.getD l 0)
          u.updCore p fun c => c.addSum par sumDGrv ((if b.retract then -a else a) * h.rowsum)) t0
        .next (t1.ej (p / 144) par 1)
      else .next s
    | _ => .next s
  | none => .next s

/-- BLOCK: packet `i`, a block, reaches its target core, which decodes and deposits it (R124, R125). -/
def execBlock (i pair : Nat) (err : Word) (s : State) : Host.Outcome State Fault Refusal :=
  match s.takeCore i with
  | some (p, f, t) =>
    match f.body with
    | .block b =>
      if b.header then .next s
      else
        let t0 := t.wake p
        let h := blkHdrOf b.bytes
        let fm := t0.fmtSlot p b.fslot
        let par := f.step.getD 0
        let rank := t0.logicalOf p - t0.fuses.active * (p / 144)
        let lanes := (ones 8 b.mask).map fun l =>
          let a := actOperand fm (b.values.getD l 0)
          (l, if b.retract then -a else a)
        match t0.blockGroup p h fm b.tgt b.dmax rank with
        | none => .next (((t0.count (Reg.SYN_BAD_BLOCK p) 1).rowFormat p b.win).ej (p / 144) par 1)
        | some g =>
          let t1 := (t0.pairFault p pair).applyBlock p g fm b.bytes lanes par sumRGrv (pairErr pair err)
          let waits := decide ((t0.core p).deferred.length < (t1.core p).deferred.length)
          .next (if waits then t1.updCore p fun c => { c with deferred := match c.deferred.reverse with
              | [] => []
              | d :: ds => ({ d with ej := 1, parity := par } :: ds).reverse }
            else t1.ej (p / 144) par 1)
    | _ => .next s
  | none => .next s

/-- Numbers from here up name DENSE streams in HBM_READ_RETURN: base + 4 * core + operation. -/
def denseStreamBase : Nat := 0x1000000

/-- DNS_STATUS set (R149), and what the tile's stream has in flight. -/
def State.dnsShow (s : State) (p st op cb : Nat) : State :=
  (s.wr (Reg.DNS_STATUS p) (BitVec.ofNat 32 (cb % 4096 * 256 + op % 4 * 4 + st % 4))).flyShow

def dsIdle : Nat := 0
def dsRunning : Nat := 1
def dsStalled : Nat := 2
def dsSuspended : Nat := 3

/-- Has the weight stream of a run at core `p` delivered the column block in progress? Its lines have arrived in the run, or
stand in the grove cache (R141). -/
def State.streamReady (s : State) (p : Nat) (op : DnsOp) (r : DnsRun) : Bool :=
  !op.stream || (s.missing (p / 144) (op.tileAt r.cb 0) (op.k / 8 * op.tile)).all fun x => decide (64 * x < r.got)

/-- Lines of a column block that come from the grove cache alone, past what the stream has brought, are hits (R129). -/
def State.streamHits (s : State) (p addr len got : Nat) : State :=
  s.gcRange (p / 144) (max got addr) (addr + len - max got addr) none

/-- The run of a STREAM operation `o` that the tile of core `p` works on. -/
def State.streamRun (s : State) (p o : Nat) : Option DnsRun :=
  match (s.core p).dns with
  | some r => if r.op = o ∧ (s.opCfg p o).stream = true ∧ r.cb < (s.opCfg p o).blocks then some r else none
  | none => none

/-- The weight stream of a run has arrived up to an HBM address: read through the cache, the failing transaction apart. -/
def State.streamTo (s : State) (p : Nat) (op : DnsOp) (r : DnsRun) (upTo : Nat) (bad : Option Nat) : State :=
  let from_ := max r.got (op.tileAt r.cb 0)
  let s1 := s.gcRange (p / 144) from_ (upTo - from_) bad
  s1.updCore p fun c => { c with dns := some { r with got := match bad with | some x => max r.got (64 * x) | none => max r.got upTo } }

/-- HBM_READ_RETURN: a read of grove `g` returns with a status; `t` is the transaction that the status is about, and `flip` is
exclusive-ored into the row's byte at `pos` on its way (R135). For a row job it is the job's whole read (`jobTrans`). For the
DENSE stream of the operation that a tile works on, the stream has arrived up to its transaction `t`, which lies at most 16
beyond the column block in progress (R132, R141). -/
def execHbmReadReturn (g j status t pos : Nat) (flip : Byte) (s : State) : Host.Outcome State Fault Refusal :=
  if denseStreamBase ≤ j then
    let p := (j - denseStreamBase) / 4
    let o := (j - denseStreamBase) % 4
    match s.streamRun p o with
    | none => .next s
    | some r =>
      let op := s.opCfg p o
      let x := op.tileAt 0 0 / 64 + t
      let st := 64 * x / stackBytes
      if p / 144 ≠ g ∨ op.tileAt r.cb 0 + op.k / 8 * op.tile + 1024 ≤ 64 * x ∨ op.tileAt op.blocks 0 ≤ 64 * x ∨
          64 * x + 64 ≤ max r.got (op.tileAt r.cb 0) then .next s
      else if s.gcMiss g (64 * x) = true ∧ (status = hbmBad ∨ s.stackState st = 3) then
        let s1 := (s.streamTo p op r (64 * x + 64) (some x)).count (Reg.MEM_HBM_UE st) 1
        if (s.grove g).refetched.contains x then .next (s1.stackFailed st)
        else
          let s2 := (s1.hbmSuspect g (64 * x) j).updGrove g fun v => { v with refetched := v.refetched ++ [x] }
          .next (s2.dnsShow p dsStalled o r.cb)
      else
        let s1 := if status = hbmCorrected then s.count (Reg.MEM_HBM_CE st) 1 else s
        let s2 := (s1.streamTo p op r (64 * x + 64) none).hbmResumed g j p
        let s3 := s2.updGrove g fun v => { v with refetched := v.refetched.filter (· != x) }
        .next (match (s3.core p).dns with
          | some q => if s3.streamReady p op q then s3.dnsShow p dsRunning o r.cb else s3.dnsShow p dsStalled o r.cb
          | none => s3)
  else
    match (s.grove g).rows.find? (·.id == j) with
    | none => .next s
    | some job => .next (s.rowReturn g job status t pos flip)

/-- HBM_TRAINING_LOST: the controller of stack `st` loses training and retrains once; `ok` says whether that succeeds
(R136). -/
def execHbmTrainingLost (st : Nat) (ok : Bool) (s : State) : Host.Outcome State Fault Refusal :=
  if s.stackState st = 2 ∧ st < 4 then .next (if ok then s else s.stackFailed st) else .next s

end Sys2Proof.Machine
end

