-- ==== Sys2Proof/Machine/Queues.lean ====
section
/-! DEFINITION. Receive queues, responses and the handler engine's registers (06_core_messaging.md R195 to R202, R205,
R210, R212 to R215), shared by messages, handlers and dense completions. -/
namespace Sys2Proof.Machine

/-! ### Result codes (R210) -/

def rcOk : Nat := 0
def rcFull : Nat := 1
def rcDisabled : Nat := 2
def rcTimeout : Nat := 3
def rcOutside : Nat := 4
def rcUnmapped : Nat := 5
def rcCrc : Nat := 6
def rcExhausted : Nat := 7
def rcImmediate : Nat := 8
def rcPoolFull : Nat := 9
def rcSyncDisabled : Nat := 10
def rcDenseBusy : Nat := 11
def rcNotHandler : Nat := 12

/-- Sender identity of a unit that expects no response (R202). -/
def srcUnit : Nat := 0x3FFF
/-- Sender identities that a message may carry: cores, attachments and units (R202). -/
def srcKnown (x : Nat) : Bool := decide (x < 9224) || x == srcUnit
/-- Sender identity of attachment `a`. -/
def srcAtt (a : Nat) : Nat := 0x2400 + a

/-! ### Queues -/

def emptyQueue : Nat → Queue := fun _ => ⟨[], 0⟩
def Core.queue (c : Core) (q : Nat) : Queue := Store.get emptyQueue c.queues q
def Core.setQueue (c : Core) (q : Nat) (v : Queue) : Core := { c with queues := Store.set emptyQueue c.queues q v }

/-- Entries a queue holds (R195). -/
def queueLen : Nat := 32
/-- Free entries (R196). -/
def Queue.free (q : Queue) : Nat := queueLen - q.entries.length - q.reserved

def State.qEnabled (s : State) (p q : Nat) : Bool := s.bit (Reg.HDL_Q_CFG p q) 31
/-- MODE 1: active messages (R195). -/
def State.qAm (s : State) (p q : Nat) : Bool := s.bit (Reg.HDL_Q_CFG p q) 0

/-- A queue replaced, with its occupancy shown (R229). -/
def State.putQueue (s : State) (p q : Nat) (v : Queue) : State :=
  let s1 := s.updCore p fun c => c.setQueue q v
  let r := Reg.HDL_Q_STATUS p q
  ((s1.wf' r 0 6 v.entries.length).wf' r 8 6 v.reserved).high r 24 6 v.entries.length

/-- The newest entry of a queue. -/
def State.enqueue (s : State) (p q : Nat) (e : QEntry) : State :=
  let v := (s.core p).queue q
  (s.putQueue p q { v with entries := v.entries ++ [e] }).count (Reg.HDL_Q_ACCEPT p q) 1

/-- An entry reserved (R218, R211); none where the queue is disabled or full, with the code. -/
def State.reserve (s : State) (p q : Nat) : State × Nat :=
  let v := (s.core p).queue q
  if !(s.qEnabled p q) then (s, rcDisabled)
  else if v.free = 0 then (s, rcFull)
  else (s.putQueue p q { v with reserved := v.reserved + 1 }, rcOk)

/-- A reservation given up (R218). -/
def State.unreserve (s : State) (p q : Nat) : State :=
  let v := (s.core p).queue q
  s.putQueue p q { v with reserved := v.reserved - 1 }

/-! ### Handler registers -/

/-- h0 reads zero (R207). -/
def Core.h (c : Core) (r : Nat) : Word := if r = 0 then 0 else Store.get (fun _ => 0) c.hregs r
/-- Writes to h0 are ignored (R207). -/
def Core.setH (c : Core) (r : Nat) (w : Word) : Core :=
  if r = 0 ∨ 15 < r then c else { c with hregs := Store.set (fun _ => 0) c.hregs r w }

def State.h (s : State) (p r : Nat) : Word := (s.core p).h r
def State.setH (s : State) (p r : Nat) (w : Word) : State := s.updCore p fun c => c.setH r w

/-- HDL_STATUS.PC: index of the instruction issuing, or last issued (R226). -/
def State.pc (s : State) (p : Nat) : Nat := s.rf (Reg.HDL_STATUS p) 0 11
def State.setPc (s : State) (p n : Nat) : State := s.wf' (Reg.HDL_STATUS p) 0 11 n
def State.hdlSt (s : State) (p : Nat) : Nat := s.rf (Reg.HDL_STATUS p) 29 3
def State.nested (s : State) (p : Nat) : Bool := s.bit (Reg.HDL_STATUS p) 28
/-- Handler store and handler table (13_memory_power.md R460; the table's place within the queue area is a DESIGN
CHOICE). -/
def handlerStore : Nat := 0x38000
def handlerTable : Nat := 0x3BF00

/-- The waiting instruction completes: the next one issues. -/
def State.hdlGo (s : State) (p : Nat) : State :=
  ((s.updCore p fun c => { c with wait := .none }).setPc p (s.pc p + 1)).hdlState p hsRunning

/-- A nested handler has ended: h1 to h15 are restored, and the SENDW that dispatched it waits its gap (R215). -/
def State.hdlEnd (s : State) (p : Nat) : State :=
  match (s.core p).outer with
  | some o =>
    let s1 := (s.updCore p fun c => { c with hregs := o.regs, budget := o.budget, wait := .gap o.wait, outer := none }).stallShow p
    (((s1.wf' (Reg.HDL_STATUS p) 28 1 0).wf' (Reg.HDL_STATUS p) 16 6 o.handler).setPc p o.pc).hdlState p hsRetryGap
  | none => ((s.updCore p fun c => { c with wait := .none }).stallShow p).hdlState p hsIdle

/-- A handler that waits in its EMIT tries again: its event is logged and it goes on, or it waits further (08_step_commit.md
R277). -/
def State.resumeEmit (s : State) (p : Nat) : State :=
  match (s.core p).wait with
  | .emit e => (match s.handlerEmit p e with | some t => t.hdlGo p | none => s).stallShow p
  | _ => s

/-- Fault causes (R212). -/
def hfIllegal : Nat := 1
def hfOperand : Nat := 2
def hfRange : Nat := 3
def hfAlign : Nat := 4
def hfBranch : Nat := 5
def hfNeuron : Nat := 6
def hfBudget : Nat := 7

/-- A fault ends the handler; the faulting instruction has no effect (R212). -/
def State.hdlFault (s : State) (p cause : Nat) : State :=
  let hnd := s.rf (Reg.HDL_STATUS p) 16 6
  let pc := s.pc p
  let s1 := s.count (Reg.HDL_FAULTS p) 1
  let s2 := if s1.bit (Reg.HDL_FAULT p) 31 then s1
    else s1.wr (Reg.HDL_FAULT p) (BitVec.ofNat 32 (2 ^ 31 + cause % 8 * 2 ^ 24 + hnd * 2 ^ 16 + pc))
  (s2.report fltHandler (s2.coreKeys p [cause, hnd, pc])).hdlEnd p

/-! ### Selection (R199) -/

/-- The first eligible queue: the lowest-numbered, or the next after the one last served. -/
def selectQueue (rotate : Bool) (last : Nat) (ok : Nat → Bool) : Option Nat :=
  if rotate then ((List.range 8).map fun i => (last + 1 + i) % 8).find? ok else (List.range 8).find? ok

def State.rotates (s : State) (p : Nat) : Bool := s.bit (Reg.HDL_CTRL p) 1

/-- The AM queue that dispatch selects. -/
def State.amQueue (s : State) (p : Nat) : Option Nat :=
  selectQueue (s.rotates p) (s.core p).lastDispatch fun q =>
    s.qEnabled p q && s.qAm p q && s.bit (Reg.HDL_SEL_MASK p) q && !((s.core p).queue q).entries.isEmpty

/-- The DATA queue that WAITQ selects. -/
def State.dataQueue (s : State) (p mask : Nat) : Option Nat :=
  selectQueue (s.rotates p) (s.core p).lastWaitq fun q =>
    s.qEnabled p q && !(s.qAm p q) && mask / 2 ^ q % 2 == 1 && !((s.core p).queue q).entries.isEmpty

/-- WAITQ takes the oldest entry of queue `q`: words to h12 upwards, then rd (R211). -/
def State.waitqTake (s : State) (p q rd : Nat) : State :=
  let v := (s.core p).queue q
  match v.entries with
  | [] => s
  | e :: rest =>
    let s1 := (s.putQueue p q { v with entries := rest }).updCore p fun c => { c with lastWaitq := q }
    let s2 := (List.range 4).foldl (fun t i => t.setH p (12 + i) (e.words.getD i 0)) s1
    s2.setH p rd (BitVec.ofNat 32 (q + (e.words.length - 1) * 8 + e.src % 2 ^ 14 * 32))

/-- A handler waiting in WAITQ takes an entry that has arrived. -/
def State.waitqCheck (s : State) (p : Nat) : State :=
  match (s.core p).wait with
  | .waitq mask rd =>
    match s.dataQueue p mask with
    | some q => (s.waitqTake p q rd).hdlGo p
    | none => s
  | _ => s

/-- A word put into a reserved entry: a notification or a dense completion (R196, R211, R218). -/
def State.fillReserved (s : State) (p q : Nat) (w : Word) : State :=
  ((s.unreserve p q).enqueue p q ⟨[w], srcUnit⟩).waitqCheck p

/-- An arriving message accepted or dropped (R196): the result code. -/
def State.accept (s : State) (p q : Nat) (words : List Word) (src : Nat) (crcOk : Bool) : State × Nat :=
  let v := (s.core p).queue q
  let drop (code : Nat) : State × Nat := (s.count (Reg.HDL_Q_DROP p q) 1, code)
  if !(s.qEnabled p q) then drop rcDisabled
  else if !crcOk then drop rcCrc
  else if v.free = 0 then drop rcFull
  else ((s.enqueue p q ⟨words, src⟩).waitqCheck p, rcOk)

/-- The response recorded for a sender (R197). -/
def State.respond (s : State) (p q src mark code : Nat) : State :=
  let s1 := s.updCore p fun c => { c with responses := Store.set (fun _ => 0) c.responses src (1 + q % 8 + 8 * code + 128 * mark) }
  if code = rcOk then s1 else s1.count (Reg.HDL_NAK_SENT p) 1

/-- A message at the receive endpoint of core `p` (R196, R197). -/
def State.receive (s : State) (p q : Nat) (words : List Word) (src mark : Nat) (crcOk : Bool) : State :=
  let (s1, code) := (s.wake p).accept p q words src crcOk
  if src = srcUnit then s1 else s1.respond p q src mark code

/-! ### Descriptors in progress (11_host_interface.md R395, R403) -/

/-- A field of a descriptor: `n` bytes at `off` (R393). -/
def DescRun.num (d : DescRun) (off n : Nat) : Nat := ofBytes ((d.bytes.drop off).take n)
def DescRun.op (d : DescRun) : Nat := d.num 0 1
def DescRun.flags (d : DescRun) : Nat := d.num 1 1
def DescRun.fence (d : DescRun) : Bool := nfld d.flags 0 1 == 1
def DescRun.cpl (d : DescRun) : Nat := d.num 2 1 % 64
def DescRun.part (d : DescRun) : Nat := d.num 3 1 % 64
def DescRun.target (d : DescRun) : Nat := d.num 8 4
def DescRun.sub (d : DescRun) : Nat := d.num 12 4
def DescRun.host (d : DescRun) : Nat := d.num 16 8
def DescRun.dev (d : DescRun) : Nat := d.num 24 8
def DescRun.len (d : DescRun) : Nat := d.num 32 4

/-- CHECK of a descriptor: C32C over bytes 0 to 59, folded with ring and index (R393). -/
def DescRun.checkOk (d : DescRun) : Bool :=
  d.num 60 4 == crcFold c32c (d.ring * 2 ^ 32 + d.index) (d.bytes.take 60)

/-- A descriptor in progress changed. -/
def State.updDesc (s : State) (r : LoadRef) (f : DescRun → DescRun) : State :=
  s.updAtt r.att fun v => { v with descs := v.descs.map fun d => if d.ring = r.ring ∧ d.index = r.seq then f d else d }

def State.desc (s : State) (r : LoadRef) : Option DescRun :=
  (s.att r.att).descs.find? fun d => d.ring == r.ring && d.index == r.seq

/-- The status of a descriptor in progress known (R404). -/
def State.descDone (s : State) (r : LoadRef) (status oparg : Nat) : State :=
  s.updDesc r fun d => { d with status := some (status, oparg) }

/-- A completion record (R403). -/
def completion (d : DescRun) (status oparg idx : Nat) : List Byte :=
  let body := toBytes 4 (d.num 4 4) ++ [BitVec.ofNat 8 status, BitVec.ofNat 8 d.ring] ++ toBytes 2 d.index ++ toBytes 4 oparg
  body ++ toBytes 4 (crcFold c32c (d.cpl * 2 ^ 32 + idx) body)

/-- INFLIGHT of a command ring shown (R420). -/
def State.inflight (s : State) (a r : Nat) : State :=
  s.wf' (ringBase a .command r + 4) 0 4 ((s.att a).descs.filter fun d => d.ring == r && d.started).length

/-- The completion record of a descriptor written: record, tail, shadow (R391, R403). A completion ring that runs no longer takes none,
and the command ring enters ERROR as R403 fixes for one that names such a ring (R388; DEDUCED). -/
def State.putCompletion (s : State) (a : Nat) (d : DescRun) (status oparg : Nat) : State :=
  let b := ringBase a .completion d.cpl
  let idx := s.ringDev b
  if s.ringRuns b then
    ((s.toHost a (s.ringAddr b + idx % s.ringSize b * 16) (completion d status oparg idx)).wr (b + 16) (BitVec.ofNat 32 (idx + 1))).shadow
      a .completion d.cpl
  else s.ringError a .command d.ring causeCpl

/-- A descriptor completes: its record, then the command ring's head moves on where the ring runs (R388, R391, R403). -/
def State.complete (s : State) (a : Nat) (d : DescRun) (status oparg : Nat) : State :=
  let s2 := s.putCompletion a d status oparg
  let c := ringBase a .command d.ring
  let s3 := if s2.ringRuns c then ((s2.wr (c + 16) (BitVec.ofNat 32 (d.index + 1))).count (c + 24) 1).shadow a .command d.ring else s2
  let s4 := s3.updAtt a fun v => { v with descs := v.descs.filter fun q => !(q.ring == d.ring && q.index == d.index) }
  if status = 1 then s4.count (Reg.HIF_CHECK_ERR a) 1 else s4

/-- Descriptors of a ring whose status is known complete in index order (R395). -/
def State.retire : Nat → State → Nat → Nat → State
  | 0, s, _, _ => s
  | fuel + 1, s, a, r =>
    match (s.att a).descs.find? (·.ring == r) with
    | none => s.inflight a r
    | some d =>
      match d.status with
      | none => s.inflight a r
      | some (st, arg) => (s.complete a d st arg).retire fuel a r

/-- A completion ring has room for one more than the descriptors in progress that name it need (R403). -/
def State.cplRoom (s : State) (a q : Nat) : Bool :=
  let b := ringBase a .completion q
  let used := (s.ringDev b + 2 ^ 32 - s.ringHost b) % 2 ^ 32
  let owed := ((s.att a).descs.filter fun d => d.started && d.cpl == q).length
  decide (used + owed < s.ringSize b)

/-- The descriptor of a ring that may start next: the oldest not started, with at most 8 in progress, a fence only
after everything earlier has completed, and room in its completion ring (R395, R403). -/
def State.nextDesc (s : State) (a r : Nat) : Option DescRun :=
  let mine := (s.att a).descs.filter (·.ring == r)
  match mine.find? fun d => !d.started with
  | none => none
  | some d =>
    let before := (mine.filter (·.started)).length
    if s.ringRuns (ringBase a .command r) ∧ before < 8 ∧ (d.fence = false ∨ before = 0) ∧ s.cplRoom a d.cpl then some d else none

/-- A descriptor started. -/
def State.startDesc (s : State) (r : LoadRef) (core : Nat) : State :=
  (s.updDesc r fun d => { d with started := true, core := core }).inflight r.att r.ring

/-- Is an opcode one of R394's? -/
def opKnown (op : Nat) : Bool := decide (op < 15)

/-- Descriptors that need no command of their own start and end at once: a wrong CHECK, or a reserved opcode (R393,
R396); one whose completion ring is not RUNNING puts its command ring into ERROR with cause CPL (R403). -/
def State.pump : Nat → State → Nat → Nat → State
  | 0, s, _, _ => s
  | fuel + 1, s, a, r =>
    match s.nextDesc a r with
    | none => s.retire 64 a r
    | some d =>
      if !(s.ringRuns (ringBase a .completion d.cpl)) then s.ringError a .command r causeCpl
      else if !d.checkOk then
        (((s.startDesc ⟨a, r, d.index⟩ 0).descDone ⟨a, r, d.index⟩ 1 0).retire 64 a r).pump fuel a r
      else if !(opKnown d.op) then
        (((s.startDesc ⟨a, r, d.index⟩ 0).descDone ⟨a, r, d.index⟩ 2 0).retire 64 a r).pump fuel a r
      else s.retire 64 a r

/-- A descriptor's end: its status, then whatever of its ring can complete or start. -/
def State.finish (s : State) (r : LoadRef) (status oparg : Nat) : State :=
  ((s.descDone r status oparg).retire 64 r.att r.ring).pump 64 r.att r.ring

end Sys2Proof.Machine
end

