-- ==== Sys2Proof/Machine/Replay.lean ====
section
/-! DEFINITION. The replay unit: the image of a core's step, its SHADOW_COPY packets, replays that begin, and audits
(10_integrity.md R355, R361). -/
namespace Sys2Proof.Machine

/-- Triggers of R357: an audit is finding 2. -/
def trigTwin : Nat := 1
def trigAudit : Nat := 2
def trigDense : Nat := 3

/-- The step that grove `g` replays or is asked about: the one open. -/
def State.verdictStep (s : State) (g : Nat) : Nat :=
  match s.partOf g with | some k => (s.part k).openStep.getD 0 | none => 0

/-- The three emit streams by the KINDs of their entries (R348). -/
def streamKinds : List (List Nat) := [[kindNeuron], [kindDense], [kindKey, kindArg]]

/-- Entries of a stream, in order. -/
def streamOf (kinds : List Nat) (ents : List Word) : List Word := ents.filter fun w => kinds.contains (logKind w)

/-- Entries of the handler stream. -/
def handlerEnts (ents : List Word) : List Word := streamOf [kindKey, kindArg] ents

/-- Enabled STEP dense operations of core `p`, in slot order. -/
def State.stepOps (s : State) (p : Nat) : List DnsOp :=
  ((List.range 4).map fun o => s.opCfg p o).filter fun op => op.en && op.trigger == trgStep

/-! ### The image (R355) -/

/-- Lane-neurons of core `p` with their groups, in index order. -/
def State.ownedLanes (s : State) (p : Nat) : List (Nat × Grp) :=
  (s.grps p).flatMap fun g => (List.range (g.lanes * g.n)).map fun i => (64 * g.base + i, g)

def bytesFrom (off n : Nat) : List Nat := (List.range n).map (off + ·)

/-- Entries of the handler stream that the log of core `p` holds for step `n`. -/
def State.handlerLog (s : State) (p n : Nat) : List LogEnt :=
  (s.core p).log.filter fun e => e.step == n && (logKind (s.word p (logAt e.slot)) == kindKey || logKind (s.word p (logAt e.slot)) == kindArg)

/-- Offsets of the bytes of the replay image of core `p` in step `n`, in copying order: live records, current slots,
tables, the ACT inputs and LOCAL weights of its STEP operations, then its HANDLER entries, to which an audited core may still
add. -/
def State.image (s : State) (p n : Nat) : List Nat :=
  let c := s.core p
  (s.ownedLanes p).flatMap (fun ig => bytesFrom (ig.2.copyAt ig.1 (c.live (ig.1 / 64))) 8)
    ++ (s.ownedLanes p).flatMap (fun ig => bytesFrom (slotAt ig.1) 3)
    ++ bytesFrom tableBase 4096
    ++ (s.stepOps p).flatMap (fun op =>
      (if op.membrane then [] else bytesFrom (op.inOff + halfOf op.inPar n (op.m * op.k)) (op.m * op.k))
        ++ (if op.stream then [] else bytesFrom (op.w % 2 ^ 18) op.weightBytes))
    ++ (s.handlerLog p n).flatMap fun e => bytesFrom (logAt e.slot) 4

/-- A byte of an image copied in whole words, which clears the poison of the word. -/
def State.imageByte (s : State) (q off : Nat) (b : Byte) : State :=
  let t := s.putByte q off b
  { t with poison := Store.erase (memKey q off / 8 * 8) t.poison, flaws := Store.erase (memKey q off / 8 * 8) t.flaws }

/-- The next SHADOW_COPY packet of grove `g`'s replay, of at most 256 bytes: one at a time (DESIGN CHOICE: R355 gives the packets no
order), once the sapling's memory is ON. -/
def State.sendImage (s : State) (g : Nat) : State :=
  match (s.grove g).replay with
  | none => s
  | some r =>
    let offs := ((s.image r.core (s.verdictStep g)).drop r.copied).take 256
    if r.running || r.sent != r.copied || offs.isEmpty || !(s.memOn r.sapling) then s
    else
      (s.updGrove g fun v => { v with replay := some { r with sent := r.copied + offs.length } }).fromStop g (0x80 + g) 2 r.sapling
        (.shadowCopy g r.copied (offs.map fun o => s.byte r.core o))

/-- SHADOW_COPY: packet `i` of the image of grove `g`'s replay reaches the sapling, and the next one leaves (R355). It wakes the
core's logic as any packet does (03_neurons.md R103). -/
def execShadowCopy (g i : Nat) (s : State) : Host.Outcome State Fault Refusal :=
  match s.takeCore i with
  | some (q, f, t) =>
    match f.body with
    | .shadowCopy h pos bytes =>
      if h = g then
      let t1 := t.wake q
      (match (t1.grove g).replay with
      | none => .next t1
      | some r =>
        if r.sapling = q ∧ r.running = false ∧ pos = r.copied then
          let offs := ((t1.image r.core (t1.verdictStep g)).drop pos).take bytes.length
          let t2 := (offs.zip bytes).foldl (fun u x => u.imageByte q x.1 x.2) t1
          .next ((t2.updGrove g fun v => { v with replay := some { r with copied := r.copied + bytes.length } }).sendImage g)
        else .next t1)
      else .next s
    | _ => .next s
  | none => .next s

/-! ### Replays begin -/

/-- A SAPLING of a grove becomes REPLAY for the step of `core` (10_integrity.md R355), its domains asked ON
(13_memory_power.md R475); none where the grove has none. -/
def State.startReplay (s : State) (g trigger core : Nat) (y1 : Option Exec) : Option State :=
  match s.sapling g with
  | none => none
  | some q =>
    let s1 := (((s.setRole q roleReplay 0).mapEvent).wakeCore q).updGrove g fun v => { v with
      replay := some { trigger := trigger, core := core, sapling := q, sent := 0, copied := 0, running := false, y1 := y1 } }
    let s2 := ((s1.wf' (Reg.INT_GRV_STATUS g) 30 1 1).count (Reg.INT_GRV_REPLAYS g) 1).count (Reg.INT_REPLAYS_RUN q) 1
    some ((s2.noteSaplings g).sendImage g)

/-! ### Audits (R361) -/

/-- The ACTIVE core whose turn an audit of grove `g` is: by rotation of logical id. -/
def State.auditCore (s : State) (g : Nat) : Option Nat :=
  let a := s.fuses.active
  (List.range a).findSome? fun i =>
    match s.physOf (a * g + ((s.grove g).auditNext + i) % a) with
    | some p => if s.role p = roleActive then some p else none
    | none => none

/-- The audit of step `n` starts when the audited core's integration span ends. -/
def State.auditStart (s : State) (p n : Nat) : State :=
  let g := p / 144
  let k := s.rf (Reg.INT_GRV_AUDIT g) 0 16
  let rounds := match s.partOf g with | some q => (s.part q).rounds | none => 0
  let due := decide (k ≠ 0) && (n % k == 0 || (s.grove g).auditOwed) && rounds == 0 && (s.grove g).auditStep != some n
  if due ∧ s.auditCore g = some p ∧ (s.grove g).replay = none then
    let s1 := s.updGrove g fun v => { v with
      auditNext := (s.logicalOf p - s.fuses.active * g + 1) % max 1 s.fuses.active, auditOwed := false, auditStep := some n }
    match s1.startReplay g trigAudit p none with
    | some t => t
    | none => s1.count (Reg.INT_GRV_AUDIT_SKIP g) 1
  else s

/-- A step that takes a round is not audited: an audit of it that has not been decided is dropped, and passes to the next step, as
does one that has not begun. -/
def State.passAudit (s : State) (g n : Nat) : State :=
  let a := s.rf (Reg.INT_GRV_AUDIT g) 0 16
  match (s.grove g).replay with
  | some r =>
    if r.trigger = trigAudit ∧ r.y1 = none then (s.endReplay g).updGrove g fun v => { v with auditOwed := true } else s
  | none => if a ≠ 0 ∧ n % a = 0 ∧ (s.grove g).auditStep ≠ some n then s.updGrove g fun v => { v with auditOwed := true } else s

end Sys2Proof.Machine
end

