-- ==== Sys2Proof/Machine/Dense.lean ====
section
/-! DEFINITION. The dense tile (04_synapses_dense.md R137 to R144): column blocks, their checks, outputs and events,
and the order in which a core's operations run. -/
namespace Sys2Proof.Machine

/-- Membrane of lane-neuron `i` in the copy that becomes live if the step commits (R138). -/
def State.nextV (s : State) (q : Nat) (g : Grp) (i : Nat) : Int :=
  let c := s.core q
  let b := i / 64
  let cp := if c.blocks / 2 ^ b % 2 = 1 then 1 - c.live b else c.live b
  sx 16 (s.num q (g.copyAt i cp) 2)

/-- Input `k` of vector `v`, as an 8-bit value, with the rescale of a MEMBRANE input (R138, R73). -/
def State.denseIn (s : State) (p q : Nat) (op : DnsOp) (n v k : Nat) : Nat × Option RescOut :=
  if op.membrane then
    match (s.grps p).find? fun g => g.idx == op.inGrp with
    | none => (0, none)
    | some g =>
      let r := rescale (s.resc q op.inCh) (s.nextV q g (g.lane v k))
      (low 8 r.out, some r)
  else (s.num q (op.inOff + halfOf op.inPar n (op.m * op.k) + v * op.k + k) 1, none)

/-- A weight tile as a number. -/
def State.tileNum (s : State) (q : Nat) (op : DnsOp) (cb kt : Nat) : Nat :=
  if op.stream then s.hbmNum (op.tileAt cb kt) op.tile else s.num q (op.tileAt cb kt) op.tile

/-- Scale byte of row `r` of an X4 tile (R137). -/
def tileScale (t r : Nat) : Nat := if r < 4 then nfld t 256 8 else nfld t 264 8

/-- Weight operand (r, c) of a tile with its X4 shift applied. -/
def DnsOp.tileW (op : DnsOp) (f : FmtSlot) (t r c : Nat) : Int :=
  product (weightOperand f (packedCode f t (r * op.nc + c))) 1 (if f.wfmt = 7 then x4Shift f (tileScale t r) else 0)

/-- Non-canonical decodes of a tile (R50, R52). -/
def DnsOp.tileOdd (op : DnsOp) (f : FmtSlot) (t : Nat) : Nat :=
  ((List.range (8 * op.nc)).filter fun i => oddCode f (packedCode f t i)).length
    + b2n (oddScale f (tileScale t 0)) + b2n (oddScale f (tileScale t 4))

/-- One column block: exact sums by vector and column (R139). -/
structure ColBlock where
  /-- For each vector, the sums of the block's columns. -/
  sums : List (List Int)
  odd : Nat
  deriving DecidableEq, Repr

/-- The column block `cb` of an operation. The codes of a tile that several vectors use are decoded once (DESIGN CHOICE:
02_arithmetic.md R80 counts decodes at the time of decode and does not say that each vector decodes its tile anew). -/
def State.colBlock (s : State) (p q : Nat) (op : DnsOp) (n cb : Nat) : ColBlock :=
  let f := s.fmtSlot q op.fslot
  let kts := List.range (op.k / 8)
  let tiles := kts.map fun kt => s.tileNum q op cb kt
  let acts (v : Nat) : List Int := (List.range op.k).map fun k => actOperand f (s.denseIn p q op n v k).1
  { sums := (List.range op.m).map fun v =>
      let a := acts v
      (List.range op.nc).map fun c =>
        (tiles.zip kts).foldl (fun acc tk =>
          (List.range 8).foldl (fun acc r => acc + a.getD (8 * tk.2 + r) 0 * op.tileW f tk.1 r c) acc) 0
    odd := (tiles.map fun t => op.tileOdd f t).foldl (· + ·) 0 }

/-- The accumulator of an exact sum: modulo 2^24 (02_arithmetic.md R57). -/
def accOf (x : Int) : Int := sx 24 (low 24 x)

/-- Row and column checks of a block, in 40-bit arithmetic (R143): true when they hold. A column sum that leaves the A24
range makes the accumulator differ from the exact sum, and the check fails (DEDUCED: R143 compares acc with the sums of
the operands modulo 2^40; 02_arithmetic.md R57 says only that the device does not detect a slot that leaves the
range). -/
def ColBlock.checks (b : ColBlock) : Bool :=
  let total (f : Int → Int) (l : List Int) : Nat := low 40 ((l.map f).foldl (· + ·) 0)
  let rows := b.sums.all fun l => total accOf l == total id l
  let cols := (List.range ((b.sums.headD []).length)).all fun c =>
    let l := b.sums.map fun v => v.getD c 0
    total accOf l == total id l
  rows && cols

/-- Channel of a column (R138). -/
def DnsOp.channel (op : DnsOp) (col : Nat) : Nat := if op.shared then op.chBase else op.chBase + col

/-- Outputs of a block: vector, column and rescale, for columns below N (R139). -/
def State.outputs (s : State) (q : Nat) (op : DnsOp) (cb : Nat) (b : ColBlock) : List (Nat × Nat × RescOut) :=
  (List.range op.m).flatMap fun v =>
    ((List.range op.nc).filter fun c => decide (cb * op.nc + c < op.n)).map fun c =>
      let col := cb * op.nc + c
      (v, col, rescale (s.resc q (op.channel col)) (accOf ((b.sums.getD v []).getD c 0)))

/-- Base of the ACT output of step `n` (R140). -/
def DnsOp.outAt (op : DnsOp) (n : Nat) : Nat :=
  op.out % 2 ^ 18 + (if op.trigger = trgStep then n % 2 * op.outBytes else 0)

/-- A sample of a channel's monitors (02_arithmetic.md R68). -/
def State.monSample (s : State) (q ch : Nat) (r : RescOut) : State :=
  s.updCore q fun c => { c with mons := Store.set (fun _ => Mon.none) c.mons ch ((Store.get (fun _ => Mon.none) c.mons ch).sample r) }

/-- ACT outputs written, or the events of an EVENTS block formed (R140, R144): the words to log. Every output is a sample of
its channel, whatever triggered the operation; the monitors are cleared at step open (02_arithmetic.md R68). -/
def State.denseOut (s : State) (q o : Nat) (op : DnsOp) (n : Nat) (outs : List (Nat × Nat × RescOut)) : State × List Word :=
  let s1 := outs.foldl (fun t x => t.monSample q (op.channel x.2.1) x.2.2) s
  if op.events then
    (s1, (outs.filter fun x => decide (x.2.2.out ≠ (s.resc q (op.channel x.2.1)).zo)).map fun x =>
      denseWord (low 8 x.2.2.out) o x.1 x.2.1)
  else (outs.foldl (fun t x => t.stepNum q (op.outAt n + x.1 * op.n + x.2.1) 1 (low 8 x.2.2.out)) s1, [])

/-- The rescales of a MEMBRANE input are samples of channel IN_CH (R138). Each input is rescaled once for the operation, at
its first column block (DESIGN CHOICE: 02_arithmetic.md R68 does not say whether an input read again for a later column
block is rescaled again). -/
def State.membraneSamples (s : State) (p q : Nat) (op : DnsOp) (n : Nat) : State :=
  if op.membrane then
    (List.range op.m).foldl (fun t v => (List.range op.k).foldl (fun t k =>
      match (s.denseIn p q op n v k).2 with | some r => t.monSample q op.inCh r | none => t) t) s
  else s

/-- Every STEP operation of core `p` run on core `q` for a replay: outputs and entries, nothing injected
(10_integrity.md R355). -/
def State.denseSilent (s : State) (p q n : Nat) : State :=
  (List.range 4).foldl (fun t o =>
    let op := t.opCfg p o
    if op.en ∧ op.trigger = trgStep then
      (List.range op.blocks).foldl (fun t cb =>
        let b := t.colBlock p q op n cb
        let t1 := (t.count (Reg.CORE_FMT_ODD q) b.odd)
        let t2 := if b.checks then t1 else t1.flag q flagDense
        let (t3, ws) := t2.denseOut q o op n (t2.outputs q op cb b)
        ws.foldl (fun u w => u.logSilent q n [w]) t3) (t.membraneSamples p q op n)
    else t) s

/-! ### The tile's order of work -/

/-- An operation takes the tile. -/
def State.dnsStart (s : State) (p : Nat) (r : DnsRun) : State :=
  (s.updCore p fun c => { c with dns := some r }).dnsShow p dsRunning r.op r.cb

/-- No operation of the step is left to do at core `p`. -/
def Core.stepDone (c : Core) : Bool := c.openStep == none || (c.spanEnded && c.dnsSteps.isEmpty)

/-- Migration of the core is being forced (10_integrity.md R369). -/
def State.forcing (s : State) (p : Nat) : Bool := s.bit (Reg.INT_TEST p) 29

/-- The next operation takes the tile once it is free (R140): STEP operations in slot order, then those outside the
step once the core's step work is done. -/
def State.dnsNext (s : State) (p : Nat) : State :=
  let c := s.core p
  match c.dns with
  | some _ => s
  | none =>
    match c.dnsSteps, c.spanEnded with
    | o :: _, true => s.dnsStart p ⟨o, 0, .step, 0, false, 0, 0⟩
    | _, _ =>
      match c.dnsQ with
      | r :: rest =>
        if c.stepDone ∧ s.forcing p = false then (s.updCore p fun c => { c with dnsQ := rest }).dnsStart p r
        else s.dnsShow p dsSuspended r.op r.cb
      | [] => s.dnsShow p dsIdle 0 0

/-- Event words of the tile logged in order until one finds no entry; the rest stall the tile (R277). -/
def State.denseEmit (s : State) (p n cls : Nat) : List Word → State
  | [] => (s.updCore p fun c => { c with dnsEvents := [] }).stallShow p
  | w :: ws =>
    match s.emit p n cls [w] with
    | some t => t.denseEmit p n cls ws
    | none => (s.updCore p fun c => { c with dnsEvents := w :: ws }).stallShow p

/-- Column blocks in a chunk: the most whose cycles fit the limit, at least one (R142). -/
def State.chunkBlocks (s : State) (p : Nat) (op : DnsOp) : Nat :=
  max 1 ((min 150000 (s.rf (Reg.DNS_CTRL p) 0 18) - op.tailCycles) / max 1 op.blockCycles)

/-- The run of core `p` has done its column block and moves on: chunk and suspension boundaries (R140, R142). -/
def State.dnsAdvance (s : State) (p : Nat) (op : DnsOp) (r : DnsRun) : State :=
  let cb := r.cb + 1
  let chunkEnd := decide (r.chunk + s.chunkBlocks p op ≤ cb) || decide (op.blocks ≤ cb)
  let s1 := if chunkEnd then s.count (Reg.DNS_CHUNKS p) 1 else s
  let r1 := if chunkEnd then { r with cb := cb, chunk := cb, rerun := false } else { r with cb := cb }
  let outside := r.owner != .step
  let yields := outside && decide (cb < op.blocks) && (!((s1.core p).stepDone) || (chunkEnd && s1.forcing p))
  if yields then ((s1.updCore p fun c => { c with dns := none, dnsQ := r1 :: c.dnsQ }).dnsShow p dsSuspended r.op cb).dnsNext p
  else (s1.updCore p fun c => { c with dns := some r1 }).dnsShow p dsRunning r.op cb

/-- A mismatch of column block `r.cb` (R143): the step becomes suspect; outside the step the chunk is run once more, and
a second mismatch ends the operation with a strike. -/
def State.dnsMismatch (s : State) (p : Nat) (op : DnsOp) (r : DnsRun) : State :=
  let s1 := (s.count (Reg.DNS_CHECK_FAIL p) 1).report fltDense (s.coreKeys p [r.op, r.cb])
  if r.rerun then
    ((s1.strike p strikeChunk).updCore p fun c => { c with dns := some { r with failed := 1, cb := op.blocks } }).dnsShow p
      dsRunning r.op r.cb
  else (s1.updCore p fun c => { c with dns := some { r with rerun := true, cb := r.chunk, got := 0 } }).dnsShow p
    dsRunning r.op r.chunk

/-! ### The commands -/

/-- Where column block `cb` of a LOCAL operation finds its weights, and where it finds its inputs, with their lengths. -/
def DnsOp.weightSpan (op : DnsOp) (cb : Nat) : Nat × Nat := if op.stream then (0, 0) else (op.tileAt cb 0, op.k / 8 * op.tile)
def DnsOp.inputSpan (op : DnsOp) (n : Nat) : Nat × Nat :=
  (op.inOff + halfOf op.inPar n (op.m * op.k), if op.membrane then 0 else op.m * op.k)

/-- Column block `cb` reads local memory: what errors it meets (10_integrity.md R346). -/
def State.blockMeet (s : State) (p : Nat) (op : DnsOp) (cb n : Nat) : State :=
  (s.meet p (op.weightSpan cb).1 (op.weightSpan cb).2).meet p (op.inputSpan n).1 (op.inputSpan n).2

/-- It reads a poisoned word (10_integrity.md R347). -/
def State.blockPoisoned (s : State) (p : Nat) (op : DnsOp) (cb n : Nat) : Bool :=
  s.poisoned p (op.weightSpan cb).1 (op.weightSpan cb).2 || s.poisoned p (op.inputSpan n).1 (op.inputSpan n).2

/-- The current column block of a STEP operation is done: a poisoned read and a failed check mark the step's report (R344, R347), and
its outputs go on. -/
def State.stepBlock (s : State) (p : Nat) (op : DnsOp) (r : DnsRun) (n : Nat) (b : ColBlock) (ue bad : Bool) : State :=
  let s2 := if ue then s.flag p flagSram else s
  let s3 := if bad then ((s2.count (Reg.DNS_CHECK_FAIL p) 1).report fltDense (s2.coreKeys p [r.op, r.cb])).flag p flagDense else s2
  let s4 := if r.cb = 0 then s3.membraneSamples p p op n else s3
  let (s5, ws) := s4.denseOut p r.op op n (s4.outputs p op r.cb b)
  (s5.denseEmit p n (1 - op.cls) ws).dnsAdvance p op r

/-- The current column block of an operation outside the step is done: a poisoned read ends the operation, a failed check is tried
again (R345, R347). -/
def State.freeBlock (s : State) (p : Nat) (op : DnsOp) (r : DnsRun) (n : Nat) (b : ColBlock) (ue bad : Bool) : State :=
  if ue then (s.updCore p fun c => { c with dns := some { r with failed := 2, cb := op.blocks } }).dnsShow p dsRunning r.op r.cb
  else if bad then s.dnsMismatch p op r
  else (s.denseOut p r.op op n (s.outputs p op r.cb b)).1.dnsAdvance p op r

/-- The tile works through the current column block: its multiplications are counted. -/
def State.doBlock (s : State) (p : Nat) (mismatch : Bool) (op : DnsOp) (r : DnsRun) (n : Nat) (ue : Bool) : State :=
  let b := s.colBlock p p op n r.cb
  let s1 := (s.count (Reg.CORE_FMT_ODD p) b.odd).count64 (Reg.DNS_MACS_LO p) (op.k * op.m * op.nc)
  let bad := mismatch || !b.checks
  if r.owner = .step then s1.stepBlock p op r n b ue bad else s1.freeBlock p op r n b ue bad

/-- DENSE_COLUMN_BLOCK_DONE: a column block of the operation in progress finishes; `mismatch` is a fault of the tile
(R143). A tile whose stream is not ahead of it stalls (R141). -/
def execDenseColumnBlockDone (p : Nat) (mismatch : Bool) (s : State) : Host.Outcome State Fault Refusal :=
  match (s.core p).dns with
  | none => .next s
  | some r =>
    let op := s.opCfg p r.op
    if op.blocks ≤ r.cb ∨ (s.core p).dnsEvents ≠ [] ∨ (s.core p).halted then .next s
    else if s.streamReady p op r = false then .next (s.dnsShow p dsStalled r.op r.cb)
    else
      let n := (s.core p).openStep.getD 0
      let t := s.blockMeet p op r.cb n
      let u := if op.stream then t.streamHits p (op.tileAt r.cb 0) (op.k / 8 * op.tile) r.got else t
      .next (u.doBlock p mismatch op r n (t.blockPoisoned p op r.cb n))

/-- DENSE_OP_DONE: an operation whose column blocks are done completes (R140, R211, 11_host_interface.md R401). -/
def execDenseOpDone (p : Nat) (s : State) : Host.Outcome State Fault Refusal :=
  match (s.core p).dns with
  | none => .next s
  | some r =>
    let op := s.opCfg p r.op
    if r.cb < op.blocks ∨ (s.core p).dnsEvents ≠ [] then .next s
    else
      let s1 := s.updCore p fun c => { c with dns := none, dnsSteps := if r.owner = .step then c.dnsSteps.drop 1 else c.dnsSteps }
      match r.owner with
      | .step => .next (s1.dnsNext p)
      | .desc ref => .next ((s1.dnsNext p).finish ref (match r.failed with | 0 => 0 | 1 => 15 | _ => 13) 0)
      | .handler q w =>
        .next ((s1.dnsNext p).fillReserved p q (BitVec.ofNat 32 (w.toNat / 256 * 256 + (if r.failed = 0 then 0 else 1))))

/-- INTEGRATION_SPAN_END: the core's integration span ends: whatever is left of it is integrated first, and unless that
stalls the engine its STEP operations start in slot order (R140) and an audit of the core may begin
(10_integrity.md R361). -/
def execIntegrationSpanEnd (p : Nat) (s : State) : Host.Outcome State Fault Refusal :=
  match (s.core p).openStep with
  | none => .next s
  | some n =>
    let s0 := s.sweepOn p n (s.core p).neuTodo.length
    if (s.core p).spanEnded = true ∨ (s.core p).neuStalled = true then .next s
    else if (s0.core p).neuTodo ≠ [] then .next s0
    else
      let ops := (List.range 4).filter fun o => (s.opCfg p o).en && (s.opCfg p o).trigger == trgStep
      let s1 := s0.updCore p fun c => { c with spanEnded := true, dnsSteps := ops }
      .next (((s1.neuStatus p nsIdle 4096 (s1.bit (Reg.NEU_STATUS p) 8)).dnsNext p).auditStart p n)

end Sys2Proof.Machine
end

