-- ==== Sys2Proof/Machine/Handler.lean ====
section
/-! DEFINITION. The handler engine (06_core_messaging.md R203 to R215): dispatch, the instruction set, sending, and the
waits of a handler. -/
namespace Sys2Proof.Machine

/-! ### Instruction words (R208, R209) -/

/-- The four formats. -/
def encR (op rd ra rb ext : Nat) : Word :=
  BitVec.ofNat 32 (op * 2 ^ 26 + rd % 16 * 2 ^ 22 + ra % 16 * 2 ^ 18 + rb % 16 * 2 ^ 14 + ext % 2 ^ 14)
def encI (op rd ra imm : Nat) : Word :=
  BitVec.ofNat 32 (op * 2 ^ 26 + rd % 16 * 2 ^ 22 + ra % 16 * 2 ^ 18 + imm % 2 ^ 18)
def encJ (op low : Nat) : Word := BitVec.ofNat 32 (op * 2 ^ 26 + low % 2 ^ 26)

/-- imm18 sign-extended. -/
def sext18 (imm : Nat) : Int := sx 18 imm

/-- A word as a signed number. -/
def sword (w : Word) : Int := w.toInt
/-- A number reduced to 32 bits. -/
def toWord (x : Int) : Word := BitVec.ofInt 32 x

/-- Budget of an invocation, in cycles (R213). -/
def hdlBudget : Nat := 65536

/-- Does core `p` issue the instruction whose word is `w`? The engine is RUNNING, nothing is waited for, the budget has
cycles left, and the word at the pc is `w`. -/
def State.issues (s : State) (p : Nat) (w : Word) : Bool :=
  let c := s.core p
  s.hdlSt p == hsRunning && c.wait == .none && !c.halted && decide (0 < c.budget) && s.word p (handlerStore + 4 * s.pc p) == w

/-- An instruction of core `p` issues, is charged its cycles, and has its effect; a poisoned instruction word ends the
handler (10_integrity.md R347). Nothing happens where the instruction is not the one at the pc. -/
def State.instr (s : State) (p : Nat) (w : Word) (cycles : Nat) (effect : State → State) : State :=
  if !(s.issues p w) then s
  else
    let t := s.meet p (handlerStore + 4 * s.pc p) 4
    if t.poisoned p (handlerStore + 4 * s.pc p) 4 then t.hdlEnd p
    else effect (t.updCore p fun c => { c with budget := c.budget - cycles })

/-- The next instruction issues. -/
def State.hdlNext (s : State) (p : Nat) : State := s.setPc p (s.pc p + 1)

/-- A register-to-register instruction (R209): EXT must be zero. -/
def State.aluR (s : State) (p op rd ra rb ext cycles : Nat) (f : Word → Word → Word) : State :=
  s.instr p (encR op rd ra rb ext) cycles fun t =>
    if ext % 2 ^ 14 ≠ 0 then t.hdlFault p hfIllegal
    else (t.setH p (rd % 16) (f (t.h p (ra % 16)) (t.h p (rb % 16)))).hdlNext p

/-- An instruction with an immediate (R209). -/
def State.aluI (s : State) (p op rd ra imm : Nat) (f : Word → Word) : State :=
  s.instr p (encI op rd ra imm) 1 fun t => (t.setH p (rd % 16) (f (t.h p (ra % 16)))).hdlNext p

/-- A data-window access at ea = ra + sext(imm18): the local offset, or the fault (R209, R212). -/
def State.dataAt (s : State) (p ra imm size : Nat) : Except Nat Nat :=
  let ea := sword (s.h p (ra % 16)) + sext18 imm
  if ea < 0 ∨ ((s.rf (Reg.HDL_DATA_SIZE p) 0 18 : Nat) : Int) < ea + (size : Int) then .error hfRange
  else if size = 4 ∧ ea % 4 ≠ 0 then .error hfAlign
  else .ok (s.rf (Reg.HDL_DATA_BASE p) 0 18 + ea.toNat)

/-- A load of `size` bytes; a poisoned read ends the handler and writes no register (10_integrity.md R347). -/
def State.hdlLoad (s : State) (p op rd ra imm size : Nat) : State :=
  s.instr p (encI op rd ra imm) 2 fun t =>
    match t.dataAt p ra imm size with
    | .error c => t.hdlFault p c
    | .ok a =>
      let u := t.meet p a size
      if u.poisoned p a size then u.hdlEnd p else (u.setH p (rd % 16) (BitVec.ofNat 32 (u.num p a size))).hdlNext p

/-- A store of the low `size` bytes of rd. A merge into a poisoned word ends the handler (13_memory_power.md R464). -/
def State.hdlStore (s : State) (p op rd ra imm size : Nat) : State :=
  s.instr p (encI op rd ra imm) 1 fun t =>
    match t.dataAt p ra imm size with
    | .error c => t.hdlFault p c
    | .ok a =>
      let u := t.meet p a size
      if u.poisoned p a size then u.hdlEnd p else (u.setNum p a size (u.h p (rd % 16)).toNat).hdlNext p

/-- A branch: pc + off18 where `f` holds (R209). -/
def State.branch (s : State) (p op ra rb off : Nat) (f : Word → Word → Bool) : State :=
  let taken := f (s.h p (ra % 16)) (s.h p (rb % 16))
  s.instr p (encI op ra rb off) (if taken then 2 else 1) fun t =>
    if taken then
      let tgt := ((t.pc p : Nat) : Int) + sext18 off
      if tgt < 0 ∨ 2047 < tgt then t.hdlFault p hfBranch else t.setPc p tgt.toNat
    else t.hdlNext p

/-! ### Dispatch (R205) -/

/-- Oldest entry of AM queue `q` taken: a good one begins its handler, a bad one is discarded. -/
def State.dispatchFrom (s : State) (p q : Nat) : State × Bool :=
  let v := (s.core p).queue q
  match v.entries with
  | [] => (s, false)
  | e :: rest =>
    let s1 := (s.putQueue p q { v with entries := rest }).updCore p fun c => { c with lastDispatch := q }
    let w := e.words.headD 0
    let t := s1.word p (handlerTable + 4 * fld w 26 6)
    if !(tst t 31) || fld w 24 2 + 1 != e.words.length then (s1.count (Reg.HDL_BAD_AM p) 1, false)
    else
      let s2 := s1.updCore p fun c => { c with hregs := [], budget := hdlBudget, wait := .none }
      let s3 := (List.range 4).foldl (fun u i => u.setH p (1 + i) (e.words.getD i 0)) s2
      let s4 := (s3.setH p 5 (BitVec.ofNat 32 e.src)).setH p 6 (BitVec.ofNat 32 (q + (e.words.length - 1) * 8))
      let s5 := (s4.wf' (Reg.HDL_STATUS p) 16 6 (fld w 26 6)).setPc p (fld t 0 11)
      ((s5.hdlState p hsRunning).count (Reg.HDL_INVOKE p) 1, true)

/-- The engine of core `p` may dispatch: idle, enabled, ACTIVE in an enabled partition whose grove has no grove-wide fault, not held
by a debugger, a move or a forced test (R205, R220, 01_organisation.md R45, 10_integrity.md R369). -/
def State.mayDispatch (s : State) (p : Nat) : Bool :=
  s.hdlSt p == hsIdle && s.bit (Reg.HDL_CTRL p) 0 && s.role p == roleActive && s.groveEnabled (p / 144) &&
    !(s.grove (p / 144)).stopped && !(s.core p).halted && !(s.forcing p) &&
    (s.grove (p / 144)).reserved.all fun r => r.1 != p

/-! ### Sending (R214, R215) -/

/-- The destination of a logical id: a result code, or the physical core (R214). -/
def State.resolve (s : State) (p dest : Nat) : Except Nat Nat :=
  let g := dest / max 1 s.fuses.active
  if s.fuses.active * 64 ≤ dest ∨ s.rd64 (Reg.HDL_PART_GROVES_LO p) / 2 ^ g % 2 ≠ 1 then .error rcOutside
  else match s.physOf dest with
    | none => .error rcUnmapped
    | some q => .ok q

/-- A result of a SEND or SENDW attempt that ends the instruction (R214, R215). -/
def State.sendResult (s : State) (p : Nat) (r : SendReq) (code : Nat) : State :=
  (s.setH p r.rd (BitVec.ofNat 32 code)).hdlGo p

/-- A handler of queue `q` run within the gap of `r`'s retry, what it interrupts kept (R215). -/
def State.nestIn (s : State) (p q : Nat) (r : SendReq) : State :=
  let c := s.core p
  let o : Outer := { regs := c.hregs, handler := s.rf (Reg.HDL_STATUS p) 16 6, pc := s.pc p, budget := c.budget, wait := r }
  let (s2, ok) := s.dispatchFrom p q
  if ok then ((s2.updCore p fun c => { c with outer := some o }).wf' (Reg.HDL_STATUS p) 28 1 1).count (Reg.HDL_NESTED p) 1
  else (s2.updCore p fun c => { c with wait := .gap r }).hdlState p hsRetryGap

/-- The gap before a resend: a waiting handler runs in it unless one is nested already (R215). -/
def State.retryGap (s : State) (p : Nat) (r : SendReq) : State :=
  let gap := (s.updCore p fun c => { c with wait := .gap r }).hdlState p hsRetryGap
  if s.nested p then gap
  else match s.amQueue p with
    | none => gap
    | some q => s.nestIn p q r

/-- The result of one attempt. SENDW retries on NAK_FULL and NAK_TIMEOUT, dispatching one nested handler first where it
may (R215). -/
def State.attemptEnds (s : State) (p : Nat) (r : SendReq) (code : Nat) : State :=
  let s1 := if code = rcOk then s else s.count (Reg.HDL_NAK_RCVD p) 1
  if r.retrying ∧ (code = rcFull ∨ code = rcTimeout) then
    if s1.rf (Reg.HDL_CTRL p) 4 4 ≤ r.resends then
      ((s1.count (Reg.HDL_EXHAUSTED p) 1).count (Reg.HDL_NAK_RCVD p) 1).sendResult p r rcExhausted
    else s1.retryGap p r
  else s1.sendResult p r code

/-- One attempt: the destination resolved and the message sent (R214). A message to the core itself enters its own queue. -/
def State.attempt (s : State) (p : Nat) (r : SendReq) : State :=
  match s.resolve p r.dest with
  | .error code => s.attemptEnds p r code
  | .ok q =>
    if q = p then
      let (s1, code) := s.accept p r.queue r.words p true
      s1.attemptEnds p r code
    else
      let body : Body := match r.words, r.crc with
        | [w], false => .msg 0 w p r.queue 0
        | ws, useCrc => .amArgs p r.queue ws (if useCrc then some (crc c16t (ws.flatMap fun w => toBytes 4 w.toNat)) else none)
      let m := (s.core p).sends + 1
      ((s.updCore p fun c => { c with wait := .send { r with mark := m }, sends := m }).hdlState p hsWaitResponse).unicastMark p 1 q none body m

/-- SEND and SENDW (R211, R214, R215). -/
def State.sendInstr (s : State) (p op rd ra rb ext : Nat) (retrying : Bool) : State :=
  s.instr p (encR op rd ra rb ext) 4 fun t =>
    let a := t.h p (ra % 16)
    let count := fld a 16 2
    if ext % 2 ^ 14 ≠ 0 then t.hdlFault p hfIllegal
    else if fld a 19 13 ≠ 0 ∨ 15 < rb % 16 + count then t.hdlFault p hfOperand
    else t.attempt p { rd := rd % 16, dest := fld a 0 13, queue := fld a 13 3,
                       words := (List.range (count + 1)).map fun i => t.h p (rb % 16 + i), crc := tst a 18,
                       retrying := retrying, resends := 0, mark := 0 }

/-! ### Sync requests (R211, R218, R219) -/

/-- rd and rd + 1 written by a sync instruction; rd = h0 writes only h1. -/
def State.setPair (s : State) (p rd : Nat) (a b : Word) : State := (s.setH p rd a).setH p (rd + 1) b

/-- A sync instruction ends before anything is sent: rd is the code; the value in rd + 1 is not stated and is free. -/
def State.syncNak (s : State) (p rd code : Nat) : State :=
  let (w, t) := s.freeWord
  (t.setPair p rd (BitVec.ofNat 32 code) w).hdlNext p

/-- The notification entry that a sync WAIT reserves first (R218). -/
def State.reserveFor (s : State) (p op q : Nat) : State × Nat := if op = 1 then s.reserve p q else (s, rcOk)

/-- A request to a sync unit, after the operand checks (R211, R214). -/
def State.syncSend (s : State) (p rd op : Nat) (a operand : Word) (gen16 : Nat) : State :=
  let g := fld a 11 6
  if s.rd64 (Reg.HDL_PART_GROVES_LO p) / 2 ^ g % 2 ≠ 1 then s.syncNak p rd rcOutside
  else
    let q := if op = 1 then fld a 17 3 else 0
    let (s1, code) := s.reserveFor p op q
    if code ≠ rcOk then s1.syncNak p rd code
    else
      let m := (s1.core p).sends + 1
      let r : SyncReq := { from_ := p, op := op, object := fld a 0 11, operand := operand, gen16 := gen16, queue := q, mark := m }
      ((s1.updCore p fun c => { c with wait := .sync op rd q m, sends := m }).hdlState p hsWaitResponse).toUnit p (0x40 + g) none (.sync r)

/-- SADD, SWAIT and SREAD. -/
def State.syncInstr (s : State) (p opc rd ra rb ext op : Nat) : State :=
  s.instr p (encR opc rd ra rb ext) 5 fun t =>
    let a := t.h p (ra % 16)
    let extBad := if op = 2 then 8 ≤ ext % 2 ^ 14 ∨ rb % 16 ≠ 0 else ext % 2 ^ 14 ≠ 0
    if extBad then t.hdlFault p hfIllegal
    else if rd % 16 = 15 ∨ (op = 1 ∧ rb % 16 = 15) ∨ fld a 20 12 ≠ 0 then t.hdlFault p hfOperand
    else
      let operand := match op with
        | 2 => BitVec.ofNat 32 (ext % 8)
        | _ => t.h p (rb % 16)
      t.syncSend p (rd % 16) op a operand (if op = 1 then fld (t.h p (rb % 16 + 1)) 0 16 else 0)

/-! ### The commands -/

/-- HANDLER_DISPATCH: an idle engine selects a queue and begins the handler of its oldest entry (R205). -/
def execHandlerDispatch (p : Nat) (s : State) : Host.Outcome State Fault Refusal :=
  if s.mayDispatch p then
    match s.amQueue p with
    | none => .next s
    | some q => .next ((s.wake p).dispatchFrom p q).1
  else .next s

/-- RET ends the handler (R209). -/
def execRet (p low : Nat) (s : State) : Host.Outcome State Fault Refusal :=
  .next (s.instr p (encJ 0x00 low) 1 fun t => if low % 2 ^ 26 ≠ 0 then t.hdlFault p hfIllegal else t.hdlEnd p)

/-- ADD: rd = ra + rb modulo 2^32 (R209). -/
def execAdd (p rd ra rb ext : Nat) (s : State) : Host.Outcome State Fault Refusal :=
  .next (s.aluR p 0x01 rd ra rb ext 1 (· + ·))
/-- SUB: rd = ra - rb modulo 2^32 (R209). -/
def execSub (p rd ra rb ext : Nat) (s : State) : Host.Outcome State Fault Refusal :=
  .next (s.aluR p 0x02 rd ra rb ext 1 (· - ·))
/-- AND: bitwise and (R209). -/
def execAnd (p rd ra rb ext : Nat) (s : State) : Host.Outcome State Fault Refusal :=
  .next (s.aluR p 0x03 rd ra rb ext 1 (· &&& ·))
/-- OR: bitwise or (R209). -/
def execOr (p rd ra rb ext : Nat) (s : State) : Host.Outcome State Fault Refusal :=
  .next (s.aluR p 0x04 rd ra rb ext 1 (· ||| ·))
/-- XOR: bitwise exclusive or (R209). -/
def execXor (p rd ra rb ext : Nat) (s : State) : Host.Outcome State Fault Refusal :=
  .next (s.aluR p 0x05 rd ra rb ext 1 (· ^^^ ·))
/-- SHL: rd = ra << rb[4:0] (R209). -/
def execShl (p rd ra rb ext : Nat) (s : State) : Host.Outcome State Fault Refusal :=
  .next (s.aluR p 0x06 rd ra rb ext 1 fun a b => a <<< (b.toNat % 32))
/-- SHR: rd = ra >> rb[4:0], logical (R209). -/
def execShr (p rd ra rb ext : Nat) (s : State) : Host.Outcome State Fault Refusal :=
  .next (s.aluR p 0x07 rd ra rb ext 1 fun a b => a >>> (b.toNat % 32))
/-- SAR: rd = ra >> rb[4:0], arithmetic (R209). -/
def execSar (p rd ra rb ext : Nat) (s : State) : Host.Outcome State Fault Refusal :=
  .next (s.aluR p 0x08 rd ra rb ext 1 fun a b => a.sshiftRight (b.toNat % 32))
/-- SLT: rd = 1 if ra < rb as signed, else 0 (R209). -/
def execSlt (p rd ra rb ext : Nat) (s : State) : Host.Outcome State Fault Refusal :=
  .next (s.aluR p 0x09 rd ra rb ext 1 fun a b => if sword a < sword b then 1 else 0)
/-- MUL: rd = sext(ra[15:0]) x sext(rb[15:0]), exact (R209). -/
def execMul (p rd ra rb ext : Nat) (s : State) : Host.Outcome State Fault Refusal :=
  .next (s.aluR p 0x0A rd ra rb ext 2 fun a b => toWord (sx 16 a.toNat * sx 16 b.toNat))
/-- ADDI: rd = ra + sext(imm18) (R209). -/
def execAddi (p rd ra imm : Nat) (s : State) : Host.Outcome State Fault Refusal :=
  .next (s.aluI p 0x0B rd ra imm fun a => a + toWord (sext18 imm))
/-- ANDI: rd = ra & zext(imm18) (R209). -/
def execAndi (p rd ra imm : Nat) (s : State) : Host.Outcome State Fault Refusal :=
  .next (s.aluI p 0x0C rd ra imm fun a => a &&& BitVec.ofNat 32 (imm % 2 ^ 18))
/-- ORI: rd = ra | zext(imm18) (R209). -/
def execOri (p rd ra imm : Nat) (s : State) : Host.Outcome State Fault Refusal :=
  .next (s.aluI p 0x0D rd ra imm fun a => a ||| BitVec.ofNat 32 (imm % 2 ^ 18))
/-- LUI: rd = imm18 << 14; ra must be h0 (R209). -/
def execLui (p rd ra imm : Nat) (s : State) : Host.Outcome State Fault Refusal :=
  .next (s.instr p (encI 0x0E rd ra imm) 1 fun t =>
    if ra % 16 ≠ 0 then t.hdlFault p hfIllegal
    else (t.setH p (rd % 16) (BitVec.ofNat 32 (imm % 2 ^ 18 * 2 ^ 14))).hdlNext p)
/-- LD: rd = mem32[ra + sext(imm18)] (R209). -/
def execLd (p rd ra imm : Nat) (s : State) : Host.Outcome State Fault Refusal := .next (s.hdlLoad p 0x10 rd ra imm 4)
/-- ST: mem32[ra + sext(imm18)] = rd (R209). -/
def execSt (p rd ra imm : Nat) (s : State) : Host.Outcome State Fault Refusal := .next (s.hdlStore p 0x11 rd ra imm 4)
/-- LDB: rd = zero-extended mem8[ra + sext(imm18)] (R209). -/
def execLdb (p rd ra imm : Nat) (s : State) : Host.Outcome State Fault Refusal := .next (s.hdlLoad p 0x12 rd ra imm 1)
/-- STB: mem8[ra + sext(imm18)] = rd[7:0] (R209). -/
def execStb (p rd ra imm : Nat) (s : State) : Host.Outcome State Fault Refusal := .next (s.hdlStore p 0x13 rd ra imm 1)

/-- NRD: rd and rd + 1 = words 0 and 1 of the live copy of lane-neuron ra + sext(imm18) (R101, R209, R212). -/
def execNrd (p rd ra imm : Nat) (s : State) : Host.Outcome State Fault Refusal :=
  .next (s.instr p (encI 0x14 rd ra imm) 2 fun t =>
    let i := sword (t.h p (ra % 16)) + sext18 imm
    if rd % 16 = 15 then t.hdlFault p hfOperand
    else if i < 0 ∨ 4095 < i then t.hdlFault p hfNeuron
    else match t.grpOf p i.toNat with
      | none => t.hdlFault p hfNeuron
      | some g =>
        let a := g.copyAt i.toNat ((t.core p).live (i.toNat / 64))
        let u := t.meet p a 8
        if u.poisoned p a 8 then u.hdlEnd p else (u.setPair p (rd % 16) (u.word p a) (u.word p (a + 4))).hdlNext p)

/-- SYS values (R211). -/
def State.sysValue (s : State) (p sel : Nat) : Option Word :=
  let part := s.partOf (p / 144)
  let committed := match part with | some k => s.rd (Reg.STEP_COMMITTED k) | none => 0
  match sel with
  | 0 => some (BitVec.ofNat 32 (s.logicalOf p))
  | 1 => some (BitVec.ofNat 32 (p / 144))
  | 2 => some (BitVec.ofNat 32 (part.getD 0))
  | 3 => some committed
  | 4 => some (match (s.core p).openStep with | some n => BitVec.ofNat 32 n | none => committed)
  | 5 => some (s.rd Reg.TB_REF_LO)
  | 6 => some (BitVec.ofNat 32 s.corePtb)
  | 7 => some (BitVec.ofNat 32 (s.core p).budget)
  | 8 => some (s.rd Reg.INT_MAP_GEN)
  | _ => none

/-- SYS: rd = the system value that imm18 selects (R211). -/
def execSys (p rd ra imm : Nat) (s : State) : Host.Outcome State Fault Refusal :=
  .next (s.instr p (encI 0x15 rd ra imm) 1 fun t =>
    if ra % 16 ≠ 0 then t.hdlFault p hfIllegal
    else match s.sysValue p (imm % 2 ^ 18) with
      | none => t.hdlFault p hfIllegal
      | some w => (t.setH p (rd % 16) w).hdlNext p)

/-- EMIT: an event of the step open at the core, or of the next to open (R209, 08_step_commit.md R272); a handler that
finds no log entry stops in its EMIT (R277). -/
def execEmit (p rd ra rb ext : Nat) (s : State) : Host.Outcome State Fault Refusal :=
  .next (s.instr p (encR 0x18 rd ra rb ext) 3 fun t =>
    if rd % 16 ≠ 0 ∨ 16 ≤ ext % 2 ^ 14 then t.hdlFault p hfIllegal
    else
      let e : EmitReq := { key := fld (t.h p (ra % 16)) 0 28, value := fld (t.h p (rb % 16)) 0 8, lane := ext % 8,
                           cls := 1 - ext / 8 % 2 }
      match t.handlerEmit p e with
      | some u => u.hdlNext p
      | none => (t.updCore p fun c => { c with wait := .emit e }).stallShow p)

/-- DENSE: reserves a completion entry and starts the HANDLER operation (R211). -/
def execDense (p rd ra rb ext : Nat) (s : State) : Host.Outcome State Fault Refusal :=
  .next (s.instr p (encR 0x19 rd ra rb ext) 2 fun t =>
    let a := t.h p (ra % 16)
    let o := fld a 0 2
    let q := fld a 2 3
    let answer (u : State) (code : Nat) : State := (u.setH p (rd % 16) (BitVec.ofNat 32 code)).hdlNext p
    if ext % 2 ^ 14 ≠ 0 then t.hdlFault p hfIllegal
    else if fld a 5 27 ≠ 0 then t.hdlFault p hfOperand
    else if !((t.opCfg p o).en && (t.opCfg p o).trigger == trgHandler) then answer t rcNotHandler
    else if (match (t.core p).dns with | some r => r.op == o | none => false) || (t.core p).dnsQ.any (·.op == o) then
      answer t rcDenseBusy
    else
      let (u, code) := t.reserve p q
      if code ≠ rcOk then answer u code
      else
        let run : DnsRun := ⟨o, 0, .handler q (u.h p (rb % 16)), 0, false, 0, 0⟩
        (answer (u.updCore p fun c => { c with dnsQ := c.dnsQ ++ [run] }) rcOk).dnsNext p)

/-- SEND: sends a message and waits for its response (R214). -/
def execSend (p rd ra rb ext : Nat) (s : State) : Host.Outcome State Fault Refusal :=
  .next (s.sendInstr p 0x1A rd ra rb ext false)
/-- SENDW: sends as SEND and retries on NAK_FULL or NAK_TIMEOUT (R215). -/
def execSendw (p rd ra rb ext : Nat) (s : State) : Host.Outcome State Fault Refusal :=
  .next (s.sendInstr p 0x1B rd ra rb ext true)

/-- WAITQ: takes an entry of a DATA queue, or waits for one (R211). -/
def execWaitq (p rd ra imm : Nat) (s : State) : Host.Outcome State Fault Refusal :=
  .next (s.instr p (encI 0x1C rd ra imm) 3 fun t =>
    if 256 ≤ imm % 2 ^ 18 then t.hdlFault p hfIllegal
    else match t.dataQueue p (imm % 256) with
      | some q => (t.waitqTake p q (rd % 16)).hdlNext p
      | none =>
        if t.h p (ra % 16) = 0 then (t.setH p (rd % 16) 0x80000000).hdlNext p
        else (t.updCore p fun c => { c with wait := .waitq (imm % 256) (rd % 16) }).hdlState p hsWaitQueue)

/-- SADD: a sync ADD request (R209). -/
def execSadd (p rd ra rb ext : Nat) (s : State) : Host.Outcome State Fault Refusal :=
  .next (s.syncInstr p 0x1D rd ra rb ext 0)
/-- SWAIT: reserves a notification entry and sends a sync WAIT request (R218). -/
def execSwait (p rd ra rb ext : Nat) (s : State) : Host.Outcome State Fault Refusal :=
  .next (s.syncInstr p 0x1E rd ra rb ext 1)
/-- SREAD: a sync READ request (R209). -/
def execSread (p rd ra rb ext : Nat) (s : State) : Host.Outcome State Fault Refusal :=
  .next (s.syncInstr p 0x1F rd ra rb ext 2)

/-- BEQ: branch if ra = rb (R209). -/
def execBeq (p ra rb off : Nat) (s : State) : Host.Outcome State Fault Refusal := .next (s.branch p 0x20 ra rb off (· == ·))
/-- BNE: branch if ra differs from rb (R209). -/
def execBne (p ra rb off : Nat) (s : State) : Host.Outcome State Fault Refusal := .next (s.branch p 0x21 ra rb off (· != ·))
/-- BLT: branch if ra < rb as signed (R209). -/
def execBlt (p ra rb off : Nat) (s : State) : Host.Outcome State Fault Refusal :=
  .next (s.branch p 0x22 ra rb off fun a b => decide (sword a < sword b))
/-- BGE: branch if ra ≥ rb as signed (R209). -/
def execBge (p ra rb off : Nat) (s : State) : Host.Outcome State Fault Refusal :=
  .next (s.branch p 0x23 ra rb off fun a b => decide (sword b ≤ sword a))
/-- J: pc = TARGET (R209). -/
def execJ (p low : Nat) (s : State) : Host.Outcome State Fault Refusal :=
  .next (s.instr p (encJ 0x24 low) 2 fun t =>
    if low % 2 ^ 26 / 2 ^ 11 ≠ 0 then t.hdlFault p hfIllegal else t.setPc p (low % 2 ^ 11))

/-- HANDLER_BUDGET_EXPIRE: the budget of the handler that runs or waits is exhausted (R213). -/
def execHandlerBudgetExpire (p : Nat) (s : State) : Host.Outcome State Fault Refusal :=
  if s.hdlSt p = hsIdle ∨ s.hdlSt p = hsHalted ∨ (s.core p).budget ≠ 0 then .next s else .next (s.hdlFault p hfBudget)

/-- SEND_RESPONSE_TIMEOUT: no response within RESP_TIMEOUT; the attempt ends with NAK_TIMEOUT (R214). -/
def execSendResponseTimeout (p : Nat) (s : State) : Host.Outcome State Fault Refusal :=
  match (s.core p).wait with
  | .send r => .next (s.attemptEnds p r rcTimeout)
  | _ => .next s

/-- SENDW_RETRY_GAP: the gap has passed; the destination is resolved again and the message resent (R215). -/
def execSendwRetryGap (p : Nat) (s : State) : Host.Outcome State Fault Refusal :=
  match (s.core p).wait with
  | .gap r => .next ((s.count (Reg.HDL_RETRIES p) 1).attempt p { r with resends := r.resends + 1 })
  | _ => .next s

/-- WAITQ_TIMEOUT: no entry within the limit; rd = 0x8000_0000 (R211). -/
def execWaitqTimeout (p : Nat) (s : State) : Host.Outcome State Fault Refusal :=
  match (s.core p).wait with
  | .waitq _ rd => .next ((s.setH p rd 0x80000000).hdlGo p)
  | _ => .next s

/-- MSG: packet `i`, a one-word message, reaches a receive endpoint (R196, R200). A reserved MTYPE or sender identity is
discarded and counted. -/
def execMsg (i : Nat) (s : State) : Host.Outcome State Fault Refusal :=
  match s.takeCore i with
  | some (p, f, t) =>
    match f.body with
    | .msg mt w src q _ =>
      if 4 ≤ mt then .next (t.discard p f)
      else if mt ≠ 0 then .next s
      else if srcKnown src then .next (t.receive p q [w] src f.mark true)
      else .next (t.discard p f)
    | _ => .next s
  | none => .next s

/-- NOTIFY: packet `i` fills its reserved queue entry (R218). -/
def execNotify (i : Nat) (s : State) : Host.Outcome State Fault Refusal :=
  match s.takeCore i with
  | some (p, f, t) =>
    match f.body with
    | .msg 1 w _ q _ => .next ((t.wake p).fillReserved p q w)
    | _ => .next s
  | none => .next s

/-- AM_ARGS: packet `i` reaches a receive endpoint (R201). -/
def execAmArgs (i : Nat) (s : State) : Host.Outcome State Fault Refusal :=
  match s.takeCore i with
  | some (p, f, t) =>
    match f.body with
    | .amArgs src q ws c =>
      if srcKnown src then
        let ok := match c with | none => true | some v => v == crc c16t (ws.flatMap fun w => toBytes 4 w.toNat)
        .next (t.receive p q ws src f.mark ok)
      else .next (t.discard p f)
    | _ => .next s
  | none => .next s

/-- RESPONSE: packet `i`, a response, reaches the core or the attachment that sent the message (R200, R213,
11_host_interface.md R401). -/
def execResponse (i : Nat) (s : State) : Host.Outcome State Fault Refusal :=
  match s.take i with
  | none => .next s
  | some (f, t) =>
    match f.place, f.body with
    | .core p, .msg 2 _ _ _ code =>
      match (t.core p).wait with
      | .send r => .next (if r.mark = f.mark then t.attemptEnds p r code else t.count (Reg.HDL_STRAY p) 1)
      | _ => .next ((t.wake p).count (Reg.HDL_STRAY p) 1)
    | .unit u, .msg 2 _ src q code =>
      if u < 0xC0 ∨ 0xC8 ≤ u then .next s
      else
        let a := u - 0xC0
        match (t.att a).msgWait with
        | some (ref, dst, qq) =>
          if dst = src ∧ qq = q ∧ f.mark = ref.mark then
            .next ((t.updAtt a fun v => { v with msgWait := none }).finish ref (if code = rcOk then 0 else 18) code)
          else .next t
        | none => .next t
    | _, _ => .next s

/-- SYNC_REPLY: packet `i` writes the result and the value of the core's sync instruction (R200). -/
def execSyncReply (i : Nat) (s : State) : Host.Outcome State Fault Refusal :=
  match s.takeCore i with
  | some (p, f, t) =>
    match f.body with
    | .msg 3 w _ _ code =>
      match (t.core p).wait with
      | .sync op rd q m =>
        if m ≠ f.mark then .next (t.count (Reg.HDL_STRAY p) 1)
        else
          let t1 := if op = 1 ∧ (code = rcPoolFull ∨ code = rcSyncDisabled) then t.unreserve p q else t
          .next ((t1.setPair p rd (BitVec.ofNat 32 code) w).hdlGo p)
      | _ => .next ((t.wake p).count (Reg.HDL_STRAY p) 1)
    | _ => .next s
  | none => .next s

/-- Pending responses after the sender last served, in rotation (R197). -/
def nextResponse (last : Nat) (r : Store Nat) : Option (Nat × Nat) :=
  match r.find? (fun e => decide (last < e.1)) with
  | some e => some e
  | none => r.head?

/-- RESPONSE_SEND: the receive endpoint of core `p` injects one pending response (R197). -/
def execResponseSend (p : Nat) (s : State) : Host.Outcome State Fault Refusal :=
  match nextResponse (s.core p).respLast (s.core p).responses with
  | none => .next s
  | some (src, v) =>
    let s1 := s.updCore p fun c => { c with responses := Store.erase src c.responses, respLast := src }
    let body : Body := .msg 2 0 p ((v - 1) % 8) ((v - 1) / 8 % 16)
    let mark := (v - 1) / 128
    .next (if src < 9216 then s1.unicastMark p 1 src none body mark else s1.toUnitMark p (0xC0 + (src - 9216)) none body mark)

end Sys2Proof.Machine
end

