-- ==== Sys2Proof/Decode.lean ====
section
/-! DEFINITION. Reading words as commands. No row of spec/opcode_table.json gives bits, so no word of the table's
numbering spells a command; the words of handler instructions (06_core_messaging.md R208, R209) are read and written
here in both directions. -/
namespace Sys2Proof

/-- The command that `w` spells by the bits of the opcode table: none, since no row has any. -/
def decodeTableWord (_nbits _w : Nat) : Option Instr := none

/-- The handler instruction of core `p` that the word `w` spells; none for a reserved opcode (R209). Every field is read,
the ones that must be zero too: what an instruction does with a nonzero one is its meaning's business (R212). -/
def decodeHandler (p : Nat) (w : Word) : Option Instr :=
  let a := Machine.fld w 22 4
  let b := Machine.fld w 18 4
  let c := Machine.fld w 14 4
  let ext := Machine.fld w 0 14
  let imm := Machine.fld w 0 18
  let low := Machine.fld w 0 26
  match Machine.fld w 26 6 with
  | 0x00 => some (.ret p low)
  | 0x01 => some (.add p a b c ext)
  | 0x02 => some (.sub p a b c ext)
  | 0x03 => some (.and p a b c ext)
  | 0x04 => some (.or p a b c ext)
  | 0x05 => some (.xor p a b c ext)
  | 0x06 => some (.shl p a b c ext)
  | 0x07 => some (.shr p a b c ext)
  | 0x08 => some (.sar p a b c ext)
  | 0x09 => some (.slt p a b c ext)
  | 0x0A => some (.mul p a b c ext)
  | 0x0B => some (.addi p a b imm)
  | 0x0C => some (.andi p a b imm)
  | 0x0D => some (.ori p a b imm)
  | 0x0E => some (.lui p a b imm)
  | 0x10 => some (.ld p a b imm)
  | 0x11 => some (.st p a b imm)
  | 0x12 => some (.ldb p a b imm)
  | 0x13 => some (.stb p a b imm)
  | 0x14 => some (.nrd p a b imm)
  | 0x15 => some (.sys p a b imm)
  | 0x18 => some (.emit p a b c ext)
  | 0x19 => some (.dense p a b c ext)
  | 0x1A => some (.send p a b c ext)
  | 0x1B => some (.sendw p a b c ext)
  | 0x1C => some (.waitq p a b imm)
  | 0x1D => some (.sadd p a b c ext)
  | 0x1E => some (.swait p a b c ext)
  | 0x1F => some (.sread p a b c ext)
  | 0x20 => some (.beq p a b imm)
  | 0x21 => some (.bne p a b imm)
  | 0x22 => some (.blt p a b imm)
  | 0x23 => some (.bge p a b imm)
  | 0x24 => some (.j p low)
  | _ => none

/-- The core and the word of a handler instruction; none for every other command. -/
def handlerWord (i : Instr) : Option (Nat × Word) :=
  match i with
  | .ret p low => some (p, Machine.encJ 0x00 low)
  | .add p rd ra rb ext => some (p, Machine.encR 0x01 rd ra rb ext)
  | .sub p rd ra rb ext => some (p, Machine.encR 0x02 rd ra rb ext)
  | .and p rd ra rb ext => some (p, Machine.encR 0x03 rd ra rb ext)
  | .or p rd ra rb ext => some (p, Machine.encR 0x04 rd ra rb ext)
  | .xor p rd ra rb ext => some (p, Machine.encR 0x05 rd ra rb ext)
  | .shl p rd ra rb ext => some (p, Machine.encR 0x06 rd ra rb ext)
  | .shr p rd ra rb ext => some (p, Machine.encR 0x07 rd ra rb ext)
  | .sar p rd ra rb ext => some (p, Machine.encR 0x08 rd ra rb ext)
  | .slt p rd ra rb ext => some (p, Machine.encR 0x09 rd ra rb ext)
  | .mul p rd ra rb ext => some (p, Machine.encR 0x0A rd ra rb ext)
  | .addi p rd ra imm => some (p, Machine.encI 0x0B rd ra imm)
  | .andi p rd ra imm => some (p, Machine.encI 0x0C rd ra imm)
  | .ori p rd ra imm => some (p, Machine.encI 0x0D rd ra imm)
  | .lui p rd ra imm => some (p, Machine.encI 0x0E rd ra imm)
  | .ld p rd ra imm => some (p, Machine.encI 0x10 rd ra imm)
  | .st p rd ra imm => some (p, Machine.encI 0x11 rd ra imm)
  | .ldb p rd ra imm => some (p, Machine.encI 0x12 rd ra imm)
  | .stb p rd ra imm => some (p, Machine.encI 0x13 rd ra imm)
  | .nrd p rd ra imm => some (p, Machine.encI 0x14 rd ra imm)
  | .sys p rd ra imm => some (p, Machine.encI 0x15 rd ra imm)
  | .emit p rd ra rb ext => some (p, Machine.encR 0x18 rd ra rb ext)
  | .dense p rd ra rb ext => some (p, Machine.encR 0x19 rd ra rb ext)
  | .send p rd ra rb ext => some (p, Machine.encR 0x1A rd ra rb ext)
  | .sendw p rd ra rb ext => some (p, Machine.encR 0x1B rd ra rb ext)
  | .waitq p rd ra imm => some (p, Machine.encI 0x1C rd ra imm)
  | .sadd p rd ra rb ext => some (p, Machine.encR 0x1D rd ra rb ext)
  | .swait p rd ra rb ext => some (p, Machine.encR 0x1E rd ra rb ext)
  | .sread p rd ra rb ext => some (p, Machine.encR 0x1F rd ra rb ext)
  | .beq p ra rb off => some (p, Machine.encI 0x20 ra rb off)
  | .bne p ra rb off => some (p, Machine.encI 0x21 ra rb off)
  | .blt p ra rb off => some (p, Machine.encI 0x22 ra rb off)
  | .bge p ra rb off => some (p, Machine.encI 0x23 ra rb off)
  | .j p low => some (p, Machine.encJ 0x24 low)
  | _ => none

end Sys2Proof
end

