-- ==== Sys2Proof/Machine/RegWrite.lean ====
section
/-! DEFINITION. One set-up register written by access type: RW, RWL under its lock, W1C, and reserved bits held
(00_scope.md R14 to R16). -/
namespace Sys2Proof.Machine

/-- The table's row of a register, where the key is one. -/
def regAt (key : Nat) : Option RegDesc :=
  match locate key with
  | some (b, o) => findReg b o
  | none => none

/-- Bits of a register that its table leaves reserved. -/
def RegDesc.reserved (d : RegDesc) : Word := ~~~(BitVec.ofNat 32 (d.rw ||| d.rwl ||| d.w1c ||| d.wo ||| d.ro))

/-- What a register holds after a write of `v` (R16): RW bits take it, RWL bits unless locked, W1C bits clear on 1. -/
def RegDesc.apply (d : RegDesc) (old v : Word) (locked : Bool) : Word :=
  let m := BitVec.ofNat 32 (if locked then d.rw else d.rw ||| d.rwl)
  ((old &&& ~~~m) ||| (v &&& m)) &&& ~~~(v &&& BitVec.ofNat 32 d.w1c)

/-- Reserved ones held by a register, invisible to reads (R15). -/
def State.heldOf (s : State) (key : Nat) : Word := Store.get (fun _ => 0) s.heldBits key
def State.setHeld (s : State) (key : Nat) (w : Word) : State := { s with heldBits := Store.set (fun _ => 0) s.heldBits key w }

/-- A register written by access type. Ones written to reserved bits are held, also of a register whose every field is
read-only (R15). -/
def State.maskWrite (s : State) (key : Nat) (v : Word) (locked : Bool) : State :=
  match regAt key with
  | none => s
  | some d => (s.wr key (d.apply (s.rd key) v locked)).setHeld key (v &&& d.reserved)

/-- The value a HI write completes: the waiting LO half, or the present one where none waits (R14). -/
def State.loHalf (s : State) (lo : Nat) : Word :=
  match s.loPend.find? (·.1 == lo) with
  | some e => e.2
  | none => s.rd lo

/-- A LO half waits for its HI write. It waits at its register, for whichever attachment writes HI next (DESIGN CHOICE: R14
does not say for whom a LO half waits; assumption log, 'A LO half waits at its register'). -/
def State.holdLo (s : State) (lo : Nat) (v : Word) : State :=
  { s with loPend := Store.insert lo v (Store.erase lo s.loPend) }

/-- The waiting LO half used up. -/
def State.dropLo (s : State) (lo : Nat) : State := { s with loPend := Store.erase lo s.loPend }

end Sys2Proof.Machine
end

