-- ==== Sys2Proof/Machine/Sync.lean ====
section
/-! DEFINITION. The grove sync units (06_core_messaging.md R216 to R219) and their BAR2 window
(11_host_interface.md R387). -/
namespace Sys2Proof.Machine

def emptyObj : Nat → SyncObj := fun _ => ⟨0, 0, 0, 0⟩
def State.obj (s : State) (g i : Nat) : SyncObj := Store.get emptyObj (s.grove g).objs i
def State.setObj (s : State) (g i : Nat) (o : SyncObj) : State :=
  s.updGrove g fun v => { v with objs := Store.set emptyObj v.objs i o }

def SyncObj.en (o : SyncObj) : Bool := tst o.cfg 31
/-- MODE: 0 BARRIER, 1 SEMAPHORE (R216). -/
def SyncObj.semaphore (o : SyncObj) : Bool := tst o.cfg 0

/-- Waiter records a pool holds (R218). -/
def poolLen : Nat := 4096

/-- Armed waiters on object `i`. -/
def State.armed (s : State) (g i : Nat) : Nat := ((s.grove g).waiters.filter (·.object == i)).length

/-- POOL_USED and POOL_HIGH shown (R230). -/
def State.poolShow (s : State) (g : Nat) : State :=
  let n := (s.grove g).waiters.length
  (s.wf' (Reg.FAB_SYNC_STATUS g) 0 13 n).high (Reg.FAB_SYNC_STATUS g) 16 13 n

/-- The first `n` records of object `i` taken out of a pool. -/
def freeWaiters (i : Nat) : Nat → List Waiter → List Waiter
  | 0, ws => ws
  | _, [] => []
  | n + 1, w :: ws => if w.object = i then freeWaiters i n ws else w :: freeWaiters i (n + 1) ws

/-- Waiters of object `i` notified, oldest first, at most `n` of them; their records are free. -/
def State.notify (s : State) (g i n : Nat) : State :=
  let v := s.grove g
  let hit := (v.waiters.filter (·.object == i)).take n
  (s.setGrove g { v with waiters := freeWaiters i n v.waiters, notices := v.notices ++ hit.map fun w => ⟨w.logical, w.queue, w.word⟩ }).poolShow g

/-- Releases of a barrier whose count has reached its target, and grants of a semaphore (R217); `fuel` bounds the loop
by what COUNT and TARGET allow. -/
def SyncObj.releases (o : SyncObj) : Nat :=
  if 0 < o.target.toInt ∧ o.target.toInt ≤ o.count.toInt then (o.count.toInt / o.target.toInt).toNat else 0

/-- An object after `n` releases. -/
def SyncObj.after (o : SyncObj) (n : Nat) : SyncObj :=
  { o with count := toWord (o.count.toInt - (n : Int) * o.target.toInt), gen := o.gen + BitVec.ofNat 32 n }

/-- ADD of `v` to an object (R217): the result code and the value. -/
def State.syncAddOp (s : State) (g i : Nat) (v : Word) : State × Nat × Word :=
  let o := s.obj g i
  if !o.en then (s, rcSyncDisabled, 0)
  else
    let s0 := s.count (Reg.FAB_SYNC_OPS g) 1
    let o1 := { o with count := o.count + v }
    if o.semaphore then
      let n := min o1.releases (s.armed g i)
      let o2 := o1.after n
      ((s0.setObj g i o2).notify g i n, rcOk, o2.count)
    else
      let n := o1.releases
      let s1 := s0.setObj g i (o1.after n)
      (if n = 0 then s1 else s1.notify g i (s1.armed g i), rcOk, o.gen)

/-- A notification issued without arming (R217). -/
def State.noticeNow (s : State) (g logical q : Nat) (w : Word) : State :=
  s.updGrove g fun v => { v with notices := v.notices ++ [⟨logical, q, w⟩] }

/-- WAIT on an object (R217): the result code and the value. -/
def State.syncWaitOp (s : State) (g : Nat) (r : SyncReq) (logical : Nat) : State × Nat × Word :=
  let o := s.obj g r.object
  if !o.en then (s, rcSyncDisabled, 0)
  else
    let s0 := s.count (Reg.FAB_SYNC_OPS g) 1
    if !o.semaphore && fld o.gen 0 16 != r.gen16 then
      (s0.noticeNow g logical r.queue r.operand, rcImmediate, o.gen)
    else if o.semaphore && s.armed g r.object == 0 && decide (o.target.toInt ≤ o.count.toInt) then
      let o1 := o.after 1
      ((s0.setObj g r.object o1).noticeNow g logical r.queue r.operand, rcImmediate, o1.count)
    else if poolLen ≤ (s.grove g).waiters.length then (s0.count (Reg.FAB_SYNC_POOL_FULL g) 1, rcPoolFull, 0)
    else
      ((s0.updGrove g fun v => { v with waiters := v.waiters ++ [⟨r.object, logical, r.queue, r.operand⟩] }).poolShow g,
        rcOk, o.gen)

/-- READ of a field (R217). -/
def State.syncReadOp (s : State) (g i sel : Nat) : Word :=
  let o := s.obj g i
  match sel with
  | 0 => o.count
  | 1 => o.target
  | 2 => o.gen
  | 3 => BitVec.ofNat 32 (s.armed g i)
  | 4 => o.cfg
  | _ => 0

/-- The unit's reply (R219). -/
def State.syncReply (s : State) (g : Nat) (r : SyncReq) (code : Nat) (v : Word) : State :=
  s.fromStopMark g (0x40 + g) 1 r.from_ (.msg 3 v srcUnit 0 code) r.mark

/-- A request flit at a sync unit, of operation `op`; one whose partition is not the grove's is discarded (R214). -/
def State.syncTake (s : State) (i op : Nat) : Option (Nat × SyncReq × Bool × State) :=
  match s.takeUnit i 0x40 0x80 with
  | some (g, f, t) =>
    match f.body with
    | .sync r => if r.op = op then some (g, r, decide (t.partOf g = some f.part), t) else none
    | _ => none
  | none => none

/-- SYNC_ADD: an ADD request of a core (R217). -/
def execSyncAdd (i : Nat) (s : State) : Host.Outcome State Fault Refusal :=
  match s.syncTake i 0 with
  | none => .next s
  | some (g, r, ok, t) =>
    if !ok then .next (t.count (Reg.FAB_SYNC_REJECT g) 1)
    else
      let (t1, code, v) := t.syncAddOp g r.object r.operand
      .next (t1.syncReply g r code v)

/-- SYNC_WAIT: a WAIT request of a core (R217). -/
def execSyncWait (i : Nat) (s : State) : Host.Outcome State Fault Refusal :=
  match s.syncTake i 1 with
  | none => .next s
  | some (g, r, ok, t) =>
    if !ok then .next (t.count (Reg.FAB_SYNC_REJECT g) 1)
    else
      let (t1, code, v) := t.syncWaitOp g r (t.logicalOf r.from_)
      .next (t1.syncReply g r code v)

/-- SYNC_READ: a READ request of a core (R217); a request with the reserved OP is discarded here (R219). -/
def execSyncRead (i : Nat) (s : State) : Host.Outcome State Fault Refusal :=
  match s.syncTake i 2, s.syncTake i 3 with
  | some (g, r, ok, t), _ =>
    if !ok then .next (t.count (Reg.FAB_SYNC_REJECT g) 1)
    else .next ((t.count (Reg.FAB_SYNC_OPS g) 1).syncReply g r rcOk (t.syncReadOp g r.object (fld r.operand 0 3)))
  | none, some (g, _, _, t) => .next (t.count (Reg.FAB_SYNC_REJECT g) 1)
  | none, none => .next s

/-- SYNC_NOTIFY_ISSUE: the unit of grove `g` issues its oldest notification, translating the logical id (R218). -/
def execSyncNotifyIssue (g : Nat) (s : State) : Host.Outcome State Fault Refusal :=
  match (s.grove g).notices with
  | [] => .next s
  | n :: rest =>
    let s1 := (s.updGrove g fun v => { v with notices := rest }).count (Reg.FAB_SYNC_NOTIFY g) 1
    match s1.physOf n.logical with
    | none => .next s1
    | some p => .next (s1.fromStop g (0x40 + g) 1 p (.msg 1 n.word srcUnit n.queue 0))

/-- An access of attachment `a` to set-up address or object `addr` filtered under R34, and counted (R386). -/
def State.filtered (s : State) (a addr : Nat) : State :=
  (s.count (Reg.HIF_FILTERED a) 1).wr (Reg.HIF_FILTER_ADDR a) (BitVec.ofNat 32 addr)

/-- BAR2 offset of object `i` of grove `g` (R387). -/
def barAddr (g i reg : Nat) : Nat := 32 * (2048 * g + i) + reg

/-- An access of attachment `a` to the sync-object window reaches the unit: the attachment reaches the device, the object exists and the
grove's sync/cache domain is ON (13_memory_power.md R480). -/
def State.barReach (s : State) (a g i : Nat) : Bool :=
  s.busUp a && decide (g < 64) && decide (i < 2048) && s.pwr (groveReg g 0xC4000) == 0

/-- HOST_SYNC_ADD: a host write to SYNC_ADD performs an ADD on the object (R387). -/
def execHostSyncAdd (a g i : Nat) (v : Word) (s : State) : Host.Outcome State Fault Refusal :=
  if s.barReach a g i = false then .next s
  else if s.ownsGrove a g then .next (s.syncAddOp g i v).1 else .next (s.filtered a (barAddr g i 0x10))

/-- BAR2_SYNC_WRITE: a host write to SYNC_CFG (register 0), SYNC_TARGET (4) or SYNC_COUNT (8), unless waiters are armed,
or an enabled object would be left with TARGET below 1 (R216, R387). -/
def execBar2SyncWrite (a g i reg : Nat) (v : Word) (s : State) : Host.Outcome State Fault Refusal :=
  if s.barReach a g i = false then .next s
  else if !(s.ownsGrove a g) then .next (s.filtered a (barAddr g i reg))
  else if 0 < s.armed g i then .next s
  else
    let o := s.obj g i
    match reg with
    | 0 => if tst v 31 && decide (o.target.toInt < 1) then .next s else .next (s.setObj g i { o with cfg := v })
    | 4 => if o.en && decide (v.toInt < 1) then .next s else .next (s.setObj g i { o with target := v })
    | 8 => .next (s.setObj g i { o with count := v })
    | _ => .next s

end Sys2Proof.Machine
end

