-- ==== Sys2Proof/Machine/Access.lean ====
section
/-! DEFINITION. The one check that every set-up access passes: reserved offsets and DEFECT cores, ownership, absent units
and domains that are not ON (00_scope.md R7, R14; 01_organisation.md R33, R34; 11_host_interface.md R386;
12_event_ports.md R445; 13_memory_power.md R480). -/
namespace Sys2Proof.Machine

/-- What becomes of an access: served, counted as bad (R33), counted as filtered (R34), or nothing. -/
inductive Acc where
  | ok | bad | filtered | silent
  deriving DecidableEq, Repr

/-- Key of the register at set-up address `addr` as attachment `a` sees it. -/
def regKey (a addr : Nat) : Nat :=
  match locate addr with
  | some (.att, _) => attReg a addr
  | some (.mba, _) => attReg a addr
  | _ => addr

def State.owns (s : State) (a k : Nat) : Bool := decide (k < 64) && s.ownerOf k == some a
/-- An access to a register of partition `k`. -/
def State.ofPart (s : State) (a k : Nat) : Acc := if s.owns a k then .ok else .filtered

/-- CFG word of the shared entry of a port's window that holds offset `o`, and the place of its PARTITION (R457, R458). -/
def evpEntry (o : Nat) : Option (Nat × Nat) :=
  if o < 0x1000 then none
  else if o < 0x20000 then some (o / 16 * 16, 24)
  else some (o / 32 * 32, 0)

/-- Partition named by the shared entry at key `cfg`, where its EN is 1. -/
def State.entryPart (s : State) (cfg lo : Nat) : Option Nat := if s.bit cfg 31 then some (s.rf cfg lo 6) else none

/-- The domain that a block's registers at offset `o` lie in; none for the central and management domains (R471). -/
def regDom (b : Blk) (o : Nat) : Option Dom :=
  match b with
  | .core p =>
    if o < 0xC00 then some (.logic p) else if o < 0xE00 then some (.router p)
    else if o < 0xF00 then none else some (.mem p)
  | .grove g => if 0xC4000 ≤ o ∧ o < 0xC5000 then none else some (.sync g)
  | .plsg g => some (.pls g)
  | .evp e => some (.evp e)
  | .tb => if 0x100 ≤ o ∧ o < 0x200 then some .phase else none
  | _ => none

/-- The unit a block's registers at offset `o` belong to is on the part (R7). -/
def State.unitHere (s : State) (b : Blk) (o : Nat) : Bool :=
  match b with
  | .tb => if 0x100 ≤ o ∧ o < 0x200 then s.fuses.phase else true
  | .evp e => s.fuses.hasDom (.evp e)
  | .pls => s.fuses.pls
  | .plsg _ => s.fuses.pls
  | .hbm st => s.fuses.hasStack st
  | .pwr => match Dom.ofAddr (0x9000000 + o) with | some d => s.fuses.hasDom d | none => false
  | .grove g => if 0xC4010 ≤ o ∧ o < 0xC4020 then s.fuses.hasDom (.pls g) else true
  | .mgt => if o = 0x1104 then s.fuses.eth2 else true
  | _ => true

/-- Ownership of a register (R34): a partition's are filtered by its owner; device scope and an attachment's own view
are open. -/
def State.accOwner (s : State) (a : Nat) (b : Blk) (o : Nat) : Acc :=
  let byGrove (g : Nat) : Acc := if s.ownsGrove a g then .ok else .filtered
  match b with
  | .core p => byGrove (p / 144)
  | .grove g => byGrove g
  | .plsg g => byGrove g
  | .tb =>
    if o < 0x10000 then .ok
    else
      let w := s.rd (Reg.TB_GCH_OWNER ((o - 0x10000) / 0x40))
      if tst w 31 then s.ofPart a (fld w 0 6) else .filtered
  | .fab => s.ofPart a (o / 0x20)
  | .hif =>
    if 0xF00000 ≤ o then s.ofPart a ((o - 0xF00000) / 0x400)
    else if 0x80800 ≤ o then s.ofPart a ((o - 0x80800) / 4)
    else if 0x80000 ≤ o ∧ o % 0x20 < 0xC then s.ofPart a ((o - 0x80000) / 0x20)
    else .ok
  | .evp e =>
    match evpEntry o with
    | none => .ok
    | some (c, lo) =>
      match s.entryPart (0x7000000 + 0x100000 * e + c) lo with
      | some k => s.ofPart a k
      | none => if o = c then .ok else .silent
  | .int => if 0x1000 ≤ o ∧ o < 0x2000 then s.ofPart a ((o - 0x1000) / 0x40) else .ok
  | .mgt => if 0x3000 ≤ o ∧ o < 0x7000 then s.ofPart a ((o - 0x3000) / 0x100) else .ok
  | .pls => s.ofPart a (o / 0x40)
  | _ => .ok

/-- The check of an access to set-up address `addr` under a rule of ownership. -/
def State.accessBy (s : State) (own : Blk → Nat → Acc) (addr : Nat) : Acc :=
  match locate addr with
  | none => .bad
  | some (b, o) =>
    let defect : Bool := match b with
      | .core p => s.role p == roleDefect && !(decide (0xC00 ≤ o) && decide (o < 0xF00))
      | _ => false
    if (findReg b o).isNone || defect || decide (addr % 4 ≠ 0) then .bad
    else if !(s.unitHere b o) then .silent
    else match own b o with
      | .ok => match regDom b o with
        | some d => if s.domOn d then .ok else .silent
        | none => .ok
      | x => x

/-- The check of an access of attachment `a` to set-up address `addr`. An attachment that does not reach the device makes none. -/
def State.access (s : State) (a addr : Nat) : Acc :=
  if s.busUp a = false then .silent else s.accessBy (s.accOwner a) addr

/-- A write that passes the check has an effect; one that does not is counted (R386). -/
def State.guard (s : State) (a addr : Nat) (effect : State → State) : State :=
  match s.access a addr with
  | .ok => effect s
  | .bad => s.count (Reg.HIF_BAD_ACCESS a) 1
  | .filtered => s.filtered a addr
  | .silent => s

/-- The partition that the RWL fields of a register belong to (00_scope.md R16). -/
def State.lockPart (s : State) (b : Blk) (o : Nat) : Option Nat :=
  match b with
  | .core p => s.partOf (p / 144)
  | .grove g => s.partOf g
  | .plsg g => s.partOf g
  | .tb => if o < 0x10000 then none else
      let w := s.rd (Reg.TB_GCH_OWNER ((o - 0x10000) / 0x40))
      if tst w 31 then some (fld w 0 6) else none
  | .hif => if 0xF00000 ≤ o then some ((o - 0xF00000) / 0x400) else none
  | .int => if 0x1000 ≤ o ∧ o < 0x2000 then some ((o - 0x1000) / 0x40) else none
  | .pls => some (o / 0x40)
  | _ => none

/-- Are the RWL fields of a register locked? -/
def State.rwlLocked (s : State) (b : Blk) (o : Nat) : Bool :=
  match s.lockPart b o with
  | some k => s.enabled k
  | none => false

/-- LO registers of 64-bit quantities (R14). EVP_DST_MAC is not one: its HI register holds a second field (DEDUCED). -/
def pairLo (b : Blk) (o : Nat) : Bool :=
  match b with
  | .core _ =>
    [0x30C, 0x508, 0x61C, 0xA18, 0xA20, 0xA28].contains o ||
      (decide (0x900 ≤ o) && decide (o < 0xA00) && [8, 0x20, 0x28, 0x30].contains (o % 0x40)) ||
      (decide (0xC40 ≤ o) && decide (o < 0xDC0) && [0, 8].contains (o % 0x40))
  | .grove _ => o == 0xC1008 || (decide (0xC3100 ≤ o) && decide (o < 0xC3280) && [0, 8].contains (o % 0x40))
  | .tb =>
    [0, 8, 0x20, 0x200].contains o || (decide (0x100 ≤ o) && decide (o < 0x200) && [8, 0x10].contains (o % 0x20)) ||
      (decide (0x10000 ≤ o) && [8, 0x20, 0x28, 0x30].contains (o % 0x40))
  | .att => [0x20, 0x28].contains o || (decide (0x10000 ≤ o) && decide (o < 0x50000) && o % 0x20 == 8)
  | .hif =>
    (decide (0x80000 ≤ o) && decide (o < 0x80800) && o % 0x20 == 0x10) ||
      (decide (0xF00000 ≤ o) && [0x18, 0x20].contains (o % 0x400))
  | .evp _ => [8, 0x200].contains o
  | .int => o == 0 || (decide (0x1000 ≤ o) && decide (o < 0x2000) && [8, 0x10].contains (o % 0x40))
  | .mba => decide (0x2000 ≤ o) && [8, 0x10].contains (o % 0x20)
  | .mgt => [0x1030, 0x1038].contains o
  | .hbm _ => o == 0x14
  | .cvu => [8, 0x10, 0x18, 0x20, 0x28, 0x30].contains o
  | _ => false

/-- HI register of a 64-bit quantity. -/
def pairHi (b : Blk) (o : Nat) : Bool := decide (4 ≤ o) && pairLo b (o - 4)

/-- Key under which attachment `a` holds the HI half that its last LO read latched. -/
def latchKey (a addr : Nat) : Nat := attReg a addr

/-- The last-stamp registers of an input are read by the owner of its context's partition alone (07_timebase.md R242). -/
def State.stampHidden (s : State) (a : Nat) (b : Blk) (o : Nat) : Bool :=
  match b with
  | .tb =>
    decide (0x100 ≤ o) && decide (o < 0x200) && decide (8 ≤ o % 0x20) && decide (o % 0x20 < 0x18) &&
      !(s.owns a (cfld (s.context (s.rf (Reg.TB_PIN_CFG ((o - 0x100) / 0x20)) 0 20)) 0 0 6))
  | _ => false

/-- What a read of a register returns: the latched half for a HI that a LO read latched, else what the register holds
(R14, R16). -/
def State.readReg (s : State) (a addr : Nat) : Word :=
  match locate addr with
  | some (b, o) =>
    if s.stampHidden a b o then 0
    else if pairHi b o then
      match s.hiLatch.find? (·.1 == latchKey a addr) with
      | some e => e.2
      | none => s.rd (regKey a addr)
    else s.rd (regKey a addr)
  | none => 0

end Sys2Proof.Machine
end

