-- ==== Sys2Proof/Machine/Attach.lean ====
section
/-! DEFINITION. Attachments: links and resets, configuration requests, host memory windows, the enabling of rings and of
the doorbell scanner, scans (11_host_interface.md R382 to R392; 15_startup_pins.md R537, R540). -/
namespace Sys2Proof.Machine

def fltPcieLink : Nat := 32
def fltPcieEcrc : Nat := 33
def fltHostError : Nat := 34
def fltHostReset : Nat := 37

/-! ### Resets and links -/

/-- The port of an attachment runs as two links (R383). -/
def State.bifurcated (s : State) (a : Nat) : Bool := s.pins.strapBif / 2 ^ (a / 2) % 2 == 1

/-- The attachment number of the PERST_N input that governs attachment `a`'s link (15_startup_pins.md R537). -/
def State.perstHigh (s : State) (a : Nat) : Bool := s.pins.perstN / 2 ^ a % 2 == 1

/-- HIF_ registers of attachment `a` that R385 resets: those below the egress paths, HIF_ATT_ID apart, which the straps
and the link give. -/
def hifReset (a key : Nat) : Bool :=
  decide (attReg a 0x6000014 ≤ key) && decide (key < attReg a 0x6060000)

/-- Is a packet one that a descriptor of attachment `a` has left at the edge stop, after the one it is sending? -/
def loadQueued (a : Nat) (f : Flight) : Bool :=
  f.place == .unit (0xC0 + a) && (match f.body with | .loadWrite .. => true | .loadRead .. => true | _ => false)

/-- Descriptors of attachment `a` are abandoned after their current packet: of those that wait at its edge of the overlay only the first
still leaves (R385). -/
def State.dropQueued (s : State) (a : Nat) : State :=
  match s.net.find? (loadQueued a) with
  | none => s
  | some f => { s with
      net := (s.net.takeWhile fun x => !(loadQueued a x)) ++
        f :: ((s.net.dropWhile fun x => !(loadQueued a x)).drop 1).filter fun x => !(loadQueued a x) }

/-- Rings disabled, scanning stopped, HIF_ registers reset, descriptors abandoned, the configuration space as after a reset (R385). Ownership, RWL fields and the
held records of partitions that go on stepping stay. -/
def State.attReset (s : State) (a : Nat) : State :=
  let s1 := { s with regs := s.regs.filter fun e => !(hifReset a e.1), heldBits := s.heldBits.filter fun e => !(hifReset a e.1) }
  let s2 := s1.updAtt a fun v => { v with
    config := [], irqAt := [], irqOwed := [], descs := [], scanOut := false, scanNext := 0, scanned := [], msgWait := none, lost := [],
    lostFull := [], lossTold := [] }
  (s2.wf' (Reg.HIF_REL_STATUS a) 0 17 (s2.att a).held.length).dropQueued a

/-- Attachment `a` loses its link (R385): HIF_ATT_ID shows neither width nor rate until it trains again. -/
def State.linkLoss (s : State) (a : Nat) : State :=
  if (s.att a).linkUp then
    let s1 := (s.attReset a).updAtt a fun v => { v with linkUp := false }
    (s1.wf' (Reg.HIF_ATT_ID a) 20 7 0).report fltPcieLink { detail := [a, a / 2] }
  else s

/-- FUNCTION_LEVEL_RESET of attachment `a` (R385). -/
def execFunctionLevelReset (a : Nat) (s : State) : Host.Outcome State Fault Refusal :=
  if a < 8 ∧ s.busUp a = true then .next ((s.attReset a).report fltHostReset { detail := [a] }) else .next s

/-- PCIE_LINK_LOSS of attachment `a` (R385). -/
def execPcieLinkLoss (a : Nat) (s : State) : Host.Outcome State Fault Refusal :=
  if a < 8 then .next (s.linkLoss a) else .next s

/-- PERST_CHANGE: PERST_N[a] takes a level (15_startup_pins.md R537). Low is a link loss of the attachment it governs. -/
def execPerstChange (a : Nat) (level : Bool) (s : State) : Host.Outcome State Fault Refusal :=
  if a < 8 then
    let n := s.pins.perstN
    let bit := n / 2 ^ a % 2
    let s1 := { s with pins := { s.pins with perstN := n - bit * 2 ^ a + b2n level * 2 ^ a } }
    .next (if level then s1 else s1.linkLoss a)
  else .next s

/-- PCIE_LINK_UP: the link of attachment `a` finishes training at a width and rate that the strap allows (R382, R383,
R419, 15_startup_pins.md R537). -/
def execPcieLinkUp (a width rate : Nat) (s : State) : Host.Outcome State Fault Refusal :=
  let wide := if s.bifurcated a then 3 else 4
  if a < 8 ∧ (s.att a).present = true ∧ (s.att a).linkUp = false ∧ s.perstHigh a = true ∧ s.pins.pgIo = true ∧
      s.domOn (.pcie (a / 2)) = true ∧ width ≤ wide ∧ 1 ≤ rate ∧ rate ≤ 6 then
    let s1 := s.updAtt a fun v => { v with linkUp := true }
    .next ((s1.wf' (Reg.HIF_ATT_ID a) 24 3 width).wf' (Reg.HIF_ATT_ID a) 20 4 rate)
  else .next s

/-! ### The function's configuration space (R382, R384)

The fields of a Type 0 header and of the capability structures are the PCI Express base specification's, and so is what a read of one
that R382 or R384 fixes gives; the offsets of the capability structures are the model's (PRESUMED). -/

/-- Command, BAR0, BAR2, power state, MSI-X control, device control and AER control: dwords that a configuration write changes, with the
bits it changes. -/
def cfgWritable (dw : Nat) : Word :=
  match dw with
  | 1 => 0x00000006
  | 4 => 0xF0000000
  | 5 => 0xFFFFFFFF
  | 6 => 0xFFC00000
  | 7 => 0xFFFFFFFF
  | 17 => 0x00000003
  | 20 => 0xC0000000
  | 30 => 0x000070E0
  | 70 => 0x00000140
  | _ => 0

/-- What the writable bits hold after a reset: read requests of 512 bytes, everything else off. -/
def cfgReset (dw : Nat) : Word := if dw = 30 then 0x2000 else 0

/-- Writable bits of dword `dw` of the configuration space of attachment `a`. -/
def State.cfgWord (s : State) (a dw : Nat) : Word := Store.get cfgReset (s.att a).config dw

/-- The function checks the ECRC of what it receives (R382). -/
def State.ecrcOn (s : State) (a : Nat) : Bool := tst (s.cfgWord a 70) 8

/-- A configuration write of `v`. A power state other than D0 and D3hot, a payload size above 512 bytes and a read request size above 4,096
are not supported and leave the field as it is (R382). -/
def State.cfgWrite (s : State) (a dw : Nat) (v : Word) : State :=
  let old := s.cfgWord a dw
  let keep := match dw with
    | 17 => fld v 0 2 == 1 || fld v 0 2 == 2
    | 30 => decide (2 < fld v 5 3) || decide (5 < fld v 12 3)
    | _ => false
  if keep then s
  else s.updAtt a fun x => { x with config := Store.set cfgReset x.config dw ((old &&& ~~~ cfgWritable dw) ||| (v &&& cfgWritable dw)) }

/-- A configuration read of dword `dw`: `w` stands where neither R382 nor R384 fixes what the function answers. -/
def State.cfgRead (s : State) (a dw : Nat) (w : Word) : Word :=
  let held := s.cfgWord a dw
  match dw with
  | 0 => BitVec.ofNat 32 (Config.vendorId % 2 ^ 16 + 0xF4A0 * 2 ^ 16)
  | 1 => setFld (setFld (setFld w 1 2 (fld held 1 2)) 10 1 0) 20 1 1
  | 2 => BitVec.ofNat 32 (0x120000 * 256 + s.fuses.stepping % 256)
  | 3 => setFld w 16 8 0
  | 4 => held ||| 4
  | 5 => held
  | 6 => held ||| 4
  | 7 => held
  | 8 => 0
  | 9 => 0
  | 13 => setFld w 0 8 0x40
  | 15 => setFld w 8 8 0
  | 16 => setFld w 0 16 0x5001
  | 17 => setFld w 0 2 (fld held 0 2)
  | 20 => BitVec.ofNat 32 (0x7011 + 63 * 2 ^ 16) ||| held
  | 21 => 0x06070000
  | 22 => 0x06071000
  | 28 => setFld w 0 16 0x0010
  | 29 => setFld (setFld w 0 3 2) 28 1 1
  | 30 => setFld (setFld w 5 3 (fld held 5 3)) 12 3 (fld held 12 3)
  | 64 => setFld w 0 16 1
  | 70 => setFld w 5 4 (5 + fld held 5 4)
  | _ => w

/-- CONFIG_REQUEST: a configuration request of attachment `a`'s function, `req` its dword and the data of a write. Request Retry
Status before DEV_READY; after it the request is served (15_startup_pins.md R540). -/
def execConfigRequest (a : Nat) (req : Nat × Option Word) (s : State) : Host.Outcome State Fault Refusal :=
  if a < 8 ∧ (s.att a).linkUp = true then
    if s.pins.devReady = false then .next (s.emitOut (.config a none))
    else
      match req.2 with
      | some v => .next ((s.cfgWrite a req.1 v).emitOut (.config a (some 0)))
      | none =>
        let (w, t) := s.freeWord
        .next (t.emitOut (.config a (some (s.cfgRead a req.1 w))))
  else .next s

/-- What a host read gives the device: a read whose ECRC fails has given its `n` bytes where the function does not check it (R382). -/
def State.hostGave (s : State) (a n : Nat) (bytes : List Byte) : List Byte :=
  if bytes.length = n + 1 ∧ s.ecrcOn a = false then bytes.take n else bytes

/-! ### The scanner and the rings -/

def kindOf (n : Nat) : RingKind := match n with | 0 => .command | 1 => .completion | _ => .egress
def ringCount : RingKind → Nat
  | .command => 64
  | .completion => 64
  | .egress => 512
/-- The right a ring needs of its window: the device reads command rings and writes the others. -/
def ringPerm : RingKind → Nat
  | .command => permRead
  | .completion => permWrite
  | .egress => permWrite

/-- HIF_ATT_CTRL written: SCAN_EN starts the scanner where both pages lie within the windows, else the write is ignored
with WINDOW_ERR (R392, R419). -/
def State.attCtrl (s : State) (a : Nat) (v : Word) : State :=
  let r := Reg.HIF_ATT_CTRL a
  let pages := s.inWindow a permRead (s.rd64 (Reg.HIF_DB_BASE_LO a)) 4096 &&
    s.inWindow a permWrite (s.rd64 (Reg.HIF_SHADOW_BASE_LO a)) 4096
  if tst v 0 then
    if pages then
      let s1 := s.maskWrite r v false
      if s.bit r 0 then s1 else s1.updAtt a fun x => { x with scanNext := s.ref }
    else s.wf' r 31 1 1
  else (s.maskWrite r v false).updAtt a fun x => { x with scanOut := false }

/-- SCAN_ENABLE: attachment `a` writes `v` to HIF_ATT_CTRL. -/
def execScanEnable (a : Nat) (v : Word) (s : State) : Host.Outcome State Fault Refusal :=
  if a < 8 then .next (s.guard a 0x6000014 fun t => t.attCtrl a v) else .next s

/-- An egress ring named by an enabled path of an enabled partition (R415). -/
def State.ringNamed (s : State) (a r : Nat) : Bool :=
  (List.range 256).any fun i => s.bit (Reg.HIF_EP_CFG a i) 31 && s.rf (Reg.HIF_EP_CFG a i) 0 9 == r &&
    s.enabled (s.rf (Reg.HIF_EP_CFG a i) 24 6)

/-- HIF_RING_CTRL written (R388, R392, R415, R420): LOG2 only while EN is 0; EN from 0 to 1 zeroes the indices, or is
ignored with cause WINDOW where the ring leaves its window; EN from 1 to 0 abandons the ring's descriptors, or is refused
for an egress ring in use. -/
def State.ringCtrl (s : State) (a : Nat) (kind : RingKind) (r : Nat) (v : Word) : State :=
  let b := ringBase a kind r
  let old := s.rd b
  if tst old 31 then
    if tst v 31 then s.maskWrite b (setFld v 0 5 (fld old 0 5)) false
    else if kind = .egress ∧ s.ringNamed a r = true then s.wf' (b + 4) 25 1 1
    else
      let s1 := s.maskWrite b (setFld v 0 5 (fld old 0 5)) false
      let s2 := (s1.wf' (b + 4) 30 2 0).wf' (b + 4) 0 4 0
      if kind = .command then
        s2.updAtt a fun x => { x with descs := x.descs.filter (·.ring != r),
                                      msgWait := match x.msgWait with | some w => if w.1.ring = r then none else some w | none => none }
      else s2
  else if tst v 31 then
    let size := 2 ^ min 16 (max 6 (fld v 0 5))
    if s.inWindow a (ringPerm kind) (s.ringAddr b) (size * ringEntry kind) then
      let s1 := ((s.maskWrite b v false).wr (b + 16) 0).wr (b + 20) 0
      (s1.wr (b + 4) (setFld (setFld (s1.rd (b + 4)) 30 2 1) 26 4 0)).updAtt a fun x => { x with
        scanned := Store.set (fun _ => false) x.scanned b false }
    else s.wf' (b + 4) 26 4 causeWindow
  else s.maskWrite b v false

/-- Set-up address of a ring's HIF_RING_CTRL (R420). -/
def ringAddrOf (kind : RingKind) (r : Nat) : Nat := ringBase 0 kind r - attReg 0 0

/-- RING_ENABLE: attachment `a` writes `v`, which sets EN, to HIF_RING_CTRL of a ring (R388). -/
def execRingEnable (a kind r : Nat) (v : Word) (s : State) : Host.Outcome State Fault Refusal :=
  if a < 8 ∧ r < ringCount (kindOf kind) then
    .next (s.guard a (ringAddrOf (kindOf kind) r) fun t => t.ringCtrl a (kindOf kind) r v)
  else .next s

/-- RING_DISABLE: attachment `a` writes `v`, which clears EN, to HIF_RING_CTRL of a ring (R415). -/
def execRingDisable (a kind r : Nat) (v : Word) (s : State) : Host.Outcome State Fault Refusal :=
  if a < 8 ∧ r < ringCount (kindOf kind) then
    .next (s.guard a (ringAddrOf (kindOf kind) r) fun t => t.ringCtrl a (kindOf kind) r v)
  else .next s

/-! ### Scans (R390) -/

/-- The period in force: values outside 250 to 1,000,000 act as the nearer limit (R419). -/
def State.dbPeriod (s : State) (a : Nat) : Nat := min 1000000 (max 250 (s.rf (Reg.HIF_DB_PERIOD a) 0 20))

/-- DOORBELL_SCAN: the scan of a period is issued, or skipped where the one before it has not returned. -/
def execDoorbellScan (a : Nat) (s : State) : Host.Outcome State Fault Refusal :=
  if a < 8 ∧ s.bit (Reg.HIF_ATT_CTRL a) 0 = true ∧ (s.att a).scanNext ≤ s.ref then
    let s1 := s.updAtt a fun v => { v with scanNext := v.scanNext + s.dbPeriod a }
    .next (if (s.att a).scanOut then s1.count (Reg.HIF_DB_LATE a) 1 else s1.updAtt a fun v => { v with scanOut := true })
  else .next s

/-- A ring's host index `h` as a scan returns it (R388): the first after EN must be zero; later ones neither move back
nor take the ring past its size. -/
def State.hostIndex (s : State) (a : Nat) (kind : RingKind) (r h : Nat) : State :=
  let b := ringBase a kind r
  if !(s.ringRuns b) then s
  else if Store.get (fun _ => false) (s.att a).scanned b = false then
    let s1 := s.updAtt a fun v => { v with scanned := Store.set (fun _ => false) v.scanned b true }
    if h = 0 then s1 else s1.ringError a kind r causeNonzeroStart
  else
    let dev := s.ringDev b
    let old := s.ringHost b
    let ahead (x y : Nat) : Nat := (x + 2 ^ 32 - y) % 2 ^ 32
    let ok := match kind with
      | .command => decide (ahead old dev ≤ ahead h dev) && decide (ahead h dev ≤ s.ringSize b)
      | _ => decide (ahead dev h ≤ ahead dev old)
    if ok then s.wr (b + 20) (BitVec.ofNat 32 h) else s.ringError a kind r causeIndex

/-- A host read of a ring or payload failed (R399). An ECRC failure is reported as such too (R383, R418). -/
def State.hostErr (s : State) (a kind r : Nat) (ecrc : Bool) : State :=
  let s1 := (s.count (Reg.HIF_HOST_ERR a) 1).report fltHostError { detail := [a, kind, r] }
  if ecrc then s1.report fltPcieEcrc { detail := [a] } else s1

/-- Bytes that a host read gives the device where `n` were asked for: `n` of them where it succeeded, `n` + 1 where it
failed its ECRC, any other number where it failed otherwise (DESIGN CHOICE: the form in which a command carries it). -/
def ecrcBytes (n : Nat) (bytes : List Byte) : Bool := bytes.length == n + 1

/-- The index of the next descriptor of a command ring that has not been read. -/
def State.nextFetch (s : State) (a r : Nat) : Nat :=
  (s.ringDev (ringBase a .command r) + ((s.att a).descs.filter (·.ring == r)).length) % 2 ^ 32

/-- A descriptor read: `bytes` are its 64 bytes, none of them where the read failed, which puts the ring into ERROR with
cause FETCH (R390, R399; `ecrcBytes`). Only a descriptor that the tail covers is read. -/
def State.fetched (s : State) (a r : Nat) (bytes : List Byte) : State :=
  let b := ringBase a .command r
  let i := s.nextFetch a r
  let bytes := s.hostGave a 64 bytes
  if s.ringRuns b = false ∨ s.ringHost b = i then s
  else if bytes.length ≠ 64 then (s.hostErr a 0 r (ecrcBytes 64 bytes)).ringError a .command r causeFetch
  else s.updAtt a fun v => { v with descs := v.descs ++ [⟨r, i, bytes, false, none, 0, false, 0, 0⟩] }

/-- Every command ring of attachment `a` with a descriptor read goes on. -/
def State.pumpAll (s : State) (a : Nat) : State :=
  ((List.range 64).filter fun r => (s.att a).descs.any (·.ring == r)).foldl (fun t r => t.pump 64 a r) s

/-- SCAN_RETURN: a scan returns host indices (kind, ring, index), and the descriptors that the device then reads, each
with its command ring (R390). -/
def execScanReturn (a : Nat) (indices : List (Nat × Nat × Nat)) (descs : List (Nat × List Byte)) (s : State) :
    Host.Outcome State Fault Refusal :=
  if a < 8 ∧ (s.att a).scanOut = true then
    let s1 := s.updAtt a fun v => { v with scanOut := false }
    let s2 := indices.foldl (fun t x =>
      if x.2.1 < ringCount (kindOf x.1) then t.hostIndex a (kindOf x.1) x.2.1 (x.2.2 % 2 ^ 32) else t) s1
    let s3 := descs.foldl (fun t d => t.fetched a d.1 d.2) s2
    .next (s3.pumpAll a)
  else .next s

end Sys2Proof.Machine
end

