-- ==== Sys2Proof/Machine/Digest.lean ====
section
/-! DEFINITION. Step digests (10_integrity.md R348), check reports (R344) and asking a grove for its verdict. -/
namespace Sys2Proof.Machine

/-- EMIT_DIGEST of the entries of step `n`, STATE bits zero (R348). -/
def emitDigest (n : Nat) (ents : List Word) : Nat :=
  crcFold c64e n (streamKinds.flatMap fun ks =>
    toBytes 8 (crcFold c64e n ((streamOf ks ents).flatMap fun w => toBytes 4 w.toNat)))

/-- Bytes of the shadow records of the lane-neurons integrated on core `q`, laid out as core `p` configures them. -/
def State.shadowBytes (s : State) (p q : Nat) : List Byte :=
  let c := s.core q
  c.integ.flatMap fun i =>
    match s.grpOf p i with
    | some g => s.bytes q (g.copyAt i (1 - c.live (i / 64))) 8
    | none => []

/-- STATE_DIGEST of step `n`: shadow records and ACT output halves (R348). -/
def State.stateDigest (s : State) (p q n : Nat) : Nat :=
  crcFold c64e n (s.shadowBytes p q ++
    ((s.stepOps p).filter fun op => !op.events).flatMap fun op => s.bytes q (op.outAt n) op.outBytes)

/-- The check report of core `p` for step `n` (R344). -/
def State.coreReport (s : State) (p n : Nat) (round : Bool) : Report :=
  let c := s.core p
  let par := n % 4
  { core := p, dLoc := c.sum par sumDLoc, rLoc := c.sum par sumRLoc, dGrv := c.sum par sumDGrv,
    rGrv := c.sum par sumRGrv, emit := emitDigest n c.ents, state := s.stateDigest p p n, flags := c.flags,
    parity := par, round := round, entries := c.ents.length % 8192 }

/-- The collector of grove `g` asks for a verdict on step `n`: every ACTIVE core sends its report to CHK_g (R344). -/
def State.askGrove (s : State) (g n : Nat) (round : Bool) : State :=
  let s1 := s.updGrove g fun v => { v with asked := some (n % 4, round), reports := [], passed := false }
  (s1.activeCores g).foldl (fun t p => t.toUnit p (0x80 + g) none (.check (t.coreReport p n round)))
    (s1.wf' (Reg.STEP_GROVE_STATUS g) 30 1 0)

/-- CHECK_REPORT: a core's report reaches its grove's collector (R344). -/
def execCheckReport (i : Nat) (s : State) : Host.Outcome State Fault Refusal :=
  match s.takeUnit i 0x80 0xC0 with
  | some (g, f, t) =>
    match f.body with
    | .check r => .next (t.updGrove g fun v => { v with reports := v.reports ++ [r] })
    | _ => .next t
  | none => .next s

/-- One execution of a step as a replay compares it (R356): `p` configures, `q` executed, `ents` are its entries. -/
def State.execution (s : State) (p q n : Nat) (ents : List Word) : Exec :=
  let c := s.core q
  { emit := emitDigest n ents, state := s.stateDigest p q n, entries := ents, mons := c.mons, counts := c.counts,
    dense := c.flag flagDense, core := q }

/-- Two executions agree (R356); at a round the shadow records are not compared (R350). -/
def Exec.agrees (round : Bool) (a b : Exec) : Bool :=
  a.emit == b.emit && (round || a.state == b.state) && a.entries.length == b.entries.length

end Sys2Proof.Machine
end

