-- ==== Sys2Proof/Machine/CanopyCheck.lean ====
section
/-! DEFINITION. The checks on source tables, canopies and paths that the enable check and the clearing check share
(05_fabric.md R173, R186). -/
namespace Sys2Proof.Machine

/-- A view of a partition's tables: what each entry is, and which routers no route may cross. -/
structure View where
  /-- CHANGED entries are seen staged, exclusions as written. -/
  staged : Bool
  /-- The view of a clearing, which lets routers forward for moved roles (10_integrity.md R366). -/
  clearing : Bool
  deriving DecidableEq, Repr

def liveView : View := ⟨false, false⟩
def stagedView : View := ⟨true, true⟩
/-- What an enable would make live (R183). -/
def enableView : View := ⟨true, false⟩

def State.vCanopy (s : State) (v : View) (g c : Nat) : Nat :=
  if v.staged && Store.get (fun _ => false) s.canChanged (4096 * g + c) then s.canopyStaged g c else s.canopy g c

/-- All source-table entries of core `p` in a view, enabled or not: index and entry. -/
def State.vSrcAll (s : State) (v : View) (p : Nat) : List (Nat × Nat) :=
  (List.range 1024).map fun e =>
    let k := 1024 * p + e
    (e, if v.staged && Store.get (fun _ => false) s.srcChanged k then Store.get (fun _ => 0) s.srcStaged k
        else Store.get (fun _ => 0) s.srcLive k)

/-- Enabled source-table entries of core `p` in a view: index and entry. -/
def State.vSrc (s : State) (v : View) (p : Nat) : List (Nat × Nat) := (s.vSrcAll v p).filter fun x => srcEn x.2

/-- A detour word in a view. -/
def State.vDet (s : State) (v : View) (key : Nat) : Word :=
  if v.staged then s.rd key else Store.get (fun _ => 0) s.detLive key

/-- A router that no route of the view may cross (R186): FAULTY, or excluded. -/
def State.vBad (s : State) (v : View) (k : Nat) : Bool :=
  s.rtrState k == rsFaulty || (if v.staged then s.bit (Reg.FAB_RTR_CTRL k) 0 else s.rtrState k == rsExcluded)

/-- Valid canopy entries of grove `g` in a view. -/
def State.vCanopies (s : State) (v : View) (g : Nat) : List (Nat × Nat) :=
  ((List.range 4096).map fun c => (c, s.vCanopy v g c)).filter fun x => canValid x.2

/-- Cores of grove `g`, ACTIVE, whose source table names entry `c`. -/
def State.namers (s : State) (v : View) (g c : Nat) : List Nat :=
  (s.activeCores g).filter fun p => (s.vSrc v p).any fun e => srcCanopy e.2 == c

/-- EJECT at core index `i` is allowed: its core is ACTIVE, or at a clearing an unchanged entry's router forwards for a
moved role (R173, R188). -/
def State.ejectOk (s : State) (v : View) (g c i : Nat) : Bool :=
  let p := 144 * g + i
  s.role p == roleActive ||
    (v.clearing && !(Store.get (fun _ => false) s.canChanged (4096 * g + c)) && (s.ejectRole p c).isSome)

/-- The root router's core index of a valid entry: its naming core's or, for one that is not CHANGED at a clearing, the router
that forwards for its role (DEDUCED, as R173 says of EJECT), or 78. -/
def State.rootOf (s : State) (v : View) (g c img : Nat) : Option Nat :=
  if canRooted img then
    match s.namers v g c with
    | [p] => some ((if v.clearing && !(Store.get (fun _ => false) s.canChanged (4096 * g + c)) then s.rootRouter p img else p) % 144)
    | _ => none
  else if (s.namers v g c).isEmpty then some 78 else none

/-- Does a valid entry of grove `g` meet R173 (the partition's own groves apart)? A clearing answers PATH where it crosses a router
that is out of service (R186; `canopyPath`). -/
def State.canopyOk (s : State) (v : View) (g c img : Nat) : Bool :=
  match s.rootOf v g c img with
  | none => false
  | some root =>
    let tgts := canTargets img
    let remotes := tgts.all fun h =>
      let r := s.vCanopy v h (canRemote img)
      canValid r && !(canRooted r)
    let aux := (List.range 144).all fun i => canMask img i / 16 % 2 == 0 || (i == 78 && !tgts.isEmpty)
    let reach := tgts.isEmpty || (canRooted img && (canMask img 78 != 0 || root == 78))
    let service := v.clearing || (List.range 144).all fun i => canMask img i == 0 || !(s.vBad v (144 * g + i))
    let ejects := (List.range 144).all fun i => canMask img i / 32 == 0 || s.ejectOk v g c i
    (canRooted img || tgts.isEmpty) && remotes && canShape img root && aux && reach && !(tgts.contains g) && service &&
      ejects && !(canReserved img)

/-- Does an enabled source-table entry of core `p` meet R173? -/
def State.sourceOk (s : State) (v : View) (p : Nat) (e : Nat × Nat) : Bool :=
  let x := e.2
  let img := s.vCanopy v (p / 144) (srcCanopy x)
  let clear := (s.vSrc v p).all fun f => f.1 == e.1 ||
    decide (srcBase x + srcCount x ≤ srcBase f.2) || decide (srcBase f.2 + srcCount f.2 ≤ srcBase x)
  decide (0 < srcCount x) && decide (srcCount x ≤ 4096) && decide (srcBase x + srcCount x ≤ 2 ^ 28) && clear &&
    canValid img && canRooted img && !(srcReserved x)

/-! ### Paths -/

/-- Routers on the dimension-order route within a grove, both ends included (R158). -/
def meshRoute : Nat → Nat → Nat → List Nat
  | 0, k, _ => [k]
  | fuel + 1, k, d =>
    if k = d then [k]
    else match neighbour k (hopPort k d) with
      | none => [k]
      | some n => k :: meshRoute fuel n d

/-- Routers on one leg of a unicast (R158). -/
def legRoute (k d : Nat) : List Nat :=
  if k / 144 = d / 144 then meshRoute 24 k d
  else meshRoute 24 k (144 * (k / 144) + 78) ++ meshRoute 24 (144 * (d / 144) + 78) d

/-- The waypoint of a view's detours at core `p` for destination `d` (R187). -/
def State.vDetour (s : State) (v : View) (p d : Nat) : Option Nat :=
  ((List.range 4).find? fun i =>
      let r := s.vDet v (Reg.FAB_DETOUR_RANGE p i)
      tst r 31 && decide (fld r 0 14 ≤ d) && decide (d ≤ fld r 14 14)).map fun i => fld (s.vDet v (Reg.FAB_DETOUR_WAY p i)) 0 14

/-- Routers of a unicast from router `k` to `d`, with its detour. -/
def State.vRoute (s : State) (v : View) (k d : Nat) : List Nat :=
  match s.vDetour v k d with
  | none => legRoute k d
  | some w => legRoute k w ++ (legRoute w d).drop 1

/-- The M-port router nearest a core in a view. -/
def State.vPort (s : State) (v : View) (k : Nat) : Option Nat :=
  let cands := ([39, 44, 99, 104].map fun i => 144 * (k / 144) + i).filter fun m => !(s.vBad v m)
  cands.foldl (fun best m => match best with
    | none => some m
    | some b => if dist m k < dist b k then some m else some b) none

/-- The first router out of service that a canopy of grove `g` crosses (R186). -/
def State.canopyPath (s : State) (v : View) (g : Nat) : Option Nat :=
  let bad := (coresOf g).filter fun r => s.vBad v r
  if bad.isEmpty then none
  else (s.vCanopies v g).findSome? fun x => bad.find? fun r => canMask x.2 (r % 144) != 0

/-- The first router that a unicast path between two cores of a list crosses and may not (R186). -/
def State.pairPath (s : State) (v : View) (cores : List Nat) : Option Nat :=
  cores.findSome? fun p => cores.findSome? fun d => if p = d then none else (s.vRoute v p d).find? fun r => s.vBad v r

/-- The first router that a canopy or a path of partition `k` crosses and may not (R186). -/
def State.pathFault (s : State) (v : View) (k : Nat) : Option Nat :=
  let groves := s.grovesOf k
  let anyBad := groves.any fun g => (coresOf g).any fun r => s.vBad v r
  if !anyBad then none
  else
    let cores := s.coresOfPart k
    let bad (l : List Nat) : Option Nat := l.find? fun r => s.vBad v r
    match groves.findSome? (s.canopyPath v), s.pairPath v cores with
    | some r, _ => some r
    | none, some r => some r
    | none, none => cores.findSome? fun p =>
      match s.vPort v p with
      | none => some (144 * (p / 144) + 39)
      | some m =>
        match bad (legRoute p m), bad (s.vRoute v m p), bad (legRoute p (144 * (p / 144) + 78)), bad (legRoute (144 * (p / 144) + 78) p) with
        | some r, _, _, _ => some r
        | _, some r, _, _ => some r
        | _, _, some r, _ => some r
        | _, _, _, r => r

/-- Links of a route: each router with the next. -/
def linksOf : List Nat → List (Nat × Nat)
  | a :: b :: rest => (a, b) :: linksOf (b :: rest)
  | _ => []

/-- Waits of a route: each link on the next. -/
def waitsOf : List (Nat × Nat) → List ((Nat × Nat) × (Nat × Nat))
  | a :: b :: rest => (a, b) :: waitsOf (b :: rest)
  | _ => []

/-- Links that wait on something left after taking away, again and again, those that nothing left waits on. -/
def cycleLeft : Nat → List ((Nat × Nat) × (Nat × Nat)) → List ((Nat × Nat) × (Nat × Nat))
  | 0, ws => ws
  | fuel + 1, ws =>
    let next := ws.filter fun w => ws.any fun x => x.1 == w.2
    if next.length = ws.length then ws else cycleLeft fuel next

/-- A router on a cycle in which detour legs could wait on one another (R186). -/
def State.cycleFault (s : State) (v : View) (k : Nat) : Option Nat :=
  let cores := s.coresOfPart k
  let waits := cores.flatMap fun p => cores.flatMap fun d =>
    if (s.vDetour v p d).isSome ∧ p ≠ d then waitsOf (linksOf (s.vRoute v p d)) else []
  ((cycleLeft waits.length waits).head?).map fun w => w.1.1

end Sys2Proof.Machine
end

