-- ==== Sys2Proof/Machine/Flit.lean ====
section
/-! DEFINITION. The layouts of link flits, sidebands, tags and packets (05_fabric.md R155, R156, R166 to R168; 04_synapses_dense.md
R125; 06_core_messaging.md R200, R201, R219; 10_integrity.md R344; 11_host_interface.md R397). -/
namespace Sys2Proof.Machine

/-- A field of a layout: `v` reduced to `n` bits, at bit `lo`. -/
def bitsAt (lo n v : Nat) : Nat := v % 2 ^ n * 2 ^ lo

/-- A routing tag of 24 bits (R166). -/
def Tag.bits : Tag → Nat
  | .unicast endpoint p => bitsAt 20 2 endpoint + bitsAt 0 14 p
  | .canopy remote g c => bitsAt 22 2 1 + bitsAt 21 1 (b2n remote) + bitsAt 12 6 g + bitsAt 0 12 c
  | .unit u sub => bitsAt 22 2 2 + bitsAt 14 8 u + bitsAt 0 14 sub
  | .reserved => bitsAt 22 2 3

/-- A spike event of 64 bits (R167). -/
def Ev.flit (e : Ev) : Nat :=
  bitsAt 0 28 e.key + bitsAt 28 2 e.parity + bitsAt 30 8 e.value + bitsAt 38 2 e.tclass + bitsAt 40 3 e.lane + bitsAt 43 1 (b2n e.retract) +
    bitsAt 44 1 (b2n e.spilled) + bitsAt 45 1 (b2n e.handler)

/-- A message, notification, response or sync reply of 64 bits (06_core_messaging.md R200). -/
def msgFlit (mtype : Nat) (word : Word) (src queue rcode : Nat) : Nat :=
  bitsAt 0 32 word.toNat + bitsAt 32 14 src + bitsAt 46 3 queue + bitsAt 49 3 mtype + bitsAt 52 4 rcode

/-- A request to a sync unit (06_core_messaging.md R219). -/
def SyncReq.flit (r : SyncReq) : Nat :=
  bitsAt 0 32 r.operand.toNat + bitsAt 32 16 r.gen16 + bitsAt 48 11 r.object + bitsAt 59 3 r.queue + bitsAt 62 2 r.op

/-- What the header of a DATA packet and its beats hold (R168). -/
structure DataPkt where
  opcode : Nat
  addr : Nat
  crc : Option Nat
  /-- OPARG, its first byte (byte 20 of the header) lowest. -/
  oparg : Nat
  payload : List Byte
  deriving DecidableEq, Repr

/-- A block or row-header packet's payload of 64 bytes (04_synapses_dense.md R125). -/
def BlockPkt.payload (b : BlockPkt) : List Byte :=
  ((List.range 8).map fun l => BitVec.ofNat 8 (if b.mask / 2 ^ l % 2 = 1 then b.values.getD l 0 else 0)) ++
    toBytes 4 (bitsAt 0 8 b.mask + bitsAt 8 4 b.fslot + bitsAt 12 5 b.dmax + bitsAt 17 1 (b2n b.retract) + bitsAt 18 1 (b2n b.header)) ++
    toBytes 4 (bitsAt 0 16 b.tgt) ++ b.bytes

/-- A grove-row request's beat of 32 bytes (R168). -/
def RowReq.payload (r : RowReq) : List Byte :=
  ((List.range 8).map fun l => BitVec.ofNat 8 (r.values.getD l 0)) ++
    toBytes 24 (bitsAt 0 8 r.mask + bitsAt 8 3 r.win + bitsAt 11 1 (b2n r.retract))

/-- A check report's payload of 40 bytes (10_integrity.md R344). -/
def Report.payload (r : Report) : List Byte :=
  toBytes 5 r.dLoc ++ toBytes 5 r.rLoc ++ toBytes 5 r.dGrv ++ toBytes 5 r.rGrv ++ toBytes 8 r.emit ++ toBytes 8 r.state ++
    toBytes 4 (bitsAt 0 4 r.flags + bitsAt 8 2 r.parity + bitsAt 10 1 (b2n r.round) + bitsAt 16 13 r.entries)

/-- Request number of a load (11_host_interface.md R397; DESIGN CHOICE: the low 16 bits of the descriptor's number). -/
def LoadRef.request (r : LoadRef) : Nat := r.seq % 2 ^ 16

/-- The DATA packet that carries a body; none for what travels as a CTRL flit (R168). A SHADOW_COPY holds the position of its first
byte in the image as ADDR, and a LOAD_READ one zero byte (DESIGN CHOICE: 10_integrity.md R355 and R397 lay out neither; R168 asks
for a beat). -/
def Body.data : Body → Option DataPkt
  | .block b => some ⟨if b.header then 0x02 else 0x01, 0, none, 0, b.payload⟩
  | .rowReq r => some ⟨0x03, bitsAt 0 28 r.key, none, 0, r.payload⟩
  | .amArgs src queue words c =>
    some ⟨0x10, bitsAt 0 14 src + bitsAt 14 3 queue + bitsAt 17 2 (words.length - 1), c, 0, words.flatMap fun w => toBytes 4 w.toNat⟩
  | .loadWrite ref _ kind addr bytes last =>
    some ⟨0x20, bitsAt 0 18 addr, none, bitsAt 0 8 kind + bitsAt 8 1 (b2n last) + bitsAt 16 16 ref.request, bytes⟩
  | .loadRead ref _ kind staged addr len =>
    some ⟨0x21, bitsAt 0 18 addr, none, bitsAt 0 7 kind + bitsAt 7 1 (b2n staged) + bitsAt 16 16 ref.request + bitsAt 32 32 len, [0]⟩
  | .readReturn ref addr bytes ue _ => some ⟨0x22, bitsAt 0 18 addr, none, bitsAt 8 1 (b2n ue) + bitsAt 16 16 ref.request, bytes⟩
  | .check r => some ⟨0x30, 0, none, 0, r.payload⟩
  | .shadowCopy _ pos bytes => some ⟨0x31, pos, none, 0, bytes⟩
  | .badOpcode => some ⟨0xFF, 0, none, 0, [0]⟩
  | .event _ => none
  | .msg .. => none
  | .sync _ => none

/-- The CTRL flit of a body that travels as one. -/
def Body.ctrl : Body → Nat
  | .event e => e.flit
  | .msg t w src q c => msgFlit t w src q c
  | .sync r => r.flit
  | _ => 0

/-- The header flit of a DATA packet, of 32 bytes (R168). -/
def Flight.header (f : Flight) (d : DataPkt) : List Byte :=
  toBytes 4 (bitsAt 0 24 f.tag.bits + bitsAt 24 4 ((d.payload.length + 31) / 32)) ++
    toBytes 2 (if f.src < 0x4000 then bitsAt 0 14 f.src else 0x3FFF) ++
    toBytes 1 d.opcode ++
    toBytes 1 (bitsAt 0 2 (f.step.getD 0) + bitsAt 2 1 (b2n f.step.isSome) + bitsAt 3 1 (b2n d.crc.isSome)) ++
    toBytes 8 d.addr ++ toBytes 2 (bitsAt 0 9 d.payload.length) ++ toBytes 2 (d.crc.getD 0) ++ toBytes 12 d.oparg

/-- Beat `i` of a payload, zero beyond its length (R168). -/
def beat (payload : List Byte) (i : Nat) : List Byte :=
  let b := (payload.drop (32 * i)).take 32
  b ++ List.replicate (32 - b.length) 0

/-- The sideband of a link flit, of 14 bytes (R156). -/
def sideband (vc kind part slots : Nat) (leg : Bool) (tags : List Nat) : List Byte :=
  toBytes 14 (bitsAt 0 2 vc + bitsAt 2 1 kind + bitsAt 3 6 part + bitsAt 9 4 slots + bitsAt 13 1 (b2n leg) +
    ((List.range 4).map fun i => bitsAt (16 + 24 * i) 24 (tags.getD i 0)).foldl (· + ·) 0)

/-- Payload and sideband of flit `i` of a DATA packet, 46 bytes: the header, then the beats. -/
def Flight.dataFlit (f : Flight) (i : Nat) : List Byte :=
  match f.body.data with
  | none => []
  | some d =>
    (if i = 0 then f.header d else beat d.payload (i - 1)) ++
      sideband f.body.vc 1 f.part (if i = 0 then 1 else 0) f.second [f.tag.bits]

/-- Payload and sideband of a link flit of CTRL packets, each in its slot (R155, R156). -/
def ctrlFlit (slots : List (Nat × Flight)) (f : Flight) : List Byte :=
  let place (i : Nat) : Option Flight := (slots.find? (·.1 == i)).map (·.2)
  ((List.range 4).flatMap fun i => toBytes 8 (match place i with | some h => h.body.ctrl | none => 0)) ++
    sideband f.body.vc 0 f.part ((slots.map fun x => 2 ^ x.1).foldl (· + ·) 0) f.second
      ((List.range 4).map fun i => match place i with | some h => h.tag.bits | none => 0)

/-! ### What is on a link -/

/-- The packets of virtual channel `v` on the link to input `q` of node `n`, in the order sent. -/
def State.onLink (s : State) (n q v : Nat) : List Flight := s.net.filter fun f => f.atInput n q && f.body.vc == v && f.left != 0

/-- The first `m` packets of virtual channel `v` that are still on the link to input `q` of node `n` changed by `h`, which is given
their number among them; an answer of none takes a packet out of the fabric. -/
def editHeads (n q v : Nat) (h : Nat → Flight → Option Flight) : Nat → Nat → List Flight → List Flight
  | 0, _, net => net
  | _ + 1, _, [] => []
  | m + 1, i, f :: net =>
    if f.atInput n q && f.body.vc == v && f.left != 0 then (h i f).toList ++ editHeads n q v h m (i + 1) net
    else f :: editHeads n q v h (m + 1) i net

/-- The packets that a link flit of 46 bytes brings further, where it is the next of its virtual channel: how many, and the channel.
CTRL packets stand in slots in their order (DESIGN CHOICE), and share a partition and a leg, which the sideband gives once. -/
def State.flitNext (s : State) (n q : Nat) (bytes : List Byte) : Option (Nat × Nat) :=
  let side := ofBytes (bytes.drop 32)
  let v := nfld side 0 2
  let waiting := s.onLink n q v
  if nfld side 2 1 = 1 then
    match waiting with
    | f :: _ => if f.dataFlit (flits f.body - f.left) = bytes then some (1, v) else none
    | [] => none
  else
    let slots := (ones 4 (nfld side 9 4)).zip waiting
    match slots with
    | x :: _ =>
      if slots.length = popcount 4 (nfld side 9 4) ∧ (slots.all fun y => y.2.part == x.2.part && y.2.second == x.2.second) = true ∧
          x.2.body.data = none ∧ ctrlFlit slots x.2 = bytes then some (slots.length, v)
      else none
    | [] => none

end Sys2Proof.Machine
end

