-- ==== Sys2Proof/Machine/Plasticity.lean ====
section
/-! DEFINITION. On-chip learning (09_plasticity.md): traces, the learning pass, the delta log, epochs and the apply. A
grove's engine works where one of its ranges is enabled; a partition learns where one of its groves does. -/
namespace Sys2Proof.Machine

/-! ### Settings -/

/-- A plastic range, split out of its registers (R333). -/
structure Range where
  grove : Nat
  idx : Nat
  base : Nat
  count : Nat
  lanes : Nat
  pre : Nat
  fslot : Nat
  fmt : FmtSlot
  prune : Bool
  create : Bool
  shiftLtd : Nat
  shiftLtp : Nat
  frac : Nat
  createMag : Nat
  pruneMag : Nat
  wMax : Int
  wMin : Int
  deriving DecidableEq, Repr

def State.range (s : State) (g r : Nat) : Range :=
  let c := s.rd (Reg.PLS_RNG_CNT g r)
  let f := s.rd (Reg.PLS_RNG_FMT g r)
  let u := s.rd (Reg.PLS_RNG_RULE g r)
  let b := s.rd (Reg.PLS_RNG_BOUNDS g r)
  { grove := g, idx := r, base := s.rf (Reg.PLS_RNG_KEY g r) 0 28, count := fld c 0 21, lanes := fld c 21 3 + 1,
    pre := (s.rd (Reg.PLS_RNG_PRE g r)).toNat, fslot := fld f 24 4,
    fmt := { wfmt := fld f 0 4, afmt := 8, zw := fld f 4 4, za := 0, xb := fld f 16 8, x4f4 := tst f 8,
             reservedOk := fld f 28 4 == 0 && fld f 9 7 == 0 },
    prune := tst u 13, create := tst u 12, shiftLtd := fld u 8 4, shiftLtp := fld u 4 4, frac := fld u 0 4,
    createMag := fld b 24 8, pruneMag := fld b 16 8, wMax := sx 8 (fld b 8 8), wMin := sx 8 (fld b 0 8) }

/-- Enabled ranges of grove `g`. -/
def State.ranges (s : State) (g : Nat) : List Range :=
  if s.fuses.pls then ((List.range 8).filter fun r => s.bit (Reg.PLS_RNG_KEY g r) 31).map fun r => s.range g r else []

/-- The engine of grove `g` has work: an enabled range. -/
def State.plastic (s : State) (g : Nat) : Bool := !(s.ranges g).isEmpty

/-- Plastic groves of partition `k`. -/
def State.plasticGroves (s : State) (k : Nat) : List Nat := (s.grovesOf k).filter s.plastic

/-- Entry `i` of a table of eight registers that begins at key `b`; an index of 32 or more reads 0 (R312, R334). -/
def State.tableEntry (s : State) (b i : Nat) : Int :=
  if i < 32 then sx 8 (s.rf (b + 4 * (i / 4)) (8 * (i % 4)) 8) else 0

/-! ### Traces (R304 to R307) -/

/-- HBM byte address of the mirror entry of rank `r` and lane-neuron `i` (R304). -/
def State.mirrorAt (s : State) (g r i : Nat) : Nat := 32 * (s.rd (Reg.PLS_MIRROR_BASE g)).toNat + 4 * (4096 * r + i)

/-- HBM byte address of the pre-trace entry of a key and a lane (R305). -/
def Range.preAt (x : Range) (key l : Nat) : Nat := 32 * x.pre + 4 * ((key - x.base) * x.lanes + l % x.lanes)

/-- A trace entry holding a firing of step `n`. -/
def traceOf (n : Nat) : Nat := 65536 + n % 65536

/-- An entry is "never" in the pass of step `n` (R306). -/
def never (e n : Nat) : Bool := nfld e 16 1 == 0 || decide (32768 ≤ (n + 65536 - e % 65536) % 65536)

/-- Raw bytes written by the engine, past the grove caches of rows (R327). -/
def State.plsWrite (s : State) (addr v : Nat) : State := s.hbmWrite addr (toBytes 4 v)

/-- A visited entry whose age is 32,768 or more loses its flag (R307). -/
def State.visit (s : State) (n addr : Nat) : State :=
  let e := s.hbmNum addr 4
  if nfld e 16 1 == 1 && decide (32768 ≤ (n + 65536 - e % 65536) % 65536) then s.plsWrite addr (e % 65536) else s

/-- The visits of the pass of step `n`: every entry whose index is congruent to `n` modulo 16,384. -/
def State.visits (s : State) (g n : Nat) : State :=
  let at0 := n % 16384
  let s1 := (List.range 32).foldl (fun t j => t.visit n (32 * (t.rd (Reg.PLS_MIRROR_BASE g)).toNat + 4 * (at0 + 16384 * j))) s
  (s1.ranges g).foldl (fun t x =>
    (List.range ((x.count * x.lanes + 16383 - at0) / 16384)).foldl (fun u j => u.visit n (32 * x.pre + 4 * (at0 + 16384 * j))) t) s1

/-- The rank of the role of core `p` (R113). -/
def State.rankOf (s : State) (p : Nat) : Nat := s.logicalOf p - s.fuses.active * (p / 144)

/-- Lane-neurons of core `p`, with their groups. -/
def State.laneNeurons (s : State) (p : Nat) : List (Nat × Grp) :=
  (s.grps p).flatMap fun g => (List.range (g.lanes * g.n)).map fun j => (64 * g.base + j, g)

/-- Word 1 of the live record of a lane-neuron. -/
def State.liveWord1 (s : State) (p i : Nat) (g : Grp) : Word := s.word p (g.copyAt i ((s.core p).live (i / 64)) + 4)

/-- Rank and index of every lane-neuron of grove `g` whose accepted record says that it fired in step `n` (R304). -/
def State.firedIn (s : State) (g n : Nat) : List (Nat × Nat) :=
  (s.activeCores g).flatMap fun p =>
    ((s.laneNeurons p).filter fun ig =>
      let w := s.liveWord1 p ig.1 ig.2
      tst w 25 && fld w 0 16 == n % 65536).map fun ig => (s.rankOf p, ig.1)

/-- The mirror updates of the pass of step `n` (R304). -/
def State.mirrorFired (s : State) (g n : Nat) : State :=
  (s.grove g).plsFired.foldl (fun t ri => t.plsWrite (t.mirrorAt g ri.1 ri.2) (traceOf n)) s

/-- The mirror built at enable from the live records; every other entry is zero (R304). -/
def State.mirrorBuild (s : State) (g : Nat) : State :=
  let b := 32 * (s.rd (Reg.PLS_MIRROR_BASE g)).toNat
  let s1 := (s.hbmClear fun k => decide (b ≤ k) && decide (k < b + 2 ^ 21)).gcInvalidate b (2 ^ 21)
  (s1.activeCores g).foldl (fun t p =>
    (t.laneNeurons p).foldl (fun u ig =>
      let w := u.liveWord1 p ig.1 ig.2
      u.plsWrite (u.mirrorAt g (u.rankOf p) ig.1) (fld w 0 16 + 65536 * fld w 24 1)) t) s1

/-! ### The delta log (R315 to R317) -/

/-- A record of the delta log (R315). -/
structure Rec where
  row : Nat
  block : Nat
  elem : Nat
  range : Nat
  delta : Int
  step : Nat
  deriving DecidableEq, Repr

/-- The bucket of a row: `row` is its HBM address in 32-byte units (R315). -/
def bucketOf (log2 row : Nat) : Nat := row * 0x9E3779B1 % 2 ^ 32 / 2 ^ (32 - log2)

def Rec.pack (r : Rec) : Nat :=
  r.row % 2 ^ 32 + r.block % 65536 * 2 ^ 32 + r.elem % 64 * 2 ^ 48 + r.range % 8 * 2 ^ 56 + low 32 r.delta * 2 ^ 64
    + r.step % 2 ^ 32 * 2 ^ 96

def recOf (x : Nat) : Rec :=
  { row := nfld x 0 32, block := nfld x 32 16, elem := nfld x 48 6, range := nfld x 56 3, delta := sx 32 (nfld x 64 32),
    step := nfld x 96 32 }

/-- HBM byte address of record `i` of bucket `b`. -/
def State.recAt (s : State) (g b i : Nat) : Nat := 32 * (s.rd (Reg.PLS_LOG_BASE g)).toNat + 65536 * b + 16 * i

def State.log2Buckets (s : State) (g : Nat) : Nat := s.rf (Reg.PLS_LOG_CFG g) 0 4
def State.fill (s : State) (g b : Nat) : Nat := Store.get (fun _ => 0) (s.grove g).plsFill b

/-- The records of a pass put into one bucket, or none of them where they would not all fit (R316). The second answer
says how many were appended. -/
def State.appendBucket (s : State) (g b : Nat) (rs : List Rec) : State × Nat :=
  let f := s.fill g b
  if bucketLen < f + rs.length then (s, 0)
  else
    let (s1, _) := rs.foldl (fun (acc : State × Nat) r => (acc.1.hbmWrite (acc.1.recAt g b acc.2) (toBytes 16 r.pack), acc.2 + 1)) (s, f)
    (s1.updGrove g fun v => { v with plsFill := Store.set (fun _ => 0) v.plsFill b (f + rs.length) }, rs.length)

/-- The records of one pass appended, bucket by bucket. -/
def State.appendAll (s : State) (g : Nat) (rs : List Rec) : State :=
  let l2 := s.log2Buckets g
  let (s1, cut) := (List.range (2 ^ l2)).foldl (fun (acc : State × Bool) b =>
    match rs.filter fun r => bucketOf l2 r.row == b with
    | [] => acc
    | mine =>
      let (t, n) := acc.1.appendBucket g b mine
      if n = 0 then
        (t.report fltPlsOverflow { part := t.partOf g, grove := some g, detail := [b] }, true)
      else (t.count (Reg.PLS_RECORDS g) n, acc.2)) (s, false)
  (if cut then s1.count (Reg.PLS_OVF_STEPS g) 1 else s1).logShow g

/-! ### The pass (R309 to R314) -/

/-- The pre time of an entry: the step congruent to the request's parity, the pass's own or the one before (R309). -/
def preTime (n parity : Nat) : Nat := if n % 4 = parity then n else (n + 2 ^ 32 - 1) % 2 ^ 32

/-- What one element of an entry gains from one lane (R311): `t` is the mirror entry and `q` the pre-trace entry. -/
def State.pairing (s : State) (x : Range) (n p t q : Nat) : Int :=
  let dt := (p + 65536 - t % 65536) % 65536
  let dq := (p + 65536 - q % 65536) % 65536
  let b := 0x0B010000 + 0x1000 * x.grove + 0x100 + 0x80 * x.idx
  if !(never t n) && decide (dt < 32768) then
    s.tableEntry (b + 0x60) (dt / 2 ^ x.shiftLtd) +
      (if !(never q n) && decide (dq < 32768) && decide (dt < dq) then s.tableEntry (b + 0x40) ((dq - dt) / 2 ^ x.shiftLtp) else 0)
  else 0

/-- The records of one block of an entry, judged against the engine's copy of the group registers (R311). -/
def State.blockRecs (s : State) (g : Nat) (e : PlsReq) (x : Range) (n b : Nat) (bs : List Byte) : List Rec :=
  let h := blkHdrOf bs
  match blockFits (Store.get (fun _ => []) (s.grove g).plsGrps h.rank) h x.fmt e.tgt e.dmax h.rank with
  | none => []
  | some grp =>
    let p := preTime n e.parity
    (List.range (h.count + 1)).filterMap fun k =>
      let d := (ones 8 e.mask).foldl (fun acc l =>
        let i := grp.lane (if grp.lanes ≤ l then l % grp.lanes else l) (h.tbase + k)
        acc + s.pairing x n p (s.hbmNum (s.mirrorAt g h.rank i) 4) (s.hbmNum (x.preAt e.key l) 4)) 0
      if d = 0 then none
      else some { row := e.row / 32, block := b, elem := k, range := x.idx, delta := if e.retract then -d else d, step := n }

/-- The row at byte address `a` as the engine reads it: header, blocks and whether its CRC holds (R322). -/
def State.plsRow (s : State) (a : Nat) (f : FmtSlot) : RowHdr × List (List Byte) × Bool :=
  let hb := s.hbmBytes a 16
  let h := rowHdrOf hb
  let bytes := s.hbmBytes (a + 16) (h.nblk * blockSize f.wfmt)
  (h, rowBlocks f h.nblk bytes, rowCrc hb bytes == h.crc)

/-- How often the engine's reads of the row at `a` are uncorrectable: `bad` times, and each of the two reads in a FAILED stack
(R136, R322). -/
def State.ueReads (s : State) (a bad : Nat) : Nat := if s.stackState (a / stackBytes) = 3 then 2 else min 2 bad

/-- Uncorrectable reads of the engine count at the stack, and a second one at the same row fails it (R135, R136). -/
def State.ueCount (s : State) (a n : Nat) : State :=
  let s1 := s.count (Reg.MEM_HBM_UE (a / stackBytes)) n
  if n = 2 then s1.stackFailed (a / stackBytes) else s1

/-- An entry or row skipped after two failed reads (R322). -/
def State.readSkip (s : State) (g a : Nat) : State :=
  (s.count (Reg.PLS_READ_SKIP g) 1).report fltHbmData
    { part := s.partOf g, grove := some g, detail := [a / stackBytes, a / 32] }

/-- The engine reads the row at `a`, `len` bytes of it, through the grove cache of rows and, after a failure, once more from
HBM; `crcOk` says whether what it reads has a good CRC. The second answer says whether the row could be read (R310, R322). -/
def State.rowRead (s : State) (g a len bad : Nat) (crcOk : Bool) : State × Bool :=
  let n := s.ueReads a bad
  let s1 := (s.gcRange g a len (if n = 0 then none else some (a / 64))).ueCount a n
  if n = 2 then ((s1.hbmRead a len).readSkip g a, false)
  else if crcOk then (if n = 0 then s1 else s1.hbmRead a len, true)
  else ((((s1.hbmRead a len).count (Reg.MEM_HBM_CRC (a / stackBytes)) (2 - n)).readSkip g a), false)

/-- Bytes of a request-list entry, and of a log record. -/
def entryBytes : Nat := 16

/-- The records of `m` entries of the list of a pass from entry `i` on (R311); `bad` lists the positions of entries whose rows
are read with an uncorrectable error, once for each such read (R322). -/
def State.passRecs (s : State) (g n : Nat) (bad : List Nat) : Nat → Nat → State × List Rec
  | _, 0 => (s, [])
  | i, m + 1 =>
    let e := s.listEntry g n i
    let x := s.range g e.range
    let (h, blocks, ok) := s.plsRow e.row x.fmt
    let (s1, got) := s.rowRead g e.row (rowLen x.fmt h.nblk) (bad.count i) ok
    let mine := if got then (blocks.mapIdx fun b bs => s.blockRecs g e x n b bs).flatten else []
    let (t, rest) := s1.passRecs g n bad (i + 1) m
    (t, mine ++ rest)

/-- The pre-trace updates of a pass (R313): for each key and lane the latest pre time with a positive sum of signs. -/
def State.preUpdate (s : State) (g n : Nat) (es : List PlsReq) : State :=
  es.foldl (fun t e =>
    let x := t.range g e.range
    (ones 8 e.mask).foldl (fun u l =>
      let c (p : Nat) : Int := (es.filter fun q => q.key == e.key && preTime n q.parity == p &&
          (ones 8 q.mask).any fun m => m % x.lanes == l % x.lanes).foldl
        (fun acc q => acc + (if q.retract then -1 else 1) *
          (((ones 8 q.mask).filter fun m => m % x.lanes == l % x.lanes).length : Int)) 0
      let before := (n + 2 ^ 32 - 1) % 2 ^ 32
      let best := if 0 < c n then some n else if 0 < c before then some before else none
      match best with
      | some p => u.plsWrite (x.preAt e.key l) (traceOf p)
      | none => u) t) s

/-- The pass of a grove (R310): mirror, visits, entries, pre-traces. -/
def State.runPass (s : State) (g : Nat) (bad : List Nat) : State :=
  let v := s.grove g
  let n := v.plsRunStep
  let s1 := (s.mirrorFired g n).visits g n
  let s2 :=
    if v.plsRunLost then s1
    else
      let es := (List.range v.plsRunLen).map fun i => s1.listEntry g n i
      let s2 := s1.hbmRead (s1.listAt g n 0) (entryBytes * v.plsRunLen)
      (if v.plsRunPaused then s2
        else
          let (t, rs) := s2.passRecs g n bad 0 v.plsRunLen
          t.appendAll g rs).preUpdate g n es
  let s3 := s2.updGrove g fun v => { v with plsPass := false, plsFired := [], plsRunLen := 0, plsRunLost := false }
  (s3.count (Reg.PLS_PASSES g) 1).wf' (Reg.PLS_GRV_STATUS g) 31 1 0

/-- A disable that waited for the passes of its partition takes effect once the last has finished (R326). -/
def State.passesOver (s : State) (k : Nat) : State :=
  match (s.part k).stopAsked with
  | some (_, true) =>
    if s.pstate k = psStopped ∧ s.passing k = false then (s.updPart k fun q => { q with stopAsked := none }).setDisabled k else s
  | _ => s

/-- PLS_PASS_DONE: the pass of grove `g` finishes; `bad` names, by position, the list entries whose rows were read with an
uncorrectable error, each once for such a read (R310, R322). A partition that has stopped loses its unapplied log (R326). -/
def execPlsPassDone (g : Nat) (bad : List Nat) (s : State) : Host.Outcome State Fault Refusal :=
  if (s.grove g).plsPass then
    let s1 := s.runPass g bad
    match s1.partOf g with
    | some k =>
      if s1.pstate k = psRunning then .next s1
      else .next (((s1.updGrove g fun v => { v with plsFill := [] }).logShow g).passesOver k)
    | none => .next s1
  else .next s

/-! ### Epochs (R318) -/

def plIdle : Nat := 0
def plLearning : Nat := 1
def plApplying : Nat := 2

/-- What the commit of step `n` means to learning: every plastic grove begins its pass, and the epoch may end. -/
def State.plsCommit (s : State) (k n : Nat) : State :=
  let gs := s.plasticGroves k
  if gs.isEmpty then s
  else
    let paused := s.bit (Reg.PLS_PART_CTRL k) 30
    let high := gs.any fun g => s.bit (Reg.PLS_GRV_STATUS g) 30
    let s1 := gs.foldl (fun t g =>
      let t1 := if (t.grove g).plsLost then
          (t.count (Reg.PLS_LIST_LOST g) 1).report fltPlsOverflow { part := some k, grove := some g, detail := [] }
        else t
      (t1.updGrove g fun v => { v with
        plsPass := true, plsFired := t.firedIn g n, plsRunLen := v.plsLen, plsRunStep := n, plsRunLost := v.plsLost,
        plsRunPaused := paused, plsLen := 0, plsLost := false }).wf' (Reg.PLS_GRV_STATUS g) 31 1 1) s
    let steps := s1.rf (Reg.PLS_PART_STATUS k) 0 15 + 1
    let host := (s1.part k).endAsked
    let why : Option Nat := if steps = s1.rf (Reg.PLS_PART_CTRL k) 0 15 then some 0 else if high then some 1 else if host then some 2 else none
    let s2 := (s1.wf' (Reg.PLS_PART_STATUS k) 0 15 steps).updPart k fun q => { q with endAsked := false }
    match why with
    | none => s2
    | some c =>
      let s3 := (s2.wf' (Reg.PLS_PART_STATUS k) 28 2 c).updPart k fun q => { q with applying := 1, applyStart := s2.ref }
      if c = 0 then s3 else s3.count (Reg.PLS_EARLY_ENDS k) 1

/-- The engine's copy of the group registers of every ACTIVE core of grove `g`, by rank (R328). -/
def State.groupCopy (s : State) (g : Nat) : Store (List Grp) :=
  (s.activeCores g).foldl (fun m p => Store.set (fun _ => []) m (s.rankOf p) (s.grps p)) []

/-- Enable of the engines of a partition (R328). -/
def State.plsEnable (s : State) (k : Nat) : State :=
  let gs := s.plasticGroves k
  if gs.isEmpty then s
  else
    let s1 := gs.foldl (fun t g =>
      (((t.mirrorBuild g).updGrove g fun v => { v with
        plsGrps := t.groupCopy g, plsLen := 0, plsLost := false, plsFired := [], plsRunLen := 0, plsRunLost := false, plsFill := [],
        plsPass := false, plsApply := false }).wf' (Reg.PLS_GRV_STATUS g) 31 1 0).logShow g) s
    let s2 := (s1.wr (Reg.PLS_EPOCH k) (s1.rd (Reg.PLS_EPOCH_START k))).wf' (Reg.PLS_PART_STATUS k) 30 2 plLearning
    let largest := gs.foldl (fun m g => max m (bucketLen * 2 ^ s2.log2Buckets g)) 0
    ((s2.wf' (Reg.PLS_PART_STATUS k) 0 15 0).wr (Reg.PLS_APPLY_MAX_NS k) 0).wr (Reg.PLS_BOUND_NS k)
      (BitVec.ofNat 32 (2000 + 25 * largest))

/-! ### The apply (R319 to R321) -/

/-- What the apply of one element gives: its code, whether each counter of R332 counts it, and the change of its
operand in units of the row sum. -/
structure Applied where
  code : Nat
  created : Bool
  pruned : Bool
  clipped : Bool
  rowsum : Int
  deriving DecidableEq, Repr

/-- An element of code `c` and X4 shift `sh` updated by the sum `d` of its records (R319). -/
def Range.update (x : Range) (c sh : Nat) (d : Int) : Applied :=
  let f := x.fmt
  let k := x.frac + sh
  let w := weightOperand f c
  let exact := w * (2 ^ k : Nat) + d
  let r0 := weightOperand f (toCode f exact k)
  let f4 := f.wfmt == 6 || (f.wfmt == 7 && f.x4f4)
  let fclip := if f4 then decide (12 * 2 ^ k < exact.natAbs) else decide (rnd exact k < operandLo f) || decide (operandHi f < rnd exact k)
  let r1 := clamp r0 x.wMin x.wMax
  let pr := x.prune && r1 != 0 && decide (r1.natAbs ≤ x.pruneMag)
  let r2 := if pr then 0 else r1
  let r3 := if x.create && w == 0 && decide (r2.natAbs < x.createMag) then 0 else r2
  { code := toCode f r3 0, created := w == 0 && r3 != 0, pruned := pr, clipped := fclip || r1 != r0,
    rowsum := (r3 - w) * (2 ^ sh : Nat) }

/-- Records of a grove's log, bucket by bucket. -/
def State.logRecs (s : State) (g : Nat) : List Rec :=
  (s.grove g).plsFill.flatMap fun bf => (List.range bf.2).map fun i => recOf (s.hbmNum (s.recAt g bf.1 i) 16)

/-- An element that has a record: row, block, element, range. -/
def Rec.target (r : Rec) : Nat × Nat × Nat × Nat := (r.row, r.block, r.elem, r.range)

def nubBy {α : Type} [DecidableEq α] : List α → List α
  | [] => []
  | a :: as => let t := nubBy as; if t.contains a then t else a :: t

/-- Bit position of element `k` of a packed area (02_arithmetic.md R53). -/
def codeAt (f : FmtSlot) (k : Nat) : Nat := 32 * (k / codesPerWord f.wfmt) + k % codesPerWord f.wfmt * codeBits f.wfmt

/-- A packed weight area of elements 0 to `count` with the code of element `k` replaced; bits that hold no element are written
as zero (02_arithmetic.md R53). -/
def setCode (f : FmtSlot) (area count k c : Nat) : Nat :=
  (List.range (count + 1)).foldl (fun acc i =>
    acc + (if i = k then c else packedCode f area i) % 2 ^ codeBits f.wfmt * 2 ^ codeAt f i) 0

/-- One element of the row at byte address `a` rewritten: its weight word, and what its counters count. -/
def State.applyElem (s : State) (g a : Nat) (x : Range) (b k : Nat) (d : Int) : State × Int × Bool :=
  let at_ := a + 16 + b * blockSize x.fmt.wfmt
  let bs := s.hbmBytes at_ (blockSize x.fmt.wfmt)
  let h := blkHdrOf bs
  let area := ofBytes (bs.drop 8)
  let c := packedCode x.fmt area k
  let u := x.update c (blockShift x.fmt h k) d
  let s1 := (((s.count (Reg.PLS_CREATED g) (b2n u.created)).count (Reg.PLS_PRUNED g) (b2n u.pruned)).count
    (Reg.PLS_CLIPPED g) (b2n u.clipped)).count (Reg.PLS_CHANGED g) (b2n (u.code != c))
  if u.code = c then (s1, 0, false)
  else (s1.hbmWrite (at_ + 8) (toBytes (weightArea x.fmt.wfmt) (setCode x.fmt area h.count k u.code)), u.rowsum, true)

/-- The elements that `tgs` names of the row at byte address `a` rewritten by the sums of their records: the change of the row
sum, and whether anything changed (R319). -/
def State.applyElems (s : State) (g a : Nat) (mine : List Rec) (tgs : List (Nat × Nat × Nat × Nat)) : State × Int × Bool :=
  tgs.foldl (fun (acc : State × Int × Bool) tg =>
    let d := (mine.filter fun r => r.target == tg).foldl (fun y r => y + r.delta) 0
    if d = 0 then acc
    else
      let (t, ds, ch) := acc.1.applyElem g a (acc.1.range g tg.2.2.2) tg.2.1 tg.2.2.1 d
      (t, acc.2.1 + ds, acc.2.2 || ch)) (s, 0, false)

/-- Every element of one row that the log holds records for, then the row's header (R319, R320); `bad` reads of the row are
uncorrectable (R322). With `cut` the grove stops after that many of the elements, and the header is not written (R326). -/
def State.applyRow (s : State) (g row : Nat) (rs : List Rec) (bad : Nat) (cut : Option Nat) : State :=
  let a := 32 * row
  let mine := rs.filter fun r => r.row == row
  match mine.head? with
  | none => s
  | some r0 =>
    let x := s.range g r0.range
    let (h, _, ok) := s.plsRow a x.fmt
    let (s0, got) := s.rowRead g a (rowLen x.fmt h.nblk) bad ok
    if !got then s0
    else
      let tgs := nubBy (mine.map Rec.target)
      let (s1, dsum, changed) := s0.applyElems g a mine (match cut with | some m => tgs.take m | none => tgs)
      if !changed || cut.isSome then s1
      else
        let hd := toBytes 4 (low 32 (h.rowsum + dsum)) ++ (s1.hbmBytes a 16).drop 4
        let c := rowCrc hd (s1.hbmBytes (a + 16) (h.nblk * blockSize x.fmt.wfmt))
        s1.hbmWrite a (hd.take 12 ++ toBytes 4 c)

/-- The records of a grove's log are read from HBM. -/
def State.logRead (s : State) (g : Nat) : State :=
  (s.grove g).plsFill.foldl (fun t bf => t.hbmRead (t.recAt g bf.1 0) (entryBytes * bf.2)) s

/-- The log of a grove is done with. -/
def State.logOver (s : State) (g : Nat) : State :=
  (s.updGrove g fun v => { v with plsApply := false, plsFill := [] }).logShow g

/-- The apply of a grove; `bad` lists the byte addresses of rows that are read with an uncorrectable error, once for each such
read (R322). -/
def State.runApply (s : State) (g : Nat) (bad : List Nat) : State :=
  let rs := s.logRecs g
  ((nubBy (rs.map (·.row))).foldl (fun t row => t.applyRow g row rs (bad.count (32 * row)) none) (s.logRead g)).logOver g

/-- The apply of a grove stops where it stands (R326): some of its rows are rewritten, and of the next some elements without
its header. How far it has come is free. -/
def State.applyCut (s : State) (g : Nat) : State :=
  let rs := s.logRecs g
  let rows := nubBy (rs.map (·.row))
  let (m, s1) := s.freeNat
  let (e, s2) := s1.freeNat
  let done := m % (rows.length + 1)
  let s3 := (rows.take done).foldl (fun t row => t.applyRow g row rs 0 none) (s2.logRead g)
  let s4 := match rows.drop done with
    | [] => s3
    | row :: _ => s3.applyRow g row rs 0 (some e)
  s4.logOver g

/-- The last grove's apply is complete: the next epoch, and any stop that waited (R318, R321, R326). -/
def State.applyOver (s : State) (k : Nat) : State :=
  let ns := s.ref - (s.part k).applyStart
  let asked := (s.part k).stopAsked
  let s1 := s.updPart k fun q => { q with applying := 0 }
  let s2 := (s1.countWrap (Reg.PLS_EPOCH k) 1).count (Reg.PLS_APPLIES k) 1
  let s3 := (s2.wf' (Reg.PLS_PART_STATUS k) 0 15 0).wf' (Reg.PLS_PART_STATUS k) 30 2 plLearning
  let s4 := (s3.wr (Reg.PLS_APPLY_NS k) (BitVec.ofNat 32 (min 0xFFFFFFFF ns))).high (Reg.PLS_APPLY_MAX_NS k) 0 32 (min 0xFFFFFFFF ns)
  let s5 := (s4.grovesOf k).foldl (fun t g => (t.updGrove g fun v => { v with wdigNew := true, wdigAt := 0, wdigPos := 0, wdigMarks := [] }).updCores g fun c =>
    { c with wdigNew := true, wdigPos := 0, wdigMarks := [] }) s4
  match asked with
  | some (cause, false) => s5.stopNow k cause
  | some (cause, true) => if cause = scDisabled then s5.disableNow k else (s5.stopNow k cause).setDisabled k
  | none => s5

/-- The apply is over once it is complete in every grove that took part. -/
def State.applyEnd (s : State) (k : Nat) : State :=
  if (s.part k).applying = 2 ∧ (s.plasticGroves k).all (fun g => !(s.grove g).plsApply) = true then s.applyOver k else s

/-- APPLY_START: the last step of the epoch has committed and every pass has finished; the apply begins in every grove
(R319), one that a grove-wide fault has stopped apart (R326). -/
def execApplyStart (k : Nat) (s : State) : Host.Outcome State Fault Refusal :=
  if (s.part k).applying = 1 ∧ s.passing k = false then
    let s1 := (s.updPart k fun q => { q with applying := 2 }).wf' (Reg.PLS_PART_STATUS k) 30 2 plApplying
    .next (((s1.plasticGroves k).foldl (fun t g =>
      if (t.grove g).stopped then t.logOver g else t.updGrove g fun v => { v with plsApply := true }) s1).applyEnd k)
  else .next s

/-- APPLY_DONE: the apply of grove `g` completes; `bad` lists the byte addresses of rows read with an uncorrectable error, once
for each such read (R320 to R322). -/
def execApplyDone (g : Nat) (bad : List Nat) (s : State) : Host.Outcome State Fault Refusal :=
  match s.partOf g with
  | none => .next s
  | some k =>
    if (s.grove g).plsApply then .next ((s.runApply g bad).applyEnd k) else .next s

end Sys2Proof.Machine
end

