-- ==== Sys2Proof/Machine/GroveFault.lean ====
section
/-! DEFINITION. Grove-wide faults (01_organisation.md R45). -/
namespace Sys2Proof.Machine

/-- Grove `g` stops for a grove-wide fault: an apply of it stops where it stands, its partition stops, or will once the other
groves have completed the apply, and no core of the grove goes on (01_organisation.md R19, R45, 09_plasticity.md R326). -/
def State.groveStops (s : State) (g : Nat) : State :=
  let s1 := if (s.grove g).plsApply then s.applyCut g else s
  match s1.partOf g with
  | some k => ((s1.stopPart k scGrove).stopCores g).applyEnd k
  | none => s1

/-- A grove-wide fault (01_organisation.md R45): FLT_GROVE with its cause, and the grove's partition stops. A fault of
the rail segment (0), clock spine (1) or sync unit (2) lasts until power-up. -/
def State.groveWide (s : State) (g cause : Nat) : State :=
  let k := s.partOf g
  let s1 := s.report fltGrove { part := k, step := k.bind fun k => (s.part k).openStep, grove := some g, detail := [g, cause] }
  let s2 := if cause < 3 then s1.updGrove g fun v => { v with faulted := some cause } else s1
  let s3 := if cause = 0 then (s2.wf' (Reg.PWR_RAIL g) 30 1 1).wf' (Reg.PWR_RAIL g) 31 1 0 else s2
  s3.groveStops g

/-- A grove-wide fault for which R374 lists no cause: the cause reported is free (05_fabric.md R186). -/
def State.groveWideOpen (s : State) (g : Nat) : State :=
  let (c, t) := s.freeNat
  let k := t.partOf g
  (t.report fltGrove { part := k, step := k.bind fun k => (t.part k).openStep, grove := some g, detail := [g, c] }).groveStops g

/-- GROVE_FAULT: a fault of the rail segment, clock spine or sync unit of grove `g` (01_organisation.md R45). -/
def execGroveFault (g cause : Nat) (s : State) : Host.Outcome State Fault Refusal :=
  if g < 64 ∧ cause < 3 then .next (s.groveWide g cause) else .next s

end Sys2Proof.Machine
end

