-- ==== Sys2Proof/Machine/Fabric.lean ====
section
/-! DEFINITION. The commands of the fabric (05_fabric.md): packets at routers and stops, links, router faults and
resets, clearings. -/
namespace Sys2Proof.Machine

/-! ### Packets -/

/-- CANOPY_PACKET_ARRIVE: packet `i` reaches the router it stands at, which replicates, ejects or forwards it once every output
that it takes has room (R158, R163, R166, R172, 10_integrity.md R366). -/
def execCanopyPacketArrive (i : Nat) (s : State) : Host.Outcome State Fault Refusal :=
  match s.take i with
  | some (f, t) => match f.place with
    | .router k => .next (if t.routerReady k f then t.routerArrive k f else s)
    | _ => .next s
  | none => .next s

/-- STOP_RECEIVE_COPY: packet `i` passes the stop it has reached, once every output that it takes has room: a copy of a canopy is
counted and rewritten there (R158, R163, R172, R176). A load or read of a table of its grove stays: the stop's loader serves it
(11_host_interface.md R397). -/
def execStopReceiveCopy (i : Nat) (s : State) : Host.Outcome State Fault Refusal :=
  match s.take i with
  | some (f, t) =>
    match f.place with
    | .stop g => .next (if stopLoads g f || !(t.stopReady g f) then s else t.stopArrive g f)
    | _ => .next s
  | none => .next s

/-! ### Links -/

/-- A port goes DOWN (R181, R186). Units have no bit for their end of a link. -/
def State.markDown (s : State) (k port : Nat) : State :=
  if k < 9216 then s.wf' (Reg.FAB_RTR_STATUS k) (16 + port) 1 1
  else if k < 9280 then s.wf' (Reg.FAB_XS_STATUS (k - 9216)) (16 + port) 1 1 else s

/-- Link flits of step traffic that are lost: reported, and counted as one flit where `flit` says so, else each (R182). -/
def State.lose (s : State) (f : Flight) (n : Nat) : State :=
  match f.step with
  | some p => s.fabricLoss f.part p n
  | none => s

/-- Every packet still on the link to input `q` of node `n` is lost with the link flits that have not arrived. -/
def State.dropLink (s : State) (n q : Nat) : State :=
  let gone (f : Flight) : Bool := f.atInput n q && f.left != 0
  (s.net.filter gone).foldl (fun t f => t.lose f f.left) { s with net := s.net.filter fun f => !(gone f) }

/-- A link goes DOWN at both its ends, with what is on it (R181, R186). -/
def State.linkDown (s : State) (k port : Nat) : State :=
  match linkPeer k port with
  | some (n, q) => (((s.markDown k port).markDown n q).dropLink n q).dropLink k port
  | none => s.markDown k port

/-- The buffer of input `q` of node `n` has room for one more link flit of virtual channel `v` (R163): what is ahead of the packet
that the flit belongs to has left it room. -/
def State.credit (s : State) (n q v : Nat) : Bool :=
  match linkKey n q with
  | none => true
  | some _ =>
    let here := s.atInput n q v
    let ahead := ((here.filter fun f => f.left == 0).map Flight.held).foldl (· + ·) 0
    let mine := match here.find? fun f => f.left != 0 with | some f => min (f.held + 1) (vcDepth n v) | none => 0
    decide (ahead + mine ≤ vcDepth n v)

/-- A good link flit of 46 bytes at input `q` of node `n`, from the link direction `id`: the packets that it carries come further, and
the refusals of the flit in hand are over. A flit that is not the next of its channel changes nothing (DESIGN CHOICE: no such flit
is sent). -/
def State.flitTaken (s : State) (id n q : Nat) (data : List Byte) : State :=
  match s.flitNext n q data with
  | none => s
  | some (m, v) =>
    if s.credit n q v then
      let one (i : Nat) (f : Flight) : Option Flight := some { f with left := f.left - 1, shares := decide (0 < i) }
      { s with net := editHeads n q v one m 0 s.net, refusals := Store.erase id s.refusals }.qHigh n q v
    else s

/-- LINK_FLIT_RECEIVE: a link flit of 52 bytes is received at a port, counted at its sender, corrected and checked, or refused with
a NACK to the sender; what follows a refused flit is discarded until the resend (R155, R179, R180). -/
def execLinkFlitReceive (k port : Nat) (bytes : List Byte) (s : State) : Host.Outcome State Fault Refusal :=
  match linkPeer k port with
  | none => .next s
  | some (n, q) =>
    let id := linkId n q
    if s.linkCut n q k port ∨ Store.get (fun _ => false) s.resync id = true then .next s
    else
      let s0 := match linkKey n q with | some key => s.count64 (key + 8) 1 | none => s
      if Store.get (fun _ => false) s.nacked id then .next s0
      else
        match linkDecode bytes with
        | none => .next { s0 with nacked := Store.set (fun _ => false) s0.nacked id true }
        | some (data, fixed) => .next ((if fixed then s0.portCount k port 0x18 1 else s0).flitTaken id k port data)

/-- Cycles of 1.5 GHz in which three abandons take a link DOWN: 2^20 (R181), compared in nanoseconds. -/
def abandonWindow (dt : Nat) : Bool := decide (3 * dt < 2 ^ 21)

/-- A link that abandons too often within the window goes DOWN until the next power-up (R181). -/
def State.abandonLimit (s : State) (k port : Nat) (times : List Nat) : State :=
  match times[2]?, linkPeer k port with
  | some t0, some (n, q) =>
    if abandonWindow (s.ref - t0) then
      let dead := Store.set (fun _ => false) (Store.set (fun _ => false) s.linkDead (linkId k port) true) (linkId n q) true
      ({ s with linkDead := dead }.linkDown k port).report fltLinkDown { detail := [k, port] }
    else s
  | _, _ => s

/-- The abandon of a flit recorded at its link, which re-synchronises (R181). -/
def State.noteAbandon (s : State) (k port : Nat) (times : List Nat) : State :=
  let id := linkId k port
  { s with
    refusals := Store.erase id s.refusals, nacked := Store.erase id s.nacked,
    resync := Store.set (fun _ => false) s.resync id true, abandons := Store.set (fun _ => []) s.abandons id (times.take 3) }

/-- The packets of a flit, which FAB_LOSS counts once, reported with the parity of each (R182). -/
def State.loseFlit (s : State) (fs : List Flight) : State :=
  (fs.filter fun f => f.step.isSome).zipIdx.foldl (fun t x => t.lose x.1 (if x.2 = 0 then 1 else 0)) s

/-- A flit abandoned after five refusals: its packets, the first `m` of virtual channel `v` on the link, are lost whole (DEDUCED: a
packet without one of its flits is none), the link re-synchronises, and a third abandon within 2^20 cycles takes it DOWN (R181,
R182). -/
def State.abandonFlit (s : State) (k port n q v m : Nat) : State :=
  let s1 := s.portCount k port 0x20 1
  let times := s1.ref :: Store.get (fun _ => []) s1.abandons (linkId k port)
  let gone := (s1.onLink n q v).take m
  let s2 := { s1.noteAbandon k port times with net := editHeads n q v (fun _ _ => none) m 0 s1.net }
  (s2.loseFlit gone).abandonLimit k port times

/-- The packets that a refused flit of `m` packets holds, the first of them packet `i`, are the next of their virtual channel on the
link to input `q` of node `n`. -/
def State.refused (s : State) (n q i m : Nat) : Option Nat :=
  match s.net[i]? with
  | none => none
  | some f =>
    let v := f.body.vc
    let ok := f.atInput n q && f.left != 0 && !((s.net.take i).any fun h => h.atInput n q && h.body.vc == v && h.left != 0) &&
      decide (0 < m) && decide (m ≤ (if f.body.data.isSome then 1 else 4)) && decide (m ≤ (s.onLink n q v).length) &&
      ((s.onLink n q v).take m).all fun h => h.part == f.part && h.second == f.second
    if ok then some v else none

/-- LINK_NACK: the sender at a port receives a NACK and resends from the refused flit, or abandons it after five refusals
(R180, R181). `lost` names the first packet of the flit and how many it holds. -/
def execLinkNack (k port : Nat) (lost : Nat × Nat) (s : State) : Host.Outcome State Fault Refusal :=
  let id := linkId k port
  match linkPeer k port with
  | none => .next s
  | some (n, q) =>
    match s.refused n q lost.1 lost.2 with
    | none => .next s
    | some v =>
      if !(Store.get (fun _ => false) s.nacked id) then .next s
      else
        let x := Store.get (fun _ => 0) s.refusals id + 1
        if x < 5 then
          .next ({ s with refusals := Store.set (fun _ => 0) s.refusals id x, nacked := Store.erase id s.nacked }.portCount k port 0x1C 1)
        else .next (s.abandonFlit k port n q v lost.2)

/-- LINK_RESYNC_DONE: the re-synchronisation after an abandoned flit ends (R181). -/
def execLinkResyncDone (k port : Nat) (s : State) : Host.Outcome State Fault Refusal :=
  .next { s with resync := Store.erase (linkId k port) s.resync }

/-! ### Routers -/

/-- Ports of a node that have a link. -/
def linkedPorts (k : Nat) : List Nat := (List.range 6).filter fun port => (linkPeer k port).isSome

/-- ROUTER_FAULT: a router detects an internal fault: FAULTY, its links DOWN, FLT_ROUTER reported (R186). -/
def execRouterFault (k : Nat) (s : State) : Host.Outcome State Fault Refusal :=
  if 9216 ≤ k ∨ s.rtrState k = rsFaulty ∨ !(s.routerOn k) then .next s
  else
    let s1 := (linkedPorts k).foldl (fun t port => t.linkDown k port) (s.wf' (Reg.FAB_RTR_STATUS k) 0 3 rsFaulty)
    let g := k / 144
    let s2 := s1.report fltRouter { part := s1.partOf g, grove := some g, detail := [k] }
    .next (if k % 144 = 78 then s2.groveWideOpen g else s2)

/-- FAB_RTR_CTRL of router `k` written: EXCLUDE is staged; RESET resets a router that is EXCLUDED or FAULTY with its exclusion
applied, and otherwise the write is ignored and sets RESET_REFUSED (R189, R190). -/
def State.rtrCtrl (s : State) (k : Nat) (v : Word) : State :=
  let may := (s.rtrState k == rsExcluded || s.rtrState k == rsFaulty) && Store.get (fun _ => false) s.excluded k
  if tst v 31 && !may then s.wf' (Reg.FAB_RTR_STATUS k) 3 1 1
  else
    let s1 := s.maskWrite (Reg.FAB_RTR_CTRL k) v false
    if tst v 31 then s1.wf' (Reg.FAB_RTR_STATUS k) 0 3 rsResetting else s1

/-- A port is UP again. -/
def State.markUp (s : State) (k port : Nat) : State :=
  if k < 9216 then s.wf' (Reg.FAB_RTR_STATUS k) (16 + port) 1 0
  else if k < 9280 then s.wf' (Reg.FAB_XS_STATUS (k - 9216)) (16 + port) 1 0 else s

/-- The link at port `port` of a reset router re-trained at both ends (R189): one that abandons have taken DOWN stays so until the next
power-up (R181), and one to a FAULTY router with that router. -/
def State.retrain (s : State) (k port : Nat) : State :=
  match linkPeer k port with
  | some (n, q) =>
    if Store.get (fun _ => false) s.linkDead (linkId k port) || (decide (n < 9216) && s.rtrState n == rsFaulty) then s
    else (s.markUp k port).markUp n q
  | none => s

/-- A link of a node that powers up is UP at both ends, but for one to a FAULTY router; what abandons have done to it is over
(R181; DEDUCED: the power-up that ends DOWN is that of either end's domain). -/
def State.powerLink (s : State) (k port : Nat) : State :=
  match linkPeer k port with
  | some (n, q) =>
    if n < 9216 ∧ s.rtrState n = rsFaulty then s
    else ({ s with linkDead := Store.erase (linkId n q) (Store.erase (linkId k port) s.linkDead) }.markUp k port).markUp n q
  | none => s

/-- ROUTER_RESET_DONE: the router returns to EXCLUDED with its links trained and its buffers empty (R189). -/
def execRouterResetDone (k : Nat) (s : State) : Host.Outcome State Fault Refusal :=
  if s.rtrState k ≠ rsResetting then .next s
  else
    let s1 := (linkedPorts k).foldl (fun t port => t.retrain k port) (s.wf' (Reg.FAB_RTR_STATUS k) 0 3 rsExcluded)
    let gone (f : Flight) : Bool := f.place == .router k
    .next ((s1.net.filter gone).foldl State.abandon { s1 with net := s1.net.filter fun f => !(gone f) })

/-! ### Delivery -/

/-- Counters of parity `p` balance in every grove and over the overlay (R177). -/
def State.balanced (s : State) (k p : Nat) : Bool :=
  let gs := s.grovesOf k
  let sum (f : Nat → Nat) (l : List Nat) : Nat := (l.map f).foldl (· + ·) 0
  gs.all (fun g => s.rd (Reg.FAB_PC_INJ g p) == s.rd (Reg.FAB_PC_EJ g p)) &&
    (sum (fun g => (s.rd (Reg.FAB_PC_XOUT g p)).toNat) gs + sum (fun e => s.epX e k p) (List.range 10)) % 2 ^ 32
      == sum (fun g => (s.rd (Reg.FAB_PC_XIN g p)).toNat) gs % 2 ^ 32

/-! ### Clearings -/

/-- FAB_CLEAR_STATUS results (R194). -/
def crIdle : Nat := 0
def crPending : Nat := 1
def crRunning : Nat := 2
def crDone : Nat := 3
def crCanopy : Nat := 4
def crPath : Nat := 5
def crCycle : Nat := 6
def crTimeout : Nat := 7

def State.clearResult (s : State) (k r detail : Nat) : State :=
  s.wr (Reg.FAB_CLEAR_STATUS k) (BitVec.ofNat 32 (r * 2 ^ 29 + detail % 2 ^ 24))

/-- The first entry of a partition whose staged view fails R173, as a DETAIL. -/
def State.stagedFault (s : State) (k : Nat) : Option Nat :=
  (s.grovesOf k).findSome? fun g =>
    match (s.vCanopies stagedView g).find? fun x => !(s.canopyOk stagedView g x.1 x.2 && (canTargets x.2).all fun h => s.holds k h) with
    | some x => some (g * 2 ^ 16 + x.1)
    | none => (s.activeCores g).findSome? fun p =>
      ((s.vSrc stagedView p).find? fun e => !(s.sourceOk stagedView p e)).map fun e => g * 2 ^ 16 + srcCanopy e.2

/-- Detour entries or EXCLUDE bits of a partition have changed (R184). -/
def State.allHeld (s : State) (k : Nat) : Bool :=
  (s.grovesOf k).any fun g => (coresOf g).any fun p =>
    s.bit (Reg.FAB_RTR_CTRL p) 0 != (Store.get (fun _ => false) s.excluded p) ||
      (List.range 4).any fun d => Store.get (fun _ => false) s.detChanged (Reg.FAB_DETOUR_RANGE p d) ||
        Store.get (fun _ => false) s.detChanged (Reg.FAB_DETOUR_WAY p d)

/-- FAB_CLEAR_CTRL of partition `k` written: START requests a clearing (R194). -/
def State.clearCtrl (s : State) (k : Nat) (v : Word) : State :=
  if !(tst v 31) ∨ (s.part k).clearing ≠ .none then s
  else (s.updPart k fun q => { q with clearing := .pending }).clearResult k crPending 0

/-- CLEARING_RUN: at the step boundary the staged view is checked; then injection is held and the drain begins (R184). -/
def execClearingRun (k : Nat) (s : State) : Host.Outcome State Fault Refusal :=
  let q := s.part k
  if q.clearing ≠ .pending ∨ q.openStep ≠ none ∨ q.applying ≠ 0 then .next s
  else
    let refuse (r d : Nat) : State := (s.updPart k fun q => { q with clearing := .none }).clearResult k r d
    match s.stagedFault k with
    | some d => .next (refuse crCanopy d)
    | none =>
      match s.pathFault stagedView k with
      | some r => .next (refuse crPath r)
      | none =>
        match s.cycleFault stagedView k with
        | some r => .next (refuse crCycle r)
        | none =>
          .next ((s.updPart k fun q => { q with clearing := .draining s.ref (s.allHeld k) }).clearResult k crRunning 0)

/-- Keys of a store that satisfy `f`, swapped between live and staged where CHANGED (R183). -/
def swapKeys (f : Nat → Bool) (changed : Store Bool) (live staged : Store Nat) : Store Nat × Store Nat :=
  (changed.filter fun e => f e.1).foldl (fun (ls : Store Nat × Store Nat) e =>
    let d : Nat → Nat := fun _ => 0
    (Store.set d ls.1 e.1 (Store.get d ls.2 e.1), Store.set d ls.2 e.1 (Store.get d ls.1 e.1))) (live, staged)

/-- Every CHANGED source-table, canopy and detour entry of partition `k` switched, CHANGED cleared, EJECTS formed again
(R171, R183). -/
def State.swapTables (s : State) (k : Nat) : State :=
  let inPart (g : Nat) : Bool := s.holds k g
  let src := swapKeys (fun e => inPart (e / 1024 / 144)) s.srcChanged s.srcLive s.srcStaged
  let can := swapKeys (fun e => inPart (e / 4096)) s.canChanged s.canLive s.canStaged
  let cl2 := can.1.map fun e => if inPart (e.1 / 4096) then (e.1, canSetEjects e.2 (canCount e.2)) else e
  let mine := s.detChanged.filter fun e => inPart (e.1 / 0x100000)
  let dl := mine.foldl (fun d e => Store.set (fun _ => 0) d e.1 (s.rd e.1)) s.detLive
  let s1 := { s with
    srcLive := src.1, srcStaged := src.2, canLive := cl2.filter fun e => e.2 != 0, canStaged := can.2, detLive := dl,
    srcChanged := s.srcChanged.filter fun e => !(inPart (e.1 / 1024 / 144)),
    canChanged := s.canChanged.filter fun e => !(inPart (e.1 / 4096)),
    detChanged := s.detChanged.filter fun e => !(inPart (e.1 / 0x100000)) }
  (s1.grovesOf k).foldl (fun t g =>
    t.wf' (Reg.FAB_XS_STATUS g) 0 13 ((t.canLive.filter fun e => e.1 / 4096 == g && canValid e.2).length)) s1

/-- EXCLUDE bits of a partition take effect (R183, R186, R189). -/
def State.applyExclude (s : State) (k : Nat) : State :=
  ((s.grovesOf k).flatMap coresOf).foldl (fun t p =>
    let ex := t.bit (Reg.FAB_RTR_CTRL p) 0
    let was := Store.get (fun _ => false) t.excluded p
    if ex = was then t
    else
      let t1 := { t with excluded := Store.set (fun _ => false) t.excluded p ex }
      let st := t1.rtrState p
      let t2 := if ex ∧ st = rsUp then t1.wf' (Reg.FAB_RTR_STATUS p) 0 3 rsExcluded
        else if !ex ∧ st = rsExcluded then t1.wf' (Reg.FAB_RTR_STATUS p) 0 3 rsUp else t1
      if ex ∧ p % 144 = 78 then t2.groveWideOpen (p / 144) else t2) s

/-- The old router `old` is root of a live canopy of the role that core `p` carries, and core `p`'s own router is not
(10_integrity.md R366). -/
def State.rootNeeded (s : State) (old l : Nat) : Bool :=
  match s.physOf l with
  | none => false
  | some p => (s.srcOf p).any fun x =>
      srcEn x.2 && (let img := s.canopy (old / 144) (srcCanopy x.2); canShape img (old % 144) && !(canShape img (p % 144)))

/-- Live canopy entry `c` ejects at router `old`. -/
def State.ejectsAt (s : State) (old c : Nat) : Bool :=
  let img := s.canopy (old / 144) c
  canValid img && canMask img (old % 144) / 32 == 1

/-- What router `old` forwards, `fs`, shown in its core's status (10_integrity.md R366, R375). -/
def State.setForwards (s : State) (old : Nat) (fs : List (Nat × List Nat)) : State :=
  { s with forwards := Store.set (fun _ => []) s.forwards old fs }.wf' (Reg.INT_CORE_STATUS old) 30 1 (b2n (!fs.isEmpty))

/-- A router stops forwarding for a moved role once it is neither root nor EJECT of any live canopy; an entry that has changed at
this clearing, or enable, ejects for the core's own role (10_integrity.md R366, R188). -/
def State.endForwards (s : State) (changed : Store Bool) : State :=
  s.forwards.foldl (fun t e =>
    t.setForwards e.1 ((e.2.map fun r =>
      (r.1, r.2.filter fun c => !(Store.get (fun _ => false) changed (4096 * (e.1 / 144) + c)) && t.ejectsAt e.1 c)).filter
        fun r => !(r.2.isEmpty) || t.rootNeeded e.1 r.1)) s

/-- What waits for the end of a clearing leaves, in its order, along the routes in force (R184). -/
def State.flushWaiting (s : State) (k : Nat) : State :=
  let mine (f : Flight) : Bool := f.part == k
  (s.waiting.filter mine).foldl (fun t f =>
    t.enter (match f.place, f.tag with | .router r, .unicast _ d => { f with way := t.detour r d } | _, _ => f))
    { s with waiting := s.waiting.filter fun f => !(mine f) }

/-- Injection resumes: held events leave in their order along the routes in force (R184). -/
def State.resumeInjection (s : State) (k : Nat) : State :=
  let s0 := (s.updPart k fun q => { q with clearing := .none }).flushWaiting k
  (s0.coresOfPart k).foldl (fun t p =>
    let held := (t.core p).injQ
    let t1 := t.updCore p fun c => { c with injQ := [] }
    held.foldl (fun u slot =>
      match (u.core p).log.find? fun e => e.slot == slot with
      | none => u
      | some e => u.presentEntry p slot e.step lsSent false) t1) s0

/-- FAB_CLEAR_TIME: nanoseconds from the boundary to the resume (R194). -/
def State.clearTime (s : State) (k start : Nat) : State := s.wr (Reg.FAB_CLEAR_TIME k) (BitVec.ofNat 32 (s.ref - start))

/-- The drain of a clearing is complete (R184): with all injection held, no router of the partition's groves and no link to one holds
a flit. -/
def State.drained (s : State) (k : Nat) (all : Bool) : Bool :=
  (List.range 4).all (fun p => s.balanced k p) &&
    (!all || !(s.net.any fun f => match f.place with | .router r => s.holds k (r / 144) | _ => false))

/-- 3 us from the step boundary, in which a clearing ends (R185). -/
def clearLimit : Nat := 3000

/-- A clearing that began at `start` swaps and resumes: EJECTS are formed again (R184). -/
def State.clearSwap (s : State) (k start : Nat) : State :=
  (((((s.swapTables k).applyExclude k).endForwards s.canChanged).resumeInjection k).clearTime k start).clearResult k crDone 0

/-- A clearing that began at `start` ends with nothing swapped (R185). -/
def State.clearGiveUp (s : State) (k start : Nat) : State := ((s.resumeInjection k).clearTime k start).clearResult k crTimeout 0

/-- CLEARING_SWAP: the drain is complete within 3 us of the boundary; selectors flip, EXCLUDE takes effect and injection resumes
(R184, R185). -/
def execClearingSwap (k : Nat) (s : State) : Host.Outcome State Fault Refusal :=
  match (s.part k).clearing with
  | .draining start all => .next (if s.drained k all && decide (s.ref ≤ start + clearLimit) then s.clearSwap k start else s)
  | _ => .next s

/-- CLEARING_TIMEOUT: the drain is not complete 3 us after the boundary; nothing is swapped (R185). -/
def execClearingTimeout (k : Nat) (s : State) : Host.Outcome State Fault Refusal :=
  match (s.part k).clearing with
  | .draining start all =>
    .next (if start + clearLimit < s.ref || (decide (s.ref = start + clearLimit) && !(s.drained k all)) then s.clearGiveUp k start else s)
  | _ => .next s

/-- A clearing ends by itself as its 3 us are over, with whichever result the drain gives it (R185). -/
def State.clearDue (s : State) (k : Nat) : State :=
  match (s.part k).clearing with
  | .draining start all =>
    if s.ref < start + clearLimit then s
    else if s.drained k all then s.clearSwap k start else s.clearGiveUp k start
  | _ => s

end Sys2Proof.Machine
end

