-- ==== Sys2Proof/Machine/Role.lean ====
section
/-! DEFINITION. Moving a role from one physical core to another (01_organisation.md R22, 06_core_messaging.md R220,
10_integrity.md R365, R366) and the fence that the host writes (R26). -/
namespace Sys2Proof.Machine

/-- `n` word offsets from `off`. -/
def wordsFrom (off n : Nat) : List Nat := (List.range n).map fun i => off + 4 * i

/-- Offsets of the registers of a core window that go with a role (R365): what configures the role and shows its state,
the four channels of 07_timebase.md R260 with every field; the counters of R108's form stay with the physical core. -/
def roleRegs : List Nat :=
  wordsFrom 0x80 2 ++ [0xA0] ++ wordsFrom 0xC0 8 ++ wordsFrom 0x100 5 ++ wordsFrom 0x180 96 ++ wordsFrom 0x300 2
    ++ wordsFrom 0x340 64 ++ wordsFrom 0x500 2 ++ wordsFrom 0x540 32 ++ wordsFrom 0x600 9
    ++ ((List.range 8).flatMap fun q => wordsFrom (0x680 + 0x10 * q) 2) ++ wordsFrom 0x900 64
    ++ [0xA00, 0xA10] ++ wordsFrom 0xA20 5

/-- NEU_STATUS.STATE of core `p` agrees with its clock gate, which belongs to the physical core (03_neurons.md R102). -/
def State.neuShow (s : State) (p : Nat) : State :=
  if (s.core p).gated then s.wf' (Reg.NEU_STATUS p) 0 2 nsAsleep
  else if s.rf (Reg.NEU_STATUS p) 0 2 = nsAsleep then s.wf' (Reg.NEU_STATUS p) 0 2 nsIdle else s

/-- Those registers copied from core `p` to core `q`, with the reserved ones they hold (00_scope.md R15). -/
def State.copyRegs (s : State) (p q : Nat) : State :=
  (roleRegs.foldl (fun t off =>
    (t.wr (coreReg q off) (s.rd (coreReg p off))).setHeld (coreReg q off) (s.heldOf (coreReg p off))) s).neuShow q

/-- Those registers of core `p` back at their reset values. -/
def State.clearRegs (s : State) (p : Nat) : State :=
  (roleRegs.foldl (fun t off =>
    (t.wr (coreReg p off) (resetWord t.fuses t.up (coreReg p off))).setHeld (coreReg p off) 0) s).neuShow p

/-- Local memory of `len` bytes at `off` copied from core `p` to core `q`, poison with it. -/
def State.copyMem (s : State) (p q off len : Nat) : State :=
  { s with mem := Store.copyWin zeroByte (memKey p off) (memKey q off) len s.mem
           poison := Store.copyWin (fun _ => false) (memKey p off) (memKey q off) len s.poison }.rewritten q off len

/-- Source-table entries, live and staged, moved from the router of `p` to that of `q`. -/
def State.moveSources (s : State) (p q : Nat) : State :=
  let mv {β : Type} [DecidableEq β] (d : Nat → β) (m : Store β) : Store β :=
    Store.clearAll (fun k => k / 1024 == p) (Store.copyWin d (1024 * p) (1024 * q) 1024 m)
  { s with srcLive := mv (fun _ => 0) s.srcLive, srcStaged := mv (fun _ => 0) s.srcStaged,
           srcChanged := mv (fun _ => false) s.srcChanged }

/-- What of a core's record belongs to the physical core and not to its role. -/
def Core.physical (keep role : Core) : Core :=
  { role with gated := keep.gated, scrubPtr := keep.scrubPtr, fencePending := false, handover := keep.handover,
              testEnd := keep.testEnd, testDue := keep.testDue }

/-- The router of core `p` forwards what still comes for logical id `l`: the live canopies that eject there for no role that it
forwards for already (R366). -/
def State.forwardAt (s : State) (p l : Nat) : State :=
  let cs := (List.range 4096).filter fun c => s.ejectsAt p c && (s.ejectRole p c).isNone
  s.setForwards p (s.forwardsOf p ++ [(l, cs)])

/-- The role of core `p` moves to the SAPLING `q`; core `p` takes the role code `left` (R22). -/
def State.moveRole (s : State) (p q left : Nat) : State :=
  let l := s.logicalOf p
  let c := s.core p
  let s1 := ((s.copyMem p q 0 0x40000).copyRegs p q).clearRegs p
  let s2 := s1.moveSources p q
  let s3 := (s2.setCore q (Core.physical (s2.core q) c)).setCore p (Core.physical c Core.init)
  let s4 := (((s3.setRole q roleActive l).setRole p left 0).setMap l q).mapEvent
  (s4.forwardAt p l).noteSaplings (p / 144)

/-- The role of core `p` moves to the SAPLING `q` before enable: the map changes and nothing is copied
(15_startup_pins.md R542). The old router forwards only where a live canopy still names it (R366). -/
def State.moveBare (s : State) (p q left : Nat) : State :=
  let l := s.logicalOf p
  let s1 := (((((s.wakeCore q).setRole q roleActive l).setRole p left 0).setMap l q).mapEvent).noteSaplings (p / 144)
  if s1.rootNeeded p l || ((List.range 4096).any fun c => s1.ejectsAt p c && (s1.ejectRole p c).isNone) then s1.forwardAt p l else s1

/-- A descriptor is in progress on core `p`: a role move waits for it (11_host_interface.md R396). -/
def State.descBusy (s : State) (p : Nat) : Bool :=
  (List.range 8).any fun a => (s.att a).descs.any fun d => d.started && d.status.isNone && d.core == p

/-- The role of core `p` may move (R220): the engine has finished its handler, every message it sent has its response,
every notification issued to it has been accepted, and its dense operation stands at a chunk boundary. -/
def State.mayMove (s : State) (p : Nat) : Bool :=
  let c := s.core p
  !(s.descBusy p) && (s.hdlSt p == hsIdle || s.hdlSt p == hsHalted) && c.wait == .none && c.openStep == none && c.openComing == none &&
    (match c.dns with | none => true | some r => r.owner != .step && r.cb == r.chunk) &&
    !(s.net.any fun f =>
      (match f.body with | .msg .. => true | .amArgs .. => true | _ => false) &&
        (f.place == .core p || (match f.tag with | .unicast _ d => d == p | _ => false)))

/-- The partition of core `p` stands at a step boundary: no step open and its release complete (R22). -/
def State.atBoundary (s : State) (k : Nat) : Bool := (s.part k).openStep == none && (s.part k).applying == 0

/-- The fence that a host writes takes effect (R22, R26): the role of an ACTIVE core moves to the lowest SAPLING with
nothing copied, or is left without a core (R28, 15_startup_pins.md R542). -/
def State.fenceBare (s : State) (p : Nat) : State :=
  let g := p / 144
  if s.role p = roleSapling then ((s.setRole p roleFenced 0).mapEvent).noteSaplings g
  else
    match s.sapling g with
    | some q => s.moveBare p q roleFenced
    | none => (((s.unmap (s.logicalOf p)).setRole p roleFenced 0).mapEvent).noteSaplings g

/-- Attachment `a` may fence core `p` of partition `k` (R26). -/
def State.mayFence (s : State) (a p k : Nat) : Bool :=
  s.ownerOf k == some a && !(s.enabled k) && (s.role p == roleActive || s.role p == roleSapling)

/-- Attachment `a` writes `v` to INT_PHYS_STATE of core `p` (R26): FENCED takes effect for an ACTIVE or SAPLING core of
an owned partition that is not enabled; it waits for the descriptors in progress on the core. -/
def State.fenceWrite (s : State) (a p : Nat) (v : Word) : State :=
  let g := p / 144
  match s.partOf g with
  | none => s
  | some k =>
    if fld v 28 4 = roleFenced ∧ s.mayFence a p k = true then
      if s.descBusy p then s.updGrove g fun w => { w with fenceWaits := w.fenceWaits.filter (·.1 != p) ++ [(p, a)] }
      else s.fenceBare p
    else s

/-- FENCE_MIGRATION_DONE: a fence that waited takes effect, or the copy to the reserved SAPLING is complete and the map
entry changes (R365). -/
def execFenceMigrationDone (g : Nat) (s : State) : Host.Outcome State Fault Refusal :=
  match (s.grove g).fenceWaits with
  | (p, a) :: rest =>
    if s.descBusy p then .next s
    else
      let t := s.updGrove g fun v => { v with fenceWaits := rest }
      -- the conditions of R26 hold again when the fence takes effect, or it is ignored (DEDUCED)
      .next (match s.partOf g with | some k => if s.mayFence a p k then t.fenceBare p else t | none => t)
  | [] =>
  match (s.grove g).reserved, s.partOf g with
  | (p, q) :: rest, some k =>
    if s.atBoundary k = true ∧ s.mayMove p = true ∧ s.role q = roleSapling ∧ s.role p = roleActive ∧ s.coreOn q = true then
      .next ((s.updGrove g fun v => { v with reserved := rest }).moveRole p q roleFenced)
    else .next s
  | _, _ => .next s

/-! ### In-field test (R368 to R372) -/

/-- Nanoseconds of an hour. -/
def hourNs : Nat := 3600 * 10 ^ 9

/-- The reference time at which core `p` falls due (R368). -/
def State.testAt (s : State) (p : Nat) : Nat :=
  let h := s.rf Reg.INT_TEST_CFG 0 8
  match (s.core p).testEnd with
  | none => h * hourNs * (p % 144) / 144
  | some t => t + h * hourNs

/-- May grove `g` begin the test of core `p` (R368, R370, R372)? Its banks must be CORE's, or they could not be handed to the test
(13_memory_power.md R466). -/
def State.mayTest (s : State) (p : Nat) : Bool :=
  let g := p / 144
  s.bit Reg.INT_TEST_CFG 31 && s.bit Reg.INT_TEST_STATUS 31 && (s.grove g).testing == none && (s.grove g).faulted == none &&
    ((s.grove g).reserved.all fun r => r.2 != p) && ((List.range 16).all fun b => s.bankFor p b ownCore) &&
    decide (2 ≤ s.saplingCount g) &&
    (match s.partOf g with
     | some k => !(s.bit (Reg.INT_TEST p) 31) || s.bit (Reg.INT_PART_STATUS k) 29
     | none => false)

/-- A core has left service for its test: DUE and FORCING end, and the grove tests it. -/
def State.testBegun (s : State) (p : Nat) : State :=
  (s.wf' (Reg.INT_TEST p) 29 2 0).updGrove (p / 144) fun v => { v with testing := some p }

/-- A SAPLING is tested in place (R369). -/
def State.testInPlace (s : State) (p : Nat) : State :=
  ((((s.setRole p roleTest 0).mapEvent).noteSaplings (p / 144)).testBegun p).moveBanks p ownTest

/-- TEST_DUE: a good core of a grove that belongs to a partition falls due (R368); domains that are not ON wake first
(13_memory_power.md R475). -/
def execTestDue (p : Nat) (s : State) : Host.Outcome State Fault Refusal :=
  if p < 9216 ∧ s.bit Reg.INT_TEST_CFG 31 = true ∧ (s.partOf (p / 144)).isSome = true ∧ (s.grove (p / 144)).faulted = none ∧
      (s.role p = roleActive ∨ s.role p = roleSapling ∨ s.role p = roleReplay) ∧ s.bit (Reg.INT_TEST p) 30 = false ∧
      s.testAt p ≤ s.ref then
    let s1 := ((s.wf' (Reg.INT_TEST p) 30 1 1).updCore p fun c => { c with testDue := s.ref }).wakeCore p
    .next (if s1.role p = roleSapling ∧ s1.mayTest p = true ∧ s1.coreOn p = true then s1.testInPlace p else s1)
  else .next s

/-- TEST_MIGRATE: the role of a due ACTIVE core moves to a sapling at the first step boundary that R220 allows, at once
for a disabled partition, and the test begins; a due SAPLING is tested in place (R369). -/
def execTestMigrate (p : Nat) (s : State) : Host.Outcome State Fault Refusal :=
  if p < 9216 ∧ s.bit (Reg.INT_TEST p) 30 = true ∧ s.mayTest p = true then
    if s.coreOn p = false then .next (s.wakeCore p)
    else if s.role p = roleSapling then .next (s.testInPlace p)
    else
      match s.sapling (p / 144), s.partOf (p / 144) with
      | some q, some k =>
        if s.coreOn q = false then .next (s.wakeCore q)
        else if s.role p = roleActive ∧ s.atBoundary k = true ∧ s.mayMove p = true then
          .next (((s.testBegun p).moveRole p q roleTest).moveBanks p ownTest)
        else .next s
      | _, _ => .next s
  else .next s

/-- TEST_DEFER_EXPIRE: DEFER_S seconds have passed and the migration is forced (R369). -/
def execTestDeferExpire (p : Nat) (s : State) : Host.Outcome State Fault Refusal :=
  if p < 9216 ∧ s.bit (Reg.INT_TEST p) 30 = true ∧ s.role p = roleActive ∧
      (s.core p).testDue + s.rf Reg.INT_TEST_CFG 16 12 * 10 ^ 9 ≤ s.ref then
    .next (s.wf' (Reg.INT_TEST p) 29 1 1)
  else .next s

/-- The whole local memory of a core cleared. -/
def State.clearMem (s : State) (p : Nat) : State :=
  s.memClear fun k => k / 0x40000 == p

/-- TEST_DONE: the test of core `p` ends; local memory is left cleared (R371) and its banks go back to CORE (13_memory_power.md R466). -/
def execTestDone (p : Nat) (pass : Bool) (pattern : Nat) (s : State) : Host.Outcome State Fault Refusal :=
  let g := p / 144
  if s.role p = roleTest ∧ (s.grove g).testing = some p ∧ (s.grove g).faulted = none then
    let s1 := ((s.clearMem p).moveBanks p ownCore).updGrove g fun v => { v with testing := none }
    let s2 := s1.updCore p fun c => { c with testEnd := some s.ref }
    if pass then
      let s3 := (s2.wr (Reg.INT_TEST_LAST p) (BitVec.ofNat 32 (s.ref / 10 ^ 9))).count Reg.INT_TEST_PASSED 1
      .next (((s3.setRole p roleSapling 0).mapEvent).noteSaplings g)
    else
      let s3 := (s2.count Reg.INT_TEST_FAILED 1).report fltTestFail
        { part := s.partOf g, core := some p, grove := some g, detail := [pattern] }
      .next (((s3.setRole p roleFenced 0).mapEvent).noteSaplings g)
  else .next s

end Sys2Proof.Machine
end

