-- ==== Sys2Proof/Machine/Verdict.lean ====
section
/-! DEFINITION. Verdicts, replays, corrections and twin repair (10_integrity.md R345, R354 to R363, R559). -/
namespace Sys2Proof.Machine

/-! ### Twins -/

/-- The partition runs replicated shards (R349). -/
def State.replicated (s : State) (k : Nat) : Bool := s.bit (Reg.INT_PART_CTRL k) 31

/-- The twin of core `p`, where it has one (R349). -/
def State.twin (s : State) (p : Nat) : Option Nat :=
  if s.bit (Reg.INT_CORE_TWIN p) 31 then s.physOf (s.rf (Reg.INT_CORE_TWIN p) 0 13) else none

def Report.flag (r : Report) (b : Nat) : Bool := nfld r.flags b 1 == 1

/-- The report of core `p` among those received. -/
def reportOf (rs : List Report) (p : Nat) : Option Report := rs.find? (·.core == p)

/-! ### Findings (R345, R354) -/

/-- D_LOC = R_LOC at a core for every parity (R345). -/
def State.locBalanced (s : State) (r : Report) : Bool :=
  r.dLoc == r.rLoc && (List.range 4).all fun par => par == r.parity ||
    (s.core r.core).sum par sumDLoc == (s.core r.core).sum par sumRLoc

/-- A sum over reports, modulo 2^40. -/
def sumOver (rs : List Report) (f : Report → Nat) : Nat := rs.foldl (fun acc r => (acc + f r) % 2 ^ 40) 0

/-- ΣD_GRV = ΣR_GRV over the grove, for every parity. -/
def State.grvBalanced (s : State) (rs : List Report) : Bool :=
  sumOver rs (·.dGrv) == sumOver rs (·.rGrv) && (List.range 4).all fun par =>
    sumOver (rs.filter (·.parity != par)) (fun r => (s.core r.core).sum par sumDGrv) ==
      sumOver (rs.filter (·.parity != par)) fun r => (s.core r.core).sum par sumRGrv

/-- Twins of one pair report different digests (R345, R350). -/
def State.twinDiffers (s : State) (rs : List Report) (r : Report) : Bool :=
  match (s.twin r.core).bind (reportOf rs) with
  | none => false
  | some t => r.emit != t.emit || (!r.round && r.state != t.state)

/-- Cores whose D_GRV or R_GRV differs from the twin's. -/
def State.grvDiffers (s : State) (rs : List Report) (r : Report) : Bool :=
  match (s.twin r.core).bind (reportOf rs) with
  | none => false
  | some t => r.dGrv != t.dGrv || r.rGrv != t.rGrv

/-- The replica of a core: 0 for the lower logical id of a pair, 1 for the higher (DESIGN CHOICE: R354 says "the replica
whose totals do not balance" and R349 names no replica). -/
def State.replicaOf (s : State) (r : Report) : Nat :=
  match s.twin r.core with
  | none => 0
  | some t => if s.logicalOf r.core < s.logicalOf t then 0 else 1

/-- The replica with unbalanced totals. -/
def State.badReplica (s : State) (rs : List Report) (i : Nat) : Bool :=
  let l := rs.filter fun r => s.replicaOf r == i
  sumOver l (·.dGrv) != sumOver l (·.rGrv)

/-- The suspects of finding 5 in a replicated partition: the cores of an unbalanced replica that differ from their twins. -/
def State.grvSuspects (s : State) (rs : List Report) : List Report :=
  rs.filter fun r => s.badReplica rs (s.replicaOf r) && s.grvDiffers rs r

/-- The first finding against a grove, with its suspect; replays are resolved first (R354). -/
def State.findingOf (s : State) (k : Nat) (rs : List Report) : Option (Nat × Report) :=
  let rep := s.replicated k
  let sorted := (List.range 9216).filterMap (reportOf rs)
  let first (f : Nat) (p : Report → Bool) : Option (Nat × Report) := (sorted.find? p).map fun r => (f, r)
  let grv : Option (Nat × Report) :=
    if s.grvBalanced rs then none
    else match (if rep then (s.grvSuspects sorted).head? else none) with
      | some r => some (5, r)
      | none => (sorted.find? (·.flag flagRow) <|> sorted.head?).map fun r => (5, r)
  (if rep then first 1 (s.twinDiffers rs) else none)
    <|> first 3 (·.flag flagDense)
    <|> first 4 (fun r => !(s.locBalanced r) || r.flag flagPair)
    <|> grv
    <|> first 6 (·.flag flagSram)

/-- A finding 4 or 5 that malformed data explains (R354): every mismatching core also reported ROW_FORMAT, and twins
mismatch identically. The totals of finding 5 name no core: what mismatches is a replica, and a core of each that does reported
ROW_FORMAT (DEDUCED). -/
def State.dataFailure (s : State) (k finding : Nat) (rs : List Report) : Bool :=
  let rep := s.replicated k
  if finding = 4 then
    let bad := rs.filter fun r => !(s.locBalanced r) || r.flag flagPair
    bad.all fun r => r.flag flagRow && (!rep || (match (s.twin r.core).bind (reportOf rs) with
      | some t => t.dLoc == r.dLoc && t.rLoc == r.rLoc
      | none => false))
  else finding == 5 && ((List.range 2).all fun i => !(s.badReplica rs i) || rs.any fun r => s.replicaOf r == i && r.flag flagRow) &&
    rs.any (·.flag flagRow) && (!rep || !(rs.any (s.grvDiffers rs)))

/-! ### Resolving -/

/-- The round flag of the verdict under way at a grove. -/
def State.verdictRound (s : State) (g : Nat) : Bool := match (s.grove g).asked with | some q => q.2 | none => false

/-- SUSPECT and FINDING of a core (R377). -/
def State.suspect (s : State) (p finding : Nat) : State :=
  (s.wf' (Reg.INT_CORE_STATUS p) 31 1 1).wf' (Reg.INT_CORE_STATUS p) 24 4 finding

/-- A verdict of grove `g` has failed: it holds commit (R43, R279). -/
def State.failVerdict (s : State) (g k finding core : Nat) : State :=
  let s1 := ((s.count (Reg.INT_GRV_FAILS g) 1).holdGrove g).wf' (Reg.INT_GRV_STATUS g) 31 1 1
  ((s1.stepState k ssHeld).updGrove g fun v => { v with finding := finding }).suspect core finding

/-- The verdict is taken again (R279 stage 2): the collector asks for new reports. -/
def State.retakeVerdict (s : State) (g : Nat) : State :=
  (s.wf' (Reg.INT_GRV_STATUS g) 31 1 0).askGrove g (s.verdictStep g) (s.verdictRound g)

/-- After a correction the step's delivery is declared again, and every grove's verdict is taken again (R358). -/
def State.redeliver (s : State) (k : Nat) : State :=
  let s1 := s.updPart k fun q => { q with delivered := false, roundAsked := false }
  (s1.grovesOf k).foldl (fun t g =>
    ((t.updGrove g fun v => { v with asked := none, passed := false, reports := [] }).wf' (Reg.STEP_GROVE_STATUS g) 30 1 0).wf'
      (Reg.INT_GRV_STATUS g) 31 1 0) s1

/-- The report of a failed verdict over Emetur (R374): FLT_SPARSE_CHECK, FLT_REPLICA_DIGEST or FLT_AUDIT. -/
def State.reportFinding (s : State) (finding core outcome : Nat) : State :=
  match finding with
  | 1 => s.report fltReplica (s.coreKeys core [s.rf (Reg.INT_CORE_TWIN core) 0 13, outcome])
  | 2 => s.report fltAudit (s.coreKeys core [outcome])
  | 4 => s.report fltSparse (s.coreKeys core [4, outcome])
  | 5 => s.report fltSparse (s.coreKeys core [5, outcome])
  | _ => s

/-- An unresolved failure: the partition stops with cause INTEGRITY (R362). FLT_SPARSE_CHECK is the more specific class
for findings 4 and 5 (DEDUCED). -/
def State.unresolved (s : State) (g k finding core sapling : Nat) : State :=
  let s1 := (s.checkEntry g finding outUnresolved sapling (s.logicalOf core)).count (Reg.INT_GRV_UNRESOLVED g) 1
  let s2 := s1.reportFinding finding core outUnresolved
  let s3 := if finding = 4 ∨ finding = 5 then s2 else s2.report fltUnresolved (s2.coreKeys core [finding])
  s3.stopPart k scIntegrity

/-- A replay of core `p` begins, or the failure is unresolved for want of a SAPLING (R354, R362). -/
def State.replayOr (s : State) (g k finding trigger p : Nat) : State :=
  match s.startReplay g trigger p none with
  | some t => t
  | none => s.unresolved g k finding p 0x3FFF

/-- A twin repair of core `p` begins, or the partition stops (R354). -/
def State.repairOr (s : State) (g k finding p : Nat) : State :=
  match (if s.replicated k then s.twin p else none) with
  | some t => (s.updGrove g fun v => { v with repair := v.repair ++ [(p, t, finding)] }).wf' (Reg.INT_GRV_STATUS g) 30 1 1
  | none => s.unresolved g k finding p 0x3FFF

/-- A failed verdict repaired from the twin: its CHECK entry and report, with the last core repaired (R362). -/
def State.repaired (s : State) (g finding p : Nat) : State :=
  (s.checkEntry g finding outRepaired 0x3FFF (s.logicalOf p)).reportFinding finding p outRepaired

/-- Recovery of a core that finding 5 suspects (R354): a receiver that differs is repaired; D_GRV of a core that differs in it alone is
set equal to its twin's, and that core takes a strike. -/
def State.grvRecover (s : State) (g k : Nat) (rs : List Report) (r : Report) : State :=
  match (s.twin r.core).bind (reportOf rs) with
  | none => s
  | some t =>
    let s1 := s.suspect r.core 5
    if r.rGrv = t.rGrv then (s1.strike r.core strikeDGrv).updCore r.core fun c => c.setSum r.parity sumDGrv t.dGrv
    else s1.repairOr g k 5 r.core

/-- Finding 5 recovered: every suspect of the verdict at once; with none, and in a partition without replicas, it is unresolved. -/
def State.grvFound (s : State) (g k : Nat) (rs : List Report) (core : Nat) : State :=
  match (if s.replicated k then s.grvSuspects rs else []) with
  | [] => s.unresolved g k 5 core 0x3FFF
  | l =>
    let s1 := l.foldl (fun t r => t.grvRecover g k rs r) s
    if (s1.grove g).repair = [] then (s1.repaired g 5 core).retakeVerdict g else s1

/-- A failed verdict recovered (R354). -/
def State.recover (s : State) (g k : Nat) (rs : List Report) (finding : Nat) (r : Report) : State :=
  let s1 := s.failVerdict g k finding r.core
  if s1.dataFailure k finding rs then
    ((s1.checkEntry g finding outUnresolved 0x3FFF (s1.logicalOf r.core)).count (Reg.INT_GRV_UNRESOLVED g) 1).stopPart k scIntegrity
  else
    match finding with
    | 1 =>
      let s2 := match s1.twin r.core with | some t => s1.suspect t 1 | none => s1
      s2.replayOr g k 1 trigTwin r.core
    | 3 => s1.replayOr g k 3 trigDense r.core
    | 5 => s1.grvFound g k rs r.core
    | 4 =>
      -- a twin that mismatches as well cannot repair
      match (s1.twin r.core).bind (reportOf rs) with
      | some t => if s1.locBalanced t && !(t.flag flagPair) then s1.repairOr g k 4 r.core else s1.unresolved g k 4 r.core 0x3FFF
      | none => s1.repairOr g k 4 r.core
    | f => s1.repairOr g k f r.core

/-- A verdict that passes: the grove commits (R279). -/
def State.passVerdict (s : State) (g : Nat) : State :=
  let s1 := (s.updGrove g fun v => { v with passed := true, finding := 0 }).unholdGrove g
  let s2 := (s1.wf' (Reg.STEP_GROVE_STATUS g) 30 1 1).wf' (Reg.INT_GRV_STATUS g) 31 1 0
  (s2.activeCores g).foldl (fun t p => t.wf' (Reg.INT_CORE_STATUS p) 31 1 0) s2

/-- GROVE_VERDICT: the collector compares sums, flags and digests and reports its verdict (R345). It waits for every
report, for an audit of the step and for outstanding HBM data. -/
def execGroveVerdict (g : Nat) (s : State) : Host.Outcome State Fault Refusal :=
  let v := s.grove g
  match s.partOf g, v.asked with
  | some k, some _ =>
    let rs := v.reports
    if v.passed ∨ v.hbmOut ≠ [] ∨ v.replay ≠ none ∨ v.repair ≠ [] ∨
        ((s.activeCores g).all fun p => (reportOf rs p).isSome) = false then .next s
    else
      match s.findingOf k rs with
      | none => .next (s.passVerdict g)
      | some (f, r) => .next (s.recover g k rs f r)
  | _, _ => .next s

/-! ### The replay (R355) -/

/-- At a round a replay covers the step up to the entry count at which the core stalled (R350): its dense entries are
cut to those the core has. -/
def cutDense (round : Bool) (own ents : List Word) : List Word :=
  if round then
    streamOf [kindNeuron] ents ++ (streamOf [kindDense] ents).take ((streamOf [kindDense] own).length) ++ handlerEnts ents
  else ents

/-- REPLAY_COPY_DONE: the image is complete and the sapling runs the core's step with injection disabled (R355, R363).
`lane`, `flip` and `value` are a fault of the sapling's neuron engine. -/
def execReplayCopyDone (g lane : Nat) (flip : Word) (value : Nat) (s : State) : Host.Outcome State Fault Refusal :=
  match (s.grove g).replay with
  | none => .next s
  | some r =>
    let n := s.verdictStep g
    let p := r.core
    let q := r.sapling
    if r.running ∨ r.copied < (s.image p n).length ∨ s.coreOn q = false then .next s
    else
      let c := s.core p
      let s1 := (s.copyRegs p q).updCore q fun d => { d with
        selectors := c.selectors, openStep := some n, integ := [], blocks := 0, mons := [],
        counts := ⟨0, 0, 0, 0, 0, 0⟩, flags := 0, log := s.handlerLog p n, ents := handlerEnts c.ents }
      let lanes := c.integ.filterMap fun i => (s.grpOf p i).map fun gr => (i, gr)
      let s2 := s1.integrateSilent q n ⟨lane, flip, value⟩ lanes
      let s3 := if c.spanEnded then s2.denseSilent p q n else s2
      .next (s3.updGrove g fun v => { v with replay := some { r with running := true } })

/-! ### Decisions (R356, R357) -/

/-- What R357 decides: the outcome of R559, the executions rejected with what corrects them, the strikes. -/
structure Ruling where
  outcome : Nat
  rejected : List (Nat × Exec)
  strikes : List (Nat × Nat)
  deriving DecidableEq, Repr

/-- The ruling for a core `c` after a replay Y, none where a second replay is called for. `y1` is the first replay where
Y is the second. A replay that fails its own dense check agrees with none (DEDUCED). -/
def ruling (round : Bool) (trigger c twin : Nat) (o t y : Exec) (y1 : Option Exec) : Option Ruling :=
  let eq (a b : Exec) : Bool := a.agrees round b
  let isTwin := trigger == trigTwin
  match y1 with
  | none =>
    if y.dense then none
    else if isTwin && eq y t then some ⟨outTwin, [(c, t)], [(c, strikeRejected)]⟩
    else if eq y o then
      if isTwin then some ⟨outOriginal, [(twin, o)], [(twin, strikeRejected)]⟩ else some ⟨outOriginal, [], []⟩
    else none
  | some z =>
    if y.dense then some ⟨outUnresolved, [], []⟩
    else if eq y z && !z.dense then
      if isTwin then some ⟨outReplay, [(c, y), (twin, y)], [(c, strikeRejected), (twin, strikeRejected)]⟩
      else some ⟨outReplay, [(c, y)], [(c, strikeRejected)]⟩
    else if eq y o then
      if isTwin then some ⟨outOriginal, [(twin, o)], [(twin, strikeRejected), (z.core, strikeSapling)]⟩
      else some ⟨outOriginal, [], [(z.core, strikeSapling)]⟩
    else if isTwin && eq y t then some ⟨outTwin, [(c, t)], [(c, strikeRejected), (z.core, strikeSapling)]⟩
    else some ⟨outUnresolved, [], []⟩

/-! ### Correction (R358) -/

/-- Entries of a stream grouped into events: one word, or the two of a handler event. -/
def units : List Word → List (List Word)
  | [] => []
  | [w] => [[w]]
  | w :: a :: rest => if logKind w = 2 then [w, a] :: units rest else [w] :: units (a :: rest)

/-- Events of the step still in core `p`'s log: slot and words, STATE bits zero. -/
def State.loggedUnits (s : State) (p n : Nat) : List (Nat × List Word) :=
  (((s.core p).log.filter (·.step == n)).filter fun e => logKind (s.word p (logAt e.slot)) != kindArg).map fun e =>
    (e.slot, (s.entAt p e.slot).map fun w => setFld w 28 2 0)

/-- One retraction of step `n` sent through core `p`'s source table (R282). -/
def State.retractEvent (s : State) (p k n : Nat) (ws : List Word) : State :=
  match s.entEvent p n ws with
  | none => s
  | some e => (s.present p { e with retract := true }).count (Reg.STEP_RETRACTS k) 1

/-- Position-wise comparison of one stream (R358 step 1): a retraction for each event of X not held identically by A
that was sent and that no round has freed, and each event of A that X does not hold so. `logged` are the slots of X's
events that are still logged; the freed ones come first. -/
def State.correctStream (s : State) (p k n : Nat) (xs as : List (List Word)) (logged : List (Nat × List Word)) : State :=
  let freed := xs.length - logged.length
  (List.range (max xs.length as.length)).foldl (fun t i =>
    let x := xs[i]?
    let a := as[i]?
    if x = a then t
    else
      let t1 := match x, (if i < freed then none else logged[i - freed]?) with
        | some ws, some (slot, _) =>
          let st := logState (s.word p (logAt slot))
          if st = lsSent ∨ st = lsSpillSent then t.retractEvent p k n ws else t
        | _, _ => t
      match a with
      | some ws =>
        match t1.entEvent p n ws with
        | some e => t1.present p { e with fix := x.isSome }
        | none => t1
      | none => t1) s

/-- Entries of X's log of step `n` replaced by A's, those a round has freed left out: an entry held identically keeps
its STATE, a new one reads SENT. -/
def State.replaceLog (s : State) (p n : Nat) (xs as : List Word) : State :=
  let logged := s.loggedUnits p n
  let s1 := s.updCore p fun c => { c with log := c.log.filter (·.step != n), ents := as }
  let s2 := streamKinds.foldl (fun t ks =>
    let xu := units (streamOf ks xs)
    let lu := logged.filter fun l => ks.contains (logKind (l.2.headD 0))
    let freed := xu.length - lu.length
    let au := units (streamOf ks as)
    (List.range au.length).foldl (fun t i =>
      if i < freed then t
      else
        let ws := au.getD i []
        let st := match (if xu[i]? = some ws then lu[i - freed]? else none) with
          | some l => logState (s.word p (logAt l.1))
          | none => lsSent
        match (t.core p).nextSlot ws.length with
        | some slot => t.logAppend p slot n (ws.map fun w => setFld w 28 2 st)
        | none => t) t) s1
  s2.wf' (Reg.CORE_EMIT_STATUS p) 0 13 ((s2.core p).logUsed)

/-- A rejected execution of core `x` corrected to the accepted execution `a` (R358). -/
def State.correct (s : State) (k n x : Nat) (a : Exec) : State :=
  let own := (s.core x).ents
  let logged := s.loggedUnits x n
  let s1 := streamKinds.foldl (fun t ks =>
    t.correctStream x k n (units (streamOf ks own)) (units (streamOf ks a.entries))
      (logged.filter fun l => ks.contains (logKind (l.2.headD 0)))) s
  let s2 := s1.replaceLog x n own a.entries
  let c := s2.core x
  let s3 := c.integ.foldl (fun t i =>
    match t.grpOf x i with
    | some g => t.setBytes x (g.copyAt i (1 - c.live (i / 64))) (s.bytes a.core (g.copyAt i (1 - c.live (i / 64))) 8)
    | none => t) s2
  let s4 := ((s3.stepOps x).filter fun op => !op.events).foldl (fun t op =>
    t.setBytes x (op.outAt n) (s.bytes a.core (op.outAt n) op.outBytes)) s3
  s4.updCore x fun c => { c with mons := a.mons, counts := a.counts, flags := c.flags - c.flags % 2 }

/-! ### The end of a replay -/

/-- The ruling carried out: records, strikes and corrections, then the verdict again (R358, R362). -/
def State.applyRuling (s : State) (g k n finding core sapling : Nat) (u : Ruling) : State :=
  let s1 := s.endReplay g
  if u.outcome = outUnresolved then s1.unresolved g k finding core sapling
  else
    let s2 := (s1.checkEntry g finding u.outcome sapling (s1.logicalOf core)).reportFinding finding core u.outcome
    let s3 := u.rejected.foldl (fun t xa => t.correct k n xa.1 xa.2) s2
    let s4 := u.strikes.foldl (fun t ps => t.strike ps.1 ps.2) s3
    -- an accepted original no longer fails its dense check
    let s5 := s4.updCore core fun c => { c with flags := c.flags - c.flags % 2 }
    if u.rejected.isEmpty then
      if (s5.grove g).asked.isSome then s5.retakeVerdict g else s5.wf' (Reg.INT_GRV_STATUS g) 31 1 0
    else s5.redeliver k

/-- The finding that a replay's trigger resolves. -/
def trigFinding (t : Nat) : Nat := if t = trigTwin then 1 else if t = trigAudit then 2 else 3

/-- A second replay where no ruling can be made; where none can start, the fault stays unresolved (R357). -/
def State.secondReplay (s : State) (g k : Nat) (r : Replay) (y : Exec) (first : Nat) : State :=
  match s.startReplay g r.trigger r.core (some y) with
  | some t => t.count (Reg.INT_GRV_DECIDES g) 1
  | none => (s.endReplay g).unresolved g k (trigFinding r.trigger) r.core first

/-- The outcome of a finished replay of grove `g` (R356, R357). -/
def State.ruleReplay (s : State) (g k : Nat) (r : Replay) : State :=
  let n := s.verdictStep g
  let c := s.core r.core
  let round := s.verdictRound g
  let q := s.core r.sapling
  -- handlers of an audited core go on while its replay runs: its HANDLER entries are taken as they stand
  let y := s.execution r.core r.sapling n (cutDense round c.ents (streamOf [kindNeuron] q.ents ++ streamOf [kindDense] q.ents ++ handlerEnts c.ents))
  let o := s.execution r.core r.core n c.ents
  let twin := (s.twin r.core).getD r.core
  let t := s.execution twin twin n (s.core twin).ents
  let first := match r.y1 with | some z => z.core | none => r.sapling
  let s1 := if r.trigger = trigAudit ∧ r.y1 = none then s.count (Reg.INT_GRV_AUDITS g) 1 else s
  match ruling round r.trigger r.core twin o t y r.y1 with
  | some u =>
    if r.trigger = trigAudit ∧ r.y1 = none then s1.endReplay g
    else s1.applyRuling g k n (trigFinding r.trigger) r.core first u
  | none =>
    -- an audit that disagrees is a failed verdict of finding 2
    (if r.trigger = trigAudit then s1.failVerdict g k 2 r.core else s1).secondReplay g k r y first

/-- REPLAY_DONE: the sapling's execution is complete and its digests decide the outcome, or call for a second replay
(R356, R357). An audit is decided once the audited core has declared (R361). -/
def execReplayDone (g : Nat) (s : State) : Host.Outcome State Fault Refusal :=
  match (s.grove g).replay, s.partOf g with
  | some r, some k =>
    if r.running = false ∨ (r.trigger = trigAudit ∧ (s.core r.core).declared = false) then .next s
    else .next (s.ruleReplay g k r)
  | _, _ => .next s

/-! ### Twin repair (R359) -/

/-- What the repair of core `p` from its twin `t` writes in step `n`: the neuron area, the current slots and, for finding 6, the poisoned
banks; the four sums of the parity are set equal (R359). What the repair has mended is no longer reported: SRAM_UE and PAIR_SUSPECT. -/
def State.copyTwin (s : State) (p t f n : Nat) : State :=
  let par := n % 4
  let used := (s.grps p).foldl (fun acc gr => max acc (gr.area + gr.lanes * gr.n * laneBytes gr.depth)) 0
  let banks := if f = 6 then (List.range 16).filter fun b =>
    s.poison.any fun e => memKey p (0x4000 * b) ≤ e.1 && decide (e.1 < memKey p (0x4000 * b + 0x4000)) else []
  let s1 := banks.foldl (fun u b => u.copyMem t p (0x4000 * b) 0x4000) s
  let s2 := (s1.copyMem t p neuronBase used).copyMem t p 0 0x3000
  let d := s.core t
  s2.updCore p fun c =>
    let c1 := { c with selectors := d.selectors, touched := d.touched }
    let c2 := (((c1.setSum par sumDLoc (d.sum par sumDLoc)).setSum par sumRLoc (d.sum par sumRLoc)).setSum par sumDGrv
      (d.sum par sumDGrv)).setSum par sumRGrv (d.sum par sumRGrv)
    { c2 with flags := c2.flags % 2 + 4 * (c2.flags / 4 % 2) }

/-- TWIN_REPAIR_DONE: the copy from the twin is complete and the core takes a strike (R359). Once no other repair of the verdict is left,
its entry is recorded and it is taken again (R279, R362). -/
def execTwinRepairDone (g : Nat) (s : State) : Host.Outcome State Fault Refusal :=
  match (s.grove g).repair, s.partOf g with
  | (p, t, f) :: rest, some _ =>
    let s1 := (s.copyTwin p t f (s.verdictStep g)).updGrove g fun v => { v with repair := rest }
    let s2 := (s1.count (Reg.INT_GRV_REPAIRS g) 1).strike p strikeRepaired
    .next (if rest = [] then ((s2.wf' (Reg.INT_GRV_STATUS g) 30 1 0).repaired g f p).retakeVerdict g else s2)
  | _, _ => .next s

end Sys2Proof.Machine
end

