-- ==== Sys2Proof/Machine/Digests.lean ====
section
/-! DEFINITION. The scrubber (10_integrity.md R346, R347), the weight digests (R351) and the configuration digests
(R352, R353). -/
namespace Sys2Proof.Machine

/-! ### Scrubbing -/

/-- 64-bit words of a local memory. -/
def memWords : Nat := 0x8000

/-- SCRUB: the scrubber of core `p` reads the next word of local memory; `err` is an error it finds there besides those that came
with time: 0 for none, 1 for a single-bit error, otherwise a double-bit error (R346, R347). It passes over a word in a bank that CORE does not own (13_memory_power.md R465). -/
def execScrub (p err : Nat) (s : State) : Host.Outcome State Fault Refusal :=
  if s.memOn p = false then .next s
  else
    let w := (s.core p).scrubPtr
    let off := 8 * w
    let s1 := s.updCore p fun c => { c with scrubPtr := (w + 1) % memWords }
    .next (if s.bankFor p (off / 0x4000) ownCore then (s1.meet p off 8).readError p off err else s1)

/-! ### Weight digests -/

/-- Regions of core `p`'s own digest engine: extents of its LOCAL windows, then the LOCAL weight areas of its enabled
dense operations (R351). -/
def State.coreRegions (s : State) (p : Nat) : List (Nat × Nat) :=
  ((s.wins p).filter fun w => !w.grove).map (fun w => (w.dir % 2 ^ 18, w.ext))
    ++ ((((List.range 4).map fun o => s.opCfg p o).filter fun op => op.en && !op.stream).map fun op =>
      (op.w % 2 ^ 18, op.weightBytes))

/-- Regions that core `p` names to its grove's digest engine: GROVE window extents, then STREAM weight areas; an extent named twice is
walked once (R351). -/
def State.namedRegions (s : State) (p : Nat) : List (Nat × Nat) :=
  let exts := ((s.wins p).filter (·.grove)).map fun w => (32 * w.dir, 32 * w.ext)
  let ops := (((List.range 4).map fun o => s.opCfg p o).filter fun op => op.en && op.stream).map fun op => (32 * op.w, op.weightBytes)
  (exts ++ ops).eraseDups

/-- Where a walk stands: working register, its value at the end of each region walked, position, and whether every region has been
walked. -/
structure Walk where
  run : Nat
  marks : List Nat
  pos : Nat
  done : Bool

/-- Regions walked from position `pos` for at most `budget` bytes. `i` numbers the region, `at_` is the position at its start. -/
def walk (read : Nat → Nat → List Byte) (pos budget : Nat) : Nat → Nat → Nat → List Nat → List (Nat × Nat) → Walk
  | _, at_, r, ms, [] => ⟨r, ms, at_, true⟩
  | i, at_, r, ms, (addr, len) :: rest =>
    if at_ + len ≤ pos ∧ len ≠ 0 then walk read pos budget (i + 1) (at_ + len) r ms rest
    else if pos + budget ≤ at_ then ⟨r, ms, at_, false⟩
    else
      let from_ := pos - at_
      let r1 := if from_ = 0 then cvuFeed c64e r (toBytes 8 (i * 2 ^ 32)) else r
      let upto := min len (pos + budget - at_)
      let r2 := cvuFeed c64e r1 (read (addr + from_) (upto - from_))
      if upto < len then ⟨r2, ms, at_ + upto, false⟩
      else walk read pos budget (i + 1) (at_ + len) r2 (if len = 0 ∧ from_ ≠ 0 then ms else ms ++ [r2]) rest

/-- The first region at which two passes differ (DEDUCED: the digest runs over every region, so the region that R351 reports is the
first whose running value differs). -/
def firstDiff (a b : List Nat) : Option Nat := (List.range (max a.length b.length)).find? fun i => a[i]? != b[i]?

/-- FLT_WEIGHT_DIGEST for core `p` where two passes differ: WEIGHT_MISMATCH and the report, with the region (R351, R374). -/
def State.weightCompare (s : State) (p : Nat) (a b : List Nat) : State :=
  match firstDiff a b with
  | none => s
  | some r =>
    let t1 := s.wf' (Reg.INT_DIG_STATUS p) 30 1 1
    let t2 := match s.partOf (p / 144) with | some k => t1.wf' (Reg.INT_PART_STATUS k) 30 1 1 | none => t1
    t2.report fltWeightDigest (t2.coreKeys p [r])

/-- One step's share of the walk of core `p`'s digest engine. The second answer says whether a pass ended. -/
def State.coreWalk (s : State) (p budget : Nat) : State × Bool :=
  let c := s.core p
  let regions := s.coreRegions p
  if regions.isEmpty then (s, false)
  else
    let w := walk (s.bytes p) c.wdigPos budget 0 0 (if c.wdigPos = 0 ∧ c.wdigMarks = [] then c64e.init else c.wdigRun) c.wdigMarks regions
    if !w.done then (s.updCore p fun c => { c with wdigPos := w.pos, wdigRun := w.run, wdigMarks := w.marks }, false)
    else
      let v := cvuValue c64e w.run
      let s1 := (s.updCore p fun c => { c with wdigPos := 0, wdigRun := 0, wdigMarks := [], wdigLast := w.marks, wdigNew := false }).wr64
        (Reg.INT_WDIG_LO p) v
      if s.bit (Reg.INT_DIG_STATUS p) 31 = false ∨ c.wdigNew = true then
        (((s1.updCore p fun c => { c with wdigBase := w.marks }).wr64 (Reg.INT_WDIG_BASE_LO p) v).wf' (Reg.INT_DIG_STATUS p) 31 1 1, true)
      else (s1.weightCompare p w.marks c.wdigBase, true)

/-- Twin comparison of the passes that ended: the lower core of each pair is reported where they differ. The first pass
after enable is not compared (R351). -/
def State.twinWalks (s : State) (hadBase : Nat → Bool) (ended : List Nat) : State :=
  ended.foldl (fun t p =>
    match t.twin p with
    | some q =>
      if p < q ∧ ended.contains q = true ∧ hadBase p = true then t.weightCompare p (t.core p).wdigLast (t.core q).wdigLast else t
    | none => t) s

/-- The end of a pass of grove `g`'s digest engine over the regions of cores `cores`: each core's values are compared with its baseline,
or set it, and with its twin's (R351). -/
def State.groveWalked (s : State) (g : Nat) (cores : List Nat) : State :=
  let v := s.grove g
  let vals (p : Nat) : List Nat := Store.get (fun _ => []) v.wdigVals p
  let base (p : Nat) : List Nat := Store.get (fun _ => []) v.wdigBases p
  let s1 := s.updGrove g fun v => { v with wdigAt := 0, wdigPos := 0, wdigRun := 0, wdigMarks := [], wdigNew := false }
  let s2 := cores.foldl (fun t p =>
    if base p = [] ∨ v.wdigNew = true then
      t.updGrove g fun v => { v with wdigBases := Store.set (fun _ => []) v.wdigBases p (vals p) }
    else t.weightCompare p (vals p) (base p)) s1
  cores.foldl (fun t p =>
    match t.twin p with
    | some q => if p < q ∧ base p ≠ [] ∧ cores.contains q = true then t.weightCompare p (vals p) (vals q) else t
    | none => t) s2

/-- The walk of grove `g`'s digest engine goes on over the regions of cores `todo`, one core after another, for `budget` bytes; each
core's digest starts anew. `all` are the cores that name any. -/
def State.groveSpan (s : State) (g : Nat) (all : List Nat) : Nat → List Nat → State
  | _, [] => s.groveWalked g all
  | budget, p :: ps =>
    let v := s.grove g
    let w := walk s.hbmBytes v.wdigPos budget 0 0 (if v.wdigPos = 0 ∧ v.wdigMarks = [] then c64e.init else v.wdigRun) v.wdigMarks
      (s.namedRegions p)
    if w.done then
      (s.updGrove g fun v => { v with wdigAt := v.wdigAt + 1, wdigPos := 0, wdigRun := 0, wdigMarks := [],
                                      wdigVals := Store.set (fun _ => []) v.wdigVals p w.marks }).groveSpan g all
        (budget - (w.pos - v.wdigPos)) ps
    else s.updGrove g fun v => { v with wdigPos := w.pos, wdigRun := w.run, wdigMarks := w.marks }

/-- One step's share of the walk of grove `g`'s digest engine, over what each ACTIVE core names. -/
def State.groveWalk (s : State) (g budget : Nat) : State :=
  let all := (s.activeCores g).filter fun p => !(s.namedRegions p).isEmpty
  if all.isEmpty then s else s.groveSpan g all budget (all.drop (s.grove g).wdigAt)

/-- The digest engines of partition `k` walk their share of a step (R351). -/
def State.weightDigests (s : State) (k : Nat) : State :=
  let budget := 1024 * s.rf (Reg.INT_PART_CTRL k) 0 8
  if budget = 0 then s
  else
    let cores := s.coresOfPart k
    let hadBase (p : Nat) : Bool := s.bit (Reg.INT_DIG_STATUS p) 31
    let (s1, ended) := cores.foldl (fun (te : State × List Nat) p =>
      let (t, e) := te.1.coreWalk p budget
      (t, if e then te.2 ++ [p] else te.2)) (s, [])
    let s2 := s1.twinWalks hadBase ended
    (s2.grovesOf k).foldl (fun t g => t.groveWalk g budget) s2

/-! ### Configuration digests -/

/-- The RWL fields of rows of a table at a base address, in order: 4 bytes a register, bits that are not RWL zero. -/
def State.rwlBytes (s : State) (base : Nat) (rows : List RegDesc) : List Byte :=
  rows.flatMap fun d =>
    if d.rwl = 0 then []
    else (List.range d.count).flatMap fun i =>
      toBytes 4 (Nat.land (s.rd (base + d.off + d.stride * i)).toNat d.rwl)

/-- The RWL fields of entry `k` of the rows that hold one register per partition. -/
def State.partRwl (s : State) (base k : Nat) (rows : List RegDesc) : List Byte :=
  rows.flatMap fun d =>
    if d.rwl = 0 ∨ d.count ≠ 64 then []
    else toBytes 4 (Nat.land (s.rd (base + d.off + d.stride * k)).toNat d.rwl)

/-- A region with its fold, as it is fed (R352; the order of fold and bytes is that of R339). -/
def region (fold : Nat) (bs : List Byte) : List Byte := toBytes 8 fold ++ bs

/-- Bytes of a core's region `n` at offset `off`. -/
def coreRegion (n off : Nat) (bs : List Byte) : List Byte := region (n * 2 ^ 32 + off) bs

/-- Rescale Table entry `c` as R72 covers it: S only where ADAPT_EN = 0; HISTORY_VALID, STREAK, SATCNT and PEAK never. -/
def State.rescDigest (s : State) (p c : Nat) : List Byte :=
  let a := tableBase + 128 + 8 * c
  let w0 := s.word p a
  let w1 := s.word p (a + 4)
  let w0' := if tst w1 2 then setFld w0 16 6 0 else w0
  toBytes 4 w0'.toNat ++ toBytes 4 (setFld (setFld w1 3 1 0) 16 16 0).toNat

/-- INT_CFG_DIGEST of core `p` (R352): region number and offset before the bytes of each region. Every source entry and detour entry is
fed, in index order, those that are zero too. -/
def State.coreDigest (s : State) (p : Nat) : Nat :=
  let live (r : Nat) : List Byte := toBytes 4 (Store.get (fun _ => (0 : Word)) s.detLive r).toNat
  crc c64e (coreRegion 1 0 (s.rwlBytes (coreReg p 0) RegTab.core)
    ++ coreRegion 2 0 (s.bytes p tableBase 128 ++ (List.range 496).flatMap (s.rescDigest p))
    ++ coreRegion 3 0 (((List.range 1024).flatMap fun i => toBytes 8 (Store.get (fun _ => 0) s.srcLive (1024 * p + i)))
      ++ (List.range 4).flatMap fun d => live (Reg.FAB_DETOUR_RANGE p d) ++ live (Reg.FAB_DETOUR_WAY p d))
    ++ coreRegion 4 0 (s.bytes p handlerStore 0x2000 ++ s.bytes p handlerTable 256)
    ++ coreRegion 5 0xA00 (toBytes 4 (s.rd (Reg.INT_CORE_TWIN p)).toNat))

/-- ACTIVE cores of a grove in logical-id order. -/
def State.coresByLogical (s : State) (g : Nat) : List Nat :=
  (List.range s.fuses.active).filterMap fun i =>
    match s.physOf (s.fuses.active * g + i) with
    | some p => if s.role p = roleActive then some p else none
    | none => none

/-- INT_GRV_CFG_DIGEST of grove `g`, from the digests its cores show (R352). -/
def State.groveDigest (s : State) (g : Nat) : Nat :=
  let cans := (List.range 4096).flatMap fun c => toBytes 128 (canSetEjects (Store.get (fun _ => 0) s.canLive (4096 * g + c)) 0)
  let objs := (List.range 2048).flatMap fun o =>
    let x := s.obj g o
    toBytes 4 x.cfg.toNat ++ toBytes 4 x.target.toNat
  crc c64e (s.rwlBytes (groveReg g 0) RegTab.grove ++ s.rwlBytes (0xB010000 + 0x1000 * g) RegTab.plsg ++ cans ++ objs
    ++ (s.coresByLogical g).flatMap fun p => region (s.logicalOf p) (toBytes 8 (s.rd64 (Reg.INT_CFG_DIGEST_LO p))))

/-- Paths, pacers and destinations of partition `k` (DESIGN CHOICE: R352 says "the partition-level RWL fields of every block", and an entry
that is not enabled belongs to no partition): the `n` words of each enabled entry whose first word has `k` at bit `lo`, for first words at
offsets `first` to `last` of the block at `base`, `stride` apart. -/
def State.ownedEntries (s : State) (k base first last stride lo n : Nat) : List Byte :=
  (s.regs.filter fun e => decide (base + first ≤ e.1) && decide (e.1 < base + last) && (e.1 - base - first) % stride == 0 &&
    fld e.2 31 1 == 1 && fld e.2 lo 6 == k).flatMap fun e => (List.range n).flatMap fun i => toBytes 4 (s.rd (e.1 + 4 * i)).toNat

/-- Egress paths of every attachment, then pacers, egress paths and destinations of both event ports, of partition `k`. -/
def State.ownedPaths (s : State) (k : Nat) : List Byte :=
  ((List.range 8).flatMap fun a => s.ownedEntries k (attReg a 0x6000000) 0x60000 0x61000 0x10 24 3)
    ++ (List.range 2).flatMap fun e =>
      let b := 0x7000000 + 0x100000 * e
      s.ownedEntries k b 0x1000 0x1400 0x10 24 2 ++ s.ownedEntries k b 0x10000 0x11000 0x10 24 3
        ++ s.ownedEntries k b 0x20000 0x40000 0x20 0 8

/-- INT_PART_CFG_DIGEST of partition `k` (R352). -/
def State.partDigest (s : State) (k : Nat) : Nat :=
  crc c64e (s.partRwl 0x6000000 k RegTab.hif ++ s.partRwl 0x8000000 k RegTab.int ++ s.partRwl 0xB000000 k RegTab.pls ++ s.ownedPaths k
    ++ ((s.globalsOf k).flatMap fun c => s.rwlBytes (chKey c)
        [⟨0, 4, 1, 0, 0, 0x38000000, 0, 0, 0⟩, ⟨0x18, 4, 1, 0, 0, 0xC3FFFFFF, 0, 0, 0⟩])
    ++ toBytes 4 (s.rd (Reg.INT_PART_CFG_EPOCH k)).toNat
    ++ (s.grovesOf k).flatMap fun g => region g (toBytes 8 (s.rd64 (Reg.INT_GRV_CFG_DIGEST_LO g))))

/-- INT_DEV_CFG_DIGEST: the time-source registers, then the digests of the enabled partitions (R352). -/
def State.deviceDigest (s : State) : Nat :=
  let regs := [Reg.TB_SOURCE, Reg.TB_INT_DIV, Reg.TB_SUBST_DIV, Reg.TB_LOSS_CFG, Reg.TB_PTP_EPOCH_LO, Reg.TB_PTP_EPOCH_HI,
    Reg.TB_PTP_PERIOD] ++ (List.range 8).map Reg.TB_PIN_CFG
  crc c64e ((regs.flatMap fun r => toBytes 4 (s.rd r).toNat)
    ++ ((List.range 64).filter s.enabled).flatMap fun k => region k (toBytes 8 (s.rd64 (Reg.INT_PART_CFG_DIGEST_LO k))))

/-- The live digest of a partition compared with the expected one (R353): a mismatch is reported once for each distinct
live value. -/
def State.expectCheck (s : State) (k : Nat) : State :=
  let live := s.rd64 (Reg.INT_PART_CFG_DIGEST_LO k)
  let want := s.rd64 (Reg.INT_PART_CFG_EXPECT_LO k)
  if s.bit (Reg.INT_PART_CTRL k) 30 = false ∨ live = want then s
  else
    let s1 := s.wf' (Reg.INT_PART_STATUS k) 31 1 1
    if (s.part k).cfgTold.contains live then s1
    else (s1.updPart k fun q => { q with cfgTold := live :: q.cfgTold }).report fltCfgDigest
      { part := some k, detail := [live, want, (s.rd (Reg.INT_PART_CFG_EPOCH k)).toNat] }

/-- The digests of the ACTIVE cores of grove `g`, then the grove's own, shown (R352). -/
def State.digestGrove (s : State) (g : Nat) : State :=
  let s1 := (s.activeCores g).foldl (fun t p =>
    let t1 := t.wr64 (Reg.INT_CFG_DIGEST_LO p) (s.coreDigest p)
    t1.wf' (Reg.INT_DIG_STATUS p) 0 16 (t1.rf (Reg.INT_DIG_STATUS p) 0 16 + 1)) s
  s1.wr64 (Reg.INT_GRV_CFG_DIGEST_LO g) (s1.groveDigest g)

/-- CFG_DIGEST_PASS: a pass over partition `k` completes (R352, R353); the pass over a partition takes in the groves that belong to none
(DESIGN CHOICE: R352 recomputes every digest continuously, and the command names a partition). -/
def execCfgDigestPass (k : Nat) (s : State) : Host.Outcome State Fault Refusal :=
  if k < 64 ∧ s.bit (Reg.HIF_PART_OWNER k) 31 = true then
    let loose := (List.range 64).filter fun g => (s.partOf g).isNone
    let s2 := ((s.grovesOf k) ++ loose).foldl State.digestGrove s
    let s3 := s2.wr64 (Reg.INT_PART_CFG_DIGEST_LO k) (s2.partDigest k)
    let s4 := s3.wr64 Reg.INT_DEV_CFG_DIGEST_LO s3.deviceDigest
    .next (s4.expectCheck k)
  else .next s

end Sys2Proof.Machine
end

