-- ==== Sys2Proof/Machine/Areas.lean ====
section
/-! DEFINITION. What a partition holds in HBM: its regions (14_management_security.md R507, R529) and the areas that its
configuration names (04_synapses_dense.md R120, R130, R137; 08_step_commit.md R300; 09_plasticity.md R329). -/
namespace Sys2Proof.Machine

/-- An area of HBM: byte address and length. -/
abbrev Area := Nat × Nat

/-- Two areas share a byte. -/
def meets (a b : Area) : Bool := decide (0 < a.2) && decide (0 < b.2) && decide (a.1 < b.1 + b.2) && decide (b.1 < a.1 + a.2)

/-- HBM region `r` of partition `k`, in bytes (R529). -/
def State.hbmRegion (s : State) (k r : Nat) : Area :=
  (65536 * (s.rd (Reg.MGT_HBM_REGION_BASE (16 * k + r))).toNat, 65536 * (s.rd (Reg.MGT_HBM_REGION_SIZE (16 * k + r))).toNat)

/-- Regions of partition `k`. -/
def State.hbmRegions (s : State) (k : Nat) : List Area := ((List.range 16).map fun r => s.hbmRegion k r).filter fun a => a.2 != 0

/-- Every byte from `pos` to `stop` - 1 lies in some area of a list. -/
def covered (rs : List Area) : Nat → Nat → Nat → Bool
  | 0, pos, stop => decide (stop ≤ pos)
  | fuel + 1, pos, stop =>
    if stop ≤ pos then true
    else match rs.find? fun r => decide (r.1 ≤ pos) && decide (pos < r.1 + r.2) with
      | none => false
      | some r => covered rs fuel (r.1 + r.2) stop

/-- An area wholly within the HBM regions that partition `k` holds. -/
def State.inRegions (s : State) (k : Nat) (a : Area) : Bool := covered (s.hbmRegions k) 17 a.1 (a.1 + a.2)

/-- Stacks an area touches. -/
def stacksOf (a : Area) : List Nat :=
  (List.range 4).filter fun st => meets a (st * stackBytes, stackBytes)

/-- A stack that takes no access: not fitted, or FAILED (04_synapses_dense.md R134, R136, 15_startup_pins.md R541). -/
def State.stackAbsent (s : State) (st : Nat) : Bool := !(s.fuses.hasStack st) || s.stackState st == 3

/-- An area that lies in an absent stack (R9). -/
def State.absent (s : State) (a : Area) : Bool := (stacksOf a).any s.stackAbsent

/-- Extents of the GROVE windows of core `p`, with the window. -/
def State.groveExtents (s : State) (p : Nat) : List (Nat × Area) :=
  ((s.wins p).filter (·.grove)).map fun w => (w.idx, (32 * w.dir, 32 * w.ext))

/-- Dense streams of core `p`, with the operation. -/
def State.denseStreams (s : State) (p : Nat) : List (Nat × Area) :=
  (((List.range 4).map fun o => (o, s.opCfg p o)).filter fun x => x.2.en && x.2.stream).map
    fun x => (x.1, (32 * x.2.w, x.2.weightBytes))

/-- Pinned ranges of grove `g`, with the range (R130). -/
def State.pinAreas (s : State) (g : Nat) : List (Nat × Area) :=
  ((List.range 8).filter fun r => s.bit (Reg.MEM_GC_PIN_SIZE g r) 31).map
    fun r => (r, (128 * s.rf (Reg.MEM_GC_PIN_BASE g r) 0 30, 128 * s.rf (Reg.MEM_GC_PIN_SIZE g r) 0 15))

/-- The pre-trace table of a plastic range (09_plasticity.md R305). -/
def Range.preArea (x : Range) : Area := (32 * x.pre, 4 * x.count * x.lanes)

/-- Log, mirror and request lists of a grove (09_plasticity.md R315, R331). -/
def State.plsGroveAreas (s : State) (g : Nat) : List Area :=
  [(32 * (s.rd (Reg.PLS_LOG_BASE g)).toNat, 65536 * 2 ^ s.log2Buckets g),
   (32 * (s.rd (Reg.PLS_MIRROR_BASE g)).toNat, 2 ^ 21),
   (32 * (s.rd (Reg.PLS_LIST_BASE g)).toNat, 32 * 2 ^ s.rf (Reg.PLS_LIST_CFG g) 0 5)]

/-- Plasticity regions of grove `g`, where its engine has an enabled range. -/
def State.plsAreas (s : State) (g : Nat) : List Area :=
  if s.plastic g then s.plsGroveAreas g ++ (s.ranges g).map Range.preArea else []

/-- The step-record ring of partition `k`, where REC_EN is 1 (08_step_commit.md R281, R300). -/
def State.ringArea (s : State) (k : Nat) : List Area :=
  if s.bit (Reg.STEP_POLICY k) 5 then [(32 * (s.rd (Reg.STEP_REC_BASE k)).toNat, 32 * 2 ^ s.rf (Reg.STEP_REC_SIZE k) 0 5)] else []

/-- GROVE window extents, dense streams and pinned ranges of partition `k`: what a step reads (R131). -/
def State.readAreas (s : State) (k : Nat) : List Area :=
  (s.coresOfPart k).flatMap (fun p => (s.groveExtents p ++ s.denseStreams p).map (·.2))
    ++ (s.grovesOf k).flatMap fun g => (s.pinAreas g).map (·.2)

/-- Everything partition `k` holds in HBM (13_memory_power.md R474, 15_startup_pins.md R541). -/
def State.heldAreas (s : State) (k : Nat) : List Area :=
  s.hbmRegions k ++ s.readAreas k ++ (s.grovesOf k).flatMap s.plsAreas ++ s.ringArea k

/-- Does partition `k` hold anything in stack `st`? -/
def State.holdsIn (s : State) (k st : Nat) : Bool := (s.heldAreas k).any fun a => (stacksOf a).contains st

end Sys2Proof.Machine
end

