-- ==== Sys2Proof/Machine/Endpoints.lean ====
section
/-! DEFINITION. The endpoints outside the grid: tap copies held, released or written early at an attachment
(11_host_interface.md R405 to R410) and at an event port (12_event_ports.md R440 to R443), and ingress that joins a
step (R272, R435 to R439). -/
namespace Sys2Proof.Machine

/-- Endpoint number of event port `e` among the endpoint counters (05_fabric.md R176). -/
def epPort (e : Nat) : Nat := 8 + e

/-- The step that traffic reaching an endpoint for partition `k` counts with: the open one, or the next. -/
def State.stepNow (s : State) (k : Nat) : Nat :=
  match (s.part k).openStep with
  | some n => n
  | none => ((s.rd (Reg.STEP_COMMITTED k)).toNat + 1) % 2 ^ 32

/-! ### Tap copies at an attachment -/

/-- Index, CFG key and key range of the enabled paths that a register block holds: `base` is the key of path 0. -/
def State.enabledPaths (s : State) (base : Nat) : List (Nat × Word) :=
  (s.regs.filter fun e => decide (base ≤ e.1) && decide (e.1 < base + 0x1000) && (e.1 - base) % 16 == 0 && tst e.2 31).map
    fun e => ((e.1 - base) / 16, e.2)

/-- Key of egress path 0 of attachment `a` (R407). -/
def hifPaths (a : Nat) : Nat := attReg a 0x6060000

/-- A key lies in the range of a path at key `b`. -/
def State.pathCovers (s : State) (b key : Nat) : Bool :=
  let base := s.rf (b + 4) 0 28
  decide (base ≤ key) && decide (key < base + s.rf (b + 8) 0 21)

/-- The EVENT path of attachment `a` that takes a copy (R407). -/
def State.hifPath (s : State) (a k key : Nat) : Option Nat :=
  ((s.enabledPaths (hifPaths a)).find? fun e =>
    !(tst e.2 30) && fld e.2 24 6 == k && s.pathCovers (hifPaths a + 16 * e.1) key).map (·.1)

/-- The first record of a list that a retraction names, taken out (R410). -/
def takeMatch (h : HeldRec) : List HeldRec → Option (HeldRec × List HeldRec)
  | [] => none
  | x :: xs =>
    if x.step = h.step ∧ x.part = h.part ∧ x.path = h.path ∧ x.key = h.key ∧ x.lane = h.lane ∧ x.value = h.value then some (x, xs)
    else match takeMatch h xs with | some (y, ys) => some (y, x :: ys) | none => none

/-- HIF_REL_STATUS.USED shown. -/
def State.relShow (s : State) (a : Nat) : State := s.wf' (Reg.HIF_REL_STATUS a) 0 17 (s.att a).held.length

/-- A TC0 record that leaves before the commit of its step (08_step_commit.md R290); one that replaces a retracted event waits for
the commit (R291). -/
def State.releasesEarly (s : State) (h : HeldRec) : Bool := s.bit (Reg.STEP_POLICY h.part) 4 && h.tc0 && !h.fix

/-- A record reaches the release buffer of attachment `a`: held, written early, or cancelled by a retraction
(R410, 08_step_commit.md R290, R291). -/
def State.hifRecord (s : State) (a : Nat) (h : HeldRec) (retract : Bool) : State :=
  let v := s.att a
  if retract then
    match takeMatch h v.held with
    | some (_, rest) => (s.updAtt a fun v => { v with held := rest }).relShow a
    | none =>
      match takeMatch h v.early with
      | some (x, rest) =>
        ((s.updAtt a fun v => { v with early := rest }).retractEarly a x).updPart h.part fun q => { q with earlyRetract := true }
      | none => s
  else if s.releasesEarly h then
    let (s1, ok) := s.ringSend a h.ring [eventUnit h true false]
    if ok then (s1.updAtt a fun v => { v with early := v.early ++ [h] }).count (Reg.STEP_EARLY h.part) 1 else s1
  else if relUnits ≤ v.held.length then (s.count (Reg.HIF_REL_DROP a) 1).ringDrop a h.ring true
  else (s.updAtt a fun v => { v with held := v.held ++ [h] }).relShow a

/-- The record that a tap copy makes. -/
def tapRec (step part path ring : Nat) (e : Ev) : HeldRec :=
  { step := step, part := part, path := path, ring := ring, key := e.key, value := e.value, lane := e.lane,
    tc0 := e.tclass == 0, spilled := e.spilled, fix := e.fix }

/-- The copy's grove counts its ejection (R406). -/
def State.tapEjected (s : State) (f : Flight) : State :=
  match f.tag, f.step with
  | .unit _ p, some par => s.ej (p / 144) par 1
  | _, _ => s

/-- TAP_COPY_ARRIVE: tap copy `i` reaches its attachment's host interface (R406, R407). -/
def execTapCopyArrive (i : Nat) (s : State) : Host.Outcome State Fault Refusal :=
  match s.takeUnit i 0xC0 0xC8 with
  | some (a, f, t) =>
    match f.body with
    | .event e =>
      let t1 := t.tapEjected f
      match t1.hifPath a f.part e.key with
      | none => .next (t1.count (Reg.HIF_EGRESS_MISS a) 1)
      | some path =>
        let ring := t1.rf (Reg.HIF_EP_CFG a path) 0 9
        if !(t1.ringRuns (ringBase a .egress ring)) then .next (t1.count (Reg.HIF_EGRESS_MISS a) 1)
        else .next (t1.hifRecord a (tapRec (t1.stepNow f.part) f.part path ring e) e.retract)
    | _ => .next s
  | none => .next s

/-! ### Tap copies at a port -/

/-- Key of egress path 0 of port `e` (R457). -/
def evpPaths (e : Nat) : Nat := 0x7000000 + 0x100000 * e + 0x10000

/-- The path of port `e` that takes a copy (R440). -/
def State.evpPathOf (s : State) (e k key : Nat) : Option Nat :=
  ((s.enabledPaths (evpPaths e)).find? fun x =>
    fld x.2 24 6 == k && s.pathCovers (evpPaths e + 16 * x.1) key).map (·.1)

/-- Records a port's release buffer holds (R441). -/
def relRecords : Nat := 32768

def fltEvpLink : Nat := 48
def fltPtpSync : Nat := 49
def fltCtxUe : Nat := 50
def fltEvpOverflow : Nat := 51
def fltStreamCheck : Nat := 52

/-- LOSS of a context raised, sticking at 0xFFFF (R430). -/
def State.ctxLoss (s : State) (c n : Nat) : State :=
  let w := s.context c
  s.setContext c (csetFld w 7 0 16 (min 0xFFFF (cfld w 7 0 16 + n)))

/-- Records of context `c` lost at port `e`: a LOSS frame is owed (R443). -/
def State.owesLoss (s : State) (e c n : Nat) : State :=
  (s.ctxLoss c n).updPort e fun v => { v with lossOwed := Store.set (fun _ => 0) v.lossOwed c (Store.get (fun _ => 0) v.lossOwed c + n) }

/-- A record that finds a port's release buffer full (R443). -/
def State.evpDrop (s : State) (e c : Nat) : State :=
  let told := Store.get (fun _ => false) (s.port e).lossTold c
  let s1 := ((s.count (Reg.EVP_REL_DROP e) 1).owesLoss e c 1).updPort e fun v =>
    { v with lossTold := Store.set (fun _ => false) v.lossTold c true }
  if told then s1 else s1.report fltEvpOverflow { detail := [e, 2] }

/-- A record reaches the release buffer of port `e` (R441, R442). -/
def State.evpRecord (s : State) (e : Nat) (h : HeldRec) (retract : Bool) : State :=
  let v := s.port e
  if retract then
    match takeMatch h v.held with
    | some (_, rest) => s.updPort e fun v => { v with held := rest }
    | none =>
      match takeMatch h v.early with
      | some (x, rest) =>
        ((s.updPort e fun v => { v with early := rest }).retractEarlyPort e x).updPart h.part fun q => { q with earlyRetract := true }
      | none => s
  else if s.releasesEarly h = true ∧ cfld (s.context h.ring) 0 26 1 = 1 then
    let s1 := (s.updPort e fun v => { v with
      early := v.early ++ [h],
      earlyWait := Store.set (fun _ => []) v.earlyWait h.ring (Store.get (fun _ => []) v.earlyWait h.ring ++ [h]) }).count
        (Reg.STEP_EARLY h.part) 1
    if s1.maxEvents e h.ring ≤ (Store.get (fun _ => []) (s1.port e).earlyWait h.ring).length then s1.flushEarly e h.ring else s1
  else if relRecords ≤ v.held.length then s.evpDrop e h.ring
  else s.updPort e fun v => { v with held := v.held ++ [h] }

/-- PORT_TAP_COPY: tap copy `i` reaches its event port (R440). -/
def execPortTapCopy (i : Nat) (s : State) : Host.Outcome State Fault Refusal :=
  match s.takeUnit i 0xD0 0xD2 with
  | some (e, f, t) =>
    match f.body with
    | .event ev =>
      let t1 := t.tapEjected f
      match t1.evpPathOf e f.part ev.key with
      | none => .next (t1.count (Reg.EVP_EGRESS_MISS e) 1)
      | some path =>
        .next (t1.evpRecord e (tapRec (t1.stepNow f.part) f.part path (t1.rf (evpPath e path 0) 0 20) ev) ev.retract)
    | _ => .next s
  | none => .next s

/-! ### Release at the commit of a step (R410, R441) -/

/-- Records of one step written to an egress ring, counted (R409, R411). -/
def State.writeAll (s : State) (a r : Nat) : List (List Nat) → State × Nat
  | [] => (s, 0)
  | u :: us =>
    let (s1, ok) := s.ringEmit a r u
    let (s2, n) := s1.writeAll a r us
    (s2, n + b2n ok)

/-- The VECTOR record of a path: the ACT output half of step `n` of its operation (R408). -/
def State.vectorRec (s : State) (a path n : Nat) : Option (List Nat) :=
  let key := s.rd (Reg.HIF_EP_KEY a path)
  match s.physOf (fld key 0 13) with
  | none => none
  | some p =>
    let op := s.opCfg p (fld key 16 2)
    some (vectorUnits n path (s.bytes p (op.outAt n) (op.m * op.n)))

/-- Egress rings that partition `k` has an enabled path to, lowest first, without repeats. -/
def State.ringsOf (s : State) (a k : Nat) : List Nat :=
  let used := ((s.enabledPaths (hifPaths a)).filter fun e => fld e.2 24 6 == k).map fun e => fld e.2 0 9
  (List.range 512).filter used.contains

/-- The release of step `n` of partition `k` at one egress ring: events, VECTOR records, COMMIT record (R410). -/
def State.releaseRing (s : State) (a k n r : Nat) (mine : List HeldRec) : State :=
  let evs := (mine.filter (·.ring == r)).map fun h => [eventUnit h false false]
  let vecs := ((s.enabledPaths (hifPaths a)).filter fun e => tst e.2 30 && fld e.2 24 6 == k && fld e.2 0 9 == r).filterMap
    fun e => s.vectorRec a e.1 n
  let b := ringBase a .egress r
  if !(s.ringRuns b) then s.count (Reg.HIF_EGRESS_MISS a) (evs.length + vecs.length)
  else
    let before := s.ringDev b
    let (s1, cnt) := s.writeAll a r (evs ++ vecs)
    let s2 := if s1.bit b 29 then (s1.ringEmit a r (commitUnits n k cnt (s1.rd64 (Reg.STEP_OPEN_PTB_LO k)))).1 else s1
    if s2.ringDev b = before then s2 else s2.shadow a .egress r

/-- The release of step `n` of partition `k` at attachment `a`. Early records of the step are final (R284). -/
def State.releaseAtt (s : State) (a k n : Nat) : State :=
  let mine := (s.att a).held.filter fun h => h.part == k
  let s1 := s.updAtt a fun v => { v with
    held := v.held.filter fun h => h.part != k, early := v.early.filter fun h => h.part != k }
  ((s1.ringsOf a k).foldl (fun t r => t.releaseRing a k n r mine) s1).relShow a

/-- Egress contexts of partition `k` at port `e`: enabled, in order of their numbers. -/
def State.egressCtx (s : State) (e k : Nat) : List Nat :=
  (s.ctx.filter fun c => cfld c.2 0 31 1 == 1 && cfld c.2 0 30 1 == 1 && cfld c.2 0 0 6 == k && cfld c.2 0 27 1 == e).map (·.1)

/-- The release of step `n` of partition `k` at port `e`: each context's held records in EVENTS frames, then its COMMIT
frame (R441). -/
def State.releasePort (s : State) (e k n : Nat) : State :=
  let mine := (s.port e).held.filter fun h => h.part == k
  let s0 := (s.egressCtx e k).foldl (fun t c => t.flushEarly e c) s
  let s1 := s0.updPort e fun v => { v with
    held := v.held.filter fun h => h.part != k, early := v.early.filter fun h => h.part != k }
  (s1.egressCtx e k).foldl (fun t c =>
    let stamp := t.frameStamp c k
    let t1 := (chunks (t.maxEvents e c) mine.length (mine.filter (·.ring == c))).foldl
      (fun u recs => u.sendFrame e c 0 n stamp false false recs) t
    if cfld (t1.context c) 0 24 1 = 1 then t1.sendFrame e c 1 n stamp false false [] else t1) s1

/-! ### Ingress (R272, R400, R435, R436, R439) -/

/-- The unit number of endpoint `ep` among the endpoint counters. -/
def epUnit (ep : Nat) : Nat := if ep < 8 then 0xC0 + ep else 0xD0 + (ep - 8)

/-- One spike event of an endpoint for a REMOTE canopy entry of grove `g`, over the overlay (05_fabric.md R159), counted in the
endpoint's XOUT (R176, R435). -/
def State.endpointInject (s : State) (ep k n g c : Nat) (e : InEv) : State :=
  let par := n % 4
  (s.setEpX ep k par (s.epX ep k par + 1)).inject
    { place := .unit (epUnit ep), tag := .canopy true g c, way := none, part := k, step := some par, src := unitSrc (epUnit ep),
      targets := [g],
      body := .event { key := e.key, parity := par, value := e.value, tclass := e.tclass, lane := e.lane,
                       retract := false, spilled := false, handler := false } }

/-- The value of a stamp's event: PTB ticks since the open of its step, held in 0 to 255 (R439). -/
def stampValue (p opened : Nat) : Nat := (clamp (sx 64 (p + 2 ^ 64 - opened)) 0 255).toNat

/-- A frame, INGEST or stamp injected into the open step `n` of its partition, in event order (R436). -/
def State.injectIn (s : State) (e n : Nat) (h : HeldIn) : State :=
  let w := s.context h.ctx
  let k := cfld w 0 0 6
  let ep := match h.host with | some a => a | none => epPort e
  h.evs.foldl (fun t ev =>
    let ev1 := match h.stamp with
      | some p => { ev with value := stampValue p (t.rd64 (Reg.STEP_OPEN_PTB_LO k)) }
      | none => ev
    t.endpointInject ep k n (cfld w 0 6 6) (cfld w 2 20 12) ev1) s

/-- Events a port's hold buffer takes (R436). -/
def holdLen : Nat := 65536

/-- The step open to ingress of partition `k`: open and not closed (R273). -/
def State.ingressStep (s : State) (k : Nat) : Option Nat :=
  if (s.part k).closed then none else (s.part k).openStep

/-- Accepted events join the open step, or wait in the hold buffer of port `e` (R436). The answer says whether they
were taken. -/
def State.acceptIn (s : State) (e : Nat) (h : HeldIn) : State × Bool :=
  match s.ingressStep (cfld (s.context h.ctx) 0 0 6) with
  | some n => (s.injectIn e n h, true)
  | none =>
    let used := (((s.port e).holdBuf.map fun q => q.evs.length).foldl (· + ·) 0)
    if used + h.evs.length ≤ holdLen then (s.updPort e fun v => { v with holdBuf := v.holdBuf ++ [h] }, true)
    else
      let s1 := if h.host = none ∧ h.stamp = none then s.count (Reg.EVP_RX_HOLD_DROP e) 1 else s
      ((s1.ctxLoss h.ctx 1).report fltEvpOverflow { part := some (cfld (s.context h.ctx) 0 0 6), detail := [e, 1] }, false)

/-- What waits at port `e` for partition `k` is injected as step `n` opens, in acceptance order (R436). -/
def State.openIngress (s : State) (e k n : Nat) : State :=
  let mine (h : HeldIn) : Bool := cfld (s.context h.ctx) 0 0 6 == k
  let held := (s.port e).holdBuf
  (held.filter mine).foldl (fun t h => t.injectIn e n h) (s.updPort e fun v => { v with holdBuf := held.filter fun h => !(mine h) })

end Sys2Proof.Machine
end

