-- ==== Sys2Proof/Machine/Ports.lean ====
section
/-! DEFINITION. The Ethernet event ports: receiving a Lylet frame (12_event_ports.md R425 to R438), stamps (R439),
pacers (R444), transmission (R446, R447), IEEE 1588 (R449) and the link. -/
namespace Sys2Proof.Machine

/-! ### Reading a frame. Its bytes run from the destination MAC to the byte before the FCS. -/

/-- `n` bytes at `off`, most significant first. -/
def be (bs : List Byte) (off n : Nat) : Nat := ofBe ((bs.drop off).take n)

/-- Frame size from destination MAC to FCS (R422). -/
def frameSize (bs : List Byte) : Nat := bs.length + 4

/-- Ones'-complement sum of 16-bit words in network order, an odd last byte padded with zero. -/
def onesSum : List Byte → Nat
  | [] => 0
  | [a] => a.toNat * 256
  | a :: b :: t =>
    let x := a.toNat * 256 + b.toNat + onesSum t
    x % 65536 + x / 65536

/-- The sum of bytes that carry their own checksum is all ones. -/
def sumOk (bs : List Byte) : Bool := onesSum bs == 0xFFFF

/-- Multicast MAC addresses of IEEE 1588 (PRESUMED: the standard's; R449 names no numbers). -/
def ptpMacs : List Nat := [0x011B19000000, 0x0180C200000E, 0x01005E000181, 0x01005E00006B, 0x333300000181, 0x33330000006B]
/-- Multicast IPv4 addresses of IEEE 1588 (PRESUMED). -/
def ptpIp4 : List Nat := [0xE0000181, 0xE000006B]
/-- Multicast IPv6 addresses of IEEE 1588, FF0X::181 and FF02::6B (PRESUMED). -/
def ptpIp6 (a : Nat) : Bool :=
  (a / 2 ^ 120 == 0xFF && a / 2 ^ 116 % 16 == 0 && a % 2 ^ 112 == 0x181) || a == 0xFF02 * 2 ^ 112 + 0x6B

/-- EVP_MAC of port `e`. -/
def State.evpMac (s : State) (e : Nat) : Nat := s.rd64 (Reg.EVP_MAC_LO e) % 2 ^ 48
/-- EVP_IPV6 of port `e` as one number, byte 0 most significant (R455). -/
def State.evpIp6 (s : State) (e : Nat) : Nat :=
  (List.range 4).foldl (fun acc j => acc * 2 ^ 32 + (s.rd (Reg.EVP_IPV6 e j)).toNat) 0

/-- Bytes of the Ethernet header: 18 with a tag (R422). -/
def ethLen (bs : List Byte) : Nat := if be bs 12 2 = 0x8100 then 18 else 14
/-- EtherType after the tag. -/
def etherType (bs : List Byte) : Nat := be bs (ethLen bs - 2) 2

/-- Check 2 of R429: destination MAC, tag and EtherType. -/
def State.evpMine (s : State) (e : Nat) (bs : List Byte) : Bool :=
  let mac := be bs 0 6
  let cfg := s.rd (Reg.EVP_PORT_CFG e)
  let tagged := ethLen bs == 18
  (mac == s.evpMac e || ptpMacs.contains mac) &&
    (if tst cfg 30 then tagged && be bs 14 2 % 4096 == fld cfg 16 12 else !tagged) &&
    (etherType bs == 0x0800 || etherType bs == 0x86DD || etherType bs == 0x88F7)

/-- The UDP datagram of an IP packet and whether it came over IPv6, after check 3 of R429. An IEEE 1588 multicast address
is taken for ports 319 and 320 (DEDUCED from R449). -/
def State.evpUdp (s : State) (e : Nat) (bs : List Byte) : Option (List Byte × Bool × Bool) :=
  let ip := bs.drop (ethLen bs)
  if etherType bs = 0x0800 then
    let len := be ip 2 2
    let udp := (ip.take len).drop 20
    let ptp := be udp 2 2 == 319 || be udp 2 2 == 320
    let dst := be ip 16 4
    let own := s.rd (Reg.EVP_IPV4 e)
    if be ip 0 1 = 0x45 ∧ be ip 6 2 % 2 ^ 14 = 0 ∧ be ip 9 1 = 17 ∧ sumOk (ip.take 20) = true ∧
        ((own ≠ 0 ∧ dst = own.toNat) ∨ (ptp = true ∧ ptpIp4.contains dst = true)) then
      some (udp, false, sumOk ((ip.drop 12).take 8 ++ [0, 17] ++ beBytes 2 (be udp 4 2) ++ udp.take (be udp 4 2)))
    else none
  else
    let udp := (ip.drop 40).take (be ip 4 2)
    let ptp := be udp 2 2 == 319 || be udp 2 2 == 320
    let dst := be ip 24 16
    if be ip 0 1 / 16 = 6 ∧ be ip 6 1 = 17 ∧ ((s.evpIp6 e ≠ 0 ∧ dst = s.evpIp6 e) ∨ (ptp = true ∧ ptpIp6 dst = true)) then
      some (udp, true, sumOk ((ip.drop 8).take 32 ++ beBytes 4 (be udp 4 2) ++ [0, 0, 0, 17] ++ udp.take (be udp 4 2)))
    else none

/-- Bytes of an event (R425). -/
def evLen (ext : Bool) : Nat := if ext then 8 else 4

/-- The parts of a Lylet payload (R426, R427). -/
structure Lylet where
  ext : Bool
  tc0 : Bool
  runchk : Bool
  count : Nat
  ctx : Nat
  seq : Nat
  stamp : Nat
  run : Nat
  events : List Byte
  deriving DecidableEq, Repr

/-- Check 6 of R429 on a UDP payload of UDP length `udpLen`: version, kind, lengths, zero fields. -/
def parseLylet (pay : List Byte) (udpLen : Nat) : Option Lylet :=
  let flags := be pay 1 1
  let ext := flags % 2 == 1
  let count := be pay 2 2
  let n := count * evLen ext
  let evs := (pay.drop 28).take n
  let runchk := flags / 16 % 2 == 1
  let evsOk := !ext || (List.range count).all fun i => be evs (8 * i) 8 % 2 ^ 29 == 0
  if be pay 0 1 = 0x10 ∧ flags / 4 % 4 = 0 ∧ flags / 32 = 0 ∧ count ≤ (if ext then 1024 else 2048) ∧
      udpLen = 8 + 28 + n + 4 ∧ 28 + n + 4 ≤ pay.length ∧ be pay 4 4 < 2 ^ 20 ∧ (runchk = true ∨ be pay 24 4 = 0) ∧ evsOk = true then
    some ⟨ext, flags / 2 % 2 == 1, runchk, count, be pay 4 4, be pay 8 4, be pay 12 8, be pay 24 4, evs⟩
  else none

/-- Check 7: the trailer of a payload (R428). -/
def lyletTrailerOk (pay : List Byte) (l : Lylet) : Bool :=
  let n := 28 + l.events.length
  ofBytes ((pay.drop n).take 4) == crcFold c32c (l.seq * 2 ^ 32 + l.ctx) (pay.take n)

/-! ### Acceptance into a context -/

/-- The context after R432, or none where the frame is stale: EXP_SEQ, LOSS and RESYNC. -/
def seqStep (w seq : Nat) : Option Nat :=
  let d := sx 32 (seq + 2 ^ 32 - cfld w 3 0 32)
  let next := csetFld w 3 0 32 (seq + 1)
  if cfld w 0 24 1 = 1 then some (csetFld next 0 24 1 0)
  else if d < 0 then none
  else some (csetFld next 7 0 16 (min 0xFFFF (cfld w 7 0 16 + d.toNat)))

/-- The working register of a context's stream check after the event bytes of a frame (R433). -/
def runAfter (w : Nat) (evs : List Byte) : Nat := cvuFeed c32c (cfld w 4 0 32) evs

/-- R434: is a frame with this STAMP late? -/
def isLate (w stamp ptb : Nat) : Bool :=
  let lim := cfld w 0 15 6
  let age := sx 64 (ptb + 2 ^ 64 - (stamp + cfld w 5 0 64) % 2 ^ 64)
  decide (lim < 63) && decide ((2 ^ lim : Nat) ≤ age)

/-- OFFSET, VALUE and LANE of event `i` of a frame (R427). -/
def eventOf (w : Nat) (ext : Bool) (evs : List Byte) (i : Nat) : Nat × Nat × Nat :=
  if ext then
    let x := be evs (8 * i) 8
    (x / 2 ^ 40, x / 2 ^ 32 % 256, x / 2 ^ 29 % 8)
  else
    let x := be evs (4 * i) 4
    (x / 256, x % 256, cfld w 0 21 3)

/-- The spike events of a frame whose offsets lie within the context (R435). -/
def eventsIn (w tclass : Nat) (raw : List (Nat × Nat × Nat)) : List InEv :=
  (raw.filter fun x => decide (x.1 ≤ cfld w 2 0 20)).map fun x =>
    { key := (cfld w 1 0 28 + x.1) % 2 ^ 28, value := x.2.1, lane := x.2.2, tclass := tclass }

/-- FLT_CTX_UE once for each poisoned context (R429). -/
def State.tellCtxUe (s : State) (c : Nat) : State :=
  if Store.get (fun _ => false) s.ctxTold c then s
  else ({ s with ctxTold := Store.set (fun _ => false) s.ctxTold c true }).report fltCtxUe { detail := [c] }

/-- A context reads with an uncorrectable error (R347). -/
def State.ctxBad (s : State) (c : Nat) : Bool := Store.get (fun _ => false) s.ctxPoison c

/-- Depth of a TC0 bucket, in twentieths of a byte (R438: 16 KiB). -/
def bucketDepth : Nat := 327680

/-- The TC0 tokens of an ingress frame: taken, or the frame is demoted and counted (R438). The answer is its class. -/
def State.takeIn (s : State) (e k size : Nat) : State × Nat :=
  let used := Store.get (fun _ => 0) (s.port e).inUsed k
  if used + 20 * size ≤ bucketDepth then
    (s.updPort e fun v => { v with inUsed := Store.set (fun _ => 0) v.inUsed k (used + 20 * size) }, 0)
  else (s.count (Reg.EVP_TC0_DEMOTED e) 1, 1)

/-- Accepted events join a step or wait (R436), where there are any. -/
def State.joinIn (s : State) (e : Nat) (h : HeldIn) : State := if h.evs.isEmpty then s else (s.acceptIn e h).1

/-- Checks 8 to 14 of R429 on a Lylet frame. -/
def State.lyletIn (s : State) (e size : Nat) (l : Lylet) : State :=
  let s := s.meetCtx l.ctx
  let w := s.context l.ctx
  let k := cfld w 0 0 6
  if s.ctxBad l.ctx then (s.count (Reg.EVP_RX_CTX_UE e) 1).tellCtxUe l.ctx
  else if ¬(cfld w 0 31 1 = 1 ∧ cfld w 0 30 1 = 0 ∧ cfld w 0 29 1 = 1 ∧ cfld w 0 27 1 = e ∧ cfld w 0 26 1 = b2n l.tc0) then
    s.count (Reg.EVP_RX_MISDIRECT e) 1
  else if s.pstate k ≠ psRunning then s.count (Reg.EVP_RX_NOT_RUNNING e) 1
  else
    match seqStep w l.seq with
    | none => s.count (Reg.EVP_RX_STALE e) 1
    | some w1 =>
      let run := runAfter w l.events
      if l.runchk = true ∧ cvuValue c32c run ≠ l.run then
        (s.count (Reg.EVP_RX_RUN_ERR e) 1).report fltStreamCheck { part := some k, detail := [l.ctx, l.seq] }
      else
        let late := isLate w l.stamp s.ptb
        let w2 := csetFld w1 4 0 32 run
        let w3 := if late then csetFld w2 7 16 16 (min 0xFFFF (cfld w2 7 16 16 + 1)) else w2
        let s1 := (s.setContext l.ctx w3).count (Reg.EVP_RX_FRAMES e) 1
        let (s2, cls) := if l.tc0 then s1.takeIn e k size else (s1, 1)
        if late = true ∧ cfld w 0 25 1 = 1 then s2
        else
          let raw := (List.range l.count).map (eventOf w l.ext l.events)
          let evs := eventsIn w cls raw
          (s2.count (Reg.EVP_RX_OFFSET_MISS e) (raw.length - evs.length)).joinIn e
            { ctx := l.ctx, host := none, stamp := none, evs := evs }

/-- A port's link is up. -/
def State.evpUp (s : State) (e : Nat) : Bool := s.bit (Reg.EVP_PORT_STATUS e) 31

/-- LYLET_FRAME_RECEIVE: port `e` receives a frame. The operands say whether its FCS holds, whether it found the receive
buffer full (R424), and the FEC codewords corrected and not correctable since the last frame. A frame for IEEE 1588 is
passed on: PTP_EVENT_MESSAGE is what it does. -/
def execLyletFrameReceive (e : Nat) (fcsOk full : Bool) (corr uncorr : Nat) (bs : List Byte) (s : State) :
    Host.Outcome State Fault Refusal :=
  if ¬(e < 2) ∨ s.evpUp e = false then .next s
  else
    let s0 := (s.count (Reg.EVP_FEC_CORR e) corr).count (Reg.EVP_FEC_UNCORR e) uncorr
    if full then .next ((s0.count (Reg.EVP_RX_OVF e) 1).report fltEvpOverflow { detail := [e, 0] })
    else if fcsOk = false then .next (s0.count (Reg.EVP_RX_FCS_ERR e) 1)
    else if frameSize bs < 64 ∨ s0.rf (Reg.EVP_PORT_CFG e) 0 14 < frameSize bs then .next s0
    else if s0.evpMine e bs = false then .next (s0.count (Reg.EVP_RX_NOT_MINE e) 1)
    else if etherType bs = 0x88F7 then .next s0
    else
      match s0.evpUdp e bs with
      | none => .next (s0.count (Reg.EVP_RX_IP_ERR e) 1)
      | some (udp, six, sum) =>
        if be udp 2 2 = 319 ∨ be udp 2 2 = 320 then .next s0
        else if be udp 2 2 ≠ s0.rf (Reg.EVP_UDP e) 0 16 then .next (s0.count (Reg.EVP_RX_NOT_MINE e) 1)
        else if (be udp 6 2 = 0 ∧ six = true) ∨ (be udp 6 2 ≠ 0 ∧ sum = false) then .next (s0.count (Reg.EVP_RX_IP_ERR e) 1)
        else
          let pay := udp.drop 8
          match parseLylet pay (be udp 4 2) with
          | none => .next (s0.count (Reg.EVP_RX_FORMAT_ERR e) 1)
          | some l =>
            if lyletTrailerOk pay l then .next (s0.lyletIn e (frameSize bs) l)
            else .next (s0.count (Reg.EVP_RX_CRC_ERR e) 1)

/-! ### Stamps (R242, R439) -/

def State.stampQ (s : State) (i : Nat) : List (Nat × Nat) := Store.get (fun _ => []) s.tb.stamps i

/-- The stamp queue of input `i` set, with TB_PIN_STATUS.QUEUED. -/
def State.setStampQ (s : State) (i : Nat) (q : List (Nat × Nat)) : State :=
  ({ s with tb := { s.tb with stamps := Store.set (fun _ => []) s.tb.stamps i q } }).wf' (Reg.TB_PIN_STATUS i) 0 5 q.length

/-- STAMP_DELIVER: the oldest stamp of input `i` is applied through its context, or dropped (R439). -/
def execStampDeliver (i : Nat) (s : State) : Host.Outcome State Fault Refusal :=
  match s.stampQ i with
  | [] => .next s
  | st :: rest =>
    let c := s.rf (Reg.TB_PIN_CFG i) 0 20
    let s := s.meetCtx c
    let s1 := s.setStampQ i rest
    let w := s.context c
    if s.ctxBad c then .next ((s1.count (Reg.TB_PIN_OVF i) 1).tellCtxUe c)
    else if cfld w 0 31 1 = 1 ∧ cfld w 0 30 1 = 0 ∧ s.pstate (cfld w 0 0 6) = psRunning ∧ i ≤ cfld w 2 0 20 then
      .next (s1.joinIn (cfld w 0 27 1)
        { ctx := c, host := none, stamp := some st.1,
          evs := [{ key := (cfld w 1 0 28 + i) % 2 ^ 28, value := 0, lane := cfld w 0 21 3, tclass := 1 - cfld w 0 26 1 }] })
    else .next (s1.count (Reg.TB_PIN_OVF i) 1)

/-! ### Pacers (R444) -/

/-- Channel number a pacer names: a global channel, or a channel of the core that carries a logical id. -/
def State.pacerChannel (s : State) (e j : Nat) : Option Nat :=
  let cfg := s.rd (Reg.EVP_PACER_CFG e j)
  if tst cfg 31 = false then none
  else if tst cfg 30 then (s.physOf (s.rf (Reg.EVP_PACER_CORE e j) 0 13)).map fun p => coreCh p (fld cfg 0 2)
  else some (fld cfg 0 10)

/-- Up to BURST frames move from the head of pacer `j`'s queue to the transmitter (R444). -/
def State.pacerRelease (s : State) (e j : Nat) : State :=
  let q := Store.get (fun _ => []) (s.port e).pacerQ j
  let n := s.rf (Reg.EVP_PACER_CFG e j) 16 8
  let s1 := s.updPort e fun v => { v with
    pacerQ := Store.set (fun _ => []) v.pacerQ j (q.drop n),
    tx0 := v.tx0 ++ (q.take n).filter (·.tc0), tx1 := v.tx1 ++ (q.take n).filter fun f => !f.tc0 }
  (s1.count (Reg.EVP_PACER_FIRES e j) 1).wf' (Reg.EVP_PACER_STATUS e j) 0 16 (q.drop n).length

/-- A PACING-class fire of channel `ch` reaches every pacer that names it and has its partition (R253, R444). -/
def State.pacerFire (s : State) (ch : Nat) : State :=
  let part := s.chPart ch
  (List.range 2).foldl (fun t e => (List.range 64).foldl (fun t j =>
    if t.pacerChannel e j = some ch ∧ part = some (t.rf (Reg.EVP_PACER_CFG e j) 24 6) then t.pacerRelease e j else t) t) s

/-! ### Transmission (R446, R447) -/

/-- The frame check sequence of Ethernet (PRESUMED: the CRC-32 of IEEE 802.3, sent low byte first; R429 names the FCS alone). -/
def ethCrc : CvuPar := ⟨32, 0x04C11DB7, 0xFFFFFFFF, true, true, 0xFFFFFFFF⟩

/-- A frame of destination MAC to payload padded to 64 bytes with its FCS, which is added (R446). -/
def sealFrame (bs : List Byte) : List Byte :=
  let padded := bs ++ List.replicate (60 - bs.length) 0
  padded ++ toBytes 4 (crc ethCrc padded)

/-- The ones'-complement checksum of bytes. -/
def netSum (bs : List Byte) : Nat := 0xFFFF - onesSum bs

/-- A UDP datagram with its checksum over the pseudo-header; a sum of zero is sent as all ones. -/
def udpDatagram (pseudo : List Byte) (src dst : Nat) (pay : List Byte) : List Byte :=
  let len := 8 + pay.length
  let head := beBytes 2 src ++ beBytes 2 dst ++ beBytes 2 len
  let sum := netSum (pseudo ++ head ++ [0, 0] ++ pay)
  head ++ beBytes 2 (if sum = 0 then 0xFFFF else sum) ++ pay

/-- An IPv4 packet without options that is no fragment (R422). TOS, identification, the don't-fragment bit and TTL are `x`'s bits: the
spec states none. -/
def ip4Packet (src dst : List Byte) (srcPort dstPort : Nat) (x : Nat) (pay : List Byte) : List Byte :=
  let udp := udpDatagram (src ++ dst ++ [0, 17] ++ beBytes 2 (8 + pay.length)) srcPort dstPort pay
  let front := [BitVec.ofNat 8 0x45, BitVec.ofNat 8 x] ++ beBytes 2 (20 + udp.length) ++ beBytes 2 (x / 2 ^ 8 % 2 ^ 16)
    ++ beBytes 2 (x / 2 ^ 24 % 2 * 2 ^ 14) ++ [BitVec.ofNat 8 (x / 2 ^ 25), 17]
  front ++ beBytes 2 (netSum (front ++ [0, 0] ++ src ++ dst)) ++ src ++ dst ++ udp

/-- An IPv6 packet without extension headers (R422). Traffic class, flow label and hop limit are `x`'s bits: the spec states none. -/
def ip6Packet (src dst : List Byte) (srcPort dstPort : Nat) (x : Nat) (pay : List Byte) : List Byte :=
  let udp := udpDatagram (src ++ dst ++ beBytes 4 (8 + pay.length) ++ [0, 0, 0, 17]) srcPort dstPort pay
  beBytes 4 (6 * 2 ^ 28 + x % 2 ^ 28) ++ beBytes 2 udp.length ++ [17, BitVec.ofNat 8 (x / 2 ^ 28)] ++ src ++ dst ++ udp

/-- Words of the destination of a context. -/
def State.destWords (s : State) (e c : Nat) : List Word :=
  (List.range 8).map fun i => s.rd (evpDest e (cfld (s.context c) 2 0 12) i)

/-- The frame of port `e` that carries a Lylet payload to a destination: its next-hop MAC, the port's own addresses, the tag as
configured, the destination's address and ports (R422, R455, R458). `x` fills the fields that the spec leaves open, the tag's priority
among them. -/
def State.ethFrame (s : State) (e : Nat) (dest : List Word) (x : Nat) (pay : List Byte) : List Byte :=
  let w (i : Nat) : Nat := (dest.getD i 0).toNat
  let cfg := s.rd (Reg.EVP_PORT_CFG e)
  let tag := if tst cfg 30 then beBytes 2 0x8100 ++ beBytes 2 (x / 2 ^ 36 % 16 * 2 ^ 12 + fld cfg 16 12) else []
  let six := w 0 / 2 ^ 30 % 2 == 1
  let srcPort := w 7 / 2 ^ 16
  let dstPort := w 2 / 2 ^ 16
  let packet := if six then
      ip6Packet ((List.range 4).flatMap fun j => beBytes 4 (s.rd (Reg.EVP_IPV6 e j)).toNat)
        ((List.range 4).flatMap fun j => beBytes 4 (w (3 + j))) srcPort dstPort x pay
    else ip4Packet (beBytes 4 (s.rd (Reg.EVP_IPV4 e)).toNat) (beBytes 4 (w 3)) srcPort dstPort x pay
  sealFrame (beBytes 2 (w 2 % 2 ^ 16) ++ beBytes 4 (w 1) ++ beBytes 6 (s.evpMac e) ++ tag
    ++ beBytes 2 (if six then 0x86DD else 0x0800) ++ packet)

/-- Bytes of an egress frame from destination MAC to FCS: Ethernet, tag, IP and UDP headers, payload, FCS; padded to 64. -/
def State.txSize (s : State) (e : Nat) (f : TxFrame) : Nat :=
  let six := s.bit (evpDest e (cfld (s.context f.ctx) 2 0 12) 0) 30
  max 64 (14 + (if s.bit (Reg.EVP_PORT_CFG e) 30 then 4 else 0) + (if six then 40 else 20) + 8 + f.bytes.length + 4)

/-- A frame leaves, or is dropped while the link is down (R447). -/
def State.transmit (s : State) (e : Nat) (f : TxFrame) : State :=
  if s.evpUp e then
    let (x, t) := s.freeNat
    let s1 := (t.emitOut (.frame e (s.ethFrame e (s.destWords e f.ctx) x f.bytes))).count (Reg.EVP_TX_FRAMES e) 1
    let s2 := if f.early = true ∧ f.retract = false then s1.count (Reg.EVP_TX_EARLY e) 1 else s1
    if f.retract then s2.count (Reg.EVP_TX_RETRACT e) 1 else s2
  else (s.count (Reg.EVP_TX_DROP e) 1).owesLoss e f.ctx f.records

/-- The frames below TC0: IEEE 1588 messages, stamped as they leave (R449), then TC1 frames. -/
def State.transmitLower (s : State) (e : Nat) : State :=
  match (s.port e).txPtp with
  | m :: ms =>
    let s1 := s.updPort e fun v => { v with txPtp := ms }
    if s.evpUp e then
      ((s1.updPort e fun v => { v with ptpStamp := s.rd64 (Reg.EVP_PTP_NS_LO e) }).emitOut (.ptp e (sealFrame m))).count (Reg.EVP_TX_FRAMES e) 1
    else s1.count (Reg.EVP_TX_DROP e) 1
  | [] =>
    match (s.port e).tx1 with
    | f :: fs => (s.updPort e fun v => { v with tx1 := fs }).transmit e f
    | [] => s

/-- FRAME_TRANSMIT: at a frame boundary port `e` sends the next frame by priority (R446). A TC0 frame that waits for
tokens lets the lower queues pass (DEDUCED). -/
def execFrameTransmit (e : Nat) (s : State) : Host.Outcome State Fault Refusal :=
  if ¬(e < 2) then .next s
  else
    let s0 := s.flushAllEarly e
    match (s0.port e).tx0 with
    | [] => .next (s0.transmitLower e)
    | f :: fs =>
      let used := Store.get (fun _ => 0) (s0.port e).outUsed f.part
      let need := 20 * s0.txSize e f
      if s0.evpUp e = false then .next ((s0.updPort e fun v => { v with tx0 := fs }).transmit e f)
      else if used + need ≤ bucketDepth then
        .next ((s0.updPort e fun v => { v with
          tx0 := fs, outUsed := Store.set (fun _ => 0) v.outUsed f.part (used + need) }).transmit e f)
      else
        let s1 := if f.shaped then s0
          else (s0.updPort e fun v => { v with tx0 := { f with shaped := true } :: fs }).count (Reg.EVP_TC0_SHAPED e) 1
        .next (s1.transmitLower e)

/-! ### The link -/

/-- Register block of the power domain of port `e` (13_memory_power.md R483). -/
def pwrEvp (e : Nat) : Nat := 0x9000040 + 0x10 * e

/-- Port `e` loses its link, which is reported (R447). -/
def State.evpLinkLoss (s : State) (e : Nat) : State :=
  if s.evpUp e then (s.wr (Reg.EVP_PORT_STATUS e) 0).report fltEvpLink { detail := [e] } else s

/-- EVP_LINK_DOWN: port `e` loses its link (R447). -/
def execEvpLinkDown (e : Nat) (s : State) : Host.Outcome State Fault Refusal :=
  if e < 2 then .next (s.evpLinkLoss e) else .next s

/-- EVP_LINK_UP: the link of an enabled, powered port comes up, with or without auto-negotiation (R422, R423). -/
def execEvpLinkUp (e : Nat) (an : Bool) (s : State) : Host.Outcome State Fault Refusal :=
  if e < 2 ∧ (e = 1 → s.fuses.eth2 = true) ∧ s.bit (Reg.EVP_PORT_CFG e) 31 = true ∧ s.pwr (pwrEvp e) = 0 ∧ s.up = true then
    .next (s.wr (Reg.EVP_PORT_STATUS e) (BitVec.ofNat 32 (2 ^ 31 + b2n an * 2 ^ 30 + 15)))
  else .next s

/-! ### IEEE 1588 (R449) -/

/-- SYNCED of port `e` set, each change reported (R454). -/
def State.setSynced (s : State) (e : Nat) (on : Bool) : State :=
  if s.bit (Reg.EVP_PTP_STATUS e) 31 = on then s
  else (s.wf' (Reg.EVP_PTP_STATUS e) 31 1 (b2n on)).report fltPtpSync { detail := [e, b2n (!on)] }

/-- PTP_EVENT_MESSAGE: port `e` receives an IEEE 1588 event message and stamps it. The servo's algorithm is not the
spec's; what it decides are operands: whether this message brings an adjustment, the offset measured, the step and the
rate given to the clock, whether it holds the clock synchronised, and a reply that it sends. -/
def execPtpEventMessage (e : Nat) (update synced : Bool) (offset step : Int) (rate : Word) (reply : List Byte) (s : State) :
    Host.Outcome State Fault Refusal :=
  if e < 2 ∧ s.evpUp e = true then
    let now := s.rd64 (Reg.EVP_PTP_NS_LO e)
    let s1 := s.updPort e fun v => { v with
      ptpStamp := now, txPtp := if reply.isEmpty then v.txPtp else v.txPtp ++ [reply] }
    if s.bit (Reg.EVP_PTP_STATUS e) 30 = false then .next s1
    else
      let s2 := if update then
          ((((s1.wr (Reg.EVP_PTP_OFFSET e) (BitVec.ofInt 32 offset)).wr64 (Reg.EVP_PTP_NS_LO e) (low 64 (now + step))).wr
            (Reg.EVP_PTP_AGE e) 0).count (Reg.EVP_PTP_UPDATES e) 1).updPort e fun v => { v with ptpRate := rate, ptpAgeNs := 0 }
        else s1
      .next (s2.setSynced e synced)
  else .next s

end Sys2Proof.Machine
end

