-- ==== Sys2Proof/Machine/Power.lean ====
section
/-! DEFINITION. The commands of the power domains and of the memory banks (13_memory_power.md R465 to R479). -/
namespace Sys2Proof.Machine

/-! ### Causes of a refusal (R482) -/

def pcNone : Nat := 0
def pcInService : Nat := 1
def pcRoute : Nat := 2
def pcInUse : Nat := 3
def pcNoRetention : Nat := 4
def pcOrder : Nat := 5
def pcDefect : Nat := 7
def pcReserved : Nat := 8

/-! ### What is in use (R38, R474) -/

/-- Does a route or canopy of partition `k` pass through router `r` (R38)? -/
def State.routeVia (s : State) (k r : Nat) : Bool :=
  let cores := s.coresOfPart k
  (s.grovesOf k).any (fun g => g == r / 144 && (s.vCanopies liveView g).any fun c => canMask c.2 (r % 144) != 0) ||
    cores.any fun p =>
      (legRoute p (144 * (p / 144) + 78)).contains r || (legRoute (144 * (p / 144) + 78) p).contains r ||
        (match s.mPort p with | some m => (legRoute p m).contains r || (s.vRoute liveView m p).contains r | none => false) ||
        cores.any fun d => (s.vRoute liveView p d).contains r

/-- Stops of the units that partition `k` exchanges packets with (05_fabric.md R159): its owner's PCIe port, the event
ports, the sequencers. -/
def State.unitStops (s : State) (k : Nat) : List Nat :=
  59 :: 3 :: 4 :: (match s.ownerOf k with | some a => [[0, 7, 56, 63].getD (a / 2) 0] | none => [])

/-- Does a route of partition `k` cross the express stop of grove `g`? -/
def State.stopVia (s : State) (k g : Nat) : Bool :=
  let ends := s.grovesOf k
  let hits (a b : Nat) : Bool := a == g || b == g || (overlayPath 16 a b).any fun q => q.1 == g
  ends.any fun a => ends.any (fun b => a != b && hits a b) || (s.unitStops k).any fun u => hits a u || hits u a

/-- Enabled partitions. -/
def State.enabledParts (s : State) : List Nat := (List.range 64).filter s.enabled

/-- An enabled context of an enabled partition names event port `e`. -/
def State.portUsed (s : State) (e : Nat) : Bool :=
  s.ctx.any fun c => cfld c.2 0 31 1 == 1 && cfld c.2 0 27 1 == e && s.enabled (cfld c.2 0 0 6)

/-- TB_SOURCE.SOURCE values (07_timebase.md R262). -/
def srcIsPhase (s : State) : Bool := let x := s.rf Reg.TB_SOURCE 29 3; x == 1 || x == 2 || x == 3

/-- The cause under which a RETENTION or OFF request of a domain is refused by R474, 0 for none. -/
def State.busyCause (s : State) : Dom → Nat
  | .logic p => if s.role p = roleActive ∧ s.groveEnabled (p / 144) = true then pcInService else pcNone
  | .mem p => if s.role p = roleActive ∧ s.groveEnabled (p / 144) = true then pcInService else pcNone
  | .router p =>
    if (s.forwardsOf p).isEmpty = false ∨ (s.enabledParts.any fun k => s.routeVia k p) = true then pcRoute else pcNone
  | .sync g =>
    if s.groveEnabled g then pcInService
    else if s.enabledParts.any fun k => s.stopVia k g then pcRoute else pcNone
  | .pls g => if s.groveEnabled g = true ∧ s.plastic g = true then pcInService else pcNone
  | .hbm st => if s.enabledParts.any fun k => s.holdsIn k st then pcInUse else pcNone
  | .evp e => if s.portUsed e = true ∨ (s.rf Reg.TB_SOURCE 29 3 = 4 ∧ s.rf Reg.TB_SOURCE 25 1 = e) then pcInUse else pcNone
  | .pcie n => if (List.range 64).any fun k => (s.owns (2 * n) k) || (s.owns (2 * n + 1) k) then pcInUse else pcNone
  | .phase => if srcIsPhase s = true ∨ ((List.range 8).any fun i => s.rf (Reg.TB_PIN_CFG i) 30 2 == 1) = true then pcInUse else pcNone

/-- Another ON or WAKING domain depends on this one (R473); a core memory whose core logic is ENTERING may enter. -/
def State.orderBad (s : State) (d : Dom) : Bool := d.neededBy.any fun x => s.pw x == pwOn || s.pw x == pwWaking

/-- The cause under which a request is refused, 0 for none (R473, R474). Of several, REQ = 3 comes first, then DEFECT,
NO_RETENTION, the uses of R474 and ORDER (DESIGN CHOICE). -/
def State.refusal (s : State) (d : Dom) (req : Nat) : Nat :=
  let defect := match d with | .logic p => s.role p == roleDefect | .mem p => s.role p == roleDefect | _ => false
  if req = 3 then pcReserved
  else if req = 0 then (if defect then pcDefect else pcNone)
  else if req = 1 ∧ d.retains = false then pcNoRetention
  else if s.busyCause d ≠ pcNone then s.busyCause d
  else if s.orderBad d then pcOrder
  else pcNone

/-- A request of a domain: refused with its cause, or taken (R474 to R477). -/
def State.powerReq (s : State) (d : Dom) (req : Nat) : State :=
  if s.fuses.hasDom d = false then s
  else
    let c := s.refusal d req
    if c ≠ pcNone then (s.wf' (d.base + 4) 28 1 1).wf' (d.base + 4) 24 4 c
    else if req = 0 then s.powerOn d
    else s.askDown d req

/-- An automatic transition that R474 may refuse, without a refusal shown (R475). -/
def State.autoOff (s : State) (d : Dom) : State :=
  if s.fuses.hasDom d = true ∧ s.refusal d 2 = pcNone then s.askDown d 2 else s

/-- POWER_REQUEST: attachment `a` writes `v` to PWR_CTRL at `addr`. Attachments write those of the cores and groves of
their partitions; the domains at the die edge are the management controller's alone (R483). -/
def execPowerRequest (a addr : Nat) (v : Word) (s : State) : Host.Outcome State Fault Refusal :=
  match Dom.ofAddr addr with
  | none => .next s
  | some d =>
    if addr = d.base ∧ addr < 0x4000000 then .next (s.guard a addr fun t => t.powerReq d (fld v 0 2)) else .next s

/-! ### Entry -/

/-- A held request applied once its domain has left transit (R476). -/
def State.applyHeld (s : State) (d : Dom) : State :=
  match s.heldReq d with
  | 0 => s
  | r + 1 => (s.holdReq d 0 false).powerReq d r

/-- Abort of a core memory that waits at A1 for its core logic: nothing is to be undone (R477). -/
def State.abortWaiting (s : State) (d : Dom) : State :=
  (((s.setPw d pwOn).setStage d none).holdReq d 0 false).count (d.base + 12) 1

/-- What loses its function with the end of a domain's entry: a stack in OFF, and the link of a port (R472). -/
def State.powered (s : State) (d : Dom) (target : Nat) : State :=
  match d with
  | .hbm st => if target = 2 then s.setStack st 0 else s
  | .evp e => s.evpLinkLoss e
  | .pcie n => (s.linkLoss (2 * n)).linkLoss (2 * n + 1)
  | .router p => if target = 2 then s.wf' (Reg.FAB_RTR_STATUS p) 0 3 rsOff else s
  | _ => s

/-- The memory of a core goes on into its own entry once the core logic's is complete, or finds ON pending at A1. -/
def State.releaseMem (s : State) (d : Dom) : State :=
  match d with
  | .logic p =>
    match s.pw (.mem p), s.stage (.mem p) with
    | 3, some (0, t) => if s.heldReq (.mem p) = 1 then s.abortWaiting (.mem p) else s.setStage (.mem p) (some (1, t))
    | _, _ => s
  | _ => s

/-- POWER_ENTRY_STAGE: the stage in progress ends. At an abort point a pending ON abandons the entry, else the next
stage begins; after stage 4 the domain is in its target state (R477). -/
def execPowerEntryStage (addr : Nat) (s : State) : Host.Outcome State Fault Refusal :=
  match Dom.ofAddr addr with
  | none => .next s
  | some d =>
    match s.pw d, s.stage d with
    | 3, some (n, t) =>
      if n = 0 then .next s
      else if n < 4 then
        if s.heldReq d = 1 then .next (((s.setPw d pwAborting).holdReq d 0 false).count (d.base + 12) 1)
        else .next (s.setStage d (some (n + 1, t)))
      else
        let target := t % 4
        let s1 := (s.setPw d target).setStage d (if target = 1 ∧ 4 ≤ t then some (0, 2) else none)
        .next (((s1.powered d target).releaseMem d).applyHeld d)
    | _, _ => .next s

/-- POWER_ABORT_DONE: the stages of an abandoned entry are undone and the domain is ON with its contents (R477). A core
memory that waited for its core logic's entry stays ON with it. -/
def execPowerAbortDone (addr : Nat) (s : State) : Host.Outcome State Fault Refusal :=
  match Dom.ofAddr addr with
  | none => .next s
  | some d =>
    if s.pw d = pwAborting then
      let s1 := (s.setPw d pwOn).setStage d none
      let s2 := match d with
        | .logic p => match s1.pw (.mem p), s1.stage (.mem p) with
          | 3, some (0, _) => s1.abortWaiting (.mem p)
          | _, _ => s1
        | _ => s1
      .next (s2.applyHeld d)
    else .next s

/-! ### Waking -/

/-- Registers of a block whose offsets satisfy `p`, back at their reset values. -/
def State.resetRegs (s : State) (p : Nat → Bool) : State := { s with regs := s.regs.filter fun e => !(p e.1), heldBits := s.heldBits.filter fun e => !(p e.1) }

/-- Key lies in a window of a core at offsets `lo` to `hi` - 1. -/
def inCore (p lo hi key : Nat) : Bool := decide (coreReg p lo ≤ key) && decide (key < coreReg p hi)
def inGrove (g lo hi key : Nat) : Bool := decide (groveReg g lo ≤ key) && decide (key < groveReg g hi)

/-- The clear of core memory (R468, R479): zero, no poison, every bank CORE's with TOKEN 0, the emit log and the queues
in it empty. -/
def State.clearCoreMem (s : State) (p : Nat) : State :=
  let s1 := (s.clearMem p).resetRegs (inCore p 0xF00 0x1000)
  s1.updCore p fun c => { c with log := [], queues := [], touched := [], scrubPtr := 0, handover := [] }

/-- The clear of core logic (R479). The record of its in-field tests stays with the physical core. -/
def State.clearCoreLogic (s : State) (p : Nat) : State :=
  (s.resetRegs (inCore p 0 0xC00)).updCore p fun c => { Core.init with
    testEnd := c.testEnd, testDue := c.testDue, touched := c.touched, scrubPtr := c.scrubPtr, handover := c.handover }

/-- Images of a canopy table changed where their grove is `g`. -/
def mapCanopies (g : Nat) (f : Nat → Nat) (m : Store Nat) : Store Nat :=
  m.filterMap fun e =>
    if e.1 / 4096 = g then (let v := f e.2; if v = 0 then none else some (e.1, v)) else some e

/-- MASK[k] of an image zero: the masks stand in the routers (05_fabric.md R171). -/
def dropMask (k img : Nat) : Nat := img - canMask img k * 2 ^ (128 + 6 * k)

/-- The clear of a router: registers, source table, detour entries, its canopy masks, buffers (R471, R479). -/
def State.clearRouter (s : State) (p : Nat) : State :=
  let s0 := s.resetRegs (inCore p 0xC00 0xE00)
  let s1 := { s0 with canLive := mapCanopies (p / 144) (dropMask (p % 144)) s0.canLive,
                      canStaged := mapCanopies (p / 144) (dropMask (p % 144)) s0.canStaged }
  let mine (k : Nat) : Bool := k / 1024 == p
  (linkedPorts p).foldl (fun t port => t.powerLink p port) { s1 with
    srcLive := Store.clearAll mine s1.srcLive, srcStaged := Store.clearAll mine s1.srcStaged,
    srcChanged := Store.clearAll mine s1.srcChanged, detLive := Store.clearAll (inCore p 0xC00 0xE00) s1.detLive,
    detChanged := Store.clearAll (inCore p 0xC00 0xE00) s1.detChanged, excluded := Store.clearAll (· == p) s1.excluded,
    refusals := Store.clearAll (· / 8 == p) s1.refusals, nacked := Store.clearAll (· / 8 == p) s1.nacked,
    abandons := Store.clearAll (· / 8 == p) s1.abandons, resync := Store.clearAll (· / 8 == p) s1.resync,
    forwards := Store.erase p s1.forwards, net := s1.net.filter fun f => f.place != .router p }

/-- The clear of a grove's sync/cache domain: cache, sync objects and waiters, parity counters, the registers of the units
in it, and the canopy headers, which stand at the stop (05_fabric.md R171, R479). SAPLINGS follows the roles. -/
def State.clearSync (s : State) (g : Nat) : State :=
  let s1 := s.resetRegs fun k => inGrove g 0xC0000 0xC4000 k || inGrove g 0xC5000 0x100000 k
  let head (img : Nat) : Nat := img / 2 ^ 128 * 2 ^ 128
  let s2 := { s1 with
    canLive := mapCanopies g head s1.canLive, canStaged := mapCanopies g head s1.canStaged,
    canChanged := Store.clearAll (fun k => k / 4096 == g) s1.canChanged }
  let s3 := (s2.updGrove g fun v => { v with
      rows := [], rowQ := [], cache := [], objs := [], waiters := [], notices := [], reports := [], asked := none,
      passed := false, held := false, finding := 0, hbmOut := [], replay := none, repair := [], refetched := [] }).noteSaplings g
  let n := stopNode g
  (linkedPorts n).foldl (fun t port => t.powerLink n port) { s3 with net := s3.net.filter fun f => f.place != .stop g }

/-- The clear of a plasticity engine (R479). -/
def State.clearPls (s : State) (g : Nat) : State :=
  let lo := 0xB010000 + 0x1000 * g
  (s.resetRegs fun k => decide (lo ≤ k) && decide (k < lo + 0x1000)).updGrove g fun v => { v with
    plsGrps := [], plsLen := 0, plsLost := false, plsFired := [], plsRunLen := 0, plsFill := [], plsPass := false, plsApply := false }

/-- The last-stamp registers of a pin cleared. -/
def State.clearPin (s : State) (i : Nat) : State :=
  ((s.wr64 (Reg.TB_PIN_PTB_LO i) 0).wr64 (Reg.TB_PIN_REF_LO i) 0).wf' (Reg.TB_PIN_STATUS i) 0 5 0

/-- The clear of the phase block: stamp queues and last-stamp registers (R479). -/
def State.clearPhase (s : State) : State :=
  ((List.range 8).foldl State.clearPin s).updTb fun v =>
    { v with stamps := [], mainsZero := none, mainsRun := [], mainsAligned := false, lineLast := none }

/-- Every location of a stack zero; every grove cache line of it invalidated (R131, R479). -/
def State.clearStack (s : State) (st : Nat) : State :=
  (s.hbmClear fun a => a / stackBytes == st).gcInvalidate (st * stackBytes) stackBytes

/-- The clear of a wake from OFF (R479). A port domain and a PCIe domain hold no memory that the spec clears. -/
def State.clearDom (s : State) : Dom → State
  | .logic p => s.clearCoreLogic p
  | .mem p => s.clearCoreMem p
  | .router p => s.clearRouter p
  | .sync g => s.clearSync g
  | .pls g => s.clearPls g
  | .hbm st => s.clearStack st
  | .phase => s.clearPhase
  | .evp _ => s
  | .pcie _ => s

/-- A domain reads ON, its wake counted; what it held is applied. -/
def State.wakeDone (s : State) (d : Dom) : State :=
  let s1 := if s.lost d then s.clearDom d else s
  let s2 := (((s1.setPw d pwOn).setStage d none).count (d.base + 8) 1)
  (match d with | .hbm st => s2.setStack st 2 | .mem p => s2.sendImage (p / 144) | _ => s2).applyHeld d

/-- POWER_WAKE_DONE: a domain finishes waking once everything it depends on is ON (R473, R479). A stack that wakes from
OFF finishes with its clear (HBM_CLEAR_DONE). -/
def execPowerWakeDone (addr : Nat) (s : State) : Host.Outcome State Fault Refusal :=
  match Dom.ofAddr addr with
  | none => .next s
  | some d =>
    let isStack := match d with | .hbm _ => s.lost d | _ => false
    if s.pw d = pwWaking ∧ (d.needs.all s.domOn) = true ∧ isStack = false then .next (s.wakeDone d) else .next s

/-! ### Handovers of memory banks (R465 to R469) -/

/-- A handover write by an attachment, by the rule of tokens and pairs (R466). -/
def State.bankWrite (s : State) (a p b : Nat) (v : Word) : State :=
  let r := Reg.MEM_BANK_OWNER p b
  let from_ := s.nextOwner p b
  let dest := fld v 30 2
  let pair := (from_ == ownCore && dest == ownLoader) || (from_ == ownLoader && dest == ownCore)
  if fld v 0 16 ≠ s.rf r 0 16 then s.bankResult p b 1
  else if pair = false ∨ s.ownsGrove a (p / 144) = false ∨ s.groveEnabled (p / 144) = true then s.bankResult p b 2
  else s.handBank p b dest

/-- BANK_HANDOVER: attachment `a` writes `v` to MEM_BANK_OWNER[b] of core `p` (R466). -/
def execBankHandover (a p b : Nat) (v : Word) (s : State) : Host.Outcome State Fault Refusal :=
  if p < 9216 ∧ b < 16 then .next (s.guard a (Reg.MEM_BANK_OWNER p b) fun t => t.bankWrite a p b v) else .next s

/-- BANK_HANDOVER_EFFECT: no access of the old owner is in flight any more (R467). -/
def execBankHandoverEffect (p b : Nat) (s : State) : Host.Outcome State Fault Refusal := .next (s.bankEffect p b)

/-- An access of an agent to `n` bytes at `off` that some bank's owner excludes is counted (R465): it reads zero and its
writes are ignored. -/
def State.denied (s : State) (p : Nat) : State := s.count (Reg.MEM_BANK_DENIED p) 1

end Sys2Proof.Machine
end

