-- ==== Sys2Proof/Machine/Desc.lean ====
section
/-! DEFINITION. The descriptors (11_host_interface.md R393 to R402): their checks in the order of R558, the loads and
reads that cross the fabric (R397), HBM, contexts, INGEST, messages and dense runs. -/
namespace Sys2Proof.Machine

/-! ### Statuses (R404) -/

def stOk : Nat := 0
def stCheckValue : Nat := 1
def stOpcode : Nat := 2
def stNotOwner : Nat := 3
def stUnitAbsent : Nat := 4
def stEnabled : Nat := 5
def stUnmapped : Nat := 6
def stLength : Nat := 7
def stRegion : Nat := 8
def stAddress : Nat := 9
def stHbmRegion : Nat := 10
def stHostWindow : Nat := 11
def stHostError : Nat := 12
def stMemUe : Nat := 13
def stRowInvalid : Nat := 14
def stDenseBusy : Nat := 16
def stDenseNotDesc : Nat := 17
def stMsgNak : Nat := 18
def stContext : Nat := 19
def stPayload : Nat := 20
def stStopped : Nat := 21

/-! ### What an opcode uses (R393, R394) -/

/-- What TARGET names. -/
inductive TgtKind where
  | none | core | grove | context
  deriving DecidableEq, Repr

/-- The fields of a descriptor that its opcode uses. -/
structure Shape where
  /-- FLAGS bits it admits, FENCE among them. -/
  flags : Nat
  target : TgtKind
  /-- SUB bits it uses. -/
  sub : Nat
  host : Bool
  dev : Bool
  len : Bool
  /-- Bytes of ARGS it uses. -/
  args : Nat
  deriving DecidableEq, Repr

/-- Entry size and number of entries of a table kind (R394). -/
def tableSize (kind : Nat) : Nat × Nat :=
  match kind with
  | 0 => (8, 16)
  | 1 => (8, 496)
  | 2 => (8, 1024)
  | 3 => (4, 64)
  | 4 => (4, 2048)
  | _ => (128, 4096)

def DescRun.kind (d : DescRun) : Nat := d.sub % 16
def DescRun.first (d : DescRun) : Nat := nfld d.sub 16 12
def DescRun.hbm (d : DescRun) : Bool := nfld d.flags 2 1 == 1
def DescRun.inline (d : DescRun) : Bool := nfld d.flags 3 1 == 1
def DescRun.ext (d : DescRun) : Bool := nfld d.flags 4 1 == 1
def DescRun.staged (d : DescRun) : Bool := nfld d.flags 1 1 == 1

/-- The table of R394. -/
def DescRun.shape (d : DescRun) : Shape :=
  match d.op with
  | 0x00 => ⟨1, .none, 0, false, false, false, 0⟩
  | 0x01 => ⟨1, .core, 0, true, true, true, 0⟩
  | 0x02 => ⟨1, .core, 0, true, true, true, 0⟩
  | 0x03 => ⟨1, .core, 0, true, true, true, 0⟩
  | 0x04 => ⟨1, .core, 0, true, true, true, 0⟩
  | 0x05 => ⟨1, if d.kind = 5 then .grove else .core, 0x0FFF000F, true, false, true, 0⟩
  | 0x06 => ⟨3, if d.kind = 5 then .grove else .core, 0x0FFF000F, true, false, true, 0⟩
  | 0x07 => ⟨5, if d.hbm then .none else .core, 0, true, true, true, 0⟩
  | 0x08 => ⟨1, .none, 0, true, true, true, 0⟩
  | 0x09 => ⟨1, .none, 0, true, true, true, 0⟩
  | 0x0A => ⟨1, .context, 0, true, false, true, 0⟩
  | 0x0B => ⟨1, .context, 0, true, false, true, 0⟩
  | 0x0C => ⟨25, .context, 0xFFFFFFFF, true, false, true, 4⟩
  | 0x0D => ⟨1, .core, 0x3F, false, false, false, 16⟩
  | _ => ⟨1, .core, 3, false, false, false, 0⟩

/-- Widths of TARGET (R393). -/
def TgtKind.limit : TgtKind → Nat
  | .none => 1
  | .core => 2 ^ 13
  | .grove => 2 ^ 6
  | .context => 2 ^ 20

/-- No reserved flag, kind or field is set, and fields the opcode does not use are zero (R393, R396). An inline INGEST
holds events in bytes 16 to 59 and no other field (R400). -/
def DescRun.fieldsOk (d : DescRun) : Bool :=
  let x := d.shape
  (d.flags &&& x.flags) == d.flags && decide (d.num 2 1 < 64) && decide (d.num 3 1 < 64) &&
    decide (d.target < x.target.limit) && (d.sub &&& x.sub) == d.sub &&
    (!(d.op == 5 || d.op == 6) || decide (d.kind < 6)) &&
    (if d.op = 0x0C ∧ d.inline = true then !d.ext || d.num 56 4 == 0
     else (x.host || d.host == 0) && (x.dev || d.dev == 0) && (x.len || d.len == 0) &&
       d.num (36 + x.args) (24 - x.args) == 0)

/-- Bytes of host memory that a descriptor reads or writes. -/
def DescRun.hostLen (d : DescRun) : Nat :=
  match d.op with
  | 0x00 => 0
  | 0x0C => if d.inline then 0 else d.len * (if d.ext then 8 else 4)
  | 0x0D => 0
  | 0x0E => 0
  | _ => d.len

/-- Does the opcode write host memory? -/
def DescRun.writesHost (d : DescRun) : Bool := [2, 4, 6, 9, 11].contains d.op

/-- LENGTH, counts and alignments within the opcode's range (R394, R400, R431; a count of 0 is out of range, DEDUCED). -/
def DescRun.lengthOk (d : DescRun) : Bool :=
  let tbl := tableSize d.kind
  match d.op with
  | 0x01 => decide (4 ≤ d.len) && decide (d.len ≤ 262144) && d.len % 4 == 0
  | 0x02 => decide (4 ≤ d.len) && decide (d.len ≤ 262144) && d.len % 4 == 0
  | 0x03 => decide (0 < d.len) && d.len % 8 == 0 && decide (d.dev + d.len / 8 ≤ 4096)
  | 0x04 => decide (0 < d.len) && d.len % 8 == 0 && decide (d.dev + d.len / 8 ≤ 4096)
  | 0x05 => decide (0 < d.len) && d.len % tbl.1 == 0 && decide (d.first + d.len / tbl.1 ≤ tbl.2)
  | 0x06 => decide (0 < d.len) && d.len % tbl.1 == 0 && decide (d.first + d.len / tbl.1 ≤ tbl.2)
  | 0x07 => decide (0 < d.len) && (d.hbm || d.dev % 16 == 0)
  | 0x08 => decide (0 < d.len) && d.len % 64 == 0 && d.dev % 64 == 0
  | 0x09 => decide (0 < d.len) && d.len % 64 == 0 && d.dev % 64 == 0
  | 0x0A => decide (0 < d.len) && d.len % 32 == 0 && decide (d.target + d.len / 32 ≤ 2 ^ 20)
  | 0x0B => decide (0 < d.len) && d.len % 32 == 0 && decide (d.target + d.len / 32 ≤ 2 ^ 20)
  | 0x0C => d.inline || decide (d.len ≤ if d.ext then 1024 else 2048)
  | _ => true

/-- The HBM range of a descriptor (R394). -/
def DescRun.area (d : DescRun) : Option Area :=
  match d.op with
  | 0x07 => if d.hbm then some (32 * d.dev, d.len) else none
  | 0x08 => some (d.dev, d.len)
  | 0x09 => some (d.dev, d.len)
  | _ => none

/-! ### The checks of R558 -/

/-- The first condition that holds, by its status. -/
def firstOf : List (Bool × Nat) → Option Nat
  | [] => none
  | (c, st) :: rest => if c then some st else firstOf rest

/-- The physical core that TARGET names, 9,216 and above for none (R396). -/
def State.descCore (s : State) (d : DescRun) : Nat :=
  match d.shape.target with
  | .core => (s.physOf d.target).getD 9216
  | _ => 9216

/-- Checks 2 to 10 of R558. -/
def State.descChecks (s : State) (a : Nat) (d : DescRun) : List (Bool × Nat) :=
  let k := d.part
  let x := d.shape
  let p := s.descCore d
  let outside := match x.target with
    | .core => !(s.holds k (p / 144))
    | .grove => !(s.holds k d.target)
    | _ => false
  let hbm := match d.area with
    | none => []
    | some ar =>
      let inside : Area := (ar.1, min (ar.1 + ar.2) hbmSpace - ar.1)
      [(s.absent inside, stUnitAbsent), (decide (hbmSpace < ar.1 + ar.2), stAddress), (!(s.inRegions k ar), stHbmRegion)]
  [(!d.fieldsOk, stOpcode), (!(s.owns a k), stNotOwner),
   (x.target == .core && (decide (s.fuses.active * 64 ≤ d.target) || (s.physOf d.target).isNone), stUnmapped),
   (outside, stNotOwner), (!d.lengthOk, stLength)]
    ++ hbm ++ [(!(s.hostOk a (if d.writesHost then permWrite else permRead) d.host d.hostLen), stHostWindow)]

/-! ### Starting a descriptor -/

/-- The descriptor of ring `r` of attachment `a` that may start, where it has opcode `op` and passes CHECK (R393, R395). -/
def State.opening (s : State) (a r op : Nat) : Option (LoadRef × DescRun) :=
  if a < 8 ∧ r < 64 then
    match s.nextDesc a r with
    | some d => if d.op = op ∧ d.checkOk = true ∧ s.ringRuns (ringBase a .completion d.cpl) = true then some (⟨a, r, d.index⟩, d) else none
    | none => none
  else none

/-- A descriptor refused, or ended in the command that starts it. -/
def State.endNow (s : State) (ref : LoadRef) (core status oparg : Nat) : State := (s.startDesc ref core).finish ref status oparg

/-- A descriptor command: the checks of R558, in order, then the conditions `own` of the opcode's rule, then `run`. Where
the ring's next descriptor is another one, what of the ring can go on goes on. -/
def State.descCmd (s : State) (a r op : Nat) (own : LoadRef → DescRun → List (Bool × Nat)) (run : LoadRef → DescRun → State) :
    State :=
  match s.opening a r op with
  | none => s.pump 64 a r
  | some (ref, d) =>
    match firstOf (s.descChecks a d ++ own ref d) with
    | some st => s.endNow ref 9216 st 0
    | none => run ref d

/-- A read of host memory failed: HIF_HOST_ERR, FLT_HOST_ERROR and ST_HOST_ERROR (R399). -/
def State.payloadError (s : State) (ref : LoadRef) (core n : Nat) (payload : List Byte) : State :=
  (s.hostErr ref.att 0 ref.ring (ecrcBytes n payload)).endNow ref core stHostError 0

/-- The command waits while the target's memory is not ON, and wakes it (13_memory_power.md R475). -/
def State.withMem (s : State) (p : Nat) (run : State → State) : State :=
  if s.memOn p then run s else s.powerOn (.mem p)

/-! ### Regions of local memory (R402) -/

/-- Bytes of the neuron area that the groups of core `p` need, capped at 96 KiB (03_neurons.md R82). -/
def State.neuronBytes (s : State) (p : Nat) : Nat :=
  min 98304 (((s.grps p).map fun g => g.lanes * g.n * laneBytes g.depth).foldl (· + ·) 0)

/-- The protected regions of core `p` (13_memory_power.md R460). -/
def State.protectedAreas (s : State) (p : Nat) : List Area :=
  [(0, 0x3000), (tableBase, 0x1000), (neuronBase, s.neuronBytes p), (handlerStore, 0x2000), (0x3A000, 0x2000), (logBase, 0x4000)]

/-- A range touches a protected byte outside every bank that LOADER owns (R402, 13_memory_power.md R470). -/
def State.touchesProtected (s : State) (p : Nat) (ar : Area) : Bool :=
  (banksOf ar.1 ar.2).any fun b =>
    !(s.bankFor p b ownLoader) &&
      (let lo := max ar.1 (0x4000 * b)
       let hi := min (ar.1 + ar.2) (0x4000 * (b + 1))
       (s.protectedAreas p).any fun q => meets q (lo, hi - lo))

/-- What LOAD_MEM may write while the partition is enabled: the handler data window and the ACT arrays of DESC and
HANDLER dense operations (R402). -/
def State.openAreas (s : State) (p : Nat) : List Area :=
  (s.rf (Reg.HDL_DATA_BASE p) 0 18, s.rf (Reg.HDL_DATA_SIZE p) 0 18) ::
    (((List.range 4).map fun o => s.opCfg p o).filter fun op => op.en && op.trigger != trgStep).flatMap fun op =>
      (if op.membrane then [] else [(op.inOff, op.m * op.k)]) ++ if op.events then [] else [(op.out, op.outBytes)]

/-- Extents of LOCAL windows of core `p` (04_synapses_dense.md R148). -/
def State.localExtents (s : State) (p : Nat) : List Area :=
  ((s.wins p).filter fun w => !w.grove).map fun w => (w.dir, w.ext)

/-! ### Rows (04_synapses_dense.md R121) -/

/-- Rows of a payload checked one after another, headers on multiples of `align`: the offset of the first that fails. -/
def badRow (fmt : Nat → FmtSlot) (align : Nat) : Nat → Nat → List Byte → Option Nat
  | 0, off, _ => some off
  | fuel + 1, off, bs =>
    if bs.isEmpty then none
    else if bs.length < 16 then some off
    else
      let h := rowHdrOf (bs.take 16)
      let f := fmt h.fslot
      let len := rowLen f h.nblk
      if 8 ≤ f.wfmt ∨ bs.length < len then some off
      else
        let body := (bs.drop 16).take (len - 16)
        let blocks := rowBlocks f h.nblk body
        let sum := blocks.foldl (fun acc b => acc + blockSum f b) 0
        let next := (len + align - 1) / align * align
        let pad := (bs.take next).drop len
        if low 32 sum = low 32 h.rowsum ∧ rowCrc (bs.take 16) body = h.crc ∧ pad.all (· == 0) = true then
          badRow fmt align fuel (off + next) (bs.drop next)
        else some off

/-- Format slots by which the device sizes the rows of a load to HBM: no core is named, and the spec does not say whose
slots count (R121, R394): free values. -/
def State.freeSlots (s : State) : (Nat → FmtSlot) × State :=
  (fun i => fmtSlotOf (Config.freeWord (s.free + 2 * (i % 16))) (Config.freeWord (s.free + 2 * (i % 16) + 1)),
   { s with free := s.free + 32 })

/-! ### Loads and reads over the fabric (R397) -/

/-- KIND of the packets of a descriptor: raw, neuron records, or a table kind plus 2. -/
def DescRun.pktKind (d : DescRun) : Nat :=
  match d.op with
  | 0x03 => 1
  | 0x04 => 1
  | 0x05 => d.kind + 2
  | 0x06 => d.kind + 2
  | _ => 0

/-- ADDR of the first packet of a descriptor: a local byte offset, a lane-neuron × 8, or a table entry × entry size. -/
def DescRun.addr0 (d : DescRun) : Nat :=
  match d.op with
  | 0x03 => 8 * d.dev
  | 0x04 => 8 * d.dev
  | 0x05 => d.first * (tableSize d.kind).1
  | 0x06 => d.first * (tableSize d.kind).1
  | _ => d.dev

/-- The core at which the packets of a descriptor aim; for a canopy table the first of the grove. -/
def State.pktCore (s : State) (d : DescRun) : Nat :=
  if d.shape.target = .grove then 144 * d.target else s.descCore d

/-- A packet of attachment `a`'s host interface for core `p`, over the overlay from its edge stop (05_fabric.md R159). -/
def State.fromHostMark (s : State) (a k p : Nat) (endpoint : Nat) (b : Body) (mark : Nat) : State :=
  s.fromEdge (0xC0 + a) k endpoint p b mark
def State.fromHost (s : State) (a k p : Nat) (endpoint : Nat) (b : Body) : State := s.fromHostMark a k p endpoint b 0

/-- LOAD_WRITE packets of at most 256 bytes, the last one marked. -/
def State.sendWrites (s : State) (ref : LoadRef) (k p kind addr : Nat) : Nat → List Byte → State
  | 0, _ => s
  | fuel + 1, bs =>
    let s1 := s.fromHost ref.att k p 2 (.loadWrite ref p kind addr (bs.take 256) (decide (bs.length ≤ 256)))
    if bs.length ≤ 256 then s1 else s1.sendWrites ref k p kind (addr + 256) fuel (bs.drop 256)

/-- LOAD_READ packets of at most 256 bytes. -/
def State.sendReads (s : State) (ref : LoadRef) (k p kind : Nat) (staged : Bool) (addr : Nat) : Nat → Nat → State
  | 0, _ => s
  | fuel + 1, len =>
    let s1 := s.fromHost ref.att k p 2 (.loadRead ref p kind staged addr (min 256 len))
    if len ≤ 256 then s1 else s1.sendReads ref k p kind staged (addr + 256) fuel (len - 256)

/-- A load starts: its packets leave for the target. -/
def State.startLoad (s : State) (ref : LoadRef) (d : DescRun) (payload : List Byte) : State :=
  let p := s.pktCore d
  let payload := s.hostGave ref.att d.len payload
  if payload.length ≠ d.len then s.payloadError ref (s.descCore d) d.len payload
  else (s.startDesc ref (s.descCore d)).sendWrites ref d.part p d.pktKind d.addr0 (d.len / 256 + 1) payload

/-- A read starts: `left` counts the bytes to come; a read of neuron records belongs to the committed step (R100). -/
def State.startRead (s : State) (ref : LoadRef) (d : DescRun) : State :=
  let s1 := (s.startDesc ref (s.descCore d)).updDesc ref fun v =>
    { v with left := d.len, step := (s.rd (Reg.STEP_COMMITTED d.part)).toNat }
  s1.sendReads ref d.part (s.pktCore d) d.pktKind d.staged d.addr0 (d.len / 256 + 1) d.len

/-! ### Commands: local memory, neurons and tables -/

/-- NOP: with FENCE, a barrier (R394). -/
def execNop (a r : Nat) (s : State) : Host.Outcome State Fault Refusal :=
  .next (s.descCmd a r 0x00 (fun _ _ => []) fun ref _ => s.endNow ref 9216 stOk 0)

/-- LOAD_MEM: host bytes to local memory, within R402. `payload` is what the host's memory holds; a payload of another
length than LENGTH is a failed read (R399). -/
def execLoadMem (a r : Nat) (payload : List Byte) (s : State) : Host.Outcome State Fault Refusal :=
  .next (s.descCmd a r 0x01
    (fun _ d =>
      let p := s.descCore d
      [(decide (0x40000 < d.dev + d.len) || s.touchesProtected p (d.dev, d.len), stRegion),
       (s.enabled d.part && !(covered (s.openAreas p) 9 d.dev (d.dev + d.len)), stEnabled)])
    fun ref d => s.withMem (s.descCore d) fun t => t.startLoad ref d payload)

/-- READ_MEM: local memory to host, at any time (R394). -/
def execReadMem (a r : Nat) (s : State) : Host.Outcome State Fault Refusal :=
  .next (s.descCmd a r 0x02 (fun _ d => [(decide (0x40000 < d.dev + d.len), stRegion)])
    fun ref d => s.withMem (s.descCore d) fun t => t.startRead ref d)

/-- LOAD_NEURONS: state records into both copies of each lane-neuron (R99). -/
def execLoadNeurons (a r : Nat) (payload : List Byte) (s : State) : Host.Outcome State Fault Refusal :=
  .next (s.descCmd a r 0x03 (fun _ d => [(s.enabled d.part, stEnabled)])
    fun ref d => s.withMem (s.descCore d) fun t => t.startLoad ref d payload)

/-- READ_NEURONS: the live copies, between two commits of the partition (R100). -/
def execReadNeurons (a r : Nat) (s : State) : Host.Outcome State Fault Refusal :=
  .next (s.descCmd a r 0x04 (fun _ _ => []) fun ref d => s.withMem (s.descCore d) fun t => t.startRead ref d)

/-- Table kinds held in the memory of a core, which the loader writes only while the partition is not enabled
(02_arithmetic.md R66, 06_core_messaging.md R224). -/
def memTable (kind : Nat) : Bool := kind == 0 || kind == 1 || kind == 3 || kind == 4

/-- LOAD_TABLE: source and canopy entries go to their staged copies (R183). Whether the partition is enabled is judged as the
descriptor starts: a load in flight when ENABLE is written still lands (DESIGN CHOICE: 02_arithmetic.md R66 and R403 do not say what
becomes of it). -/
def execLoadTable (a r : Nat) (payload : List Byte) (s : State) : Host.Outcome State Fault Refusal :=
  .next (s.descCmd a r 0x05 (fun _ d => [(memTable d.kind && s.enabled d.part, stEnabled)])
    fun ref d => if memTable d.kind then s.withMem (s.descCore d) fun t => t.startLoad ref d payload else s.startLoad ref d payload)

/-- READ_TABLE: STAGED selects the copy of a source or canopy entry (R394). -/
def execReadTable (a r : Nat) (s : State) : Host.Outcome State Fault Refusal :=
  .next (s.descCmd a r 0x06 (fun _ _ => [])
    fun ref d => if memTable d.kind then s.withMem (s.descCore d) fun t => t.startRead ref d else s.startRead ref d)

/-- May the loader reach `n` bytes at `off` of core `p` (13_memory_power.md R465)? Raw loads reach a bank of LOADER, other
kinds only banks of CORE. -/
def State.loaderMay (s : State) (p kind off n : Nat) : Bool :=
  (banksOf off n).all fun b => s.bankFor p b ownCore || (kind == 0 && s.bankFor p b ownLoader)

/-- A write of `n` bytes at `off` merges into a poisoned word (13_memory_power.md R464). -/
def State.mergesPoison (s : State) (p off n : Nat) : Bool :=
  (List.range n).any fun i =>
    let w := (off + i) / 8 * 8
    !(decide (off ≤ w) && decide (w + 8 ≤ off + n)) && s.poisoned p (off + i) 1

/-- The loader of a core writes bytes, where the bank's owner lets it; a merge into a poisoned word makes the descriptor
end with ST_MEM_UE (R347). -/
def State.loaderWrite (s : State) (ref : LoadRef) (p kind off : Nat) (bs : List Byte) : State :=
  if s.loaderMay p kind off bs.length then
    let s0 := if off % 8 = 0 ∧ bs.length % 8 = 0 then s else s.meet p off bs.length
    let s1 := if s0.mergesPoison p off bs.length then s0.updDesc ref fun d => { d with ue := true } else s0
    s1.setBytes p off bs
  else s.denied p

/-- A state record as a load writes it: OVERDRIVEN, FIRED and the reserved bits zero (03_neurons.md R84). -/
def recordLoad (x : Nat) : Nat := x % 2 ^ 57

/-- Records written into both copies of each lane-neuron that a group owns (R99); no memory holds the others. -/
def State.writeRecords (s : State) (ref : LoadRef) (p i : Nat) : Nat → List Byte → State
  | 0, _ => s
  | n + 1, bs =>
    let s1 := match s.grpOf p i with
      | some g =>
        let r := toBytes 8 (recordLoad (ofBytes (bs.take 8)))
        (s.loaderWrite ref p 1 (g.copyAt i 0) r).loaderWrite ref p 1 (g.copyAt i 1) r
      | none => s
    s1.writeRecords ref p (i + 1) n (bs.drop 8)

/-- RO fields of Rescale Table entries loaded as zero (02_arithmetic.md R64): word 1 keeps bits 15:4 and 2:0. -/
def rescLoad (bs : List Byte) : List Byte :=
  let fix (e : List Byte) : List Byte := toBytes 8 (ofBytes e &&& 0x0000FFF7FFFFFFFF)
  (List.range (bs.length / 8)).flatMap fun i => fix ((bs.drop (8 * i)).take 8)

/-- Entries of `size` bytes as numbers. -/
def entries (size : Nat) (bs : List Byte) : List Nat := (List.range (bs.length / size)).map fun i => ofBytes ((bs.drop (size * i)).take size)

/-- Source-table entries of core `p` staged from entry `i` on, CHANGED set (R183). -/
def State.stageSources (s : State) (p i : Nat) : List Nat → State
  | [] => s
  | e :: es => { s with srcStaged := Store.set (fun _ => 0) s.srcStaged (1024 * p + i) e
                        srcChanged := Store.set (fun _ => false) s.srcChanged (1024 * p + i) true }.stageSources p (i + 1) es

/-- Canopy entries of grove `g` staged from entry `i` on, EJECTS as zero (R171, R183). -/
def State.stageCanopies (s : State) (g i : Nat) : List Nat → State
  | [] => s
  | e :: es => { s with canStaged := Store.set (fun _ => 0) s.canStaged (4096 * g + i) (canSetEjects e 0)
                        canChanged := Store.set (fun _ => false) s.canChanged (4096 * g + i) true }.stageCanopies g (i + 1) es

/-- Place of byte `addr` of a table of KIND 2, 3, 5 or 6 in local memory. -/
def tableAt (kind addr : Nat) : Nat :=
  match kind with
  | 2 => tableBase + addr
  | 3 => tableBase + 128 + addr
  | 5 => handlerTable + addr
  | _ => handlerStore + addr

/-- What a LOAD_WRITE packet writes (R397). -/
def State.loadInto (s : State) (ref : LoadRef) (p kind addr : Nat) (bs : List Byte) : State :=
  match kind with
  | 0 => s.loaderWrite ref p 0 addr bs
  | 1 => s.writeRecords ref p (addr / 8) (bs.length / 8) bs
  | 3 => s.loaderWrite ref p 3 (tableAt 3 addr) (rescLoad bs)
  | 4 => s.stageSources p (addr / 8) (entries 8 bs)
  | 7 => s.stageCanopies (p / 144) (addr / 128) (entries 128 bs)
  | _ => s.loaderWrite ref p kind (tableAt kind addr) bs

/-- Bytes of local memory as the loader reads them, and whether a word was poisoned: zeros where a bank's owner excludes
it. -/
def State.loaderRead (s : State) (p kind off n : Nat) : State × List Byte × Bool :=
  if s.loaderMay p kind off n then
    let t := s.meet p off n
    (t, t.bytes p off n, t.poisoned p off n)
  else (s.denied p, List.replicate n 0, false)

/-- The live record of lane-neuron `i` (R100). A lane-neuron that no group owns has no record: its bytes are free. -/
def State.readRecord (s : State) (p i : Nat) : State × List Byte × Bool :=
  match s.grpOf p i with
  | some g => s.loaderRead p 1 (g.copyAt i ((s.core p).live (i / 64))) 8
  | none => (s.freeWord.2.freeWord.2, toBytes 4 s.freeWord.1.toNat ++ toBytes 4 s.freeWord.2.freeWord.1.toNat, false)

/-- Live records of `n` lane-neurons from `i` on. -/
def State.readRecords (s : State) (p i : Nat) : Nat → State × List Byte × Bool
  | 0 => (s, [], false)
  | n + 1 =>
    let (s1, b, ue) := s.readRecord p i
    let (s2, bs, ues) := s1.readRecords p (i + 1) n
    (s2, b ++ bs, ue || ues)

/-- What a LOAD_READ packet reads (R397). -/
def State.readFrom (s : State) (p kind : Nat) (staged : Bool) (addr n : Nat) : State × List Byte × Bool :=
  match kind with
  | 0 => s.loaderRead p 0 addr n
  | 1 => s.readRecords p (addr / 8) (n / 8)
  | 4 =>
    let m := if staged then s.srcStaged else s.srcLive
    (s, (List.range (n / 8)).flatMap fun i => toBytes 8 (Store.get (fun _ => 0) m (1024 * p + addr / 8 + i)), false)
  | 7 =>
    let m := if staged then s.canStaged else s.canLive
    (s, (List.range (n / 128)).flatMap fun i => toBytes 128 (Store.get (fun _ => 0) m (4096 * (p / 144) + addr / 128 + i)), false)
  | _ => s.loaderRead p kind (tableAt kind addr) n

/-- Packet `i` at the loader it is for: that of a core, or of a grove's stop for source and canopy tables (R397). -/
def State.takeLoad (s : State) (i : Nat) : Option (Flight × State) :=
  match s.take i with
  | some (f, t) => match f.place with
    | .core _ => some (f, t)
    | .stop _ => some (f, t)
    | _ => none
  | none => none

/-- Does a packet for core `p` stand at its loader? -/
def atLoader (f : Flight) (p kind : Nat) : Bool := match f.place with
  | .core _ => decide (kind < 2)
  | .stop g => decide (2 ≤ kind) && p / 144 == g
  | _ => false

/-- A READ_RETURN on its way to the attachment that asked (R397). -/
def State.answerLoad (s : State) (f : Flight) (b : Body) : State :=
  match b with
  | .readReturn ref .. =>
    let h : Flight := { place := f.place, tag := .unit (0xC0 + ref.att) 0, way := none, part := f.part, step := none, body := b }
    (match f.place with
    | .core p => s.inject { h with place := .router p, src := p }
    | .stop g => s.inject { h with inPort := 6, src := 0x5000 + g }
    | _ => s)
  | _ => s

/-- LOAD_WRITE: packet `i` is applied by its loader, which answers the last one of a request (R397). -/
def execLoadWrite (i : Nat) (s : State) : Host.Outcome State Fault Refusal :=
  match s.takeLoad i with
  | none => .next s
  | some (f, t) =>
    match f.body with
    | .loadWrite ref p kind addr bs last =>
      if atLoader f p kind = false then .next s
      else
        let t1 := (if kind < 2 then t.wake p else t).loadInto ref p kind addr bs
        .next (if last then t1.answerLoad f (.readReturn ref addr [0, 0, 0, 0] false true) else t1)
    | _ => .next s

/-- LOAD_READ: packet `i` is answered by its loader (R397). -/
def execLoadRead (i : Nat) (s : State) : Host.Outcome State Fault Refusal :=
  match s.takeLoad i with
  | none => .next s
  | some (f, t) =>
    match f.body with
    | .loadRead ref p kind staged addr n =>
      if atLoader f p kind = false then .next s
      else
        let (t1, bs, ue) := (if kind < 2 then t.wake p else t).readFrom p kind staged addr n
        .next (t1.answerLoad f (.readReturn ref addr bs ue false))
    | _ => .next s

/-- The fan-out of a rooted canopy entry of grove `g` (05_fabric.md R174). -/
def State.fanOut (s : State) (g c : Nat) : Nat :=
  let img := s.canopy g c
  canEjects img + ((canTargets img).map fun h => canEjects (s.canopy h (canRemote img))).foldl (· + ·) 0

/-- OPARG of a load or read that is over (R403). -/
def State.loadArg (s : State) (d : DescRun) (bs : List Byte) : Nat :=
  if d.op = 0x04 then d.step
  else if d.op = 0x06 ∧ d.kind = 5 ∧ d.len = 128 ∧ canRooted (ofBytes bs) = true then s.fanOut d.target d.first
  else d.len

/-- READ_RETURN: packet `i` reaches the attachment (R397): a load is over, or bytes go to the host's buffer. -/
def execReadReturn (i : Nat) (s : State) : Host.Outcome State Fault Refusal :=
  match s.takeUnit i 0xC0 0xC8 with
  | none => .next s
  | some (_, f, t) =>
    match f.body with
    | .readReturn ref addr bs ue write =>
      match t.desc ref with
      | none => .next t
      | some d =>
        if write then .next (t.finish ref (if ue || d.ue then stMemUe else stOk) (t.loadArg d []))
        else
          let t1 := t.toHost ref.att (d.host + (addr - d.addr0)) bs
          let t2 := t1.updDesc ref fun v => { v with left := d.left - bs.length, ue := d.ue || ue }
          .next (if d.left ≤ bs.length then t2.finish ref (if d.ue || ue then stMemUe else stOk) (t2.loadArg d bs) else t2)
    | _ => .next s

/-! ### Rows and HBM -/

/-- Every stack of a range is READY; the command waits otherwise. -/
def State.stacksReady (s : State) (ar : Area) : Bool := (stacksOf ar).all fun st => s.stackState st == 2

/-- Ranges that a write to HBM may not meet: what a step of an enabled partition reads, and its plasticity regions (R131,
09_plasticity.md R327). -/
def State.hbmLocked (s : State) (ar : Area) : Bool :=
  ((List.range 64).filter fun q => s.enabled q).any fun q =>
    (s.readAreas q ++ (s.grovesOf q).flatMap s.plsAreas).any (meets ar)

/-- LOAD_ROWS: rows to local memory or HBM, every row checked before anything is written (R121, R398). -/
def execLoadRows (a r : Nat) (payload : List Byte) (s : State) : Host.Outcome State Fault Refusal :=
  .next (s.descCmd a r 0x07
    (fun _ d =>
      if d.hbm then [(s.hbmLocked (32 * d.dev, d.len), stEnabled)]
      else
        let p := s.descCore d
        [(decide (0x40000 < d.dev + d.len) || s.touchesProtected p (d.dev, d.len), stRegion),
         (s.enabled d.part && (s.localExtents p).any (meets (d.dev, d.len)), stEnabled)])
    fun ref d =>
      let payload := s.hostGave a d.len payload
      if payload.length ≠ d.len then s.payloadError ref (s.descCore d) d.len payload
      else if d.hbm then
        if s.stacksReady (32 * d.dev, d.len) = false then s
        else
          let (fmt, t) := s.freeSlots
          match badRow fmt 32 (d.len / 16 + 1) 0 payload with
          | some off => t.endNow ref 9216 stRowInvalid off
          | none => (t.hbmWrite (32 * d.dev) payload).endNow ref 9216 stOk d.len
      else s.withMem (s.descCore d) fun t =>
        match badRow (t.fmtSlot (t.descCore d)) 16 (d.len / 16 + 1) 0 payload with
        | some off => t.endNow ref (t.descCore d) stRowInvalid off
        | none => t.startLoad ref d payload)

/-- WRITE_HBM: a raw write (R131, R327). -/
def execWriteHbm (a r : Nat) (payload : List Byte) (s : State) : Host.Outcome State Fault Refusal :=
  .next (s.descCmd a r 0x08 (fun _ d => [(s.hbmLocked (d.dev, d.len), stEnabled)])
    fun ref d =>
      let payload := s.hostGave a d.len payload
      if payload.length ≠ d.len then s.payloadError ref 9216 d.len payload
      else if s.stacksReady (d.dev, d.len) then (s.hbmWrite d.dev payload).endNow ref 9216 stOk d.len
      else s)

/-- READ_HBM: a raw read, served after an apply of the partition (R323). `status` is what the stack reports: 0 good, 1
corrected, 2 not correctable (R135, R399). -/
def execReadHbm (a r status : Nat) (s : State) : Host.Outcome State Fault Refusal :=
  .next (s.descCmd a r 0x09 (fun _ _ => [])
    fun ref d =>
      if s.stacksReady (d.dev, d.len) = false ∨ (s.part d.part).applying = 2 then s
      else
        let st := d.dev / stackBytes
        let s1 := s.hbmRead d.dev d.len
        match status with
        | 0 => (s1.toHost a d.host (s1.hbmBytes d.dev d.len)).endNow ref 9216 stOk d.len
        | 1 => ((s1.count (Reg.MEM_HBM_CE st) 1).toHost a d.host (s1.hbmBytes d.dev d.len)).endNow ref 9216 stOk d.len
        | _ => (s1.count (Reg.MEM_HBM_UE st) 1).endNow ref 9216 stMemUe 0)

/-! ### Stream contexts (12_event_ports.md R430, R431) -/

/-- EN = 1 and an OWNER other than the partition. -/
def ctxForeign (w k : Nat) : Bool := cfld w 0 31 1 == 1 && cfld w 0 0 6 != k

/-- Contexts that a descriptor names, as they stand. -/
def State.ctxNamed (s : State) (d : DescRun) : List Nat := (List.range (d.len / 32)).map fun i => s.context (d.target + i)

/-- Contexts written from `c` on. -/
def State.loadContexts (s : State) (c : Nat) : List Nat → State
  | [] => s
  | w :: ws => (s.setContext c w).loadContexts (c + 1) ws

/-- LOAD_CONTEXT (R431). -/
def execLoadContext (a r : Nat) (payload : List Byte) (s : State) : Host.Outcome State Fault Refusal :=
  let data := entries 32 payload
  .next (s.descCmd a r 0x0A
    (fun _ d =>
      [((s.ctxNamed d).any fun w => ctxForeign w d.part, stNotOwner), (data.any fun w => ctxForeign w d.part, stNotOwner),
       (s.enabled d.part, stEnabled),
       (!s.fuses.eth2 && ((s.ctxNamed d) ++ data).any (fun w => cfld w 0 27 1 == 1), stUnitAbsent)])
    fun ref d =>
      let payload := s.hostGave a d.len payload
      if payload.length ≠ d.len then s.payloadError ref 9216 d.len payload
      else (s.loadContexts d.target data).endNow ref 9216 stOk d.len)

/-- READ_CONTEXT: contexts of PART as they stand, zeros for the others (R431). -/
def execReadContext (a r : Nat) (s : State) : Host.Outcome State Fault Refusal :=
  .next (s.descCmd a r 0x0B (fun _ _ => [])
    fun ref d =>
      let s := (List.range (d.len / 32)).foldl (fun t i => t.meetCtx (d.target + i)) s
      let bs := (s.ctxNamed d).flatMap fun w => toBytes 32 (if cfld w 0 0 6 = d.part then w else 0)
      let bad := (List.range (d.len / 32)).any fun i => s.ctxBad (d.target + i)
      if bad then s.endNow ref 9216 stMemUe 0
      else (s.toHost a d.host bs).endNow ref 9216 stOk d.len)

/-! ### INGEST (R400) -/

/-- A field of an extended event that must be zero on ingress is not: bits 28:0 (R400, R427). -/
def ingestBad (ext : Bool) (evs : List Byte) : Bool :=
  ext && (List.range (evs.length / 8)).any fun i => be evs (8 * i) 8 % 2 ^ 29 != 0

/-- Events of an INGEST accepted into its context (R432, R433, R435 to R437): OPARG is how many became spike events. -/
def State.ingestIn (s : State) (a c seq : Nat) (ext : Bool) (evs : List Byte) : State × Nat :=
  let w := s.context c
  match seqStep w seq with
  | none => (s, 0)
  | some w1 =>
    let s1 := s.setContext c (csetFld w1 4 0 32 (runAfter w evs))
    let raw := (List.range (evs.length / evLen ext)).map (eventOf w ext evs)
    let ins := eventsIn w (1 - cfld w 0 26 1) raw
    if ins.isEmpty then (s1, 0)
    else
      let (s2, ok) := s1.acceptIn (cfld w 0 27 1) { ctx := c, host := some a, stamp := none, evs := ins }
      (s2, if ok then ins.length else 0)

/-- INGEST: events into a stream context (R400). -/
def execIngest (a r : Nat) (payload : List Byte) (s : State) : Host.Outcome State Fault Refusal :=
  let evs (d : DescRun) : List Byte :=
    if d.inline then (d.bytes.drop 16).take (if d.ext then 40 else 44) else s.hostGave a d.hostLen payload
  .next (s.descCmd a r 0x0C (fun _ _ => [])
    fun ref d =>
      let s := s.meetCtx d.target
      let w := s.context d.target
      let e := evs d
      if s.ctxBad d.target then (s.tellCtxUe d.target).endNow ref 9216 stMemUe 0
      else if ¬(cfld w 0 31 1 = 1 ∧ cfld w 0 30 1 = 0 ∧ cfld w 0 28 1 = 1 ∧ cfld w 0 0 6 = d.part) then s.endNow ref 9216 stContext 0
      else if d.inline = false ∧ e.length ≠ d.hostLen then s.payloadError ref 9216 d.hostLen payload
      else if d.inline = false ∧ d.num 36 4 ≠ crcFold c32c (d.target * 2 ^ 32 + d.sub) e then s.endNow ref 9216 stPayload 0
      else if ingestBad d.ext e then s.endNow ref 9216 stOpcode 0
      else if s.pstate d.part ≠ psRunning then s.endNow ref 9216 stStopped 0
      else
        let (t, n) := s.ingestIn a d.target d.sub d.ext e
        t.endNow ref 9216 stOk n)

/-! ### MESSAGE and DENSE_RUN (R401) -/

/-- MESSAGE: words to a queue of the target core, one message of the attachment at a time. -/
def execMessage (a r : Nat) (s : State) : Host.Outcome State Fault Refusal :=
  .next (s.descCmd a r 0x0D (fun _ d => [(s.pstate d.part != psRunning, stStopped)])
    fun ref d =>
      if (s.att a).msgWait.isSome then s
      else
        let p := s.descCore d
        let q := d.sub % 8
        let n := nfld d.sub 3 2 + 1
        let words : List Word := (List.range n).map fun i => BitVec.ofNat 32 (d.num (36 + 4 * i) 4)
        let body : Body := match words, nfld d.sub 5 1 with
          | [w], 0 => .msg 0 w (srcAtt a) q 0
          | ws, c => .amArgs (srcAtt a) q ws (if c = 1 then some (crc c16t (ws.flatMap fun w => toBytes 4 w.toNat)) else none)
        ((s.startDesc ref p).updAtt a fun v => { v with msgWait := some (ref, p, q), msgAt := s.ref }).fromHostMark a d.part p 1 body ref.mark)

/-- 100 µs, the time a MESSAGE waits for its response (R401). -/
def messageWait : Nat := 100000

/-- MESSAGE_TIMEOUT: no response to attachment `a`'s message within 100 µs (R401). -/
def execMessageTimeout (a : Nat) (s : State) : Host.Outcome State Fault Refusal :=
  match (s.att a).msgWait with
  | some (ref, _, _) =>
    if a < 8 ∧ (s.att a).msgAt + messageWait ≤ s.ref then
      .next ((s.updAtt a fun v => { v with msgWait := none }).finish ref stMsgNak rcTimeout)
    else .next s
  | none => .next s

/-- DENSE_RUN: a DESC operation of the target core starts (R140, R401). -/
def execDenseRun (a r : Nat) (s : State) : Host.Outcome State Fault Refusal :=
  .next (s.descCmd a r 0x0E
    (fun _ d =>
      let c := s.core (s.descCore d)
      let o := d.sub % 4
      let op := s.opCfg (s.descCore d) o
      [((match c.dns with | some x => x.op == o | none => false) || c.dnsQ.any (·.op == o), stDenseBusy),
       (!(op.en && op.trigger == trgDesc), stDenseNotDesc), (s.pstate d.part != psRunning, stStopped)])
    fun ref d =>
      let p := s.descCore d
      (((s.wake p).startDesc ref p).updCore p fun c => { c with dnsQ := c.dnsQ ++ [⟨d.sub % 4, 0, .desc ref, 0, false, 0, 0⟩] }).dnsNext p)

end Sys2Proof.Machine
end

