-- ==== Sys2Proof/Machine/Timebase.lean ====
section
/-! DEFINITION. The Phase Time Base, its sources and their loss, stamps, and the compare channels
(07_timebase.md R231 to R268). -/
namespace Sys2Proof.Machine

/-! ### Compare channels -/

def chIdle : Nat := 0
def chWait : Nat := 1
def chArmed : Nat := 2
def clsGeneral : Nat := 0
def clsStep : Nat := 1
def clsPacing : Nat := 2

def State.chCtrl (s : State) (ch : Nat) : Word := s.rd (chKey ch)
def State.chState (s : State) (ch : Nat) : Nat := s.rf (chKey ch + 4) 30 2
def State.chClass (s : State) (ch : Nat) : Nat := s.rf (chKey ch) 28 2
def State.chCompare (s : State) (ch : Nat) : Nat := s.rd64 (chKey ch + 8)
def State.chInterval (s : State) (ch : Nat) : Nat := (s.rd (chKey ch + 0x10)).toNat
/-- LMODE of a channel; only a PACING-class channel has a link (R256). -/
def State.chLmode (s : State) (ch : Nat) : Nat := if s.chClass ch = clsPacing then s.rf (chKey ch + 0x18) 30 2 else 0

/-- The physical core of a core channel. -/
def chCore (ch : Nat) : Nat := (ch - 1024) / 4

/-- Does the debugger hold what freezes the channel (R258)? -/
def State.chHalted (s : State) (ch : Nat) : Bool :=
  if ch < 1024 then match s.chPart ch with | some k => (s.part k).halted | none => false
  else (s.core (chCore ch)).halted

def State.chFrozen (s : State) (ch : Nat) : Bool := s.bit (chKey ch) 26 && s.chHalted ch

/-- FROZEN shown (R267). -/
def State.showFrozen (s : State) (ch : Nat) : State := s.wf' (chKey ch + 4) 29 1 (b2n (s.chFrozen ch))

/-- What COMPARE is matched against: the PTB, of which a core channel sees the spine's copy, or LCOUNT in CLOCK mode (R246, R248,
R256). -/
def State.chNow (s : State) (ch : Nat) : Nat :=
  if s.chLmode ch = 3 then s.rd64 (chKey ch + 0x20) else if ch < 1024 then s.ptb else s.corePtb

/-- The difference of R248. -/
def State.chDiff (s : State) (ch : Nat) : Int := sx 64 (s.chNow ch + 2 ^ 64 - s.chCompare ch)

/-- A channel is evaluated and found due (R248, R249): owned, powered, armed, not frozen, its gate open. -/
def State.chReady (s : State) (ch : Nat) : Bool :=
  (s.chPart ch).isSome && (decide (ch < 1024) || s.logicOn (chCore ch)) && s.chState ch == chArmed && !(s.chFrozen ch)
    && (s.chLmode ch != 1 || s.bit (chKey ch + 4) 27) && decide (0 ≤ s.chDiff ch)

/-- The channel whose register at offset `r` has a key. -/
def chOfKey (key r : Nat) : Option Nat :=
  if 0x4010000 ≤ key ∧ key < 0x4020000 then
    if (key - 0x4010000) % 0x40 = r then some ((key - 0x4010000) / 0x40) else none
  else if key < 0x4000000 ∧ key % 0x100000 < 0x90000 then
    let o := key % 0x100000 % 0x1000
    if 0x900 ≤ o ∧ o < 0xA00 ∧ o % 0x40 = r then
      some (coreCh (144 * (key / 0x100000) + key % 0x100000 / 0x1000) ((o - 0x900) / 0x40))
    else none
  else none

/-- Channels whose register at offset `r` does not hold 0, its reset value. -/
def State.chWhere (s : State) (r : Nat) : List Nat := s.regs.filterMap fun e => chOfKey e.1 r

/-- The PACING-class channels that name `ch` as their master (R257). -/
def State.slavesOf (s : State) (ch : Nat) : List Nat :=
  (s.chWhere 0x18).filter fun x =>
    s.chLmode x != 0 && x != ch && decide (x < 1024) == decide (ch < 1024) && s.chPart x == s.chPart ch &&
      (if ch < 1024 then s.rf (chKey x + 0x18) 16 10 == ch
       else chCore x == chCore ch && s.rf (chKey x + 0x18) 16 10 == (ch - 1024) % 4)

/-- A flag of TB_CH_STATUS set. -/
def State.chFlag (s : State) (ch i : Nat) : State := s.wf' (chKey ch + 4) i 1 1

/-- The channel's own registers at a fire with difference `d` (R250). -/
def State.fireRegs (s : State) (ch d : Nat) : State :=
  let b := chKey ch
  let s1 := ((s.count (b + 0x38) 1).wr64 (b + 0x30) s.ref).chFlag ch 0
  let s2 := if 0 < d then s1.chFlag ch 1 else s1
  if s.bit b 27 then s2.wf' (b + 4) 30 2 chIdle
  else
    let i := s.chInterval ch
    let j := d / i + 1
    let c := (s.chCompare ch + j * i) % 2 ^ 64
    let s3 := ((s2.wr64 (b + 8) c).wr64 (b + 0x28) ((c + 2 ^ 64 - i) % 2 ^ 64)).chFlag ch 28
    if 1 < j then (s3.chFlag ch 1).count (b + 0x14) (j - 1) else s3

/-- A core channel's notification (R253, R268). -/
def State.chNotify (s : State) (ch : Nat) : State :=
  let b := chKey ch + 0x1C
  let p := chCore ch
  if ch < 1024 ∨ s.bit b 31 = false then s
  else
    let (s1, code) := s.accept p (s.rf b 0 3) [s.rd (chKey ch + 0x3C)] srcUnit true
    if code = rcOk then s1 else s1.wf' b 8 16 (min 0xFFFF (s1.rf b 8 16 + 1))

/-- What a fire does by class (R253). -/
def State.fireClass (s : State) (ch : Nat) : State :=
  let s0 := if ch < 1024 then s else s.wake (chCore ch)
  let cls := s.chClass ch
  if cls = clsGeneral then s0.chNotify ch
  else if cls = clsPacing then (s0.chNotify ch).pacerFire ch
  else if cls = clsStep ∧ ch < 1024 then
    match s.chPart ch with
    | some k => s0.updPart k fun q => { q with fires := q.fires + 1 }
    | none => s0
  else s0

/-- What a master's fire, whose COMPARE was `m`, does to a slave (R256). -/
def State.slaveAct (s : State) (m x : Nat) : State :=
  match s.chLmode x with
  | 1 => s.chFlag x 27
  | 2 => if s.chState x = chArmed then s.wr64 (chKey x + 8) ((m + s.rf (chKey x + 0x18) 0 16) % 2 ^ 64) else s
  | 3 => s.count64 (chKey x + 0x20) 1
  | _ => s

/-- One fire of one channel: its registers, its class; its own gate closes (R250, R253, R256). -/
def State.fireOne (s : State) (ch : Nat) : State :=
  let s1 := (s.fireRegs ch (s.chDiff ch).toNat).fireClass ch
  if s.chLmode ch = 1 then s1.wf' (chKey ch + 4) 27 1 0 else s1

/-- A channel fires and acts on its slaves. A slave in GATE or CLOCK mode that this makes due fires in the same cycle; one in
RESET mode is next evaluated in the cycle after (R249, R256). -/
def State.chFire (s : State) (ch : Nat) : State :=
  let m := s.chCompare ch
  let xs := s.slavesOf ch
  let s1 := xs.foldl (fun t x => t.slaveAct m x) (s.fireOne ch)
  xs.foldl (fun t x => if t.chLmode x ≠ 2 ∧ t.chReady x = true then t.fireOne x else t) s1

def State.fireIfReady (s : State) (ch : Nat) : State := if s.chReady ch then s.chFire ch else s

/-- The channels of a list that are due fire, masters before slaves (R249, R256). -/
def State.fireAll (s : State) (chs : List Nat) : State :=
  let s1 := (chs.filter fun ch => s.chLmode ch == 0).foldl State.fireIfReady s
  (chs.filter fun ch => s.chLmode ch != 0).foldl State.fireIfReady s1

/-- Every channel that is due fires, the global ones or the core ones: none of them is left due when the count that it sees moves
(R249). -/
def State.fireDue (s : State) (core : Bool) : State := s.fireAll ((s.chWhere 4).filter fun ch => decide (ch < 1024) != core)

/-- The channel that `ch` names as its master (R257). -/
def State.masterOf (s : State) (ch : Nat) : Option Nat :=
  let m := s.rf (chKey ch + 0x18) 16 10
  let x := if ch < 1024 then m else coreCh (chCore ch) (m % 4)
  if (s.slavesOf x).contains ch then some x else none

/-- The evaluation of a channel, after its master's, in the cycle in which one of its registers is written: it uses the state before
the write (R249, R256). -/
def State.evalBefore (s : State) (ch : Nat) : State := s.fireAll ((s.masterOf ch).toList ++ [ch])

/-- CHANNEL_FIRE: channel `ch` is found due and fires (R250). -/
def execChannelFire (ch : Nat) (s : State) : Host.Outcome State Fault Refusal := .next (s.fireIfReady ch)

/-- TB_CH_CTRL written (R251, R252). -/
def State.ctrlWrite (s : State) (ch : Nat) (v : Word) (locked : Bool) : State :=
  let b := chKey ch
  let arm := tst v 31
  let dis := tst v 30
  let s0 := s.evalBefore ch
  let s1 := s0.maskWrite b v locked
  let staysArmed := s0.chState ch != chIdle && (arm || !dis)
  let s2 := if staysArmed && s0.bit b 27 && !(s1.bit b 27) && s1.chInterval ch == 0
    then (s1.wf' b 27 1 1).chFlag ch 26 else s1
  let s3 :=
    if arm && dis then s2.chFlag ch 26
    else if arm then
      if !(s2.bit b 27) && s2.chInterval ch == 0 then s2.chFlag ch 26
      else
        let t := s2.wf' (b + 4) 30 2 (if s2.chClass ch = clsStep then chWait else chArmed)
        ((t.wf' (b + 4) 28 1 0).wf' (b + 4) 27 1 0).wr64 (b + 0x20) 0
    else if dis then s2.wf' (b + 4) 30 2 chIdle
    else s2
  s3.showFrozen ch

/-- TB_CH_COMPARE completed by its HI half (R14, R249). -/
def State.compareWrite (s : State) (ch : Nat) (hi : Word) : State :=
  let lo := chKey ch + 8
  (((s.evalBefore ch).dropLo lo).wr lo (s.loHalf lo)).wr (lo + 4) hi

/-- TB_CH_INTERVAL written (R251). -/
def State.intervalWrite (s0 : State) (ch : Nat) (v : Word) : State :=
  let s := s0.evalBefore ch
  let b := chKey ch
  let live := s.chState ch != chIdle && !(s.bit b 27)
  if live && v == 0 then s.chFlag ch 26
  else
    let s1 := s.wr (b + 0x10) v
    if live && s.bit (b + 4) 28 then s1.wr64 (b + 8) ((s.rd64 (b + 0x28) + v.toNat) % 2 ^ 64) else s1

/-- TB_GROUP_START completed with `parts` by attachment `a` (R255). -/
def State.groupStart (s : State) (a parts : Nat) : State :=
  let ok (k : Nat) : Bool := parts / 2 ^ k % 2 == 1 && s.ownerOf k == some a && s.pstate k == psRunning
  let chs := (s.chWhere 4).filter fun ch =>
    decide (ch < 1024) && s.chState ch == chWait && s.chClass ch == clsStep &&
      (match s.chPart ch with | some k => ok k | none => false)
  chs.foldl (fun t ch => t.wf' (chKey ch + 4) 30 2 chArmed) s

/-! ### The PTB and its sources -/

def srcInt : Nat := 0
def srcEnc : Nat := 1
def srcLine : Nat := 2
def srcMains : Nat := 3
def srcPtp : Nat := 4
def tsRunning : Nat := 0
def tsAcquiring : Nat := 1
def tsLost : Nat := 2
def tsSubstituted : Nat := 3

/-- One tick of the PTB. What is due at the present value fires first; the new value goes out on the spine (R246). -/
def State.ptbTick (s : State) : State :=
  let s1 := (s.fireDue false).count64 Reg.TB_PTB_LO 1
  s1.updTb fun t => { t with spineQ := t.spineQ ++ [(s1.ref, s1.ptb)] }

/-- Nanoseconds that the spine takes to the cores: 12 cycles of 1.5 GHz (R246). -/
def spineDelay : Nat := 8

/-- The cores see each value that has come down the spine, in its turn, and what is due at the value before it fires first (R246,
R249). -/
def State.tickSpine (s : State) : State :=
  let due := s.tb.spineQ.takeWhile fun q => decide (q.1 + spineDelay ≤ s.ref)
  due.foldl (fun u q => (u.fireDue true).updTb fun t => { t with spine := q.2, spineQ := t.spineQ.drop 1 }) s

def State.source (s : State) : Nat := s.rf Reg.TB_SOURCE 29 3
def State.tbState (s : State) : Nat := s.rf Reg.TB_STATUS 0 3
def State.setTbState (s : State) (st : Nat) : State := s.wf' Reg.TB_STATUS 0 3 st
/-- The input that TB_SOURCE names. -/
def State.srcPin (s : State) : Nat := s.rf Reg.TB_SOURCE 16 3
/-- The phase-input block is present and ON. -/
def State.phaseOn (s : State) : Bool := s.fuses.phase && s.up && s.pwr 0x90000A0 == 0

def State.pinLevel (s : State) (i : Nat) : Bool := s.bit (Reg.TB_PIN_STATUS i) 30
/-- A filtered edge of input `i` seen. -/
def State.pinEdge (s : State) (i : Nat) (level : Bool) : State :=
  ((s.wf' (Reg.TB_PIN_STATUS i) 30 1 (b2n level)).count (Reg.TB_PIN_EDGES i) 1).updTb fun t =>
    { t with edgeAt := Store.insert i s.ref (Store.erase i t.edgeAt) }

/-- `n` edges of input `i` since the last one have each held for FILTER samples of 2 ns (R235): a shorter pulse gives no filtered edge,
and a command that names one changes nothing. -/
def State.filterOk (s : State) (i n : Nat) : Bool :=
  match s.tb.edgeAt.find? (·.1 == i) with
  | none => true
  | some e => decide (e.2 + 2 * n * s.rf (Reg.TB_PIN_CFG i) 20 8 ≤ s.ref)

/-- The source drives the PTB: it has not been substituted (R244). -/
def State.driven (s : State) : Bool := s.tbState != tsSubstituted

/-- One error of the source counted, with its time (R236, R237, R243). -/
def State.encErr (s : State) : State :=
  (s.count Reg.TB_ENC_ERR 1).updTb fun t => { t with errAt := (s.ref :: t.errAt).take 256 }

/-- A count of the encoder acts on the backlash counter and the PTB (R236). -/
def State.encStep (s : State) (forward : Bool) : State :=
  let b := (s.rd Reg.TB_BACKLASH).toNat
  if s.driven = false then s
  else if forward then
    if 0 < b then s.wr Reg.TB_BACKLASH (BitVec.ofNat 32 (b - 1)) else s.ptbTick
  else s.count Reg.TB_BACKLASH 1

/-- ENC_COUNT: a filtered edge of A (0), of B (1), or a sample in which both change (2) (R236). -/
def execEncCount (edge : Nat) (s : State) : Host.Outcome State Fault Refusal :=
  if s.phaseOn = false ∨ s.source ≠ srcEnc then .next s
  else
    let i := s.srcPin
    let a := s.pinLevel i
    let b := s.pinLevel (i + 1)
    let inv := s.bit Reg.TB_SOURCE 26
    let held := (edge == 1 || s.filterOk i 1) && (edge == 0 || s.filterOk (i + 1) 1)
    if !held then .next s
    else match edge with
    | 0 => .next ((s.pinEdge i (!a)).encStep (((!a) != b) != inv))
    | 1 => .next ((s.pinEdge (i + 1) (!b)).encStep (((!b) == a) != inv))
    | 2 => .next (((s.pinEdge i (!a)).pinEdge (i + 1) (!b)).encErr)
    | _ => .next s

/-- The edges that a selected edge of the source's input stands for have passed the filter. -/
def State.selectedOk (s : State) : Bool := s.filterOk s.srcPin (if s.pinLevel s.srcPin = !(s.bit Reg.TB_SOURCE 24) then 2 else 1)

/-- The level of the source's input after a selected edge; an opposite edge lies before it where the input already stood
there (DEDUCED: two edges of one sense have one of the other between them). -/
def State.selectedEdge (s : State) : State :=
  let i := s.srcPin
  let lv := !(s.bit Reg.TB_SOURCE 24)
  if s.pinLevel i = lv then (s.pinEdge i (!lv)).pinEdge i lv else s.pinEdge i lv

/-- LINE_EDGE: a selected edge of the line pulse (R237). -/
def execLineEdge (s : State) : Host.Outcome State Fault Refusal :=
  if s.phaseOn = false ∨ s.source ≠ srcLine ∨ s.selectedOk = false then .next s
  else
    let now := s.ref
    let close := match s.tb.lineLast with | some t => decide (now - t < 10) | none => false
    let s1 := s.selectedEdge.updTb fun t => { t with lineLast := some now }
    if close then .next s1.encErr
    else
      let s2 := s1.updTb fun t => { t with lineCounted := now }
      .next (if s2.driven then s2.ptbTick else s2)

/-- k of the MAINS source (R232). -/
def State.mainsK (s : State) : Nat := s.rf Reg.TB_SOURCE 19 5

/-- An edge is accepted at interval `iv` from the accepted one before it (R238): 0.75 of the reference period, which is
1/70 s until a period has been measured. -/
def mainsAccept (ref : Option Nat) (iv : Nat) : Bool :=
  match ref with
  | some r => decide (3 * r ≤ 4 * iv)
  | none => decide (3 * 10 ^ 9 ≤ 280 * iv)

/-- Only a period from 1/70 s to 1/40 s counts as measured (R238). -/
def mainsMeasured (iv : Nat) : Bool := decide (10 ^ 9 ≤ 70 * iv) && decide (40 * iv ≤ 10 ^ 9)

/-- Three periods within 2% of one another (R238). -/
def mainsSteady : List Nat → Bool
  | a :: b :: c :: _ => decide (50 * max a (max b c) ≤ 51 * min a (min b c))
  | _ => false

def State.locked (s : State) : Bool := s.bit Reg.TB_STATUS 8
def State.setLocked (s : State) (b : Bool) : State := s.wf' Reg.TB_STATUS 8 1 (b2n b)

/-- The periods after an accepted zero-cross. The multiplier is locked while the last three lie within 2% (DEDUCED: R238
says when it locks, not when it loses lock). -/
def State.mainsPeriod (s : State) (now : Nat) : State :=
  let s1 := match s.tb.mainsZero with
    | none => s.updTb fun t => { t with mainsRun := [] }
    | some z =>
      let iv := now - z
      if mainsMeasured iv then
        (s.wr Reg.TB_MAINS_PERIOD (BitVec.ofNat 32 iv)).updTb fun t =>
          { t with mainsRef := some iv, mainsRun := (iv :: t.mainsRun).take 3 }
      else s.updTb fun t => { t with mainsRun := [] }
  let now_ := mainsSteady s1.tb.mainsRun
  let s2 := s1.updTb fun t => { t with lockLost := !now_ && (t.lockLost || s.locked) }
  (s2.setLocked now_).updTb fun t => { t with mainsZero := some now }

/-- Ticks owed at an accepted zero-cross: the rest of the cycle once aligned, or the way to the next multiple of 2^k at
the first zero-cross after lock (R238). -/
def State.mainsCycle (s : State) (wasLocked : Bool) : State :=
  let n := 2 ^ s.mainsK
  if s.driven = false then s
  else if s.tb.mainsAligned then s.updTb fun t => { t with mainsOwed := t.mainsOwed + (n - t.mainsIssued), mainsIssued := 0 }
  else if wasLocked && s.locked then
    let go := (n - s.ptb % n) % n
    let s1 := s.updTb fun t => { t with mainsAligned := true, mainsAlign := go, mainsIssued := 0 }
    if go = 0 then s1.setTbState tsRunning else s1
  else s

/-- MAINS_ZERO_CROSS: a selected edge of the mains input (R238). -/
def execMainsZeroCross (s : State) : Host.Outcome State Fault Refusal :=
  if s.phaseOn = false ∨ s.source ≠ srcMains ∨ s.selectedOk = false then .next s
  else
    let now := s.ref
    let s0 := s.selectedEdge
    let ok := match s.tb.mainsZero with | none => true | some z => mainsAccept s.tb.mainsRef (now - z)
    if ok then .next ((s0.mainsPeriod now).mainsCycle s.locked)
    else .next (s0.count Reg.TB_MAINS_GLITCH 1)

/-- MAINS_TICK: a tick of the MAINS source: one owed at catch-up, one of the alignment, or the next of the cycle's 2^k
evenly spaced ones (R238). -/
def execMainsTick (s : State) : Host.Outcome State Fault Refusal :=
  let t := s.tb
  if s.phaseOn = false ∨ s.source ≠ srcMains ∨ s.driven = false then .next s
  else if 0 < t.mainsOwed then
    .next ((s.ptbTick.count Reg.TB_MAINS_CATCHUP 1).updTb fun t => { t with mainsOwed := t.mainsOwed - 1 })
  else if 0 < t.mainsAlign then
    let s1 := s.ptbTick.updTb fun t => { t with mainsAlign := t.mainsAlign - 1 }
    .next (if t.mainsAlign = 1 then s1.setTbState tsRunning else s1)
  else
    match t.mainsAligned, t.mainsZero, t.mainsRef with
    | true, some z, some r =>
      if t.mainsIssued < 2 ^ s.mainsK ∧ (t.mainsIssued + 1) * r ≤ (s.ref - z) * 2 ^ s.mainsK then
        .next (s.ptbTick.updTb fun t => { t with mainsIssued := t.mainsIssued + 1 })
      else .next s
    | _, _, _ => .next s

/-- The event port that PTP follows. -/
def State.ptpPort (s : State) : Nat := s.rf Reg.TB_SOURCE 25 1

/-- The target count D of R239. -/
def State.ptpTarget (s : State) : Nat :=
  let t := s.rd64 (Reg.EVP_PTP_NS_LO s.ptpPort)
  let e := s.rd64 Reg.TB_PTP_EPOCH_LO
  if e ≤ t then (t - e) * 256 / (s.rd Reg.TB_PTP_PERIOD).toNat else 0

/-- PTP_FOLLOW_TICK: one cycle of following D forward (R239). -/
def execPtpFollowTick (s : State) : Host.Outcome State Fault Refusal :=
  if s.source ≠ srcPtp ∨ s.driven = false then .next s
  else if s.ptb < s.ptpTarget then .next s.ptbTick
  else if s.ptpTarget < s.ptb then .next (s.count Reg.TB_PTP_BACKSTEP 1)
  else .next s

/-- INT_TICK: a tick of INT, or of the substitute of a lost source (R240, R244). -/
def execIntTick (s : State) : Host.Outcome State Fault Refusal :=
  if s.up = false ∨ (s.source ≠ srcInt ∧ s.driven = true) then .next s
  else
    let n := (s.rd (if s.driven then Reg.TB_INT_DIV else Reg.TB_SUBST_DIV)).toNat
    if s.tb.intLast + n ≤ s.ref then .next (s.ptbTick.updTb fun t => { t with intLast := t.intLast + n })
    else .next s

/-! ### Loss and substitution (R243 to R245) -/

/-- More than ERR_LIMIT errors within the last 1 ms (R243). -/
def State.errLoss (s : State) : Bool :=
  let lim := s.rf Reg.TB_LOSS_CFG 8 8
  lim != 0 && decide (lim < (s.tb.errAt.filter fun t => decide (s.ref - t < 10 ^ 6)).length)

/-- Does a loss condition of the source hold now (R243)? -/
def State.lossNow (s : State) : Bool :=
  let us := s.rf Reg.TB_LOSS_CFG 16 16
  let src := s.source
  if src = srcEnc then s.errLoss
  else if src = srcLine then s.errLoss || (us != 0 && decide (1000 * us ≤ s.ref - s.tb.lineCounted))
  else if src = srcMains then
    s.tb.lockLost || (match s.tb.mainsZero, s.tb.mainsRef with
      | some z, some r => decide (3 * r ≤ 2 * (s.ref - z))
      | _, _ => false)
  else if src = srcPtp then
    !(s.bit (Reg.EVP_PTP_STATUS s.ptpPort) 31) ||
      (us != 0 && decide (us ≤ (s.rd (Reg.EVP_PTP_AGE s.ptpPort)).toNat))
  else false

/-- The MAINS source as at its selection: no period measured, unlocked (R238). -/
def Tb.mainsFresh (t : Tb) : Tb :=
  { t with mainsZero := none, mainsRef := none, mainsRun := [], mainsAligned := false, mainsIssued := 0, mainsOwed := 0,
           mainsAlign := 0, lockLost := false }

/-- FLT_PHASE_LOST in the status of every enabled partition (R244). -/
def State.phaseFaults (s : State) : State :=
  ((List.range 64).filter s.enabled).foldl (fun t k => t.updPart k fun q =>
    { q with faults := if q.faults.contains fltPhaseLost then q.faults else q.faults ++ [fltPhaseLost] }) s

/-- PHASE_LOST: a loss condition of the source is raised (R244). -/
def execPhaseLost (s : State) : Host.Outcome State Fault Refusal :=
  if s.lossNow = true ∧ (s.tbState = tsRunning ∨ s.tbState = tsAcquiring) then
    let sub := s.bit Reg.TB_SOURCE 28
    let s1 := ((s.setTbState (if sub then tsSubstituted else tsLost)).count Reg.TB_LOSS_EVENTS 1).setLocked false
    let s2 := (s1.report fltPhaseLost { detail := [s.source] }).phaseFaults
    .next (s2.updTb fun t => { (if s.source = srcMains then t.mainsFresh else t) with lossAt := s.ref, intLast := s.ref })
  else .next s

/-- A substituted or lost source returns: it drives the PTB again, MAINS after aligning (R245). -/
def State.sourceReturn (s : State) : State :=
  let mains := decide (s.source = srcMains)
  (s.setTbState (if mains then tsAcquiring else tsRunning)).updTb fun t =>
    { t with mainsAligned := false, mainsIssued := 0, mainsOwed := 0, mainsAlign := 0, intLast := s.ref }

/-- SOURCE_AUTO_RETURN: a substituted source free of every loss condition for 1 ms returns, MAINS once locked again (R245).
A lost source without substitute reads RUNNING again after the same time (DESIGN CHOICE: R244 sets LOST, no rule clears it
but for MAINS, which its alignment returns). -/
def execSourceAutoReturn (s : State) : Host.Outcome State Fault Refusal :=
  let free := !s.lossNow && decide (10 ^ 6 ≤ s.ref - s.tb.lossAt)
  if free && s.tbState == tsSubstituted && s.bit Reg.TB_SOURCE 27 && (s.source != srcMains || s.locked) then
    .next s.sourceReturn
  else if free && s.tbState == tsLost && s.source != srcMains then .next (s.setTbState tsRunning)
  else .next s

/-- Inputs that a TB_SOURCE word takes (R235). -/
def sourcePins (w : Word) : List Nat :=
  let pin := fld w 16 3
  if fld w 29 3 = srcEnc then [pin, pin + 1] else if fld w 29 3 = srcLine ∨ fld w 29 3 = srcMains then [pin] else []

/-- TB_SOURCE written by the management controller (R233, R245): the word already held returns a substituted source and
does nothing else; another selects its source anew. -/
def State.selectSource (s : State) (w : Word) : State :=
  if w = s.rd Reg.TB_SOURCE then (if s.driven then s else s.sourceReturn)
  else
    let s1 := s.wr Reg.TB_SOURCE w
    let s2 := (List.range 8).foldl (fun t i => t.wf' (Reg.TB_PIN_STATUS i) 31 1
      (b2n (s.fuses.phase && (sourcePins w).contains i))) s1
    let s3 := (s2.setTbState (if fld w 29 3 = srcMains then tsAcquiring else tsRunning)).setLocked false
    s3.updTb fun t => { t.mainsFresh with intLast := s.ref, lineLast := none, lineCounted := s.ref, errAt := [], lossAt := s.ref }

/-! ### Stamps (R242) -/

/-- Does EDGE of an input select this edge? -/
def State.edgeChosen (s : State) (i : Nat) (level : Bool) : Bool :=
  let e := s.rf (Reg.TB_PIN_CFG i) 28 2
  (e == 0 && level) || (e == 1 && !level) || e == 2

/-- PIN_STAMP: a filtered edge to `level` on an input that the source does not take; a selected one in STAMP mode is
stamped and queued (R242). -/
def execPinStamp (i : Nat) (level : Bool) (s : State) : Host.Outcome State Fault Refusal :=
  if ¬(i < 8) ∨ s.phaseOn = false ∨ s.bit (Reg.TB_PIN_STATUS i) 31 = true ∨ s.pinLevel i = level ∨ s.filterOk i 1 = false then .next s
  else
    let s1 := s.pinEdge i level
    if s.rf (Reg.TB_PIN_CFG i) 30 2 = 1 ∧ s.edgeChosen i level = true then
      let s2 := (s1.wr64 (Reg.TB_PIN_PTB_LO i) s.ptb).wr64 (Reg.TB_PIN_REF_LO i) s.ref
      let q := s.stampQ i
      if q.length < 16 then .next (s2.setStampQ i (q ++ [(s.ptb, s.ref)])) else .next (s2.count (Reg.TB_PIN_OVF i) 1)
    else .next s1

end Sys2Proof.Machine
end

