-- ==== Sys2Proof/Machine/EnableCheck.lean ====
section
/-! DEFINITION. The conditions of the enable check (11_host_interface.md R412 to R415, R560), chapter by chapter. Each
gives the failures it finds as pairs of reason and DETAIL; the check reports the least (R413). -/
namespace Sys2Proof.Machine

/-- Failures found: REASON and DETAIL. -/
abbrev Fails := List (Nat × Nat)

/-- The failure `(r, d)` where a condition fails. -/
def failIf (b : Bool) (r d : Nat) : Fails := if b then [(r, d)] else []

/-- Is `(r, d)` reported before `(q, e)` (R413)? -/
def failLt (x y : Nat × Nat) : Bool := decide (x.1 < y.1) || (x.1 == y.1 && decide (x.2 < y.2))

/-- The failure reported (R413): the lowest DETAIL of the lowest reason. -/
def firstFail (fs : Fails) : Option (Nat × Nat) :=
  fs.foldl (fun m x => match m with | none => some x | some y => some (if failLt x y then x else y)) none

/-- DETAIL of a core: logical id in bits 21:9, an index below (R55 and others). -/
def State.coreDet (s : State) (p i : Nat) : Nat := 512 * s.logicalOf p + i
/-- DETAIL of a grove: grove in bits 21:16. -/
def groveDet (g i : Nat) : Nat := 65536 * g + i

/-- A reserved bit of a register of `n` words from a key is non-zero (00_scope.md R15). -/
def State.heldIn (s : State) (lo len : Nat) : Bool :=
  s.heldBits.any fun e => decide (lo ≤ e.1) && decide (e.1 < lo + len) && e.2 != 0

/-- Ranges [a, a + n) and [b, b + m) of keys meet. -/
def keysMeet (a n b m : Nat) : Bool := meets (a, n) (b, m)

/-- Pairs of distinct elements: does `p` hold of `x` and another element of the list? -/
def anyOther {α : Type} (idx : α → Nat) (p : α → α → Bool) (x : α) (l : List α) : Bool :=
  l.any fun y => idx y != idx x && p x y

/-! ### Groves, cores and units -/

/-- CFG_EMPTY (R414). -/
def State.chkEmpty (s : State) (k : Nat) : Fails := failIf (s.grovesOf k).isEmpty 0x01 0

/-- DETAIL of CFG_UNIT_ABSENT: KIND and INDEX (R560). -/
def absentDet (kind idx : Nat) : Nat := kind * 2 ^ 20 + idx

/-- Is context `c` in use and owned by partition `k` (12_event_ports.md R430)? -/
def ctxOf (x k : Nat) : Bool := cfld x 0 31 1 == 1 && cfld x 0 0 6 == k

/-- Contexts in use of partition `k`, with their numbers. -/
def State.ctxsOf (s : State) (k : Nat) : List (Nat × Nat) := s.ctx.filter fun e => ctxOf e.2 k

/-- Enabled taps of core `p`: number and CORE_TAP_CNT (R405). -/
def State.tapsOf (s : State) (p : Nat) : List (Nat × Word) :=
  ((List.range 4).filter fun t => s.bit (Reg.CORE_TAP_KEY p t) 31).map fun t => (t, s.rd (Reg.CORE_TAP_CNT p t))

/-- The time source that TB_SOURCE selects needs an absent unit (07_timebase.md R234). -/
def State.sourceAbsent (s : State) : Bool :=
  (!s.fuses.phase && (s.source == srcEnc || s.source == srcLine || s.source == srcMains)) || (!s.fuses.eth2 && s.ptpPort == 1)

/-- CFG_UNIT_ABSENT (00_scope.md R9, R560). -/
def State.chkAbsent (s : State) (k : Nat) : Fails :=
  let cores := s.coresOfPart k
  let gs := s.grovesOf k
  failIf s.sourceAbsent 0x02 (absentDet 0 0)
    ++ ((List.range 16).flatMap fun r => failIf (s.absent (s.hbmRegion k r)) 0x02 (absentDet 1 r))
    ++ (cores.flatMap fun p => (s.groveExtents p).flatMap fun x => failIf (s.absent x.2) 0x02 (absentDet 2 (8 * s.logicalOf p + x.1)))
    ++ (cores.flatMap fun p => (s.denseStreams p).flatMap fun x => failIf (s.absent x.2) 0x02 (absentDet 3 (8 * s.logicalOf p + x.1)))
    ++ (gs.flatMap fun g => (s.pinAreas g).flatMap fun x => failIf (s.absent x.2) 0x02 (absentDet 4 (8 * g + x.1)))
    ++ (gs.flatMap fun g =>
        ((s.ranges g).flatMap fun x => failIf (s.absent x.preArea) 0x02 (absentDet 5 (32 * g + x.idx)))
          ++ if s.plastic g then
              ((s.plsGroveAreas g).zip [0, 1, 2]).flatMap fun x => failIf (s.absent x.1) 0x02 (absentDet 5 (32 * g + 16 + x.2))
            else [])
    ++ ((s.ringArea k).flatMap fun a => failIf (s.absent a) 0x02 (absentDet 6 0))
    ++ ((s.ctxsOf k).flatMap fun c => failIf (!s.fuses.eth2 && cfld c.2 0 27 1 == 1) 0x02 (absentDet 7 c.1))
    ++ (cores.flatMap fun p => (s.tapsOf p).flatMap fun t =>
        failIf (!s.fuses.eth2 && tst t.2 28 && fld t.2 29 3 == 1) 0x02 (absentDet 8 (8 * s.logicalOf p + t.1)))

/-- CFG_POWER_OFF (R415): cores, then groves. -/
def State.chkPower (s : State) (k : Nat) : Fails :=
  ((s.coresOfPart k).flatMap fun p => failIf (!(s.logicOn p && s.memOn p && s.routerOn p)) 0x03 p)
    ++ (s.grovesOf k).flatMap fun g => failIf (!(s.domOn (.sync g)) || (s.grove g).faulted.isSome) 0x03 (2 ^ 23 + groveDet g 0)

/-- CFG_CORE_UNMAPPED (01_organisation.md R28). -/
def State.chkMapped (s : State) (k : Nat) : Fails :=
  (s.grovesOf k).flatMap fun g => (List.range s.fuses.active).flatMap fun i =>
    let l := s.fuses.active * g + i
    failIf (s.physOf l).isNone 0x04 l

/-! ### Fabric (05_fabric.md R37, R173) -/

/-- Do the targets of a canopy all lie in partition `k`? -/
def State.targetsIn (s : State) (k img : Nat) : Bool := (canTargets img).all fun h => s.holds k h

/-- CFG_DEST_OUTSIDE, CFG_SOURCE_INVALID and CFG_CANOPY_INVALID. -/
def State.chkFabric (s : State) (k : Nat) : Fails :=
  (s.grovesOf k).flatMap fun g =>
    ((s.vCanopies enableView g).flatMap fun c =>
      if s.targetsIn k c.2 then failIf (!(s.canopyOk enableView g c.1 c.2)) 0x29 (groveDet g c.1)
      else [(0x05, groveDet g c.1)])
    ++ (s.activeCores g).flatMap fun p => (s.vSrc enableView p).flatMap fun e =>
      failIf (!(s.sourceOk enableView p e)) 0x28 (1024 * s.logicalOf p + e.1)

/-! ### Egress (R415, 12_event_ports.md R453) -/

/-- A faulty tap (R415); one that names port 1 of an E1 part is an absent unit instead. -/
def State.tapBad (s : State) (p k t : Nat) (c : Word) : Bool :=
  let e := fld c 29 3
  let n := fld c 0 21
  (if tst c 28 then decide (2 ≤ e) else s.ownerOf k != some e) || n == 0 ||
    decide (2 ^ 28 < s.rf (Reg.CORE_TAP_KEY p t) 0 28 + n) || s.heldIn (Reg.CORE_TAP_KEY p t) 8

/-- An enabled egress path of an attachment, split (R407). -/
structure Path where
  idx : Nat
  vector : Bool
  ring : Nat
  key : Nat
  count : Nat
  deriving DecidableEq, Repr

/-- Enabled paths of partition `k` on attachment `a`. -/
def State.pathsOf (s : State) (a k : Nat) : List Path :=
  ((List.range 256).filter fun i => s.bit (Reg.HIF_EP_CFG a i) 31 && s.rf (Reg.HIF_EP_CFG a i) 24 6 == k).map fun i =>
    { idx := i, vector := s.bit (Reg.HIF_EP_CFG a i) 30, ring := s.rf (Reg.HIF_EP_CFG a i) 0 9,
      key := s.rf (Reg.HIF_EP_KEY a i) 0 28, count := s.rf (Reg.HIF_EP_CNT a i) 0 21 }

/-- The operation that a VECTOR path exports, where the core lies in the partition and the slot is an enabled STEP operation
with ACT output (R408). -/
def State.vectorOp (s : State) (k : Nat) (x : Path) : Option DnsOp :=
  match s.physOf (x.key % 2 ^ 13) with
  | none => none
  | some p =>
    let op := s.opCfg p (nfld x.key 16 2)
    if s.holds k (p / 144) && op.en && op.trigger == trgStep && !op.events then some op else none

/-- A faulty path (R415). -/
def State.pathBad (s : State) (a k : Nat) (all : List Path) (x : Path) : Bool :=
  !(s.bit (ringBase a .egress x.ring) 31) || s.heldIn (Reg.HIF_EP_CFG a x.idx) 12 ||
    if x.vector then (s.vectorOp k x).isNone
    else x.count == 0 || decide (2 ^ 28 < x.key + x.count) ||
      anyOther Path.idx (fun x y => keysMeet x.key x.count y.key y.count) x (all.filter (!·.vector))

/-- Enabled paths of partition `k` on port `e`: number, context, first key, keys (12_event_ports.md R457). -/
def State.portPaths (s : State) (e k : Nat) : List Path :=
  ((List.range 256).filter fun i => s.bit (evpPath e i 0) 31 && s.rf (evpPath e i 0) 24 6 == k).map fun i =>
    { idx := i, vector := false, ring := s.rf (evpPath e i 0) 0 20, key := s.rf (evpPath e i 1) 0 28,
      count := s.rf (evpPath e i 2) 0 21 }

/-- A faulty path of a port (12_event_ports.md R453); a context that is not in use is no EGRESS context (DEDUCED). -/
def State.portPathBad (s : State) (e k : Nat) (all : List Path) (x : Path) : Bool :=
  let c := s.context x.ring
  !(ctxOf c k && cfld c 0 30 1 == 1 && cfld c 0 27 1 == e) || x.count == 0 || decide (2 ^ 28 < x.key + x.count) ||
    s.heldIn (evpPath e x.idx 0) 12 || anyOther Path.idx (fun x y => keysMeet x.key x.count y.key y.count) x all

/-- CFG_EGRESS_INVALID and CFG_RING_INVALID. -/
def State.chkEgress (s : State) (k : Nat) : Fails :=
  ((s.coresOfPart k).flatMap fun p => (s.tapsOf p).flatMap fun t =>
      failIf (s.tapBad p k t.1 t.2) 0x06 (2 ^ 23 + s.coreDet p t.1))
    ++ ((List.range 8).flatMap fun a =>
      let all := s.pathsOf a k
      all.flatMap fun x => failIf (s.pathBad a k all x) 0x06 (256 * a + x.idx)
        ++ match (if x.vector then s.vectorOp k x else none) with
          | some op => failIf (decide (s.ringSize (ringBase a .egress x.ring) < 1 + (op.outBytes + 7) / 8)) 0x07 (256 * a + x.idx)
          | none => [])
    ++ ((List.range 2).flatMap fun e =>
      let all := s.portPaths e k
      all.flatMap fun x => failIf (s.portPathBad e k all x) 0x06 (2 ^ 22 + 256 * e + x.idx))

/-! ### Stream contexts, destinations and pacers (12_event_ports.md R451, R452) -/

/-- Reserved bits of a context (12_event_ports.md R430). -/
def ctxReserved (c : Nat) : Bool :=
  if cfld c 0 30 1 = 1 then
    cfld c 0 25 1 != 0 || cfld c 0 6 18 != 0 || cfld c 1 0 32 != 0 || cfld c 2 28 4 != 0 || cfld c 2 26 1 != 0
      || cfld c 2 12 8 != 0 || cfld c 7 16 16 != 0
  else cfld c 0 12 3 != 0 || cfld c 1 28 4 != 0

/-- A faulty EGRESS context (R451). -/
def State.egressBad (s : State) (k c : Nat) : Bool :=
  let e := cfld c 0 27 1
  let d := s.rd (evpDest e (cfld c 2 0 12) 0)
  let pc := s.rd (Reg.EVP_PACER_CFG e (cfld c 2 20 6))
  cfld c 0 28 2 != 0 || !(tst d 31 && fld d 0 6 == k) || (cfld c 2 27 1 == 1 && !(tst pc 31 && fld pc 24 6 == k))

/-- A faulty INGRESS context (R451), its grove apart. -/
def State.ingressBad (s : State) (c : Nat) : Bool :=
  let img := s.vCanopy enableView (cfld c 0 6 6) (cfld c 2 20 12)
  !(canValid img && !(canRooted img)) || decide (2 ^ 28 ≤ cfld c 1 0 28 + cfld c 2 0 20)

/-- Destinations of partition `k` on port `e`. -/
def State.destsOf (s : State) (e k : Nat) : List Nat :=
  (List.range 4096).filter fun d => s.bit (evpDest e d 0) 31 && s.rf (evpDest e d 0) 0 6 == k

/-- Size of a frame of `n` extended events to a destination (R422, 12_event_ports.md R426). -/
def State.destFrame (s : State) (e d n : Nat) : Nat :=
  14 + (if s.bit (Reg.EVP_PORT_CFG e) 30 then 4 else 0) + (if s.bit (evpDest e d 0) 30 then 40 else 20) + 8 + 32 + 8 * n + 4

/-- A faulty destination (R451). -/
def State.destBad (s : State) (e d : Nat) : Bool :=
  let n := s.rf (evpDest e d 7) 0 11
  n == 0 || decide (1024 < n) || decide (s.rf (Reg.EVP_PORT_CFG e) 0 14 < s.destFrame e d n) || s.heldIn (evpDest e d 0) 32

/-- A faulty pacer (R452). -/
def State.pacerBad (s : State) (e j k : Nat) : Bool :=
  (match s.pacerChannel e j with
    | none => true
    | some ch => s.chPart ch != some k || s.chClass ch != clsPacing) ||
  s.rf (Reg.EVP_PACER_CFG e j) 16 8 == 0 || s.heldIn (Reg.EVP_PACER_CFG e j) 16

/-- CFG_DEST_OUTSIDE of contexts, CFG_CONTEXT_INVALID and CFG_PACING_INVALID. -/
def State.chkPorts (s : State) (k : Nat) : Fails :=
  ((s.ctxsOf k).flatMap fun c =>
      (if cfld c.2 0 30 1 = 1 then failIf (s.egressBad k c.2) 0x08 c.1
        else if s.holds k (cfld c.2 0 6 6) then failIf (s.ingressBad c.2) 0x08 c.1 else [(0x05, 2 ^ 23 + c.1)])
      ++ failIf (ctxReserved c.2) 0x08 c.1
      ++ failIf (cfld c.2 0 26 1 == 1 && s.rf (Reg.EVP_TC0_BUDGET (cfld c.2 0 27 1) k) 0 7 == 0) 0x09 (2 ^ 23 + c.1))
    ++ (List.range 2).flatMap fun e =>
      ((s.destsOf e k).flatMap fun d => failIf (s.destBad e d) 0x08 (2 ^ 23 + 4096 * e + d))
      ++ ((List.range 64).filter fun j => s.bit (Reg.EVP_PACER_CFG e j) 31 && s.rf (Reg.EVP_PACER_CFG e j) 24 6 == k).flatMap fun j =>
        failIf (s.pacerBad e j k) 0x09 (4096 * e + j)

/-! ### Local rows (04_synapses_dense.md R120) -/

/-- What the walk of a core's LOCAL windows finds: reasons with their DETAIL below the core's. -/
def State.blockFails (s : State) (p : Nat) (w : Win) (f : FmtSlot) (bs : List Byte) : Fails :=
  let h := blkHdrOf bs
  match (s.grps p).find? fun g => g.idx == h.grp with
  | none => [(0x21, w.idx)]
  | some g =>
    failIf (decide (g.depth ≤ h.dly)) 0x1A g.idx
      ++ failIf (w.tgt / 2 ^ h.grp % 2 == 0 || decide (g.n ≤ h.tbase + h.count) || decide (w.dmax < h.dly) || h.reserved || h.rank != 0
          || decide (8 ≤ f.wfmt)) 0x21 w.idx

/-- One VALID entry of a LOCAL window: the row it names, against R117, R116, R55 and R89. The header is read where it lies in
local memory, and its slot is judged whatever else is wrong with the row; the blocks are walked where their slot gives them a size
and they lie in local memory. The walk's decodes do not count in CORE_FMT_ODD (DESIGN CHOICE: 02_arithmetic.md R80 names
executions, replays and dense chunks). -/
def State.rowFails (s : State) (p : Nat) (w : Win) (key e : Nat) : Fails :=
  let off := dirAddr e % 2 ^ 18
  if 2 ^ 18 < dirAddr e + 16 then [(0x21, w.idx)]
  else
    let h := rowHdrOf (s.bytes p off 16)
    let f := s.fmtSlot p h.fslot
    let len := if f.wfmt < 8 then rowLen f h.nblk else 16
    failIf (!f.ok) 0x10 h.fslot
      ++ failIf (dirReserved e || off % 16 != 0 || h.key != key || h.reserved || !(decide (w.dir ≤ off) && decide (off + len ≤ w.dir + w.ext)))
          0x21 w.idx
      ++ if f.wfmt < 8 ∧ off + len ≤ 2 ^ 18 then
          let blocks := rowBlocks f h.nblk (s.bytes p (off + 16) (h.nblk * blockSize f.wfmt))
          (blocks.flatMap fun b => s.blockFails p w f b)
            ++ failIf (low 32 (blocks.foldl (fun acc b => acc + blockSum f b) 0) != low 32 h.rowsum) 0x21 w.idx
        else []

/-- The walk of every LOCAL window of core `p`. -/
def State.localFails (s : State) (p : Nat) : Fails :=
  ((s.wins p).filter fun w => !w.grove).flatMap fun w =>
    ((List.range (min w.count 32768)).filter fun i => decide (w.dir + 8 * i + 8 ≤ 2 ^ 18)).flatMap fun i =>
      let e := s.num p (w.dir + 8 * i) 8
      if dirValid e then s.rowFails p w (w.base + i) e else []

/-! ### Cores: arithmetic, neurons, synapses, dense operations -/

/-- Channels that core `p` names: of its groups, and of its enabled dense operations (02_arithmetic.md R65). -/
def DnsOp.outChannels (op : DnsOp) : List Nat := if op.shared then [op.chBase] else (List.range op.n).map fun j => op.chBase + j
def State.opsOf (s : State) (p : Nat) : List (Nat × DnsOp) := ((List.range 4).map fun o => (o, s.opCfg p o)).filter (·.2.en)
def State.groupsEn (s : State) (p : Nat) : List Grp :=
  ((List.range 16).filter fun g => s.bit (Reg.NEU_GRP_CFG p g) 31).map fun g => s.grpRaw p g
def DnsOp.channels (op : DnsOp) : List Nat := op.outChannels ++ if op.membrane then [op.inCh] else []

/-- CFG_FORMAT_INVALID, CFG_RESCALE_INVALID and CFG_ADAPT_RANGE of core `p`, rows apart. -/
def State.arithFails (s : State) (p : Nat) : Fails :=
  let chans := (s.groupsEn p).map (·.channel) ++ (s.opsOf p).flatMap fun o => o.2.channels
  ((s.opsOf p).flatMap fun o => failIf (!(s.fmtSlot p o.2.fslot).ok) 0x10 o.2.fslot)
    ++ (chans.flatMap fun c => failIf (decide (495 < c) || !(s.resc p c).ok) 0x11 c)
    ++ (let w := s.rd (Reg.CORE_RESCALE_ADAPT p)
        failIf (decide (tgtF 2 ≤ fld w 24 4) || decide (tgtF 1 ≤ fld w 20 4) || decide (tgtF 0 ≤ fld w 16 4)) 0x12 0)

/-- First key and keys of a group's axons (03_neurons.md R81). -/
def Grp.keys (g : Grp) : Nat × Nat := (g.axon, 64 * g.nblk)

/-- A faulty neuron group (03_neurons.md R110). -/
def State.groupBad (s : State) (p : Nat) (all : List Grp) (g : Grp) : Bool :=
  let cfg := s.rd (Reg.NEU_GRP_CFG p g.idx)
  let blocks := g.lanes * g.nblk
  decide (6 ≤ fld cfg 22 3) || g.fire == 3 || g.rin == 3 || g.nblk == 0 || decide (64 < g.nblk) ||
    decide (64 < g.base + blocks) ||
    anyOther Grp.idx (fun x y => keysMeet x.base (x.lanes * x.nblk) y.base (y.lanes * y.nblk)) g all ||
    anyOther Grp.idx (fun x y => keysMeet x.axon (64 * x.nblk) y.axon (64 * y.nblk)) g all ||
    decide (2 ^ 28 < g.axon + 64 * g.nblk) || decide (g.theta0 ≤ 0) || decide (g.theta0 ≤ g.vReset) ||
    decide (g.vMax < g.theta0) || decide (g.leakC < 0) || decide (g.aInc < 0) ||
    (decide (g.channel ≤ 495) && (s.resc p g.channel).tgt != 0) || s.heldIn (Reg.NEU_GRP_CFG p g.idx) 24

/-- CFG_NEURON_AREA and CFG_NEURON_GROUP of core `p`. -/
def State.neuronFails (s : State) (p : Nat) : Fails :=
  let all := s.groupsEn p
  (match (s.grps p).find? fun g => decide (98304 < g.area + g.lanes * g.n * laneBytes g.depth) with
    | some g => [(0x18, g.idx)]
    | none => [])
  ++ all.flatMap fun g => failIf (s.groupBad p all g) 0x19 g.idx

/-- A faulty input window of core `p` of partition `k` (04_synapses_dense.md R120, 13_memory_power.md R461). A GROVE extent
in an absent stack is refused as such instead. -/
def State.windowBad (s : State) (p k : Nat) (all : List Win) (w : Win) : Bool :=
  let place : Bool :=
    if w.grove then
      let a : Area := (32 * w.dir, 32 * w.ext)
      !(s.absent a) && (!(s.inRegions k a) || decide (hbmSpace < a.1 + a.2))
    else w.dir % 8 != 0 || decide (2 ^ 18 < w.dir + w.ext) || (s.protectedAreas p).any fun q => meets q (w.dir, w.ext)
  anyOther Win.idx (fun x y => keysMeet x.base x.count y.base y.count) w all || w.count == 0 || decide (2 ^ 28 < w.base + w.count) ||
    decide ((if w.grove then 32 else 1) * w.ext < 8 * w.count) || place || s.heldIn (Reg.SYN_WIN_KEY p w.idx) 20

/-- CFG_SYN_WINDOW of core `p`, and CFG_DELAY_RANGE of what its GROVE windows declare (R120). Only enabled windows are looked at,
also for KEY_COUNT and reserved bits (DESIGN CHOICE: R120 says of the overlap alone that it is of enabled windows). -/
def State.windowFails (s : State) (p k : Nat) : Fails :=
  let all := s.wins p
  all.flatMap fun w => failIf (s.windowBad p k all w) 0x20 (s.coreDet p w.idx)
    ++ if w.grove then
        (s.activeCores (p / 144)).flatMap fun q => (s.grps q).flatMap fun g =>
          failIf (w.tgt / 2 ^ g.idx % 2 == 1 && decide (g.depth ≤ w.dmax)) 0x1A (s.coreDet q g.idx)
      else []

/-- ACT input array, with both halves of a halved one (04_synapses_dense.md R140). -/
def DnsOp.inArea (op : DnsOp) : Area :=
  if op.membrane then (0, 0) else (op.inOff, (if op.inPar = 0 then 1 else 2) * (op.m * op.k))
/-- ACT output array, with both halves. -/
def DnsOp.outArea (op : DnsOp) : Area :=
  if op.events then (0, 0) else (op.out, (if op.trigger = trgStep then 2 else 1) * op.outBytes)
/-- LOCAL weight area. -/
def DnsOp.weightsArea (op : DnsOp) : Area := if op.stream then (0, 0) else (op.w, op.weightBytes)

/-- A channel of an operation without an 8-bit target, or whose target is not what the operation that reads the output takes:
the AFMT of that operation's slot (04_synapses_dense.md R145; DEDUCED). -/
def State.targetBad (s : State) (p : Nat) (all : List (Nat × DnsOp)) (op : DnsOp) : Bool :=
  let tgt (c : Nat) : Nat := (s.resc p c).tgt
  let named := op.channels.filter fun c => decide (c ≤ 495)
  let readers := all.filter fun o => meets op.outArea o.2.inArea
  (named.any fun c => tgt c != 1 && tgt c != 2) ||
    (op.outChannels.filter fun c => decide (c ≤ 495)).any fun c => readers.any fun o => (s.fmtSlot p o.2.fslot).afmt != tgt c + 7

/-- A faulty dense operation (04_synapses_dense.md R145, 13_memory_power.md R461). -/
def State.opBad (s : State) (p : Nat) (all : List (Nat × DnsOp)) (o : Nat) (op : DnsOp) : Bool :=
  let areas := [op.inArea, op.outArea, op.weightsArea]
  op.k == 0 || op.k % 8 != 0 || decide (16384 < op.k) || op.n == 0 || decide (4096 < op.n) || s.targetBad p all op ||
    (op.membrane && (match (s.groupsEn p).find? fun g => g.idx == op.inGrp with
      | none => true
      | some g => op.k != g.n || op.m != g.lanes)) ||
    (areas.any fun a => decide (2 ^ 18 < a.1 + a.2) || (s.protectedAreas p).any fun q => meets q a) ||
    op.trigger == 3 || op.inPar == 3 || (op.trigger != trgStep && (op.inPar != 0 || op.events)) ||
    (op.events && (s.groupsEn p).any fun g => keysMeet op.out op.n g.axon (64 * g.nblk)) ||
    s.heldIn (Reg.DNS_OP_CFG p o) 24

/-- CFG_DENSE_INVALID of core `p`. -/
def State.denseFails (s : State) (p : Nat) : Fails :=
  let all := s.opsOf p
  all.flatMap fun o => failIf (s.opBad p all o.1 o.2) 0x23 o.1

/-- CFG_DENSE_INVALID of a grove that needs more than 256 DENSE streams (04_synapses_dense.md R132), in the order of logical
ids and slots. -/
def State.streamFails (s : State) (g : Nat) : Fails :=
  let all := (s.coresByLogical g).flatMap fun p => ((s.opsOf p).filter (·.2.stream)).map fun o => (p, o.1)
  match all[256]? with
  | some x => [(0x23, s.coreDet x.1 x.2)]
  | none => []

/-- CFG_PIN_RANGE of a grove (04_synapses_dense.md R130): the first range with which the lines exceed 16,384 (DEDUCED). -/
def State.pinFails (s : State) (g : Nat) : Fails :=
  let step (acc : Nat × Fails) (x : Nat × Area) : Nat × Fails :=
    let n := acc.1 + x.2.2 / 128
    (n, if 16384 < n ∧ acc.2 = [] then [(0x22, groveDet g x.1)] else acc.2)
  ((s.pinAreas g).foldl step (0, [])).2

/-! ### Handlers and sync objects (06_core_messaging.md R223) -/

/-- The cause of HDL_CHECK that a word of the handler store gives: 0 where it is a legal instruction (06_core_messaging.md
R208, R209, R227). -/
def hdlWord (w : Word) : Nat :=
  let op := fld w 26 6
  let rd := fld w 22 4
  let rb := fld w 14 4
  let ext := fld w 0 14
  let pair (bad : Bool) : Nat := if bad then 2 else if 14 < rd then 3 else 0
  if op = 0x00 then (if fld w 0 26 = 0 then 0 else 2)
  else if op ≤ 0x0A then (if ext = 0 then 0 else 2)
  else if op ≤ 0x0D then 0
  else if op = 0x0E then (if fld w 18 4 = 0 then 0 else 2)
  else if op = 0x0F then 1
  else if op ≤ 0x13 then 0
  else if op = 0x14 then pair false
  else if op = 0x15 then (if fld w 18 4 = 0 ∧ fld w 0 18 ≤ 8 then 0 else 2)
  else if op ≤ 0x17 then 1
  else if op = 0x18 then (if rd = 0 ∧ fld w 4 10 = 0 then 0 else 2)
  else if op ≤ 0x1B then (if ext = 0 then 0 else 2)
  else if op = 0x1C then (if fld w 8 10 = 0 then 0 else 2)
  else if op = 0x1D then pair (ext != 0)
  else if op = 0x1E then (if ext ≠ 0 then 2 else if 14 < rd ∨ 14 < rb then 3 else 0)
  else if op = 0x1F then pair (fld w 3 11 != 0 || rb != 0)
  else if op ≤ 0x23 then 0
  else if op = 0x24 then (if fld w 11 15 = 0 then 0 else 2)
  else 1

/-- Cause and index of HDL_CHECK for core `p`: the first condition of R223, in its order, that fails; none where all hold. -/
def State.hdlFail (s : State) (p : Nat) : Option (Nat × Nat) :=
  let base := s.rf (Reg.HDL_DATA_BASE p) 0 18
  let size := s.rf (Reg.HDL_DATA_SIZE p) 0 18
  let areas := s.protectedAreas p ++ s.localExtents p
  match (List.range 2048).find? fun i => hdlWord (s.word p (handlerStore + 4 * i)) != 0 with
  | some i => some (hdlWord (s.word p (handlerStore + 4 * i)), i)
  | none =>
    match (List.range 64).find? fun i =>
        let w := s.word p (handlerTable + 4 * i)
        tst w 31 && fld w 11 20 != 0 with
    | some i => some (4, i)
    | none =>
      if base % 4 ≠ 0 ∨ size % 4 ≠ 0 ∨ 2 ^ 18 < base + size ∨ (areas.any fun a => meets a (base, size)) = true then some (5, 0)
      else ((List.range 8).find? fun q => s.heldIn (Reg.HDL_Q_CFG p q) 4).map fun q => (6, q)

/-- CFG_HANDLER_INVALID of core `p`. -/
def State.handlerFails (s : State) (p : Nat) : Fails :=
  failIf (s.bit (Reg.HDL_CTRL p) 0 && (s.hdlFail p).isSome) 0x30 0

/-- CFG_SYNC_INVALID of a grove. -/
def State.syncFails (s : State) (g : Nat) : Fails :=
  (s.grove g).objs.flatMap fun o => failIf (o.2.en && (decide (o.2.target.toInt < 1) || fld o.2.cfg 1 30 != 0)) 0x31 (groveDet g o.1)

/-! ### Channels, steps, learning (07_timebase.md R259, 08_step_commit.md R297, 09_plasticity.md R329) -/

/-- A faulty channel, its class STEP apart (07_timebase.md R257, R259). -/
def State.channelBad (s : State) (ch : Nat) : Bool :=
  let b := chKey ch
  let lmode := s.rf (b + 0x18) 30 2
  let m := s.rf (b + 0x18) 16 10
  let master : Nat := if ch < 1024 then m else coreCh (chCore ch) (m % 4)
  let core := decide (1024 ≤ ch)
  s.chClass ch == 3 || (core && s.chClass ch == clsStep) || (lmode != 0 && s.chClass ch != clsPacing) ||
    (lmode != 0 && (s.chPart master != s.chPart ch || master == ch || s.rf (chKey master + 0x18) 30 2 != 0 || (core && decide (4 ≤ m)))) ||
    (core && s.bit (b + 0x1C) 31 && !(s.bit (Reg.HDL_Q_CFG (chCore ch) (s.rf (b + 0x1C) 0 3)) 31)) ||
    s.heldIn b 4 || s.heldIn (b + 0x18) 4 || (core && s.heldIn (b + 0x1C) 4)

/-- CFG_TIMER_INVALID (07_timebase.md R259). -/
def State.timerFails (s : State) (k : Nat) : Fails :=
  let globals := s.globalsOf k
  let steps := globals.filter fun c => s.chClass c == clsStep
  failIf steps.isEmpty 0x38 0xFFFFFF
    ++ (match steps[1]? with | some c => [(0x38, c)] | none => [])
    ++ (globals.flatMap fun c => failIf (s.channelBad c) 0x38 c)
    ++ (s.coresOfPart k).flatMap fun p => (List.range 4).flatMap fun c =>
      failIf (s.channelBad (coreCh p c)) 0x38 (2 ^ 23 + s.coreDet p c)

/-- CFG_STEP_INVALID (08_step_commit.md R294, R297). -/
def State.stepFails (s : State) (k : Nat) : Fails :=
  let w := s.rd (Reg.STEP_POLICY k)
  let log2 := s.rf (Reg.STEP_REC_SIZE k) 0 5
  let ringBad : Bool := (s.ringArea k).any fun a =>
    decide (log2 < 7) || decide (26 < log2) ||
      (!(s.absent a) && !(s.inRegions k a)) || (s.readAreas k).any fun b => meets a b
  failIf (fld w 0 2 == 3) 0x39 1 ++ failIf (fld w 0 2 == 1 && s.bit (Reg.INT_PART_CTRL k) 31) 0x39 2
    ++ failIf (decide (1024 < fld w 8 11)) 0x39 3 ++ failIf ringBad 0x39 4 ++ failIf (s.heldIn (Reg.STEP_POLICY k) 0x400) 0x39 5

/-- Bounds of the operands of a weight format (02_arithmetic.md R49, R51); for X4 those of the element format. -/
def FmtSlot.bounds (f : FmtSlot) : Int × Int :=
  match f.wfmt with
  | 0 => (-1, 1) | 1 => (-1, 1) | 2 => (-2, 1) | 3 => (-4, 3) | 4 => (-8, 7)
  | 5 => (-(f.zw : Int), 15 - (f.zw : Int))
  | 6 => (-12, 12)
  | _ => if f.x4f4 then (-12, 12) else (-8, 7)

/-- Are the operands of a format those of F4? -/
def FmtSlot.isF4 (f : FmtSlot) : Bool := f.wfmt == 6 || (f.wfmt == 7 && f.x4f4)
/-- Is a number an F4 operand in halves (02_arithmetic.md R51)? -/
def isF4Operand (x : Int) : Bool := (List.range 16).any fun c => f4Operand c == x

/-- Format fields that range and slot share (09_plasticity.md R303, R333). -/
def FmtSlot.sameWeights (f h : FmtSlot) : Bool := f.wfmt == h.wfmt && f.zw == h.zw && f.xb == h.xb && f.x4f4 == h.x4f4

/-- The condition of R329 that range `x` of partition `k` fails, if any, numbered in the order of that rule; regions apart. -/
def State.rangeFail (s : State) (x : Range) (all : List Range) : Option Nat :=
  let (lo, hi) := x.fmt.bounds
  let copies := (s.activeCores x.grove).all fun p =>
    ((s.wins p).all fun w => !(w.grove && keysMeet w.base w.count x.base x.count)) || (s.fmtSlot p x.fslot).sameWeights x.fmt
  let b1 : Bool := x.fmt.wfmt == 0 && (x.create || x.prune)
  if x.count = 0 ∨ 1048576 < x.count ∨ 2 ^ 28 < x.base + x.count then some 1
  else if anyOther Range.idx (fun x y => keysMeet x.base x.count y.base y.count) x all then some 2
  else if !x.fmt.ok then some 3
  else if !copies then some 4
  else if x.wMax < x.wMin ∨ x.wMin < lo ∨ hi < x.wMax ∨ (x.fmt.isF4 && !(isF4Operand x.wMin && isF4Operand x.wMax)) = true then some 5
  else if b1 ∨ (x.create && x.prune && decide (x.createMag ≤ x.pruneMag)) = true then some 6
  else none

/-- Regions that the log, mirror, lists and tables of other ranges and groves of partition `k` take, with what they belong to:
`(g, none)` a grove's own region `i`, `(g, some r)` the pre-trace table of range `r`. -/
def State.plsRegions (s : State) (k : Nat) : List ((Nat × Nat) × Area) :=
  (s.plasticGroves k).flatMap fun g =>
    ((s.plsGroveAreas g).zip [16, 17, 18]).map (fun x => ((g, x.2), x.1)) ++ (s.ranges g).map fun x => ((g, x.idx), x.preArea)

/-- The condition of R329 that a region fails: 8 outside the partition's HBM regions, 9 an overlap. -/
def State.regionFail (s : State) (k : Nat) (all : List ((Nat × Nat) × Area)) (id : Nat × Nat) (a : Area) : Option Nat :=
  if s.absent a then none
  else if !(s.inRegions k a) then some 8
  else if (all.any fun o => o.1 != id && meets o.2 a) || ((s.readAreas k ++ s.ringArea k).any fun b => meets b a) then some 9
  else none

/-- What fails R329 in grove `g` of partition `k`: the condition with its place in DETAIL, range or grove level. -/
def State.plsGroveFails (s : State) (k g : Nat) : List (Nat × Nat) :=
  let held : List (Nat × Nat) :=
    (((List.range 8).filter fun r => s.heldIn (Reg.PLS_RNG_KEY g r) 0x80).map fun r => (11, r))
      ++ if s.heldIn (Reg.PLS_LOG_BASE g) 0x100 then [(11, 8)] else []
  if !(s.plastic g) then held
  else
    let all := s.ranges g
    let regs := s.plsRegions k
    (all.flatMap fun x => ((s.rangeFail x all).toList ++ (s.regionFail k regs (g, x.idx) x.preArea).toList).map fun c => (c, x.idx))
      ++ (if 10 < s.log2Buckets g ∨ s.rf (Reg.PLS_LIST_CFG g) 0 5 < 10 ∨ 20 < s.rf (Reg.PLS_LIST_CFG g) 0 5 ∨
          4095 < s.rf (Reg.PLS_LOG_CFG g) 16 12 ∨ (s.rd (Reg.PLS_LOG_BASE g)).toNat % 2048 ≠ 0 then [(7, 8)] else [])
      ++ (((s.plsGroveAreas g).zip [16, 17, 18]).filterMap fun x => (s.regionFail k regs (g, x.2) x.1).map fun c => (c, 8))
      ++ held

/-- The conditions of R329 that partition `k` fails in registers of its own: EPOCH_STEPS, or a reserved bit. -/
def State.plsPartFails (s : State) (k : Nat) : List Nat :=
  let n := s.rf (Reg.PLS_PART_CTRL k) 0 15
  (if n = 0 ∨ 16384 < n then [10] else []) ++ if s.heldIn (Reg.PLS_PART_CTRL k) 0x40 then [11] else []

/-- CFG_PLS_INVALID (09_plasticity.md R329). A reserved bit of a partition's own register has the DETAIL of EPOCH_STEPS (DEDUCED:
R329 gives no other that names a partition). On a part without plasticity engines nothing can fail (00_scope.md R7). -/
def State.plsFails (s : State) (k : Nat) : Fails :=
  if !s.fuses.pls then []
  else ((s.grovesOf k).flatMap fun g => (s.plsGroveFails k g).map fun x => (0x40, groveDet g x.2)) ++ failIf (!(s.plsPartFails k).isEmpty) 0x40 0xFFFFFF

/-! ### Twins and integrity registers (10_integrity.md R349, R376) -/

/-- Regions of local memory that the images of twins may differ in (10_integrity.md R349): handler data window, emit log,
queue area and the ring words of each lane-neuron (`ringByte`). -/
def State.imageSkips (s : State) (p : Nat) : List Area :=
  [(s.rf (Reg.HDL_DATA_BASE p) 0 18, s.rf (Reg.HDL_DATA_SIZE p) 0 18), (logBase, 0x4000), (0x3A000, 0x2000)]

/-- Is a byte of the neuron area a ring word's? -/
def State.ringByte (s : State) (p off : Nat) : Bool :=
  (s.grps p).any fun g =>
    let b := neuronBase + g.area
    let n := laneBytes g.depth
    decide (b ≤ off) && decide (off < b + g.lanes * g.n * n) && decide (16 ≤ (off - b) % n)

/-- Do the local memory images of twins `p` and `q` agree? Only bytes that one of them holds can differ. -/
def State.sameImage (s : State) (p q : Nat) : Bool :=
  let skips := s.imageSkips p
  let mine (x : Nat) : List Nat := (s.mem.filter fun e => decide (memKey x 0 ≤ e.1) && decide (e.1 < memKey x 0x40000)).map fun e => e.1 - memKey x 0
  (mine p ++ mine q).all fun off =>
    s.byte p off == s.byte q off || (skips.any fun a => decide (a.1 ≤ off) && decide (off < a.1 + a.2)) || s.ringByte p off

/-- The RWL fields of a core that twins must share: DIR and EXT of GROVE windows and TWIN left out (10_integrity.md R349). -/
def State.twinRegs (s : State) (p : Nat) : List Word :=
  let grove (off : Nat) : Bool := s.bit (coreReg p (off / 0x20 * 0x20 + 8)) 31
  RegTab.core.flatMap fun d =>
    if d.rwl = 0 ∨ d.off = 0xA00 then []
    else (List.range d.count).map fun i =>
      let off := d.off + d.stride * i
      if 0x340 ≤ off ∧ off < 0x440 ∧ 0xC ≤ off % 0x20 ∧ grove off = true then 0
      else s.rd (coreReg p off) &&& BitVec.ofNat 32 d.rwl

/-- Source-table and detour entries that twins must share: CANOPY left out. -/
def State.twinTables (s : State) (p : Nat) : List (Nat × Nat) :=
  let noCanopy (x : Nat) : Nat := x / 2 ^ 44 * 2 ^ 44 + x % 2 ^ 32
  (s.vSrcAll enableView p).map (fun e => (e.1, noCanopy e.2))
    ++ (List.range 8).map fun i => (1024 + i, (s.vDet enableView (Reg.FAB_DETOUR_RANGE p 0 + 4 * i)).toNat)

/-- The causes of R349 that core `p` of partition `k` meets. -/
def State.twinCauses (s : State) (k p : Nat) : List Nat :=
  let w := s.rd (Reg.INT_CORE_TWIN p)
  let en := tst w 31
  if !(s.bit (Reg.INT_PART_CTRL k) 31) then (if en then [6] else [])
  else if !en then [1]
  else
    match s.physOf (fld w 0 13) with
    | none => [3]
    | some q =>
      let b := s.rd (Reg.INT_CORE_TWIN q)
      (if q = p ∨ tst b 31 = false ∨ fld b 0 13 ≠ s.logicalOf p then [2] else [])
        ++ (if s.role q ≠ roleActive ∨ q / 144 ≠ p / 144 then [3] else [])
        ++ (if s.sameImage p q then [] else [4])
        ++ if s.twinRegs p = s.twinRegs q ∧ s.twinTables p = s.twinTables q then [] else [5]

/-- CFG_REPLICA_INVALID (10_integrity.md R349). -/
def State.replicaFails (s : State) (k : Nat) : Fails :=
  (s.coresOfPart k).flatMap fun p => (s.twinCauses k p).map fun c => (0x48, s.coreDet p c)

/-- CFG_INT_INVALID (10_integrity.md R376). -/
def State.intFails (s : State) (k : Nat) : Fails :=
  ((s.coresOfPart k).flatMap fun p => failIf (s.heldIn (coreReg p 0xA00) 0x200) 0x49 (s.coreDet p 0))
    ++ ((s.grovesOf k).flatMap fun g => failIf (s.heldIn (groveReg g 0xC1000) 0x1000) 0x49 (2 ^ 23 + groveDet g 0))
    ++ failIf (s.heldIn (Reg.INT_PART_CTRL k) 0x40) 0x49 0xFFFFFF

/-! ### The whole check -/

/-- Every failure of core `p` whose DETAIL stands below the core's own. -/
def State.coreFails (s : State) (p : Nat) : Fails :=
  (s.arithFails p ++ s.neuronFails p ++ s.localFails p ++ s.denseFails p ++ s.handlerFails p).map fun x => (x.1, s.coreDet p x.2)

/-- Every condition of partition `k` that fails (R412). -/
def State.enableFails (s : State) (k : Nat) : Fails :=
  s.chkEmpty k ++ s.chkAbsent k ++ s.chkPower k ++ s.chkMapped k ++ s.chkFabric k ++ s.chkEgress k ++ s.chkPorts k
    ++ (s.coresOfPart k).flatMap s.coreFails ++ (s.coresOfPart k).flatMap (fun p => s.windowFails p k)
    ++ (s.grovesOf k).flatMap (fun g => s.pinFails g ++ s.streamFails g ++ s.syncFails g)
    ++ s.timerFails k ++ s.stepFails k ++ s.plsFails k ++ s.replicaFails k ++ s.intFails k

/-- REASON and DETAIL of a refusal; none where every condition holds (R413). -/
def State.enableCheck (s : State) (k : Nat) : Option (Nat × Nat) := firstFail (s.enableFails k)

/-- PLS_GRV_STATUS.CAUSE of grove `g` after a check (R331): the first condition of R329 that failed there or in its partition. -/
def State.plsCause (s : State) (k g : Nat) : Nat := ((s.plsGroveFails k g).map (·.1) ++ s.plsPartFails k).foldl (fun m c => if m = 0 ∨ c < m then c else m) 0

end Sys2Proof.Machine
end

