-- ==== Sys2Proof/Machine/Sequencer.lean ====
section
/-! DEFINITION. The step sequencer (08_step_commit.md R269 to R301): fires, opens, closing, rounds, delivery, commit and
the step record. -/
namespace Sys2Proof.Machine

/-! ### Opening -/

/-- A pending fire waits to open a step (R270). -/
def State.pendingFire (s : State) (k : Nat) : Bool := s.bit (Reg.STEP_STATE k) 23

/-- The next step may open: the last step has committed and its release, with any move of a fenced role, is complete; no
clearing is pending or running; the partition is not halted (R270, 10_integrity.md R365). -/
def State.mayOpen (s : State) (k : Nat) : Bool :=
  let q := s.part k
  s.pstate k == psRunning && s.pendingFire k && q.openStep == none && q.clearing == .none && !q.halted && q.applying == 0 &&
    (s.grovesOf k).all fun g => (s.grove g).reserved.isEmpty

/-- The parity counters of a partition cleared for one parity: its groves', its endpoints' and its cores' sums (05_fabric.md
R178, 10_integrity.md R343). -/
def State.clearParity (s : State) (k par : Nat) : State :=
  let s1 := (s.grovesOf k).foldl (fun t g =>
    (((t.wr (Reg.FAB_PC_INJ g par) 0).wr (Reg.FAB_PC_EJ g par) 0).wr (Reg.FAB_PC_XOUT g par) 0).wr (Reg.FAB_PC_XIN g par) 0) s
  let s2 := (List.range 10).foldl (fun t e => t.setEpX e k par 0) s1
  (s2.coresOfPart k).foldl (fun t p => t.updCore p fun c =>
    (((c.setSum par sumDLoc 0).setSum par sumRLoc 0).setSum par sumDGrv 0).setSum par sumRGrv 0) s2

/-- The pending fire opens step STEP_COMMITTED + 1 (R271). -/
def State.openNext (s : State) (k : Nat) : State :=
  let q := s.part k
  let n := ((s.rd (Reg.STEP_COMMITTED k)).toNat + 1) % 2 ^ 32
  let par := n % 4
  let stretched := q.overrun && !q.cut
  let s1 := s.clearParity k par
  let s2 := (s1.coresOfPart k).foldl (fun t p => t.updCore p fun c => { c with openComing := some n, declared := false, cut := false }) s1
  let s3 := (s2.grovesOf k).foldl (fun t g =>
    (t.updGrove g fun v => { v with passed := false, asked := none, reports := [], held := false, heldCount := false }).wr (Reg.STEP_GROVE_STATUS g)
      (BitVec.ofNat 32 par)) s2
  let s4 := s3.updPart k fun q => { q with
    openStep := some n, closed := false, delivered := false, cut := false, heldFlag := false, stretched := false, rounds := 0,
    roundAsked := false, earlyRetract := false, spilled := 0, recEnts := [], overrun := false, mergedOpen := q.merged, merged := 0 }
  let s5 := ((s4.wf' (Reg.STEP_STATE k) 23 1 0).stepState k ssOpen).wr (Reg.STEP_OPEN k) (BitVec.ofNat 32 n)
  let s6 := (s5.wr64 (Reg.STEP_OPEN_PTB_LO k) s5.ptb).wr64 (Reg.STEP_OPEN_REF_LO k) s5.ref
  let s7 := if stretched then
      (s6.count (Reg.STEP_STRETCHED k) 1).count (Reg.STEP_STRETCH_TICKS k) ((s6.ptb + 2 ^ 64 - q.firePtb) % 2 ^ 64)
    else s6
  (s7.openIngress 0 k n).openIngress 1 k n

/-- STEP_OPEN: the pending fire opens the next step once the previous release has completed (R271). -/
def execStepOpen (k : Nat) (s : State) : Host.Outcome State Fault Refusal :=
  if s.mayOpen k then .next (s.openNext k) else .next s

/-! ### Fires (R270, R285 to R288) -/

/-- The cut of step `n` at a core under SPILL: its logged PENDING TC1 events become SPILL (R287). -/
def State.cutCore (s : State) (k n p : Nat) : State :=
  let tc1 (slot : Nat) : Bool := match s.logEvent p slot n with | some ev => ev.tclass != 0 | none => false
  let spill := (s.entriesOf p n).filter fun slot => logState (s.word p (logAt slot)) == lsPending && tc1 slot
  let s1 := s.updCore p fun c => { c with cut := true, injQ := c.injQ.filter fun i => !(spill.contains i) }
  let s2 := spill.foldl (fun t slot => t.setLogState p slot lsSpill) s1
  let m := spill.length
  ((s2.updPart k fun q => { q with spilled := q.spilled + m }).count (Reg.STEP_SPILLED_EVENTS k) m).count (Reg.STEP_SPILL_PENDING k) m

/-- The cut of the open step at every core (R287). -/
def State.cutStep (s : State) (k : Nat) : State :=
  let s1 := (s.updPart k fun q => { q with cut := true }).count (Reg.STEP_SPILLS k) 1
  (s1.coresOfPart k).foldl (fun t p => t.cutCore k ((s.part k).openStep.getD 0) p) s1

/-- A fire that finds its step uncommitted (R285): the overrun policy. While spilled events are outstanding a fire acts
as under STRETCH (R288). -/
def State.overrunFire (s : State) (k : Nat) : State :=
  let s1 := s.updPart k fun q => { q with overrun := true }
  match s.rf (Reg.STEP_POLICY k) 0 2 with
  | 1 => if (s1.part k).spillOut then s1 else s1.cutStep k
  | 2 => s1.stopPart k scHalt
  | _ => s1

/-- SEQUENCER_FIRE: a STEP-class fire reaches sequencer `k` (R270). -/
def execSequencerFire (k : Nat) (s : State) : Host.Outcome State Fault Refusal :=
  let q := s.part k
  if q.fires = 0 then .next s
  else
    let s1 := s.updPart k fun q => { q with fires := q.fires - 1 }
    if s.pstate k ≠ psRunning then .next s1
    else if s.pendingFire k then
      .next ((s1.updPart k fun q => { q with merged := q.merged + 1 }).count (Reg.STEP_MERGED k) 1)
    else
      let s2 := (s1.wf' (Reg.STEP_STATE k) 23 1 1).updPart k fun q => { q with firePtb := s1.ptb, overrun := false, merged := 0 }
      if q.openStep.isSome then .next (s2.overrunFire k)
      else .next (if s2.mayOpen k then s2.openNext k else s2)

/-- STRETCH_LIMIT: the PTB has advanced MAX_STRETCH ticks past the pending fire without a commit (R286). -/
def execStretchLimit (k : Nat) (s : State) : Host.Outcome State Fault Refusal :=
  let q := s.part k
  let lim := (s.rd (Reg.STEP_MAX_STRETCH k)).toNat
  if s.pendingFire k = true ∧ q.overrun = true ∧ q.openStep.isSome = true ∧ lim ≠ 0xFFFFFFFF ∧
      lim ≤ (s.ptb + 2 ^ 64 - q.firePtb) % 2 ^ 64 then
    .next (s.stopPart k scStretch)
  else .next s

/-! ### The last injection (R273) -/

/-- What R273 requires before a core declares. A handler that waits in its EMIT holds the declaration back (DEDUCED: its
event was executed before the declaration). -/
def Core.mayDeclare (c : Core) : Bool :=
  c.openStep.isSome && c.spanEnded && !c.declared && c.dnsSteps.isEmpty && !c.stalled && c.injQ.isEmpty &&
    (match c.dns with | some r => r.owner != .step | none => true)

/-- LAST_INJECTION_DECLARE: core `p` declares; once every core has, the step is closed at every endpoint (R273). -/
def execLastInjectionDeclare (p : Nat) (s : State) : Host.Outcome State Fault Refusal :=
  match s.runningPart p with
  | none => .next s
  | some k =>
    if (s.core p).mayDeclare then
      let s1 := s.updCore p fun c => { c with declared := true }
      .next (if (s1.coresOfPart k).all fun q => (s1.core q).declared then s1.updPart k fun q => { q with closed := true } else s1)
    else .next s

/-! ### Delivery (R177, R279) -/

/-- Step traffic of step `n`, and of the spilled events of the step before it, has been delivered (R177, R279). -/
def State.settled (s : State) (k n : Nat) : Bool :=
  s.balanced k (n % 4) && (!(s.part k).spillOut || s.balanced k ((n + 3) % 4)) &&
    (s.coresOfPart k).all fun p => (s.core p).deferred.isEmpty && (s.core p).synQ.isEmpty

/-- DELIVERY_EVALUATE: the sequencer evaluates the parity counters, declares delivery complete and asks each grove for
its verdict (R177, R279). -/
def execDeliveryEvaluate (k : Nat) (s : State) : Host.Outcome State Fault Refusal :=
  let q := s.part k
  match q.openStep with
  | none => .next s
  | some n =>
    if q.delivered ∨ q.closed = false ∨ s.settled k n = false then .next s
    else
      let s1 := s.updPart k fun q => { q with delivered := true }
      let s2 := (s1.grovesOf k).foldl (fun t g => if (t.grove g).passed then t else t.askGrove g n false) s1
      .next (s2.stepState k (if (s2.grovesOf k).any fun g => (s2.grove g).held then ssHeld else ssChecking))

/-! ### Rounds (R278) -/

/-- A log entry that a round frees: SENT or SPILL_SENT. -/
def State.freeable (s : State) (p : Nat) (e : LogEnt) : Bool :=
  let st := logState (s.word p (logAt e.slot))
  st == lsSent || st == lsSpillSent

/-- Log entries that satisfy `keep` kept, the rest freed (R274). -/
def State.keepLog (s : State) (p : Nat) (keep : LogEnt → Bool) : State :=
  let s1 := s.updCore p fun c => { c with log := c.log.filter keep }
  s1.wf' (Reg.CORE_EMIT_STATUS p) 0 13 ((s1.core p).logUsed)

/-- The stalled units of a core resume (R277, R278). -/
def State.resumeCore (s : State) (p n : Nat) : State :=
  let c := s.core p
  if !c.stalled then s
  else
    let s1 := s.count (Reg.CORE_EMIT_ROUNDS p) 1
    let s2 := if c.neuStalled then s1.sweepOn p n c.neuTodo.length else s1
    let s3 := match c.dns with
      | some r => s2.denseEmit p n (1 - (s.opCfg p r.op).cls) c.dnsEvents
      | none => s2
    s3.resumeEmit p

/-- A round has passed in every grove: entries are freed and the stalled units resume (R278). The step record gets one
entry per stalled core, the core an entry names (DEDUCED from R281). -/
def State.finishRound (s : State) (k n : Nat) : State :=
  let r := (s.part k).rounds + 1
  let s0 := (s.updPart k fun q => { q with rounds := r, roundAsked := false }).count (Reg.STEP_ROUNDS k) 1
  let s1 := ((s.coresOfPart k).filter fun p => (s.core p).stalled).foldl (fun t p => t.recEntry k recRound (s.logicalOf p) r) s0
  let s2 := (s1.grovesOf k).foldl (fun t g =>
    ((t.updGrove g fun v => { v with passed := false, asked := none, reports := [] }).wf' (Reg.STEP_GROVE_STATUS g) 30 1 0).count
      (Reg.STEP_GROVE_ROUNDS g) 1) s1
  let s3 := (s2.coresOfPart k).foldl (fun t p => t.keepLog p fun e => !(t.freeable p e)) s2
  ((s3.coresOfPart k).foldl (fun t p => t.resumeCore p n) s3).stepState k ssOpen

/-- ROUND: once every core has declared or stalled and what was sent is delivered, the groves are asked for their verdict
on the work so far; once each has passed, the round ends (R278). -/
def execRound (k : Nat) (s : State) : Host.Outcome State Fault Refusal :=
  let q := s.part k
  let cores := s.coresOfPart k
  match q.openStep with
  | none => .next s
  | some n =>
    if q.roundAsked then
      .next (if (s.grovesOf k).all fun g => (s.grove g).passed then s.finishRound k n else s)
    else if q.delivered = false ∧ cores.any (fun p => (s.core p).stalled) = true ∧
        cores.all (fun p => (s.core p).declared || (s.core p).stalled) = true ∧ s.settled k n = true then
      let s1 := (s.updPart k fun q => { q with roundAsked := true }).stepState k ssRound
      .next ((s1.grovesOf k).foldl (fun t g => (t.passAudit g n).askGrove g n true) s1)
    else .next s

/-! ### Commit: adaptive scales (02_arithmetic.md R69) -/

/-- HEAD_LO for a target format (R75). -/
def headLo (w : Word) (tgt : Nat) : Nat := match tgt with | 0 => fld w 16 4 | 1 => fld w 20 4 | _ => fld w 24 4

/-- Entry words after the commit of a step: S, STREAK, HISTORY_VALID, and the monitors of the committed step (R64). -/
def rescCommit (w0 w1 : Word) (m : Mon) (a : Adapt) : Word × Word :=
  (setFld w0 16 6 a.s,
   setFld (setFld (setFld (setFld w1 27 5 m.peak) 20 7 m.satcnt) 16 4 a.streak) 3 1 (b2n a.history))

/-- The commit of one channel: its entry rewritten; the count of changes, of limits and of unseen channels, and the
saturations, moved on (R69, R77 to R79). -/
structure ScaleSum where
  changed : Nat
  limited : Nat
  unseen : Nat
  sat : Nat
  deriving DecidableEq, Repr

def State.commitChannel (s : State) (k p ch : Nat) (acc : ScaleSum) : State × ScaleSum :=
  let at_ := tableBase + 128 + 8 * ch
  let w0 := s.word p at_
  let w1 := s.word p (at_ + 4)
  let m := Store.get (fun _ => Mon.none) (s.core p).mons ch
  let e := rescOf w0 w1
  let cfg := s.rd (Reg.CORE_RESCALE_ADAPT p)
  let a := if e.adapt then adaptDecide e m (fld cfg 0 7) (headLo cfg e.tgt) (fld cfg 8 4)
    else ⟨e.s, e.streak, e.history, false, false⟩
  let (v0, v1) := rescCommit w0 w1 m a
  let s2 := if v0 = w0 ∧ v1 = w1 then s else s.setNum p at_ 8 (v0.toNat + 2 ^ 32 * v1.toNat)
  let s3 := if a.changed then s2.recEntry k recScale (s.logicalOf p) (ch * 65536 + a.s) else s2
  (s3, ⟨acc.changed + b2n a.changed, acc.limited + b2n a.limited, acc.unseen + b2n (e.adapt && !a.history), acc.sat + m.satcnt⟩)

/-- Every channel of core `p` committed. -/
def State.commitScales (s : State) (k p : Nat) : State :=
  let (s1, t) := (List.range 496).foldl (fun (sa : State × ScaleSum) ch => sa.1.commitChannel k p ch sa.2) (s, ⟨0, 0, 0, 0⟩)
  let s2 := s1.wr (Reg.CORE_RESCALE_STATUS p) (BitVec.ofNat 32 (t.unseen * 65536 + t.changed))
  (s2.count (Reg.CORE_RESCALE_LIMIT p) t.limited).count (Reg.CORE_SAT_TOTAL p) t.sat

/-! ### Commit at a core (R280) -/

/-- The selectors of the integrated blocks flipped (03_neurons.md R85). -/
def Core.flipBlocks (c : Core) : Core := { c with selectors := Nat.xor c.selectors c.blocks, blocks := 0 }

/-- What the step has left in the core's record is done with. -/
def Core.stepOver (c : Core) : Core :=
  { c with openStep := none, spanEnded := false, declared := false, integ := [], mons := [], counts := ⟨0, 0, 0, 0, 0, 0⟩,
           ents := [], cut := false, flags := 0 }

/-- Spilled events of the committed step injected with its parity (R288). -/
def State.injectSpills (s : State) (k p n : Nat) : State :=
  let spilled := (s.entriesOf p n).filter fun slot => logState (s.word p (logAt slot)) == lsSpill
  spilled.foldl (fun t slot =>
    let t1 := t.presentEntry p slot n lsSpillSent true
    t1.wr (Reg.STEP_SPILL_PENDING k) (t1.rd (Reg.STEP_SPILL_PENDING k) - 1)) s

/-- The commit of step `n` at core `p` (R280, 03_neurons.md R107, R108). -/
def State.commitCore (s : State) (k n p : Nat) : State :=
  let c := s.core p
  let s1 := (s.updCore p Core.flipBlocks).commitScales k p
  let s2 := (s1.wr (Reg.NEU_LAST p) (BitVec.ofNat 32 (c.counts.fired * 65536 + c.counts.integrated))).wr (Reg.NEU_LAST_STEP p)
    (BitVec.ofNat 32 n)
  let s3 := (((s2.count (Reg.NEU_OVERDRIVE p) c.counts.overdrive).count (Reg.NEU_VSAT p) c.counts.vsat).count
    (Reg.NEU_RIN_SLOTS p) c.counts.rinSlots).count (Reg.NEU_RIN_MAG p) c.counts.rinMag
  let s4 := (s3.updCore p Core.stepOver).keepLog p fun e =>
    e.step == (n + 1) % 2 ^ 32 || (e.step == n && logState (s3.word p (logAt e.slot)) == lsSpill)
  (((s4.injectSpills k p n).resumeEmit p).idleNeurons p).wf' (Reg.INT_CORE_STATUS p) 31 1 0

/-! ### Fences at a commit (10_integrity.md R365) -/

/-- A core with a third strike gives its role to the lowest SAPLING, reserved from this commit; without one the logical
id is left unmapped and the grove takes a grove-wide fault (01_organisation.md R28). The second answer names a grove
left so. -/
def State.fenceAtCommit (s : State) (k p : Nat) : State × Option Nat :=
  let g := p / 144
  let l := s.logicalOf p
  let s1 := s.updCore p fun c => { c with fencePending := false }
  match s.sapling g with
  | some q =>
    let s2 := ((s1.wakeCore q).updGrove g fun v => { v with reserved := v.reserved ++ [(p, q)] }).recEntry k recFence l (q % 2 ^ 14 * 2 ^ 14 + p % 2 ^ 14)
    (s2.report fltFence { part := some k, step := (s.part k).openStep, core := some p, logical := some l, grove := some g, detail := [3, q] }, none)
  | none =>
    let s2 := s1.recEntry k recFence l (0x3FFF * 2 ^ 14 + p % 2 ^ 14)
    let s3 := s2.report fltFence { part := some k, step := (s.part k).openStep, core := some p, logical := some l, grove := some g, detail := [3, 0x3FFF] }
    ((((s3.unmap l).setRole p roleFenced 0).mapEvent).noteSaplings g, some g)

/-- Every fence that falls due at this commit. -/
def State.fencesAtCommit (s : State) (k : Nat) : State × List Nat :=
  ((s.coresOfPart k).filter fun p => (s.core p).fencePending).foldl (fun (sg : State × List Nat) p =>
    let (t, g) := sg.1.fenceAtCommit k p
    (t, match g with | some g => sg.2 ++ [g] | none => sg.2)) (s, [])

/-! ### The step record (R281) -/

/-- An entry of a step record as 8 bytes. -/
def RecEnt.bytes (e : RecEnt) : List Byte :=
  toBytes 8 (e.kind % 16 * 2 ^ 60 + e.logical % 2 ^ 13 * 2 ^ 32 + e.body % 2 ^ 32)

/-- The step record of step `n`, padded to whole units. `dur` is STEP_LAST_NS. -/
def State.stepRecord (s : State) (k n dur : Nat) : List Byte :=
  let q := s.part k
  let ents := q.recEnts.take 65535
  let stretched := s.pendingFire k && q.overrun && !q.cut
  let flags := b2n stretched + 2 * b2n q.cut + 4 * b2n q.heldFlag + 8 * b2n (decide (0 < q.rounds))
    + 16 * b2n (decide (65535 < q.recEnts.length)) + 32 * b2n q.earlyRetract
  let head := toBytes 4 n ++ toBytes 2 ents.length ++ toBytes 1 flags ++ toBytes 1 (min 255 q.mergedOpen)
    ++ toBytes 8 (s.rd64 (Reg.STEP_OPEN_PTB_LO k)) ++ toBytes 8 (s.rd64 (Reg.STEP_OPEN_REF_LO k)) ++ toBytes 4 dur
    ++ toBytes 4 q.spilled
  let body := head ++ ents.flatMap RecEnt.bytes
  body ++ List.replicate ((32 - body.length % 32) % 32) 0

/-- One record written to the partition's ring: one that does not fit before the end starts again at the beginning, and
each pass through the end is counted. A record longer than the ring is lost (DESIGN CHOICE). -/
def State.ringRecord (s : State) (k : Nat) (bs : List Byte) : State :=
  let size := 2 ^ s.rf (Reg.STEP_REC_SIZE k) 0 5
  let units := bs.length / 32
  if size < units then s.count (Reg.STEP_REC_LOST k) 1
  else
    let h0 := (s.rd (Reg.STEP_REC_HEAD k)).toNat
    let (h, s1) := if size < h0 + units then (0, s.count (Reg.STEP_REC_WRAPS k) 1) else (h0, s)
    let s2 := s1.hbmWrite (32 * ((s1.rd (Reg.STEP_REC_BASE k)).toNat + h)) bs
    let h' := h + units
    if h' = size then (s2.count (Reg.STEP_REC_WRAPS k) 1).wr (Reg.STEP_REC_HEAD k) 0
    else s2.wr (Reg.STEP_REC_HEAD k) (BitVec.ofNat 32 h')

/-- Bytes a partition's record queue holds. -/
def recQueueBytes : Nat := 16384

/-- The queue written out while its stack is READY. -/
def State.drainRecords (s : State) (k : Nat) : State :=
  if s.stackState (32 * (s.rd (Reg.STEP_REC_BASE k)).toNat / stackBytes) = 2 then
    (s.part k).recQ.foldl (fun t bs => t.ringRecord k bs) (s.updPart k fun q => { q with recQ := [] })
  else s

/-- The record of a committed step queued, or lost from a full queue, and the queue drained (R281). -/
def State.queueRecord (s : State) (k : Nat) (bs : List Byte) : State :=
  if s.bit (Reg.STEP_POLICY k) 5 = false then s
  else
    let used := ((s.part k).recQ.map List.length).foldl (· + ·) 0
    if used ≠ 0 ∧ recQueueBytes < used + bs.length then s.count (Reg.STEP_REC_LOST k) 1
    else (s.updPart k fun q => { q with recQ := q.recQ ++ [bs] }).drainRecords k

/-! ### Commit (R280) -/

/-- A READ_NEURONS of the partition is being served, between two commits (03_neurons.md R100). -/
def State.readingNeurons (s : State) (k : Nat) : Bool :=
  s.net.any fun f => match f.body with | .loadRead _ target kind _ _ _ => kind == 1 && s.holds k (target / 144) | _ => false

/-- Every grove of the partition has passed, its earlier pass of learning is finished, and no read-back is under way. -/
def State.mayCommit (s : State) (k : Nat) : Bool :=
  let q := s.part k
  s.pstate k == psRunning && q.openStep.isSome && q.delivered && !q.roundAsked &&
    ((s.grovesOf k).all fun g => (s.grove g).passed && !((s.grove g).plsPass)) && !(s.readingNeurons k)

/-- The groves of the partition commit step `n` (R279, R299). -/
def State.commitGrove (s : State) (n g : Nat) : State :=
  let s1 := s.updGrove g fun v => { v with passed := false, asked := none, reports := [], held := false, heldCount := false, finding := 0 }
  (s1.wf' (Reg.STEP_GROVE_STATUS g) 30 2 0).wr (Reg.STEP_GROVE_COMMITTED g) (BitVec.ofNat 32 n)

/-- The partition's commit of step `n` takes effect (R280). -/
def State.commitStep (s : State) (k n : Nat) : State :=
  let dur := min 0xFFFFFFFF (s.ref - s.rd64 (Reg.STEP_OPEN_REF_LO k))
  let s1 := (s.coresOfPart k).foldl (fun t p => t.commitCore k n p) s
  let s2 := ((s1.grovesOf k).foldl (fun t g => t.commitGrove n g) s1).plsCommit k n
  let (s3, unmapped) := s2.fencesAtCommit k
  let s4 := ((s3.wr (Reg.STEP_COMMITTED k) (BitVec.ofNat 32 n)).wr (Reg.STEP_LAST_NS k) (BitVec.ofNat 32 dur)).queueRecord k
    (s3.stepRecord k n dur)
  let s5 := (List.range 8).foldl (fun t a => t.releaseAtt a k n) s4
  let s6 := (s5.releasePort 0 k n).releasePort 1 k n
  let s7 := s6.weightDigests k
  let s8 := ((s7.updPart k fun q => { q with
    openStep := none, closed := false, delivered := false, spillOut := decide (0 < q.spilled), spilled := 0, recEnts := [] }).stepState k ssWaiting).haltNow k
  unmapped.foldl (fun t g => t.groveWide g 3) s8

/-- PARTITION_COMMIT: every grove has committed and the partition commits its step (R279, R280). -/
def execPartitionCommit (k : Nat) (s : State) : Host.Outcome State Fault Refusal :=
  match s.mayCommit k, (s.part k).openStep with
  | true, some n => .next (s.commitStep k n)
  | _, _ => .next s

end Sys2Proof.Machine
end

