-- ==== Sys2Proof/Machine/Enable.lean ====
section
/-! DEFINITION. Enabling and disabling a partition (11_host_interface.md R412, R416) with the enable actions of every
chapter. -/
namespace Sys2Proof.Machine

/-! ### Enable actions -/

/-- HISTORY_VALID, STREAK, SATCNT and PEAK of every Rescale Table entry of core `p` cleared (02_arithmetic.md R66): only
entries that hold something change. -/
def State.clearMonitors (s : State) (p : Nat) : State :=
  (List.range 496).foldl (fun t c =>
    let a := tableBase + 128 + 8 * c + 4
    let w := t.word p a
    let w' := setFld (setFld w 3 1 0) 16 16 0
    if w' = w then t else t.setWord p a w') s

/-- Bytes of local memory from `off` on cleared, and the poison of their words (03_neurons.md R91; 10_integrity.md R347). -/
def State.clearBytes (s : State) (p off n : Nat) : State :=
  let lo := memKey p off
  s.memClear fun k => decide (lo ≤ k) && decide (k < lo + n)

/-- Every ring slot of core `p` cleared: the bytes after the two copies of each lane-neuron (03_neurons.md R91). -/
def State.clearRings (s : State) (p : Nat) : State :=
  let gs := s.grps p
  let lo := memKey p 0
  let ring (k : Nat) : Bool :=
    decide (lo ≤ k) && gs.any fun g =>
      let b := lo + neuronBase + g.area
      let n := laneBytes g.depth
      decide (b ≤ k) && decide (k < b + g.lanes * g.n * n) && decide (16 ≤ (k - b) % n)
  { s with mem := Store.clearAll ring s.mem }

/-- Blocks that enabled groups of core `p` own. -/
def State.usedBlocks (s : State) (p : Nat) : Nat := ((s.grps p).map fun g => g.lanes * g.nblk).foldl (· + ·) 0

/-- The enable of one core (02_arithmetic.md R66, 03_neurons.md R91, R106, 06_core_messaging.md R222, 08_step_commit.md
R269, 10_integrity.md R351, 13_memory_power.md R460): only its selectors, its scrub pointer and its test times stay. -/
def State.enableCore (s : State) (k p : Nat) : State :=
  let s1 := (((s.clearMonitors p).clearBytes p 0 0x3000).clearRings p).clearBytes p logBase 0x4000
  let used := s1.neuronBytes p
  let s2 := ((s1.wr (Reg.NEU_AREA p) (BitVec.ofNat 32 (s1.usedBlocks p * 2 ^ 24 + used))).wf' (Reg.MEM_LAYOUT p) 0 18
    (neuronBase + (used + 15) / 16 * 16)).emptyQueues p
  let s3 := (s2.wr (Reg.HDL_STATUS p) 0).hdlState p (if s2.bit (Reg.HDL_CTRL p) 0 then hsIdle else hsHalted)
  let s4 := (s3.wr64 (Reg.HDL_PART_GROVES_LO p) (s3.rd64 (Reg.HIF_PART_GROVES_LO k))).updCore p fun c => { c.abandon with
    log := [], sums := [], touched := [], fencePending := false, respLast := 0, lastDispatch := 7, lastWaitq := 7,
    wdigPos := 0, wdigRun := 0, wdigMarks := [], wdigLast := [], wdigBase := [], wdigNew := false }
  let s6 := (s4.wf' (Reg.CORE_EMIT_STATUS p) 0 13 0).wf' (Reg.CORE_EMIT_STATUS p) 31 1 0
  (s6.wf' (Reg.INT_DIG_STATUS p) 31 1 0).wf' (Reg.INT_CORE_STATUS p) 31 1 0

/-- The lines of an area loaded into the cache of grove `g` (04_synapses_dense.md R130): a line not there is read from its
stack, and one that gives way to it is evicted. Hits and misses count the reads of the grove memory unit's work, not these (DESIGN
CHOICE). -/
def State.loadLines (s : State) (g : Nat) (a : Area) : State :=
  (List.range (a.2 / 128)).foldl (fun t i =>
    let ln := a.1 / 128 + i
    let set := Store.get (fun _ => []) (t.grove g).cache (gcSet ln)
    let put (u : State) (rest : List Nat) : State :=
      u.updGrove g fun v => { v with cache := Store.set (fun _ => []) v.cache (gcSet ln) (ln :: rest) }
    if set.contains ln then put t (set.filter (· != ln))
    else
      let t1 := t.hbmRead (128 * ln) 128
      if set.length < 16 then put t1 set
      else match set.reverse.find? fun l => !(s.pinned g l) with
        | some out => (put t1 (set.filter (· != out))).count (Reg.MEM_GC_EVICT g) 1
        | none => put t1 set) s

/-- Lines that the enabled ranges of a grove pin. A line in two ranges counts in both (DESIGN CHOICE: R130 and R152 do not say what
PINNED shows where ranges overlap). -/
def State.pinLines (s : State) (g : Nat) : Nat := ((s.pinAreas g).map fun x => x.2.2 / 128).foldl (· + ·) 0

/-- DENSE streams that a grove reserves (04_synapses_dense.md R132). -/
def State.denseCount (s : State) (g : Nat) : Nat :=
  ((s.activeCores g).map fun p => ((s.opsOf p).filter (·.2.stream)).length).foldl (· + ·) 0

/-- The strike records of core `p` cleared, where it has any (10_integrity.md R364). -/
def State.clearStrikes (s : State) (p : Nat) : State :=
  if s.rf (Reg.INT_CORE_STATUS p) 0 2 = 0 then s
  else ((s.wf' (Reg.INT_CORE_STATUS p) 0 2 0).wr (Reg.INT_STRIKE_STEP0 p) 0).wr (Reg.INT_STRIKE_STEP1 p) 0

/-- The enable of one grove: parity counters, pinned lines and streams, digest baselines, collectors
(04_synapses_dense.md R130, R132, 05_fabric.md R176, 10_integrity.md R351), and the strike records of all its cores (R364). -/
def State.enableGrove (s : State) (g : Nat) : State :=
  let s1 := (List.range 4).foldl (fun t p =>
    (((t.wr (Reg.FAB_PC_INJ g p) 0).wr (Reg.FAB_PC_EJ g p) 0).wr (Reg.FAB_PC_XOUT g p) 0).wr (Reg.FAB_PC_XIN g p) 0) s
  let s2 := (s1.pinAreas g).foldl (fun t x => t.loadLines g x.2) s1
  let s3 := (s2.wf' (Reg.MEM_GC_STATUS g) 0 15 (s2.pinLines g)).wf' (Reg.MEM_PF_STATUS g) 16 9 (s2.denseCount g)
  ((coresOf g).foldl State.clearStrikes s3).updGrove g fun v => { v with
    reports := [], asked := none, passed := false, held := false, heldCount := false, stopped := false, hbmOut := [], auditOwed := false, auditStep := none,
    wdigAt := 0, wdigPos := 0, wdigRun := 0, wdigMarks := [], wdigNew := false, wdigVals := [], wdigBases := [] }

/-- The sequencer of partition `k` at its enable (08_step_commit.md R269). -/
def State.enableSeq (s : State) (k : Nat) : State :=
  let s1 := s.updPart k fun v => { v with
    openStep := none, fires := 0, overrun := false, merged := 0, mergedOpen := 0, faults := [], closed := false,
    delivered := false, cut := false, heldFlag := false, stretched := false, rounds := 0, roundAsked := false,
    earlyRetract := false, spilled := 0, spillOut := false, recEnts := [], clearing := (match v.clearing with | .pending => .pending | _ => .none), applying := 0, endAsked := false,
    stopAsked := none }
  let s2 := (s1.wr (Reg.STEP_COMMITTED k) (s1.rd (Reg.STEP_START k) - 1)).wr (Reg.STEP_SPILL_PENDING k) 0
  let s3 := (List.range 10).foldl (fun t e => (List.range 4).foldl (fun t p => t.setEpX e k p 0) t) s2
  s3.wr (Reg.STEP_STATE k) (BitVec.ofNat 32 (ssWaiting * 2 ^ 28))

/-- The enable actions of every chapter (R412). Staged tables and exclusions take effect first (05_fabric.md R183). -/
def State.enableActions (s : State) (k : Nat) : State :=
  let s1 := ((s.swapTables k).applyExclude k).endForwards s.canChanged
  let s2 := (s1.coresOfPart k).foldl (fun t p => t.enableCore k p) s1
  let s3 := (s2.grovesOf k).foldl State.enableGrove s2
  -- a clearing that runs ends with the enable; one that waits for a boundary still does (DESIGN CHOICE)
  let s4 := if (s3.part k).clearing = .pending then s3 else (s3.clearResult k crIdle 0).resumeInjection k
  ((s4.enableSeq k).plsEnable k).wf' (Reg.HIF_PART_STATUS k) 29 3 psRunning

/-! ### The check -/

/-- Every LOADER bank of the cores of a partition handed back to CORE (13_memory_power.md R469). -/
def State.loaderBack (s : State) (k : Nat) : State :=
  ((s.grovesOf k).flatMap coresOf).foldl (fun t p =>
    (List.range 16).foldl (fun t b => if t.nextOwner p b = ownLoader then t.handBank p b ownCore else t) t) s

/-- A write of ENABLE: the check starts where STATE is DISABLED or REFUSED (R412). -/
def State.startCheck (s : State) (k : Nat) : State :=
  if s.pstate k = psDisabled ∨ s.pstate k = psRefused then
    ((s.wf' (Reg.HIF_PART_STATUS k) 29 3 psChecking).updPart k fun v => { v with checkStart := s.ref }).loaderBack k
  else s

/-- HDL_CHECK of the cores and PLS_GRV_STATUS.CAUSE of the groves of a partition as the check found them
(06_core_messaging.md R227, 09_plasticity.md R331). -/
def State.showChecks (s : State) (k : Nat) : State :=
  let s1 := (s.coresOfPart k).foldl (fun t p =>
    match (if s.bit (Reg.HDL_CTRL p) 0 then s.hdlFail p else none) with
    | some (c, i) => t.wr (Reg.HDL_CHECK p) (BitVec.ofNat 32 (2 ^ 31 + c * 2 ^ 24 + i))
    | none => t.wr (Reg.HDL_CHECK p) 0) s
  if s.fuses.pls then (s.grovesOf k).foldl (fun t g => t.wf' (Reg.PLS_GRV_STATUS g) 24 4 (s.plsCause k g)) s1 else s1

/-- REASON and DETAIL shown (R421). -/
def State.partResult (s : State) (k reason detail : Nat) : State :=
  s.wr (Reg.HIF_PART_RESULT k) (BitVec.ofNat 32 (reason * 2 ^ 24 + detail % 2 ^ 24))

/-- ENABLE_CHECK_DONE: the check of partition `k` ends (R412, R413). -/
def execEnableCheckDone (k : Nat) (s : State) : Host.Outcome State Fault Refusal :=
  if 64 ≤ k ∨ s.pstate k ≠ psChecking then .next s
  else
    let s1 := (s.showChecks k).wr (Reg.HIF_PART_CHECK_NS k) (BitVec.ofNat 32 (s.ref - (s.part k).checkStart))
    match s.enableCheck k with
    | some (r, d) => .next ((s1.partResult k r d).wf' (Reg.HIF_PART_STATUS k) 29 3 psRefused)
    | none => .next ((s1.partResult k 0 0).enableActions k)

/-! ### Writes of HIF_PART_CTRL -/

/-- A write of DISABLE (R416). During an apply it waits for the apply to complete (09_plasticity.md R326). -/
def State.disable (s : State) (k : Nat) : State :=
  if s.pstate k = psChecking then (s.partResult k 0 0).setDisabled k
  else if s.pstate k = psStopped then (s.stopEffects k).endDisable k
  else if s.pstate k ≠ psRunning then s
  else if (s.part k).applying ≠ 0 then
    s.updPart k fun v => { v with stopAsked := some (match v.stopAsked with | some q => q.1 | none => scDisabled, true) }
  else s.disableNow k

/-- A write of `v` to HIF_PART_CTRL of partition `k`: one that sets both ENABLE and DISABLE is ignored (R412, R416). -/
def State.partCtrl (s : State) (k : Nat) (v : Word) : State :=
  if tst v 31 then (if tst v 30 then s else s.startCheck k) else if tst v 30 then s.disable k else s

/-- PARTITION_ENABLE: attachment `a` writes HIF_PART_CTRL of partition `k` with ENABLE = 1; `v` gives the other bits
(R412). -/
def execPartitionEnable (a k : Nat) (v : Word) (s : State) : Host.Outcome State Fault Refusal :=
  if k < 64 then .next (s.guard a (Reg.HIF_PART_CTRL k) fun t => t.partCtrl k (v ||| 0x80000000)) else .next s

/-- PARTITION_DISABLE: attachment `a` writes HIF_PART_CTRL of partition `k` with DISABLE = 1; `v` gives the other bits
(R416). -/
def execPartitionDisable (a k : Nat) (v : Word) (s : State) : Host.Outcome State Fault Refusal :=
  if k < 64 then .next (s.guard a (Reg.HIF_PART_CTRL k) fun t => t.partCtrl k (v ||| 0x40000000)) else .next s

end Sys2Proof.Machine
end

