-- ==== Sys2Proof/Machine/Management.lean ====
section
/-! DEFINITION. Emetur requests: messages, parties and authentication, status, notices and their delivery
(14_management_security.md R486 to R491, R499 to R505). -/
namespace Sys2Proof.Machine

/-! ### Results (R499) -/

def emOk : Nat := 0
def emBadFormat : Nat := 1
def emNotAuthorised : Nat := 2
def emSignature : Nat := 3
def emReplay : Nat := 4
def emSameParty : Nat := 5
def emBusy : Nat := 6
def emFull : Nat := 7
def emNoStage : Nat := 8
def emExpired : Nat := 9
def emDigestMismatch : Nat := 10
def emInvalid : Nat := 11
def emEnabled : Nat := 12
def emInUse : Nat := 13
def emDevcfgRefused : Nat := 14
def emLifecycle : Nat := 15
def emTampered : Nat := 16
def emFlashError : Nat := 17

/-! ### Opcodes (R489) and parties (R486) -/

def opGetStatus : Nat := 0x0001
def opGetRecords : Nat := 0x0002
def opStage : Nat := 0x0010
def opConfirm : Nat := 0x0011
def opCancel : Nat := 0x0012
def opReadStage : Nat := 0x0013
def opDevcfg : Nat := 0x0020
def opPatternPush : Nat := 0x0030
def opLifecycle : Nat := 0x0040
def opReadCoreMem : Nat := 0x0050
def opMgmtNet : Nat := 0x0060

/-- Opcodes that R489 lists. -/
def emOpcodes : List Nat :=
  [opGetStatus, opGetRecords, opStage, opConfirm, opCancel, opReadStage, opDevcfg, opPatternPush, opLifecycle,
   opReadCoreMem, opMgmtNet]

def partyAgent : Nat := 8
def partyNone : Nat := 9
def pathSmbus : Nat := 8
def pathSgmii : Nat := 9

def lcBlank : Nat := 0
def lcProvisioned : Nat := 1
def lcField : Nat := 2
def lcFieldOpen : Nat := 3
def lcReturned : Nat := 4

/-! ### Messages (R488) -/

/-- `n` bytes at `off` of a message as a number. -/
def emNum (msg : List Byte) (off n : Nat) : Nat := ofBytes ((msg.drop off).take n)
def emOpcode (msg : List Byte) : Nat := emNum msg 4 2
def emCounter (msg : List Byte) : Nat := emNum msg 8 8
def emNonce (msg : List Byte) : Nat := emNum msg 16 4
def emSigned (msg : List Byte) : Bool := emNum msg 7 1 % 2 == 1
/-- Bytes of signatures at the end: one of 96, two in a LIFECYCLE request (R516). -/
def emSigLen (msg : List Byte) : Nat := if emSigned msg then (if emOpcode msg = opLifecycle then 192 else 96) else 0
/-- Bytes from byte 0 to the end of the payload: what the first signature covers (R490). -/
def emBody (msg : List Byte) : List Byte := msg.take (msg.length - emSigLen msg)
def emPayload (msg : List Byte) : List Byte := (emBody msg).drop 24
/-- The agent's signature, and the second one. -/
def emSig1 (msg : List Byte) : List Byte := (msg.drop (emBody msg).length).take 96
def emSig2 (msg : List Byte) : List Byte := (msg.drop ((emBody msg).length + 96)).take 96

/-- The header of a request is well formed (R488, R489): version, length, zero fields, a listed opcode; only a network
message is signed, and only a signed one carries a boot nonce. -/
def emFormed (mailbox : Bool) (msg : List Byte) : Bool :=
  decide (24 + emSigLen msg ≤ msg.length) && decide (msg.length ≤ 1448) && emNum msg 2 2 == msg.length
    && emNum msg 0 1 == 1 && emNum msg 6 1 == 0 && decide (emNum msg 7 1 < 2) && emNum msg 20 4 == 0
    && emOpcodes.contains (emOpcode msg) && (emSigned msg || emNonce msg == 0) && !(mailbox && emSigned msg)

/-- The row of the command table that a message belongs to: its opcode, or GET_STATUS for a message that no row names, which
is answered BAD_FORMAT (DESIGN CHOICE: the command that carries it). -/
def emRow (msg : List Byte) : Nat :=
  if 6 ≤ msg.length ∧ emOpcodes.contains (emOpcode msg) = true then emOpcode msg else opGetStatus

/-! ### Notices (R504, R505) -/

def noticeProtChange : Nat := 1
def noticeStageExpired : Nat := 2
def noticeTamper : Nat := 3
def noticeDebugOpened : Nat := 4
def noticeDebugLockout : Nat := 5
def noticeLifecycle : Nat := 6
def noticePatternSet : Nat := 7
def noticeDevcfg : Nat := 8

def State.bootNonce (s : State) : Nat := (s.rd Reg.MGT_BOOT_NONCE).toNat
def State.updMgt (s : State) (f : Mgt → Mgt) : State := { s with mgt := f s.mgt }

/-- Notices that wait (R505). -/
def noticeQueueLen : Nat := 16

/-- A notice with the values of keys 1 onward. One that finds its queue full is lost and still consumes its number. -/
def State.notice (s : State) (code : Nat) (vals : List Nat) : State :=
  let seq := s.mgt.noticeSeq + 1
  let n : Notice_ := ⟨code, cborMap (vals.zipIdx.map fun v => (v.2 + 1, cborUint v.1)), seq, s.ref⟩
  let s1 := s.updMgt fun m => { m with noticeSeq := seq }
  if s.mgt.notices.length < noticeQueueLen then
    ((s1.updMgt fun m => { m with notices := m.notices ++ [n] }).wf' Reg.MGT_QUEUES 0 5 (s.mgt.notices.length + 1)).toCollectors
      (noticeMsg s.bootNonce n)
  else s1

/-- Every queued message sent again to both collectors. -/
def State.resendAll (s : State) : State :=
  let s1 := s.sigs.foldl (fun t r => t.toCollectors (recordMsg t.fuses.deviceId t.bootNonce r)) s
  s1.mgt.notices.foldl (fun t n => t.toCollectors (noticeMsg t.bootNonce n)) s1

/-- REPORT_RESEND: each unacknowledged record and notice is sent again every 100 ms (R505). -/
def execReportResend (s : State) : Host.Outcome State Fault Refusal :=
  if s.pins.sysRstN = true ∧ s.mgt.resendAt ≤ s.ref then
    .next (s.resendAll.updMgt fun m => { m with resendAt := s.ref + 100000000 })
  else .next s

/-- The oldest queued messages, records and notices together; of two formed at one time the record first (DEDUCED). -/
def oldestMsgs (deviceId nonce : Nat) : Nat → List Sig → List Notice_ → List (List Byte)
  | 0, _, _ => []
  | _ + 1, [], [] => []
  | n + 1, r :: rs, [] => recordMsg deviceId nonce r :: oldestMsgs deviceId nonce n rs []
  | n + 1, [], v :: vs => noticeMsg nonce v :: oldestMsgs deviceId nonce n [] vs
  | n + 1, r :: rs, v :: vs =>
    if r.ref ≤ v.at_ then recordMsg deviceId nonce r :: oldestMsgs deviceId nonce n rs (v :: vs)
    else noticeMsg nonce v :: oldestMsgs deviceId nonce n (r :: rs) vs

/-! ### Paths -/

def mbIdle : Nat := 0
def mbBusy : Nat := 1
def mbDone : Nat := 2

/-- The request in the mailbox of attachment `a` (R527). -/
def State.mbRequest (s : State) (a : Nat) : List Byte :=
  ((List.range 64).flatMap fun i => toBytes 4 (s.rd (Reg.MGT_MB_REQ a i)).toNat).take (Store.get (fun _ => 0) s.mgt.goLen a)

/-- A mailbox request is over: its result and the length of its response (R527). -/
def State.mbDone (s : State) (a result len : Nat) : State :=
  s.wr (Reg.MGT_MB_STATUS a) (BitVec.ofNat 32 (Machine.mbDone * 2 ^ 30 + result % 256 * 2 ^ 16 + len % 2 ^ 11))

/-- A response to attachment `a`: the words of its mailbox. -/
def State.mbRespond (s : State) (a result : Nat) (rsp : List Byte) : State :=
  let n := (rsp.length + 3) / 4
  ((List.range n).foldl (fun t i => t.wr (Reg.MGT_MB_RSP a i) (BitVec.ofNat 32 (emNum rsp (4 * i) 4))) s).mbDone a result rsp.length

/-- The one response of a request, on the path it came by (R491). It returns the request's COUNTER (R488). -/
def State.emRespond (s : State) (path : Nat) (msg : List Byte) (result : Nat) (payload : List Byte) : State :=
  let rsp := emMessage emResponse (emOpcode msg) result (emCounter msg) 0 payload
  if path < 8 then s.mbRespond path result rsp
  else s.emitOut (.emetur (if path = pathSmbus then 2 else 3) (emTrailer rsp))

/-! ### Authentication (R490) -/

/-- A key as heartwood holds it: zero once wiped (R500, R502). -/
def State.key (s : State) (k : Nat) : Nat := if s.mgt.wiped then 0 else k

/-- The three checks of a signed request, in order; 0 where it passes. RETURNED revokes the agent key (R496). -/
def State.authFail (s : State) (msg : List Byte) : Nat :=
  if emNonce msg ≠ s.bootNonce then emReplay
  else if (match s.mgt.lastCounter with | some c => decide (emCounter msg ≤ c) | none => decide (emCounter msg = 0)) then emReplay
  else if s.fuses.life = lcReturned ∨ Config.verify (s.key s.fuses.agentKey) (emBody msg) (emSig1 msg) = false then emSignature
  else emOk

/-- The party of a well-formed request, or the result that refuses it; a signed request that passes takes its counter, one
that fails is counted (R486, R490). -/
def State.identify (s : State) (path : Nat) (msg : List Byte) : (Except Nat Nat) × State :=
  if path < 8 then (.ok path, s)
  else if s.fuses.life = lcBlank then (.ok partyAgent, s)
  else if emSigned msg = false then (.ok partyNone, s)
  else
    let f := s.authFail msg
    if f = emOk then (.ok partyAgent, s.updMgt fun m => { m with lastCounter := some (emCounter msg) })
    else (.error f, s.count Reg.MGT_AUTH_FAIL 1)

/-- The party may make this request (R489); whether it may cancel, or is eligible for a change, is checked with it. -/
def State.mayAsk (s : State) (party op : Nat) : Bool :=
  if op = opGetStatus then true
  else if op = opGetRecords then decide (8 ≤ party)
  else if op = opDevcfg then party == partyAgent || (decide (party < 8) && s.bit Reg.MGT_DEVCFG_HOSTS party)
  else if op = opStage ∨ op = opConfirm ∨ op = opCancel ∨ op = opReadStage then decide (party ≤ 8)
  else party == partyAgent

/-- Requests that a latched tamper refuses (R503). -/
def tamperRefuses (op : Nat) : Bool :=
  [opStage, opConfirm, opDevcfg, opPatternPush, opLifecycle, opReadCoreMem].contains op

/-- Why a request is refused before its payload is looked at, 0 for no reason: its party (R489), a lifecycle change that
waits for a power-up (R498), a tamper (R503). -/
def State.gate (s : State) (party op : Nat) : Nat :=
  if s.mayAsk party op = false then emNotAuthorised
  else if s.mgt.changed = true ∧ op ≠ opGetStatus ∧ op ≠ opGetRecords then emLifecycle
  else if s.bit Reg.MGT_TAMPER 31 = true ∧ tamperRefuses op = true then emTampered
  else emOk

/-! ### Stopping and wiping (R502) -/

/-- Every enabled partition stops and is disabled (11_host_interface.md R416), an apply in progress or not. -/
def State.disableAll (s : State) : State :=
  s.enabledParts.foldl (fun t k =>
    if t.pstate k = psRunning then t.disableNow k
    else if t.pstate k = psStopped then (t.stopEffects k).endDisable k
    else (t.partResult k 0 0).setDisabled k) s

/-- A register that shows a part of the master protection table (R500). -/
def protCopy (key : Nat) : Bool :=
  match locate key with
  | some (.hif, o) => decide (0x80000 ≤ o) && decide (o < 0x80800) && [0x0C, 0x10, 0x14].contains (o % 0x20)
  | some (.tb, o) => decide (0x2000 ≤ o) && decide (o < 0x3000)
  | some (.evp _, o) => decide (0x400 ≤ o) && decide (o < 0x500)
  | some (.mba, o) => decide (0x2000 ≤ o)
  | some (.mgt, o) => (decide (0x1040 ≤ o) && decide (o < 0x10C0)) || decide (0x3000 ≤ o)
  | _ => false

/-- A wipe of heartwood: partitions stopped first, then the table, slots, counter, nonces and keys zero, and the copies
cleared (R502). The debug lock and count clear only at power-up (R521). -/
def State.wipe (s : State) : State :=
  let s1 := s.disableAll
  let s2 := (List.range 64).foldl (fun t k => t.wf' (Reg.INT_PART_STATUS k) 29 1 0) (s1.resetRegs protCopy)
  (s2.wr Reg.MGT_BOOT_NONCE 0).updMgt fun m => { m with
    lastCounter := none, slots := [], dbgNonce := none, wiped := true }

end Sys2Proof.Machine
end

