-- ==== Sys2Proof/Machine/Protect.lean ====
section
/-! DEFINITION. The two-party protection change (14_management_security.md R506 to R512). -/
namespace Sys2Proof.Machine

/-! ### Change records (R507) -/

def kPartCreate : Nat := 1
def kPartGroves : Nat := 2
def kPartOwner : Nat := 3
def kPartDelete : Nat := 4
def kHostWindow : Nat := 5
def kHbmRegion : Nat := 6
def kGch : Nat := 7
def kTc0Budget : Nat := 8
def kTestLock : Nat := 9
def kCosigner : Nat := 10

/-- A change record read from its 64 bytes. -/
structure Change where
  kind : Nat
  attach : Nat
  part : Nat
  index : Nat
  arg0 : Nat
  arg1 : Nat
  arg2 : Nat
  deriving DecidableEq, Repr

def changeOf (r : List Byte) : Change :=
  ⟨emNum r 0 1, emNum r 1 1, emNum r 2 1, emNum r 3 1, emNum r 4 4, emNum r 8 8, emNum r 16 8⟩

/-- Kinds that name an attachment, a partition, an index and each argument. -/
def usesAttach (k : Nat) : Bool := [kPartCreate, kPartOwner, kHostWindow, kCosigner].contains k
def usesPart (k : Nat) : Bool := !([kHostWindow, kCosigner].contains k)
def usesIndex (k : Nat) : Bool := [kHostWindow, kHbmRegion, kTc0Budget].contains k
/-- Bits of ARG0 that a kind uses. -/
def arg0Mask (k : Nat) : Nat :=
  if k = kHostWindow then 3 else if k = kGch ∨ k = kTc0Budget then 0xFFFFFFFF else if k = kTestLock then 1
  else if k = kCosigner then 0x80000007 else 0
def usesArg1 (k : Nat) : Bool := [kPartCreate, kPartGroves, kHostWindow, kHbmRegion, kGch].contains k
/-- Bits of ARG2 that a kind uses. -/
def arg2Mask (k : Nat) : Nat := if k = kHostWindow ∨ k = kHbmRegion then 2 ^ 64 - 1 else if k = kGch then 1 else 0

/-- A record keeps to the layout and to the ranges of its kind's fields; everything unused is zero (R507). -/
def Change.formed (c : Change) (r : List Byte) : Bool :=
  decide (r.length = 64) && decide (1 ≤ c.kind) && decide (c.kind ≤ 10)
    && decide (c.attach < 8) && decide (c.part < 64) && emNum r 24 40 == 0
    && (usesAttach c.kind || c.attach == 0) && (usesPart c.kind || c.part == 0)
    && (c.kind == kTc0Budget || (if usesIndex c.kind then decide (c.index < 16) else c.index == 0))
    && Nat.land c.arg0 (arg0Mask c.kind) == c.arg0 && (usesArg1 c.kind || c.arg1 == 0)
    && Nat.land c.arg2 (arg2Mask c.kind) == c.arg2
    && (c.kind != kGch || (decide (1 ≤ c.arg1) && decide (c.arg1 ≤ 1024)))
    && (c.kind != kTc0Budget || decide (c.arg0 ≤ 100))

/-! ### Eligible parties (R509) -/

/-- The co-signer of an attachment. -/
def State.cosigner (s : State) (a : Nat) : Option Nat :=
  if s.bit (Reg.MGT_COSIGN a) 31 then some (s.rf (Reg.MGT_COSIGN a) 0 3) else none

/-- An attachment or its co-signer. -/
def State.isOrSigns (s : State) (a party : Nat) : Bool := party == a || s.cosigner a == some party

def State.eligible (s : State) (c : Change) (party : Nat) : Bool :=
  let owner := match s.ownerOf c.part with | some a => s.isOrSigns a party | none => false
  party == partyAgent ||
    (if c.kind = kPartCreate then party == c.attach
     else if c.kind = kHostWindow ∨ c.kind = kCosigner then s.isOrSigns c.attach party
     else if c.kind = kPartOwner then owner || party == c.attach
     else owner)

/-- Two parties that may make a change together: both eligible, different, and ATTACH among them for PART_OWNER; 0, or
the result that refuses the second. -/
def State.pairFail (s : State) (c : Change) (stager party : Nat) : Nat :=
  if s.eligible c party = false then emNotAuthorised
  else if party = stager then emSameParty
  else if c.kind = kPartOwner ∧ stager ≠ c.attach ∧ party ≠ c.attach then emNotAuthorised
  else emOk

/-! ### Conditions (R507) -/

def State.exists_ (s : State) (k : Nat) : Bool := (s.ownerOf k).isSome
/-- A grove of bitmap `m` that a partition other than `k` holds. -/
def State.groveTaken (s : State) (k m : Nat) : Bool :=
  (ones 64 m).any fun g => match s.partOf g with | some q => q != k | none => false

/-- The window an attachment would have after a change (R529). -/
def State.setWindow (s : State) (a w base size perm : Nat) : State :=
  let s1 := s.wr (Reg.MGT_WIN_CFG a w) (if size = 0 then 0 else BitVec.ofNat 32 (2 ^ 31 + perm % 4))
  (s1.wr64 (Reg.MGT_WIN_BASE_LO a w) (if size = 0 then 0 else base)).wr64 (Reg.MGT_WIN_SIZE_LO a w) size

/-- Every enabled ring of an attachment, and both pages while SCAN_EN is 1, lie within its windows. -/
def State.windowsHold (s : State) (a : Nat) : Bool :=
  let ring (kind : RingKind) (r : Nat) : Bool :=
    let b := ringBase a kind r
    !(s.bit b 31) || s.inWindow a (ringPerm kind) (s.ringAddr b) (s.ringSize b * ringEntry kind)
  ([RingKind.command, RingKind.completion, RingKind.egress].all fun kind => (List.range (ringCount kind)).all (ring kind)) &&
    (!(s.bit (Reg.HIF_ATT_CTRL a) 0) ||
      (s.inWindow a permRead (s.rd64 (Reg.HIF_DB_BASE_LO a)) 4096 && s.inWindow a permWrite (s.rd64 (Reg.HIF_SHADOW_BASE_LO a)) 4096))

/-- Conditions of the kinds that change an existing partition: it exists, and is DISABLED or REFUSED. -/
def State.idlePart (s : State) (k : Nat) : Nat :=
  if s.exists_ k = false then emInvalid else if s.enabled k then emEnabled else emOk

/-- Per mille of port `e` that partitions other than `k` hold. -/
def State.budgetOthers (s : State) (e k : Nat) : Nat :=
  ((List.range 64).map fun q => if q = k then 0 else s.rf (Reg.EVP_TC0_BUDGET e q) 0 7).foldl (· + ·) 0

/-- The conditions of a change against the present state: 0, or the result of the first that fails. -/
def State.changeFail (s : State) (c : Change) : Nat :=
  let k := c.part
  match c.kind with
  | 1 => if s.exists_ k = true ∨ (s.att c.attach).present = false ∨ s.groveTaken 64 c.arg1 = true then emInvalid else emOk
  | 2 => if s.idlePart k ≠ emOk then s.idlePart k else if s.groveTaken k c.arg1 then emInvalid else emOk
  | 3 =>
    if s.idlePart k ≠ emOk then s.idlePart k
    else if (s.att c.attach).present = false ∨ s.ownerOf k = some c.attach then emInvalid else emOk
  | 4 => s.idlePart k
  | 5 =>
    if c.arg1 % 4096 ≠ 0 ∨ c.arg2 % 4096 ≠ 0 ∨ 2 ^ 64 < c.arg1 + c.arg2 then emInvalid
    else if (s.setWindow c.attach c.index c.arg1 c.arg2 c.arg0).windowsHold c.attach = false then emInUse else emOk
  | 6 =>
    let other (q : Nat) : Bool := q != k && (s.hbmRegions q).any fun r => meets r (c.arg1, c.arg2)
    if c.arg1 % 65536 ≠ 0 ∨ c.arg2 % 65536 ≠ 0 ∨ hbmSpace < c.arg1 + c.arg2 ∨ (List.range 64).any other = true then emInvalid
    else if s.enabled k then emEnabled else emOk
  | 7 =>
    let chans := (List.range c.arg1).map (c.arg0 + ·)
    if 1024 < c.arg0 + c.arg1 then emInvalid
    else if (if c.arg2 % 2 = 1 then chans.any fun i => s.bit (Reg.TB_GCH_OWNER i) 31
             else chans.any fun i => s.rd (Reg.TB_GCH_OWNER i) != BitVec.ofNat 32 (2 ^ 31 + k)) = true then emInvalid
    else if s.enabled k then emEnabled else emOk
  | 8 =>
    if s.fuses.hasDom (.evp c.index) = false ∨ 100 < s.budgetOthers c.index k + c.arg0 then emInvalid
    else if s.enabled k then emEnabled else emOk
  | 9 => if s.exists_ k then emOk else emInvalid
  | 10 => if c.arg0 / 2 ^ 31 % 2 = 1 ∧ c.arg0 % 8 = c.attach then emInvalid else emOk
  | _ => emBadFormat

/-! ### Applying a change (R512, 13_memory_power.md R475) -/

/-- A grove joins a partition: its sync/cache domain, its plasticity engine and the core domains of its ACTIVE and SAPLING
cores go ON. -/
def State.joinGrove (s : State) (g : Nat) : State :=
  let s1 := (s.powerOn (.sync g)).powerOn (.pls g)
  ((coresOf g).filter fun p => s.role p == roleActive || s.role p == roleSapling).foldl (fun t p => t.wakeCore p) s1

/-- A grove leaves its partition: the core domains of its cores go OFF, a FENCED core's apart, whose memory stays readable
(R475, R523; DEDUCED); its plasticity engine and sync/cache domain go OFF unless R474 refuses it. -/
def State.leaveGrove (s : State) (g : Nat) : State :=
  let cores := (coresOf g).filter fun p => s.role p != roleDefect && s.role p != roleFenced
  let s1 := cores.foldl (fun t p => (t.askDown (.logic p) 2).askDown (.mem p) 2) s
  (s1.autoOff (.pls g)).autoOff (.sync g)

/-- Groves of partition `k` made those of bitmap `m`. -/
def State.setGroves (s : State) (k m : Nat) : State :=
  let old := s.rd64 (Reg.HIF_PART_GROVES_LO k)
  let s1 := s.wr64 (Reg.HIF_PART_GROVES_LO k) m
  let s2 := ((ones 64 m).filter fun g => old / 2 ^ g % 2 == 0).foldl State.joinGrove s1
  ((ones 64 old).filter fun g => m / 2 ^ g % 2 == 0).foldl State.leaveGrove s2

/-- A TC0 bucket full at its new depth (R512). -/
def State.fillBucket (s : State) (e k : Nat) : State :=
  s.updPort e fun v => { v with inUsed := Store.set (fun _ => 0) v.inUsed k 0, outUsed := Store.set (fun _ => 0) v.outUsed k 0 }

/-- A partition deleted: its groves leave it, its regions, channels, budgets and test unlock are freed (R512). -/
def State.deletePart (s : State) (k : Nat) : State :=
  let groves := s.grovesOf k
  let s1 := ((s.wr (Reg.HIF_PART_OWNER k) 0).wr64 (Reg.HIF_PART_GROVES_LO k) 0).wr (Reg.HIF_PART_STATUS k) 0
  let s2 := groves.foldl State.leaveGrove s1
  let s3 := (List.range 16).foldl (fun t r =>
    (t.wr (Reg.MGT_HBM_REGION_BASE (16 * k + r)) 0).wr (Reg.MGT_HBM_REGION_SIZE (16 * k + r)) 0) s2
  let s4 := (s.globalsOf k).foldl (fun t c => t.wr (Reg.TB_GCH_OWNER c) 0) s3
  ((s4.wr (Reg.EVP_TC0_BUDGET 0 k) 0).wr (Reg.EVP_TC0_BUDGET 1 k) 0).wf' (Reg.INT_PART_STATUS k) 29 1 0

/-- What a change writes. -/
def State.applyKind (s : State) (c : Change) : State :=
  let k := c.part
  let owned := BitVec.ofNat 32 (2 ^ 31 + c.attach)
  match c.kind with
  | 1 => (((s.wr (Reg.HIF_PART_OWNER k) owned).wr (Reg.HIF_PART_STATUS k) 0).wr (Reg.HIF_PART_RESULT k) 0).setGroves k c.arg1
  | 2 => s.setGroves k c.arg1
  | 3 => s.wr (Reg.HIF_PART_OWNER k) owned
  | 4 => s.deletePart k
  | 5 => s.setWindow c.attach c.index c.arg1 c.arg2 c.arg0
  | 6 =>
    let r := 16 * k + c.index
    (s.wr (Reg.MGT_HBM_REGION_BASE r) (if c.arg2 = 0 then 0 else BitVec.ofNat 32 (c.arg1 / 65536))).wr
      (Reg.MGT_HBM_REGION_SIZE r) (BitVec.ofNat 32 (c.arg2 / 65536))
  | 7 =>
    let w : Word := if c.arg2 % 2 = 1 then BitVec.ofNat 32 (2 ^ 31 + k) else 0
    ((List.range c.arg1).map (c.arg0 + ·)).foldl (fun t i => t.wr (Reg.TB_GCH_OWNER i) w) s
  | 8 => (s.wr (Reg.EVP_TC0_BUDGET c.index k) (BitVec.ofNat 32 c.arg0)).fillBucket c.index k
  | 9 => s.wf' (Reg.INT_PART_STATUS k) 29 1 (c.arg0 % 2)
  | 10 => s.wr (Reg.MGT_COSIGN c.attach) (if c.arg0 / 2 ^ 31 % 2 = 1 then BitVec.ofNat 32 c.arg0 else 0)
  | _ => s

/-- A confirmed change takes effect in one step (R512). -/
def State.applyChange (s : State) (c : Change) (stager party : Nat) : State :=
  let s1 := (s.countWrap Reg.MGT_PROT_GEN 1).applyKind c
  s1.notice noticeProtChange [(s1.rd Reg.MGT_PROT_GEN).toNat, c.kind, if usesPart c.kind then c.part else c.attach, stager, party]

/-! ### Staging slots (R508) -/

def State.slot (s : State) (i : Nat) : Option Slot := Store.get (fun _ => none) s.mgt.slots i

/-- A slot filled or freed, with the registers that show it (R528). -/
def State.setSlot (s : State) (i : Nat) (v : Option Slot) : State :=
  let s1 := s.updMgt fun m => { m with slots := Store.set (fun _ => none) m.slots i v }
  match v with
  | some x =>
    (s1.wr (Reg.MGT_STAGE i) (BitVec.ofNat 32 (2 ^ 30 + x.party % 16 * 2 ^ 24 + (changeOf x.record).kind % 256))).wr
      (Reg.MGT_STAGE_ID i) (BitVec.ofNat 32 x.id)
  | none => (s1.wr (Reg.MGT_STAGE i) 0).wr (Reg.MGT_STAGE_ID i) 0

/-- The slot that holds STAGE_ID `id`. -/
def State.slotOf (s : State) (id : Nat) : Option (Nat × Slot) :=
  (List.range 8).findSome? fun i => match s.slot i with | some x => if x.id = id then some (i, x) else none | none => none

/-- A staged change and a new one touch the same object (R508). -/
def touches (a b : Change) : Bool :=
  (usesPart a.kind && usesPart b.kind && a.part == b.part)
    || (!usesPart a.kind && !usesPart b.kind && a.attach == b.attach)
    || (decide (a.kind ≤ 2) && decide (b.kind ≤ 2) && Nat.land a.arg1 b.arg1 != 0)
    || (a.kind == kGch && b.kind == kGch && decide (a.arg0 < b.arg0 + b.arg1) && decide (b.arg0 < a.arg0 + a.arg1))

/-- DIGEST of a staged record (R508). -/
def stageDigest (nonce id : Nat) (record : List Byte) : Nat := crcFold c64e (nonce * 2 ^ 32 + id) record

/-- Time a staged change waits, in nanoseconds. -/
def stageLife : Nat := 100000000

/-- STAGE: result and response payload. The order of its refusals is a DESIGN CHOICE: RETURNED, format, eligibility,
conditions, FULL, BUSY. -/
def State.doStage (s : State) (party arrived : Nat) (pay : List Byte) : (Nat × List Byte) × State :=
  let c := changeOf pay
  if s.fuses.life = lcReturned then ((emLifecycle, []), s)
  else if c.formed pay = false then ((emBadFormat, []), s)
  else if s.eligible c party = false then ((emNotAuthorised, []), s)
  else if s.changeFail c ≠ emOk then ((s.changeFail c, []), s)
  else match (List.range 8).find? fun i => (s.slot i).isNone with
    | none => ((emFull, []), s)
    | some i =>
      let busy := (List.range 8).any fun j => match s.slot j with | some x => touches (changeOf x.record) c | none => false
      if busy then ((emBusy, []), s)
      else
        let id := (s.mgt.stageId + 1) % 2 ^ 32
        let s1 := (s.setSlot i (some ⟨id, party, pay, arrived + stageLife⟩)).updMgt fun m => { m with stageId := id }
        ((emOk, toBytes 4 id ++ toBytes 8 (stageDigest s.bootNonce id pay)), s1)

/-- A staged change reaches its deadline: its slot is freed and STAGE_EXPIRED sent (R510). -/
def State.expireSlot (s : State) (i : Nat) (x : Slot) : State :=
  let s1 := (s.setSlot i none).updMgt fun m => { m with expired := x.id :: m.expired }
  s1.notice noticeStageExpired [x.id, (changeOf x.record).kind, x.party]

/-- STAGE_EXPIRE: the staged change of slot `i` reaches its deadline. -/
def execStageExpire (i : Nat) (s : State) : Host.Outcome State Fault Refusal :=
  match s.slot i with
  | some x => .next (if i < 8 ∧ x.deadline ≤ s.ref then s.expireSlot i x else s)
  | none => .next s

/-- CONFIRM: the five checks of R510 in order, then the change. A STAGE_ID whose deadline has passed answers EXPIRED after
its slot is freed too (R512's worked example; DEDUCED). -/
def State.doConfirm (s : State) (party arrived : Nat) (pay : List Byte) : (Nat × List Byte) × State :=
  let id := emNum pay 0 4
  if pay.length ≠ 12 then ((emBadFormat, []), s)
  else match s.slotOf id with
    | none => ((if s.mgt.expired.contains id then emExpired else emNoStage, []), s)
    | some (i, x) =>
      let c := changeOf x.record
      if x.deadline ≤ arrived then ((emExpired, []), s.expireSlot i x)
      else if s.pairFail c x.party party ≠ emOk then ((s.pairFail c x.party party, []), s)
      else if emNum pay 4 8 ≠ stageDigest s.bootNonce id x.record then ((emDigestMismatch, []), s)
      else
        let s1 := s.setSlot i none
        if s.changeFail c ≠ emOk then ((s.changeFail c, []), s1) else ((emOk, []), s1.applyChange c x.party party)

/-- CANCEL by the staging party (R489, R510). -/
def State.doCancel (s : State) (party : Nat) (pay : List Byte) : (Nat × List Byte) × State :=
  if pay.length ≠ 4 then ((emBadFormat, []), s)
  else match s.slotOf (emNum pay 0 4) with
    | none => ((emNoStage, []), s)
    | some (i, x) => if x.party = party then ((emOk, []), s.setSlot i none) else ((emNotAuthorised, []), s)

/-- READ_STAGE: the record, the staging party and the remaining time in µs, 4 bytes each (DESIGN CHOICE: their widths). -/
def State.doReadStage (s : State) (pay : List Byte) : (Nat × List Byte) × State :=
  if pay.length ≠ 4 then ((emBadFormat, []), s)
  else match s.slotOf (emNum pay 0 4) with
    | none => ((emNoStage, []), s)
    | some (_, x) => ((emOk, x.record ++ toBytes 4 x.party ++ toBytes 4 ((x.deadline - s.ref) / 1000)), s)

end Sys2Proof.Machine
end

