-- ==== Sys2Proof/Machine/Device.lean ====
section
/-! DEFINITION. Device configuration, patterns, lifecycle, core read-out and network settings: the payloads of the other
requests (14_management_security.md R489, R492 to R498, R516, R523 to R526). -/
namespace Sys2Proof.Machine

/-! ### DEVCFG (R492) -/

/-- No reserved bit of a register is set in a value (07_timebase.md R233: a reserved value is refused). -/
def noReserved (key : Nat) (v : Word) : Bool :=
  match regAt key with | some d => v &&& d.reserved == 0 | none => false

/-- No partition is enabled. -/
def State.noneEnabled (s : State) : Bool := s.enabledParts.isEmpty

/-- TB_SOURCE words that R233 accepts: a source of R232 whose units the part has, MAINS_K 6 to 16, an even PIN for ENC; PTP_PORT names
a port that the part has, whatever the source (R234). -/
def Fuses.sourceOk (f : Fuses) (v : Word) : Bool :=
  let src := fld v 29 3
  let k := fld v 19 5
  decide (src ≤ 4) && decide (6 ≤ k) && decide (k ≤ 16) && (src != 1 || fld v 16 1 == 0)
    && (!(decide (1 ≤ src) && decide (src ≤ 3)) || f.phase) && f.hasDom (.evp (fld v 25 1))

/-- One half of a 64-bit register (R14): the LO half waits for the HI half. -/
def State.pairHalf (s : State) (lo : Nat) (hi : Bool) (v : Word) : State :=
  if hi then ((s.dropLo lo).wr lo (s.loHalf lo)).wr (lo + 4) v else s.holdLo lo v

/-- A time-source register written by the controller (R233). -/
def State.cfgTime (s : State) (addr : Nat) (v : Word) (alone : Bool) : Option State :=
  if addr = Reg.TB_SOURCE then
    if s.fuses.sourceOk v = true ∧ (s.noneEnabled = true ∨ (alone = true ∧ v = s.rd Reg.TB_SOURCE)) then some (s.selectSource v) else none
  else if s.noneEnabled = false then none
  else if addr = Reg.TB_INT_DIV then (if v = 0 then none else some ((s.wr addr v).updTb fun t => { t with intLast := s.ref }))
  else if addr = Reg.TB_SUBST_DIV then (if v = 0 then none else some (s.wr addr v))
  else if addr = Reg.TB_LOSS_CFG then some (s.wr addr v)
  else if addr = Reg.TB_PTP_EPOCH_LO then some (s.pairHalf Reg.TB_PTP_EPOCH_LO false v)
  else if addr = Reg.TB_PTP_EPOCH_HI then some (s.pairHalf Reg.TB_PTP_EPOCH_LO true v)
  else if addr = Reg.TB_PTP_PERIOD then (if v.toNat < 0x400 then none else some (s.wr addr v))
  else if (List.range 8).any fun i => addr == Reg.TB_PIN_CFG i then
    if s.fuses.phase = false ∨ 2 ≤ fld v 30 2 ∨ fld v 28 2 = 3 then none
    else some (if s.domOn .phase then s.wr addr v else s)
  else none

/-- A port register written by the controller (12_event_ports.md R423). A port with EN = 0 keeps its link down; a port
whose domain is not ON ignores the write (13_memory_power.md R480). -/
def State.cfgPort (s : State) (e addr : Nat) (v : Word) : Option State :=
  let on (t : State) : State := if s.domOn (.evp e) then t else s
  if s.noneEnabled = false ∨ s.fuses.hasDom (.evp e) = false then none
  else if addr = Reg.EVP_PORT_CFG e then
    if fld v 0 14 < 1518 ∨ 9216 < fld v 0 14 then none
    else some (on (let t := s.wr addr v; if tst v 31 then t else t.evpLinkLoss e))
  else if addr = Reg.EVP_MAC_LO e then some (on (s.pairHalf (Reg.EVP_MAC_LO e) false v))
  else if addr = Reg.EVP_MAC_HI e then some (on (s.pairHalf (Reg.EVP_MAC_LO e) true v))
  else if addr = Reg.EVP_IPV4 e ∨ addr = Reg.EVP_UDP e ∨ ((List.range 4).any fun j => addr == Reg.EVP_IPV6 e j) = true then
    some (on (s.wr addr v))
  else none

/-- MGT_PTP_SERVO of port `e` (R493): the servo starts or stops, and EVP_PTP_STATUS shows it. -/
def State.cfgServo (s : State) (e : Nat) (v : Word) : Option State :=
  if s.noneEnabled = false ∨ s.fuses.hasDom (.evp e) = false then none
  else
    let s1 := ((s.wr (Reg.MGT_PTP_SERVO e) v).wf' (Reg.EVP_PTP_STATUS e) 30 1 (b2n (tst v 31))).wf' (Reg.EVP_PTP_STATUS e) 0 1
      (fld v 30 1)
    some (if tst v 31 then s1 else s1.setSynced e false)

/-- PWR_CTRL of a domain at the die's edge, or of a grove in no partition: the request, unless R474 refuses it. -/
def State.cfgPower (s : State) (d : Dom) (v : Word) : Option State :=
  let free (g : Nat) : Bool := (s.partOf g).isNone
  let mine : Bool := match d with
    | .logic p => free (p / 144) | .mem p => free (p / 144) | .router p => free (p / 144)
    | .sync g => free g | .pls g => free g | _ => true
  if mine = false ∨ s.fuses.hasDom d = false ∨ s.refusal d (fld v 0 2) ≠ pcNone then none
  else some (s.powerReq d (fld v 0 2))

/-- One pair of a DEVCFG request: the state after it, or none where it is refused. -/
def State.cfgPair (s : State) (party : Nat) (alone : Bool) (addr : Nat) (v : Word) : Option State :=
  if noReserved addr v = false then none
  else match locate addr with
    | some (.tb, _) => s.cfgTime addr v alone
    | some (.evp e, _) => s.cfgPort e addr v
    | some (.int, _) =>
      if addr = Reg.INT_SCRUB_CFG then (if v = 0 then none else some (s.wr addr v))
      else if addr = Reg.INT_TEST_CFG then
        if fld v 16 12 < 1 ∨ 3600 < fld v 16 12 ∨ fld v 0 8 < 1 ∨ 168 < fld v 0 8 then none else some (s.wr addr v)
      else none
    | some (.mgt, _) =>
      if addr = Reg.MGT_PTP_SERVO 0 then s.cfgServo 0 v
      else if addr = Reg.MGT_PTP_SERVO 1 then s.cfgServo 1 v
      else if party = partyAgent ∧ addr = Reg.MGT_DEVCFG_HOSTS then some (s.wr addr v)
      else if party = partyAgent ∧ addr = Reg.MGT_TAMPER_CFG then
        let s1 := s.wr addr v
        some (if 2 ≤ s.fuses.life then s1.wf' Reg.MGT_TAMPER 12 1 (fld v 0 1) else s1)
      else none
    | _ =>
      match Dom.ofAddr addr with
      | some d => if addr = d.base then s.cfgPower d v else none
      | none => none

/-- The pairs of a request, each 4 bytes of address and 4 of value. -/
def cfgPairs (pay : List Byte) : List (Nat × Word) :=
  (List.range (pay.length / 8)).map fun i => (emNum pay (8 * i) 4, BitVec.ofNat 32 (emNum pay (8 * i + 4) 4))

/-- Pairs applied in order: the state after the last, or the index of the first refused. -/
def State.cfgAll (s : State) (party : Nat) (alone : Bool) : Nat → List (Nat × Word) → Except Nat State
  | _, [] => .ok s
  | i, (a, v) :: rest =>
    match s.cfgPair party alone a v with
    | none => .error i
    | some t => t.cfgAll party alone (i + 1) rest

/-- DEVCFG: all pairs or none (R492). -/
def State.doDevcfg (s : State) (party : Nat) (pay : List Byte) : (Nat × List Byte) × State :=
  let n := pay.length / 8
  if pay.length % 8 ≠ 0 ∨ n < 1 ∨ 16 < n then ((emBadFormat, []), s)
  else match s.cfgAll party (n == 1) 0 (cfgPairs pay) with
    | .error i => ((emDevcfgRefused, toBytes 4 i), s)
    | .ok t => ((emOk, []), t.notice noticeDevcfg [party, n])

/-! ### PATTERN_PUSH (R524 to R526) -/

/-- The inactive slot made to hold `bs`. -/
def Flash.putInactive (f : Flash) (bs : List Byte) : Flash := if f.activeB then { f with slotA := bs } else { f with slotB := bs }
def Flash.inactive (f : Flash) : List Byte := if f.activeB then f.slotA else f.slotB
def Flash.active (f : Flash) : List Byte := if f.activeB then f.slotB else f.slotA
/-- Bytes of a pattern slot: half of what the directory leaves (R524). -/
def Flash.slotBytes (f : Flash) : Nat := (f.mib * 2 ^ 20 - 2 ^ 17) / 2

/-- A push is over or under way, shown in MGT_FLASH. -/
def State.setPushing (s : State) (b : Bool) : State := (s.updMgt fun m => { m with pushing := b }).wf' Reg.MGT_FLASH 30 1 (b2n b)

/-- The set of the active slot reported (R524, 10_integrity.md R381). -/
def State.showPatterns (s : State) : State :=
  let ok := decide (0 < s.flash.mib) && Config.patternOk (s.fuses.patternKey) s.flash.active
  (s.wf' Reg.INT_TEST_STATUS 31 1 (b2n ok)).wf' Reg.INT_TEST_STATUS 0 24 (if ok then Config.patternVersion s.flash.active else 0)

/-- A pattern chunk; `flashOk` says whether the flash carries the writes and erases out (R525, R526). A part without a flash
and a chunk past the end of the slot answer FLASH_ERROR (DEDUCED). -/
def State.doPatternPush (s : State) (flashOk : Bool) (pay : List Byte) : (Nat × List Byte) × State :=
  let off := emNum pay 0 4
  let len := emNum pay 4 2
  let final := emNum pay 6 1 == 1
  let have_ := if off = 0 then [] else s.flash.inactive
  if pay.length < 8 ∨ len < 1 ∨ 1024 < len ∨ pay.length ≠ 8 + len ∨ 2 ≤ emNum pay 6 1 ∨ emNum pay 7 1 ≠ 0 then ((emBadFormat, []), s)
  else if off ≠ 0 ∧ (s.mgt.pushing = false ∨ off ≠ s.flash.inactive.length) then ((emInvalid, []), s.setPushing false)
  else if flashOk = false ∨ s.flash.mib = 0 ∨ s.flash.slotBytes < off + len then ((emFlashError, []), s.setPushing false)
  else
    let set := have_ ++ pay.drop 8
    let s1 := { s with flash := s.flash.putInactive set }.setPushing (!final)
    if final = false then ((emOk, []), s1)
    else if Config.patternOk (s.key s.fuses.patternKey) set = false then ((emFlashError, []), s1)
    else
      let s2 := ({ s1 with flash := { s1.flash with activeB := !s1.flash.activeB } }.wf' Reg.MGT_FLASH 29 1
        (b2n (!s.flash.activeB))).showPatterns
      ((emOk, []), s2.notice noticePatternSet [Config.patternVersion set])

/-! ### LIFECYCLE (R496 to R498, R516) -/

/-- Fuses changed: a register whose reset value moves keeps what it shows only where that differs. -/
def State.setFuses (s : State) (f : Fuses) : State :=
  { s with fuses := f, regs := s.regs.filter fun e => e.2 != resetWord f s.up e.1 }

/-- The fuses after a lifecycle change to `dest`, where one is allowed (R497). -/
def Fuses.change (f : Fuses) (dest : Nat) : Option Fuses :=
  if f.life = lcField ∧ dest = lcFieldOpen ∧ f.opens < 8 then some { f with next := dest, opens := f.opens + 1 }
  else if f.life = lcFieldOpen ∧ dest = lcField ∧ f.closes < 8 then some { f with next := dest, closes := f.closes + 1 }
  else if f.life ≠ lcBlank ∧ dest = lcReturned then some { f with next := dest }
  else none

/-- What the second signature of a LIFECYCLE request covers (R516). -/
def lifeSigned (deviceId dest nonce counter : Nat) : List Byte :=
  toBytes 16 deviceId ++ toBytes 1 dest ++ toBytes 4 nonce ++ toBytes 8 counter

/-- LIFECYCLE: format, the second signature, the device named, the transition, then the effects of R498 in order. A
reserved target is BAD_FORMAT and another device's identity INVALID (DESIGN CHOICE). -/
def State.doLifecycle (s : State) (msg pay : List Byte) : (Nat × List Byte) × State :=
  let dest := emNum pay 0 1
  if pay.length ≠ 17 ∨ 4 < dest then ((emBadFormat, []), s)
  else if s.fuses.life ≠ lcBlank ∧
      Config.verify (s.key s.fuses.lifeKey) (lifeSigned s.fuses.deviceId dest s.bootNonce (emCounter msg)) (emSig2 msg) = false then
    ((emSignature, []), s)
  else if emNum pay 1 16 ≠ s.fuses.deviceId then ((emInvalid, []), s)
  else match s.fuses.change dest with
    | none => ((emLifecycle, []), s)
    | some f =>
      let s1 := (s.wipe.setFuses f).notice noticeLifecycle [s.fuses.life, dest]
      ((emOk, []), s1.updMgt fun m => { m with changed := true })

/-! ### READ_CORE_MEM (R523) -/

/-- Byte offsets, from the first byte read, of the poisoned words among `n` bytes at `off`. -/
def State.badWords (s : State) (p off n : Nat) : List Nat :=
  ((List.range (n / 8 + 1)).map fun i => (off / 8 + i) * 8).filter (fun w => decide (w < off + n) && s.bad p w)
    |>.map fun w => w - off

/-- Each bank from CORE to MGMT, the read, and each bank back (R466, R523). Poisoned words follow as 2-byte offsets from the
first byte read (DESIGN CHOICE: the form of the flag). -/
def State.readCore (s : State) (p off n : Nat) : List Byte × State :=
  let banks := banksOf off n
  let s1 := banks.foldl (State.moveBank · p ownMgmt) s
  let data := s1.bytes p off n ++ (s1.badWords p off n).flatMap fun w => toBytes 2 w
  (data, banks.foldl (State.moveBank · p ownCore) s1)

/-- READ_CORE_MEM. A core whose memory domain is not ON, or a bank that is not CORE's, is INVALID (DESIGN CHOICE). -/
def State.doReadCore (s : State) (pay : List Byte) : (Nat × List Byte) × State :=
  let p := emNum pay 0 2
  let off := emNum pay 2 4
  let n := emNum pay 6 2
  if pay.length ≠ 8 ∨ n < 8 ∨ 1024 < n ∨ n % 8 ≠ 0 then ((emBadFormat, []), s)
  else if 9216 ≤ p ∨ s.role p ≠ roleFenced ∨ 0x40000 < off + n ∨ s.memOn p = false ∨
      (banksOf off n).any (fun b => !(s.bankFor p b ownCore)) = true then ((emInvalid, []), s)
  else
    let (data, t) := s.readCore p off n
    ((emOk, data), t)

/-! ### MGMT_NET (R487, R489) -/

/-- MGMT_NET: IPv4 (4), IPv6 (16), UDP port (2), then address (16) and port (2) of each collector (DESIGN CHOICE: the
widths and that every field is little-endian as R488 has it). -/
def State.doMgmtNet (s : State) (pay : List Byte) : (Nat × List Byte) × State :=
  if pay.length ≠ 58 then ((emBadFormat, []), s)
  else
    let coll (o : Nat) : Nat × Nat := (emNum pay o 16, emNum pay (o + 16) 2)
    let s1 := s.updMgt fun m => { m with ip4 := emNum pay 0 4, ip6 := emNum pay 4 16, collectors := [coll 22, coll 40] }
    ((emOk, []), s1.wf' Reg.MGT_NET 16 16 (emNum pay 20 2))

end Sys2Proof.Machine
end

