-- ==== Sys2Proof/Machine/Requests.lean ====
section
/-! DEFINITION. The request commands: arrival, holding until DEV_READY, handling and response; ACK; MCTP control and neighbour
resolution; tamper (14_management_security.md R486 to R491, R502 to R505; 15_startup_pins.md R540). -/
namespace Sys2Proof.Machine

/-! ### Handling a request -/

/-- What a request that has passed the gate does: its result and response payload. GET_STATUS, GET_RECORDS and MGMT_NET
take their payloads here; the five words and 64 pairs of GET_STATUS are R527's (DEDUCED: STATUS before OWNER of each
partition). -/
def State.act (s : State) (r : MgtReq) (party : Nat) : (Nat × List Byte) × State :=
  let pay := emPayload r.msg
  let op := emOpcode r.msg
  let word (key : Nat) : List Byte := toBytes 4 (s.rd key).toNat
  if op = opGetStatus then
    if pay.isEmpty then
      ((emOk, ([Reg.MGT_LIFECYCLE, Reg.MGT_BOOT_NONCE, Reg.MGT_PROT_GEN, Reg.MGT_DEBUG, Reg.MGT_TAMPER].flatMap word)
        ++ (List.range 64).flatMap fun k => word (Reg.HIF_PART_STATUS k) ++ word (Reg.HIF_PART_OWNER k)), s)
    else ((emBadFormat, []), s)
  else if op = opGetRecords then
    if pay.isEmpty then
      ((emOk, (oldestMsgs s.fuses.deviceId s.bootNonce 4 s.sigs s.mgt.notices).flatMap id), s)
    else ((emBadFormat, []), s)
  else if op = opStage then s.doStage party r.arrived pay
  else if op = opConfirm then s.doConfirm party r.arrived pay
  else if op = opCancel then s.doCancel party pay
  else if op = opReadStage then s.doReadStage pay
  else if op = opDevcfg then s.doDevcfg party pay
  else if op = opPatternPush then s.doPatternPush r.flashOk pay
  else if op = opLifecycle then s.doLifecycle r.msg pay
  else if op = opReadCoreMem then s.doReadCore pay
  else if op = opMgmtNet then s.doMgmtNet pay
  else ((emBadFormat, []), s)

/-- A request handled to its response: form, authentication, gate, effect (DESIGN CHOICE: this order). -/
def State.handle (s : State) (r : MgtReq) : State :=
  if emFormed (decide (r.path < 8)) r.msg = false then s.emRespond r.path r.msg emBadFormat []
  else
    let (who, s1) := s.identify r.path r.msg
    match who with
    | .error f => s1.emRespond r.path r.msg f []
    | .ok party =>
      let g := s1.gate party (emOpcode r.msg)
      if g ≠ emOk then s1.emRespond r.path r.msg g []
      else
        let ((f, pay), s2) := s1.act r party
        s2.emRespond r.path r.msg f pay

/-- Every held request handled in order of arrival: each counts as arriving now (15_startup_pins.md R540). -/
def State.serveHeld (s : State) : State :=
  s.mgt.heldReqs.foldl (fun t r => t.handle { r with arrived := s.ref }) (s.updMgt fun m => { m with heldReqs := [] })

/-! ### Arrival -/

/-- A request taken: handled, or held until DEV_READY unless it is GET_STATUS or GET_RECORDS (R540). -/
def State.acceptReq (s : State) (r : MgtReq) : State :=
  if s.pins.devReady = false ∧ emRow r.msg ≠ opGetStatus ∧ emRow r.msg ≠ opGetRecords then
    s.updMgt fun m => { m with heldReqs := m.heldReqs ++ [r] }
  else s.handle r

/-- The message that a path brings: the mailbox's words where GO has been written, or the bytes of a network message
without its trailer. None where there is none, where a network message fails its trailer, which is counted (R488), or where
SYS_RST_N is low. -/
def State.incoming (s : State) (path : Nat) (msg : List Byte) : Option (List Byte) × State :=
  if s.pins.sysRstN = false then (none, s)
  else if path < 8 then
    (if s.rf (Reg.MGT_MB_STATUS path) 30 2 = mbBusy then some (s.mbRequest path) else none, s)
  else if path ≤ pathSgmii then
    let n := msg.length - 4
    let s1 := if path = pathSgmii then s.wf' Reg.MGT_NET 1 1 1 else s
    if 4 ≤ msg.length ∧ emNum msg n 4 = crc c32c (msg.take n) then (some (msg.take n), s1) else (none, s1.count Reg.MGT_NET_ERR 1)
  else (none, s)

/-- A mailbox whose message is no request is free again without a response (DESIGN CHOICE). -/
def State.freeMailbox (s : State) (path : Nat) : State := if path < 8 then s.mbDone path emOk 0 else s

/-- A message that arrives on a path, for the command `row`: a request of that row is taken; a message of another type but
REQUEST and ACK is discarded (R488). -/
def State.arrive (s : State) (row path : Nat) (msg : List Byte) (flashOk : Bool) : State :=
  match s.incoming path msg with
  | (none, t) => t
  | (some m, t) =>
    if emRow m ≠ row ∨ emNum m 1 1 = emAck then s
    else if emNum m 1 1 ≠ emRequest then t.freeMailbox path
    else t.acceptReq ⟨path, m, if path < 8 then Store.get (fun _ => 0) t.mgt.goAt path else t.ref, flashOk⟩

/-- GET_STATUS: the request, and every message that no other command carries. -/
def execGetStatus (path : Nat) (msg : List Byte) (s : State) : Host.Outcome State Fault Refusal := .next (s.arrive opGetStatus path msg true)
/-- GET_RECORDS. -/
def execGetRecords (path : Nat) (msg : List Byte) (s : State) : Host.Outcome State Fault Refusal := .next (s.arrive opGetRecords path msg true)
/-- STAGE (R508). -/
def execStage (path : Nat) (msg : List Byte) (s : State) : Host.Outcome State Fault Refusal := .next (s.arrive opStage path msg true)
/-- CONFIRM (R510). -/
def execConfirm (path : Nat) (msg : List Byte) (s : State) : Host.Outcome State Fault Refusal := .next (s.arrive opConfirm path msg true)
/-- CANCEL (R510). -/
def execCancel (path : Nat) (msg : List Byte) (s : State) : Host.Outcome State Fault Refusal := .next (s.arrive opCancel path msg true)
/-- READ_STAGE. -/
def execReadStage (path : Nat) (msg : List Byte) (s : State) : Host.Outcome State Fault Refusal := .next (s.arrive opReadStage path msg true)
/-- DEVCFG (R492). -/
def execDevcfg (path : Nat) (msg : List Byte) (s : State) : Host.Outcome State Fault Refusal := .next (s.arrive opDevcfg path msg true)
/-- PATTERN_PUSH; `flashOk`: the test flash carries the writes and erases out (R525, R526). -/
def execPatternPush (path : Nat) (msg : List Byte) (flashOk : Bool) (s : State) : Host.Outcome State Fault Refusal :=
  .next (s.arrive opPatternPush path msg flashOk)
/-- LIFECYCLE (R498). -/
def execLifecycle (path : Nat) (msg : List Byte) (s : State) : Host.Outcome State Fault Refusal := .next (s.arrive opLifecycle path msg true)
/-- READ_CORE_MEM (R523). -/
def execReadCoreMem (path : Nat) (msg : List Byte) (s : State) : Host.Outcome State Fault Refusal := .next (s.arrive opReadCoreMem path msg true)
/-- MGMT_NET. -/
def execMgmtNet (path : Nat) (msg : List Byte) (s : State) : Host.Outcome State Fault Refusal := .next (s.arrive opMgmtNet path msg true)

/-! ### ACK (R505) -/

/-- Queued messages of one kind removed up to a sequence number. OPCODE 0 names records, as a RECORD carries it, and any
other notices; the number stands in COUNTER (DESIGN CHOICE: how an ACK names the kind). -/
def State.acked (s : State) (msg : List Byte) : State :=
  let n := emCounter msg
  if emOpcode msg = 0 then
    let keep := s.sigs.filter fun r => decide (n < r.seq)
    { s with sigs := keep }.wf' Reg.MGT_QUEUES 8 7 keep.length
  else
    let keep := s.mgt.notices.filter fun v => decide (n < v.seq)
    (s.updMgt fun m => { m with notices := keep }).wf' Reg.MGT_QUEUES 0 5 keep.length

/-- An ACK is well formed: header only. -/
def ackFormed (msg : List Byte) : Bool := emNum msg 0 1 == 1 && decide (24 ≤ msg.length) && emNum msg 2 2 == msg.length

/-- ACK: needs no signature and gets no response. -/
def execAck (path : Nat) (msg : List Byte) (s : State) : Host.Outcome State Fault Refusal :=
  match s.incoming path msg with
  | (none, t) => .next t
  | (some m, t) =>
    if emNum m 1 1 = emAck then .next ((if ackFormed m then t.acked m else t).freeMailbox path) else .next s

/-! ### MCTP control messages (R487; their fields are DSP0236's, PRESUMED) -/

def mctpOk : Nat := 0
def mctpInvalidData : Nat := 2
def mctpTypeUnsupported : Nat := 0x80
/-- The Emetur message type. -/
def mctpVendorIana : Nat := 0x7F

/-- SET_ENDPOINT_ID: operation 0 or 1 assigns an endpoint ID; 0 and 0xFF are none (DSP0236, PRESUMED). -/
def execSetEndpointId (op eid : Nat) (s : State) : Host.Outcome State Fault Refusal :=
  if s.pins.sysRstN = false then .next s
  else if op % 4 < 2 ∧ 8 ≤ eid ∧ eid < 255 then
    .next (((s.updMgt fun m => { m with eid := eid }).wf' Reg.MGT_NET 0 1 1).emitOut (.mctp 1 [mctpOk, 0, eid, 0]))
  else .next (s.emitOut (.mctp 1 [mctpInvalidData]))

/-- GET_ENDPOINT_ID. -/
def execGetEndpointId (s : State) : Host.Outcome State Fault Refusal :=
  if s.pins.sysRstN then .next (s.emitOut (.mctp 2 [mctpOk, s.mgt.eid, 0, 0])) else .next s

/-- GET_MCTP_VERSION_SUPPORT: version 1.3 of the base specification and of the two message types. -/
def execGetMctpVersionSupport (type : Nat) (s : State) : Host.Outcome State Fault Refusal :=
  if s.pins.sysRstN = false then .next s
  else if type = 0xFF ∨ type = 0 ∨ type = mctpVendorIana then .next (s.emitOut (.mctp 4 [mctpOk, 1, 0xF1F3FF00]))
  else .next (s.emitOut (.mctp 4 [mctpTypeUnsupported]))

/-- GET_MESSAGE_TYPE_SUPPORT: the Emetur type. -/
def execGetMessageTypeSupport (s : State) : Host.Outcome State Fault Refusal :=
  if s.pins.sysRstN then .next (s.emitOut (.mctp 5 [mctpOk, 1, mctpVendorIana])) else .next s

/-- GET_VENDOR_DEFINED_MESSAGE_SUPPORT: one set, the IANA number assigned to Jorrath. -/
def execGetVendorDefinedMessageSupport (selector : Nat) (s : State) : Host.Outcome State Fault Refusal :=
  if s.pins.sysRstN = false then .next s
  else if selector = 0 then .next (s.emitOut (.mctp 6 [mctpOk, 0xFF, 1, Config.ianaNumber, 0]))
  else .next (s.emitOut (.mctp 6 [mctpInvalidData]))

/-- The link-local address formed from the MAC address (EUI-64, PRESUMED). -/
def linkLocal (mac : Nat) : Nat :=
  0xFE80 * 2 ^ 112 + Nat.xor (mac / 2 ^ 24) 0x020000 * 2 ^ 40 + 0xFFFE * 2 ^ 24 + mac % 2 ^ 24

/-- NEIGHBOUR_REQUEST: an ARP request (`v6` false) or neighbour solicitation for `addr`, answered for the port's own
addresses only. -/
def execNeighbourRequest (addr : Nat) (v6 : Bool) (s : State) : Host.Outcome State Fault Refusal :=
  let mine := if v6 then addr = linkLocal s.fuses.mac ∨ (addr = s.mgt.ip6 ∧ addr ≠ 0) else addr = s.mgt.ip4 ∧ addr ≠ 0
  if s.pins.sysRstN = true ∧ mine then .next (s.emitOut (.neighbour addr s.fuses.mac)) else .next s

/-! ### The debug lock and tamper (R503, R521) -/

/-- The debug port locks: CLOSED, LOCKED, and the NOTICE (R521). -/
def State.lockDebug (s : State) : State :=
  let s1 := (s.wf' Reg.MGT_DEBUG 30 2 0).wf' Reg.MGT_DEBUG 29 1 1
  s1.notice noticeDebugLockout [s.rf Reg.MGT_DEBUG 0 4]

/-- TAMPER_FIRE: detector `d` fires. -/
def execTamperFire (d : Nat) (s : State) : Host.Outcome State Fault Refusal :=
  if d < 5 ∧ s.bit Reg.MGT_TAMPER (8 + d) = true then
    let s1 := ((s.wipe.wf' Reg.MGT_TAMPER 31 1 1).wf' Reg.MGT_TAMPER d 1 1).lockDebug
    .next (s1.notice noticeTamper [s1.rf Reg.MGT_TAMPER 0 5])
  else .next s

end Sys2Proof.Machine
end

