-- ==== Sys2Proof/Machine/SetUp.lean ====
section
/-! DEFINITION. Set-up writes and reads: what a write of each register does, and the commands that are such writes
(00_scope.md R14 to R16; 01_organisation.md R26; 05_fabric.md R187, R189, R194; 07_timebase.md R249 to R255;
09_plasticity.md R330; 10_integrity.md R340, R341; 11_host_interface.md R407, R420; 12_event_ports.md R445;
14_management_security.md R527). -/
namespace Sys2Proof.Machine

/-! ### The check-value unit (R337 to R341) -/

def cvuCtrl : Nat := cvuReg 0
def cvuPoly : Nat := cvuReg 0x08
def cvuInit : Nat := cvuReg 0x10
def cvuXorout : Nat := cvuReg 0x18
def cvuFoldReg : Nat := cvuReg 0x20
def cvuRunning : Nat := cvuReg 0x28
def cvuValueReg : Nat := cvuReg 0x30

/-- w: values outside 8 to 64 act as 64 (R341). -/
def State.cvuWidth (s : State) : Nat := let w := s.rf cvuCtrl 16 7; if w < 8 ∨ 64 < w then 64 else w

/-- The parameters of the unit as its registers give them. -/
def State.cvuPar (s : State) : CvuPar :=
  ⟨s.cvuWidth, s.rd64 cvuPoly % 2 ^ s.cvuWidth, s.rd64 cvuInit % 2 ^ s.cvuWidth, s.bit cvuCtrl 29, s.bit cvuCtrl 28,
   s.rd64 cvuXorout % 2 ^ s.cvuWidth⟩

/-- The registers show bits below w alone, and VALUE the check value of RUNNING. -/
def State.cvuShow (s : State) : State :=
  let n := 2 ^ s.cvuWidth
  let s1 := [cvuPoly, cvuInit, cvuXorout, cvuRunning].foldl (fun t r => t.wr64 r (t.rd64 r % n)) s
  s1.wr64 cvuValueReg (cvuValue s1.cvuPar (s1.rd64 cvuRunning))

/-- A preset's parameters loaded (R338, R341). -/
def State.cvuLoad (s : State) (p : CvuPar) : State :=
  ((((((s.wf' cvuCtrl 16 7 p.w).wf' cvuCtrl 29 1 (b2n p.refin)).wf' cvuCtrl 28 1 (b2n p.refout)).wr64 cvuPoly p.poly).wr64 cvuInit
    p.init).wr64 cvuXorout p.xorout)

/-- CVU_CTRL written: a PRESET of 1 to 3 loads every parameter; START sets r = INIT and feeds the fold (R341). -/
def State.cvuCtrlWrite (s : State) (v : Word) : State :=
  let s0 := s.maskWrite cvuCtrl v false
  let s1 := match fld v 0 2 with
    | 1 => s0.cvuLoad c32c
    | 2 => s0.cvuLoad c64e
    | 3 => s0.cvuLoad c16t
    | _ => s0
  let p := s1.cvuPar
  let s2 := if tst v 31 then
      s1.wr64 cvuRunning (if s1.bit cvuCtrl 30 then Machine.cvuFold p (s1.rd64 cvuFoldReg) else p.init)
    else s1
  s2.cvuShow

/-! ### Entries that partitions share (R407, R445) -/

/-- A word of an egress path of attachment `a`: ignored while its present PARTITION is enabled, or where it names an
enabled one. -/
def State.pathWrite (s : State) (a addr : Nat) (v : Word) : State :=
  let cfg := attReg a (addr / 16 * 16)
  if s.enabled (s.rf cfg 24 6) = true ∨ (addr % 16 = 0 ∧ s.enabled (fld v 24 6) = true) then s
  else s.maskWrite (attReg a addr) v false

/-- A word of a shared entry of an event port: its CFG word takes a write that names a partition of the writer's, which is
not enabled; every word only while its present PARTITION is not enabled (R445). -/
def State.entryWrite (s : State) (a addr cfg lo : Nat) (v : Word) : State :=
  if s.enabled (s.rf cfg lo 6) then s
  else if addr = cfg ∧ (s.owns a (fld v lo 6) = false ∨ s.enabled (fld v lo 6) = true) then s
  else s.maskWrite addr v false

/-! ### Mailboxes (R527) -/

/-- MGT_MB_CTRL written: LENGTH, then GO, which is ignored while BUSY. -/
def State.mbCtrl (s : State) (a : Nat) (v : Word) : State :=
  let s1 := s.maskWrite (Reg.MGT_MB_CTRL a) v false
  if tst v 31 = true ∧ s.rf (Reg.MGT_MB_STATUS a) 30 2 ≠ mbBusy then
    (s1.wf' (Reg.MGT_MB_STATUS a) 30 2 mbBusy).updMgt fun m => { m with
      goAt := Store.set (fun _ => 0) m.goAt a s.ref, goLen := Store.set (fun _ => 0) m.goLen a (fld v 0 9) }
  else s1

/-! ### Writes by register -/

/-- PLS_PART_CTRL of partition `k` written: END_EPOCH ends the epoch at the next commit of an enabled partition (R330). -/
def State.plsCtrl (s : State) (k : Nat) (v : Word) : State :=
  let s1 := s.maskWrite (Reg.PLS_PART_CTRL k) v (s.enabled k)
  if tst v 31 = true ∧ s.enabled k = true then s1.updPart k fun q => { q with endAsked := true } else s1

/-- A register written by access type; the LO half of a 64-bit quantity waits for its HI half (R14, R16). -/
def State.plainWrite (s : State) (b : Blk) (o key : Nat) (v : Word) : State :=
  let locked := s.rwlLocked b o
  if pairLo b o then (match regAt key with | some _ => s.holdLo key v | none => s)
  else if pairHi b o then
    (((s.dropLo (key - 4)).maskWrite (key - 4) (s.loHalf (key - 4)) locked).maskWrite key v locked)
  else s.maskWrite key v locked

/-- The channel that a window's offset `o - base` lies in, and the register of it. -/
def State.channelWrite (s : State) (b : Blk) (o ch r : Nat) (v : Word) : State :=
  if r = 0 then s.ctrlWrite ch v (s.rwlLocked b o)
  else if r = 0xC then s.compareWrite ch v
  else if r = 0x10 then s.intervalWrite ch v
  else (s.evalBefore ch).plainWrite b o (chKey ch + r) v

/-- The telemetry registers of node `n`'s ports at offset `x` from port 0 that read zero: FEC_CORR, RETRY and ABANDON of a router's
port L, and those of a port that has no link beyond it (05_fabric.md R192, R193). A write of one changes nothing. -/
def noTelemetry (n x : Nat) : Bool :=
  let port := x / 0x40
  if n < 9216 then (port == 4 && decide (0x18 ≤ x % 0x40)) || (port == 5 && (linkPeer n 5).isNone)
  else port == 5 && (linkPeer n 5).isNone

/-- A register of a core's window. -/
def State.coreWrite (s : State) (a p o addr : Nat) (v : Word) : State :=
  if 0x900 ≤ o ∧ o < 0xA00 then s.channelWrite (.core p) o (coreCh p ((o - 0x900) / 0x40)) (o % 0x40) v
  else if o = 0xC00 then s.rtrCtrl p v
  else if 0xC40 ≤ o ∧ o < 0xDC0 ∧ noTelemetry p (o - 0xC40) = true then s
  else if 0xC10 ≤ o ∧ o < 0xC30 then
    { s with detChanged := Store.set (fun _ => false) s.detChanged addr true }.maskWrite addr v false
  else if 0xF00 ≤ o ∧ o < 0xF40 then s.bankWrite a p ((o - 0xF00) / 4) v
  else match Dom.ofAddr addr with
    | some d => if addr = d.base then s.powerReq d (fld v 0 2) else s.plainWrite (.core p) o addr v
    | none => s.plainWrite (.core p) o addr v

/-- A register of an attachment's own window of the host interface. -/
def State.attWrite (s : State) (a o addr : Nat) (v : Word) : State :=
  let ring (kind : RingKind) (base : Nat) : State :=
    let r := (o - base) / 0x20
    if o % 0x20 = 0 then s.ringCtrl a kind r v
    else if (o % 0x20 = 8 ∨ o % 0x20 = 0xC) ∧ s.bit (ringBase a kind r) 31 = true then s
    else s.plainWrite .att o (attReg a addr) v
  if o = 0x14 then s.attCtrl a v
  else if 0x10000 ≤ o ∧ o < 0x10800 then ring .command 0x10000
  else if 0x20000 ≤ o ∧ o < 0x20800 then ring .completion 0x20000
  else if 0x40000 ≤ o ∧ o < 0x44000 then ring .egress 0x40000
  else if 0x60000 ≤ o ∧ o < 0x61000 then s.pathWrite a addr v
  else s.plainWrite .att o (attReg a addr) v

/-- What a set-up write that has passed its check does, whatever the register. The domains at the die's edge are written by
the management controller alone (13_memory_power.md R483). -/
def State.setupWrite (s : State) (a addr : Nat) (v : Word) : State :=
  match locate addr with
  | none => s
  | some (b, o) =>
    match b with
    | .core p => s.coreWrite a p o addr v
    | .grove g =>
      if 0xC3100 ≤ o ∧ o < 0xC3280 ∧ noTelemetry (stopNode g) (o - 0xC3100) = true then s
      else match Dom.ofAddr addr with
      | some d => if addr = d.base then s.powerReq d (fld v 0 2) else s.plainWrite b o addr v
      | none => s.plainWrite b o addr v
    | .tb =>
      if o = 0x200 then s.holdLo (latchKey a addr) v
      else if o = 0x204 then
        let lo := latchKey a (addr - 4)
        (s.dropLo lo).groupStart a ((s.loHalf lo).toNat + 2 ^ 32 * v.toNat)
      else if 0x10000 ≤ o then s.channelWrite b o ((o - 0x10000) / 0x40) (o % 0x40) v
      else s.plainWrite b o addr v
    | .fab => if o % 0x20 = 0 then s.clearCtrl (o / 0x20) v else s.plainWrite b o addr v
    | .att => s.attWrite a o addr v
    | .hif => if 0x80000 ≤ o ∧ o < 0x80800 ∧ o % 0x20 = 0 then s.partCtrl ((o - 0x80000) / 0x20) v else s.plainWrite b o addr v
    | .evp e =>
      match evpEntry o with
      | some (c, lo) => s.entryWrite a addr (0x7000000 + 0x100000 * e + c) lo v
      | none => s.plainWrite b o addr v
    | .int => if 0xC000 ≤ o ∧ o < 0x15000 then s.fenceWrite a ((o - 0xC000) / 4) v else s.plainWrite b o addr v
    | .pwr => s
    | .mba =>
      if o = 0 then s.mbCtrl a v
      else if 0x100 ≤ o ∧ o < 0x200 ∧ s.rf (Reg.MGT_MB_STATUS a) 30 2 = mbBusy then s
      else s.plainWrite b o (attReg a addr) v
    | .mgt => s.plainWrite b o addr v
    | .pls => if o % 0x40 = 0 then s.plsCtrl (o / 0x40) v else s.plainWrite b o addr v
    | .plsg _ => s.plainWrite b o addr v
    | .hbm _ => s.plainWrite b o addr v
    | .cvu => if o = 0 then s.cvuCtrlWrite v else (s.plainWrite b o addr v).cvuShow

/-! ### The commands -/

/-- REGISTER_WRITE: attachment `a` writes `v` to set-up address `addr` (R16). -/
def execRegisterWrite (a addr : Nat) (v : Word) (s : State) : Host.Outcome State Fault Refusal :=
  if a < 8 then .next (s.guard a addr fun t => t.setupWrite a addr v) else .next s

/-- A read returns its data to the host. A LO half latches its HI half (R14). -/
def State.setupRead (s : State) (a addr : Nat) : State :=
  match s.access a addr, locate addr with
  | .ok, some (b, o) =>
    let s1 := s.emitOut (.regData a (s.readReg a addr))
    if pairLo b o then
      let hi := if s.stampHidden a b o then 0 else s.rd (regKey a (addr + 4))
      { s1 with hiLatch := Store.insert (latchKey a (addr + 4)) hi (Store.erase (latchKey a (addr + 4)) s1.hiLatch) }
    else s1
  | .bad, _ =>
    -- a request that is not one whole aligned dword returns the enclosing dword (11_host_interface.md R384)
    let whole := addr / 4 * 4
    (s.count (Reg.HIF_BAD_ACCESS a) 1).emitOut (.regData a (if s.access a whole = .ok then s.readReg a whole else 0))
  | .filtered, _ => (s.filtered a addr).emitOut (.regData a 0)
  | _, _ => if s.busUp a then s.emitOut (.regData a 0) else s

/-- A register of sync object `i` of grove `g` as a host reads it (11_host_interface.md R387). -/
def State.barReg (s : State) (g i reg : Nat) : Word :=
  let o := s.obj g i
  match reg with
  | 0 => o.cfg
  | 4 => o.target
  | 8 => o.count
  | 0xC => o.gen
  | 0x14 => BitVec.ofNat 32 (s.armed g i)
  | _ => 0

/-- Where the addresses of a read go on from BAR0 to BAR2: the set-up address space is 256 MiB (11_host_interface.md R384; DESIGN
CHOICE: the row's operand names one address, and the model counts the sync-object window after the set-up space). -/
def bar2Base : Nat := 2 ^ 28

/-- A read of the sync-object window at offset `off` by attachment `a` (11_host_interface.md R386, R387): an object of a grove that
the attachment does not own reads zero and is counted. -/
def State.barRead (s : State) (a off : Nat) : State :=
  let g := off / 32 / 2048
  let i := off / 32 % 2048
  if s.barReach a g i = false then s
  else if s.ownsGrove a g then s.emitOut (.regData a (s.barReg g i (off % 32 / 4 * 4)))
  else (s.filtered a off).emitOut (.regData a 0)

/-- REG64_LO_READ: attachment `a` reads the LO half of a 64-bit quantity, or another register, at set-up address `addr`
(R14), or a register of a sync object (11_host_interface.md R387). -/
def execReg64LoRead (a addr : Nat) (s : State) : Host.Outcome State Fault Refusal :=
  if 8 ≤ a then .next s
  else if bar2Base ≤ addr ∧ addr < bar2Base + 2 ^ 22 then .next (s.barRead a (addr - bar2Base))
  else .next (s.setupRead a addr)

/-- ROLE_FENCE_WRITE: attachment `a` writes `v` to INT_PHYS_STATE of core `p` (R26). -/
def execRoleFenceWrite (a p : Nat) (v : Word) (s : State) : Host.Outcome State Fault Refusal :=
  if a < 8 ∧ p < 9216 then .next (s.guard a (Reg.INT_PHYS_STATE p) fun t => t.fenceWrite a p v) else .next s

/-- ROUTER_RESET: attachment `a` writes `v` with RESET to FAB_RTR_CTRL of core `k` (R189). -/
def execRouterReset (a k : Nat) (v : Word) (s : State) : Host.Outcome State Fault Refusal :=
  if a < 8 ∧ k < 9216 then .next (s.guard a (Reg.FAB_RTR_CTRL k) fun t => t.rtrCtrl k (v ||| 0x80000000)) else .next s

/-- CLEARING_START: attachment `a` writes FAB_CLEAR_CTRL of partition `k` with START = 1 (R194). -/
def execClearingStart (a k : Nat) (s : State) : Host.Outcome State Fault Refusal :=
  if a < 8 ∧ k < 64 then .next (s.guard a (Reg.FAB_CLEAR_CTRL k) fun t => t.clearCtrl k 0x80000000) else .next s

/-- The set-up block and offset of a channel's CTRL, for its lock. -/
def chBlk (ch : Nat) : Blk := if ch < 1024 then .tb else .core (chCore ch)
def chOff (ch : Nat) : Nat := if ch < 1024 then 0x10000 + 0x40 * ch else 0x900 + 0x40 * ((ch - 1024) % 4)
/-- Channels of the device: 1,024 global and four of each core. -/
def channels : Nat := 1024 + 4 * 9216

/-- CHANNEL_ARM: attachment `a` writes TB_CH_CTRL of channel `ch` with ARM = 1; `v` gives the other bits (R252). -/
def execChannelArm (a ch : Nat) (v : Word) (s : State) : Host.Outcome State Fault Refusal :=
  if a < 8 ∧ ch < channels then
    .next (s.guard a (chKey ch) fun t => t.ctrlWrite ch (v ||| 0x80000000) (t.rwlLocked (chBlk ch) (chOff ch)))
  else .next s

/-- CHANNEL_DISARM: attachment `a` writes TB_CH_CTRL of channel `ch` with DISARM = 1; `v` gives the other bits (R252). -/
def execChannelDisarm (a ch : Nat) (v : Word) (s : State) : Host.Outcome State Fault Refusal :=
  if a < 8 ∧ ch < channels then
    .next (s.guard a (chKey ch) fun t => t.ctrlWrite ch (v ||| 0x40000000) (t.rwlLocked (chBlk ch) (chOff ch)))
  else .next s

/-- COMPARE_WRITE: attachment `a` writes the HI half of COMPARE of channel `ch`, which completes it (R249). -/
def execCompareWrite (a ch : Nat) (hi : Word) (s : State) : Host.Outcome State Fault Refusal :=
  if a < 8 ∧ ch < channels then .next (s.guard a (chKey ch + 0xC) fun t => t.compareWrite ch hi) else .next s

/-- INTERVAL_WRITE: attachment `a` writes TB_CH_INTERVAL of channel `ch` (R251). -/
def execIntervalWrite (a ch : Nat) (v : Word) (s : State) : Host.Outcome State Fault Refusal :=
  if a < 8 ∧ ch < channels then .next (s.guard a (chKey ch + 0x10) fun t => t.intervalWrite ch v) else .next s

/-- GROUP_START: attachment `a` writes TB_GROUP_START_HI; the LO half is what it wrote before (R255). -/
def execGroupStart (a : Nat) (hi : Word) (s : State) : Host.Outcome State Fault Refusal :=
  if a < 8 then .next (s.guard a 0x4000204 fun t => t.setupWrite a 0x4000204 hi) else .next s

/-- END_EPOCH: attachment `a` writes PLS_PART_CTRL of partition `k` with END_EPOCH = 1; `v` gives the other bits (R330). -/
def execEndEpoch (a k : Nat) (v : Word) (s : State) : Host.Outcome State Fault Refusal :=
  if a < 8 ∧ k < 64 then .next (s.guard a (Reg.PLS_PART_CTRL k) fun t => t.plsCtrl k (v ||| 0x80000000)) else .next s

/-- CVU_START: attachment `a` writes CVU_CTRL with START = 1; `v` gives the other bits (R341). -/
def execCvuStart (a : Nat) (v : Word) (s : State) : Host.Outcome State Fault Refusal :=
  if a < 8 then .next (s.guard a cvuCtrl fun t => t.cvuCtrlWrite (v ||| 0x80000000)) else .next s

/-- CVU_RUNNING_WRITE: attachment `a` completes a write of RUNNING; the fold is not fed (R340). -/
def execCvuRunningWrite (a : Nat) (lo hi : Word) (s : State) : Host.Outcome State Fault Refusal :=
  if a < 8 then .next (s.guard a cvuRunning fun t => (((t.dropLo cvuRunning).wr cvuRunning lo).wr (cvuRunning + 4) hi).cvuShow) else .next s

end Sys2Proof.Machine
end

