-- ==== Sys2Proof/Machine/Debug.lean ====
section
/-! DEFINITION. The debug port: boundary scan, unlocking, set-up access, halting and resuming (14_management_security.md
R513 to R522). -/
namespace Sys2Proof.Machine

/-! ### The port -/

def tapBypass : Nat := 0
def tapSample : Nat := 1
def tapExtest : Nat := 2
def tapIdcode : Nat := 3
def tapClamp : Nat := 4
def tapHighz : Nat := 5

/-- A TAP instruction in force. -/
def State.tap (s : State) (mode : Nat) : State := s.updMgt fun m => { m with tapMode := mode }

/-- BYPASS: one bit between TDI and TDO, captured as 0 (IEEE 1149.1, PRESUMED). -/
def execBypass (s : State) : Host.Outcome State Fault Refusal := .next ((s.tap tapBypass).emitOut (.tap 0))

/-- The levels of the pins as the boundary register captures them: the board gives them, so the value is free. -/
def State.capturePins (s : State) : State := let (n, t) := s.freeNat; t.emitOut (.tap n)

/-- SAMPLE_PRELOAD: the pins are sampled and the boundary register is loaded with `v`. -/
def execSamplePreload (v : Nat) (s : State) : Host.Outcome State Fault Refusal :=
  .next ((s.tap tapSample).capturePins.updMgt fun m => { m with boundary := v })

/-- EXTEST: the boundary register drives the pins; their levels are captured and the register is loaded with `v`. -/
def execExtest (v : Nat) (s : State) : Host.Outcome State Fault Refusal :=
  .next ((s.tap tapExtest).capturePins.updMgt fun m => { m with boundary := v })

/-- The identification code (R513). -/
def Fuses.idcode (f : Fuses) : Nat := f.stepping % 16 * 2 ^ 28 + 0xF4A0 * 2 ^ 12 + Config.jedec % 2 ^ 11 * 2 + 1

/-- IDCODE. -/
def execIdcode (s : State) : Host.Outcome State Fault Refusal := .next ((s.tap tapIdcode).emitOut (.tap s.fuses.idcode))

/-- CLAMP: the boundary register holds the pins while BYPASS is selected. -/
def execClamp (s : State) : Host.Outcome State Fault Refusal := .next ((s.tap tapClamp).emitOut (.tap 0))

/-- HIGHZ: the output pins float while BYPASS is selected. -/
def execHighz (s : State) : Host.Outcome State Fault Refusal := .next ((s.tap tapHighz).emitOut (.tap 0))

/-! ### Levels (R514 to R521) -/

def dlClosed : Nat := 0
def dlObserve : Nat := 1
def dlFull : Nat := 2

def State.debugLevel (s : State) : Nat := s.rf Reg.MGT_DEBUG 30 2
def State.debugLocked (s : State) : Bool := s.bit Reg.MGT_DEBUG 29
/-- The private instructions work: the device is out of reset and the port is not locked. -/
def State.debugOpen (s : State) : Bool := s.pins.sysRstN && !s.debugLocked

/-- The level raised to `lv`; each rise is noticed, with its means: 0 password, 1 signature (R515). -/
def State.raise (s : State) (lv means : Nat) : State :=
  if s.debugLevel < lv then (s.wf' Reg.MGT_DEBUG 30 2 lv).notice noticeDebugOpened [lv, means] else s

/-- Failures that lock the port (R521). -/
def debugTries : Nat := 8

/-- A failed unlock counts; the eighth locks the port (R518, R521). -/
def State.unlockFailed (s : State) : State :=
  let n := min 15 (s.rf Reg.MGT_DEBUG 0 4 + 1)
  let s1 := s.wf' Reg.MGT_DEBUG 0 4 n
  if debugTries ≤ n then s1.lockDebug else s1

/-- DBG_STATUS: works in a locked port too; it shows MGT_DEBUG (DESIGN CHOICE: the form of the report). -/
def execDbgStatus (s : State) : Host.Outcome State Fault Refusal :=
  if s.pins.sysRstN then .next (s.emitOut (.tap (s.rd Reg.MGT_DEBUG).toNat)) else .next s

/-- DBG_CHALLENGE: a fresh nonce replaces the one before (R520). -/
def execDbgChallenge (s : State) : Host.Outcome State Fault Refusal :=
  if s.debugOpen then
    let (n, t) := s.freeNat
    let nonce := n % 2 ^ 128
    .next ((t.updMgt fun m => { m with dbgNonce := some (nonce, s.ref) }).emitOut (.tap nonce))
  else .next s

/-- Time a debug nonce is valid, in nanoseconds. -/
def nonceLife : Nat := 10000000000

/-- The 33 bytes that the signature covers (R520). -/
def dbgSigned (nonce deviceId : Nat) : List Byte := toBytes 16 nonce ++ toBytes 16 deviceId ++ [2]

/-- DBG_RESPONSE: a signature over the nonce, which it uses up, raises the level to FULL (R520). -/
def execDbgResponse (sig : List Byte) (s : State) : Host.Outcome State Fault Refusal :=
  if s.debugOpen then
    let s1 := s.updMgt fun m => { m with dbgNonce := none }
    match s.mgt.dbgNonce with
    | some (n, t) =>
      if s.ref < t + nonceLife ∧ sig.length = 96 ∧
          Config.verify (s.key s.fuses.debugKey) (dbgSigned n s.fuses.deviceId) sig = true then .next (s1.raise dlFull 1)
      else .next s1.unlockFailed
    | none => .next s1.unlockFailed
  else .next s

/-- DBG_PASSWORD: a length and as many bytes; their SHA-384 against the fused hash raises the level to OBSERVE (R519). -/
def execDbgPassword (len : Nat) (bytes : List Byte) (s : State) : Host.Outcome State Fault Refusal :=
  if s.debugOpen then
    if 16 ≤ len ∧ len ≤ 64 ∧ bytes.length = len ∧ Config.sha384 bytes = s.key s.fuses.passwordHash then .next (s.raise dlObserve 0)
    else .next s.unlockFailed
  else .next s

/-- DBG_CLOSE: in FIELD the port returns to CLOSED (R515). -/
def execDbgClose (s : State) : Host.Outcome State Fault Refusal :=
  if s.debugOpen = true ∧ s.fuses.life = lcField then .next (s.wf' Reg.MGT_DEBUG 30 2 dlClosed) else .next s

/-- DBG_NONCE_EXPIRE: the nonce is over after 10 s (R520). -/
def execDbgNonceExpire (s : State) : Host.Outcome State Fault Refusal :=
  match s.mgt.dbgNonce with
  | some (_, t) => .next (if t + nonceLife ≤ s.ref then s.updMgt fun m => { m with dbgNonce := none } else s)
  | none => .next s

/-! ### Access (R514) -/

/-- A set-up address of a mailbox, which no debugger reaches. -/
def isMailbox (addr : Nat) : Bool :=
  match locate addr with | some (.mba, o) => decide (o < 0x2000) | _ => false

/-- DEBUG_SETUP_ACCESS: a debugger reads (or, at FULL, writes `v` to) set-up address `addr`, unfiltered by ownership, in
attachment `a`'s view; with `mem`, it reads the 32-bit word of local memory at key `addr` of a bank whose owner is CORE. A
mailbox reads zero and ignores its write. -/
def execDebugSetupAccess (mem write : Bool) (a addr : Nat) (v : Word) (s : State) : Host.Outcome State Fault Refusal :=
  let view := a % 8
  if s.debugOpen = false ∨ s.debugLevel = dlClosed ∨ (write = true ∧ s.debugLevel ≠ dlFull) then .next s
  else if mem then
    let p := addr / 0x40000
    let off := addr % 0x40000
    if write then .next s
    else if s.memOn p = true ∧ s.bankFor p (off / 0x4000) ownCore = true then .next (s.emitOut (.debug (s.word p (off / 4 * 4)).toNat))
    else .next (s.emitOut (.debug 0))
  else
    let ok := !(isMailbox addr) && s.accessBy (fun _ _ => .ok) addr == .ok
    if write then .next (if ok then s.setupWrite view addr v else s)
    else .next (s.emitOut (.debug (if ok then (s.rd (regKey view addr)).toNat else 0)))

/-! ### Halting (R522, 07_timebase.md R258) -/

/-- DEBUG_PARTITION_HALT: partition `k` is halted at its next step boundary, at once where no step is open. -/
def execDebugPartitionHalt (k : Nat) (s : State) : Host.Outcome State Fault Refusal :=
  if k < 64 ∧ s.debugOpen = true ∧ s.debugLevel = dlFull then
    let s1 := s.updPart k fun q => { q with haltAsked := true }
    .next (if (s.part k).openStep.isNone then s1.haltNow k else s1)
  else .next s

/-- A core may be halted: its partition is halted or not enabled, or it belongs to none. -/
def State.mayHalt (s : State) (p : Nat) : Bool :=
  match s.partOf (p / 144) with | some k => (s.part k).halted || !(s.enabled k) | none => true

/-- FROZEN of the channels of core `p` follows its halt. -/
def State.showCoreHalt (s : State) (p : Nat) : State := (List.range 4).foldl (fun t c => t.showFrozen (coreCh p c)) s

/-- DEBUG_CORE_HALT: core `p` stops its handler engine between instructions and its dense tile at a column-block boundary. -/
def execDebugCoreHalt (p : Nat) (s : State) : Host.Outcome State Fault Refusal :=
  if p < 9216 ∧ s.debugOpen = true ∧ s.debugLevel = dlFull ∧ s.mayHalt p = true ∧ s.logicOn p = true then
    .next ((s.updCore p fun c => { c with halted := true }).showCoreHalt p)
  else .next s

/-- Channels evaluated once on a resume: those that were frozen, masters before slaves (07_timebase.md R256, R258). -/
def State.thaw (s : State) (frozen : List Nat) : State := s.fireAll frozen

/-- DEBUG_RESUME: core `x`, or partition `x`, goes on where it stopped; its frozen channels are evaluated once. -/
def execDebugResume (core : Bool) (x : Nat) (s : State) : Host.Outcome State Fault Refusal :=
  if s.debugOpen = false ∨ s.debugLevel ≠ dlFull then .next s
  else if core then
    if x < 9216 ∧ (s.core x).halted = true then
      let frozen := ((List.range 4).map (coreCh x)).filter s.chFrozen
      .next (((s.updCore x fun c => { c with halted := false }).showCoreHalt x).thaw frozen)
    else .next s
  else if x < 64 then
    let frozen := (s.globalsOf x).filter s.chFrozen
    .next (((s.updPart x fun q => { q with halted := false, haltAsked := false }).showHalt x).thaw frozen)
  else .next s

end Sys2Proof.Machine
end

