-- ==== Sys2Proof/Machine/StartUp.lean ====
section
/-! DEFINITION. Reset, start-up, power-good inputs and the thermal trip (15_startup_pins.md R531 to R541). -/
namespace Sys2Proof.Machine

def State.updPins (s : State) (f : Pins → Pins) : State := { s with pins := f s.pins }

/-! ### SYS_RST_N -/

/-- Pins with every output low and no start-up in progress; the inputs are the board's (R534, R535). -/
def Pins.quiet (p : Pins) : Pins :=
  { p with sysRstN := false, pwrEnCore := false, pwrEnIo := false, hbmEn := 0, devReady := false, faultN := true, tripN := true,
           hbmOver := 0, halted := false, booted := false }

/-- The device held in reset: nothing outlives it but the fuses and the test flash. What has left the device, the free
values and the waiting commands are the model's own. -/
def State.held (s : State) (f : Fuses) (p : Pins) : State :=
  { State.cold f s.flash p with out := s.out, free := s.free, pending := s.pending }

/-- SYS_RST_N_FALL: every domain is held in reset and every enable output goes low (R534, R535). -/
def execSysRstNFall (s : State) : Host.Outcome State Fault Refusal :=
  if s.pins.sysRstN then .next (s.held s.fuses s.pins.quiet) else .next s

/-- Attachments that the straps create (R536, 11_host_interface.md R383), shown in HIF_ATT_ID. -/
def State.strapAtt (s : State) (a : Nat) : State :=
  let two := s.pins.strapBif / 2 ^ (a / 2) % 2
  let here := a % 2 == 0 || two == 1
  let s1 := s.updAtt a fun v => { v with present := here }
  if here then s1.wr (Reg.HIF_ATT_ID a) (BitVec.ofNat 32 (a * 2 ^ 29 + a / 2 * 2 ^ 27 + two)) else s1

/-- The registers that management boot fills: boot nonce, debug level and detectors by lifecycle state (R496, R503), test flash
(R524). -/
def State.boot (s : State) : State :=
  let (nonce, s1) := s.freeWord
  let life := s.fuses.life
  let s2 := (s1.wr Reg.MGT_BOOT_NONCE nonce).wf' Reg.MGT_DEBUG 30 2 (if life = lcField then dlClosed else dlFull)
  let s3 := s2.wf' Reg.MGT_TAMPER 8 5 (if life < 2 then 0 else 0x1F)
  let f := s3.flash
  let s4 := s3.wr Reg.MGT_FLASH (if f.mib = 0 then 0 else BitVec.ofNat 32 (2 ^ 31 + b2n f.activeB * 2 ^ 29 + f.mib % 512))
  s4.showPatterns

/-- SYS_RST_N_RISE: power-up. The straps are sampled and management boot begins; what it reads and fills is filled here
(R535, R536, R539). The lifecycle state is the one the fuses have recorded (R498). -/
def execSysRstNRise (s : State) : Host.Outcome State Fault Refusal :=
  if s.pins.sysRstN then .next s
  else
    let p := s.pins.quiet
    let s1 := s.held { s.fuses with life := s.fuses.next } { p with sysRstN := true, strapBif := p.bifPins % 16, strapSmb := p.smbPins % 8 }
    .next (((List.range 8).foldl State.strapAtt s1).boot)

/-- MGMT_BOOT_DONE: PWR_EN_CORE rises. -/
def execMgmtBootDone (s : State) : Host.Outcome State Fault Refusal :=
  if s.pins.sysRstN = true ∧ s.pins.booted = false then .next (s.updPins fun p => { p with booted := true, pwrEnCore := true })
  else .next s

/-! ### Stages 2 to 7 -/

/-- Start-up is in progress. -/
def State.starting (s : State) : Bool := s.pins.sysRstN && s.pins.booted && !s.pins.halted && !s.pins.devReady

/-- The central domain, routers and grove units come up: what registers hold by default changes with it (R539 stage 3). -/
def State.bringUp (s : State) : State :=
  { s with up := true, regs := s.regs.filter fun e => e.2 != resetWord s.fuses true e.1 }

/-- A rail segment's measured voltage: nothing in the spec gives it, so it is free (13_memory_power.md R484). -/
def State.railVolts (s : State) (g : Nat) : State := let (n, t) := s.freeNat; t.wf' (Reg.PWR_RAIL g) 0 12 n

/-- PG_CORE_RISE: PWR_EN_IO rises; the central domain, every router and every grove sync/cache domain wake, the Core Map Table
is built, and the core memories are cleared and left OFF (R539 stages 3 and 4). -/
def execPgCoreRise (s : State) : Host.Outcome State Fault Refusal :=
  if s.starting = true ∧ s.pins.pwrEnCore = true ∧ s.pins.pgCore = false then
    let s1 := (s.updPins fun p => { p with pgCore := true, pwrEnIo := true }).bringUp
    .next ((List.range 64).foldl State.railVolts s1)
  else .next s

/-- Fitted stacks. -/
def Fuses.stackMask (f : Fuses) : Nat := f.fitted % 16

/-- Every fitted stack has its power-good, or its wait is over. -/
def State.hbmSettled (s : State) : Bool :=
  (List.range 4).all fun st => !(s.fuses.hasStack st) || s.pins.pgHbm / 2 ^ st % 2 == 1 || s.pins.hbmOver / 2 ^ st % 2 == 1

/-- Stage 6: once every stack's power-good is settled, the PHYs of those that have it wake (R539). -/
def State.wakeStacks (s : State) : State :=
  if s.hbmSettled then
    (List.range 4).foldl (fun t st =>
      if s.fuses.hasStack st && s.pins.pgHbm / 2 ^ st % 2 == 1 && t.pw (.hbm st) == pwOff then t.beginWake (.hbm st) else t) s
  else s

/-- DEV_READY rises once stages 4 to 6 are complete: the held requests are served (R539, R540). -/
def State.readyCheck (s : State) : State :=
  if s.starting = true ∧ s.pins.pgIo = true ∧ s.pins.hbmOver = s.fuses.stackMask then
    (s.updPins fun p => { p with devReady := true }).serveHeld
  else s

/-- PG_IO_RISE: the port domains of present units and the phase block come ON, and every HBM enable rises (R539 stage 5). -/
def execPgIoRise (s : State) : Host.Outcome State Fault Refusal :=
  if s.starting = true ∧ s.pins.pgCore = true ∧ s.pins.pwrEnIo = true ∧ s.pins.pgIo = false then
    let doms := ([Dom.pcie 0, .pcie 1, .pcie 2, .pcie 3, .evp 0, .evp 1, .phase].filter s.fuses.hasDom)
    let s1 := doms.foldl (fun t d => ((t.setPw d pwOn).wf' d.base 0 2 0).count (d.base + 8) 1) s
    .next ((s1.updPins fun p => { p with pgIo := true, hbmEn := s.fuses.stackMask }).readyCheck)
  else .next s

def setBit (n i : Nat) : Nat := if n / 2 ^ i % 2 = 1 then n else n + 2 ^ i
def dropBit (n i : Nat) : Nat := if n / 2 ^ i % 2 = 1 then n - 2 ^ i else n

/-- PG_HBM_RISE: the power-good of a stack rises (R539 stage 6). -/
def execPgHbmRise (st : Nat) (s : State) : Host.Outcome State Fault Refusal :=
  if s.starting = true ∧ st < 4 ∧ s.pins.hbmEn / 2 ^ st % 2 = 1 ∧ s.pins.pgHbm / 2 ^ st % 2 = 0 ∧ s.pins.hbmOver / 2 ^ st % 2 = 0 then
    .next ((s.updPins fun p => { p with pgHbm := setBit p.pgHbm st }).wakeStacks)
  else .next s

/-- A stack fails at start-up (R541): FAILED, its PHY's domain OFF, its part of stage 6 over. -/
def State.stackLost (s : State) (st : Nat) : State :=
  let s1 := ((s.stackFailed st).setPw (.hbm st) pwOff).setStage (.hbm st) none
  s1.updPins fun p => { p with hbmOver := setBit p.hbmOver st }

/-- Every enable output low and DEV_FAULT_N low: start-up goes no further (R531). -/
def State.startFailed (s : State) : State :=
  s.updPins fun p => { p with pwrEnCore := false, pwrEnIo := false, hbmEn := 0, faultN := false, halted := true }

/-- PG_WAIT_TIMEOUT: 20 ms without PG_CORE (0), PG_IO (1) or PG_HBM of stack `which` - 2 (R531). -/
def execPgWaitTimeout (which : Nat) (s : State) : Host.Outcome State Fault Refusal :=
  if s.starting = false then .next s
  else if which = 0 then .next (if s.pins.pwrEnCore = true ∧ s.pins.pgCore = false then s.startFailed else s)
  else if which = 1 then .next (if s.pins.pwrEnIo = true ∧ s.pins.pgIo = false then s.startFailed else s)
  else
    let st := which - 2
    if st < 4 ∧ s.pins.hbmEn / 2 ^ st % 2 = 1 ∧ s.pins.pgHbm / 2 ^ st % 2 = 0 then
      let s1 := (s.updPins fun p => { p with hbmEn := dropBit p.hbmEn st }).stackLost st
      .next (s1.wakeStacks.readyCheck)
    else .next s

/-- A stack's temperature, as measured: free (04_synapses_dense.md R153). -/
def State.stackTemp (s : State) (st : Nat) : State := let (n, t) := s.freeNat; t.wf' (Reg.MEM_HBM_STATUS st) 24 8 n

/-- HBM_TRAINING_DONE: a stack finishes training and its clear begins, or it fails (13_memory_power.md R478; R541). -/
def execHbmTrainingDone (st : Nat) (ok : Bool) (s : State) : Host.Outcome State Fault Refusal :=
  if st < 4 ∧ s.pw (.hbm st) = pwWaking ∧ s.lost (.hbm st) = true ∧ s.stage (.hbm st) = some (0, 2) then
    if ok then .next ((s.setStage (.hbm st) (some (1, 2))).stackTemp st) else .next (s.stackLost st).readyCheck
  else .next s

/-- HBM_CLEAR_DONE: every location of a stack reads zero, and the stack is READY (13_memory_power.md R479). -/
def execHbmClearDone (st : Nat) (s : State) : Host.Outcome State Fault Refusal :=
  if st < 4 ∧ s.pw (.hbm st) = pwWaking ∧ s.stage (.hbm st) = some (1, 2) then
    .next (((s.wakeDone (.hbm st)).updPins fun p => { p with hbmOver := setBit p.hbmOver st }).readyCheck)
  else .next s

/-! ### Failures after start-up (R533, R538) -/

/-- The core rails fail: FAULT in PWR_RAIL of every grove, a grove-wide fault of each until power-up. -/
def State.coreRailsLost (s : State) : State :=
  (List.range 64).foldl (fun t g =>
    (((t.wf' (Reg.PWR_RAIL g) 30 1 1).wf' (Reg.PWR_RAIL g) 31 1 0).updGrove g fun v => { v with faulted := some 4 }).groveWide g 4) s

/-- The IO rails fail: every PCIe and Ethernet link is lost. -/
def State.ioRailsLost (s : State) : State :=
  (List.range 2).foldl State.evpLinkLoss ((List.range 8).foldl State.linkLoss s)

/-- PG_FALL: after start-up, the fall of PG_CORE (0), PG_IO (1) or PG_HBM of stack `which` - 2; the enables of that group and of
those that follow it go low (R533). -/
def execPgFall (which : Nat) (s : State) : Host.Outcome State Fault Refusal :=
  let p := s.pins
  if p.devReady = false then .next s
  else if which = 0 then
    if p.pgCore then
      .next ((s.updPins fun p => { p with pgCore := false, pwrEnCore := false, pwrEnIo := false, hbmEn := 0 }).coreRailsLost)
    else .next s
  else if which = 1 then
    if p.pgIo then .next ((s.updPins fun p => { p with pgIo := false, pwrEnIo := false, hbmEn := 0 }).ioRailsLost) else .next s
  else
    let st := which - 2
    if st < 4 ∧ p.pgHbm / 2 ^ st % 2 = 1 then
      .next ((s.updPins fun p => { p with pgHbm := dropBit p.pgHbm st, hbmEn := dropBit p.hbmEn st }).stackFailed st)
    else .next s

/-- THERMAL_TRIP: a die sensor reads 120 °C or more: THERMTRIP_N and DEV_FAULT_N low, every rail enable low, FLT_THERMAL, and
the effects of R533 of every group (R538). -/
def execThermalTrip (sensor reading : Nat) (s : State) : Host.Outcome State Fault Refusal :=
  if s.pins.sysRstN = true ∧ s.pins.pgCore = true ∧ s.pins.tripN = true ∧ 120 ≤ reading then
    let lost := (List.range 4).filter fun st => s.pins.pgHbm / 2 ^ st % 2 == 1
    let s1 := s.updPins fun p => { p with
      tripN := false, faultN := false, pwrEnCore := false, pwrEnIo := false, hbmEn := 0, pgCore := false, pgIo := false, pgHbm := 0,
      halted := true }
    let s2 := (s1.report fltThermal { detail := [sensor, reading] }).coreRailsLost.ioRailsLost
    .next (lost.foldl State.stackFailed s2)
  else .next s

end Sys2Proof.Machine
end

