-- ==== Sys2Proof/Machine/Dispatch.lean ====
section
/-! DEFINITION. One arm for each command: a direct call of its meaning. -/
namespace Sys2Proof.Machine

def exec (i : Instr) (s : State) : Host.Outcome State Fault Refusal :=
  match i with
  | .registerWrite a addr v => Sys2Proof.Machine.execRegisterWrite a addr v s
  | .reg64LoRead a addr => Sys2Proof.Machine.execReg64LoRead a addr s
  | .roleFenceWrite a p v => Sys2Proof.Machine.execRoleFenceWrite a p v s
  | .groveFault g cause => Sys2Proof.Machine.execGroveFault g cause s
  | .stepOpen k => Sys2Proof.Machine.execStepOpen k s
  | .stepOpenIndication p lane flip value => Sys2Proof.Machine.execStepOpenIndication p lane flip value s
  | .integrationSpanEnd p => Sys2Proof.Machine.execIntegrationSpanEnd p s
  | .deferredDeposit p => Sys2Proof.Machine.execDeferredDeposit p s
  | .coreClockGate p => Sys2Proof.Machine.execCoreClockGate p s
  | .coreWake p src => Sys2Proof.Machine.execCoreWake p src s
  | .synEventTake p pair err => Sys2Proof.Machine.execSynEventTake p pair err s
  | .rowRequest j => Sys2Proof.Machine.execRowRequest j s
  | .rowHeader j => Sys2Proof.Machine.execRowHeader j s
  | .block j pair err => Sys2Proof.Machine.execBlock j pair err s
  | .hbmReadReturn g j status t pos flip => Sys2Proof.Machine.execHbmReadReturn g j status t pos flip s
  | .hbmTrainingLost st ok => Sys2Proof.Machine.execHbmTrainingLost st ok s
  | .denseColumnBlockDone p mismatch => Sys2Proof.Machine.execDenseColumnBlockDone p mismatch s
  | .denseOpDone p => Sys2Proof.Machine.execDenseOpDone p s
  | .canopyPacketArrive j => Sys2Proof.Machine.execCanopyPacketArrive j s
  | .stopReceiveCopy j => Sys2Proof.Machine.execStopReceiveCopy j s
  | .linkFlitReceive k port bytes => Sys2Proof.Machine.execLinkFlitReceive k port bytes s
  | .linkNack k port lost => Sys2Proof.Machine.execLinkNack k port lost s
  | .linkResyncDone k port => Sys2Proof.Machine.execLinkResyncDone k port s
  | .routerFault k => Sys2Proof.Machine.execRouterFault k s
  | .routerReset a k v => Sys2Proof.Machine.execRouterReset a k v s
  | .routerResetDone k => Sys2Proof.Machine.execRouterResetDone k s
  | .clearingStart a k => Sys2Proof.Machine.execClearingStart a k s
  | .clearingRun k => Sys2Proof.Machine.execClearingRun k s
  | .clearingSwap k => Sys2Proof.Machine.execClearingSwap k s
  | .clearingTimeout k => Sys2Proof.Machine.execClearingTimeout k s
  | .deliveryEvaluate k => Sys2Proof.Machine.execDeliveryEvaluate k s
  | .msg j => Sys2Proof.Machine.execMsg j s
  | .notify j => Sys2Proof.Machine.execNotify j s
  | .amArgs j => Sys2Proof.Machine.execAmArgs j s
  | .response j => Sys2Proof.Machine.execResponse j s
  | .syncReply j => Sys2Proof.Machine.execSyncReply j s
  | .responseSend p => Sys2Proof.Machine.execResponseSend p s
  | .handlerDispatch p => Sys2Proof.Machine.execHandlerDispatch p s
  | .ret p low => Sys2Proof.Machine.execRet p low s
  | .add p rd ra rb ext => Sys2Proof.Machine.execAdd p rd ra rb ext s
  | .sub p rd ra rb ext => Sys2Proof.Machine.execSub p rd ra rb ext s
  | .and p rd ra rb ext => Sys2Proof.Machine.execAnd p rd ra rb ext s
  | .or p rd ra rb ext => Sys2Proof.Machine.execOr p rd ra rb ext s
  | .xor p rd ra rb ext => Sys2Proof.Machine.execXor p rd ra rb ext s
  | .shl p rd ra rb ext => Sys2Proof.Machine.execShl p rd ra rb ext s
  | .shr p rd ra rb ext => Sys2Proof.Machine.execShr p rd ra rb ext s
  | .sar p rd ra rb ext => Sys2Proof.Machine.execSar p rd ra rb ext s
  | .slt p rd ra rb ext => Sys2Proof.Machine.execSlt p rd ra rb ext s
  | .mul p rd ra rb ext => Sys2Proof.Machine.execMul p rd ra rb ext s
  | .addi p rd ra imm => Sys2Proof.Machine.execAddi p rd ra imm s
  | .andi p rd ra imm => Sys2Proof.Machine.execAndi p rd ra imm s
  | .ori p rd ra imm => Sys2Proof.Machine.execOri p rd ra imm s
  | .lui p rd ra imm => Sys2Proof.Machine.execLui p rd ra imm s
  | .ld p rd ra imm => Sys2Proof.Machine.execLd p rd ra imm s
  | .st p rd ra imm => Sys2Proof.Machine.execSt p rd ra imm s
  | .ldb p rd ra imm => Sys2Proof.Machine.execLdb p rd ra imm s
  | .stb p rd ra imm => Sys2Proof.Machine.execStb p rd ra imm s
  | .nrd p rd ra imm => Sys2Proof.Machine.execNrd p rd ra imm s
  | .sys p rd ra imm => Sys2Proof.Machine.execSys p rd ra imm s
  | .emit p rd ra rb ext => Sys2Proof.Machine.execEmit p rd ra rb ext s
  | .dense p rd ra rb ext => Sys2Proof.Machine.execDense p rd ra rb ext s
  | .send p rd ra rb ext => Sys2Proof.Machine.execSend p rd ra rb ext s
  | .sendw p rd ra rb ext => Sys2Proof.Machine.execSendw p rd ra rb ext s
  | .waitq p rd ra imm => Sys2Proof.Machine.execWaitq p rd ra imm s
  | .sadd p rd ra rb ext => Sys2Proof.Machine.execSadd p rd ra rb ext s
  | .swait p rd ra rb ext => Sys2Proof.Machine.execSwait p rd ra rb ext s
  | .sread p rd ra rb ext => Sys2Proof.Machine.execSread p rd ra rb ext s
  | .beq p ra rb off => Sys2Proof.Machine.execBeq p ra rb off s
  | .bne p ra rb off => Sys2Proof.Machine.execBne p ra rb off s
  | .blt p ra rb off => Sys2Proof.Machine.execBlt p ra rb off s
  | .bge p ra rb off => Sys2Proof.Machine.execBge p ra rb off s
  | .j p low => Sys2Proof.Machine.execJ p low s
  | .handlerBudgetExpire p => Sys2Proof.Machine.execHandlerBudgetExpire p s
  | .sendResponseTimeout p => Sys2Proof.Machine.execSendResponseTimeout p s
  | .sendwRetryGap p => Sys2Proof.Machine.execSendwRetryGap p s
  | .waitqTimeout p => Sys2Proof.Machine.execWaitqTimeout p s
  | .syncAdd j => Sys2Proof.Machine.execSyncAdd j s
  | .syncWait j => Sys2Proof.Machine.execSyncWait j s
  | .syncRead j => Sys2Proof.Machine.execSyncRead j s
  | .syncNotifyIssue g => Sys2Proof.Machine.execSyncNotifyIssue g s
  | .hostSyncAdd a g j v => Sys2Proof.Machine.execHostSyncAdd a g j v s
  | .bar2SyncWrite a g j reg v => Sys2Proof.Machine.execBar2SyncWrite a g j reg v s
  | .encCount edge => Sys2Proof.Machine.execEncCount edge s
  | .lineEdge => Sys2Proof.Machine.execLineEdge s
  | .mainsZeroCross => Sys2Proof.Machine.execMainsZeroCross s
  | .mainsTick => Sys2Proof.Machine.execMainsTick s
  | .ptpFollowTick => Sys2Proof.Machine.execPtpFollowTick s
  | .intTick => Sys2Proof.Machine.execIntTick s
  | .phaseLost => Sys2Proof.Machine.execPhaseLost s
  | .sourceAutoReturn => Sys2Proof.Machine.execSourceAutoReturn s
  | .pinStamp j level => Sys2Proof.Machine.execPinStamp j level s
  | .stampDeliver j => Sys2Proof.Machine.execStampDeliver j s
  | .channelFire ch => Sys2Proof.Machine.execChannelFire ch s
  | .channelArm a ch v => Sys2Proof.Machine.execChannelArm a ch v s
  | .channelDisarm a ch v => Sys2Proof.Machine.execChannelDisarm a ch v s
  | .compareWrite a ch hi => Sys2Proof.Machine.execCompareWrite a ch hi s
  | .intervalWrite a ch v => Sys2Proof.Machine.execIntervalWrite a ch v s
  | .groupStart a hi => Sys2Proof.Machine.execGroupStart a hi s
  | .sequencerFire k => Sys2Proof.Machine.execSequencerFire k s
  | .stretchLimit k => Sys2Proof.Machine.execStretchLimit k s
  | .lastInjectionDeclare p => Sys2Proof.Machine.execLastInjectionDeclare p s
  | .round k => Sys2Proof.Machine.execRound k s
  | .checkReport j => Sys2Proof.Machine.execCheckReport j s
  | .groveVerdict g => Sys2Proof.Machine.execGroveVerdict g s
  | .shadowCopy g j => Sys2Proof.Machine.execShadowCopy g j s
  | .replayCopyDone g lane flip value => Sys2Proof.Machine.execReplayCopyDone g lane flip value s
  | .replayDone g => Sys2Proof.Machine.execReplayDone g s
  | .twinRepairDone g => Sys2Proof.Machine.execTwinRepairDone g s
  | .partitionCommit k => Sys2Proof.Machine.execPartitionCommit k s
  | .fenceMigrationDone g => Sys2Proof.Machine.execFenceMigrationDone g s
  | .plsPassDone g bad => Sys2Proof.Machine.execPlsPassDone g bad s
  | .applyStart k => Sys2Proof.Machine.execApplyStart k s
  | .applyDone g bad => Sys2Proof.Machine.execApplyDone g bad s
  | .endEpoch a k v => Sys2Proof.Machine.execEndEpoch a k v s
  | .scrub p err => Sys2Proof.Machine.execScrub p err s
  | .cfgDigestPass k => Sys2Proof.Machine.execCfgDigestPass k s
  | .testDue p => Sys2Proof.Machine.execTestDue p s
  | .testMigrate p => Sys2Proof.Machine.execTestMigrate p s
  | .testDeferExpire p => Sys2Proof.Machine.execTestDeferExpire p s
  | .testDone p pass pattern => Sys2Proof.Machine.execTestDone p pass pattern s
  | .functionLevelReset a => Sys2Proof.Machine.execFunctionLevelReset a s
  | .pcieLinkLoss a => Sys2Proof.Machine.execPcieLinkLoss a s
  | .perstChange a level => Sys2Proof.Machine.execPerstChange a level s
  | .configRequest a req => Sys2Proof.Machine.execConfigRequest a req s
  | .scanEnable a v => Sys2Proof.Machine.execScanEnable a v s
  | .ringEnable a kind r v => Sys2Proof.Machine.execRingEnable a kind r v s
  | .ringDisable a kind r v => Sys2Proof.Machine.execRingDisable a kind r v s
  | .doorbellScan a => Sys2Proof.Machine.execDoorbellScan a s
  | .scanReturn a indices descs => Sys2Proof.Machine.execScanReturn a indices descs s
  | .nop a r => Sys2Proof.Machine.execNop a r s
  | .loadMem a r payload => Sys2Proof.Machine.execLoadMem a r payload s
  | .readMem a r => Sys2Proof.Machine.execReadMem a r s
  | .loadNeurons a r payload => Sys2Proof.Machine.execLoadNeurons a r payload s
  | .readNeurons a r => Sys2Proof.Machine.execReadNeurons a r s
  | .loadTable a r payload => Sys2Proof.Machine.execLoadTable a r payload s
  | .readTable a r => Sys2Proof.Machine.execReadTable a r s
  | .loadRows a r payload => Sys2Proof.Machine.execLoadRows a r payload s
  | .writeHbm a r payload => Sys2Proof.Machine.execWriteHbm a r payload s
  | .readHbm a r status => Sys2Proof.Machine.execReadHbm a r status s
  | .loadContext a r payload => Sys2Proof.Machine.execLoadContext a r payload s
  | .readContext a r => Sys2Proof.Machine.execReadContext a r s
  | .ingest a r payload => Sys2Proof.Machine.execIngest a r payload s
  | .message a r => Sys2Proof.Machine.execMessage a r s
  | .messageTimeout a => Sys2Proof.Machine.execMessageTimeout a s
  | .denseRun a r => Sys2Proof.Machine.execDenseRun a r s
  | .loadWrite j => Sys2Proof.Machine.execLoadWrite j s
  | .loadRead j => Sys2Proof.Machine.execLoadRead j s
  | .readReturn j => Sys2Proof.Machine.execReadReturn j s
  | .tapCopyArrive j => Sys2Proof.Machine.execTapCopyArrive j s
  | .partitionEnable a k v => Sys2Proof.Machine.execPartitionEnable a k v s
  | .enableCheckDone k => Sys2Proof.Machine.execEnableCheckDone k s
  | .partitionDisable a k v => Sys2Proof.Machine.execPartitionDisable a k v s
  | .lyletFrameReceive e fcsOk full corr uncorr bs => Sys2Proof.Machine.execLyletFrameReceive e fcsOk full corr uncorr bs s
  | .ptpEventMessage e update synced offset step rate reply => Sys2Proof.Machine.execPtpEventMessage e update synced offset step rate reply s
  | .portTapCopy j => Sys2Proof.Machine.execPortTapCopy j s
  | .frameTransmit e => Sys2Proof.Machine.execFrameTransmit e s
  | .evpLinkDown e => Sys2Proof.Machine.execEvpLinkDown e s
  | .powerRequest a addr v => Sys2Proof.Machine.execPowerRequest a addr v s
  | .powerEntryStage addr => Sys2Proof.Machine.execPowerEntryStage addr s
  | .powerAbortDone addr => Sys2Proof.Machine.execPowerAbortDone addr s
  | .powerWakeDone addr => Sys2Proof.Machine.execPowerWakeDone addr s
  | .bankHandover a p b v => Sys2Proof.Machine.execBankHandover a p b v s
  | .bankHandoverEffect p b => Sys2Proof.Machine.execBankHandoverEffect p b s
  | .getStatus path msg => Sys2Proof.Machine.execGetStatus path msg s
  | .getRecords path msg => Sys2Proof.Machine.execGetRecords path msg s
  | .stage path msg => Sys2Proof.Machine.execStage path msg s
  | .confirm path msg => Sys2Proof.Machine.execConfirm path msg s
  | .cancel path msg => Sys2Proof.Machine.execCancel path msg s
  | .readStage path msg => Sys2Proof.Machine.execReadStage path msg s
  | .devcfg path msg => Sys2Proof.Machine.execDevcfg path msg s
  | .patternPush path msg flashOk => Sys2Proof.Machine.execPatternPush path msg flashOk s
  | .lifecycle path msg => Sys2Proof.Machine.execLifecycle path msg s
  | .readCoreMem path msg => Sys2Proof.Machine.execReadCoreMem path msg s
  | .mgmtNet path msg => Sys2Proof.Machine.execMgmtNet path msg s
  | .ack path msg => Sys2Proof.Machine.execAck path msg s
  | .setEndpointId op eid => Sys2Proof.Machine.execSetEndpointId op eid s
  | .getEndpointId => Sys2Proof.Machine.execGetEndpointId s
  | .getMctpVersionSupport type => Sys2Proof.Machine.execGetMctpVersionSupport type s
  | .getMessageTypeSupport => Sys2Proof.Machine.execGetMessageTypeSupport s
  | .getVendorDefinedMessageSupport selector => Sys2Proof.Machine.execGetVendorDefinedMessageSupport selector s
  | .neighbourRequest addr v6 => Sys2Proof.Machine.execNeighbourRequest addr v6 s
  | .stageExpire j => Sys2Proof.Machine.execStageExpire j s
  | .reportResend => Sys2Proof.Machine.execReportResend s
  | .tamperFire d => Sys2Proof.Machine.execTamperFire d s
  | .bypass => Sys2Proof.Machine.execBypass s
  | .samplePreload v => Sys2Proof.Machine.execSamplePreload v s
  | .extest v => Sys2Proof.Machine.execExtest v s
  | .idcode => Sys2Proof.Machine.execIdcode s
  | .clamp => Sys2Proof.Machine.execClamp s
  | .highz => Sys2Proof.Machine.execHighz s
  | .dbgStatus => Sys2Proof.Machine.execDbgStatus s
  | .dbgChallenge => Sys2Proof.Machine.execDbgChallenge s
  | .dbgResponse sig => Sys2Proof.Machine.execDbgResponse sig s
  | .dbgPassword len bytes => Sys2Proof.Machine.execDbgPassword len bytes s
  | .dbgClose => Sys2Proof.Machine.execDbgClose s
  | .dbgNonceExpire => Sys2Proof.Machine.execDbgNonceExpire s
  | .debugSetupAccess mem write a addr v => Sys2Proof.Machine.execDebugSetupAccess mem write a addr v s
  | .debugPartitionHalt k => Sys2Proof.Machine.execDebugPartitionHalt k s
  | .debugCoreHalt p => Sys2Proof.Machine.execDebugCoreHalt p s
  | .debugResume core x => Sys2Proof.Machine.execDebugResume core x s
  | .sysRstNRise => Sys2Proof.Machine.execSysRstNRise s
  | .sysRstNFall => Sys2Proof.Machine.execSysRstNFall s
  | .mgmtBootDone => Sys2Proof.Machine.execMgmtBootDone s
  | .pgCoreRise => Sys2Proof.Machine.execPgCoreRise s
  | .pgIoRise => Sys2Proof.Machine.execPgIoRise s
  | .pgHbmRise st => Sys2Proof.Machine.execPgHbmRise st s
  | .pgWaitTimeout which => Sys2Proof.Machine.execPgWaitTimeout which s
  | .hbmTrainingDone st ok => Sys2Proof.Machine.execHbmTrainingDone st ok s
  | .hbmClearDone st => Sys2Proof.Machine.execHbmClearDone st s
  | .pgFall which => Sys2Proof.Machine.execPgFall which s
  | .thermalTrip sensor reading => Sys2Proof.Machine.execThermalTrip sensor reading s
  | .cvuStart a v => Sys2Proof.Machine.execCvuStart a v s
  | .cvuRunningWrite a lo hi => Sys2Proof.Machine.execCvuRunningWrite a lo hi s
  | .evpLinkUp e an => Sys2Proof.Machine.execEvpLinkUp e an s
  | .pcieLinkUp a width rate => Sys2Proof.Machine.execPcieLinkUp a width rate s

end Sys2Proof.Machine
end

