-- ==== Sys2Proof/Machine/Tick.lean ====
section
/-! DEFINITION. What happens with time alone: one nanosecond of the reference counter (07_timebase.md R231). The step
of an empty queue is such a tick (DESIGN CHOICE: the table has no row for it). -/
namespace Sys2Proof.Machine

/-- Number of times a nanosecond of the port clock is 2^32 of its fraction's units. -/
def ptpUnit : Int := 4294967296

/-- The clock of port `e` moves on by a nanosecond as its servo has set its rate, and EVP_PTP_AGE counts microseconds
(12_event_ports.md R449, R455). -/
def State.tickPtp (s : State) (e : Nat) : State :=
  let v := s.port e
  let moved := (v.ptpFrac : Int) + ptpUnit + v.ptpRate.toInt
  let s1 := s.wr64 (Reg.EVP_PTP_NS_LO e) (s.rd64 (Reg.EVP_PTP_NS_LO e) + (moved / ptpUnit).toNat)
  let frac := (moved % ptpUnit).toNat
  if v.ptpAgeNs + 1 < 1000 then s1.updPort e fun w => { w with ptpFrac := frac, ptpAgeNs := w.ptpAgeNs + 1 }
  else (s1.count (Reg.EVP_PTP_AGE e) 1).updPort e fun w => { w with ptpFrac := frac, ptpAgeNs := 0 }

/-- Tokens added to the TC0 buckets of port `e`: PERMILLE × 50 MB/s is PERMILLE twentieths of a byte each nanosecond
(12_event_ports.md R438). -/
def State.addTokens (s : State) (e : Nat) : State :=
  let add (m : Store Nat) : Store Nat :=
    m.foldl (fun acc x => Store.set (fun _ => 0) acc x.1 (x.2 - s.rf (Reg.EVP_TC0_BUDGET e x.1) 0 7)) m
  s.updPort e fun v => { v with inUsed := add v.inUsed, outUsed := add v.outUsed }

/-- Port `e` is present and its domain ON. -/
def State.portTicks (s : State) (e : Nat) : Bool := decide (e = 0 ∨ s.fuses.eth2 = true) && s.pwr (pwrEvp e) == 0

def State.tickPort (s : State) (e : Nat) : State := if s.portTicks e then (s.tickPtp e).addTokens e else s

/-- A command ring of attachment `a` waits for room in completion ring `q`: it runs, its oldest descriptor not started
names `q`, and nothing but the room keeps it back (11_host_interface.md R395, R403). -/
def State.waitsRoom (s : State) (a q r : Nat) : Bool :=
  let mine := (s.att a).descs.filter (·.ring == r)
  match mine.find? fun d => !d.started with
  | none => false
  | some d =>
    let before := (mine.filter (·.started)).length
    decide (d.cpl = q) && s.ringRuns (ringBase a .command r) && decide (before < 8) && (!d.fence || before == 0)

/-- HIF_CPL_STALL: a running completion ring with no room counts the nanoseconds that command rings wait on it
(11_host_interface.md R403). -/
def State.tickStall (s : State) (a : Nat) : State :=
  let rings := ((s.att a).descs.filter fun d => !d.started).map fun d => (d.ring, d.cpl)
  let full := (rings.filter fun x =>
    s.ringRuns (ringBase a .completion x.2) && !(s.cplRoom a x.2) && s.waitsRoom a x.2 x.1).map (·.2)
  full.eraseDups.foldl (fun t q => t.count (ringBase a .completion q + 24) 1) s

/-- Rings that owe an interrupt message and whose microsecond is over send it (11_host_interface.md R391). -/
def State.tickIrq (s : State) (a : Nat) : State := ((s.att a).irqOwed.map (·.1)).foldl (fun t b => t.ringIrq a b) s

/-- Step records of a partition that wait for their stack (08_step_commit.md R281). -/
def State.tickRecords (s : State) : State :=
  (s.parts.filter fun x => !x.2.recQ.isEmpty).foldl (fun t x => t.drainRecords x.1) s

/-- Opcodes that R209 (06_core_messaging.md) reserves. -/
def hdlReserved (op : Nat) : Bool := op == 0x0F || op == 0x16 || op == 0x17 || decide (0x25 ≤ op)

/-- Running handlers whose pc stands at a word with a reserved opcode end with the fault ILLEGAL (06_core_messaging.md
R209, R212); such a word is no row's instruction. -/
def State.tickReserved (s : State) : State :=
  s.cores.foldl (fun t x =>
    let w := t.word x.1 (handlerStore + 4 * t.pc x.1)
    if hdlReserved (fld w 26 6) then t.instr x.1 w 1 fun u => u.hdlFault x.1 hfIllegal else t) s

/-- Core cycles of nanosecond `t`: 1.5 GHz is three in two nanoseconds (03_neurons.md R92, R103). -/
def coreCycles (t : Nat) : Nat := 1 + t % 2

/-- The cycles of a nanosecond at core `p`: those in which a unit waits for a log entry are counted (08_step_commit.md R277), as are
those in which the tile waits for its stream (04_synapses_dense.md R141); a handler that waits is charged them (06_core_messaging.md
R213); and the neuron engine goes on by one lane-neuron in each (03_neurons.md R92). -/
def State.tickCore (s : State) (p : Nat) : State :=
  let c := s.core p
  let n := coreCycles s.ref
  let s1 := if c.stalled && (s.runningPart p).isSome then s.count (Reg.CORE_EMIT_STALLS p) n else s
  let s2 := if s.rf (Reg.DNS_STATUS p) 0 2 = dsStalled then s1.count (Reg.DNS_STALL p) n else s1
  let s3 := if c.wait ≠ .none ∧ c.halted = false then s2.updCore p fun v => { v with budget := v.budget - n } else s2
  match c.openStep with
  | some m => if c.neuTake.isEmpty || !((s.runningPart p).isSome) then s3 else s3.sweepOn p m n
  | none => s3

def State.tickCores (s : State) : State := s.cores.foldl (fun t x => t.tickCore x.1) s

/-- MEM_RQ_STALL: the cycles in which a grove's request queue is full (04_synapses_dense.md R152). -/
def State.tickRq (s : State) : State :=
  s.groves.foldl (fun t x => if t.rqFull x.1 then t.count (Reg.MEM_RQ_STALL x.1) (coreCycles s.ref) else t) s

/-- PLS_PASS_WAIT: the cycles in which a grove that has passed at a commit waits for its learning pass (09_plasticity.md
R310). -/
def State.tickPasses (s : State) : State :=
  s.groves.foldl (fun t x =>
    if x.2.plsPass && x.2.passed && (match x.2.asked with | some (_, round) => !round | none => false) then t.count (Reg.PLS_PASS_WAIT x.1) (coreCycles s.ref) else t) s

/-- FAB_PORT_STALL of the ports at which a packet that has arrived finds no room (05_fabric.md R192). -/
def State.tickPorts (s : State) : State :=
  let n := coreCycles s.ref
  s.net.zipIdx.foldl (fun t x =>
    let f := x.1
    if f.left ≠ 0 ∨ ((s.net.take x.2).any (sameFlow f)) = true then t
    else
      match f.place with
      | .router k => (s.routerPorts k f).foldl (fun u q => if s.maySend k q f.body then u else u.portCount k q 0x14 n) t
      | .stop g => (s.stopCopies g f).foldl (fun u y =>
          if y.1 == 6 || s.maySend (stopNode g) y.1 f.body then u else u.portCount (stopNode g) y.1 0x14 n) t
      | _ => t) s

/-- Clearings whose 3 us are over end (05_fabric.md R185). -/
def State.tickClearings (s : State) : State := s.parts.foldl (fun t x => t.clearDue x.1) s

/-- An error that strikes a SECDED word (10_integrity.md R346, R347): when and where is a free number, `x`; it names a word of local
memory, a line of a grove cache or a stream context, and a single-bit or a double-bit error, or none. Two errors of a word make a
double-bit error. -/
def strikeWord (x : Nat) (m : Store Nat) : Store Nat :=
  let place := x / 8
  let key := match x % 4 with
    | 1 => memKey (place / 0x8000 % 9216) (8 * (place % 0x8000))
    | 2 => lineKey (place % 64) (place / 64 % 2 ^ 30)
    | _ => ctxKey (place % 2 ^ 20)
  if x % 4 = 0 then m else Store.set (fun _ => 0) m key (min 2 (Store.get (fun _ => 0) m key + 1 + x / 4 % 2))

/-- What strikes in a nanosecond. -/
def State.tickFlaws (s : State) : State :=
  { s with flaws := strikeWord (Config.freeNat s.free) s.flaws, free := s.free + 1 }

/-- One nanosecond. Nothing moves while SYS_RST_N is low or before the central domain is up (15_startup_pins.md R535,
R539). -/
def State.tick (s : State) : State :=
  if s.pins.sysRstN = true ∧ s.up = true then
    let s1 := s.tickClearings.tickPorts.count64 Reg.TB_REF_LO 1
    let s2 := (s1.tickSpine.tickPort 0).tickPort 1
    let s3 := (List.range 8).foldl (fun t a => (t.tickStall a).tickIrq a) s2.tickRecords.tickReserved.tickCores.tickRq.tickPasses
    (if s3.lossNow then s3.updTb fun v => { v with lossAt := s3.ref } else s3).tickFlaws
  else s

end Sys2Proof.Machine
end

