-- ==== Sys2Proof/Safety.lean ====
section
/-! DEFINITION. What claims mean by a well-kept state and by a step that completes. -/
namespace Sys2Proof.Machine

/-- Local memory, HBM and the set-up registers are in canonical form: keys strictly rising, and nothing listed that an
unlisted key reads as. Equal contents are then equal data. -/
def State.canonical (s : State) : Prop :=
  Store.wf zeroByte s.mem = true ∧ Store.wf zeroByte s.hbm = true ∧
    Store.wf (resetWord s.fuses s.up) s.regs = true

/-- The fuses without the record of lifecycle changes (14_management_security.md R496, R498): what is fixed when the part
is made. -/
def Fuses.made (f : Fuses) : Fuses := { f with life := 0, next := 0, opens := 0, closes := 0 }

/-- The parts of State but the queue, each named as its field. -/
inductive Component where
  | fuses | up | regs | heldBits | hiLatch | loPend | mem | poison
  | flaws | hbm | cores | groves | parts | srcLive | srcStaged | srcChanged
  | canLive | canStaged | canChanged | detLive | detChanged | refusals | nacked | abandons
  | resync | linkDead | excluded | net | waiting | epXout | sigs | ctx
  | ctxPoison | atts | ports | forwards | ctxTold | tb | mgt | pins
  | flash | pwrStage | pwrHeld | out | free
  deriving DecidableEq, Repr

/-- States `s` and `t` agree on a part. -/
def Component.same (f : Component) (s t : State) : Prop :=
  match f with
  | .fuses => t.fuses = s.fuses
  | .up => t.up = s.up
  | .regs => t.regs = s.regs
  | .heldBits => t.heldBits = s.heldBits
  | .hiLatch => t.hiLatch = s.hiLatch
  | .loPend => t.loPend = s.loPend
  | .mem => t.mem = s.mem
  | .poison => t.poison = s.poison
  | .flaws => t.flaws = s.flaws
  | .hbm => t.hbm = s.hbm
  | .cores => t.cores = s.cores
  | .groves => t.groves = s.groves
  | .parts => t.parts = s.parts
  | .srcLive => t.srcLive = s.srcLive
  | .srcStaged => t.srcStaged = s.srcStaged
  | .srcChanged => t.srcChanged = s.srcChanged
  | .canLive => t.canLive = s.canLive
  | .canStaged => t.canStaged = s.canStaged
  | .canChanged => t.canChanged = s.canChanged
  | .detLive => t.detLive = s.detLive
  | .detChanged => t.detChanged = s.detChanged
  | .refusals => t.refusals = s.refusals
  | .nacked => t.nacked = s.nacked
  | .abandons => t.abandons = s.abandons
  | .resync => t.resync = s.resync
  | .linkDead => t.linkDead = s.linkDead
  | .excluded => t.excluded = s.excluded
  | .net => t.net = s.net
  | .waiting => t.waiting = s.waiting
  | .epXout => t.epXout = s.epXout
  | .sigs => t.sigs = s.sigs
  | .ctx => t.ctx = s.ctx
  | .ctxPoison => t.ctxPoison = s.ctxPoison
  | .atts => t.atts = s.atts
  | .ports => t.ports = s.ports
  | .forwards => t.forwards = s.forwards
  | .ctxTold => t.ctxTold = s.ctxTold
  | .tb => t.tb = s.tb
  | .mgt => t.mgt = s.mgt
  | .pins => t.pins = s.pins
  | .flash => t.flash = s.flash
  | .pwrStage => t.pwrStage = s.pwrStage
  | .pwrHeld => t.pwrHeld = s.pwrHeld
  | .out => t.out = s.out
  | .free => t.free = s.free

/-- The parts of State that each command may touch; it leaves every other part as it is. -/
def touched (c : Instr) : List Component :=
  match c with
  | .registerWrite _ _ _ => [.regs, .heldBits, .loPend, .flaws, .cores, .groves, .parts, .detChanged, .net, .sigs,
      .ctx, .ctxPoison, .atts, .ports, .forwards, .mgt, .pwrStage, .pwrHeld, .out]
  | .reg64LoRead _ _ => [.regs, .hiLatch, .out]
  | .roleFenceWrite _ _ _ => [.regs, .groves, .parts, .sigs, .forwards, .pwrStage, .pwrHeld, .out]
  | .groveFault _ _ => [.regs, .flaws, .hbm, .cores, .groves, .parts, .net, .sigs, .ctx, .ctxPoison, .atts, .ports,
      .out, .free]
  | .stepOpen _ => [.regs, .flaws, .cores, .groves, .parts, .net, .waiting, .epXout, .sigs, .ctx, .ctxPoison, .atts,
      .ports, .out]
  | .stepOpenIndication _ _ _ _ => [.regs, .mem, .poison, .flaws, .cores, .groves, .parts, .net, .waiting, .sigs,
      .ctx, .ctxPoison, .atts, .ports, .out, .free]
  | .integrationSpanEnd _ => [.regs, .mem, .poison, .flaws, .cores, .groves, .parts, .net, .waiting, .sigs, .ctx,
      .ctxPoison, .atts, .ports, .pwrStage, .pwrHeld, .out, .free]
  | .deferredDeposit _ => [.regs, .mem, .poison, .flaws, .cores, .parts, .sigs, .out, .free]
  | .coreClockGate _ => [.regs, .cores]
  | .coreWake _ _ => [.regs, .cores]
  | .synEventTake _ _ _ => [.regs, .mem, .poison, .flaws, .cores, .groves, .parts, .net, .waiting, .sigs, .ctx,
      .ctxPoison, .atts, .ports, .out, .free]
  | .rowRequest _ => [.regs, .groves, .net]
  | .rowHeader _ => [.regs, .cores, .net]
  | .block _ _ _ => [.regs, .mem, .poison, .flaws, .cores, .groves, .parts, .net, .sigs, .out, .free]
  | .hbmReadReturn _ _ _ _ _ _ => [.regs, .flaws, .hbm, .cores, .groves, .parts, .net, .sigs, .ctx, .ctxPoison,
      .atts, .ports, .out]
  | .hbmTrainingLost _ _ => [.regs, .flaws, .cores, .groves, .parts, .net, .sigs, .ctx, .ctxPoison, .atts, .ports,
      .out]
  | .denseColumnBlockDone _ _ => [.regs, .mem, .poison, .flaws, .cores, .groves, .parts, .net, .waiting, .sigs,
      .ctx, .ctxPoison, .atts, .ports, .out, .free]
  | .denseOpDone _ => [.regs, .cores, .parts, .sigs, .atts, .out]
  | .canopyPacketArrive _ => [.regs, .flaws, .cores, .groves, .parts, .net, .waiting, .sigs, .ctx, .ctxPoison,
      .atts, .ports, .out]
  | .stopReceiveCopy _ => [.regs, .flaws, .cores, .groves, .parts, .net, .sigs, .ctx, .ctxPoison, .atts, .ports, .out]
  | .linkFlitReceive _ _ _ => [.regs, .refusals, .nacked, .net]
  | .linkNack _ _ _ => [.regs, .flaws, .cores, .groves, .parts, .refusals, .nacked, .abandons, .resync, .linkDead,
      .net, .sigs, .ctx, .ctxPoison, .atts, .ports, .out]
  | .linkResyncDone _ _ => [.resync]
  | .routerFault _ => [.regs, .flaws, .hbm, .cores, .groves, .parts, .net, .sigs, .ctx, .ctxPoison, .atts, .ports,
      .out, .free]
  | .routerReset _ _ _ => [.regs, .heldBits]
  | .routerResetDone _ => [.regs, .flaws, .cores, .groves, .parts, .net, .sigs, .ctx, .ctxPoison, .atts, .ports, .out]
  | .clearingStart _ _ => [.regs, .parts]
  | .clearingRun _ => [.regs, .parts]
  | .clearingSwap _ => [.regs, .mem, .poison, .flaws, .hbm, .cores, .groves, .parts, .srcLive, .srcStaged,
      .srcChanged, .canLive, .canStaged, .canChanged, .detLive, .detChanged, .excluded, .net, .waiting, .sigs, .ctx,
      .ctxPoison, .atts, .ports, .forwards, .out, .free]
  | .clearingTimeout _ => [.regs, .mem, .poison, .flaws, .cores, .groves, .parts, .net, .waiting, .sigs, .ctx,
      .ctxPoison, .atts, .ports, .out, .free]
  | .deliveryEvaluate _ => [.regs, .flaws, .cores, .groves, .parts, .net, .waiting, .sigs, .ctx, .ctxPoison, .atts,
      .ports, .out]
  | .msg _ => [.regs, .cores, .net]
  | .notify _ => [.regs, .cores, .net]
  | .amArgs _ => [.regs, .cores, .net]
  | .response _ => [.regs, .cores, .parts, .net, .sigs, .atts, .out]
  | .syncReply _ => [.regs, .cores, .net]
  | .responseSend _ => [.regs, .flaws, .cores, .groves, .parts, .net, .waiting, .sigs, .ctx, .ctxPoison, .atts,
      .ports, .out]
  | .handlerDispatch _ => [.regs, .cores]
  | .ret _ _ => [.regs, .mem, .poison, .flaws, .cores, .parts, .sigs, .out, .free]
  | .add _ _ _ _ _ => [.regs, .mem, .poison, .flaws, .cores, .parts, .sigs, .out, .free]
  | .sub _ _ _ _ _ => [.regs, .mem, .poison, .flaws, .cores, .parts, .sigs, .out, .free]
  | .and _ _ _ _ _ => [.regs, .mem, .poison, .flaws, .cores, .parts, .sigs, .out, .free]
  | .or _ _ _ _ _ => [.regs, .mem, .poison, .flaws, .cores, .parts, .sigs, .out, .free]
  | .xor _ _ _ _ _ => [.regs, .mem, .poison, .flaws, .cores, .parts, .sigs, .out, .free]
  | .shl _ _ _ _ _ => [.regs, .mem, .poison, .flaws, .cores, .parts, .sigs, .out, .free]
  | .shr _ _ _ _ _ => [.regs, .mem, .poison, .flaws, .cores, .parts, .sigs, .out, .free]
  | .sar _ _ _ _ _ => [.regs, .mem, .poison, .flaws, .cores, .parts, .sigs, .out, .free]
  | .slt _ _ _ _ _ => [.regs, .mem, .poison, .flaws, .cores, .parts, .sigs, .out, .free]
  | .mul _ _ _ _ _ => [.regs, .mem, .poison, .flaws, .cores, .parts, .sigs, .out, .free]
  | .addi _ _ _ _ => [.regs, .mem, .poison, .flaws, .cores, .parts, .sigs, .out, .free]
  | .andi _ _ _ _ => [.regs, .mem, .poison, .flaws, .cores, .parts, .sigs, .out, .free]
  | .ori _ _ _ _ => [.regs, .mem, .poison, .flaws, .cores, .parts, .sigs, .out, .free]
  | .lui _ _ _ _ => [.regs, .mem, .poison, .flaws, .cores, .parts, .sigs, .out, .free]
  | .ld _ _ _ _ => [.regs, .mem, .poison, .flaws, .cores, .parts, .sigs, .out, .free]
  | .st _ _ _ _ => [.regs, .mem, .poison, .flaws, .cores, .parts, .sigs, .out, .free]
  | .ldb _ _ _ _ => [.regs, .mem, .poison, .flaws, .cores, .parts, .sigs, .out, .free]
  | .stb _ _ _ _ => [.regs, .mem, .poison, .flaws, .cores, .parts, .sigs, .out, .free]
  | .nrd _ _ _ _ => [.regs, .mem, .poison, .flaws, .cores, .parts, .sigs, .out, .free]
  | .sys _ _ _ _ => [.regs, .mem, .poison, .flaws, .cores, .parts, .sigs, .out, .free]
  | .emit _ _ _ _ _ => [.regs, .mem, .poison, .flaws, .cores, .groves, .parts, .net, .waiting, .sigs, .ctx,
      .ctxPoison, .atts, .ports, .out, .free]
  | .dense _ _ _ _ _ => [.regs, .mem, .poison, .flaws, .cores, .parts, .sigs, .out, .free]
  | .send _ _ _ _ _ => [.regs, .mem, .poison, .flaws, .cores, .groves, .parts, .net, .waiting, .sigs, .ctx,
      .ctxPoison, .atts, .ports, .out, .free]
  | .sendw _ _ _ _ _ => [.regs, .mem, .poison, .flaws, .cores, .groves, .parts, .net, .waiting, .sigs, .ctx,
      .ctxPoison, .atts, .ports, .out, .free]
  | .waitq _ _ _ _ => [.regs, .mem, .poison, .flaws, .cores, .parts, .sigs, .out, .free]
  | .sadd _ _ _ _ _ => [.regs, .mem, .poison, .flaws, .cores, .groves, .parts, .net, .waiting, .sigs, .ctx,
      .ctxPoison, .atts, .ports, .out, .free]
  | .swait _ _ _ _ _ => [.regs, .mem, .poison, .flaws, .cores, .groves, .parts, .net, .waiting, .sigs, .ctx,
      .ctxPoison, .atts, .ports, .out, .free]
  | .sread _ _ _ _ _ => [.regs, .mem, .poison, .flaws, .cores, .groves, .parts, .net, .waiting, .sigs, .ctx,
      .ctxPoison, .atts, .ports, .out, .free]
  | .beq _ _ _ _ => [.regs, .mem, .poison, .flaws, .cores, .parts, .sigs, .out, .free]
  | .bne _ _ _ _ => [.regs, .mem, .poison, .flaws, .cores, .parts, .sigs, .out, .free]
  | .blt _ _ _ _ => [.regs, .mem, .poison, .flaws, .cores, .parts, .sigs, .out, .free]
  | .bge _ _ _ _ => [.regs, .mem, .poison, .flaws, .cores, .parts, .sigs, .out, .free]
  | .j _ _ => [.regs, .mem, .poison, .flaws, .cores, .parts, .sigs, .out, .free]
  | .handlerBudgetExpire _ => [.regs, .cores, .parts, .sigs, .out]
  | .sendResponseTimeout _ => [.regs, .cores]
  | .sendwRetryGap _ => [.regs, .flaws, .cores, .groves, .parts, .net, .waiting, .sigs, .ctx, .ctxPoison, .atts,
      .ports, .out]
  | .waitqTimeout _ => [.regs, .cores]
  | .syncAdd _ => [.regs, .flaws, .cores, .groves, .parts, .net, .waiting, .sigs, .ctx, .ctxPoison, .atts, .ports,
      .out]
  | .syncWait _ => [.regs, .flaws, .cores, .groves, .parts, .net, .waiting, .sigs, .ctx, .ctxPoison, .atts, .ports,
      .out]
  | .syncRead _ => [.regs, .flaws, .cores, .groves, .parts, .net, .waiting, .sigs, .ctx, .ctxPoison, .atts, .ports,
      .out]
  | .syncNotifyIssue _ => [.regs, .flaws, .cores, .groves, .parts, .net, .waiting, .sigs, .ctx, .ctxPoison, .atts,
      .ports, .out]
  | .hostSyncAdd _ _ _ _ => [.regs, .groves]
  | .bar2SyncWrite _ _ _ _ _ => [.regs, .groves]
  | .encCount _ => [.regs, .cores, .parts, .ports, .tb]
  | .lineEdge => [.regs, .cores, .parts, .ports, .tb]
  | .mainsZeroCross => [.regs, .tb]
  | .mainsTick => [.regs, .cores, .parts, .ports, .tb]
  | .ptpFollowTick => [.regs, .cores, .parts, .ports, .tb]
  | .intTick => [.regs, .cores, .parts, .ports, .tb]
  | .phaseLost => [.regs, .parts, .sigs, .tb, .out]
  | .sourceAutoReturn => [.regs, .tb]
  | .pinStamp _ _ => [.regs, .tb]
  | .stampDeliver _ => [.regs, .flaws, .cores, .groves, .parts, .net, .waiting, .epXout, .sigs, .ctx, .ctxPoison,
      .atts, .ports, .ctxTold, .tb, .out]
  | .channelFire _ => [.regs, .cores, .parts, .ports]
  | .channelArm _ _ _ => [.regs, .heldBits, .cores, .parts, .ports]
  | .channelDisarm _ _ _ => [.regs, .heldBits, .cores, .parts, .ports]
  | .compareWrite _ _ _ => [.regs, .loPend, .cores, .parts, .ports]
  | .intervalWrite _ _ _ => [.regs, .cores, .parts, .ports]
  | .groupStart _ _ => [.regs, .heldBits, .loPend, .flaws, .cores, .groves, .parts, .detChanged, .net, .sigs, .ctx,
      .ctxPoison, .atts, .ports, .forwards, .mgt, .pwrStage, .pwrHeld, .out]
  | .sequencerFire _ => [.regs, .mem, .poison, .flaws, .cores, .groves, .parts, .net, .waiting, .epXout, .sigs,
      .ctx, .ctxPoison, .atts, .ports, .out, .free]
  | .stretchLimit _ => [.regs, .flaws, .cores, .groves, .parts, .net, .sigs, .ctx, .ctxPoison, .atts, .ports, .out]
  | .lastInjectionDeclare _ => [.cores, .parts]
  | .round _ => [.regs, .mem, .poison, .flaws, .cores, .groves, .parts, .net, .waiting, .sigs, .ctx, .ctxPoison,
      .atts, .ports, .out, .free]
  | .checkReport _ => [.groves, .net]
  | .groveVerdict _ => [.regs, .flaws, .cores, .groves, .parts, .net, .waiting, .sigs, .ctx, .ctxPoison, .atts,
      .ports, .pwrStage, .pwrHeld, .out]
  | .shadowCopy _ _ => [.regs, .mem, .poison, .flaws, .cores, .groves, .parts, .net, .waiting, .sigs, .ctx,
      .ctxPoison, .atts, .ports, .out]
  | .replayCopyDone _ _ _ _ => [.regs, .heldBits, .mem, .poison, .flaws, .cores, .groves, .parts, .sigs, .out, .free]
  | .replayDone _ => [.regs, .mem, .poison, .flaws, .cores, .groves, .parts, .net, .waiting, .sigs, .ctx,
      .ctxPoison, .atts, .ports, .pwrStage, .pwrHeld, .out, .free]
  | .twinRepairDone _ => [.regs, .mem, .poison, .flaws, .cores, .groves, .parts, .net, .waiting, .sigs, .ctx,
      .ctxPoison, .atts, .ports, .out]
  | .partitionCommit _ => [.regs, .mem, .poison, .flaws, .hbm, .cores, .groves, .parts, .net, .waiting, .sigs, .ctx,
      .ctxPoison, .atts, .ports, .pwrStage, .pwrHeld, .out, .free]
  | .fenceMigrationDone _ => [.regs, .heldBits, .mem, .poison, .flaws, .cores, .groves, .parts, .srcLive,
      .srcStaged, .srcChanged, .sigs, .forwards, .pwrStage, .pwrHeld, .out]
  | .plsPassDone _ _ => [.regs, .flaws, .hbm, .cores, .groves, .parts, .net, .sigs, .ctx, .ctxPoison, .atts, .ports,
      .out]
  | .applyStart _ => [.regs, .flaws, .cores, .groves, .parts, .net, .sigs, .ctx, .ctxPoison, .atts, .ports, .out]
  | .applyDone _ _ => [.regs, .flaws, .hbm, .cores, .groves, .parts, .net, .sigs, .ctx, .ctxPoison, .atts, .ports,
      .out]
  | .endEpoch _ _ _ => [.regs, .heldBits, .parts]
  | .scrub _ _ => [.regs, .mem, .poison, .flaws, .cores, .parts, .sigs, .out, .free]
  | .cfgDigestPass _ => [.regs, .parts, .sigs, .out]
  | .testDue _ => [.regs, .cores, .groves, .parts, .sigs, .pwrStage, .pwrHeld, .out]
  | .testMigrate _ => [.regs, .heldBits, .mem, .poison, .flaws, .cores, .groves, .parts, .srcLive, .srcStaged,
      .srcChanged, .sigs, .forwards, .pwrStage, .pwrHeld, .out]
  | .testDeferExpire _ => [.regs]
  | .testDone _ _ _ => [.regs, .mem, .poison, .flaws, .cores, .groves, .parts, .sigs, .out]
  | .functionLevelReset _ => [.regs, .heldBits, .parts, .net, .sigs, .atts, .out]
  | .pcieLinkLoss _ => [.regs, .heldBits, .parts, .net, .sigs, .atts, .out]
  | .perstChange _ _ => [.regs, .heldBits, .parts, .net, .sigs, .atts, .pins, .out]
  | .configRequest _ _ => [.atts, .out, .free]
  | .scanEnable _ _ => [.regs, .heldBits, .atts]
  | .ringEnable _ _ _ _ => [.regs, .heldBits, .atts]
  | .ringDisable _ _ _ _ => [.regs, .heldBits, .atts]
  | .doorbellScan _ => [.regs, .atts]
  | .scanReturn _ _ _ => [.regs, .parts, .sigs, .atts, .out]
  | .nop _ _ => [.regs, .parts, .sigs, .atts, .out]
  | .loadMem _ _ _ => [.regs, .flaws, .cores, .groves, .parts, .net, .waiting, .sigs, .ctx, .ctxPoison, .atts,
      .ports, .pwrStage, .pwrHeld, .out]
  | .readMem _ _ => [.regs, .flaws, .cores, .groves, .parts, .net, .waiting, .sigs, .ctx, .ctxPoison, .atts, .ports,
      .pwrStage, .pwrHeld, .out]
  | .loadNeurons _ _ _ => [.regs, .flaws, .cores, .groves, .parts, .net, .waiting, .sigs, .ctx, .ctxPoison, .atts,
      .ports, .pwrStage, .pwrHeld, .out]
  | .readNeurons _ _ => [.regs, .flaws, .cores, .groves, .parts, .net, .waiting, .sigs, .ctx, .ctxPoison, .atts,
      .ports, .pwrStage, .pwrHeld, .out]
  | .loadTable _ _ _ => [.regs, .flaws, .cores, .groves, .parts, .net, .waiting, .sigs, .ctx, .ctxPoison, .atts,
      .ports, .pwrStage, .pwrHeld, .out]
  | .readTable _ _ => [.regs, .flaws, .cores, .groves, .parts, .net, .waiting, .sigs, .ctx, .ctxPoison, .atts,
      .ports, .pwrStage, .pwrHeld, .out]
  | .loadRows _ _ _ => [.regs, .flaws, .hbm, .cores, .groves, .parts, .net, .waiting, .sigs, .ctx, .ctxPoison,
      .atts, .ports, .pwrStage, .pwrHeld, .out, .free]
  | .writeHbm _ _ _ => [.regs, .hbm, .groves, .parts, .sigs, .atts, .out]
  | .readHbm _ _ _ => [.regs, .parts, .sigs, .atts, .out]
  | .loadContext _ _ _ => [.regs, .flaws, .parts, .sigs, .ctx, .ctxPoison, .atts, .out]
  | .readContext _ _ => [.regs, .flaws, .parts, .sigs, .ctxPoison, .atts, .out]
  | .ingest _ _ _ => [.regs, .flaws, .cores, .groves, .parts, .net, .waiting, .epXout, .sigs, .ctx, .ctxPoison,
      .atts, .ports, .ctxTold, .out]
  | .message _ _ => [.regs, .flaws, .cores, .groves, .parts, .net, .waiting, .sigs, .ctx, .ctxPoison, .atts, .ports,
      .out]
  | .messageTimeout _ => [.regs, .parts, .sigs, .atts, .out]
  | .denseRun _ _ => [.regs, .cores, .parts, .sigs, .atts, .out]
  | .loadWrite _ => [.regs, .mem, .poison, .flaws, .cores, .groves, .parts, .srcStaged, .srcChanged, .canStaged,
      .canChanged, .net, .waiting, .sigs, .ctx, .ctxPoison, .atts, .ports, .out, .free]
  | .loadRead _ => [.regs, .mem, .poison, .flaws, .cores, .groves, .parts, .net, .waiting, .sigs, .ctx, .ctxPoison,
      .atts, .ports, .out, .free]
  | .readReturn _ => [.regs, .parts, .net, .sigs, .atts, .out]
  | .tapCopyArrive _ => [.regs, .parts, .net, .sigs, .atts, .out]
  | .partitionEnable _ _ _ => [.regs, .flaws, .cores, .groves, .parts, .net, .sigs, .ctx, .ctxPoison, .atts, .ports,
      .out]
  | .enableCheckDone _ => [.regs, .mem, .poison, .flaws, .hbm, .cores, .groves, .parts, .srcLive, .srcStaged,
      .srcChanged, .canLive, .canStaged, .canChanged, .detLive, .detChanged, .excluded, .net, .waiting, .epXout,
      .sigs, .ctx, .ctxPoison, .atts, .ports, .forwards, .out, .free]
  | .partitionDisable _ _ _ => [.regs, .flaws, .cores, .groves, .parts, .net, .sigs, .ctx, .ctxPoison, .atts,
      .ports, .out]
  | .lyletFrameReceive _ _ _ _ _ _ => [.regs, .flaws, .cores, .groves, .parts, .net, .waiting, .epXout, .sigs, .ctx,
      .ctxPoison, .atts, .ports, .ctxTold, .out]
  | .ptpEventMessage _ _ _ _ _ _ _ => [.regs, .parts, .sigs, .ports, .out]
  | .portTapCopy _ => [.regs, .flaws, .parts, .net, .sigs, .ctx, .ctxPoison, .ports, .out]
  | .frameTransmit _ => [.regs, .flaws, .ctx, .ctxPoison, .ports, .out, .free]
  | .evpLinkDown _ => [.regs, .parts, .sigs, .out]
  | .powerRequest _ _ _ => [.regs, .pwrStage, .pwrHeld]
  | .powerEntryStage _ => [.regs, .heldBits, .parts, .net, .sigs, .atts, .pwrStage, .pwrHeld, .out]
  | .powerAbortDone _ => [.regs, .pwrStage, .pwrHeld]
  | .powerWakeDone _ => [.regs, .heldBits, .mem, .poison, .flaws, .hbm, .cores, .groves, .parts, .srcLive,
      .srcStaged, .srcChanged, .canLive, .canStaged, .canChanged, .detLive, .detChanged, .refusals, .nacked,
      .abandons, .resync, .linkDead, .excluded, .net, .waiting, .sigs, .ctx, .ctxPoison, .atts, .ports, .forwards,
      .tb, .pwrStage, .pwrHeld, .out]
  | .bankHandover _ _ _ _ => [.regs, .cores]
  | .bankHandoverEffect _ _ => [.regs, .cores]
  | .getStatus _ _ => [.fuses, .regs, .heldBits, .loPend, .flaws, .cores, .groves, .parts, .net, .sigs, .ctx,
      .ctxPoison, .atts, .ports, .tb, .mgt, .flash, .pwrStage, .pwrHeld, .out]
  | .getRecords _ _ => [.fuses, .regs, .heldBits, .loPend, .flaws, .cores, .groves, .parts, .net, .sigs, .ctx,
      .ctxPoison, .atts, .ports, .tb, .mgt, .flash, .pwrStage, .pwrHeld, .out]
  | .stage _ _ => [.fuses, .regs, .heldBits, .loPend, .flaws, .cores, .groves, .parts, .net, .sigs, .ctx,
      .ctxPoison, .atts, .ports, .tb, .mgt, .flash, .pwrStage, .pwrHeld, .out]
  | .confirm _ _ => [.fuses, .regs, .heldBits, .loPend, .flaws, .cores, .groves, .parts, .net, .sigs, .ctx,
      .ctxPoison, .atts, .ports, .tb, .mgt, .flash, .pwrStage, .pwrHeld, .out]
  | .cancel _ _ => [.fuses, .regs, .heldBits, .loPend, .flaws, .cores, .groves, .parts, .net, .sigs, .ctx,
      .ctxPoison, .atts, .ports, .tb, .mgt, .flash, .pwrStage, .pwrHeld, .out]
  | .readStage _ _ => [.fuses, .regs, .heldBits, .loPend, .flaws, .cores, .groves, .parts, .net, .sigs, .ctx,
      .ctxPoison, .atts, .ports, .tb, .mgt, .flash, .pwrStage, .pwrHeld, .out]
  | .devcfg _ _ => [.fuses, .regs, .heldBits, .loPend, .flaws, .cores, .groves, .parts, .net, .sigs, .ctx,
      .ctxPoison, .atts, .ports, .tb, .mgt, .flash, .pwrStage, .pwrHeld, .out]
  | .patternPush _ _ _ => [.fuses, .regs, .heldBits, .loPend, .flaws, .cores, .groves, .parts, .net, .sigs, .ctx,
      .ctxPoison, .atts, .ports, .tb, .mgt, .flash, .pwrStage, .pwrHeld, .out]
  | .lifecycle _ _ => [.fuses, .regs, .heldBits, .loPend, .flaws, .cores, .groves, .parts, .net, .sigs, .ctx,
      .ctxPoison, .atts, .ports, .tb, .mgt, .flash, .pwrStage, .pwrHeld, .out]
  | .readCoreMem _ _ => [.fuses, .regs, .heldBits, .loPend, .flaws, .cores, .groves, .parts, .net, .sigs, .ctx,
      .ctxPoison, .atts, .ports, .tb, .mgt, .flash, .pwrStage, .pwrHeld, .out]
  | .mgmtNet _ _ => [.fuses, .regs, .heldBits, .loPend, .flaws, .cores, .groves, .parts, .net, .sigs, .ctx,
      .ctxPoison, .atts, .ports, .tb, .mgt, .flash, .pwrStage, .pwrHeld, .out]
  | .ack _ _ => [.regs, .sigs, .mgt]
  | .setEndpointId _ _ => [.regs, .mgt, .out]
  | .getEndpointId => [.out]
  | .getMctpVersionSupport _ => [.out]
  | .getMessageTypeSupport => [.out]
  | .getVendorDefinedMessageSupport _ => [.out]
  | .neighbourRequest _ _ => [.out]
  | .stageExpire _ => [.regs, .mgt, .out]
  | .reportResend => [.mgt, .out]
  | .tamperFire _ => [.regs, .heldBits, .flaws, .cores, .groves, .parts, .net, .sigs, .ctx, .ctxPoison, .atts,
      .ports, .mgt, .out]
  | .bypass => [.mgt, .out]
  | .samplePreload _ => [.mgt, .out, .free]
  | .extest _ => [.mgt, .out, .free]
  | .idcode => [.mgt, .out]
  | .clamp => [.mgt, .out]
  | .highz => [.mgt, .out]
  | .dbgStatus => [.out]
  | .dbgChallenge => [.mgt, .out, .free]
  | .dbgResponse _ => [.regs, .mgt, .out]
  | .dbgPassword _ _ => [.regs, .mgt, .out]
  | .dbgClose => [.regs]
  | .dbgNonceExpire => [.mgt]
  | .debugSetupAccess _ _ _ _ _ => [.regs, .heldBits, .loPend, .flaws, .cores, .groves, .parts, .detChanged, .net,
      .sigs, .ctx, .ctxPoison, .atts, .ports, .forwards, .mgt, .pwrStage, .pwrHeld, .out]
  | .debugPartitionHalt _ => [.regs, .parts]
  | .debugCoreHalt _ => [.regs, .cores]
  | .debugResume _ _ => [.regs, .cores, .parts, .ports]
  | .sysRstNRise => [.fuses, .up, .regs, .heldBits, .hiLatch, .loPend, .mem, .poison, .flaws, .hbm, .cores, .groves,
      .parts, .srcLive, .srcStaged, .srcChanged, .canLive, .canStaged, .canChanged, .detLive, .detChanged,
      .refusals, .nacked, .abandons, .resync, .linkDead, .excluded, .net, .waiting, .epXout, .sigs, .ctx,
      .ctxPoison, .atts, .ports, .forwards, .ctxTold, .tb, .mgt, .pins, .flash, .pwrStage, .pwrHeld, .out, .free]
  | .sysRstNFall => [.fuses, .up, .regs, .heldBits, .hiLatch, .loPend, .mem, .poison, .flaws, .hbm, .cores, .groves,
      .parts, .srcLive, .srcStaged, .srcChanged, .canLive, .canStaged, .canChanged, .detLive, .detChanged,
      .refusals, .nacked, .abandons, .resync, .linkDead, .excluded, .net, .waiting, .epXout, .sigs, .ctx,
      .ctxPoison, .atts, .ports, .forwards, .ctxTold, .tb, .mgt, .pins, .flash, .pwrStage, .pwrHeld, .out, .free]
  | .mgmtBootDone => [.pins]
  | .pgCoreRise => [.up, .regs, .pins, .free]
  | .pgIoRise => [.fuses, .regs, .heldBits, .loPend, .flaws, .cores, .groves, .parts, .net, .sigs, .ctx, .ctxPoison,
      .atts, .ports, .tb, .mgt, .pins, .flash, .pwrStage, .pwrHeld, .out]
  | .pgHbmRise _ => [.regs, .pins, .pwrStage]
  | .pgWaitTimeout _ => [.fuses, .regs, .heldBits, .loPend, .flaws, .cores, .groves, .parts, .net, .sigs, .ctx,
      .ctxPoison, .atts, .ports, .tb, .mgt, .pins, .flash, .pwrStage, .pwrHeld, .out]
  | .hbmTrainingDone _ _ => [.fuses, .regs, .heldBits, .loPend, .flaws, .cores, .groves, .parts, .net, .sigs, .ctx,
      .ctxPoison, .atts, .ports, .tb, .mgt, .pins, .flash, .pwrStage, .pwrHeld, .out, .free]
  | .hbmClearDone _ => [.fuses, .regs, .heldBits, .loPend, .mem, .poison, .flaws, .hbm, .cores, .groves, .parts,
      .srcLive, .srcStaged, .srcChanged, .canLive, .canStaged, .canChanged, .detLive, .detChanged, .refusals,
      .nacked, .abandons, .resync, .linkDead, .excluded, .net, .waiting, .sigs, .ctx, .ctxPoison, .atts, .ports,
      .forwards, .tb, .mgt, .pins, .flash, .pwrStage, .pwrHeld, .out]
  | .pgFall _ => [.regs, .heldBits, .flaws, .hbm, .cores, .groves, .parts, .net, .sigs, .ctx, .ctxPoison, .atts,
      .ports, .pins, .out, .free]
  | .thermalTrip _ _ => [.regs, .heldBits, .flaws, .hbm, .cores, .groves, .parts, .net, .sigs, .ctx, .ctxPoison,
      .atts, .ports, .pins, .out, .free]
  | .cvuStart _ _ => [.regs, .heldBits]
  | .cvuRunningWrite _ _ _ => [.regs, .loPend]
  | .evpLinkUp _ _ => [.regs]
  | .pcieLinkUp _ _ _ => [.regs, .atts]

/-- What a command leaves behind, where it completes. -/
def completes (c : Instr) (s : State) (post : State → Prop) : Prop :=
  ∃ t, exec c s = .next t ∧ post t

/-- Every register but those whose keys are listed reads in `t` as in `s`. -/
def otherRegs (ks : List Nat) (s t : State) : Prop := ∀ k, k ∉ ks → t.rd k = s.rd k

/-- Every core's own state but core `p`'s is in `t` as in `s`. -/
def otherCores (p : Nat) (s t : State) : Prop := ∀ q, q ≠ p → t.core q = s.core q

/-- Every grove's own state but grove `g`'s is in `t` as in `s`. -/
def otherGroves (g : Nat) (s t : State) : Prop := ∀ h, h ≠ g → t.grove h = s.grove h

/-- Every partition's own state but partition `k`'s is in `t` as in `s`. -/
def otherParts (k : Nat) (s t : State) : Prop := ∀ j, j ≠ k → t.part j = s.part j

/-- The words that hold `n` bytes of local memory of core `p` from `off` on are not poisoned, and no error that has still to be met
stands in them (10_integrity.md R346, R347). -/
def State.intact (s : State) (p off n : Nat) : Prop :=
  s.poisoned p off n = false ∧ ∀ e, e ∈ s.flaws → ¬(memKey p off / 8 * 8 ≤ e.1 ∧ e.1 < memKey p off + n)

/-- Core `p` is about to issue the instruction word `w`, which it can read (06_core_messaging.md R205, R213). -/
def State.willIssue (s : State) (p : Nat) (w : Word) : Prop :=
  s.issues p w = true ∧ s.intact p (handlerStore + 4 * s.pc p) 4

/-- Key of the telemetry register that shows the high-water marks of the input of core `p`'s router from its endpoints
(05_fabric.md R192). -/
def inputHigh (p : Nat) : Nat := portKey p 4 + 0x10

/-- A packet of core `p`, injected at its router, that belongs to no step (05_fabric.md R157, R158). -/
def State.corePkt (s : State) (p : Nat) (tag : Tag) (way : Option Nat) (b : Body) (mark : Nat) : Flight :=
  { place := .router p, tag := tag, way := way, part := (s.partOf (p / 144)).getD 0, step := none, body := b, mark := mark, src := p }

/-- An instruction of core `p` has completed in `cycles` cycles of the budget and instruction `n` issues next: nothing but
registers of the handler, its budget and HDL_STATUS.PC has changed (06_core_messaging.md R209, R213). -/
def wentTo (p cycles n : Nat) (s t : State) : Prop :=
  t.rd (Reg.HDL_STATUS p) = setFld (s.rd (Reg.HDL_STATUS p)) 0 11 n ∧ t.pc p = n % 2 ^ 11 ∧
    t.core p = { s.core p with hregs := (t.core p).hregs, budget := (s.core p).budget - cycles } ∧
    otherCores p s t ∧ otherRegs [Reg.HDL_STATUS p] s t

/-- The instruction after the one that has completed issues next. -/
def wentOn (p cycles : Nat) (s t : State) : Prop := wentTo p cycles (s.pc p + 1) s t

/-- Handler register `rd` of core `p` holds `w`, unless it is h0, which reads zero; the others hold what they held
(06_core_messaging.md R207). -/
def wrote (p rd : Nat) (w : Word) (s t : State) : Prop :=
  ∀ r, r < 16 → t.h p r = if r = rd ∧ r ≠ 0 then w else s.h p r

/-- Every handler register of core `p` holds what it held. -/
def keptRegs (p : Nat) (s t : State) : Prop := ∀ r, r < 16 → t.h p r = s.h p r

/-- Every byte of local memory but those of `n` bytes from offset `off` of core `p` reads in `t` as in `s`. -/
def otherBytes (p off n : Nat) (s t : State) : Prop :=
  ∀ q o, ¬(memKey p off ≤ memKey q o ∧ memKey q o < memKey p off + n) → t.byte q o = s.byte q o

/-- The handler of core `p` has ended in a fault of `cause` at the instruction it was issuing, and the instruction has
had no effect (06_core_messaging.md R212): the fault is counted, and kept in HDL_FAULT where none is kept there. -/
def faulted (p cause : Nat) (s t : State) : Prop :=
  t.hdlSt p = hsIdle ∧ keptRegs p s t ∧ t.rd (Reg.HDL_FAULTS p) = sticky (s.rd (Reg.HDL_FAULTS p)) 1 ∧
    t.rd (Reg.HDL_FAULT p) = (if s.bit (Reg.HDL_FAULT p) 31 then s.rd (Reg.HDL_FAULT p)
      else BitVec.ofNat 32 (2 ^ 31 + cause * 2 ^ 24 + s.rf (Reg.HDL_STATUS p) 16 6 * 2 ^ 16 + s.pc p))

/-- Neither channel `ch` nor its master is due, so that no fire comes before a write of one of its registers (07_timebase.md R249, R256). -/
def State.notDue (s : State) (ch : Nat) : Prop :=
  s.chReady ch = false ∧ ∀ m, m ∈ s.masterOf ch → s.chReady m = false

/-- No channel is due; one that is armed has its state written (07_timebase.md R248, R249). -/
def State.noneDue (s : State) : Prop := ∀ ch, ch ∈ s.chWhere 4 → s.chReady ch = false

/-- No stack that holds one of the `n` bytes of HBM from `a` on has failed (04_synapses_dense.md R136). -/
def State.readable (s : State) (a n : Nat) : Prop := ∀ i, i < n → s.stackState ((a + i) / stackBytes) ≠ 3

/-- The fabric without packet `i`: the state in which the rest of it is looked at as the packet moves on. -/
def State.without (s : State) (i : Nat) : State := { s with net := s.net.eraseIdx i }

/-- Packet `f` as it is sent to input `q` of node `n`: on the link, with none of its flits received (05_fabric.md R155, R163). -/
def Flight.sentTo (f : Flight) (n q : Nat) : Flight :=
  { f with place := f.placeAt n, inPort := q, left := flits f.body, shares := false }

/-- A packet may cross the link from port `port` of node `k` to input `q` of node `n`: the link is UP, the node takes packets in, and the
input has room for it (05_fabric.md R163, R186). -/
def State.crosses (s : State) (i k port n q : Nat) (b : Body) : Prop :=
  linkPeer k port = some (n, q) ∧ s.linkCut k port n q = false ∧ (s.without i).roomAt n q b = true

/-- Packet `i` is the one that the next link flit to input `q` of node `n` on virtual channel `v` belongs to, or begins with. -/
def State.nextOnLink (s : State) (i n q v : Nat) (f : Flight) : Prop :=
  s.net[i]? = some f ∧ f.atInput n q = true ∧ f.body.vc = v ∧ f.left ≠ 0 ∧
    ∀ h, h ∈ s.net.take i → ¬(h.atInput n q = true ∧ h.body.vc = v ∧ h.left ≠ 0)

/-- Keys of a port's 64-bit counter at offset `off`, where the node has one (05_fabric.md R192, R193). -/
def portKeys (k port off : Nat) : List Nat :=
  match linkKey k port with | some key => [key + off, key + off + 4] | none => []

/-- The registers that show what the stacks of HBM have in flight (04_synapses_dense.md R153). -/
def flyRegs : List Nat := (List.range 4).map Reg.MEM_HBM_INFLIGHT

/-- Packet `f` has been taken out of place `i` of the fabric and `more` have been put in behind what was there. -/
def took (i : Nat) (more : List Flight) (s t : State) : Prop := t.net = s.net.eraseIdx i ++ more

/-- Packet `i` is `f`; it has reached the place it stands at, and no packet of its flow is there before it (05_fabric.md R164). -/
def State.arrived (s : State) (i : Nat) (f : Flight) : Prop :=
  s.net[i]? = some f ∧ f.left = 0 ∧ ∀ h, h ∈ s.net.take i → sameFlow f h = false

/-- A sync request has reached the unit of grove `g`, whose partition it names, and a reply to its core may enter the fabric
(06_core_messaging.md R214, R219; 05_fabric.md R184). -/
def State.syncAt (s : State) (i g : Nat) (r : SyncReq) : Prop :=
  ∃ f, s.arrived i f ∧ f.place = .unit (0x40 + g) ∧ f.body = .sync r ∧ s.partOf g = some f.part ∧
    s.holdsAll ((s.partOf (r.from_ / 144)).getD 0) = false

/-- A packet of the sync unit of grove `g` for core `p`, as it enters its stop (06_core_messaging.md R218, R219). -/
def State.syncPkt (s : State) (g p : Nat) (b : Body) (mark : Nat) : Flight :=
  { place := .stop g, tag := .unicast 1 p, way := none, part := (s.partOf (p / 144)).getD 0, step := none, body := b, mark := mark,
    src := unitSrc (0x40 + g), inPort := 6 }

/-- The unit's reply to request `r`: it bears the mark of the request (06_core_messaging.md R219). -/
def State.replyTo (s : State) (g : Nat) (r : SyncReq) (code : Nat) (v : Word) : Flight :=
  s.syncPkt g r.from_ (.msg 3 v srcUnit 0 code) r.mark

/-- A packet that enters the fabric, not of step traffic, is not held by a clearing of its partition (05_fabric.md R184). -/
def State.flows (s : State) (k : Nat) : Prop := s.holdsAll k = false

/-- The first replay of core `r.core` of grove `g` holds its own dense check and agrees with what the core did
(10_integrity.md R356, R357). -/
def State.replayAgrees (s : State) (g : Nat) (r : Replay) : Bool :=
  let n := s.verdictStep g
  let c := s.core r.core
  let y := s.execution r.core r.sapling n (cutDense (s.verdictRound g) c.ents
    (streamOf [kindNeuron] (s.core r.sapling).ents ++ streamOf [kindDense] (s.core r.sapling).ents ++ handlerEnts c.ents))
  !y.dense && y.agrees (s.verdictRound g) (s.execution r.core r.core n c.ents)

/-- Descriptor `d`, the only one that attachment `a` has read and not completed, may start on command ring `r` and passes
the checks that every opcode has (11_host_interface.md R395, R558). -/
def State.starts (s : State) (a r op : Nat) (d : DescRun) : Prop :=
  s.opening a r op = some (⟨a, r, d.index⟩, d) ∧ (s.att a).descs = [d] ∧ firstOf (s.descChecks a d) = none

/-- The only descriptor in progress of attachment `a` has completed with a status: its record stands in its completion
ring, where that lies in a window, and the head of its command ring has moved past it (11_host_interface.md R392, R395, R403). -/
def ended (a : Nat) (d : DescRun) (status oparg : Nat) (s t : State) : Prop :=
  let b := ringBase a .completion d.cpl
  (t.att a).descs = [] ∧ t.ringDev (ringBase a .command d.ring) = (d.index + 1) % 2 ^ 32 ∧
    t.ringDev b = (s.ringDev b + 1) % 2 ^ 32 ∧
    (s.hostOk a permWrite (s.ringAddr b + s.ringDev b % s.ringSize b * 16) 16 = true →
      .hostWrite a (s.ringAddr b + s.ringDev b % s.ringSize b * 16) (completion d status oparg (s.ringDev b)) ∈ t.out)

/-- The command ring of descriptor `d` of attachment `a` and its completion ring run (11_host_interface.md R388). -/
def State.rings (s : State) (a : Nat) (d : DescRun) : Prop :=
  s.ringRuns (ringBase a .command d.ring) = true ∧ s.ringRuns (ringBase a .completion d.cpl) = true

/-- A packet of unit `u` at the edge for endpoint `ep` of core `p`, as it stands on the link to its stop (05_fabric.md R159). -/
def edgePkt (u k ep p : Nat) (b : Body) (mark : Nat) : Flight :=
  { place := .stop (unitStop u), tag := .unicast ep p, way := none, part := k, step := none, body := b, mark := mark,
    src := unitSrc u, inPort := 5, left := flits b }

/-- A packet of attachment `a`'s host interface for the loader of core `p` (11_host_interface.md R397). -/
def loaderPkt (a k p : Nat) (b : Body) : Flight := edgePkt (0xC0 + a) k 2 p b 0

/-- What the loader of core `p` sends back to attachment `a`, as it enters at the core's router (11_host_interface.md R397). -/
def loaderAnswer (a p k : Nat) (b : Body) : Flight :=
  { place := .router p, tag := .unit (0xC0 + a) 0, way := none, part := k, step := none, body := b, src := p }

/-- The link from the endpoint of unit `u` at the edge to its stop carries packets (05_fabric.md R186), and no clearing holds those of
partition `k` (R184). -/
def State.edgeOpen (s : State) (u k : Nat) : Prop :=
  s.linkCut (edgeNode (unitStop u)) 0 (stopNode (unitStop u)) 5 = false ∧ s.holdsAll k = false

/-- A well-formed request `m` of opcode `op` stands on a path, from a party that may make it, and nothing holds it back
(14_management_security.md R488 to R491, R498, R503; 15_startup_pins.md R540). -/
def State.asks (s : State) (path : Nat) (msg : List Byte) (op : Nat) (m : List Byte) (party : Nat) : Prop :=
  s.incoming path msg = (some m, s) ∧ emNum m 1 1 = emRequest ∧ emRow m = op ∧ emFormed (decide (path < 8)) m = true ∧
    s.identify path m = (.ok party, s) ∧ s.gate party op = emOk ∧ s.pins.devReady = true

/-- The one response to request `m`, on the path it came by (14_management_security.md R491, R527). -/
def answered (path : Nat) (m : List Byte) (result : Nat) (payload : List Byte) (t : State) : Prop :=
  (path < 8 → t.rd (Reg.MGT_MB_STATUS path) =
    BitVec.ofNat 32 (2 * 2 ^ 30 + result * 2 ^ 16 + (24 + payload.length) % 2 ^ 11)) ∧
  (8 ≤ path → t.out.head? = some (.emetur (if path = pathSmbus then 2 else 3)
    (emTrailer (emMessage emResponse (emOpcode m) result (emCounter m) 0 payload))))

/-- When a request counts as arrived: a mailbox's when GO was written (14_management_security.md R491, R510). -/
def State.arrivedAt (s : State) (path : Nat) : Nat := if path < 8 then Store.get (fun _ => 0) s.mgt.goAt path else s.ref

end Sys2Proof.Machine
end

