-- ==== Sys2Proof/Certificates/Slice0/Obligations.lean ====
section
/-! DEFINITION. The statements about the FK4 block, for the provers. -/
open Sys2Proof Sys2Proof.Machine

/-! ### The queue, the whole machine -/

/-- For every state whose queue of commands starts with c, step answers what exec answers for c on the state with the
rest of the queue. (95_what_each_step_holds.md. Log entries 6, 7.) -/
def Obligations.StepTakesTheFrontCommand : Prop :=
  ∀ (s : State) (c : Instr) (rest : List Instr), s.pending = c :: rest → step s = exec c { s with pending := rest }

/-- For every command c and every state s, exec c s answers a next state whose queue is that of s: no command of the
table ends in a fault or a refusal, for the spec gives every one an effect. That a command whose event cannot occur
changes nothing is the model's choice. (95_what_each_step_holds.md, R13, R33. Log entries 5, 6.) -/
def Obligations.EveryCommandCompletes : Prop :=
  ∀ (c : Instr) (s : State), ∃ t, exec c s = .next t ∧ t.pending = s.pending

/-- For every command c and every next state t that exec answers for it, each component of the state outside the list
touched c (the local memories, HBM, the context store, the source and canopy tables, the packets in the fabric, the
cores, the groves, the partitions, the attachments, the ports, the timebase, the management state, the pins, the
fuses and the flash) is in t as it was. (R29, R32, R131, R206, R494, R501. Log entry 6.) -/
def Obligations.CommandsTouchOnlyTheirParts : Prop :=
  ∀ (c : Instr) (s t : State), exec c s = .next t → ∀ f : Component, f ∉ touched c → f.same s t

/-- For every state s and every next state t of step: if the stores of local memory, HBM and registers of s are in
canonical form (rising keys, no entry equal to what an unlisted key reads as), so are those of t; the factory-made
fields of the fuses are those of s; and the queue of t is that of s without its front. (R494, R497, R14, R15. Log
entries 11, 12.) -/
def Obligations.StepKeepsTheInvariant : Prop :=
  ∀ s t : State, step s = .next t →
    (s.canonical → t.canonical) ∧ t.fuses.made = s.fuses.made ∧ t.pending = s.pending.drop 1

/-! ### Handlers -/

/-- When core p is about to issue the word of the command (formats R and I of R208), ADD, SUB, AND, OR, XOR, SHL, SHR,
SAR, SLT and MUL write the result R209 gives from the two source registers (shifts by the low 5 bits, SLT and SAR
signed, MUL of the low 16 bits signed) in 1 cycle of the budget (MUL in 2), and ADDI, ANDI, ORI, LUI and SYS write
theirs from the 18-bit immediate (ADDI sign-extended, LUI shifted by 14, SYS 0 to 8 a device value). h0 stays zero.
The pc goes to the next instruction, and every other register, core and register of the set-up space is unchanged.
It concludes that exec answers a next state for ADD, SUB, AND, OR, XOR, SHL, SHR, SAR, SLT, MUL, ADDI, ANDI, ORI,
LUI, SYS. (R207, R208, R209, R211, R213. Log entries 36, 37.) -/
def Obligations.HandlerArithmetic : Prop :=
  (∀ (s : State) (p rd ra rb : Nat), rd < 16 → ra < 16 → rb < 16 →
    (s.willIssue p (encR 0x01 rd ra rb 0) →
      completes (.add p rd ra rb 0) s fun t => wrote p rd (s.h p ra + s.h p rb) s t ∧ wentOn p 1 s t) ∧
    (s.willIssue p (encR 0x02 rd ra rb 0) →
      completes (.sub p rd ra rb 0) s fun t => wrote p rd (s.h p ra - s.h p rb) s t ∧ wentOn p 1 s t) ∧
    (s.willIssue p (encR 0x03 rd ra rb 0) →
      completes (.and p rd ra rb 0) s fun t => wrote p rd (s.h p ra &&& s.h p rb) s t ∧ wentOn p 1 s t) ∧
    (s.willIssue p (encR 0x04 rd ra rb 0) →
      completes (.or p rd ra rb 0) s fun t => wrote p rd (s.h p ra ||| s.h p rb) s t ∧ wentOn p 1 s t) ∧
    (s.willIssue p (encR 0x05 rd ra rb 0) →
      completes (.xor p rd ra rb 0) s fun t => wrote p rd (s.h p ra ^^^ s.h p rb) s t ∧ wentOn p 1 s t) ∧
    (s.willIssue p (encR 0x06 rd ra rb 0) →
      completes (.shl p rd ra rb 0) s fun t => wrote p rd (s.h p ra <<< ((s.h p rb).toNat % 32)) s t ∧ wentOn p 1 s t) ∧
    (s.willIssue p (encR 0x07 rd ra rb 0) →
      completes (.shr p rd ra rb 0) s fun t => wrote p rd (s.h p ra >>> ((s.h p rb).toNat % 32)) s t ∧ wentOn p 1 s t) ∧
    (s.willIssue p (encR 0x08 rd ra rb 0) →
      completes (.sar p rd ra rb 0) s fun t =>
        wrote p rd ((s.h p ra).sshiftRight ((s.h p rb).toNat % 32)) s t ∧ wentOn p 1 s t) ∧
    (s.willIssue p (encR 0x09 rd ra rb 0) →
      completes (.slt p rd ra rb 0) s fun t =>
        wrote p rd (if (s.h p ra).toInt < (s.h p rb).toInt then 1 else 0) s t ∧ wentOn p 1 s t) ∧
    (s.willIssue p (encR 0x0A rd ra rb 0) →
      completes (.mul p rd ra rb 0) s fun t =>
        wrote p rd (BitVec.ofInt 32 (sx 16 (s.h p ra).toNat * sx 16 (s.h p rb).toNat)) s t ∧ wentOn p 2 s t)) ∧
  (∀ (s : State) (p rd ra imm : Nat), rd < 16 → ra < 16 → imm < 2 ^ 18 →
    (s.willIssue p (encI 0x0B rd ra imm) →
      completes (.addi p rd ra imm) s fun t => wrote p rd (s.h p ra + BitVec.ofInt 32 (sx 18 imm)) s t ∧ wentOn p 1 s t) ∧
    (s.willIssue p (encI 0x0C rd ra imm) →
      completes (.andi p rd ra imm) s fun t => wrote p rd (s.h p ra &&& BitVec.ofNat 32 imm) s t ∧ wentOn p 1 s t) ∧
    (s.willIssue p (encI 0x0D rd ra imm) →
      completes (.ori p rd ra imm) s fun t => wrote p rd (s.h p ra ||| BitVec.ofNat 32 imm) s t ∧ wentOn p 1 s t) ∧
    (s.willIssue p (encI 0x0E rd 0 imm) →
      completes (.lui p rd 0 imm) s fun t => wrote p rd (BitVec.ofNat 32 (imm * 2 ^ 14)) s t ∧ wentOn p 1 s t) ∧
    (s.willIssue p (encI 0x15 rd 0 imm) → imm ≤ 8 →
      completes (.sys p rd 0 imm) s fun t =>
        wrote p rd ((s.sysValue p imm).getD 0) s t ∧ (s.sysValue p imm).isSome = true ∧ wentOn p 1 s t))

/-- When core p issues LD, LDB or NRD at an address inside the data area (LD aligned) or at an existing lane-neuron, and
the bytes are neither poisoned nor hit by an error, rd gets the word, the byte zero-extended, or rd and rd + 1 the
two words of the live record of that lane-neuron (h0 stays zero); the pc goes on and 2 cycles are taken. ST and STB
at such an address store rd's word or low byte at exactly base + ra + imm, every other byte of every core reads as
before, every handler register is kept and 1 cycle is taken. It concludes that exec answers a next state for LD,
LDB, NRD, ST, STB. (R207, R209, R212, R101, R347. Log entry 37.) -/
def Obligations.HandlerMemory : Prop :=
  (∀ (s : State) (p rd ra imm : Nat) (ea : Nat), rd < 16 → ra < 16 → imm < 2 ^ 18 →
    (s.h p ra).toInt + sx 18 imm = (ea : Int) →
    (s.willIssue p (encI 0x10 rd ra imm) → ea % 4 = 0 → ea + 4 ≤ s.rf (Reg.HDL_DATA_SIZE p) 0 18 →
      s.intact p (s.rf (Reg.HDL_DATA_BASE p) 0 18 + ea) 4 →
      completes (.ld p rd ra imm) s fun t =>
        wrote p rd (s.word p (s.rf (Reg.HDL_DATA_BASE p) 0 18 + ea)) s t ∧ wentOn p 2 s t) ∧
    (s.willIssue p (encI 0x12 rd ra imm) → ea + 1 ≤ s.rf (Reg.HDL_DATA_SIZE p) 0 18 →
      s.intact p (s.rf (Reg.HDL_DATA_BASE p) 0 18 + ea) 1 →
      completes (.ldb p rd ra imm) s fun t =>
        wrote p rd ((s.byte p (s.rf (Reg.HDL_DATA_BASE p) 0 18 + ea)).setWidth 32) s t ∧ wentOn p 2 s t) ∧
    (∀ g, s.willIssue p (encI 0x14 rd ra imm) → rd < 15 → ea ≤ 4095 → s.grpOf p ea = some g →
      s.intact p (g.copyAt ea ((s.core p).live (ea / 64))) 8 →
      completes (.nrd p rd ra imm) s fun t =>
        (rd ≠ 0 → t.h p rd = s.word p (g.copyAt ea ((s.core p).live (ea / 64)))) ∧
        t.h p (rd + 1) = s.word p (g.copyAt ea ((s.core p).live (ea / 64)) + 4) ∧
        (∀ r, r < 16 → r ≠ rd → r ≠ rd + 1 → t.h p r = s.h p r) ∧ wentOn p 2 s t)) ∧
  (∀ (s : State) (p rd ra imm ea : Nat), rd < 16 → ra < 16 → imm < 2 ^ 18 → (s.h p ra).toInt + sx 18 imm = (ea : Int) →
    (s.willIssue p (encI 0x11 rd ra imm) → ea % 4 = 0 → ea + 4 ≤ s.rf (Reg.HDL_DATA_SIZE p) 0 18 →
      s.intact p (s.rf (Reg.HDL_DATA_BASE p) 0 18 + ea) 4 →
      completes (.st p rd ra imm) s fun t =>
        t.word p (s.rf (Reg.HDL_DATA_BASE p) 0 18 + ea) = s.h p rd ∧
        otherBytes p (s.rf (Reg.HDL_DATA_BASE p) 0 18 + ea) 4 s t ∧ keptRegs p s t ∧ wentOn p 1 s t) ∧
    (s.willIssue p (encI 0x13 rd ra imm) → ea + 1 ≤ s.rf (Reg.HDL_DATA_SIZE p) 0 18 →
      s.intact p (s.rf (Reg.HDL_DATA_BASE p) 0 18 + ea) 1 →
      completes (.stb p rd ra imm) s fun t =>
        t.byte p (s.rf (Reg.HDL_DATA_BASE p) 0 18 + ea) = (s.h p rd).setWidth 8 ∧
        otherBytes p (s.rf (Reg.HDL_DATA_BASE p) 0 18 + ea) 1 s t ∧ keptRegs p s t ∧ wentOn p 1 s t))

/-- When core p issues BEQ, BNE, BLT or BGE, the pc goes to pc + off in 2 cycles when the comparison of ra and rb holds
(BLT and BGE signed) and the target lies in the store, and to the next instruction in 1 cycle when it does not. J
goes to its target. RET of a handler that is not nested makes the engine IDLE. RET of a handler nested in a wait
restores registers, budget and pc of the outer handler, whose retry gap goes on. No branch or RET writes a handler
register otherwise, another core, or another register than HDL_STATUS. It concludes that exec answers a next state
for BEQ, BNE, BLT, BGE, J, RET. (R208, R209, R213, R215. Log entries 36, 37.) -/
def Obligations.HandlerControl : Prop :=
  ∀ (s : State) (p ra rb off : Nat), ra < 16 → rb < 16 → off < 2 ^ 18 →
    (s.willIssue p (encI 0x20 ra rb off) → s.h p ra = s.h p rb →
      0 ≤ (s.pc p : Int) + sx 18 off → (s.pc p : Int) + sx 18 off ≤ 2047 →
      completes (.beq p ra rb off) s fun t => wentTo p 2 ((s.pc p : Int) + sx 18 off).toNat s t ∧ keptRegs p s t) ∧
    (s.willIssue p (encI 0x20 ra rb off) → s.h p ra ≠ s.h p rb →
      completes (.beq p ra rb off) s fun t => wentOn p 1 s t ∧ keptRegs p s t) ∧
    (s.willIssue p (encI 0x21 ra rb off) → s.h p ra ≠ s.h p rb →
      0 ≤ (s.pc p : Int) + sx 18 off → (s.pc p : Int) + sx 18 off ≤ 2047 →
      completes (.bne p ra rb off) s fun t => wentTo p 2 ((s.pc p : Int) + sx 18 off).toNat s t ∧ keptRegs p s t) ∧
    (s.willIssue p (encI 0x21 ra rb off) → s.h p ra = s.h p rb →
      completes (.bne p ra rb off) s fun t => wentOn p 1 s t ∧ keptRegs p s t) ∧
    (s.willIssue p (encI 0x22 ra rb off) → (s.h p ra).toInt < (s.h p rb).toInt →
      0 ≤ (s.pc p : Int) + sx 18 off → (s.pc p : Int) + sx 18 off ≤ 2047 →
      completes (.blt p ra rb off) s fun t => wentTo p 2 ((s.pc p : Int) + sx 18 off).toNat s t ∧ keptRegs p s t) ∧
    (s.willIssue p (encI 0x22 ra rb off) → (s.h p rb).toInt ≤ (s.h p ra).toInt →
      completes (.blt p ra rb off) s fun t => wentOn p 1 s t ∧ keptRegs p s t) ∧
    (s.willIssue p (encI 0x23 ra rb off) → (s.h p rb).toInt ≤ (s.h p ra).toInt →
      0 ≤ (s.pc p : Int) + sx 18 off → (s.pc p : Int) + sx 18 off ≤ 2047 →
      completes (.bge p ra rb off) s fun t => wentTo p 2 ((s.pc p : Int) + sx 18 off).toNat s t ∧ keptRegs p s t) ∧
    (s.willIssue p (encI 0x23 ra rb off) → (s.h p ra).toInt < (s.h p rb).toInt →
      completes (.bge p ra rb off) s fun t => wentOn p 1 s t ∧ keptRegs p s t) ∧
    (∀ target, target < 2 ^ 11 → s.willIssue p (encJ 0x24 target) →
      completes (.j p target) s fun t => wentTo p 2 target s t ∧ keptRegs p s t) ∧
    (s.willIssue p (encJ 0x00 0) → (s.core p).outer = none →
      completes (.ret p 0) s fun t => t.rd (Reg.HDL_STATUS p) = setFld (s.rd (Reg.HDL_STATUS p)) 29 3 hsIdle ∧
        keptRegs p s t ∧ otherCores p s t ∧ otherRegs [Reg.HDL_STATUS p, Reg.CORE_EMIT_STATUS p] s t) ∧
    (∀ o, s.willIssue p (encJ 0x00 0) → (s.core p).outer = some o →
      completes (.ret p 0) s fun t => t.hdlSt p = hsRetryGap ∧ t.pc p = o.pc % 2 ^ 11 ∧ (t.core p).hregs = o.regs ∧
        (t.core p).budget = o.budget ∧ (t.core p).wait = .gap o.wait ∧ (t.core p).outer = none ∧ t.nested p = false ∧
        otherCores p s t ∧ otherRegs [Reg.HDL_STATUS p, Reg.CORE_EMIT_STATUS p] s t)

/-- With no outer handler: an instruction with a non-zero reserved field, SYS above 8, SADD and NRD of the pair at h15,
a load below or a store beyond the data area, an unaligned ST, a branch out of the store, NRD of a missing lane-
neuron, and a budget that is used up end the handler with the cause of R212. The engine is IDLE, no handler register
is changed, a store leaves memory as it was, HDL_FAULTS counts one, and HDL_FAULT holds cause, selector and pc
unless it already holds a fault. That the range is examined before the alignment is the model's reading. It
concludes that exec answers a next state for ADD, LUI, SYS, SADD, NRD, LD, STB, ST, BEQ, HANDLER_BUDGET_EXPIRE.
(R208, R209, R211, R212, R213. Log entries 37, 39.) -/
def Obligations.HandlerFaults : Prop :=
  ∀ (s : State) (p rd ra rb imm : Nat), p < 9216 → rd < 16 → ra < 16 → rb < 16 → imm < 2 ^ 18 → (s.core p).outer = none →
    (∀ ext, 0 < ext → ext < 2 ^ 14 → s.willIssue p (encR 0x01 rd ra rb ext) →
      completes (.add p rd ra rb ext) s (faulted p hfIllegal s)) ∧
    (s.willIssue p (encI 0x0E rd ra imm) → ra ≠ 0 → completes (.lui p rd ra imm) s (faulted p hfIllegal s)) ∧
    (s.willIssue p (encI 0x15 rd 0 imm) → 8 < imm → completes (.sys p rd 0 imm) s (faulted p hfIllegal s)) ∧
    (s.willIssue p (encR 0x1D 15 ra rb 0) → completes (.sadd p 15 ra rb 0) s (faulted p hfOperand s)) ∧
    (s.willIssue p (encI 0x14 15 ra imm) → completes (.nrd p 15 ra imm) s (faulted p hfOperand s)) ∧
    (s.willIssue p (encI 0x10 rd ra imm) → (s.h p ra).toInt + sx 18 imm < 0 →
      completes (.ld p rd ra imm) s (faulted p hfRange s)) ∧
    (s.willIssue p (encI 0x13 rd ra imm) →
      ((s.rf (Reg.HDL_DATA_SIZE p) 0 18 : Nat) : Int) < (s.h p ra).toInt + sx 18 imm + 1 →
      completes (.stb p rd ra imm) s fun t => faulted p hfRange s t ∧ t.mem = s.mem) ∧
    (s.willIssue p (encI 0x11 rd ra imm) → 0 ≤ (s.h p ra).toInt + sx 18 imm →
      (s.h p ra).toInt + sx 18 imm + 4 ≤ ((s.rf (Reg.HDL_DATA_SIZE p) 0 18 : Nat) : Int) →
      ((s.h p ra).toInt + sx 18 imm) % 4 ≠ 0 →
      completes (.st p rd ra imm) s fun t => faulted p hfAlign s t ∧ t.mem = s.mem) ∧
    (s.willIssue p (encI 0x20 ra rb imm) → s.h p ra = s.h p rb → 2047 < (s.pc p : Int) + sx 18 imm →
      completes (.beq p ra rb imm) s (faulted p hfBranch s)) ∧
    (s.willIssue p (encI 0x14 rd ra imm) → rd ≠ 15 → 4095 < (s.h p ra).toInt + sx 18 imm →
      completes (.nrd p rd ra imm) s (faulted p hfNeuron s)) ∧
    (s.hdlSt p ≠ hsIdle → s.hdlSt p ≠ hsHalted → (s.core p).budget = 0 → completes (.handlerBudgetExpire p) s (faulted p hfBudget s))

/-- When core p may dispatch from queue q, whose oldest entry is a header w with the arguments ws, and the handler table
entry of w's selector is valid, the engine RUNS at that entry's index with SELECTOR shown; h1 is the header, h2 to
h4 the arguments, h5 the sender, h6 the queue and argument count, the others zero; the budget is 65,536; the entry
has left the queue; HDL_INVOKE counts one; other cores and registers are unchanged. The place of the handler table
in the queue area is the model's choice. It concludes that exec answers a next state for HANDLER_DISPATCH. (R198,
R203, R204, R205, R213. Log entry 13.) -/
def Obligations.HandlerDispatch : Prop :=
  ∀ (s : State) (p q n : Nat) (w : Word) (ws : List Word) (src : Nat) (rest : List QEntry),
    s.mayDispatch p = true → (s.core p).gated = false → s.amQueue p = some q →
    ((s.core p).queue q).entries = ⟨w :: ws, src⟩ :: rest → fld w 24 2 = ws.length →
    n = (s.word p (handlerTable + 4 * fld w 26 6)).toNat → 2 ^ 31 ≤ n →
    completes (.handlerDispatch p) s fun t =>
      t.hdlSt p = hsRunning ∧ t.pc p = n % 2 ^ 11 ∧ t.rf (Reg.HDL_STATUS p) 16 6 = fld w 26 6 ∧
      t.h p 1 = w ∧ (∀ i, i < 3 → t.h p (2 + i) = ws.getD i 0) ∧ t.h p 5 = BitVec.ofNat 32 src ∧
      t.h p 6 = BitVec.ofNat 32 (q + ws.length * 8) ∧ (∀ r, 7 ≤ r → r < 16 → t.h p r = 0) ∧
      (t.core p).budget = 65536 ∧ ((t.core p).queue q).entries = rest ∧
      t.rd (Reg.HDL_INVOKE p) = sticky (s.rd (Reg.HDL_INVOKE p)) 1 ∧ otherCores p s t ∧
      otherRegs [Reg.HDL_STATUS p, Reg.HDL_INVOKE p, Reg.HDL_Q_STATUS p q] s t

/-- When core p issues EMIT with no step open at it, or after its declaration: where the log has room for a handler
event, its two words are appended for the next step with STATE PENDING, nothing is injected and the pc goes on;
where it has none, the handler waits in its EMIT and CORE_EMIT_STATUS shows the stall. Within an open step before
the declaration, with room, the two words are appended to the log of that step and to its digest stream and the pc
goes on; without room, the handler waits. Handler registers are kept, and where nothing is injected other cores and
registers too. That an EMIT outside a step takes its entries at once is the model's choice. It concludes that exec
answers a next state for EMIT. (R272, R274, R275, R276, R277, R209. Log entries 44, 173.) -/
def Obligations.HandlerEmit : Prop :=
  (∀ (s : State) (p ra rb ext slot : Nat) (e : EmitReq), p < 9216 → ra < 16 → rb < 16 → ext < 16 →
    s.willIssue p (encR 0x18 0 ra rb ext) →
    e = ⟨(s.h p ra).toNat % 2 ^ 28, (s.h p rb).toNat % 2 ^ 8, ext % 8, 1 - ext / 8⟩ →
    (s.core p).openStep = none ∨ (s.core p).declared = true →
    (s.logAllows p e.cls 2 = true → (s.core p).nextSlot 2 = some slot →
      s.intact p (logAt slot) 4 → s.intact p (logAt ((slot + 1) % 4096)) 4 →
      completes (.emit p 0 ra rb ext) s fun t =>
        (t.core p).log = (s.core p).log ++ [⟨slot, s.nextStepAt p⟩, ⟨(slot + 1) % 4096, s.nextStepAt p⟩] ∧
        t.word p (logAt slot) = BitVec.ofNat 32 (2 * 2 ^ 30 + e.key) ∧
        t.word p (logAt ((slot + 1) % 4096)) =
          BitVec.ofNat 32 (3 * 2 ^ 30 + e.value * 2 ^ 20 + e.lane * 2 ^ 17 + (1 - e.cls) * 2 ^ 16) ∧
        t.rf (Reg.CORE_EMIT_STATUS p) 0 13 = ((s.core p).log.length + 2) % 2 ^ 13 ∧ t.net = s.net ∧
        t.pc p = (s.pc p + 1) % 2 ^ 11 ∧ keptRegs p s t ∧ otherCores p s t ∧
        otherRegs [Reg.HDL_STATUS p, Reg.CORE_EMIT_STATUS p] s t) ∧
    (s.logAllows p e.cls 2 = false →
      completes (.emit p 0 ra rb ext) s fun t =>
        (t.core p).wait = .emit e ∧ t.bit (Reg.CORE_EMIT_STATUS p) 31 = true ∧ t.pc p = s.pc p ∧ t.mem = s.mem ∧
        keptRegs p s t ∧ otherCores p s t ∧ otherRegs [Reg.CORE_EMIT_STATUS p] s t)) ∧
  (∀ (s : State) (p ra rb ext n slot : Nat), p < 9216 → ra < 16 → rb < 16 → ext < 16 →
    s.willIssue p (encR 0x18 0 ra rb ext) → (s.core p).openStep = some n → (s.core p).declared = false →
    (s.logAllows p (1 - ext / 8) 2 = true → (s.core p).nextSlot 2 = some slot →
      s.intact p (logAt slot) 4 → s.intact p (logAt ((slot + 1) % 4096)) 4 →
      completes (.emit p 0 ra rb ext) s fun t =>
        (t.core p).log = (s.core p).log ++ [⟨slot, n⟩, ⟨(slot + 1) % 4096, n⟩] ∧
        (t.core p).ents = (s.core p).ents ++ handlerWords ⟨(s.h p ra).toNat % 2 ^ 28, (s.h p rb).toNat % 2 ^ 8, ext % 8, 1 - ext / 8⟩ ∧
        t.pc p = (s.pc p + 1) % 2 ^ 11 ∧ keptRegs p s t) ∧
    (s.logAllows p (1 - ext / 8) 2 = false →
      completes (.emit p 0 ra rb ext) s fun t =>
        (t.core p).wait = .emit ⟨(s.h p ra).toNat % 2 ^ 28, (s.h p rb).toNat % 2 ^ 8, ext % 8, 1 - ext / 8⟩ ∧
        (t.core p).log = (s.core p).log ∧ t.pc p = s.pc p ∧ t.bit (Reg.CORE_EMIT_STATUS p) 31 = true ∧ keptRegs p s t ∧
        otherCores p s t ∧ otherRegs [Reg.CORE_EMIT_STATUS p] s t))

/-- When core p issues WAITQ and an eligible data queue has an entry, h12 to h15 get the words of the oldest entry (zero
beyond its length), rd the queue number, the word count less 1 from bit 3 and the sender from bit 5 (R209), and the
entry has left its queue; with no entry and ra zero, rd gets 0x80000000 and 3 cycles are taken; with ra non-zero the
handler waits and HDL_STATUS shows it; when the time is over, rd gets 0x80000000 and the handler goes on. Other
registers and cores are unchanged where nothing else is named. It concludes that exec answers a next state for
WAITQ, WAITQ_TIMEOUT. (R199, R209, R210, R211, R213. Log entry 37.) -/
def Obligations.HandlerWaits : Prop :=
  ∀ (s : State) (p rd ra : Nat), rd < 16 → ra < 16 →
    (∀ mask, mask < 256 → s.willIssue p (encI 0x1C rd ra mask) → s.dataQueue p mask = none → s.h p ra = 0 →
      completes (.waitq p rd ra mask) s fun t => wrote p rd 0x80000000 s t ∧ wentOn p 3 s t) ∧
    (∀ mask, mask < 256 → s.willIssue p (encI 0x1C rd ra mask) → s.dataQueue p mask = none → s.h p ra ≠ 0 →
      completes (.waitq p rd ra mask) s fun t => (t.core p).wait = .waitq mask rd ∧ t.hdlSt p = hsWaitQueue ∧
        t.pc p = s.pc p ∧ keptRegs p s t ∧ otherCores p s t ∧ otherRegs [Reg.HDL_STATUS p] s t) ∧
    (∀ mask, (s.core p).wait = .waitq mask rd →
      completes (.waitqTimeout p) s fun t => wrote p rd 0x80000000 s t ∧ (t.core p).wait = .none ∧
        t.hdlSt p = hsRunning ∧ t.pc p = (s.pc p + 1) % 2 ^ 11 ∧ otherCores p s t ∧ otherRegs [Reg.HDL_STATUS p] s t) ∧
    (∀ mask q ws src rest, mask < 256 → s.willIssue p (encI 0x1C 0 ra mask) → s.dataQueue p mask = some q →
      ((s.core p).queue q).entries = ⟨ws, src⟩ :: rest →
      completes (.waitq p 0 ra mask) s fun t => (∀ i, i < 4 → t.h p (12 + i) = ws.getD i 0) ∧
        (∀ r, r < 12 → t.h p r = s.h p r) ∧ ((t.core p).queue q).entries = rest ∧
        t.rf (Reg.HDL_Q_STATUS p q) 0 6 = rest.length % 64 ∧ t.pc p = (s.pc p + 1) % 2 ^ 11 ∧ otherCores p s t) ∧
    (∀ mask q ws src rest, mask < 256 → 0 < rd → s.willIssue p (encI 0x1C rd ra mask) → s.dataQueue p mask = some q →
      ((s.core p).queue q).entries = ⟨ws, src⟩ :: rest →
      completes (.waitq p rd ra mask) s fun t =>
        t.h p rd = BitVec.ofNat 32 (q + (ws.length - 1) * 8 + src % 2 ^ 14 * 32) ∧ ((t.core p).queue q).entries = rest)

/-- When core p issues SEND or SENDW to a logical id that resolves to physical core n other than p, one message packet
with a UNICAST tag to ENDPOINT 1 of n enters the fabric at router p, on its detour where it has one, and the handler
waits; the packet bears the number that the core gives it, one more than its last. A response timeout of a send that
is not retried writes NAK_TIMEOUT to rd and counts HDL_NAK_RCVD. At the end of its retry gap a SENDW sends its
message again under a new number and counts one retry. Other handler registers, cores and registers are unchanged.
That an answer is known by a number is the model's choice. It concludes that exec answers a next state for SEND,
SENDW, SEND_RESPONSE_TIMEOUT, SENDW_RETRY_GAP. (R200, R201, R209, R210, R214, R215. Log entries 37, 168.) -/
def Obligations.HandlerSends : Prop :=
  (∀ (s : State) (p rd ra rb q n : Nat), rd < 16 → ra < 16 → rb < 16 → p < 9216 → s.flows ((s.partOf (p / 144)).getD 0) →
    fld (s.h p ra) 19 13 = 0 → fld (s.h p ra) 13 3 = q → fld (s.h p ra) 16 2 = 0 → tst (s.h p ra) 18 = false →
    s.resolve p (fld (s.h p ra) 0 13) = .ok n → n ≠ p →
    (s.willIssue p (encR 0x1A rd ra rb 0) →
      completes (.send p rd ra rb 0) s fun t =>
        t.net = s.net ++ [s.corePkt p (.unicast 1 n) (s.detour p n) (.msg 0 (s.h p rb) p q 0) ((s.core p).sends + 1)] ∧
        (t.core p).sends = (s.core p).sends + 1 ∧
        (t.core p).wait = .send ⟨rd, fld (s.h p ra) 0 13, q, [s.h p rb], false, false, 0, (s.core p).sends + 1⟩ ∧ t.hdlSt p = hsWaitResponse ∧
        t.pc p = s.pc p ∧ keptRegs p s t ∧ otherCores p s t ∧ otherRegs [Reg.HDL_STATUS p, inputHigh p] s t) ∧
    (s.willIssue p (encR 0x1B rd ra rb 0) →
      completes (.sendw p rd ra rb 0) s fun t =>
        t.net = s.net ++ [s.corePkt p (.unicast 1 n) (s.detour p n) (.msg 0 (s.h p rb) p q 0) ((s.core p).sends + 1)] ∧
        (t.core p).sends = (s.core p).sends + 1 ∧
        (t.core p).wait = .send ⟨rd, fld (s.h p ra) 0 13, q, [s.h p rb], false, true, 0, (s.core p).sends + 1⟩ ∧ t.hdlSt p = hsWaitResponse ∧
        t.pc p = s.pc p ∧ keptRegs p s t ∧ otherCores p s t ∧ otherRegs [Reg.HDL_STATUS p, inputHigh p] s t)) ∧
  (∀ (s : State) (p : Nat) (r : SendReq), p < 9216 →
    ((s.core p).wait = .send r → r.retrying = false →
      completes (.sendResponseTimeout p) s fun t => wrote p r.rd (BitVec.ofNat 32 rcTimeout) s t ∧ (t.core p).wait = .none ∧
        t.hdlSt p = hsRunning ∧ t.pc p = (s.pc p + 1) % 2 ^ 11 ∧
        t.rd (Reg.HDL_NAK_RCVD p) = sticky (s.rd (Reg.HDL_NAK_RCVD p)) 1 ∧ otherCores p s t ∧
        otherRegs [Reg.HDL_STATUS p, Reg.HDL_NAK_RCVD p] s t) ∧
    (∀ n w, (s.core p).wait = .gap r → r.words = [w] → r.crc = false → s.resolve p r.dest = .ok n → n ≠ p →
      s.flows ((s.partOf (p / 144)).getD 0) →
      completes (.sendwRetryGap p) s fun t =>
        t.net = s.net ++ [s.corePkt p (.unicast 1 n) (s.detour p n) (.msg 0 w p r.queue 0) ((s.core p).sends + 1)] ∧
        (t.core p).wait = .send { r with resends := r.resends + 1, mark := (s.core p).sends + 1 } ∧ t.hdlSt p = hsWaitResponse ∧
        t.rd (Reg.HDL_RETRIES p) = sticky (s.rd (Reg.HDL_RETRIES p)) 1 ∧ keptRegs p s t ∧ otherCores p s t ∧
        otherRegs [Reg.HDL_STATUS p, Reg.HDL_RETRIES p, inputHigh p] s t))

/-- When core p issues SADD, SREAD or SWAIT on an object of grove g of its partition, one sync request with operation,
object and operand enters the fabric with the UNIT tag of that grove's sync unit, under a number of its own, and the
handler waits for its reply. SWAIT also sends the generation of its second operand register and reserves one entry
of the named queue. Handler registers, other cores and other registers are unchanged. That a reply is known by a
number is the model's choice. It concludes that exec answers a next state for SADD, SREAD, SWAIT. (R209, R211, R216,
R218, R219. Log entries 37, 38, 168.) -/
def Obligations.HandlerSyncRequests : Prop :=
  ∀ (s : State) (p rd ra rb g : Nat), rd < 15 → ra < 16 → rb < 15 → fld (s.h p ra) 20 12 = 0 → g = fld (s.h p ra) 11 6 →
    s.rd64 (Reg.HDL_PART_GROVES_LO p) / 2 ^ g % 2 = 1 → s.flows ((s.partOf (p / 144)).getD 0) →
    (s.willIssue p (encR 0x1D rd ra rb 0) →
      completes (.sadd p rd ra rb 0) s fun t =>
        t.net = s.net ++ [s.corePkt p (.unit (0x40 + g) p) none
          (.sync ⟨p, 0, fld (s.h p ra) 0 11, s.h p rb, 0, 0, (s.core p).sends + 1⟩) 0] ∧
        (t.core p).wait = .sync 0 rd 0 ((s.core p).sends + 1) ∧ t.hdlSt p = hsWaitResponse ∧ keptRegs p s t ∧ otherCores p s t ∧
        otherRegs [Reg.HDL_STATUS p, inputHigh p] s t) ∧
    (∀ sel, sel < 8 → s.willIssue p (encR 0x1F rd ra 0 sel) →
      completes (.sread p rd ra 0 sel) s fun t =>
        t.net = s.net ++ [s.corePkt p (.unit (0x40 + g) p) none
          (.sync ⟨p, 2, fld (s.h p ra) 0 11, BitVec.ofNat 32 sel, 0, 0, (s.core p).sends + 1⟩) 0] ∧
        (t.core p).wait = .sync 2 rd 0 ((s.core p).sends + 1) ∧ t.hdlSt p = hsWaitResponse ∧ keptRegs p s t ∧ otherCores p s t ∧
        otherRegs [Reg.HDL_STATUS p, inputHigh p] s t) ∧
    (∀ q, q = fld (s.h p ra) 17 3 → s.willIssue p (encR 0x1E rd ra rb 0) → s.qEnabled p q = true →
      0 < ((s.core p).queue q).free →
      completes (.swait p rd ra rb 0) s fun t =>
        t.net = s.net ++ [s.corePkt p (.unit (0x40 + g) p) none
          (.sync ⟨p, 1, fld (s.h p ra) 0 11, s.h p rb, fld (s.h p (rb + 1)) 0 16, q, (s.core p).sends + 1⟩) 0] ∧
        ((t.core p).queue q).reserved = ((s.core p).queue q).reserved + 1 ∧
        (t.core p).wait = .sync 1 rd q ((s.core p).sends + 1) ∧ t.hdlSt p = hsWaitResponse ∧ keptRegs p s t ∧ otherCores p s t ∧
        otherRegs [Reg.HDL_STATUS p, Reg.HDL_Q_STATUS p q, inputHigh p] s t)

/-- When core p issues DENSE for an operation slot that is not enabled, rd gets NAK_NOT_HANDLER. For an enabled HANDLER
operation while another operation runs and none waits, with a free entry in the named queue, rd gets OK, one entry
of that queue is reserved and the operation waits behind the one that runs. Other cores are unchanged. It concludes
that exec answers a next state for DENSE. (R140, R196, R209, R210, R211. Log entry 37.) -/
def Obligations.HandlerDense : Prop :=
  ∀ (s : State) (p rd ra rb : Nat), p < 9216 → rd < 16 → ra < 16 → rb < 16 → fld (s.h p ra) 5 27 = 0 →
    s.willIssue p (encR 0x19 rd ra rb 0) →
    ((s.opCfg p (fld (s.h p ra) 0 2)).en = false →
      completes (.dense p rd ra rb 0) s fun t => wrote p rd (BitVec.ofNat 32 rcNotHandler) s t ∧ wentOn p 2 s t) ∧
    (∀ q run, q = fld (s.h p ra) 2 3 → (s.opCfg p (fld (s.h p ra) 0 2)).en = true →
      (s.opCfg p (fld (s.h p ra) 0 2)).trigger = trgHandler → (s.core p).dns = some run → run.op ≠ fld (s.h p ra) 0 2 →
      (s.core p).dnsQ = [] → s.qEnabled p q = true → 0 < ((s.core p).queue q).free →
      completes (.dense p rd ra rb 0) s fun t =>
        wrote p rd (BitVec.ofNat 32 rcOk) s t ∧ ((t.core p).queue q).reserved = ((s.core p).queue q).reserved + 1 ∧
        (t.core p).dnsQ = [⟨fld (s.h p ra) 0 2, 0, .handler q (s.h p rb), 0, false, 0, 0⟩] ∧ (t.core p).dns = some run ∧
        t.pc p = (s.pc p + 1) % 2 ^ 11 ∧ otherCores p s t ∧ otherRegs [Reg.HDL_STATUS p, Reg.HDL_Q_STATUS p q] s t)

/-! ### Messages and sync units -/

/-- A one-word message, an active message and a notification that arrive at the endpoint of core p: with the queue
enabled and a free entry, the message is the newest entry, the sender is owed OK under the number of the message and
HDL_Q_ACCEPT counts; with no free entry it is dropped, NAK_FULL is owed and HDL_Q_DROP and HDL_NAK_SENT count; a
CRC-16 that does not match drops it with NAK_CRC; a notification takes the reserved entry and owes nothing. Entries
already queued keep their order, the packet has left the fabric, and other cores and registers are unchanged. Which
preset the CRC-16 is, and that an answer bears a number, is the model's. It concludes that exec answers a next state
for MSG, AM_ARGS, NOTIFY. (R195, R196, R197, R198, R200, R201, R218. Log entries 33, 168.) -/
def Obligations.MessagesReachQueues : Prop :=
  ∀ (s : State) (i p q src : Nat) (f : Flight), p < 9216 → q < 8 → s.arrived i f → f.place = .core p → srcKnown src = true →
    src ≠ srcUnit → (s.core p).gated = false → (∀ m rd, (s.core p).wait ≠ .waitq m rd) →
    (∀ w code, f.body = .msg 0 w src q code → s.qEnabled p q = true → 0 < ((s.core p).queue q).free →
      completes (.msg i) s fun t =>
        ((t.core p).queue q).entries = ((s.core p).queue q).entries ++ [⟨[w], src⟩] ∧
        ((t.core p).queue q).reserved = ((s.core p).queue q).reserved ∧
        Store.get (fun _ => 0) (t.core p).responses src = 1 + q + 8 * rcOk + 128 * f.mark ∧
        t.rd (Reg.HDL_Q_ACCEPT p q) = sticky (s.rd (Reg.HDL_Q_ACCEPT p q)) 1 ∧ took i [] s t ∧ otherCores p s t ∧
        otherRegs [Reg.HDL_Q_STATUS p q, Reg.HDL_Q_ACCEPT p q] s t) ∧
    (∀ w code, f.body = .msg 0 w src q code → s.qEnabled p q = true → ((s.core p).queue q).free = 0 →
      completes (.msg i) s fun t =>
        ((t.core p).queue q).entries = ((s.core p).queue q).entries ∧
        Store.get (fun _ => 0) (t.core p).responses src = 1 + q + 8 * rcFull + 128 * f.mark ∧
        t.rd (Reg.HDL_Q_DROP p q) = sticky (s.rd (Reg.HDL_Q_DROP p q)) 1 ∧
        t.rd (Reg.HDL_NAK_SENT p) = sticky (s.rd (Reg.HDL_NAK_SENT p)) 1 ∧ took i [] s t ∧ otherCores p s t ∧
        otherRegs [Reg.HDL_Q_DROP p q, Reg.HDL_NAK_SENT p] s t) ∧
    (∀ ws, f.body = .amArgs src q ws none → s.qEnabled p q = true → 0 < ((s.core p).queue q).free →
      completes (.amArgs i) s fun t =>
        ((t.core p).queue q).entries = ((s.core p).queue q).entries ++ [⟨ws, src⟩] ∧
        Store.get (fun _ => 0) (t.core p).responses src = 1 + q + 8 * rcOk + 128 * f.mark ∧ took i [] s t ∧ otherCores p s t ∧
        otherRegs [Reg.HDL_Q_STATUS p q, Reg.HDL_Q_ACCEPT p q] s t) ∧
    (∀ ws v, f.body = .amArgs src q ws (some v) → v ≠ crc c16t (ws.flatMap fun w => toBytes 4 w.toNat) →
      s.qEnabled p q = true →
      completes (.amArgs i) s fun t =>
        ((t.core p).queue q).entries = ((s.core p).queue q).entries ∧
        Store.get (fun _ => 0) (t.core p).responses src = 1 + q + 8 * rcCrc + 128 * f.mark ∧
        t.rd (Reg.HDL_Q_DROP p q) = sticky (s.rd (Reg.HDL_Q_DROP p q)) 1 ∧ took i [] s t ∧ otherCores p s t ∧
        otherRegs [Reg.HDL_Q_DROP p q, Reg.HDL_NAK_SENT p] s t) ∧
    (∀ w code, f.body = .msg 1 w srcUnit q code → 0 < ((s.core p).queue q).reserved →
      completes (.notify i) s fun t =>
        ((t.core p).queue q).entries = ((s.core p).queue q).entries ++ [⟨[w], srcUnit⟩] ∧
        ((t.core p).queue q).reserved = ((s.core p).queue q).reserved - 1 ∧ took i [] s t ∧ otherCores p s t ∧
        otherRegs [Reg.HDL_Q_STATUS p q, Reg.HDL_Q_ACCEPT p q] s t)

/-- A response to the send in progress of core p, known by its number, writes its code to rd and the handler goes on;
one to an earlier send changes nothing and counts HDL_STRAY. A sync reply to the request in progress writes code and
value to the register pair; POOL_FULL to a SWAIT frees the reserved entry; a reply to an earlier request counts
HDL_STRAY and changes nothing. RESPONSE_SEND takes the next owed response in rotation and sends it to its sender.
Other cores and registers are unchanged. That an answer is known by a number is the model's choice. It concludes
that exec answers a next state for RESPONSE, SYNC_REPLY, RESPONSE_SEND. (R197, R200, R210, R214, R218, R219. Log
entry 168.) -/
def Obligations.ResponsesEndWaits : Prop :=
  ∀ (s : State) (i p : Nat) (f : Flight), p < 9216 →
    (∀ r w src code, s.arrived i f → f.place = .core p →
      f.body = .msg 2 w src r.queue code → (s.core p).wait = .send r →
      r.mark = f.mark → (r.retrying = false ∨ code = rcOk) → code < 13 →
      completes (.response i) s fun t => wrote p r.rd (BitVec.ofNat 32 code) s t ∧ (t.core p).wait = .none ∧
        t.hdlSt p = hsRunning ∧ t.pc p = (s.pc p + 1) % 2 ^ 11 ∧ took i [] s t ∧ otherCores p s t ∧
        otherRegs [Reg.HDL_STATUS p, Reg.HDL_NAK_RCVD p] s t) ∧
    (∀ r w src q code, s.arrived i f → f.place = .core p → f.body = .msg 2 w src q code → (s.core p).wait = .send r →
      r.mark ≠ f.mark →
      completes (.response i) s fun t => t.core p = s.core p ∧ t.rd (Reg.HDL_STRAY p) = sticky (s.rd (Reg.HDL_STRAY p)) 1 ∧
        took i [] s t ∧ otherRegs [Reg.HDL_STRAY p] s t) ∧
    (∀ w src q code op rd qq, s.arrived i f → f.place = .core p →
      f.body = .msg 3 w src q code → (s.core p).wait = .sync op rd qq f.mark → rd < 15 →
      (op ≠ 1 ∨ code = rcOk) →
      completes (.syncReply i) s fun t => (rd ≠ 0 → t.h p rd = BitVec.ofNat 32 code) ∧ t.h p (rd + 1) = w ∧
        (∀ r, r < 16 → r ≠ rd → r ≠ rd + 1 → t.h p r = s.h p r) ∧ (t.core p).wait = .none ∧ t.hdlSt p = hsRunning ∧
        t.pc p = (s.pc p + 1) % 2 ^ 11 ∧ took i [] s t ∧ otherCores p s t ∧ otherRegs [Reg.HDL_STATUS p] s t) ∧
    (∀ w src q op rd qq, s.arrived i f → f.place = .core p →
      f.body = .msg 3 w src q rcPoolFull → (s.core p).wait = .sync op rd qq f.mark →
      rd < 15 → qq < 8 → op = 1 →
      completes (.syncReply i) s fun t => t.h p (rd + 1) = w ∧
        ((t.core p).queue qq).reserved = ((s.core p).queue qq).reserved - 1 ∧ (t.core p).wait = .none ∧
        otherCores p s t ∧ otherRegs [Reg.HDL_STATUS p, Reg.HDL_Q_STATUS p qq] s t) ∧
    (∀ w src q code op rd qq m, s.arrived i f → f.place = .core p → f.body = .msg 3 w src q code →
      (s.core p).wait = .sync op rd qq m → m ≠ f.mark →
      completes (.syncReply i) s fun t => t.core p = s.core p ∧ t.rd (Reg.HDL_STRAY p) = sticky (s.rd (Reg.HDL_STRAY p)) 1 ∧
        took i [] s t ∧ otherRegs [Reg.HDL_STRAY p] s t) ∧
    (∀ v src, nextResponse (s.core p).respLast (s.core p).responses = some (src, v) → src < 9216 →
      s.flows ((s.partOf (p / 144)).getD 0) →
      completes (.responseSend p) s fun t =>
        t.net = s.net ++ [s.corePkt p (.unicast 1 src) (s.detour p src) (.msg 2 0 p ((v - 1) % 8) ((v - 1) / 8 % 16))
          ((v - 1) / 128)] ∧
        t.core p = { s.core p with responses := Store.erase src (s.core p).responses, respLast := src } ∧
        otherCores p s t ∧ otherRegs [inputHigh p] s t)

/-- An ADD that reaches the unit of its grove: on a disabled object only SYNC_DISABLED is answered; on a barrier below
its target COUNT grows by the operand and OK with GEN is answered; on a barrier that reaches its target once, TARGET
is taken off COUNT, GEN grows by one, every waiter on the object leaves the pool and is owed its notification; on a
semaphore that reaches its target once, the oldest waiter alone is served; and a WAIT on a semaphore that has
reached its target with no waiter is immediate. The reply bears the number of its request. On a disabled object and
on a barrier below its target, other objects, groves and registers are unchanged. It concludes that exec answers a
next state for SYNC_ADD, SYNC_WAIT. (R216, R217, R219. Log entry 168.) -/
def Obligations.SyncAdds : Prop :=
  (∀ (s : State) (i g : Nat) (r : SyncReq), g < 64 → s.syncAt i g r → r.op = 0 →
    ((s.obj g r.object).en = false →
      completes (.syncAdd i) s fun t => took i [s.replyTo g r rcSyncDisabled 0] s t ∧ t.obj g r.object = s.obj g r.object ∧
        otherGroves g s t ∧ otherRegs [] s t) ∧
    ((s.obj g r.object).en = true → (s.obj g r.object).semaphore = false →
      ((s.obj g r.object).count + r.operand).toInt < (s.obj g r.object).target.toInt →
      completes (.syncAdd i) s fun t => took i [s.replyTo g r rcOk (s.obj g r.object).gen] s t ∧
        t.obj g r.object = { s.obj g r.object with count := (s.obj g r.object).count + r.operand } ∧
        (t.grove g).waiters = (s.grove g).waiters ∧ (t.grove g).notices = (s.grove g).notices ∧
        (∀ j, j ≠ r.object → t.obj g j = s.obj g j) ∧ otherGroves g s t ∧
        t.rd (Reg.FAB_SYNC_OPS g) = sticky (s.rd (Reg.FAB_SYNC_OPS g)) 1 ∧ otherRegs [Reg.FAB_SYNC_OPS g] s t) ∧
    ((s.obj g r.object).en = true → (s.obj g r.object).semaphore = false → 0 < (s.obj g r.object).target.toInt →
      (s.obj g r.object).target.toInt ≤ ((s.obj g r.object).count + r.operand).toInt →
      ((s.obj g r.object).count + r.operand).toInt < 2 * (s.obj g r.object).target.toInt →
      completes (.syncAdd i) s fun t => took i [s.replyTo g r rcOk (s.obj g r.object).gen] s t ∧
        t.obj g r.object = { s.obj g r.object with
          count := (s.obj g r.object).count + r.operand - (s.obj g r.object).target, gen := (s.obj g r.object).gen + 1 } ∧
        (t.grove g).waiters = (s.grove g).waiters.filter (fun w => w.object != r.object) ∧
        (t.grove g).notices = (s.grove g).notices ++
          ((s.grove g).waiters.filter (fun w => w.object == r.object)).map fun w => ⟨w.logical, w.queue, w.word⟩)) ∧
  (∀ (s : State) (i g : Nat) (r : SyncReq) (w : Waiter) (rest : List Waiter), g < 64 → s.syncAt i g r →
    (s.obj g r.object).en = true → (s.obj g r.object).semaphore = true →
    (r.op = 0 → (s.grove g).waiters = w :: rest → w.object = r.object → 0 < (s.obj g r.object).target.toInt →
      (s.obj g r.object).target.toInt ≤ ((s.obj g r.object).count + r.operand).toInt →
      ((s.obj g r.object).count + r.operand).toInt < 2 * (s.obj g r.object).target.toInt →
      completes (.syncAdd i) s fun t =>
        took i [s.replyTo g r rcOk ((s.obj g r.object).count + r.operand - (s.obj g r.object).target)] s t ∧
        t.obj g r.object = { s.obj g r.object with
          count := (s.obj g r.object).count + r.operand - (s.obj g r.object).target, gen := (s.obj g r.object).gen + 1 } ∧
        (t.grove g).waiters = rest ∧ (t.grove g).notices = (s.grove g).notices ++ [⟨w.logical, w.queue, w.word⟩]) ∧
    (r.op = 1 → s.armed g r.object = 0 → (s.obj g r.object).target.toInt ≤ (s.obj g r.object).count.toInt →
      completes (.syncWait i) s fun t =>
        t.obj g r.object = (s.obj g r.object).after 1 ∧ (t.grove g).waiters = (s.grove g).waiters ∧
        (t.grove g).notices = (s.grove g).notices ++ [⟨s.logicalOf r.from_, r.queue, r.operand⟩] ∧
        took i [s.replyTo g r rcImmediate ((s.obj g r.object).after 1).count] s t))

/-- A WAIT on a barrier whose generation has passed is immediate and owes its notification; on the current generation it
is armed while the pool has room, and else answers POOL_FULL and counts it; READ answers the selected value and
changes nothing; SYNC_NOTIFY_ISSUE sends the oldest notification to the core that carries its logical id. A host ADD
is applied where the attachment owns the grove and is filtered and counted where it does not; BAR2 writes of CFG,
TARGET and COUNT take effect where no waiter is armed and are ignored where one is. It concludes that exec answers a
next state for SYNC_WAIT, SYNC_READ, SYNC_NOTIFY_ISSUE, HOST_SYNC_ADD, BAR2_SYNC_WRITE. (R216, R217, R218, R219,
R386, R387. Log entry 67.) -/
def Obligations.SyncWaits : Prop :=
  (∀ (s : State) (i g : Nat) (r : SyncReq), g < 64 →
    (s.syncAt i g r → r.op = 1 → (s.obj g r.object).en = true → (s.obj g r.object).semaphore = false →
      fld (s.obj g r.object).gen 0 16 ≠ r.gen16 →
      completes (.syncWait i) s fun t => took i [s.replyTo g r rcImmediate (s.obj g r.object).gen] s t ∧
        (t.grove g).waiters = (s.grove g).waiters ∧ t.obj g r.object = s.obj g r.object ∧
        (t.grove g).notices = (s.grove g).notices ++ [⟨s.logicalOf r.from_, r.queue, r.operand⟩] ∧
        otherRegs [Reg.FAB_SYNC_OPS g] s t) ∧
    (s.syncAt i g r → r.op = 1 → (s.obj g r.object).en = true → (s.obj g r.object).semaphore = false →
      fld (s.obj g r.object).gen 0 16 = r.gen16 → (s.grove g).waiters.length < 4096 →
      completes (.syncWait i) s fun t => took i [s.replyTo g r rcOk (s.obj g r.object).gen] s t ∧
        (t.grove g).waiters = (s.grove g).waiters ++ [⟨r.object, s.logicalOf r.from_, r.queue, r.operand⟩] ∧
        (t.grove g).notices = (s.grove g).notices ∧ t.obj g r.object = s.obj g r.object ∧
        otherRegs [Reg.FAB_SYNC_OPS g, Reg.FAB_SYNC_STATUS g] s t) ∧
    (s.syncAt i g r → r.op = 1 → (s.obj g r.object).en = true → (s.obj g r.object).semaphore = false →
      fld (s.obj g r.object).gen 0 16 = r.gen16 → 4096 ≤ (s.grove g).waiters.length →
      completes (.syncWait i) s fun t => took i [s.replyTo g r rcPoolFull 0] s t ∧
        (t.grove g).waiters = (s.grove g).waiters ∧
        t.rd (Reg.FAB_SYNC_POOL_FULL g) = sticky (s.rd (Reg.FAB_SYNC_POOL_FULL g)) 1 ∧
        otherRegs [Reg.FAB_SYNC_OPS g, Reg.FAB_SYNC_POOL_FULL g] s t) ∧
    (s.syncAt i g r → r.op = 2 → completes (.syncRead i) s fun t =>
      took i [s.replyTo g r rcOk (s.syncReadOp g r.object (fld r.operand 0 3))] s t ∧ t.grove g = s.grove g ∧
      otherRegs [Reg.FAB_SYNC_OPS g] s t) ∧
    (∀ n rest p, (s.grove g).notices = n :: rest → s.physOf n.logical = some p →
      s.flows ((s.partOf (p / 144)).getD 0) →
      completes (.syncNotifyIssue g) s fun t =>
        t.net = s.net ++ [s.syncPkt g p (.msg 1 n.word srcUnit n.queue 0) 0] ∧ t.grove g = { s.grove g with notices := rest } ∧
        t.rd (Reg.FAB_SYNC_NOTIFY g) = sticky (s.rd (Reg.FAB_SYNC_NOTIFY g)) 1 ∧ otherGroves g s t ∧
        otherRegs [Reg.FAB_SYNC_NOTIFY g] s t)) ∧
  (∀ (s : State) (a g i : Nat) (v : Word), g < 64 → i < 2048 → a < 8 → s.barReach a g i = true →
    (s.ownsGrove a g = false → completes (.hostSyncAdd a g i v) s fun t => t.grove g = s.grove g ∧
      t.rd (Reg.HIF_FILTERED a) = sticky (s.rd (Reg.HIF_FILTERED a)) 1 ∧
      t.rd (Reg.HIF_FILTER_ADDR a) = BitVec.ofNat 32 (32 * (2048 * g + i) + 0x10) ∧
      otherRegs [Reg.HIF_FILTERED a, Reg.HIF_FILTER_ADDR a] s t) ∧
    (s.ownsGrove a g = true → (s.obj g i).en = true → (s.obj g i).semaphore = false →
      ((s.obj g i).count + v).toInt < (s.obj g i).target.toInt →
      completes (.hostSyncAdd a g i v) s fun t => t.obj g i = { s.obj g i with count := (s.obj g i).count + v } ∧
        (∀ j, j ≠ i → t.obj g j = s.obj g j) ∧ otherGroves g s t ∧ otherRegs [Reg.FAB_SYNC_OPS g] s t) ∧
    (s.ownsGrove a g = true → s.armed g i = 0 → (v.toNat < 2 ^ 31 ∨ 1 ≤ (s.obj g i).target.toInt) →
      completes (.bar2SyncWrite a g i 0 v) s fun t => t.obj g i = { s.obj g i with cfg := v } ∧
        (∀ j, j ≠ i → t.obj g j = s.obj g j) ∧ otherGroves g s t ∧ otherRegs [] s t) ∧
    (s.ownsGrove a g = true → s.armed g i = 0 → ((s.obj g i).en = false ∨ 1 ≤ v.toInt) →
      completes (.bar2SyncWrite a g i 4 v) s fun t => t.obj g i = { s.obj g i with target := v } ∧ otherGroves g s t) ∧
    (s.ownsGrove a g = true → s.armed g i = 0 →
      completes (.bar2SyncWrite a g i 8 v) s fun t => t.obj g i = { s.obj g i with count := v } ∧ otherGroves g s t) ∧
    (s.ownsGrove a g = true → 0 < s.armed g i → ∀ reg, completes (.bar2SyncWrite a g i reg v) s fun t => t = s))

/-! ### Neurons -/

/-- For every group and membrane value: both modes leave 0 unchanged; SHIFT takes v / 2^LEAK_K, rounded to nearest with
ties away from zero, from v, with LEAK_K = 0 setting v to 0, and leaves v unchanged when |v| < 2^(LEAK_K - 1); SUB
takes LEAK_C off the magnitude and stops at 0. In every case the membrane moves towards 0 and not past it. (R93.) -/
def Obligations.LeakShrinksTheMembrane : Prop :=
  ∀ (g : Grp) (v : Int),
    leak g 0 = 0 ∧
    (g.leakMode = 0 → g.leakK = 0 → leak g v = 0) ∧
    (g.leakMode = 0 → 0 < g.leakK → 0 ≤ v → leak g v = v - (v + 2 ^ (g.leakK - 1)) / 2 ^ g.leakK) ∧
    (g.leakMode = 0 → 0 < g.leakK → v ≤ 0 → leak g v = v + (2 ^ (g.leakK - 1) - v) / 2 ^ g.leakK) ∧
    (g.leakMode = 0 → 0 < g.leakK → v.natAbs < 2 ^ (g.leakK - 1) → leak g v = v) ∧
    (g.leakMode = 1 → 0 ≤ g.leakC → 0 < v → leak g v = max (v - g.leakC) 0) ∧
    (g.leakMode = 1 → 0 ≤ g.leakC → v < 0 → leak g v = min (v + g.leakC) 0) ∧
    (0 ≤ g.leakC → 0 ≤ v → 0 ≤ leak g v ∧ leak g v ≤ v) ∧
    (0 ≤ g.leakC → v ≤ 0 → v ≤ leak g v ∧ leak g v ≤ 0)

/-- For every group, rescale entry, step and record: with REF non-zero the update emits nothing, REF falls by one, the
stamp is kept, v is the leaked v and neither OVERDRIVEN nor saturation is noted. Whenever an update emits an event
of value c, REF was 0, the new REF is REFRAC, the stamp is n mod 2^16, SPIKED and FIRED are set, reserved bits are
kept, c is the group's VALUE except in BURST mode, where it is at most 15, and in RESET mode v is V_RESET. (R84,
R92, R94, R95, R96.) -/
def Obligations.NeuronUpdates : Prop :=
  (∀ (g : Grp) (e : Resc) (n cur : Nat) (x0 x1 : Word), 0 < fld x1 16 8 →
    (neuUpdate g e n x0 x1 cur).event = none ∧
    fld (neuUpdate g e n x0 x1 cur).w1 16 8 = fld x1 16 8 - 1 ∧
    fld (neuUpdate g e n x0 x1 cur).w1 0 16 = fld x1 0 16 ∧
    fld (neuUpdate g e n x0 x1 cur).w0 0 16 = low 16 (leak g (sx 16 (fld x0 0 16))) ∧
    (neuUpdate g e n x0 x1 cur).overdrive = false ∧ (neuUpdate g e n x0 x1 cur).vsat = false) ∧
  (∀ (g : Grp) (e : Resc) (n cur : Nat) (x0 x1 : Word) (v : Nat), (neuUpdate g e n x0 x1 cur).event = some v →
    fld x1 16 8 = 0 ∧
    fld (neuUpdate g e n x0 x1 cur).w1 16 8 = g.refrac % 256 ∧
    fld (neuUpdate g e n x0 x1 cur).w1 0 16 = n % 65536 ∧
    tst (neuUpdate g e n x0 x1 cur).w1 24 = true ∧ tst (neuUpdate g e n x0 x1 cur).w1 25 = true ∧
    fld (neuUpdate g e n x0 x1 cur).w1 27 5 = fld x1 27 5 ∧
    (g.fire ≠ 2 → v = g.value) ∧ (g.fire = 2 → v ≤ 15) ∧
    (g.fire = 0 → fld (neuUpdate g e n x0 x1 cur).w0 0 16 = low 16 g.vReset))

/-- STEP_OPEN_INDICATION opens the step at a core with no event logged for it, with its monitors, entries and counts
cleared and the lane-neurons to integrate listed; a deferred deposit is added modulo 2^24 to the slot of its ring
and to no other byte; INTEGRATION_SPAN_END lists the enabled STEP operations; CORE_CLOCK_GATE gates a core that may
sleep and CORE_WAKE wakes it and counts NEU_WAKES. Other cores are unchanged. It concludes that exec answers a next
state for STEP_OPEN_INDICATION, DEFERRED_DEPOSIT, INTEGRATION_SPAN_END, CORE_CLOCK_GATE, CORE_WAKE. (R92, R90, R102,
R103, R140, R273. Log entry 8.) -/
def Obligations.StepWorkOfACore : Prop :=
  ∀ (s : State) (p : Nat), p < 9216 →
    (∀ n lane flip value, (s.core p).openComing = some n → s.entriesOf p n = [] → (s.core p).gated = false →
      completes (.stepOpenIndication p lane flip value) s fun t =>
        (t.core p).openStep = some n ∧ (t.core p).openComing = none ∧ (t.core p).declared = false ∧
        (t.core p).spanEnded = false ∧ (t.core p).integ = [] ∧ (t.core p).mons = [] ∧ (t.core p).ents = [] ∧
        (t.core p).flags = 0 ∧ (t.core p).counts = ⟨0, 0, 0, 0, 0, 0⟩ ∧
        (t.core p).neuTodo = (s.toIntegrate p n).map (·.1) ∧ t.rf (Reg.NEU_STATUS p) 0 2 = 1 ∧
        t.bit (Reg.NEU_STATUS p) 8 = decide (n % 16384 = 0) ∧ otherCores p s t ∧ otherRegs [Reg.NEU_STATUS p] s t) ∧
    (∀ n d rest g, (s.core p).openStep = some n → (s.core p).deferred = d :: rest → d.ej = 0 →
      (s.core p).neuTake.contains d.lane = false → s.grpOf p d.lane = some g → d.pos < g.depth →
      s.intact p (g.ringAt d.lane d.pos) 3 →
      completes (.deferredDeposit p) s fun t => (t.core p).deferred = rest ∧
        t.num p (g.ringAt d.lane d.pos) 3 = a24Add (s.num p (g.ringAt d.lane d.pos) 3) d.value ∧
        otherBytes p (g.ringAt d.lane d.pos) 3 s t ∧ t.rd (Reg.NEU_DEFER p) = sticky (s.rd (Reg.NEU_DEFER p)) 1 ∧
        otherCores p s t ∧ otherRegs [Reg.NEU_DEFER p] s t) ∧
    (∀ n, (s.core p).openStep = some n → (s.core p).spanEnded = false → (s.core p).neuTodo = [] → (s.core p).dns = none →
      s.rf (Reg.INT_GRV_AUDIT (p / 144)) 0 16 = 0 →
      completes (.integrationSpanEnd p) s fun t => (t.core p).spanEnded = true ∧ (t.core p).neuTodo = [] ∧
        (t.core p).dnsSteps = (List.range 4).filter fun o => (s.opCfg p o).en && (s.opCfg p o).trigger == trgStep) ∧
    (s.mayGate p = true → completes (.coreClockGate p) s fun t => t.core p = { s.core p with gated := true } ∧
      t.rd (Reg.NEU_STATUS p) = setFld (s.rd (Reg.NEU_STATUS p)) 0 2 nsAsleep ∧ otherCores p s t ∧
      otherRegs [Reg.NEU_STATUS p] s t) ∧
    (∀ src, s.wakeSource p src = true → (s.core p).gated = true →
      completes (.coreWake p src) s fun t => t.core p = { s.core p with gated := false } ∧
        t.rd (Reg.NEU_STATUS p) = setFld (s.rd (Reg.NEU_STATUS p)) 0 2 nsIdle ∧
        t.rd (Reg.NEU_WAKES p) = sticky (s.rd (Reg.NEU_WAKES p)) 1 ∧ otherCores p s t ∧
        otherRegs [Reg.NEU_STATUS p, Reg.NEU_WAKES p] s t)

/-! ### Synapse rows and the grove memory unit -/

/-- SYN_EVENT_TAKE of an event whose key lies in a GROVE window sends one request to the grove's memory unit and counts
SYN_EVENTS, INJ and EJ, or changes nothing while the request queue is full; an event in no window counts
SYN_KEY_MISS and marks the step; an event of a LOCAL row without blocks adds operand times ROWSUM to the delivering
sum. A row header adds it to the grove sum; a malformed block deposits nothing and counts SYN_BAD_BLOCK; a block of
one element deposits its product in the slot of the step it names, adds it to the receiving sum, and changes nothing
else in memory. Other cores are unchanged. It concludes that exec answers a next state for SYN_EVENT_TAKE,
ROW_HEADER, BLOCK. (R113, R115, R117, R118, R122, R123, R124, R125, R343. Log entry 27.) -/
def Obligations.SynapseWork : Prop :=
  (∀ (s : State) (p pair : Nat) (err : Word) (e : Ev) (rest : List Ev), p < 9216 → (s.core p).synQ = e :: rest →
    (s.core p).gated = false → s.bit (Reg.SYN_CTRL p) 0 = false → e.parity < 4 →
    (∀ w, s.winOf p e.key = some w → w.grove = true → (s.grove (p / 144)).rowQ.length < 1024 →
      completes (.synEventTake p pair err) s fun t => (t.core p).synQ = rest ∧
        t.net = s.net ++ [{ s.corePkt p (.unit (p / 144) p) none
          (.rowReq { home := p, win := w.idx, key := e.key, parity := e.parity, retract := e.retract, mask := 2 ^ e.lane,
                     values := (List.range 8).map fun l => if e.lane = l then e.value else 0, homes := [p] }) 0 with
          step := some e.parity }] ∧
        t.rd (Reg.SYN_EVENTS p) = sticky (s.rd (Reg.SYN_EVENTS p)) 1 ∧
        t.rd (Reg.FAB_PC_INJ (p / 144) e.parity) = s.rd (Reg.FAB_PC_INJ (p / 144) e.parity) + 1 ∧
        t.rd (Reg.FAB_PC_EJ (p / 144) e.parity) = s.rd (Reg.FAB_PC_EJ (p / 144) e.parity) + 1 ∧ otherCores p s t) ∧
    (∀ w, s.winOf p e.key = some w → w.grove = true → 1024 ≤ (s.grove (p / 144)).rowQ.length →
      completes (.synEventTake p pair err) s fun t => t = s) ∧
    (s.winOf p e.key = none →
      completes (.synEventTake p pair err) s fun t => (t.core p).synQ = rest ∧ t.net = s.net ∧
        t.rd (Reg.SYN_KEY_MISS p) = sticky (s.rd (Reg.SYN_KEY_MISS p)) 1 ∧ (t.core p).flag flagRow = true ∧
        t.rd (Reg.FAB_PC_EJ (p / 144) e.parity) = s.rd (Reg.FAB_PC_EJ (p / 144) e.parity) + 1 ∧ otherCores p s t) ∧
    (∀ w off h f, s.winOf p e.key = some w → w.grove = false →
      s.intact p (w.dir + 8 * (e.key - w.base)) 8 → dirValid (s.num p (w.dir + 8 * (e.key - w.base)) 8) = true →
      s.localRow p w e.key (s.num p (w.dir + 8 * (e.key - w.base)) 8) = some (off, h, f) → h.nblk = 0 →
      s.intact p off (rowLen f h.nblk) →
      completes (.synEventTake p pair err) s fun t => (t.core p).synQ = rest ∧ t.net = s.net ∧
        (t.core p).sum e.parity sumDLoc = sumAdd ((s.core p).sum e.parity sumDLoc)
          ((if e.retract then -(actOperand f e.value) else actOperand f e.value) * h.rowsum) ∧
        t.rd (Reg.SYN_EVENTS p) = sticky (s.rd (Reg.SYN_EVENTS p)) 1 ∧ otherCores p s t)) ∧
  (∀ (s : State) (i p par : Nat) (f : Flight) (b : BlockPkt), p < 9216 → par < 4 → s.arrived i f → f.place = .core p →
    f.body = .block b → f.step = some par → (s.core p).gated = false → b.mask = 1 → b.retract = false →
    (b.header = true →
      completes (.rowHeader i) s fun t =>
        (t.core p).sum par sumDGrv = sumAdd ((s.core p).sum par sumDGrv)
          (actOperand (s.fmtSlot p b.fslot) (b.values.getD 0 0) * (rowHdrOf b.bytes).rowsum) ∧
        t.rd (Reg.FAB_PC_EJ (p / 144) par) = s.rd (Reg.FAB_PC_EJ (p / 144) par) + 1 ∧ took i [] s t ∧ otherCores p s t ∧
        otherRegs [Reg.FAB_PC_EJ (p / 144) par] s t) ∧
    (b.header = false → s.blockGroup p (blkHdrOf b.bytes) (s.fmtSlot p b.fslot) b.tgt b.dmax
        (s.logicalOf p - s.fuses.active * (p / 144)) = none → ∀ pair err,
      completes (.block i pair err) s fun t =>
        t.rd (Reg.SYN_BAD_BLOCK p) = sticky (s.rd (Reg.SYN_BAD_BLOCK p)) 1 ∧ (t.core p).flag flagRow = true ∧ t.mem = s.mem ∧
        t.rd (Reg.FAB_PC_EJ (p / 144) par) = s.rd (Reg.FAB_PC_EJ (p / 144) par) + 1 ∧ took i [] s t ∧ otherCores p s t) ∧
    (∀ g n, b.header = false → s.blockGroup p (blkHdrOf b.bytes) (s.fmtSlot p b.fslot) b.tgt b.dmax
        (s.logicalOf p - s.fuses.active * (p / 144)) = some g → (blkHdrOf b.bytes).count = 0 → 0 < g.lanes →
      (blkHdrOf b.bytes).dly + 1 < g.depth → (s.core p).openStep = some n →
      s.intact p (g.ringAt (g.lane 0 (blkHdrOf b.bytes).tbase) ((n + 1 + (blkHdrOf b.bytes).dly) % g.depth)) 3 → ∀ err,
      completes (.block i 0 err) s fun t =>
        t.num p (g.ringAt (g.lane 0 (blkHdrOf b.bytes).tbase) ((n + 1 + (blkHdrOf b.bytes).dly) % g.depth)) 3 =
          a24Add (s.num p (g.ringAt (g.lane 0 (blkHdrOf b.bytes).tbase) ((n + 1 + (blkHdrOf b.bytes).dly) % g.depth)) 3)
            (product (weightOperand (s.fmtSlot p b.fslot) (packedCode (s.fmtSlot p b.fslot) (ofBytes (b.bytes.drop 8)) 0))
              (actOperand (s.fmtSlot p b.fslot) (b.values.getD 0 0)) (blockShift (s.fmtSlot p b.fslot) (blkHdrOf b.bytes) 0)) ∧
        (t.core p).sum par sumRGrv = sumAdd ((s.core p).sum par sumRGrv)
            (product (weightOperand (s.fmtSlot p b.fslot) (packedCode (s.fmtSlot p b.fslot) (ofBytes (b.bytes.drop 8)) 0))
              (actOperand (s.fmtSlot p b.fslot) (b.values.getD 0 0)) (blockShift (s.fmtSlot p b.fslot) (blkHdrOf b.bytes) 0)) ∧
        otherBytes p (g.ringAt (g.lane 0 (blkHdrOf b.bytes).tbase) ((n + 1 + (blkHdrOf b.bytes).dly) % g.depth)) 3 s t ∧
        took i [] s t ∧ otherCores p s t))

/-- A ROW_REQUEST opens at once while a stream that is not reserved for a dense operation is free, queues when none is,
waits in the fabric where the queue holds 1,024, and merges with a queued request of the same key, parity and
retract flag (MEM_COALESCED counts). An HBM return of a null row ends the request and counts SYN_NULL for each lane;
one of a valid row whose CRC holds ends it and counts MEM_GROVE_ROWS. HBM_TRAINING_LOST fails a READY stack when
retraining fails and changes nothing when it succeeds. Through which window a merged row is read is the model's
reading. It concludes that exec answers a next state for ROW_REQUEST, HBM_READ_RETURN, HBM_TRAINING_LOST. (R119,
R124, R132, R135, R136. Log entries 25, 30, 153.) -/
def Obligations.GroveMemory : Prop :=
  (∀ (s : State) (i g : Nat) (f : Flight) (r : RowReq), g < 64 → s.arrived i f → f.place = .unit g → f.body = .rowReq r →
    ((s.grove g).rowQ = [] → (s.grove g).rows.length < s.rowStreams g →
      completes (.rowRequest i) s fun t => (t.grove g).rowQ = [] ∧
        (t.grove g).rows = (s.grove g).rows ++
          [{ id := (s.grove g).nextJob, req := r, next := 0, headerSent := false, crcFails := 0, refetch := none }] ∧
        (t.grove g).nextJob = (s.grove g).nextJob + 1 ∧ took i [] s t ∧ otherGroves g s t ∧
        otherRegs (Reg.MEM_RQ_STATUS g :: Reg.MEM_PF_STATUS g :: flyRegs) s t) ∧
    ((s.grove g).rows.length = s.rowStreams g → (s.grove g).rowQ.length < 1024 → (s.grove g).rowQ.any (·.joins r) = false →
      completes (.rowRequest i) s fun t => (t.grove g).rowQ = (s.grove g).rowQ ++ [r] ∧ (t.grove g).rows = (s.grove g).rows ∧
        took i [] s t ∧ otherGroves g s t ∧ otherRegs (Reg.MEM_RQ_STATUS g :: Reg.MEM_PF_STATUS g :: flyRegs) s t) ∧
    ((s.grove g).rowQ.length = 1024 → (s.grove g).rowQ.any (·.joins r) = false →
      completes (.rowRequest i) s fun t => t = s) ∧
    (∀ q, (s.grove g).rowQ = [q] → q.joins r = true →
      completes (.rowRequest i) s fun t => (t.grove g).rowQ = [q.join r] ∧
        t.rd (Reg.MEM_COALESCED g) = sticky (s.rd (Reg.MEM_COALESCED g)) 1 ∧ took i [] s t ∧ otherGroves g s t ∧
        otherRegs [Reg.MEM_COALESCED g] s t)) ∧
  ((∀ (s : State) (g j tr pos : Nat) (flip : Byte) (job : RowJob) (w : Win), g < 64 → j < denseStreamBase →
    (s.grove g).rows.find? (·.id == j) = some job → job.req.home < 9216 → job.req.parity < 4 →
    w = s.win job.req.home job.req.win → (s.grove g).rowQ = [] → (s.grove g).hbmOut.contains job.id = false →
    s.readable (w.entryAt job.req.key) 8 →
    (∀ status, status ≠ hbmBad → dirValid (s.hbmNum (w.entryAt job.req.key) 8) = false →
      completes (.hbmReadReturn g j status tr pos flip) s fun t =>
        (t.grove g).rows = (s.grove g).rows.filter (·.id != job.id) ∧
        t.rd (Reg.SYN_NULL job.req.home) = sticky (s.rd (Reg.SYN_NULL job.req.home)) (popcount 8 job.req.mask) ∧
        t.net = s.net) ∧
    (∀ a h f, s.groveRow job.req w none 0 0 = .row a h f → s.readable a (rowLen f h.nblk) →
      rowCrc ((s.hbmBytes a (rowLen f h.nblk)).take 16) ((s.hbmBytes a (rowLen f h.nblk)).drop 16) = h.crc →
      completes (.hbmReadReturn g j hbmOk tr pos 0) s fun t =>
        (t.grove g).rows = (s.grove g).rows.filter (·.id != job.id) ∧
        t.rd (Reg.MEM_GROVE_ROWS g) = sticky (s.rd (Reg.MEM_GROVE_ROWS g)) 1)) ∧
  (∀ (s : State) (st : Nat), st < 4 → s.stackState st = 2 →
      completes (.hbmTrainingLost st false) s (fun t => t.stackState st = 3) ∧
      completes (.hbmTrainingLost st true) s (fun t => t = s)))

/-- A column block of an operation outside the step that passes its checks advances the run by one block and adds K
times M times NC to DNS_MACS; one that fails them the first time sends the run back to its chunk with DNS_CHECK_FAIL
counted and memory unchanged; the end of a HANDLER operation fills its reserved queue entry with its word and
outcome; the end of the last STEP operation leaves the tile IDLE. Other cores are unchanged where the clause says
so. It concludes that exec answers a next state for DENSE_COLUMN_BLOCK_DONE, DENSE_OP_DONE. (R137, R138, R139, R140,
R142, R143, R150. Log entries 22, 145.) -/
def Obligations.DenseWork : Prop :=
  ∀ (s : State) (p : Nat) (r : DnsRun), p < 9216 → (s.core p).dns = some r → (s.core p).dnsEvents = [] →
    (∀ ref, r.owner = .desc ref → r.cb < (s.opCfg p r.op).blocks → (s.core p).halted = false →
      (s.opCfg p r.op).stream = false → (s.core p).openStep = none → s.forcing p = false →
      s.intact p ((s.opCfg p r.op).weightSpan r.cb).1 ((s.opCfg p r.op).weightSpan r.cb).2 →
      s.intact p ((s.opCfg p r.op).inputSpan 0).1 ((s.opCfg p r.op).inputSpan 0).2 →
      (s.colBlock p p (s.opCfg p r.op) 0 r.cb).checks = true →
      completes (.denseColumnBlockDone p false) s fun t =>
        (∃ ch rr, (t.core p).dns = some { r with cb := r.cb + 1, chunk := ch, rerun := rr }) ∧
        t.rd64 (Reg.DNS_MACS_LO p) =
          (s.rd64 (Reg.DNS_MACS_LO p) + (s.opCfg p r.op).k * (s.opCfg p r.op).m * (s.opCfg p r.op).nc) % 2 ^ 64 ∧
        otherCores p s t) ∧
    (∀ ref, r.owner = .desc ref → r.cb < (s.opCfg p r.op).blocks → (s.core p).halted = false →
      (s.opCfg p r.op).stream = false → (s.core p).openStep = none → r.rerun = false →
      s.intact p ((s.opCfg p r.op).weightSpan r.cb).1 ((s.opCfg p r.op).weightSpan r.cb).2 →
      s.intact p ((s.opCfg p r.op).inputSpan 0).1 ((s.opCfg p r.op).inputSpan 0).2 →
      completes (.denseColumnBlockDone p true) s fun t =>
        (t.core p).dns = some { r with rerun := true, cb := r.chunk, got := 0 } ∧ t.mem = s.mem ∧
        t.rd (Reg.DNS_CHECK_FAIL p) = sticky (s.rd (Reg.DNS_CHECK_FAIL p)) 1) ∧
    (∀ q w, r.owner = .handler q w → q < 8 → (s.opCfg p r.op).blocks ≤ r.cb → (∀ m rd, (s.core p).wait ≠ .waitq m rd) →
      completes (.denseOpDone p) s fun t =>
        ((t.core p).queue q).entries = ((s.core p).queue q).entries ++
          [⟨[BitVec.ofNat 32 (w.toNat / 256 * 256 + (if r.failed = 0 then 0 else 1))], srcUnit⟩] ∧
        ((t.core p).queue q).reserved = ((s.core p).queue q).reserved - 1 ∧ otherCores p s t) ∧
    (r.owner = .step → (s.opCfg p r.op).blocks ≤ r.cb → (s.core p).dnsQ = [] → (s.core p).dnsSteps = [r.op] →
      completes (.denseOpDone p) s fun t => (t.core p).dns = none ∧ (t.core p).dnsSteps = [] ∧
        t.rf (Reg.DNS_STATUS p) 0 2 = 0 ∧ otherCores p s t ∧ otherRegs (Reg.DNS_STATUS p :: flyRegs) s t)

/-! ### Deposits -/

/-- For every slot value, every list of kept deposits, every list of deposits taken back, and every order in which all
of them and the retractions arrive, the slot ends at its old value plus the kept deposits modulo 2^24; and where
that exact sum lies within -8,388,608 to 8,388,607, the slot read as a signed 24-bit value is exactly that sum,
however far partial sums strayed. (R57.) -/
def Obligations.DepositsAddUpInAnyOrder : Prop :=
  ∀ (slot : Nat) (kept taken order : List Int), order.Perm (kept ++ taken ++ taken.map fun d => -d) →
    order.foldl a24Add (slot % 2 ^ 24) = low 24 ((slot : Int) + kept.sum) ∧
    (-8388608 ≤ sx 24 slot + kept.sum → sx 24 slot + kept.sum ≤ 8388607 →
      sx 24 (order.foldl a24Add (slot % 2 ^ 24)) = sx 24 slot + kept.sum)

/-! ### The fabric -/

/-- A canopy packet at a router whose entry has an empty mask is gone; one whose mask is one port that may be crossed
leaves on that link, counted at the port; one whose mask is EJECT joins the input queue of the core, or waits where
that holds 64 events, or is discarded and counted where the core is not ACTIVE. STOP_RECEIVE_COPY: a copy that
reaches the stop of its grove is rewritten to that grove's tag, counted in XIN and with its ejections in INJ, and
goes through port X; a copy at the stop of its root with one other grove to reach is rewritten to the REMOTE index,
counted in EJ and XOUT, and leaves on the overlay port toward it. Other registers are unchanged. What the tag holds
on the overlay is the model's choice. It concludes that exec answers a next state for CANOPY_PACKET_ARRIVE,
STOP_RECEIVE_COPY. (R158, R166, R171, R172, R176, R192, R193. Log entries 9, 161, 164.) -/
def Obligations.CanopyRouting : Prop :=
  (∀ (s : State) (i k c : Nat) (remote : Bool) (f : Flight) (e : Ev), k < 9216 → s.arrived i f → f.place = .router k →
    f.tag = .canopy remote (k / 144) c → f.way = none → f.body = .event e → s.rtrState k ≠ rsFaulty →
    (canMask (s.canopy (k / 144) c) (k % 144) = 0 → completes (.canopyPacketArrive i) s fun t => t = s.without i) ∧
    (∀ port n q, port < 4 → canMask (s.canopy (k / 144) c) (k % 144) = 2 ^ port → s.crosses i k port n q f.body →
      completes (.canopyPacketArrive i) s fun t => took i [f.sentTo n q] s t ∧
        t.rd64 (portKey k port) = (s.rd64 (portKey k port) + 1) % 2 ^ 64 ∧ otherRegs (portKeys k port 0) s t) ∧
    (canMask (s.canopy (k / 144) c) (k % 144) = 32 → s.ejectRole k c = none → s.logicOn k = true →
      s.role k = roleActive → e.tclass < 2 →
      ((s.core k).synQ.length < 64 →
        completes (.canopyPacketArrive i) s fun t => (t.core k).synQ = (s.core k).synQ ++ [e] ∧ took i [] s t ∧
          t.rd64 (portKey k 4) = (s.rd64 (portKey k 4) + 1) % 2 ^ 64 ∧ otherCores k s t ∧
          otherRegs (Reg.SYN_STATUS k :: portKeys k 4 0 ++ portKeys k 4 8) s t) ∧
      (64 ≤ (s.core k).synQ.length → completes (.canopyPacketArrive i) s fun t => t = s)) ∧
    (∀ p, canMask (s.canopy (k / 144) c) (k % 144) = 32 → s.ejectRole k c = none → s.logicOn k = true →
      s.role k ≠ roleActive → f.step = some p → p < 4 →
      completes (.canopyPacketArrive i) s fun t => took i [] s t ∧ t.core k = s.core k ∧
        t.rd (Reg.FAB_BAD_PKT k) = sticky (s.rd (Reg.FAB_BAD_PKT k)) 1 ∧
        t.rd (Reg.FAB_PC_EJ (k / 144) p) = s.rd (Reg.FAB_PC_EJ (k / 144) p) + 1)) ∧
  (∀ (s : State) (i g h c p : Nat) (f : Flight) (e : Ev), g < 64 → p < 4 → s.arrived i f → f.place = .stop g →
    f.body = .event e → f.step = some p →
    (∀ remote n q, f.tag = .canopy remote h c → f.inPort ≠ 4 → f.targets = [g] → s.crosses i (stopNode g) 4 n q f.body →
      completes (.stopReceiveCopy i) s fun t =>
        took i [{ f with tag := .canopy true g c, targets := [], part := (s.partOf g).getD f.part }.sentTo (144 * g + 78) 5] s t ∧
        t.rd (Reg.FAB_PC_XIN g p) = s.rd (Reg.FAB_PC_XIN g p) + 1 ∧
        t.rd (Reg.FAB_PC_INJ g p) = s.rd (Reg.FAB_PC_INJ g p) + BitVec.ofNat 32 (canEjects (s.canopy g c)) ∧
        otherRegs (Reg.FAB_PC_XIN g p :: Reg.FAB_PC_INJ g p :: portKeys (stopNode g) 4 0) s t) ∧
    (∀ x n q, f.tag = .canopy false g c → f.inPort = 4 → canTargets (s.canopy g c) = [x] → x ≠ g →
      s.crosses i (stopNode g) (stopPort g x) n q f.body →
      completes (.stopReceiveCopy i) s fun t =>
        took i [{ f with tag := .canopy false g (canRemote (s.canopy g c)), targets := [x] }.sentTo n q] s t ∧
        t.rd (Reg.FAB_PC_EJ g p) = s.rd (Reg.FAB_PC_EJ g p) + 1 ∧ t.rd (Reg.FAB_PC_XOUT g p) = s.rd (Reg.FAB_PC_XOUT g p) + 1 ∧
        otherRegs (Reg.FAB_PC_EJ g p :: Reg.FAB_PC_XOUT g p :: portKeys (stopNode g) (stopPort g x) 0) s t))

/-- A UNICAST packet of the same grove moves one hop, along the row first, and comes one hop nearer; at its router it is
ejected to the core's endpoint; at ENDPOINT 3, which no core has, it is discarded and FAB_BAD_PKT counts. It
concludes that exec answers a next state for CANOPY_PACKET_ARRIVE. (R158, R166, R188, R192. Log entry 9.) -/
def Obligations.UnicastRouting : Prop :=
  ∀ (s : State) (i k dest endpoint : Nat) (f : Flight), k < 9216 → dest < 9216 → s.arrived i f → f.place = .router k →
    f.tag = .unicast endpoint dest → f.way = none → s.rtrState k ≠ rsFaulty →
    (∀ n q, k ≠ dest → k / 144 = dest / 144 → s.crosses i k (hopPort k dest) n q f.body →
      completes (.canopyPacketArrive i) s fun t => took i [f.sentTo n q] s t ∧
        (coreX k ≠ coreX dest → coreY n = coreY k) ∧ Machine.dist n dest + 1 = Machine.dist k dest) ∧
    (k = dest → endpoint = 3 → (∀ e, f.body ≠ .event e) → completes (.canopyPacketArrive i) s fun t => took i [] s t ∧
      t.rd (Reg.FAB_BAD_PKT k) = sticky (s.rd (Reg.FAB_BAD_PKT k)) 1) ∧
    (∀ mt w src q code, k = dest → endpoint = 1 → f.body = .msg mt w src q code → s.logicOn k = true → s.role k = roleActive →
      completes (.canopyPacketArrive i) s fun t =>
        took i [{ f with place := .core k, inPort := 4, left := 0, shares := false }] s t)

/-- Where the link is up and not re-synchronising: a flit that cannot be corrected is refused, and nothing comes
further; what follows a refused flit is discarded; a good flit that is the next of its virtual channel brings its
packet one flit further, ends the refusals of the flit in hand, counts at the sender and, where it was corrected, in
FEC_CORR. LINK_NACK of the flit that was refused counts RETRY and the refusal and the link takes flits again; after
the fifth refusal the flit is abandoned, its packet is lost, ABANDON counts and the link re-synchronises.
LINK_RESYNC_DONE ends that. How a command names a link and the packets of a flit is the form of its operands. It
concludes that exec answers a next state for LINK_FLIT_RECEIVE, LINK_NACK, LINK_RESYNC_DONE. (R163, R179, R180,
R181, R182, R192. Log entries 32, 158, 160, 162.) -/
def Obligations.LinksRefuseAndResend : Prop :=
  ∀ (s : State) (k port n q : Nat), linkPeer k port = some (n, q) →
    (∀ bytes, s.linkCut n q k port = false → Store.get (fun _ => false) s.resync (linkId n q) = false →
      (Store.get (fun _ => false) s.nacked (linkId n q) = false → linkDecode bytes = none →
        completes (.linkFlitReceive k port bytes) s fun t => Store.get (fun _ => false) t.nacked (linkId n q) = true ∧
          t.refusals = s.refusals ∧ t.net = s.net ∧ otherRegs (portKeys n q 8) s t) ∧
      (Store.get (fun _ => false) s.nacked (linkId n q) = true →
        completes (.linkFlitReceive k port bytes) s fun t => t.nacked = s.nacked ∧ t.refusals = s.refusals ∧ t.net = s.net ∧
          otherRegs (portKeys n q 8) s t) ∧
      (∀ d fixed v i f, Store.get (fun _ => false) s.nacked (linkId n q) = false → linkDecode bytes = some (d, fixed) →
        s.flitNext k port d = some (1, v) → s.credit k port v = true → s.nextOnLink i k port v f →
        completes (.linkFlitReceive k port bytes) s fun t => Store.get (fun _ => 0) t.refusals (linkId n q) = 0 ∧
          t.net = s.net.set i { f with left := f.left - 1, shares := false } ∧ t.nacked = s.nacked ∧
          (∀ key, linkKey n q = some key → t.rd64 (key + 8) = (s.rd64 (key + 8) + 1) % 2 ^ 64) ∧
          (∀ key, linkKey k port = some key →
            t.rd (key + 0x18) = if fixed then sticky (s.rd (key + 0x18)) 1 else s.rd (key + 0x18)))) ∧
    (∀ i v f, s.refused n q i 1 = some v → s.net[i]? = some f →
      Store.get (fun _ => false) s.nacked (linkId k port) = true →
      (Store.get (fun _ => 0) s.refusals (linkId k port) < 4 →
        completes (.linkNack k port (i, 1)) s fun t =>
          Store.get (fun _ => 0) t.refusals (linkId k port) = Store.get (fun _ => 0) s.refusals (linkId k port) + 1 ∧
          Store.get (fun _ => false) t.nacked (linkId k port) = false ∧ t.net = s.net ∧
          (∀ key, linkKey k port = some key → t.rd (key + 0x1C) = sticky (s.rd (key + 0x1C)) 1 ∧ otherRegs [key + 0x1C] s t)) ∧
      (4 ≤ Store.get (fun _ => 0) s.refusals (linkId k port) → Store.get (fun _ => []) s.abandons (linkId k port) = [] →
        completes (.linkNack k port (i, 1)) s fun t => Store.get (fun _ => 0) t.refusals (linkId k port) = 0 ∧
          Store.get (fun _ => false) t.resync (linkId k port) = true ∧ (f.step = none → t.net = s.net.eraseIdx i) ∧
          (∀ key, linkKey k port = some key → t.rd (key + 0x20) = sticky (s.rd (key + 0x20)) 1))) ∧
    completes (.linkResyncDone k port) s fun t => Store.get (fun _ => false) t.resync (linkId k port) = false ∧ otherRegs [] s t

/-- ROUTER_FAULT makes a powered router, not the one of the stop, FAULTY with its links DOWN at both ends and nothing on
its way to it; ROUTER_RESET is accepted for an EXCLUDED or FAULTY router whose exclusion is applied, and otherwise
changes nothing but RESET_REFUSED; ROUTER_RESET_DONE ends it EXCLUDED, with its buffers empty and its links UP where
neither neighbour is FAULTY and abandons have not taken them DOWN. It concludes that exec answers a next state for
ROUTER_FAULT, ROUTER_RESET, ROUTER_RESET_DONE. (R181, R186, R189, R190. Log entry 163.) -/
def Obligations.RouterFaultsAndResets : Prop :=
  ∀ (s : State) (k : Nat), k < 9216 →
    (k % 144 ≠ 78 → s.rtrState k ≠ rsFaulty → s.routerOn k = true →
      completes (.routerFault k) s fun t => t.rtrState k = rsFaulty ∧ (∀ port ∈ linkedPorts k, t.portDown k port = true) ∧
        (∀ port n q, linkPeer k port = some (n, q) → n < 9216 → t.portDown n q = true) ∧
        (∀ f ∈ t.net, ∀ port ∈ linkedPorts k, f.atInput k port = true → f.left = 0)) ∧
    (∀ a v, a < 8 → s.access a (Reg.FAB_RTR_CTRL k) = .ok → (s.rtrState k = rsExcluded ∨ s.rtrState k = rsFaulty) →
      Store.get (fun _ => false) s.excluded k = true →
      completes (.routerReset a k v) s fun t => t.rtrState k = rsResetting) ∧
    (∀ a v, a < 8 → s.access a (Reg.FAB_RTR_CTRL k) = .ok →
      ((s.rtrState k ≠ rsExcluded ∧ s.rtrState k ≠ rsFaulty) ∨ Store.get (fun _ => false) s.excluded k = false) →
      completes (.routerReset a k v) s fun t => t.rtrState k = s.rtrState k ∧ t.bit (Reg.FAB_RTR_STATUS k) 3 = true ∧
        otherRegs [Reg.FAB_RTR_STATUS k] s t) ∧
    (s.rtrState k = rsResetting → (∀ port, port < 6 → ∀ x, x ∈ linkPeer k port → x.1 < 9216 → s.rtrState x.1 ≠ rsFaulty) →
      (∀ port, port < 6 → Store.get (fun _ => false) s.linkDead (linkId k port) = false) →
      completes (.routerResetDone k) s fun t => t.rtrState k = rsExcluded ∧ (∀ f ∈ t.net, f.place ≠ .router k) ∧
        (∀ port ∈ linkedPorts k, t.portDown k port = false))

/-- CLEARING_START of a partition that the writer may reach makes it pending; CLEARING_RUN at a step boundary checks the
staged view and drains, or records the failure and changes nothing else; CLEARING_SWAP of a drained partition within
3 us of the boundary switches the changed entry and records DONE; CLEARING_TIMEOUT 3 us after the boundary records
the timeout and switches nothing. It concludes that exec answers a next state for CLEARING_START, CLEARING_RUN,
CLEARING_SWAP, CLEARING_TIMEOUT. (R177, R183, R184, R185, R194. Log entry 41.) -/
def Obligations.Clearings : Prop :=
  (∀ (s : State) (k : Nat), k < 64 →
    (∀ a, a < 8 → s.access a (Reg.FAB_CLEAR_CTRL k) = .ok → (s.part k).clearing = .none →
      completes (.clearingStart a k) s fun t => (t.part k).clearing = .pending ∧ t.rf (Reg.FAB_CLEAR_STATUS k) 29 3 = crPending ∧
        otherParts k s t) ∧
    ((s.part k).clearing = .pending → (s.part k).openStep = none → (s.part k).applying = 0 →
      (∀ d, s.stagedFault k = some d →
        completes (.clearingRun k) s fun t => (t.part k).clearing = .none ∧ t.rf (Reg.FAB_CLEAR_STATUS k) 29 3 = crCanopy ∧
          t.rf (Reg.FAB_CLEAR_STATUS k) 0 24 = d % 2 ^ 24 ∧ otherParts k s t ∧ otherRegs [Reg.FAB_CLEAR_STATUS k] s t) ∧
      (s.stagedFault k = none → s.pathFault stagedView k = none → s.cycleFault stagedView k = none →
        completes (.clearingRun k) s fun t => (t.part k).clearing = .draining s.ref (s.allHeld k) ∧
          t.rf (Reg.FAB_CLEAR_STATUS k) 29 3 = crRunning ∧ otherParts k s t ∧ otherRegs [Reg.FAB_CLEAR_STATUS k] s t))) ∧
  (∀ (s : State) (k start : Nat) (all : Bool), k < 64 → (s.part k).clearing = .draining start all →
    (∀ e, s.drained k all = true → s.ref ≤ start + 3000 → s.srcChanged = [(e, true)] → s.holds k (e / 1024 / 144) = true →
      completes (.clearingSwap k) s fun t => (t.part k).clearing = .none ∧ t.rf (Reg.FAB_CLEAR_STATUS k) 29 3 = crDone ∧
        Store.get (fun _ => 0) t.srcLive e = Store.get (fun _ => 0) s.srcStaged e ∧
        Store.get (fun _ => 0) t.srcStaged e = Store.get (fun _ => 0) s.srcLive e ∧ t.srcChanged = [] ∧
        (∀ e', e' ≠ e → Store.get (fun _ => 0) t.srcLive e' = Store.get (fun _ => 0) s.srcLive e')) ∧
    (s.drained k all = false → start + 3000 ≤ s.ref →
      completes (.clearingTimeout k) s fun t => (t.part k).clearing = .none ∧ t.rf (Reg.FAB_CLEAR_STATUS k) 29 3 = crTimeout ∧
        t.srcLive = s.srcLive ∧ t.canLive = s.canLive ∧ t.detLive = s.detLive ∧ t.srcChanged = s.srcChanged))

/-! ### Steps -/

/-- STEP_OPEN of a RUNNING partition with a pending fire and no step open opens step COMMITTED + 1 with the parity
counters cleared and every core told; a partition that is not enabled never opens, closes or commits a step. It
concludes that exec answers a next state for STEP_OPEN, PARTITION_COMMIT. (R40, R269, R270, R271. Log entry 43.) -/
def Obligations.StepsOpen : Prop :=
  (∀ (s : State) (k n : Nat), k < 64 → n = ((s.rd (Reg.STEP_COMMITTED k)).toNat + 1) % 2 ^ 32 → s.mayOpen k = true →
    (s.port 0).holdBuf = [] → (s.port 1).holdBuf = [] →
    completes (.stepOpen k) s fun t =>
      (t.part k).openStep = some n ∧ (t.part k).closed = false ∧ (t.part k).delivered = false ∧ otherParts k s t ∧
      t.rd (Reg.STEP_OPEN k) = BitVec.ofNat 32 n ∧ t.rf (Reg.STEP_STATE k) 28 4 = ssOpen ∧ t.bit (Reg.STEP_STATE k) 23 = false ∧
      t.rd64 (Reg.STEP_OPEN_PTB_LO k) = s.ptb ∧ t.rd64 (Reg.STEP_OPEN_REF_LO k) = s.ref ∧
      (∀ p ∈ s.coresOfPart k, (t.core p).openComing = some n) ∧
      (∀ g ∈ s.grovesOf k, t.rd (Reg.FAB_PC_INJ g (n % 4)) = 0 ∧ t.rd (Reg.FAB_PC_EJ g (n % 4)) = 0 ∧
        t.rd (Reg.FAB_PC_XOUT g (n % 4)) = 0 ∧ t.rd (Reg.FAB_PC_XIN g (n % 4)) = 0) ∧
      (∀ p ∈ s.coresOfPart k, ∀ i, i < 4 → (t.core p).sum (n % 4) i = 0)) ∧
  (∀ (s : State) (k : Nat), s.pstate k ≠ psRunning → exec (.stepOpen k) s = .next s ∧ exec (.partitionCommit k) s = .next s)

/-- SEQUENCER_FIRE with no fire pending makes one pending; with one pending it merges and counts STEP_MERGED; with a
step open it overruns: under STRETCH the fire waits, under HALT the partition stops with that cause. STRETCH_LIMIT
stops it once MAX_STRETCH ticks have passed. That the stop is the one of R289 is the model's reading. It concludes
that exec answers a next state for SEQUENCER_FIRE, STRETCH_LIMIT. (R270, R285, R286, R289. Log entries 42, 43.) -/
def Obligations.FiresReachTheSequencer : Prop :=
  ∀ (s : State) (k n : Nat), k < 64 → s.pstate k = psRunning →
    (0 < (s.part k).fires → s.pendingFire k = true →
      completes (.sequencerFire k) s fun t =>
        t.part k = { s.part k with fires := (s.part k).fires - 1, merged := (s.part k).merged + 1 } ∧
        t.rd (Reg.STEP_MERGED k) = sticky (s.rd (Reg.STEP_MERGED k)) 1 ∧ otherParts k s t ∧ otherRegs [Reg.STEP_MERGED k] s t) ∧
    (0 < (s.part k).fires → s.pendingFire k = false → (s.part k).openStep = some n → s.rf (Reg.STEP_POLICY k) 0 2 = 0 →
      completes (.sequencerFire k) s fun t => t.pendingFire k = true ∧ (t.part k).overrun = true ∧
        (t.part k).firePtb = s.ptb ∧ (t.part k).openStep = some n ∧ otherParts k s t ∧ otherRegs [Reg.STEP_STATE k] s t) ∧
    (0 < (s.part k).fires → s.pendingFire k = false → (s.part k).openStep = some n → s.rf (Reg.STEP_POLICY k) 0 2 = 2 →
      (s.part k).applying = 0 →
      completes (.sequencerFire k) s fun t => t.pstate k = psStopped ∧ t.rf (Reg.STEP_STATE k) 28 4 = ssStopped ∧
        t.rf (Reg.STEP_STATE k) 24 4 = scHalt ∧ (t.part k).openStep = none) ∧
    (s.pendingFire k = true → (s.part k).overrun = true → (s.part k).openStep = some n → (s.part k).applying = 0 →
      (s.rd (Reg.STEP_MAX_STRETCH k)).toNat ≠ 0xFFFFFFFF →
      (s.rd (Reg.STEP_MAX_STRETCH k)).toNat ≤ (s.ptb + 2 ^ 64 - (s.part k).firePtb) % 2 ^ 64 →
      completes (.stretchLimit k) s fun t => t.pstate k = psStopped ∧ t.rf (Reg.STEP_STATE k) 28 4 = ssStopped ∧
        t.rf (Reg.STEP_STATE k) 24 4 = scStretch ∧ (t.part k).openStep = none)

/-- A core that has nothing left to inject declares once and the partition closes when all have; when the parity
counters of the step balance, delivery is complete and every grove is asked for its verdict; a round is asked when
every core has declared or stalled, and counts when every grove has passed. It concludes that exec answers a next
state for LAST_INJECTION_DECLARE, DELIVERY_EVALUATE, ROUND. (R177, R273, R278, R279. Log entry 44.) -/
def Obligations.StepsCloseAndDeliver : Prop :=
  ∀ (s : State) (k n : Nat), k < 64 →
    (∀ p, s.runningPart p = some k → (s.core p).mayDeclare = true →
      completes (.lastInjectionDeclare p) s fun t => t.core p = { s.core p with declared := true } ∧ otherCores p s t ∧
        otherRegs [] s t ∧
        (t.part k).closed = ((s.part k).closed || (s.coresOfPart k).all fun q => q == p || (s.core q).declared)) ∧
    ((s.part k).openStep = some n → (s.part k).delivered = false → (s.part k).closed = true → s.settled k n = true →
      (∀ g ∈ s.grovesOf k, (s.grove g).held = false ∧ (s.grove g).passed = false) →
      completes (.deliveryEvaluate k) s fun t => (t.part k).delivered = true ∧ t.rf (Reg.STEP_STATE k) 28 4 = ssChecking ∧
        (∀ g ∈ s.grovesOf k, (t.grove g).asked = some (n % 4, false) ∧ (t.grove g).reports = []) ∧ otherParts k s t) ∧
    ((s.part k).openStep = some n → (s.part k).roundAsked = true → ((s.grovesOf k).all fun g => (s.grove g).passed) = true →
      completes (.round k) s fun t => (t.part k).rounds = (s.part k).rounds + 1 ∧ (t.part k).roundAsked = false ∧
        t.rf (Reg.STEP_STATE k) 28 4 = ssOpen ∧ t.rd (Reg.STEP_ROUNDS k) = sticky (s.rd (Reg.STEP_ROUNDS k)) 1) ∧
    ((s.part k).openStep = some n → (s.part k).roundAsked = false → (s.part k).delivered = false → s.settled k n = true →
      ((s.coresOfPart k).any fun p => (s.core p).stalled) = true →
      ((s.coresOfPart k).all fun p => (s.core p).declared || (s.core p).stalled) = true →
      completes (.round k) s fun t => (t.part k).roundAsked = true ∧ t.rf (Reg.STEP_STATE k) 28 4 = ssRound ∧
        (∀ g ∈ s.grovesOf k, (t.grove g).asked = some (n % 4, true)) ∧ otherParts k s t)

/-- PARTITION_COMMIT of a partition that may commit step n with no fence pending makes STEP_COMMITTED and each grove's
committed step n, closes the step, flips the selectors of the blocks each core integrated, and writes NEU_LAST_STEP
of each core. It concludes that exec answers a next state for PARTITION_COMMIT. (R41, R42, R85, R87, R107, R279,
R280. Log entry 21.) -/
def Obligations.StepsCommit : Prop :=
  ∀ (s : State) (k n : Nat), k < 64 → s.mayCommit k = true → (s.part k).openStep = some n →
    (∀ p ∈ s.coresOfPart k, (s.core p).fencePending = false) →
    completes (.partitionCommit k) s fun t =>
      t.rd (Reg.STEP_COMMITTED k) = BitVec.ofNat 32 n ∧ (t.part k).openStep = none ∧ t.rf (Reg.STEP_STATE k) 28 4 = ssWaiting ∧
      (∀ p ∈ s.coresOfPart k, (t.core p).openStep = none ∧
        (t.core p).selectors = Nat.xor (s.core p).selectors (s.core p).blocks ∧
        t.rd (Reg.NEU_LAST_STEP p) = BitVec.ofNat 32 n) ∧
      (∀ g ∈ s.grovesOf k, t.rd (Reg.STEP_GROVE_COMMITTED g) = BitVec.ofNat 32 n)

/-! ### Integrity -/

/-- A CHECK_REPORT joins the reports of its grove and nothing else changes; GROVE_VERDICT with every report in and no
finding passes the grove and clears its hold, and no other grove changes; GROVE_FAULT marks the grove with its cause
(0 takes its rail's power-good away), and its partition, where it has one that is RUNNING outside an apply, stops
with cause GROVE. It concludes that exec answers a next state for CHECK_REPORT, GROVE_VERDICT, GROVE_FAULT. (R42,
R45, R345, R346, R379. Log entry 63.) -/
def Obligations.VerdictsAndGroveFaults : Prop :=
  (∀ (s : State) (g k : Nat), g < 64 → s.partOf g = some k →
    (∀ i f r, s.arrived i f → f.place = .unit (0x80 + g) → f.body = .check r →
      completes (.checkReport i) s fun t => (t.grove g).reports = (s.grove g).reports ++ [r] ∧ took i [] s t ∧
        otherGroves g s t ∧ otherRegs [] s t) ∧
    (∀ a, (s.grove g).asked = some a → (s.grove g).passed = false → (s.grove g).hbmOut = [] → (s.grove g).replay = none →
      (s.grove g).repair = [] → ((s.activeCores g).all fun p => (reportOf (s.grove g).reports p).isSome) = true →
      s.findingOf k (s.grove g).reports = none →
      completes (.groveVerdict g) s fun t => (t.grove g).passed = true ∧ (t.grove g).held = false ∧
        t.rf (Reg.STEP_GROVE_STATUS g) 30 2 = 1 ∧ t.bit (Reg.INT_GRV_STATUS g) 31 = false ∧
        t.grove g = { s.grove g with passed := true, finding := 0, held := false } ∧ otherGroves g s t)) ∧
  (∀ (s : State) (g cause : Nat), g < 64 → cause < 3 → (s.grove g).plsApply = false →
    (s.partOf g = none →
      completes (.groveFault g cause) s fun t => (t.grove g).faulted = some cause ∧ otherGroves g s t ∧
        (cause = 0 → t.bit (Reg.PWR_RAIL g) 31 = false ∧ t.bit (Reg.PWR_RAIL g) 30 = true)) ∧
    (∀ k, s.partOf g = some k → s.pstate k = psRunning → (s.part k).applying = 0 →
      completes (.groveFault g cause) s fun t => (t.grove g).faulted = some cause ∧ t.pstate k = psStopped ∧
        t.rf (Reg.STEP_STATE k) 24 4 = scGrove ∧ (t.part k).openStep = none ∧ (t.grove g).stopped = true))

/-- SHADOW_COPY copies the next bytes of the image of the suspect core to its sapling and no other byte of it;
REPLAY_COPY_DONE of a whole image starts the run; REPLAY_DONE of an audit that agrees ends it, makes the core a
SAPLING again and counts the audit; TWIN_REPAIR_DONE takes the repair off the list, makes the core's selectors those
of its twin, counts the repair and strikes the core. The layout of a SHADOW_COPY is the model's choice. It concludes
that exec answers a next state for SHADOW_COPY, REPLAY_COPY_DONE, REPLAY_DONE, TWIN_REPAIR_DONE. (R355, R356, R357,
R358, R359, R361, R364. Log entries 10, 54, 166, 179.) -/
def Obligations.ReplaysAndRepairs : Prop :=
  ∀ (s : State) (g k : Nat), g < 64 → s.partOf g = some k →
    (∀ i f r bytes offs, s.arrived i f → f.place = .core r.sapling → f.body = .shadowCopy g r.copied bytes →
      (s.core r.sapling).gated = false → (s.grove g).replay = some r → r.running = false →
      offs = ((s.image r.core (s.verdictStep g)).drop r.copied).take bytes.length →
      completes (.shadowCopy g i) s fun t =>
        (offs.Nodup → ∀ x ∈ offs.zip bytes, t.byte r.sapling x.1 = x.2) ∧
        (∀ o, o ∉ offs → t.byte r.sapling o = s.byte r.sapling o) ∧
        (∃ m, (t.grove g).replay = some { r with copied := r.copied + bytes.length, sent := m }) ∧
        otherGroves g s t ∧ otherRegs [] s t) ∧
    (∀ r lane flip value, (s.grove g).replay = some r → r.running = false →
      (s.image r.core (s.verdictStep g)).length ≤ r.copied → s.coreOn r.sapling = true →
      completes (.replayCopyDone g lane flip value) s fun t => (t.grove g).replay = some { r with running := true } ∧
        t.net = s.net ∧ otherGroves g s t) ∧
    (∀ r, (s.grove g).replay = some r → r.running = true → r.trigger = trigAudit → r.y1 = none → r.sapling < 9216 →
      (s.core r.core).declared = true → s.replayAgrees g r = true → s.role r.sapling = roleReplay →
      completes (.replayDone g) s fun t => (t.grove g).replay = none ∧ t.role r.sapling = roleSapling ∧
        t.rd (Reg.INT_GRV_AUDITS g) = sticky (s.rd (Reg.INT_GRV_AUDITS g)) 1 ∧ t.bit (Reg.INT_GRV_STATUS g) 30 = false ∧
        t.net = s.net) ∧
    (∀ p w f rest, (s.grove g).repair = (p, w, f) :: rest → p < 9216 →
      completes (.twinRepairDone g) s fun t => (t.grove g).repair = rest ∧
        t.rd (Reg.INT_GRV_REPAIRS g) = sticky (s.rd (Reg.INT_GRV_REPAIRS g)) 1 ∧
        (t.core p).selectors = (s.core w).selectors ∧
        t.rd (Reg.INT_STRIKES p) = sticky (s.rd (Reg.INT_STRIKES p)) 1)

/-- SCRUB of a word of an ON memory in a bank of the core, with no error met before: without an error it only moves the
pointer; a single-bit error is corrected, counted and leaves memory unchanged; a double-bit error poisons the word
and counts, and no byte of another word changes. CFG_DIGEST_PASS publishes the digest of the one core of an owned
partition and counts the pass. The layout a digest runs over is the model's reading. It concludes that exec answers
a next state for SCRUB, CFG_DIGEST_PASS. (R346, R347, R351, R352, R377, R378. Log entry 57.) -/
def Obligations.ScrubsAndDigests : Prop :=
  ∀ (s : State) (p : Nat), p < 9216 →
    (∀ off, off = 8 * (s.core p).scrubPtr → s.memOn p = true → s.bankFor p (off / 0x4000) ownCore = true → s.intact p off 8 →
      completes (.scrub p 0) s (fun t => t.core p = { s.core p with scrubPtr := ((s.core p).scrubPtr + 1) % memWords } ∧
        t.mem = s.mem ∧ otherCores p s t ∧ otherRegs [] s t) ∧
      completes (.scrub p 1) s (fun t => (t.core p).scrubPtr = ((s.core p).scrubPtr + 1) % memWords ∧
        t.rd (Reg.INT_SRAM_CE p) = sticky (s.rd (Reg.INT_SRAM_CE p)) 1 ∧ t.mem = s.mem ∧ otherRegs [Reg.INT_SRAM_CE p] s t) ∧
      completes (.scrub p 2) s fun t => t.bad p off = true ∧ (t.core p).scrubPtr = ((s.core p).scrubPtr + 1) % memWords ∧
        t.rd (Reg.INT_SRAM_UE p) = sticky (s.rd (Reg.INT_SRAM_UE p)) 1 ∧ otherBytes p off 8 s t) ∧
    (∀ k, k < 64 → s.bit (Reg.HIF_PART_OWNER k) 31 = true → s.coresOfPart k = [p] →
      completes (.cfgDigestPass k) s fun t => t.rd64 (Reg.INT_CFG_DIGEST_LO p) = s.coreDigest p % 2 ^ 64 ∧
        t.rf (Reg.INT_DIG_STATUS p) 0 16 = (s.rf (Reg.INT_DIG_STATUS p) 0 16 + 1) % 2 ^ 16)

/-- FENCE_MIGRATION_DONE at a boundary that allows the move makes the sapling ACTIVE with the logical id of the old core
and a copy of its whole memory, fences the old core and counts INT_MAP_GEN; ROLE_FENCE_WRITE fences a SAPLING of a
disabled owned partition and is ignored where the partition is enabled. What happens to the old core's registers is
the model's choice and is not stated. It concludes that exec answers a next state for FENCE_MIGRATION_DONE,
ROLE_FENCE_WRITE. (R22, R25, R26, R27, R220, R365. Log entry 58.) -/
def Obligations.FencesMoveRoles : Prop :=
  ∀ (s : State) (p q k : Nat), p < 9216 → q < 9216 → p ≠ q → s.partOf (p / 144) = some k →
    (∀ rest, (s.grove (p / 144)).fenceWaits = [] → (s.grove (p / 144)).reserved = (p, q) :: rest → s.atBoundary k = true →
      s.mayMove p = true → s.role q = roleSapling → s.role p = roleActive → s.coreOn q = true →
      completes (.fenceMigrationDone (p / 144)) s fun t =>
        t.role q = roleActive ∧ t.logicalOf q = s.logicalOf p ∧ t.role p = roleFenced ∧ t.physOf (s.logicalOf p) = some q ∧
        (∀ o, o < 0x40000 → t.byte q o = s.byte p o) ∧ (t.grove (p / 144)).reserved = rest ∧
        t.rd Reg.INT_MAP_GEN = s.rd Reg.INT_MAP_GEN + 1) ∧
    (∀ a v, a < 8 → s.access a (Reg.INT_PHYS_STATE p) = .ok → fld v 28 4 = roleFenced → s.ownerOf k = some a →
      s.enabled k = false → s.role p = roleSapling → s.descBusy p = false →
      completes (.roleFenceWrite a p v) s fun t => t.role p = roleFenced ∧ t.rd Reg.INT_MAP_GEN = s.rd Reg.INT_MAP_GEN + 1) ∧
    (∀ a v, a < 8 → s.access a (Reg.INT_PHYS_STATE p) = .ok → s.enabled k = true →
      completes (.roleFenceWrite a p v) s fun t => t = s)

/-- TEST_DUE of an ACTIVE core of a grove without a grove-wide fault makes its test pending at its due time;
TEST_MIGRATE of a due SAPLING tests it in place, with its banks TEST's; TEST_DEFER_EXPIRE forces the migration after
DEFER_S; TEST_DONE clears the core's memory, gives its banks back to CORE, and makes it a SAPLING where it passed,
counting the pass, and FENCED where it failed, counting the failure. It concludes that exec answers a next state for
TEST_DUE, TEST_MIGRATE, TEST_DEFER_EXPIRE, TEST_DONE. (R22, R368, R369, R371, R381, R466. Log entries 61, 192.) -/
def Obligations.InFieldTests : Prop :=
  ∀ (s : State) (p : Nat), p < 9216 →
    (s.bit Reg.INT_TEST_CFG 31 = true → (s.partOf (p / 144)).isSome = true → s.role p = roleActive →
      (s.grove (p / 144)).faulted = none → s.bit (Reg.INT_TEST p) 30 = false → s.testAt p ≤ s.ref →
      completes (.testDue p) s fun t => t.bit (Reg.INT_TEST p) 30 = true ∧ (t.core p).testDue = s.ref ∧ t.role p = roleActive) ∧
    (s.bit (Reg.INT_TEST p) 30 = true → s.mayTest p = true → s.coreOn p = true → s.role p = roleSapling →
      completes (.testMigrate p) s fun t => t.role p = roleTest ∧ (t.grove (p / 144)).testing = some p ∧
        (∀ b, b < 16 → t.bankOwner p b = ownTest) ∧
        t.bit (Reg.INT_TEST p) 30 = false ∧ t.rd Reg.INT_MAP_GEN = s.rd Reg.INT_MAP_GEN + 1) ∧
    (s.bit (Reg.INT_TEST p) 30 = true → s.role p = roleActive →
      (s.core p).testDue + s.rf Reg.INT_TEST_CFG 16 12 * 10 ^ 9 ≤ s.ref →
      completes (.testDeferExpire p) s fun t => t.bit (Reg.INT_TEST p) 29 = true ∧ otherRegs [Reg.INT_TEST p] s t) ∧
    (∀ pattern, s.role p = roleTest → (s.grove (p / 144)).testing = some p → (s.grove (p / 144)).faulted = none →
      completes (.testDone p true pattern) s (fun t => t.role p = roleSapling ∧ (t.grove (p / 144)).testing = none ∧
        (t.core p).testEnd = some s.ref ∧ (∀ b, b < 16 → t.bankOwner p b = ownCore) ∧ (∀ o, o < 0x40000 → t.byte p o = 0) ∧
        t.rd Reg.INT_TEST_PASSED = sticky (s.rd Reg.INT_TEST_PASSED) 1) ∧
      completes (.testDone p false pattern) s (fun t => t.role p = roleFenced ∧ (t.grove (p / 144)).testing = none ∧
        (∀ b, b < 16 → t.bankOwner p b = ownCore) ∧ (∀ o, o < 0x40000 → t.byte p o = 0) ∧ t.rd Reg.INT_TEST_FAILED = sticky (s.rd Reg.INT_TEST_FAILED) 1))

/-! ### Learning -/

/-- PLS_PASS_DONE ends the grove's pass and counts it; APPLY_START of a partition whose passes are over begins an apply
in every plastic grove, none of which has stopped; APPLY_DONE of the only grove ends it, advances PLS_EPOCH, empties
the log, clears the step count of the epoch and counts the apply; END_EPOCH asks for the end of the epoch. That an
apply takes effect whole is the model's choice and is not stated. It concludes that exec answers a next state for
PLS_PASS_DONE, APPLY_START, APPLY_DONE, END_EPOCH. (R309, R310, R318, R319, R326. Log entry 62.) -/
def Obligations.PassesAndApplies : Prop :=
  ∀ (s : State) (k g : Nat), k < 64 → g < 64 →
    (∀ bad, (s.grove g).plsPass = true →
      completes (.plsPassDone g bad) s fun t => (t.grove g).plsPass = false ∧ (t.grove g).plsRunLen = 0 ∧
        t.rd (Reg.PLS_PASSES g) = sticky (s.rd (Reg.PLS_PASSES g)) 1 ∧ t.bit (Reg.PLS_GRV_STATUS g) 31 = false) ∧
    ((s.part k).applying = 1 → s.passing k = false → s.plasticGroves k ≠ [] →
      (∀ h ∈ s.plasticGroves k, (s.grove h).stopped = false) →
      completes (.applyStart k) s fun t => (t.part k).applying = 2 ∧ t.rf (Reg.PLS_PART_STATUS k) 30 2 = plApplying ∧
        (∀ h ∈ s.plasticGroves k, (t.grove h).plsApply = true) ∧ otherParts k s t ∧ otherRegs [Reg.PLS_PART_STATUS k] s t) ∧
    (s.partOf g = some k → (s.part k).applying = 2 → s.plasticGroves k = [g] → (s.grove g).plsApply = true →
      (s.part k).stopAsked = none →
      completes (.applyDone g []) s fun t => (t.part k).applying = 0 ∧ (t.grove g).plsApply = false ∧ (t.grove g).plsFill = [] ∧
        t.rd (Reg.PLS_EPOCH k) = s.rd (Reg.PLS_EPOCH k) + 1 ∧ t.rf (Reg.PLS_PART_STATUS k) 0 15 = 0 ∧
        t.rf (Reg.PLS_PART_STATUS k) 30 2 = plLearning ∧ t.rd (Reg.PLS_APPLIES k) = sticky (s.rd (Reg.PLS_APPLIES k)) 1) ∧
    (∀ a v, a < 8 → s.access a (Reg.PLS_PART_CTRL k) = .ok → s.enabled k = true →
      completes (.endEpoch a k v) s fun t => (t.part k).endAsked = true ∧ otherParts k s t)

/-! ### Set-up registers -/

/-- A write of an RWL register takes effect where its partition is disabled and is ignored where it is enabled; a write
of an RO register changes no register; a W1C bit is cleared by a 1 and nothing else changes; an access to a reserved
offset or to a unit or window not owned changes only the counter of R386. A start of the software CVU loads C32C and
its initial value, and a write of RUNNING sets r, with VALUE showing the check value. It concludes that exec answers
a next state for REGISTER_WRITE, CVU_START, CVU_RUNNING_WRITE. (R15, R16, R33, R34, R337, R338, R340, R341, R386.
Log entries 66, 67, 68.) -/
def Obligations.RegisterWrites : Prop :=
  (∀ (s : State) (a k : Nat) (v : Word), a < 8 → k < 64 →
    (s.access a (Reg.STEP_MAX_STRETCH k) = .ok → s.enabled k = false →
      completes (.registerWrite a (Reg.STEP_MAX_STRETCH k) v) s fun t => t.rd (Reg.STEP_MAX_STRETCH k) = v ∧
        otherRegs [Reg.STEP_MAX_STRETCH k] s t) ∧
    (s.access a (Reg.STEP_MAX_STRETCH k) = .ok → s.enabled k = true →
      completes (.registerWrite a (Reg.STEP_MAX_STRETCH k) v) s fun t => otherRegs [] s t) ∧
    (s.access a (Reg.STEP_COMMITTED k) = .ok →
      completes (.registerWrite a (Reg.STEP_COMMITTED k) v) s fun t => otherRegs [] s t) ∧
    (∀ p, p < 9216 → s.access a (Reg.FAB_RTR_STATUS p) = .ok →
      completes (.registerWrite a (Reg.FAB_RTR_STATUS p) v) s fun t =>
        t.rd (Reg.FAB_RTR_STATUS p) = s.rd (Reg.FAB_RTR_STATUS p) &&& ~~~(v &&& 8) ∧ otherRegs [Reg.FAB_RTR_STATUS p] s t) ∧
    (∀ addr, s.access a addr = .bad →
      completes (.registerWrite a addr v) s fun t => t.rd (Reg.HIF_BAD_ACCESS a) = sticky (s.rd (Reg.HIF_BAD_ACCESS a)) 1 ∧
        otherRegs [Reg.HIF_BAD_ACCESS a] s t) ∧
    (∀ addr, s.access a addr = .filtered →
      completes (.registerWrite a addr v) s fun t => t.rd (Reg.HIF_FILTERED a) = sticky (s.rd (Reg.HIF_FILTERED a)) 1 ∧
        t.rd (Reg.HIF_FILTER_ADDR a) = BitVec.ofNat 32 addr ∧ otherRegs [Reg.HIF_FILTERED a, Reg.HIF_FILTER_ADDR a] s t)) ∧
  (∀ (s : State) (a : Nat) (v lo hi : Word), a < 8 →
    (s.access a cvuCtrl = .ok → fld v 0 2 = 1 → tst v 30 = false →
      completes (.cvuStart a v) s fun t => t.rd64 cvuRunning = 0xFFFFFFFF ∧ t.cvuPar = c32c ∧
        t.rd64 cvuValueReg = cvuValue c32c 0xFFFFFFFF) ∧
    (s.access a cvuRunning = .ok →
      completes (.cvuRunningWrite a lo hi) s fun t =>
        t.rd64 cvuRunning = (lo.toNat + 2 ^ 32 * hi.toNat) % 2 ^ s.cvuWidth ∧
        t.rd64 cvuValueReg = cvuValue s.cvuPar ((lo.toNat + 2 ^ 32 * hi.toNat) % 2 ^ s.cvuWidth) % 2 ^ 64))

/-- For every LO register of a pair that an attachment may access and whose stamp is not hidden: the read returns LO and
changes no register, and in every later state in which the latch is as the read left it, the read of HI returns HI
as it was at the read of LO. A write of the LO half of a channel's COMPARE changes no register, and the write of HI
that follows, with nothing due, sets the 64-bit value. That the latch is kept per attachment and the held half at
the register is the model's choice. It concludes that exec answers a next state for REG64_LO_READ, REGISTER_WRITE,
COMPARE_WRITE. (R14, R267. Log entries 69, 70.) -/
def Obligations.PairsOfRegisters : Prop :=
  ∀ (s : State) (a addr : Nat) (b : Blk) (o : Nat), a < 8 → s.access a addr = .ok → locate addr = some (b, o) →
    pairLo b o = true → locate (addr + 4) = some (b, o + 4) → s.stampHidden a b o = false →
    completes (.reg64LoRead a addr) s (fun t => t.out = .regData a (s.rd (regKey a addr)) :: s.out ∧ otherRegs [] s t ∧
      ∀ u, u.hiLatch = t.hiLatch → u.access a (addr + 4) = .ok → u.stampHidden a b (o + 4) = false →
        completes (.reg64LoRead a (addr + 4)) u fun x => x.out = .regData a (s.rd (regKey a (addr + 4))) :: u.out) ∧
    (∀ ch lo hi, ch < 1024 → addr = chKey ch + 8 → s.notDue ch →
      completes (.registerWrite a addr lo) s fun t => otherRegs [] s t ∧
        ∀ u, u.loPend = t.loPend → u.access a (addr + 4) = .ok → u.notDue ch →
          completes (.compareWrite a ch hi) u fun x => x.rd64 addr = lo.toNat + 2 ^ 32 * hi.toNat ∧
            otherRegs [addr, addr + 4] u x)

/-! ### The timebase and its channels -/

/-- A due ONE_SHOT STEP channel sends one fire to its partition, records the reference time, counts and goes IDLE; a
PERIODIC one stays armed with COMPARE moved past the PTB by whole intervals. A write of COMPARE of a channel that is
due lets it fire first. With neither the channel nor its master due: ARM arms it, or sets it waiting for its group,
and clears BASE_VALID and LCOUNT; ARM with DISARM sets REFUSED and changes no state; DISARM makes it IDLE; COMPARE
takes the held LO with the written HI; INTERVAL is written, moves COMPARE to BASE plus the new interval where one is
valid, and a 0 to an armed PERIODIC channel is refused. A group start arms a waiting STEP channel of an owned
RUNNING partition. It concludes that exec answers a next state for CHANNEL_FIRE, COMPARE_WRITE, CHANNEL_ARM,
CHANNEL_DISARM, INTERVAL_WRITE, GROUP_START. (R248, R249, R250, R251, R252, R253, R255, R265, R266, R267. Log
entries 65, 69, 100.) -/
def Obligations.Channels : Prop :=
  (∀ (s : State) (ch k : Nat), ch < 1024 → s.chReady ch = true → s.slavesOf ch = [] → s.chClass ch = clsStep →
    s.chPart ch = some k →
    (s.bit (chKey ch) 27 = true →
      completes (.channelFire ch) s fun t => t.chState ch = chIdle ∧ t.part k = { s.part k with fires := (s.part k).fires + 1 } ∧
        otherParts k s t ∧ t.rd64 (chKey ch + 0x30) = s.ref ∧
        t.rd (chKey ch + 0x38) = sticky (s.rd (chKey ch + 0x38)) 1 ∧
        otherRegs [chKey ch + 4, chKey ch + 0x30, chKey ch + 0x34, chKey ch + 0x38] s t) ∧
    (s.bit (chKey ch) 27 = false → 0 < s.chInterval ch →
      completes (.channelFire ch) s fun t => t.chState ch = chArmed ∧ (t.part k).fires = (s.part k).fires + 1 ∧
        t.chCompare ch = (s.chCompare ch + ((s.chDiff ch).toNat / s.chInterval ch + 1) * s.chInterval ch) % 2 ^ 64 ∧
        t.chDiff ch < 0 ∧ t.chReady ch = false ∧
        otherRegs [chKey ch + 4, chKey ch + 8, chKey ch + 0xC, chKey ch + 0x14, chKey ch + 0x28, chKey ch + 0x2C,
          chKey ch + 0x30, chKey ch + 0x34, chKey ch + 0x38] s t)) ∧
  (∀ (s : State) (a ch : Nat) (v : Word), a < 8 → ch < 1024 →
    (s.access a (chKey ch + 0xC) = .ok → s.chReady ch = true → s.masterOf ch = none → s.slavesOf ch = [] → s.chClass ch = clsGeneral →
      completes (.compareWrite a ch v) s fun t => t.rd (chKey ch + 0x38) = sticky (s.rd (chKey ch + 0x38)) 1 ∧
        t.rd64 (chKey ch + 0x30) = s.ref ∧ t.chCompare ch = (s.loHalf (chKey ch + 8)).toNat + 2 ^ 32 * v.toNat) ∧
    (s.notDue ch → s.access a (chKey ch) = .ok → tst v 30 = false → s.chInterval ch ≠ 0 →
      completes (.channelArm a ch v) s fun t => t.chState ch = (if t.chClass ch = clsStep then chWait else chArmed) ∧
        t.bit (chKey ch + 4) 28 = false ∧ t.rd64 (chKey ch + 0x20) = 0 ∧
        otherRegs [chKey ch, chKey ch + 4, chKey ch + 0x20, chKey ch + 0x24] s t) ∧
    (s.notDue ch → s.access a (chKey ch) = .ok → tst v 30 = true →
      completes (.channelArm a ch v) s fun t => t.chState ch = s.chState ch ∧ t.bit (chKey ch + 4) 26 = true ∧
        otherRegs [chKey ch, chKey ch + 4] s t) ∧
    (s.notDue ch → s.access a (chKey ch) = .ok → tst v 31 = false →
      completes (.channelDisarm a ch v) s fun t => t.chState ch = chIdle ∧ otherRegs [chKey ch, chKey ch + 4] s t) ∧
    (s.notDue ch → s.access a (chKey ch + 0xC) = .ok →
      completes (.compareWrite a ch v) s fun t => t.chCompare ch = (s.loHalf (chKey ch + 8)).toNat + 2 ^ 32 * v.toNat ∧
        otherRegs [chKey ch + 8, chKey ch + 0xC] s t) ∧
    (s.notDue ch → s.access a (chKey ch + 0x10) = .ok → s.chState ch = chIdle →
      completes (.intervalWrite a ch v) s fun t => t.rd (chKey ch + 0x10) = v ∧ otherRegs [chKey ch + 0x10] s t) ∧
    (s.notDue ch → s.access a (chKey ch + 0x10) = .ok → s.chState ch ≠ chIdle → s.bit (chKey ch) 27 = false → v ≠ 0 →
      s.bit (chKey ch + 4) 28 = true →
      completes (.intervalWrite a ch v) s fun t => t.rd (chKey ch + 0x10) = v ∧
        t.chCompare ch = (s.rd64 (chKey ch + 0x28) + v.toNat) % 2 ^ 64) ∧
    (s.notDue ch → s.access a (chKey ch + 0x10) = .ok → s.chState ch ≠ chIdle → s.bit (chKey ch) 27 = false →
      completes (.intervalWrite a ch 0) s fun t => t.rd (chKey ch + 0x10) = s.rd (chKey ch + 0x10) ∧
        t.bit (chKey ch + 4) 26 = true ∧ otherRegs [chKey ch + 4] s t) ∧
    (∀ k, k < 64 → s.access a 0x4000204 = .ok → s.chState ch = chWait → s.chClass ch = clsStep → s.chPart ch = some k →
      s.ownerOf k = some a → s.pstate k = psRunning →
      ((s.loHalf (latchKey a 0x4000200)).toNat + 2 ^ 32 * v.toNat) / 2 ^ k % 2 = 1 →
      completes (.groupStart a v) s fun t => t.chState ch = chArmed))

/-- With no channel due: under ENC a forward edge counts one and a reverse one only adds to the backlash; under LINE the
first edge counts and one within 10 ns of the last only counts as an error; under MAINS an owed tick is paid and a
zero-cross before three quarters of a period is a glitch; under PTP the PTB moves towards its target and never back;
under INT it moves every TB_INT_DIV ns, and the cores see it later, over the spine. A pulse shorter than the filter
changes nothing. A loss makes the timebase SUBSTITUTED or LOST; a substituted source that may return does so. A
selected edge of a STAMP input is stamped with PTB and reference counter while its queue of 16 has room, and its
stamp is delivered to an enabled ingress context of a RUNNING partition, with the key of its input, or dropped. The
length of the spine and how the filter takes an edge are the model's readings. It concludes that exec answers a next
state for ENC_COUNT, LINE_EDGE, MAINS_TICK, PTP_FOLLOW_TICK, INT_TICK, MAINS_ZERO_CROSS, PHASE_LOST,
SOURCE_AUTO_RETURN, PIN_STAMP, STAMP_DELIVER. (R231, R235, R236, R237, R238, R239, R240, R242, R244, R245, R246,
R439. Log entries 102, 103, 190, 191.) -/
def Obligations.Timebase : Prop :=
  (∀ s : State, s.noneDue →
    (s.phaseOn = true → s.source = srcEnc → s.driven = true → s.srcPin < 7 → s.filterOk s.srcPin 1 = true → s.rd Reg.TB_BACKLASH = 0 →
      ((!(s.pinLevel s.srcPin) != s.pinLevel (s.srcPin + 1)) != s.bit Reg.TB_SOURCE 26) = true →
      completes (.encCount 0) s fun t => t.ptb = (s.ptb + 1) % 2 ^ 64 ∧ t.pinLevel s.srcPin = !(s.pinLevel s.srcPin)) ∧
    (s.phaseOn = true → s.source = srcEnc → s.driven = true → s.srcPin < 7 → s.filterOk s.srcPin 1 = true →
      ((!(s.pinLevel s.srcPin) != s.pinLevel (s.srcPin + 1)) != s.bit Reg.TB_SOURCE 26) = false →
      completes (.encCount 0) s fun t => t.ptb = s.ptb ∧ t.rd Reg.TB_BACKLASH = sticky (s.rd Reg.TB_BACKLASH) 1) ∧
    (s.phaseOn = true → s.source = srcLine → s.driven = true → s.srcPin < 8 → s.selectedOk = true → s.tb.lineLast = none →
      completes .lineEdge s fun t => t.ptb = (s.ptb + 1) % 2 ^ 64 ∧ t.tb.lineLast = some s.ref ∧ t.tb.lineCounted = s.ref) ∧
    (∀ z, s.phaseOn = true → s.source = srcLine → s.srcPin < 8 → s.selectedOk = true → s.tb.lineLast = some z → s.ref - z < 10 →
      completes .lineEdge s fun t => t.ptb = s.ptb ∧ t.tb.lineLast = some s.ref ∧
        t.rd Reg.TB_ENC_ERR = sticky (s.rd Reg.TB_ENC_ERR) 1) ∧
    (s.phaseOn = true → s.source = srcMains → s.driven = true → 0 < s.tb.mainsOwed →
      completes .mainsTick s fun t => t.ptb = (s.ptb + 1) % 2 ^ 64 ∧ t.tb.mainsOwed = s.tb.mainsOwed - 1 ∧
        t.rd Reg.TB_MAINS_CATCHUP = sticky (s.rd Reg.TB_MAINS_CATCHUP) 1) ∧
    (s.source = srcPtp → s.driven = true → s.ptb < s.ptpTarget →
      completes .ptpFollowTick s fun t => t.ptb = (s.ptb + 1) % 2 ^ 64) ∧
    (s.source = srcPtp → s.driven = true → s.ptpTarget < s.ptb →
      completes .ptpFollowTick s fun t => t.ptb = s.ptb ∧ t.rd Reg.TB_PTP_BACKSTEP = sticky (s.rd Reg.TB_PTP_BACKSTEP) 1 ∧
        otherRegs [Reg.TB_PTP_BACKSTEP] s t) ∧
    (s.up = true → s.source = srcInt → s.driven = true → s.tb.intLast + (s.rd Reg.TB_INT_DIV).toNat ≤ s.ref →
      completes .intTick s fun t => t.ptb = (s.ptb + 1) % 2 ^ 64 ∧
        t.tb.intLast = s.tb.intLast + (s.rd Reg.TB_INT_DIV).toNat ∧ t.corePtb = s.corePtb ∧
        t.tb.spineQ = s.tb.spineQ ++ [(s.ref, (s.ptb + 1) % 2 ^ 64)] ∧ otherRegs [Reg.TB_PTB_LO, Reg.TB_PTB_LO + 4] s t)) ∧
  (∀ s : State,
    (s.phaseOn = true → s.source = srcMains → s.srcPin < 8 → s.selectedOk = true → s.tb.mainsZero = none →
      completes .mainsZeroCross s fun t => t.tb.mainsZero = some s.ref) ∧
    (∀ z r, s.phaseOn = true → s.source = srcMains → s.srcPin < 8 → s.selectedOk = true → s.tb.mainsZero = some z → s.tb.mainsRef = some r →
      4 * (s.ref - z) < 3 * r →
      completes .mainsZeroCross s fun t => t.tb = { s.tb with edgeAt := t.tb.edgeAt } ∧ t.rd Reg.TB_MAINS_GLITCH = sticky (s.rd Reg.TB_MAINS_GLITCH) 1) ∧
    (s.lossNow = true → s.tbState = tsRunning →
      completes .phaseLost s fun t => t.tbState = (if s.bit Reg.TB_SOURCE 28 then tsSubstituted else tsLost) ∧
        t.rd Reg.TB_LOSS_EVENTS = sticky (s.rd Reg.TB_LOSS_EVENTS) 1 ∧ t.tb.lossAt = s.ref ∧ t.ptb = s.ptb) ∧
    (s.lossNow = false → 10 ^ 6 ≤ s.ref - s.tb.lossAt → s.tbState = tsSubstituted → s.bit Reg.TB_SOURCE 27 = true →
      s.source ≠ srcMains →
      completes .sourceAutoReturn s fun t => t.tbState = tsRunning ∧ t.tb.intLast = s.ref ∧ otherRegs [Reg.TB_STATUS] s t) ∧
    (∀ i level, i < 8 → s.phaseOn = true → s.bit (Reg.TB_PIN_STATUS i) 31 = false → s.pinLevel i = !level → s.filterOk i 1 = true →
      s.rf (Reg.TB_PIN_CFG i) 30 2 = 1 → s.edgeChosen i level = true → (s.stampQ i).length < 16 →
      completes (.pinStamp i level) s fun t => t.stampQ i = s.stampQ i ++ [(s.ptb, s.ref)] ∧ t.pinLevel i = level ∧
        t.rd64 (Reg.TB_PIN_PTB_LO i) = s.ptb ∧ t.rd64 (Reg.TB_PIN_REF_LO i) = s.ref ∧
        t.rd (Reg.TB_PIN_EDGES i) = sticky (s.rd (Reg.TB_PIN_EDGES i)) 1) ∧
    (∀ i level, i < 8 → s.phaseOn = true → s.bit (Reg.TB_PIN_STATUS i) 31 = false → s.pinLevel i = !level → s.filterOk i 1 = true →
      s.rf (Reg.TB_PIN_CFG i) 30 2 = 1 → s.edgeChosen i level = true → 16 ≤ (s.stampQ i).length →
      completes (.pinStamp i level) s fun t => t.stampQ i = s.stampQ i ∧
        t.rd (Reg.TB_PIN_OVF i) = sticky (s.rd (Reg.TB_PIN_OVF i)) 1) ∧
    (∀ i level, s.filterOk i 1 = false → completes (.pinStamp i level) s fun t => t = s) ∧
    (s.selectedOk = false → completes .lineEdge s (fun t => t = s) ∧ completes .mainsZeroCross s fun t => t = s) ∧
    (∀ i st rest, i < 8 → s.stampQ i = st :: rest → (s.meetCtx (s.rf (Reg.TB_PIN_CFG i) 0 20)).ctxBad (s.rf (Reg.TB_PIN_CFG i) 0 20) = false →
      cfld (s.context (s.rf (Reg.TB_PIN_CFG i) 0 20)) 0 31 1 = 0 →
      completes (.stampDeliver i) s fun t => t.stampQ i = rest ∧ t.rd (Reg.TB_PIN_OVF i) = sticky (s.rd (Reg.TB_PIN_OVF i)) 1) ∧
    (∀ i st rest c w k, i < 8 → s.stampQ i = st :: rest → c = s.rf (Reg.TB_PIN_CFG i) 0 20 → w = s.context c →
      (s.meetCtx c).ctxBad c = false → cfld w 0 31 1 = 1 → cfld w 0 30 1 = 0 → k = cfld w 0 0 6 → s.pstate k = psRunning →
      i ≤ cfld w 2 0 20 → s.ingressStep k = none →
      (((s.port (cfld w 0 27 1)).holdBuf.map fun h => h.evs.length).foldl (· + ·) 0) < holdLen →
      completes (.stampDeliver i) s fun t => t.stampQ i = rest ∧
        (t.port (cfld w 0 27 1)).holdBuf = (s.port (cfld w 0 27 1)).holdBuf ++ [⟨c, none, some st.1,
          [⟨(cfld w 1 0 28 + i) % 2 ^ 28, 0, cfld w 0 21 3, 1 - cfld w 0 26 1⟩]⟩]))

/-! ### Event ports and taps -/

/-- A frame with a bad FCS changes only the error counters; an empty accepted frame of an ingress context moves that
context's expected sequence number and no other; a PTP event message of a synced master steps the clock, records
offset and rate and resets its age; links come up and go down. A TC0 frame with tokens leaves the port and pays for
its bytes; with the link down a frame is dropped and its records counted as lost; PTP messages and TC1 frames leave
in that order when no TC0 frame waits. The frame that leaves is the one of R422 and R458 for its destination, with
header fields that the spec leaves open free. It concludes that exec answers a next state for LYLET_FRAME_RECEIVE,
PTP_EVENT_MESSAGE, EVP_LINK_UP, EVP_LINK_DOWN, FRAME_TRANSMIT. (R429, R432, R438, R446, R447, R449, R455, R456. Log
entries 91, 94, 99, 189.) -/
def Obligations.EventPorts : Prop :=
  (∀ (s : State) (e : Nat), e < 2 →
    (∀ bs corr uncorr, s.evpUp e = true →
      completes (.lyletFrameReceive e false false corr uncorr bs) s fun t =>
        t.rd (Reg.EVP_RX_FCS_ERR e) = sticky (s.rd (Reg.EVP_RX_FCS_ERR e)) 1 ∧
        t.rd (Reg.EVP_FEC_CORR e) = sticky (s.rd (Reg.EVP_FEC_CORR e)) corr ∧
        t.rd (Reg.EVP_FEC_UNCORR e) = sticky (s.rd (Reg.EVP_FEC_UNCORR e)) uncorr ∧ t.ctx = s.ctx ∧
        otherRegs [Reg.EVP_RX_FCS_ERR e, Reg.EVP_FEC_CORR e, Reg.EVP_FEC_UNCORR e] s t) ∧
    (∀ bs udp six l w1, s.evpUp e = true → 64 ≤ frameSize bs → frameSize bs ≤ s.rf (Reg.EVP_PORT_CFG e) 0 14 →
      s.evpMine e bs = true → etherType bs ≠ 0x88F7 → s.evpUdp e bs = some (udp, six, true) →
      be udp 2 2 = s.rf (Reg.EVP_UDP e) 0 16 → be udp 2 2 ≠ 319 → be udp 2 2 ≠ 320 → be udp 6 2 ≠ 0 →
      parseLylet (udp.drop 8) (be udp 4 2) = some l → lyletTrailerOk (udp.drop 8) l = true → (s.meetCtx l.ctx).ctxBad l.ctx = false →
      cfld (s.context l.ctx) 0 31 1 = 1 → cfld (s.context l.ctx) 0 30 1 = 0 → cfld (s.context l.ctx) 0 29 1 = 1 →
      cfld (s.context l.ctx) 0 27 1 = e → cfld (s.context l.ctx) 0 26 1 = 0 → l.tc0 = false → l.runchk = false → l.count = 0 →
      s.pstate (cfld (s.context l.ctx) 0 0 6) = psRunning → seqStep (s.context l.ctx) l.seq = some w1 →
      completes (.lyletFrameReceive e true false 0 0 bs) s fun t =>
        t.rd (Reg.EVP_RX_FRAMES e) = sticky (s.rd (Reg.EVP_RX_FRAMES e)) 1 ∧ t.net = s.net ∧
        cfld (t.context l.ctx) 3 0 32 = (l.seq + 1) % 2 ^ 32 ∧ (∀ c, c ≠ l.ctx → t.context c = s.context c) ∧
        otherRegs [Reg.EVP_RX_FRAMES e] s t) ∧
    (∀ offset step rate reply, s.evpUp e = true → s.bit (Reg.EVP_PTP_STATUS e) 30 = true →
      s.bit (Reg.EVP_PTP_STATUS e) 31 = true →
      completes (.ptpEventMessage e true true offset step rate reply) s fun t =>
        t.rd64 (Reg.EVP_PTP_NS_LO e) = low 64 ((s.rd64 (Reg.EVP_PTP_NS_LO e) : Nat) + step) ∧
        t.rd (Reg.EVP_PTP_OFFSET e) = BitVec.ofInt 32 offset ∧ t.rd (Reg.EVP_PTP_AGE e) = 0 ∧
        t.rd (Reg.EVP_PTP_UPDATES e) = sticky (s.rd (Reg.EVP_PTP_UPDATES e)) 1 ∧ (t.port e).ptpRate = rate ∧
        (t.port e).ptpStamp = s.rd64 (Reg.EVP_PTP_NS_LO e)) ∧
    (∀ an, (e = 1 → s.fuses.eth2 = true) → s.bit (Reg.EVP_PORT_CFG e) 31 = true → s.pwr (pwrEvp e) = 0 → s.up = true →
      completes (.evpLinkUp e an) s fun t => t.evpUp e = true ∧ t.bit (Reg.EVP_PORT_STATUS e) 30 = an ∧
        otherRegs [Reg.EVP_PORT_STATUS e] s t) ∧
    (s.evpUp e = true →
      completes (.evpLinkDown e) s fun t => t.evpUp e = false ∧ t.port e = s.port e ∧ t.ctx = s.ctx)) ∧
  (∀ (s : State) (e : Nat) (f : TxFrame) (rest : List TxFrame), e < 2 → (s.port e).earlyWait = [] → f.early = false →
      f.retract = false →
    (s.evpUp e = true → (s.port e).tx0 = f :: rest →
      Store.get (fun _ => 0) (s.port e).outUsed f.part + 20 * s.txSize e f ≤ bucketDepth →
      completes (.frameTransmit e) s fun t => (∃ x, t.out = .frame e (s.ethFrame e (s.destWords e f.ctx) x f.bytes) :: s.out) ∧ (t.port e).tx0 = rest ∧
        Store.get (fun _ => 0) (t.port e).outUsed f.part =
          Store.get (fun _ => 0) (s.port e).outUsed f.part + 20 * s.txSize e f ∧
        t.rd (Reg.EVP_TX_FRAMES e) = sticky (s.rd (Reg.EVP_TX_FRAMES e)) 1 ∧ otherRegs [Reg.EVP_TX_FRAMES e] s t) ∧
    (s.evpUp e = false → (s.port e).tx0 = f :: rest →
      completes (.frameTransmit e) s fun t => t.out = s.out ∧ (t.port e).tx0 = rest ∧
        t.rd (Reg.EVP_TX_DROP e) = sticky (s.rd (Reg.EVP_TX_DROP e)) 1 ∧
        Store.get (fun _ => 0) (t.port e).lossOwed f.ctx = Store.get (fun _ => 0) (s.port e).lossOwed f.ctx + f.records ∧
        cfld (t.context f.ctx) 7 0 16 = min 0xFFFF (cfld (s.context f.ctx) 7 0 16 + f.records) ∧
        otherRegs [Reg.EVP_TX_DROP e] s t) ∧
    (∀ m ms, s.evpUp e = true → (s.port e).tx0 = [] → (s.port e).txPtp = m :: ms →
      completes (.frameTransmit e) s fun t => t.out = .ptp e (sealFrame m) :: s.out ∧ (t.port e).txPtp = ms ∧
        (t.port e).tx1 = (s.port e).tx1 ∧ otherRegs [Reg.EVP_TX_FRAMES e] s t) ∧
    (s.evpUp e = true → (s.port e).tx0 = [] → (s.port e).txPtp = [] → (s.port e).tx1 = f :: rest →
      completes (.frameTransmit e) s fun t => (∃ x, t.out = .frame e (s.ethFrame e (s.destWords e f.ctx) x f.bytes) :: s.out) ∧ (t.port e).tx1 = rest ∧
        otherRegs [Reg.EVP_TX_FRAMES e] s t))

/-- A tap copy of an event that arrives at an attachment or at a port is held, newest last, in its release buffer with
the record of its path when an enabled path covers its key and its ring runs; when no path covers it, the endpoint
is unchanged and counts an egress miss. EJ of its parity counts one either way, and other registers are unchanged.
It concludes that exec answers a next state for TAP_COPY_ARRIVE, PORT_TAP_COPY. (R176, R405, R406, R407, R410,
R440.) -/
def Obligations.TapCopiesReachBuffers : Prop :=
  ∀ (s : State) (i u p par : Nat) (f : Flight) (ev : Ev), s.arrived i f → f.body = .event ev → f.tag = .unit u p →
    f.step = some par → p < 9216 → par < 4 → f.part < 64 → s.bit (Reg.STEP_POLICY f.part) 4 = false → ev.retract = false →
    (∀ a path, a < 8 → f.place = .unit (0xC0 + a) → s.hifPath a f.part ev.key = some path →
      s.ringRuns (ringBase a .egress (s.rf (Reg.HIF_EP_CFG a path) 0 9)) = true → (s.att a).held.length < relUnits →
      completes (.tapCopyArrive i) s fun t =>
        (t.att a).held = (s.att a).held ++
          [tapRec (s.stepNow f.part) f.part path (s.rf (Reg.HIF_EP_CFG a path) 0 9) ev] ∧
        t.rd (Reg.FAB_PC_EJ (p / 144) par) = s.rd (Reg.FAB_PC_EJ (p / 144) par) + 1 ∧ took i [] s t ∧
        otherRegs [Reg.FAB_PC_EJ (p / 144) par, Reg.HIF_REL_STATUS a] s t) ∧
    (∀ a, a < 8 → f.place = .unit (0xC0 + a) → s.hifPath a f.part ev.key = none →
      completes (.tapCopyArrive i) s fun t => t.att a = s.att a ∧
        t.rd (Reg.HIF_EGRESS_MISS a) = sticky (s.rd (Reg.HIF_EGRESS_MISS a)) 1 ∧
        t.rd (Reg.FAB_PC_EJ (p / 144) par) = s.rd (Reg.FAB_PC_EJ (p / 144) par) + 1 ∧ took i [] s t ∧
        otherRegs [Reg.FAB_PC_EJ (p / 144) par, Reg.HIF_EGRESS_MISS a] s t) ∧
    (∀ e path, e < 2 → f.place = .unit (0xD0 + e) → s.evpPathOf e f.part ev.key = some path →
      (s.port e).held.length < relRecords →
      completes (.portTapCopy i) s fun t =>
        (t.port e).held = (s.port e).held ++ [tapRec (s.stepNow f.part) f.part path (s.rf (evpPath e path 0) 0 20) ev] ∧
        took i [] s t ∧ otherRegs [Reg.FAB_PC_EJ (p / 144) par] s t) ∧
    (∀ e, e < 2 → f.place = .unit (0xD0 + e) → s.evpPathOf e f.part ev.key = none →
      completes (.portTapCopy i) s fun t => t.port e = s.port e ∧
        t.rd (Reg.EVP_EGRESS_MISS e) = sticky (s.rd (Reg.EVP_EGRESS_MISS e)) 1 ∧ took i [] s t ∧
        otherRegs [Reg.FAB_PC_EJ (p / 144) par, Reg.EVP_EGRESS_MISS e] s t)

/-! ### Attachments, scans and rings -/

/-- A function-level reset of an attachment disables its command rings and drops its descriptors and keeps its held
records and the ownership of its partitions; the loss of its link, PERST and training have the effects R383, R385
and R537 give. A configuration request before DEV_READY is answered with Retry; after it, dword 0 has the Device ID
of R384, dword 2 the class and the stepping, dword 29 a payload size of 512 bytes, and a write of dword 70 sets
whether the function checks ECRC. Where dwords 29 and 70 stand in the configuration space is presumed. It concludes
that exec answers a next state for FUNCTION_LEVEL_RESET, PCIE_LINK_LOSS, PERST_CHANGE, PCIE_LINK_UP, CONFIG_REQUEST.
(R382, R383, R384, R385, R537, R540. Log entries 83, 84, 185.) -/
def Obligations.Attachments : Prop :=
  ∀ (s : State) (a : Nat), a < 8 →
    (s.busUp a = true →
      completes (.functionLevelReset a) s fun t => (t.att a).descs = [] ∧ (t.att a).linkUp = true ∧
        (t.att a).held = (s.att a).held ∧ (∀ r, r < 64 → t.bit (ringBase a .command r) 31 = false) ∧
        (∀ k, k < 64 → t.rd (Reg.HIF_PART_OWNER k) = s.rd (Reg.HIF_PART_OWNER k)) ∧ t.parts = s.parts) ∧
    ((s.att a).linkUp = true →
      completes (.pcieLinkLoss a) s fun t => (t.att a).linkUp = false ∧ (t.att a).descs = [] ∧
        t.rf (Reg.HIF_ATT_ID a) 20 7 = 0 ∧ (t.att a).held = (s.att a).held) ∧
    (completes (.perstChange a true) s fun t => t.perstHigh a = true ∧ t.atts = s.atts ∧ otherRegs [] s t) ∧
    ((s.att a).linkUp = true → completes (.perstChange a false) s fun t => t.perstHigh a = false ∧ (t.att a).linkUp = false) ∧
    (∀ width rate, (s.att a).present = true → (s.att a).linkUp = false → s.perstHigh a = true → s.pins.pgIo = true →
      s.domOn (.pcie (a / 2)) = true → width ≤ (if s.bifurcated a then 3 else 4) → 1 ≤ rate → rate ≤ 6 →
      completes (.pcieLinkUp a width rate) s fun t => (t.att a).linkUp = true ∧ t.rf (Reg.HIF_ATT_ID a) 24 3 = width ∧
        t.rf (Reg.HIF_ATT_ID a) 20 4 = rate ∧ otherRegs [Reg.HIF_ATT_ID a] s t) ∧
    (∀ off, (s.att a).linkUp = true → s.pins.devReady = false →
      ∀ v, completes (.configRequest a (off, v)) s fun t => t = { s with out := .config a none :: s.out }) ∧
    ((s.att a).linkUp = true → s.pins.devReady = true →
      completes (.configRequest a (0, none)) s fun t => ∃ w : Word, t.out = .config a (some w) :: s.out ∧ fld w 16 16 = 0xF4A0) ∧
    (∀ v : Word, (s.att a).linkUp = true → s.pins.devReady = true →
      completes (.configRequest a (70, some v)) s fun t => t.out = .config a (some 0) :: s.out ∧ t.ecrcOn a = tst v 8) ∧
    ((s.att a).linkUp = true → s.pins.devReady = true →
      completes (.configRequest a (29, none)) s fun t => ∃ w : Word, t.out = .config a (some w) :: s.out ∧ fld w 0 3 = 2) ∧
    ((s.att a).linkUp = true → s.pins.devReady = true →
      completes (.configRequest a (2, none)) s fun t =>
        t.out = .config a (some (BitVec.ofNat 32 (0x12000000 + s.fuses.stepping % 256))) :: s.out)

/-- Enabling SCAN_EN with both pages inside windows starts the scanner at once, and outside leaves it off with
WINDOW_ERR. Enabling a ring inside one window of its attachment makes it RUN with both indices zero, and one outside
leaves it as it was with the cause recorded; disabling a command ring drops its descriptors, and an egress ring in
use refuses it. A scan is asked for at its period, a second one before its return counts HIF_DB_LATE, and its return
moves an index that is in order and puts a ring with a bad index into ERROR. It concludes that exec answers a next
state for SCAN_ENABLE, RING_ENABLE, RING_DISABLE, DOORBELL_SCAN, SCAN_RETURN. (R388, R389, R390, R392, R393, R420.
Log entries 10, 81.) -/
def Obligations.ScansAndRings : Prop :=
  ∀ (s : State) (a r : Nat) (v : Word), a < 8 → r < 64 →
    (s.access a 0x6000014 = .ok → tst v 0 = true →
      s.inWindow a permRead (s.rd64 (Reg.HIF_DB_BASE_LO a)) 4096 = true →
      s.inWindow a permWrite (s.rd64 (Reg.HIF_SHADOW_BASE_LO a)) 4096 = true → s.bit (Reg.HIF_ATT_CTRL a) 0 = false →
      completes (.scanEnable a v) s fun t => t.bit (Reg.HIF_ATT_CTRL a) 0 = true ∧ (t.att a).scanNext = s.ref ∧
        otherRegs [Reg.HIF_ATT_CTRL a] s t) ∧
    (s.access a 0x6000014 = .ok → tst v 0 = true →
      s.inWindow a permRead (s.rd64 (Reg.HIF_DB_BASE_LO a)) 4096 = false →
      completes (.scanEnable a v) s fun t => t.bit (Reg.HIF_ATT_CTRL a) 31 = true ∧ t.atts = s.atts ∧
        t.bit (Reg.HIF_ATT_CTRL a) 0 = s.bit (Reg.HIF_ATT_CTRL a) 0 ∧ otherRegs [Reg.HIF_ATT_CTRL a] s t) ∧
    (s.access a (0x6010000 + 0x20 * r) = .ok → s.bit (ringBase a .command r) 31 = false → tst v 31 = true →
      s.inWindow a permRead (s.ringAddr (ringBase a .command r)) (2 ^ min 16 (max 6 (fld v 0 5)) * 64) = true →
      completes (.ringEnable a 0 r v) s fun t => t.ringRuns (ringBase a .command r) = true ∧
        t.ringDev (ringBase a .command r) = 0 ∧ t.ringHost (ringBase a .command r) = 0 ∧
        otherRegs [ringBase a .command r, ringBase a .command r + 4, ringBase a .command r + 16,
          ringBase a .command r + 20] s t) ∧
    (s.access a (0x6010000 + 0x20 * r) = .ok → s.bit (ringBase a .command r) 31 = false → tst v 31 = true →
      s.inWindow a permRead (s.ringAddr (ringBase a .command r)) (2 ^ min 16 (max 6 (fld v 0 5)) * 64) = false →
      completes (.ringEnable a 0 r v) s fun t => t.rf (ringBase a .command r + 4) 26 4 = causeWindow ∧
        t.rd (ringBase a .command r) = s.rd (ringBase a .command r) ∧ otherRegs [ringBase a .command r + 4] s t) ∧
    (s.access a (0x6010000 + 0x20 * r) = .ok → s.bit (ringBase a .command r) 31 = true → tst v 31 = false →
      completes (.ringDisable a 0 r v) s fun t => t.bit (ringBase a .command r) 31 = false ∧
        t.ringRuns (ringBase a .command r) = false ∧ (∀ d ∈ (t.att a).descs, d.ring ≠ r) ∧
        otherRegs [ringBase a .command r, ringBase a .command r + 4] s t) ∧
    (s.access a (0x6040000 + 0x20 * r) = .ok → s.bit (ringBase a .egress r) 31 = true → tst v 31 = false →
      s.ringNamed a r = true →
      completes (.ringDisable a 2 r v) s fun t => t.bit (ringBase a .egress r + 4) 25 = true ∧
        t.rd (ringBase a .egress r) = s.rd (ringBase a .egress r) ∧ otherRegs [ringBase a .egress r + 4] s t) ∧
    (s.bit (Reg.HIF_ATT_CTRL a) 0 = true → (s.att a).scanNext ≤ s.ref → (s.att a).scanOut = false →
      completes (.doorbellScan a) s fun t => (t.att a).scanOut = true ∧
        (t.att a).scanNext = (s.att a).scanNext + s.dbPeriod a ∧ otherRegs [] s t) ∧
    (s.bit (Reg.HIF_ATT_CTRL a) 0 = true → (s.att a).scanNext ≤ s.ref → (s.att a).scanOut = true →
      completes (.doorbellScan a) s fun t => t.rd (Reg.HIF_DB_LATE a) = sticky (s.rd (Reg.HIF_DB_LATE a)) 1 ∧
        (t.att a).scanNext = (s.att a).scanNext + s.dbPeriod a ∧ otherRegs [Reg.HIF_DB_LATE a] s t) ∧
    (∀ h, h < 2 ^ 32 → (s.att a).scanOut = true → (s.att a).descs = [] → s.ringRuns (ringBase a .command r) = true →
      Store.get (fun _ => false) (s.att a).scanned (ringBase a .command r) = true → s.ringHost (ringBase a .command r) = 0 →
      s.ringDev (ringBase a .command r) = 0 → h ≤ s.ringSize (ringBase a .command r) →
      completes (.scanReturn a [(0, r, h)] []) s fun t => t.ringHost (ringBase a .command r) = h ∧ (t.att a).scanOut = false ∧
        otherRegs [ringBase a .command r + 20] s t) ∧
    (∀ h, h < 2 ^ 32 → (s.att a).scanOut = true → (s.att a).descs = [] → s.ringRuns (ringBase a .command r) = true →
      Store.get (fun _ => false) (s.att a).scanned (ringBase a .command r) = true → s.ringHost (ringBase a .command r) = 0 →
      s.ringDev (ringBase a .command r) = 0 → s.ringSize (ringBase a .command r) < h →
      completes (.scanReturn a [(0, r, h)] []) s fun t => t.rf (ringBase a .command r + 4) 30 2 = 2 ∧
        t.rf (ringBase a .command r + 4) 26 4 = causeIndex ∧ t.ringHost (ringBase a .command r) = 0)

/-! ### Descriptors -/

/-- A descriptor that is the only one of its attachment and has passed the checks every opcode has (R558): NOP completes
OK; loads and reads of contexts, HBM, memory that is refused and an INGEST complete with the status R396 and R404
give, and leave what they do not name unchanged; a MESSAGE whose answer does not come in time ends with NAK_TIMEOUT.
One that fails those checks completes with the status of the first. It concludes that exec answers a next state for
NOP, WRITE_HBM, READ_HBM, LOAD_CONTEXT, READ_CONTEXT, INGEST, MESSAGE_TIMEOUT. (R394, R396, R400, R403, R404, R558.
Log entries 72, 73, 187.) -/
def Obligations.DescriptorsThatEnd : Prop :=
  ∀ (s : State) (a r : Nat) (d : DescRun),
    (s.starts a r 0x00 d →
      completes (.nop a r) s fun t => ended a d stOk 0 s t ∧ t.mem = s.mem ∧ t.hbm = s.hbm ∧ t.net = s.net) ∧
    (∀ st payload, s.opening a r 0x08 = some (⟨a, r, d.index⟩, d) → (s.att a).descs = [d] →
      firstOf (s.descChecks a d) = some st →
      completes (.writeHbm a r payload) s fun t => ended a d st 0 s t ∧ t.hbm = s.hbm ∧ t.mem = s.mem) ∧
    (∀ payload, s.starts a r 0x08 d → s.hbmLocked (d.dev, d.len) = true →
      completes (.writeHbm a r payload) s fun t => ended a d stEnabled 0 s t ∧ t.hbm = s.hbm) ∧
    (∀ payload, s.starts a r 0x08 d → s.hbmLocked (d.dev, d.len) = false → s.stacksReady (d.dev, d.len) = true →
      payload.length = d.len →
      completes (.writeHbm a r payload) s fun t => ended a d stOk d.len s t ∧ t.hbmBytes d.dev d.len = payload ∧
        (∀ x, ¬(d.dev ≤ x ∧ x < d.dev + d.len) → t.hbmByte x = s.hbmByte x) ∧ t.mem = s.mem) ∧
    (s.starts a r 0x09 d → s.stacksReady (d.dev, d.len) = true → (s.part d.part).applying ≠ 2 →
      completes (.readHbm a r 0) s fun t => ended a d stOk d.len s t ∧ t.hbm = s.hbm ∧
        .hostWrite a d.host (s.hbmBytes d.dev d.len) ∈ t.out) ∧
    (s.starts a r 0x09 d → s.stacksReady (d.dev, d.len) = true → (s.part d.part).applying ≠ 2 →
      completes (.readHbm a r 2) s fun t => ended a d stMemUe 0 s t ∧ t.hbm = s.hbm) ∧
    (∀ payload, s.starts a r 0x0A d → payload.length = d.len → s.enabled d.part = false →
      (s.ctxNamed d).any (fun w => ctxForeign w d.part) = false →
      (entries 32 payload).any (fun w => ctxForeign w d.part) = false → s.fuses.eth2 = true →
      completes (.loadContext a r payload) s fun t => ended a d stOk d.len s t ∧
        ∀ i, i < d.len / 32 → t.context (d.target + i) = (entries 32 payload).getD i 0) ∧
    (∀ payload, s.starts a r 0x0A d → (s.ctxNamed d).any (fun w => ctxForeign w d.part) = true →
      completes (.loadContext a r payload) s fun t => ended a d stNotOwner 0 s t ∧ t.ctx = s.ctx) ∧
    (s.starts a r 0x0B d → (∀ i, i < d.len / 32 → (s.meetCtx (d.target + i)).ctxBad (d.target + i) = false) →
      completes (.readContext a r) s fun t => ended a d stOk d.len s t ∧ t.ctx = s.ctx ∧
        .hostWrite a d.host ((s.ctxNamed d).flatMap fun w => toBytes 32 (if cfld w 0 0 6 = d.part then w else 0)) ∈ t.out) ∧
    (∀ payload, s.starts a r 0x0C d → (s.meetCtx d.target).ctxBad d.target = false →
      ¬(cfld (s.context d.target) 0 31 1 = 1 ∧ cfld (s.context d.target) 0 30 1 = 0 ∧
        cfld (s.context d.target) 0 28 1 = 1 ∧ cfld (s.context d.target) 0 0 6 = d.part) →
      completes (.ingest a r payload) s fun t => ended a d stContext 0 s t ∧ t.ctx = s.ctx) ∧
    (∀ w1, s.starts a r 0x0C d → (s.meetCtx d.target).ctxBad d.target = false → cfld (s.context d.target) 0 31 1 = 1 →
      cfld (s.context d.target) 0 30 1 = 0 → cfld (s.context d.target) 0 28 1 = 1 →
      cfld (s.context d.target) 0 0 6 = d.part → d.inline = true → d.ext = false → s.pstate d.part = psRunning →
      seqStep (s.context d.target) d.sub = some w1 →
      completes (.ingest a r []) s fun t =>
        ended a d stOk ((s.meetCtx d.target).ingestIn a d.target d.sub false ((d.bytes.drop 16).take 44)).2 s t ∧
        cfld (t.context d.target) 3 0 32 = (d.sub + 1) % 2 ^ 32) ∧
    (∀ p q, a < 8 → d.ring < 64 → s.rings a d → (s.att a).descs = [d] → (s.att a).msgWait = some (⟨a, d.ring, d.index⟩, p, q) →
      (s.att a).msgAt + messageWait ≤ s.ref →
      completes (.messageTimeout a) s fun t => (t.att a).msgWait = none ∧ ended a d stMsgNak rcTimeout s t)

/-- With the edge link open and no clearing holding the partition: LOAD_MEM, READ_MEM, LOAD_NEURONS, READ_NEURONS,
LOAD_TABLE, READ_TABLE and LOAD_ROWS send one loader packet to the named core, at the edge stop of the attachment,
and wait; LOAD_NEURONS of an enabled partition, LOAD_MEM past the memory and LOAD_ROWS with a malformed row complete
with their status and send nothing; MESSAGE sends one message from the attachment's identity; DENSE_RUN starts an
enabled DESC operation behind the one that runs and completes ST_DENSE_BUSY where it already runs. Only the ring
register named changes. It concludes that exec answers a next state for LOAD_MEM, READ_MEM, LOAD_NEURONS,
READ_NEURONS, LOAD_TABLE, READ_TABLE, LOAD_ROWS, MESSAGE, DENSE_RUN. (R394, R396, R397, R398, R401, R404. Log
entries 75, 146.) -/
def Obligations.DescriptorsThatSend : Prop :=
  ∀ (s : State) (a r p : Nat) (d : DescRun) (payload : List Byte), p = s.descCore d → s.memOn p = true →
      payload.length = d.len → d.len ≤ 256 → s.edgeOpen (0xC0 + a) d.part →
    (s.starts a r 0x01 d → d.dev + d.len ≤ 0x40000 → s.touchesProtected p (d.dev, d.len) = false →
      s.enabled d.part = false →
      completes (.loadMem a r payload) s fun t =>
        t.net = s.net ++ [loaderPkt a d.part p (.loadWrite ⟨a, r, d.index⟩ p 0 d.dev payload true)] ∧
        (t.att a).descs = [{ d with started := true, core := p }] ∧ t.mem = s.mem ∧ t.out = s.out ∧
        otherRegs [ringBase a .command r + 4] s t) ∧
    (s.starts a r 0x01 d → 0x40000 < d.dev + d.len →
      completes (.loadMem a r payload) s fun t => ended a d stRegion 0 s t ∧ t.net = s.net) ∧
    (s.starts a r 0x02 d → d.dev + d.len ≤ 0x40000 →
      completes (.readMem a r) s fun t =>
        t.net = s.net ++ [loaderPkt a d.part p (.loadRead ⟨a, r, d.index⟩ p 0 d.staged d.dev d.len)] ∧
        (∃ n, (t.att a).descs = [{ d with started := true, core := p, left := d.len, step := n }]) ∧ t.mem = s.mem ∧
        otherRegs [ringBase a .command r + 4] s t) ∧
    (s.starts a r 0x03 d → s.enabled d.part = false →
      completes (.loadNeurons a r payload) s fun t =>
        t.net = s.net ++ [loaderPkt a d.part p (.loadWrite ⟨a, r, d.index⟩ p 1 (8 * d.dev) payload true)] ∧
        otherRegs [ringBase a .command r + 4] s t) ∧
    (s.starts a r 0x03 d → s.enabled d.part = true →
      completes (.loadNeurons a r payload) s fun t => ended a d stEnabled 0 s t ∧ t.net = s.net) ∧
    (s.starts a r 0x04 d →
      completes (.readNeurons a r) s fun t =>
        t.net = s.net ++ [loaderPkt a d.part p (.loadRead ⟨a, r, d.index⟩ p 1 d.staged (8 * d.dev) d.len)] ∧
        (t.att a).descs = [{ d with
          started := true, core := p, left := d.len, step := (s.rd (Reg.STEP_COMMITTED d.part)).toNat }] ∧ otherRegs [ringBase a .command r + 4] s t) ∧
    (s.starts a r 0x05 d → d.kind = 2 →
      completes (.loadTable a r payload) s fun t =>
        t.net = s.net ++ [loaderPkt a d.part p (.loadWrite ⟨a, r, d.index⟩ p 4 (8 * d.first) payload true)] ∧
        t.srcLive = s.srcLive ∧ otherRegs [ringBase a .command r + 4] s t) ∧
    (s.starts a r 0x06 d → d.kind = 2 →
      completes (.readTable a r) s fun t =>
        t.net = s.net ++ [loaderPkt a d.part p (.loadRead ⟨a, r, d.index⟩ p 4 d.staged (8 * d.first) d.len)] ∧
        otherRegs [ringBase a .command r + 4] s t) ∧
    (s.starts a r 0x07 d → d.hbm = false → d.dev + d.len ≤ 0x40000 → s.touchesProtected p (d.dev, d.len) = false →
      s.enabled d.part = false → badRow (s.fmtSlot p) 16 (d.len / 16 + 1) 0 payload = none →
      completes (.loadRows a r payload) s fun t =>
        t.net = s.net ++ [loaderPkt a d.part p (.loadWrite ⟨a, r, d.index⟩ p 0 d.dev payload true)] ∧
        otherRegs [ringBase a .command r + 4] s t) ∧
    (∀ off, s.starts a r 0x07 d → d.hbm = false → d.dev + d.len ≤ 0x40000 → s.touchesProtected p (d.dev, d.len) = false →
      s.enabled d.part = false → badRow (s.fmtSlot p) 16 (d.len / 16 + 1) 0 payload = some off →
      completes (.loadRows a r payload) s fun t => ended a d stRowInvalid off s t ∧ t.net = s.net ∧ t.mem = s.mem) ∧
    (s.starts a r 0x0D d → s.pstate d.part = psRunning → (s.att a).msgWait = none → d.sub / 8 % 4 = 0 → d.sub / 32 % 2 = 0 →
      completes (.message a r) s fun t =>
        t.net = s.net ++ [edgePkt (0xC0 + a) d.part 1 p (.msg 0 (BitVec.ofNat 32 (d.num 36 4)) (srcAtt a) (d.sub % 8) 0)
          (LoadRef.mark ⟨a, r, d.index⟩)] ∧
        (t.att a).msgWait = some (⟨a, r, d.index⟩, p, d.sub % 8) ∧ (t.att a).msgAt = s.ref ∧
        otherRegs [ringBase a .command r + 4] s t) ∧
    (∀ run, s.starts a r 0x0E d → s.pstate d.part = psRunning → (s.core p).dns = some run → run.op ≠ d.sub % 4 →
      (s.core p).dnsQ = [] → (s.core p).gated = false → (s.opCfg p (d.sub % 4)).en = true →
      (s.opCfg p (d.sub % 4)).trigger = trgDesc →
      completes (.denseRun a r) s fun t =>
        (t.core p).dnsQ = [⟨d.sub % 4, 0, .desc ⟨a, r, d.index⟩, 0, false, 0, 0⟩] ∧ (t.core p).dns = some run ∧
        otherCores p s t ∧ otherRegs [ringBase a .command r + 4] s t) ∧
    (∀ run, s.starts a r 0x0E d → (s.core p).dns = some run → run.op = d.sub % 4 →
      completes (.denseRun a r) s fun t => ended a d stDenseBusy 0 s t ∧ t.cores = s.cores)

/-- A load that arrives at the loader of a core with the bank its own writes exactly its bytes of local memory, every
other byte of every core reads as before, and the loader answers; without the right it writes nothing and counts
MEM_BANK_DENIED. A read returns exactly the bytes and changes nothing; of a poisoned word it answers with the error.
A table load at a stop writes the staged copy of its entries and marks them changed. The last return of a descriptor
ends it with its status and its bytes. It concludes that exec answers a next state for LOAD_WRITE, LOAD_READ,
READ_RETURN. (R32, R183, R397, R403, R464, R465, R470. Log entries 83, 167.) -/
def Obligations.LoaderPackets : Prop :=
  ∀ (s : State) (i a r q p off : Nat) (d : DescRun) (f : Flight), a < 8 → r < 64 → p < 9216 → s.arrived i f → s.flows f.part →
    (∀ bs, f.place = .core p → f.body = .loadWrite ⟨a, r, q⟩ p 0 off bs true → (s.core p).gated = false →
      s.loaderMay p 0 off bs.length = true → s.intact p off bs.length →
      completes (.loadWrite i) s fun t => t.bytes p off bs.length = bs ∧ otherBytes p off bs.length s t ∧
        took i [loaderAnswer a p f.part (.readReturn ⟨a, r, q⟩ off [0, 0, 0, 0] false true)] s t ∧
        otherRegs [inputHigh p] s t) ∧
    (∀ bs last, f.place = .core p → f.body = .loadWrite ⟨a, r, q⟩ p 0 off bs last → (s.core p).gated = false →
      s.loaderMay p 0 off bs.length = false →
      completes (.loadWrite i) s fun t => t.mem = s.mem ∧
        t.rd (Reg.MEM_BANK_DENIED p) = sticky (s.rd (Reg.MEM_BANK_DENIED p)) 1 ∧
        otherRegs [Reg.MEM_BANK_DENIED p, inputHigh p] s t) ∧
    (∀ n staged, f.place = .core p → f.body = .loadRead ⟨a, r, q⟩ p 0 staged off n → (s.core p).gated = false →
      s.loaderMay p 0 off n = true → s.intact p off n →
      completes (.loadRead i) s fun t => t.mem = s.mem ∧
        took i [loaderAnswer a p f.part (.readReturn ⟨a, r, q⟩ off (s.bytes p off n) false false)] s t ∧
        otherRegs [inputHigh p] s t) ∧
    (∀ n staged, f.place = .core p → f.body = .loadRead ⟨a, r, q⟩ p 0 staged off n → (s.core p).gated = false →
      s.loaderMay p 0 off n = true → s.poisoned p off n = true →
      completes (.loadRead i) s fun t => ∃ bs,
        took i [loaderAnswer a p f.part (.readReturn ⟨a, r, q⟩ off bs true false)] s t) ∧
    (∀ e es, f.place = .stop (p / 144) → f.body = .loadWrite ⟨a, r, q⟩ p 4 off es false → entries 8 es = [e] →
      completes (.loadWrite i) s fun t => Store.get (fun _ => 0) t.srcStaged (1024 * p + off / 8) = e ∧
        Store.get (fun _ => false) t.srcChanged (1024 * p + off / 8) = true ∧ t.srcLive = s.srcLive ∧ took i [] s t ∧
        otherRegs [] s t) ∧
    (∀ addr bs ue, f.place = .unit (0xC0 + a) → f.body = .readReturn ⟨a, d.ring, d.index⟩ addr bs ue true → d.ring < 64 →
      s.rings a d → (s.att a).descs = [d] → d.op = 0x01 →
      completes (.readReturn i) s fun t =>
        ended a d (if ue || d.ue then stMemUe else stOk) d.len s t ∧ took i [] s t) ∧
    (∀ bs ue, f.place = .unit (0xC0 + a) → f.body = .readReturn ⟨a, d.ring, d.index⟩ d.addr0 bs ue false → d.ring < 64 →
      s.rings a d → (s.att a).descs = [d] → d.op = 0x02 → d.left ≤ bs.length → s.hostOk a permWrite d.host bs.length = true →
      completes (.readReturn i) s fun t => ended a d (if d.ue || ue then stMemUe else stOk) d.len s t ∧
        .hostWrite a d.host bs ∈ t.out ∧ took i [] s t) ∧
    (∀ bs, f.place = .unit (0xC0 + a) → f.body = .readReturn ⟨a, d.ring, d.index⟩ d.addr0 bs false false →
      (s.att a).descs = [d] → bs.length < d.left → s.hostOk a permWrite d.host bs.length = true →
      completes (.readReturn i) s fun t => t.out = .hostWrite a d.host bs :: s.out ∧
        (t.att a).descs = [{ d with left := d.left - bs.length }] ∧ took i [] s t ∧ otherRegs [] s t)

/-! ### Enabling, power domains, banks -/

/-- ENABLE of a DISABLED or REFUSED partition starts the check and one of a RUNNING partition changes nothing; a check
that finds a fault refuses the partition with REASON and DETAIL and changes nothing else of it; a clean one makes it
RUNNING with STEP_COMMITTED one below STEP_START and no step open. DISABLE of a STOPPED partition makes it DISABLED,
of a RUNNING one stops its open step with cause DISABLED and drops its step traffic, waits as STOPPED for a learning
pass, and during an apply is kept until the apply ends. That it waits as STOPPED is the model's choice. It concludes
that exec answers a next state for PARTITION_ENABLE, ENABLE_CHECK_DONE, PARTITION_DISABLE. (R412, R413, R416, R289,
R326. Log entry 183.) -/
def Obligations.EnableAndDisable : Prop :=
  ∀ (s : State) (a k : Nat) (v : Word), a < 8 → k < 64 →
    (s.access a (Reg.HIF_PART_CTRL k) = .ok → tst v 30 = false → (s.pstate k = psDisabled ∨ s.pstate k = psRefused) →
      completes (.partitionEnable a k v) s fun t => t.pstate k = psChecking ∧ (t.part k).checkStart = s.ref ∧
        otherParts k s t ∧ t.mem = s.mem) ∧
    (s.access a (Reg.HIF_PART_CTRL k) = .ok → tst v 30 = false → s.pstate k = psRunning →
      completes (.partitionEnable a k v) s fun t => t = s) ∧
    (∀ rs d, s.pstate k = psChecking → s.enableCheck k = some (rs, d) →
      completes (.enableCheckDone k) s fun t => t.pstate k = psRefused ∧
        t.rd (Reg.HIF_PART_RESULT k) = BitVec.ofNat 32 (rs * 2 ^ 24 + d % 2 ^ 24) ∧
        t.rd (Reg.HIF_PART_CHECK_NS k) = BitVec.ofNat 32 (s.ref - (s.part k).checkStart) ∧ t.parts = s.parts ∧
        t.cores = s.cores ∧ t.mem = s.mem) ∧
    (s.pstate k = psChecking → s.enableCheck k = none → (∀ e ∈ s.forwards, e.1 < 9216) →
      (∀ f ∈ s.waiting, f.inPort ≤ 6) →
      completes (.enableCheckDone k) s fun t => t.pstate k = psRunning ∧ t.rd (Reg.HIF_PART_RESULT k) = 0 ∧
        t.rd (Reg.STEP_COMMITTED k) = s.rd (Reg.STEP_START k) - 1 ∧ (t.part k).openStep = none ∧ (t.part k).faults = [] ∧
        t.rf (Reg.STEP_STATE k) 28 4 = ssWaiting) ∧
    (s.access a (Reg.HIF_PART_CTRL k) = .ok → tst v 31 = false → s.pstate k = psStopped → s.passing k = false →
      completes (.partitionDisable a k v) s fun t => t.pstate k = psDisabled ∧ t.rf (Reg.STEP_STATE k) 28 4 = ssDisabled ∧
        (t.part k).openStep = none ∧ ∀ f ∈ t.net, f.part = k → f.step = none) ∧
    (s.access a (Reg.HIF_PART_CTRL k) = .ok → tst v 31 = false → s.pstate k = psRunning → (s.part k).applying = 0 →
      s.passing k = true →
      completes (.partitionDisable a k v) s fun t => t.pstate k = psStopped ∧ (t.part k).stopAsked = some (scDisabled, true) ∧
        (t.part k).openStep = none) ∧
    (∀ n, s.access a (Reg.HIF_PART_CTRL k) = .ok → tst v 31 = false → s.pstate k = psRunning → (s.part k).applying = 0 →
      (s.part k).openStep = some n → s.passing k = false →
      completes (.partitionDisable a k v) s fun t => t.pstate k = psDisabled ∧ t.rf (Reg.STEP_STATE k) 24 4 = scDisabled ∧
        (t.part k).openStep = none ∧ ∀ f ∈ t.net, f.part = k → f.step = none) ∧
    (s.access a (Reg.HIF_PART_CTRL k) = .ok → tst v 31 = false → s.pstate k = psRunning → (s.part k).applying ≠ 0 →
      completes (.partitionDisable a k v) s fun t => t.pstate k = psRunning ∧
        (t.part k).stopAsked.map (·.2) = some true ∧ (t.part k).openStep = (s.part k).openStep ∧ otherParts k s t)

/-- A request with a reserved state is refused with its cause; one to enter or to wake starts the first stage with REQ
shown; stages go on one by one and abort where the request has been taken back; entry into OFF ends in that state, a
router shows OFF then, a memory woken from DROWSE keeps its bytes and one woken from OFF is cleared with its banks
at CORE and no other byte changes. A handover with the wrong token or of an enabled grove is refused with its code;
one that succeeds counts the token and takes effect when the old owner has none in flight. Order among several
refusal causes is the model's choice. It concludes that exec answers a next state for POWER_REQUEST,
POWER_ENTRY_STAGE, POWER_ABORT_DONE, POWER_WAKE_DONE, BANK_HANDOVER, BANK_HANDOVER_EFFECT. (R190, R465, R466, R467,
R468, R471, R472, R476, R477, R479, R482, R485. Log entries 86, 105.) -/
def Obligations.PowerAndBanks : Prop :=
  (∀ (s : State) (a addr : Nat) (d : Dom) (v : Word), a < 8 → Dom.ofAddr addr = some d → s.fuses.hasDom d = true →
    (addr = d.base → addr < 0x4000000 → s.access a addr = .ok → fld v 0 2 = 3 →
      completes (.powerRequest a addr v) s fun t => t.bit (addr + 4) 28 = true ∧ t.rf (addr + 4) 24 4 = pcReserved ∧
        t.pw d = s.pw d ∧ otherRegs [addr + 4] s t) ∧
    (addr = d.base → addr < 0x4000000 → s.access a addr = .ok → fld v 0 2 = 2 → s.refusal d 2 = pcNone → s.pw d = pwOn →
      s.stage d = none → (∀ p, d = .mem p → s.pw (.logic p) ≠ pwEntering) →
      completes (.powerRequest a addr v) s fun t => t.pw d = pwEntering ∧ t.stage d = some (1, 2) ∧ t.rf addr 0 2 = 2 ∧
        otherRegs [addr, addr + 4] s t) ∧
    (addr = d.base → addr < 0x4000000 → s.access a addr = .ok → fld v 0 2 = 0 → s.refusal d 0 = pcNone → s.pw d = pwOff →
      d.needs = [] →
      completes (.powerRequest a addr v) s fun t => t.pw d = pwWaking ∧ t.stage d = some (0, 2) ∧ t.rf addr 0 2 = 0 ∧
        otherRegs [addr, addr + 4] s t) ∧
    (∀ n x, s.pw d = pwEntering → s.stage d = some (n, x) → 0 < n → n < 4 → s.heldReq d ≠ 1 →
      completes (.powerEntryStage addr) s fun t => t.stage d = some (n + 1, x) ∧ otherRegs [] s t) ∧
    (∀ n x, s.pw d = pwEntering → s.stage d = some (n, x) → 0 < n → n < 4 → s.heldReq d = 1 →
      completes (.powerEntryStage addr) s fun t => t.pw d = pwAborting ∧ t.heldReq d = 0 ∧
        t.rd (d.base + 12) = sticky (s.rd (d.base + 12)) 1 ∧ otherRegs [d.base + 4, d.base + 12] s t) ∧
    (s.pw d = pwEntering → s.stage d = some (4, 2) → s.heldReq d = 0 →
      (∃ x, d = .mem x ∨ d = .sync x ∨ d = .pls x) →
      completes (.powerEntryStage addr) s fun t => t.pw d = pwOff ∧ t.stage d = none ∧ otherRegs [d.base + 4] s t) ∧
    (∀ p, d = .router p → s.pw d = pwEntering → s.stage d = some (4, 2) → s.heldReq d = 0 →
      completes (.powerEntryStage addr) s fun t => t.pw d = pwOff ∧ t.stage d = none ∧ t.rf (Reg.FAB_RTR_STATUS p) 0 3 = rsOff ∧
        otherRegs [d.base + 4, Reg.FAB_RTR_STATUS p] s t) ∧
    (s.pw d = pwAborting → s.heldReq d = 0 → (∀ p, d = .logic p → s.pw (.mem p) ≠ pwEntering) →
      completes (.powerAbortDone addr) s fun t => t.pw d = pwOn ∧ t.stage d = none ∧ t.mem = s.mem ∧
        otherRegs [d.base + 4] s t) ∧
    (∀ p, d = .mem p → s.pw d = pwWaking → s.stage d = some (0, 1) → s.heldReq d = 0 → (s.grove (p / 144)).replay = none →
      completes (.powerWakeDone addr) s fun t => t.pw d = pwOn ∧ t.mem = s.mem ∧
        t.rd (d.base + 8) = sticky (s.rd (d.base + 8)) 1 ∧ otherRegs [d.base + 4, d.base + 8] s t) ∧
    (∀ p, d = .mem p → s.pw d = pwWaking → s.stage d = some (0, 2) → s.heldReq d = 0 → (s.grove (p / 144)).replay = none →
      completes (.powerWakeDone addr) s fun t => t.pw d = pwOn ∧ (∀ o, o < 0x40000 → t.byte p o = 0) ∧
        (∀ b, b < 16 → t.bankOwner p b = ownCore) ∧ ∀ q o, q ≠ p → o < 0x40000 → t.byte q o = s.byte q o)) ∧
  (∀ (s : State) (a p b : Nat) (v : Word), a < 8 → p < 9216 → b < 16 →
    (s.access a (Reg.MEM_BANK_OWNER p b) = .ok → fld v 0 16 ≠ s.rf (Reg.MEM_BANK_OWNER p b) 0 16 →
      completes (.bankHandover a p b v) s fun t => t.rf (Reg.MEM_BANK_STATUS p) 30 2 = 1 ∧ t.nextOwner p b = s.nextOwner p b ∧
        otherRegs [Reg.MEM_BANK_STATUS p] s t) ∧
    (s.access a (Reg.MEM_BANK_OWNER p b) = .ok → fld v 0 16 = s.rf (Reg.MEM_BANK_OWNER p b) 0 16 →
      s.ownsGrove a (p / 144) = true → s.groveEnabled (p / 144) = false → s.nextOwner p b = ownCore → fld v 30 2 = ownLoader →
      completes (.bankHandover a p b v) s fun t => t.rf (Reg.MEM_BANK_STATUS p) 30 2 = 0 ∧
        t.rf (Reg.MEM_BANK_STATUS p) 16 4 = b ∧ t.nextOwner p b = ownLoader ∧ t.bankOwner p b = s.bankOwner p b ∧
        t.rf (Reg.MEM_BANK_OWNER p b) 0 16 = (s.rf (Reg.MEM_BANK_OWNER p b) 0 16 + 1) % 2 ^ 16 ∧
        t.bit (Reg.MEM_BANK_OWNER p b) 29 = true ∧ otherRegs [Reg.MEM_BANK_STATUS p, Reg.MEM_BANK_OWNER p b] s t) ∧
    (s.access a (Reg.MEM_BANK_OWNER p b) = .ok → fld v 0 16 = s.rf (Reg.MEM_BANK_OWNER p b) 0 16 →
      s.groveEnabled (p / 144) = true →
      completes (.bankHandover a p b v) s fun t => t.rf (Reg.MEM_BANK_STATUS p) 30 2 = 2 ∧ t.nextOwner p b = s.nextOwner p b ∧
        otherRegs [Reg.MEM_BANK_STATUS p] s t) ∧
    (∀ own, own < 4 → (s.core p).handover.find? (·.1 == b) = some (b, own) →
      completes (.bankHandoverEffect p b) s fun t => t.bankOwner p b = own ∧ t.nextOwner p b = own ∧
        t.bit (Reg.MEM_BANK_OWNER p b) 29 = false ∧ otherRegs [Reg.MEM_BANK_OWNER p b] s t))

/-! ### Management -/

/-- GET_STATUS answers lifecycle, nonce, generations, debug, tamper and the state of every partition; GET_RECORDS the
oldest records and notices; DEVCFG writes all its pairs or none; PATTERN_PUSH writes its chunk or answers
FLASH_ERROR; READ_CORE_MEM answers the bytes of a fenced core and leaves memory and ownership; MGMT_NET sets the
addresses; LIFECYCLE blows its fuse where both signatures verify and changes nothing else otherwise. The layout of
the payloads of GET_STATUS and MGMT_NET is the model's choice. It concludes that exec answers a next state for
GET_STATUS, GET_RECORDS, DEVCFG, PATTERN_PUSH, READ_CORE_MEM, MGMT_NET, LIFECYCLE. (R487, R488, R489, R491, R492,
R497, R498, R523, R525, R526. Log entries 17, 121, 122, 127.) -/
def Obligations.RequestsAnswered : Prop :=
  ∀ (s : State) (path : Nat) (msg m : List Byte) (party : Nat),
    (s.asks path msg opGetStatus m party → emPayload m = [] →
      completes (.getStatus path msg) s fun t => answered path m emOk
        (([Reg.MGT_LIFECYCLE, Reg.MGT_BOOT_NONCE, Reg.MGT_PROT_GEN, Reg.MGT_DEBUG, Reg.MGT_TAMPER].flatMap fun key =>
            toBytes 4 (s.rd key).toNat) ++
          (List.range 64).flatMap fun k => toBytes 4 (s.rd (Reg.HIF_PART_STATUS k)).toNat ++
            toBytes 4 (s.rd (Reg.HIF_PART_OWNER k)).toNat) t ∧ t.mgt = s.mgt) ∧
    (s.asks path msg opGetRecords m party → emPayload m = [] →
      completes (.getRecords path msg) s fun t => answered path m emOk
        ((oldestMsgs s.fuses.deviceId s.bootNonce 4 s.sigs s.mgt.notices).flatMap id) t ∧ t.mgt = s.mgt ∧ t.sigs = s.sigs) ∧
    (∀ v, s.asks path msg opDevcfg m party → (emPayload m).length = 8 → cfgPairs (emPayload m) = [(Reg.INT_SCRUB_CFG, v)] →
      v ≠ 0 → noReserved Reg.INT_SCRUB_CFG v = true →
      completes (.devcfg path msg) s fun t => answered path m emOk [] t ∧ t.rd Reg.INT_SCRUB_CFG = v ∧
        t.mgt.noticeSeq = s.mgt.noticeSeq + 1) ∧
    (s.asks path msg opDevcfg m party → (emPayload m).length = 8 → cfgPairs (emPayload m) = [(Reg.INT_SCRUB_CFG, 0)] →
      completes (.devcfg path msg) s fun t => answered path m emDevcfgRefused (toBytes 4 0) t ∧ t.mgt = s.mgt ∧
        t.rd Reg.INT_SCRUB_CFG = s.rd Reg.INT_SCRUB_CFG) ∧
    (s.asks path msg opPatternPush m party → emNum (emPayload m) 0 4 = 0 → 0 < emNum (emPayload m) 4 2 →
      emNum (emPayload m) 4 2 ≤ 1024 → (emPayload m).length = 8 + emNum (emPayload m) 4 2 → emNum (emPayload m) 6 1 = 0 →
      emNum (emPayload m) 7 1 = 0 → 0 < s.flash.mib → emNum (emPayload m) 4 2 ≤ s.flash.slotBytes →
      completes (.patternPush path msg true) s (fun t => answered path m emOk [] t ∧ t.mgt.pushing = true ∧
        t.flash = s.flash.putInactive ((emPayload m).drop 8)) ∧
      completes (.patternPush path msg false) s (fun t => answered path m emFlashError [] t ∧ t.mgt.pushing = false ∧
        t.flash = s.flash)) ∧
    (∀ p off n, s.asks path msg opReadCoreMem m party → (emPayload m).length = 8 → p = emNum (emPayload m) 0 2 →
      off = emNum (emPayload m) 2 4 → n = emNum (emPayload m) 6 2 → 8 ≤ n → n ≤ 1024 → n % 8 = 0 → p < 9216 →
      s.role p = roleFenced → off + n ≤ 0x40000 → s.memOn p = true → s.badWords p off n = [] →
      (∀ b, b < 16 → s.bankFor p b ownCore = true) →
      completes (.readCoreMem path msg) s fun t => answered path m emOk (s.bytes p off n) t ∧ t.mem = s.mem ∧
        ∀ b, b < 16 → t.bankFor p b ownCore = true) ∧
    (∀ p, s.asks path msg opReadCoreMem m party → (emPayload m).length = 8 → p = emNum (emPayload m) 0 2 →
      8 ≤ emNum (emPayload m) 6 2 → emNum (emPayload m) 6 2 ≤ 1024 → emNum (emPayload m) 6 2 % 8 = 0 → s.role p ≠ roleFenced →
      completes (.readCoreMem path msg) s fun t => answered path m emInvalid [] t ∧ t.cores = s.cores) ∧
    (s.asks path msg opMgmtNet m party → (emPayload m).length = 58 →
      completes (.mgmtNet path msg) s fun t => answered path m emOk [] t ∧ t.mgt.ip4 = emNum (emPayload m) 0 4 ∧
        t.mgt.ip6 = emNum (emPayload m) 4 16 ∧ t.rf Reg.MGT_NET 16 16 = emNum (emPayload m) 20 2) ∧
    (∀ f, s.incoming path msg = (some m, s) → 8 ≤ path → s.fuses.life ≠ lcBlank → emRow m = opLifecycle →
      emNum m 1 1 = emRequest → emFormed false m = true → emSigned m = true → s.pins.devReady = true → s.mgt.changed = false →
      s.bit Reg.MGT_TAMPER 31 = false → (emPayload m).length = 17 → emNum (emPayload m) 0 1 ≤ 4 →
      emNum (emPayload m) 1 16 = s.fuses.deviceId → s.fuses.change (emNum (emPayload m) 0 1) = some f →
      completes (.lifecycle path msg) s fun t =>
        if s.authFail m = emOk ∧ Config.verify (s.key s.fuses.lifeKey)
            (lifeSigned s.fuses.deviceId (emNum (emPayload m) 0 1) s.bootNonce (emCounter m)) (emSig2 m) = true then
          t.fuses = f ∧ t.mgt.changed = true ∧ t.mgt.wiped = true ∧ answered path m emOk [] t
        else t.fuses = s.fuses ∧ t.mgt.changed = false ∧ t.mgt.wiped = s.mgt.wiped)

/-- STAGE of an eligible change takes the lowest free slot, returns its id and digest and changes no protection; an
ineligible party is refused. CONFIRM by another eligible party with the digest of the stored record before the
deadline applies it and counts MGT_PROT_GEN; the same party and a wrong digest are refused and change nothing.
CANCEL by the stager frees the slot, and at the deadline STAGE_EXPIRE does. It concludes that exec answers a next
state for STAGE, CONFIRM, CANCEL, READ_STAGE, STAGE_EXPIRE. (R506, R507, R508, R509, R510, R511, R512. Log entries
121, 130.) -/
def Obligations.ChangesNeedTwoParties : Prop :=
  ∀ (s : State) (path : Nat) (msg m : List Byte) (party : Nat),
    (s.asks path msg opStage m party → s.fuses.life ≠ lcReturned → (changeOf (emPayload m)).formed (emPayload m) = true →
      s.eligible (changeOf (emPayload m)) party = true → s.changeFail (changeOf (emPayload m)) = emOk →
      (∀ j, j < 8 → s.slot j = none) →
      completes (.stage path msg) s fun t =>
        t.slot 0 = some ⟨(s.mgt.stageId + 1) % 2 ^ 32, party, emPayload m, s.arrivedAt path + 100000000⟩ ∧
        t.mgt.stageId = (s.mgt.stageId + 1) % 2 ^ 32 ∧ t.rd Reg.MGT_PROT_GEN = s.rd Reg.MGT_PROT_GEN ∧
        answered path m emOk (toBytes 4 ((s.mgt.stageId + 1) % 2 ^ 32) ++
          toBytes 8 (stageDigest s.bootNonce ((s.mgt.stageId + 1) % 2 ^ 32) (emPayload m))) t) ∧
    (s.asks path msg opStage m party → s.fuses.life ≠ lcReturned → (changeOf (emPayload m)).formed (emPayload m) = true →
      s.eligible (changeOf (emPayload m)) party = false →
      completes (.stage path msg) s fun t => answered path m emNotAuthorised [] t ∧ t.mgt = s.mgt) ∧
    (∀ i x, s.asks path msg opConfirm m party → (emPayload m).length = 12 → s.slotOf (emNum (emPayload m) 0 4) = some (i, x) →
      s.arrivedAt path < x.deadline → s.pairFail (changeOf x.record) x.party party = emOk →
      emNum (emPayload m) 4 8 = stageDigest s.bootNonce (emNum (emPayload m) 0 4) x.record →
      (changeOf x.record).kind = kPartOwner → (changeOf x.record).part < 64 → (changeOf x.record).attach < 8 →
      s.changeFail (changeOf x.record) = emOk →
      completes (.confirm path msg) s fun t => answered path m emOk [] t ∧ t.slot i = none ∧
        t.ownerOf (changeOf x.record).part = some (changeOf x.record).attach ∧
        t.rd Reg.MGT_PROT_GEN = s.rd Reg.MGT_PROT_GEN + 1 ∧ t.mgt.noticeSeq = s.mgt.noticeSeq + 1) ∧
    (∀ i x, s.asks path msg opConfirm m party → (emPayload m).length = 12 → s.slotOf (emNum (emPayload m) 0 4) = some (i, x) →
      s.arrivedAt path < x.deadline → s.eligible (changeOf x.record) party = true → x.party = party →
      completes (.confirm path msg) s fun t => answered path m emSameParty [] t ∧ t.mgt = s.mgt ∧
        ∀ k, k < 64 → t.ownerOf k = s.ownerOf k) ∧
    (∀ i x, s.asks path msg opConfirm m party → (emPayload m).length = 12 → s.slotOf (emNum (emPayload m) 0 4) = some (i, x) →
      s.arrivedAt path < x.deadline → s.pairFail (changeOf x.record) x.party party = emOk →
      emNum (emPayload m) 4 8 ≠ stageDigest s.bootNonce (emNum (emPayload m) 0 4) x.record →
      completes (.confirm path msg) s fun t => answered path m emDigestMismatch [] t ∧ t.mgt = s.mgt) ∧
    (∀ i x, s.asks path msg opCancel m party → (emPayload m).length = 4 → s.slotOf (emNum (emPayload m) 0 4) = some (i, x) →
      x.party = party →
      completes (.cancel path msg) s fun t => answered path m emOk [] t ∧ t.slot i = none ∧
        t.rd Reg.MGT_PROT_GEN = s.rd Reg.MGT_PROT_GEN) ∧
    (∀ i x, s.asks path msg opCancel m party → (emPayload m).length = 4 → s.slotOf (emNum (emPayload m) 0 4) = some (i, x) →
      x.party ≠ party →
      completes (.cancel path msg) s fun t => answered path m emNotAuthorised [] t ∧ t.mgt = s.mgt) ∧
    (∀ i x, s.asks path msg opReadStage m party → (emPayload m).length = 4 → s.slotOf (emNum (emPayload m) 0 4) = some (i, x) →
      completes (.readStage path msg) s fun t => t.mgt = s.mgt ∧
        answered path m emOk (x.record ++ toBytes 4 x.party ++ toBytes 4 ((x.deadline - s.ref) / 1000)) t) ∧
    (∀ i x, i < 8 → s.slot i = some x → x.deadline ≤ s.ref →
      completes (.stageExpire i) s fun t => t.slot i = none ∧ x.id ∈ t.mgt.expired ∧
        t.mgt.noticeSeq = s.mgt.noticeSeq + 1 ∧ t.rd (Reg.MGT_STAGE i) = 0)

/-- An ACK removes from its queue the entries up to its number and no others; a STAGE before DEV_READY waits with its
arrival time; REPORT_RESEND sends what is queued to the collectors; a tamper fire wipes heartwood, closes debug,
clears the boot nonce and the ownership of every partition; SET_ENDPOINT_ID and the MCTP queries are answered; a
neighbour request for the port's own address is answered with its MAC. How an ACK names its queue is the model's
choice, and the fields of MCTP messages are taken from DSP0236. It concludes that exec answers a next state for ACK,
STAGE, REPORT_RESEND, TAMPER_FIRE, SET_ENDPOINT_ID, GET_ENDPOINT_ID, GET_MCTP_VERSION_SUPPORT,
GET_MESSAGE_TYPE_SUPPORT, GET_VENDOR_DEFINED_MESSAGE_SUPPORT, NEIGHBOUR_REQUEST. (R487, R502, R503, R505, R540. Log
entries 120, 123, 132.) -/
def Obligations.ReportsAndTamper : Prop :=
  ∀ (s : State),
    (∀ path msg m, s.incoming path msg = (some m, s) → emNum m 1 1 = emAck → ackFormed m = true → emOpcode m = 0 →
      completes (.ack path msg) s fun t => t.sigs = s.sigs.filter (fun r => decide (emCounter m < r.seq)) ∧
        t.mgt.notices = s.mgt.notices ∧ t.rf Reg.MGT_QUEUES 8 7 = t.sigs.length % 2 ^ 7) ∧
    (∀ path msg m, s.incoming path msg = (some m, s) → emNum m 1 1 = emAck → ackFormed m = true → emOpcode m ≠ 0 →
      completes (.ack path msg) s fun t => t.sigs = s.sigs ∧
        t.mgt.notices = s.mgt.notices.filter (fun v => decide (emCounter m < v.seq)) ∧
        t.rf Reg.MGT_QUEUES 0 5 = t.mgt.notices.length % 2 ^ 5) ∧
    (∀ path msg m, s.incoming path msg = (some m, s) → emNum m 1 1 = emRequest → emRow m = opStage →
      s.pins.devReady = false →
      completes (.stage path msg) s fun t =>
        t.mgt.heldReqs = s.mgt.heldReqs ++ [⟨path, m, s.arrivedAt path, true⟩] ∧ t.out = s.out ∧ otherRegs [] s t) ∧
    (s.pins.sysRstN = true → s.mgt.resendAt ≤ s.ref → s.mgt.collectors = [] →
      completes .reportResend s fun t => t = { s with mgt := { s.mgt with resendAt := s.ref + 100000000 } }) ∧
    (∀ r c, s.pins.sysRstN = true → s.mgt.resendAt ≤ s.ref → s.mgt.collectors = [c] → c ≠ (0, 0) → s.sigs = [r] →
      s.mgt.notices = [] →
      completes .reportResend s fun t =>
        t.out = .emetur 0 (emTrailer (recordMsg s.fuses.deviceId s.bootNonce r)) :: s.out ∧ t.sigs = s.sigs) ∧
    (∀ d, d < 5 → s.bit Reg.MGT_TAMPER (8 + d) = true →
      completes (.tamperFire d) s fun t => t.mgt.wiped = true ∧ t.mgt.lastCounter = none ∧ t.mgt.slots = [] ∧
        t.bit Reg.MGT_TAMPER 31 = true ∧ t.bit Reg.MGT_TAMPER d = true ∧ t.debugLevel = dlClosed ∧ t.debugLocked = true ∧
        t.rd Reg.MGT_BOOT_NONCE = 0 ∧ ∀ k, k < 64 → t.ownerOf k = none) ∧
    (s.pins.sysRstN = true → ∀ op eid, op % 4 < 2 → 8 ≤ eid → eid < 255 →
      completes (.setEndpointId op eid) s fun t => t.mgt.eid = eid ∧ t.out = .mctp 1 [0, 0, eid, 0] :: s.out) ∧
    (s.pins.sysRstN = true →
      completes .getEndpointId s fun t => t = { s with out := .mctp 2 [0, s.mgt.eid, 0, 0] :: s.out }) ∧
    (s.pins.sysRstN = true →
      completes (.getMctpVersionSupport 0x7F) s fun t => t = { s with out := .mctp 4 [0, 1, 0xF1F3FF00] :: s.out }) ∧
    (s.pins.sysRstN = true →
      completes .getMessageTypeSupport s fun t => t = { s with out := .mctp 5 [0, 1, 0x7F] :: s.out }) ∧
    (s.pins.sysRstN = true →
      completes (.getVendorDefinedMessageSupport 0) s fun t =>
        t = { s with out := .mctp 6 [0, 0xFF, 1, Config.ianaNumber, 0] :: s.out }) ∧
    (s.pins.sysRstN = true → ∀ addr, addr = s.mgt.ip4 → addr ≠ 0 →
      completes (.neighbourRequest addr false) s fun t => t = { s with out := .neighbour addr s.fuses.mac :: s.out }) ∧
    (∀ addr, addr ≠ s.mgt.ip4 → completes (.neighbourRequest addr false) s fun t => t = s)

/-! ### The debug port, start-up and failures -/

/-- The boundary-scan instructions set their mode and shift out their bit; DBG_CHALLENGE returns a nonce kept with its
time; DBG_RESPONSE and DBG_PASSWORD raise the level where the signature or the hash verifies and count a failure and
do not lock before the eighth where it does not; DBG_CLOSE closes in FIELD; a nonce expires. A set-up access reads
with an open level and writes with FULL; memory is read; a partition halts at once when no step is open and is asked
to halt when one is; a core halts in a halted partition and resumes. Captured bits and the form of DBG_STATUS are
the model's. It concludes that exec answers a next state for BYPASS, CLAMP, HIGHZ, IDCODE, SAMPLE_PRELOAD, EXTEST,
DBG_STATUS, DBG_CHALLENGE, DBG_RESPONSE, DBG_PASSWORD, DBG_CLOSE, DBG_NONCE_EXPIRE, DEBUG_SETUP_ACCESS,
DEBUG_PARTITION_HALT, DEBUG_CORE_HALT, DEBUG_RESUME. (R513, R514, R515, R516, R517, R518, R519, R520, R521, R522.
Log entries 17, 19, 137, 138.) -/
def Obligations.TapAndDebug : Prop :=
  ∀ (s : State),
    (completes .bypass s fun t => t = { s with mgt := { s.mgt with tapMode := 0 }, out := .tap 0 :: s.out }) ∧
    (completes .clamp s fun t => t = { s with mgt := { s.mgt with tapMode := 4 }, out := .tap 0 :: s.out }) ∧
    (completes .highz s fun t => t = { s with mgt := { s.mgt with tapMode := 5 }, out := .tap 0 :: s.out }) ∧
    (completes .idcode s fun t => t = { s with mgt := { s.mgt with tapMode := 3 }, out := .tap s.fuses.idcode :: s.out }) ∧
    (∀ v, completes (.samplePreload v) s fun t => (∃ n, t.out = .tap n :: s.out) ∧ t.mgt.tapMode = 1 ∧ t.mgt.boundary = v ∧
      otherRegs [] s t) ∧
    (∀ v, completes (.extest v) s fun t => (∃ n, t.out = .tap n :: s.out) ∧ t.mgt.tapMode = 2 ∧ t.mgt.boundary = v ∧
      otherRegs [] s t) ∧
    (s.pins.sysRstN = true →
      completes .dbgStatus s fun t => t = { s with out := .tap (s.rd Reg.MGT_DEBUG).toNat :: s.out }) ∧
    (s.debugOpen = true →
      completes .dbgChallenge s fun t => ∃ n, n < 2 ^ 128 ∧ t.out = .tap n :: s.out ∧ t.mgt.dbgNonce = some (n, s.ref) ∧
        otherRegs [] s t) ∧
    (∀ sig n t0, s.debugOpen = true → s.mgt.dbgNonce = some (n, t0) → s.debugLevel < dlFull → s.rf Reg.MGT_DEBUG 0 4 < 7 →
      completes (.dbgResponse sig) s fun t => t.mgt.dbgNonce = none ∧
        if s.ref < t0 + 10000000000 ∧ sig.length = 96 ∧
            Config.verify (s.key s.fuses.debugKey) (dbgSigned n s.fuses.deviceId) sig = true then
          t.debugLevel = dlFull ∧ t.rf Reg.MGT_DEBUG 0 4 = s.rf Reg.MGT_DEBUG 0 4
        else t.debugLevel = s.debugLevel ∧ t.rf Reg.MGT_DEBUG 0 4 = s.rf Reg.MGT_DEBUG 0 4 + 1 ∧ t.debugLocked = false) ∧
    (∀ len bytes, s.debugOpen = true → s.debugLevel = dlClosed → s.rf Reg.MGT_DEBUG 0 4 < 7 →
      completes (.dbgPassword len bytes) s fun t =>
        if 16 ≤ len ∧ len ≤ 64 ∧ bytes.length = len ∧ Config.sha384 bytes = s.key s.fuses.passwordHash then
          t.debugLevel = dlObserve ∧ t.rf Reg.MGT_DEBUG 0 4 = s.rf Reg.MGT_DEBUG 0 4
        else t.debugLevel = dlClosed ∧ t.rf Reg.MGT_DEBUG 0 4 = s.rf Reg.MGT_DEBUG 0 4 + 1) ∧
    (∀ len bytes, s.debugOpen = true → len < 16 → 7 ≤ s.rf Reg.MGT_DEBUG 0 4 →
      completes (.dbgPassword len bytes) s fun t => t.debugLevel = dlClosed ∧ t.debugLocked = true ∧
        t.mgt.noticeSeq = s.mgt.noticeSeq + 1) ∧
    (s.debugOpen = true → s.fuses.life = lcField →
      completes .dbgClose s fun t => t.debugLevel = dlClosed ∧ otherRegs [Reg.MGT_DEBUG] s t) ∧
    (∀ n t0, s.mgt.dbgNonce = some (n, t0) → t0 + 10000000000 ≤ s.ref →
      completes .dbgNonceExpire s fun t => t = { s with mgt := { s.mgt with dbgNonce := none } }) ∧
    (∀ a addr v, s.debugOpen = true → s.debugLevel ≠ dlClosed → isMailbox addr = false →
      s.accessBy (fun _ _ => .ok) addr = .ok →
      completes (.debugSetupAccess false false a addr v) s fun t =>
        t = { s with out := .debug (s.rd (regKey (a % 8) addr)).toNat :: s.out }) ∧
    (∀ a k v, k < 64 → s.debugOpen = true → s.debugLevel = dlFull → s.enabled k = false →
      s.accessBy (fun _ _ => .ok) (Reg.STEP_MAX_STRETCH k) = .ok →
      completes (.debugSetupAccess false true a (Reg.STEP_MAX_STRETCH k) v) s fun t => t.rd (Reg.STEP_MAX_STRETCH k) = v ∧
        otherRegs [Reg.STEP_MAX_STRETCH k] s t) ∧
    (∀ a addr v, s.debugLevel ≠ dlFull → completes (.debugSetupAccess false true a addr v) s fun t => t = s) ∧
    (∀ a p off v, s.debugOpen = true → s.debugLevel ≠ dlClosed → s.memOn p = true → off < 0x40000 → off % 4 = 0 →
      s.bankFor p (off / 0x4000) ownCore = true →
      completes (.debugSetupAccess true false a (0x40000 * p + off) v) s fun t =>
        t = { s with out := .debug (s.word p off).toNat :: s.out }) ∧
    (∀ k, k < 64 → s.debugOpen = true → s.debugLevel = dlFull → (s.part k).openStep = none →
      completes (.debugPartitionHalt k) s fun t => (t.part k).halted = true ∧ (t.part k).haltAsked = false ∧
        otherParts k s t) ∧
    (∀ k n, k < 64 → s.debugOpen = true → s.debugLevel = dlFull → (s.part k).openStep = some n →
      completes (.debugPartitionHalt k) s fun t => t.part k = { s.part k with haltAsked := true } ∧ otherParts k s t ∧
        otherRegs [] s t) ∧
    (∀ p, p < 9216 → s.debugOpen = true → s.debugLevel = dlFull → s.mayHalt p = true → s.logicOn p = true →
      completes (.debugCoreHalt p) s fun t => t.core p = { s.core p with halted := true } ∧ otherCores p s t) ∧
    (∀ p, p < 9216 → s.debugOpen = true → s.debugLevel = dlFull → (s.core p).halted = true →
      (∀ c, c < 4 → s.chFrozen (coreCh p c) = false) →
      completes (.debugResume true p) s fun t => t.core p = { s.core p with halted := false } ∧ otherCores p s t) ∧
    (∀ k, k < 64 → s.debugOpen = true → s.debugLevel = dlFull → (∀ c ∈ s.globalsOf k, s.chFrozen c = false) →
      completes (.debugResume false k) s fun t => t.part k = { s.part k with halted := false, haltAsked := false } ∧
        otherParts k s t)

/-- The rise of SYS_RST_N boots the device with its straps sampled, its lifecycle advanced and its memories empty; its
fall takes every enable and power-good away and keeps fuses and flash; each power-good starts what depends on it,
and DEV_READY rises when all have settled; stacks train and are cleared before READY, and only their own bytes
change. A failed wait shuts the rails and holds DEV_FAULT_N; the fall of PG_CORE, PG_IO or a stack's power-good
shuts what depends on it; a thermal trip at 120 degrees shuts everything down and one below changes nothing. It
concludes that exec answers a next state for SYS_RST_N_RISE, SYS_RST_N_FALL, MGMT_BOOT_DONE, PG_CORE_RISE,
PG_IO_RISE, PG_HBM_RISE, HBM_TRAINING_DONE, HBM_CLEAR_DONE, PG_WAIT_TIMEOUT, PG_FALL, THERMAL_TRIP. (R533, R535,
R536, R538, R539, R541, R501. Log entries 4, 108, 112, 113.) -/
def Obligations.StartUpAndFailures : Prop :=
  (∀ (s : State),
    (s.pins.sysRstN = false →
      completes .sysRstNRise s fun t => t.pins.sysRstN = true ∧ t.pins.strapBif = s.pins.bifPins % 16 ∧
        t.pins.strapSmb = s.pins.smbPins % 8 ∧ t.pins.devReady = false ∧ t.pins.pwrEnCore = false ∧
        t.fuses = { s.fuses with life := s.fuses.next } ∧ t.mem = [] ∧ t.hbm = [] ∧ t.net = [] ∧ t.flash = s.flash ∧
        (∀ a, a < 8 → (t.att a).present = (a % 2 == 0 || s.pins.bifPins / 2 ^ (a / 2) % 2 == 1)) ∧
        t.debugLevel = (if s.fuses.next = lcField then dlClosed else dlFull)) ∧
    (s.pins.sysRstN = true →
      completes .sysRstNFall s fun t => t.pins.sysRstN = false ∧ t.pins.pwrEnCore = false ∧ t.pins.pwrEnIo = false ∧
        t.pins.hbmEn = 0 ∧ t.pins.devReady = false ∧ t.pins.faultN = true ∧ t.pins.tripN = true ∧ t.mem = [] ∧ t.net = [] ∧
        t.fuses = s.fuses ∧ t.flash = s.flash) ∧
    (s.pins.sysRstN = true → s.pins.booted = false →
      completes .mgmtBootDone s fun t => t = { s with pins := { s.pins with booted := true, pwrEnCore := true } }) ∧
    (s.starting = true → s.pins.pwrEnCore = true → s.pins.pgCore = false →
      completes .pgCoreRise s fun t => t.up = true ∧ t.pins = { s.pins with pgCore := true, pwrEnIo := true } ∧
        ∀ k, (∀ e ∈ s.regs, e.1 ≠ k) → (∀ g, g < 64 → k ≠ Reg.PWR_RAIL g) → t.rd k = resetWord s.fuses true k) ∧
    (s.starting = true → s.pins.pgCore = true → s.pins.pwrEnIo = true → s.pins.pgIo = false →
      s.pins.hbmOver ≠ s.fuses.stackMask →
      completes .pgIoRise s fun t => t.pins = { s.pins with pgIo := true, hbmEn := s.fuses.stackMask } ∧
        (∀ n, n < 4 → t.domOn (.pcie n) = true) ∧ t.domOn (.evp 0) = true) ∧
    (s.starting = true → s.pins.pgCore = true → s.pins.pwrEnIo = true → s.pins.pgIo = false →
      s.pins.hbmOver = s.fuses.stackMask → s.mgt.heldReqs = [] →
      completes .pgIoRise s fun t => t.pins.devReady = true ∧ t.pins.pgIo = true) ∧
    (∀ st, s.starting = true → st < 4 → s.pins.hbmEn / 2 ^ st % 2 = 1 → s.pins.pgHbm / 2 ^ st % 2 = 0 →
      s.pins.hbmOver / 2 ^ st % 2 = 0 → s.fuses.hasStack st = true → s.pw (.hbm st) = pwOff →
      ({ s with pins := { s.pins with pgHbm := setBit s.pins.pgHbm st } } : State).hbmSettled = true →
      completes (.pgHbmRise st) s fun t => t.pins.pgHbm / 2 ^ st % 2 = 1 ∧ t.pw (.hbm st) = pwWaking ∧ t.stackState st = 1) ∧
    (∀ st, st < 4 → s.pw (.hbm st) = pwWaking → s.stage (.hbm st) = some (0, 2) →
      completes (.hbmTrainingDone st true) s fun t => t.stage (.hbm st) = some (1, 2) ∧ t.stackState st = s.stackState st ∧
        t.hbm = s.hbm) ∧
    (∀ st, st < 4 → s.pw (.hbm st) = pwWaking → s.stage (.hbm st) = some (0, 2) → s.starting = false →
      completes (.hbmTrainingDone st false) s fun t => t.stackState st = 3 ∧ t.pw (.hbm st) = pwOff ∧
        t.pins.hbmOver / 2 ^ st % 2 = 1) ∧
    (∀ st, st < 4 → s.pw (.hbm st) = pwWaking → s.stage (.hbm st) = some (1, 2) → s.starting = false →
      s.heldReq (.hbm st) = 0 →
      completes (.hbmClearDone st) s fun t => t.stackState st = 2 ∧ t.pw (.hbm st) = pwOn ∧
        (∀ x, x / stackBytes = st → t.hbmByte x = 0) ∧ ∀ x, x / stackBytes ≠ st → t.hbmByte x = s.hbmByte x)) ∧
  (∀ (s : State),
    (s.starting = true → s.pins.pwrEnCore = true → s.pins.pgCore = false →
      completes (.pgWaitTimeout 0) s fun t => t = { s with pins := { s.pins with
        pwrEnCore := false, pwrEnIo := false, hbmEn := 0, faultN := false, halted := true } }) ∧
    (s.starting = true → s.pins.pwrEnIo = true → s.pins.pgIo = false →
      completes (.pgWaitTimeout 1) s fun t => t = { s with pins := { s.pins with
        pwrEnCore := false, pwrEnIo := false, hbmEn := 0, faultN := false, halted := true } }) ∧
    (s.pins.devReady = true → s.pins.pgCore = true →
      completes (.pgFall 0) s fun t => t.pins = { s.pins with pgCore := false, pwrEnCore := false, pwrEnIo := false, hbmEn := 0 } ∧
        ∀ g, g < 64 → t.bit (Reg.PWR_RAIL g) 30 = true ∧ t.bit (Reg.PWR_RAIL g) 31 = false) ∧
    (s.pins.devReady = true → s.pins.pgIo = true →
      completes (.pgFall 1) s fun t => t.pins = { s.pins with pgIo := false, pwrEnIo := false, hbmEn := 0 } ∧
        (∀ a, a < 8 → (t.att a).linkUp = false) ∧ ∀ e, e < 2 → t.evpUp e = false) ∧
    (∀ st, s.pins.devReady = true → st < 4 → s.pins.pgHbm / 2 ^ st % 2 = 1 →
      completes (.pgFall (2 + st)) s fun t => t.stackState st = 3 ∧
        t.pins = { s.pins with pgHbm := dropBit s.pins.pgHbm st, hbmEn := dropBit s.pins.hbmEn st }) ∧
    (∀ sensor reading, s.pins.sysRstN = true → s.pins.pgCore = true → s.pins.tripN = true → 120 ≤ reading →
      completes (.thermalTrip sensor reading) s fun t => t.pins.tripN = false ∧ t.pins.faultN = false ∧
        t.pins.pwrEnCore = false ∧ t.pins.pwrEnIo = false ∧ t.pins.hbmEn = 0) ∧
    (∀ sensor reading, reading < 120 → completes (.thermalTrip sensor reading) s fun t => t = s))

/-! ### Reset, time, memory -/

/-- State.reset has SYS_RST_N low, every enable low, DEV_READY low, empty stores and queue, every partition DISABLED,
and the reset values of STEP_MAX_STRETCH, TB_INT_DIV, INT_SCRUB_CFG, HIF_DB_PERIOD and HDL_SEL_MASK that their
tables give. A step on an empty queue changes nothing while SYS_RST_N is low and, with it high and every set-up
powered, advances the reference counter by one. That an idle step is one nanosecond is the model's choice. (R535,
R231, R241, R381, R419. Log entries 1, 2, 7.) -/
def Obligations.ResetAndTime : Prop :=
  State.reset.canonical = true ∧ State.reset.pending = [] ∧ State.reset.mem = [] ∧ State.reset.hbm = [] ∧
  State.reset.net = [] ∧ State.reset.pins.sysRstN = false ∧ State.reset.pins.devReady = false ∧
  State.reset.pins.pwrEnCore = false ∧ State.reset.pins.pwrEnIo = false ∧ State.reset.pins.hbmEn = 0 ∧
  (∀ k, k < 64 → State.reset.pstate k = psDisabled ∧ State.reset.rd (Reg.STEP_MAX_STRETCH k) = 0xFFFFFFFF) ∧
  (∀ p, p < 9216 → State.reset.memOn p = false ∧ State.reset.rd (Reg.HDL_SEL_MASK p) = 0xFF) ∧
  State.reset.rd Reg.TB_INT_DIV = 1000 ∧ State.reset.rd Reg.INT_SCRUB_CFG = 100 ∧
  (∀ a, a < 8 → State.reset.rd (Reg.HIF_DB_PERIOD a) = 1000 ∧ (State.reset.att a).linkUp = false) ∧
  (∀ s : State, s.pending = [] → s.pins.sysRstN = false → step s = .next s) ∧
  (∀ s : State, s.pending = [] → s.pins.sysRstN = true → s.up = true → (∀ x ∈ s.cores, x.1 < 9216) →
    (∀ x ∈ s.groves, x.1 < 64) → (∀ x ∈ s.parts, x.1 < 64) → (∀ f ∈ s.waiting, f.inPort ≤ 6) →
    ∃ t, step s = .next t ∧ t.pending = [] ∧ t.ref = (s.ref + 1) % 2 ^ 64)

/-- Bytes written to local memory where no touched word is poisoned read back and no other byte changes; a write of a
whole word clears its poison; a merge into a poisoned word changes nothing. Bytes written to HBM read back and no
other byte changes. (R347, R459, R464, R470.) -/
def Obligations.MemoryHoldsWhatIsWritten : Prop :=
  ∀ (s : State) (p off a : Nat) (bs : List Byte),
    (s.poisoned p off bs.length = false →
      (s.setBytes p off bs).bytes p off bs.length = bs ∧ otherBytes p off bs.length s (s.setBytes p off bs)) ∧
    (bs.length = 8 → off % 8 = 0 →
      (s.setBytes p off bs).bytes p off 8 = bs ∧ (s.setBytes p off bs).poisoned p off 8 = false ∧
      otherBytes p off 8 s (s.setBytes p off bs)) ∧
    (bs.length < 8 → off / 8 = (off + bs.length - 1) / 8 → s.bad p off = true → s.setBytes p off bs = s) ∧
    (s.setHbmBytes a bs).hbmBytes a bs.length = bs ∧
    (∀ x, ¬(a ≤ x ∧ x < a + bs.length) → (s.setHbmBytes a bs).hbmByte x = s.hbmByte x)
end

