-- ==== Sys2Proof/Laws/Bits.lean ====
section
/-! SUPPORT. Laws of bit fields: what a field reads after a field is replaced. -/
namespace Sys2Proof.Machine

theorem setFld_toNat (w : Word) (lo n v : Nat) (h : lo + n ≤ 32) :
    (setFld w lo n v).toNat = w.toNat / 2 ^ (lo + n) * 2 ^ (lo + n) + v % 2 ^ n * 2 ^ lo + w.toNat % 2 ^ lo := by
  unfold setFld
  rw [BitVec.toNat_ofNat]
  apply Nat.mod_eq_of_lt
  have hw : w.toNat < 2 ^ 32 := w.isLt
  have h1 : v % 2 ^ n < 2 ^ n := Nat.mod_lt _ (by positivity)
  have h2 : w.toNat % 2 ^ lo < 2 ^ lo := Nat.mod_lt _ (by positivity)
  have h4 : w.toNat / 2 ^ (lo + n) < 2 ^ (32 - (lo + n)) := by
    rw [Nat.div_lt_iff_lt_mul (by positivity), ← pow_add]
    rwa [Nat.sub_add_cancel h]
  have e1 : (2 : Nat) ^ (lo + n) = 2 ^ n * 2 ^ lo := by rw [pow_add]; ring
  have e2 : (2 : Nat) ^ 32 = 2 ^ (32 - (lo + n)) * 2 ^ (lo + n) := by rw [← pow_add, Nat.sub_add_cancel h]
  rw [e2, e1]
  have a1 : v % 2 ^ n * 2 ^ lo + w.toNat % 2 ^ lo < 2 ^ n * 2 ^ lo := by
    have := Nat.mul_le_mul_right (2 ^ lo) (Nat.succ_le_of_lt h1)
    rw [Nat.succ_mul] at this
    linarith
  have a2 : (w.toNat / (2 ^ n * 2 ^ lo) + 1) * (2 ^ n * 2 ^ lo) ≤ 2 ^ (32 - (lo + n)) * (2 ^ n * 2 ^ lo) := by
    apply Nat.mul_le_mul_right
    rw [e1] at h4
    exact h4
  nlinarith

/-- The field that was replaced. -/
@[simp] theorem fld_setFld_same (w : Word) (lo n v : Nat) (h : lo + n ≤ 32) : fld (setFld w lo n v) lo n = v % 2 ^ n := by
  unfold fld
  rw [setFld_toNat w lo n v h, pow_add]
  have h2 : w.toNat % 2 ^ lo < 2 ^ lo := Nat.mod_lt _ (by positivity)
  rw [show w.toNat / (2 ^ lo * 2 ^ n) * (2 ^ lo * 2 ^ n) + v % 2 ^ n * 2 ^ lo + w.toNat % 2 ^ lo
    = w.toNat % 2 ^ lo + 2 ^ lo * (v % 2 ^ n + 2 ^ n * (w.toNat / (2 ^ lo * 2 ^ n))) by ring]
  rw [Nat.add_mul_div_left _ _ (by positivity), Nat.div_eq_of_lt h2, Nat.zero_add, Nat.add_mul_mod_self_left, Nat.mod_mod]

/-- A field above the one that was replaced. -/
theorem fld_setFld_above (w : Word) (lo n v lo' n' : Nat) (h : lo + n ≤ lo') (h' : lo' ≤ 32) :
    fld (setFld w lo n v) lo' n' = fld w lo' n' := by
  unfold fld
  rw [setFld_toNat w lo n v (by omega)]
  obtain ⟨d, rfl⟩ := Nat.exists_eq_add_of_le h
  have h1 : v % 2 ^ n < 2 ^ n := Nat.mod_lt _ (by positivity)
  have h2 : w.toNat % 2 ^ lo < 2 ^ lo := Nat.mod_lt _ (by positivity)
  have lt : v % 2 ^ n * 2 ^ lo + w.toNat % 2 ^ lo < 2 ^ (lo + n) := by
    have := Nat.mul_le_mul_right (2 ^ lo) (Nat.succ_le_of_lt h1)
    rw [Nat.succ_mul, ← pow_add, Nat.add_comm n] at this
    linarith
  congr 1
  rw [pow_add 2 (lo + n) d, ← Nat.div_div_eq_div_mul, ← Nat.div_div_eq_div_mul]
  congr 1
  rw [Nat.add_assoc, Nat.add_comm, Nat.add_mul_div_right _ _ (by positivity), Nat.div_eq_of_lt lt, Nat.zero_add]

/-- A field below the one that was replaced. -/
theorem fld_setFld_below (w : Word) (lo n v lo' n' : Nat) (h : lo' + n' ≤ lo) (h' : lo + n ≤ 32) :
    fld (setFld w lo n v) lo' n' = fld w lo' n' := by
  unfold fld
  rw [setFld_toNat w lo n v h']
  obtain ⟨d, rfl⟩ := Nat.exists_eq_add_of_le h
  have key : ∀ x : Nat, x / 2 ^ lo' % 2 ^ n' = x % 2 ^ (lo' + n' + d) / 2 ^ lo' % 2 ^ n' := by
    intro x
    rw [Nat.add_assoc, pow_add, Nat.mod_mul_right_div_self, pow_add, Nat.mod_mul_right_mod]
  rw [key (_ + _ + _), key w.toNat]
  congr 2
  rw [Nat.add_mod, Nat.add_mod (w.toNat / _ * _), pow_add 2 (lo' + n' + d) n, ← Nat.mul_assoc]
  simp [Nat.mul_mod, Nat.mul_assoc]

end Sys2Proof.Machine
end

