-- ==== Sys2Proof/Laws/Store.lean ====
section
/-! SUPPORT. Laws of sparse storage: reading after each operation, and every operation keeps the canonical form. -/
namespace Sys2Proof.Machine.Store

variable {β : Type}

/-! ### Reading -/

@[simp] theorem get_nil (d : Nat → β) (k : Nat) : get d [] k = d k := rfl

@[simp] theorem get_erase_same (d : Nat → β) (m : Store β) (k : Nat) : get d (erase k m) k = d k := by
  induction m with
  | nil => rfl
  | cons e t ih =>
    obtain ⟨a, v⟩ := e
    by_cases h : a = k
    · simp [erase, h, ih]
    · simp [erase, get, h, ih]

theorem get_erase_other (d : Nat → β) (m : Store β) {k j : Nat} (h : j ≠ k) : get d (erase k m) j = get d m j := by
  induction m with
  | nil => rfl
  | cons e t ih =>
    obtain ⟨a, v⟩ := e
    by_cases ha : a = k
    · have hj : a ≠ j := by omega
      simp [erase, ha, get, ih, show ¬ k = j by omega]
    · simp [erase, ha, get, ih]

@[simp] theorem get_insert_same (d : Nat → β) (m : Store β) (k : Nat) (v : β) (h : ∀ e ∈ m, e.1 ≠ k) :
    get d (insert k v m) k = v := by
  induction m with
  | nil => simp [insert, get]
  | cons e t ih =>
    obtain ⟨a, w⟩ := e
    have ha : a ≠ k := h (a, w) (by simp)
    have ht := ih fun e he => h e (by simp [he])
    by_cases hk : k < a
    · simp [insert, hk, get]
    · simp [insert, hk, get, ha, ht]

theorem get_insert_other (d : Nat → β) (m : Store β) {k j : Nat} (v : β) (h : j ≠ k) :
    get d (insert k v m) j = get d m j := by
  induction m with
  | nil => simp [insert, get, Ne.symm h]
  | cons e t ih =>
    obtain ⟨a, w⟩ := e
    by_cases hk : k < a
    · simp [insert, hk, get, Ne.symm h]
    · simp [insert, hk, get, ih]

theorem not_mem_erase (m : Store β) (k : Nat) : ∀ e ∈ erase k m, e.1 ≠ k := by
  induction m with
  | nil => simp [erase]
  | cons e t ih =>
    obtain ⟨a, v⟩ := e
    by_cases h : a = k
    · simpa [erase, h] using ih
    · intro e he
      simp only [erase, h, if_false, List.mem_cons] at he
      rcases he with rfl | he
      · exact h
      · exact ih e he

@[simp] theorem get_set_same [DecidableEq β] (d : Nat → β) (m : Store β) (k : Nat) (v : β) :
    get d (set d m k v) k = v := by
  by_cases h : v = d k
  · simp [set, h]
  · simp [set, h, get_insert_same d _ k v (not_mem_erase m k)]

theorem get_set_other [DecidableEq β] (d : Nat → β) (m : Store β) {k j : Nat} (v : β) (h : j ≠ k) :
    get d (set d m k v) j = get d m j := by
  by_cases hv : v = d k
  · simp [set, hv, get_erase_other d m h]
  · simp [set, hv, get_insert_other d _ v h, get_erase_other d m h]

/-- Reading after a write, at any key. -/
theorem get_set [DecidableEq β] (d : Nat → β) (m : Store β) (k j : Nat) (v : β) :
    get d (set d m k v) j = if j = k then v else get d m j := by
  by_cases h : j = k
  · simp [h]
  · simp [h, get_set_other d m v h]

/-! ### The canonical form -/

/-- The canonical form as two facts about lists. -/
theorem wf_iff [DecidableEq β] (d : Nat → β) (m : Store β) :
    wf d m = true ↔ m.Pairwise (fun x y => x.1 < y.1) ∧ ∀ e ∈ m, e.2 ≠ d e.1 := by
  have hr : rising m = true ↔ m.Pairwise (fun x y => x.1 < y.1) := by
    induction m with
    | nil => simp [rising]
    | cons e t ih =>
      cases t with
      | nil => simp [rising]
      | cons f u =>
        simp only [rising, Bool.and_eq_true, decide_eq_true_eq, ih, List.pairwise_cons]
        constructor
        · rintro ⟨h1, h2, h3⟩
          refine ⟨?_, h2, h3⟩
          intro x hx
          rcases List.mem_cons.1 hx with rfl | hx
          · exact h1
          · exact Nat.lt_trans h1 (h2 x hx)
        · rintro ⟨h1, h2, h3⟩
          exact ⟨h1 f (by simp), h2, h3⟩
  have hn : noDefault d m = true ↔ ∀ e ∈ m, e.2 ≠ d e.1 := by
    clear hr
    induction m with
    | nil => simp [noDefault]
    | cons e t ih => simp [noDefault, ih]
  simp [wf, hr, hn]

@[simp] theorem wf_nil [DecidableEq β] (d : Nat → β) : wf d ([] : Store β) = true := rfl

/-- Any selection of the entries of a canonical store is canonical. -/
theorem wf_sublist [DecidableEq β] (d : Nat → β) {m n : Store β} (h : wf d m = true) (hs : List.Sublist n m) :
    wf d n = true := by
  rw [wf_iff] at *
  exact ⟨h.1.sublist hs, fun e he => h.2 e (hs.mem he)⟩

theorem wf_filter [DecidableEq β] (d : Nat → β) {m : Store β} (h : wf d m = true) (p : Nat × β → Bool) :
    wf d (m.filter p) = true := wf_sublist d h List.filter_sublist

/-- A canonical store against other defaults: the entries that differ from them. -/
theorem wf_rebase [DecidableEq β] {d : Nat → β} (d' : Nat → β) {m : Store β} (h : wf d m = true) :
    wf d' (m.filter fun e => e.2 != d' e.1) = true := by
  rw [wf_iff] at *
  exact ⟨h.1.sublist List.filter_sublist, fun e he => by simpa using (List.mem_filter.mp he).2⟩

theorem erase_eq_filter (k : Nat) (m : Store β) : erase k m = m.filter fun e => decide (e.1 ≠ k) := by
  induction m with
  | nil => rfl
  | cons e t ih =>
    obtain ⟨a, v⟩ := e
    by_cases h : a = k <;> simp [erase, h, ih]

theorem clearAll_eq_filter (p : Nat → Bool) (m : Store β) : clearAll p m = m.filter fun e => !(p e.1) := by
  induction m with
  | nil => rfl
  | cons e t ih =>
    obtain ⟨a, v⟩ := e
    cases h : p a <;> simp [clearAll, h, ih]

theorem wf_erase [DecidableEq β] (d : Nat → β) {m : Store β} (h : wf d m = true) (k : Nat) : wf d (erase k m) = true := by
  rw [erase_eq_filter]; exact wf_filter d h _

theorem wf_clearAll [DecidableEq β] (d : Nat → β) {m : Store β} (h : wf d m = true) (p : Nat → Bool) :
    wf d (clearAll p m) = true := by
  rw [clearAll_eq_filter]; exact wf_filter d h _

theorem mem_insert (k : Nat) (v : β) (m : Store β) (e : Nat × β) : e ∈ insert k v m ↔ e = (k, v) ∨ e ∈ m := by
  induction m with
  | nil => simp [insert]
  | cons f t ih =>
    obtain ⟨a, w⟩ := f
    by_cases h : k < a
    · simp [insert, h]
    · simp only [insert, h, if_false, List.mem_cons, ih]
      tauto

theorem insert_pairwise (k : Nat) (v : β) (m : Store β) (hm : m.Pairwise fun x y => x.1 < y.1) (hk : ∀ e ∈ m, e.1 ≠ k) :
    (insert k v m).Pairwise fun x y => x.1 < y.1 := by
  induction m with
  | nil => simp [insert]
  | cons f t ih =>
    obtain ⟨a, w⟩ := f
    have h1 := List.pairwise_cons.1 hm
    by_cases h : k < a
    · simp only [insert, h, if_true, List.pairwise_cons]
      refine ⟨?_, h1.1, h1.2⟩
      intro x hx
      rcases List.mem_cons.1 hx with rfl | hx
      · exact h
      · exact Nat.lt_trans h (h1.1 x hx)
    · simp only [insert, h, if_false, List.pairwise_cons]
      refine ⟨?_, ih h1.2 fun e he => hk e (by simp [he])⟩
      intro x hx
      rcases (mem_insert k v t x).1 hx with rfl | hx
      · have := hk (a, w) (by simp)
        show a < k
        have : a ≠ k := this
        omega
      · exact h1.1 x hx

theorem wf_set [DecidableEq β] (d : Nat → β) {m : Store β} (h : wf d m = true) (k : Nat) (v : β) :
    wf d (set d m k v) = true := by
  have he := wf_erase d h k
  by_cases hv : v = d k
  · simpa [set, hv] using he
  · rw [wf_iff] at he
    simp only [set, hv, if_false, wf_iff]
    refine ⟨insert_pairwise k v _ he.1 (not_mem_erase m k), ?_⟩
    intro e h1
    rcases (mem_insert k v _ e).1 h1 with rfl | h1
    · exact hv
    · exact he.2 e h1

theorem wf_copyWin [DecidableEq β] (d : Nat → β) {m : Store β} (h : wf d m = true) (src dst len : Nat) :
    wf d (copyWin d src dst len m) = true := by
  have key : ∀ (l : Store β) (acc : Store β), wf d acc = true →
      wf d (l.foldl (fun acc e => if src ≤ e.1 && decide (e.1 < src + len) then set d acc (e.1 - src + dst) e.2 else acc)
        acc) = true := by
    intro l
    induction l with
    | nil => intro acc ha; exact ha
    | cons e t ih =>
      intro acc ha
      refine ih _ ?_
      beta_reduce
      split
      · exact wf_set d ha _ _
      · exact ha
  exact key m _ (wf_clearAll d h _)

end Sys2Proof.Machine.Store
end

