-- ==== Sys2Proof/Laws/Keeps.lean ====
section
/-! SUPPORT. What every operation keeps (Safety: Keeps): the waiting commands, the made part of the fuses, the
canonical form of memory and registers. Here the rules that compose, and the operations everything else is built of. -/
namespace Sys2Proof.Machine

variable {s0 s t : State}

/-- What a change from `s` to `t` keeps where it touches at most the parts of `l`: the other parts, the waiting commands,
the made part of the fuses, and the canonical form of memory and registers. A set of parts is a number, bit n standing for the
n-th part in the order of `Component`. -/
structure Keeps (l : Nat) (s t : State) : Prop where
  pending : t.pending = s.pending
  made : t.fuses.made = s.fuses.made
  canon : s.canonical → t.canonical
  same : ∀ f : Component, l.testBit f.ctorIdx = false → f.same s t

/-- The number of a list of parts. -/
def mask (l : List Component) : Nat := l.foldl (fun n f => n ||| 2 ^ f.ctorIdx) 0

/-- The parts of `a` are among the parts of `b`. -/
def Sub (a b : Nat) : Prop := ∀ f : Component, a.testBit f.ctorIdx = true → b.testBit f.ctorIdx = true

theorem Sub.of {a b l : Nat} (h : Sub b l) (r : Nat.land a b = a) : Sub a l := by
  intro f hf
  refine h f ?_
  have e : (a &&& b).testBit f.ctorIdx = true := by rw [show a &&& b = a from r]; exact hf
  rw [Nat.testBit_and, hf] at e
  exact e

theorem Sub.same {a b : Nat} (h : b = a) : Sub a b := by
  cases h
  exact fun _ h => h

theorem Sub.mem {b l : Nat} (f : Component) (h : Sub b l) (r : b.testBit f.ctorIdx = true) : l.testBit f.ctorIdx = true := h f r

theorem Keeps.refl {l : Nat} (s : State) : Keeps l s s := ⟨rfl, rfl, id, fun f _ => by cases f <;> exact rfl⟩

theorem Component.same_trans {f : Component} {r s t : State} (h : f.same r s) (k : f.same s t) : f.same r t := by
  cases f <;> exact Eq.trans k h

theorem Keeps.trans {l : Nat} {r : State} (h : Keeps l r s) (k : Keeps l s t) : Keeps l r t :=
  ⟨k.pending.trans h.pending, k.made.trans h.made, fun c => k.canon (h.canon c),
    fun f m => Component.same_trans (h.same f m) (k.same f m)⟩

/-- A change of parts that the queue, the fuses, memory and the registers are not among. -/
theorem Keeps.upd {l : Nat} (h : Keeps l s0 s) {heldBits hiLatch loPend detLive : Store Word} {poison srcChanged
    canChanged detChanged nacked resync linkDead excluded ctxPoison ctxTold : Store Bool} {cores : Store Core} {groves : Store Grove}
    {parts : Store Part} {flaws srcLive srcStaged canLive canStaged refusals epXout ctx pwrHeld : Store Nat}
    {forwards : Store (List (Nat × List Nat))} {abandons : Store (List Nat)} {net waiting : List Flight} {sigs : List Sig}
    {atts : Store Att} {ports : Store Port} {tb : Tb} {mgt : Mgt} {pins : Pins} {flash : Flash}
    {pwrStage : Store (Option (Nat × Nat))} {out : List Out} {free : Nat}
    (hs : ∀ f : Component, l.testBit f.ctorIdx = false → f.same s (State.mk s.fuses s.up s.regs heldBits hiLatch loPend s.mem poison
      flaws s.hbm cores groves parts srcLive srcStaged srcChanged canLive canStaged canChanged detLive detChanged refusals nacked
      abandons resync linkDead excluded net waiting epXout sigs ctx ctxPoison atts ports forwards ctxTold tb mgt pins flash pwrStage
      pwrHeld out free s.pending)) :
    Keeps l s0 (State.mk s.fuses s.up s.regs heldBits hiLatch loPend s.mem poison flaws s.hbm cores groves parts srcLive
      srcStaged srcChanged canLive canStaged canChanged detLive detChanged refusals nacked abandons resync linkDead excluded
      net waiting epXout sigs ctx ctxPoison atts ports forwards ctxTold tb mgt pins flash pwrStage pwrHeld out free s.pending) :=
  h.trans ⟨rfl, rfl, id, hs⟩

/-- Registers changed so that they stay canonical, and perhaps the held bits with them. -/
theorem Keeps.regs {l : Nat} (h : Keeps l s0 s) (hm : l.testBit Component.regs.ctorIdx = true) {r}
    (hr : Store.wf (resetWord s.fuses s.up) s.regs = true → Store.wf (resetWord s.fuses s.up) r = true) :
    Keeps l s0 { s with regs := r } :=
  h.trans ⟨rfl, rfl, fun c => ⟨c.1, c.2.1, hr c.2.2⟩, fun f n => by
    cases f <;> first | exact absurd (hm.symm.trans n) Bool.noConfusion | exact rfl⟩

/-- Local memory changed so that it stays canonical. -/
theorem Keeps.mem {l : Nat} (h : Keeps l s0 s) (hl : l.testBit Component.mem.ctorIdx = true) {m}
    (hm : Store.wf zeroByte s.mem = true → Store.wf zeroByte m = true) : Keeps l s0 { s with mem := m } :=
  h.trans ⟨rfl, rfl, fun c => ⟨hm c.1, c.2.1, c.2.2⟩, fun f n => by
    cases f <;> first | exact absurd (hl.symm.trans n) Bool.noConfusion | exact rfl⟩

/-- HBM changed so that it stays canonical. -/
theorem Keeps.hbm {l : Nat} (h : Keeps l s0 s) (hl : l.testBit Component.hbm.ctorIdx = true) {m}
    (hm : Store.wf zeroByte s.hbm = true → Store.wf zeroByte m = true) : Keeps l s0 { s with hbm := m } :=
  h.trans ⟨rfl, rfl, fun c => ⟨c.1, hm c.2.1, c.2.2⟩, fun f n => by
    cases f <;> first | exact absurd (hl.symm.trans n) Bool.noConfusion | exact rfl⟩

/-- The fuses or the power of the chip change, and the registers with what they hold by default. -/
theorem Keeps.rebase {l : Nat} (h : Keeps l s0 s) {f u} (hf : l.testBit Component.fuses.ctorIdx = true ∨ f = s.fuses) (hu : l.testBit Component.up.ctorIdx = true ∨ u = s.up)
    (hm : l.testBit Component.regs.ctorIdx = true) (e : f.made = s0.fuses.made) :
    Keeps l s0 { s with fuses := f, up := u, regs := s.regs.filter fun e => e.2 != resetWord f u e.1 } :=
  ⟨h.pending, e, fun c => ⟨(h.canon c).1, (h.canon c).2.1, Store.wf_rebase _ (h.canon c).2.2⟩, fun g n => by
    have k := h.same g n
    cases g <;> first
      | exact absurd (hm.symm.trans n) Bool.noConfusion
      | exact (hf.resolve_left fun m => Bool.noConfusion (m.symm.trans n)).trans k
      | exact (hu.resolve_left fun m => Bool.noConfusion (m.symm.trans n)).trans k
      | exact k⟩

/-! ### Composition -/

theorem keeps_foldl {l : Nat} {α : Type} {f : State → α → State} (hf : ∀ t x, Keeps l s0 t → Keeps l s0 (f t x)) {xs : List α}
    (h : Keeps l s0 s) : Keeps l s0 (xs.foldl f s) := by
  induction xs generalizing s with
  | nil => exact h
  | cons x xs ih => exact ih (hf _ _ h)

theorem keeps_foldl_fst {l : Nat} {α β : Type} {f : State × β → α → State × β}
    (hf : ∀ t b x, Keeps l s0 t → Keeps l s0 (f (t, b) x).1) {xs : List α} {b : β} (h : Keeps l s0 s) :
    Keeps l s0 (xs.foldl f (s, b)).1 := by
  induction xs generalizing s b with
  | nil => exact h
  | cons x xs ih => exact ih (b := (f (s, b) x).2) (hf _ _ _ h)

theorem keeps_foldl_snd {l : Nat} {α β : Type} {f : β × State → α → β × State}
    (hf : ∀ t b x, Keeps l s0 t → Keeps l s0 (f (b, t) x).2) {xs : List α} {b : β} (h : Keeps l s0 s) :
    Keeps l s0 (xs.foldl f (b, s)).2 := by
  induction xs generalizing s b with
  | nil => exact h
  | cons x xs ih => exact ih (b := (f (b, s) x).1) (hf _ _ _ h)

theorem keeps_fst {l : Nat} {β : Type} {x : State × β} {b : β} (e : x = (t, b)) (h : Keeps l s0 x.1) : Keeps l s0 t := by
  rw [e] at h; exact h

theorem keeps_snd {l : Nat} {β : Type} {x : β × State} {b : β} (e : x = (b, t)) (h : Keeps l s0 x.2) : Keeps l s0 t := by
  rw [e] at h; exact h

theorem keeps_thd {l : Nat} {β γ : Type} {x : β × γ × State} {b : β} {c : γ} (e : x = (b, c, t)) (h : Keeps l s0 x.2.2) :
    Keeps l s0 t := by
  rw [e] at h; exact h

/-- Where a command completes, it keeps what every command keeps and touches at most the parts `l`. -/
def OutKeeps (l : Nat) (s : State) (o : Host.Outcome State Fault Refusal) : Prop := ∀ t, o = .next t → Keeps l s t

theorem OutKeeps.next {l : Nat} (h : Keeps l s0 t) : OutKeeps l s0 (.next t) := by
  intro u e
  cases e
  exact h

/-! ### The operations everything else is built of -/

theorem State.wr_keeps {l k w} (h : Keeps l s0 s) (hl : Sub 4 l) :
    Keeps l s0 (s.wr k w) :=
  Keeps.regs h (hl.mem _ rfl) fun c => Store.wf_set _ c _ _

theorem State.putByte_keeps {l p off b} (h : Keeps l s0 s) (hl : Sub 64 l) :
    Keeps l s0 (s.putByte p off b) :=
  Keeps.mem h (hl.mem _ rfl) fun c => Store.wf_set _ c _ _

theorem State.setHbmByte_keeps {l a b} (h : Keeps l s0 s) (hl : Sub 512 l) :
    Keeps l s0 (s.setHbmByte a b) :=
  Keeps.hbm h (hl.mem _ rfl) fun c => Store.wf_set _ c _ _

end Sys2Proof.Machine
end

