-- ==== Sys2Proof/Laws/KeepsOps.lean ====
section
/-! SUPPORT. What the operations keep (Safety: Keeps): the named operations, stopping and routing. One lemma per operation. -/
namespace Sys2Proof.Machine

variable {s0 s t : State}

/-! ### Machine/Ops -/

theorem State.wf'_keeps {K key lo n v} (h : Keeps K s0 s) (hl : Sub 4 K) :
    Keeps K s0 (State.wf' s key lo n v) := by
  unfold State.wf'
  repeat' with_reducible first
    | exact h
    | refine State.wr_keeps ?_ (hl.of rfl)

theorem State.count_keeps {K key n} (h : Keeps K s0 s) (hl : Sub 4 K) :
    Keeps K s0 (State.count s key n) := by
  unfold State.count
  repeat' with_reducible first
    | exact h
    | refine State.wr_keeps ?_ (hl.of rfl)

theorem State.countWrap_keeps {K key n} (h : Keeps K s0 s) (hl : Sub 4 K) :
    Keeps K s0 (State.countWrap s key n) := by
  unfold State.countWrap
  repeat' with_reducible first
    | exact h
    | refine State.wr_keeps ?_ (hl.of rfl)

theorem State.wr64_keeps {K lo v} (h : Keeps K s0 s) (hl : Sub 4 K) :
    Keeps K s0 (State.wr64 s lo v) := by
  unfold State.wr64
  repeat' with_reducible first
    | exact h
    | refine State.wr_keeps ?_ (hl.of rfl)

theorem State.count64_keeps {K lo n} (h : Keeps K s0 s) (hl : Sub 4 K) :
    Keeps K s0 (State.count64 s lo n) := by
  unfold State.count64
  repeat' with_reducible first
    | exact h
    | refine State.wr64_keeps ?_ (hl.of rfl)

theorem State.high_keeps {K key lo n v} (h : Keeps K s0 s) (hl : Sub 4 K) :
    Keeps K s0 (State.high s key lo n v) := by
  unfold State.high
  repeat' with_reducible first
    | exact h
    | refine State.wf'_keeps ?_ (hl.of rfl)
    | assumption
    | split

theorem State.setCore_keeps {K p c} (h : Keeps K s0 s) (hl : Sub 1024 K) :
    Keeps K s0 (State.setCore s p c) := by
  unfold State.setCore
  repeat' first
    | with_reducible exact h
    | with_reducible assumption
    | with_reducible split
    | with_reducible dsimp only
    | with_reducible refine Keeps.upd ?_ ?_
    | (intro f hf; cases f <;> first | exact absurd ((hl.mem _ rfl).symm.trans hf) Bool.noConfusion | exact rfl)

theorem State.updCore_keeps {K p f} (h : Keeps K s0 s) (hl : Sub 1024 K) :
    Keeps K s0 (State.updCore s p f) := by
  unfold State.updCore
  repeat' with_reducible first
    | exact h
    | refine State.setCore_keeps ?_ (hl.of rfl)

theorem State.setGrove_keeps {K g v} (h : Keeps K s0 s) (hl : Sub 2048 K) :
    Keeps K s0 (State.setGrove s g v) := by
  unfold State.setGrove
  repeat' first
    | with_reducible exact h
    | with_reducible assumption
    | with_reducible split
    | with_reducible dsimp only
    | with_reducible refine Keeps.upd ?_ ?_
    | (intro f hf; cases f <;> first | exact absurd ((hl.mem _ rfl).symm.trans hf) Bool.noConfusion | exact rfl)

theorem State.updGrove_keeps {K g f} (h : Keeps K s0 s) (hl : Sub 2048 K) :
    Keeps K s0 (State.updGrove s g f) := by
  unfold State.updGrove
  repeat' with_reducible first
    | exact h
    | refine State.setGrove_keeps ?_ (hl.of rfl)

theorem State.setPart_keeps {K k v} (h : Keeps K s0 s) (hl : Sub 4096 K) :
    Keeps K s0 (State.setPart s k v) := by
  unfold State.setPart
  repeat' first
    | with_reducible exact h
    | with_reducible assumption
    | with_reducible split
    | with_reducible dsimp only
    | with_reducible refine Keeps.upd ?_ ?_
    | (intro f hf; cases f <;> first | exact absurd ((hl.mem _ rfl).symm.trans hf) Bool.noConfusion | exact rfl)

theorem State.updPart_keeps {K k f} (h : Keeps K s0 s) (hl : Sub 4096 K) :
    Keeps K s0 (State.updPart s k f) := by
  unfold State.updPart
  repeat' with_reducible first
    | exact h
    | refine State.setPart_keeps ?_ (hl.of rfl)

theorem State.setAtt_keeps {K a v} (h : Keeps K s0 s) (hl : Sub 8589934592 K) :
    Keeps K s0 (State.setAtt s a v) := by
  unfold State.setAtt
  repeat' first
    | with_reducible exact h
    | with_reducible assumption
    | with_reducible split
    | with_reducible dsimp only
    | with_reducible refine Keeps.upd ?_ ?_
    | (intro f hf; cases f <;> first | exact absurd ((hl.mem _ rfl).symm.trans hf) Bool.noConfusion | exact rfl)

theorem State.updAtt_keeps {K a f} (h : Keeps K s0 s) (hl : Sub 8589934592 K) :
    Keeps K s0 (State.updAtt s a f) := by
  unfold State.updAtt
  repeat' with_reducible first
    | exact h
    | refine State.setAtt_keeps ?_ (hl.of rfl)

theorem State.setPort_keeps {K e1 v} (h : Keeps K s0 s) (hl : Sub 17179869184 K) :
    Keeps K s0 (State.setPort s e1 v) := by
  unfold State.setPort
  repeat' first
    | with_reducible exact h
    | with_reducible assumption
    | with_reducible split
    | with_reducible dsimp only
    | with_reducible refine Keeps.upd ?_ ?_
    | (intro f hf; cases f <;> first | exact absurd ((hl.mem _ rfl).symm.trans hf) Bool.noConfusion | exact rfl)

theorem State.updPort_keeps {K e1 f} (h : Keeps K s0 s) (hl : Sub 17179869184 K) :
    Keeps K s0 (State.updPort s e1 f) := by
  unfold State.updPort
  repeat' with_reducible first
    | exact h
    | refine State.setPort_keeps ?_ (hl.of rfl)

theorem State.setContext_keeps {K c v} (h : Keeps K s0 s) (hl : Sub 6442451200 K) :
    Keeps K s0 (State.setContext s c v) := by
  unfold State.setContext
  repeat' first
    | with_reducible exact h
    | with_reducible assumption
    | with_reducible split
    | with_reducible dsimp only
    | with_reducible refine Keeps.upd ?_ ?_
    | (intro f hf; cases f <;> first | exact absurd ((hl.mem _ rfl).symm.trans hf) Bool.noConfusion | exact rfl)

theorem State.meetCtx_keeps {K c} (h : Keeps K s0 s) (hl : Sub 4294967552 K) :
    Keeps K s0 (State.meetCtx s c) := by
  unfold State.meetCtx
  repeat' first
    | with_reducible exact h
    | with_reducible assumption
    | with_reducible split
    | with_reducible dsimp only
    | with_reducible refine Keeps.upd ?_ ?_
    | (intro f hf; cases f <;> first | exact absurd ((hl.mem _ rfl).symm.trans hf) Bool.noConfusion | exact rfl)

theorem State.emitOut_keeps {K o} (h : Keeps K s0 s) (hl : Sub 8796093022208 K) :
    Keeps K s0 (State.emitOut s o) := by
  unfold State.emitOut
  repeat' first
    | with_reducible exact h
    | with_reducible assumption
    | with_reducible split
    | with_reducible dsimp only
    | with_reducible refine Keeps.upd ?_ ?_
    | (intro f hf; cases f <;> first | exact absurd ((hl.mem _ rfl).symm.trans hf) Bool.noConfusion | exact rfl)

theorem State.updCores_keeps {K g f} (h : Keeps K s0 s) (hl : Sub 1024 K) :
    Keeps K s0 (State.updCores s g f) := by
  unfold State.updCores
  repeat' with_reducible first
    | exact h
    | refine State.updCore_keeps ?_ (hl.of rfl)
    | apply keeps_foldl (fun _ _ h => ?_)

theorem State.setByte_keeps {K p lo hi off b} (h : Keeps K s0 s) (hl : Sub 192 K) :
    Keeps K s0 (State.setByte s p lo hi off b) := by
  unfold State.setByte
  repeat' first
    | with_reducible exact h
    | with_reducible refine State.putByte_keeps ?_ (hl.of rfl)
    | with_reducible assumption
    | with_reducible split
    | with_reducible dsimp only
    | with_reducible refine Keeps.upd ?_ ?_
    | (intro f hf; cases f <;> first | exact absurd ((hl.mem _ rfl).symm.trans hf) Bool.noConfusion | exact rfl)

theorem State.setRun_keeps {K p lo hi off a5} (h : Keeps K s0 s) (hl : Sub 192 K) :
    Keeps K s0 (State.setRun s p lo hi off a5) := by
  induction a5 generalizing s p lo hi off with
  | nil =>
    unfold State.setRun
    repeat' with_reducible first
      | exact h
  | cons _ _ ih =>
    unfold State.setRun
    repeat' with_reducible first
      | exact h
      | apply ih
      | refine State.setByte_keeps ?_ (hl.of rfl)

theorem State.rewritten_keeps {K p off n} (h : Keeps K s0 s) (hl : Sub 256 K) :
    Keeps K s0 (State.rewritten s p off n) := by
  unfold State.rewritten
  repeat' first
    | with_reducible exact h
    | with_reducible assumption
    | with_reducible split
    | with_reducible dsimp only
    | with_reducible refine Keeps.upd ?_ ?_
    | (intro f hf; cases f <;> first | exact absurd ((hl.mem _ rfl).symm.trans hf) Bool.noConfusion | exact rfl)

theorem State.setBytes_keeps {K p off bs} (h : Keeps K s0 s) (hl : Sub 448 K) :
    Keeps K s0 (State.setBytes s p off bs) := by
  unfold State.setBytes
  repeat' with_reducible first
    | exact h
    | refine State.rewritten_keeps ?_ (hl.of rfl)
    | refine State.setRun_keeps ?_ (hl.of rfl)

theorem State.setNum_keeps {K p off n v} (h : Keeps K s0 s) (hl : Sub 448 K) :
    Keeps K s0 (State.setNum s p off n v) := by
  unfold State.setNum
  repeat' with_reducible first
    | exact h
    | refine State.setBytes_keeps ?_ (hl.of rfl)

theorem State.setWord_keeps {K p off w} (h : Keeps K s0 s) (hl : Sub 448 K) :
    Keeps K s0 (State.setWord s p off w) := by
  unfold State.setWord
  repeat' with_reducible first
    | exact h
    | refine State.setNum_keeps ?_ (hl.of rfl)

theorem State.memClear_keeps {K p} (h : Keeps K s0 s) (hl : Sub 448 K) :
    Keeps K s0 (State.memClear s p) := by
  unfold State.memClear
  refine Keeps.upd (Keeps.mem h (hl.mem _ rfl) fun c => Store.wf_clearAll _ c _) ?_
  intro f hf
  cases f <;> first | exact absurd ((hl.mem _ rfl).symm.trans hf) Bool.noConfusion | exact rfl

theorem State.setHbmBytes_keeps {K a a2} (h : Keeps K s0 s) (hl : Sub 512 K) :
    Keeps K s0 (State.setHbmBytes s a a2) := by
  induction a2 generalizing s a with
  | nil =>
    unfold State.setHbmBytes
    repeat' with_reducible first
      | exact h
  | cons _ _ ih =>
    unfold State.setHbmBytes
    repeat' with_reducible first
      | exact h
      | apply ih
      | refine State.setHbmByte_keeps ?_ (hl.of rfl)

theorem State.hbmClear_keeps {K p} (h : Keeps K s0 s) (hl : Sub 512 K) :
    Keeps K s0 (State.hbmClear s p) := Keeps.hbm h (hl.mem _ rfl) fun c => Store.wf_clearAll _ c _

theorem State.toCollectors_keeps {K msg} (h : Keeps K s0 s) (hl : Sub 8796093022208 K) :
    Keeps K s0 (State.toCollectors s msg) := by
  unfold State.toCollectors
  repeat' with_reducible first
    | exact h
    | refine State.emitOut_keeps ?_ (hl.of rfl)
    | apply keeps_foldl (fun _ _ h => ?_)

theorem State.report_keeps {K cls k} (h : Keeps K s0 s) (hl : Sub 8797166768132 K) :
    Keeps K s0 (State.report s cls k) := by
  unfold State.report
  repeat' first
    | with_reducible exact h
    | with_reducible refine State.toCollectors_keeps ?_ (hl.of rfl)
    | with_reducible refine State.updPart_keeps ?_ (hl.of rfl)
    | with_reducible refine State.count_keeps ?_ (hl.of rfl)
    | with_reducible refine State.wf'_keeps ?_ (hl.of rfl)
    | with_reducible refine State.wr_keeps ?_ (hl.of rfl)
    | with_reducible assumption
    | with_reducible split
    | with_reducible dsimp only
    | with_reducible refine Keeps.upd ?_ ?_
    | (intro f hf; cases f <;> first | exact absurd ((hl.mem _ rfl).symm.trans hf) Bool.noConfusion | exact rfl)

theorem State.mapEvent_keeps {K} (h : Keeps K s0 s) (hl : Sub 4 K) :
    Keeps K s0 (State.mapEvent s) := by
  unfold State.mapEvent
  repeat' with_reducible first
    | exact h
    | refine State.countWrap_keeps ?_ (hl.of rfl)

theorem State.setRole_keeps {K p role logical} (h : Keeps K s0 s) (hl : Sub 4 K) :
    Keeps K s0 (State.setRole s p role logical) := by
  unfold State.setRole
  repeat' with_reducible first
    | exact h
    | refine State.wr_keeps ?_ (hl.of rfl)

theorem State.setMap_keeps {K l p} (h : Keeps K s0 s) (hl : Sub 4 K) :
    Keeps K s0 (State.setMap s l p) := by
  unfold State.setMap
  repeat' with_reducible first
    | exact h
    | refine State.wr_keeps ?_ (hl.of rfl)

theorem State.unmap_keeps {K l} (h : Keeps K s0 s) (hl : Sub 4 K) :
    Keeps K s0 (State.unmap s l) := by
  unfold State.unmap
  repeat' with_reducible first
    | exact h
    | refine State.wr_keeps ?_ (hl.of rfl)

theorem State.noteSaplings_keeps {K g} (h : Keeps K s0 s) (hl : Sub 8797166770180 K) :
    Keeps K s0 (State.noteSaplings s g) := by
  unfold State.noteSaplings
  repeat' with_reducible first
    | exact h
    | refine State.report_keeps ?_ (hl.of rfl)
    | refine State.updGrove_keeps ?_ (hl.of rfl)
    | refine State.wf'_keeps ?_ (hl.of rfl)
    | assumption
    | split
    | dsimp only

theorem State.inj_keeps {K g p n} (h : Keeps K s0 s) (hl : Sub 4 K) :
    Keeps K s0 (State.inj s g p n) := by
  unfold State.inj
  repeat' with_reducible first
    | exact h
    | refine State.countWrap_keeps ?_ (hl.of rfl)

theorem State.ej_keeps {K g p n} (h : Keeps K s0 s) (hl : Sub 4 K) :
    Keeps K s0 (State.ej s g p n) := by
  unfold State.ej
  repeat' with_reducible first
    | exact h
    | refine State.countWrap_keeps ?_ (hl.of rfl)

theorem State.xout_keeps {K g p n} (h : Keeps K s0 s) (hl : Sub 4 K) :
    Keeps K s0 (State.xout s g p n) := by
  unfold State.xout
  repeat' with_reducible first
    | exact h
    | refine State.countWrap_keeps ?_ (hl.of rfl)

theorem State.xin_keeps {K g p n} (h : Keeps K s0 s) (hl : Sub 4 K) :
    Keeps K s0 (State.xin s g p n) := by
  unfold State.xin
  repeat' with_reducible first
    | exact h
    | refine State.countWrap_keeps ?_ (hl.of rfl)

theorem State.setEpX_keeps {K e1 k p v} (h : Keeps K s0 s) (hl : Sub 536870912 K) :
    Keeps K s0 (State.setEpX s e1 k p v) := by
  unfold State.setEpX
  repeat' first
    | with_reducible exact h
    | with_reducible assumption
    | with_reducible split
    | with_reducible dsimp only
    | with_reducible refine Keeps.upd ?_ ?_
    | (intro f hf; cases f <;> first | exact absurd ((hl.mem _ rfl).symm.trans hf) Bool.noConfusion | exact rfl)

theorem State.flag_keeps {K p b} (h : Keeps K s0 s) (hl : Sub 1024 K) :
    Keeps K s0 (State.flag s p b) := by
  unfold State.flag
  repeat' with_reducible first
    | exact h
    | refine State.updCore_keeps ?_ (hl.of rfl)

theorem State.freeWord_keeps {K} {z} (h : Keeps K s0 s) (e : State.freeWord s = (z, t)) (hl : Sub 17592186044416 K) :
    Keeps K s0 t := by
  unfold State.freeWord at e
  try dsimp only at e
  repeat' split at e
  all_goals with_reducible first | cases e
  repeat' first
    | with_reducible exact h
    | with_reducible assumption
    | with_reducible split
    | with_reducible dsimp only
    | with_reducible refine Keeps.upd ?_ ?_
    | (intro f hf; cases f <;> first | exact absurd ((hl.mem _ rfl).symm.trans hf) Bool.noConfusion | exact rfl)

theorem State.spoil_keeps {K p off} (h : Keeps K s0 s) (hl : Sub 17592186044864 K) :
    Keeps K s0 (State.spoil s p off) := by
  unfold State.spoil
  dsimp only
  generalize e1 : s.freeWord = x
  obtain ⟨a, s2⟩ := x
  generalize e2 : s2.freeWord = y
  obtain ⟨b, s3⟩ := y
  have k : Keeps K s0 (s3.setNum p off 8 (a.toNat + 2 ^ 32 * b.toNat)) :=
    State.setNum_keeps (State.freeWord_keeps (State.freeWord_keeps h e1 (hl.of rfl)) e2 (hl.of rfl)) (hl.of rfl)
  dsimp only
  generalize s3.setNum p off 8 (a.toNat + 2 ^ 32 * b.toNat) = s4 at k ⊢
  refine Keeps.upd k ?_
  intro f hf
  cases f <;> first | exact absurd ((hl.mem _ rfl).symm.trans hf) Bool.noConfusion | exact rfl

theorem State.readError_keeps {K p off err} (h : Keeps K s0 s) (hl : Sub 26389352812996 K) :
    Keeps K s0 (State.readError s p off err) := by
  unfold State.readError
  repeat' with_reducible first
    | exact h
    | refine State.spoil_keeps ?_ (hl.of rfl)
    | refine State.report_keeps ?_ (hl.of rfl)
    | refine State.count_keeps ?_ (hl.of rfl)
    | assumption
    | split

theorem State.meet_keeps {K p off n} (h : Keeps K s0 s) (hl : Sub 26389352812996 K) :
    Keeps K s0 (State.meet s p off n) := by
  unfold State.meet
  repeat' first
    | with_reducible exact h
    | with_reducible refine State.readError_keeps ?_ (hl.of rfl)
    | with_reducible apply keeps_foldl (fun _ _ h => ?_)
    | with_reducible assumption
    | with_reducible split
    | with_reducible dsimp only
    | with_reducible refine Keeps.upd ?_ ?_
    | (intro f hf; cases f <;> first | exact absurd ((hl.mem _ rfl).symm.trans hf) Bool.noConfusion | exact rfl)

theorem State.stepRead_keeps {K p off len} (h : Keeps K s0 s) (hl : Sub 26389352814020 K) :
    Keeps K s0 (State.stepRead s p off len) := by
  unfold State.stepRead
  repeat' with_reducible first
    | exact h
    | refine State.meet_keeps ?_ (hl.of rfl)
    | refine State.flag_keeps ?_ (hl.of rfl)
    | assumption
    | split
    | dsimp only

theorem State.stepNum_keeps {K p off n v} (h : Keeps K s0 s) (hl : Sub 26389352814020 K) :
    Keeps K s0 (State.stepNum s p off n v) := by
  unfold State.stepNum
  repeat' with_reducible first
    | exact h
    | refine State.stepRead_keeps ?_ (hl.of rfl)
    | refine State.setNum_keeps ?_ (hl.of rfl)
    | assumption
    | split

theorem State.updTb_keeps {K f} (h : Keeps K s0 s) (hl : Sub 137438953472 K) :
    Keeps K s0 (State.updTb s f) := by
  unfold State.updTb
  repeat' first
    | with_reducible exact h
    | with_reducible assumption
    | with_reducible split
    | with_reducible dsimp only
    | with_reducible refine Keeps.upd ?_ ?_
    | (intro f hf; cases f <;> first | exact absurd ((hl.mem _ rfl).symm.trans hf) Bool.noConfusion | exact rfl)

theorem State.freeNat_keeps {K} {z} (h : Keeps K s0 s) (e : State.freeNat s = (z, t)) (hl : Sub 17592186044416 K) :
    Keeps K s0 t := by
  unfold State.freeNat at e
  try dsimp only at e
  repeat' split at e
  all_goals with_reducible first | cases e
  repeat' first
    | with_reducible exact h
    | with_reducible assumption
    | with_reducible split
    | with_reducible dsimp only
    | with_reducible refine Keeps.upd ?_ ?_
    | (intro f hf; cases f <;> first | exact absurd ((hl.mem _ rfl).symm.trans hf) Bool.noConfusion | exact rfl)

theorem State.logShow_keeps {K g} (h : Keeps K s0 s) (hl : Sub 4 K) :
    Keeps K s0 (State.logShow s g) := by
  unfold State.logShow
  repeat' with_reducible first
    | exact h
    | refine State.wf'_keeps ?_ (hl.of rfl)
    | refine State.wr_keeps ?_ (hl.of rfl)

theorem State.synShow_keeps {K p} (h : Keeps K s0 s) (hl : Sub 4 K) :
    Keeps K s0 (State.synShow s p) := by
  unfold State.synShow
  repeat' with_reducible first
    | exact h
    | refine State.wf'_keeps ?_ (hl.of rfl)

/-! ### Machine/PowerOps -/

theorem State.setPw_keeps {K d st} (h : Keeps K s0 s) (hl : Sub 4 K) :
    Keeps K s0 (State.setPw s d st) := by
  unfold State.setPw
  repeat' with_reducible first
    | exact h
    | refine State.wf'_keeps ?_ (hl.of rfl)

theorem State.setStage_keeps {K d v} (h : Keeps K s0 s) (hl : Sub 2199023255552 K) :
    Keeps K s0 (State.setStage s d v) := by
  unfold State.setStage
  repeat' first
    | with_reducible exact h
    | with_reducible assumption
    | with_reducible split
    | with_reducible dsimp only
    | with_reducible refine Keeps.upd ?_ ?_
    | (intro f hf; cases f <;> first | exact absurd ((hl.mem _ rfl).symm.trans hf) Bool.noConfusion | exact rfl)

theorem State.holdReq_keeps {K d v shown} (h : Keeps K s0 s) (hl : Sub 4398046511108 K) :
    Keeps K s0 (State.holdReq s d v shown) := by
  unfold State.holdReq
  repeat' first
    | with_reducible exact h
    | with_reducible refine State.wf'_keeps ?_ (hl.of rfl)
    | with_reducible assumption
    | with_reducible split
    | with_reducible dsimp only
    | with_reducible refine Keeps.upd ?_ ?_
    | (intro f hf; cases f <;> first | exact absurd ((hl.mem _ rfl).symm.trans hf) Bool.noConfusion | exact rfl)

theorem State.setStack_keeps {K st v} (h : Keeps K s0 s) (hl : Sub 4 K) :
    Keeps K s0 (State.setStack s st v) := by
  unfold State.setStack
  repeat' with_reducible first
    | exact h
    | refine State.wf'_keeps ?_ (hl.of rfl)

theorem State.beginWake_keeps {K d} (h : Keeps K s0 s) (hl : Sub 2199023255556 K) :
    Keeps K s0 (State.beginWake s d) := by
  unfold State.beginWake
  repeat' with_reducible first
    | exact h
    | refine State.setStack_keeps ?_ (hl.of rfl)
    | refine State.setStage_keeps ?_ (hl.of rfl)
    | refine State.setPw_keeps ?_ (hl.of rfl)
    | assumption
    | split
    | dsimp only

theorem State.askOn1_keeps {K d} (h : Keeps K s0 s) (hl : Sub 6597069766660 K) :
    Keeps K s0 (State.askOn1 s d) := by
  unfold State.askOn1
  repeat' with_reducible first
    | exact h
    | refine State.beginWake_keeps ?_ (hl.of rfl)
    | refine State.holdReq_keeps ?_ (hl.of rfl)
    | refine State.wf'_keeps ?_ (hl.of rfl)
    | assumption
    | split
    | dsimp only

theorem State.powerOn_keeps {K d} (h : Keeps K s0 s) (hl : Sub 6597069766660 K) :
    Keeps K s0 (State.powerOn s d) := by
  unfold State.powerOn
  repeat' with_reducible first
    | exact h
    | refine State.askOn1_keeps ?_ (hl.of rfl)
    | apply keeps_foldl (fun _ _ h => ?_)
    | assumption
    | split

theorem State.beginEntry_keeps {K d target} (h : Keeps K s0 s) (hl : Sub 2199023255556 K) :
    Keeps K s0 (State.beginEntry s d target) := by
  unfold State.beginEntry
  repeat' with_reducible first
    | exact h
    | refine State.setStage_keeps ?_ (hl.of rfl)
    | refine State.setPw_keeps ?_ (hl.of rfl)

theorem State.askDown_keeps {K d target} (h : Keeps K s0 s) (hl : Sub 6597069766660 K) :
    Keeps K s0 (State.askDown s d target) := by
  unfold State.askDown
  repeat' with_reducible first
    | exact h
    | refine State.beginEntry_keeps ?_ (hl.of rfl)
    | refine State.holdReq_keeps ?_ (hl.of rfl)
    | refine State.wf'_keeps ?_ (hl.of rfl)
    | assumption
    | split

theorem State.wakeCore_keeps {K p} (h : Keeps K s0 s) (hl : Sub 6597069766660 K) :
    Keeps K s0 (State.wakeCore s p) := by
  unfold State.wakeCore
  repeat' with_reducible first
    | exact h
    | refine State.powerOn_keeps ?_ (hl.of rfl)

theorem State.bankResult_keeps {K p b r} (h : Keeps K s0 s) (hl : Sub 4 K) :
    Keeps K s0 (State.bankResult s p b r) := by
  unfold State.bankResult
  repeat' with_reducible first
    | exact h
    | refine State.wr_keeps ?_ (hl.of rfl)

theorem State.handBank_keeps {K p b own} (h : Keeps K s0 s) (hl : Sub 1028 K) :
    Keeps K s0 (State.handBank s p b own) := by
  unfold State.handBank
  repeat' with_reducible first
    | exact h
    | refine State.bankResult_keeps ?_ (hl.of rfl)
    | refine State.updCore_keeps ?_ (hl.of rfl)
    | refine State.wf'_keeps ?_ (hl.of rfl)

theorem State.bankEffect_keeps {K p b} (h : Keeps K s0 s) (hl : Sub 1028 K) :
    Keeps K s0 (State.bankEffect s p b) := by
  unfold State.bankEffect
  repeat' with_reducible first
    | exact h
    | refine State.updCore_keeps ?_ (hl.of rfl)
    | refine State.wf'_keeps ?_ (hl.of rfl)
    | assumption
    | split

theorem State.moveBank_keeps {K p own b} (h : Keeps K s0 s) (hl : Sub 1028 K) :
    Keeps K s0 (State.moveBank s p own b) := by
  unfold State.moveBank
  repeat' with_reducible first
    | exact h
    | refine State.bankEffect_keeps ?_ (hl.of rfl)
    | refine State.handBank_keeps ?_ (hl.of rfl)

theorem State.moveBanks_keeps {K p own} (h : Keeps K s0 s) (hl : Sub 1028 K) :
    Keeps K s0 (State.moveBanks s p own) := by
  unfold State.moveBanks
  repeat' with_reducible first
    | exact h
    | refine State.moveBank_keeps ?_ (hl.of rfl)
    | apply keeps_foldl (fun _ _ h => ?_)

/-! ### Machine/RegWrite -/

theorem State.setHeld_keeps {K key w} (h : Keeps K s0 s) (hl : Sub 8 K) :
    Keeps K s0 (State.setHeld s key w) := by
  unfold State.setHeld
  repeat' first
    | with_reducible exact h
    | with_reducible assumption
    | with_reducible split
    | with_reducible dsimp only
    | with_reducible refine Keeps.upd ?_ ?_
    | (intro f hf; cases f <;> first | exact absurd ((hl.mem _ rfl).symm.trans hf) Bool.noConfusion | exact rfl)

theorem State.maskWrite_keeps {K key v locked} (h : Keeps K s0 s) (hl : Sub 12 K) :
    Keeps K s0 (State.maskWrite s key v locked) := by
  unfold State.maskWrite
  repeat' with_reducible first
    | exact h
    | refine State.setHeld_keeps ?_ (hl.of rfl)
    | refine State.wr_keeps ?_ (hl.of rfl)
    | assumption
    | split

theorem State.holdLo_keeps {K lo v} (h : Keeps K s0 s) (hl : Sub 32 K) :
    Keeps K s0 (State.holdLo s lo v) := by
  unfold State.holdLo
  repeat' first
    | with_reducible exact h
    | with_reducible assumption
    | with_reducible split
    | with_reducible dsimp only
    | with_reducible refine Keeps.upd ?_ ?_
    | (intro f hf; cases f <;> first | exact absurd ((hl.mem _ rfl).symm.trans hf) Bool.noConfusion | exact rfl)

theorem State.dropLo_keeps {K lo} (h : Keeps K s0 s) (hl : Sub 32 K) :
    Keeps K s0 (State.dropLo s lo) := by
  unfold State.dropLo
  repeat' first
    | with_reducible exact h
    | with_reducible assumption
    | with_reducible split
    | with_reducible dsimp only
    | with_reducible refine Keeps.upd ?_ ?_
    | (intro f hf; cases f <;> first | exact absurd ((hl.mem _ rfl).symm.trans hf) Bool.noConfusion | exact rfl)

/-! ### Machine/Egress -/

theorem State.ringError_keeps {K a kind r cause} (h : Keeps K s0 s) (hl : Sub 8797166768132 K) :
    Keeps K s0 (State.ringError s a kind r cause) := by
  unfold State.ringError
  repeat' with_reducible first
    | exact h
    | refine State.report_keeps ?_ (hl.of rfl)
    | refine State.wr_keeps ?_ (hl.of rfl)
    | assumption
    | split
    | dsimp only

theorem State.toHost_keeps {K a addr bytes} (h : Keeps K s0 s) (hl : Sub 8796093022208 K) :
    Keeps K s0 (State.toHost s a addr bytes) := by
  unfold State.toHost
  repeat' with_reducible first
    | exact h
    | refine State.emitOut_keeps ?_ (hl.of rfl)
    | assumption
    | split

theorem State.ringIrq_keeps {K a b} (h : Keeps K s0 s) (hl : Sub 8804682956800 K) :
    Keeps K s0 (State.ringIrq s a b) := by
  unfold State.ringIrq
  repeat' with_reducible first
    | exact h
    | refine State.emitOut_keeps ?_ (hl.of rfl)
    | refine State.updAtt_keeps ?_ (hl.of rfl)
    | assumption
    | split
    | dsimp only

theorem State.shadow_keeps {K a kind r} (h : Keeps K s0 s) (hl : Sub 8804682956800 K) :
    Keeps K s0 (State.shadow s a kind r) := by
  unfold State.shadow
  repeat' with_reducible first
    | exact h
    | refine State.ringIrq_keeps ?_ (hl.of rfl)
    | refine State.toHost_keeps ?_ (hl.of rfl)
    | assumption
    | split
    | dsimp only

theorem State.putUnits_keeps {K a r units} (h : Keeps K s0 s) (hl : Sub 8796093022212 K) :
    Keeps K s0 (State.putUnits s a r units) := by
  unfold State.putUnits
  repeat' with_reducible first
    | exact h
    | refine State.toHost_keeps ?_ (hl.of rfl)
    | refine State.wr_keeps ?_ (hl.of rfl)

theorem State.padRing_keeps {K a r len} (h : Keeps K s0 s) (hl : Sub 8796093022212 K) :
    Keeps K s0 (State.padRing s a r len) := by
  unfold State.padRing
  repeat' with_reducible first
    | exact h
    | refine State.toHost_keeps ?_ (hl.of rfl)
    | refine State.wr_keeps ?_ (hl.of rfl)
    | assumption
    | split

theorem State.putFit_keeps {K a r units} (h : Keeps K s0 s) (hl : Sub 8796093022212 K) :
    Keeps K s0 (State.putFit s a r units) := by
  unfold State.putFit
  repeat' with_reducible first
    | exact h
    | refine State.padRing_keeps ?_ (hl.of rfl)
    | refine State.putUnits_keeps ?_ (hl.of rfl)

theorem State.ringDrop_keeps {K a r full} (h : Keeps K s0 s) (hl : Sub 8805756702724 K) :
    Keeps K s0 (State.ringDrop s a r full) := by
  unfold State.ringDrop
  repeat' with_reducible first
    | exact h
    | refine State.report_keeps ?_ (hl.of rfl)
    | refine State.setAtt_keeps ?_ (hl.of rfl)
    | refine State.count_keeps ?_ (hl.of rfl)
    | assumption
    | split
    | dsimp only

theorem State.payLoss_keeps {K a r} (h : Keeps K s0 s) (hl : Sub 8804682956804 K) :
    Keeps K s0 (State.payLoss s a r) := by
  unfold State.payLoss
  repeat' with_reducible first
    | exact h
    | refine State.putFit_keeps ?_ (hl.of rfl)
    | refine State.updAtt_keeps ?_ (hl.of rfl)
    | assumption
    | split

theorem State.putRecord_keeps {K a r units} {z} (h : Keeps K s0 s) (e : State.putRecord s a r units = (t, z)) (hl : Sub 8805756702724 K) :
    Keeps K s0 t := by
  unfold State.putRecord at e
  try dsimp only at e
  repeat' split at e
  all_goals with_reducible first | cases e
  repeat' with_reducible first
    | exact h
    | refine State.ringDrop_keeps ?_ (hl.of rfl)
    | refine State.putFit_keeps ?_ (hl.of rfl)

theorem State.ringEmit_keeps {K a r units} {z} (h : Keeps K s0 s) (e : State.ringEmit s a r units = (t, z)) (hl : Sub 8805756702724 K) :
    Keeps K s0 t := by
  unfold State.ringEmit at e
  try dsimp only at e
  repeat' split at e
  all_goals with_reducible first | refine State.putRecord_keeps ?_ e (hl.of rfl) | cases e
  repeat' with_reducible first
    | exact h
    | refine State.payLoss_keeps ?_ (hl.of rfl)
    | refine State.ringDrop_keeps ?_ (hl.of rfl)

theorem State.ringSend_keeps {K a r units} {z} (h : Keeps K s0 s) (e : State.ringSend s a r units = (t, z)) (hl : Sub 8805756702724 K) :
    Keeps K s0 t := by
  unfold State.ringSend at e
  try dsimp only at e
  repeat' split at e
  all_goals with_reducible first | refine State.ringEmit_keeps ?_ e (hl.of rfl) | cases e
  repeat' with_reducible first
    | exact h
    | refine State.shadow_keeps ?_ (hl.of rfl)
    | refine State.ringEmit_keeps ?_ (by with_reducible assumption) (hl.of rfl)
    | assumption
    | split
    | dsimp only
    | refine State.ringEmit_keeps ?_ Prod.mk.eta.symm (hl.of rfl)

theorem State.formFrame_keeps {K e1 c kind step stamp early retract recs} {z} (h : Keeps K s0 s) (e : State.formFrame s e1 c kind step stamp early retract recs = (z, t)) (hl : Sub 6442451200 K) :
    Keeps K s0 t := by
  unfold State.formFrame at e
  try dsimp only at e
  repeat' split at e
  all_goals with_reducible first | cases e
  repeat' with_reducible first
    | exact h
    | refine State.setContext_keeps ?_ (hl.of rfl)

theorem State.queueFrame_keeps {K e1 f} (h : Keeps K s0 s) (hl : Sub 17179869188 K) :
    Keeps K s0 (State.queueFrame s e1 f) := by
  unfold State.queueFrame
  repeat' with_reducible first
    | exact h
    | refine State.updPort_keeps ?_ (hl.of rfl)
    | refine State.wf'_keeps ?_ (hl.of rfl)
    | assumption
    | split
    | dsimp only

theorem State.sendFrame_keeps {K e1 c kind step stamp early retract recs} (h : Keeps K s0 s) (hl : Sub 23622320388 K) :
    Keeps K s0 (State.sendFrame s e1 c kind step stamp early retract recs) := by
  unfold State.sendFrame
  repeat' with_reducible first
    | exact h
    | refine State.queueFrame_keeps ?_ (hl.of rfl)
    | refine State.updPort_keeps ?_ (hl.of rfl)
    | refine State.formFrame_keeps ?_ (by with_reducible assumption) (hl.of rfl)
    | assumption
    | split
    | dsimp only
    | refine State.formFrame_keeps ?_ Prod.mk.eta.symm (hl.of rfl)

theorem State.flushEarly_keeps {K e1 c} (h : Keeps K s0 s) (hl : Sub 23622320388 K) :
    Keeps K s0 (State.flushEarly s e1 c) := by
  unfold State.flushEarly
  repeat' with_reducible first
    | exact h
    | refine State.sendFrame_keeps ?_ (hl.of rfl)
    | refine State.updPort_keeps ?_ (hl.of rfl)
    | assumption
    | split

theorem State.flushAllEarly_keeps {K e1} (h : Keeps K s0 s) (hl : Sub 23622320388 K) :
    Keeps K s0 (State.flushAllEarly s e1) := by
  unfold State.flushAllEarly
  repeat' with_reducible first
    | exact h
    | refine State.flushEarly_keeps ?_ (hl.of rfl)
    | apply keeps_foldl (fun _ _ h => ?_)

/-! ### Machine/Stop -/

theorem State.disarm_keeps {K ch} (h : Keeps K s0 s) (hl : Sub 4 K) :
    Keeps K s0 (State.disarm s ch) := by
  unfold State.disarm
  repeat' with_reducible first
    | exact h
    | refine State.wf'_keeps ?_ (hl.of rfl)

theorem State.showHalt_keeps {K k} (h : Keeps K s0 s) (hl : Sub 4 K) :
    Keeps K s0 (State.showHalt s k) := by
  unfold State.showHalt
  repeat' with_reducible first
    | exact h
    | refine State.wf'_keeps ?_ (hl.of rfl)
    | apply keeps_foldl (fun _ _ h => ?_)

theorem State.haltNow_keeps {K k} (h : Keeps K s0 s) (hl : Sub 4100 K) :
    Keeps K s0 (State.haltNow s k) := by
  unfold State.haltNow
  repeat' with_reducible first
    | exact h
    | refine State.showHalt_keeps ?_ (hl.of rfl)
    | refine State.updPart_keeps ?_ (hl.of rfl)
    | assumption
    | split

theorem State.disarmPart_keeps {K k} (h : Keeps K s0 s) (hl : Sub 4 K) :
    Keeps K s0 (State.disarmPart s k) := by
  unfold State.disarmPart
  repeat' with_reducible first
    | exact h
    | refine State.disarm_keeps ?_ (hl.of rfl)
    | apply keeps_foldl (fun _ _ h => ?_)

theorem State.hdlState_keeps {K p st} (h : Keeps K s0 s) (hl : Sub 4 K) :
    Keeps K s0 (State.hdlState s p st) := by
  unfold State.hdlState
  repeat' with_reducible first
    | exact h
    | refine State.wf'_keeps ?_ (hl.of rfl)

theorem State.emptyQueues_keeps {K p} (h : Keeps K s0 s) (hl : Sub 1028 K) :
    Keeps K s0 (State.emptyQueues s p) := by
  unfold State.emptyQueues
  repeat' with_reducible first
    | exact h
    | refine State.hdlState_keeps ?_ (hl.of rfl)
    | refine State.updCore_keeps ?_ (hl.of rfl)
    | refine State.wf'_keeps ?_ (hl.of rfl)
    | apply keeps_foldl (fun _ _ h => ?_)

theorem State.idleNeurons_keeps {K p} (h : Keeps K s0 s) (hl : Sub 4 K) :
    Keeps K s0 (State.idleNeurons s p) := by
  unfold State.idleNeurons
  repeat' with_reducible first
    | exact h
    | refine State.wf'_keeps ?_ (hl.of rfl)
    | assumption
    | split
    | dsimp only

theorem State.quiet_keeps {K p} (h : Keeps K s0 s) (hl : Sub 1028 K) :
    Keeps K s0 (State.quiet s p) := by
  unfold State.quiet
  repeat' with_reducible first
    | exact h
    | refine State.idleNeurons_keeps ?_ (hl.of rfl)
    | refine State.emptyQueues_keeps ?_ (hl.of rfl)
    | refine State.updCore_keeps ?_ (hl.of rfl)
    | refine State.wf'_keeps ?_ (hl.of rfl)
    | refine State.wr_keeps ?_ (hl.of rfl)

theorem State.retractEarly_keeps {K a h2} (h : Keeps K s0 s) (hl : Sub 8805756702724 K) :
    Keeps K s0 (State.retractEarly s a h2) := by
  unfold State.retractEarly
  repeat' with_reducible first
    | exact h
    | refine State.count_keeps ?_ (hl.of rfl)
    | refine State.ringSend_keeps ?_ (by with_reducible assumption) (hl.of rfl)
    | assumption
    | split
    | dsimp only
    | refine State.ringSend_keeps ?_ Prod.mk.eta.symm (hl.of rfl)

theorem State.retractEarlyPort_keeps {K e1 h2} (h : Keeps K s0 s) (hl : Sub 23622320388 K) :
    Keeps K s0 (State.retractEarlyPort s e1 h2) := by
  unfold State.retractEarlyPort
  repeat' with_reducible first
    | exact h
    | refine State.flushEarly_keeps ?_ (hl.of rfl)
    | refine State.sendFrame_keeps ?_ (hl.of rfl)
    | refine State.count_keeps ?_ (hl.of rfl)

theorem State.stopEgress_keeps {K k} (h : Keeps K s0 s) (hl : Sub 8829379023108 K) :
    Keeps K s0 (State.stopEgress s k) := by
  unfold State.stopEgress
  repeat' with_reducible first
    | exact h
    | refine State.retractEarlyPort_keeps ?_ (hl.of rfl)
    | refine State.retractEarly_keeps ?_ (hl.of rfl)
    | refine State.updPort_keeps ?_ (hl.of rfl)
    | refine State.updAtt_keeps ?_ (hl.of rfl)
    | refine State.wf'_keeps ?_ (hl.of rfl)
    | apply keeps_foldl (fun _ _ h => ?_)

theorem State.endSapling_keeps {K q} (h : Keeps K s0 s) (hl : Sub 1028 K) :
    Keeps K s0 (State.endSapling s q) := by
  unfold State.endSapling
  repeat' with_reducible first
    | exact h
    | refine State.setRole_keeps ?_ (hl.of rfl)
    | refine State.mapEvent_keeps ?_ (hl.of rfl)
    | refine State.updCore_keeps ?_ (hl.of rfl)
    | refine State.wf'_keeps ?_ (hl.of rfl)
    | assumption
    | split

theorem State.endReplay_keeps {K g} (h : Keeps K s0 s) (hl : Sub 8797166771204 K) :
    Keeps K s0 (State.endReplay s g) := by
  unfold State.endReplay
  repeat' with_reducible first
    | exact h
    | refine State.endSapling_keeps ?_ (hl.of rfl)
    | refine State.noteSaplings_keeps ?_ (hl.of rfl)
    | refine State.updGrove_keeps ?_ (hl.of rfl)
    | refine State.wf'_keeps ?_ (hl.of rfl)
    | assumption
    | split

theorem State.stopGrove_keeps {K g} (h : Keeps K s0 s) (hl : Sub 8797166771204 K) :
    Keeps K s0 (State.stopGrove s g) := by
  unfold State.stopGrove
  repeat' with_reducible first
    | exact h
    | refine State.endReplay_keeps ?_ (hl.of rfl)
    | refine State.logShow_keeps ?_ (hl.of rfl)
    | refine State.updGrove_keeps ?_ (hl.of rfl)
    | refine State.wf'_keeps ?_ (hl.of rfl)

theorem State.stepState_keeps {K k st} (h : Keeps K s0 s) (hl : Sub 4 K) :
    Keeps K s0 (State.stepState s k st) := by
  unfold State.stepState
  repeat' with_reducible first
    | exact h
    | refine State.wf'_keeps ?_ (hl.of rfl)

theorem State.stopDense_keeps {K cores} (h : Keeps K s0 s) (hl : Sub 8589934592 K) :
    Keeps K s0 (State.stopDense s cores) := by
  unfold State.stopDense
  repeat' with_reducible first
    | exact h
    | refine State.updAtt_keeps ?_ (hl.of rfl)
    | apply keeps_foldl (fun _ _ h => ?_)
    | assumption
    | split

theorem State.stopEffects_keeps {K k} (h : Keeps K s0 s) (hl : Sub 8829513243908 K) :
    Keeps K s0 (State.stopEffects s k) := by
  unfold State.stopEffects
  repeat' first
    | with_reducible exact h
    | with_reducible refine State.stopDense_keeps ?_ (hl.of rfl)
    | with_reducible refine State.stopGrove_keeps ?_ (hl.of rfl)
    | with_reducible refine State.stopEgress_keeps ?_ (hl.of rfl)
    | with_reducible refine State.quiet_keeps ?_ (hl.of rfl)
    | with_reducible refine State.disarmPart_keeps ?_ (hl.of rfl)
    | with_reducible refine State.haltNow_keeps ?_ (hl.of rfl)
    | with_reducible refine State.updPart_keeps ?_ (hl.of rfl)
    | with_reducible refine State.wf'_keeps ?_ (hl.of rfl)
    | with_reducible apply keeps_foldl (fun _ _ h => ?_)
    | with_reducible assumption
    | with_reducible split
    | with_reducible dsimp only
    | with_reducible refine Keeps.upd ?_ ?_
    | (intro f hf; cases f <;> first | exact absurd ((hl.mem _ rfl).symm.trans hf) Bool.noConfusion | exact rfl)

theorem State.stopNow_keeps {K k cause} (h : Keeps K s0 s) (hl : Sub 8829513243908 K) :
    Keeps K s0 (State.stopNow s k cause) := by
  unfold State.stopNow
  repeat' with_reducible first
    | exact h
    | refine State.stopEffects_keeps ?_ (hl.of rfl)
    | refine State.report_keeps ?_ (hl.of rfl)
    | refine State.wf'_keeps ?_ (hl.of rfl)
    | refine State.wr_keeps ?_ (hl.of rfl)

theorem State.setDisabled_keeps {K k} (h : Keeps K s0 s) (hl : Sub 4 K) :
    Keeps K s0 (State.setDisabled s k) := by
  unfold State.setDisabled
  repeat' with_reducible first
    | exact h
    | refine State.stepState_keeps ?_ (hl.of rfl)
    | refine State.hdlState_keeps ?_ (hl.of rfl)
    | refine State.wf'_keeps ?_ (hl.of rfl)
    | apply keeps_foldl (fun _ _ h => ?_)

theorem State.endDisable_keeps {K k} (h : Keeps K s0 s) (hl : Sub 4100 K) :
    Keeps K s0 (State.endDisable s k) := by
  unfold State.endDisable
  repeat' with_reducible first
    | exact h
    | refine State.setDisabled_keeps ?_ (hl.of rfl)
    | refine State.stepState_keeps ?_ (hl.of rfl)
    | refine State.updPart_keeps ?_ (hl.of rfl)
    | refine State.wf'_keeps ?_ (hl.of rfl)
    | assumption
    | split

theorem State.disableNow_keeps {K k} (h : Keeps K s0 s) (hl : Sub 8829513243908 K) :
    Keeps K s0 (State.disableNow s k) := by
  unfold State.disableNow
  repeat' with_reducible first
    | exact h
    | refine State.endDisable_keeps ?_ (hl.of rfl)
    | refine State.stopNow_keeps ?_ (hl.of rfl)
    | refine State.stopEffects_keeps ?_ (hl.of rfl)
    | assumption
    | split

theorem State.stopPart_keeps {K k cause} (h : Keeps K s0 s) (hl : Sub 8829513243908 K) :
    Keeps K s0 (State.stopPart s k cause) := by
  unfold State.stopPart
  repeat' with_reducible first
    | exact h
    | refine State.stopNow_keeps ?_ (hl.of rfl)
    | refine State.updPart_keeps ?_ (hl.of rfl)
    | assumption
    | split

theorem State.stopWhere_keeps {K p cause} (h : Keeps K s0 s) (hl : Sub 8829513243908 K) :
    Keeps K s0 (State.stopWhere s p cause) := by
  unfold State.stopWhere
  repeat' with_reducible first
    | exact h
    | refine State.stopPart_keeps ?_ (hl.of rfl)
    | apply keeps_foldl (fun _ _ h => ?_)

theorem State.fabricLoss_keeps {K k parity n} (h : Keeps K s0 s) (hl : Sub 8829513243908 K) :
    Keeps K s0 (State.fabricLoss s k parity n) := by
  unfold State.fabricLoss
  repeat' with_reducible first
    | exact h
    | refine State.stopPart_keeps ?_ (hl.of rfl)
    | refine State.report_keeps ?_ (hl.of rfl)
    | refine State.count_keeps ?_ (hl.of rfl)

theorem State.stopCores_keeps {K g} (h : Keeps K s0 s) (hl : Sub 3076 K) :
    Keeps K s0 (State.stopCores s g) := by
  unfold State.stopCores
  repeat' with_reducible first
    | exact h
    | refine State.quiet_keeps ?_ (hl.of rfl)
    | refine State.updGrove_keeps ?_ (hl.of rfl)
    | apply keeps_foldl (fun _ _ h => ?_)

/-! ### Machine/Routing -/

theorem State.portCount_keeps {K k port off n} (h : Keeps K s0 s) (hl : Sub 4 K) :
    Keeps K s0 (State.portCount s k port off n) := by
  unfold State.portCount
  repeat' with_reducible first
    | exact h
    | refine State.count_keeps ?_ (hl.of rfl)
    | assumption
    | split

theorem State.qHigh_keeps {K n q v} (h : Keeps K s0 s) (hl : Sub 4 K) :
    Keeps K s0 (State.qHigh s n q v) := by
  unfold State.qHigh
  repeat' with_reducible first
    | exact h
    | refine State.high_keeps ?_ (hl.of rfl)
    | apply keeps_foldl (fun _ _ h => ?_)
    | assumption
    | split

theorem State.put_keeps {K f} (h : Keeps K s0 s) (hl : Sub 134217728 K) :
    Keeps K s0 (State.put s f) := by
  unfold State.put
  repeat' first
    | with_reducible exact h
    | with_reducible assumption
    | with_reducible split
    | with_reducible dsimp only
    | with_reducible refine Keeps.upd ?_ ?_
    | (intro f hf; cases f <;> first | exact absurd ((hl.mem _ rfl).symm.trans hf) Bool.noConfusion | exact rfl)

theorem State.abandon_keeps {K f} (h : Keeps K s0 s) (hl : Sub 8829513243908 K) :
    Keeps K s0 (State.abandon s f) := by
  unfold State.abandon
  repeat' with_reducible first
    | exact h
    | refine State.fabricLoss_keeps ?_ (hl.of rfl)
    | assumption
    | split

theorem State.sendOn_keeps {K k port f} (h : Keeps K s0 s) (hl : Sub 8829513243908 K) :
    Keeps K s0 (State.sendOn s k port f) := by
  unfold State.sendOn
  repeat' with_reducible first
    | exact h
    | refine State.abandon_keeps ?_ (hl.of rfl)
    | refine State.put_keeps ?_ (hl.of rfl)
    | refine State.count64_keeps ?_ (hl.of rfl)
    | assumption
    | split

theorem State.sentL_keeps {K k b} (h : Keeps K s0 s) (hl : Sub 4 K) :
    Keeps K s0 (State.sentL s k b) := by
  unfold State.sentL
  repeat' with_reducible first
    | exact h
    | refine State.count64_keeps ?_ (hl.of rfl)

theorem State.discard_keeps {K k f} (h : Keeps K s0 s) (hl : Sub 4 K) :
    Keeps K s0 (State.discard s k f) := by
  unfold State.discard
  repeat' with_reducible first
    | exact h
    | refine State.ej_keeps ?_ (hl.of rfl)
    | refine State.count_keeps ?_ (hl.of rfl)
    | assumption
    | split

theorem State.enter_keeps {K f} (h : Keeps K s0 s) (hl : Sub 8829513243908 K) :
    Keeps K s0 (State.enter s f) := by
  unfold State.enter
  repeat' with_reducible first
    | exact h
    | refine State.sendOn_keeps ?_ (hl.of rfl)
    | refine State.put_keeps ?_ (hl.of rfl)
    | refine State.qHigh_keeps ?_ (hl.of rfl)
    | assumption
    | split

theorem State.inject_keeps {K f} (h : Keeps K s0 s) (hl : Sub 8829781679364 K) :
    Keeps K s0 (State.inject s f) := by
  unfold State.inject
  repeat' first
    | with_reducible exact h
    | with_reducible refine State.enter_keeps ?_ (hl.of rfl)
    | with_reducible assumption
    | with_reducible split
    | with_reducible dsimp only
    | with_reducible refine Keeps.upd ?_ ?_
    | (intro f hf; cases f <;> first | exact absurd ((hl.mem _ rfl).symm.trans hf) Bool.noConfusion | exact rfl)

theorem State.rootInject_keeps {K k c src e4} (h : Keeps K s0 s) (hl : Sub 8829781679364 K) :
    Keeps K s0 (State.rootInject s k c src e4) := by
  unfold State.rootInject
  repeat' with_reducible first
    | exact h
    | refine State.inject_keeps ?_ (hl.of rfl)
    | refine State.inj_keeps ?_ (hl.of rfl)

theorem State.unicastMark_keeps {K k endpoint dest step b mark} (h : Keeps K s0 s) (hl : Sub 8829781679364 K) :
    Keeps K s0 (State.unicastMark s k endpoint dest step b mark) := by
  unfold State.unicastMark
  repeat' with_reducible first
    | exact h
    | refine State.inject_keeps ?_ (hl.of rfl)

theorem State.unicast_keeps {K k endpoint dest step b} (h : Keeps K s0 s) (hl : Sub 8829781679364 K) :
    Keeps K s0 (State.unicast s k endpoint dest step b) := by
  unfold State.unicast
  repeat' with_reducible first
    | exact h
    | refine State.unicastMark_keeps ?_ (hl.of rfl)

theorem State.toUnitMark_keeps {K k u step b mark} (h : Keeps K s0 s) (hl : Sub 8829781679364 K) :
    Keeps K s0 (State.toUnitMark s k u step b mark) := by
  unfold State.toUnitMark
  repeat' with_reducible first
    | exact h
    | refine State.inject_keeps ?_ (hl.of rfl)

theorem State.toUnit_keeps {K k u step b} (h : Keeps K s0 s) (hl : Sub 8829781679364 K) :
    Keeps K s0 (State.toUnit s k u step b) := by
  unfold State.toUnit
  repeat' with_reducible first
    | exact h
    | refine State.toUnitMark_keeps ?_ (hl.of rfl)

theorem State.fromStopMark_keeps {K g u endpoint dest b mark} (h : Keeps K s0 s) (hl : Sub 8829781679364 K) :
    Keeps K s0 (State.fromStopMark s g u endpoint dest b mark) := by
  unfold State.fromStopMark
  repeat' with_reducible first
    | exact h
    | refine State.unicast_keeps ?_ (hl.of rfl)
    | refine State.inject_keeps ?_ (hl.of rfl)

theorem State.fromStop_keeps {K g u endpoint dest b} (h : Keeps K s0 s) (hl : Sub 8829781679364 K) :
    Keeps K s0 (State.fromStop s g u endpoint dest b) := by
  unfold State.fromStop
  repeat' with_reducible first
    | exact h
    | refine State.fromStopMark_keeps ?_ (hl.of rfl)

theorem State.fromEdge_keeps {K u k endpoint p b mark} (h : Keeps K s0 s) (hl : Sub 8829781679364 K) :
    Keeps K s0 (State.fromEdge s u k endpoint p b mark) := by
  unfold State.fromEdge
  repeat' with_reducible first
    | exact h
    | refine State.unicast_keeps ?_ (hl.of rfl)
    | refine State.inject_keeps ?_ (hl.of rfl)

theorem State.canopyInject_keeps {K p c e3} (h : Keeps K s0 s) (hl : Sub 8829781679364 K) :
    Keeps K s0 (State.canopyInject s p c e3) := by
  unfold State.canopyInject
  repeat' with_reducible first
    | exact h
    | refine State.rootInject_keeps ?_ (hl.of rfl)
    | refine State.inject_keeps ?_ (hl.of rfl)
    | refine State.inj_keeps ?_ (hl.of rfl)
    | assumption
    | split
    | dsimp only

theorem State.tapCopies_keeps {K p e2} (h : Keeps K s0 s) (hl : Sub 8829781679364 K) :
    Keeps K s0 (State.tapCopies s p e2) := by
  unfold State.tapCopies
  repeat' with_reducible first
    | exact h
    | refine State.toUnit_keeps ?_ (hl.of rfl)
    | refine State.inj_keeps ?_ (hl.of rfl)
    | apply keeps_foldl (fun _ _ h => ?_)
    | assumption
    | split

theorem State.present_keeps {K p e2} (h : Keeps K s0 s) (hl : Sub 8829781679364 K) :
    Keeps K s0 (State.present s p e2) := by
  unfold State.present
  repeat' with_reducible first
    | exact h
    | refine State.tapCopies_keeps ?_ (hl.of rfl)
    | refine State.canopyInject_keeps ?_ (hl.of rfl)
    | refine State.count_keeps ?_ (hl.of rfl)
    | assumption
    | split
    | dsimp only

theorem State.eject_keeps {K p endpoint f} (h : Keeps K s0 s) (hl : Sub 134218756 K) :
    Keeps K s0 (State.eject s p endpoint f) := by
  unfold State.eject
  repeat' with_reducible first
    | exact h
    | refine State.discard_keeps ?_ (hl.of rfl)
    | refine State.sentL_keeps ?_ (hl.of rfl)
    | refine State.put_keeps ?_ (hl.of rfl)
    | refine State.synShow_keeps ?_ (hl.of rfl)
    | refine State.updCore_keeps ?_ (hl.of rfl)
    | assumption
    | split

theorem State.ejectCanopy_keeps {K k c f e4} (h : Keeps K s0 s) (hl : Sub 8829781679364 K) :
    Keeps K s0 (State.ejectCanopy s k c f e4) := by
  unfold State.ejectCanopy
  repeat' with_reducible first
    | exact h
    | refine State.eject_keeps ?_ (hl.of rfl)
    | refine State.unicast_keeps ?_ (hl.of rfl)
    | refine State.discard_keeps ?_ (hl.of rfl)
    | refine State.ej_keeps ?_ (hl.of rfl)
    | refine State.inj_keeps ?_ (hl.of rfl)
    | assumption
    | split

theorem State.canopyArrive_keeps {K k f g c e5} (h : Keeps K s0 s) (hl : Sub 8829781679364 K) :
    Keeps K s0 (State.canopyArrive s k f g c e5) := by
  unfold State.canopyArrive
  repeat' with_reducible first
    | exact h
    | refine State.ejectCanopy_keeps ?_ (hl.of rfl)
    | refine State.sendOn_keeps ?_ (hl.of rfl)
    | apply keeps_foldl (fun _ _ h => ?_)
    | assumption
    | split

theorem State.unicastArrive_keeps {K k endpoint dest f} (h : Keeps K s0 s) (hl : Sub 8829781679364 K) :
    Keeps K s0 (State.unicastArrive s k endpoint dest f) := by
  unfold State.unicastArrive
  repeat' with_reducible first
    | exact h
    | refine State.eject_keeps ?_ (hl.of rfl)
    | refine State.rootInject_keeps ?_ (hl.of rfl)
    | refine State.sendOn_keeps ?_ (hl.of rfl)
    | refine State.ej_keeps ?_ (hl.of rfl)
    | assumption
    | split
    | dsimp only

theorem State.unitArrive_keeps {K k u f} (h : Keeps K s0 s) (hl : Sub 8829513243908 K) :
    Keeps K s0 (State.unitArrive s k u f) := by
  unfold State.unitArrive
  repeat' with_reducible first
    | exact h
    | refine State.discard_keeps ?_ (hl.of rfl)
    | refine State.sendOn_keeps ?_ (hl.of rfl)
    | refine State.abandon_keeps ?_ (hl.of rfl)
    | assumption
    | split

theorem State.routerArrive_keeps {K k f0} (h : Keeps K s0 s) (hl : Sub 8829781679364 K) :
    Keeps K s0 (State.routerArrive s k f0) := by
  unfold State.routerArrive
  repeat' with_reducible first
    | exact h
    | refine State.unitArrive_keeps ?_ (hl.of rfl)
    | refine State.unicastArrive_keeps ?_ (hl.of rfl)
    | refine State.canopyArrive_keeps ?_ (hl.of rfl)
    | refine State.unicast_keeps ?_ (hl.of rfl)
    | refine State.discard_keeps ?_ (hl.of rfl)
    | refine State.abandon_keeps ?_ (hl.of rfl)
    | assumption
    | split
    | dsimp only

theorem State.stopCounts_keeps {K g f} (h : Keeps K s0 s) (hl : Sub 4 K) :
    Keeps K s0 (State.stopCounts s g f) := by
  unfold State.stopCounts
  repeat' with_reducible first
    | exact h
    | refine State.xin_keeps ?_ (hl.of rfl)
    | refine State.xout_keeps ?_ (hl.of rfl)
    | refine State.ej_keeps ?_ (hl.of rfl)
    | refine State.inj_keeps ?_ (hl.of rfl)
    | assumption
    | split

theorem State.stopSend_keeps {K g x} (h : Keeps K s0 s) (hl : Sub 8829513243908 K) :
    Keeps K s0 (State.stopSend s g x) := by
  unfold State.stopSend
  repeat' with_reducible first
    | exact h
    | refine State.sendOn_keeps ?_ (hl.of rfl)
    | refine State.put_keeps ?_ (hl.of rfl)
    | assumption
    | split

theorem State.stopArrive_keeps {K g f} (h : Keeps K s0 s) (hl : Sub 8829513243908 K) :
    Keeps K s0 (State.stopArrive s g f) := by
  unfold State.stopArrive
  repeat' with_reducible first
    | exact h
    | refine State.stopSend_keeps ?_ (hl.of rfl)
    | refine State.stopCounts_keeps ?_ (hl.of rfl)
    | apply keeps_foldl (fun _ _ h => ?_)

theorem State.take_keeps {K i} {z} (h : Keeps K s0 s) (e : State.take s i = some (z, t)) (hl : Sub 134217728 K) :
    Keeps K s0 t := by
  unfold State.take at e
  try dsimp only at e
  repeat' split at e
  all_goals with_reducible first | cases e
  repeat' first
    | with_reducible exact h
    | with_reducible assumption
    | with_reducible split
    | with_reducible dsimp only
    | with_reducible refine Keeps.upd ?_ ?_
    | (intro f hf; cases f <;> first | exact absurd ((hl.mem _ rfl).symm.trans hf) Bool.noConfusion | exact rfl)

theorem State.takeUnit_keeps {K i lo hi} {z y} (h : Keeps K s0 s) (e : State.takeUnit s i lo hi = some (z, y, t)) (hl : Sub 134217728 K) :
    Keeps K s0 t := by
  unfold State.takeUnit at e
  try dsimp only at e
  repeat' split at e
  all_goals with_reducible first | cases e
  repeat' with_reducible first
    | exact h
    | refine State.take_keeps ?_ (by with_reducible assumption) (hl.of rfl)

theorem State.takeCore_keeps {K i} {z y} (h : Keeps K s0 s) (e : State.takeCore s i = some (z, y, t)) (hl : Sub 134217728 K) :
    Keeps K s0 t := by
  unfold State.takeCore at e
  try dsimp only at e
  repeat' split at e
  all_goals with_reducible first | cases e
  repeat' with_reducible first
    | exact h
    | refine State.take_keeps ?_ (by with_reducible assumption) (hl.of rfl)

end Sys2Proof.Machine
end

