-- ==== Sys2Proof/Laws/KeepsCore.lean ====
section
/-! SUPPORT. What the operations keep (Safety: Keeps): the neural core, its queues and handlers. One lemma per operation. -/
namespace Sys2Proof.Machine

variable {s0 s t : State}

/-! ### Machine/EmitLog -/

theorem State.setLogState_keeps {K p slot st} (h : Keeps K s0 s) (hl : Sub 26389352814020 K) :
    Keeps K s0 (State.setLogState s p slot st) := by
  unfold State.setLogState
  repeat' with_reducible first
    | exact h
    | refine State.stepNum_keeps ?_ (hl.of rfl)
    | assumption
    | split
    | dsimp only

theorem State.logAppend_keeps {K p slot step a4} (h : Keeps K s0 s) (hl : Sub 26389352814020 K) :
    Keeps K s0 (State.logAppend s p slot step a4) := by
  induction a4 generalizing s p slot step with
  | nil =>
    unfold State.logAppend
    repeat' with_reducible first
      | exact h
  | cons _ _ ih =>
    unfold State.logAppend
    repeat' with_reducible first
      | exact h
      | apply ih
      | refine State.stepNum_keeps ?_ (hl.of rfl)
      | refine State.updCore_keeps ?_ (hl.of rfl)
      | refine State.high_keeps ?_ (hl.of rfl)
      | refine State.wf'_keeps ?_ (hl.of rfl)

theorem State.logSilent_keeps {K q step ws} (h : Keeps K s0 s) (hl : Sub 26389352814020 K) :
    Keeps K s0 (State.logSilent s q step ws) := by
  unfold State.logSilent
  repeat' with_reducible first
    | exact h
    | refine State.logAppend_keeps ?_ (hl.of rfl)
    | refine State.updCore_keeps ?_ (hl.of rfl)
    | assumption
    | split

theorem State.presentEntry_keeps {K p slot step st spilled} (h : Keeps K s0 s) (hl : Sub 26421967723972 K) :
    Keeps K s0 (State.presentEntry s p slot step st spilled) := by
  unfold State.presentEntry
  repeat' with_reducible first
    | exact h
    | refine State.setLogState_keeps ?_ (hl.of rfl)
    | refine State.present_keeps ?_ (hl.of rfl)
    | refine State.updCore_keeps ?_ (hl.of rfl)
    | assumption
    | split

theorem State.emit_keeps {K p step cls ws} (h : Keeps K s0 s) (e : State.emit s p step cls ws = some t) (hl : Sub 26421967723972 K) :
    Keeps K s0 t := by
  unfold State.emit at e
  try dsimp only at e
  repeat' split at e
  all_goals with_reducible first | cases e
  repeat' with_reducible first
    | exact h
    | refine State.presentEntry_keeps ?_ (hl.of rfl)
    | refine State.logAppend_keeps ?_ (hl.of rfl)
    | refine State.updPart_keeps ?_ (hl.of rfl)
    | refine State.updCore_keeps ?_ (hl.of rfl)
    | refine State.count_keeps ?_ (hl.of rfl)

theorem State.stallShow_keeps {K p} (h : Keeps K s0 s) (hl : Sub 4 K) :
    Keeps K s0 (State.stallShow s p) := by
  unfold State.stallShow
  repeat' with_reducible first
    | exact h
    | refine State.wf'_keeps ?_ (hl.of rfl)

theorem State.handlerEmit_keeps {K p e2} (h : Keeps K s0 s) (e : State.handlerEmit s p e2 = some t) (hl : Sub 26421967723972 K) :
    Keeps K s0 t := by
  unfold State.handlerEmit at e
  split at e
  · exact State.emit_keeps h e (hl.of rfl)
  · split at e
    · obtain ⟨slot, _, rfl⟩ := Option.map_eq_some_iff.mp e
      exact State.logAppend_keeps h (hl.of rfl)
    · cases e

theorem State.openLogged_keeps {K p n} (h : Keeps K s0 s) (hl : Sub 26421967723972 K) :
    Keeps K s0 (State.openLogged s p n) := by
  unfold State.openLogged
  repeat' with_reducible first
    | exact h
    | refine State.presentEntry_keeps ?_ (hl.of rfl)
    | refine State.updCore_keeps ?_ (hl.of rfl)
    | apply keeps_foldl (fun _ _ h => ?_)
    | assumption
    | split
    | dsimp only

/-! ### Machine/Neuron -/

theorem State.takeSlot_keeps {K p n ig} (h : Keeps K s0 s) (hl : Sub 26389352814020 K) :
    Keeps K s0 (State.takeSlot s p n ig) := by
  unfold State.takeSlot
  repeat' with_reducible first
    | exact h
    | refine State.stepNum_keeps ?_ (hl.of rfl)
    | refine State.stepRead_keeps ?_ (hl.of rfl)
    | refine State.setNum_keeps ?_ (hl.of rfl)
    | refine State.updCore_keeps ?_ (hl.of rfl)

theorem State.neuLane_keeps {K q n bad i g} {z} (h : Keeps K s0 s) (e : State.neuLane s q n bad i g = (z, t)) (hl : Sub 26389352814020 K) :
    Keeps K s0 t := by
  unfold State.neuLane at e
  try dsimp only at e
  repeat' split at e
  all_goals with_reducible first | cases e
  repeat' with_reducible first
    | exact h
    | refine State.stepRead_keeps ?_ (hl.of rfl)
    | refine State.setNum_keeps ?_ (hl.of rfl)
    | refine State.updCore_keeps ?_ (hl.of rfl)

theorem State.integrate_keeps {K p n take rest a5} (h : Keeps K s0 s) (hl : Sub 26421967723972 K) :
    Keeps K s0 (State.integrate s p n take rest a5) := by
  induction a5 generalizing s p n take rest with
  | nil =>
    unfold State.integrate
    repeat' with_reducible first
      | exact h
      | refine State.takeSlot_keeps ?_ (hl.of rfl)
      | refine State.updCore_keeps ?_ (hl.of rfl)
  | cons _ _ ih =>
    unfold State.integrate
    repeat' with_reducible first
      | exact h
      | apply ih
      | refine State.takeSlot_keeps ?_ (hl.of rfl)
      | refine State.updCore_keeps ?_ (hl.of rfl)
      | refine State.neuLane_keeps ?_ (by with_reducible assumption) (hl.of rfl)
      | refine State.emit_keeps ?_ (by with_reducible assumption) (hl.of rfl)
      | apply keeps_foldl (fun _ _ h => ?_)
      | apply keeps_foldl_fst (fun _ _ _ h => ?_)
      | assumption
      | split
      | dsimp only
      | refine State.neuLane_keeps ?_ Prod.mk.eta.symm (hl.of rfl)

theorem State.integrateSilent_keeps {K q n bad a4} (h : Keeps K s0 s) (hl : Sub 26389352814020 K) :
    Keeps K s0 (State.integrateSilent s q n bad a4) := by
  induction a4 generalizing s q n bad with
  | nil =>
    unfold State.integrateSilent
    repeat' with_reducible first
      | exact h
  | cons _ _ ih =>
    unfold State.integrateSilent
    repeat' with_reducible first
      | exact h
      | apply ih
      | refine State.logSilent_keeps ?_ (hl.of rfl)
      | refine State.neuLane_keeps ?_ (by with_reducible assumption) (hl.of rfl)
      | assumption
      | split
      | dsimp only
      | refine State.neuLane_keeps ?_ Prod.mk.eta.symm (hl.of rfl)

theorem State.neuStatus_keeps {K p st ptr sweep} (h : Keeps K s0 s) (hl : Sub 4 K) :
    Keeps K s0 (State.neuStatus s p st ptr sweep) := by
  unfold State.neuStatus
  repeat' with_reducible first
    | exact h
    | refine State.wr_keeps ?_ (hl.of rfl)

theorem State.sweepOn_keeps {K p n m} (h : Keeps K s0 s) (hl : Sub 26421967723972 K) :
    Keeps K s0 (State.sweepOn s p n m) := by
  unfold State.sweepOn
  repeat' with_reducible first
    | exact h
    | refine State.neuStatus_keeps ?_ (hl.of rfl)
    | refine State.integrate_keeps ?_ (hl.of rfl)
    | refine State.stallShow_keeps ?_ (hl.of rfl)

theorem State.wake_keeps {K p} (h : Keeps K s0 s) (hl : Sub 1028 K) :
    Keeps K s0 (State.wake s p) := by
  unfold State.wake
  repeat' with_reducible first
    | exact h
    | refine State.updCore_keeps ?_ (hl.of rfl)
    | refine State.count_keeps ?_ (hl.of rfl)
    | refine State.wf'_keeps ?_ (hl.of rfl)
    | assumption
    | split

theorem State.addRing_keeps {K p i g r d} (h : Keeps K s0 s) (hl : Sub 26389352814020 K) :
    Keeps K s0 (State.addRing s p i g r d) := by
  unfold State.addRing
  repeat' with_reducible first
    | exact h
    | refine State.stepNum_keeps ?_ (hl.of rfl)
    | refine State.updCore_keeps ?_ (hl.of rfl)

theorem State.deposit_keeps {K p g l j dly d} (h : Keeps K s0 s) (hl : Sub 26389352814020 K) :
    Keeps K s0 (State.deposit s p g l j dly d) := by
  unfold State.deposit
  repeat' with_reducible first
    | exact h
    | refine State.addRing_keeps ?_ (hl.of rfl)
    | refine State.updCore_keeps ?_ (hl.of rfl)
    | refine State.count_keeps ?_ (hl.of rfl)
    | assumption
    | split
    | dsimp only

theorem execStepOpenIndication_keeps {K p lane flip value} (h : Keeps K s0 s) (hl : Sub 26421967723972 K) :
    OutKeeps K s0 (execStepOpenIndication p lane flip value s) := by
  unfold execStepOpenIndication
  repeat' with_reducible first
    | exact h
    | exact OutKeeps.next h
    | refine State.wake_keeps ?_ (hl.of rfl)
    | refine State.neuStatus_keeps ?_ (hl.of rfl)
    | refine State.openLogged_keeps ?_ (hl.of rfl)
    | refine State.updCore_keeps ?_ (hl.of rfl)
    | apply OutKeeps.next
    | assumption
    | split

theorem execDeferredDeposit_keeps {K p} (h : Keeps K s0 s) (hl : Sub 26389352814020 K) :
    OutKeeps K s0 (execDeferredDeposit p s) := by
  unfold execDeferredDeposit
  repeat' with_reducible first
    | exact h
    | exact OutKeeps.next h
    | refine State.addRing_keeps ?_ (hl.of rfl)
    | refine State.ej_keeps ?_ (hl.of rfl)
    | refine State.updCore_keeps ?_ (hl.of rfl)
    | refine State.count_keeps ?_ (hl.of rfl)
    | apply OutKeeps.next
    | assumption
    | split

theorem execCoreClockGate_keeps {K p} (h : Keeps K s0 s) (hl : Sub 1028 K) :
    OutKeeps K s0 (execCoreClockGate p s) := by
  unfold execCoreClockGate
  repeat' with_reducible first
    | exact h
    | exact OutKeeps.next h
    | refine State.updCore_keeps ?_ (hl.of rfl)
    | refine State.wf'_keeps ?_ (hl.of rfl)
    | apply OutKeeps.next
    | assumption
    | split

theorem execCoreWake_keeps {K p src} (h : Keeps K s0 s) (hl : Sub 1028 K) :
    OutKeeps K s0 (execCoreWake p src s) := by
  unfold execCoreWake
  repeat' with_reducible first
    | exact h
    | exact OutKeeps.next h
    | refine State.wake_keeps ?_ (hl.of rfl)
    | apply OutKeeps.next
    | assumption
    | split

/-! ### Machine/Strike -/

theorem State.recEntry_keeps {K k kind logical body} (h : Keeps K s0 s) (hl : Sub 4096 K) :
    Keeps K s0 (State.recEntry s k kind logical body) := by
  unfold State.recEntry
  repeat' with_reducible first
    | exact h
    | refine State.updPart_keeps ?_ (hl.of rfl)

theorem State.checkEntry_keeps {K g finding outcome sapling suspect} (h : Keeps K s0 s) (hl : Sub 4100 K) :
    Keeps K s0 (State.checkEntry s g finding outcome sapling suspect) := by
  unfold State.checkEntry
  repeat' with_reducible first
    | exact h
    | refine State.recEntry_keeps ?_ (hl.of rfl)
    | refine State.wr_keeps ?_ (hl.of rfl)
    | assumption
    | split

theorem State.holdGrove_keeps {K g} (h : Keeps K s0 s) (hl : Sub 6148 K) :
    Keeps K s0 (State.holdGrove s g) := by
  unfold State.holdGrove
  repeat' with_reducible first
    | exact h
    | refine State.stepState_keeps ?_ (hl.of rfl)
    | refine State.updPart_keeps ?_ (hl.of rfl)
    | refine State.updGrove_keeps ?_ (hl.of rfl)
    | refine State.count_keeps ?_ (hl.of rfl)
    | refine State.wf'_keeps ?_ (hl.of rfl)
    | assumption
    | split
    | dsimp only

theorem State.unholdGrove_keeps {K g} (h : Keeps K s0 s) (hl : Sub 2052 K) :
    Keeps K s0 (State.unholdGrove s g) := by
  unfold State.unholdGrove
  repeat' with_reducible first
    | exact h
    | refine State.stepState_keeps ?_ (hl.of rfl)
    | refine State.updGrove_keeps ?_ (hl.of rfl)
    | refine State.wf'_keeps ?_ (hl.of rfl)
    | assumption
    | split
    | dsimp only

theorem State.fenceSapling_keeps {K p count} (h : Keeps K s0 s) (hl : Sub 8797166770180 K) :
    Keeps K s0 (State.fenceSapling s p count) := by
  unfold State.fenceSapling
  repeat' with_reducible first
    | exact h
    | refine State.noteSaplings_keeps ?_ (hl.of rfl)
    | refine State.setRole_keeps ?_ (hl.of rfl)
    | refine State.mapEvent_keeps ?_ (hl.of rfl)
    | refine State.report_keeps ?_ (hl.of rfl)

theorem State.strike_keeps {K p source} (h : Keeps K s0 s) (hl : Sub 8797166771204 K) :
    Keeps K s0 (State.strike s p source) := by
  unfold State.strike
  repeat' with_reducible first
    | exact h
    | refine State.fenceSapling_keeps ?_ (hl.of rfl)
    | refine State.report_keeps ?_ (hl.of rfl)
    | refine State.updCore_keeps ?_ (hl.of rfl)
    | refine State.count_keeps ?_ (hl.of rfl)
    | refine State.wf'_keeps ?_ (hl.of rfl)
    | refine State.wr_keeps ?_ (hl.of rfl)
    | assumption
    | split
    | dsimp only

/-! ### Machine/Replay -/

theorem State.imageByte_keeps {K q off b} (h : Keeps K s0 s) (hl : Sub 448 K) :
    Keeps K s0 (State.imageByte s q off b) := by
  unfold State.imageByte
  repeat' first
    | with_reducible exact h
    | with_reducible refine State.putByte_keeps ?_ (hl.of rfl)
    | with_reducible assumption
    | with_reducible split
    | with_reducible dsimp only
    | with_reducible refine Keeps.upd ?_ ?_
    | (intro f hf; cases f <;> first | exact absurd ((hl.mem _ rfl).symm.trans hf) Bool.noConfusion | exact rfl)

theorem State.sendImage_keeps {K g} (h : Keeps K s0 s) (hl : Sub 8829781679364 K) :
    Keeps K s0 (State.sendImage s g) := by
  unfold State.sendImage
  repeat' with_reducible first
    | exact h
    | refine State.fromStop_keeps ?_ (hl.of rfl)
    | refine State.updGrove_keeps ?_ (hl.of rfl)
    | refine State.take_keeps ?_ (by with_reducible assumption) (hl.of rfl)
    | assumption
    | split
    | dsimp only

theorem execShadowCopy_keeps {K g i} (h : Keeps K s0 s) (hl : Sub 8829781679556 K) :
    OutKeeps K s0 (execShadowCopy g i s) := by
  unfold execShadowCopy
  repeat' with_reducible first
    | exact h
    | exact OutKeeps.next h
    | refine State.sendImage_keeps ?_ (hl.of rfl)
    | refine State.imageByte_keeps ?_ (hl.of rfl)
    | refine State.wake_keeps ?_ (hl.of rfl)
    | refine State.updGrove_keeps ?_ (hl.of rfl)
    | refine State.takeCore_keeps ?_ (by with_reducible assumption) (hl.of rfl)
    | refine State.take_keeps ?_ (by with_reducible assumption) (hl.of rfl)
    | apply OutKeeps.next
    | apply keeps_foldl (fun _ _ h => ?_)
    | assumption
    | split
    | dsimp only

theorem State.startReplay_keeps {K g trigger core y1} (h : Keeps K s0 s) (e : State.startReplay s g trigger core y1 = some t) (hl : Sub 15426851446020 K) :
    Keeps K s0 t := by
  unfold State.startReplay at e
  try dsimp only at e
  repeat' split at e
  all_goals with_reducible first | cases e
  repeat' with_reducible first
    | exact h
    | refine State.sendImage_keeps ?_ (hl.of rfl)
    | refine State.wakeCore_keeps ?_ (hl.of rfl)
    | refine State.noteSaplings_keeps ?_ (hl.of rfl)
    | refine State.setRole_keeps ?_ (hl.of rfl)
    | refine State.mapEvent_keeps ?_ (hl.of rfl)
    | refine State.updGrove_keeps ?_ (hl.of rfl)
    | refine State.count_keeps ?_ (hl.of rfl)
    | refine State.wf'_keeps ?_ (hl.of rfl)

theorem State.auditStart_keeps {K p n} (h : Keeps K s0 s) (hl : Sub 15426851446020 K) :
    Keeps K s0 (State.auditStart s p n) := by
  unfold State.auditStart
  repeat' with_reducible first
    | exact h
    | refine State.updGrove_keeps ?_ (hl.of rfl)
    | refine State.count_keeps ?_ (hl.of rfl)
    | refine State.startReplay_keeps ?_ (by with_reducible assumption) (hl.of rfl)
    | assumption
    | split
    | dsimp only

theorem State.passAudit_keeps {K g n} (h : Keeps K s0 s) (hl : Sub 8797166771204 K) :
    Keeps K s0 (State.passAudit s g n) := by
  unfold State.passAudit
  repeat' with_reducible first
    | exact h
    | refine State.endReplay_keeps ?_ (hl.of rfl)
    | refine State.updGrove_keeps ?_ (hl.of rfl)
    | assumption
    | split
    | dsimp only

/-! ### Machine/Synapse -/

theorem State.rowFormat_keeps {K p window} (h : Keeps K s0 s) (hl : Sub 8797166769156 K) :
    Keeps K s0 (State.rowFormat s p window) := by
  unfold State.rowFormat
  repeat' with_reducible first
    | exact h
    | refine State.flag_keeps ?_ (hl.of rfl)
    | refine State.report_keeps ?_ (hl.of rfl)

theorem State.applyBlock_keeps {K p g f bs lanes par sum err} (h : Keeps K s0 s) (hl : Sub 26389352814020 K) :
    Keeps K s0 (State.applyBlock s p g f bs lanes par sum err) := by
  unfold State.applyBlock
  repeat' with_reducible first
    | exact h
    | refine State.deposit_keeps ?_ (hl.of rfl)
    | refine State.updCore_keeps ?_ (hl.of rfl)
    | refine State.count64_keeps ?_ (hl.of rfl)
    | refine State.count_keeps ?_ (hl.of rfl)
    | apply keeps_foldl (fun _ _ h => ?_)

theorem State.pairFault_keeps {K p pair} (h : Keeps K s0 s) (hl : Sub 8797166771204 K) :
    Keeps K s0 (State.pairFault s p pair) := by
  unfold State.pairFault
  repeat' with_reducible first
    | exact h
    | refine State.strike_keeps ?_ (hl.of rfl)
    | refine State.flag_keeps ?_ (hl.of rfl)
    | refine State.count_keeps ?_ (hl.of rfl)
    | assumption
    | split

theorem State.localGroup_keeps {K p w evs pair err} (h : Keeps K s0 s) (hl : Sub 26389352816068 K) :
    Keeps K s0 (State.localGroup s p w evs pair err) := by
  unfold State.localGroup
  repeat' with_reducible first
    | exact h
    | refine State.pairFault_keeps ?_ (hl.of rfl)
    | refine State.applyBlock_keeps ?_ (hl.of rfl)
    | refine State.rowFormat_keeps ?_ (hl.of rfl)
    | refine State.stepRead_keeps ?_ (hl.of rfl)
    | refine State.updCore_keeps ?_ (hl.of rfl)
    | refine State.count_keeps ?_ (hl.of rfl)
    | apply keeps_foldl (fun _ _ h => ?_)
    | apply keeps_foldl_fst (fun _ _ _ h => ?_)
    | assumption
    | split
    | dsimp only

theorem State.groveRequest_keeps {K p w evs} (h : Keeps K s0 s) (hl : Sub 8829781679364 K) :
    Keeps K s0 (State.groveRequest s p w evs) := by
  unfold State.groveRequest
  repeat' with_reducible first
    | exact h
    | refine State.toUnit_keeps ?_ (hl.of rfl)
    | refine State.synShow_keeps ?_ (hl.of rfl)
    | refine State.inj_keeps ?_ (hl.of rfl)
    | apply keeps_foldl (fun _ _ h => ?_)
    | assumption
    | split

theorem State.gcLine_keeps {K g ln good} {z} (h : Keeps K s0 s) (e : State.gcLine s g ln good = (t, z)) (hl : Sub 2308 K) :
    Keeps K s0 t := by
  unfold State.gcLine at e
  try dsimp only at e
  repeat' split at e
  all_goals with_reducible first | cases e
  repeat' first
    | with_reducible exact h
    | with_reducible refine State.setGrove_keeps ?_ (hl.of rfl)
    | with_reducible refine State.count_keeps ?_ (hl.of rfl)
    | with_reducible assumption
    | with_reducible split
    | with_reducible dsimp only
    | with_reducible refine Keeps.upd ?_ ?_
    | (intro f hf; cases f <;> first | exact absurd ((hl.mem _ rfl).symm.trans hf) Bool.noConfusion | exact rfl)

theorem State.hbmRead_keeps {K addr n} (h : Keeps K s0 s) (hl : Sub 4 K) :
    Keeps K s0 (State.hbmRead s addr n) := by
  unfold State.hbmRead
  repeat' with_reducible first
    | exact h
    | refine State.count64_keeps ?_ (hl.of rfl)
    | apply keeps_foldl (fun _ _ h => ?_)
    | assumption
    | split
    | dsimp only

theorem State.gcRange_keeps {K g addr len bad} (h : Keeps K s0 s) (hl : Sub 2308 K) :
    Keeps K s0 (State.gcRange s g addr len bad) := by
  unfold State.gcRange
  repeat' with_reducible first
    | exact h
    | refine State.hbmRead_keeps ?_ (hl.of rfl)
    | refine State.gcLine_keeps ?_ (by with_reducible assumption) (hl.of rfl)
    | apply keeps_foldl (fun _ _ h => ?_)
    | assumption
    | split

theorem State.gcDrop_keeps {K g addr len} (h : Keeps K s0 s) (hl : Sub 2048 K) :
    Keeps K s0 (State.gcDrop s g addr len) := by
  unfold State.gcDrop
  repeat' with_reducible first
    | exact h
    | refine State.updGrove_keeps ?_ (hl.of rfl)

theorem State.gcInvalidate_keeps {K addr len} (h : Keeps K s0 s) (hl : Sub 2048 K) :
    Keeps K s0 (State.gcInvalidate s addr len) := by
  unfold State.gcInvalidate
  repeat' with_reducible first
    | exact h
    | refine State.gcDrop_keeps ?_ (hl.of rfl)
    | apply keeps_foldl (fun _ _ h => ?_)
    | assumption
    | split

theorem State.hbmWrite_keeps {K addr bs} (h : Keeps K s0 s) (hl : Sub 2564 K) :
    Keeps K s0 (State.hbmWrite s addr bs) := by
  unfold State.hbmWrite
  repeat' with_reducible first
    | exact h
    | refine State.gcInvalidate_keeps ?_ (hl.of rfl)
    | refine State.hbmRead_keeps ?_ (hl.of rfl)
    | refine State.setHbmBytes_keeps ?_ (hl.of rfl)

theorem State.unitInject_keeps {K g dest par b} (h : Keeps K s0 s) (hl : Sub 8829513243908 K) :
    Keeps K s0 (State.unitInject s g dest par b) := by
  unfold State.unitInject
  repeat' with_reducible first
    | exact h
    | refine State.unicast_keeps ?_ (hl.of rfl)
    | refine State.sendOn_keeps ?_ (hl.of rfl)
    | refine State.abandon_keeps ?_ (hl.of rfl)
    | refine State.inj_keeps ?_ (hl.of rfl)
    | assumption
    | split

theorem State.sendBlocks_keeps {K g r w fslot retract blocks} (h : Keeps K s0 s) (hl : Sub 8829513243908 K) :
    Keeps K s0 (State.sendBlocks s g r w fslot retract blocks) := by
  unfold State.sendBlocks
  repeat' with_reducible first
    | exact h
    | refine State.unitInject_keeps ?_ (hl.of rfl)
    | apply keeps_foldl (fun _ _ h => ?_)

theorem State.stackFailed_keeps {K st} (h : Keeps K s0 s) (hl : Sub 8829513243908 K) :
    Keeps K s0 (State.stackFailed s st) := by
  unfold State.stackFailed
  repeat' with_reducible first
    | exact h
    | refine State.stopWhere_keeps ?_ (hl.of rfl)
    | refine State.report_keeps ?_ (hl.of rfl)
    | refine State.wf'_keeps ?_ (hl.of rfl)
    | assumption
    | split

theorem State.hbmSuspect_keeps {K g addr id} (h : Keeps K s0 s) (hl : Sub 8797166770180 K) :
    Keeps K s0 (State.hbmSuspect s g addr id) := by
  unfold State.hbmSuspect
  repeat' with_reducible first
    | exact h
    | refine State.holdGrove_keeps ?_ (hl.of rfl)
    | refine State.report_keeps ?_ (hl.of rfl)
    | refine State.updGrove_keeps ?_ (hl.of rfl)

theorem State.hbmResumed_keeps {K g id home} (h : Keeps K s0 s) (hl : Sub 6148 K) :
    Keeps K s0 (State.hbmResumed s g id home) := by
  unfold State.hbmResumed
  repeat' with_reducible first
    | exact h
    | refine State.unholdGrove_keeps ?_ (hl.of rfl)
    | refine State.checkEntry_keeps ?_ (hl.of rfl)
    | refine State.updGrove_keeps ?_ (hl.of rfl)
    | refine State.count_keeps ?_ (hl.of rfl)
    | assumption
    | split
    | dsimp only

theorem State.flyShow_keeps {K} (h : Keeps K s0 s) (hl : Sub 4 K) :
    Keeps K s0 (State.flyShow s) := by
  unfold State.flyShow
  repeat' with_reducible first
    | exact h
    | refine State.high_keeps ?_ (hl.of rfl)
    | refine State.wf'_keeps ?_ (hl.of rfl)
    | apply keeps_foldl (fun _ _ h => ?_)

theorem State.rqShow_keeps {K g} (h : Keeps K s0 s) (hl : Sub 4 K) :
    Keeps K s0 (State.rqShow s g) := by
  unfold State.rqShow
  repeat' with_reducible first
    | exact h
    | refine State.flyShow_keeps ?_ (hl.of rfl)
    | refine State.high_keeps ?_ (hl.of rfl)
    | refine State.wf'_keeps ?_ (hl.of rfl)

theorem State.rqOpen_keeps {K g} (h : Keeps K s0 s) (hl : Sub 2052 K) :
    Keeps K s0 (State.rqOpen s g) := by
  unfold State.rqOpen
  repeat' with_reducible first
    | exact h
    | refine State.rqShow_keeps ?_ (hl.of rfl)
    | refine State.setGrove_keeps ?_ (hl.of rfl)
    | assumption
    | split
    | dsimp only

theorem State.rowRequest_keeps {K g r} (h : Keeps K s0 s) (hl : Sub 2052 K) :
    Keeps K s0 (State.rowRequest s g r) := by
  unfold State.rowRequest
  repeat' with_reducible first
    | exact h
    | refine State.rqOpen_keeps ?_ (hl.of rfl)
    | refine State.setGrove_keeps ?_ (hl.of rfl)
    | refine State.count_keeps ?_ (hl.of rfl)
    | assumption
    | split
    | dsimp only

theorem State.rowDone_keeps {K g j} (h : Keeps K s0 s) (hl : Sub 2052 K) :
    Keeps K s0 (State.rowDone s g j) := by
  unfold State.rowDone
  repeat' with_reducible first
    | exact h
    | refine State.rqOpen_keeps ?_ (hl.of rfl)
    | refine State.synShow_keeps ?_ (hl.of rfl)
    | refine State.ej_keeps ?_ (hl.of rfl)
    | refine State.updGrove_keeps ?_ (hl.of rfl)
    | apply keeps_foldl (fun _ _ h => ?_)

theorem State.plsServe_keeps {K g r w a h5} (h : Keeps K s0 s) (hl : Sub 2564 K) :
    Keeps K s0 (State.plsServe s g r w a h5) := by
  unfold State.plsServe
  repeat' with_reducible first
    | exact h
    | refine State.hbmWrite_keeps ?_ (hl.of rfl)
    | refine State.updGrove_keeps ?_ (hl.of rfl)
    | refine State.count_keeps ?_ (hl.of rfl)
    | assumption
    | split
    | dsimp only

theorem State.rowDeliver_keeps {K g j w a h5 f bytes} (h : Keeps K s0 s) (hl : Sub 8829513244420 K) :
    Keeps K s0 (State.rowDeliver s g j w a h5 f bytes) := by
  unfold State.rowDeliver
  repeat' with_reducible first
    | exact h
    | refine State.plsServe_keeps ?_ (hl.of rfl)
    | refine State.rowDone_keeps ?_ (hl.of rfl)
    | refine State.rqShow_keeps ?_ (hl.of rfl)
    | refine State.hbmResumed_keeps ?_ (hl.of rfl)
    | refine State.hbmSuspect_keeps ?_ (hl.of rfl)
    | refine State.sendBlocks_keeps ?_ (hl.of rfl)
    | refine State.unitInject_keeps ?_ (hl.of rfl)
    | refine State.gcDrop_keeps ?_ (hl.of rfl)
    | refine State.checkEntry_keeps ?_ (hl.of rfl)
    | refine State.stopPart_keeps ?_ (hl.of rfl)
    | refine State.updGrove_keeps ?_ (hl.of rfl)
    | refine State.count_keeps ?_ (hl.of rfl)
    | refine State.take_keeps ?_ (by with_reducible assumption) (hl.of rfl)
    | assumption
    | split
    | dsimp only

theorem State.readBad_keeps {K g j x next hdr} (h : Keeps K s0 s) (hl : Sub 8829513243908 K) :
    Keeps K s0 (State.readBad s g j x next hdr) := by
  unfold State.readBad
  repeat' with_reducible first
    | exact h
    | refine State.rqShow_keeps ?_ (hl.of rfl)
    | refine State.hbmSuspect_keeps ?_ (hl.of rfl)
    | refine State.stackFailed_keeps ?_ (hl.of rfl)
    | refine State.updGrove_keeps ?_ (hl.of rfl)
    | refine State.count_keeps ?_ (hl.of rfl)
    | assumption
    | split

theorem State.rowBad_keeps {K g j w a h5 f x} (h : Keeps K s0 s) (hl : Sub 8829513243908 K) :
    Keeps K s0 (State.rowBad s g j w a h5 f x) := by
  unfold State.rowBad
  repeat' with_reducible first
    | exact h
    | refine State.readBad_keeps ?_ (hl.of rfl)
    | refine State.sendBlocks_keeps ?_ (hl.of rfl)
    | refine State.unitInject_keeps ?_ (hl.of rfl)
    | refine State.take_keeps ?_ (by with_reducible assumption) (hl.of rfl)
    | assumption
    | split

theorem State.readCorrected_keeps {K mine status x} (h : Keeps K s0 s) (hl : Sub 4 K) :
    Keeps K s0 (State.readCorrected s mine status x) := by
  unfold State.readCorrected
  repeat' with_reducible first
    | exact h
    | refine State.count_keeps ?_ (hl.of rfl)
    | assumption
    | split

theorem State.rowReturn_keeps {K g j status t4 pos flip} (h : Keeps K s0 s) (hl : Sub 8829513244420 K) :
    Keeps K s0 (State.rowReturn s g j status t4 pos flip) := by
  unfold State.rowReturn
  repeat' with_reducible first
    | exact h
    | refine State.readCorrected_keeps ?_ (hl.of rfl)
    | refine State.rowBad_keeps ?_ (hl.of rfl)
    | refine State.readBad_keeps ?_ (hl.of rfl)
    | refine State.rowDeliver_keeps ?_ (hl.of rfl)
    | refine State.rowDone_keeps ?_ (hl.of rfl)
    | refine State.hbmResumed_keeps ?_ (hl.of rfl)
    | refine State.gcRange_keeps ?_ (hl.of rfl)
    | refine State.hbmRead_keeps ?_ (hl.of rfl)
    | refine State.rowFormat_keeps ?_ (hl.of rfl)
    | refine State.count_keeps ?_ (hl.of rfl)
    | assumption
    | split
    | dsimp only

theorem execSynEventTake_keeps {K p pair err} (h : Keeps K s0 s) (hl : Sub 26421967723972 K) :
    OutKeeps K s0 (execSynEventTake p pair err s) := by
  unfold execSynEventTake
  repeat' with_reducible first
    | exact h
    | exact OutKeeps.next h
    | refine State.groveRequest_keeps ?_ (hl.of rfl)
    | refine State.localGroup_keeps ?_ (hl.of rfl)
    | refine State.rowFormat_keeps ?_ (hl.of rfl)
    | refine State.wake_keeps ?_ (hl.of rfl)
    | refine State.synShow_keeps ?_ (hl.of rfl)
    | refine State.ej_keeps ?_ (hl.of rfl)
    | refine State.updCore_keeps ?_ (hl.of rfl)
    | refine State.count_keeps ?_ (hl.of rfl)
    | apply OutKeeps.next
    | assumption
    | split
    | dsimp only

theorem execRowRequest_keeps {K i} (h : Keeps K s0 s) (hl : Sub 134219780 K) :
    OutKeeps K s0 (execRowRequest i s) := by
  unfold execRowRequest
  repeat' with_reducible first
    | exact h
    | exact OutKeeps.next h
    | refine State.rowRequest_keeps ?_ (hl.of rfl)
    | refine State.takeUnit_keeps ?_ (by with_reducible assumption) (hl.of rfl)
    | apply OutKeeps.next
    | assumption
    | split

theorem execRowHeader_keeps {K i} (h : Keeps K s0 s) (hl : Sub 134218756 K) :
    OutKeeps K s0 (execRowHeader i s) := by
  unfold execRowHeader
  repeat' with_reducible first
    | exact h
    | exact OutKeeps.next h
    | refine State.wake_keeps ?_ (hl.of rfl)
    | refine State.ej_keeps ?_ (hl.of rfl)
    | refine State.updCore_keeps ?_ (hl.of rfl)
    | refine State.takeCore_keeps ?_ (by with_reducible assumption) (hl.of rfl)
    | apply OutKeeps.next
    | apply keeps_foldl (fun _ _ h => ?_)
    | assumption
    | split

theorem execBlock_keeps {K i pair err} (h : Keeps K s0 s) (hl : Sub 26389487033796 K) :
    OutKeeps K s0 (execBlock i pair err s) := by
  unfold execBlock
  repeat' with_reducible first
    | exact h
    | exact OutKeeps.next h
    | refine State.pairFault_keeps ?_ (hl.of rfl)
    | refine State.applyBlock_keeps ?_ (hl.of rfl)
    | refine State.rowFormat_keeps ?_ (hl.of rfl)
    | refine State.wake_keeps ?_ (hl.of rfl)
    | refine State.ej_keeps ?_ (hl.of rfl)
    | refine State.updCore_keeps ?_ (hl.of rfl)
    | refine State.count_keeps ?_ (hl.of rfl)
    | refine State.takeCore_keeps ?_ (by with_reducible assumption) (hl.of rfl)
    | apply OutKeeps.next
    | assumption
    | split
    | dsimp only

theorem State.dnsShow_keeps {K p st op cb} (h : Keeps K s0 s) (hl : Sub 4 K) :
    Keeps K s0 (State.dnsShow s p st op cb) := by
  unfold State.dnsShow
  repeat' with_reducible first
    | exact h
    | refine State.flyShow_keeps ?_ (hl.of rfl)
    | refine State.wr_keeps ?_ (hl.of rfl)

theorem State.streamHits_keeps {K p addr len got} (h : Keeps K s0 s) (hl : Sub 2308 K) :
    Keeps K s0 (State.streamHits s p addr len got) := by
  unfold State.streamHits
  repeat' with_reducible first
    | exact h
    | refine State.gcRange_keeps ?_ (hl.of rfl)

theorem State.streamTo_keeps {K p op r upTo bad} (h : Keeps K s0 s) (hl : Sub 3332 K) :
    Keeps K s0 (State.streamTo s p op r upTo bad) := by
  unfold State.streamTo
  repeat' with_reducible first
    | exact h
    | refine State.gcRange_keeps ?_ (hl.of rfl)
    | refine State.updCore_keeps ?_ (hl.of rfl)

theorem execHbmReadReturn_keeps {K g j status t3 pos flip} (h : Keeps K s0 s) (hl : Sub 8829513244420 K) :
    OutKeeps K s0 (execHbmReadReturn g j status t3 pos flip s) := by
  unfold execHbmReadReturn
  repeat' with_reducible first
    | exact h
    | exact OutKeeps.next h
    | refine State.streamTo_keeps ?_ (hl.of rfl)
    | refine State.dnsShow_keeps ?_ (hl.of rfl)
    | refine State.rowReturn_keeps ?_ (hl.of rfl)
    | refine State.hbmResumed_keeps ?_ (hl.of rfl)
    | refine State.hbmSuspect_keeps ?_ (hl.of rfl)
    | refine State.stackFailed_keeps ?_ (hl.of rfl)
    | refine State.updGrove_keeps ?_ (hl.of rfl)
    | refine State.count_keeps ?_ (hl.of rfl)
    | apply OutKeeps.next
    | assumption
    | split
    | dsimp only

theorem execHbmTrainingLost_keeps {K st ok} (h : Keeps K s0 s) (hl : Sub 8829513243908 K) :
    OutKeeps K s0 (execHbmTrainingLost st ok s) := by
  unfold execHbmTrainingLost
  repeat' with_reducible first
    | exact h
    | exact OutKeeps.next h
    | refine State.stackFailed_keeps ?_ (hl.of rfl)
    | apply OutKeeps.next
    | assumption
    | split

/-! ### Machine/Queues -/

theorem State.putQueue_keeps {K p q v} (h : Keeps K s0 s) (hl : Sub 1028 K) :
    Keeps K s0 (State.putQueue s p q v) := by
  unfold State.putQueue
  repeat' with_reducible first
    | exact h
    | refine State.updCore_keeps ?_ (hl.of rfl)
    | refine State.high_keeps ?_ (hl.of rfl)
    | refine State.wf'_keeps ?_ (hl.of rfl)

theorem State.enqueue_keeps {K p q e3} (h : Keeps K s0 s) (hl : Sub 1028 K) :
    Keeps K s0 (State.enqueue s p q e3) := by
  unfold State.enqueue
  repeat' with_reducible first
    | exact h
    | refine State.putQueue_keeps ?_ (hl.of rfl)
    | refine State.count_keeps ?_ (hl.of rfl)

theorem State.reserve_keeps {K p q} {z} (h : Keeps K s0 s) (e : State.reserve s p q = (t, z)) (hl : Sub 1028 K) :
    Keeps K s0 t := by
  unfold State.reserve at e
  try dsimp only at e
  repeat' split at e
  all_goals with_reducible first | cases e
  repeat' with_reducible first
    | exact h
    | refine State.putQueue_keeps ?_ (hl.of rfl)

theorem State.unreserve_keeps {K p q} (h : Keeps K s0 s) (hl : Sub 1028 K) :
    Keeps K s0 (State.unreserve s p q) := by
  unfold State.unreserve
  repeat' with_reducible first
    | exact h
    | refine State.putQueue_keeps ?_ (hl.of rfl)

theorem State.setH_keeps {K p r w} (h : Keeps K s0 s) (hl : Sub 1024 K) :
    Keeps K s0 (State.setH s p r w) := by
  unfold State.setH
  repeat' with_reducible first
    | exact h
    | refine State.updCore_keeps ?_ (hl.of rfl)

theorem State.setPc_keeps {K p n} (h : Keeps K s0 s) (hl : Sub 4 K) :
    Keeps K s0 (State.setPc s p n) := by
  unfold State.setPc
  repeat' with_reducible first
    | exact h
    | refine State.wf'_keeps ?_ (hl.of rfl)

theorem State.hdlGo_keeps {K p} (h : Keeps K s0 s) (hl : Sub 1028 K) :
    Keeps K s0 (State.hdlGo s p) := by
  unfold State.hdlGo
  repeat' with_reducible first
    | exact h
    | refine State.setPc_keeps ?_ (hl.of rfl)
    | refine State.hdlState_keeps ?_ (hl.of rfl)
    | refine State.updCore_keeps ?_ (hl.of rfl)

theorem State.hdlEnd_keeps {K p} (h : Keeps K s0 s) (hl : Sub 1028 K) :
    Keeps K s0 (State.hdlEnd s p) := by
  unfold State.hdlEnd
  repeat' with_reducible first
    | exact h
    | refine State.setPc_keeps ?_ (hl.of rfl)
    | refine State.stallShow_keeps ?_ (hl.of rfl)
    | refine State.hdlState_keeps ?_ (hl.of rfl)
    | refine State.updCore_keeps ?_ (hl.of rfl)
    | refine State.wf'_keeps ?_ (hl.of rfl)
    | assumption
    | split

theorem State.resumeEmit_keeps {K p} (h : Keeps K s0 s) (hl : Sub 26421967723972 K) :
    Keeps K s0 (State.resumeEmit s p) := by
  unfold State.resumeEmit
  repeat' with_reducible first
    | exact h
    | refine State.hdlGo_keeps ?_ (hl.of rfl)
    | refine State.stallShow_keeps ?_ (hl.of rfl)
    | refine State.handlerEmit_keeps ?_ (by with_reducible assumption) (hl.of rfl)
    | refine State.emit_keeps ?_ (by with_reducible assumption) (hl.of rfl)
    | assumption
    | split

theorem State.hdlFault_keeps {K p cause} (h : Keeps K s0 s) (hl : Sub 8797166769156 K) :
    Keeps K s0 (State.hdlFault s p cause) := by
  unfold State.hdlFault
  repeat' with_reducible first
    | exact h
    | refine State.hdlEnd_keeps ?_ (hl.of rfl)
    | refine State.report_keeps ?_ (hl.of rfl)
    | refine State.count_keeps ?_ (hl.of rfl)
    | refine State.wr_keeps ?_ (hl.of rfl)
    | assumption
    | split

theorem State.waitqTake_keeps {K p q rd} (h : Keeps K s0 s) (hl : Sub 1028 K) :
    Keeps K s0 (State.waitqTake s p q rd) := by
  unfold State.waitqTake
  repeat' with_reducible first
    | exact h
    | refine State.setH_keeps ?_ (hl.of rfl)
    | refine State.putQueue_keeps ?_ (hl.of rfl)
    | refine State.updCore_keeps ?_ (hl.of rfl)
    | apply keeps_foldl (fun _ _ h => ?_)
    | assumption
    | split
    | dsimp only

theorem State.waitqCheck_keeps {K p} (h : Keeps K s0 s) (hl : Sub 1028 K) :
    Keeps K s0 (State.waitqCheck s p) := by
  unfold State.waitqCheck
  repeat' with_reducible first
    | exact h
    | refine State.waitqTake_keeps ?_ (hl.of rfl)
    | refine State.hdlGo_keeps ?_ (hl.of rfl)
    | assumption
    | split

theorem State.fillReserved_keeps {K p q w} (h : Keeps K s0 s) (hl : Sub 1028 K) :
    Keeps K s0 (State.fillReserved s p q w) := by
  unfold State.fillReserved
  repeat' with_reducible first
    | exact h
    | refine State.waitqCheck_keeps ?_ (hl.of rfl)
    | refine State.unreserve_keeps ?_ (hl.of rfl)
    | refine State.enqueue_keeps ?_ (hl.of rfl)

theorem State.accept_keeps {K p q words src crcOk} {z} (h : Keeps K s0 s) (e : State.accept s p q words src crcOk = (t, z)) (hl : Sub 1028 K) :
    Keeps K s0 t := by
  unfold State.accept at e
  try dsimp only at e
  repeat' split at e
  all_goals with_reducible first | cases e
  repeat' with_reducible first
    | exact h
    | refine State.waitqCheck_keeps ?_ (hl.of rfl)
    | refine State.enqueue_keeps ?_ (hl.of rfl)
    | refine State.count_keeps ?_ (hl.of rfl)

theorem State.respond_keeps {K p q src mark code} (h : Keeps K s0 s) (hl : Sub 1028 K) :
    Keeps K s0 (State.respond s p q src mark code) := by
  unfold State.respond
  repeat' with_reducible first
    | exact h
    | refine State.updCore_keeps ?_ (hl.of rfl)
    | refine State.count_keeps ?_ (hl.of rfl)
    | assumption
    | split

theorem State.receive_keeps {K p q words src mark crcOk} (h : Keeps K s0 s) (hl : Sub 1028 K) :
    Keeps K s0 (State.receive s p q words src mark crcOk) := by
  unfold State.receive
  repeat' with_reducible first
    | exact h
    | refine State.respond_keeps ?_ (hl.of rfl)
    | refine State.wake_keeps ?_ (hl.of rfl)
    | refine State.accept_keeps ?_ (by with_reducible assumption) (hl.of rfl)
    | assumption
    | split

theorem State.updDesc_keeps {K r f} (h : Keeps K s0 s) (hl : Sub 8589934592 K) :
    Keeps K s0 (State.updDesc s r f) := by
  unfold State.updDesc
  repeat' with_reducible first
    | exact h
    | refine State.updAtt_keeps ?_ (hl.of rfl)

theorem State.descDone_keeps {K r status oparg} (h : Keeps K s0 s) (hl : Sub 8589934592 K) :
    Keeps K s0 (State.descDone s r status oparg) := by
  unfold State.descDone
  repeat' with_reducible first
    | exact h
    | refine State.updDesc_keeps ?_ (hl.of rfl)

theorem State.inflight_keeps {K a r} (h : Keeps K s0 s) (hl : Sub 4 K) :
    Keeps K s0 (State.inflight s a r) := by
  unfold State.inflight
  repeat' with_reducible first
    | exact h
    | refine State.wf'_keeps ?_ (hl.of rfl)

theorem State.putCompletion_keeps {K a d status oparg} (h : Keeps K s0 s) (hl : Sub 8805756702724 K) :
    Keeps K s0 (State.putCompletion s a d status oparg) := by
  unfold State.putCompletion
  repeat' with_reducible first
    | exact h
    | refine State.shadow_keeps ?_ (hl.of rfl)
    | refine State.toHost_keeps ?_ (hl.of rfl)
    | refine State.ringError_keeps ?_ (hl.of rfl)
    | refine State.wr_keeps ?_ (hl.of rfl)
    | assumption
    | split
    | dsimp only

theorem State.complete_keeps {K a d status oparg} (h : Keeps K s0 s) (hl : Sub 8805756702724 K) :
    Keeps K s0 (State.complete s a d status oparg) := by
  unfold State.complete
  repeat' with_reducible first
    | exact h
    | refine State.putCompletion_keeps ?_ (hl.of rfl)
    | refine State.shadow_keeps ?_ (hl.of rfl)
    | refine State.updAtt_keeps ?_ (hl.of rfl)
    | refine State.count_keeps ?_ (hl.of rfl)
    | refine State.wr_keeps ?_ (hl.of rfl)
    | assumption
    | split

theorem State.retire_keeps {K a0 a2 a3} (h : Keeps K s0 s) (hl : Sub 8805756702724 K) :
    Keeps K s0 (State.retire a0 s a2 a3) := by
  induction a0 generalizing s a2 a3 with
  | zero => exact h
  | succ n ih =>
    unfold State.retire
    split
    · with_reducible exact State.inflight_keeps h (hl.of rfl)
    · split
      · with_reducible exact State.inflight_keeps h (hl.of rfl)
      · with_reducible exact ih (State.complete_keeps h (hl.of rfl))

theorem State.startDesc_keeps {K r core} (h : Keeps K s0 s) (hl : Sub 8589934596 K) :
    Keeps K s0 (State.startDesc s r core) := by
  unfold State.startDesc
  repeat' with_reducible first
    | exact h
    | refine State.inflight_keeps ?_ (hl.of rfl)
    | refine State.updDesc_keeps ?_ (hl.of rfl)

theorem State.pump_keeps {K a0 a2 a3} (h : Keeps K s0 s) (hl : Sub 8805756702724 K) :
    Keeps K s0 (State.pump a0 s a2 a3) := by
  induction a0 generalizing s a2 a3 with
  | zero => exact h
  | succ n ih =>
    unfold State.pump
    split
    · with_reducible exact State.retire_keeps h (hl.of rfl)
    · split
      · with_reducible exact State.ringError_keeps h (hl.of rfl)
      · split
        · with_reducible exact ih (State.retire_keeps (State.descDone_keeps (State.startDesc_keeps h (hl.of rfl)) (hl.of rfl)) (hl.of rfl))
        · split
          · with_reducible exact ih (State.retire_keeps (State.descDone_keeps (State.startDesc_keeps h (hl.of rfl)) (hl.of rfl)) (hl.of rfl))
          · with_reducible exact State.retire_keeps h (hl.of rfl)

theorem State.finish_keeps {K r status oparg} (h : Keeps K s0 s) (hl : Sub 8805756702724 K) :
    Keeps K s0 (State.finish s r status oparg) := by
  unfold State.finish
  repeat' with_reducible first
    | exact h
    | refine State.pump_keeps ?_ (hl.of rfl)
    | refine State.retire_keeps ?_ (hl.of rfl)
    | refine State.descDone_keeps ?_ (hl.of rfl)

/-! ### Machine/Dense -/

theorem State.monSample_keeps {K q ch r} (h : Keeps K s0 s) (hl : Sub 1024 K) :
    Keeps K s0 (State.monSample s q ch r) := by
  unfold State.monSample
  repeat' with_reducible first
    | exact h
    | refine State.updCore_keeps ?_ (hl.of rfl)

theorem State.denseOut_keeps {K q o op n outs} {z} (h : Keeps K s0 s) (e : State.denseOut s q o op n outs = (t, z)) (hl : Sub 26389352814020 K) :
    Keeps K s0 t := by
  unfold State.denseOut at e
  try dsimp only at e
  repeat' split at e
  all_goals with_reducible first | cases e
  repeat' with_reducible first
    | exact h
    | refine State.monSample_keeps ?_ (hl.of rfl)
    | refine State.stepNum_keeps ?_ (hl.of rfl)
    | apply keeps_foldl (fun _ _ h => ?_)

theorem State.membraneSamples_keeps {K p q op n} (h : Keeps K s0 s) (hl : Sub 1024 K) :
    Keeps K s0 (State.membraneSamples s p q op n) := by
  unfold State.membraneSamples
  repeat' with_reducible first
    | exact h
    | refine State.monSample_keeps ?_ (hl.of rfl)
    | apply keeps_foldl (fun _ _ h => ?_)
    | assumption
    | split

theorem State.denseSilent_keeps {K p q n} (h : Keeps K s0 s) (hl : Sub 26389352814020 K) :
    Keeps K s0 (State.denseSilent s p q n) := by
  unfold State.denseSilent
  repeat' with_reducible first
    | exact h
    | refine State.membraneSamples_keeps ?_ (hl.of rfl)
    | refine State.logSilent_keeps ?_ (hl.of rfl)
    | refine State.flag_keeps ?_ (hl.of rfl)
    | refine State.count_keeps ?_ (hl.of rfl)
    | refine State.denseOut_keeps ?_ (by with_reducible assumption) (hl.of rfl)
    | apply keeps_foldl (fun _ _ h => ?_)
    | assumption
    | split
    | dsimp only
    | refine State.denseOut_keeps ?_ Prod.mk.eta.symm (hl.of rfl)

theorem State.dnsStart_keeps {K p r} (h : Keeps K s0 s) (hl : Sub 1028 K) :
    Keeps K s0 (State.dnsStart s p r) := by
  unfold State.dnsStart
  repeat' with_reducible first
    | exact h
    | refine State.dnsShow_keeps ?_ (hl.of rfl)
    | refine State.updCore_keeps ?_ (hl.of rfl)

theorem State.dnsNext_keeps {K p} (h : Keeps K s0 s) (hl : Sub 1028 K) :
    Keeps K s0 (State.dnsNext s p) := by
  unfold State.dnsNext
  repeat' with_reducible first
    | exact h
    | refine State.dnsStart_keeps ?_ (hl.of rfl)
    | refine State.dnsShow_keeps ?_ (hl.of rfl)
    | refine State.updCore_keeps ?_ (hl.of rfl)
    | assumption
    | split
    | dsimp only

theorem State.denseEmit_keeps {K p n cls a4} (h : Keeps K s0 s) (hl : Sub 26421967723972 K) :
    Keeps K s0 (State.denseEmit s p n cls a4) := by
  induction a4 generalizing s p n cls with
  | nil =>
    unfold State.denseEmit
    repeat' with_reducible first
      | exact h
      | refine State.stallShow_keeps ?_ (hl.of rfl)
      | refine State.updCore_keeps ?_ (hl.of rfl)
  | cons _ _ ih =>
    unfold State.denseEmit
    repeat' with_reducible first
      | exact h
      | apply ih
      | refine State.stallShow_keeps ?_ (hl.of rfl)
      | refine State.updCore_keeps ?_ (hl.of rfl)
      | refine State.emit_keeps ?_ (by with_reducible assumption) (hl.of rfl)
      | assumption
      | split

theorem State.dnsAdvance_keeps {K p op r} (h : Keeps K s0 s) (hl : Sub 1028 K) :
    Keeps K s0 (State.dnsAdvance s p op r) := by
  unfold State.dnsAdvance
  repeat' with_reducible first
    | exact h
    | refine State.dnsNext_keeps ?_ (hl.of rfl)
    | refine State.dnsShow_keeps ?_ (hl.of rfl)
    | refine State.updCore_keeps ?_ (hl.of rfl)
    | refine State.count_keeps ?_ (hl.of rfl)
    | assumption
    | split
    | dsimp only

theorem State.dnsMismatch_keeps {K p op r} (h : Keeps K s0 s) (hl : Sub 8797166771204 K) :
    Keeps K s0 (State.dnsMismatch s p op r) := by
  unfold State.dnsMismatch
  repeat' with_reducible first
    | exact h
    | refine State.dnsShow_keeps ?_ (hl.of rfl)
    | refine State.strike_keeps ?_ (hl.of rfl)
    | refine State.report_keeps ?_ (hl.of rfl)
    | refine State.updCore_keeps ?_ (hl.of rfl)
    | refine State.count_keeps ?_ (hl.of rfl)
    | assumption
    | split

theorem State.blockMeet_keeps {K p op cb n} (h : Keeps K s0 s) (hl : Sub 26389352812996 K) :
    Keeps K s0 (State.blockMeet s p op cb n) := by
  unfold State.blockMeet
  repeat' with_reducible first
    | exact h
    | refine State.meet_keeps ?_ (hl.of rfl)

theorem State.stepBlock_keeps {K p op r n b ue bad} (h : Keeps K s0 s) (hl : Sub 26421967723972 K) :
    Keeps K s0 (State.stepBlock s p op r n b ue bad) := by
  unfold State.stepBlock
  repeat' with_reducible first
    | exact h
    | refine State.dnsAdvance_keeps ?_ (hl.of rfl)
    | refine State.denseEmit_keeps ?_ (hl.of rfl)
    | refine State.membraneSamples_keeps ?_ (hl.of rfl)
    | refine State.flag_keeps ?_ (hl.of rfl)
    | refine State.report_keeps ?_ (hl.of rfl)
    | refine State.count_keeps ?_ (hl.of rfl)
    | refine State.denseOut_keeps ?_ (by with_reducible assumption) (hl.of rfl)
    | assumption
    | split
    | dsimp only
    | refine State.denseOut_keeps ?_ Prod.mk.eta.symm (hl.of rfl)

theorem State.freeBlock_keeps {K p op r n b ue bad} (h : Keeps K s0 s) (hl : Sub 26389352816068 K) :
    Keeps K s0 (State.freeBlock s p op r n b ue bad) := by
  unfold State.freeBlock
  repeat' with_reducible first
    | exact h
    | refine State.dnsMismatch_keeps ?_ (hl.of rfl)
    | refine State.dnsAdvance_keeps ?_ (hl.of rfl)
    | refine State.dnsShow_keeps ?_ (hl.of rfl)
    | refine State.updCore_keeps ?_ (hl.of rfl)
    | refine State.denseOut_keeps ?_ (by with_reducible assumption) (hl.of rfl)
    | assumption
    | split
    | dsimp only
    | refine State.denseOut_keeps ?_ Prod.mk.eta.symm (hl.of rfl)

theorem State.doBlock_keeps {K p mismatch op r n ue} (h : Keeps K s0 s) (hl : Sub 26421967723972 K) :
    Keeps K s0 (State.doBlock s p mismatch op r n ue) := by
  unfold State.doBlock
  repeat' with_reducible first
    | exact h
    | refine State.freeBlock_keeps ?_ (hl.of rfl)
    | refine State.stepBlock_keeps ?_ (hl.of rfl)
    | refine State.count64_keeps ?_ (hl.of rfl)
    | refine State.count_keeps ?_ (hl.of rfl)
    | assumption
    | split

theorem execDenseColumnBlockDone_keeps {K p mismatch} (h : Keeps K s0 s) (hl : Sub 26421967723972 K) :
    OutKeeps K s0 (execDenseColumnBlockDone p mismatch s) := by
  unfold execDenseColumnBlockDone
  repeat' with_reducible first
    | exact h
    | exact OutKeeps.next h
    | refine State.doBlock_keeps ?_ (hl.of rfl)
    | refine State.blockMeet_keeps ?_ (hl.of rfl)
    | refine State.streamHits_keeps ?_ (hl.of rfl)
    | refine State.dnsShow_keeps ?_ (hl.of rfl)
    | apply OutKeeps.next
    | assumption
    | split
    | dsimp only

theorem execDenseOpDone_keeps {K p} (h : Keeps K s0 s) (hl : Sub 8805756703748 K) :
    OutKeeps K s0 (execDenseOpDone p s) := by
  unfold execDenseOpDone
  repeat' with_reducible first
    | exact h
    | exact OutKeeps.next h
    | refine State.dnsNext_keeps ?_ (hl.of rfl)
    | refine State.finish_keeps ?_ (hl.of rfl)
    | refine State.fillReserved_keeps ?_ (hl.of rfl)
    | refine State.updCore_keeps ?_ (hl.of rfl)
    | apply OutKeeps.next
    | assumption
    | split
    | dsimp only

theorem execIntegrationSpanEnd_keeps {K p} (h : Keeps K s0 s) (hl : Sub 33019037490628 K) :
    OutKeeps K s0 (execIntegrationSpanEnd p s) := by
  unfold execIntegrationSpanEnd
  repeat' with_reducible first
    | exact h
    | exact OutKeeps.next h
    | refine State.dnsNext_keeps ?_ (hl.of rfl)
    | refine State.auditStart_keeps ?_ (hl.of rfl)
    | refine State.sweepOn_keeps ?_ (hl.of rfl)
    | refine State.neuStatus_keeps ?_ (hl.of rfl)
    | refine State.updCore_keeps ?_ (hl.of rfl)
    | apply OutKeeps.next
    | assumption
    | split
    | dsimp only

/-! ### Machine/Endpoints -/

theorem State.relShow_keeps {K a} (h : Keeps K s0 s) (hl : Sub 4 K) :
    Keeps K s0 (State.relShow s a) := by
  unfold State.relShow
  repeat' with_reducible first
    | exact h
    | refine State.wf'_keeps ?_ (hl.of rfl)

theorem State.hifRecord_keeps {K a h2 retract} (h : Keeps K s0 s) (hl : Sub 8805756702724 K) :
    Keeps K s0 (State.hifRecord s a h2 retract) := by
  unfold State.hifRecord
  repeat' with_reducible first
    | exact h
    | refine State.relShow_keeps ?_ (hl.of rfl)
    | refine State.retractEarly_keeps ?_ (hl.of rfl)
    | refine State.ringDrop_keeps ?_ (hl.of rfl)
    | refine State.updAtt_keeps ?_ (hl.of rfl)
    | refine State.updPart_keeps ?_ (hl.of rfl)
    | refine State.count_keeps ?_ (hl.of rfl)
    | refine State.ringSend_keeps ?_ (by with_reducible assumption) (hl.of rfl)
    | assumption
    | split
    | dsimp only

theorem State.tapEjected_keeps {K f} (h : Keeps K s0 s) (hl : Sub 4 K) :
    Keeps K s0 (State.tapEjected s f) := by
  unfold State.tapEjected
  repeat' with_reducible first
    | exact h
    | refine State.ej_keeps ?_ (hl.of rfl)
    | assumption
    | split

theorem execTapCopyArrive_keeps {K i} (h : Keeps K s0 s) (hl : Sub 8805890920452 K) :
    OutKeeps K s0 (execTapCopyArrive i s) := by
  unfold execTapCopyArrive
  repeat' with_reducible first
    | exact h
    | exact OutKeeps.next h
    | refine State.tapEjected_keeps ?_ (hl.of rfl)
    | refine State.hifRecord_keeps ?_ (hl.of rfl)
    | refine State.count_keeps ?_ (hl.of rfl)
    | refine State.takeUnit_keeps ?_ (by with_reducible assumption) (hl.of rfl)
    | apply OutKeeps.next
    | assumption
    | split
    | dsimp only

theorem State.ctxLoss_keeps {K c n} (h : Keeps K s0 s) (hl : Sub 6442451200 K) :
    Keeps K s0 (State.ctxLoss s c n) := by
  unfold State.ctxLoss
  repeat' with_reducible first
    | exact h
    | refine State.setContext_keeps ?_ (hl.of rfl)

theorem State.owesLoss_keeps {K e1 c n} (h : Keeps K s0 s) (hl : Sub 23622320384 K) :
    Keeps K s0 (State.owesLoss s e1 c n) := by
  unfold State.owesLoss
  repeat' with_reducible first
    | exact h
    | refine State.ctxLoss_keeps ?_ (hl.of rfl)
    | refine State.updPort_keeps ?_ (hl.of rfl)

theorem State.evpDrop_keeps {K e1 c} (h : Keeps K s0 s) (hl : Sub 8820789088516 K) :
    Keeps K s0 (State.evpDrop s e1 c) := by
  unfold State.evpDrop
  repeat' with_reducible first
    | exact h
    | refine State.owesLoss_keeps ?_ (hl.of rfl)
    | refine State.report_keeps ?_ (hl.of rfl)
    | refine State.updPort_keeps ?_ (hl.of rfl)
    | refine State.count_keeps ?_ (hl.of rfl)
    | assumption
    | split
    | dsimp only

theorem State.evpRecord_keeps {K e1 h2 retract} (h : Keeps K s0 s) (hl : Sub 8820789088516 K) :
    Keeps K s0 (State.evpRecord s e1 h2 retract) := by
  unfold State.evpRecord
  repeat' with_reducible first
    | exact h
    | refine State.evpDrop_keeps ?_ (hl.of rfl)
    | refine State.retractEarlyPort_keeps ?_ (hl.of rfl)
    | refine State.flushEarly_keeps ?_ (hl.of rfl)
    | refine State.updPort_keeps ?_ (hl.of rfl)
    | refine State.updPart_keeps ?_ (hl.of rfl)
    | refine State.count_keeps ?_ (hl.of rfl)
    | assumption
    | split
    | dsimp only

theorem execPortTapCopy_keeps {K i} (h : Keeps K s0 s) (hl : Sub 8820923306244 K) :
    OutKeeps K s0 (execPortTapCopy i s) := by
  unfold execPortTapCopy
  repeat' with_reducible first
    | exact h
    | exact OutKeeps.next h
    | refine State.evpRecord_keeps ?_ (hl.of rfl)
    | refine State.tapEjected_keeps ?_ (hl.of rfl)
    | refine State.count_keeps ?_ (hl.of rfl)
    | refine State.takeUnit_keeps ?_ (by with_reducible assumption) (hl.of rfl)
    | apply OutKeeps.next
    | assumption
    | split
    | dsimp only

theorem State.writeAll_keeps {K a r a3} {z} (h : Keeps K s0 s) (e : State.writeAll s a r a3 = (t, z)) (hl : Sub 8805756702724 K) :
    Keeps K s0 t := by
  induction a3 generalizing s t z a r with
  | nil =>
    unfold State.writeAll at e
    repeat' split at e
    all_goals cases e
    all_goals repeat' with_reducible first
      | exact h
  | cons _ _ ih =>
    unfold State.writeAll at e
    repeat' split at e
    all_goals cases e
    all_goals repeat' with_reducible first
      | exact h
      | refine ih ?_ (by with_reducible assumption)
      | refine State.ringEmit_keeps ?_ (by with_reducible assumption) (hl.of rfl)

theorem State.releaseRing_keeps {K a k n r mine} (h : Keeps K s0 s) (hl : Sub 8805756702724 K) :
    Keeps K s0 (State.releaseRing s a k n r mine) := by
  unfold State.releaseRing
  repeat' with_reducible first
    | exact h
    | refine State.shadow_keeps ?_ (hl.of rfl)
    | refine State.count_keeps ?_ (hl.of rfl)
    | refine State.writeAll_keeps ?_ (by with_reducible assumption) (hl.of rfl)
    | refine State.ringEmit_keeps ?_ (by with_reducible assumption) (hl.of rfl)
    | assumption
    | split
    | dsimp only
    | refine State.writeAll_keeps ?_ Prod.mk.eta.symm (hl.of rfl)
    | refine State.ringEmit_keeps ?_ Prod.mk.eta.symm (hl.of rfl)

theorem State.releaseAtt_keeps {K a k n} (h : Keeps K s0 s) (hl : Sub 8805756702724 K) :
    Keeps K s0 (State.releaseAtt s a k n) := by
  unfold State.releaseAtt
  repeat' with_reducible first
    | exact h
    | refine State.releaseRing_keeps ?_ (hl.of rfl)
    | refine State.relShow_keeps ?_ (hl.of rfl)
    | refine State.updAtt_keeps ?_ (hl.of rfl)
    | apply keeps_foldl (fun _ _ h => ?_)

theorem State.releasePort_keeps {K e1 k n} (h : Keeps K s0 s) (hl : Sub 23622320388 K) :
    Keeps K s0 (State.releasePort s e1 k n) := by
  unfold State.releasePort
  repeat' with_reducible first
    | exact h
    | refine State.flushEarly_keeps ?_ (hl.of rfl)
    | refine State.sendFrame_keeps ?_ (hl.of rfl)
    | refine State.updPort_keeps ?_ (hl.of rfl)
    | apply keeps_foldl (fun _ _ h => ?_)
    | assumption
    | split
    | dsimp only

theorem State.endpointInject_keeps {K ep k n g c e6} (h : Keeps K s0 s) (hl : Sub 8830318550276 K) :
    Keeps K s0 (State.endpointInject s ep k n g c e6) := by
  unfold State.endpointInject
  repeat' with_reducible first
    | exact h
    | refine State.inject_keeps ?_ (hl.of rfl)
    | refine State.setEpX_keeps ?_ (hl.of rfl)

theorem State.injectIn_keeps {K e1 n h3} (h : Keeps K s0 s) (hl : Sub 8830318550276 K) :
    Keeps K s0 (State.injectIn s e1 n h3) := by
  unfold State.injectIn
  repeat' with_reducible first
    | exact h
    | refine State.endpointInject_keeps ?_ (hl.of rfl)
    | apply keeps_foldl (fun _ _ h => ?_)

theorem State.acceptIn_keeps {K e1 h2} {z} (h : Keeps K s0 s) (e : State.acceptIn s e1 h2 = (t, z)) (hl : Sub 8830318550276 K) :
    Keeps K s0 t := by
  unfold State.acceptIn at e
  try dsimp only at e
  repeat' split at e
  all_goals with_reducible first | cases e
  repeat' with_reducible first
    | exact h
    | refine State.injectIn_keeps ?_ (hl.of rfl)
    | refine State.ctxLoss_keeps ?_ (hl.of rfl)
    | refine State.report_keeps ?_ (hl.of rfl)
    | refine State.updPort_keeps ?_ (hl.of rfl)
    | refine State.count_keeps ?_ (hl.of rfl)

theorem State.openIngress_keeps {K e1 k n} (h : Keeps K s0 s) (hl : Sub 8830318550276 K) :
    Keeps K s0 (State.openIngress s e1 k n) := by
  unfold State.openIngress
  repeat' with_reducible first
    | exact h
    | refine State.injectIn_keeps ?_ (hl.of rfl)
    | refine State.updPort_keeps ?_ (hl.of rfl)
    | apply keeps_foldl (fun _ _ h => ?_)

/-! ### Machine/Handler -/

theorem State.instr_keeps {K p w cycles effect} (heffect : ∀ t, Keeps K s0 t → Keeps K s0 (effect t)) (h : Keeps K s0 s) (hl : Sub 26389352814020 K) :
    Keeps K s0 (State.instr s p w cycles effect) := by
  unfold State.instr
  repeat' with_reducible first
    | exact h
    | apply heffect _
    | refine State.hdlEnd_keeps ?_ (hl.of rfl)
    | refine State.meet_keeps ?_ (hl.of rfl)
    | refine State.updCore_keeps ?_ (hl.of rfl)
    | assumption
    | split
    | dsimp only

theorem State.hdlNext_keeps {K p} (h : Keeps K s0 s) (hl : Sub 4 K) :
    Keeps K s0 (State.hdlNext s p) := by
  unfold State.hdlNext
  repeat' with_reducible first
    | exact h
    | refine State.setPc_keeps ?_ (hl.of rfl)

theorem State.aluR_keeps {K p op rd ra rb ext cycles f} (h : Keeps K s0 s) (hl : Sub 26389352814020 K) :
    Keeps K s0 (State.aluR s p op rd ra rb ext cycles f) := by
  unfold State.aluR
  repeat' with_reducible first
    | exact h
    | refine State.hdlNext_keeps ?_ (hl.of rfl)
    | refine State.instr_keeps ?_ ?_ (hl.of rfl)
    | refine State.hdlFault_keeps ?_ (hl.of rfl)
    | refine State.setH_keeps ?_ (hl.of rfl)
    | intro _ h
    | assumption
    | split

theorem State.aluI_keeps {K p op rd ra imm f} (h : Keeps K s0 s) (hl : Sub 26389352814020 K) :
    Keeps K s0 (State.aluI s p op rd ra imm f) := by
  unfold State.aluI
  repeat' with_reducible first
    | exact h
    | refine State.hdlNext_keeps ?_ (hl.of rfl)
    | refine State.instr_keeps ?_ ?_ (hl.of rfl)
    | refine State.setH_keeps ?_ (hl.of rfl)
    | intro _ h

theorem State.hdlLoad_keeps {K p op rd ra imm size} (h : Keeps K s0 s) (hl : Sub 26389352814020 K) :
    Keeps K s0 (State.hdlLoad s p op rd ra imm size) := by
  unfold State.hdlLoad
  repeat' with_reducible first
    | exact h
    | refine State.hdlNext_keeps ?_ (hl.of rfl)
    | refine State.instr_keeps ?_ ?_ (hl.of rfl)
    | refine State.hdlFault_keeps ?_ (hl.of rfl)
    | refine State.hdlEnd_keeps ?_ (hl.of rfl)
    | refine State.setH_keeps ?_ (hl.of rfl)
    | refine State.meet_keeps ?_ (hl.of rfl)
    | intro _ h
    | assumption
    | split
    | dsimp only

theorem State.hdlStore_keeps {K p op rd ra imm size} (h : Keeps K s0 s) (hl : Sub 26389352814020 K) :
    Keeps K s0 (State.hdlStore s p op rd ra imm size) := by
  unfold State.hdlStore
  repeat' with_reducible first
    | exact h
    | refine State.hdlNext_keeps ?_ (hl.of rfl)
    | refine State.instr_keeps ?_ ?_ (hl.of rfl)
    | refine State.hdlFault_keeps ?_ (hl.of rfl)
    | refine State.hdlEnd_keeps ?_ (hl.of rfl)
    | refine State.meet_keeps ?_ (hl.of rfl)
    | refine State.setNum_keeps ?_ (hl.of rfl)
    | intro _ h
    | assumption
    | split
    | dsimp only

theorem State.branch_keeps {K p op ra rb off f} (h : Keeps K s0 s) (hl : Sub 26389352814020 K) :
    Keeps K s0 (State.branch s p op ra rb off f) := by
  unfold State.branch
  repeat' with_reducible first
    | exact h
    | refine State.hdlNext_keeps ?_ (hl.of rfl)
    | refine State.instr_keeps ?_ ?_ (hl.of rfl)
    | refine State.hdlFault_keeps ?_ (hl.of rfl)
    | refine State.setPc_keeps ?_ (hl.of rfl)
    | intro _ h
    | assumption
    | split
    | dsimp only

theorem State.dispatchFrom_keeps {K p q} {z} (h : Keeps K s0 s) (e : State.dispatchFrom s p q = (t, z)) (hl : Sub 1028 K) :
    Keeps K s0 t := by
  unfold State.dispatchFrom at e
  try dsimp only at e
  repeat' split at e
  all_goals with_reducible first | cases e
  repeat' with_reducible first
    | exact h
    | refine State.setPc_keeps ?_ (hl.of rfl)
    | refine State.setH_keeps ?_ (hl.of rfl)
    | refine State.putQueue_keeps ?_ (hl.of rfl)
    | refine State.hdlState_keeps ?_ (hl.of rfl)
    | refine State.updCore_keeps ?_ (hl.of rfl)
    | refine State.count_keeps ?_ (hl.of rfl)
    | refine State.wf'_keeps ?_ (hl.of rfl)
    | apply keeps_foldl (fun _ _ h => ?_)

theorem State.sendResult_keeps {K p r code} (h : Keeps K s0 s) (hl : Sub 1028 K) :
    Keeps K s0 (State.sendResult s p r code) := by
  unfold State.sendResult
  repeat' with_reducible first
    | exact h
    | refine State.hdlGo_keeps ?_ (hl.of rfl)
    | refine State.setH_keeps ?_ (hl.of rfl)

theorem State.nestIn_keeps {K p q r} (h : Keeps K s0 s) (hl : Sub 1028 K) :
    Keeps K s0 (State.nestIn s p q r) := by
  unfold State.nestIn
  repeat' with_reducible first
    | exact h
    | refine State.hdlState_keeps ?_ (hl.of rfl)
    | refine State.updCore_keeps ?_ (hl.of rfl)
    | refine State.count_keeps ?_ (hl.of rfl)
    | refine State.wf'_keeps ?_ (hl.of rfl)
    | refine State.dispatchFrom_keeps ?_ (by with_reducible assumption) (hl.of rfl)
    | assumption
    | split

theorem State.retryGap_keeps {K p r} (h : Keeps K s0 s) (hl : Sub 1028 K) :
    Keeps K s0 (State.retryGap s p r) := by
  unfold State.retryGap
  repeat' with_reducible first
    | exact h
    | refine State.nestIn_keeps ?_ (hl.of rfl)
    | refine State.hdlState_keeps ?_ (hl.of rfl)
    | refine State.updCore_keeps ?_ (hl.of rfl)
    | assumption
    | split

theorem State.attemptEnds_keeps {K p r code} (h : Keeps K s0 s) (hl : Sub 1028 K) :
    Keeps K s0 (State.attemptEnds s p r code) := by
  unfold State.attemptEnds
  repeat' with_reducible first
    | exact h
    | refine State.retryGap_keeps ?_ (hl.of rfl)
    | refine State.sendResult_keeps ?_ (hl.of rfl)
    | refine State.count_keeps ?_ (hl.of rfl)
    | assumption
    | split
    | dsimp only

theorem State.attempt_keeps {K p r} (h : Keeps K s0 s) (hl : Sub 8829781679364 K) :
    Keeps K s0 (State.attempt s p r) := by
  unfold State.attempt
  repeat' with_reducible first
    | exact h
    | refine State.attemptEnds_keeps ?_ (hl.of rfl)
    | refine State.unicastMark_keeps ?_ (hl.of rfl)
    | refine State.hdlState_keeps ?_ (hl.of rfl)
    | refine State.updCore_keeps ?_ (hl.of rfl)
    | refine State.accept_keeps ?_ (by with_reducible assumption) (hl.of rfl)
    | assumption
    | split
    | dsimp only
    | refine State.accept_keeps ?_ Prod.mk.eta.symm (hl.of rfl)

theorem State.sendInstr_keeps {K p op rd ra rb ext retrying} (h : Keeps K s0 s) (hl : Sub 26421967723972 K) :
    Keeps K s0 (State.sendInstr s p op rd ra rb ext retrying) := by
  unfold State.sendInstr
  repeat' with_reducible first
    | exact h
    | refine State.attempt_keeps ?_ (hl.of rfl)
    | refine State.instr_keeps ?_ ?_ (hl.of rfl)
    | refine State.hdlFault_keeps ?_ (hl.of rfl)
    | intro _ h
    | assumption
    | split
    | dsimp only

theorem State.setPair_keeps {K p rd a b} (h : Keeps K s0 s) (hl : Sub 1024 K) :
    Keeps K s0 (State.setPair s p rd a b) := by
  unfold State.setPair
  repeat' with_reducible first
    | exact h
    | refine State.setH_keeps ?_ (hl.of rfl)

theorem State.syncNak_keeps {K p rd code} (h : Keeps K s0 s) (hl : Sub 17592186045444 K) :
    Keeps K s0 (State.syncNak s p rd code) := by
  unfold State.syncNak
  repeat' with_reducible first
    | exact h
    | refine State.setPair_keeps ?_ (hl.of rfl)
    | refine State.hdlNext_keeps ?_ (hl.of rfl)
    | refine State.freeWord_keeps ?_ (by with_reducible assumption) (hl.of rfl)
    | assumption
    | split
    | dsimp only
    | refine State.freeWord_keeps ?_ Prod.mk.eta.symm (hl.of rfl)

theorem State.reserveFor_keeps {K p op q} {z} (h : Keeps K s0 s) (e : State.reserveFor s p op q = (t, z)) (hl : Sub 1028 K) :
    Keeps K s0 t := by
  unfold State.reserveFor at e
  try dsimp only at e
  repeat' split at e
  all_goals with_reducible first | refine State.reserve_keeps ?_ e (hl.of rfl) | cases e
  repeat' with_reducible first
    | exact h

theorem State.syncSend_keeps {K p rd op a operand gen16} (h : Keeps K s0 s) (hl : Sub 26421967723780 K) :
    Keeps K s0 (State.syncSend s p rd op a operand gen16) := by
  unfold State.syncSend
  repeat' with_reducible first
    | exact h
    | refine State.syncNak_keeps ?_ (hl.of rfl)
    | refine State.toUnit_keeps ?_ (hl.of rfl)
    | refine State.hdlState_keeps ?_ (hl.of rfl)
    | refine State.updCore_keeps ?_ (hl.of rfl)
    | refine State.reserveFor_keeps ?_ (by with_reducible assumption) (hl.of rfl)
    | assumption
    | split
    | dsimp only
    | refine State.reserveFor_keeps ?_ Prod.mk.eta.symm (hl.of rfl)

theorem State.syncInstr_keeps {K p opc rd ra rb ext op} (h : Keeps K s0 s) (hl : Sub 26421967723972 K) :
    Keeps K s0 (State.syncInstr s p opc rd ra rb ext op) := by
  unfold State.syncInstr
  repeat' with_reducible first
    | exact h
    | refine State.syncSend_keeps ?_ (hl.of rfl)
    | refine State.instr_keeps ?_ ?_ (hl.of rfl)
    | refine State.hdlFault_keeps ?_ (hl.of rfl)
    | intro _ h
    | assumption
    | split
    | dsimp only

theorem execHandlerDispatch_keeps {K p} (h : Keeps K s0 s) (hl : Sub 1028 K) :
    OutKeeps K s0 (execHandlerDispatch p s) := by
  unfold execHandlerDispatch
  repeat' with_reducible first
    | exact h
    | exact OutKeeps.next h
    | refine State.wake_keeps ?_ (hl.of rfl)
    | refine State.dispatchFrom_keeps ?_ (by with_reducible assumption) (hl.of rfl)
    | apply OutKeeps.next
    | assumption
    | split
    | dsimp only
    | refine State.dispatchFrom_keeps ?_ Prod.mk.eta.symm (hl.of rfl)

theorem execRet_keeps {K p low} (h : Keeps K s0 s) (hl : Sub 26389352814020 K) :
    OutKeeps K s0 (execRet p low s) := by
  unfold execRet
  repeat' with_reducible first
    | exact h
    | exact OutKeeps.next h
    | refine State.instr_keeps ?_ ?_ (hl.of rfl)
    | refine State.hdlFault_keeps ?_ (hl.of rfl)
    | refine State.hdlEnd_keeps ?_ (hl.of rfl)
    | apply OutKeeps.next
    | intro _ h
    | assumption
    | split

theorem execAdd_keeps {K p rd ra rb ext} (h : Keeps K s0 s) (hl : Sub 26389352814020 K) :
    OutKeeps K s0 (execAdd p rd ra rb ext s) := by
  unfold execAdd
  repeat' with_reducible first
    | exact h
    | exact OutKeeps.next h
    | refine State.aluR_keeps ?_ (hl.of rfl)
    | apply OutKeeps.next

theorem execSub_keeps {K p rd ra rb ext} (h : Keeps K s0 s) (hl : Sub 26389352814020 K) :
    OutKeeps K s0 (execSub p rd ra rb ext s) := by
  unfold execSub
  repeat' with_reducible first
    | exact h
    | exact OutKeeps.next h
    | refine State.aluR_keeps ?_ (hl.of rfl)
    | apply OutKeeps.next

theorem execAnd_keeps {K p rd ra rb ext} (h : Keeps K s0 s) (hl : Sub 26389352814020 K) :
    OutKeeps K s0 (execAnd p rd ra rb ext s) := by
  unfold execAnd
  repeat' with_reducible first
    | exact h
    | exact OutKeeps.next h
    | refine State.aluR_keeps ?_ (hl.of rfl)
    | apply OutKeeps.next

theorem execOr_keeps {K p rd ra rb ext} (h : Keeps K s0 s) (hl : Sub 26389352814020 K) :
    OutKeeps K s0 (execOr p rd ra rb ext s) := by
  unfold execOr
  repeat' with_reducible first
    | exact h
    | exact OutKeeps.next h
    | refine State.aluR_keeps ?_ (hl.of rfl)
    | apply OutKeeps.next

theorem execXor_keeps {K p rd ra rb ext} (h : Keeps K s0 s) (hl : Sub 26389352814020 K) :
    OutKeeps K s0 (execXor p rd ra rb ext s) := by
  unfold execXor
  repeat' with_reducible first
    | exact h
    | exact OutKeeps.next h
    | refine State.aluR_keeps ?_ (hl.of rfl)
    | apply OutKeeps.next

theorem execShl_keeps {K p rd ra rb ext} (h : Keeps K s0 s) (hl : Sub 26389352814020 K) :
    OutKeeps K s0 (execShl p rd ra rb ext s) := by
  unfold execShl
  repeat' with_reducible first
    | exact h
    | exact OutKeeps.next h
    | refine State.aluR_keeps ?_ (hl.of rfl)
    | apply OutKeeps.next

theorem execShr_keeps {K p rd ra rb ext} (h : Keeps K s0 s) (hl : Sub 26389352814020 K) :
    OutKeeps K s0 (execShr p rd ra rb ext s) := by
  unfold execShr
  repeat' with_reducible first
    | exact h
    | exact OutKeeps.next h
    | refine State.aluR_keeps ?_ (hl.of rfl)
    | apply OutKeeps.next

theorem execSar_keeps {K p rd ra rb ext} (h : Keeps K s0 s) (hl : Sub 26389352814020 K) :
    OutKeeps K s0 (execSar p rd ra rb ext s) := by
  unfold execSar
  repeat' with_reducible first
    | exact h
    | exact OutKeeps.next h
    | refine State.aluR_keeps ?_ (hl.of rfl)
    | apply OutKeeps.next

theorem execSlt_keeps {K p rd ra rb ext} (h : Keeps K s0 s) (hl : Sub 26389352814020 K) :
    OutKeeps K s0 (execSlt p rd ra rb ext s) := by
  unfold execSlt
  repeat' with_reducible first
    | exact h
    | exact OutKeeps.next h
    | refine State.aluR_keeps ?_ (hl.of rfl)
    | apply OutKeeps.next

theorem execMul_keeps {K p rd ra rb ext} (h : Keeps K s0 s) (hl : Sub 26389352814020 K) :
    OutKeeps K s0 (execMul p rd ra rb ext s) := by
  unfold execMul
  repeat' with_reducible first
    | exact h
    | exact OutKeeps.next h
    | refine State.aluR_keeps ?_ (hl.of rfl)
    | apply OutKeeps.next

theorem execAddi_keeps {K p rd ra imm} (h : Keeps K s0 s) (hl : Sub 26389352814020 K) :
    OutKeeps K s0 (execAddi p rd ra imm s) := by
  unfold execAddi
  repeat' with_reducible first
    | exact h
    | exact OutKeeps.next h
    | refine State.aluI_keeps ?_ (hl.of rfl)
    | apply OutKeeps.next

theorem execAndi_keeps {K p rd ra imm} (h : Keeps K s0 s) (hl : Sub 26389352814020 K) :
    OutKeeps K s0 (execAndi p rd ra imm s) := by
  unfold execAndi
  repeat' with_reducible first
    | exact h
    | exact OutKeeps.next h
    | refine State.aluI_keeps ?_ (hl.of rfl)
    | apply OutKeeps.next

theorem execOri_keeps {K p rd ra imm} (h : Keeps K s0 s) (hl : Sub 26389352814020 K) :
    OutKeeps K s0 (execOri p rd ra imm s) := by
  unfold execOri
  repeat' with_reducible first
    | exact h
    | exact OutKeeps.next h
    | refine State.aluI_keeps ?_ (hl.of rfl)
    | apply OutKeeps.next

theorem execLui_keeps {K p rd ra imm} (h : Keeps K s0 s) (hl : Sub 26389352814020 K) :
    OutKeeps K s0 (execLui p rd ra imm s) := by
  unfold execLui
  repeat' with_reducible first
    | exact h
    | exact OutKeeps.next h
    | refine State.hdlNext_keeps ?_ (hl.of rfl)
    | refine State.instr_keeps ?_ ?_ (hl.of rfl)
    | refine State.hdlFault_keeps ?_ (hl.of rfl)
    | refine State.setH_keeps ?_ (hl.of rfl)
    | apply OutKeeps.next
    | intro _ h
    | assumption
    | split

theorem execLd_keeps {K p rd ra imm} (h : Keeps K s0 s) (hl : Sub 26389352814020 K) :
    OutKeeps K s0 (execLd p rd ra imm s) := by
  unfold execLd
  repeat' with_reducible first
    | exact h
    | exact OutKeeps.next h
    | refine State.hdlLoad_keeps ?_ (hl.of rfl)
    | apply OutKeeps.next

theorem execSt_keeps {K p rd ra imm} (h : Keeps K s0 s) (hl : Sub 26389352814020 K) :
    OutKeeps K s0 (execSt p rd ra imm s) := by
  unfold execSt
  repeat' with_reducible first
    | exact h
    | exact OutKeeps.next h
    | refine State.hdlStore_keeps ?_ (hl.of rfl)
    | apply OutKeeps.next

theorem execLdb_keeps {K p rd ra imm} (h : Keeps K s0 s) (hl : Sub 26389352814020 K) :
    OutKeeps K s0 (execLdb p rd ra imm s) := by
  unfold execLdb
  repeat' with_reducible first
    | exact h
    | exact OutKeeps.next h
    | refine State.hdlLoad_keeps ?_ (hl.of rfl)
    | apply OutKeeps.next

theorem execStb_keeps {K p rd ra imm} (h : Keeps K s0 s) (hl : Sub 26389352814020 K) :
    OutKeeps K s0 (execStb p rd ra imm s) := by
  unfold execStb
  repeat' with_reducible first
    | exact h
    | exact OutKeeps.next h
    | refine State.hdlStore_keeps ?_ (hl.of rfl)
    | apply OutKeeps.next

theorem execNrd_keeps {K p rd ra imm} (h : Keeps K s0 s) (hl : Sub 26389352814020 K) :
    OutKeeps K s0 (execNrd p rd ra imm s) := by
  unfold execNrd
  repeat' with_reducible first
    | exact h
    | exact OutKeeps.next h
    | refine State.setPair_keeps ?_ (hl.of rfl)
    | refine State.hdlNext_keeps ?_ (hl.of rfl)
    | refine State.instr_keeps ?_ ?_ (hl.of rfl)
    | refine State.hdlFault_keeps ?_ (hl.of rfl)
    | refine State.hdlEnd_keeps ?_ (hl.of rfl)
    | refine State.meet_keeps ?_ (hl.of rfl)
    | apply OutKeeps.next
    | intro _ h
    | assumption
    | split
    | dsimp only

theorem execSys_keeps {K p rd ra imm} (h : Keeps K s0 s) (hl : Sub 26389352814020 K) :
    OutKeeps K s0 (execSys p rd ra imm s) := by
  unfold execSys
  repeat' with_reducible first
    | exact h
    | exact OutKeeps.next h
    | refine State.hdlNext_keeps ?_ (hl.of rfl)
    | refine State.instr_keeps ?_ ?_ (hl.of rfl)
    | refine State.hdlFault_keeps ?_ (hl.of rfl)
    | refine State.setH_keeps ?_ (hl.of rfl)
    | apply OutKeeps.next
    | intro _ h
    | assumption
    | split

theorem execEmit_keeps {K p rd ra rb ext} (h : Keeps K s0 s) (hl : Sub 26421967723972 K) :
    OutKeeps K s0 (execEmit p rd ra rb ext s) := by
  unfold execEmit
  repeat' with_reducible first
    | exact h
    | exact OutKeeps.next h
    | refine State.hdlNext_keeps ?_ (hl.of rfl)
    | refine State.instr_keeps ?_ ?_ (hl.of rfl)
    | refine State.hdlFault_keeps ?_ (hl.of rfl)
    | refine State.stallShow_keeps ?_ (hl.of rfl)
    | refine State.updCore_keeps ?_ (hl.of rfl)
    | refine State.handlerEmit_keeps ?_ (by with_reducible assumption) (hl.of rfl)
    | refine State.emit_keeps ?_ (by with_reducible assumption) (hl.of rfl)
    | apply OutKeeps.next
    | intro _ h
    | assumption
    | split
    | dsimp only

theorem execDense_keeps {K p rd ra rb ext} (h : Keeps K s0 s) (hl : Sub 26389352814020 K) :
    OutKeeps K s0 (execDense p rd ra rb ext s) := by
  unfold execDense
  repeat' with_reducible first
    | exact h
    | exact OutKeeps.next h
    | refine State.hdlNext_keeps ?_ (hl.of rfl)
    | refine State.instr_keeps ?_ ?_ (hl.of rfl)
    | refine State.dnsNext_keeps ?_ (hl.of rfl)
    | refine State.hdlFault_keeps ?_ (hl.of rfl)
    | refine State.setH_keeps ?_ (hl.of rfl)
    | refine State.updCore_keeps ?_ (hl.of rfl)
    | refine State.reserve_keeps ?_ (by with_reducible assumption) (hl.of rfl)
    | apply OutKeeps.next
    | intro _ h
    | assumption
    | split
    | dsimp only
    | refine State.reserve_keeps ?_ Prod.mk.eta.symm (hl.of rfl)

theorem execSend_keeps {K p rd ra rb ext} (h : Keeps K s0 s) (hl : Sub 26421967723972 K) :
    OutKeeps K s0 (execSend p rd ra rb ext s) := by
  unfold execSend
  repeat' with_reducible first
    | exact h
    | exact OutKeeps.next h
    | refine State.sendInstr_keeps ?_ (hl.of rfl)
    | apply OutKeeps.next

theorem execSendw_keeps {K p rd ra rb ext} (h : Keeps K s0 s) (hl : Sub 26421967723972 K) :
    OutKeeps K s0 (execSendw p rd ra rb ext s) := by
  unfold execSendw
  repeat' with_reducible first
    | exact h
    | exact OutKeeps.next h
    | refine State.sendInstr_keeps ?_ (hl.of rfl)
    | apply OutKeeps.next

theorem execWaitq_keeps {K p rd ra imm} (h : Keeps K s0 s) (hl : Sub 26389352814020 K) :
    OutKeeps K s0 (execWaitq p rd ra imm s) := by
  unfold execWaitq
  repeat' with_reducible first
    | exact h
    | exact OutKeeps.next h
    | refine State.hdlNext_keeps ?_ (hl.of rfl)
    | refine State.instr_keeps ?_ ?_ (hl.of rfl)
    | refine State.waitqTake_keeps ?_ (hl.of rfl)
    | refine State.hdlFault_keeps ?_ (hl.of rfl)
    | refine State.setH_keeps ?_ (hl.of rfl)
    | refine State.hdlState_keeps ?_ (hl.of rfl)
    | refine State.updCore_keeps ?_ (hl.of rfl)
    | apply OutKeeps.next
    | intro _ h
    | assumption
    | split

theorem execSadd_keeps {K p rd ra rb ext} (h : Keeps K s0 s) (hl : Sub 26421967723972 K) :
    OutKeeps K s0 (execSadd p rd ra rb ext s) := by
  unfold execSadd
  repeat' with_reducible first
    | exact h
    | exact OutKeeps.next h
    | refine State.syncInstr_keeps ?_ (hl.of rfl)
    | apply OutKeeps.next

theorem execSwait_keeps {K p rd ra rb ext} (h : Keeps K s0 s) (hl : Sub 26421967723972 K) :
    OutKeeps K s0 (execSwait p rd ra rb ext s) := by
  unfold execSwait
  repeat' with_reducible first
    | exact h
    | exact OutKeeps.next h
    | refine State.syncInstr_keeps ?_ (hl.of rfl)
    | apply OutKeeps.next

theorem execSread_keeps {K p rd ra rb ext} (h : Keeps K s0 s) (hl : Sub 26421967723972 K) :
    OutKeeps K s0 (execSread p rd ra rb ext s) := by
  unfold execSread
  repeat' with_reducible first
    | exact h
    | exact OutKeeps.next h
    | refine State.syncInstr_keeps ?_ (hl.of rfl)
    | apply OutKeeps.next

theorem execBeq_keeps {K p ra rb off} (h : Keeps K s0 s) (hl : Sub 26389352814020 K) :
    OutKeeps K s0 (execBeq p ra rb off s) := by
  unfold execBeq
  repeat' with_reducible first
    | exact h
    | exact OutKeeps.next h
    | refine State.branch_keeps ?_ (hl.of rfl)
    | apply OutKeeps.next

theorem execBne_keeps {K p ra rb off} (h : Keeps K s0 s) (hl : Sub 26389352814020 K) :
    OutKeeps K s0 (execBne p ra rb off s) := by
  unfold execBne
  repeat' with_reducible first
    | exact h
    | exact OutKeeps.next h
    | refine State.branch_keeps ?_ (hl.of rfl)
    | apply OutKeeps.next

theorem execBlt_keeps {K p ra rb off} (h : Keeps K s0 s) (hl : Sub 26389352814020 K) :
    OutKeeps K s0 (execBlt p ra rb off s) := by
  unfold execBlt
  repeat' with_reducible first
    | exact h
    | exact OutKeeps.next h
    | refine State.branch_keeps ?_ (hl.of rfl)
    | apply OutKeeps.next

theorem execBge_keeps {K p ra rb off} (h : Keeps K s0 s) (hl : Sub 26389352814020 K) :
    OutKeeps K s0 (execBge p ra rb off s) := by
  unfold execBge
  repeat' with_reducible first
    | exact h
    | exact OutKeeps.next h
    | refine State.branch_keeps ?_ (hl.of rfl)
    | apply OutKeeps.next

theorem execJ_keeps {K p low} (h : Keeps K s0 s) (hl : Sub 26389352814020 K) :
    OutKeeps K s0 (execJ p low s) := by
  unfold execJ
  repeat' with_reducible first
    | exact h
    | exact OutKeeps.next h
    | refine State.instr_keeps ?_ ?_ (hl.of rfl)
    | refine State.hdlFault_keeps ?_ (hl.of rfl)
    | refine State.setPc_keeps ?_ (hl.of rfl)
    | apply OutKeeps.next
    | intro _ h
    | assumption
    | split

theorem execHandlerBudgetExpire_keeps {K p} (h : Keeps K s0 s) (hl : Sub 8797166769156 K) :
    OutKeeps K s0 (execHandlerBudgetExpire p s) := by
  unfold execHandlerBudgetExpire
  repeat' with_reducible first
    | exact h
    | exact OutKeeps.next h
    | refine State.hdlFault_keeps ?_ (hl.of rfl)
    | apply OutKeeps.next
    | assumption
    | split

theorem execSendResponseTimeout_keeps {K p} (h : Keeps K s0 s) (hl : Sub 1028 K) :
    OutKeeps K s0 (execSendResponseTimeout p s) := by
  unfold execSendResponseTimeout
  repeat' with_reducible first
    | exact h
    | exact OutKeeps.next h
    | refine State.attemptEnds_keeps ?_ (hl.of rfl)
    | apply OutKeeps.next
    | assumption
    | split

theorem execSendwRetryGap_keeps {K p} (h : Keeps K s0 s) (hl : Sub 8829781679364 K) :
    OutKeeps K s0 (execSendwRetryGap p s) := by
  unfold execSendwRetryGap
  repeat' with_reducible first
    | exact h
    | exact OutKeeps.next h
    | refine State.attempt_keeps ?_ (hl.of rfl)
    | refine State.count_keeps ?_ (hl.of rfl)
    | apply OutKeeps.next
    | assumption
    | split

theorem execWaitqTimeout_keeps {K p} (h : Keeps K s0 s) (hl : Sub 1028 K) :
    OutKeeps K s0 (execWaitqTimeout p s) := by
  unfold execWaitqTimeout
  repeat' with_reducible first
    | exact h
    | exact OutKeeps.next h
    | refine State.hdlGo_keeps ?_ (hl.of rfl)
    | refine State.setH_keeps ?_ (hl.of rfl)
    | apply OutKeeps.next
    | assumption
    | split

theorem execMsg_keeps {K i} (h : Keeps K s0 s) (hl : Sub 134218756 K) :
    OutKeeps K s0 (execMsg i s) := by
  unfold execMsg
  repeat' with_reducible first
    | exact h
    | exact OutKeeps.next h
    | refine State.receive_keeps ?_ (hl.of rfl)
    | refine State.discard_keeps ?_ (hl.of rfl)
    | refine State.takeCore_keeps ?_ (by with_reducible assumption) (hl.of rfl)
    | apply OutKeeps.next
    | assumption
    | split

theorem execNotify_keeps {K i} (h : Keeps K s0 s) (hl : Sub 134218756 K) :
    OutKeeps K s0 (execNotify i s) := by
  unfold execNotify
  repeat' with_reducible first
    | exact h
    | exact OutKeeps.next h
    | refine State.fillReserved_keeps ?_ (hl.of rfl)
    | refine State.wake_keeps ?_ (hl.of rfl)
    | refine State.takeCore_keeps ?_ (by with_reducible assumption) (hl.of rfl)
    | apply OutKeeps.next
    | assumption
    | split

theorem execAmArgs_keeps {K i} (h : Keeps K s0 s) (hl : Sub 134218756 K) :
    OutKeeps K s0 (execAmArgs i s) := by
  unfold execAmArgs
  repeat' with_reducible first
    | exact h
    | exact OutKeeps.next h
    | refine State.receive_keeps ?_ (hl.of rfl)
    | refine State.discard_keeps ?_ (hl.of rfl)
    | refine State.takeCore_keeps ?_ (by with_reducible assumption) (hl.of rfl)
    | apply OutKeeps.next
    | assumption
    | split

theorem execResponse_keeps {K i} (h : Keeps K s0 s) (hl : Sub 8805890921476 K) :
    OutKeeps K s0 (execResponse i s) := by
  unfold execResponse
  repeat' with_reducible first
    | exact h
    | exact OutKeeps.next h
    | refine State.attemptEnds_keeps ?_ (hl.of rfl)
    | refine State.finish_keeps ?_ (hl.of rfl)
    | refine State.wake_keeps ?_ (hl.of rfl)
    | refine State.updAtt_keeps ?_ (hl.of rfl)
    | refine State.count_keeps ?_ (hl.of rfl)
    | refine State.take_keeps ?_ (by with_reducible assumption) (hl.of rfl)
    | apply OutKeeps.next
    | assumption
    | split
    | dsimp only

theorem execSyncReply_keeps {K i} (h : Keeps K s0 s) (hl : Sub 134218756 K) :
    OutKeeps K s0 (execSyncReply i s) := by
  unfold execSyncReply
  repeat' with_reducible first
    | exact h
    | exact OutKeeps.next h
    | refine State.setPair_keeps ?_ (hl.of rfl)
    | refine State.hdlGo_keeps ?_ (hl.of rfl)
    | refine State.unreserve_keeps ?_ (hl.of rfl)
    | refine State.wake_keeps ?_ (hl.of rfl)
    | refine State.count_keeps ?_ (hl.of rfl)
    | refine State.takeCore_keeps ?_ (by with_reducible assumption) (hl.of rfl)
    | apply OutKeeps.next
    | assumption
    | split

theorem execResponseSend_keeps {K p} (h : Keeps K s0 s) (hl : Sub 8829781679364 K) :
    OutKeeps K s0 (execResponseSend p s) := by
  unfold execResponseSend
  repeat' with_reducible first
    | exact h
    | exact OutKeeps.next h
    | refine State.toUnitMark_keeps ?_ (hl.of rfl)
    | refine State.unicastMark_keeps ?_ (hl.of rfl)
    | refine State.updCore_keeps ?_ (hl.of rfl)
    | apply OutKeeps.next
    | assumption
    | split

/-! ### Machine/Sync -/

theorem State.setObj_keeps {K g i o} (h : Keeps K s0 s) (hl : Sub 2048 K) :
    Keeps K s0 (State.setObj s g i o) := by
  unfold State.setObj
  repeat' with_reducible first
    | exact h
    | refine State.updGrove_keeps ?_ (hl.of rfl)

theorem State.poolShow_keeps {K g} (h : Keeps K s0 s) (hl : Sub 4 K) :
    Keeps K s0 (State.poolShow s g) := by
  unfold State.poolShow
  repeat' with_reducible first
    | exact h
    | refine State.high_keeps ?_ (hl.of rfl)
    | refine State.wf'_keeps ?_ (hl.of rfl)

theorem State.notify_keeps {K g i n} (h : Keeps K s0 s) (hl : Sub 2052 K) :
    Keeps K s0 (State.notify s g i n) := by
  unfold State.notify
  repeat' with_reducible first
    | exact h
    | refine State.poolShow_keeps ?_ (hl.of rfl)
    | refine State.setGrove_keeps ?_ (hl.of rfl)

theorem State.syncAddOp_keeps {K g i v} {z} (h : Keeps K s0 s) (e : State.syncAddOp s g i v = (t, z)) (hl : Sub 2052 K) :
    Keeps K s0 t := by
  unfold State.syncAddOp at e
  try dsimp only at e
  repeat' split at e
  all_goals with_reducible first | cases e
  repeat' with_reducible first
    | exact h
    | refine State.notify_keeps ?_ (hl.of rfl)
    | refine State.setObj_keeps ?_ (hl.of rfl)
    | refine State.count_keeps ?_ (hl.of rfl)

theorem State.noticeNow_keeps {K g logical q w} (h : Keeps K s0 s) (hl : Sub 2048 K) :
    Keeps K s0 (State.noticeNow s g logical q w) := by
  unfold State.noticeNow
  repeat' with_reducible first
    | exact h
    | refine State.updGrove_keeps ?_ (hl.of rfl)

theorem State.syncWaitOp_keeps {K g r logical} {z} (h : Keeps K s0 s) (e : State.syncWaitOp s g r logical = (t, z)) (hl : Sub 2052 K) :
    Keeps K s0 t := by
  unfold State.syncWaitOp at e
  try dsimp only at e
  repeat' split at e
  all_goals with_reducible first | cases e
  repeat' with_reducible first
    | exact h
    | refine State.noticeNow_keeps ?_ (hl.of rfl)
    | refine State.poolShow_keeps ?_ (hl.of rfl)
    | refine State.setObj_keeps ?_ (hl.of rfl)
    | refine State.updGrove_keeps ?_ (hl.of rfl)
    | refine State.count_keeps ?_ (hl.of rfl)

theorem State.syncReply_keeps {K g r code v} (h : Keeps K s0 s) (hl : Sub 8829781679364 K) :
    Keeps K s0 (State.syncReply s g r code v) := by
  unfold State.syncReply
  repeat' with_reducible first
    | exact h
    | refine State.fromStopMark_keeps ?_ (hl.of rfl)

theorem State.syncTake_keeps {K i op} {z y x} (h : Keeps K s0 s) (e : State.syncTake s i op = some (z, y, x, t)) (hl : Sub 134217728 K) :
    Keeps K s0 t := by
  unfold State.syncTake at e
  try dsimp only at e
  repeat' split at e
  all_goals with_reducible first | cases e
  repeat' with_reducible first
    | exact h
    | refine State.takeUnit_keeps ?_ (by with_reducible assumption) (hl.of rfl)

theorem execSyncAdd_keeps {K i} (h : Keeps K s0 s) (hl : Sub 8829781679364 K) :
    OutKeeps K s0 (execSyncAdd i s) := by
  unfold execSyncAdd
  repeat' with_reducible first
    | exact h
    | exact OutKeeps.next h
    | refine State.syncReply_keeps ?_ (hl.of rfl)
    | refine State.count_keeps ?_ (hl.of rfl)
    | refine State.syncTake_keeps ?_ (by with_reducible assumption) (hl.of rfl)
    | refine State.syncAddOp_keeps ?_ (by with_reducible assumption) (hl.of rfl)
    | apply OutKeeps.next
    | assumption
    | split
    | dsimp only
    | refine State.syncAddOp_keeps ?_ Prod.mk.eta.symm (hl.of rfl)

theorem execSyncWait_keeps {K i} (h : Keeps K s0 s) (hl : Sub 8829781679364 K) :
    OutKeeps K s0 (execSyncWait i s) := by
  unfold execSyncWait
  repeat' with_reducible first
    | exact h
    | exact OutKeeps.next h
    | refine State.syncReply_keeps ?_ (hl.of rfl)
    | refine State.count_keeps ?_ (hl.of rfl)
    | refine State.syncTake_keeps ?_ (by with_reducible assumption) (hl.of rfl)
    | refine State.syncWaitOp_keeps ?_ (by with_reducible assumption) (hl.of rfl)
    | apply OutKeeps.next
    | assumption
    | split
    | dsimp only
    | refine State.syncWaitOp_keeps ?_ Prod.mk.eta.symm (hl.of rfl)

theorem execSyncRead_keeps {K i} (h : Keeps K s0 s) (hl : Sub 8829781679364 K) :
    OutKeeps K s0 (execSyncRead i s) := by
  unfold execSyncRead
  repeat' with_reducible first
    | exact h
    | exact OutKeeps.next h
    | refine State.syncReply_keeps ?_ (hl.of rfl)
    | refine State.count_keeps ?_ (hl.of rfl)
    | refine State.syncTake_keeps ?_ (by with_reducible assumption) (hl.of rfl)
    | apply OutKeeps.next
    | assumption
    | split

theorem execSyncNotifyIssue_keeps {K g} (h : Keeps K s0 s) (hl : Sub 8829781679364 K) :
    OutKeeps K s0 (execSyncNotifyIssue g s) := by
  unfold execSyncNotifyIssue
  repeat' with_reducible first
    | exact h
    | exact OutKeeps.next h
    | refine State.fromStop_keeps ?_ (hl.of rfl)
    | refine State.updGrove_keeps ?_ (hl.of rfl)
    | refine State.count_keeps ?_ (hl.of rfl)
    | apply OutKeeps.next
    | assumption
    | split
    | dsimp only

theorem State.filtered_keeps {K a addr} (h : Keeps K s0 s) (hl : Sub 4 K) :
    Keeps K s0 (State.filtered s a addr) := by
  unfold State.filtered
  repeat' with_reducible first
    | exact h
    | refine State.count_keeps ?_ (hl.of rfl)
    | refine State.wr_keeps ?_ (hl.of rfl)

theorem execHostSyncAdd_keeps {K a g i v} (h : Keeps K s0 s) (hl : Sub 2052 K) :
    OutKeeps K s0 (execHostSyncAdd a g i v s) := by
  unfold execHostSyncAdd
  repeat' with_reducible first
    | exact h
    | exact OutKeeps.next h
    | refine State.filtered_keeps ?_ (hl.of rfl)
    | refine State.syncAddOp_keeps ?_ (by with_reducible assumption) (hl.of rfl)
    | apply OutKeeps.next
    | assumption
    | split
    | dsimp only
    | refine State.syncAddOp_keeps ?_ Prod.mk.eta.symm (hl.of rfl)

theorem execBar2SyncWrite_keeps {K a g i reg v} (h : Keeps K s0 s) (hl : Sub 2052 K) :
    OutKeeps K s0 (execBar2SyncWrite a g i reg v s) := by
  unfold execBar2SyncWrite
  repeat' with_reducible first
    | exact h
    | exact OutKeeps.next h
    | refine State.filtered_keeps ?_ (hl.of rfl)
    | refine State.setObj_keeps ?_ (hl.of rfl)
    | apply OutKeeps.next
    | assumption
    | split
    | dsimp only

end Sys2Proof.Machine
end

