-- ==== Sys2Proof/Laws/KeepsFabric.lean ====
section
/-! SUPPORT. What the operations keep (Safety: Keeps): the fabric, plasticity, replay, roles and digests. One lemma per operation. -/
namespace Sys2Proof.Machine

variable {s0 s t : State}

/-! ### Machine/Plasticity -/

theorem State.plsWrite_keeps {K addr v} (h : Keeps K s0 s) (hl : Sub 2564 K) :
    Keeps K s0 (State.plsWrite s addr v) := by
  unfold State.plsWrite
  repeat' with_reducible first
    | exact h
    | refine State.hbmWrite_keeps ?_ (hl.of rfl)

theorem State.visit_keeps {K n addr} (h : Keeps K s0 s) (hl : Sub 2564 K) :
    Keeps K s0 (State.visit s n addr) := by
  unfold State.visit
  repeat' with_reducible first
    | exact h
    | refine State.plsWrite_keeps ?_ (hl.of rfl)
    | assumption
    | split
    | dsimp only

theorem State.visits_keeps {K g n} (h : Keeps K s0 s) (hl : Sub 2564 K) :
    Keeps K s0 (State.visits s g n) := by
  unfold State.visits
  repeat' with_reducible first
    | exact h
    | refine State.visit_keeps ?_ (hl.of rfl)
    | refine State.count_keeps ?_ (hl.of rfl)
    | apply keeps_foldl (fun _ _ h => ?_)

theorem State.mirrorFired_keeps {K g n} (h : Keeps K s0 s) (hl : Sub 2564 K) :
    Keeps K s0 (State.mirrorFired s g n) := by
  unfold State.mirrorFired
  repeat' with_reducible first
    | exact h
    | refine State.plsWrite_keeps ?_ (hl.of rfl)
    | apply keeps_foldl (fun _ _ h => ?_)

theorem State.mirrorBuild_keeps {K g} (h : Keeps K s0 s) (hl : Sub 2564 K) :
    Keeps K s0 (State.mirrorBuild s g) := by
  unfold State.mirrorBuild
  repeat' with_reducible first
    | exact h
    | refine State.plsWrite_keeps ?_ (hl.of rfl)
    | refine State.gcInvalidate_keeps ?_ (hl.of rfl)
    | refine State.hbmClear_keeps ?_ (hl.of rfl)
    | apply keeps_foldl (fun _ _ h => ?_)

theorem State.appendBucket_keeps {K g b rs} {z} (h : Keeps K s0 s) (e : State.appendBucket s g b rs = (t, z)) (hl : Sub 2564 K) :
    Keeps K s0 t := by
  unfold State.appendBucket at e
  try dsimp only at e
  repeat' split at e
  all_goals with_reducible first | cases e
  repeat' with_reducible first
    | exact h
    | refine State.hbmWrite_keeps ?_ (hl.of rfl)
    | refine State.updGrove_keeps ?_ (hl.of rfl)
    | apply keeps_foldl (fun _ _ h => ?_)
    | apply keeps_foldl_fst (fun _ _ _ h => ?_)

theorem State.appendAll_keeps {K g rs} (h : Keeps K s0 s) (hl : Sub 8797166770692 K) :
    Keeps K s0 (State.appendAll s g rs) := by
  unfold State.appendAll
  repeat' with_reducible first
    | exact h
    | refine State.logShow_keeps ?_ (hl.of rfl)
    | refine State.report_keeps ?_ (hl.of rfl)
    | refine State.count_keeps ?_ (hl.of rfl)
    | refine State.appendBucket_keeps ?_ (by with_reducible assumption) (hl.of rfl)
    | apply keeps_foldl (fun _ _ h => ?_)
    | apply keeps_foldl_fst (fun _ _ _ h => ?_)
    | assumption
    | split

theorem State.ueCount_keeps {K a n} (h : Keeps K s0 s) (hl : Sub 8829513243908 K) :
    Keeps K s0 (State.ueCount s a n) := by
  unfold State.ueCount
  repeat' with_reducible first
    | exact h
    | refine State.stackFailed_keeps ?_ (hl.of rfl)
    | refine State.count_keeps ?_ (hl.of rfl)
    | assumption
    | split

theorem State.readSkip_keeps {K g a} (h : Keeps K s0 s) (hl : Sub 8797166768132 K) :
    Keeps K s0 (State.readSkip s g a) := by
  unfold State.readSkip
  repeat' with_reducible first
    | exact h
    | refine State.report_keeps ?_ (hl.of rfl)
    | refine State.count_keeps ?_ (hl.of rfl)

theorem State.rowRead_keeps {K g a len bad crcOk} {z} (h : Keeps K s0 s) (e : State.rowRead s g a len bad crcOk = (t, z)) (hl : Sub 8829513243908 K) :
    Keeps K s0 t := by
  unfold State.rowRead at e
  try dsimp only at e
  repeat' split at e
  all_goals with_reducible first | cases e
  repeat' with_reducible first
    | exact h
    | refine State.readSkip_keeps ?_ (hl.of rfl)
    | refine State.ueCount_keeps ?_ (hl.of rfl)
    | refine State.gcRange_keeps ?_ (hl.of rfl)
    | refine State.hbmRead_keeps ?_ (hl.of rfl)
    | refine State.count_keeps ?_ (hl.of rfl)

theorem State.passRecs_keeps {K g n bad a4 a5} {z} (h : Keeps K s0 s) (e : State.passRecs s g n bad a4 a5 = (t, z)) (hl : Sub 8829513243908 K) :
    Keeps K s0 t := by
  induction a5 generalizing s t a4 z with
  | zero =>
    unfold State.passRecs at e
    cases e
    exact h
  | succ m ih =>
    unfold State.passRecs at e
    dsimp only at e
    cases e
    exact ih (State.rowRead_keeps h Prod.mk.eta.symm (hl.of rfl)) Prod.mk.eta.symm

theorem State.preUpdate_keeps {K g n es} (h : Keeps K s0 s) (hl : Sub 2564 K) :
    Keeps K s0 (State.preUpdate s g n es) := by
  unfold State.preUpdate
  repeat' with_reducible first
    | exact h
    | refine State.plsWrite_keeps ?_ (hl.of rfl)
    | apply keeps_foldl (fun _ _ h => ?_)
    | assumption
    | split
    | dsimp only

theorem State.runPass_keeps {K g bad} (h : Keeps K s0 s) (hl : Sub 8829513244420 K) :
    Keeps K s0 (State.runPass s g bad) := by
  unfold State.runPass
  repeat' with_reducible first
    | exact h
    | refine State.preUpdate_keeps ?_ (hl.of rfl)
    | refine State.appendAll_keeps ?_ (hl.of rfl)
    | refine State.mirrorFired_keeps ?_ (hl.of rfl)
    | refine State.visits_keeps ?_ (hl.of rfl)
    | refine State.hbmRead_keeps ?_ (hl.of rfl)
    | refine State.updGrove_keeps ?_ (hl.of rfl)
    | refine State.count_keeps ?_ (hl.of rfl)
    | refine State.wf'_keeps ?_ (hl.of rfl)
    | refine State.passRecs_keeps ?_ (by with_reducible assumption) (hl.of rfl)
    | assumption
    | split
    | dsimp only
    | refine State.passRecs_keeps ?_ Prod.mk.eta.symm (hl.of rfl)

theorem State.passesOver_keeps {K k} (h : Keeps K s0 s) (hl : Sub 4100 K) :
    Keeps K s0 (State.passesOver s k) := by
  unfold State.passesOver
  repeat' with_reducible first
    | exact h
    | refine State.setDisabled_keeps ?_ (hl.of rfl)
    | refine State.updPart_keeps ?_ (hl.of rfl)
    | assumption
    | split

theorem execPlsPassDone_keeps {K g bad} (h : Keeps K s0 s) (hl : Sub 8829513244420 K) :
    OutKeeps K s0 (execPlsPassDone g bad s) := by
  unfold execPlsPassDone
  repeat' with_reducible first
    | exact h
    | exact OutKeeps.next h
    | refine State.passesOver_keeps ?_ (hl.of rfl)
    | refine State.runPass_keeps ?_ (hl.of rfl)
    | refine State.logShow_keeps ?_ (hl.of rfl)
    | refine State.updGrove_keeps ?_ (hl.of rfl)
    | apply OutKeeps.next
    | assumption
    | split
    | dsimp only

theorem State.plsCommit_keeps {K k n} (h : Keeps K s0 s) (hl : Sub 8797166770180 K) :
    Keeps K s0 (State.plsCommit s k n) := by
  unfold State.plsCommit
  repeat' with_reducible first
    | exact h
    | refine State.report_keeps ?_ (hl.of rfl)
    | refine State.updPart_keeps ?_ (hl.of rfl)
    | refine State.updGrove_keeps ?_ (hl.of rfl)
    | refine State.count_keeps ?_ (hl.of rfl)
    | refine State.wf'_keeps ?_ (hl.of rfl)
    | apply keeps_foldl (fun _ _ h => ?_)
    | assumption
    | split
    | dsimp only

theorem State.plsEnable_keeps {K k} (h : Keeps K s0 s) (hl : Sub 2564 K) :
    Keeps K s0 (State.plsEnable s k) := by
  unfold State.plsEnable
  repeat' with_reducible first
    | exact h
    | refine State.mirrorBuild_keeps ?_ (hl.of rfl)
    | refine State.logShow_keeps ?_ (hl.of rfl)
    | refine State.updGrove_keeps ?_ (hl.of rfl)
    | refine State.wf'_keeps ?_ (hl.of rfl)
    | refine State.wr_keeps ?_ (hl.of rfl)
    | apply keeps_foldl (fun _ _ h => ?_)
    | assumption
    | split
    | dsimp only

theorem State.applyElem_keeps {K g a x b k d} {z} (h : Keeps K s0 s) (e : State.applyElem s g a x b k d = (t, z)) (hl : Sub 2564 K) :
    Keeps K s0 t := by
  unfold State.applyElem at e
  try dsimp only at e
  repeat' split at e
  all_goals with_reducible first | cases e
  repeat' with_reducible first
    | exact h
    | refine State.hbmWrite_keeps ?_ (hl.of rfl)
    | refine State.count_keeps ?_ (hl.of rfl)

theorem State.applyElems_keeps {K g a mine tgs} {z} (h : Keeps K s0 s) (e : State.applyElems s g a mine tgs = (t, z)) (hl : Sub 2564 K) :
    Keeps K s0 t := by
  unfold State.applyElems at e
  refine keeps_fst e (keeps_foldl_fst (fun u b x k => ?_) h)
  dsimp only
  split
  · exact k
  · exact State.applyElem_keeps k Prod.mk.eta.symm (hl.of rfl)

theorem State.applyRow_keeps {K g row rs bad cut} (h : Keeps K s0 s) (hl : Sub 8829513244420 K) :
    Keeps K s0 (State.applyRow s g row rs bad cut) := by
  unfold State.applyRow
  repeat' with_reducible first
    | exact h
    | refine State.hbmWrite_keeps ?_ (hl.of rfl)
    | refine State.applyElems_keeps ?_ (by with_reducible assumption) (hl.of rfl)
    | refine State.rowRead_keeps ?_ (by with_reducible assumption) (hl.of rfl)
    | refine State.take_keeps ?_ (by with_reducible assumption) (hl.of rfl)
    | assumption
    | split
    | dsimp only
    | refine State.applyElems_keeps ?_ Prod.mk.eta.symm (hl.of rfl)
    | refine State.rowRead_keeps ?_ Prod.mk.eta.symm (hl.of rfl)

theorem State.logRead_keeps {K g} (h : Keeps K s0 s) (hl : Sub 4 K) :
    Keeps K s0 (State.logRead s g) := by
  unfold State.logRead
  repeat' with_reducible first
    | exact h
    | refine State.hbmRead_keeps ?_ (hl.of rfl)
    | apply keeps_foldl (fun _ _ h => ?_)

theorem State.logOver_keeps {K g} (h : Keeps K s0 s) (hl : Sub 2052 K) :
    Keeps K s0 (State.logOver s g) := by
  unfold State.logOver
  repeat' with_reducible first
    | exact h
    | refine State.logShow_keeps ?_ (hl.of rfl)
    | refine State.updGrove_keeps ?_ (hl.of rfl)

theorem State.runApply_keeps {K g bad} (h : Keeps K s0 s) (hl : Sub 8829513244420 K) :
    Keeps K s0 (State.runApply s g bad) := by
  unfold State.runApply
  repeat' with_reducible first
    | exact h
    | refine State.logOver_keeps ?_ (hl.of rfl)
    | refine State.logRead_keeps ?_ (hl.of rfl)
    | refine State.applyRow_keeps ?_ (hl.of rfl)
    | refine State.count_keeps ?_ (hl.of rfl)
    | apply keeps_foldl (fun _ _ h => ?_)

theorem State.applyCut_keeps {K g} (h : Keeps K s0 s) (hl : Sub 26421699288836 K) :
    Keeps K s0 (State.applyCut s g) := by
  unfold State.applyCut
  repeat' with_reducible first
    | exact h
    | refine State.logOver_keeps ?_ (hl.of rfl)
    | refine State.logRead_keeps ?_ (hl.of rfl)
    | refine State.applyRow_keeps ?_ (hl.of rfl)
    | refine State.take_keeps ?_ (by with_reducible assumption) (hl.of rfl)
    | refine State.freeNat_keeps ?_ (by with_reducible assumption) (hl.of rfl)
    | apply keeps_foldl (fun _ _ h => ?_)
    | assumption
    | split
    | dsimp only
    | refine State.freeNat_keeps ?_ Prod.mk.eta.symm (hl.of rfl)

theorem State.applyOver_keeps {K k} (h : Keeps K s0 s) (hl : Sub 8829513243908 K) :
    Keeps K s0 (State.applyOver s k) := by
  unfold State.applyOver
  repeat' with_reducible first
    | exact h
    | refine State.disableNow_keeps ?_ (hl.of rfl)
    | refine State.setDisabled_keeps ?_ (hl.of rfl)
    | refine State.stopNow_keeps ?_ (hl.of rfl)
    | refine State.updCores_keeps ?_ (hl.of rfl)
    | refine State.updPart_keeps ?_ (hl.of rfl)
    | refine State.updGrove_keeps ?_ (hl.of rfl)
    | refine State.high_keeps ?_ (hl.of rfl)
    | refine State.countWrap_keeps ?_ (hl.of rfl)
    | refine State.count_keeps ?_ (hl.of rfl)
    | refine State.wf'_keeps ?_ (hl.of rfl)
    | refine State.wr_keeps ?_ (hl.of rfl)
    | apply keeps_foldl (fun _ _ h => ?_)
    | assumption
    | split
    | dsimp only

theorem State.applyEnd_keeps {K k} (h : Keeps K s0 s) (hl : Sub 8829513243908 K) :
    Keeps K s0 (State.applyEnd s k) := by
  unfold State.applyEnd
  repeat' with_reducible first
    | exact h
    | refine State.applyOver_keeps ?_ (hl.of rfl)
    | assumption
    | split

theorem execApplyStart_keeps {K k} (h : Keeps K s0 s) (hl : Sub 8829513243908 K) :
    OutKeeps K s0 (execApplyStart k s) := by
  unfold execApplyStart
  repeat' with_reducible first
    | exact h
    | exact OutKeeps.next h
    | refine State.applyEnd_keeps ?_ (hl.of rfl)
    | refine State.logOver_keeps ?_ (hl.of rfl)
    | refine State.updPart_keeps ?_ (hl.of rfl)
    | refine State.updGrove_keeps ?_ (hl.of rfl)
    | refine State.wf'_keeps ?_ (hl.of rfl)
    | apply OutKeeps.next
    | apply keeps_foldl (fun _ _ h => ?_)
    | assumption
    | split

theorem execApplyDone_keeps {K g bad} (h : Keeps K s0 s) (hl : Sub 8829513244420 K) :
    OutKeeps K s0 (execApplyDone g bad s) := by
  unfold execApplyDone
  repeat' with_reducible first
    | exact h
    | exact OutKeeps.next h
    | refine State.applyEnd_keeps ?_ (hl.of rfl)
    | refine State.runApply_keeps ?_ (hl.of rfl)
    | apply OutKeeps.next
    | assumption
    | split

/-! ### Machine/GroveFault -/

theorem State.groveStops_keeps {K g} (h : Keeps K s0 s) (hl : Sub 26421699288836 K) :
    Keeps K s0 (State.groveStops s g) := by
  unfold State.groveStops
  repeat' with_reducible first
    | exact h
    | refine State.applyEnd_keeps ?_ (hl.of rfl)
    | refine State.applyCut_keeps ?_ (hl.of rfl)
    | refine State.stopCores_keeps ?_ (hl.of rfl)
    | refine State.stopPart_keeps ?_ (hl.of rfl)
    | assumption
    | split
    | dsimp only

theorem State.groveWide_keeps {K g cause} (h : Keeps K s0 s) (hl : Sub 26421699288836 K) :
    Keeps K s0 (State.groveWide s g cause) := by
  unfold State.groveWide
  repeat' with_reducible first
    | exact h
    | refine State.groveStops_keeps ?_ (hl.of rfl)
    | refine State.report_keeps ?_ (hl.of rfl)
    | refine State.updGrove_keeps ?_ (hl.of rfl)
    | refine State.wf'_keeps ?_ (hl.of rfl)
    | assumption
    | split

theorem State.groveWideOpen_keeps {K g} (h : Keeps K s0 s) (hl : Sub 26421699288836 K) :
    Keeps K s0 (State.groveWideOpen s g) := by
  unfold State.groveWideOpen
  repeat' with_reducible first
    | exact h
    | refine State.groveStops_keeps ?_ (hl.of rfl)
    | refine State.report_keeps ?_ (hl.of rfl)
    | refine State.freeNat_keeps ?_ (by with_reducible assumption) (hl.of rfl)
    | assumption
    | split
    | dsimp only
    | refine State.freeNat_keeps ?_ Prod.mk.eta.symm (hl.of rfl)

theorem execGroveFault_keeps {K g cause} (h : Keeps K s0 s) (hl : Sub 26421699288836 K) :
    OutKeeps K s0 (execGroveFault g cause s) := by
  unfold execGroveFault
  repeat' with_reducible first
    | exact h
    | exact OutKeeps.next h
    | refine State.groveWide_keeps ?_ (hl.of rfl)
    | apply OutKeeps.next
    | assumption
    | split

/-! ### Machine/Fabric -/

theorem execCanopyPacketArrive_keeps {K i} (h : Keeps K s0 s) (hl : Sub 8829781679364 K) :
    OutKeeps K s0 (execCanopyPacketArrive i s) := by
  unfold execCanopyPacketArrive
  repeat' with_reducible first
    | exact h
    | exact OutKeeps.next h
    | refine State.routerArrive_keeps ?_ (hl.of rfl)
    | refine State.take_keeps ?_ (by with_reducible assumption) (hl.of rfl)
    | apply OutKeeps.next
    | assumption
    | split

theorem execStopReceiveCopy_keeps {K i} (h : Keeps K s0 s) (hl : Sub 8829513243908 K) :
    OutKeeps K s0 (execStopReceiveCopy i s) := by
  unfold execStopReceiveCopy
  repeat' with_reducible first
    | exact h
    | exact OutKeeps.next h
    | refine State.stopArrive_keeps ?_ (hl.of rfl)
    | refine State.take_keeps ?_ (by with_reducible assumption) (hl.of rfl)
    | apply OutKeeps.next
    | assumption
    | split

theorem State.markDown_keeps {K k port} (h : Keeps K s0 s) (hl : Sub 4 K) :
    Keeps K s0 (State.markDown s k port) := by
  unfold State.markDown
  repeat' with_reducible first
    | exact h
    | refine State.wf'_keeps ?_ (hl.of rfl)
    | assumption
    | split

theorem State.lose_keeps {K f n} (h : Keeps K s0 s) (hl : Sub 8829513243908 K) :
    Keeps K s0 (State.lose s f n) := by
  unfold State.lose
  repeat' with_reducible first
    | exact h
    | refine State.fabricLoss_keeps ?_ (hl.of rfl)
    | assumption
    | split

theorem State.dropLink_keeps {K n q} (h : Keeps K s0 s) (hl : Sub 8829513243908 K) :
    Keeps K s0 (State.dropLink s n q) := by
  unfold State.dropLink
  repeat' first
    | with_reducible exact h
    | with_reducible refine State.lose_keeps ?_ (hl.of rfl)
    | with_reducible apply keeps_foldl (fun _ _ h => ?_)
    | with_reducible assumption
    | with_reducible split
    | with_reducible dsimp only
    | with_reducible refine Keeps.upd ?_ ?_
    | (intro f hf; cases f <;> first | exact absurd ((hl.mem _ rfl).symm.trans hf) Bool.noConfusion | exact rfl)

theorem State.linkDown_keeps {K k port} (h : Keeps K s0 s) (hl : Sub 8829513243908 K) :
    Keeps K s0 (State.linkDown s k port) := by
  unfold State.linkDown
  repeat' with_reducible first
    | exact h
    | refine State.dropLink_keeps ?_ (hl.of rfl)
    | refine State.markDown_keeps ?_ (hl.of rfl)
    | assumption
    | split

theorem State.flitTaken_keeps {K id n q data} (h : Keeps K s0 s) (hl : Sub 136314884 K) :
    Keeps K s0 (State.flitTaken s id n q data) := by
  unfold State.flitTaken
  repeat' first
    | with_reducible exact h
    | with_reducible refine State.qHigh_keeps ?_ (hl.of rfl)
    | with_reducible assumption
    | with_reducible split
    | with_reducible dsimp only
    | with_reducible refine Keeps.upd ?_ ?_
    | (intro f hf; cases f <;> first | exact absurd ((hl.mem _ rfl).symm.trans hf) Bool.noConfusion | exact rfl)

theorem execLinkFlitReceive_keeps {K k port bytes} (h : Keeps K s0 s) (hl : Sub 140509188 K) :
    OutKeeps K s0 (execLinkFlitReceive k port bytes s) := by
  unfold execLinkFlitReceive
  repeat' first
    | with_reducible exact h
    | with_reducible exact OutKeeps.next h
    | with_reducible refine State.flitTaken_keeps ?_ (hl.of rfl)
    | with_reducible refine State.portCount_keeps ?_ (hl.of rfl)
    | with_reducible refine State.count64_keeps ?_ (hl.of rfl)
    | with_reducible apply OutKeeps.next
    | with_reducible assumption
    | with_reducible split
    | with_reducible dsimp only
    | with_reducible refine Keeps.upd ?_ ?_
    | (intro f hf; cases f <;> first | exact absurd ((hl.mem _ rfl).symm.trans hf) Bool.noConfusion | exact rfl)

theorem State.abandonLimit_keeps {K k port times} (h : Keeps K s0 s) (hl : Sub 8829546798340 K) :
    Keeps K s0 (State.abandonLimit s k port times) := by
  unfold State.abandonLimit
  repeat' first
    | with_reducible exact h
    | with_reducible refine State.linkDown_keeps ?_ (hl.of rfl)
    | with_reducible refine State.report_keeps ?_ (hl.of rfl)
    | with_reducible assumption
    | with_reducible split
    | with_reducible dsimp only
    | with_reducible refine Keeps.upd ?_ ?_
    | (intro f hf; cases f <;> first | exact absurd ((hl.mem _ rfl).symm.trans hf) Bool.noConfusion | exact rfl)

theorem State.noteAbandon_keeps {K k port times} (h : Keeps K s0 s) (hl : Sub 31457280 K) :
    Keeps K s0 (State.noteAbandon s k port times) := by
  unfold State.noteAbandon
  repeat' first
    | with_reducible exact h
    | with_reducible refine State.take_keeps ?_ (by with_reducible assumption) (hl.of rfl)
    | with_reducible assumption
    | with_reducible split
    | with_reducible dsimp only
    | with_reducible refine Keeps.upd ?_ ?_
    | (intro f hf; cases f <;> first | exact absurd ((hl.mem _ rfl).symm.trans hf) Bool.noConfusion | exact rfl)

theorem State.loseFlit_keeps {K fs} (h : Keeps K s0 s) (hl : Sub 8829513243908 K) :
    Keeps K s0 (State.loseFlit s fs) := by
  unfold State.loseFlit
  repeat' with_reducible first
    | exact h
    | refine State.lose_keeps ?_ (hl.of rfl)
    | apply keeps_foldl (fun _ _ h => ?_)

theorem State.abandonFlit_keeps {K k port n q v m} (h : Keeps K s0 s) (hl : Sub 8829578255620 K) :
    Keeps K s0 (State.abandonFlit s k port n q v m) := by
  unfold State.abandonFlit
  repeat' first
    | with_reducible exact h
    | with_reducible refine State.loseFlit_keeps ?_ (hl.of rfl)
    | with_reducible refine State.noteAbandon_keeps ?_ (hl.of rfl)
    | with_reducible refine State.abandonLimit_keeps ?_ (hl.of rfl)
    | with_reducible refine State.portCount_keeps ?_ (hl.of rfl)
    | with_reducible refine State.take_keeps ?_ (by with_reducible assumption) (hl.of rfl)
    | with_reducible assumption
    | with_reducible split
    | with_reducible dsimp only
    | with_reducible refine Keeps.upd ?_ ?_
    | (intro f hf; cases f <;> first | exact absurd ((hl.mem _ rfl).symm.trans hf) Bool.noConfusion | exact rfl)

theorem execLinkNack_keeps {K k port lost} (h : Keeps K s0 s) (hl : Sub 8829578255620 K) :
    OutKeeps K s0 (execLinkNack k port lost s) := by
  unfold execLinkNack
  repeat' first
    | with_reducible exact h
    | with_reducible exact OutKeeps.next h
    | with_reducible refine State.abandonFlit_keeps ?_ (hl.of rfl)
    | with_reducible refine State.portCount_keeps ?_ (hl.of rfl)
    | with_reducible apply OutKeeps.next
    | with_reducible assumption
    | with_reducible split
    | with_reducible dsimp only
    | with_reducible refine Keeps.upd ?_ ?_
    | (intro f hf; cases f <;> first | exact absurd ((hl.mem _ rfl).symm.trans hf) Bool.noConfusion | exact rfl)

theorem execLinkResyncDone_keeps {K k port} (h : Keeps K s0 s) (hl : Sub 16777216 K) :
    OutKeeps K s0 (execLinkResyncDone k port s) := by
  unfold execLinkResyncDone
  repeat' first
    | with_reducible exact h
    | with_reducible exact OutKeeps.next h
    | with_reducible apply OutKeeps.next
    | with_reducible assumption
    | with_reducible split
    | with_reducible dsimp only
    | with_reducible refine Keeps.upd ?_ ?_
    | (intro f hf; cases f <;> first | exact absurd ((hl.mem _ rfl).symm.trans hf) Bool.noConfusion | exact rfl)

theorem execRouterFault_keeps {K k} (h : Keeps K s0 s) (hl : Sub 26421699288836 K) :
    OutKeeps K s0 (execRouterFault k s) := by
  unfold execRouterFault
  repeat' with_reducible first
    | exact h
    | exact OutKeeps.next h
    | refine State.linkDown_keeps ?_ (hl.of rfl)
    | refine State.groveWideOpen_keeps ?_ (hl.of rfl)
    | refine State.report_keeps ?_ (hl.of rfl)
    | refine State.wf'_keeps ?_ (hl.of rfl)
    | apply OutKeeps.next
    | apply keeps_foldl (fun _ _ h => ?_)
    | assumption
    | split

theorem State.rtrCtrl_keeps {K k v} (h : Keeps K s0 s) (hl : Sub 12 K) :
    Keeps K s0 (State.rtrCtrl s k v) := by
  unfold State.rtrCtrl
  repeat' with_reducible first
    | exact h
    | refine State.maskWrite_keeps ?_ (hl.of rfl)
    | refine State.wf'_keeps ?_ (hl.of rfl)
    | assumption
    | split
    | dsimp only

theorem State.markUp_keeps {K k port} (h : Keeps K s0 s) (hl : Sub 4 K) :
    Keeps K s0 (State.markUp s k port) := by
  unfold State.markUp
  repeat' with_reducible first
    | exact h
    | refine State.wf'_keeps ?_ (hl.of rfl)
    | assumption
    | split

theorem State.retrain_keeps {K k port} (h : Keeps K s0 s) (hl : Sub 4 K) :
    Keeps K s0 (State.retrain s k port) := by
  unfold State.retrain
  repeat' with_reducible first
    | exact h
    | refine State.markUp_keeps ?_ (hl.of rfl)
    | assumption
    | split

theorem State.powerLink_keeps {K k port} (h : Keeps K s0 s) (hl : Sub 33554436 K) :
    Keeps K s0 (State.powerLink s k port) := by
  unfold State.powerLink
  repeat' first
    | with_reducible exact h
    | with_reducible refine State.markUp_keeps ?_ (hl.of rfl)
    | with_reducible assumption
    | with_reducible split
    | with_reducible dsimp only
    | with_reducible refine Keeps.upd ?_ ?_
    | (intro f hf; cases f <;> first | exact absurd ((hl.mem _ rfl).symm.trans hf) Bool.noConfusion | exact rfl)

theorem execRouterResetDone_keeps {K k} (h : Keeps K s0 s) (hl : Sub 8829513243908 K) :
    OutKeeps K s0 (execRouterResetDone k s) := by
  unfold execRouterResetDone
  repeat' first
    | with_reducible exact h
    | with_reducible exact OutKeeps.next h
    | with_reducible refine State.retrain_keeps ?_ (hl.of rfl)
    | with_reducible refine State.abandon_keeps ?_ (hl.of rfl)
    | with_reducible refine State.wf'_keeps ?_ (hl.of rfl)
    | with_reducible apply OutKeeps.next
    | with_reducible apply keeps_foldl (fun _ _ h => ?_)
    | with_reducible assumption
    | with_reducible split
    | with_reducible dsimp only
    | with_reducible refine Keeps.upd ?_ ?_
    | (intro f hf; cases f <;> first | exact absurd ((hl.mem _ rfl).symm.trans hf) Bool.noConfusion | exact rfl)

theorem State.clearResult_keeps {K k r detail} (h : Keeps K s0 s) (hl : Sub 4 K) :
    Keeps K s0 (State.clearResult s k r detail) := by
  unfold State.clearResult
  repeat' with_reducible first
    | exact h
    | refine State.wr_keeps ?_ (hl.of rfl)

theorem State.clearCtrl_keeps {K k v} (h : Keeps K s0 s) (hl : Sub 4100 K) :
    Keeps K s0 (State.clearCtrl s k v) := by
  unfold State.clearCtrl
  repeat' with_reducible first
    | exact h
    | refine State.clearResult_keeps ?_ (hl.of rfl)
    | refine State.updPart_keeps ?_ (hl.of rfl)
    | assumption
    | split

theorem execClearingRun_keeps {K k} (h : Keeps K s0 s) (hl : Sub 4100 K) :
    OutKeeps K s0 (execClearingRun k s) := by
  unfold execClearingRun
  repeat' with_reducible first
    | exact h
    | exact OutKeeps.next h
    | refine State.clearResult_keeps ?_ (hl.of rfl)
    | refine State.updPart_keeps ?_ (hl.of rfl)
    | apply OutKeeps.next
    | assumption
    | split
    | dsimp only

theorem State.swapTables_keeps {K k} (h : Keeps K s0 s) (hl : Sub 2088964 K) :
    Keeps K s0 (State.swapTables s k) := by
  unfold State.swapTables
  repeat' first
    | with_reducible exact h
    | with_reducible refine State.wf'_keeps ?_ (hl.of rfl)
    | with_reducible apply keeps_foldl (fun _ _ h => ?_)
    | with_reducible assumption
    | with_reducible split
    | with_reducible dsimp only
    | with_reducible refine Keeps.upd ?_ ?_
    | (intro f hf; cases f <;> first | exact absurd ((hl.mem _ rfl).symm.trans hf) Bool.noConfusion | exact rfl)

theorem State.applyExclude_keeps {K k} (h : Keeps K s0 s) (hl : Sub 26421766397700 K) :
    Keeps K s0 (State.applyExclude s k) := by
  unfold State.applyExclude
  repeat' first
    | with_reducible exact h
    | with_reducible refine State.groveWideOpen_keeps ?_ (hl.of rfl)
    | with_reducible refine State.wf'_keeps ?_ (hl.of rfl)
    | with_reducible apply keeps_foldl (fun _ _ h => ?_)
    | with_reducible assumption
    | with_reducible split
    | with_reducible dsimp only
    | with_reducible refine Keeps.upd ?_ ?_
    | (intro f hf; cases f <;> first | exact absurd ((hl.mem _ rfl).symm.trans hf) Bool.noConfusion | exact rfl)

theorem State.setForwards_keeps {K old fs} (h : Keeps K s0 s) (hl : Sub 34359738372 K) :
    Keeps K s0 (State.setForwards s old fs) := by
  unfold State.setForwards
  repeat' first
    | with_reducible exact h
    | with_reducible refine State.wf'_keeps ?_ (hl.of rfl)
    | with_reducible assumption
    | with_reducible split
    | with_reducible dsimp only
    | with_reducible refine Keeps.upd ?_ ?_
    | (intro f hf; cases f <;> first | exact absurd ((hl.mem _ rfl).symm.trans hf) Bool.noConfusion | exact rfl)

theorem State.endForwards_keeps {K changed} (h : Keeps K s0 s) (hl : Sub 34359738372 K) :
    Keeps K s0 (State.endForwards s changed) := by
  unfold State.endForwards
  repeat' with_reducible first
    | exact h
    | refine State.setForwards_keeps ?_ (hl.of rfl)
    | apply keeps_foldl (fun _ _ h => ?_)

theorem State.flushWaiting_keeps {K k} (h : Keeps K s0 s) (hl : Sub 8829781679364 K) :
    Keeps K s0 (State.flushWaiting s k) := by
  unfold State.flushWaiting
  repeat' first
    | with_reducible exact h
    | with_reducible refine State.unicast_keeps ?_ (hl.of rfl)
    | with_reducible refine State.enter_keeps ?_ (hl.of rfl)
    | with_reducible apply keeps_foldl (fun _ _ h => ?_)
    | with_reducible assumption
    | with_reducible split
    | with_reducible dsimp only
    | with_reducible refine Keeps.upd ?_ ?_
    | (intro f hf; cases f <;> first | exact absurd ((hl.mem _ rfl).symm.trans hf) Bool.noConfusion | exact rfl)

theorem State.resumeInjection_keeps {K k} (h : Keeps K s0 s) (hl : Sub 26421967723972 K) :
    Keeps K s0 (State.resumeInjection s k) := by
  unfold State.resumeInjection
  repeat' with_reducible first
    | exact h
    | refine State.flushWaiting_keeps ?_ (hl.of rfl)
    | refine State.presentEntry_keeps ?_ (hl.of rfl)
    | refine State.updPart_keeps ?_ (hl.of rfl)
    | refine State.updCore_keeps ?_ (hl.of rfl)
    | apply keeps_foldl (fun _ _ h => ?_)
    | assumption
    | split

theorem State.clearTime_keeps {K k start} (h : Keeps K s0 s) (hl : Sub 4 K) :
    Keeps K s0 (State.clearTime s k start) := by
  unfold State.clearTime
  repeat' with_reducible first
    | exact h
    | refine State.wr_keeps ?_ (hl.of rfl)

theorem State.clearSwap_keeps {K k start} (h : Keeps K s0 s) (hl : Sub 26456396660676 K) :
    Keeps K s0 (State.clearSwap s k start) := by
  unfold State.clearSwap
  repeat' with_reducible first
    | exact h
    | refine State.clearTime_keeps ?_ (hl.of rfl)
    | refine State.resumeInjection_keeps ?_ (hl.of rfl)
    | refine State.endForwards_keeps ?_ (hl.of rfl)
    | refine State.applyExclude_keeps ?_ (hl.of rfl)
    | refine State.swapTables_keeps ?_ (hl.of rfl)
    | refine State.clearResult_keeps ?_ (hl.of rfl)

theorem State.clearGiveUp_keeps {K k start} (h : Keeps K s0 s) (hl : Sub 26421967723972 K) :
    Keeps K s0 (State.clearGiveUp s k start) := by
  unfold State.clearGiveUp
  repeat' with_reducible first
    | exact h
    | refine State.clearTime_keeps ?_ (hl.of rfl)
    | refine State.resumeInjection_keeps ?_ (hl.of rfl)
    | refine State.clearResult_keeps ?_ (hl.of rfl)

theorem execClearingSwap_keeps {K k} (h : Keeps K s0 s) (hl : Sub 26456396660676 K) :
    OutKeeps K s0 (execClearingSwap k s) := by
  unfold execClearingSwap
  repeat' with_reducible first
    | exact h
    | exact OutKeeps.next h
    | refine State.clearSwap_keeps ?_ (hl.of rfl)
    | apply OutKeeps.next
    | assumption
    | split

theorem execClearingTimeout_keeps {K k} (h : Keeps K s0 s) (hl : Sub 26421967723972 K) :
    OutKeeps K s0 (execClearingTimeout k s) := by
  unfold execClearingTimeout
  repeat' with_reducible first
    | exact h
    | exact OutKeeps.next h
    | refine State.clearGiveUp_keeps ?_ (hl.of rfl)
    | apply OutKeeps.next
    | assumption
    | split

theorem State.clearDue_keeps {K k} (h : Keeps K s0 s) (hl : Sub 26456396660676 K) :
    Keeps K s0 (State.clearDue s k) := by
  unfold State.clearDue
  repeat' with_reducible first
    | exact h
    | refine State.clearGiveUp_keeps ?_ (hl.of rfl)
    | refine State.clearSwap_keeps ?_ (hl.of rfl)
    | assumption
    | split

/-! ### Machine/Digest -/

theorem State.askGrove_keeps {K g n round} (h : Keeps K s0 s) (hl : Sub 8829781679364 K) :
    Keeps K s0 (State.askGrove s g n round) := by
  unfold State.askGrove
  repeat' with_reducible first
    | exact h
    | refine State.toUnit_keeps ?_ (hl.of rfl)
    | refine State.updGrove_keeps ?_ (hl.of rfl)
    | refine State.wf'_keeps ?_ (hl.of rfl)
    | apply keeps_foldl (fun _ _ h => ?_)

theorem execCheckReport_keeps {K i} (h : Keeps K s0 s) (hl : Sub 134219776 K) :
    OutKeeps K s0 (execCheckReport i s) := by
  unfold execCheckReport
  repeat' with_reducible first
    | exact h
    | exact OutKeeps.next h
    | refine State.updGrove_keeps ?_ (hl.of rfl)
    | refine State.takeUnit_keeps ?_ (by with_reducible assumption) (hl.of rfl)
    | apply OutKeeps.next
    | assumption
    | split

/-! ### Machine/Role -/

theorem State.neuShow_keeps {K p} (h : Keeps K s0 s) (hl : Sub 4 K) :
    Keeps K s0 (State.neuShow s p) := by
  unfold State.neuShow
  repeat' with_reducible first
    | exact h
    | refine State.wf'_keeps ?_ (hl.of rfl)
    | assumption
    | split

theorem State.copyRegs_keeps {K p q} (h : Keeps K s0 s) (hl : Sub 12 K) :
    Keeps K s0 (State.copyRegs s p q) := by
  unfold State.copyRegs
  repeat' with_reducible first
    | exact h
    | refine State.neuShow_keeps ?_ (hl.of rfl)
    | refine State.setHeld_keeps ?_ (hl.of rfl)
    | refine State.wr_keeps ?_ (hl.of rfl)
    | apply keeps_foldl (fun _ _ h => ?_)

theorem State.clearRegs_keeps {K p} (h : Keeps K s0 s) (hl : Sub 12 K) :
    Keeps K s0 (State.clearRegs s p) := by
  unfold State.clearRegs
  repeat' with_reducible first
    | exact h
    | refine State.neuShow_keeps ?_ (hl.of rfl)
    | refine State.setHeld_keeps ?_ (hl.of rfl)
    | refine State.wr_keeps ?_ (hl.of rfl)
    | apply keeps_foldl (fun _ _ h => ?_)

theorem State.copyMem_keeps {K p q off len} (h : Keeps K s0 s) (hl : Sub 448 K) :
    Keeps K s0 (State.copyMem s p q off len) := by
  unfold State.copyMem
  refine Keeps.upd (Keeps.mem h (hl.mem _ rfl) fun c => Store.wf_copyWin _ c _ _ _) ?_
  intro f hf
  cases f <;> first | exact absurd ((hl.mem _ rfl).symm.trans hf) Bool.noConfusion | exact rfl

theorem State.moveSources_keeps {K p q} (h : Keeps K s0 s) (hl : Sub 57344 K) :
    Keeps K s0 (State.moveSources s p q) := by
  unfold State.moveSources
  repeat' first
    | with_reducible exact h
    | with_reducible assumption
    | with_reducible split
    | with_reducible dsimp only
    | with_reducible refine Keeps.upd ?_ ?_
    | (intro f hf; cases f <;> first | exact absurd ((hl.mem _ rfl).symm.trans hf) Bool.noConfusion | exact rfl)

theorem State.forwardAt_keeps {K p l} (h : Keeps K s0 s) (hl : Sub 34359738372 K) :
    Keeps K s0 (State.forwardAt s p l) := by
  unfold State.forwardAt
  repeat' with_reducible first
    | exact h
    | refine State.setForwards_keeps ?_ (hl.of rfl)

theorem State.moveRole_keeps {K p q left} (h : Keeps K s0 s) (hl : Sub 8831526567372 K) :
    Keeps K s0 (State.moveRole s p q left) := by
  unfold State.moveRole
  repeat' with_reducible first
    | exact h
    | refine State.forwardAt_keeps ?_ (hl.of rfl)
    | refine State.moveSources_keeps ?_ (hl.of rfl)
    | refine State.copyMem_keeps ?_ (hl.of rfl)
    | refine State.clearRegs_keeps ?_ (hl.of rfl)
    | refine State.copyRegs_keeps ?_ (hl.of rfl)
    | refine State.noteSaplings_keeps ?_ (hl.of rfl)
    | refine State.setMap_keeps ?_ (hl.of rfl)
    | refine State.setRole_keeps ?_ (hl.of rfl)
    | refine State.mapEvent_keeps ?_ (hl.of rfl)
    | refine State.setCore_keeps ?_ (hl.of rfl)

theorem State.moveBare_keeps {K p q left} (h : Keeps K s0 s) (hl : Sub 15428596275204 K) :
    Keeps K s0 (State.moveBare s p q left) := by
  unfold State.moveBare
  repeat' with_reducible first
    | exact h
    | refine State.forwardAt_keeps ?_ (hl.of rfl)
    | refine State.wakeCore_keeps ?_ (hl.of rfl)
    | refine State.noteSaplings_keeps ?_ (hl.of rfl)
    | refine State.setMap_keeps ?_ (hl.of rfl)
    | refine State.setRole_keeps ?_ (hl.of rfl)
    | refine State.mapEvent_keeps ?_ (hl.of rfl)
    | assumption
    | split
    | dsimp only

theorem State.fenceBare_keeps {K p} (h : Keeps K s0 s) (hl : Sub 15428596275204 K) :
    Keeps K s0 (State.fenceBare s p) := by
  unfold State.fenceBare
  repeat' with_reducible first
    | exact h
    | refine State.moveBare_keeps ?_ (hl.of rfl)
    | refine State.noteSaplings_keeps ?_ (hl.of rfl)
    | refine State.unmap_keeps ?_ (hl.of rfl)
    | refine State.setRole_keeps ?_ (hl.of rfl)
    | refine State.mapEvent_keeps ?_ (hl.of rfl)
    | assumption
    | split
    | dsimp only

theorem State.fenceWrite_keeps {K a p v} (h : Keeps K s0 s) (hl : Sub 15428596275204 K) :
    Keeps K s0 (State.fenceWrite s a p v) := by
  unfold State.fenceWrite
  repeat' with_reducible first
    | exact h
    | refine State.fenceBare_keeps ?_ (hl.of rfl)
    | refine State.updGrove_keeps ?_ (hl.of rfl)
    | assumption
    | split
    | dsimp only

theorem execFenceMigrationDone_keeps {K g} (h : Keeps K s0 s) (hl : Sub 15428596334028 K) :
    OutKeeps K s0 (execFenceMigrationDone g s) := by
  unfold execFenceMigrationDone
  repeat' with_reducible first
    | exact h
    | exact OutKeeps.next h
    | refine State.fenceBare_keeps ?_ (hl.of rfl)
    | refine State.moveRole_keeps ?_ (hl.of rfl)
    | refine State.updGrove_keeps ?_ (hl.of rfl)
    | apply OutKeeps.next
    | assumption
    | split

theorem State.testBegun_keeps {K p} (h : Keeps K s0 s) (hl : Sub 2052 K) :
    Keeps K s0 (State.testBegun s p) := by
  unfold State.testBegun
  repeat' with_reducible first
    | exact h
    | refine State.updGrove_keeps ?_ (hl.of rfl)
    | refine State.wf'_keeps ?_ (hl.of rfl)

theorem State.testInPlace_keeps {K p} (h : Keeps K s0 s) (hl : Sub 8797166771204 K) :
    Keeps K s0 (State.testInPlace s p) := by
  unfold State.testInPlace
  repeat' with_reducible first
    | exact h
    | refine State.testBegun_keeps ?_ (hl.of rfl)
    | refine State.moveBanks_keeps ?_ (hl.of rfl)
    | refine State.noteSaplings_keeps ?_ (hl.of rfl)
    | refine State.setRole_keeps ?_ (hl.of rfl)
    | refine State.mapEvent_keeps ?_ (hl.of rfl)

theorem execTestDue_keeps {K p} (h : Keeps K s0 s) (hl : Sub 15394236537860 K) :
    OutKeeps K s0 (execTestDue p s) := by
  unfold execTestDue
  repeat' with_reducible first
    | exact h
    | exact OutKeeps.next h
    | refine State.testInPlace_keeps ?_ (hl.of rfl)
    | refine State.wakeCore_keeps ?_ (hl.of rfl)
    | refine State.updCore_keeps ?_ (hl.of rfl)
    | refine State.wf'_keeps ?_ (hl.of rfl)
    | apply OutKeeps.next
    | assumption
    | split

theorem execTestMigrate_keeps {K p} (h : Keeps K s0 s) (hl : Sub 15428596334028 K) :
    OutKeeps K s0 (execTestMigrate p s) := by
  unfold execTestMigrate
  repeat' with_reducible first
    | exact h
    | exact OutKeeps.next h
    | refine State.testInPlace_keeps ?_ (hl.of rfl)
    | refine State.testBegun_keeps ?_ (hl.of rfl)
    | refine State.moveRole_keeps ?_ (hl.of rfl)
    | refine State.moveBanks_keeps ?_ (hl.of rfl)
    | refine State.wakeCore_keeps ?_ (hl.of rfl)
    | apply OutKeeps.next
    | assumption
    | split

theorem execTestDeferExpire_keeps {K p} (h : Keeps K s0 s) (hl : Sub 4 K) :
    OutKeeps K s0 (execTestDeferExpire p s) := by
  unfold execTestDeferExpire
  repeat' with_reducible first
    | exact h
    | exact OutKeeps.next h
    | refine State.wf'_keeps ?_ (hl.of rfl)
    | apply OutKeeps.next
    | assumption
    | split

theorem State.clearMem_keeps {K p} (h : Keeps K s0 s) (hl : Sub 448 K) :
    Keeps K s0 (State.clearMem s p) := by
  unfold State.clearMem
  repeat' with_reducible first
    | exact h
    | refine State.memClear_keeps ?_ (hl.of rfl)

theorem execTestDone_keeps {K p pass pattern} (h : Keeps K s0 s) (hl : Sub 8797166771652 K) :
    OutKeeps K s0 (execTestDone p pass pattern s) := by
  unfold execTestDone
  repeat' with_reducible first
    | exact h
    | exact OutKeeps.next h
    | refine State.clearMem_keeps ?_ (hl.of rfl)
    | refine State.moveBanks_keeps ?_ (hl.of rfl)
    | refine State.noteSaplings_keeps ?_ (hl.of rfl)
    | refine State.setRole_keeps ?_ (hl.of rfl)
    | refine State.mapEvent_keeps ?_ (hl.of rfl)
    | refine State.report_keeps ?_ (hl.of rfl)
    | refine State.updGrove_keeps ?_ (hl.of rfl)
    | refine State.updCore_keeps ?_ (hl.of rfl)
    | refine State.count_keeps ?_ (hl.of rfl)
    | refine State.wr_keeps ?_ (hl.of rfl)
    | apply OutKeeps.next
    | assumption
    | split
    | dsimp only

/-! ### Machine/Verdict -/

theorem State.suspect_keeps {K p finding} (h : Keeps K s0 s) (hl : Sub 4 K) :
    Keeps K s0 (State.suspect s p finding) := by
  unfold State.suspect
  repeat' with_reducible first
    | exact h
    | refine State.wf'_keeps ?_ (hl.of rfl)

theorem State.failVerdict_keeps {K g k finding core} (h : Keeps K s0 s) (hl : Sub 6148 K) :
    Keeps K s0 (State.failVerdict s g k finding core) := by
  unfold State.failVerdict
  repeat' with_reducible first
    | exact h
    | refine State.suspect_keeps ?_ (hl.of rfl)
    | refine State.holdGrove_keeps ?_ (hl.of rfl)
    | refine State.stepState_keeps ?_ (hl.of rfl)
    | refine State.updGrove_keeps ?_ (hl.of rfl)
    | refine State.count_keeps ?_ (hl.of rfl)
    | refine State.wf'_keeps ?_ (hl.of rfl)

theorem State.retakeVerdict_keeps {K g} (h : Keeps K s0 s) (hl : Sub 8829781679364 K) :
    Keeps K s0 (State.retakeVerdict s g) := by
  unfold State.retakeVerdict
  repeat' with_reducible first
    | exact h
    | refine State.askGrove_keeps ?_ (hl.of rfl)
    | refine State.wf'_keeps ?_ (hl.of rfl)

theorem State.redeliver_keeps {K k} (h : Keeps K s0 s) (hl : Sub 6148 K) :
    Keeps K s0 (State.redeliver s k) := by
  unfold State.redeliver
  repeat' with_reducible first
    | exact h
    | refine State.updPart_keeps ?_ (hl.of rfl)
    | refine State.updGrove_keeps ?_ (hl.of rfl)
    | refine State.wf'_keeps ?_ (hl.of rfl)
    | apply keeps_foldl (fun _ _ h => ?_)

theorem State.reportFinding_keeps {K finding core outcome} (h : Keeps K s0 s) (hl : Sub 8797166768132 K) :
    Keeps K s0 (State.reportFinding s finding core outcome) := by
  unfold State.reportFinding
  repeat' with_reducible first
    | exact h
    | refine State.report_keeps ?_ (hl.of rfl)
    | assumption
    | split

theorem State.unresolved_keeps {K g k finding core sapling} (h : Keeps K s0 s) (hl : Sub 8829513243908 K) :
    Keeps K s0 (State.unresolved s g k finding core sapling) := by
  unfold State.unresolved
  repeat' with_reducible first
    | exact h
    | refine State.reportFinding_keeps ?_ (hl.of rfl)
    | refine State.checkEntry_keeps ?_ (hl.of rfl)
    | refine State.stopPart_keeps ?_ (hl.of rfl)
    | refine State.report_keeps ?_ (hl.of rfl)
    | refine State.count_keeps ?_ (hl.of rfl)
    | assumption
    | split

theorem State.replayOr_keeps {K g k finding trigger p} (h : Keeps K s0 s) (hl : Sub 15426851446020 K) :
    Keeps K s0 (State.replayOr s g k finding trigger p) := by
  unfold State.replayOr
  repeat' with_reducible first
    | exact h
    | refine State.unresolved_keeps ?_ (hl.of rfl)
    | refine State.startReplay_keeps ?_ (by with_reducible assumption) (hl.of rfl)
    | assumption
    | split

theorem State.repairOr_keeps {K g k finding p} (h : Keeps K s0 s) (hl : Sub 8829513243908 K) :
    Keeps K s0 (State.repairOr s g k finding p) := by
  unfold State.repairOr
  repeat' with_reducible first
    | exact h
    | refine State.unresolved_keeps ?_ (hl.of rfl)
    | refine State.updGrove_keeps ?_ (hl.of rfl)
    | refine State.wf'_keeps ?_ (hl.of rfl)
    | assumption
    | split

theorem State.repaired_keeps {K g finding p} (h : Keeps K s0 s) (hl : Sub 8797166768132 K) :
    Keeps K s0 (State.repaired s g finding p) := by
  unfold State.repaired
  repeat' with_reducible first
    | exact h
    | refine State.reportFinding_keeps ?_ (hl.of rfl)
    | refine State.checkEntry_keeps ?_ (hl.of rfl)

theorem State.grvRecover_keeps {K g k rs r} (h : Keeps K s0 s) (hl : Sub 8829513243908 K) :
    Keeps K s0 (State.grvRecover s g k rs r) := by
  unfold State.grvRecover
  repeat' with_reducible first
    | exact h
    | refine State.repairOr_keeps ?_ (hl.of rfl)
    | refine State.suspect_keeps ?_ (hl.of rfl)
    | refine State.strike_keeps ?_ (hl.of rfl)
    | refine State.updCore_keeps ?_ (hl.of rfl)
    | assumption
    | split

theorem State.grvFound_keeps {K g k rs core} (h : Keeps K s0 s) (hl : Sub 8829781679364 K) :
    Keeps K s0 (State.grvFound s g k rs core) := by
  unfold State.grvFound
  repeat' with_reducible first
    | exact h
    | refine State.grvRecover_keeps ?_ (hl.of rfl)
    | refine State.repaired_keeps ?_ (hl.of rfl)
    | refine State.unresolved_keeps ?_ (hl.of rfl)
    | refine State.retakeVerdict_keeps ?_ (hl.of rfl)
    | apply keeps_foldl (fun _ _ h => ?_)
    | assumption
    | split
    | dsimp only

theorem State.recover_keeps {K g k rs finding r} (h : Keeps K s0 s) (hl : Sub 15426851446020 K) :
    Keeps K s0 (State.recover s g k rs finding r) := by
  unfold State.recover
  repeat' with_reducible first
    | exact h
    | refine State.grvFound_keeps ?_ (hl.of rfl)
    | refine State.repairOr_keeps ?_ (hl.of rfl)
    | refine State.replayOr_keeps ?_ (hl.of rfl)
    | refine State.unresolved_keeps ?_ (hl.of rfl)
    | refine State.failVerdict_keeps ?_ (hl.of rfl)
    | refine State.suspect_keeps ?_ (hl.of rfl)
    | refine State.checkEntry_keeps ?_ (hl.of rfl)
    | refine State.stopPart_keeps ?_ (hl.of rfl)
    | refine State.flag_keeps ?_ (hl.of rfl)
    | refine State.count_keeps ?_ (hl.of rfl)
    | assumption
    | split
    | dsimp only

theorem State.passVerdict_keeps {K g} (h : Keeps K s0 s) (hl : Sub 2052 K) :
    Keeps K s0 (State.passVerdict s g) := by
  unfold State.passVerdict
  repeat' with_reducible first
    | exact h
    | refine State.unholdGrove_keeps ?_ (hl.of rfl)
    | refine State.updGrove_keeps ?_ (hl.of rfl)
    | refine State.wf'_keeps ?_ (hl.of rfl)
    | apply keeps_foldl (fun _ _ h => ?_)

theorem execGroveVerdict_keeps {K g} (h : Keeps K s0 s) (hl : Sub 15426851446020 K) :
    OutKeeps K s0 (execGroveVerdict g s) := by
  unfold execGroveVerdict
  repeat' with_reducible first
    | exact h
    | exact OutKeeps.next h
    | refine State.passVerdict_keeps ?_ (hl.of rfl)
    | refine State.recover_keeps ?_ (hl.of rfl)
    | apply OutKeeps.next
    | assumption
    | split
    | dsimp only

theorem execReplayCopyDone_keeps {K g lane flip value} (h : Keeps K s0 s) (hl : Sub 26389352816076 K) :
    OutKeeps K s0 (execReplayCopyDone g lane flip value s) := by
  unfold execReplayCopyDone
  repeat' with_reducible first
    | exact h
    | exact OutKeeps.next h
    | refine State.copyRegs_keeps ?_ (hl.of rfl)
    | refine State.denseSilent_keeps ?_ (hl.of rfl)
    | refine State.integrateSilent_keeps ?_ (hl.of rfl)
    | refine State.updGrove_keeps ?_ (hl.of rfl)
    | refine State.updCore_keeps ?_ (hl.of rfl)
    | apply OutKeeps.next
    | assumption
    | split
    | dsimp only

theorem State.retractEvent_keeps {K p k n ws} (h : Keeps K s0 s) (hl : Sub 8829781679364 K) :
    Keeps K s0 (State.retractEvent s p k n ws) := by
  unfold State.retractEvent
  repeat' with_reducible first
    | exact h
    | refine State.present_keeps ?_ (hl.of rfl)
    | refine State.count_keeps ?_ (hl.of rfl)
    | assumption
    | split

theorem State.correctStream_keeps {K p k n xs as logged} (h : Keeps K s0 s) (hl : Sub 8829781679364 K) :
    Keeps K s0 (State.correctStream s p k n xs as logged) := by
  unfold State.correctStream
  repeat' with_reducible first
    | exact h
    | refine State.retractEvent_keeps ?_ (hl.of rfl)
    | refine State.present_keeps ?_ (hl.of rfl)
    | apply keeps_foldl (fun _ _ h => ?_)
    | apply keeps_foldl_fst (fun _ _ _ h => ?_)
    | assumption
    | split
    | dsimp only

theorem State.replaceLog_keeps {K p n xs as} (h : Keeps K s0 s) (hl : Sub 26389352814020 K) :
    Keeps K s0 (State.replaceLog s p n xs as) := by
  unfold State.replaceLog
  repeat' with_reducible first
    | exact h
    | refine State.logAppend_keeps ?_ (hl.of rfl)
    | refine State.updCore_keeps ?_ (hl.of rfl)
    | refine State.wf'_keeps ?_ (hl.of rfl)
    | apply keeps_foldl (fun _ _ h => ?_)
    | assumption
    | split
    | dsimp only

theorem State.correct_keeps {K k n x a} (h : Keeps K s0 s) (hl : Sub 26421967723972 K) :
    Keeps K s0 (State.correct s k n x a) := by
  unfold State.correct
  repeat' with_reducible first
    | exact h
    | refine State.replaceLog_keeps ?_ (hl.of rfl)
    | refine State.correctStream_keeps ?_ (hl.of rfl)
    | refine State.setBytes_keeps ?_ (hl.of rfl)
    | refine State.updCore_keeps ?_ (hl.of rfl)
    | apply keeps_foldl (fun _ _ h => ?_)
    | assumption
    | split

theorem State.applyRuling_keeps {K g k n finding core sapling u} (h : Keeps K s0 s) (hl : Sub 26421967723972 K) :
    Keeps K s0 (State.applyRuling s g k n finding core sapling u) := by
  unfold State.applyRuling
  repeat' with_reducible first
    | exact h
    | refine State.correct_keeps ?_ (hl.of rfl)
    | refine State.unresolved_keeps ?_ (hl.of rfl)
    | refine State.reportFinding_keeps ?_ (hl.of rfl)
    | refine State.redeliver_keeps ?_ (hl.of rfl)
    | refine State.retakeVerdict_keeps ?_ (hl.of rfl)
    | refine State.strike_keeps ?_ (hl.of rfl)
    | refine State.checkEntry_keeps ?_ (hl.of rfl)
    | refine State.endReplay_keeps ?_ (hl.of rfl)
    | refine State.updCore_keeps ?_ (hl.of rfl)
    | refine State.wf'_keeps ?_ (hl.of rfl)
    | apply keeps_foldl (fun _ _ h => ?_)
    | assumption
    | split
    | dsimp only

theorem State.secondReplay_keeps {K g k r y first} (h : Keeps K s0 s) (hl : Sub 15426851446020 K) :
    Keeps K s0 (State.secondReplay s g k r y first) := by
  unfold State.secondReplay
  repeat' with_reducible first
    | exact h
    | refine State.unresolved_keeps ?_ (hl.of rfl)
    | refine State.endReplay_keeps ?_ (hl.of rfl)
    | refine State.count_keeps ?_ (hl.of rfl)
    | refine State.startReplay_keeps ?_ (by with_reducible assumption) (hl.of rfl)
    | assumption
    | split

theorem State.ruleReplay_keeps {K g k r} (h : Keeps K s0 s) (hl : Sub 33019037490628 K) :
    Keeps K s0 (State.ruleReplay s g k r) := by
  unfold State.ruleReplay
  repeat' with_reducible first
    | exact h
    | refine State.secondReplay_keeps ?_ (hl.of rfl)
    | refine State.applyRuling_keeps ?_ (hl.of rfl)
    | refine State.failVerdict_keeps ?_ (hl.of rfl)
    | refine State.endReplay_keeps ?_ (hl.of rfl)
    | refine State.count_keeps ?_ (hl.of rfl)
    | assumption
    | split
    | dsimp only

theorem execReplayDone_keeps {K g} (h : Keeps K s0 s) (hl : Sub 33019037490628 K) :
    OutKeeps K s0 (execReplayDone g s) := by
  unfold execReplayDone
  repeat' with_reducible first
    | exact h
    | exact OutKeeps.next h
    | refine State.ruleReplay_keeps ?_ (hl.of rfl)
    | apply OutKeeps.next
    | assumption
    | split

theorem State.copyTwin_keeps {K p t2 f n} (h : Keeps K s0 s) (hl : Sub 1472 K) :
    Keeps K s0 (State.copyTwin s p t2 f n) := by
  unfold State.copyTwin
  repeat' with_reducible first
    | exact h
    | refine State.copyMem_keeps ?_ (hl.of rfl)
    | refine State.updCore_keeps ?_ (hl.of rfl)
    | apply keeps_foldl (fun _ _ h => ?_)

theorem execTwinRepairDone_keeps {K g} (h : Keeps K s0 s) (hl : Sub 8829781679556 K) :
    OutKeeps K s0 (execTwinRepairDone g s) := by
  unfold execTwinRepairDone
  repeat' with_reducible first
    | exact h
    | exact OutKeeps.next h
    | refine State.copyTwin_keeps ?_ (hl.of rfl)
    | refine State.repaired_keeps ?_ (hl.of rfl)
    | refine State.retakeVerdict_keeps ?_ (hl.of rfl)
    | refine State.strike_keeps ?_ (hl.of rfl)
    | refine State.updGrove_keeps ?_ (hl.of rfl)
    | refine State.count_keeps ?_ (hl.of rfl)
    | refine State.wf'_keeps ?_ (hl.of rfl)
    | apply OutKeeps.next
    | assumption
    | split

/-! ### Machine/Digests -/

theorem execScrub_keeps {K p err} (h : Keeps K s0 s) (hl : Sub 26389352814020 K) :
    OutKeeps K s0 (execScrub p err s) := by
  unfold execScrub
  repeat' with_reducible first
    | exact h
    | exact OutKeeps.next h
    | refine State.meet_keeps ?_ (hl.of rfl)
    | refine State.readError_keeps ?_ (hl.of rfl)
    | refine State.updCore_keeps ?_ (hl.of rfl)
    | apply OutKeeps.next
    | assumption
    | split

theorem State.weightCompare_keeps {K p a b} (h : Keeps K s0 s) (hl : Sub 8797166768132 K) :
    Keeps K s0 (State.weightCompare s p a b) := by
  unfold State.weightCompare
  repeat' with_reducible first
    | exact h
    | refine State.report_keeps ?_ (hl.of rfl)
    | refine State.wf'_keeps ?_ (hl.of rfl)
    | assumption
    | split

theorem State.coreWalk_keeps {K p budget} {z} (h : Keeps K s0 s) (e : State.coreWalk s p budget = (t, z)) (hl : Sub 8797166769156 K) :
    Keeps K s0 t := by
  unfold State.coreWalk at e
  try dsimp only at e
  repeat' split at e
  all_goals with_reducible first | cases e
  repeat' with_reducible first
    | exact h
    | refine State.weightCompare_keeps ?_ (hl.of rfl)
    | refine State.updCore_keeps ?_ (hl.of rfl)
    | refine State.wr64_keeps ?_ (hl.of rfl)
    | refine State.wf'_keeps ?_ (hl.of rfl)

theorem State.twinWalks_keeps {K hadBase ended} (h : Keeps K s0 s) (hl : Sub 8797166768132 K) :
    Keeps K s0 (State.twinWalks s hadBase ended) := by
  unfold State.twinWalks
  repeat' with_reducible first
    | exact h
    | refine State.weightCompare_keeps ?_ (hl.of rfl)
    | apply keeps_foldl (fun _ _ h => ?_)
    | assumption
    | split

theorem State.groveWalked_keeps {K g cores} (h : Keeps K s0 s) (hl : Sub 8797166770180 K) :
    Keeps K s0 (State.groveWalked s g cores) := by
  unfold State.groveWalked
  repeat' with_reducible first
    | exact h
    | refine State.weightCompare_keeps ?_ (hl.of rfl)
    | refine State.updGrove_keeps ?_ (hl.of rfl)
    | apply keeps_foldl (fun _ _ h => ?_)
    | assumption
    | split

theorem State.groveSpan_keeps {K g all a3 a4} (h : Keeps K s0 s) (hl : Sub 8797166770180 K) :
    Keeps K s0 (State.groveSpan s g all a3 a4) := by
  induction a4 generalizing s a3 with
  | nil =>
    unfold State.groveSpan
    exact State.groveWalked_keeps h (hl.of rfl)
  | cons p ps ih =>
    unfold State.groveSpan
    dsimp only
    repeat' split
    all_goals first
      | exact ih (State.updGrove_keeps h (hl.of rfl))
      | exact State.updGrove_keeps h (hl.of rfl)

theorem State.groveWalk_keeps {K g budget} (h : Keeps K s0 s) (hl : Sub 8797166770180 K) :
    Keeps K s0 (State.groveWalk s g budget) := by
  unfold State.groveWalk
  repeat' with_reducible first
    | exact h
    | refine State.groveSpan_keeps ?_ (hl.of rfl)
    | assumption
    | split
    | dsimp only

theorem State.weightDigests_keeps {K k} (h : Keeps K s0 s) (hl : Sub 8797166771204 K) :
    Keeps K s0 (State.weightDigests s k) := by
  unfold State.weightDigests
  repeat' with_reducible first
    | exact h
    | refine State.groveWalk_keeps ?_ (hl.of rfl)
    | refine State.twinWalks_keeps ?_ (hl.of rfl)
    | refine State.coreWalk_keeps ?_ (by with_reducible assumption) (hl.of rfl)
    | apply keeps_foldl (fun _ _ h => ?_)
    | apply keeps_foldl_fst (fun _ _ _ h => ?_)
    | assumption
    | split
    | dsimp only
    | refine State.coreWalk_keeps ?_ Prod.mk.eta.symm (hl.of rfl)

theorem State.expectCheck_keeps {K k} (h : Keeps K s0 s) (hl : Sub 8797166768132 K) :
    Keeps K s0 (State.expectCheck s k) := by
  unfold State.expectCheck
  repeat' with_reducible first
    | exact h
    | refine State.report_keeps ?_ (hl.of rfl)
    | refine State.updPart_keeps ?_ (hl.of rfl)
    | refine State.wf'_keeps ?_ (hl.of rfl)
    | assumption
    | split
    | dsimp only

theorem State.digestGrove_keeps {K g} (h : Keeps K s0 s) (hl : Sub 4 K) :
    Keeps K s0 (State.digestGrove s g) := by
  unfold State.digestGrove
  repeat' with_reducible first
    | exact h
    | refine State.wr64_keeps ?_ (hl.of rfl)
    | refine State.wf'_keeps ?_ (hl.of rfl)
    | apply keeps_foldl (fun _ _ h => ?_)

theorem execCfgDigestPass_keeps {K k} (h : Keeps K s0 s) (hl : Sub 8797166768132 K) :
    OutKeeps K s0 (execCfgDigestPass k s) := by
  unfold execCfgDigestPass
  repeat' with_reducible first
    | exact h
    | exact OutKeeps.next h
    | refine State.digestGrove_keeps ?_ (hl.of rfl)
    | refine State.expectCheck_keeps ?_ (hl.of rfl)
    | refine State.wr64_keeps ?_ (hl.of rfl)
    | apply OutKeeps.next
    | apply keeps_foldl (fun _ _ h => ?_)
    | assumption
    | split

/-! ### Machine/Access -/

theorem State.guard_keeps {K a addr effect} (heffect : ∀ t, Keeps K s0 t → Keeps K s0 (effect t)) (h : Keeps K s0 s) (hl : Sub 4 K) :
    Keeps K s0 (State.guard s a addr effect) := by
  unfold State.guard
  repeat' with_reducible first
    | exact h
    | apply heffect _
    | refine State.filtered_keeps ?_ (hl.of rfl)
    | refine State.count_keeps ?_ (hl.of rfl)
    | assumption
    | split

end Sys2Proof.Machine
end

