-- ==== Sys2Proof/Laws/KeepsHost.lean ====
section
/-! SUPPORT. What the operations keep (Safety: Keeps): attachments, the step sequencer, event ports, the timebase and power. One lemma per operation. -/
namespace Sys2Proof.Machine

variable {s0 s t : State}

/-! ### Machine/Attach -/

theorem State.dropQueued_keeps {K a} (h : Keeps K s0 s) (hl : Sub 134217728 K) :
    Keeps K s0 (State.dropQueued s a) := by
  unfold State.dropQueued
  repeat' first
    | with_reducible exact h
    | with_reducible assumption
    | with_reducible split
    | with_reducible dsimp only
    | with_reducible refine Keeps.upd ?_ ?_
    | (intro f hf; cases f <;> first | exact absurd ((hl.mem _ rfl).symm.trans hf) Bool.noConfusion | exact rfl)

theorem State.attReset_keeps {K a} (h : Keeps K s0 s) (hl : Sub 8724152332 K) :
    Keeps K s0 (State.attReset s a) := by
  unfold State.attReset
  refine State.dropQueued_keeps ?_ (hl.of rfl)
  refine State.wf'_keeps ?_ (hl.of rfl)
  refine State.updAtt_keeps ?_ (hl.of rfl)
  refine Keeps.upd (Keeps.regs h (hl.mem _ rfl) fun c => Store.wf_filter _ c _) ?_
  intro f hf
  cases f <;> first | exact absurd ((hl.mem _ rfl).symm.trans hf) Bool.noConfusion | exact rfl

theorem State.linkLoss_keeps {K a} (h : Keeps K s0 s) (hl : Sub 8805890920460 K) :
    Keeps K s0 (State.linkLoss s a) := by
  unfold State.linkLoss
  repeat' with_reducible first
    | exact h
    | refine State.attReset_keeps ?_ (hl.of rfl)
    | refine State.report_keeps ?_ (hl.of rfl)
    | refine State.updAtt_keeps ?_ (hl.of rfl)
    | refine State.wf'_keeps ?_ (hl.of rfl)
    | assumption
    | split

theorem execFunctionLevelReset_keeps {K a} (h : Keeps K s0 s) (hl : Sub 8805890920460 K) :
    OutKeeps K s0 (execFunctionLevelReset a s) := by
  unfold execFunctionLevelReset
  repeat' with_reducible first
    | exact h
    | exact OutKeeps.next h
    | refine State.attReset_keeps ?_ (hl.of rfl)
    | refine State.report_keeps ?_ (hl.of rfl)
    | apply OutKeeps.next
    | assumption
    | split

theorem execPcieLinkLoss_keeps {K a} (h : Keeps K s0 s) (hl : Sub 8805890920460 K) :
    OutKeeps K s0 (execPcieLinkLoss a s) := by
  unfold execPcieLinkLoss
  repeat' with_reducible first
    | exact h
    | exact OutKeeps.next h
    | refine State.linkLoss_keeps ?_ (hl.of rfl)
    | apply OutKeeps.next
    | assumption
    | split

theorem execPerstChange_keeps {K a level} (h : Keeps K s0 s) (hl : Sub 9355646734348 K) :
    OutKeeps K s0 (execPerstChange a level s) := by
  unfold execPerstChange
  repeat' first
    | with_reducible exact h
    | with_reducible exact OutKeeps.next h
    | with_reducible refine State.linkLoss_keeps ?_ (hl.of rfl)
    | with_reducible apply OutKeeps.next
    | with_reducible assumption
    | with_reducible split
    | with_reducible dsimp only
    | with_reducible refine Keeps.upd ?_ ?_
    | (intro f hf; cases f <;> first | exact absurd ((hl.mem _ rfl).symm.trans hf) Bool.noConfusion | exact rfl)

theorem execPcieLinkUp_keeps {K a width rate} (h : Keeps K s0 s) (hl : Sub 8589934596 K) :
    OutKeeps K s0 (execPcieLinkUp a width rate s) := by
  unfold execPcieLinkUp
  repeat' with_reducible first
    | exact h
    | exact OutKeeps.next h
    | refine State.present_keeps ?_ (hl.of rfl)
    | refine State.updAtt_keeps ?_ (hl.of rfl)
    | refine State.wf'_keeps ?_ (hl.of rfl)
    | apply OutKeeps.next
    | assumption
    | split
    | dsimp only

theorem State.cfgWrite_keeps {K a dw v} (h : Keeps K s0 s) (hl : Sub 8589934592 K) :
    Keeps K s0 (State.cfgWrite s a dw v) := by
  unfold State.cfgWrite
  repeat' with_reducible first
    | exact h
    | refine State.updAtt_keeps ?_ (hl.of rfl)
    | assumption
    | split
    | dsimp only

theorem execConfigRequest_keeps {K a req} (h : Keeps K s0 s) (hl : Sub 26396869001216 K) :
    OutKeeps K s0 (execConfigRequest a req s) := by
  unfold execConfigRequest
  repeat' with_reducible first
    | exact h
    | exact OutKeeps.next h
    | refine State.cfgWrite_keeps ?_ (hl.of rfl)
    | refine State.emitOut_keeps ?_ (hl.of rfl)
    | refine State.freeWord_keeps ?_ (by with_reducible assumption) (hl.of rfl)
    | apply OutKeeps.next
    | assumption
    | split
    | dsimp only
    | refine State.freeWord_keeps ?_ Prod.mk.eta.symm (hl.of rfl)

theorem State.attCtrl_keeps {K a v} (h : Keeps K s0 s) (hl : Sub 8589934604 K) :
    Keeps K s0 (State.attCtrl s a v) := by
  unfold State.attCtrl
  repeat' with_reducible first
    | exact h
    | refine State.maskWrite_keeps ?_ (hl.of rfl)
    | refine State.updAtt_keeps ?_ (hl.of rfl)
    | refine State.wf'_keeps ?_ (hl.of rfl)
    | assumption
    | split
    | dsimp only

theorem execScanEnable_keeps {K a v} (h : Keeps K s0 s) (hl : Sub 8589934604 K) :
    OutKeeps K s0 (execScanEnable a v s) := by
  unfold execScanEnable
  repeat' with_reducible first
    | exact h
    | exact OutKeeps.next h
    | refine State.attCtrl_keeps ?_ (hl.of rfl)
    | refine State.guard_keeps ?_ ?_ (hl.of rfl)
    | apply OutKeeps.next
    | intro _ h
    | assumption
    | split

theorem State.ringCtrl_keeps {K a kind r v} (h : Keeps K s0 s) (hl : Sub 8589934604 K) :
    Keeps K s0 (State.ringCtrl s a kind r v) := by
  unfold State.ringCtrl
  repeat' with_reducible first
    | exact h
    | refine State.maskWrite_keeps ?_ (hl.of rfl)
    | refine State.updAtt_keeps ?_ (hl.of rfl)
    | refine State.wf'_keeps ?_ (hl.of rfl)
    | refine State.wr_keeps ?_ (hl.of rfl)
    | assumption
    | split
    | dsimp only

theorem execRingEnable_keeps {K a kind r v} (h : Keeps K s0 s) (hl : Sub 8589934604 K) :
    OutKeeps K s0 (execRingEnable a kind r v s) := by
  unfold execRingEnable
  repeat' with_reducible first
    | exact h
    | exact OutKeeps.next h
    | refine State.ringCtrl_keeps ?_ (hl.of rfl)
    | refine State.guard_keeps ?_ ?_ (hl.of rfl)
    | apply OutKeeps.next
    | intro _ h
    | assumption
    | split

theorem execRingDisable_keeps {K a kind r v} (h : Keeps K s0 s) (hl : Sub 8589934604 K) :
    OutKeeps K s0 (execRingDisable a kind r v s) := by
  unfold execRingDisable
  repeat' with_reducible first
    | exact h
    | exact OutKeeps.next h
    | refine State.ringCtrl_keeps ?_ (hl.of rfl)
    | refine State.guard_keeps ?_ ?_ (hl.of rfl)
    | apply OutKeeps.next
    | intro _ h
    | assumption
    | split

theorem execDoorbellScan_keeps {K a} (h : Keeps K s0 s) (hl : Sub 8589934596 K) :
    OutKeeps K s0 (execDoorbellScan a s) := by
  unfold execDoorbellScan
  repeat' with_reducible first
    | exact h
    | exact OutKeeps.next h
    | refine State.updAtt_keeps ?_ (hl.of rfl)
    | refine State.count_keeps ?_ (hl.of rfl)
    | apply OutKeeps.next
    | assumption
    | split

theorem State.hostIndex_keeps {K a kind r h4} (h : Keeps K s0 s) (hl : Sub 8805756702724 K) :
    Keeps K s0 (State.hostIndex s a kind r h4) := by
  unfold State.hostIndex
  repeat' with_reducible first
    | exact h
    | refine State.ringError_keeps ?_ (hl.of rfl)
    | refine State.updAtt_keeps ?_ (hl.of rfl)
    | refine State.wr_keeps ?_ (hl.of rfl)
    | assumption
    | split
    | dsimp only

theorem State.hostErr_keeps {K a kind r ecrc} (h : Keeps K s0 s) (hl : Sub 8797166768132 K) :
    Keeps K s0 (State.hostErr s a kind r ecrc) := by
  unfold State.hostErr
  repeat' with_reducible first
    | exact h
    | refine State.report_keeps ?_ (hl.of rfl)
    | refine State.count_keeps ?_ (hl.of rfl)
    | assumption
    | split

theorem State.fetched_keeps {K a r bytes} (h : Keeps K s0 s) (hl : Sub 8805756702724 K) :
    Keeps K s0 (State.fetched s a r bytes) := by
  unfold State.fetched
  repeat' with_reducible first
    | exact h
    | refine State.hostErr_keeps ?_ (hl.of rfl)
    | refine State.ringError_keeps ?_ (hl.of rfl)
    | refine State.updAtt_keeps ?_ (hl.of rfl)
    | assumption
    | split
    | dsimp only

theorem State.pumpAll_keeps {K a} (h : Keeps K s0 s) (hl : Sub 8805756702724 K) :
    Keeps K s0 (State.pumpAll s a) := by
  unfold State.pumpAll
  repeat' with_reducible first
    | exact h
    | refine State.pump_keeps ?_ (hl.of rfl)
    | apply keeps_foldl (fun _ _ h => ?_)

theorem execScanReturn_keeps {K a indices descs} (h : Keeps K s0 s) (hl : Sub 8805756702724 K) :
    OutKeeps K s0 (execScanReturn a indices descs s) := by
  unfold execScanReturn
  repeat' with_reducible first
    | exact h
    | exact OutKeeps.next h
    | refine State.pumpAll_keeps ?_ (hl.of rfl)
    | refine State.fetched_keeps ?_ (hl.of rfl)
    | refine State.hostIndex_keeps ?_ (hl.of rfl)
    | refine State.updAtt_keeps ?_ (hl.of rfl)
    | apply OutKeeps.next
    | apply keeps_foldl (fun _ _ h => ?_)
    | apply keeps_foldl_fst (fun _ _ _ h => ?_)
    | assumption
    | split

/-! ### Machine/Sequencer -/

theorem State.clearParity_keeps {K k par} (h : Keeps K s0 s) (hl : Sub 536871940 K) :
    Keeps K s0 (State.clearParity s k par) := by
  unfold State.clearParity
  repeat' with_reducible first
    | exact h
    | refine State.setEpX_keeps ?_ (hl.of rfl)
    | refine State.updCore_keeps ?_ (hl.of rfl)
    | refine State.wr_keeps ?_ (hl.of rfl)
    | apply keeps_foldl (fun _ _ h => ?_)

theorem State.openNext_keeps {K k} (h : Keeps K s0 s) (hl : Sub 8830318550276 K) :
    Keeps K s0 (State.openNext s k) := by
  unfold State.openNext
  repeat' with_reducible first
    | exact h
    | refine State.clearParity_keeps ?_ (hl.of rfl)
    | refine State.openIngress_keeps ?_ (hl.of rfl)
    | refine State.stepState_keeps ?_ (hl.of rfl)
    | refine State.updPart_keeps ?_ (hl.of rfl)
    | refine State.updGrove_keeps ?_ (hl.of rfl)
    | refine State.updCore_keeps ?_ (hl.of rfl)
    | refine State.wr64_keeps ?_ (hl.of rfl)
    | refine State.count_keeps ?_ (hl.of rfl)
    | refine State.wf'_keeps ?_ (hl.of rfl)
    | refine State.wr_keeps ?_ (hl.of rfl)
    | apply keeps_foldl (fun _ _ h => ?_)
    | assumption
    | split

theorem execStepOpen_keeps {K k} (h : Keeps K s0 s) (hl : Sub 8830318550276 K) :
    OutKeeps K s0 (execStepOpen k s) := by
  unfold execStepOpen
  repeat' with_reducible first
    | exact h
    | exact OutKeeps.next h
    | refine State.openNext_keeps ?_ (hl.of rfl)
    | apply OutKeeps.next
    | assumption
    | split

theorem State.cutCore_keeps {K k n p} (h : Keeps K s0 s) (hl : Sub 26389352814020 K) :
    Keeps K s0 (State.cutCore s k n p) := by
  unfold State.cutCore
  repeat' with_reducible first
    | exact h
    | refine State.setLogState_keeps ?_ (hl.of rfl)
    | refine State.updPart_keeps ?_ (hl.of rfl)
    | refine State.updCore_keeps ?_ (hl.of rfl)
    | refine State.count_keeps ?_ (hl.of rfl)
    | apply keeps_foldl (fun _ _ h => ?_)

theorem State.cutStep_keeps {K k} (h : Keeps K s0 s) (hl : Sub 26389352814020 K) :
    Keeps K s0 (State.cutStep s k) := by
  unfold State.cutStep
  repeat' with_reducible first
    | exact h
    | refine State.cutCore_keeps ?_ (hl.of rfl)
    | refine State.updPart_keeps ?_ (hl.of rfl)
    | refine State.count_keeps ?_ (hl.of rfl)
    | apply keeps_foldl (fun _ _ h => ?_)

theorem State.overrunFire_keeps {K k} (h : Keeps K s0 s) (hl : Sub 26421699288516 K) :
    Keeps K s0 (State.overrunFire s k) := by
  unfold State.overrunFire
  repeat' with_reducible first
    | exact h
    | refine State.cutStep_keeps ?_ (hl.of rfl)
    | refine State.stopPart_keeps ?_ (hl.of rfl)
    | refine State.updPart_keeps ?_ (hl.of rfl)
    | assumption
    | split
    | dsimp only

theorem execSequencerFire_keeps {K k} (h : Keeps K s0 s) (hl : Sub 26422504594884 K) :
    OutKeeps K s0 (execSequencerFire k s) := by
  unfold execSequencerFire
  repeat' with_reducible first
    | exact h
    | exact OutKeeps.next h
    | refine State.overrunFire_keeps ?_ (hl.of rfl)
    | refine State.openNext_keeps ?_ (hl.of rfl)
    | refine State.updPart_keeps ?_ (hl.of rfl)
    | refine State.count_keeps ?_ (hl.of rfl)
    | refine State.wf'_keeps ?_ (hl.of rfl)
    | apply OutKeeps.next
    | assumption
    | split
    | dsimp only

theorem execStretchLimit_keeps {K k} (h : Keeps K s0 s) (hl : Sub 8829513243908 K) :
    OutKeeps K s0 (execStretchLimit k s) := by
  unfold execStretchLimit
  repeat' with_reducible first
    | exact h
    | exact OutKeeps.next h
    | refine State.stopPart_keeps ?_ (hl.of rfl)
    | apply OutKeeps.next
    | assumption
    | split
    | dsimp only

theorem execLastInjectionDeclare_keeps {K p} (h : Keeps K s0 s) (hl : Sub 5120 K) :
    OutKeeps K s0 (execLastInjectionDeclare p s) := by
  unfold execLastInjectionDeclare
  repeat' with_reducible first
    | exact h
    | exact OutKeeps.next h
    | refine State.updPart_keeps ?_ (hl.of rfl)
    | refine State.updCore_keeps ?_ (hl.of rfl)
    | apply OutKeeps.next
    | assumption
    | split

theorem execDeliveryEvaluate_keeps {K k} (h : Keeps K s0 s) (hl : Sub 8829781679364 K) :
    OutKeeps K s0 (execDeliveryEvaluate k s) := by
  unfold execDeliveryEvaluate
  repeat' with_reducible first
    | exact h
    | exact OutKeeps.next h
    | refine State.askGrove_keeps ?_ (hl.of rfl)
    | refine State.stepState_keeps ?_ (hl.of rfl)
    | refine State.updPart_keeps ?_ (hl.of rfl)
    | apply OutKeeps.next
    | apply keeps_foldl (fun _ _ h => ?_)
    | assumption
    | split
    | dsimp only

theorem State.keepLog_keeps {K p keep} (h : Keeps K s0 s) (hl : Sub 1028 K) :
    Keeps K s0 (State.keepLog s p keep) := by
  unfold State.keepLog
  repeat' with_reducible first
    | exact h
    | refine State.updCore_keeps ?_ (hl.of rfl)
    | refine State.wf'_keeps ?_ (hl.of rfl)

theorem State.resumeCore_keeps {K p n} (h : Keeps K s0 s) (hl : Sub 26421967723972 K) :
    Keeps K s0 (State.resumeCore s p n) := by
  unfold State.resumeCore
  repeat' with_reducible first
    | exact h
    | refine State.denseEmit_keeps ?_ (hl.of rfl)
    | refine State.resumeEmit_keeps ?_ (hl.of rfl)
    | refine State.sweepOn_keeps ?_ (hl.of rfl)
    | refine State.count_keeps ?_ (hl.of rfl)
    | assumption
    | split
    | dsimp only

theorem State.finishRound_keeps {K k n} (h : Keeps K s0 s) (hl : Sub 26421967723972 K) :
    Keeps K s0 (State.finishRound s k n) := by
  unfold State.finishRound
  repeat' with_reducible first
    | exact h
    | refine State.resumeCore_keeps ?_ (hl.of rfl)
    | refine State.keepLog_keeps ?_ (hl.of rfl)
    | refine State.recEntry_keeps ?_ (hl.of rfl)
    | refine State.stepState_keeps ?_ (hl.of rfl)
    | refine State.updPart_keeps ?_ (hl.of rfl)
    | refine State.updGrove_keeps ?_ (hl.of rfl)
    | refine State.count_keeps ?_ (hl.of rfl)
    | refine State.wf'_keeps ?_ (hl.of rfl)
    | apply keeps_foldl (fun _ _ h => ?_)

theorem execRound_keeps {K k} (h : Keeps K s0 s) (hl : Sub 26421967723972 K) :
    OutKeeps K s0 (execRound k s) := by
  unfold execRound
  repeat' with_reducible first
    | exact h
    | exact OutKeeps.next h
    | refine State.finishRound_keeps ?_ (hl.of rfl)
    | refine State.askGrove_keeps ?_ (hl.of rfl)
    | refine State.passAudit_keeps ?_ (hl.of rfl)
    | refine State.stepState_keeps ?_ (hl.of rfl)
    | refine State.updPart_keeps ?_ (hl.of rfl)
    | apply OutKeeps.next
    | apply keeps_foldl (fun _ _ h => ?_)
    | assumption
    | split
    | dsimp only

theorem State.commitChannel_keeps {K k p ch acc} {z} (h : Keeps K s0 s) (e : State.commitChannel s k p ch acc = (t, z)) (hl : Sub 4544 K) :
    Keeps K s0 t := by
  unfold State.commitChannel at e
  try dsimp only at e
  repeat' split at e
  all_goals with_reducible first | cases e
  repeat' with_reducible first
    | exact h
    | refine State.recEntry_keeps ?_ (hl.of rfl)
    | refine State.setNum_keeps ?_ (hl.of rfl)

theorem State.commitScales_keeps {K k p} (h : Keeps K s0 s) (hl : Sub 4548 K) :
    Keeps K s0 (State.commitScales s k p) := by
  unfold State.commitScales
  repeat' with_reducible first
    | exact h
    | refine State.count_keeps ?_ (hl.of rfl)
    | refine State.wr_keeps ?_ (hl.of rfl)
    | refine State.commitChannel_keeps ?_ (by with_reducible assumption) (hl.of rfl)
    | apply keeps_foldl (fun _ _ h => ?_)
    | apply keeps_foldl_fst (fun _ _ _ h => ?_)
    | assumption
    | split
    | dsimp only
    | refine State.commitChannel_keeps ?_ Prod.mk.eta.symm (hl.of rfl)

theorem State.injectSpills_keeps {K k p n} (h : Keeps K s0 s) (hl : Sub 26421967723972 K) :
    Keeps K s0 (State.injectSpills s k p n) := by
  unfold State.injectSpills
  repeat' with_reducible first
    | exact h
    | refine State.presentEntry_keeps ?_ (hl.of rfl)
    | refine State.wr_keeps ?_ (hl.of rfl)
    | apply keeps_foldl (fun _ _ h => ?_)

theorem State.commitCore_keeps {K k n p} (h : Keeps K s0 s) (hl : Sub 26421967723972 K) :
    Keeps K s0 (State.commitCore s k n p) := by
  unfold State.commitCore
  repeat' with_reducible first
    | exact h
    | refine State.injectSpills_keeps ?_ (hl.of rfl)
    | refine State.commitScales_keeps ?_ (hl.of rfl)
    | refine State.keepLog_keeps ?_ (hl.of rfl)
    | refine State.resumeEmit_keeps ?_ (hl.of rfl)
    | refine State.idleNeurons_keeps ?_ (hl.of rfl)
    | refine State.updCore_keeps ?_ (hl.of rfl)
    | refine State.count_keeps ?_ (hl.of rfl)
    | refine State.wf'_keeps ?_ (hl.of rfl)
    | refine State.wr_keeps ?_ (hl.of rfl)

theorem State.fenceAtCommit_keeps {K k p} {z} (h : Keeps K s0 s) (e : State.fenceAtCommit s k p = (t, z)) (hl : Sub 15394236537860 K) :
    Keeps K s0 t := by
  unfold State.fenceAtCommit at e
  try dsimp only at e
  repeat' split at e
  all_goals with_reducible first | cases e
  repeat' with_reducible first
    | exact h
    | refine State.recEntry_keeps ?_ (hl.of rfl)
    | refine State.wakeCore_keeps ?_ (hl.of rfl)
    | refine State.noteSaplings_keeps ?_ (hl.of rfl)
    | refine State.unmap_keeps ?_ (hl.of rfl)
    | refine State.setRole_keeps ?_ (hl.of rfl)
    | refine State.mapEvent_keeps ?_ (hl.of rfl)
    | refine State.report_keeps ?_ (hl.of rfl)
    | refine State.updGrove_keeps ?_ (hl.of rfl)
    | refine State.updCore_keeps ?_ (hl.of rfl)

theorem State.fencesAtCommit_keeps {K k} {z} (h : Keeps K s0 s) (e : State.fencesAtCommit s k = (t, z)) (hl : Sub 15394236537860 K) :
    Keeps K s0 t := by
  unfold State.fencesAtCommit at e
  refine keeps_fst e (keeps_foldl_fst (fun u b x h => ?_) h)
  exact State.fenceAtCommit_keeps h Prod.mk.eta.symm (hl.of rfl)

theorem State.ringRecord_keeps {K k bs} (h : Keeps K s0 s) (hl : Sub 2564 K) :
    Keeps K s0 (State.ringRecord s k bs) := by
  unfold State.ringRecord
  repeat' with_reducible first
    | exact h
    | refine State.hbmWrite_keeps ?_ (hl.of rfl)
    | refine State.count_keeps ?_ (hl.of rfl)
    | refine State.wr_keeps ?_ (hl.of rfl)
    | assumption
    | split
    | dsimp only

theorem State.drainRecords_keeps {K k} (h : Keeps K s0 s) (hl : Sub 6660 K) :
    Keeps K s0 (State.drainRecords s k) := by
  unfold State.drainRecords
  repeat' with_reducible first
    | exact h
    | refine State.ringRecord_keeps ?_ (hl.of rfl)
    | refine State.updPart_keeps ?_ (hl.of rfl)
    | apply keeps_foldl (fun _ _ h => ?_)
    | assumption
    | split

theorem State.queueRecord_keeps {K k bs} (h : Keeps K s0 s) (hl : Sub 6660 K) :
    Keeps K s0 (State.queueRecord s k bs) := by
  unfold State.queueRecord
  repeat' with_reducible first
    | exact h
    | refine State.drainRecords_keeps ?_ (hl.of rfl)
    | refine State.updPart_keeps ?_ (hl.of rfl)
    | refine State.count_keeps ?_ (hl.of rfl)
    | apply keeps_foldl (fun _ _ h => ?_)
    | assumption
    | split
    | dsimp only

theorem State.commitGrove_keeps {K n g} (h : Keeps K s0 s) (hl : Sub 2052 K) :
    Keeps K s0 (State.commitGrove s n g) := by
  unfold State.commitGrove
  repeat' with_reducible first
    | exact h
    | refine State.updGrove_keeps ?_ (hl.of rfl)
    | refine State.wf'_keeps ?_ (hl.of rfl)
    | refine State.wr_keeps ?_ (hl.of rfl)

theorem State.commitStep_keeps {K k n} (h : Keeps K s0 s) (hl : Sub 33019037491140 K) :
    Keeps K s0 (State.commitStep s k n) := by
  unfold State.commitStep
  repeat' with_reducible first
    | exact h
    | refine State.commitGrove_keeps ?_ (hl.of rfl)
    | refine State.queueRecord_keeps ?_ (hl.of rfl)
    | refine State.commitCore_keeps ?_ (hl.of rfl)
    | refine State.weightDigests_keeps ?_ (hl.of rfl)
    | refine State.groveWide_keeps ?_ (hl.of rfl)
    | refine State.plsCommit_keeps ?_ (hl.of rfl)
    | refine State.releasePort_keeps ?_ (hl.of rfl)
    | refine State.releaseAtt_keeps ?_ (hl.of rfl)
    | refine State.stepState_keeps ?_ (hl.of rfl)
    | refine State.haltNow_keeps ?_ (hl.of rfl)
    | refine State.updPart_keeps ?_ (hl.of rfl)
    | refine State.wr_keeps ?_ (hl.of rfl)
    | refine State.fencesAtCommit_keeps ?_ (by with_reducible assumption) (hl.of rfl)
    | apply keeps_foldl (fun _ _ h => ?_)
    | assumption
    | split
    | dsimp only
    | refine State.fencesAtCommit_keeps ?_ Prod.mk.eta.symm (hl.of rfl)

theorem execPartitionCommit_keeps {K k} (h : Keeps K s0 s) (hl : Sub 33019037491140 K) :
    OutKeeps K s0 (execPartitionCommit k s) := by
  unfold execPartitionCommit
  repeat' with_reducible first
    | exact h
    | exact OutKeeps.next h
    | refine State.commitStep_keeps ?_ (hl.of rfl)
    | apply OutKeeps.next
    | assumption
    | split

/-! ### Machine/Ports -/

theorem State.tellCtxUe_keeps {K c} (h : Keeps K s0 s) (hl : Sub 8865886244868 K) :
    Keeps K s0 (State.tellCtxUe s c) := by
  unfold State.tellCtxUe
  repeat' first
    | with_reducible exact h
    | with_reducible refine State.report_keeps ?_ (hl.of rfl)
    | with_reducible assumption
    | with_reducible split
    | with_reducible dsimp only
    | with_reducible refine Keeps.upd ?_ ?_
    | (intro f hf; cases f <;> first | exact absurd ((hl.mem _ rfl).symm.trans hf) Bool.noConfusion | exact rfl)

theorem State.takeIn_keeps {K e1 k size} {z} (h : Keeps K s0 s) (e : State.takeIn s e1 k size = (t, z)) (hl : Sub 17179869188 K) :
    Keeps K s0 t := by
  unfold State.takeIn at e
  try dsimp only at e
  repeat' split at e
  all_goals with_reducible first | cases e
  repeat' with_reducible first
    | exact h
    | refine State.updPort_keeps ?_ (hl.of rfl)
    | refine State.count_keeps ?_ (hl.of rfl)

theorem State.joinIn_keeps {K e1 h2} (h : Keeps K s0 s) (hl : Sub 8830318550276 K) :
    Keeps K s0 (State.joinIn s e1 h2) := by
  unfold State.joinIn
  repeat' with_reducible first
    | exact h
    | refine State.acceptIn_keeps ?_ (by with_reducible assumption) (hl.of rfl)
    | assumption
    | split
    | dsimp only
    | refine State.acceptIn_keeps ?_ Prod.mk.eta.symm (hl.of rfl)

theorem State.lyletIn_keeps {K e1 size l} (h : Keeps K s0 s) (hl : Sub 8899038027012 K) :
    Keeps K s0 (State.lyletIn s e1 size l) := by
  unfold State.lyletIn
  repeat' with_reducible first
    | exact h
    | refine State.joinIn_keeps ?_ (hl.of rfl)
    | refine State.tellCtxUe_keeps ?_ (hl.of rfl)
    | refine State.report_keeps ?_ (hl.of rfl)
    | refine State.meetCtx_keeps ?_ (hl.of rfl)
    | refine State.setContext_keeps ?_ (hl.of rfl)
    | refine State.count_keeps ?_ (hl.of rfl)
    | refine State.takeIn_keeps ?_ (by with_reducible assumption) (hl.of rfl)
    | assumption
    | split
    | dsimp only
    | refine State.takeIn_keeps ?_ Prod.mk.eta.symm (hl.of rfl)

theorem execLyletFrameReceive_keeps {K e0 fcsOk full corr uncorr bs} (h : Keeps K s0 s) (hl : Sub 8899038027012 K) :
    OutKeeps K s0 (execLyletFrameReceive e0 fcsOk full corr uncorr bs s) := by
  unfold execLyletFrameReceive
  repeat' with_reducible first
    | exact h
    | exact OutKeeps.next h
    | refine State.lyletIn_keeps ?_ (hl.of rfl)
    | refine State.report_keeps ?_ (hl.of rfl)
    | refine State.count_keeps ?_ (hl.of rfl)
    | apply OutKeeps.next
    | assumption
    | split
    | dsimp only

theorem State.setStampQ_keeps {K i q} (h : Keeps K s0 s) (hl : Sub 137438953476 K) :
    Keeps K s0 (State.setStampQ s i q) := by
  unfold State.setStampQ
  repeat' first
    | with_reducible exact h
    | with_reducible refine State.wf'_keeps ?_ (hl.of rfl)
    | with_reducible assumption
    | with_reducible split
    | with_reducible dsimp only
    | with_reducible refine Keeps.upd ?_ ?_
    | (intro f hf; cases f <;> first | exact absurd ((hl.mem _ rfl).symm.trans hf) Bool.noConfusion | exact rfl)

theorem execStampDeliver_keeps {K i} (h : Keeps K s0 s) (hl : Sub 9036476980484 K) :
    OutKeeps K s0 (execStampDeliver i s) := by
  unfold execStampDeliver
  repeat' with_reducible first
    | exact h
    | exact OutKeeps.next h
    | refine State.setStampQ_keeps ?_ (hl.of rfl)
    | refine State.joinIn_keeps ?_ (hl.of rfl)
    | refine State.tellCtxUe_keeps ?_ (hl.of rfl)
    | refine State.meetCtx_keeps ?_ (hl.of rfl)
    | refine State.count_keeps ?_ (hl.of rfl)
    | apply OutKeeps.next
    | assumption
    | split
    | dsimp only

theorem State.pacerRelease_keeps {K e1 j} (h : Keeps K s0 s) (hl : Sub 17179869188 K) :
    Keeps K s0 (State.pacerRelease s e1 j) := by
  unfold State.pacerRelease
  repeat' with_reducible first
    | exact h
    | refine State.updPort_keeps ?_ (hl.of rfl)
    | refine State.count_keeps ?_ (hl.of rfl)
    | refine State.wf'_keeps ?_ (hl.of rfl)

theorem State.pacerFire_keeps {K ch} (h : Keeps K s0 s) (hl : Sub 17179869188 K) :
    Keeps K s0 (State.pacerFire s ch) := by
  unfold State.pacerFire
  repeat' with_reducible first
    | exact h
    | refine State.pacerRelease_keeps ?_ (hl.of rfl)
    | apply keeps_foldl (fun _ _ h => ?_)
    | assumption
    | split

theorem State.transmit_keeps {K e1 f} (h : Keeps K s0 s) (hl : Sub 26411901387012 K) :
    Keeps K s0 (State.transmit s e1 f) := by
  unfold State.transmit
  repeat' with_reducible first
    | exact h
    | refine State.owesLoss_keeps ?_ (hl.of rfl)
    | refine State.emitOut_keeps ?_ (hl.of rfl)
    | refine State.count_keeps ?_ (hl.of rfl)
    | refine State.freeNat_keeps ?_ (by with_reducible assumption) (hl.of rfl)
    | assumption
    | split

theorem State.transmitLower_keeps {K e1} (h : Keeps K s0 s) (hl : Sub 26411901387012 K) :
    Keeps K s0 (State.transmitLower s e1) := by
  unfold State.transmitLower
  repeat' with_reducible first
    | exact h
    | refine State.transmit_keeps ?_ (hl.of rfl)
    | refine State.emitOut_keeps ?_ (hl.of rfl)
    | refine State.updPort_keeps ?_ (hl.of rfl)
    | refine State.count_keeps ?_ (hl.of rfl)
    | assumption
    | split

theorem execFrameTransmit_keeps {K e0} (h : Keeps K s0 s) (hl : Sub 26411901387012 K) :
    OutKeeps K s0 (execFrameTransmit e0 s) := by
  unfold execFrameTransmit
  repeat' with_reducible first
    | exact h
    | exact OutKeeps.next h
    | refine State.transmitLower_keeps ?_ (hl.of rfl)
    | refine State.transmit_keeps ?_ (hl.of rfl)
    | refine State.flushAllEarly_keeps ?_ (hl.of rfl)
    | refine State.updPort_keeps ?_ (hl.of rfl)
    | refine State.count_keeps ?_ (hl.of rfl)
    | apply OutKeeps.next
    | assumption
    | split
    | dsimp only

theorem State.evpLinkLoss_keeps {K e1} (h : Keeps K s0 s) (hl : Sub 8797166768132 K) :
    Keeps K s0 (State.evpLinkLoss s e1) := by
  unfold State.evpLinkLoss
  repeat' with_reducible first
    | exact h
    | refine State.report_keeps ?_ (hl.of rfl)
    | refine State.wr_keeps ?_ (hl.of rfl)
    | assumption
    | split

theorem execEvpLinkDown_keeps {K e0} (h : Keeps K s0 s) (hl : Sub 8797166768132 K) :
    OutKeeps K s0 (execEvpLinkDown e0 s) := by
  unfold execEvpLinkDown
  repeat' with_reducible first
    | exact h
    | exact OutKeeps.next h
    | refine State.evpLinkLoss_keeps ?_ (hl.of rfl)
    | apply OutKeeps.next
    | assumption
    | split

theorem execEvpLinkUp_keeps {K e0 an} (h : Keeps K s0 s) (hl : Sub 4 K) :
    OutKeeps K s0 (execEvpLinkUp e0 an s) := by
  unfold execEvpLinkUp
  repeat' with_reducible first
    | exact h
    | exact OutKeeps.next h
    | refine State.wr_keeps ?_ (hl.of rfl)
    | apply OutKeeps.next
    | assumption
    | split

theorem State.setSynced_keeps {K e1 on} (h : Keeps K s0 s) (hl : Sub 8797166768132 K) :
    Keeps K s0 (State.setSynced s e1 on) := by
  unfold State.setSynced
  repeat' with_reducible first
    | exact h
    | refine State.report_keeps ?_ (hl.of rfl)
    | refine State.wf'_keeps ?_ (hl.of rfl)
    | assumption
    | split

theorem execPtpEventMessage_keeps {K e0 update synced offset step rate reply} (h : Keeps K s0 s) (hl : Sub 8814346637316 K) :
    OutKeeps K s0 (execPtpEventMessage e0 update synced offset step rate reply s) := by
  unfold execPtpEventMessage
  repeat' with_reducible first
    | exact h
    | exact OutKeeps.next h
    | refine State.setSynced_keeps ?_ (hl.of rfl)
    | refine State.updPort_keeps ?_ (hl.of rfl)
    | refine State.wr64_keeps ?_ (hl.of rfl)
    | refine State.count_keeps ?_ (hl.of rfl)
    | refine State.wr_keeps ?_ (hl.of rfl)
    | apply OutKeeps.next
    | assumption
    | split

/-! ### Machine/Timebase -/

theorem State.showFrozen_keeps {K ch} (h : Keeps K s0 s) (hl : Sub 4 K) :
    Keeps K s0 (State.showFrozen s ch) := by
  unfold State.showFrozen
  repeat' with_reducible first
    | exact h
    | refine State.wf'_keeps ?_ (hl.of rfl)

theorem State.chFlag_keeps {K ch i} (h : Keeps K s0 s) (hl : Sub 4 K) :
    Keeps K s0 (State.chFlag s ch i) := by
  unfold State.chFlag
  repeat' with_reducible first
    | exact h
    | refine State.wf'_keeps ?_ (hl.of rfl)

theorem State.fireRegs_keeps {K ch d} (h : Keeps K s0 s) (hl : Sub 4 K) :
    Keeps K s0 (State.fireRegs s ch d) := by
  unfold State.fireRegs
  repeat' with_reducible first
    | exact h
    | refine State.chFlag_keeps ?_ (hl.of rfl)
    | refine State.wr64_keeps ?_ (hl.of rfl)
    | refine State.count_keeps ?_ (hl.of rfl)
    | refine State.wf'_keeps ?_ (hl.of rfl)
    | assumption
    | split
    | dsimp only

theorem State.chNotify_keeps {K ch} (h : Keeps K s0 s) (hl : Sub 1028 K) :
    Keeps K s0 (State.chNotify s ch) := by
  unfold State.chNotify
  repeat' with_reducible first
    | exact h
    | refine State.wf'_keeps ?_ (hl.of rfl)
    | refine State.accept_keeps ?_ (by with_reducible assumption) (hl.of rfl)
    | assumption
    | split
    | dsimp only
    | refine State.accept_keeps ?_ Prod.mk.eta.symm (hl.of rfl)

theorem State.fireClass_keeps {K ch} (h : Keeps K s0 s) (hl : Sub 17179874308 K) :
    Keeps K s0 (State.fireClass s ch) := by
  unfold State.fireClass
  repeat' with_reducible first
    | exact h
    | refine State.chNotify_keeps ?_ (hl.of rfl)
    | refine State.pacerFire_keeps ?_ (hl.of rfl)
    | refine State.wake_keeps ?_ (hl.of rfl)
    | refine State.updPart_keeps ?_ (hl.of rfl)
    | assumption
    | split
    | dsimp only

theorem State.slaveAct_keeps {K m x} (h : Keeps K s0 s) (hl : Sub 4 K) :
    Keeps K s0 (State.slaveAct s m x) := by
  unfold State.slaveAct
  repeat' with_reducible first
    | exact h
    | refine State.chFlag_keeps ?_ (hl.of rfl)
    | refine State.count64_keeps ?_ (hl.of rfl)
    | refine State.wr64_keeps ?_ (hl.of rfl)
    | assumption
    | split

theorem State.fireOne_keeps {K ch} (h : Keeps K s0 s) (hl : Sub 17179874308 K) :
    Keeps K s0 (State.fireOne s ch) := by
  unfold State.fireOne
  repeat' with_reducible first
    | exact h
    | refine State.fireClass_keeps ?_ (hl.of rfl)
    | refine State.fireRegs_keeps ?_ (hl.of rfl)
    | refine State.wf'_keeps ?_ (hl.of rfl)
    | assumption
    | split

theorem State.chFire_keeps {K ch} (h : Keeps K s0 s) (hl : Sub 17179874308 K) :
    Keeps K s0 (State.chFire s ch) := by
  unfold State.chFire
  repeat' with_reducible first
    | exact h
    | refine State.fireOne_keeps ?_ (hl.of rfl)
    | refine State.slaveAct_keeps ?_ (hl.of rfl)
    | apply keeps_foldl (fun _ _ h => ?_)
    | assumption
    | split

theorem State.fireIfReady_keeps {K ch} (h : Keeps K s0 s) (hl : Sub 17179874308 K) :
    Keeps K s0 (State.fireIfReady s ch) := by
  unfold State.fireIfReady
  repeat' with_reducible first
    | exact h
    | refine State.chFire_keeps ?_ (hl.of rfl)
    | assumption
    | split

theorem State.fireAll_keeps {K chs} (h : Keeps K s0 s) (hl : Sub 17179874308 K) :
    Keeps K s0 (State.fireAll s chs) := by
  unfold State.fireAll
  repeat' with_reducible first
    | exact h
    | refine State.fireIfReady_keeps ?_ (hl.of rfl)
    | apply keeps_foldl (fun _ _ h => ?_)

theorem State.fireDue_keeps {K core} (h : Keeps K s0 s) (hl : Sub 17179874308 K) :
    Keeps K s0 (State.fireDue s core) := by
  unfold State.fireDue
  repeat' with_reducible first
    | exact h
    | refine State.fireAll_keeps ?_ (hl.of rfl)

theorem State.evalBefore_keeps {K ch} (h : Keeps K s0 s) (hl : Sub 17179874308 K) :
    Keeps K s0 (State.evalBefore s ch) := by
  unfold State.evalBefore
  repeat' with_reducible first
    | exact h
    | refine State.fireAll_keeps ?_ (hl.of rfl)

theorem execChannelFire_keeps {K ch} (h : Keeps K s0 s) (hl : Sub 17179874308 K) :
    OutKeeps K s0 (execChannelFire ch s) := by
  unfold execChannelFire
  repeat' with_reducible first
    | exact h
    | exact OutKeeps.next h
    | refine State.fireIfReady_keeps ?_ (hl.of rfl)
    | apply OutKeeps.next

theorem State.ctrlWrite_keeps {K ch v locked} (h : Keeps K s0 s) (hl : Sub 17179874316 K) :
    Keeps K s0 (State.ctrlWrite s ch v locked) := by
  unfold State.ctrlWrite
  repeat' with_reducible first
    | exact h
    | refine State.evalBefore_keeps ?_ (hl.of rfl)
    | refine State.chFlag_keeps ?_ (hl.of rfl)
    | refine State.showFrozen_keeps ?_ (hl.of rfl)
    | refine State.maskWrite_keeps ?_ (hl.of rfl)
    | refine State.wr64_keeps ?_ (hl.of rfl)
    | refine State.wf'_keeps ?_ (hl.of rfl)
    | assumption
    | split

theorem State.compareWrite_keeps {K ch hi} (h : Keeps K s0 s) (hl : Sub 17179874340 K) :
    Keeps K s0 (State.compareWrite s ch hi) := by
  unfold State.compareWrite
  repeat' with_reducible first
    | exact h
    | refine State.evalBefore_keeps ?_ (hl.of rfl)
    | refine State.dropLo_keeps ?_ (hl.of rfl)
    | refine State.wr_keeps ?_ (hl.of rfl)

theorem State.intervalWrite_keeps {K ch v} (h : Keeps K s0 s) (hl : Sub 17179874308 K) :
    Keeps K s0 (State.intervalWrite s ch v) := by
  unfold State.intervalWrite
  repeat' with_reducible first
    | exact h
    | refine State.evalBefore_keeps ?_ (hl.of rfl)
    | refine State.chFlag_keeps ?_ (hl.of rfl)
    | refine State.wr64_keeps ?_ (hl.of rfl)
    | refine State.wr_keeps ?_ (hl.of rfl)
    | assumption
    | split
    | dsimp only

theorem State.groupStart_keeps {K a parts} (h : Keeps K s0 s) (hl : Sub 4 K) :
    Keeps K s0 (State.groupStart s a parts) := by
  unfold State.groupStart
  repeat' with_reducible first
    | exact h
    | refine State.wf'_keeps ?_ (hl.of rfl)
    | apply keeps_foldl (fun _ _ h => ?_)

theorem State.ptbTick_keeps {K} (h : Keeps K s0 s) (hl : Sub 154618827780 K) :
    Keeps K s0 (State.ptbTick s) := by
  unfold State.ptbTick
  repeat' with_reducible first
    | exact h
    | refine State.fireDue_keeps ?_ (hl.of rfl)
    | refine State.updTb_keeps ?_ (hl.of rfl)
    | refine State.count64_keeps ?_ (hl.of rfl)

theorem State.tickSpine_keeps {K} (h : Keeps K s0 s) (hl : Sub 154618827780 K) :
    Keeps K s0 (State.tickSpine s) := by
  unfold State.tickSpine
  repeat' with_reducible first
    | exact h
    | refine State.fireDue_keeps ?_ (hl.of rfl)
    | refine State.updTb_keeps ?_ (hl.of rfl)
    | apply keeps_foldl (fun _ _ h => ?_)

theorem State.setTbState_keeps {K st} (h : Keeps K s0 s) (hl : Sub 4 K) :
    Keeps K s0 (State.setTbState s st) := by
  unfold State.setTbState
  repeat' with_reducible first
    | exact h
    | refine State.wf'_keeps ?_ (hl.of rfl)

theorem State.pinEdge_keeps {K i level} (h : Keeps K s0 s) (hl : Sub 137438953476 K) :
    Keeps K s0 (State.pinEdge s i level) := by
  unfold State.pinEdge
  repeat' with_reducible first
    | exact h
    | refine State.updTb_keeps ?_ (hl.of rfl)
    | refine State.count_keeps ?_ (hl.of rfl)
    | refine State.wf'_keeps ?_ (hl.of rfl)

theorem State.encErr_keeps {K} (h : Keeps K s0 s) (hl : Sub 137438953476 K) :
    Keeps K s0 (State.encErr s) := by
  unfold State.encErr
  repeat' with_reducible first
    | exact h
    | refine State.updTb_keeps ?_ (hl.of rfl)
    | refine State.count_keeps ?_ (hl.of rfl)

theorem State.encStep_keeps {K forward} (h : Keeps K s0 s) (hl : Sub 154618827780 K) :
    Keeps K s0 (State.encStep s forward) := by
  unfold State.encStep
  repeat' with_reducible first
    | exact h
    | refine State.ptbTick_keeps ?_ (hl.of rfl)
    | refine State.count_keeps ?_ (hl.of rfl)
    | refine State.wr_keeps ?_ (hl.of rfl)
    | assumption
    | split
    | dsimp only

theorem execEncCount_keeps {K edge} (h : Keeps K s0 s) (hl : Sub 154618827780 K) :
    OutKeeps K s0 (execEncCount edge s) := by
  unfold execEncCount
  repeat' with_reducible first
    | exact h
    | exact OutKeeps.next h
    | refine State.encStep_keeps ?_ (hl.of rfl)
    | refine State.encErr_keeps ?_ (hl.of rfl)
    | refine State.pinEdge_keeps ?_ (hl.of rfl)
    | apply OutKeeps.next
    | assumption
    | split
    | dsimp only

theorem State.selectedEdge_keeps {K} (h : Keeps K s0 s) (hl : Sub 137438953476 K) :
    Keeps K s0 (State.selectedEdge s) := by
  unfold State.selectedEdge
  repeat' with_reducible first
    | exact h
    | refine State.pinEdge_keeps ?_ (hl.of rfl)
    | assumption
    | split
    | dsimp only

theorem execLineEdge_keeps {K} (h : Keeps K s0 s) (hl : Sub 154618827780 K) :
    OutKeeps K s0 (execLineEdge s) := by
  unfold execLineEdge
  repeat' with_reducible first
    | exact h
    | exact OutKeeps.next h
    | refine State.selectedEdge_keeps ?_ (hl.of rfl)
    | refine State.encErr_keeps ?_ (hl.of rfl)
    | refine State.ptbTick_keeps ?_ (hl.of rfl)
    | refine State.updTb_keeps ?_ (hl.of rfl)
    | apply OutKeeps.next
    | assumption
    | split
    | dsimp only

theorem State.setLocked_keeps {K b} (h : Keeps K s0 s) (hl : Sub 4 K) :
    Keeps K s0 (State.setLocked s b) := by
  unfold State.setLocked
  repeat' with_reducible first
    | exact h
    | refine State.wf'_keeps ?_ (hl.of rfl)

theorem State.mainsPeriod_keeps {K now} (h : Keeps K s0 s) (hl : Sub 137438953476 K) :
    Keeps K s0 (State.mainsPeriod s now) := by
  unfold State.mainsPeriod
  repeat' with_reducible first
    | exact h
    | refine State.setLocked_keeps ?_ (hl.of rfl)
    | refine State.updTb_keeps ?_ (hl.of rfl)
    | refine State.wr_keeps ?_ (hl.of rfl)
    | refine State.take_keeps ?_ (by with_reducible assumption) (hl.of rfl)
    | assumption
    | split
    | dsimp only

theorem State.mainsCycle_keeps {K wasLocked} (h : Keeps K s0 s) (hl : Sub 137438953476 K) :
    Keeps K s0 (State.mainsCycle s wasLocked) := by
  unfold State.mainsCycle
  repeat' with_reducible first
    | exact h
    | refine State.setTbState_keeps ?_ (hl.of rfl)
    | refine State.updTb_keeps ?_ (hl.of rfl)
    | assumption
    | split
    | dsimp only

theorem execMainsZeroCross_keeps {K} (h : Keeps K s0 s) (hl : Sub 137438953476 K) :
    OutKeeps K s0 (execMainsZeroCross s) := by
  unfold execMainsZeroCross
  repeat' with_reducible first
    | exact h
    | exact OutKeeps.next h
    | refine State.mainsCycle_keeps ?_ (hl.of rfl)
    | refine State.mainsPeriod_keeps ?_ (hl.of rfl)
    | refine State.selectedEdge_keeps ?_ (hl.of rfl)
    | refine State.count_keeps ?_ (hl.of rfl)
    | apply OutKeeps.next
    | assumption
    | split
    | dsimp only

theorem execMainsTick_keeps {K} (h : Keeps K s0 s) (hl : Sub 154618827780 K) :
    OutKeeps K s0 (execMainsTick s) := by
  unfold execMainsTick
  repeat' with_reducible first
    | exact h
    | exact OutKeeps.next h
    | refine State.setTbState_keeps ?_ (hl.of rfl)
    | refine State.ptbTick_keeps ?_ (hl.of rfl)
    | refine State.updTb_keeps ?_ (hl.of rfl)
    | refine State.count_keeps ?_ (hl.of rfl)
    | apply OutKeeps.next
    | assumption
    | split
    | dsimp only

theorem execPtpFollowTick_keeps {K} (h : Keeps K s0 s) (hl : Sub 154618827780 K) :
    OutKeeps K s0 (execPtpFollowTick s) := by
  unfold execPtpFollowTick
  repeat' with_reducible first
    | exact h
    | exact OutKeeps.next h
    | refine State.ptbTick_keeps ?_ (hl.of rfl)
    | refine State.count_keeps ?_ (hl.of rfl)
    | apply OutKeeps.next
    | assumption
    | split

theorem execIntTick_keeps {K} (h : Keeps K s0 s) (hl : Sub 154618827780 K) :
    OutKeeps K s0 (execIntTick s) := by
  unfold execIntTick
  repeat' with_reducible first
    | exact h
    | exact OutKeeps.next h
    | refine State.ptbTick_keeps ?_ (hl.of rfl)
    | refine State.updTb_keeps ?_ (hl.of rfl)
    | apply OutKeeps.next
    | assumption
    | split
    | dsimp only

theorem State.phaseFaults_keeps {K} (h : Keeps K s0 s) (hl : Sub 4096 K) :
    Keeps K s0 (State.phaseFaults s) := by
  unfold State.phaseFaults
  repeat' with_reducible first
    | exact h
    | refine State.updPart_keeps ?_ (hl.of rfl)
    | apply keeps_foldl (fun _ _ h => ?_)

theorem execPhaseLost_keeps {K} (h : Keeps K s0 s) (hl : Sub 8934605721604 K) :
    OutKeeps K s0 (execPhaseLost s) := by
  unfold execPhaseLost
  repeat' with_reducible first
    | exact h
    | exact OutKeeps.next h
    | refine State.phaseFaults_keeps ?_ (hl.of rfl)
    | refine State.setLocked_keeps ?_ (hl.of rfl)
    | refine State.setTbState_keeps ?_ (hl.of rfl)
    | refine State.updTb_keeps ?_ (hl.of rfl)
    | refine State.report_keeps ?_ (hl.of rfl)
    | refine State.count_keeps ?_ (hl.of rfl)
    | apply OutKeeps.next
    | assumption
    | split

theorem State.sourceReturn_keeps {K} (h : Keeps K s0 s) (hl : Sub 137438953476 K) :
    Keeps K s0 (State.sourceReturn s) := by
  unfold State.sourceReturn
  repeat' with_reducible first
    | exact h
    | refine State.setTbState_keeps ?_ (hl.of rfl)
    | refine State.updTb_keeps ?_ (hl.of rfl)

theorem execSourceAutoReturn_keeps {K} (h : Keeps K s0 s) (hl : Sub 137438953476 K) :
    OutKeeps K s0 (execSourceAutoReturn s) := by
  unfold execSourceAutoReturn
  repeat' with_reducible first
    | exact h
    | exact OutKeeps.next h
    | refine State.sourceReturn_keeps ?_ (hl.of rfl)
    | refine State.setTbState_keeps ?_ (hl.of rfl)
    | apply OutKeeps.next
    | assumption
    | split
    | dsimp only

theorem State.selectSource_keeps {K w} (h : Keeps K s0 s) (hl : Sub 137438953476 K) :
    Keeps K s0 (State.selectSource s w) := by
  unfold State.selectSource
  repeat' with_reducible first
    | exact h
    | refine State.sourceReturn_keeps ?_ (hl.of rfl)
    | refine State.setLocked_keeps ?_ (hl.of rfl)
    | refine State.setTbState_keeps ?_ (hl.of rfl)
    | refine State.updTb_keeps ?_ (hl.of rfl)
    | refine State.wf'_keeps ?_ (hl.of rfl)
    | refine State.wr_keeps ?_ (hl.of rfl)
    | apply keeps_foldl (fun _ _ h => ?_)
    | assumption
    | split

theorem execPinStamp_keeps {K i level} (h : Keeps K s0 s) (hl : Sub 137438953476 K) :
    OutKeeps K s0 (execPinStamp i level s) := by
  unfold execPinStamp
  repeat' with_reducible first
    | exact h
    | exact OutKeeps.next h
    | refine State.pinEdge_keeps ?_ (hl.of rfl)
    | refine State.setStampQ_keeps ?_ (hl.of rfl)
    | refine State.wr64_keeps ?_ (hl.of rfl)
    | refine State.count_keeps ?_ (hl.of rfl)
    | apply OutKeeps.next
    | assumption
    | split
    | dsimp only

/-! ### Machine/Power -/

theorem State.powerReq_keeps {K d req} (h : Keeps K s0 s) (hl : Sub 6597069766660 K) :
    Keeps K s0 (State.powerReq s d req) := by
  unfold State.powerReq
  repeat' with_reducible first
    | exact h
    | refine State.askDown_keeps ?_ (hl.of rfl)
    | refine State.powerOn_keeps ?_ (hl.of rfl)
    | refine State.wf'_keeps ?_ (hl.of rfl)
    | assumption
    | split
    | dsimp only

theorem State.autoOff_keeps {K d} (h : Keeps K s0 s) (hl : Sub 6597069766660 K) :
    Keeps K s0 (State.autoOff s d) := by
  unfold State.autoOff
  repeat' with_reducible first
    | exact h
    | refine State.askDown_keeps ?_ (hl.of rfl)
    | assumption
    | split

theorem execPowerRequest_keeps {K a addr v} (h : Keeps K s0 s) (hl : Sub 6597069766660 K) :
    OutKeeps K s0 (execPowerRequest a addr v s) := by
  unfold execPowerRequest
  repeat' with_reducible first
    | exact h
    | exact OutKeeps.next h
    | refine State.powerReq_keeps ?_ (hl.of rfl)
    | refine State.guard_keeps ?_ ?_ (hl.of rfl)
    | apply OutKeeps.next
    | intro _ h
    | assumption
    | split

theorem State.applyHeld_keeps {K d} (h : Keeps K s0 s) (hl : Sub 6597069766660 K) :
    Keeps K s0 (State.applyHeld s d) := by
  unfold State.applyHeld
  repeat' with_reducible first
    | exact h
    | refine State.powerReq_keeps ?_ (hl.of rfl)
    | refine State.holdReq_keeps ?_ (hl.of rfl)
    | assumption
    | split

theorem State.abortWaiting_keeps {K d} (h : Keeps K s0 s) (hl : Sub 6597069766660 K) :
    Keeps K s0 (State.abortWaiting s d) := by
  unfold State.abortWaiting
  repeat' with_reducible first
    | exact h
    | refine State.holdReq_keeps ?_ (hl.of rfl)
    | refine State.setStage_keeps ?_ (hl.of rfl)
    | refine State.setPw_keeps ?_ (hl.of rfl)
    | refine State.count_keeps ?_ (hl.of rfl)

theorem State.powered_keeps {K d target} (h : Keeps K s0 s) (hl : Sub 8805890920460 K) :
    Keeps K s0 (State.powered s d target) := by
  unfold State.powered
  repeat' with_reducible first
    | exact h
    | refine State.evpLinkLoss_keeps ?_ (hl.of rfl)
    | refine State.linkLoss_keeps ?_ (hl.of rfl)
    | refine State.setStack_keeps ?_ (hl.of rfl)
    | refine State.wf'_keeps ?_ (hl.of rfl)
    | assumption
    | split

theorem State.releaseMem_keeps {K d} (h : Keeps K s0 s) (hl : Sub 6597069766660 K) :
    Keeps K s0 (State.releaseMem s d) := by
  unfold State.releaseMem
  repeat' with_reducible first
    | exact h
    | refine State.abortWaiting_keeps ?_ (hl.of rfl)
    | refine State.setStage_keeps ?_ (hl.of rfl)
    | assumption
    | split

theorem execPowerEntryStage_keeps {K addr} (h : Keeps K s0 s) (hl : Sub 15402960687116 K) :
    OutKeeps K s0 (execPowerEntryStage addr s) := by
  unfold execPowerEntryStage
  repeat' with_reducible first
    | exact h
    | exact OutKeeps.next h
    | refine State.releaseMem_keeps ?_ (hl.of rfl)
    | refine State.powered_keeps ?_ (hl.of rfl)
    | refine State.applyHeld_keeps ?_ (hl.of rfl)
    | refine State.holdReq_keeps ?_ (hl.of rfl)
    | refine State.setStage_keeps ?_ (hl.of rfl)
    | refine State.setPw_keeps ?_ (hl.of rfl)
    | refine State.count_keeps ?_ (hl.of rfl)
    | apply OutKeeps.next
    | assumption
    | split

theorem execPowerAbortDone_keeps {K addr} (h : Keeps K s0 s) (hl : Sub 6597069766660 K) :
    OutKeeps K s0 (execPowerAbortDone addr s) := by
  unfold execPowerAbortDone
  repeat' with_reducible first
    | exact h
    | exact OutKeeps.next h
    | refine State.abortWaiting_keeps ?_ (hl.of rfl)
    | refine State.applyHeld_keeps ?_ (hl.of rfl)
    | refine State.setStage_keeps ?_ (hl.of rfl)
    | refine State.setPw_keeps ?_ (hl.of rfl)
    | apply OutKeeps.next
    | assumption
    | split

theorem State.resetRegs_keeps {K p} (h : Keeps K s0 s) (hl : Sub 12 K) :
    Keeps K s0 (State.resetRegs s p) := by
  unfold State.resetRegs
  refine Keeps.upd (Keeps.regs h (hl.mem _ rfl) fun c => Store.wf_filter _ c _) ?_
  intro f hf
  cases f <;> first | exact absurd ((hl.mem _ rfl).symm.trans hf) Bool.noConfusion | exact rfl

theorem State.clearCoreMem_keeps {K p} (h : Keeps K s0 s) (hl : Sub 1484 K) :
    Keeps K s0 (State.clearCoreMem s p) := by
  unfold State.clearCoreMem
  repeat' with_reducible first
    | exact h
    | refine State.resetRegs_keeps ?_ (hl.of rfl)
    | refine State.clearMem_keeps ?_ (hl.of rfl)
    | refine State.updCore_keeps ?_ (hl.of rfl)

theorem State.clearCoreLogic_keeps {K p} (h : Keeps K s0 s) (hl : Sub 1036 K) :
    Keeps K s0 (State.clearCoreLogic s p) := by
  unfold State.clearCoreLogic
  repeat' with_reducible first
    | exact h
    | refine State.resetRegs_keeps ?_ (hl.of rfl)
    | refine State.updCore_keeps ?_ (hl.of rfl)

theorem State.clearRouter_keeps {K p} (h : Keeps K s0 s) (hl : Sub 34627903500 K) :
    Keeps K s0 (State.clearRouter s p) := by
  unfold State.clearRouter
  repeat' first
    | with_reducible exact h
    | with_reducible refine State.resetRegs_keeps ?_ (hl.of rfl)
    | with_reducible refine State.powerLink_keeps ?_ (hl.of rfl)
    | with_reducible apply keeps_foldl (fun _ _ h => ?_)
    | with_reducible assumption
    | with_reducible split
    | with_reducible dsimp only
    | with_reducible refine Keeps.upd ?_ ?_
    | (intro f hf; cases f <;> first | exact absurd ((hl.mem _ rfl).symm.trans hf) Bool.noConfusion | exact rfl)

theorem State.clearSync_keeps {K g} (h : Keeps K s0 s) (hl : Sub 8797335001100 K) :
    Keeps K s0 (State.clearSync s g) := by
  unfold State.clearSync
  repeat' first
    | with_reducible exact h
    | with_reducible refine State.resetRegs_keeps ?_ (hl.of rfl)
    | with_reducible refine State.powerLink_keeps ?_ (hl.of rfl)
    | with_reducible refine State.noteSaplings_keeps ?_ (hl.of rfl)
    | with_reducible refine State.updGrove_keeps ?_ (hl.of rfl)
    | with_reducible apply keeps_foldl (fun _ _ h => ?_)
    | with_reducible assumption
    | with_reducible split
    | with_reducible dsimp only
    | with_reducible refine Keeps.upd ?_ ?_
    | (intro f hf; cases f <;> first | exact absurd ((hl.mem _ rfl).symm.trans hf) Bool.noConfusion | exact rfl)

theorem State.clearPls_keeps {K g} (h : Keeps K s0 s) (hl : Sub 2060 K) :
    Keeps K s0 (State.clearPls s g) := by
  unfold State.clearPls
  repeat' with_reducible first
    | exact h
    | refine State.resetRegs_keeps ?_ (hl.of rfl)
    | refine State.updGrove_keeps ?_ (hl.of rfl)

theorem State.clearPin_keeps {K i} (h : Keeps K s0 s) (hl : Sub 4 K) :
    Keeps K s0 (State.clearPin s i) := by
  unfold State.clearPin
  repeat' with_reducible first
    | exact h
    | refine State.wr64_keeps ?_ (hl.of rfl)
    | refine State.wf'_keeps ?_ (hl.of rfl)

theorem State.clearPhase_keeps {K} (h : Keeps K s0 s) (hl : Sub 137438953476 K) :
    Keeps K s0 (State.clearPhase s) := by
  unfold State.clearPhase
  repeat' with_reducible first
    | exact h
    | refine State.clearPin_keeps ?_ (hl.of rfl)
    | refine State.updTb_keeps ?_ (hl.of rfl)
    | apply keeps_foldl (fun _ _ h => ?_)

theorem State.clearStack_keeps {K st} (h : Keeps K s0 s) (hl : Sub 2560 K) :
    Keeps K s0 (State.clearStack s st) := by
  unfold State.clearStack
  repeat' with_reducible first
    | exact h
    | refine State.gcInvalidate_keeps ?_ (hl.of rfl)
    | refine State.hbmClear_keeps ?_ (hl.of rfl)

theorem State.clearDom_keeps {K a1} (h : Keeps K s0 s) (hl : Sub 8969233891276 K) :
    Keeps K s0 (State.clearDom s a1) := by
  unfold State.clearDom
  repeat' with_reducible first
    | exact h
    | refine State.clearStack_keeps ?_ (hl.of rfl)
    | refine State.clearPhase_keeps ?_ (hl.of rfl)
    | refine State.clearPls_keeps ?_ (hl.of rfl)
    | refine State.clearSync_keeps ?_ (hl.of rfl)
    | refine State.clearRouter_keeps ?_ (hl.of rfl)
    | refine State.clearCoreLogic_keeps ?_ (hl.of rfl)
    | refine State.clearCoreMem_keeps ?_ (hl.of rfl)
    | assumption
    | split

theorem State.wakeDone_keeps {K d} (h : Keeps K s0 s) (hl : Sub 15598784348108 K) :
    Keeps K s0 (State.wakeDone s d) := by
  unfold State.wakeDone
  repeat' with_reducible first
    | exact h
    | refine State.clearDom_keeps ?_ (hl.of rfl)
    | refine State.applyHeld_keeps ?_ (hl.of rfl)
    | refine State.sendImage_keeps ?_ (hl.of rfl)
    | refine State.setStack_keeps ?_ (hl.of rfl)
    | refine State.setStage_keeps ?_ (hl.of rfl)
    | refine State.setPw_keeps ?_ (hl.of rfl)
    | refine State.count_keeps ?_ (hl.of rfl)
    | assumption
    | split

theorem execPowerWakeDone_keeps {K addr} (h : Keeps K s0 s) (hl : Sub 15598784348108 K) :
    OutKeeps K s0 (execPowerWakeDone addr s) := by
  unfold execPowerWakeDone
  repeat' with_reducible first
    | exact h
    | exact OutKeeps.next h
    | refine State.wakeDone_keeps ?_ (hl.of rfl)
    | apply OutKeeps.next
    | assumption
    | split
    | dsimp only

theorem State.bankWrite_keeps {K a p b v} (h : Keeps K s0 s) (hl : Sub 1028 K) :
    Keeps K s0 (State.bankWrite s a p b v) := by
  unfold State.bankWrite
  repeat' with_reducible first
    | exact h
    | refine State.handBank_keeps ?_ (hl.of rfl)
    | refine State.bankResult_keeps ?_ (hl.of rfl)
    | assumption
    | split
    | dsimp only

theorem execBankHandover_keeps {K a p b v} (h : Keeps K s0 s) (hl : Sub 1028 K) :
    OutKeeps K s0 (execBankHandover a p b v s) := by
  unfold execBankHandover
  repeat' with_reducible first
    | exact h
    | exact OutKeeps.next h
    | refine State.bankWrite_keeps ?_ (hl.of rfl)
    | refine State.guard_keeps ?_ ?_ (hl.of rfl)
    | apply OutKeeps.next
    | intro _ h
    | assumption
    | split

theorem execBankHandoverEffect_keeps {K p b} (h : Keeps K s0 s) (hl : Sub 1028 K) :
    OutKeeps K s0 (execBankHandoverEffect p b s) := by
  unfold execBankHandoverEffect
  repeat' with_reducible first
    | exact h
    | exact OutKeeps.next h
    | refine State.bankEffect_keeps ?_ (hl.of rfl)
    | apply OutKeeps.next

theorem State.denied_keeps {K p} (h : Keeps K s0 s) (hl : Sub 4 K) :
    Keeps K s0 (State.denied s p) := by
  unfold State.denied
  repeat' with_reducible first
    | exact h
    | refine State.count_keeps ?_ (hl.of rfl)

end Sys2Proof.Machine
end

