-- ==== Sys2Proof/Laws/KeepsDesc.lean ====
section
/-! SUPPORT. What the operations keep (Safety: Keeps): descriptors and enabling. One lemma per operation. -/
namespace Sys2Proof.Machine

variable {s0 s t : State}

/-! ### Machine/Desc -/

theorem State.endNow_keeps {K ref core status oparg} (h : Keeps K s0 s) (hl : Sub 8805756702724 K) :
    Keeps K s0 (State.endNow s ref core status oparg) := by
  unfold State.endNow
  repeat' with_reducible first
    | exact h
    | refine State.finish_keeps ?_ (hl.of rfl)
    | refine State.startDesc_keeps ?_ (hl.of rfl)

theorem State.descCmd_keeps {K a r op own run} (hrun : ∀ x y, Keeps K s0 (run x y)) (h : Keeps K s0 s) (hl : Sub 8805756702724 K) :
    Keeps K s0 (State.descCmd s a r op own run) := by
  unfold State.descCmd
  repeat' with_reducible first
    | exact h
    | apply hrun _ _
    | refine State.endNow_keeps ?_ (hl.of rfl)
    | refine State.pump_keeps ?_ (hl.of rfl)
    | assumption
    | split

theorem State.payloadError_keeps {K ref core n payload} (h : Keeps K s0 s) (hl : Sub 8805756702724 K) :
    Keeps K s0 (State.payloadError s ref core n payload) := by
  unfold State.payloadError
  repeat' with_reducible first
    | exact h
    | refine State.endNow_keeps ?_ (hl.of rfl)
    | refine State.hostErr_keeps ?_ (hl.of rfl)

theorem State.withMem_keeps {K p run} (hrun : ∀ t, Keeps K s0 t → Keeps K s0 (run t)) (h : Keeps K s0 s) (hl : Sub 6597069766660 K) :
    Keeps K s0 (State.withMem s p run) := by
  unfold State.withMem
  repeat' with_reducible first
    | exact h
    | apply hrun _
    | refine State.powerOn_keeps ?_ (hl.of rfl)
    | assumption
    | split

theorem State.freeSlots_keeps {K} {z} (h : Keeps K s0 s) (e : State.freeSlots s = (z, t)) (hl : Sub 17592186044416 K) :
    Keeps K s0 t := by
  unfold State.freeSlots at e
  try dsimp only at e
  repeat' split at e
  all_goals with_reducible first | refine State.freeWord_keeps ?_ e (hl.of rfl) | cases e
  repeat' first
    | with_reducible exact h
    | with_reducible refine State.freeWord_keeps ?_ (by with_reducible assumption) (hl.of rfl)
    | with_reducible assumption
    | with_reducible split
    | with_reducible dsimp only
    | with_reducible refine State.freeWord_keeps ?_ Prod.mk.eta.symm (hl.of rfl)
    | with_reducible refine Keeps.upd ?_ ?_
    | (intro f hf; cases f <;> first | exact absurd ((hl.mem _ rfl).symm.trans hf) Bool.noConfusion | exact rfl)

theorem State.fromHostMark_keeps {K a k p endpoint b mark} (h : Keeps K s0 s) (hl : Sub 8829781679364 K) :
    Keeps K s0 (State.fromHostMark s a k p endpoint b mark) := by
  unfold State.fromHostMark
  repeat' with_reducible first
    | exact h
    | refine State.fromEdge_keeps ?_ (hl.of rfl)

theorem State.fromHost_keeps {K a k p endpoint b} (h : Keeps K s0 s) (hl : Sub 8829781679364 K) :
    Keeps K s0 (State.fromHost s a k p endpoint b) := by
  unfold State.fromHost
  repeat' with_reducible first
    | exact h
    | refine State.fromHostMark_keeps ?_ (hl.of rfl)

theorem State.sendWrites_keeps {K ref k p kind addr a6 a7} (h : Keeps K s0 s) (hl : Sub 8829781679364 K) :
    Keeps K s0 (State.sendWrites s ref k p kind addr a6 a7) := by
  induction a6 generalizing s addr a7 with
  | zero =>
    unfold State.sendWrites
    exact h
  | succ n ih =>
    unfold State.sendWrites
    dsimp only
    split
    · exact State.fromHost_keeps h (hl.of rfl)
    · exact ih (State.fromHost_keeps h (hl.of rfl))

theorem State.sendReads_keeps {K ref k p kind staged addr a7 a8} (h : Keeps K s0 s) (hl : Sub 8829781679364 K) :
    Keeps K s0 (State.sendReads s ref k p kind staged addr a7 a8) := by
  induction a7 generalizing s addr a8 with
  | zero =>
    unfold State.sendReads
    exact h
  | succ n ih =>
    unfold State.sendReads
    dsimp only
    split
    · exact State.fromHost_keeps h (hl.of rfl)
    · exact ih (State.fromHost_keeps h (hl.of rfl))

theorem State.startLoad_keeps {K ref d payload} (h : Keeps K s0 s) (hl : Sub 8829781679364 K) :
    Keeps K s0 (State.startLoad s ref d payload) := by
  unfold State.startLoad
  repeat' with_reducible first
    | exact h
    | refine State.sendWrites_keeps ?_ (hl.of rfl)
    | refine State.payloadError_keeps ?_ (hl.of rfl)
    | refine State.startDesc_keeps ?_ (hl.of rfl)
    | assumption
    | split
    | dsimp only

theorem State.startRead_keeps {K ref d} (h : Keeps K s0 s) (hl : Sub 8829781679364 K) :
    Keeps K s0 (State.startRead s ref d) := by
  unfold State.startRead
  repeat' with_reducible first
    | exact h
    | refine State.sendReads_keeps ?_ (hl.of rfl)
    | refine State.startDesc_keeps ?_ (hl.of rfl)
    | refine State.updDesc_keeps ?_ (hl.of rfl)

theorem execNop_keeps {K a r} (h : Keeps K s0 s) (hl : Sub 8805756702724 K) :
    OutKeeps K s0 (execNop a r s) := by
  unfold execNop
  repeat' with_reducible first
    | exact h
    | exact OutKeeps.next h
    | refine State.descCmd_keeps ?_ ?_ (hl.of rfl)
    | refine State.endNow_keeps ?_ (hl.of rfl)
    | apply OutKeeps.next
    | intro _ h
    | assumption

theorem execLoadMem_keeps {K a r payload} (h : Keeps K s0 s) (hl : Sub 15426851446020 K) :
    OutKeeps K s0 (execLoadMem a r payload s) := by
  unfold execLoadMem
  repeat' with_reducible first
    | exact h
    | exact OutKeeps.next h
    | refine State.startLoad_keeps ?_ (hl.of rfl)
    | refine State.withMem_keeps ?_ ?_ (hl.of rfl)
    | refine State.descCmd_keeps ?_ ?_ (hl.of rfl)
    | apply OutKeeps.next
    | intro _ h
    | assumption

theorem execReadMem_keeps {K a r} (h : Keeps K s0 s) (hl : Sub 15426851446020 K) :
    OutKeeps K s0 (execReadMem a r s) := by
  unfold execReadMem
  repeat' with_reducible first
    | exact h
    | exact OutKeeps.next h
    | refine State.startRead_keeps ?_ (hl.of rfl)
    | refine State.withMem_keeps ?_ ?_ (hl.of rfl)
    | refine State.descCmd_keeps ?_ ?_ (hl.of rfl)
    | apply OutKeeps.next
    | intro _ h
    | assumption

theorem execLoadNeurons_keeps {K a r payload} (h : Keeps K s0 s) (hl : Sub 15426851446020 K) :
    OutKeeps K s0 (execLoadNeurons a r payload s) := by
  unfold execLoadNeurons
  repeat' with_reducible first
    | exact h
    | exact OutKeeps.next h
    | refine State.startLoad_keeps ?_ (hl.of rfl)
    | refine State.withMem_keeps ?_ ?_ (hl.of rfl)
    | refine State.descCmd_keeps ?_ ?_ (hl.of rfl)
    | apply OutKeeps.next
    | intro _ h
    | assumption

theorem execReadNeurons_keeps {K a r} (h : Keeps K s0 s) (hl : Sub 15426851446020 K) :
    OutKeeps K s0 (execReadNeurons a r s) := by
  unfold execReadNeurons
  repeat' with_reducible first
    | exact h
    | exact OutKeeps.next h
    | refine State.startRead_keeps ?_ (hl.of rfl)
    | refine State.withMem_keeps ?_ ?_ (hl.of rfl)
    | refine State.descCmd_keeps ?_ ?_ (hl.of rfl)
    | apply OutKeeps.next
    | intro _ h
    | assumption

theorem execLoadTable_keeps {K a r payload} (h : Keeps K s0 s) (hl : Sub 15426851446020 K) :
    OutKeeps K s0 (execLoadTable a r payload s) := by
  unfold execLoadTable
  repeat' with_reducible first
    | exact h
    | exact OutKeeps.next h
    | refine State.startLoad_keeps ?_ (hl.of rfl)
    | refine State.withMem_keeps ?_ ?_ (hl.of rfl)
    | refine State.descCmd_keeps ?_ ?_ (hl.of rfl)
    | apply OutKeeps.next
    | intro _ h
    | assumption
    | split

theorem execReadTable_keeps {K a r} (h : Keeps K s0 s) (hl : Sub 15426851446020 K) :
    OutKeeps K s0 (execReadTable a r s) := by
  unfold execReadTable
  repeat' with_reducible first
    | exact h
    | exact OutKeeps.next h
    | refine State.startRead_keeps ?_ (hl.of rfl)
    | refine State.withMem_keeps ?_ ?_ (hl.of rfl)
    | refine State.descCmd_keeps ?_ ?_ (hl.of rfl)
    | apply OutKeeps.next
    | intro _ h
    | assumption
    | split

theorem State.loaderWrite_keeps {K ref p kind off bs} (h : Keeps K s0 s) (hl : Sub 26397942747588 K) :
    Keeps K s0 (State.loaderWrite s ref p kind off bs) := by
  unfold State.loaderWrite
  repeat' with_reducible first
    | exact h
    | refine State.denied_keeps ?_ (hl.of rfl)
    | refine State.updDesc_keeps ?_ (hl.of rfl)
    | refine State.meet_keeps ?_ (hl.of rfl)
    | refine State.setBytes_keeps ?_ (hl.of rfl)
    | assumption
    | split

theorem State.writeRecords_keeps {K ref p i a4 a5} (h : Keeps K s0 s) (hl : Sub 26397942747588 K) :
    Keeps K s0 (State.writeRecords s ref p i a4 a5) := by
  induction a4 generalizing s i a5 with
  | zero =>
    unfold State.writeRecords
    exact h
  | succ n ih =>
    unfold State.writeRecords
    dsimp only
    refine ih ?_
    split
    · exact State.loaderWrite_keeps (State.loaderWrite_keeps h (hl.of rfl)) (hl.of rfl)
    · exact h

theorem State.stageSources_keeps {K p i a3} (h : Keeps K s0 s) (hl : Sub 49152 K) :
    Keeps K s0 (State.stageSources s p i a3) := by
  induction a3 generalizing s p i with
  | nil =>
    unfold State.stageSources
    repeat' first
      | with_reducible exact h
  | cons _ _ ih =>
    unfold State.stageSources
    repeat' first
      | with_reducible exact h
      | with_reducible apply ih
      | with_reducible assumption
      | with_reducible split
      | with_reducible dsimp only
      | with_reducible refine Keeps.upd ?_ ?_
      | (intro f hf; cases f <;> first | exact absurd ((hl.mem _ rfl).symm.trans hf) Bool.noConfusion | exact rfl)

theorem State.stageCanopies_keeps {K g i a3} (h : Keeps K s0 s) (hl : Sub 393216 K) :
    Keeps K s0 (State.stageCanopies s g i a3) := by
  induction a3 generalizing s g i with
  | nil =>
    unfold State.stageCanopies
    repeat' first
      | with_reducible exact h
  | cons _ _ ih =>
    unfold State.stageCanopies
    repeat' first
      | with_reducible exact h
      | with_reducible apply ih
      | with_reducible assumption
      | with_reducible split
      | with_reducible dsimp only
      | with_reducible refine Keeps.upd ?_ ?_
      | (intro f hf; cases f <;> first | exact absurd ((hl.mem _ rfl).symm.trans hf) Bool.noConfusion | exact rfl)

theorem State.loadInto_keeps {K ref p kind addr bs} (h : Keeps K s0 s) (hl : Sub 26397943189956 K) :
    Keeps K s0 (State.loadInto s ref p kind addr bs) := by
  unfold State.loadInto
  repeat' with_reducible first
    | exact h
    | refine State.stageCanopies_keeps ?_ (hl.of rfl)
    | refine State.stageSources_keeps ?_ (hl.of rfl)
    | refine State.writeRecords_keeps ?_ (hl.of rfl)
    | refine State.loaderWrite_keeps ?_ (hl.of rfl)
    | assumption
    | split

theorem State.loaderRead_keeps {K p kind off n} {z} (h : Keeps K s0 s) (e : State.loaderRead s p kind off n = (t, z)) (hl : Sub 26389352812996 K) :
    Keeps K s0 t := by
  unfold State.loaderRead at e
  try dsimp only at e
  repeat' split at e
  all_goals with_reducible first | cases e
  repeat' with_reducible first
    | exact h
    | refine State.denied_keeps ?_ (hl.of rfl)
    | refine State.meet_keeps ?_ (hl.of rfl)

theorem State.readRecord_keeps {K p i} {z} (h : Keeps K s0 s) (e : State.readRecord s p i = (t, z)) (hl : Sub 26389352812996 K) :
    Keeps K s0 t := by
  unfold State.readRecord at e
  split at e
  · exact State.loaderRead_keeps h e (hl.of rfl)
  · cases e
    exact State.freeWord_keeps (State.freeWord_keeps h Prod.mk.eta.symm (hl.of rfl)) Prod.mk.eta.symm (hl.of rfl)

theorem State.readRecords_keeps {K p i a3} {z} (h : Keeps K s0 s) (e : State.readRecords s p i a3 = (t, z)) (hl : Sub 26389352812996 K) :
    Keeps K s0 t := by
  induction a3 generalizing s t z i with
  | zero =>
    unfold State.readRecords at e
    cases e
    exact h
  | succ n ih =>
    unfold State.readRecords at e
    dsimp only at e
    cases e
    exact ih (State.readRecord_keeps h Prod.mk.eta.symm (hl.of rfl)) Prod.mk.eta.symm

theorem State.readFrom_keeps {K p kind staged addr n} {z} (h : Keeps K s0 s) (e : State.readFrom s p kind staged addr n = (t, z)) (hl : Sub 26389352812996 K) :
    Keeps K s0 t := by
  unfold State.readFrom at e
  try dsimp only at e
  repeat' split at e
  all_goals with_reducible first | refine State.readRecords_keeps ?_ e (hl.of rfl) | refine State.loaderRead_keeps ?_ e (hl.of rfl) | cases e
  repeat' with_reducible first
    | exact h

theorem State.takeLoad_keeps {K i} {z} (h : Keeps K s0 s) (e : State.takeLoad s i = some (z, t)) (hl : Sub 134217728 K) :
    Keeps K s0 t := by
  unfold State.takeLoad at e
  try dsimp only at e
  repeat' split at e
  all_goals with_reducible first | refine State.take_keeps ?_ e (hl.of rfl) | cases e
  repeat' with_reducible first
    | exact h
    | refine State.take_keeps ?_ (by with_reducible assumption) (hl.of rfl)

theorem State.answerLoad_keeps {K f b} (h : Keeps K s0 s) (hl : Sub 8829781679364 K) :
    Keeps K s0 (State.answerLoad s f b) := by
  unfold State.answerLoad
  repeat' with_reducible first
    | exact h
    | refine State.inject_keeps ?_ (hl.of rfl)
    | assumption
    | split

theorem execLoadWrite_keeps {K i} (h : Keeps K s0 s) (hl : Sub 26421968166340 K) :
    OutKeeps K s0 (execLoadWrite i s) := by
  unfold execLoadWrite
  repeat' with_reducible first
    | exact h
    | exact OutKeeps.next h
    | refine State.answerLoad_keeps ?_ (hl.of rfl)
    | refine State.loadInto_keeps ?_ (hl.of rfl)
    | refine State.wake_keeps ?_ (hl.of rfl)
    | refine State.takeLoad_keeps ?_ (by with_reducible assumption) (hl.of rfl)
    | apply OutKeeps.next
    | assumption
    | split

theorem execLoadRead_keeps {K i} (h : Keeps K s0 s) (hl : Sub 26421967723972 K) :
    OutKeeps K s0 (execLoadRead i s) := by
  unfold execLoadRead
  repeat' with_reducible first
    | exact h
    | exact OutKeeps.next h
    | refine State.answerLoad_keeps ?_ (hl.of rfl)
    | refine State.wake_keeps ?_ (hl.of rfl)
    | refine State.takeLoad_keeps ?_ (by with_reducible assumption) (hl.of rfl)
    | refine State.readFrom_keeps ?_ (by with_reducible assumption) (hl.of rfl)
    | apply OutKeeps.next
    | assumption
    | split
    | dsimp only
    | refine State.readFrom_keeps ?_ Prod.mk.eta.symm (hl.of rfl)

theorem execReadReturn_keeps {K i} (h : Keeps K s0 s) (hl : Sub 8805890920452 K) :
    OutKeeps K s0 (execReadReturn i s) := by
  unfold execReadReturn
  repeat' with_reducible first
    | exact h
    | exact OutKeeps.next h
    | refine State.finish_keeps ?_ (hl.of rfl)
    | refine State.updDesc_keeps ?_ (hl.of rfl)
    | refine State.toHost_keeps ?_ (hl.of rfl)
    | refine State.takeUnit_keeps ?_ (by with_reducible assumption) (hl.of rfl)
    | apply OutKeeps.next
    | assumption
    | split

theorem execLoadRows_keeps {K a r payload} (h : Keeps K s0 s) (hl : Sub 33019037490948 K) :
    OutKeeps K s0 (execLoadRows a r payload s) := by
  unfold execLoadRows
  repeat' with_reducible first
    | exact h
    | exact OutKeeps.next h
    | refine State.startLoad_keeps ?_ (hl.of rfl)
    | refine State.withMem_keeps ?_ ?_ (hl.of rfl)
    | refine State.payloadError_keeps ?_ (hl.of rfl)
    | refine State.descCmd_keeps ?_ ?_ (hl.of rfl)
    | refine State.endNow_keeps ?_ (hl.of rfl)
    | refine State.hbmWrite_keeps ?_ (hl.of rfl)
    | refine State.freeSlots_keeps ?_ (by with_reducible assumption) (hl.of rfl)
    | apply OutKeeps.next
    | intro _ h
    | assumption
    | split
    | dsimp only

theorem execWriteHbm_keeps {K a r payload} (h : Keeps K s0 s) (hl : Sub 8805756705284 K) :
    OutKeeps K s0 (execWriteHbm a r payload s) := by
  unfold execWriteHbm
  repeat' with_reducible first
    | exact h
    | exact OutKeeps.next h
    | refine State.payloadError_keeps ?_ (hl.of rfl)
    | refine State.descCmd_keeps ?_ ?_ (hl.of rfl)
    | refine State.endNow_keeps ?_ (hl.of rfl)
    | refine State.hbmWrite_keeps ?_ (hl.of rfl)
    | apply OutKeeps.next
    | intro _ h
    | assumption
    | split
    | dsimp only

theorem execReadHbm_keeps {K a r status} (h : Keeps K s0 s) (hl : Sub 8805756702724 K) :
    OutKeeps K s0 (execReadHbm a r status s) := by
  unfold execReadHbm
  repeat' with_reducible first
    | exact h
    | exact OutKeeps.next h
    | refine State.descCmd_keeps ?_ ?_ (hl.of rfl)
    | refine State.endNow_keeps ?_ (hl.of rfl)
    | refine State.hbmRead_keeps ?_ (hl.of rfl)
    | refine State.toHost_keeps ?_ (hl.of rfl)
    | refine State.count_keeps ?_ (hl.of rfl)
    | apply OutKeeps.next
    | intro _ h
    | assumption
    | split

theorem State.loadContexts_keeps {K c a2} (h : Keeps K s0 s) (hl : Sub 6442451200 K) :
    Keeps K s0 (State.loadContexts s c a2) := by
  induction a2 generalizing s c with
  | nil =>
    unfold State.loadContexts
    repeat' with_reducible first
      | exact h
  | cons _ _ ih =>
    unfold State.loadContexts
    repeat' with_reducible first
      | exact h
      | apply ih
      | refine State.setContext_keeps ?_ (hl.of rfl)

theorem execLoadContext_keeps {K a r payload} (h : Keeps K s0 s) (hl : Sub 8812199153924 K) :
    OutKeeps K s0 (execLoadContext a r payload s) := by
  unfold execLoadContext
  repeat' with_reducible first
    | exact h
    | exact OutKeeps.next h
    | refine State.loadContexts_keeps ?_ (hl.of rfl)
    | refine State.payloadError_keeps ?_ (hl.of rfl)
    | refine State.descCmd_keeps ?_ ?_ (hl.of rfl)
    | refine State.endNow_keeps ?_ (hl.of rfl)
    | apply OutKeeps.next
    | intro _ h
    | assumption
    | split
    | dsimp only

theorem execReadContext_keeps {K a r} (h : Keeps K s0 s) (hl : Sub 8810051670276 K) :
    OutKeeps K s0 (execReadContext a r s) := by
  unfold execReadContext
  repeat' with_reducible first
    | exact h
    | exact OutKeeps.next h
    | refine State.descCmd_keeps ?_ ?_ (hl.of rfl)
    | refine State.endNow_keeps ?_ (hl.of rfl)
    | refine State.toHost_keeps ?_ (hl.of rfl)
    | refine State.meetCtx_keeps ?_ (hl.of rfl)
    | apply OutKeeps.next
    | apply keeps_foldl (fun _ _ h => ?_)
    | intro _ h
    | assumption
    | split
    | dsimp only

theorem State.ingestIn_keeps {K a c seq ext evs} {z} (h : Keeps K s0 s) (e : State.ingestIn s a c seq ext evs = (t, z)) (hl : Sub 8830318550276 K) :
    Keeps K s0 t := by
  unfold State.ingestIn at e
  try dsimp only at e
  repeat' split at e
  all_goals with_reducible first | refine State.acceptIn_keeps ?_ e (hl.of rfl) | cases e
  repeat' with_reducible first
    | exact h
    | refine State.setContext_keeps ?_ (hl.of rfl)
    | refine State.acceptIn_keeps ?_ (by with_reducible assumption) (hl.of rfl)
    | assumption
    | split
    | dsimp only
    | refine State.acceptIn_keeps ?_ Prod.mk.eta.symm (hl.of rfl)

theorem execIngest_keeps {K a r payload} (h : Keeps K s0 s) (hl : Sub 8899038027012 K) :
    OutKeeps K s0 (execIngest a r payload s) := by
  unfold execIngest
  repeat' with_reducible first
    | exact h
    | exact OutKeeps.next h
    | refine State.payloadError_keeps ?_ (hl.of rfl)
    | refine State.descCmd_keeps ?_ ?_ (hl.of rfl)
    | refine State.endNow_keeps ?_ (hl.of rfl)
    | refine State.tellCtxUe_keeps ?_ (hl.of rfl)
    | refine State.meetCtx_keeps ?_ (hl.of rfl)
    | refine State.ingestIn_keeps ?_ (by with_reducible assumption) (hl.of rfl)
    | refine State.take_keeps ?_ (by with_reducible assumption) (hl.of rfl)
    | apply OutKeeps.next
    | intro _ h
    | assumption
    | split
    | dsimp only
    | refine State.ingestIn_keeps ?_ Prod.mk.eta.symm (hl.of rfl)

theorem execMessage_keeps {K a r} (h : Keeps K s0 s) (hl : Sub 8829781679364 K) :
    OutKeeps K s0 (execMessage a r s) := by
  unfold execMessage
  repeat' with_reducible first
    | exact h
    | exact OutKeeps.next h
    | refine State.fromHostMark_keeps ?_ (hl.of rfl)
    | refine State.descCmd_keeps ?_ ?_ (hl.of rfl)
    | refine State.startDesc_keeps ?_ (hl.of rfl)
    | refine State.updAtt_keeps ?_ (hl.of rfl)
    | apply OutKeeps.next
    | intro _ h
    | assumption
    | split

theorem execMessageTimeout_keeps {K a} (h : Keeps K s0 s) (hl : Sub 8805756702724 K) :
    OutKeeps K s0 (execMessageTimeout a s) := by
  unfold execMessageTimeout
  repeat' with_reducible first
    | exact h
    | exact OutKeeps.next h
    | refine State.finish_keeps ?_ (hl.of rfl)
    | refine State.updAtt_keeps ?_ (hl.of rfl)
    | apply OutKeeps.next
    | assumption
    | split

theorem execDenseRun_keeps {K a r} (h : Keeps K s0 s) (hl : Sub 8805756703748 K) :
    OutKeeps K s0 (execDenseRun a r s) := by
  unfold execDenseRun
  repeat' with_reducible first
    | exact h
    | exact OutKeeps.next h
    | refine State.descCmd_keeps ?_ ?_ (hl.of rfl)
    | refine State.dnsNext_keeps ?_ (hl.of rfl)
    | refine State.startDesc_keeps ?_ (hl.of rfl)
    | refine State.wake_keeps ?_ (hl.of rfl)
    | refine State.updCore_keeps ?_ (hl.of rfl)
    | apply OutKeeps.next
    | intro _ h
    | assumption

/-! ### Machine/Enable -/

theorem State.clearMonitors_keeps {K p} (h : Keeps K s0 s) (hl : Sub 448 K) :
    Keeps K s0 (State.clearMonitors s p) := by
  unfold State.clearMonitors
  repeat' with_reducible first
    | exact h
    | refine State.setWord_keeps ?_ (hl.of rfl)
    | apply keeps_foldl (fun _ _ h => ?_)
    | assumption
    | split
    | dsimp only

theorem State.clearBytes_keeps {K p off n} (h : Keeps K s0 s) (hl : Sub 448 K) :
    Keeps K s0 (State.clearBytes s p off n) := by
  unfold State.clearBytes
  repeat' with_reducible first
    | exact h
    | refine State.memClear_keeps ?_ (hl.of rfl)

theorem State.clearRings_keeps {K p} (h : Keeps K s0 s) (hl : Sub 64 K) :
    Keeps K s0 (State.clearRings s p) := Keeps.mem h (hl.mem _ rfl) fun c => Store.wf_clearAll _ c _

theorem State.enableCore_keeps {K k p} (h : Keeps K s0 s) (hl : Sub 1476 K) :
    Keeps K s0 (State.enableCore s k p) := by
  unfold State.enableCore
  repeat' with_reducible first
    | exact h
    | refine State.clearRings_keeps ?_ (hl.of rfl)
    | refine State.clearBytes_keeps ?_ (hl.of rfl)
    | refine State.clearMonitors_keeps ?_ (hl.of rfl)
    | refine State.abandon_keeps ?_ (hl.of rfl)
    | refine State.emptyQueues_keeps ?_ (hl.of rfl)
    | refine State.hdlState_keeps ?_ (hl.of rfl)
    | refine State.updCore_keeps ?_ (hl.of rfl)
    | refine State.wr64_keeps ?_ (hl.of rfl)
    | refine State.wf'_keeps ?_ (hl.of rfl)
    | refine State.wr_keeps ?_ (hl.of rfl)

theorem State.loadLines_keeps {K g a} (h : Keeps K s0 s) (hl : Sub 2052 K) :
    Keeps K s0 (State.loadLines s g a) := by
  unfold State.loadLines
  repeat' with_reducible first
    | exact h
    | refine State.hbmRead_keeps ?_ (hl.of rfl)
    | refine State.updGrove_keeps ?_ (hl.of rfl)
    | refine State.count_keeps ?_ (hl.of rfl)
    | apply keeps_foldl (fun _ _ h => ?_)
    | assumption
    | split
    | dsimp only

theorem State.clearStrikes_keeps {K p} (h : Keeps K s0 s) (hl : Sub 4 K) :
    Keeps K s0 (State.clearStrikes s p) := by
  unfold State.clearStrikes
  repeat' with_reducible first
    | exact h
    | refine State.wf'_keeps ?_ (hl.of rfl)
    | refine State.wr_keeps ?_ (hl.of rfl)
    | assumption
    | split

theorem State.enableGrove_keeps {K g} (h : Keeps K s0 s) (hl : Sub 2052 K) :
    Keeps K s0 (State.enableGrove s g) := by
  unfold State.enableGrove
  repeat' with_reducible first
    | exact h
    | refine State.clearStrikes_keeps ?_ (hl.of rfl)
    | refine State.loadLines_keeps ?_ (hl.of rfl)
    | refine State.updGrove_keeps ?_ (hl.of rfl)
    | refine State.wf'_keeps ?_ (hl.of rfl)
    | refine State.wr_keeps ?_ (hl.of rfl)
    | apply keeps_foldl (fun _ _ h => ?_)

theorem State.enableSeq_keeps {K k} (h : Keeps K s0 s) (hl : Sub 536875012 K) :
    Keeps K s0 (State.enableSeq s k) := by
  unfold State.enableSeq
  repeat' with_reducible first
    | exact h
    | refine State.setEpX_keeps ?_ (hl.of rfl)
    | refine State.updPart_keeps ?_ (hl.of rfl)
    | refine State.wr_keeps ?_ (hl.of rfl)
    | apply keeps_foldl (fun _ _ h => ?_)

theorem State.enableActions_keeps {K k} (h : Keeps K s0 s) (hl : Sub 26456933531588 K) :
    Keeps K s0 (State.enableActions s k) := by
  unfold State.enableActions
  repeat' with_reducible first
    | exact h
    | refine State.enableSeq_keeps ?_ (hl.of rfl)
    | refine State.enableGrove_keeps ?_ (hl.of rfl)
    | refine State.enableCore_keeps ?_ (hl.of rfl)
    | refine State.resumeInjection_keeps ?_ (hl.of rfl)
    | refine State.endForwards_keeps ?_ (hl.of rfl)
    | refine State.applyExclude_keeps ?_ (hl.of rfl)
    | refine State.swapTables_keeps ?_ (hl.of rfl)
    | refine State.clearResult_keeps ?_ (hl.of rfl)
    | refine State.plsEnable_keeps ?_ (hl.of rfl)
    | refine State.wf'_keeps ?_ (hl.of rfl)
    | apply keeps_foldl (fun _ _ h => ?_)
    | assumption
    | split

theorem State.loaderBack_keeps {K k} (h : Keeps K s0 s) (hl : Sub 1028 K) :
    Keeps K s0 (State.loaderBack s k) := by
  unfold State.loaderBack
  repeat' with_reducible first
    | exact h
    | refine State.handBank_keeps ?_ (hl.of rfl)
    | apply keeps_foldl (fun _ _ h => ?_)
    | assumption
    | split

theorem State.startCheck_keeps {K k} (h : Keeps K s0 s) (hl : Sub 5124 K) :
    Keeps K s0 (State.startCheck s k) := by
  unfold State.startCheck
  repeat' with_reducible first
    | exact h
    | refine State.loaderBack_keeps ?_ (hl.of rfl)
    | refine State.updPart_keeps ?_ (hl.of rfl)
    | refine State.wf'_keeps ?_ (hl.of rfl)
    | assumption
    | split

theorem State.showChecks_keeps {K k} (h : Keeps K s0 s) (hl : Sub 4 K) :
    Keeps K s0 (State.showChecks s k) := by
  unfold State.showChecks
  repeat' with_reducible first
    | exact h
    | refine State.wf'_keeps ?_ (hl.of rfl)
    | refine State.wr_keeps ?_ (hl.of rfl)
    | apply keeps_foldl (fun _ _ h => ?_)
    | assumption
    | split

theorem State.partResult_keeps {K k reason detail} (h : Keeps K s0 s) (hl : Sub 4 K) :
    Keeps K s0 (State.partResult s k reason detail) := by
  unfold State.partResult
  repeat' with_reducible first
    | exact h
    | refine State.wr_keeps ?_ (hl.of rfl)

theorem execEnableCheckDone_keeps {K k} (h : Keeps K s0 s) (hl : Sub 26456933531588 K) :
    OutKeeps K s0 (execEnableCheckDone k s) := by
  unfold execEnableCheckDone
  repeat' with_reducible first
    | exact h
    | exact OutKeeps.next h
    | refine State.partResult_keeps ?_ (hl.of rfl)
    | refine State.showChecks_keeps ?_ (hl.of rfl)
    | refine State.enableActions_keeps ?_ (hl.of rfl)
    | refine State.wf'_keeps ?_ (hl.of rfl)
    | refine State.wr_keeps ?_ (hl.of rfl)
    | apply OutKeeps.next
    | assumption
    | split

theorem State.disable_keeps {K k} (h : Keeps K s0 s) (hl : Sub 8829513243908 K) :
    Keeps K s0 (State.disable s k) := by
  unfold State.disable
  repeat' with_reducible first
    | exact h
    | refine State.partResult_keeps ?_ (hl.of rfl)
    | refine State.disableNow_keeps ?_ (hl.of rfl)
    | refine State.endDisable_keeps ?_ (hl.of rfl)
    | refine State.setDisabled_keeps ?_ (hl.of rfl)
    | refine State.stopEffects_keeps ?_ (hl.of rfl)
    | refine State.updPart_keeps ?_ (hl.of rfl)
    | assumption
    | split

theorem State.partCtrl_keeps {K k v} (h : Keeps K s0 s) (hl : Sub 8829513243908 K) :
    Keeps K s0 (State.partCtrl s k v) := by
  unfold State.partCtrl
  repeat' with_reducible first
    | exact h
    | refine State.disable_keeps ?_ (hl.of rfl)
    | refine State.startCheck_keeps ?_ (hl.of rfl)
    | assumption
    | split

theorem execPartitionEnable_keeps {K a k v} (h : Keeps K s0 s) (hl : Sub 8829513243908 K) :
    OutKeeps K s0 (execPartitionEnable a k v s) := by
  unfold execPartitionEnable
  repeat' with_reducible first
    | exact h
    | exact OutKeeps.next h
    | refine State.partCtrl_keeps ?_ (hl.of rfl)
    | refine State.guard_keeps ?_ ?_ (hl.of rfl)
    | apply OutKeeps.next
    | intro _ h
    | assumption
    | split

theorem execPartitionDisable_keeps {K a k v} (h : Keeps K s0 s) (hl : Sub 8829513243908 K) :
    OutKeeps K s0 (execPartitionDisable a k v s) := by
  unfold execPartitionDisable
  repeat' with_reducible first
    | exact h
    | exact OutKeeps.next h
    | refine State.partCtrl_keeps ?_ (hl.of rfl)
    | refine State.guard_keeps ?_ ?_ (hl.of rfl)
    | apply OutKeeps.next
    | intro _ h
    | assumption
    | split

end Sys2Proof.Machine
end

