-- ==== Sys2Proof/Laws/KeepsManagement.lean ====
section
/-! SUPPORT. What the operations keep (Safety: Keeps): management, start-up and debug. One lemma per operation. -/
namespace Sys2Proof.Machine

variable {s0 s t : State}

/-! ### Machine/Management -/

theorem State.updMgt_keeps {K f} (h : Keeps K s0 s) (hl : Sub 274877906944 K) :
    Keeps K s0 (State.updMgt s f) := by
  unfold State.updMgt
  repeat' first
    | with_reducible exact h
    | with_reducible assumption
    | with_reducible split
    | with_reducible dsimp only
    | with_reducible refine Keeps.upd ?_ ?_
    | (intro f hf; cases f <;> first | exact absurd ((hl.mem _ rfl).symm.trans hf) Bool.noConfusion | exact rfl)

theorem State.notice_keeps {K code vals} (h : Keeps K s0 s) (hl : Sub 9070970929156 K) :
    Keeps K s0 (State.notice s code vals) := by
  unfold State.notice
  repeat' with_reducible first
    | exact h
    | refine State.updMgt_keeps ?_ (hl.of rfl)
    | refine State.toCollectors_keeps ?_ (hl.of rfl)
    | refine State.wf'_keeps ?_ (hl.of rfl)
    | assumption
    | split

theorem State.resendAll_keeps {K} (h : Keeps K s0 s) (hl : Sub 8796093022208 K) :
    Keeps K s0 (State.resendAll s) := by
  unfold State.resendAll
  repeat' with_reducible first
    | exact h
    | refine State.toCollectors_keeps ?_ (hl.of rfl)
    | apply keeps_foldl (fun _ _ h => ?_)

theorem execReportResend_keeps {K} (h : Keeps K s0 s) (hl : Sub 9070970929152 K) :
    OutKeeps K s0 (execReportResend s) := by
  unfold execReportResend
  repeat' with_reducible first
    | exact h
    | exact OutKeeps.next h
    | refine State.resendAll_keeps ?_ (hl.of rfl)
    | refine State.updMgt_keeps ?_ (hl.of rfl)
    | apply OutKeeps.next
    | assumption
    | split

theorem State.mbDone_keeps {K a result len} (h : Keeps K s0 s) (hl : Sub 4 K) :
    Keeps K s0 (State.mbDone s a result len) := by
  unfold State.mbDone
  repeat' with_reducible first
    | exact h
    | refine State.wr_keeps ?_ (hl.of rfl)

theorem State.mbRespond_keeps {K a result rsp} (h : Keeps K s0 s) (hl : Sub 4 K) :
    Keeps K s0 (State.mbRespond s a result rsp) := by
  unfold State.mbRespond
  repeat' with_reducible first
    | exact h
    | refine State.mbDone_keeps ?_ (hl.of rfl)
    | refine State.wr_keeps ?_ (hl.of rfl)
    | apply keeps_foldl (fun _ _ h => ?_)

theorem State.emRespond_keeps {K path msg result payload} (h : Keeps K s0 s) (hl : Sub 8796093022212 K) :
    Keeps K s0 (State.emRespond s path msg result payload) := by
  unfold State.emRespond
  repeat' with_reducible first
    | exact h
    | refine State.mbRespond_keeps ?_ (hl.of rfl)
    | refine State.emitOut_keeps ?_ (hl.of rfl)
    | assumption
    | split

theorem State.identify_keeps {K path msg} {z} (h : Keeps K s0 s) (e : State.identify s path msg = (z, t)) (hl : Sub 274877906948 K) :
    Keeps K s0 t := by
  unfold State.identify at e
  try dsimp only at e
  repeat' split at e
  all_goals with_reducible first | cases e
  repeat' with_reducible first
    | exact h
    | refine State.updMgt_keeps ?_ (hl.of rfl)
    | refine State.count_keeps ?_ (hl.of rfl)

theorem State.disableAll_keeps {K} (h : Keeps K s0 s) (hl : Sub 8829513243908 K) :
    Keeps K s0 (State.disableAll s) := by
  unfold State.disableAll
  repeat' with_reducible first
    | exact h
    | refine State.partResult_keeps ?_ (hl.of rfl)
    | refine State.disableNow_keeps ?_ (hl.of rfl)
    | refine State.endDisable_keeps ?_ (hl.of rfl)
    | refine State.setDisabled_keeps ?_ (hl.of rfl)
    | refine State.stopEffects_keeps ?_ (hl.of rfl)
    | apply keeps_foldl (fun _ _ h => ?_)
    | assumption
    | split

theorem State.wipe_keeps {K} (h : Keeps K s0 s) (hl : Sub 9104391150860 K) :
    Keeps K s0 (State.wipe s) := by
  unfold State.wipe
  repeat' with_reducible first
    | exact h
    | refine State.disableAll_keeps ?_ (hl.of rfl)
    | refine State.updMgt_keeps ?_ (hl.of rfl)
    | refine State.resetRegs_keeps ?_ (hl.of rfl)
    | refine State.wf'_keeps ?_ (hl.of rfl)
    | refine State.wr_keeps ?_ (hl.of rfl)
    | apply keeps_foldl (fun _ _ h => ?_)

/-! ### Machine/Protect -/

theorem State.setWindow_keeps {K a w base size perm} (h : Keeps K s0 s) (hl : Sub 4 K) :
    Keeps K s0 (State.setWindow s a w base size perm) := by
  unfold State.setWindow
  repeat' with_reducible first
    | exact h
    | refine State.wr64_keeps ?_ (hl.of rfl)
    | refine State.wr_keeps ?_ (hl.of rfl)

theorem State.joinGrove_keeps {K g} (h : Keeps K s0 s) (hl : Sub 6597069766660 K) :
    Keeps K s0 (State.joinGrove s g) := by
  unfold State.joinGrove
  repeat' with_reducible first
    | exact h
    | refine State.wakeCore_keeps ?_ (hl.of rfl)
    | refine State.powerOn_keeps ?_ (hl.of rfl)
    | apply keeps_foldl (fun _ _ h => ?_)

theorem State.leaveGrove_keeps {K g} (h : Keeps K s0 s) (hl : Sub 6597069766660 K) :
    Keeps K s0 (State.leaveGrove s g) := by
  unfold State.leaveGrove
  repeat' with_reducible first
    | exact h
    | refine State.autoOff_keeps ?_ (hl.of rfl)
    | refine State.askDown_keeps ?_ (hl.of rfl)
    | apply keeps_foldl (fun _ _ h => ?_)

theorem State.setGroves_keeps {K k m} (h : Keeps K s0 s) (hl : Sub 6597069766660 K) :
    Keeps K s0 (State.setGroves s k m) := by
  unfold State.setGroves
  repeat' with_reducible first
    | exact h
    | refine State.leaveGrove_keeps ?_ (hl.of rfl)
    | refine State.joinGrove_keeps ?_ (hl.of rfl)
    | refine State.wr64_keeps ?_ (hl.of rfl)
    | apply keeps_foldl (fun _ _ h => ?_)

theorem State.fillBucket_keeps {K e1 k} (h : Keeps K s0 s) (hl : Sub 17179869184 K) :
    Keeps K s0 (State.fillBucket s e1 k) := by
  unfold State.fillBucket
  repeat' with_reducible first
    | exact h
    | refine State.updPort_keeps ?_ (hl.of rfl)

theorem State.deletePart_keeps {K k} (h : Keeps K s0 s) (hl : Sub 6597069766660 K) :
    Keeps K s0 (State.deletePart s k) := by
  unfold State.deletePart
  repeat' with_reducible first
    | exact h
    | refine State.leaveGrove_keeps ?_ (hl.of rfl)
    | refine State.wr64_keeps ?_ (hl.of rfl)
    | refine State.wf'_keeps ?_ (hl.of rfl)
    | refine State.wr_keeps ?_ (hl.of rfl)
    | apply keeps_foldl (fun _ _ h => ?_)

theorem State.applyKind_keeps {K c} (h : Keeps K s0 s) (hl : Sub 6614249635844 K) :
    Keeps K s0 (State.applyKind s c) := by
  unfold State.applyKind
  repeat' with_reducible first
    | exact h
    | refine State.deletePart_keeps ?_ (hl.of rfl)
    | refine State.fillBucket_keeps ?_ (hl.of rfl)
    | refine State.setGroves_keeps ?_ (hl.of rfl)
    | refine State.setWindow_keeps ?_ (hl.of rfl)
    | refine State.wf'_keeps ?_ (hl.of rfl)
    | refine State.wr_keeps ?_ (hl.of rfl)
    | apply keeps_foldl (fun _ _ h => ?_)
    | assumption
    | split

theorem State.applyChange_keeps {K c stager party} (h : Keeps K s0 s) (hl : Sub 15685220564996 K) :
    Keeps K s0 (State.applyChange s c stager party) := by
  unfold State.applyChange
  repeat' with_reducible first
    | exact h
    | refine State.applyKind_keeps ?_ (hl.of rfl)
    | refine State.notice_keeps ?_ (hl.of rfl)
    | refine State.countWrap_keeps ?_ (hl.of rfl)

theorem State.setSlot_keeps {K i v} (h : Keeps K s0 s) (hl : Sub 274877906948 K) :
    Keeps K s0 (State.setSlot s i v) := by
  unfold State.setSlot
  repeat' with_reducible first
    | exact h
    | refine State.updMgt_keeps ?_ (hl.of rfl)
    | refine State.wr_keeps ?_ (hl.of rfl)
    | assumption
    | split

theorem State.doStage_keeps {K party arrived pay} {z} (h : Keeps K s0 s) (e : State.doStage s party arrived pay = (z, t)) (hl : Sub 274877906948 K) :
    Keeps K s0 t := by
  unfold State.doStage at e
  try dsimp only at e
  repeat' split at e
  all_goals with_reducible first | cases e
  repeat' with_reducible first
    | exact h
    | refine State.setSlot_keeps ?_ (hl.of rfl)
    | refine State.updMgt_keeps ?_ (hl.of rfl)

theorem State.expireSlot_keeps {K i x} (h : Keeps K s0 s) (hl : Sub 9070970929156 K) :
    Keeps K s0 (State.expireSlot s i x) := by
  unfold State.expireSlot
  repeat' with_reducible first
    | exact h
    | refine State.setSlot_keeps ?_ (hl.of rfl)
    | refine State.notice_keeps ?_ (hl.of rfl)
    | refine State.updMgt_keeps ?_ (hl.of rfl)

theorem execStageExpire_keeps {K i} (h : Keeps K s0 s) (hl : Sub 9070970929156 K) :
    OutKeeps K s0 (execStageExpire i s) := by
  unfold execStageExpire
  repeat' with_reducible first
    | exact h
    | exact OutKeeps.next h
    | refine State.expireSlot_keeps ?_ (hl.of rfl)
    | apply OutKeeps.next
    | assumption
    | split

theorem State.doConfirm_keeps {K party arrived pay} {z} (h : Keeps K s0 s) (e : State.doConfirm s party arrived pay = (z, t)) (hl : Sub 15685220564996 K) :
    Keeps K s0 t := by
  unfold State.doConfirm at e
  try dsimp only at e
  repeat' split at e
  all_goals with_reducible first | cases e
  repeat' with_reducible first
    | exact h
    | refine State.expireSlot_keeps ?_ (hl.of rfl)
    | refine State.setSlot_keeps ?_ (hl.of rfl)
    | refine State.applyChange_keeps ?_ (hl.of rfl)

theorem State.doCancel_keeps {K party pay} {z} (h : Keeps K s0 s) (e : State.doCancel s party pay = (z, t)) (hl : Sub 274877906948 K) :
    Keeps K s0 t := by
  unfold State.doCancel at e
  try dsimp only at e
  repeat' split at e
  all_goals with_reducible first | cases e
  repeat' with_reducible first
    | exact h
    | refine State.setSlot_keeps ?_ (hl.of rfl)

theorem State.doReadStage_keeps {K pay} {z} (h : Keeps K s0 s) (e : State.doReadStage s pay = (z, t)) (hl : Sub 0 K) :
    Keeps K s0 t := by
  unfold State.doReadStage at e
  try dsimp only at e
  repeat' split at e
  all_goals with_reducible first | cases e
  repeat' with_reducible first
    | exact h

/-! ### Machine/Device -/

theorem State.pairHalf_keeps {K lo hi v} (h : Keeps K s0 s) (hl : Sub 36 K) :
    Keeps K s0 (State.pairHalf s lo hi v) := by
  unfold State.pairHalf
  repeat' with_reducible first
    | exact h
    | refine State.dropLo_keeps ?_ (hl.of rfl)
    | refine State.holdLo_keeps ?_ (hl.of rfl)
    | refine State.wr_keeps ?_ (hl.of rfl)
    | assumption
    | split

theorem State.cfgTime_keeps {K addr v alone} (h : Keeps K s0 s) (e : State.cfgTime s addr v alone = some t) (hl : Sub 137438953508 K) :
    Keeps K s0 t := by
  unfold State.cfgTime at e
  try dsimp only at e
  repeat' split at e
  all_goals with_reducible first | cases e
  repeat' with_reducible first
    | exact h
    | refine State.pairHalf_keeps ?_ (hl.of rfl)
    | refine State.selectSource_keeps ?_ (hl.of rfl)
    | refine State.updTb_keeps ?_ (hl.of rfl)
    | refine State.wr_keeps ?_ (hl.of rfl)

theorem State.cfgPort_keeps {K e1 addr v} (h : Keeps K s0 s) (e : State.cfgPort s e1 addr v = some t) (hl : Sub 8797166768164 K) :
    Keeps K s0 t := by
  unfold State.cfgPort at e
  try dsimp only at e
  repeat' split at e
  all_goals with_reducible first | cases e
  repeat' with_reducible first
    | exact h
    | refine State.pairHalf_keeps ?_ (hl.of rfl)
    | refine State.evpLinkLoss_keeps ?_ (hl.of rfl)
    | refine State.wr_keeps ?_ (hl.of rfl)

theorem State.cfgServo_keeps {K e1 v} (h : Keeps K s0 s) (e : State.cfgServo s e1 v = some t) (hl : Sub 8797166768132 K) :
    Keeps K s0 t := by
  unfold State.cfgServo at e
  try dsimp only at e
  repeat' split at e
  all_goals with_reducible first | cases e
  repeat' with_reducible first
    | exact h
    | refine State.setSynced_keeps ?_ (hl.of rfl)
    | refine State.wf'_keeps ?_ (hl.of rfl)
    | refine State.wr_keeps ?_ (hl.of rfl)

theorem State.cfgPower_keeps {K d v} (h : Keeps K s0 s) (e : State.cfgPower s d v = some t) (hl : Sub 6597069766660 K) :
    Keeps K s0 t := by
  unfold State.cfgPower at e
  try dsimp only at e
  repeat' split at e
  all_goals with_reducible first | cases e
  repeat' with_reducible first
    | exact h
    | refine State.powerReq_keeps ?_ (hl.of rfl)

theorem State.cfgPair_keeps {K party alone addr v} (h : Keeps K s0 s) (e : State.cfgPair s party alone addr v = some t) (hl : Sub 15531675488292 K) :
    Keeps K s0 t := by
  unfold State.cfgPair at e
  try dsimp only at e
  repeat' split at e
  all_goals with_reducible first | refine State.cfgPower_keeps ?_ e (hl.of rfl) | refine State.cfgServo_keeps ?_ e (hl.of rfl) | refine State.cfgPort_keeps ?_ e (hl.of rfl) | refine State.cfgTime_keeps ?_ e (hl.of rfl) | cases e
  repeat' with_reducible first
    | exact h
    | refine State.wf'_keeps ?_ (hl.of rfl)
    | refine State.wr_keeps ?_ (hl.of rfl)

theorem State.cfgAll_keeps {K party alone i xs} (h : Keeps K s0 s) (e : State.cfgAll s party alone i xs = .ok t)
    (hl : Sub 15531675488292 K) :
    Keeps K s0 t := by
  induction xs generalizing s i with
  | nil =>
    unfold State.cfgAll at e
    cases e
    exact h
  | cons x xs ih =>
    unfold State.cfgAll at e
    split at e
    · cases e
    · rename_i g
      exact ih (State.cfgPair_keeps h g (hl.of rfl)) e

theorem State.doDevcfg_keeps {K party pay} {z} (h : Keeps K s0 s) (e : State.doDevcfg s party pay = (z, t)) (hl : Sub 15806553395236 K) :
    Keeps K s0 t := by
  unfold State.doDevcfg at e
  dsimp only at e
  split at e
  · cases e
    exact h
  · split at e
    · cases e
      exact h
    · rename_i g
      cases e
      exact State.notice_keeps (State.cfgAll_keeps h g (hl.of rfl)) (hl.of rfl)

theorem State.setPushing_keeps {K b} (h : Keeps K s0 s) (hl : Sub 274877906948 K) :
    Keeps K s0 (State.setPushing s b) := by
  unfold State.setPushing
  repeat' with_reducible first
    | exact h
    | refine State.updMgt_keeps ?_ (hl.of rfl)
    | refine State.wf'_keeps ?_ (hl.of rfl)

theorem State.showPatterns_keeps {K} (h : Keeps K s0 s) (hl : Sub 4 K) :
    Keeps K s0 (State.showPatterns s) := by
  unfold State.showPatterns
  repeat' with_reducible first
    | exact h
    | refine State.wf'_keeps ?_ (hl.of rfl)

theorem State.doPatternPush_keeps {K flashOk pay} {z} (h : Keeps K s0 s) (e : State.doPatternPush s flashOk pay = (z, t)) (hl : Sub 10170482556932 K) :
    Keeps K s0 t := by
  unfold State.doPatternPush at e
  try dsimp only at e
  repeat' split at e
  all_goals with_reducible first | cases e
  repeat' first
    | with_reducible exact h
    | with_reducible refine State.showPatterns_keeps ?_ (hl.of rfl)
    | with_reducible refine State.setPushing_keeps ?_ (hl.of rfl)
    | with_reducible refine State.notice_keeps ?_ (hl.of rfl)
    | with_reducible refine State.wf'_keeps ?_ (hl.of rfl)
    | with_reducible assumption
    | with_reducible split
    | with_reducible dsimp only
    | with_reducible refine Keeps.upd ?_ ?_
    | (intro f hf; cases f <;> first | exact absurd ((hl.mem _ rfl).symm.trans hf) Bool.noConfusion | exact rfl)

theorem State.setFuses_keeps {K f} (h : Keeps K s0 s) (hf : f.made = s0.fuses.made) (hl : Sub 5 K) :
    Keeps K s0 (State.setFuses s f) :=
  Keeps.rebase h (.inl (hl.mem _ rfl)) (.inr rfl) (hl.mem _ rfl) hf

theorem Fuses.change_made {f g : Fuses} {dest} (e : f.change dest = some g) : g.made = f.made := by
  unfold Fuses.change at e
  repeat' split at e
  all_goals cases e
  all_goals rfl

theorem State.doLifecycle_keeps {K msg pay} {z} (h : Keeps K s0 s) (e : State.doLifecycle s msg pay = (z, t)) (hl : Sub 9104391150861 K) :
    Keeps K s0 t := by
  unfold State.doLifecycle at e
  dsimp only at e
  split at e
  · cases e; exact h
  · split at e
    · cases e; exact h
    · split at e
      · cases e; exact h
      · split at e
        · cases e; exact h
        · rename_i g
          cases e
          exact State.updMgt_keeps (State.notice_keeps
            (State.setFuses_keeps (State.wipe_keeps h (hl.of rfl)) ((Fuses.change_made g).trans h.made) (hl.of rfl)) (hl.of rfl)) (hl.of rfl)

theorem State.readCore_keeps {K p off n} {z} (h : Keeps K s0 s) (e : State.readCore s p off n = (z, t)) (hl : Sub 1028 K) :
    Keeps K s0 t := by
  unfold State.readCore at e
  try dsimp only at e
  repeat' split at e
  all_goals with_reducible first | cases e
  repeat' with_reducible first
    | exact h
    | refine State.moveBank_keeps ?_ (hl.of rfl)
    | apply keeps_foldl (fun _ _ h => ?_)

theorem State.doReadCore_keeps {K pay} {z} (h : Keeps K s0 s) (e : State.doReadCore s pay = (z, t)) (hl : Sub 1028 K) :
    Keeps K s0 t := by
  unfold State.doReadCore at e
  try dsimp only at e
  repeat' split at e
  all_goals with_reducible first | refine State.readCore_keeps ?_ e (hl.of rfl) | cases e
  repeat' with_reducible first
    | exact h
    | refine State.readCore_keeps ?_ (by with_reducible assumption) (hl.of rfl)
    | assumption
    | split
    | dsimp only
    | refine State.readCore_keeps ?_ Prod.mk.eta.symm (hl.of rfl)

theorem State.doMgmtNet_keeps {K pay} {z} (h : Keeps K s0 s) (e : State.doMgmtNet s pay = (z, t)) (hl : Sub 274877906948 K) :
    Keeps K s0 t := by
  unfold State.doMgmtNet at e
  try dsimp only at e
  repeat' split at e
  all_goals with_reducible first | cases e
  repeat' with_reducible first
    | exact h
    | refine State.updMgt_keeps ?_ (hl.of rfl)
    | refine State.wf'_keeps ?_ (hl.of rfl)

/-! ### Machine/Requests -/

theorem State.act_keeps {K r party} {z} (h : Keeps K s0 s) (e : State.act s r party = (z, t)) (hl : Sub 16938411498797 K) :
    Keeps K s0 t := by
  unfold State.act at e
  try dsimp only at e
  repeat' split at e
  all_goals with_reducible first | refine State.doMgmtNet_keeps ?_ e (hl.of rfl) | refine State.doReadCore_keeps ?_ e (hl.of rfl) | refine State.doLifecycle_keeps ?_ e (hl.of rfl) | refine State.doPatternPush_keeps ?_ e (hl.of rfl) | refine State.doDevcfg_keeps ?_ e (hl.of rfl) | refine State.doReadStage_keeps ?_ e (hl.of rfl) | refine State.doCancel_keeps ?_ e (hl.of rfl) | refine State.doConfirm_keeps ?_ e (hl.of rfl) | refine State.doStage_keeps ?_ e (hl.of rfl) | cases e
  repeat' with_reducible first
    | exact h

theorem State.handle_keeps {K r} (h : Keeps K s0 s) (hl : Sub 16938411498797 K) :
    Keeps K s0 (State.handle s r) := by
  unfold State.handle
  repeat' with_reducible first
    | exact h
    | refine State.emRespond_keeps ?_ (hl.of rfl)
    | refine State.act_keeps ?_ (by with_reducible assumption) (hl.of rfl)
    | refine State.identify_keeps ?_ (by with_reducible assumption) (hl.of rfl)
    | assumption
    | split
    | dsimp only

theorem State.serveHeld_keeps {K} (h : Keeps K s0 s) (hl : Sub 16938411498797 K) :
    Keeps K s0 (State.serveHeld s) := by
  unfold State.serveHeld
  repeat' with_reducible first
    | exact h
    | refine State.handle_keeps ?_ (hl.of rfl)
    | refine State.updMgt_keeps ?_ (hl.of rfl)
    | apply keeps_foldl (fun _ _ h => ?_)

theorem State.acceptReq_keeps {K r} (h : Keeps K s0 s) (hl : Sub 16938411498797 K) :
    Keeps K s0 (State.acceptReq s r) := by
  unfold State.acceptReq
  repeat' with_reducible first
    | exact h
    | refine State.handle_keeps ?_ (hl.of rfl)
    | refine State.updMgt_keeps ?_ (hl.of rfl)
    | assumption
    | split

theorem State.incoming_keeps {K path msg} {z} (h : Keeps K s0 s) (e : State.incoming s path msg = (z, t)) (hl : Sub 4 K) :
    Keeps K s0 t := by
  unfold State.incoming at e
  try dsimp only at e
  repeat' split at e
  all_goals with_reducible first | cases e
  repeat' with_reducible first
    | exact h
    | refine State.count_keeps ?_ (hl.of rfl)
    | refine State.wf'_keeps ?_ (hl.of rfl)

theorem State.freeMailbox_keeps {K path} (h : Keeps K s0 s) (hl : Sub 4 K) :
    Keeps K s0 (State.freeMailbox s path) := by
  unfold State.freeMailbox
  repeat' with_reducible first
    | exact h
    | refine State.mbDone_keeps ?_ (hl.of rfl)
    | assumption
    | split

theorem State.arrive_keeps {K row path msg flashOk} (h : Keeps K s0 s) (hl : Sub 16938411498797 K) :
    Keeps K s0 (State.arrive s row path msg flashOk) := by
  unfold State.arrive
  repeat' with_reducible first
    | exact h
    | refine State.freeMailbox_keeps ?_ (hl.of rfl)
    | refine State.acceptReq_keeps ?_ (hl.of rfl)
    | refine State.incoming_keeps ?_ (by with_reducible assumption) (hl.of rfl)
    | assumption
    | split

theorem execGetStatus_keeps {K path msg} (h : Keeps K s0 s) (hl : Sub 16938411498797 K) :
    OutKeeps K s0 (execGetStatus path msg s) := by
  unfold execGetStatus
  repeat' with_reducible first
    | exact h
    | exact OutKeeps.next h
    | refine State.arrive_keeps ?_ (hl.of rfl)
    | apply OutKeeps.next

theorem execGetRecords_keeps {K path msg} (h : Keeps K s0 s) (hl : Sub 16938411498797 K) :
    OutKeeps K s0 (execGetRecords path msg s) := by
  unfold execGetRecords
  repeat' with_reducible first
    | exact h
    | exact OutKeeps.next h
    | refine State.arrive_keeps ?_ (hl.of rfl)
    | apply OutKeeps.next

theorem execStage_keeps {K path msg} (h : Keeps K s0 s) (hl : Sub 16938411498797 K) :
    OutKeeps K s0 (execStage path msg s) := by
  unfold execStage
  repeat' with_reducible first
    | exact h
    | exact OutKeeps.next h
    | refine State.arrive_keeps ?_ (hl.of rfl)
    | apply OutKeeps.next

theorem execConfirm_keeps {K path msg} (h : Keeps K s0 s) (hl : Sub 16938411498797 K) :
    OutKeeps K s0 (execConfirm path msg s) := by
  unfold execConfirm
  repeat' with_reducible first
    | exact h
    | exact OutKeeps.next h
    | refine State.arrive_keeps ?_ (hl.of rfl)
    | apply OutKeeps.next

theorem execCancel_keeps {K path msg} (h : Keeps K s0 s) (hl : Sub 16938411498797 K) :
    OutKeeps K s0 (execCancel path msg s) := by
  unfold execCancel
  repeat' with_reducible first
    | exact h
    | exact OutKeeps.next h
    | refine State.arrive_keeps ?_ (hl.of rfl)
    | apply OutKeeps.next

theorem execReadStage_keeps {K path msg} (h : Keeps K s0 s) (hl : Sub 16938411498797 K) :
    OutKeeps K s0 (execReadStage path msg s) := by
  unfold execReadStage
  repeat' with_reducible first
    | exact h
    | exact OutKeeps.next h
    | refine State.arrive_keeps ?_ (hl.of rfl)
    | apply OutKeeps.next

theorem execDevcfg_keeps {K path msg} (h : Keeps K s0 s) (hl : Sub 16938411498797 K) :
    OutKeeps K s0 (execDevcfg path msg s) := by
  unfold execDevcfg
  repeat' with_reducible first
    | exact h
    | exact OutKeeps.next h
    | refine State.arrive_keeps ?_ (hl.of rfl)
    | apply OutKeeps.next

theorem execPatternPush_keeps {K path msg flashOk} (h : Keeps K s0 s) (hl : Sub 16938411498797 K) :
    OutKeeps K s0 (execPatternPush path msg flashOk s) := by
  unfold execPatternPush
  repeat' with_reducible first
    | exact h
    | exact OutKeeps.next h
    | refine State.arrive_keeps ?_ (hl.of rfl)
    | apply OutKeeps.next

theorem execLifecycle_keeps {K path msg} (h : Keeps K s0 s) (hl : Sub 16938411498797 K) :
    OutKeeps K s0 (execLifecycle path msg s) := by
  unfold execLifecycle
  repeat' with_reducible first
    | exact h
    | exact OutKeeps.next h
    | refine State.arrive_keeps ?_ (hl.of rfl)
    | apply OutKeeps.next

theorem execReadCoreMem_keeps {K path msg} (h : Keeps K s0 s) (hl : Sub 16938411498797 K) :
    OutKeeps K s0 (execReadCoreMem path msg s) := by
  unfold execReadCoreMem
  repeat' with_reducible first
    | exact h
    | exact OutKeeps.next h
    | refine State.arrive_keeps ?_ (hl.of rfl)
    | apply OutKeeps.next

theorem execMgmtNet_keeps {K path msg} (h : Keeps K s0 s) (hl : Sub 16938411498797 K) :
    OutKeeps K s0 (execMgmtNet path msg s) := by
  unfold execMgmtNet
  repeat' with_reducible first
    | exact h
    | exact OutKeeps.next h
    | refine State.arrive_keeps ?_ (hl.of rfl)
    | apply OutKeeps.next

theorem State.acked_keeps {K msg} (h : Keeps K s0 s) (hl : Sub 275951648772 K) :
    Keeps K s0 (State.acked s msg) := by
  unfold State.acked
  repeat' first
    | with_reducible exact h
    | with_reducible refine State.updMgt_keeps ?_ (hl.of rfl)
    | with_reducible refine State.wf'_keeps ?_ (hl.of rfl)
    | with_reducible assumption
    | with_reducible split
    | with_reducible dsimp only
    | with_reducible refine Keeps.upd ?_ ?_
    | (intro f hf; cases f <;> first | exact absurd ((hl.mem _ rfl).symm.trans hf) Bool.noConfusion | exact rfl)

theorem execAck_keeps {K path msg} (h : Keeps K s0 s) (hl : Sub 275951648772 K) :
    OutKeeps K s0 (execAck path msg s) := by
  unfold execAck
  repeat' with_reducible first
    | exact h
    | exact OutKeeps.next h
    | refine State.acked_keeps ?_ (hl.of rfl)
    | refine State.freeMailbox_keeps ?_ (hl.of rfl)
    | refine State.incoming_keeps ?_ (by with_reducible assumption) (hl.of rfl)
    | apply OutKeeps.next
    | assumption
    | split

theorem execSetEndpointId_keeps {K op eid} (h : Keeps K s0 s) (hl : Sub 9070970929156 K) :
    OutKeeps K s0 (execSetEndpointId op eid s) := by
  unfold execSetEndpointId
  repeat' with_reducible first
    | exact h
    | exact OutKeeps.next h
    | refine State.updMgt_keeps ?_ (hl.of rfl)
    | refine State.emitOut_keeps ?_ (hl.of rfl)
    | refine State.wf'_keeps ?_ (hl.of rfl)
    | apply OutKeeps.next
    | assumption
    | split

theorem execGetEndpointId_keeps {K} (h : Keeps K s0 s) (hl : Sub 8796093022208 K) :
    OutKeeps K s0 (execGetEndpointId s) := by
  unfold execGetEndpointId
  repeat' with_reducible first
    | exact h
    | exact OutKeeps.next h
    | refine State.emitOut_keeps ?_ (hl.of rfl)
    | apply OutKeeps.next
    | assumption
    | split

theorem execGetMctpVersionSupport_keeps {K type} (h : Keeps K s0 s) (hl : Sub 8796093022208 K) :
    OutKeeps K s0 (execGetMctpVersionSupport type s) := by
  unfold execGetMctpVersionSupport
  repeat' with_reducible first
    | exact h
    | exact OutKeeps.next h
    | refine State.emitOut_keeps ?_ (hl.of rfl)
    | apply OutKeeps.next
    | assumption
    | split

theorem execGetMessageTypeSupport_keeps {K} (h : Keeps K s0 s) (hl : Sub 8796093022208 K) :
    OutKeeps K s0 (execGetMessageTypeSupport s) := by
  unfold execGetMessageTypeSupport
  repeat' with_reducible first
    | exact h
    | exact OutKeeps.next h
    | refine State.emitOut_keeps ?_ (hl.of rfl)
    | apply OutKeeps.next
    | assumption
    | split

theorem execGetVendorDefinedMessageSupport_keeps {K selector} (h : Keeps K s0 s) (hl : Sub 8796093022208 K) :
    OutKeeps K s0 (execGetVendorDefinedMessageSupport selector s) := by
  unfold execGetVendorDefinedMessageSupport
  repeat' with_reducible first
    | exact h
    | exact OutKeeps.next h
    | refine State.emitOut_keeps ?_ (hl.of rfl)
    | apply OutKeeps.next
    | assumption
    | split

theorem execNeighbourRequest_keeps {K addr v6} (h : Keeps K s0 s) (hl : Sub 8796093022208 K) :
    OutKeeps K s0 (execNeighbourRequest addr v6 s) := by
  unfold execNeighbourRequest
  repeat' with_reducible first
    | exact h
    | exact OutKeeps.next h
    | refine State.emitOut_keeps ?_ (hl.of rfl)
    | apply OutKeeps.next
    | assumption
    | split
    | dsimp only

theorem State.lockDebug_keeps {K} (h : Keeps K s0 s) (hl : Sub 9070970929156 K) :
    Keeps K s0 (State.lockDebug s) := by
  unfold State.lockDebug
  repeat' with_reducible first
    | exact h
    | refine State.notice_keeps ?_ (hl.of rfl)
    | refine State.wf'_keeps ?_ (hl.of rfl)

theorem execTamperFire_keeps {K d} (h : Keeps K s0 s) (hl : Sub 9104391150860 K) :
    OutKeeps K s0 (execTamperFire d s) := by
  unfold execTamperFire
  repeat' with_reducible first
    | exact h
    | exact OutKeeps.next h
    | refine State.lockDebug_keeps ?_ (hl.of rfl)
    | refine State.wipe_keeps ?_ (hl.of rfl)
    | refine State.notice_keeps ?_ (hl.of rfl)
    | refine State.wf'_keeps ?_ (hl.of rfl)
    | apply OutKeeps.next
    | assumption
    | split

/-! ### Machine/SetUp -/

theorem State.cvuShow_keeps {K} (h : Keeps K s0 s) (hl : Sub 4 K) :
    Keeps K s0 (State.cvuShow s) := by
  unfold State.cvuShow
  repeat' with_reducible first
    | exact h
    | refine State.wr64_keeps ?_ (hl.of rfl)
    | apply keeps_foldl (fun _ _ h => ?_)

theorem State.cvuLoad_keeps {K p} (h : Keeps K s0 s) (hl : Sub 4 K) :
    Keeps K s0 (State.cvuLoad s p) := by
  unfold State.cvuLoad
  repeat' with_reducible first
    | exact h
    | refine State.wr64_keeps ?_ (hl.of rfl)
    | refine State.wf'_keeps ?_ (hl.of rfl)

theorem State.cvuCtrlWrite_keeps {K v} (h : Keeps K s0 s) (hl : Sub 12 K) :
    Keeps K s0 (State.cvuCtrlWrite s v) := by
  unfold State.cvuCtrlWrite
  repeat' with_reducible first
    | exact h
    | refine State.cvuLoad_keeps ?_ (hl.of rfl)
    | refine State.cvuShow_keeps ?_ (hl.of rfl)
    | refine State.maskWrite_keeps ?_ (hl.of rfl)
    | refine State.wr64_keeps ?_ (hl.of rfl)
    | assumption
    | split

theorem State.pathWrite_keeps {K a addr v} (h : Keeps K s0 s) (hl : Sub 12 K) :
    Keeps K s0 (State.pathWrite s a addr v) := by
  unfold State.pathWrite
  repeat' with_reducible first
    | exact h
    | refine State.maskWrite_keeps ?_ (hl.of rfl)
    | assumption
    | split
    | dsimp only

theorem State.entryWrite_keeps {K a addr cfg lo v} (h : Keeps K s0 s) (hl : Sub 12 K) :
    Keeps K s0 (State.entryWrite s a addr cfg lo v) := by
  unfold State.entryWrite
  repeat' with_reducible first
    | exact h
    | refine State.maskWrite_keeps ?_ (hl.of rfl)
    | assumption
    | split

theorem State.mbCtrl_keeps {K a v} (h : Keeps K s0 s) (hl : Sub 274877906956 K) :
    Keeps K s0 (State.mbCtrl s a v) := by
  unfold State.mbCtrl
  repeat' with_reducible first
    | exact h
    | refine State.updMgt_keeps ?_ (hl.of rfl)
    | refine State.maskWrite_keeps ?_ (hl.of rfl)
    | refine State.wf'_keeps ?_ (hl.of rfl)
    | assumption
    | split

theorem State.plsCtrl_keeps {K k v} (h : Keeps K s0 s) (hl : Sub 4108 K) :
    Keeps K s0 (State.plsCtrl s k v) := by
  unfold State.plsCtrl
  repeat' with_reducible first
    | exact h
    | refine State.maskWrite_keeps ?_ (hl.of rfl)
    | refine State.updPart_keeps ?_ (hl.of rfl)
    | assumption
    | split

theorem State.plainWrite_keeps {K b o key v} (h : Keeps K s0 s) (hl : Sub 44 K) :
    Keeps K s0 (State.plainWrite s b o key v) := by
  unfold State.plainWrite
  repeat' with_reducible first
    | exact h
    | refine State.dropLo_keeps ?_ (hl.of rfl)
    | refine State.holdLo_keeps ?_ (hl.of rfl)
    | refine State.maskWrite_keeps ?_ (hl.of rfl)
    | assumption
    | split

theorem State.channelWrite_keeps {K b o ch r v} (h : Keeps K s0 s) (hl : Sub 17179874348 K) :
    Keeps K s0 (State.channelWrite s b o ch r v) := by
  unfold State.channelWrite
  repeat' with_reducible first
    | exact h
    | refine State.plainWrite_keeps ?_ (hl.of rfl)
    | refine State.intervalWrite_keeps ?_ (hl.of rfl)
    | refine State.compareWrite_keeps ?_ (hl.of rfl)
    | refine State.ctrlWrite_keeps ?_ (hl.of rfl)
    | refine State.evalBefore_keeps ?_ (hl.of rfl)
    | assumption
    | split

theorem State.coreWrite_keeps {K a p o addr v} (h : Keeps K s0 s) (hl : Sub 6614250689580 K) :
    Keeps K s0 (State.coreWrite s a p o addr v) := by
  unfold State.coreWrite
  repeat' first
    | with_reducible exact h
    | with_reducible refine State.channelWrite_keeps ?_ (hl.of rfl)
    | with_reducible refine State.plainWrite_keeps ?_ (hl.of rfl)
    | with_reducible refine State.bankWrite_keeps ?_ (hl.of rfl)
    | with_reducible refine State.powerReq_keeps ?_ (hl.of rfl)
    | with_reducible refine State.rtrCtrl_keeps ?_ (hl.of rfl)
    | with_reducible refine State.maskWrite_keeps ?_ (hl.of rfl)
    | with_reducible assumption
    | with_reducible split
    | with_reducible dsimp only
    | with_reducible refine Keeps.upd ?_ ?_
    | (intro f hf; cases f <;> first | exact absurd ((hl.mem _ rfl).symm.trans hf) Bool.noConfusion | exact rfl)

theorem State.attWrite_keeps {K a o addr v} (h : Keeps K s0 s) (hl : Sub 8589934636 K) :
    Keeps K s0 (State.attWrite s a o addr v) := by
  unfold State.attWrite
  repeat' with_reducible first
    | exact h
    | refine State.plainWrite_keeps ?_ (hl.of rfl)
    | refine State.pathWrite_keeps ?_ (hl.of rfl)
    | refine State.ringCtrl_keeps ?_ (hl.of rfl)
    | refine State.attCtrl_keeps ?_ (hl.of rfl)
    | assumption
    | split
    | dsimp only

theorem State.setupWrite_keeps {K a addr v} (h : Keeps K s0 s) (hl : Sub 15735821704492 K) :
    Keeps K s0 (State.setupWrite s a addr v) := by
  unfold State.setupWrite
  repeat' with_reducible first
    | exact h
    | refine State.attWrite_keeps ?_ (hl.of rfl)
    | refine State.coreWrite_keeps ?_ (hl.of rfl)
    | refine State.channelWrite_keeps ?_ (hl.of rfl)
    | refine State.plainWrite_keeps ?_ (hl.of rfl)
    | refine State.plsCtrl_keeps ?_ (hl.of rfl)
    | refine State.mbCtrl_keeps ?_ (hl.of rfl)
    | refine State.entryWrite_keeps ?_ (hl.of rfl)
    | refine State.cvuCtrlWrite_keeps ?_ (hl.of rfl)
    | refine State.cvuShow_keeps ?_ (hl.of rfl)
    | refine State.partCtrl_keeps ?_ (hl.of rfl)
    | refine State.powerReq_keeps ?_ (hl.of rfl)
    | refine State.groupStart_keeps ?_ (hl.of rfl)
    | refine State.fenceWrite_keeps ?_ (hl.of rfl)
    | refine State.clearCtrl_keeps ?_ (hl.of rfl)
    | refine State.dropLo_keeps ?_ (hl.of rfl)
    | refine State.holdLo_keeps ?_ (hl.of rfl)
    | assumption
    | split

theorem execRegisterWrite_keeps {K a addr v} (h : Keeps K s0 s) (hl : Sub 15735821704492 K) :
    OutKeeps K s0 (execRegisterWrite a addr v s) := by
  unfold execRegisterWrite
  repeat' with_reducible first
    | exact h
    | exact OutKeeps.next h
    | refine State.setupWrite_keeps ?_ (hl.of rfl)
    | refine State.guard_keeps ?_ ?_ (hl.of rfl)
    | apply OutKeeps.next
    | intro _ h
    | assumption
    | split

theorem State.setupRead_keeps {K a addr} (h : Keeps K s0 s) (hl : Sub 8796093022228 K) :
    Keeps K s0 (State.setupRead s a addr) := by
  unfold State.setupRead
  repeat' first
    | with_reducible exact h
    | with_reducible refine State.filtered_keeps ?_ (hl.of rfl)
    | with_reducible refine State.emitOut_keeps ?_ (hl.of rfl)
    | with_reducible refine State.count_keeps ?_ (hl.of rfl)
    | with_reducible assumption
    | with_reducible split
    | with_reducible dsimp only
    | with_reducible refine Keeps.upd ?_ ?_
    | (intro f hf; cases f <;> first | exact absurd ((hl.mem _ rfl).symm.trans hf) Bool.noConfusion | exact rfl)

theorem State.barRead_keeps {K a off} (h : Keeps K s0 s) (hl : Sub 8796093022212 K) :
    Keeps K s0 (State.barRead s a off) := by
  unfold State.barRead
  repeat' with_reducible first
    | exact h
    | refine State.filtered_keeps ?_ (hl.of rfl)
    | refine State.emitOut_keeps ?_ (hl.of rfl)
    | assumption
    | split
    | dsimp only

theorem execReg64LoRead_keeps {K a addr} (h : Keeps K s0 s) (hl : Sub 8796093022228 K) :
    OutKeeps K s0 (execReg64LoRead a addr s) := by
  unfold execReg64LoRead
  repeat' with_reducible first
    | exact h
    | exact OutKeeps.next h
    | refine State.barRead_keeps ?_ (hl.of rfl)
    | refine State.setupRead_keeps ?_ (hl.of rfl)
    | apply OutKeeps.next
    | assumption
    | split

theorem execRoleFenceWrite_keeps {K a p v} (h : Keeps K s0 s) (hl : Sub 15428596275204 K) :
    OutKeeps K s0 (execRoleFenceWrite a p v s) := by
  unfold execRoleFenceWrite
  repeat' with_reducible first
    | exact h
    | exact OutKeeps.next h
    | refine State.guard_keeps ?_ ?_ (hl.of rfl)
    | refine State.fenceWrite_keeps ?_ (hl.of rfl)
    | apply OutKeeps.next
    | intro _ h
    | assumption
    | split

theorem execRouterReset_keeps {K a k v} (h : Keeps K s0 s) (hl : Sub 12 K) :
    OutKeeps K s0 (execRouterReset a k v s) := by
  unfold execRouterReset
  repeat' with_reducible first
    | exact h
    | exact OutKeeps.next h
    | refine State.guard_keeps ?_ ?_ (hl.of rfl)
    | refine State.rtrCtrl_keeps ?_ (hl.of rfl)
    | apply OutKeeps.next
    | intro _ h
    | assumption
    | split

theorem execClearingStart_keeps {K a k} (h : Keeps K s0 s) (hl : Sub 4100 K) :
    OutKeeps K s0 (execClearingStart a k s) := by
  unfold execClearingStart
  repeat' with_reducible first
    | exact h
    | exact OutKeeps.next h
    | refine State.guard_keeps ?_ ?_ (hl.of rfl)
    | refine State.clearCtrl_keeps ?_ (hl.of rfl)
    | apply OutKeeps.next
    | intro _ h
    | assumption
    | split

theorem execChannelArm_keeps {K a ch v} (h : Keeps K s0 s) (hl : Sub 17179874316 K) :
    OutKeeps K s0 (execChannelArm a ch v s) := by
  unfold execChannelArm
  repeat' with_reducible first
    | exact h
    | exact OutKeeps.next h
    | refine State.ctrlWrite_keeps ?_ (hl.of rfl)
    | refine State.guard_keeps ?_ ?_ (hl.of rfl)
    | apply OutKeeps.next
    | intro _ h
    | assumption
    | split

theorem execChannelDisarm_keeps {K a ch v} (h : Keeps K s0 s) (hl : Sub 17179874316 K) :
    OutKeeps K s0 (execChannelDisarm a ch v s) := by
  unfold execChannelDisarm
  repeat' with_reducible first
    | exact h
    | exact OutKeeps.next h
    | refine State.ctrlWrite_keeps ?_ (hl.of rfl)
    | refine State.guard_keeps ?_ ?_ (hl.of rfl)
    | apply OutKeeps.next
    | intro _ h
    | assumption
    | split

theorem execCompareWrite_keeps {K a ch hi} (h : Keeps K s0 s) (hl : Sub 17179874340 K) :
    OutKeeps K s0 (execCompareWrite a ch hi s) := by
  unfold execCompareWrite
  repeat' with_reducible first
    | exact h
    | exact OutKeeps.next h
    | refine State.compareWrite_keeps ?_ (hl.of rfl)
    | refine State.guard_keeps ?_ ?_ (hl.of rfl)
    | apply OutKeeps.next
    | intro _ h
    | assumption
    | split

theorem execIntervalWrite_keeps {K a ch v} (h : Keeps K s0 s) (hl : Sub 17179874308 K) :
    OutKeeps K s0 (execIntervalWrite a ch v s) := by
  unfold execIntervalWrite
  repeat' with_reducible first
    | exact h
    | exact OutKeeps.next h
    | refine State.intervalWrite_keeps ?_ (hl.of rfl)
    | refine State.guard_keeps ?_ ?_ (hl.of rfl)
    | apply OutKeeps.next
    | intro _ h
    | assumption
    | split

theorem execGroupStart_keeps {K a hi} (h : Keeps K s0 s) (hl : Sub 15735821704492 K) :
    OutKeeps K s0 (execGroupStart a hi s) := by
  unfold execGroupStart
  repeat' with_reducible first
    | exact h
    | exact OutKeeps.next h
    | refine State.setupWrite_keeps ?_ (hl.of rfl)
    | refine State.guard_keeps ?_ ?_ (hl.of rfl)
    | apply OutKeeps.next
    | intro _ h
    | assumption
    | split

theorem execEndEpoch_keeps {K a k v} (h : Keeps K s0 s) (hl : Sub 4108 K) :
    OutKeeps K s0 (execEndEpoch a k v s) := by
  unfold execEndEpoch
  repeat' with_reducible first
    | exact h
    | exact OutKeeps.next h
    | refine State.plsCtrl_keeps ?_ (hl.of rfl)
    | refine State.guard_keeps ?_ ?_ (hl.of rfl)
    | apply OutKeeps.next
    | intro _ h
    | assumption
    | split

theorem execCvuStart_keeps {K a v} (h : Keeps K s0 s) (hl : Sub 12 K) :
    OutKeeps K s0 (execCvuStart a v s) := by
  unfold execCvuStart
  repeat' with_reducible first
    | exact h
    | exact OutKeeps.next h
    | refine State.cvuCtrlWrite_keeps ?_ (hl.of rfl)
    | refine State.guard_keeps ?_ ?_ (hl.of rfl)
    | apply OutKeeps.next
    | intro _ h
    | assumption
    | split

theorem execCvuRunningWrite_keeps {K a lo hi} (h : Keeps K s0 s) (hl : Sub 36 K) :
    OutKeeps K s0 (execCvuRunningWrite a lo hi s) := by
  unfold execCvuRunningWrite
  repeat' with_reducible first
    | exact h
    | exact OutKeeps.next h
    | refine State.cvuShow_keeps ?_ (hl.of rfl)
    | refine State.guard_keeps ?_ ?_ (hl.of rfl)
    | refine State.dropLo_keeps ?_ (hl.of rfl)
    | refine State.wr_keeps ?_ (hl.of rfl)
    | apply OutKeeps.next
    | intro _ h
    | assumption
    | split

/-! ### Machine/Debug -/

theorem State.tap_keeps {K mode} (h : Keeps K s0 s) (hl : Sub 274877906944 K) :
    Keeps K s0 (State.tap s mode) := by
  unfold State.tap
  repeat' with_reducible first
    | exact h
    | refine State.updMgt_keeps ?_ (hl.of rfl)

theorem execBypass_keeps {K} (h : Keeps K s0 s) (hl : Sub 9070970929152 K) :
    OutKeeps K s0 (execBypass s) := by
  unfold execBypass
  repeat' with_reducible first
    | exact h
    | exact OutKeeps.next h
    | refine State.tap_keeps ?_ (hl.of rfl)
    | refine State.emitOut_keeps ?_ (hl.of rfl)
    | apply OutKeeps.next

theorem State.capturePins_keeps {K} (h : Keeps K s0 s) (hl : Sub 26388279066624 K) :
    Keeps K s0 (State.capturePins s) := by
  unfold State.capturePins
  repeat' with_reducible first
    | exact h
    | refine State.tap_keeps ?_ (hl.of rfl)
    | refine State.emitOut_keeps ?_ (hl.of rfl)
    | refine State.freeNat_keeps ?_ (by with_reducible assumption) (hl.of rfl)
    | assumption
    | split
    | dsimp only
    | refine State.freeNat_keeps ?_ Prod.mk.eta.symm (hl.of rfl)

theorem execSamplePreload_keeps {K v} (h : Keeps K s0 s) (hl : Sub 26663156973568 K) :
    OutKeeps K s0 (execSamplePreload v s) := by
  unfold execSamplePreload
  repeat' with_reducible first
    | exact h
    | exact OutKeeps.next h
    | refine State.capturePins_keeps ?_ (hl.of rfl)
    | refine State.tap_keeps ?_ (hl.of rfl)
    | refine State.updMgt_keeps ?_ (hl.of rfl)
    | apply OutKeeps.next

theorem execExtest_keeps {K v} (h : Keeps K s0 s) (hl : Sub 26663156973568 K) :
    OutKeeps K s0 (execExtest v s) := by
  unfold execExtest
  repeat' with_reducible first
    | exact h
    | exact OutKeeps.next h
    | refine State.capturePins_keeps ?_ (hl.of rfl)
    | refine State.tap_keeps ?_ (hl.of rfl)
    | refine State.updMgt_keeps ?_ (hl.of rfl)
    | apply OutKeeps.next

theorem execIdcode_keeps {K} (h : Keeps K s0 s) (hl : Sub 9070970929152 K) :
    OutKeeps K s0 (execIdcode s) := by
  unfold execIdcode
  repeat' with_reducible first
    | exact h
    | exact OutKeeps.next h
    | refine State.tap_keeps ?_ (hl.of rfl)
    | refine State.emitOut_keeps ?_ (hl.of rfl)
    | apply OutKeeps.next

theorem execClamp_keeps {K} (h : Keeps K s0 s) (hl : Sub 9070970929152 K) :
    OutKeeps K s0 (execClamp s) := by
  unfold execClamp
  repeat' with_reducible first
    | exact h
    | exact OutKeeps.next h
    | refine State.tap_keeps ?_ (hl.of rfl)
    | refine State.emitOut_keeps ?_ (hl.of rfl)
    | apply OutKeeps.next

theorem execHighz_keeps {K} (h : Keeps K s0 s) (hl : Sub 9070970929152 K) :
    OutKeeps K s0 (execHighz s) := by
  unfold execHighz
  repeat' with_reducible first
    | exact h
    | exact OutKeeps.next h
    | refine State.tap_keeps ?_ (hl.of rfl)
    | refine State.emitOut_keeps ?_ (hl.of rfl)
    | apply OutKeeps.next

theorem State.raise_keeps {K lv means} (h : Keeps K s0 s) (hl : Sub 9070970929156 K) :
    Keeps K s0 (State.raise s lv means) := by
  unfold State.raise
  repeat' with_reducible first
    | exact h
    | refine State.notice_keeps ?_ (hl.of rfl)
    | refine State.wf'_keeps ?_ (hl.of rfl)
    | assumption
    | split

theorem State.unlockFailed_keeps {K} (h : Keeps K s0 s) (hl : Sub 9070970929156 K) :
    Keeps K s0 (State.unlockFailed s) := by
  unfold State.unlockFailed
  repeat' with_reducible first
    | exact h
    | refine State.lockDebug_keeps ?_ (hl.of rfl)
    | refine State.wf'_keeps ?_ (hl.of rfl)
    | assumption
    | split
    | dsimp only

theorem execDbgStatus_keeps {K} (h : Keeps K s0 s) (hl : Sub 8796093022208 K) :
    OutKeeps K s0 (execDbgStatus s) := by
  unfold execDbgStatus
  repeat' with_reducible first
    | exact h
    | exact OutKeeps.next h
    | refine State.tap_keeps ?_ (hl.of rfl)
    | refine State.emitOut_keeps ?_ (hl.of rfl)
    | apply OutKeeps.next
    | assumption
    | split

theorem execDbgChallenge_keeps {K} (h : Keeps K s0 s) (hl : Sub 26663156973568 K) :
    OutKeeps K s0 (execDbgChallenge s) := by
  unfold execDbgChallenge
  repeat' with_reducible first
    | exact h
    | exact OutKeeps.next h
    | refine State.tap_keeps ?_ (hl.of rfl)
    | refine State.updMgt_keeps ?_ (hl.of rfl)
    | refine State.emitOut_keeps ?_ (hl.of rfl)
    | refine State.freeNat_keeps ?_ (by with_reducible assumption) (hl.of rfl)
    | apply OutKeeps.next
    | assumption
    | split
    | dsimp only
    | refine State.freeNat_keeps ?_ Prod.mk.eta.symm (hl.of rfl)

theorem execDbgResponse_keeps {K sig} (h : Keeps K s0 s) (hl : Sub 9070970929156 K) :
    OutKeeps K s0 (execDbgResponse sig s) := by
  unfold execDbgResponse
  repeat' with_reducible first
    | exact h
    | exact OutKeeps.next h
    | refine State.unlockFailed_keeps ?_ (hl.of rfl)
    | refine State.raise_keeps ?_ (hl.of rfl)
    | refine State.updMgt_keeps ?_ (hl.of rfl)
    | apply OutKeeps.next
    | assumption
    | split

theorem execDbgPassword_keeps {K len bytes} (h : Keeps K s0 s) (hl : Sub 9070970929156 K) :
    OutKeeps K s0 (execDbgPassword len bytes s) := by
  unfold execDbgPassword
  repeat' with_reducible first
    | exact h
    | exact OutKeeps.next h
    | refine State.unlockFailed_keeps ?_ (hl.of rfl)
    | refine State.raise_keeps ?_ (hl.of rfl)
    | apply OutKeeps.next
    | assumption
    | split

theorem execDbgClose_keeps {K} (h : Keeps K s0 s) (hl : Sub 4 K) :
    OutKeeps K s0 (execDbgClose s) := by
  unfold execDbgClose
  repeat' with_reducible first
    | exact h
    | exact OutKeeps.next h
    | refine State.wf'_keeps ?_ (hl.of rfl)
    | apply OutKeeps.next
    | assumption
    | split

theorem execDbgNonceExpire_keeps {K} (h : Keeps K s0 s) (hl : Sub 274877906944 K) :
    OutKeeps K s0 (execDbgNonceExpire s) := by
  unfold execDbgNonceExpire
  repeat' with_reducible first
    | exact h
    | exact OutKeeps.next h
    | refine State.updMgt_keeps ?_ (hl.of rfl)
    | apply OutKeeps.next
    | assumption
    | split

theorem execDebugSetupAccess_keeps {K mem write a addr v} (h : Keeps K s0 s) (hl : Sub 15735821704492 K) :
    OutKeeps K s0 (execDebugSetupAccess mem write a addr v s) := by
  unfold execDebugSetupAccess
  repeat' with_reducible first
    | exact h
    | exact OutKeeps.next h
    | refine State.setupWrite_keeps ?_ (hl.of rfl)
    | refine State.emitOut_keeps ?_ (hl.of rfl)
    | apply OutKeeps.next
    | assumption
    | split
    | dsimp only

theorem execDebugPartitionHalt_keeps {K k} (h : Keeps K s0 s) (hl : Sub 4100 K) :
    OutKeeps K s0 (execDebugPartitionHalt k s) := by
  unfold execDebugPartitionHalt
  repeat' with_reducible first
    | exact h
    | exact OutKeeps.next h
    | refine State.haltNow_keeps ?_ (hl.of rfl)
    | refine State.updPart_keeps ?_ (hl.of rfl)
    | apply OutKeeps.next
    | assumption
    | split

theorem State.showCoreHalt_keeps {K p} (h : Keeps K s0 s) (hl : Sub 4 K) :
    Keeps K s0 (State.showCoreHalt s p) := by
  unfold State.showCoreHalt
  repeat' with_reducible first
    | exact h
    | refine State.showFrozen_keeps ?_ (hl.of rfl)
    | apply keeps_foldl (fun _ _ h => ?_)

theorem execDebugCoreHalt_keeps {K p} (h : Keeps K s0 s) (hl : Sub 1028 K) :
    OutKeeps K s0 (execDebugCoreHalt p s) := by
  unfold execDebugCoreHalt
  repeat' with_reducible first
    | exact h
    | exact OutKeeps.next h
    | refine State.showCoreHalt_keeps ?_ (hl.of rfl)
    | refine State.updCore_keeps ?_ (hl.of rfl)
    | apply OutKeeps.next
    | assumption
    | split

theorem State.thaw_keeps {K frozen} (h : Keeps K s0 s) (hl : Sub 17179874308 K) :
    Keeps K s0 (State.thaw s frozen) := by
  unfold State.thaw
  repeat' with_reducible first
    | exact h
    | refine State.fireAll_keeps ?_ (hl.of rfl)

theorem execDebugResume_keeps {K core x} (h : Keeps K s0 s) (hl : Sub 17179874308 K) :
    OutKeeps K s0 (execDebugResume core x s) := by
  unfold execDebugResume
  repeat' with_reducible first
    | exact h
    | exact OutKeeps.next h
    | refine State.thaw_keeps ?_ (hl.of rfl)
    | refine State.showCoreHalt_keeps ?_ (hl.of rfl)
    | refine State.showHalt_keeps ?_ (hl.of rfl)
    | refine State.updPart_keeps ?_ (hl.of rfl)
    | refine State.updCore_keeps ?_ (hl.of rfl)
    | apply OutKeeps.next
    | assumption
    | split

/-! ### Machine/StartUp -/

theorem State.updPins_keeps {K f} (h : Keeps K s0 s) (hl : Sub 549755813888 K) :
    Keeps K s0 (State.updPins s f) := by
  unfold State.updPins
  repeat' first
    | with_reducible exact h
    | with_reducible assumption
    | with_reducible split
    | with_reducible dsimp only
    | with_reducible refine Keeps.upd ?_ ?_
    | (intro f hf; cases f <;> first | exact absurd ((hl.mem _ rfl).symm.trans hf) Bool.noConfusion | exact rfl)

theorem State.held_keeps {K f p} (h : Keeps K s0 s) (hf : f.made = s0.fuses.made) (hl : Sub 35184372088831 K) : Keeps K s0 (State.held s f p) :=
  ⟨h.pending, hf, fun _ => ⟨rfl, rfl, rfl⟩, fun g n => by
    have k := h.same g n
    cases g <;> first | exact absurd ((hl.mem _ rfl).symm.trans n) Bool.noConfusion | exact k⟩

theorem execSysRstNFall_keeps {K} (h : Keeps K s0 s) (hl : Sub 35184372088831 K) :
    OutKeeps K s0 (execSysRstNFall s) := by
  unfold execSysRstNFall
  split
  · exact OutKeeps.next (State.held_keeps h h.made (hl.of rfl))
  · exact OutKeeps.next h

theorem State.strapAtt_keeps {K a} (h : Keeps K s0 s) (hl : Sub 8589934596 K) :
    Keeps K s0 (State.strapAtt s a) := by
  unfold State.strapAtt
  repeat' with_reducible first
    | exact h
    | refine State.updAtt_keeps ?_ (hl.of rfl)
    | refine State.wr_keeps ?_ (hl.of rfl)
    | assumption
    | split
    | dsimp only

theorem State.boot_keeps {K} (h : Keeps K s0 s) (hl : Sub 17592186044420 K) :
    Keeps K s0 (State.boot s) := by
  unfold State.boot
  repeat' with_reducible first
    | exact h
    | refine State.showPatterns_keeps ?_ (hl.of rfl)
    | refine State.wf'_keeps ?_ (hl.of rfl)
    | refine State.wr_keeps ?_ (hl.of rfl)
    | refine State.freeWord_keeps ?_ (by with_reducible assumption) (hl.of rfl)
    | assumption
    | split
    | dsimp only
    | refine State.freeWord_keeps ?_ Prod.mk.eta.symm (hl.of rfl)

theorem execSysRstNRise_keeps {K} (h : Keeps K s0 s) (hl : Sub 35184372088831 K) :
    OutKeeps K s0 (execSysRstNRise s) := by
  unfold execSysRstNRise
  split
  · exact OutKeeps.next h
  · exact OutKeeps.next (State.boot_keeps (keeps_foldl (fun _ _ h => State.strapAtt_keeps h (hl.of rfl)) (State.held_keeps h h.made (hl.of rfl))) (hl.of rfl))

theorem execMgmtBootDone_keeps {K} (h : Keeps K s0 s) (hl : Sub 549755813888 K) :
    OutKeeps K s0 (execMgmtBootDone s) := by
  unfold execMgmtBootDone
  repeat' with_reducible first
    | exact h
    | exact OutKeeps.next h
    | refine State.updPins_keeps ?_ (hl.of rfl)
    | apply OutKeeps.next
    | assumption
    | split

theorem State.bringUp_keeps {K} (h : Keeps K s0 s) (hl : Sub 6 K) :
    Keeps K s0 (State.bringUp s) := Keeps.rebase h (.inr rfl) (.inl (hl.mem _ rfl)) (hl.mem _ rfl) h.made

theorem State.railVolts_keeps {K g} (h : Keeps K s0 s) (hl : Sub 17592186044420 K) :
    Keeps K s0 (State.railVolts s g) := by
  unfold State.railVolts
  repeat' with_reducible first
    | exact h
    | refine State.wf'_keeps ?_ (hl.of rfl)
    | refine State.freeNat_keeps ?_ (by with_reducible assumption) (hl.of rfl)
    | assumption
    | split
    | dsimp only
    | refine State.freeNat_keeps ?_ Prod.mk.eta.symm (hl.of rfl)

theorem execPgCoreRise_keeps {K} (h : Keeps K s0 s) (hl : Sub 18141941858310 K) :
    OutKeeps K s0 (execPgCoreRise s) := by
  unfold execPgCoreRise
  repeat' with_reducible first
    | exact h
    | exact OutKeeps.next h
    | refine State.railVolts_keeps ?_ (hl.of rfl)
    | refine State.bringUp_keeps ?_ (hl.of rfl)
    | refine State.updPins_keeps ?_ (hl.of rfl)
    | apply OutKeeps.next
    | apply keeps_foldl (fun _ _ h => ?_)
    | assumption
    | split

theorem State.wakeStacks_keeps {K} (h : Keeps K s0 s) (hl : Sub 2199023255556 K) :
    Keeps K s0 (State.wakeStacks s) := by
  unfold State.wakeStacks
  repeat' with_reducible first
    | exact h
    | refine State.beginWake_keeps ?_ (hl.of rfl)
    | apply keeps_foldl (fun _ _ h => ?_)
    | assumption
    | split

theorem State.readyCheck_keeps {K} (h : Keeps K s0 s) (hl : Sub 17488167312685 K) :
    Keeps K s0 (State.readyCheck s) := by
  unfold State.readyCheck
  repeat' with_reducible first
    | exact h
    | refine State.updPins_keeps ?_ (hl.of rfl)
    | refine State.serveHeld_keeps ?_ (hl.of rfl)
    | assumption
    | split

theorem execPgIoRise_keeps {K} (h : Keeps K s0 s) (hl : Sub 17488167312685 K) :
    OutKeeps K s0 (execPgIoRise s) := by
  unfold execPgIoRise
  repeat' with_reducible first
    | exact h
    | exact OutKeeps.next h
    | refine State.readyCheck_keeps ?_ (hl.of rfl)
    | refine State.updPins_keeps ?_ (hl.of rfl)
    | refine State.setPw_keeps ?_ (hl.of rfl)
    | refine State.count_keeps ?_ (hl.of rfl)
    | refine State.wf'_keeps ?_ (hl.of rfl)
    | apply OutKeeps.next
    | apply keeps_foldl (fun _ _ h => ?_)
    | assumption
    | split

theorem execPgHbmRise_keeps {K st} (h : Keeps K s0 s) (hl : Sub 2748779069444 K) :
    OutKeeps K s0 (execPgHbmRise st s) := by
  unfold execPgHbmRise
  repeat' with_reducible first
    | exact h
    | exact OutKeeps.next h
    | refine State.wakeStacks_keeps ?_ (hl.of rfl)
    | refine State.updPins_keeps ?_ (hl.of rfl)
    | apply OutKeeps.next
    | assumption
    | split

theorem State.stackLost_keeps {K st} (h : Keeps K s0 s) (hl : Sub 11578292313348 K) :
    Keeps K s0 (State.stackLost s st) := by
  unfold State.stackLost
  repeat' with_reducible first
    | exact h
    | refine State.updPins_keeps ?_ (hl.of rfl)
    | refine State.stackFailed_keeps ?_ (hl.of rfl)
    | refine State.setStage_keeps ?_ (hl.of rfl)
    | refine State.setPw_keeps ?_ (hl.of rfl)

theorem State.startFailed_keeps {K} (h : Keeps K s0 s) (hl : Sub 549755813888 K) :
    Keeps K s0 (State.startFailed s) := by
  unfold State.startFailed
  repeat' with_reducible first
    | exact h
    | refine State.updPins_keeps ?_ (hl.of rfl)

theorem execPgWaitTimeout_keeps {K which} (h : Keeps K s0 s) (hl : Sub 17488167312685 K) :
    OutKeeps K s0 (execPgWaitTimeout which s) := by
  unfold execPgWaitTimeout
  repeat' with_reducible first
    | exact h
    | exact OutKeeps.next h
    | refine State.startFailed_keeps ?_ (hl.of rfl)
    | refine State.stackLost_keeps ?_ (hl.of rfl)
    | refine State.readyCheck_keeps ?_ (hl.of rfl)
    | refine State.wakeStacks_keeps ?_ (hl.of rfl)
    | refine State.updPins_keeps ?_ (hl.of rfl)
    | apply OutKeeps.next
    | assumption
    | split
    | dsimp only

theorem State.stackTemp_keeps {K st} (h : Keeps K s0 s) (hl : Sub 17592186044420 K) :
    Keeps K s0 (State.stackTemp s st) := by
  unfold State.stackTemp
  repeat' with_reducible first
    | exact h
    | refine State.wf'_keeps ?_ (hl.of rfl)
    | refine State.freeNat_keeps ?_ (by with_reducible assumption) (hl.of rfl)
    | assumption
    | split
    | dsimp only
    | refine State.freeNat_keeps ?_ Prod.mk.eta.symm (hl.of rfl)

theorem execHbmTrainingDone_keeps {K st ok} (h : Keeps K s0 s) (hl : Sub 35080353357101 K) :
    OutKeeps K s0 (execHbmTrainingDone st ok s) := by
  unfold execHbmTrainingDone
  repeat' with_reducible first
    | exact h
    | exact OutKeeps.next h
    | refine State.stackTemp_keeps ?_ (hl.of rfl)
    | refine State.stackLost_keeps ?_ (hl.of rfl)
    | refine State.readyCheck_keeps ?_ (hl.of rfl)
    | refine State.setStage_keeps ?_ (hl.of rfl)
    | apply OutKeeps.next
    | assumption
    | split

theorem execHbmClearDone_keeps {K st} (h : Keeps K s0 s) (hl : Sub 17522929696749 K) :
    OutKeeps K s0 (execHbmClearDone st s) := by
  unfold execHbmClearDone
  repeat' with_reducible first
    | exact h
    | exact OutKeeps.next h
    | refine State.readyCheck_keeps ?_ (hl.of rfl)
    | refine State.updPins_keeps ?_ (hl.of rfl)
    | refine State.wakeDone_keeps ?_ (hl.of rfl)
    | apply OutKeeps.next
    | assumption
    | split

theorem State.coreRailsLost_keeps {K} (h : Keeps K s0 s) (hl : Sub 26421699288836 K) :
    Keeps K s0 (State.coreRailsLost s) := by
  unfold State.coreRailsLost
  repeat' with_reducible first
    | exact h
    | refine State.groveWide_keeps ?_ (hl.of rfl)
    | refine State.updGrove_keeps ?_ (hl.of rfl)
    | refine State.wf'_keeps ?_ (hl.of rfl)
    | apply keeps_foldl (fun _ _ h => ?_)

theorem State.ioRailsLost_keeps {K} (h : Keeps K s0 s) (hl : Sub 8805890920460 K) :
    Keeps K s0 (State.ioRailsLost s) := by
  unfold State.ioRailsLost
  repeat' with_reducible first
    | exact h
    | refine State.evpLinkLoss_keeps ?_ (hl.of rfl)
    | refine State.linkLoss_keeps ?_ (hl.of rfl)
    | apply keeps_foldl (fun _ _ h => ?_)

theorem execPgFall_keeps {K which} (h : Keeps K s0 s) (hl : Sub 26971455102732 K) :
    OutKeeps K s0 (execPgFall which s) := by
  unfold execPgFall
  repeat' with_reducible first
    | exact h
    | exact OutKeeps.next h
    | refine State.ioRailsLost_keeps ?_ (hl.of rfl)
    | refine State.coreRailsLost_keeps ?_ (hl.of rfl)
    | refine State.updPins_keeps ?_ (hl.of rfl)
    | refine State.stackFailed_keeps ?_ (hl.of rfl)
    | apply OutKeeps.next
    | assumption
    | split
    | dsimp only

theorem execThermalTrip_keeps {K sensor reading} (h : Keeps K s0 s) (hl : Sub 26971455102732 K) :
    OutKeeps K s0 (execThermalTrip sensor reading s) := by
  unfold execThermalTrip
  repeat' with_reducible first
    | exact h
    | exact OutKeeps.next h
    | refine State.ioRailsLost_keeps ?_ (hl.of rfl)
    | refine State.coreRailsLost_keeps ?_ (hl.of rfl)
    | refine State.updPins_keeps ?_ (hl.of rfl)
    | refine State.stackFailed_keeps ?_ (hl.of rfl)
    | refine State.report_keeps ?_ (hl.of rfl)
    | apply OutKeeps.next
    | apply keeps_foldl (fun _ _ h => ?_)
    | assumption
    | split

end Sys2Proof.Machine
end

