-- ==== Sys2Proof/Laws/KeepsStep.lean ====
section
/-! SUPPORT. What the operations keep (Safety: Keeps): every command, and the step. One lemma per operation. -/
namespace Sys2Proof.Machine

variable {s0 s t : State}

/-! ### Machine/Tick -/

theorem State.tickPtp_keeps {K e1} (h : Keeps K s0 s) (hl : Sub 17179869188 K) :
    Keeps K s0 (State.tickPtp s e1) := by
  unfold State.tickPtp
  repeat' with_reducible first
    | exact h
    | refine State.updPort_keeps ?_ (hl.of rfl)
    | refine State.wr64_keeps ?_ (hl.of rfl)
    | refine State.count_keeps ?_ (hl.of rfl)
    | assumption
    | split
    | dsimp only

theorem State.addTokens_keeps {K e1} (h : Keeps K s0 s) (hl : Sub 17179869184 K) :
    Keeps K s0 (State.addTokens s e1) := by
  unfold State.addTokens
  repeat' with_reducible first
    | exact h
    | refine State.updPort_keeps ?_ (hl.of rfl)

theorem State.tickPort_keeps {K e1} (h : Keeps K s0 s) (hl : Sub 17179869188 K) :
    Keeps K s0 (State.tickPort s e1) := by
  unfold State.tickPort
  repeat' with_reducible first
    | exact h
    | refine State.addTokens_keeps ?_ (hl.of rfl)
    | refine State.tickPtp_keeps ?_ (hl.of rfl)
    | assumption
    | split

theorem State.tickStall_keeps {K a} (h : Keeps K s0 s) (hl : Sub 4 K) :
    Keeps K s0 (State.tickStall s a) := by
  unfold State.tickStall
  repeat' with_reducible first
    | exact h
    | refine State.count_keeps ?_ (hl.of rfl)
    | apply keeps_foldl (fun _ _ h => ?_)

theorem State.tickIrq_keeps {K a} (h : Keeps K s0 s) (hl : Sub 8804682956800 K) :
    Keeps K s0 (State.tickIrq s a) := by
  unfold State.tickIrq
  repeat' with_reducible first
    | exact h
    | refine State.ringIrq_keeps ?_ (hl.of rfl)
    | apply keeps_foldl (fun _ _ h => ?_)

theorem State.tickRecords_keeps {K} (h : Keeps K s0 s) (hl : Sub 6660 K) :
    Keeps K s0 (State.tickRecords s) := by
  unfold State.tickRecords
  repeat' with_reducible first
    | exact h
    | refine State.drainRecords_keeps ?_ (hl.of rfl)
    | apply keeps_foldl (fun _ _ h => ?_)

theorem State.tickReserved_keeps {K} (h : Keeps K s0 s) (hl : Sub 26389352814020 K) :
    Keeps K s0 (State.tickReserved s) := by
  unfold State.tickReserved
  repeat' with_reducible first
    | exact h
    | refine State.instr_keeps ?_ ?_ (hl.of rfl)
    | refine State.hdlFault_keeps ?_ (hl.of rfl)
    | apply keeps_foldl (fun _ _ h => ?_)
    | intro _ h
    | assumption
    | split
    | dsimp only

theorem State.tickCore_keeps {K p} (h : Keeps K s0 s) (hl : Sub 26421967723972 K) :
    Keeps K s0 (State.tickCore s p) := by
  unfold State.tickCore
  repeat' with_reducible first
    | exact h
    | refine State.sweepOn_keeps ?_ (hl.of rfl)
    | refine State.updCore_keeps ?_ (hl.of rfl)
    | refine State.count_keeps ?_ (hl.of rfl)
    | assumption
    | split
    | dsimp only

theorem State.tickCores_keeps {K} (h : Keeps K s0 s) (hl : Sub 26421967723972 K) :
    Keeps K s0 (State.tickCores s) := by
  unfold State.tickCores
  repeat' with_reducible first
    | exact h
    | refine State.tickCore_keeps ?_ (hl.of rfl)
    | apply keeps_foldl (fun _ _ h => ?_)

theorem State.tickRq_keeps {K} (h : Keeps K s0 s) (hl : Sub 4 K) :
    Keeps K s0 (State.tickRq s) := by
  unfold State.tickRq
  repeat' with_reducible first
    | exact h
    | refine State.count_keeps ?_ (hl.of rfl)
    | apply keeps_foldl (fun _ _ h => ?_)
    | assumption
    | split

theorem State.tickPasses_keeps {K} (h : Keeps K s0 s) (hl : Sub 4 K) :
    Keeps K s0 (State.tickPasses s) := by
  unfold State.tickPasses
  repeat' with_reducible first
    | exact h
    | refine State.count_keeps ?_ (hl.of rfl)
    | apply keeps_foldl (fun _ _ h => ?_)
    | assumption
    | split

theorem State.tickPorts_keeps {K} (h : Keeps K s0 s) (hl : Sub 4 K) :
    Keeps K s0 (State.tickPorts s) := by
  unfold State.tickPorts
  repeat' with_reducible first
    | exact h
    | refine State.portCount_keeps ?_ (hl.of rfl)
    | refine State.take_keeps ?_ (by with_reducible assumption) (hl.of rfl)
    | apply keeps_foldl (fun _ _ h => ?_)
    | assumption
    | split
    | dsimp only

theorem State.tickClearings_keeps {K} (h : Keeps K s0 s) (hl : Sub 26456396660676 K) :
    Keeps K s0 (State.tickClearings s) := by
  unfold State.tickClearings
  repeat' with_reducible first
    | exact h
    | refine State.clearDue_keeps ?_ (hl.of rfl)
    | apply keeps_foldl (fun _ _ h => ?_)

theorem State.tickFlaws_keeps {K} (h : Keeps K s0 s) (hl : Sub 17592186044672 K) :
    Keeps K s0 (State.tickFlaws s) := by
  unfold State.tickFlaws
  repeat' first
    | with_reducible exact h
    | with_reducible refine State.freeNat_keeps ?_ (by with_reducible assumption) (hl.of rfl)
    | with_reducible assumption
    | with_reducible split
    | with_reducible dsimp only
    | with_reducible refine State.freeNat_keeps ?_ Prod.mk.eta.symm (hl.of rfl)
    | with_reducible refine Keeps.upd ?_ ?_
    | (intro f hf; cases f <;> first | exact absurd ((hl.mem _ rfl).symm.trans hf) Bool.noConfusion | exact rfl)

theorem State.tick_keeps {K} (h : Keeps K s0 s) (hl : Sub 26593835614148 K) :
    Keeps K s0 (State.tick s) := by
  unfold State.tick
  repeat' with_reducible first
    | exact h
    | refine State.tickFlaws_keeps ?_ (hl.of rfl)
    | refine State.tickClearings_keeps ?_ (hl.of rfl)
    | refine State.tickPorts_keeps ?_ (hl.of rfl)
    | refine State.tickPasses_keeps ?_ (hl.of rfl)
    | refine State.tickRq_keeps ?_ (hl.of rfl)
    | refine State.tickCores_keeps ?_ (hl.of rfl)
    | refine State.tickReserved_keeps ?_ (hl.of rfl)
    | refine State.tickRecords_keeps ?_ (hl.of rfl)
    | refine State.tickIrq_keeps ?_ (hl.of rfl)
    | refine State.tickStall_keeps ?_ (hl.of rfl)
    | refine State.tickPort_keeps ?_ (hl.of rfl)
    | refine State.tickSpine_keeps ?_ (hl.of rfl)
    | refine State.updTb_keeps ?_ (hl.of rfl)
    | refine State.count64_keeps ?_ (hl.of rfl)
    | apply keeps_foldl (fun _ _ h => ?_)
    | assumption
    | split

/-! ### Machine/Dispatch -/

theorem mask_1028 : mask [.regs, .cores] = 1028 := by decide
theorem mask_12 : mask [.regs, .heldBits] = 12 := by decide
theorem mask_134218756 : mask [.regs, .cores, .net] = 134218756 := by decide
theorem mask_134219776 : mask [.groves, .net] = 134219776 := by decide
theorem mask_134219780 : mask [.regs, .groves, .net] = 134219780 := by decide
theorem mask_137438953476 : mask [.regs, .tb] = 137438953476 := by decide
theorem mask_140509188 : mask [.regs, .refusals, .nacked, .net] = 140509188 := by decide
theorem mask_15394236537860 : mask [.regs, .cores, .groves, .parts, .sigs, .pwrStage, .pwrHeld, .out] = 15394236537860 := by decide
theorem mask_15402960687116 : mask [.regs, .heldBits, .parts, .net, .sigs, .atts, .pwrStage, .pwrHeld, .out] = 15402960687116 := by decide
theorem mask_15426851446020 : mask [.regs, .flaws, .cores, .groves, .parts, .net, .waiting, .sigs, .ctx, .ctxPoison, .atts, .ports, .pwrStage, .pwrHeld, .out] = 15426851446020 := by decide
theorem mask_15428596275204 : mask [.regs, .groves, .parts, .sigs, .forwards, .pwrStage, .pwrHeld, .out] = 15428596275204 := by decide
theorem mask_15428596334028 : mask [.regs, .heldBits, .mem, .poison, .flaws, .cores, .groves, .parts, .srcLive, .srcStaged, .srcChanged, .sigs, .forwards, .pwrStage, .pwrHeld, .out] = 15428596334028 := by decide
theorem mask_154618827780 : mask [.regs, .cores, .parts, .ports, .tb] = 154618827780 := by decide
theorem mask_15598784348108 : mask [.regs, .heldBits, .mem, .poison, .flaws, .hbm, .cores, .groves, .parts, .srcLive, .srcStaged, .srcChanged, .canLive, .canStaged, .canChanged, .detLive, .detChanged, .refusals, .nacked, .abandons, .resync, .linkDead, .excluded, .net, .waiting, .sigs, .ctx, .ctxPoison, .atts, .ports, .forwards, .tb, .pwrStage, .pwrHeld, .out] = 15598784348108 := by decide
theorem mask_15735821704492 : mask [.regs, .heldBits, .loPend, .flaws, .cores, .groves, .parts, .detChanged, .net, .sigs, .ctx, .ctxPoison, .atts, .ports, .forwards, .mgt, .pwrStage, .pwrHeld, .out] = 15735821704492 := by decide
theorem mask_16777216 : mask [.resync] = 16777216 := by decide
theorem mask_16938411498797 : mask [.fuses, .regs, .heldBits, .loPend, .flaws, .cores, .groves, .parts, .net, .sigs, .ctx, .ctxPoison, .atts, .ports, .tb, .mgt, .flash, .pwrStage, .pwrHeld, .out] = 16938411498797 := by decide
theorem mask_17179874308 : mask [.regs, .cores, .parts, .ports] = 17179874308 := by decide
theorem mask_17179874316 : mask [.regs, .heldBits, .cores, .parts, .ports] = 17179874316 := by decide
theorem mask_17179874340 : mask [.regs, .loPend, .cores, .parts, .ports] = 17179874340 := by decide
theorem mask_17488167312685 : mask [.fuses, .regs, .heldBits, .loPend, .flaws, .cores, .groves, .parts, .net, .sigs, .ctx, .ctxPoison, .atts, .ports, .tb, .mgt, .pins, .flash, .pwrStage, .pwrHeld, .out] = 17488167312685 := by decide
theorem mask_17522929696749 : mask [.fuses, .regs, .heldBits, .loPend, .mem, .poison, .flaws, .hbm, .cores, .groves, .parts, .srcLive, .srcStaged, .srcChanged, .canLive, .canStaged, .canChanged, .detLive, .detChanged, .refusals, .nacked, .abandons, .resync, .linkDead, .excluded, .net, .waiting, .sigs, .ctx, .ctxPoison, .atts, .ports, .forwards, .tb, .mgt, .pins, .flash, .pwrStage, .pwrHeld, .out] = 17522929696749 := by decide
theorem mask_18141941858310 : mask [.up, .regs, .pins, .free] = 18141941858310 := by decide
theorem mask_2052 : mask [.regs, .groves] = 2052 := by decide
theorem mask_26389352814020 : mask [.regs, .mem, .poison, .flaws, .cores, .parts, .sigs, .out, .free] = 26389352814020 := by decide
theorem mask_26389352816076 : mask [.regs, .heldBits, .mem, .poison, .flaws, .cores, .groves, .parts, .sigs, .out, .free] = 26389352816076 := by decide
theorem mask_26389487033796 : mask [.regs, .mem, .poison, .flaws, .cores, .groves, .parts, .net, .sigs, .out, .free] = 26389487033796 := by decide
theorem mask_26396869001216 : mask [.atts, .out, .free] = 26396869001216 := by decide
theorem mask_26411901387012 : mask [.regs, .flaws, .ctx, .ctxPoison, .ports, .out, .free] = 26411901387012 := by decide
theorem mask_26421699288836 : mask [.regs, .flaws, .hbm, .cores, .groves, .parts, .net, .sigs, .ctx, .ctxPoison, .atts, .ports, .out, .free] = 26421699288836 := by decide
theorem mask_26421967723972 : mask [.regs, .mem, .poison, .flaws, .cores, .groves, .parts, .net, .waiting, .sigs, .ctx, .ctxPoison, .atts, .ports, .out, .free] = 26421967723972 := by decide
theorem mask_26421968166340 : mask [.regs, .mem, .poison, .flaws, .cores, .groves, .parts, .srcStaged, .srcChanged, .canStaged, .canChanged, .net, .waiting, .sigs, .ctx, .ctxPoison, .atts, .ports, .out, .free] = 26421968166340 := by decide
theorem mask_26422504594884 : mask [.regs, .mem, .poison, .flaws, .cores, .groves, .parts, .net, .waiting, .epXout, .sigs, .ctx, .ctxPoison, .atts, .ports, .out, .free] = 26422504594884 := by decide
theorem mask_26456396660676 : mask [.regs, .mem, .poison, .flaws, .hbm, .cores, .groves, .parts, .srcLive, .srcStaged, .srcChanged, .canLive, .canStaged, .canChanged, .detLive, .detChanged, .excluded, .net, .waiting, .sigs, .ctx, .ctxPoison, .atts, .ports, .forwards, .out, .free] = 26456396660676 := by decide
theorem mask_26456933531588 : mask [.regs, .mem, .poison, .flaws, .hbm, .cores, .groves, .parts, .srcLive, .srcStaged, .srcChanged, .canLive, .canStaged, .canChanged, .detLive, .detChanged, .excluded, .net, .waiting, .epXout, .sigs, .ctx, .ctxPoison, .atts, .ports, .forwards, .out, .free] = 26456933531588 := by decide
theorem mask_26663156973568 : mask [.mgt, .out, .free] = 26663156973568 := by decide
theorem mask_26971455102732 : mask [.regs, .heldBits, .flaws, .hbm, .cores, .groves, .parts, .net, .sigs, .ctx, .ctxPoison, .atts, .ports, .pins, .out, .free] = 26971455102732 := by decide
theorem mask_274877906944 : mask [.mgt] = 274877906944 := by decide
theorem mask_2748779069444 : mask [.regs, .pins, .pwrStage] = 2748779069444 := by decide
theorem mask_275951648772 : mask [.regs, .sigs, .mgt] = 275951648772 := by decide
theorem mask_33019037490628 : mask [.regs, .mem, .poison, .flaws, .cores, .groves, .parts, .net, .waiting, .sigs, .ctx, .ctxPoison, .atts, .ports, .pwrStage, .pwrHeld, .out, .free] = 33019037490628 := by decide
theorem mask_33019037490948 : mask [.regs, .flaws, .hbm, .cores, .groves, .parts, .net, .waiting, .sigs, .ctx, .ctxPoison, .atts, .ports, .pwrStage, .pwrHeld, .out, .free] = 33019037490948 := by decide
theorem mask_33019037491140 : mask [.regs, .mem, .poison, .flaws, .hbm, .cores, .groves, .parts, .net, .waiting, .sigs, .ctx, .ctxPoison, .atts, .ports, .pwrStage, .pwrHeld, .out, .free] = 33019037491140 := by decide
theorem mask_35080353357101 : mask [.fuses, .regs, .heldBits, .loPend, .flaws, .cores, .groves, .parts, .net, .sigs, .ctx, .ctxPoison, .atts, .ports, .tb, .mgt, .pins, .flash, .pwrStage, .pwrHeld, .out, .free] = 35080353357101 := by decide
theorem mask_35184372088831 : mask [.fuses, .up, .regs, .heldBits, .hiLatch, .loPend, .mem, .poison, .flaws, .hbm, .cores, .groves, .parts, .srcLive, .srcStaged, .srcChanged, .canLive, .canStaged, .canChanged, .detLive, .detChanged, .refusals, .nacked, .abandons, .resync, .linkDead, .excluded, .net, .waiting, .epXout, .sigs, .ctx, .ctxPoison, .atts, .ports, .forwards, .ctxTold, .tb, .mgt, .pins, .flash, .pwrStage, .pwrHeld, .out, .free] = 35184372088831 := by decide
theorem mask_36 : mask [.regs, .loPend] = 36 := by decide
theorem mask_4 : mask [.regs] = 4 := by decide
theorem mask_4100 : mask [.regs, .parts] = 4100 := by decide
theorem mask_4108 : mask [.regs, .heldBits, .parts] = 4108 := by decide
theorem mask_5120 : mask [.cores, .parts] = 5120 := by decide
theorem mask_549755813888 : mask [.pins] = 549755813888 := by decide
theorem mask_6597069766660 : mask [.regs, .pwrStage, .pwrHeld] = 6597069766660 := by decide
theorem mask_8589934596 : mask [.regs, .atts] = 8589934596 := by decide
theorem mask_8589934604 : mask [.regs, .heldBits, .atts] = 8589934604 := by decide
theorem mask_8796093022208 : mask [.out] = 8796093022208 := by decide
theorem mask_8796093022228 : mask [.regs, .hiLatch, .out] = 8796093022228 := by decide
theorem mask_8797166768132 : mask [.regs, .parts, .sigs, .out] = 8797166768132 := by decide
theorem mask_8797166769156 : mask [.regs, .cores, .parts, .sigs, .out] = 8797166769156 := by decide
theorem mask_8797166771652 : mask [.regs, .mem, .poison, .flaws, .cores, .groves, .parts, .sigs, .out] = 8797166771652 := by decide
theorem mask_8805756702724 : mask [.regs, .parts, .sigs, .atts, .out] = 8805756702724 := by decide
theorem mask_8805756703748 : mask [.regs, .cores, .parts, .sigs, .atts, .out] = 8805756703748 := by decide
theorem mask_8805756705284 : mask [.regs, .hbm, .groves, .parts, .sigs, .atts, .out] = 8805756705284 := by decide
theorem mask_8805890920452 : mask [.regs, .parts, .net, .sigs, .atts, .out] = 8805890920452 := by decide
theorem mask_8805890920460 : mask [.regs, .heldBits, .parts, .net, .sigs, .atts, .out] = 8805890920460 := by decide
theorem mask_8805890921476 : mask [.regs, .cores, .parts, .net, .sigs, .atts, .out] = 8805890921476 := by decide
theorem mask_8810051670276 : mask [.regs, .flaws, .parts, .sigs, .ctxPoison, .atts, .out] = 8810051670276 := by decide
theorem mask_8812199153924 : mask [.regs, .flaws, .parts, .sigs, .ctx, .ctxPoison, .atts, .out] = 8812199153924 := by decide
theorem mask_8814346637316 : mask [.regs, .parts, .sigs, .ports, .out] = 8814346637316 := by decide
theorem mask_8820923306244 : mask [.regs, .flaws, .parts, .net, .sigs, .ctx, .ctxPoison, .ports, .out] = 8820923306244 := by decide
theorem mask_8829513243908 : mask [.regs, .flaws, .cores, .groves, .parts, .net, .sigs, .ctx, .ctxPoison, .atts, .ports, .out] = 8829513243908 := by decide
theorem mask_8829513244420 : mask [.regs, .flaws, .hbm, .cores, .groves, .parts, .net, .sigs, .ctx, .ctxPoison, .atts, .ports, .out] = 8829513244420 := by decide
theorem mask_8829578255620 : mask [.regs, .flaws, .cores, .groves, .parts, .refusals, .nacked, .abandons, .resync, .linkDead, .net, .sigs, .ctx, .ctxPoison, .atts, .ports, .out] = 8829578255620 := by decide
theorem mask_8829781679364 : mask [.regs, .flaws, .cores, .groves, .parts, .net, .waiting, .sigs, .ctx, .ctxPoison, .atts, .ports, .out] = 8829781679364 := by decide
theorem mask_8829781679556 : mask [.regs, .mem, .poison, .flaws, .cores, .groves, .parts, .net, .waiting, .sigs, .ctx, .ctxPoison, .atts, .ports, .out] = 8829781679556 := by decide
theorem mask_8830318550276 : mask [.regs, .flaws, .cores, .groves, .parts, .net, .waiting, .epXout, .sigs, .ctx, .ctxPoison, .atts, .ports, .out] = 8830318550276 := by decide
theorem mask_8899038027012 : mask [.regs, .flaws, .cores, .groves, .parts, .net, .waiting, .epXout, .sigs, .ctx, .ctxPoison, .atts, .ports, .ctxTold, .out] = 8899038027012 := by decide
theorem mask_8934605721604 : mask [.regs, .parts, .sigs, .tb, .out] = 8934605721604 := by decide
theorem mask_9036476980484 : mask [.regs, .flaws, .cores, .groves, .parts, .net, .waiting, .epXout, .sigs, .ctx, .ctxPoison, .atts, .ports, .ctxTold, .tb, .out] = 9036476980484 := by decide
theorem mask_9070970929152 : mask [.mgt, .out] = 9070970929152 := by decide
theorem mask_9070970929156 : mask [.regs, .mgt, .out] = 9070970929156 := by decide
theorem mask_9104391150860 : mask [.regs, .heldBits, .flaws, .cores, .groves, .parts, .net, .sigs, .ctx, .ctxPoison, .atts, .ports, .mgt, .out] = 9104391150860 := by decide
theorem mask_9355646734348 : mask [.regs, .heldBits, .parts, .net, .sigs, .atts, .pins, .out] = 9355646734348 := by decide

/-- A command touches at most the parts that the table names for it. -/
def Framed (i : Instr) : Prop := ∀ s0 s, Keeps (mask (touched i)) s0 s → OutKeeps (mask (touched i)) s0 (exec i s)

theorem framed_registerWrite {a0} {a1} {a2} : Framed (.registerWrite a0 a1 a2) := fun _ s h =>
  (show OutKeeps _ _ (execRegisterWrite a0 a1 a2 s) from execRegisterWrite_keeps h (Sub.same ((congrArg mask rfl).trans mask_15735821704492)))
theorem framed_reg64LoRead {a0} {a1} : Framed (.reg64LoRead a0 a1) := fun _ s h =>
  (show OutKeeps _ _ (execReg64LoRead a0 a1 s) from execReg64LoRead_keeps h (Sub.same ((congrArg mask rfl).trans mask_8796093022228)))
theorem framed_roleFenceWrite {a0} {a1} {a2} : Framed (.roleFenceWrite a0 a1 a2) := fun _ s h =>
  (show OutKeeps _ _ (execRoleFenceWrite a0 a1 a2 s) from execRoleFenceWrite_keeps h (Sub.same ((congrArg mask rfl).trans mask_15428596275204)))
theorem framed_groveFault {a0} {a1} : Framed (.groveFault a0 a1) := fun _ s h =>
  (show OutKeeps _ _ (execGroveFault a0 a1 s) from execGroveFault_keeps h (Sub.same ((congrArg mask rfl).trans mask_26421699288836)))
theorem framed_stepOpen {a0} : Framed (.stepOpen a0) := fun _ s h =>
  (show OutKeeps _ _ (execStepOpen a0 s) from execStepOpen_keeps h (Sub.same ((congrArg mask rfl).trans mask_8830318550276)))
theorem framed_stepOpenIndication {a0} {a1} {a2} {a3} : Framed (.stepOpenIndication a0 a1 a2 a3) := fun _ s h =>
  (show OutKeeps _ _ (execStepOpenIndication a0 a1 a2 a3 s) from execStepOpenIndication_keeps h (Sub.same ((congrArg mask rfl).trans mask_26421967723972)))
theorem framed_integrationSpanEnd {a0} : Framed (.integrationSpanEnd a0) := fun _ s h =>
  (show OutKeeps _ _ (execIntegrationSpanEnd a0 s) from execIntegrationSpanEnd_keeps h (Sub.same ((congrArg mask rfl).trans mask_33019037490628)))
theorem framed_deferredDeposit {a0} : Framed (.deferredDeposit a0) := fun _ s h =>
  (show OutKeeps _ _ (execDeferredDeposit a0 s) from execDeferredDeposit_keeps h (Sub.same ((congrArg mask rfl).trans mask_26389352814020)))
theorem framed_coreClockGate {a0} : Framed (.coreClockGate a0) := fun _ s h =>
  (show OutKeeps _ _ (execCoreClockGate a0 s) from execCoreClockGate_keeps h (Sub.same ((congrArg mask rfl).trans mask_1028)))
theorem framed_coreWake {a0} {a1} : Framed (.coreWake a0 a1) := fun _ s h =>
  (show OutKeeps _ _ (execCoreWake a0 a1 s) from execCoreWake_keeps h (Sub.same ((congrArg mask rfl).trans mask_1028)))
theorem framed_synEventTake {a0} {a1} {a2} : Framed (.synEventTake a0 a1 a2) := fun _ s h =>
  (show OutKeeps _ _ (execSynEventTake a0 a1 a2 s) from execSynEventTake_keeps h (Sub.same ((congrArg mask rfl).trans mask_26421967723972)))
theorem framed_rowRequest {a0} : Framed (.rowRequest a0) := fun _ s h =>
  (show OutKeeps _ _ (execRowRequest a0 s) from execRowRequest_keeps h (Sub.same ((congrArg mask rfl).trans mask_134219780)))
theorem framed_rowHeader {a0} : Framed (.rowHeader a0) := fun _ s h =>
  (show OutKeeps _ _ (execRowHeader a0 s) from execRowHeader_keeps h (Sub.same ((congrArg mask rfl).trans mask_134218756)))
theorem framed_block {a0} {a1} {a2} : Framed (.block a0 a1 a2) := fun _ s h =>
  (show OutKeeps _ _ (execBlock a0 a1 a2 s) from execBlock_keeps h (Sub.same ((congrArg mask rfl).trans mask_26389487033796)))
theorem framed_hbmReadReturn {a0} {a1} {a2} {a3} {a4} {a5} : Framed (.hbmReadReturn a0 a1 a2 a3 a4 a5) := fun _ s h =>
  (show OutKeeps _ _ (execHbmReadReturn a0 a1 a2 a3 a4 a5 s) from execHbmReadReturn_keeps h (Sub.same ((congrArg mask rfl).trans mask_8829513244420)))
theorem framed_hbmTrainingLost {a0} {a1} : Framed (.hbmTrainingLost a0 a1) := fun _ s h =>
  (show OutKeeps _ _ (execHbmTrainingLost a0 a1 s) from execHbmTrainingLost_keeps h (Sub.same ((congrArg mask rfl).trans mask_8829513243908)))
theorem framed_denseColumnBlockDone {a0} {a1} : Framed (.denseColumnBlockDone a0 a1) := fun _ s h =>
  (show OutKeeps _ _ (execDenseColumnBlockDone a0 a1 s) from execDenseColumnBlockDone_keeps h (Sub.same ((congrArg mask rfl).trans mask_26421967723972)))
theorem framed_denseOpDone {a0} : Framed (.denseOpDone a0) := fun _ s h =>
  (show OutKeeps _ _ (execDenseOpDone a0 s) from execDenseOpDone_keeps h (Sub.same ((congrArg mask rfl).trans mask_8805756703748)))
theorem framed_canopyPacketArrive {a0} : Framed (.canopyPacketArrive a0) := fun _ s h =>
  (show OutKeeps _ _ (execCanopyPacketArrive a0 s) from execCanopyPacketArrive_keeps h (Sub.same ((congrArg mask rfl).trans mask_8829781679364)))
theorem framed_stopReceiveCopy {a0} : Framed (.stopReceiveCopy a0) := fun _ s h =>
  (show OutKeeps _ _ (execStopReceiveCopy a0 s) from execStopReceiveCopy_keeps h (Sub.same ((congrArg mask rfl).trans mask_8829513243908)))
theorem framed_linkFlitReceive {a0} {a1} {a2} : Framed (.linkFlitReceive a0 a1 a2) := fun _ s h =>
  (show OutKeeps _ _ (execLinkFlitReceive a0 a1 a2 s) from execLinkFlitReceive_keeps h (Sub.same ((congrArg mask rfl).trans mask_140509188)))
theorem framed_linkNack {a0} {a1} {a2} : Framed (.linkNack a0 a1 a2) := fun _ s h =>
  (show OutKeeps _ _ (execLinkNack a0 a1 a2 s) from execLinkNack_keeps h (Sub.same ((congrArg mask rfl).trans mask_8829578255620)))
theorem framed_linkResyncDone {a0} {a1} : Framed (.linkResyncDone a0 a1) := fun _ s h =>
  (show OutKeeps _ _ (execLinkResyncDone a0 a1 s) from execLinkResyncDone_keeps h (Sub.same ((congrArg mask rfl).trans mask_16777216)))
theorem framed_routerFault {a0} : Framed (.routerFault a0) := fun _ s h =>
  (show OutKeeps _ _ (execRouterFault a0 s) from execRouterFault_keeps h (Sub.same ((congrArg mask rfl).trans mask_26421699288836)))
theorem framed_routerReset {a0} {a1} {a2} : Framed (.routerReset a0 a1 a2) := fun _ s h =>
  (show OutKeeps _ _ (execRouterReset a0 a1 a2 s) from execRouterReset_keeps h (Sub.same ((congrArg mask rfl).trans mask_12)))
theorem framed_routerResetDone {a0} : Framed (.routerResetDone a0) := fun _ s h =>
  (show OutKeeps _ _ (execRouterResetDone a0 s) from execRouterResetDone_keeps h (Sub.same ((congrArg mask rfl).trans mask_8829513243908)))
theorem framed_clearingStart {a0} {a1} : Framed (.clearingStart a0 a1) := fun _ s h =>
  (show OutKeeps _ _ (execClearingStart a0 a1 s) from execClearingStart_keeps h (Sub.same ((congrArg mask rfl).trans mask_4100)))
theorem framed_clearingRun {a0} : Framed (.clearingRun a0) := fun _ s h =>
  (show OutKeeps _ _ (execClearingRun a0 s) from execClearingRun_keeps h (Sub.same ((congrArg mask rfl).trans mask_4100)))
theorem framed_clearingSwap {a0} : Framed (.clearingSwap a0) := fun _ s h =>
  (show OutKeeps _ _ (execClearingSwap a0 s) from execClearingSwap_keeps h (Sub.same ((congrArg mask rfl).trans mask_26456396660676)))
theorem framed_clearingTimeout {a0} : Framed (.clearingTimeout a0) := fun _ s h =>
  (show OutKeeps _ _ (execClearingTimeout a0 s) from execClearingTimeout_keeps h (Sub.same ((congrArg mask rfl).trans mask_26421967723972)))
theorem framed_deliveryEvaluate {a0} : Framed (.deliveryEvaluate a0) := fun _ s h =>
  (show OutKeeps _ _ (execDeliveryEvaluate a0 s) from execDeliveryEvaluate_keeps h (Sub.same ((congrArg mask rfl).trans mask_8829781679364)))
theorem framed_msg {a0} : Framed (.msg a0) := fun _ s h =>
  (show OutKeeps _ _ (execMsg a0 s) from execMsg_keeps h (Sub.same ((congrArg mask rfl).trans mask_134218756)))
theorem framed_notify {a0} : Framed (.notify a0) := fun _ s h =>
  (show OutKeeps _ _ (execNotify a0 s) from execNotify_keeps h (Sub.same ((congrArg mask rfl).trans mask_134218756)))
theorem framed_amArgs {a0} : Framed (.amArgs a0) := fun _ s h =>
  (show OutKeeps _ _ (execAmArgs a0 s) from execAmArgs_keeps h (Sub.same ((congrArg mask rfl).trans mask_134218756)))
theorem framed_response {a0} : Framed (.response a0) := fun _ s h =>
  (show OutKeeps _ _ (execResponse a0 s) from execResponse_keeps h (Sub.same ((congrArg mask rfl).trans mask_8805890921476)))
theorem framed_syncReply {a0} : Framed (.syncReply a0) := fun _ s h =>
  (show OutKeeps _ _ (execSyncReply a0 s) from execSyncReply_keeps h (Sub.same ((congrArg mask rfl).trans mask_134218756)))
theorem framed_responseSend {a0} : Framed (.responseSend a0) := fun _ s h =>
  (show OutKeeps _ _ (execResponseSend a0 s) from execResponseSend_keeps h (Sub.same ((congrArg mask rfl).trans mask_8829781679364)))
theorem framed_handlerDispatch {a0} : Framed (.handlerDispatch a0) := fun _ s h =>
  (show OutKeeps _ _ (execHandlerDispatch a0 s) from execHandlerDispatch_keeps h (Sub.same ((congrArg mask rfl).trans mask_1028)))
theorem framed_ret {a0} {a1} : Framed (.ret a0 a1) := fun _ s h =>
  (show OutKeeps _ _ (execRet a0 a1 s) from execRet_keeps h (Sub.same ((congrArg mask rfl).trans mask_26389352814020)))
theorem framed_add {a0} {a1} {a2} {a3} {a4} : Framed (.add a0 a1 a2 a3 a4) := fun _ s h =>
  (show OutKeeps _ _ (execAdd a0 a1 a2 a3 a4 s) from execAdd_keeps h (Sub.same ((congrArg mask rfl).trans mask_26389352814020)))
theorem framed_sub {a0} {a1} {a2} {a3} {a4} : Framed (.sub a0 a1 a2 a3 a4) := fun _ s h =>
  (show OutKeeps _ _ (execSub a0 a1 a2 a3 a4 s) from execSub_keeps h (Sub.same ((congrArg mask rfl).trans mask_26389352814020)))
theorem framed_and {a0} {a1} {a2} {a3} {a4} : Framed (.and a0 a1 a2 a3 a4) := fun _ s h =>
  (show OutKeeps _ _ (execAnd a0 a1 a2 a3 a4 s) from execAnd_keeps h (Sub.same ((congrArg mask rfl).trans mask_26389352814020)))
theorem framed_or {a0} {a1} {a2} {a3} {a4} : Framed (.or a0 a1 a2 a3 a4) := fun _ s h =>
  (show OutKeeps _ _ (execOr a0 a1 a2 a3 a4 s) from execOr_keeps h (Sub.same ((congrArg mask rfl).trans mask_26389352814020)))
theorem framed_xor {a0} {a1} {a2} {a3} {a4} : Framed (.xor a0 a1 a2 a3 a4) := fun _ s h =>
  (show OutKeeps _ _ (execXor a0 a1 a2 a3 a4 s) from execXor_keeps h (Sub.same ((congrArg mask rfl).trans mask_26389352814020)))
theorem framed_shl {a0} {a1} {a2} {a3} {a4} : Framed (.shl a0 a1 a2 a3 a4) := fun _ s h =>
  (show OutKeeps _ _ (execShl a0 a1 a2 a3 a4 s) from execShl_keeps h (Sub.same ((congrArg mask rfl).trans mask_26389352814020)))
theorem framed_shr {a0} {a1} {a2} {a3} {a4} : Framed (.shr a0 a1 a2 a3 a4) := fun _ s h =>
  (show OutKeeps _ _ (execShr a0 a1 a2 a3 a4 s) from execShr_keeps h (Sub.same ((congrArg mask rfl).trans mask_26389352814020)))
theorem framed_sar {a0} {a1} {a2} {a3} {a4} : Framed (.sar a0 a1 a2 a3 a4) := fun _ s h =>
  (show OutKeeps _ _ (execSar a0 a1 a2 a3 a4 s) from execSar_keeps h (Sub.same ((congrArg mask rfl).trans mask_26389352814020)))
theorem framed_slt {a0} {a1} {a2} {a3} {a4} : Framed (.slt a0 a1 a2 a3 a4) := fun _ s h =>
  (show OutKeeps _ _ (execSlt a0 a1 a2 a3 a4 s) from execSlt_keeps h (Sub.same ((congrArg mask rfl).trans mask_26389352814020)))
theorem framed_mul {a0} {a1} {a2} {a3} {a4} : Framed (.mul a0 a1 a2 a3 a4) := fun _ s h =>
  (show OutKeeps _ _ (execMul a0 a1 a2 a3 a4 s) from execMul_keeps h (Sub.same ((congrArg mask rfl).trans mask_26389352814020)))
theorem framed_addi {a0} {a1} {a2} {a3} : Framed (.addi a0 a1 a2 a3) := fun _ s h =>
  (show OutKeeps _ _ (execAddi a0 a1 a2 a3 s) from execAddi_keeps h (Sub.same ((congrArg mask rfl).trans mask_26389352814020)))
theorem framed_andi {a0} {a1} {a2} {a3} : Framed (.andi a0 a1 a2 a3) := fun _ s h =>
  (show OutKeeps _ _ (execAndi a0 a1 a2 a3 s) from execAndi_keeps h (Sub.same ((congrArg mask rfl).trans mask_26389352814020)))
theorem framed_ori {a0} {a1} {a2} {a3} : Framed (.ori a0 a1 a2 a3) := fun _ s h =>
  (show OutKeeps _ _ (execOri a0 a1 a2 a3 s) from execOri_keeps h (Sub.same ((congrArg mask rfl).trans mask_26389352814020)))
theorem framed_lui {a0} {a1} {a2} {a3} : Framed (.lui a0 a1 a2 a3) := fun _ s h =>
  (show OutKeeps _ _ (execLui a0 a1 a2 a3 s) from execLui_keeps h (Sub.same ((congrArg mask rfl).trans mask_26389352814020)))
theorem framed_ld {a0} {a1} {a2} {a3} : Framed (.ld a0 a1 a2 a3) := fun _ s h =>
  (show OutKeeps _ _ (execLd a0 a1 a2 a3 s) from execLd_keeps h (Sub.same ((congrArg mask rfl).trans mask_26389352814020)))
theorem framed_st {a0} {a1} {a2} {a3} : Framed (.st a0 a1 a2 a3) := fun _ s h =>
  (show OutKeeps _ _ (execSt a0 a1 a2 a3 s) from execSt_keeps h (Sub.same ((congrArg mask rfl).trans mask_26389352814020)))
theorem framed_ldb {a0} {a1} {a2} {a3} : Framed (.ldb a0 a1 a2 a3) := fun _ s h =>
  (show OutKeeps _ _ (execLdb a0 a1 a2 a3 s) from execLdb_keeps h (Sub.same ((congrArg mask rfl).trans mask_26389352814020)))
theorem framed_stb {a0} {a1} {a2} {a3} : Framed (.stb a0 a1 a2 a3) := fun _ s h =>
  (show OutKeeps _ _ (execStb a0 a1 a2 a3 s) from execStb_keeps h (Sub.same ((congrArg mask rfl).trans mask_26389352814020)))
theorem framed_nrd {a0} {a1} {a2} {a3} : Framed (.nrd a0 a1 a2 a3) := fun _ s h =>
  (show OutKeeps _ _ (execNrd a0 a1 a2 a3 s) from execNrd_keeps h (Sub.same ((congrArg mask rfl).trans mask_26389352814020)))
theorem framed_sys {a0} {a1} {a2} {a3} : Framed (.sys a0 a1 a2 a3) := fun _ s h =>
  (show OutKeeps _ _ (execSys a0 a1 a2 a3 s) from execSys_keeps h (Sub.same ((congrArg mask rfl).trans mask_26389352814020)))
theorem framed_emit {a0} {a1} {a2} {a3} {a4} : Framed (.emit a0 a1 a2 a3 a4) := fun _ s h =>
  (show OutKeeps _ _ (execEmit a0 a1 a2 a3 a4 s) from execEmit_keeps h (Sub.same ((congrArg mask rfl).trans mask_26421967723972)))
theorem framed_dense {a0} {a1} {a2} {a3} {a4} : Framed (.dense a0 a1 a2 a3 a4) := fun _ s h =>
  (show OutKeeps _ _ (execDense a0 a1 a2 a3 a4 s) from execDense_keeps h (Sub.same ((congrArg mask rfl).trans mask_26389352814020)))
theorem framed_send {a0} {a1} {a2} {a3} {a4} : Framed (.send a0 a1 a2 a3 a4) := fun _ s h =>
  (show OutKeeps _ _ (execSend a0 a1 a2 a3 a4 s) from execSend_keeps h (Sub.same ((congrArg mask rfl).trans mask_26421967723972)))
theorem framed_sendw {a0} {a1} {a2} {a3} {a4} : Framed (.sendw a0 a1 a2 a3 a4) := fun _ s h =>
  (show OutKeeps _ _ (execSendw a0 a1 a2 a3 a4 s) from execSendw_keeps h (Sub.same ((congrArg mask rfl).trans mask_26421967723972)))
theorem framed_waitq {a0} {a1} {a2} {a3} : Framed (.waitq a0 a1 a2 a3) := fun _ s h =>
  (show OutKeeps _ _ (execWaitq a0 a1 a2 a3 s) from execWaitq_keeps h (Sub.same ((congrArg mask rfl).trans mask_26389352814020)))
theorem framed_sadd {a0} {a1} {a2} {a3} {a4} : Framed (.sadd a0 a1 a2 a3 a4) := fun _ s h =>
  (show OutKeeps _ _ (execSadd a0 a1 a2 a3 a4 s) from execSadd_keeps h (Sub.same ((congrArg mask rfl).trans mask_26421967723972)))
theorem framed_swait {a0} {a1} {a2} {a3} {a4} : Framed (.swait a0 a1 a2 a3 a4) := fun _ s h =>
  (show OutKeeps _ _ (execSwait a0 a1 a2 a3 a4 s) from execSwait_keeps h (Sub.same ((congrArg mask rfl).trans mask_26421967723972)))
theorem framed_sread {a0} {a1} {a2} {a3} {a4} : Framed (.sread a0 a1 a2 a3 a4) := fun _ s h =>
  (show OutKeeps _ _ (execSread a0 a1 a2 a3 a4 s) from execSread_keeps h (Sub.same ((congrArg mask rfl).trans mask_26421967723972)))
theorem framed_beq {a0} {a1} {a2} {a3} : Framed (.beq a0 a1 a2 a3) := fun _ s h =>
  (show OutKeeps _ _ (execBeq a0 a1 a2 a3 s) from execBeq_keeps h (Sub.same ((congrArg mask rfl).trans mask_26389352814020)))
theorem framed_bne {a0} {a1} {a2} {a3} : Framed (.bne a0 a1 a2 a3) := fun _ s h =>
  (show OutKeeps _ _ (execBne a0 a1 a2 a3 s) from execBne_keeps h (Sub.same ((congrArg mask rfl).trans mask_26389352814020)))
theorem framed_blt {a0} {a1} {a2} {a3} : Framed (.blt a0 a1 a2 a3) := fun _ s h =>
  (show OutKeeps _ _ (execBlt a0 a1 a2 a3 s) from execBlt_keeps h (Sub.same ((congrArg mask rfl).trans mask_26389352814020)))
theorem framed_bge {a0} {a1} {a2} {a3} : Framed (.bge a0 a1 a2 a3) := fun _ s h =>
  (show OutKeeps _ _ (execBge a0 a1 a2 a3 s) from execBge_keeps h (Sub.same ((congrArg mask rfl).trans mask_26389352814020)))
theorem framed_j {a0} {a1} : Framed (.j a0 a1) := fun _ s h =>
  (show OutKeeps _ _ (execJ a0 a1 s) from execJ_keeps h (Sub.same ((congrArg mask rfl).trans mask_26389352814020)))
theorem framed_handlerBudgetExpire {a0} : Framed (.handlerBudgetExpire a0) := fun _ s h =>
  (show OutKeeps _ _ (execHandlerBudgetExpire a0 s) from execHandlerBudgetExpire_keeps h (Sub.same ((congrArg mask rfl).trans mask_8797166769156)))
theorem framed_sendResponseTimeout {a0} : Framed (.sendResponseTimeout a0) := fun _ s h =>
  (show OutKeeps _ _ (execSendResponseTimeout a0 s) from execSendResponseTimeout_keeps h (Sub.same ((congrArg mask rfl).trans mask_1028)))
theorem framed_sendwRetryGap {a0} : Framed (.sendwRetryGap a0) := fun _ s h =>
  (show OutKeeps _ _ (execSendwRetryGap a0 s) from execSendwRetryGap_keeps h (Sub.same ((congrArg mask rfl).trans mask_8829781679364)))
theorem framed_waitqTimeout {a0} : Framed (.waitqTimeout a0) := fun _ s h =>
  (show OutKeeps _ _ (execWaitqTimeout a0 s) from execWaitqTimeout_keeps h (Sub.same ((congrArg mask rfl).trans mask_1028)))
theorem framed_syncAdd {a0} : Framed (.syncAdd a0) := fun _ s h =>
  (show OutKeeps _ _ (execSyncAdd a0 s) from execSyncAdd_keeps h (Sub.same ((congrArg mask rfl).trans mask_8829781679364)))
theorem framed_syncWait {a0} : Framed (.syncWait a0) := fun _ s h =>
  (show OutKeeps _ _ (execSyncWait a0 s) from execSyncWait_keeps h (Sub.same ((congrArg mask rfl).trans mask_8829781679364)))
theorem framed_syncRead {a0} : Framed (.syncRead a0) := fun _ s h =>
  (show OutKeeps _ _ (execSyncRead a0 s) from execSyncRead_keeps h (Sub.same ((congrArg mask rfl).trans mask_8829781679364)))
theorem framed_syncNotifyIssue {a0} : Framed (.syncNotifyIssue a0) := fun _ s h =>
  (show OutKeeps _ _ (execSyncNotifyIssue a0 s) from execSyncNotifyIssue_keeps h (Sub.same ((congrArg mask rfl).trans mask_8829781679364)))
theorem framed_hostSyncAdd {a0} {a1} {a2} {a3} : Framed (.hostSyncAdd a0 a1 a2 a3) := fun _ s h =>
  (show OutKeeps _ _ (execHostSyncAdd a0 a1 a2 a3 s) from execHostSyncAdd_keeps h (Sub.same ((congrArg mask rfl).trans mask_2052)))
theorem framed_bar2SyncWrite {a0} {a1} {a2} {a3} {a4} : Framed (.bar2SyncWrite a0 a1 a2 a3 a4) := fun _ s h =>
  (show OutKeeps _ _ (execBar2SyncWrite a0 a1 a2 a3 a4 s) from execBar2SyncWrite_keeps h (Sub.same ((congrArg mask rfl).trans mask_2052)))
theorem framed_encCount {a0} : Framed (.encCount a0) := fun _ s h =>
  (show OutKeeps _ _ (execEncCount a0 s) from execEncCount_keeps h (Sub.same ((congrArg mask rfl).trans mask_154618827780)))
theorem framed_lineEdge : Framed (.lineEdge) := fun _ s h =>
  (show OutKeeps _ _ (execLineEdge s) from execLineEdge_keeps h (Sub.same ((congrArg mask rfl).trans mask_154618827780)))
theorem framed_mainsZeroCross : Framed (.mainsZeroCross) := fun _ s h =>
  (show OutKeeps _ _ (execMainsZeroCross s) from execMainsZeroCross_keeps h (Sub.same ((congrArg mask rfl).trans mask_137438953476)))
theorem framed_mainsTick : Framed (.mainsTick) := fun _ s h =>
  (show OutKeeps _ _ (execMainsTick s) from execMainsTick_keeps h (Sub.same ((congrArg mask rfl).trans mask_154618827780)))
theorem framed_ptpFollowTick : Framed (.ptpFollowTick) := fun _ s h =>
  (show OutKeeps _ _ (execPtpFollowTick s) from execPtpFollowTick_keeps h (Sub.same ((congrArg mask rfl).trans mask_154618827780)))
theorem framed_intTick : Framed (.intTick) := fun _ s h =>
  (show OutKeeps _ _ (execIntTick s) from execIntTick_keeps h (Sub.same ((congrArg mask rfl).trans mask_154618827780)))
theorem framed_phaseLost : Framed (.phaseLost) := fun _ s h =>
  (show OutKeeps _ _ (execPhaseLost s) from execPhaseLost_keeps h (Sub.same ((congrArg mask rfl).trans mask_8934605721604)))
theorem framed_sourceAutoReturn : Framed (.sourceAutoReturn) := fun _ s h =>
  (show OutKeeps _ _ (execSourceAutoReturn s) from execSourceAutoReturn_keeps h (Sub.same ((congrArg mask rfl).trans mask_137438953476)))
theorem framed_pinStamp {a0} {a1} : Framed (.pinStamp a0 a1) := fun _ s h =>
  (show OutKeeps _ _ (execPinStamp a0 a1 s) from execPinStamp_keeps h (Sub.same ((congrArg mask rfl).trans mask_137438953476)))
theorem framed_stampDeliver {a0} : Framed (.stampDeliver a0) := fun _ s h =>
  (show OutKeeps _ _ (execStampDeliver a0 s) from execStampDeliver_keeps h (Sub.same ((congrArg mask rfl).trans mask_9036476980484)))
theorem framed_channelFire {a0} : Framed (.channelFire a0) := fun _ s h =>
  (show OutKeeps _ _ (execChannelFire a0 s) from execChannelFire_keeps h (Sub.same ((congrArg mask rfl).trans mask_17179874308)))
theorem framed_channelArm {a0} {a1} {a2} : Framed (.channelArm a0 a1 a2) := fun _ s h =>
  (show OutKeeps _ _ (execChannelArm a0 a1 a2 s) from execChannelArm_keeps h (Sub.same ((congrArg mask rfl).trans mask_17179874316)))
theorem framed_channelDisarm {a0} {a1} {a2} : Framed (.channelDisarm a0 a1 a2) := fun _ s h =>
  (show OutKeeps _ _ (execChannelDisarm a0 a1 a2 s) from execChannelDisarm_keeps h (Sub.same ((congrArg mask rfl).trans mask_17179874316)))
theorem framed_compareWrite {a0} {a1} {a2} : Framed (.compareWrite a0 a1 a2) := fun _ s h =>
  (show OutKeeps _ _ (execCompareWrite a0 a1 a2 s) from execCompareWrite_keeps h (Sub.same ((congrArg mask rfl).trans mask_17179874340)))
theorem framed_intervalWrite {a0} {a1} {a2} : Framed (.intervalWrite a0 a1 a2) := fun _ s h =>
  (show OutKeeps _ _ (execIntervalWrite a0 a1 a2 s) from execIntervalWrite_keeps h (Sub.same ((congrArg mask rfl).trans mask_17179874308)))
theorem framed_groupStart {a0} {a1} : Framed (.groupStart a0 a1) := fun _ s h =>
  (show OutKeeps _ _ (execGroupStart a0 a1 s) from execGroupStart_keeps h (Sub.same ((congrArg mask rfl).trans mask_15735821704492)))
theorem framed_sequencerFire {a0} : Framed (.sequencerFire a0) := fun _ s h =>
  (show OutKeeps _ _ (execSequencerFire a0 s) from execSequencerFire_keeps h (Sub.same ((congrArg mask rfl).trans mask_26422504594884)))
theorem framed_stretchLimit {a0} : Framed (.stretchLimit a0) := fun _ s h =>
  (show OutKeeps _ _ (execStretchLimit a0 s) from execStretchLimit_keeps h (Sub.same ((congrArg mask rfl).trans mask_8829513243908)))
theorem framed_lastInjectionDeclare {a0} : Framed (.lastInjectionDeclare a0) := fun _ s h =>
  (show OutKeeps _ _ (execLastInjectionDeclare a0 s) from execLastInjectionDeclare_keeps h (Sub.same ((congrArg mask rfl).trans mask_5120)))
theorem framed_round {a0} : Framed (.round a0) := fun _ s h =>
  (show OutKeeps _ _ (execRound a0 s) from execRound_keeps h (Sub.same ((congrArg mask rfl).trans mask_26421967723972)))
theorem framed_checkReport {a0} : Framed (.checkReport a0) := fun _ s h =>
  (show OutKeeps _ _ (execCheckReport a0 s) from execCheckReport_keeps h (Sub.same ((congrArg mask rfl).trans mask_134219776)))
theorem framed_groveVerdict {a0} : Framed (.groveVerdict a0) := fun _ s h =>
  (show OutKeeps _ _ (execGroveVerdict a0 s) from execGroveVerdict_keeps h (Sub.same ((congrArg mask rfl).trans mask_15426851446020)))
theorem framed_shadowCopy {a0} {a1} : Framed (.shadowCopy a0 a1) := fun _ s h =>
  (show OutKeeps _ _ (execShadowCopy a0 a1 s) from execShadowCopy_keeps h (Sub.same ((congrArg mask rfl).trans mask_8829781679556)))
theorem framed_replayCopyDone {a0} {a1} {a2} {a3} : Framed (.replayCopyDone a0 a1 a2 a3) := fun _ s h =>
  (show OutKeeps _ _ (execReplayCopyDone a0 a1 a2 a3 s) from execReplayCopyDone_keeps h (Sub.same ((congrArg mask rfl).trans mask_26389352816076)))
theorem framed_replayDone {a0} : Framed (.replayDone a0) := fun _ s h =>
  (show OutKeeps _ _ (execReplayDone a0 s) from execReplayDone_keeps h (Sub.same ((congrArg mask rfl).trans mask_33019037490628)))
theorem framed_twinRepairDone {a0} : Framed (.twinRepairDone a0) := fun _ s h =>
  (show OutKeeps _ _ (execTwinRepairDone a0 s) from execTwinRepairDone_keeps h (Sub.same ((congrArg mask rfl).trans mask_8829781679556)))
theorem framed_partitionCommit {a0} : Framed (.partitionCommit a0) := fun _ s h =>
  (show OutKeeps _ _ (execPartitionCommit a0 s) from execPartitionCommit_keeps h (Sub.same ((congrArg mask rfl).trans mask_33019037491140)))
theorem framed_fenceMigrationDone {a0} : Framed (.fenceMigrationDone a0) := fun _ s h =>
  (show OutKeeps _ _ (execFenceMigrationDone a0 s) from execFenceMigrationDone_keeps h (Sub.same ((congrArg mask rfl).trans mask_15428596334028)))
theorem framed_plsPassDone {a0} {a1} : Framed (.plsPassDone a0 a1) := fun _ s h =>
  (show OutKeeps _ _ (execPlsPassDone a0 a1 s) from execPlsPassDone_keeps h (Sub.same ((congrArg mask rfl).trans mask_8829513244420)))
theorem framed_applyStart {a0} : Framed (.applyStart a0) := fun _ s h =>
  (show OutKeeps _ _ (execApplyStart a0 s) from execApplyStart_keeps h (Sub.same ((congrArg mask rfl).trans mask_8829513243908)))
theorem framed_applyDone {a0} {a1} : Framed (.applyDone a0 a1) := fun _ s h =>
  (show OutKeeps _ _ (execApplyDone a0 a1 s) from execApplyDone_keeps h (Sub.same ((congrArg mask rfl).trans mask_8829513244420)))
theorem framed_endEpoch {a0} {a1} {a2} : Framed (.endEpoch a0 a1 a2) := fun _ s h =>
  (show OutKeeps _ _ (execEndEpoch a0 a1 a2 s) from execEndEpoch_keeps h (Sub.same ((congrArg mask rfl).trans mask_4108)))
theorem framed_scrub {a0} {a1} : Framed (.scrub a0 a1) := fun _ s h =>
  (show OutKeeps _ _ (execScrub a0 a1 s) from execScrub_keeps h (Sub.same ((congrArg mask rfl).trans mask_26389352814020)))
theorem framed_cfgDigestPass {a0} : Framed (.cfgDigestPass a0) := fun _ s h =>
  (show OutKeeps _ _ (execCfgDigestPass a0 s) from execCfgDigestPass_keeps h (Sub.same ((congrArg mask rfl).trans mask_8797166768132)))
theorem framed_testDue {a0} : Framed (.testDue a0) := fun _ s h =>
  (show OutKeeps _ _ (execTestDue a0 s) from execTestDue_keeps h (Sub.same ((congrArg mask rfl).trans mask_15394236537860)))
theorem framed_testMigrate {a0} : Framed (.testMigrate a0) := fun _ s h =>
  (show OutKeeps _ _ (execTestMigrate a0 s) from execTestMigrate_keeps h (Sub.same ((congrArg mask rfl).trans mask_15428596334028)))
theorem framed_testDeferExpire {a0} : Framed (.testDeferExpire a0) := fun _ s h =>
  (show OutKeeps _ _ (execTestDeferExpire a0 s) from execTestDeferExpire_keeps h (Sub.same ((congrArg mask rfl).trans mask_4)))
theorem framed_testDone {a0} {a1} {a2} : Framed (.testDone a0 a1 a2) := fun _ s h =>
  (show OutKeeps _ _ (execTestDone a0 a1 a2 s) from execTestDone_keeps h (Sub.same ((congrArg mask rfl).trans mask_8797166771652)))
theorem framed_functionLevelReset {a0} : Framed (.functionLevelReset a0) := fun _ s h =>
  (show OutKeeps _ _ (execFunctionLevelReset a0 s) from execFunctionLevelReset_keeps h (Sub.same ((congrArg mask rfl).trans mask_8805890920460)))
theorem framed_pcieLinkLoss {a0} : Framed (.pcieLinkLoss a0) := fun _ s h =>
  (show OutKeeps _ _ (execPcieLinkLoss a0 s) from execPcieLinkLoss_keeps h (Sub.same ((congrArg mask rfl).trans mask_8805890920460)))
theorem framed_perstChange {a0} {a1} : Framed (.perstChange a0 a1) := fun _ s h =>
  (show OutKeeps _ _ (execPerstChange a0 a1 s) from execPerstChange_keeps h (Sub.same ((congrArg mask rfl).trans mask_9355646734348)))
theorem framed_configRequest {a0} {a1} : Framed (.configRequest a0 a1) := fun _ s h =>
  (show OutKeeps _ _ (execConfigRequest a0 a1 s) from execConfigRequest_keeps h (Sub.same ((congrArg mask rfl).trans mask_26396869001216)))
theorem framed_scanEnable {a0} {a1} : Framed (.scanEnable a0 a1) := fun _ s h =>
  (show OutKeeps _ _ (execScanEnable a0 a1 s) from execScanEnable_keeps h (Sub.same ((congrArg mask rfl).trans mask_8589934604)))
theorem framed_ringEnable {a0} {a1} {a2} {a3} : Framed (.ringEnable a0 a1 a2 a3) := fun _ s h =>
  (show OutKeeps _ _ (execRingEnable a0 a1 a2 a3 s) from execRingEnable_keeps h (Sub.same ((congrArg mask rfl).trans mask_8589934604)))
theorem framed_ringDisable {a0} {a1} {a2} {a3} : Framed (.ringDisable a0 a1 a2 a3) := fun _ s h =>
  (show OutKeeps _ _ (execRingDisable a0 a1 a2 a3 s) from execRingDisable_keeps h (Sub.same ((congrArg mask rfl).trans mask_8589934604)))
theorem framed_doorbellScan {a0} : Framed (.doorbellScan a0) := fun _ s h =>
  (show OutKeeps _ _ (execDoorbellScan a0 s) from execDoorbellScan_keeps h (Sub.same ((congrArg mask rfl).trans mask_8589934596)))
theorem framed_scanReturn {a0} {a1} {a2} : Framed (.scanReturn a0 a1 a2) := fun _ s h =>
  (show OutKeeps _ _ (execScanReturn a0 a1 a2 s) from execScanReturn_keeps h (Sub.same ((congrArg mask rfl).trans mask_8805756702724)))
theorem framed_nop {a0} {a1} : Framed (.nop a0 a1) := fun _ s h =>
  (show OutKeeps _ _ (execNop a0 a1 s) from execNop_keeps h (Sub.same ((congrArg mask rfl).trans mask_8805756702724)))
theorem framed_loadMem {a0} {a1} {a2} : Framed (.loadMem a0 a1 a2) := fun _ s h =>
  (show OutKeeps _ _ (execLoadMem a0 a1 a2 s) from execLoadMem_keeps h (Sub.same ((congrArg mask rfl).trans mask_15426851446020)))
theorem framed_readMem {a0} {a1} : Framed (.readMem a0 a1) := fun _ s h =>
  (show OutKeeps _ _ (execReadMem a0 a1 s) from execReadMem_keeps h (Sub.same ((congrArg mask rfl).trans mask_15426851446020)))
theorem framed_loadNeurons {a0} {a1} {a2} : Framed (.loadNeurons a0 a1 a2) := fun _ s h =>
  (show OutKeeps _ _ (execLoadNeurons a0 a1 a2 s) from execLoadNeurons_keeps h (Sub.same ((congrArg mask rfl).trans mask_15426851446020)))
theorem framed_readNeurons {a0} {a1} : Framed (.readNeurons a0 a1) := fun _ s h =>
  (show OutKeeps _ _ (execReadNeurons a0 a1 s) from execReadNeurons_keeps h (Sub.same ((congrArg mask rfl).trans mask_15426851446020)))
theorem framed_loadTable {a0} {a1} {a2} : Framed (.loadTable a0 a1 a2) := fun _ s h =>
  (show OutKeeps _ _ (execLoadTable a0 a1 a2 s) from execLoadTable_keeps h (Sub.same ((congrArg mask rfl).trans mask_15426851446020)))
theorem framed_readTable {a0} {a1} : Framed (.readTable a0 a1) := fun _ s h =>
  (show OutKeeps _ _ (execReadTable a0 a1 s) from execReadTable_keeps h (Sub.same ((congrArg mask rfl).trans mask_15426851446020)))
theorem framed_loadRows {a0} {a1} {a2} : Framed (.loadRows a0 a1 a2) := fun _ s h =>
  (show OutKeeps _ _ (execLoadRows a0 a1 a2 s) from execLoadRows_keeps h (Sub.same ((congrArg mask rfl).trans mask_33019037490948)))
theorem framed_writeHbm {a0} {a1} {a2} : Framed (.writeHbm a0 a1 a2) := fun _ s h =>
  (show OutKeeps _ _ (execWriteHbm a0 a1 a2 s) from execWriteHbm_keeps h (Sub.same ((congrArg mask rfl).trans mask_8805756705284)))
theorem framed_readHbm {a0} {a1} {a2} : Framed (.readHbm a0 a1 a2) := fun _ s h =>
  (show OutKeeps _ _ (execReadHbm a0 a1 a2 s) from execReadHbm_keeps h (Sub.same ((congrArg mask rfl).trans mask_8805756702724)))
theorem framed_loadContext {a0} {a1} {a2} : Framed (.loadContext a0 a1 a2) := fun _ s h =>
  (show OutKeeps _ _ (execLoadContext a0 a1 a2 s) from execLoadContext_keeps h (Sub.same ((congrArg mask rfl).trans mask_8812199153924)))
theorem framed_readContext {a0} {a1} : Framed (.readContext a0 a1) := fun _ s h =>
  (show OutKeeps _ _ (execReadContext a0 a1 s) from execReadContext_keeps h (Sub.same ((congrArg mask rfl).trans mask_8810051670276)))
theorem framed_ingest {a0} {a1} {a2} : Framed (.ingest a0 a1 a2) := fun _ s h =>
  (show OutKeeps _ _ (execIngest a0 a1 a2 s) from execIngest_keeps h (Sub.same ((congrArg mask rfl).trans mask_8899038027012)))
theorem framed_message {a0} {a1} : Framed (.message a0 a1) := fun _ s h =>
  (show OutKeeps _ _ (execMessage a0 a1 s) from execMessage_keeps h (Sub.same ((congrArg mask rfl).trans mask_8829781679364)))
theorem framed_messageTimeout {a0} : Framed (.messageTimeout a0) := fun _ s h =>
  (show OutKeeps _ _ (execMessageTimeout a0 s) from execMessageTimeout_keeps h (Sub.same ((congrArg mask rfl).trans mask_8805756702724)))
theorem framed_denseRun {a0} {a1} : Framed (.denseRun a0 a1) := fun _ s h =>
  (show OutKeeps _ _ (execDenseRun a0 a1 s) from execDenseRun_keeps h (Sub.same ((congrArg mask rfl).trans mask_8805756703748)))
theorem framed_loadWrite {a0} : Framed (.loadWrite a0) := fun _ s h =>
  (show OutKeeps _ _ (execLoadWrite a0 s) from execLoadWrite_keeps h (Sub.same ((congrArg mask rfl).trans mask_26421968166340)))
theorem framed_loadRead {a0} : Framed (.loadRead a0) := fun _ s h =>
  (show OutKeeps _ _ (execLoadRead a0 s) from execLoadRead_keeps h (Sub.same ((congrArg mask rfl).trans mask_26421967723972)))
theorem framed_readReturn {a0} : Framed (.readReturn a0) := fun _ s h =>
  (show OutKeeps _ _ (execReadReturn a0 s) from execReadReturn_keeps h (Sub.same ((congrArg mask rfl).trans mask_8805890920452)))
theorem framed_tapCopyArrive {a0} : Framed (.tapCopyArrive a0) := fun _ s h =>
  (show OutKeeps _ _ (execTapCopyArrive a0 s) from execTapCopyArrive_keeps h (Sub.same ((congrArg mask rfl).trans mask_8805890920452)))
theorem framed_partitionEnable {a0} {a1} {a2} : Framed (.partitionEnable a0 a1 a2) := fun _ s h =>
  (show OutKeeps _ _ (execPartitionEnable a0 a1 a2 s) from execPartitionEnable_keeps h (Sub.same ((congrArg mask rfl).trans mask_8829513243908)))
theorem framed_enableCheckDone {a0} : Framed (.enableCheckDone a0) := fun _ s h =>
  (show OutKeeps _ _ (execEnableCheckDone a0 s) from execEnableCheckDone_keeps h (Sub.same ((congrArg mask rfl).trans mask_26456933531588)))
theorem framed_partitionDisable {a0} {a1} {a2} : Framed (.partitionDisable a0 a1 a2) := fun _ s h =>
  (show OutKeeps _ _ (execPartitionDisable a0 a1 a2 s) from execPartitionDisable_keeps h (Sub.same ((congrArg mask rfl).trans mask_8829513243908)))
theorem framed_lyletFrameReceive {a0} {a1} {a2} {a3} {a4} {a5} : Framed (.lyletFrameReceive a0 a1 a2 a3 a4 a5) := fun _ s h =>
  (show OutKeeps _ _ (execLyletFrameReceive a0 a1 a2 a3 a4 a5 s) from execLyletFrameReceive_keeps h (Sub.same ((congrArg mask rfl).trans mask_8899038027012)))
theorem framed_ptpEventMessage {a0} {a1} {a2} {a3} {a4} {a5} {a6} : Framed (.ptpEventMessage a0 a1 a2 a3 a4 a5 a6) := fun _ s h =>
  (show OutKeeps _ _ (execPtpEventMessage a0 a1 a2 a3 a4 a5 a6 s) from execPtpEventMessage_keeps h (Sub.same ((congrArg mask rfl).trans mask_8814346637316)))
theorem framed_portTapCopy {a0} : Framed (.portTapCopy a0) := fun _ s h =>
  (show OutKeeps _ _ (execPortTapCopy a0 s) from execPortTapCopy_keeps h (Sub.same ((congrArg mask rfl).trans mask_8820923306244)))
theorem framed_frameTransmit {a0} : Framed (.frameTransmit a0) := fun _ s h =>
  (show OutKeeps _ _ (execFrameTransmit a0 s) from execFrameTransmit_keeps h (Sub.same ((congrArg mask rfl).trans mask_26411901387012)))
theorem framed_evpLinkDown {a0} : Framed (.evpLinkDown a0) := fun _ s h =>
  (show OutKeeps _ _ (execEvpLinkDown a0 s) from execEvpLinkDown_keeps h (Sub.same ((congrArg mask rfl).trans mask_8797166768132)))
theorem framed_powerRequest {a0} {a1} {a2} : Framed (.powerRequest a0 a1 a2) := fun _ s h =>
  (show OutKeeps _ _ (execPowerRequest a0 a1 a2 s) from execPowerRequest_keeps h (Sub.same ((congrArg mask rfl).trans mask_6597069766660)))
theorem framed_powerEntryStage {a0} : Framed (.powerEntryStage a0) := fun _ s h =>
  (show OutKeeps _ _ (execPowerEntryStage a0 s) from execPowerEntryStage_keeps h (Sub.same ((congrArg mask rfl).trans mask_15402960687116)))
theorem framed_powerAbortDone {a0} : Framed (.powerAbortDone a0) := fun _ s h =>
  (show OutKeeps _ _ (execPowerAbortDone a0 s) from execPowerAbortDone_keeps h (Sub.same ((congrArg mask rfl).trans mask_6597069766660)))
theorem framed_powerWakeDone {a0} : Framed (.powerWakeDone a0) := fun _ s h =>
  (show OutKeeps _ _ (execPowerWakeDone a0 s) from execPowerWakeDone_keeps h (Sub.same ((congrArg mask rfl).trans mask_15598784348108)))
theorem framed_bankHandover {a0} {a1} {a2} {a3} : Framed (.bankHandover a0 a1 a2 a3) := fun _ s h =>
  (show OutKeeps _ _ (execBankHandover a0 a1 a2 a3 s) from execBankHandover_keeps h (Sub.same ((congrArg mask rfl).trans mask_1028)))
theorem framed_bankHandoverEffect {a0} {a1} : Framed (.bankHandoverEffect a0 a1) := fun _ s h =>
  (show OutKeeps _ _ (execBankHandoverEffect a0 a1 s) from execBankHandoverEffect_keeps h (Sub.same ((congrArg mask rfl).trans mask_1028)))
theorem framed_getStatus {a0} {a1} : Framed (.getStatus a0 a1) := fun _ s h =>
  (show OutKeeps _ _ (execGetStatus a0 a1 s) from execGetStatus_keeps h (Sub.same ((congrArg mask rfl).trans mask_16938411498797)))
theorem framed_getRecords {a0} {a1} : Framed (.getRecords a0 a1) := fun _ s h =>
  (show OutKeeps _ _ (execGetRecords a0 a1 s) from execGetRecords_keeps h (Sub.same ((congrArg mask rfl).trans mask_16938411498797)))
theorem framed_stage {a0} {a1} : Framed (.stage a0 a1) := fun _ s h =>
  (show OutKeeps _ _ (execStage a0 a1 s) from execStage_keeps h (Sub.same ((congrArg mask rfl).trans mask_16938411498797)))
theorem framed_confirm {a0} {a1} : Framed (.confirm a0 a1) := fun _ s h =>
  (show OutKeeps _ _ (execConfirm a0 a1 s) from execConfirm_keeps h (Sub.same ((congrArg mask rfl).trans mask_16938411498797)))
theorem framed_cancel {a0} {a1} : Framed (.cancel a0 a1) := fun _ s h =>
  (show OutKeeps _ _ (execCancel a0 a1 s) from execCancel_keeps h (Sub.same ((congrArg mask rfl).trans mask_16938411498797)))
theorem framed_readStage {a0} {a1} : Framed (.readStage a0 a1) := fun _ s h =>
  (show OutKeeps _ _ (execReadStage a0 a1 s) from execReadStage_keeps h (Sub.same ((congrArg mask rfl).trans mask_16938411498797)))
theorem framed_devcfg {a0} {a1} : Framed (.devcfg a0 a1) := fun _ s h =>
  (show OutKeeps _ _ (execDevcfg a0 a1 s) from execDevcfg_keeps h (Sub.same ((congrArg mask rfl).trans mask_16938411498797)))
theorem framed_patternPush {a0} {a1} {a2} : Framed (.patternPush a0 a1 a2) := fun _ s h =>
  (show OutKeeps _ _ (execPatternPush a0 a1 a2 s) from execPatternPush_keeps h (Sub.same ((congrArg mask rfl).trans mask_16938411498797)))
theorem framed_lifecycle {a0} {a1} : Framed (.lifecycle a0 a1) := fun _ s h =>
  (show OutKeeps _ _ (execLifecycle a0 a1 s) from execLifecycle_keeps h (Sub.same ((congrArg mask rfl).trans mask_16938411498797)))
theorem framed_readCoreMem {a0} {a1} : Framed (.readCoreMem a0 a1) := fun _ s h =>
  (show OutKeeps _ _ (execReadCoreMem a0 a1 s) from execReadCoreMem_keeps h (Sub.same ((congrArg mask rfl).trans mask_16938411498797)))
theorem framed_mgmtNet {a0} {a1} : Framed (.mgmtNet a0 a1) := fun _ s h =>
  (show OutKeeps _ _ (execMgmtNet a0 a1 s) from execMgmtNet_keeps h (Sub.same ((congrArg mask rfl).trans mask_16938411498797)))
theorem framed_ack {a0} {a1} : Framed (.ack a0 a1) := fun _ s h =>
  (show OutKeeps _ _ (execAck a0 a1 s) from execAck_keeps h (Sub.same ((congrArg mask rfl).trans mask_275951648772)))
theorem framed_setEndpointId {a0} {a1} : Framed (.setEndpointId a0 a1) := fun _ s h =>
  (show OutKeeps _ _ (execSetEndpointId a0 a1 s) from execSetEndpointId_keeps h (Sub.same ((congrArg mask rfl).trans mask_9070970929156)))
theorem framed_getEndpointId : Framed (.getEndpointId) := fun _ s h =>
  (show OutKeeps _ _ (execGetEndpointId s) from execGetEndpointId_keeps h (Sub.same ((congrArg mask rfl).trans mask_8796093022208)))
theorem framed_getMctpVersionSupport {a0} : Framed (.getMctpVersionSupport a0) := fun _ s h =>
  (show OutKeeps _ _ (execGetMctpVersionSupport a0 s) from execGetMctpVersionSupport_keeps h (Sub.same ((congrArg mask rfl).trans mask_8796093022208)))
theorem framed_getMessageTypeSupport : Framed (.getMessageTypeSupport) := fun _ s h =>
  (show OutKeeps _ _ (execGetMessageTypeSupport s) from execGetMessageTypeSupport_keeps h (Sub.same ((congrArg mask rfl).trans mask_8796093022208)))
theorem framed_getVendorDefinedMessageSupport {a0} : Framed (.getVendorDefinedMessageSupport a0) := fun _ s h =>
  (show OutKeeps _ _ (execGetVendorDefinedMessageSupport a0 s) from execGetVendorDefinedMessageSupport_keeps h (Sub.same ((congrArg mask rfl).trans mask_8796093022208)))
theorem framed_neighbourRequest {a0} {a1} : Framed (.neighbourRequest a0 a1) := fun _ s h =>
  (show OutKeeps _ _ (execNeighbourRequest a0 a1 s) from execNeighbourRequest_keeps h (Sub.same ((congrArg mask rfl).trans mask_8796093022208)))
theorem framed_stageExpire {a0} : Framed (.stageExpire a0) := fun _ s h =>
  (show OutKeeps _ _ (execStageExpire a0 s) from execStageExpire_keeps h (Sub.same ((congrArg mask rfl).trans mask_9070970929156)))
theorem framed_reportResend : Framed (.reportResend) := fun _ s h =>
  (show OutKeeps _ _ (execReportResend s) from execReportResend_keeps h (Sub.same ((congrArg mask rfl).trans mask_9070970929152)))
theorem framed_tamperFire {a0} : Framed (.tamperFire a0) := fun _ s h =>
  (show OutKeeps _ _ (execTamperFire a0 s) from execTamperFire_keeps h (Sub.same ((congrArg mask rfl).trans mask_9104391150860)))
theorem framed_bypass : Framed (.bypass) := fun _ s h =>
  (show OutKeeps _ _ (execBypass s) from execBypass_keeps h (Sub.same ((congrArg mask rfl).trans mask_9070970929152)))
theorem framed_samplePreload {a0} : Framed (.samplePreload a0) := fun _ s h =>
  (show OutKeeps _ _ (execSamplePreload a0 s) from execSamplePreload_keeps h (Sub.same ((congrArg mask rfl).trans mask_26663156973568)))
theorem framed_extest {a0} : Framed (.extest a0) := fun _ s h =>
  (show OutKeeps _ _ (execExtest a0 s) from execExtest_keeps h (Sub.same ((congrArg mask rfl).trans mask_26663156973568)))
theorem framed_idcode : Framed (.idcode) := fun _ s h =>
  (show OutKeeps _ _ (execIdcode s) from execIdcode_keeps h (Sub.same ((congrArg mask rfl).trans mask_9070970929152)))
theorem framed_clamp : Framed (.clamp) := fun _ s h =>
  (show OutKeeps _ _ (execClamp s) from execClamp_keeps h (Sub.same ((congrArg mask rfl).trans mask_9070970929152)))
theorem framed_highz : Framed (.highz) := fun _ s h =>
  (show OutKeeps _ _ (execHighz s) from execHighz_keeps h (Sub.same ((congrArg mask rfl).trans mask_9070970929152)))
theorem framed_dbgStatus : Framed (.dbgStatus) := fun _ s h =>
  (show OutKeeps _ _ (execDbgStatus s) from execDbgStatus_keeps h (Sub.same ((congrArg mask rfl).trans mask_8796093022208)))
theorem framed_dbgChallenge : Framed (.dbgChallenge) := fun _ s h =>
  (show OutKeeps _ _ (execDbgChallenge s) from execDbgChallenge_keeps h (Sub.same ((congrArg mask rfl).trans mask_26663156973568)))
theorem framed_dbgResponse {a0} : Framed (.dbgResponse a0) := fun _ s h =>
  (show OutKeeps _ _ (execDbgResponse a0 s) from execDbgResponse_keeps h (Sub.same ((congrArg mask rfl).trans mask_9070970929156)))
theorem framed_dbgPassword {a0} {a1} : Framed (.dbgPassword a0 a1) := fun _ s h =>
  (show OutKeeps _ _ (execDbgPassword a0 a1 s) from execDbgPassword_keeps h (Sub.same ((congrArg mask rfl).trans mask_9070970929156)))
theorem framed_dbgClose : Framed (.dbgClose) := fun _ s h =>
  (show OutKeeps _ _ (execDbgClose s) from execDbgClose_keeps h (Sub.same ((congrArg mask rfl).trans mask_4)))
theorem framed_dbgNonceExpire : Framed (.dbgNonceExpire) := fun _ s h =>
  (show OutKeeps _ _ (execDbgNonceExpire s) from execDbgNonceExpire_keeps h (Sub.same ((congrArg mask rfl).trans mask_274877906944)))
theorem framed_debugSetupAccess {a0} {a1} {a2} {a3} {a4} : Framed (.debugSetupAccess a0 a1 a2 a3 a4) := fun _ s h =>
  (show OutKeeps _ _ (execDebugSetupAccess a0 a1 a2 a3 a4 s) from execDebugSetupAccess_keeps h (Sub.same ((congrArg mask rfl).trans mask_15735821704492)))
theorem framed_debugPartitionHalt {a0} : Framed (.debugPartitionHalt a0) := fun _ s h =>
  (show OutKeeps _ _ (execDebugPartitionHalt a0 s) from execDebugPartitionHalt_keeps h (Sub.same ((congrArg mask rfl).trans mask_4100)))
theorem framed_debugCoreHalt {a0} : Framed (.debugCoreHalt a0) := fun _ s h =>
  (show OutKeeps _ _ (execDebugCoreHalt a0 s) from execDebugCoreHalt_keeps h (Sub.same ((congrArg mask rfl).trans mask_1028)))
theorem framed_debugResume {a0} {a1} : Framed (.debugResume a0 a1) := fun _ s h =>
  (show OutKeeps _ _ (execDebugResume a0 a1 s) from execDebugResume_keeps h (Sub.same ((congrArg mask rfl).trans mask_17179874308)))
theorem framed_sysRstNRise : Framed (.sysRstNRise) := fun _ s h =>
  (show OutKeeps _ _ (execSysRstNRise s) from execSysRstNRise_keeps h (Sub.same ((congrArg mask rfl).trans mask_35184372088831)))
theorem framed_sysRstNFall : Framed (.sysRstNFall) := fun _ s h =>
  (show OutKeeps _ _ (execSysRstNFall s) from execSysRstNFall_keeps h (Sub.same ((congrArg mask rfl).trans mask_35184372088831)))
theorem framed_mgmtBootDone : Framed (.mgmtBootDone) := fun _ s h =>
  (show OutKeeps _ _ (execMgmtBootDone s) from execMgmtBootDone_keeps h (Sub.same ((congrArg mask rfl).trans mask_549755813888)))
theorem framed_pgCoreRise : Framed (.pgCoreRise) := fun _ s h =>
  (show OutKeeps _ _ (execPgCoreRise s) from execPgCoreRise_keeps h (Sub.same ((congrArg mask rfl).trans mask_18141941858310)))
theorem framed_pgIoRise : Framed (.pgIoRise) := fun _ s h =>
  (show OutKeeps _ _ (execPgIoRise s) from execPgIoRise_keeps h (Sub.same ((congrArg mask rfl).trans mask_17488167312685)))
theorem framed_pgHbmRise {a0} : Framed (.pgHbmRise a0) := fun _ s h =>
  (show OutKeeps _ _ (execPgHbmRise a0 s) from execPgHbmRise_keeps h (Sub.same ((congrArg mask rfl).trans mask_2748779069444)))
theorem framed_pgWaitTimeout {a0} : Framed (.pgWaitTimeout a0) := fun _ s h =>
  (show OutKeeps _ _ (execPgWaitTimeout a0 s) from execPgWaitTimeout_keeps h (Sub.same ((congrArg mask rfl).trans mask_17488167312685)))
theorem framed_hbmTrainingDone {a0} {a1} : Framed (.hbmTrainingDone a0 a1) := fun _ s h =>
  (show OutKeeps _ _ (execHbmTrainingDone a0 a1 s) from execHbmTrainingDone_keeps h (Sub.same ((congrArg mask rfl).trans mask_35080353357101)))
theorem framed_hbmClearDone {a0} : Framed (.hbmClearDone a0) := fun _ s h =>
  (show OutKeeps _ _ (execHbmClearDone a0 s) from execHbmClearDone_keeps h (Sub.same ((congrArg mask rfl).trans mask_17522929696749)))
theorem framed_pgFall {a0} : Framed (.pgFall a0) := fun _ s h =>
  (show OutKeeps _ _ (execPgFall a0 s) from execPgFall_keeps h (Sub.same ((congrArg mask rfl).trans mask_26971455102732)))
theorem framed_thermalTrip {a0} {a1} : Framed (.thermalTrip a0 a1) := fun _ s h =>
  (show OutKeeps _ _ (execThermalTrip a0 a1 s) from execThermalTrip_keeps h (Sub.same ((congrArg mask rfl).trans mask_26971455102732)))
theorem framed_cvuStart {a0} {a1} : Framed (.cvuStart a0 a1) := fun _ s h =>
  (show OutKeeps _ _ (execCvuStart a0 a1 s) from execCvuStart_keeps h (Sub.same ((congrArg mask rfl).trans mask_12)))
theorem framed_cvuRunningWrite {a0} {a1} {a2} : Framed (.cvuRunningWrite a0 a1 a2) := fun _ s h =>
  (show OutKeeps _ _ (execCvuRunningWrite a0 a1 a2 s) from execCvuRunningWrite_keeps h (Sub.same ((congrArg mask rfl).trans mask_36)))
theorem framed_evpLinkUp {a0} {a1} : Framed (.evpLinkUp a0 a1) := fun _ s h =>
  (show OutKeeps _ _ (execEvpLinkUp a0 a1 s) from execEvpLinkUp_keeps h (Sub.same ((congrArg mask rfl).trans mask_4)))
theorem framed_pcieLinkUp {a0} {a1} {a2} : Framed (.pcieLinkUp a0 a1 a2) := fun _ s h =>
  (show OutKeeps _ _ (execPcieLinkUp a0 a1 a2 s) from execPcieLinkUp_keeps h (Sub.same ((congrArg mask rfl).trans mask_8589934596)))

theorem framed (i : Instr) : Framed i := by
  cases i with
  | registerWrite _ _ _ => exact framed_registerWrite
  | reg64LoRead _ _ => exact framed_reg64LoRead
  | roleFenceWrite _ _ _ => exact framed_roleFenceWrite
  | groveFault _ _ => exact framed_groveFault
  | stepOpen _ => exact framed_stepOpen
  | stepOpenIndication _ _ _ _ => exact framed_stepOpenIndication
  | integrationSpanEnd _ => exact framed_integrationSpanEnd
  | deferredDeposit _ => exact framed_deferredDeposit
  | coreClockGate _ => exact framed_coreClockGate
  | coreWake _ _ => exact framed_coreWake
  | synEventTake _ _ _ => exact framed_synEventTake
  | rowRequest _ => exact framed_rowRequest
  | rowHeader _ => exact framed_rowHeader
  | block _ _ _ => exact framed_block
  | hbmReadReturn _ _ _ _ _ _ => exact framed_hbmReadReturn
  | hbmTrainingLost _ _ => exact framed_hbmTrainingLost
  | denseColumnBlockDone _ _ => exact framed_denseColumnBlockDone
  | denseOpDone _ => exact framed_denseOpDone
  | canopyPacketArrive _ => exact framed_canopyPacketArrive
  | stopReceiveCopy _ => exact framed_stopReceiveCopy
  | linkFlitReceive _ _ _ => exact framed_linkFlitReceive
  | linkNack _ _ _ => exact framed_linkNack
  | linkResyncDone _ _ => exact framed_linkResyncDone
  | routerFault _ => exact framed_routerFault
  | routerReset _ _ _ => exact framed_routerReset
  | routerResetDone _ => exact framed_routerResetDone
  | clearingStart _ _ => exact framed_clearingStart
  | clearingRun _ => exact framed_clearingRun
  | clearingSwap _ => exact framed_clearingSwap
  | clearingTimeout _ => exact framed_clearingTimeout
  | deliveryEvaluate _ => exact framed_deliveryEvaluate
  | msg _ => exact framed_msg
  | notify _ => exact framed_notify
  | amArgs _ => exact framed_amArgs
  | response _ => exact framed_response
  | syncReply _ => exact framed_syncReply
  | responseSend _ => exact framed_responseSend
  | handlerDispatch _ => exact framed_handlerDispatch
  | ret _ _ => exact framed_ret
  | add _ _ _ _ _ => exact framed_add
  | sub _ _ _ _ _ => exact framed_sub
  | and _ _ _ _ _ => exact framed_and
  | or _ _ _ _ _ => exact framed_or
  | xor _ _ _ _ _ => exact framed_xor
  | shl _ _ _ _ _ => exact framed_shl
  | shr _ _ _ _ _ => exact framed_shr
  | sar _ _ _ _ _ => exact framed_sar
  | slt _ _ _ _ _ => exact framed_slt
  | mul _ _ _ _ _ => exact framed_mul
  | addi _ _ _ _ => exact framed_addi
  | andi _ _ _ _ => exact framed_andi
  | ori _ _ _ _ => exact framed_ori
  | lui _ _ _ _ => exact framed_lui
  | ld _ _ _ _ => exact framed_ld
  | st _ _ _ _ => exact framed_st
  | ldb _ _ _ _ => exact framed_ldb
  | stb _ _ _ _ => exact framed_stb
  | nrd _ _ _ _ => exact framed_nrd
  | sys _ _ _ _ => exact framed_sys
  | emit _ _ _ _ _ => exact framed_emit
  | dense _ _ _ _ _ => exact framed_dense
  | send _ _ _ _ _ => exact framed_send
  | sendw _ _ _ _ _ => exact framed_sendw
  | waitq _ _ _ _ => exact framed_waitq
  | sadd _ _ _ _ _ => exact framed_sadd
  | swait _ _ _ _ _ => exact framed_swait
  | sread _ _ _ _ _ => exact framed_sread
  | beq _ _ _ _ => exact framed_beq
  | bne _ _ _ _ => exact framed_bne
  | blt _ _ _ _ => exact framed_blt
  | bge _ _ _ _ => exact framed_bge
  | j _ _ => exact framed_j
  | handlerBudgetExpire _ => exact framed_handlerBudgetExpire
  | sendResponseTimeout _ => exact framed_sendResponseTimeout
  | sendwRetryGap _ => exact framed_sendwRetryGap
  | waitqTimeout _ => exact framed_waitqTimeout
  | syncAdd _ => exact framed_syncAdd
  | syncWait _ => exact framed_syncWait
  | syncRead _ => exact framed_syncRead
  | syncNotifyIssue _ => exact framed_syncNotifyIssue
  | hostSyncAdd _ _ _ _ => exact framed_hostSyncAdd
  | bar2SyncWrite _ _ _ _ _ => exact framed_bar2SyncWrite
  | encCount _ => exact framed_encCount
  | lineEdge => exact framed_lineEdge
  | mainsZeroCross => exact framed_mainsZeroCross
  | mainsTick => exact framed_mainsTick
  | ptpFollowTick => exact framed_ptpFollowTick
  | intTick => exact framed_intTick
  | phaseLost => exact framed_phaseLost
  | sourceAutoReturn => exact framed_sourceAutoReturn
  | pinStamp _ _ => exact framed_pinStamp
  | stampDeliver _ => exact framed_stampDeliver
  | channelFire _ => exact framed_channelFire
  | channelArm _ _ _ => exact framed_channelArm
  | channelDisarm _ _ _ => exact framed_channelDisarm
  | compareWrite _ _ _ => exact framed_compareWrite
  | intervalWrite _ _ _ => exact framed_intervalWrite
  | groupStart _ _ => exact framed_groupStart
  | sequencerFire _ => exact framed_sequencerFire
  | stretchLimit _ => exact framed_stretchLimit
  | lastInjectionDeclare _ => exact framed_lastInjectionDeclare
  | round _ => exact framed_round
  | checkReport _ => exact framed_checkReport
  | groveVerdict _ => exact framed_groveVerdict
  | shadowCopy _ _ => exact framed_shadowCopy
  | replayCopyDone _ _ _ _ => exact framed_replayCopyDone
  | replayDone _ => exact framed_replayDone
  | twinRepairDone _ => exact framed_twinRepairDone
  | partitionCommit _ => exact framed_partitionCommit
  | fenceMigrationDone _ => exact framed_fenceMigrationDone
  | plsPassDone _ _ => exact framed_plsPassDone
  | applyStart _ => exact framed_applyStart
  | applyDone _ _ => exact framed_applyDone
  | endEpoch _ _ _ => exact framed_endEpoch
  | scrub _ _ => exact framed_scrub
  | cfgDigestPass _ => exact framed_cfgDigestPass
  | testDue _ => exact framed_testDue
  | testMigrate _ => exact framed_testMigrate
  | testDeferExpire _ => exact framed_testDeferExpire
  | testDone _ _ _ => exact framed_testDone
  | functionLevelReset _ => exact framed_functionLevelReset
  | pcieLinkLoss _ => exact framed_pcieLinkLoss
  | perstChange _ _ => exact framed_perstChange
  | configRequest _ _ => exact framed_configRequest
  | scanEnable _ _ => exact framed_scanEnable
  | ringEnable _ _ _ _ => exact framed_ringEnable
  | ringDisable _ _ _ _ => exact framed_ringDisable
  | doorbellScan _ => exact framed_doorbellScan
  | scanReturn _ _ _ => exact framed_scanReturn
  | nop _ _ => exact framed_nop
  | loadMem _ _ _ => exact framed_loadMem
  | readMem _ _ => exact framed_readMem
  | loadNeurons _ _ _ => exact framed_loadNeurons
  | readNeurons _ _ => exact framed_readNeurons
  | loadTable _ _ _ => exact framed_loadTable
  | readTable _ _ => exact framed_readTable
  | loadRows _ _ _ => exact framed_loadRows
  | writeHbm _ _ _ => exact framed_writeHbm
  | readHbm _ _ _ => exact framed_readHbm
  | loadContext _ _ _ => exact framed_loadContext
  | readContext _ _ => exact framed_readContext
  | ingest _ _ _ => exact framed_ingest
  | message _ _ => exact framed_message
  | messageTimeout _ => exact framed_messageTimeout
  | denseRun _ _ => exact framed_denseRun
  | loadWrite _ => exact framed_loadWrite
  | loadRead _ => exact framed_loadRead
  | readReturn _ => exact framed_readReturn
  | tapCopyArrive _ => exact framed_tapCopyArrive
  | partitionEnable _ _ _ => exact framed_partitionEnable
  | enableCheckDone _ => exact framed_enableCheckDone
  | partitionDisable _ _ _ => exact framed_partitionDisable
  | lyletFrameReceive _ _ _ _ _ _ => exact framed_lyletFrameReceive
  | ptpEventMessage _ _ _ _ _ _ _ => exact framed_ptpEventMessage
  | portTapCopy _ => exact framed_portTapCopy
  | frameTransmit _ => exact framed_frameTransmit
  | evpLinkDown _ => exact framed_evpLinkDown
  | powerRequest _ _ _ => exact framed_powerRequest
  | powerEntryStage _ => exact framed_powerEntryStage
  | powerAbortDone _ => exact framed_powerAbortDone
  | powerWakeDone _ => exact framed_powerWakeDone
  | bankHandover _ _ _ _ => exact framed_bankHandover
  | bankHandoverEffect _ _ => exact framed_bankHandoverEffect
  | getStatus _ _ => exact framed_getStatus
  | getRecords _ _ => exact framed_getRecords
  | stage _ _ => exact framed_stage
  | confirm _ _ => exact framed_confirm
  | cancel _ _ => exact framed_cancel
  | readStage _ _ => exact framed_readStage
  | devcfg _ _ => exact framed_devcfg
  | patternPush _ _ _ => exact framed_patternPush
  | lifecycle _ _ => exact framed_lifecycle
  | readCoreMem _ _ => exact framed_readCoreMem
  | mgmtNet _ _ => exact framed_mgmtNet
  | ack _ _ => exact framed_ack
  | setEndpointId _ _ => exact framed_setEndpointId
  | getEndpointId => exact framed_getEndpointId
  | getMctpVersionSupport _ => exact framed_getMctpVersionSupport
  | getMessageTypeSupport => exact framed_getMessageTypeSupport
  | getVendorDefinedMessageSupport _ => exact framed_getVendorDefinedMessageSupport
  | neighbourRequest _ _ => exact framed_neighbourRequest
  | stageExpire _ => exact framed_stageExpire
  | reportResend => exact framed_reportResend
  | tamperFire _ => exact framed_tamperFire
  | bypass => exact framed_bypass
  | samplePreload _ => exact framed_samplePreload
  | extest _ => exact framed_extest
  | idcode => exact framed_idcode
  | clamp => exact framed_clamp
  | highz => exact framed_highz
  | dbgStatus => exact framed_dbgStatus
  | dbgChallenge => exact framed_dbgChallenge
  | dbgResponse _ => exact framed_dbgResponse
  | dbgPassword _ _ => exact framed_dbgPassword
  | dbgClose => exact framed_dbgClose
  | dbgNonceExpire => exact framed_dbgNonceExpire
  | debugSetupAccess _ _ _ _ _ => exact framed_debugSetupAccess
  | debugPartitionHalt _ => exact framed_debugPartitionHalt
  | debugCoreHalt _ => exact framed_debugCoreHalt
  | debugResume _ _ => exact framed_debugResume
  | sysRstNRise => exact framed_sysRstNRise
  | sysRstNFall => exact framed_sysRstNFall
  | mgmtBootDone => exact framed_mgmtBootDone
  | pgCoreRise => exact framed_pgCoreRise
  | pgIoRise => exact framed_pgIoRise
  | pgHbmRise _ => exact framed_pgHbmRise
  | pgWaitTimeout _ => exact framed_pgWaitTimeout
  | hbmTrainingDone _ _ => exact framed_hbmTrainingDone
  | hbmClearDone _ => exact framed_hbmClearDone
  | pgFall _ => exact framed_pgFall
  | thermalTrip _ _ => exact framed_thermalTrip
  | cvuStart _ _ => exact framed_cvuStart
  | cvuRunningWrite _ _ _ => exact framed_cvuRunningWrite
  | evpLinkUp _ _ => exact framed_evpLinkUp
  | pcieLinkUp _ _ _ => exact framed_pcieLinkUp

theorem exec_keeps {i} (h : Keeps (mask (touched i)) s0 s) : OutKeeps (mask (touched i)) s0 (exec i s) :=
  framed i s0 s h

/-! ### Machine/Step -/

/-- A step with a command waiting takes it and keeps the rest. -/
theorem step_keeps {c rest} (hp : s.pending = c :: rest) (e : step s = .next t) :
    Keeps (mask (touched c)) { s with pending := rest } t := by
  unfold step at e
  rw [hp] at e
  exact exec_keeps (Keeps.refl _) t e

/-- A step with no command waiting is a nanosecond. -/
theorem tick_step_keeps (hp : s.pending = []) (e : step s = .next t) : Keeps 26593835614148 s t := by
  unfold step at e
  rw [hp] at e
  cases e
  exact State.tick_keeps (Keeps.refl s) fun _ h => h

end Sys2Proof.Machine
end

