-- ==== Sys2Proof/Laws/State.lean ====
section
/-! SUPPORT. Laws of the state: what each accessor reads after each basic operation, so that no later proof unfolds a record
update. -/
namespace Sys2Proof.Machine

/-! ### The part an operation changes -/

@[simp] theorem State.rd_wr (s : State) (key : Nat) (w : Word) (k : Nat) :
    (s.wr key w).rd k = if k = key then w else s.rd k := Store.get_set _ _ _ _ _

@[simp] theorem State.rd_wf' (s : State) (key lo n v k : Nat) :
    (s.wf' key lo n v).rd k = if k = key then setFld (s.rd key) lo n v else s.rd k := Store.get_set _ _ _ _ _

@[simp] theorem State.rd_count (s : State) (key n k : Nat) :
    (s.count key n).rd k = if k = key then sticky (s.rd key) n else s.rd k := Store.get_set _ _ _ _ _

@[simp] theorem State.core_updCore (s : State) (p : Nat) (f : Core → Core) (q : Nat) :
    (s.updCore p f).core q = if q = p then f (s.core p) else s.core q := Store.get_set _ _ _ _ _

@[simp] theorem State.grove_updGrove (s : State) (p : Nat) (f : Grove → Grove) (q : Nat) :
    (s.updGrove p f).grove q = if q = p then f (s.grove p) else s.grove q := Store.get_set _ _ _ _ _

@[simp] theorem State.part_updPart (s : State) (p : Nat) (f : Part → Part) (q : Nat) :
    (s.updPart p f).part q = if q = p then f (s.part p) else s.part q := Store.get_set _ _ _ _ _

@[simp] theorem State.att_updAtt (s : State) (p : Nat) (f : Att → Att) (q : Nat) :
    (s.updAtt p f).att q = if q = p then f (s.att p) else s.att q := Store.get_set _ _ _ _ _

@[simp] theorem State.port_updPort (s : State) (p : Nat) (f : Port → Port) (q : Nat) :
    (s.updPort p f).port q = if q = p then f (s.port p) else s.port q := Store.get_set _ _ _ _ _

@[simp] theorem State.mgt_updMgt (s : State) (f : Mgt → Mgt) : (s.updMgt f).mgt = f s.mgt := rfl
@[simp] theorem State.pins_updPins (s : State) (f : Pins → Pins) : (s.updPins f).pins = f s.pins := rfl
@[simp] theorem State.tb_updTb (s : State) (f : Tb → Tb) : (s.updTb f).tb = f s.tb := rfl
@[simp] theorem State.rd_updTb (s : State) (f : Tb → Tb) (k : Nat) : (s.updTb f).rd k = s.rd k := rfl
@[simp] theorem State.out_emitOut (s : State) (o : Out) : (s.emitOut o).out = o :: s.out := rfl
@[simp] theorem State.net_put (s : State) (f : Flight) : (s.put f).net = s.net ++ [f] := rfl

/-- A byte of local memory after a byte is replaced. -/
theorem State.byte_putByte (s : State) (p off : Nat) (b : Byte) (q o : Nat) :
    (s.putByte p off b).byte q o = if memKey q o = memKey p off then b else s.byte q o := Store.get_set _ _ _ _ _

/-- A byte of HBM after a byte is replaced. -/
theorem State.hbmByte_setHbmByte (s : State) (a : Nat) (b : Byte) (k : Nat) :
    (s.setHbmByte a b).hbmByte k = if k = a then b else s.hbmByte k := Store.get_set _ _ _ _ _

/-! ### wr changes nothing else -/

@[simp] theorem State.core_wr (s : State) (key : Nat) (w : Word) (q : Nat) : (s.wr key w).core q = s.core q := rfl
@[simp] theorem State.grove_wr (s : State) (key : Nat) (w : Word) (g : Nat) : (s.wr key w).grove g = s.grove g := rfl
@[simp] theorem State.part_wr (s : State) (key : Nat) (w : Word) (k : Nat) : (s.wr key w).part k = s.part k := rfl
@[simp] theorem State.att_wr (s : State) (key : Nat) (w : Word) (a : Nat) : (s.wr key w).att a = s.att a := rfl
@[simp] theorem State.port_wr (s : State) (key : Nat) (w : Word) (e : Nat) : (s.wr key w).port e = s.port e := rfl
@[simp] theorem State.context_wr (s : State) (key : Nat) (w : Word) (c : Nat) : (s.wr key w).context c = s.context c := rfl
@[simp] theorem State.byte_wr (s : State) (key : Nat) (w : Word) (q o : Nat) : (s.wr key w).byte q o = s.byte q o := rfl
@[simp] theorem State.bad_wr (s : State) (key : Nat) (w : Word) (q o : Nat) : (s.wr key w).bad q o = s.bad q o := rfl
@[simp] theorem State.hbmByte_wr (s : State) (key : Nat) (w : Word) (b : Nat) : (s.wr key w).hbmByte b = s.hbmByte b := rfl
@[simp] theorem State.flaws_wr (s : State) (key : Nat) (w : Word) : (s.wr key w).flaws = s.flaws := rfl
@[simp] theorem State.linkDead_wr (s : State) (key : Nat) (w : Word) : (s.wr key w).linkDead = s.linkDead := rfl
@[simp] theorem State.waiting_wr (s : State) (key : Nat) (w : Word) : (s.wr key w).waiting = s.waiting := rfl
@[simp] theorem State.forwards_wr (s : State) (key : Nat) (w : Word) : (s.wr key w).forwards = s.forwards := rfl
@[simp] theorem State.net_wr (s : State) (key : Nat) (w : Word) : (s.wr key w).net = s.net := rfl
@[simp] theorem State.sigs_wr (s : State) (key : Nat) (w : Word) : (s.wr key w).sigs = s.sigs := rfl
@[simp] theorem State.tb_wr (s : State) (key : Nat) (w : Word) : (s.wr key w).tb = s.tb := rfl
@[simp] theorem State.mgt_wr (s : State) (key : Nat) (w : Word) : (s.wr key w).mgt = s.mgt := rfl
@[simp] theorem State.pins_wr (s : State) (key : Nat) (w : Word) : (s.wr key w).pins = s.pins := rfl
@[simp] theorem State.flash_wr (s : State) (key : Nat) (w : Word) : (s.wr key w).flash = s.flash := rfl
@[simp] theorem State.fuses_wr (s : State) (key : Nat) (w : Word) : (s.wr key w).fuses = s.fuses := rfl
@[simp] theorem State.up_wr (s : State) (key : Nat) (w : Word) : (s.wr key w).up = s.up := rfl
@[simp] theorem State.out_wr (s : State) (key : Nat) (w : Word) : (s.wr key w).out = s.out := rfl
@[simp] theorem State.pending_wr (s : State) (key : Nat) (w : Word) : (s.wr key w).pending = s.pending := rfl
@[simp] theorem State.free_wr (s : State) (key : Nat) (w : Word) : (s.wr key w).free = s.free := rfl

/-! ### wf' changes nothing else -/

@[simp] theorem State.core_wf' (s : State) (key lo n v : Nat) (q : Nat) : (s.wf' key lo n v).core q = s.core q := rfl
@[simp] theorem State.grove_wf' (s : State) (key lo n v : Nat) (g : Nat) : (s.wf' key lo n v).grove g = s.grove g := rfl
@[simp] theorem State.part_wf' (s : State) (key lo n v : Nat) (k : Nat) : (s.wf' key lo n v).part k = s.part k := rfl
@[simp] theorem State.att_wf' (s : State) (key lo n v : Nat) (a : Nat) : (s.wf' key lo n v).att a = s.att a := rfl
@[simp] theorem State.port_wf' (s : State) (key lo n v : Nat) (e : Nat) : (s.wf' key lo n v).port e = s.port e := rfl
@[simp] theorem State.context_wf' (s : State) (key lo n v : Nat) (c : Nat) : (s.wf' key lo n v).context c = s.context c := rfl
@[simp] theorem State.byte_wf' (s : State) (key lo n v : Nat) (q o : Nat) : (s.wf' key lo n v).byte q o = s.byte q o := rfl
@[simp] theorem State.bad_wf' (s : State) (key lo n v : Nat) (q o : Nat) : (s.wf' key lo n v).bad q o = s.bad q o := rfl
@[simp] theorem State.hbmByte_wf' (s : State) (key lo n v : Nat) (b : Nat) : (s.wf' key lo n v).hbmByte b = s.hbmByte b := rfl
@[simp] theorem State.flaws_wf' (s : State) (key lo n v : Nat) : (s.wf' key lo n v).flaws = s.flaws := rfl
@[simp] theorem State.linkDead_wf' (s : State) (key lo n v : Nat) : (s.wf' key lo n v).linkDead = s.linkDead := rfl
@[simp] theorem State.waiting_wf' (s : State) (key lo n v : Nat) : (s.wf' key lo n v).waiting = s.waiting := rfl
@[simp] theorem State.forwards_wf' (s : State) (key lo n v : Nat) : (s.wf' key lo n v).forwards = s.forwards := rfl
@[simp] theorem State.net_wf' (s : State) (key lo n v : Nat) : (s.wf' key lo n v).net = s.net := rfl
@[simp] theorem State.sigs_wf' (s : State) (key lo n v : Nat) : (s.wf' key lo n v).sigs = s.sigs := rfl
@[simp] theorem State.tb_wf' (s : State) (key lo n v : Nat) : (s.wf' key lo n v).tb = s.tb := rfl
@[simp] theorem State.mgt_wf' (s : State) (key lo n v : Nat) : (s.wf' key lo n v).mgt = s.mgt := rfl
@[simp] theorem State.pins_wf' (s : State) (key lo n v : Nat) : (s.wf' key lo n v).pins = s.pins := rfl
@[simp] theorem State.flash_wf' (s : State) (key lo n v : Nat) : (s.wf' key lo n v).flash = s.flash := rfl
@[simp] theorem State.fuses_wf' (s : State) (key lo n v : Nat) : (s.wf' key lo n v).fuses = s.fuses := rfl
@[simp] theorem State.up_wf' (s : State) (key lo n v : Nat) : (s.wf' key lo n v).up = s.up := rfl
@[simp] theorem State.out_wf' (s : State) (key lo n v : Nat) : (s.wf' key lo n v).out = s.out := rfl
@[simp] theorem State.pending_wf' (s : State) (key lo n v : Nat) : (s.wf' key lo n v).pending = s.pending := rfl
@[simp] theorem State.free_wf' (s : State) (key lo n v : Nat) : (s.wf' key lo n v).free = s.free := rfl

/-! ### count changes nothing else -/

@[simp] theorem State.core_count (s : State) (key n : Nat) (q : Nat) : (s.count key n).core q = s.core q := rfl
@[simp] theorem State.grove_count (s : State) (key n : Nat) (g : Nat) : (s.count key n).grove g = s.grove g := rfl
@[simp] theorem State.part_count (s : State) (key n : Nat) (k : Nat) : (s.count key n).part k = s.part k := rfl
@[simp] theorem State.att_count (s : State) (key n : Nat) (a : Nat) : (s.count key n).att a = s.att a := rfl
@[simp] theorem State.port_count (s : State) (key n : Nat) (e : Nat) : (s.count key n).port e = s.port e := rfl
@[simp] theorem State.context_count (s : State) (key n : Nat) (c : Nat) : (s.count key n).context c = s.context c := rfl
@[simp] theorem State.byte_count (s : State) (key n : Nat) (q o : Nat) : (s.count key n).byte q o = s.byte q o := rfl
@[simp] theorem State.bad_count (s : State) (key n : Nat) (q o : Nat) : (s.count key n).bad q o = s.bad q o := rfl
@[simp] theorem State.hbmByte_count (s : State) (key n : Nat) (b : Nat) : (s.count key n).hbmByte b = s.hbmByte b := rfl
@[simp] theorem State.flaws_count (s : State) (key n : Nat) : (s.count key n).flaws = s.flaws := rfl
@[simp] theorem State.linkDead_count (s : State) (key n : Nat) : (s.count key n).linkDead = s.linkDead := rfl
@[simp] theorem State.waiting_count (s : State) (key n : Nat) : (s.count key n).waiting = s.waiting := rfl
@[simp] theorem State.forwards_count (s : State) (key n : Nat) : (s.count key n).forwards = s.forwards := rfl
@[simp] theorem State.net_count (s : State) (key n : Nat) : (s.count key n).net = s.net := rfl
@[simp] theorem State.sigs_count (s : State) (key n : Nat) : (s.count key n).sigs = s.sigs := rfl
@[simp] theorem State.tb_count (s : State) (key n : Nat) : (s.count key n).tb = s.tb := rfl
@[simp] theorem State.mgt_count (s : State) (key n : Nat) : (s.count key n).mgt = s.mgt := rfl
@[simp] theorem State.pins_count (s : State) (key n : Nat) : (s.count key n).pins = s.pins := rfl
@[simp] theorem State.flash_count (s : State) (key n : Nat) : (s.count key n).flash = s.flash := rfl
@[simp] theorem State.fuses_count (s : State) (key n : Nat) : (s.count key n).fuses = s.fuses := rfl
@[simp] theorem State.up_count (s : State) (key n : Nat) : (s.count key n).up = s.up := rfl
@[simp] theorem State.out_count (s : State) (key n : Nat) : (s.count key n).out = s.out := rfl
@[simp] theorem State.pending_count (s : State) (key n : Nat) : (s.count key n).pending = s.pending := rfl
@[simp] theorem State.free_count (s : State) (key n : Nat) : (s.count key n).free = s.free := rfl

/-! ### updCore changes nothing else -/

@[simp] theorem State.rd_updCore (s : State) (p : Nat) (f : Core → Core) (k : Nat) : (s.updCore p f).rd k = s.rd k := rfl
@[simp] theorem State.grove_updCore (s : State) (p : Nat) (f : Core → Core) (g : Nat) : (s.updCore p f).grove g = s.grove g := rfl
@[simp] theorem State.part_updCore (s : State) (p : Nat) (f : Core → Core) (k : Nat) : (s.updCore p f).part k = s.part k := rfl
@[simp] theorem State.att_updCore (s : State) (p : Nat) (f : Core → Core) (a : Nat) : (s.updCore p f).att a = s.att a := rfl
@[simp] theorem State.port_updCore (s : State) (p : Nat) (f : Core → Core) (e : Nat) : (s.updCore p f).port e = s.port e := rfl
@[simp] theorem State.context_updCore (s : State) (p : Nat) (f : Core → Core) (c : Nat) : (s.updCore p f).context c = s.context c := rfl
@[simp] theorem State.byte_updCore (s : State) (p : Nat) (f : Core → Core) (q o : Nat) : (s.updCore p f).byte q o = s.byte q o := rfl
@[simp] theorem State.bad_updCore (s : State) (p : Nat) (f : Core → Core) (q o : Nat) : (s.updCore p f).bad q o = s.bad q o := rfl
@[simp] theorem State.hbmByte_updCore (s : State) (p : Nat) (f : Core → Core) (b : Nat) : (s.updCore p f).hbmByte b = s.hbmByte b := rfl
@[simp] theorem State.flaws_updCore (s : State) (p : Nat) (f : Core → Core) : (s.updCore p f).flaws = s.flaws := rfl
@[simp] theorem State.linkDead_updCore (s : State) (p : Nat) (f : Core → Core) : (s.updCore p f).linkDead = s.linkDead := rfl
@[simp] theorem State.waiting_updCore (s : State) (p : Nat) (f : Core → Core) : (s.updCore p f).waiting = s.waiting := rfl
@[simp] theorem State.forwards_updCore (s : State) (p : Nat) (f : Core → Core) : (s.updCore p f).forwards = s.forwards := rfl
@[simp] theorem State.net_updCore (s : State) (p : Nat) (f : Core → Core) : (s.updCore p f).net = s.net := rfl
@[simp] theorem State.sigs_updCore (s : State) (p : Nat) (f : Core → Core) : (s.updCore p f).sigs = s.sigs := rfl
@[simp] theorem State.tb_updCore (s : State) (p : Nat) (f : Core → Core) : (s.updCore p f).tb = s.tb := rfl
@[simp] theorem State.mgt_updCore (s : State) (p : Nat) (f : Core → Core) : (s.updCore p f).mgt = s.mgt := rfl
@[simp] theorem State.pins_updCore (s : State) (p : Nat) (f : Core → Core) : (s.updCore p f).pins = s.pins := rfl
@[simp] theorem State.flash_updCore (s : State) (p : Nat) (f : Core → Core) : (s.updCore p f).flash = s.flash := rfl
@[simp] theorem State.fuses_updCore (s : State) (p : Nat) (f : Core → Core) : (s.updCore p f).fuses = s.fuses := rfl
@[simp] theorem State.up_updCore (s : State) (p : Nat) (f : Core → Core) : (s.updCore p f).up = s.up := rfl
@[simp] theorem State.out_updCore (s : State) (p : Nat) (f : Core → Core) : (s.updCore p f).out = s.out := rfl
@[simp] theorem State.pending_updCore (s : State) (p : Nat) (f : Core → Core) : (s.updCore p f).pending = s.pending := rfl
@[simp] theorem State.free_updCore (s : State) (p : Nat) (f : Core → Core) : (s.updCore p f).free = s.free := rfl

/-! ### updGrove changes nothing else -/

@[simp] theorem State.rd_updGrove (s : State) (p : Nat) (f : Grove → Grove) (k : Nat) : (s.updGrove p f).rd k = s.rd k := rfl
@[simp] theorem State.core_updGrove (s : State) (p : Nat) (f : Grove → Grove) (q : Nat) : (s.updGrove p f).core q = s.core q := rfl
@[simp] theorem State.part_updGrove (s : State) (p : Nat) (f : Grove → Grove) (k : Nat) : (s.updGrove p f).part k = s.part k := rfl
@[simp] theorem State.att_updGrove (s : State) (p : Nat) (f : Grove → Grove) (a : Nat) : (s.updGrove p f).att a = s.att a := rfl
@[simp] theorem State.port_updGrove (s : State) (p : Nat) (f : Grove → Grove) (e : Nat) : (s.updGrove p f).port e = s.port e := rfl
@[simp] theorem State.context_updGrove (s : State) (p : Nat) (f : Grove → Grove) (c : Nat) : (s.updGrove p f).context c = s.context c := rfl
@[simp] theorem State.byte_updGrove (s : State) (p : Nat) (f : Grove → Grove) (q o : Nat) : (s.updGrove p f).byte q o = s.byte q o := rfl
@[simp] theorem State.bad_updGrove (s : State) (p : Nat) (f : Grove → Grove) (q o : Nat) : (s.updGrove p f).bad q o = s.bad q o := rfl
@[simp] theorem State.hbmByte_updGrove (s : State) (p : Nat) (f : Grove → Grove) (b : Nat) : (s.updGrove p f).hbmByte b = s.hbmByte b := rfl
@[simp] theorem State.flaws_updGrove (s : State) (p : Nat) (f : Grove → Grove) : (s.updGrove p f).flaws = s.flaws := rfl
@[simp] theorem State.linkDead_updGrove (s : State) (p : Nat) (f : Grove → Grove) : (s.updGrove p f).linkDead = s.linkDead := rfl
@[simp] theorem State.waiting_updGrove (s : State) (p : Nat) (f : Grove → Grove) : (s.updGrove p f).waiting = s.waiting := rfl
@[simp] theorem State.forwards_updGrove (s : State) (p : Nat) (f : Grove → Grove) : (s.updGrove p f).forwards = s.forwards := rfl
@[simp] theorem State.net_updGrove (s : State) (p : Nat) (f : Grove → Grove) : (s.updGrove p f).net = s.net := rfl
@[simp] theorem State.sigs_updGrove (s : State) (p : Nat) (f : Grove → Grove) : (s.updGrove p f).sigs = s.sigs := rfl
@[simp] theorem State.tb_updGrove (s : State) (p : Nat) (f : Grove → Grove) : (s.updGrove p f).tb = s.tb := rfl
@[simp] theorem State.mgt_updGrove (s : State) (p : Nat) (f : Grove → Grove) : (s.updGrove p f).mgt = s.mgt := rfl
@[simp] theorem State.pins_updGrove (s : State) (p : Nat) (f : Grove → Grove) : (s.updGrove p f).pins = s.pins := rfl
@[simp] theorem State.flash_updGrove (s : State) (p : Nat) (f : Grove → Grove) : (s.updGrove p f).flash = s.flash := rfl
@[simp] theorem State.fuses_updGrove (s : State) (p : Nat) (f : Grove → Grove) : (s.updGrove p f).fuses = s.fuses := rfl
@[simp] theorem State.up_updGrove (s : State) (p : Nat) (f : Grove → Grove) : (s.updGrove p f).up = s.up := rfl
@[simp] theorem State.out_updGrove (s : State) (p : Nat) (f : Grove → Grove) : (s.updGrove p f).out = s.out := rfl
@[simp] theorem State.pending_updGrove (s : State) (p : Nat) (f : Grove → Grove) : (s.updGrove p f).pending = s.pending := rfl
@[simp] theorem State.free_updGrove (s : State) (p : Nat) (f : Grove → Grove) : (s.updGrove p f).free = s.free := rfl

/-! ### updPart changes nothing else -/

@[simp] theorem State.rd_updPart (s : State) (p : Nat) (f : Part → Part) (k : Nat) : (s.updPart p f).rd k = s.rd k := rfl
@[simp] theorem State.core_updPart (s : State) (p : Nat) (f : Part → Part) (q : Nat) : (s.updPart p f).core q = s.core q := rfl
@[simp] theorem State.grove_updPart (s : State) (p : Nat) (f : Part → Part) (g : Nat) : (s.updPart p f).grove g = s.grove g := rfl
@[simp] theorem State.att_updPart (s : State) (p : Nat) (f : Part → Part) (a : Nat) : (s.updPart p f).att a = s.att a := rfl
@[simp] theorem State.port_updPart (s : State) (p : Nat) (f : Part → Part) (e : Nat) : (s.updPart p f).port e = s.port e := rfl
@[simp] theorem State.context_updPart (s : State) (p : Nat) (f : Part → Part) (c : Nat) : (s.updPart p f).context c = s.context c := rfl
@[simp] theorem State.byte_updPart (s : State) (p : Nat) (f : Part → Part) (q o : Nat) : (s.updPart p f).byte q o = s.byte q o := rfl
@[simp] theorem State.bad_updPart (s : State) (p : Nat) (f : Part → Part) (q o : Nat) : (s.updPart p f).bad q o = s.bad q o := rfl
@[simp] theorem State.hbmByte_updPart (s : State) (p : Nat) (f : Part → Part) (b : Nat) : (s.updPart p f).hbmByte b = s.hbmByte b := rfl
@[simp] theorem State.flaws_updPart (s : State) (p : Nat) (f : Part → Part) : (s.updPart p f).flaws = s.flaws := rfl
@[simp] theorem State.linkDead_updPart (s : State) (p : Nat) (f : Part → Part) : (s.updPart p f).linkDead = s.linkDead := rfl
@[simp] theorem State.waiting_updPart (s : State) (p : Nat) (f : Part → Part) : (s.updPart p f).waiting = s.waiting := rfl
@[simp] theorem State.forwards_updPart (s : State) (p : Nat) (f : Part → Part) : (s.updPart p f).forwards = s.forwards := rfl
@[simp] theorem State.net_updPart (s : State) (p : Nat) (f : Part → Part) : (s.updPart p f).net = s.net := rfl
@[simp] theorem State.sigs_updPart (s : State) (p : Nat) (f : Part → Part) : (s.updPart p f).sigs = s.sigs := rfl
@[simp] theorem State.tb_updPart (s : State) (p : Nat) (f : Part → Part) : (s.updPart p f).tb = s.tb := rfl
@[simp] theorem State.mgt_updPart (s : State) (p : Nat) (f : Part → Part) : (s.updPart p f).mgt = s.mgt := rfl
@[simp] theorem State.pins_updPart (s : State) (p : Nat) (f : Part → Part) : (s.updPart p f).pins = s.pins := rfl
@[simp] theorem State.flash_updPart (s : State) (p : Nat) (f : Part → Part) : (s.updPart p f).flash = s.flash := rfl
@[simp] theorem State.fuses_updPart (s : State) (p : Nat) (f : Part → Part) : (s.updPart p f).fuses = s.fuses := rfl
@[simp] theorem State.up_updPart (s : State) (p : Nat) (f : Part → Part) : (s.updPart p f).up = s.up := rfl
@[simp] theorem State.out_updPart (s : State) (p : Nat) (f : Part → Part) : (s.updPart p f).out = s.out := rfl
@[simp] theorem State.pending_updPart (s : State) (p : Nat) (f : Part → Part) : (s.updPart p f).pending = s.pending := rfl
@[simp] theorem State.free_updPart (s : State) (p : Nat) (f : Part → Part) : (s.updPart p f).free = s.free := rfl

/-! ### updAtt changes nothing else -/

@[simp] theorem State.rd_updAtt (s : State) (p : Nat) (f : Att → Att) (k : Nat) : (s.updAtt p f).rd k = s.rd k := rfl
@[simp] theorem State.core_updAtt (s : State) (p : Nat) (f : Att → Att) (q : Nat) : (s.updAtt p f).core q = s.core q := rfl
@[simp] theorem State.grove_updAtt (s : State) (p : Nat) (f : Att → Att) (g : Nat) : (s.updAtt p f).grove g = s.grove g := rfl
@[simp] theorem State.part_updAtt (s : State) (p : Nat) (f : Att → Att) (k : Nat) : (s.updAtt p f).part k = s.part k := rfl
@[simp] theorem State.port_updAtt (s : State) (p : Nat) (f : Att → Att) (e : Nat) : (s.updAtt p f).port e = s.port e := rfl
@[simp] theorem State.context_updAtt (s : State) (p : Nat) (f : Att → Att) (c : Nat) : (s.updAtt p f).context c = s.context c := rfl
@[simp] theorem State.byte_updAtt (s : State) (p : Nat) (f : Att → Att) (q o : Nat) : (s.updAtt p f).byte q o = s.byte q o := rfl
@[simp] theorem State.bad_updAtt (s : State) (p : Nat) (f : Att → Att) (q o : Nat) : (s.updAtt p f).bad q o = s.bad q o := rfl
@[simp] theorem State.hbmByte_updAtt (s : State) (p : Nat) (f : Att → Att) (b : Nat) : (s.updAtt p f).hbmByte b = s.hbmByte b := rfl
@[simp] theorem State.flaws_updAtt (s : State) (p : Nat) (f : Att → Att) : (s.updAtt p f).flaws = s.flaws := rfl
@[simp] theorem State.linkDead_updAtt (s : State) (p : Nat) (f : Att → Att) : (s.updAtt p f).linkDead = s.linkDead := rfl
@[simp] theorem State.waiting_updAtt (s : State) (p : Nat) (f : Att → Att) : (s.updAtt p f).waiting = s.waiting := rfl
@[simp] theorem State.forwards_updAtt (s : State) (p : Nat) (f : Att → Att) : (s.updAtt p f).forwards = s.forwards := rfl
@[simp] theorem State.net_updAtt (s : State) (p : Nat) (f : Att → Att) : (s.updAtt p f).net = s.net := rfl
@[simp] theorem State.sigs_updAtt (s : State) (p : Nat) (f : Att → Att) : (s.updAtt p f).sigs = s.sigs := rfl
@[simp] theorem State.tb_updAtt (s : State) (p : Nat) (f : Att → Att) : (s.updAtt p f).tb = s.tb := rfl
@[simp] theorem State.mgt_updAtt (s : State) (p : Nat) (f : Att → Att) : (s.updAtt p f).mgt = s.mgt := rfl
@[simp] theorem State.pins_updAtt (s : State) (p : Nat) (f : Att → Att) : (s.updAtt p f).pins = s.pins := rfl
@[simp] theorem State.flash_updAtt (s : State) (p : Nat) (f : Att → Att) : (s.updAtt p f).flash = s.flash := rfl
@[simp] theorem State.fuses_updAtt (s : State) (p : Nat) (f : Att → Att) : (s.updAtt p f).fuses = s.fuses := rfl
@[simp] theorem State.up_updAtt (s : State) (p : Nat) (f : Att → Att) : (s.updAtt p f).up = s.up := rfl
@[simp] theorem State.out_updAtt (s : State) (p : Nat) (f : Att → Att) : (s.updAtt p f).out = s.out := rfl
@[simp] theorem State.pending_updAtt (s : State) (p : Nat) (f : Att → Att) : (s.updAtt p f).pending = s.pending := rfl
@[simp] theorem State.free_updAtt (s : State) (p : Nat) (f : Att → Att) : (s.updAtt p f).free = s.free := rfl

/-! ### updPort changes nothing else -/

@[simp] theorem State.rd_updPort (s : State) (p : Nat) (f : Port → Port) (k : Nat) : (s.updPort p f).rd k = s.rd k := rfl
@[simp] theorem State.core_updPort (s : State) (p : Nat) (f : Port → Port) (q : Nat) : (s.updPort p f).core q = s.core q := rfl
@[simp] theorem State.grove_updPort (s : State) (p : Nat) (f : Port → Port) (g : Nat) : (s.updPort p f).grove g = s.grove g := rfl
@[simp] theorem State.part_updPort (s : State) (p : Nat) (f : Port → Port) (k : Nat) : (s.updPort p f).part k = s.part k := rfl
@[simp] theorem State.att_updPort (s : State) (p : Nat) (f : Port → Port) (a : Nat) : (s.updPort p f).att a = s.att a := rfl
@[simp] theorem State.context_updPort (s : State) (p : Nat) (f : Port → Port) (c : Nat) : (s.updPort p f).context c = s.context c := rfl
@[simp] theorem State.byte_updPort (s : State) (p : Nat) (f : Port → Port) (q o : Nat) : (s.updPort p f).byte q o = s.byte q o := rfl
@[simp] theorem State.bad_updPort (s : State) (p : Nat) (f : Port → Port) (q o : Nat) : (s.updPort p f).bad q o = s.bad q o := rfl
@[simp] theorem State.hbmByte_updPort (s : State) (p : Nat) (f : Port → Port) (b : Nat) : (s.updPort p f).hbmByte b = s.hbmByte b := rfl
@[simp] theorem State.flaws_updPort (s : State) (p : Nat) (f : Port → Port) : (s.updPort p f).flaws = s.flaws := rfl
@[simp] theorem State.linkDead_updPort (s : State) (p : Nat) (f : Port → Port) : (s.updPort p f).linkDead = s.linkDead := rfl
@[simp] theorem State.waiting_updPort (s : State) (p : Nat) (f : Port → Port) : (s.updPort p f).waiting = s.waiting := rfl
@[simp] theorem State.forwards_updPort (s : State) (p : Nat) (f : Port → Port) : (s.updPort p f).forwards = s.forwards := rfl
@[simp] theorem State.net_updPort (s : State) (p : Nat) (f : Port → Port) : (s.updPort p f).net = s.net := rfl
@[simp] theorem State.sigs_updPort (s : State) (p : Nat) (f : Port → Port) : (s.updPort p f).sigs = s.sigs := rfl
@[simp] theorem State.tb_updPort (s : State) (p : Nat) (f : Port → Port) : (s.updPort p f).tb = s.tb := rfl
@[simp] theorem State.mgt_updPort (s : State) (p : Nat) (f : Port → Port) : (s.updPort p f).mgt = s.mgt := rfl
@[simp] theorem State.pins_updPort (s : State) (p : Nat) (f : Port → Port) : (s.updPort p f).pins = s.pins := rfl
@[simp] theorem State.flash_updPort (s : State) (p : Nat) (f : Port → Port) : (s.updPort p f).flash = s.flash := rfl
@[simp] theorem State.fuses_updPort (s : State) (p : Nat) (f : Port → Port) : (s.updPort p f).fuses = s.fuses := rfl
@[simp] theorem State.up_updPort (s : State) (p : Nat) (f : Port → Port) : (s.updPort p f).up = s.up := rfl
@[simp] theorem State.out_updPort (s : State) (p : Nat) (f : Port → Port) : (s.updPort p f).out = s.out := rfl
@[simp] theorem State.pending_updPort (s : State) (p : Nat) (f : Port → Port) : (s.updPort p f).pending = s.pending := rfl
@[simp] theorem State.free_updPort (s : State) (p : Nat) (f : Port → Port) : (s.updPort p f).free = s.free := rfl

/-! ### updMgt changes nothing else -/

@[simp] theorem State.rd_updMgt (s : State) (f : Mgt → Mgt) (k : Nat) : (s.updMgt f).rd k = s.rd k := rfl
@[simp] theorem State.core_updMgt (s : State) (f : Mgt → Mgt) (q : Nat) : (s.updMgt f).core q = s.core q := rfl
@[simp] theorem State.grove_updMgt (s : State) (f : Mgt → Mgt) (g : Nat) : (s.updMgt f).grove g = s.grove g := rfl
@[simp] theorem State.part_updMgt (s : State) (f : Mgt → Mgt) (k : Nat) : (s.updMgt f).part k = s.part k := rfl
@[simp] theorem State.att_updMgt (s : State) (f : Mgt → Mgt) (a : Nat) : (s.updMgt f).att a = s.att a := rfl
@[simp] theorem State.port_updMgt (s : State) (f : Mgt → Mgt) (e : Nat) : (s.updMgt f).port e = s.port e := rfl
@[simp] theorem State.context_updMgt (s : State) (f : Mgt → Mgt) (c : Nat) : (s.updMgt f).context c = s.context c := rfl
@[simp] theorem State.byte_updMgt (s : State) (f : Mgt → Mgt) (q o : Nat) : (s.updMgt f).byte q o = s.byte q o := rfl
@[simp] theorem State.bad_updMgt (s : State) (f : Mgt → Mgt) (q o : Nat) : (s.updMgt f).bad q o = s.bad q o := rfl
@[simp] theorem State.hbmByte_updMgt (s : State) (f : Mgt → Mgt) (b : Nat) : (s.updMgt f).hbmByte b = s.hbmByte b := rfl
@[simp] theorem State.flaws_updMgt (s : State) (f : Mgt → Mgt) : (s.updMgt f).flaws = s.flaws := rfl
@[simp] theorem State.linkDead_updMgt (s : State) (f : Mgt → Mgt) : (s.updMgt f).linkDead = s.linkDead := rfl
@[simp] theorem State.waiting_updMgt (s : State) (f : Mgt → Mgt) : (s.updMgt f).waiting = s.waiting := rfl
@[simp] theorem State.forwards_updMgt (s : State) (f : Mgt → Mgt) : (s.updMgt f).forwards = s.forwards := rfl
@[simp] theorem State.net_updMgt (s : State) (f : Mgt → Mgt) : (s.updMgt f).net = s.net := rfl
@[simp] theorem State.sigs_updMgt (s : State) (f : Mgt → Mgt) : (s.updMgt f).sigs = s.sigs := rfl
@[simp] theorem State.tb_updMgt (s : State) (f : Mgt → Mgt) : (s.updMgt f).tb = s.tb := rfl
@[simp] theorem State.pins_updMgt (s : State) (f : Mgt → Mgt) : (s.updMgt f).pins = s.pins := rfl
@[simp] theorem State.flash_updMgt (s : State) (f : Mgt → Mgt) : (s.updMgt f).flash = s.flash := rfl
@[simp] theorem State.fuses_updMgt (s : State) (f : Mgt → Mgt) : (s.updMgt f).fuses = s.fuses := rfl
@[simp] theorem State.up_updMgt (s : State) (f : Mgt → Mgt) : (s.updMgt f).up = s.up := rfl
@[simp] theorem State.out_updMgt (s : State) (f : Mgt → Mgt) : (s.updMgt f).out = s.out := rfl
@[simp] theorem State.pending_updMgt (s : State) (f : Mgt → Mgt) : (s.updMgt f).pending = s.pending := rfl
@[simp] theorem State.free_updMgt (s : State) (f : Mgt → Mgt) : (s.updMgt f).free = s.free := rfl

/-! ### updPins changes nothing else -/

@[simp] theorem State.rd_updPins (s : State) (f : Pins → Pins) (k : Nat) : (s.updPins f).rd k = s.rd k := rfl
@[simp] theorem State.core_updPins (s : State) (f : Pins → Pins) (q : Nat) : (s.updPins f).core q = s.core q := rfl
@[simp] theorem State.grove_updPins (s : State) (f : Pins → Pins) (g : Nat) : (s.updPins f).grove g = s.grove g := rfl
@[simp] theorem State.part_updPins (s : State) (f : Pins → Pins) (k : Nat) : (s.updPins f).part k = s.part k := rfl
@[simp] theorem State.att_updPins (s : State) (f : Pins → Pins) (a : Nat) : (s.updPins f).att a = s.att a := rfl
@[simp] theorem State.port_updPins (s : State) (f : Pins → Pins) (e : Nat) : (s.updPins f).port e = s.port e := rfl
@[simp] theorem State.context_updPins (s : State) (f : Pins → Pins) (c : Nat) : (s.updPins f).context c = s.context c := rfl
@[simp] theorem State.byte_updPins (s : State) (f : Pins → Pins) (q o : Nat) : (s.updPins f).byte q o = s.byte q o := rfl
@[simp] theorem State.bad_updPins (s : State) (f : Pins → Pins) (q o : Nat) : (s.updPins f).bad q o = s.bad q o := rfl
@[simp] theorem State.hbmByte_updPins (s : State) (f : Pins → Pins) (b : Nat) : (s.updPins f).hbmByte b = s.hbmByte b := rfl
@[simp] theorem State.flaws_updPins (s : State) (f : Pins → Pins) : (s.updPins f).flaws = s.flaws := rfl
@[simp] theorem State.linkDead_updPins (s : State) (f : Pins → Pins) : (s.updPins f).linkDead = s.linkDead := rfl
@[simp] theorem State.waiting_updPins (s : State) (f : Pins → Pins) : (s.updPins f).waiting = s.waiting := rfl
@[simp] theorem State.forwards_updPins (s : State) (f : Pins → Pins) : (s.updPins f).forwards = s.forwards := rfl
@[simp] theorem State.net_updPins (s : State) (f : Pins → Pins) : (s.updPins f).net = s.net := rfl
@[simp] theorem State.sigs_updPins (s : State) (f : Pins → Pins) : (s.updPins f).sigs = s.sigs := rfl
@[simp] theorem State.tb_updPins (s : State) (f : Pins → Pins) : (s.updPins f).tb = s.tb := rfl
@[simp] theorem State.mgt_updPins (s : State) (f : Pins → Pins) : (s.updPins f).mgt = s.mgt := rfl
@[simp] theorem State.flash_updPins (s : State) (f : Pins → Pins) : (s.updPins f).flash = s.flash := rfl
@[simp] theorem State.fuses_updPins (s : State) (f : Pins → Pins) : (s.updPins f).fuses = s.fuses := rfl
@[simp] theorem State.up_updPins (s : State) (f : Pins → Pins) : (s.updPins f).up = s.up := rfl
@[simp] theorem State.out_updPins (s : State) (f : Pins → Pins) : (s.updPins f).out = s.out := rfl
@[simp] theorem State.pending_updPins (s : State) (f : Pins → Pins) : (s.updPins f).pending = s.pending := rfl
@[simp] theorem State.free_updPins (s : State) (f : Pins → Pins) : (s.updPins f).free = s.free := rfl

/-! ### emitOut changes nothing else -/

@[simp] theorem State.rd_emitOut (s : State) (x : Out) (k : Nat) : (s.emitOut x).rd k = s.rd k := rfl
@[simp] theorem State.core_emitOut (s : State) (x : Out) (q : Nat) : (s.emitOut x).core q = s.core q := rfl
@[simp] theorem State.grove_emitOut (s : State) (x : Out) (g : Nat) : (s.emitOut x).grove g = s.grove g := rfl
@[simp] theorem State.part_emitOut (s : State) (x : Out) (k : Nat) : (s.emitOut x).part k = s.part k := rfl
@[simp] theorem State.att_emitOut (s : State) (x : Out) (a : Nat) : (s.emitOut x).att a = s.att a := rfl
@[simp] theorem State.port_emitOut (s : State) (x : Out) (e : Nat) : (s.emitOut x).port e = s.port e := rfl
@[simp] theorem State.context_emitOut (s : State) (x : Out) (c : Nat) : (s.emitOut x).context c = s.context c := rfl
@[simp] theorem State.byte_emitOut (s : State) (x : Out) (q o : Nat) : (s.emitOut x).byte q o = s.byte q o := rfl
@[simp] theorem State.bad_emitOut (s : State) (x : Out) (q o : Nat) : (s.emitOut x).bad q o = s.bad q o := rfl
@[simp] theorem State.hbmByte_emitOut (s : State) (x : Out) (b : Nat) : (s.emitOut x).hbmByte b = s.hbmByte b := rfl
@[simp] theorem State.flaws_emitOut (s : State) (x : Out) : (s.emitOut x).flaws = s.flaws := rfl
@[simp] theorem State.linkDead_emitOut (s : State) (x : Out) : (s.emitOut x).linkDead = s.linkDead := rfl
@[simp] theorem State.waiting_emitOut (s : State) (x : Out) : (s.emitOut x).waiting = s.waiting := rfl
@[simp] theorem State.forwards_emitOut (s : State) (x : Out) : (s.emitOut x).forwards = s.forwards := rfl
@[simp] theorem State.net_emitOut (s : State) (x : Out) : (s.emitOut x).net = s.net := rfl
@[simp] theorem State.sigs_emitOut (s : State) (x : Out) : (s.emitOut x).sigs = s.sigs := rfl
@[simp] theorem State.tb_emitOut (s : State) (x : Out) : (s.emitOut x).tb = s.tb := rfl
@[simp] theorem State.mgt_emitOut (s : State) (x : Out) : (s.emitOut x).mgt = s.mgt := rfl
@[simp] theorem State.pins_emitOut (s : State) (x : Out) : (s.emitOut x).pins = s.pins := rfl
@[simp] theorem State.flash_emitOut (s : State) (x : Out) : (s.emitOut x).flash = s.flash := rfl
@[simp] theorem State.fuses_emitOut (s : State) (x : Out) : (s.emitOut x).fuses = s.fuses := rfl
@[simp] theorem State.up_emitOut (s : State) (x : Out) : (s.emitOut x).up = s.up := rfl
@[simp] theorem State.pending_emitOut (s : State) (x : Out) : (s.emitOut x).pending = s.pending := rfl
@[simp] theorem State.free_emitOut (s : State) (x : Out) : (s.emitOut x).free = s.free := rfl

/-! ### put changes nothing else -/

@[simp] theorem State.rd_put (s : State) (f : Flight) (k : Nat) : (s.put f).rd k = s.rd k := rfl
@[simp] theorem State.core_put (s : State) (f : Flight) (q : Nat) : (s.put f).core q = s.core q := rfl
@[simp] theorem State.grove_put (s : State) (f : Flight) (g : Nat) : (s.put f).grove g = s.grove g := rfl
@[simp] theorem State.part_put (s : State) (f : Flight) (k : Nat) : (s.put f).part k = s.part k := rfl
@[simp] theorem State.att_put (s : State) (f : Flight) (a : Nat) : (s.put f).att a = s.att a := rfl
@[simp] theorem State.port_put (s : State) (f : Flight) (e : Nat) : (s.put f).port e = s.port e := rfl
@[simp] theorem State.context_put (s : State) (f : Flight) (c : Nat) : (s.put f).context c = s.context c := rfl
@[simp] theorem State.byte_put (s : State) (f : Flight) (q o : Nat) : (s.put f).byte q o = s.byte q o := rfl
@[simp] theorem State.bad_put (s : State) (f : Flight) (q o : Nat) : (s.put f).bad q o = s.bad q o := rfl
@[simp] theorem State.hbmByte_put (s : State) (f : Flight) (b : Nat) : (s.put f).hbmByte b = s.hbmByte b := rfl
@[simp] theorem State.flaws_put (s : State) (f : Flight) : (s.put f).flaws = s.flaws := rfl
@[simp] theorem State.linkDead_put (s : State) (f : Flight) : (s.put f).linkDead = s.linkDead := rfl
@[simp] theorem State.waiting_put (s : State) (f : Flight) : (s.put f).waiting = s.waiting := rfl
@[simp] theorem State.forwards_put (s : State) (f : Flight) : (s.put f).forwards = s.forwards := rfl
@[simp] theorem State.sigs_put (s : State) (f : Flight) : (s.put f).sigs = s.sigs := rfl
@[simp] theorem State.tb_put (s : State) (f : Flight) : (s.put f).tb = s.tb := rfl
@[simp] theorem State.mgt_put (s : State) (f : Flight) : (s.put f).mgt = s.mgt := rfl
@[simp] theorem State.pins_put (s : State) (f : Flight) : (s.put f).pins = s.pins := rfl
@[simp] theorem State.flash_put (s : State) (f : Flight) : (s.put f).flash = s.flash := rfl
@[simp] theorem State.fuses_put (s : State) (f : Flight) : (s.put f).fuses = s.fuses := rfl
@[simp] theorem State.up_put (s : State) (f : Flight) : (s.put f).up = s.up := rfl
@[simp] theorem State.out_put (s : State) (f : Flight) : (s.put f).out = s.out := rfl
@[simp] theorem State.pending_put (s : State) (f : Flight) : (s.put f).pending = s.pending := rfl
@[simp] theorem State.free_put (s : State) (f : Flight) : (s.put f).free = s.free := rfl

end Sys2Proof.Machine
end

