-- ==== Sys2Proof/WellFormed.lean ====
section
/-! DEFINITION. Which commands name things that exist: an attachment, a core, a partition, a register number within its
range. A field the hardware itself keeps within its width is held to that width. What no check names is free. -/
namespace Sys2Proof

/-- Rings of a kind (0 command, 1 completion, 2 egress) that an attachment has (11_host_interface.md R388). -/
def ringLimit (kind : Nat) : Nat := if kind < 2 then 64 else 512

/-- A command whose operands name things that exist. -/
def wellFormed : Instr → Bool
  | .registerWrite a addr _ => decide (a < 8 ∧ addr < 2 ^ 36)
  | .reg64LoRead a addr => decide (a < 8 ∧ addr < 2 ^ 36)
  | .roleFenceWrite a p _ => decide (a < 8 ∧ p < 9216)
  | .groveFault g cause => decide (g < 64 ∧ cause < 3)
  | .stepOpen k => decide (k < 64)
  | .stepOpenIndication p _ _ _ => decide (p < 9216)
  | .integrationSpanEnd p => decide (p < 9216)
  | .deferredDeposit p => decide (p < 9216)
  | .coreClockGate p => decide (p < 9216)
  | .coreWake p src => decide (p < 9216 ∧ src < 4)
  | .synEventTake p _ _ => decide (p < 9216)
  | .rowRequest _ => true
  | .rowHeader _ => true
  | .block _ _ _ => true
  | .hbmReadReturn g _ status _ _ _ => decide (g < 64 ∧ status < 3)
  | .hbmTrainingLost st _ => decide (st < 4)
  | .denseColumnBlockDone p _ => decide (p < 9216)
  | .denseOpDone p => decide (p < 9216)
  | .canopyPacketArrive _ => true
  | .stopReceiveCopy _ => true
  | .linkFlitReceive k port bytes => decide ((k < 9280 ∨ (10000 ≤ k ∧ k < 10064) ∨ (11000 ≤ k ∧ k < 11064)) ∧ port < 8 ∧ bytes.length = 52)
  | .linkNack k port (_, m) => decide ((k < 9280 ∨ (10000 ≤ k ∧ k < 10064) ∨ (11000 ≤ k ∧ k < 11064)) ∧ port < 8 ∧ 0 < m ∧ m ≤ 4)
  | .linkResyncDone k port => decide ((k < 9280 ∨ (10000 ≤ k ∧ k < 10064) ∨ (11000 ≤ k ∧ k < 11064)) ∧ port < 8)
  | .routerFault k => decide (k < 9216)
  | .routerReset a k _ => decide (a < 8 ∧ k < 9216)
  | .routerResetDone k => decide (k < 9216)
  | .clearingStart a k => decide (a < 8 ∧ k < 64)
  | .clearingRun k => decide (k < 64)
  | .clearingSwap k => decide (k < 64)
  | .clearingTimeout k => decide (k < 64)
  | .deliveryEvaluate k => decide (k < 64)
  | .msg _ => true
  | .notify _ => true
  | .amArgs _ => true
  | .response _ => true
  | .syncReply _ => true
  | .responseSend p => decide (p < 9216)
  | .handlerDispatch p => decide (p < 9216)
  | .ret p low => decide (p < 9216 ∧ low < 2 ^ 26)
  | .add p rd ra rb ext => decide (p < 9216 ∧ rd < 16 ∧ ra < 16 ∧ rb < 16 ∧ ext < 2 ^ 14)
  | .sub p rd ra rb ext => decide (p < 9216 ∧ rd < 16 ∧ ra < 16 ∧ rb < 16 ∧ ext < 2 ^ 14)
  | .and p rd ra rb ext => decide (p < 9216 ∧ rd < 16 ∧ ra < 16 ∧ rb < 16 ∧ ext < 2 ^ 14)
  | .or p rd ra rb ext => decide (p < 9216 ∧ rd < 16 ∧ ra < 16 ∧ rb < 16 ∧ ext < 2 ^ 14)
  | .xor p rd ra rb ext => decide (p < 9216 ∧ rd < 16 ∧ ra < 16 ∧ rb < 16 ∧ ext < 2 ^ 14)
  | .shl p rd ra rb ext => decide (p < 9216 ∧ rd < 16 ∧ ra < 16 ∧ rb < 16 ∧ ext < 2 ^ 14)
  | .shr p rd ra rb ext => decide (p < 9216 ∧ rd < 16 ∧ ra < 16 ∧ rb < 16 ∧ ext < 2 ^ 14)
  | .sar p rd ra rb ext => decide (p < 9216 ∧ rd < 16 ∧ ra < 16 ∧ rb < 16 ∧ ext < 2 ^ 14)
  | .slt p rd ra rb ext => decide (p < 9216 ∧ rd < 16 ∧ ra < 16 ∧ rb < 16 ∧ ext < 2 ^ 14)
  | .mul p rd ra rb ext => decide (p < 9216 ∧ rd < 16 ∧ ra < 16 ∧ rb < 16 ∧ ext < 2 ^ 14)
  | .addi p rd ra imm => decide (p < 9216 ∧ rd < 16 ∧ ra < 16 ∧ imm < 2 ^ 18)
  | .andi p rd ra imm => decide (p < 9216 ∧ rd < 16 ∧ ra < 16 ∧ imm < 2 ^ 18)
  | .ori p rd ra imm => decide (p < 9216 ∧ rd < 16 ∧ ra < 16 ∧ imm < 2 ^ 18)
  | .lui p rd ra imm => decide (p < 9216 ∧ rd < 16 ∧ ra < 16 ∧ imm < 2 ^ 18)
  | .ld p rd ra imm => decide (p < 9216 ∧ rd < 16 ∧ ra < 16 ∧ imm < 2 ^ 18)
  | .st p rd ra imm => decide (p < 9216 ∧ rd < 16 ∧ ra < 16 ∧ imm < 2 ^ 18)
  | .ldb p rd ra imm => decide (p < 9216 ∧ rd < 16 ∧ ra < 16 ∧ imm < 2 ^ 18)
  | .stb p rd ra imm => decide (p < 9216 ∧ rd < 16 ∧ ra < 16 ∧ imm < 2 ^ 18)
  | .nrd p rd ra imm => decide (p < 9216 ∧ rd < 16 ∧ ra < 16 ∧ imm < 2 ^ 18)
  | .sys p rd ra imm => decide (p < 9216 ∧ rd < 16 ∧ ra < 16 ∧ imm < 2 ^ 18)
  | .emit p rd ra rb ext => decide (p < 9216 ∧ rd < 16 ∧ ra < 16 ∧ rb < 16 ∧ ext < 2 ^ 14)
  | .dense p rd ra rb ext => decide (p < 9216 ∧ rd < 16 ∧ ra < 16 ∧ rb < 16 ∧ ext < 2 ^ 14)
  | .send p rd ra rb ext => decide (p < 9216 ∧ rd < 16 ∧ ra < 16 ∧ rb < 16 ∧ ext < 2 ^ 14)
  | .sendw p rd ra rb ext => decide (p < 9216 ∧ rd < 16 ∧ ra < 16 ∧ rb < 16 ∧ ext < 2 ^ 14)
  | .waitq p rd ra imm => decide (p < 9216 ∧ rd < 16 ∧ ra < 16 ∧ imm < 2 ^ 18)
  | .sadd p rd ra rb ext => decide (p < 9216 ∧ rd < 16 ∧ ra < 16 ∧ rb < 16 ∧ ext < 2 ^ 14)
  | .swait p rd ra rb ext => decide (p < 9216 ∧ rd < 16 ∧ ra < 16 ∧ rb < 16 ∧ ext < 2 ^ 14)
  | .sread p rd ra rb ext => decide (p < 9216 ∧ rd < 16 ∧ ra < 16 ∧ rb < 16 ∧ ext < 2 ^ 14)
  | .beq p ra rb off => decide (p < 9216 ∧ ra < 16 ∧ rb < 16 ∧ off < 2 ^ 18)
  | .bne p ra rb off => decide (p < 9216 ∧ ra < 16 ∧ rb < 16 ∧ off < 2 ^ 18)
  | .blt p ra rb off => decide (p < 9216 ∧ ra < 16 ∧ rb < 16 ∧ off < 2 ^ 18)
  | .bge p ra rb off => decide (p < 9216 ∧ ra < 16 ∧ rb < 16 ∧ off < 2 ^ 18)
  | .j p low => decide (p < 9216 ∧ low < 2 ^ 26)
  | .handlerBudgetExpire p => decide (p < 9216)
  | .sendResponseTimeout p => decide (p < 9216)
  | .sendwRetryGap p => decide (p < 9216)
  | .waitqTimeout p => decide (p < 9216)
  | .syncAdd _ => true
  | .syncWait _ => true
  | .syncRead _ => true
  | .syncNotifyIssue g => decide (g < 64)
  | .hostSyncAdd a g i _ => decide (a < 8 ∧ g < 64 ∧ i < 2048)
  | .bar2SyncWrite a g i reg _ => decide (a < 8 ∧ g < 64 ∧ i < 2048 ∧ (reg = 0 ∨ reg = 4 ∨ reg = 8))
  | .encCount edge => decide (edge < 3)
  | .lineEdge => true
  | .mainsZeroCross => true
  | .mainsTick => true
  | .ptpFollowTick => true
  | .intTick => true
  | .phaseLost => true
  | .sourceAutoReturn => true
  | .pinStamp i _ => decide (i < 8)
  | .stampDeliver i => decide (i < 8)
  | .channelFire ch => decide (ch < 37888)
  | .channelArm a ch _ => decide (a < 8 ∧ ch < 37888)
  | .channelDisarm a ch _ => decide (a < 8 ∧ ch < 37888)
  | .compareWrite a ch _ => decide (a < 8 ∧ ch < 37888)
  | .intervalWrite a ch _ => decide (a < 8 ∧ ch < 37888)
  | .groupStart a _ => decide (a < 8)
  | .sequencerFire k => decide (k < 64)
  | .stretchLimit k => decide (k < 64)
  | .lastInjectionDeclare p => decide (p < 9216)
  | .round k => decide (k < 64)
  | .checkReport _ => true
  | .groveVerdict g => decide (g < 64)
  | .shadowCopy g _ => decide (g < 64)
  | .replayCopyDone g _ _ _ => decide (g < 64)
  | .replayDone g => decide (g < 64)
  | .twinRepairDone g => decide (g < 64)
  | .partitionCommit k => decide (k < 64)
  | .fenceMigrationDone g => decide (g < 64)
  | .plsPassDone g _ => decide (g < 64)
  | .applyStart k => decide (k < 64)
  | .applyDone g _ => decide (g < 64)
  | .endEpoch a k _ => decide (a < 8 ∧ k < 64)
  | .scrub p err => decide (p < 9216 ∧ err < 3)
  | .cfgDigestPass k => decide (k < 64)
  | .testDue p => decide (p < 9216)
  | .testMigrate p => decide (p < 9216)
  | .testDeferExpire p => decide (p < 9216)
  | .testDone p _ _ => decide (p < 9216)
  | .functionLevelReset a => decide (a < 8)
  | .pcieLinkLoss a => decide (a < 8)
  | .perstChange a _ => decide (a < 8)
  | .configRequest a (off, _) => decide (a < 8 ∧ off < 1024)
  | .scanEnable a _ => decide (a < 8)
  | .ringEnable a kind r _ => decide (a < 8 ∧ kind < 3 ∧ r < Sys2Proof.ringLimit kind)
  | .ringDisable a kind r _ => decide (a < 8 ∧ kind < 3 ∧ r < Sys2Proof.ringLimit kind)
  | .doorbellScan a => decide (a < 8)
  | .scanReturn a _ _ => decide (a < 8)
  | .nop a r => decide (a < 8 ∧ r < 64)
  | .loadMem a r _ => decide (a < 8 ∧ r < 64)
  | .readMem a r => decide (a < 8 ∧ r < 64)
  | .loadNeurons a r _ => decide (a < 8 ∧ r < 64)
  | .readNeurons a r => decide (a < 8 ∧ r < 64)
  | .loadTable a r _ => decide (a < 8 ∧ r < 64)
  | .readTable a r => decide (a < 8 ∧ r < 64)
  | .loadRows a r _ => decide (a < 8 ∧ r < 64)
  | .writeHbm a r _ => decide (a < 8 ∧ r < 64)
  | .readHbm a r status => decide (a < 8 ∧ r < 64 ∧ status < 3)
  | .loadContext a r _ => decide (a < 8 ∧ r < 64)
  | .readContext a r => decide (a < 8 ∧ r < 64)
  | .ingest a r _ => decide (a < 8 ∧ r < 64)
  | .message a r => decide (a < 8 ∧ r < 64)
  | .messageTimeout a => decide (a < 8)
  | .denseRun a r => decide (a < 8 ∧ r < 64)
  | .loadWrite _ => true
  | .loadRead _ => true
  | .readReturn _ => true
  | .tapCopyArrive _ => true
  | .partitionEnable a k _ => decide (a < 8 ∧ k < 64)
  | .enableCheckDone k => decide (k < 64)
  | .partitionDisable a k _ => decide (a < 8 ∧ k < 64)
  | .lyletFrameReceive e _ _ _ _ _ => decide (e < 2)
  | .ptpEventMessage e _ _ _ _ _ _ => decide (e < 2)
  | .portTapCopy _ => true
  | .frameTransmit e => decide (e < 2)
  | .evpLinkDown e => decide (e < 2)
  | .powerRequest a addr _ => decide (a < 8 ∧ addr < 2 ^ 32)
  | .powerEntryStage addr => decide (addr < 2 ^ 32)
  | .powerAbortDone addr => decide (addr < 2 ^ 32)
  | .powerWakeDone addr => decide (addr < 2 ^ 32)
  | .bankHandover a p b _ => decide (a < 8 ∧ p < 9216 ∧ b < 16)
  | .bankHandoverEffect p b => decide (p < 9216 ∧ b < 16)
  | .getStatus path _ => decide (path < 10)
  | .getRecords path _ => decide (path < 10)
  | .stage path _ => decide (path < 10)
  | .confirm path _ => decide (path < 10)
  | .cancel path _ => decide (path < 10)
  | .readStage path _ => decide (path < 10)
  | .devcfg path _ => decide (path < 10)
  | .patternPush path _ _ => decide (path < 10)
  | .lifecycle path _ => decide (path < 10)
  | .readCoreMem path _ => decide (path < 10)
  | .mgmtNet path _ => decide (path < 10)
  | .ack path _ => decide (path < 10)
  | .setEndpointId op eid => decide (op < 256 ∧ eid < 256)
  | .getEndpointId => true
  | .getMctpVersionSupport type => decide (type < 256)
  | .getMessageTypeSupport => true
  | .getVendorDefinedMessageSupport selector => decide (selector < 256)
  | .neighbourRequest addr v6 => decide ((if v6 then addr < 2 ^ 128 else addr < 2 ^ 32))
  | .stageExpire i => decide (i < 8)
  | .reportResend => true
  | .tamperFire d => decide (d < 5)
  | .bypass => true
  | .samplePreload _ => true
  | .extest _ => true
  | .idcode => true
  | .clamp => true
  | .highz => true
  | .dbgStatus => true
  | .dbgChallenge => true
  | .dbgResponse _ => true
  | .dbgPassword len bytes => decide (bytes.length = len)
  | .dbgClose => true
  | .dbgNonceExpire => true
  | .debugSetupAccess _ _ a addr _ => decide (a < 8 ∧ addr < 2 ^ 36)
  | .debugPartitionHalt k => decide (k < 64)
  | .debugCoreHalt p => decide (p < 9216)
  | .debugResume core x => decide ((if core then x < 9216 else x < 64))
  | .sysRstNRise => true
  | .sysRstNFall => true
  | .mgmtBootDone => true
  | .pgCoreRise => true
  | .pgIoRise => true
  | .pgHbmRise st => decide (st < 4)
  | .pgWaitTimeout which => decide (which < 6)
  | .hbmTrainingDone st _ => decide (st < 4)
  | .hbmClearDone st => decide (st < 4)
  | .pgFall which => decide (which < 6)
  | .thermalTrip _ _ => true
  | .cvuStart a _ => decide (a < 8)
  | .cvuRunningWrite a _ _ => decide (a < 8)
  | .evpLinkUp e _ => decide (e < 2)
  | .pcieLinkUp a width rate => decide (a < 8 ∧ width < 5 ∧ 1 ≤ rate ∧ rate ≤ 6)

end Sys2Proof
end

