-- ==== Sys2Proof/Tests/Slice0.lean ====
section
/-! SUPPORT. Tests: ill-formed commands are refused by every check, values that the spec prints, and for every statement
a state and operands that meet its hypotheses. -/
namespace Sys2Proof.Machine.Tests
open Sys2Proof Sys2Proof.Machine
set_option Elab.async false

/-! ### Ill-formed commands, one for each check -/

theorem test_ill_formed_1 : (([
    .registerWrite 8 0 0, .registerWrite 0 (2 ^ 36) 0, .reg64LoRead 8 0,
    .reg64LoRead 0 (2 ^ 36), .roleFenceWrite 8 0 0, .roleFenceWrite 0 9216 0,
    .groveFault 64 0, .groveFault 0 3, .stepOpen 64,
    .stepOpenIndication 9216 0 0 0, .integrationSpanEnd 9216, .deferredDeposit 9216,
    .coreClockGate 9216, .coreWake 9216 0, .coreWake 0 4,
    .synEventTake 9216 0 0, .hbmReadReturn 64 0 0 0 0 0, .hbmReadReturn 0 0 3 0 0 0,
    .hbmTrainingLost 4 false, .denseColumnBlockDone 9216 false, .denseOpDone 9216,
    .linkFlitReceive 9280 0 (List.replicate 52 0), .linkFlitReceive 9999 0 (List.replicate 52 0), .linkFlitReceive 10064 0 (List.replicate 52 0),
    .linkFlitReceive 10999 0 (List.replicate 52 0), .linkFlitReceive 11064 0 (List.replicate 52 0), .linkFlitReceive 0 8 (List.replicate 52 0),
    .linkFlitReceive 0 0 [], .linkNack 9280 0 (0, 1), .linkNack 9999 0 (0, 1)] : List Instr).any wellFormed) = false := by decide

theorem test_ill_formed_2 : (([
    .linkNack 10064 0 (0, 1), .linkNack 10999 0 (0, 1), .linkNack 11064 0 (0, 1),
    .linkNack 0 8 (0, 1), .linkNack 0 0 (0, 0), .linkNack 0 0 (0, 5),
    .linkResyncDone 9280 0, .linkResyncDone 9999 0, .linkResyncDone 10064 0,
    .linkResyncDone 10999 0, .linkResyncDone 11064 0, .linkResyncDone 0 8,
    .routerFault 9216, .routerReset 8 0 0, .routerReset 0 9216 0,
    .routerResetDone 9216, .clearingStart 8 0, .clearingStart 0 64,
    .clearingRun 64, .clearingSwap 64, .clearingTimeout 64,
    .deliveryEvaluate 64, .responseSend 9216, .handlerDispatch 9216,
    .ret 9216 0, .ret 0 (2 ^ 26), .add 9216 0 0 0 0,
    .add 0 16 0 0 0, .add 0 0 16 0 0, .add 0 0 0 16 0] : List Instr).any wellFormed) = false := by decide

theorem test_ill_formed_3 : (([
    .add 0 0 0 0 (2 ^ 14), .sub 9216 0 0 0 0, .sub 0 16 0 0 0,
    .sub 0 0 16 0 0, .sub 0 0 0 16 0, .sub 0 0 0 0 (2 ^ 14),
    .and 9216 0 0 0 0, .and 0 16 0 0 0, .and 0 0 16 0 0,
    .and 0 0 0 16 0, .and 0 0 0 0 (2 ^ 14), .or 9216 0 0 0 0,
    .or 0 16 0 0 0, .or 0 0 16 0 0, .or 0 0 0 16 0,
    .or 0 0 0 0 (2 ^ 14), .xor 9216 0 0 0 0, .xor 0 16 0 0 0,
    .xor 0 0 16 0 0, .xor 0 0 0 16 0, .xor 0 0 0 0 (2 ^ 14),
    .shl 9216 0 0 0 0, .shl 0 16 0 0 0, .shl 0 0 16 0 0,
    .shl 0 0 0 16 0, .shl 0 0 0 0 (2 ^ 14), .shr 9216 0 0 0 0,
    .shr 0 16 0 0 0, .shr 0 0 16 0 0, .shr 0 0 0 16 0] : List Instr).any wellFormed) = false := by decide

theorem test_ill_formed_4 : (([
    .shr 0 0 0 0 (2 ^ 14), .sar 9216 0 0 0 0, .sar 0 16 0 0 0,
    .sar 0 0 16 0 0, .sar 0 0 0 16 0, .sar 0 0 0 0 (2 ^ 14),
    .slt 9216 0 0 0 0, .slt 0 16 0 0 0, .slt 0 0 16 0 0,
    .slt 0 0 0 16 0, .slt 0 0 0 0 (2 ^ 14), .mul 9216 0 0 0 0,
    .mul 0 16 0 0 0, .mul 0 0 16 0 0, .mul 0 0 0 16 0,
    .mul 0 0 0 0 (2 ^ 14), .addi 9216 0 0 0, .addi 0 16 0 0,
    .addi 0 0 16 0, .addi 0 0 0 (2 ^ 18), .andi 9216 0 0 0,
    .andi 0 16 0 0, .andi 0 0 16 0, .andi 0 0 0 (2 ^ 18),
    .ori 9216 0 0 0, .ori 0 16 0 0, .ori 0 0 16 0,
    .ori 0 0 0 (2 ^ 18), .lui 9216 0 0 0, .lui 0 16 0 0] : List Instr).any wellFormed) = false := by decide

theorem test_ill_formed_5 : (([
    .lui 0 0 16 0, .lui 0 0 0 (2 ^ 18), .ld 9216 0 0 0,
    .ld 0 16 0 0, .ld 0 0 16 0, .ld 0 0 0 (2 ^ 18),
    .st 9216 0 0 0, .st 0 16 0 0, .st 0 0 16 0,
    .st 0 0 0 (2 ^ 18), .ldb 9216 0 0 0, .ldb 0 16 0 0,
    .ldb 0 0 16 0, .ldb 0 0 0 (2 ^ 18), .stb 9216 0 0 0,
    .stb 0 16 0 0, .stb 0 0 16 0, .stb 0 0 0 (2 ^ 18),
    .nrd 9216 0 0 0, .nrd 0 16 0 0, .nrd 0 0 16 0,
    .nrd 0 0 0 (2 ^ 18), .sys 9216 0 0 0, .sys 0 16 0 0,
    .sys 0 0 16 0, .sys 0 0 0 (2 ^ 18), .emit 9216 0 0 0 0,
    .emit 0 16 0 0 0, .emit 0 0 16 0 0, .emit 0 0 0 16 0] : List Instr).any wellFormed) = false := by decide

theorem test_ill_formed_6 : (([
    .emit 0 0 0 0 (2 ^ 14), .dense 9216 0 0 0 0, .dense 0 16 0 0 0,
    .dense 0 0 16 0 0, .dense 0 0 0 16 0, .dense 0 0 0 0 (2 ^ 14),
    .send 9216 0 0 0 0, .send 0 16 0 0 0, .send 0 0 16 0 0,
    .send 0 0 0 16 0, .send 0 0 0 0 (2 ^ 14), .sendw 9216 0 0 0 0,
    .sendw 0 16 0 0 0, .sendw 0 0 16 0 0, .sendw 0 0 0 16 0,
    .sendw 0 0 0 0 (2 ^ 14), .waitq 9216 0 0 0, .waitq 0 16 0 0,
    .waitq 0 0 16 0, .waitq 0 0 0 (2 ^ 18), .sadd 9216 0 0 0 0,
    .sadd 0 16 0 0 0, .sadd 0 0 16 0 0, .sadd 0 0 0 16 0,
    .sadd 0 0 0 0 (2 ^ 14), .swait 9216 0 0 0 0, .swait 0 16 0 0 0,
    .swait 0 0 16 0 0, .swait 0 0 0 16 0, .swait 0 0 0 0 (2 ^ 14)] : List Instr).any wellFormed) = false := by decide

theorem test_ill_formed_7 : (([
    .sread 9216 0 0 0 0, .sread 0 16 0 0 0, .sread 0 0 16 0 0,
    .sread 0 0 0 16 0, .sread 0 0 0 0 (2 ^ 14), .beq 9216 0 0 0,
    .beq 0 16 0 0, .beq 0 0 16 0, .beq 0 0 0 (2 ^ 18),
    .bne 9216 0 0 0, .bne 0 16 0 0, .bne 0 0 16 0,
    .bne 0 0 0 (2 ^ 18), .blt 9216 0 0 0, .blt 0 16 0 0,
    .blt 0 0 16 0, .blt 0 0 0 (2 ^ 18), .bge 9216 0 0 0,
    .bge 0 16 0 0, .bge 0 0 16 0, .bge 0 0 0 (2 ^ 18),
    .j 9216 0, .j 0 (2 ^ 26), .handlerBudgetExpire 9216,
    .sendResponseTimeout 9216, .sendwRetryGap 9216, .waitqTimeout 9216,
    .syncNotifyIssue 64, .hostSyncAdd 8 0 0 0, .hostSyncAdd 0 64 0 0] : List Instr).any wellFormed) = false := by decide

theorem test_ill_formed_8 : (([
    .hostSyncAdd 0 0 2048 0, .bar2SyncWrite 8 0 0 0 0, .bar2SyncWrite 0 64 0 0 0,
    .bar2SyncWrite 0 0 2048 0 0, .bar2SyncWrite 0 0 0 12 0, .encCount 3,
    .pinStamp 8 false, .stampDeliver 8, .channelFire 37888,
    .channelArm 8 0 0, .channelArm 0 37888 0, .channelDisarm 8 0 0,
    .channelDisarm 0 37888 0, .compareWrite 8 0 0, .compareWrite 0 37888 0,
    .intervalWrite 8 0 0, .intervalWrite 0 37888 0, .groupStart 8 0,
    .sequencerFire 64, .stretchLimit 64, .lastInjectionDeclare 9216,
    .round 64, .groveVerdict 64, .shadowCopy 64 0,
    .replayCopyDone 64 0 0 0, .replayDone 64, .twinRepairDone 64,
    .partitionCommit 64, .fenceMigrationDone 64, .plsPassDone 64 []] : List Instr).any wellFormed) = false := by decide

theorem test_ill_formed_9 : (([
    .applyStart 64, .applyDone 64 [], .endEpoch 8 0 0,
    .endEpoch 0 64 0, .scrub 9216 0, .scrub 0 3,
    .cfgDigestPass 64, .testDue 9216, .testMigrate 9216,
    .testDeferExpire 9216, .testDone 9216 false 0, .functionLevelReset 8,
    .pcieLinkLoss 8, .perstChange 8 false, .configRequest 8 (0, none),
    .configRequest 0 (1024, none), .scanEnable 8 0, .ringEnable 8 0 0 0,
    .ringEnable 0 3 0 0, .ringEnable 0 0 64 0, .ringEnable 0 2 512 0,
    .ringDisable 8 0 0 0, .ringDisable 0 3 0 0, .ringDisable 0 0 64 0,
    .ringDisable 0 2 512 0, .doorbellScan 8, .scanReturn 8 [] [],
    .nop 8 0, .nop 0 64, .loadMem 8 0 []] : List Instr).any wellFormed) = false := by decide

theorem test_ill_formed_10 : (([
    .loadMem 0 64 [], .readMem 8 0, .readMem 0 64,
    .loadNeurons 8 0 [], .loadNeurons 0 64 [], .readNeurons 8 0,
    .readNeurons 0 64, .loadTable 8 0 [], .loadTable 0 64 [],
    .readTable 8 0, .readTable 0 64, .loadRows 8 0 [],
    .loadRows 0 64 [], .writeHbm 8 0 [], .writeHbm 0 64 [],
    .readHbm 8 0 0, .readHbm 0 64 0, .readHbm 0 0 3,
    .loadContext 8 0 [], .loadContext 0 64 [], .readContext 8 0,
    .readContext 0 64, .ingest 8 0 [], .ingest 0 64 [],
    .message 8 0, .message 0 64, .messageTimeout 8,
    .denseRun 8 0, .denseRun 0 64, .partitionEnable 8 0 0] : List Instr).any wellFormed) = false := by decide

theorem test_ill_formed_11 : (([
    .partitionEnable 0 64 0, .enableCheckDone 64, .partitionDisable 8 0 0,
    .partitionDisable 0 64 0, .lyletFrameReceive 2 false false 0 0 [], .ptpEventMessage 2 false false 0 0 0 [],
    .frameTransmit 2, .evpLinkDown 2, .powerRequest 8 0 0,
    .powerRequest 0 (2 ^ 32) 0, .powerEntryStage (2 ^ 32), .powerAbortDone (2 ^ 32),
    .powerWakeDone (2 ^ 32), .bankHandover 8 0 0 0, .bankHandover 0 9216 0 0,
    .bankHandover 0 0 16 0, .bankHandoverEffect 9216 0, .bankHandoverEffect 0 16,
    .getStatus 10 [], .getRecords 10 [], .stage 10 [],
    .confirm 10 [], .cancel 10 [], .readStage 10 [],
    .devcfg 10 [], .patternPush 10 [] false, .lifecycle 10 [],
    .readCoreMem 10 [], .mgmtNet 10 [], .ack 10 []] : List Instr).any wellFormed) = false := by decide

theorem test_ill_formed_12 : (([
    .setEndpointId 256 0, .setEndpointId 0 256, .getMctpVersionSupport 256,
    .getVendorDefinedMessageSupport 256, .neighbourRequest (2 ^ 32) false, .neighbourRequest (2 ^ 128) true,
    .stageExpire 8, .tamperFire 5, .dbgPassword 1 [],
    .debugSetupAccess false false 8 0 0, .debugSetupAccess false false 0 (2 ^ 36) 0, .debugPartitionHalt 64,
    .debugCoreHalt 9216, .debugResume true 9216, .debugResume false 64,
    .pgHbmRise 4, .pgWaitTimeout 6, .hbmTrainingDone 4 false,
    .hbmClearDone 4, .pgFall 6, .cvuStart 8 0,
    .cvuRunningWrite 8 0 0, .evpLinkUp 2 false, .pcieLinkUp 8 0 1,
    .pcieLinkUp 0 5 1, .pcieLinkUp 0 0 0, .pcieLinkUp 0 0 7] : List Instr).any wellFormed) = false := by decide

/-! ### Values that the spec prints -/

/-- A rescale entry of CLAMP, or of the saturation mode given. -/
def testEntry (m s tgt sat zo : Nat) : Resc := ⟨m, s, sat, zo, tgt, false, false, 0, 40, 0⟩

/-- The rows of the table of 02_arithmetic.md R67. -/
theorem test_rescale_edges :
    (rescale (testEntry 32768 16 1 0 0) 3).out = 2 ∧ (rescale (testEntry 32768 16 1 0 0) (-3)).out = -2 ∧
    (rescale (testEntry 1 1 1 0 0) 5).out = 3 ∧ (rescale (testEntry 32768 16 1 0 0) (-1)).out = -1 ∧
    (rescale (testEntry 65535 0 1 0 0) 8388607).out = 127 ∧ (rescale (testEntry 65535 0 1 0 0) 8388607).sat = true ∧
    (rescale (testEntry 65535 40 2 0 50) (-8388608)).out = 50 ∧ (rescale (testEntry 1 0 1 1 0) (-300)).out = -127 ∧
    (rescale (testEntry 1 0 1 1 0) (-300)).sat = true ∧ (rescale (testEntry 1 0 2 2 50) (-40)).out = 50 ∧
    (rescale (testEntry 1 0 2 2 50) (-40)).sat = false ∧ (rescale (testEntry 1 0 2 1 50) (-40)).out = 10 ∧
    (rescale (testEntry 65535 16 0 0 0) 40000).out = 32767 ∧ (rescale (testEntry 65535 16 0 0 0) 40000).sat = true := by
  decide

/-- The entry and the format slot of the worked example of 02_arithmetic.md. -/
theorem test_entry_words :
    rescOf 0x3214CCCD 0x00005926 = ⟨52429, 20, 0, 0x32, 2, true, false, 18, 22, 0⟩ ∧
    (fmtSlotOf 0x00300094 0).wfmt = 4 ∧ (fmtSlotOf 0x00300094 0).afmt = 9 ∧ (fmtSlotOf 0x00300094 0).za = 48 ∧
    (fmtSlotOf 0x00300094 0).ok = true := by decide

/-- The adaptive decisions of the worked example of 02_arithmetic.md (R69, R70), steps 1, 2, 4 and 6. -/
theorem test_adapt_steps :
    adaptDecide ⟨0, 20, 0, 0, 1, true, false, 18, 22, 0⟩ ⟨64, 9, 7⟩ 4 5 3 = ⟨20, 0, true, false, false⟩ ∧
    adaptDecide ⟨0, 20, 0, 0, 1, true, true, 18, 22, 0⟩ ⟨64, 7, 7⟩ 4 5 3 = ⟨21, 0, true, true, false⟩ ∧
    adaptDecide ⟨0, 21, 0, 0, 1, true, true, 18, 22, 0⟩ ⟨64, 0, 4⟩ 4 5 3 = ⟨21, 1, true, false, false⟩ ∧
    adaptDecide ⟨0, 21, 0, 0, 1, true, true, 18, 22, 2⟩ ⟨64, 0, 3⟩ 4 5 3 = ⟨20, 0, true, true, false⟩ := by decide

/-- The group of the worked example of 03_neurons.md. -/
def testGroup (fire : Nat) : Grp :=
  ⟨0, 0, 1, 0, fire, 1, 1, 1, 0, 0, 256, 0, 512, 1, 3, 2, 64, 0, 1, 0, 0⟩

/-- Steps 10, 11 and 12 of the worked example of 03_neurons.md (R92). -/
theorem test_neuron_steps :
    (neuUpdate (testGroup 1) (testEntry 32768 16 0 0 0) 10 0 0 700).w0 = 0x0040005E ∧
    (neuUpdate (testGroup 1) (testEntry 32768 16 0 0 0) 10 0 0 700).w1 = 0x0301000A ∧
    (neuUpdate (testGroup 1) (testEntry 32768 16 0 0 0) 11 0x0040005E 0x0301000A 400).w0 = 0x00380046 ∧
    (neuUpdate (testGroup 1) (testEntry 32768 16 0 0 0) 11 0x0040005E 0x0301000A 400).event = none ∧
    (neuUpdate (testGroup 1) (testEntry 32768 16 0 0 0) 11 0x0040005E 0x0301000A 400).rinSlot = true ∧
    (neuUpdate (testGroup 1) (testEntry 32768 16 0 0 0) 12 0x00380046 0x0100000A 1000).w0 = 0x007100F7 := by decide

/-- Step 14 of the worked example of 03_neurons.md, in SUBTRACT and in BURST mode (R94). -/
theorem test_neuron_overdrive :
    (neuUpdate (testGroup 1) (testEntry 32768 16 0 0 0) 14 0x006300B9 0x0100000C 2100).w0 = 0x00970200 ∧
    (neuUpdate (testGroup 1) (testEntry 32768 16 0 0 0) 14 0x006300B9 0x0100000C 2100).overdrive = true ∧
    (neuUpdate (testGroup 2) (testEntry 32768 16 0 0 0) 14 0x006300B9 0x0100000C 2100).w0 = 0x011700A0 ∧
    (neuUpdate (testGroup 2) (testEntry 32768 16 0 0 0) 14 0x006300B9 0x0100000C 2100).event = some 3 := by decide

/-- The block header of the worked example of 04_synapses_dense.md. -/
theorem test_block_header :
    (blkHdrOf (toBytes 8 0x06410640)).tbase = 100 ∧ (blkHdrOf (toBytes 8 0x06410640)).count = 4 ∧
    (blkHdrOf (toBytes 8 0x06410640)).dly = 3 ∧ (blkHdrOf (toBytes 8 0x06410640)).grp = 2 ∧
    (rowHdrOf (toBytes 4 4 ++ toBytes 4 0x10123400 ++ toBytes 4 1 ++ toBytes 4 0)).rowsum = 4 := by decide

/-- The weights, products and sums of that example: I4 codes against U8 value 200 with ZA 128. -/
theorem test_products :
    ((List.range 5).map fun k => product (weightOperand (fmtSlotOf 0x00800094 0)
      (packedCode (fmtSlotOf 0x00800094 0) 0x000B17E3 k)) (actOperand (fmtSlotOf 0x00800094 0) 200) 0) =
      [216, -144, 504, 72, -360] := by decide

/-- The encodings of the worked example of 06_core_messaging.md. -/
theorem test_handler_words :
    encI 0x0D 2 0 0x21811 = 0x34821811 ∧ encI 0x0B 3 0 1 = 0x2CC00001 ∧ encR 0x1D 4 2 3 0 = 0x7508C000 ∧
    encI 0x21 4 0 5 = 0x85000005 ∧ encI 0x0E 6 0 0x9000 = 0x39809000 ∧ encI 0x0D 6 6 0xABC = 0x35980ABC ∧
    encR 0x01 7 5 0 0 = 0x05D40000 ∧ encR 0x1E 8 2 6 0 = 0x7A098000 := by decide

/-- The same words, read. -/
theorem test_handler_decode :
    decodeHandler 5 0x34821811 = some (.ori 5 2 0 0x21811) ∧ decodeHandler 5 0x7508C000 = some (.sadd 5 4 2 3 0) ∧
    decodeHandler 5 0x85000005 = some (.bne 5 4 0 5) ∧ decodeHandler 5 0x7A098000 = some (.swait 5 8 2 6 0) ∧
    decodeHandler 5 0x05D40000 = some (.add 5 7 5 0 0) := by decide

/-- The source-table entry of the worked example of 05_fabric.md. -/
theorem test_source_entry :
    srcEn 0x0200032C80400000 = true ∧ srcBase 0x0200032C80400000 = 0x400000 ∧ srcCount 0x0200032C80400000 = 512 ∧
    srcCanopy 0x0200032C80400000 = 812 := by decide

/-- The check values of the presets of 10_integrity.md R338 over the nine ASCII bytes 123456789. -/
theorem test_check_values :
    crc c32c [0x31, 0x32, 0x33, 0x34, 0x35, 0x36, 0x37, 0x38, 0x39] = 0xE3069283 ∧
    crc c64e [0x31, 0x32, 0x33, 0x34, 0x35, 0x36, 0x37, 0x38, 0x39] = 0x995DC9BBDF1939FA ∧
    crc c16t [0x31, 0x32, 0x33, 0x34, 0x35, 0x36, 0x37, 0x38, 0x39] = 0x29B1 := by decide +kernel

/-- The bucket, the record and the table entries of the worked example of 09_plasticity.md. -/
theorem test_learning_record :
    bucketOf 4 0x12000000 = 7 ∧
    Rec.pack ⟨0x12000000, 3, 17, 0, 24, 1205⟩ = 0x000004B5000000180011000312000000 := by decide

/-- The units of the worked example of 11_host_interface.md R411. -/
theorem test_egress_units :
    padUnit 2 = 0x8000000000000002 ∧ (commitUnits 0x1234 3 3 0).head? = some 0x200000C300001234 ∧
    (vectorUnits 0x1234 5 (List.replicate 20 0)).head? = some 0x6000140500001234 := by decide

/-- The capability words of a full-grade part (00_scope.md R6), and its first logical id (01_organisation.md R21). -/
theorem test_capabilities :
    Fuses.full.cap0.toNat / 2 ^ 16 % 2 ^ 8 = 0x80 ∧ Fuses.full.cap0.toNat % 2 ^ 16 = 0x2000 ∧
    Fuses.full.mapWord 0 = 0x80000000 := by decide

/-! ### States for witnesses -/

/-- A started device: pins up, attachment 0 present with its link up, partition 0 owned by it, holding grove 0 and
RUNNING, and core 0 of grove 0 ON. -/
def rdy : State :=
  { State.cold Fuses.full ⟨0, [], [], false⟩
      { Pins.init with sysRstN := true, booted := true, pwrEnCore := true, pgCore := true, pwrEnIo := true,
                       pgIo := true, devReady := true } with
    up := true
    regs := [(Reg.HIF_PART_OWNER 0, 0x80000000), (Reg.HIF_PART_GROVES_LO 0, 1), (Reg.HIF_PART_STATUS 0, 0x40000000),
      (coreReg 0 0xE04, 0), (coreReg 0 0xE14, 0)]
    atts := [(0, { Att.init with present := true, linkUp := true })] }

/-- The same with some registers set. -/
def rg (l : List (Nat × Word)) (s : State := rdy) : State := { s with regs := l ++ s.regs }

/-- The same with some words of the local memory of core `p` set. -/
def mw (p : Nat) (l : List (Nat × Word)) (s : State := rdy) : State := l.foldl (fun t e => t.setWord p e.1 e.2) s

/-- Core `p` RUNS a handler at pc 4, whose instruction is `w`; its registers h1 to h4 hold 7, 9, 40 and 5. -/
def hs (p : Nat) (w : Word) (s : State := rdy) : State :=
  mw p [(handlerStore + 16, w)]
    (rg [(Reg.HDL_STATUS p, 0x20000004)] (s.updCore p fun c =>
      { c with budget := 1000, hregs := [(1, 7), (2, 9), (3, 40), (4, 5)] }))

/-- A packet put into the fabric. -/
def pk (f : Flight) (s : State := rdy) : State := { s with net := s.net ++ [f] }

/-- What a core without a group has for one. -/
def grpNone : Grp := ⟨0, 0, 0, 0, 0, 1, 1, 1, 0, 0, 0, 0, 0, 0, 0, 0, 0, 0, 0, 0, 0⟩

/-- The group that holds lane-neuron `i` of core `p`. -/
def grpAt (s : State) (p i : Nat) : Grp := (s.grpOf p i).getD grpNone

/-- A packet that has reached the place it stands at. -/
def fl (place : Place) (tag : Tag) (part : Nat) (step : Option Nat) (body : Body) (mark : Nat := 0) : Flight :=
  { place := place, tag := tag, way := none, part := part, step := step, body := body, mark := mark }

/-- The link code word of 46 bytes: their CRC-16 and the four parity symbols (05_fabric.md R179). -/
def rsEnc (d : List Byte) : List Byte :=
  let ws := d.map (·.toNat) ++ [crc c16t d / 256, crc c16t d % 256]
  let r := ws.foldl (fun (r : Nat × Nat × Nat × Nat) c =>
    let f := Nat.xor c r.1
    (Nat.xor r.2.1 (gfMul f 15), Nat.xor r.2.2.1 (gfMul f 54), Nat.xor r.2.2.2 (gfMul f 120), gfMul f 64)) (0, 0, 0, 0)
  (ws ++ [r.1, r.2.1, r.2.2.1, r.2.2.2]).map (BitVec.ofNat 8 ·)

/-- Descriptor 9 of command ring 63, as it has been read, with its check value (11_host_interface.md R394, R395). -/
def dsc (op flags part target sub dev len : Nat) (tail : List Byte) (started : Bool) (left : Nat) : DescRun :=
  let b := [BitVec.ofNat 8 op, BitVec.ofNat 8 flags, 5, BitVec.ofNat 8 part] ++ toBytes 4 0 ++ toBytes 4 target ++ toBytes 4 sub ++
    toBytes 8 0 ++ toBytes 8 dev ++ toBytes 4 len ++ tail
  let b := b ++ List.replicate (60 - b.length) 0
  ⟨63, 9, b ++ toBytes 4 (crcFold c32c (63 * 2 ^ 32 + 9) b), started, none, left, false, 0, 0⟩

theorem noWaitq {w : HWait} (h : (match w with | .waitq _ _ => false | _ => true) = true) : ∀ m rd, w ≠ .waitq m rd := by
  rintro m rd rfl; cases h

theorem noEvent {b : Body} (h : (match b with | .event _ => false | _ => true) = true) : ∀ e, b ≠ .event e := by
  rintro e rfl; cases h

theorem syncAt_of {s : State} {i g : Nat} {r : SyncReq}
    (h : ∃ f, f ∈ s.net[i]? ∧ f.left = 0 ∧ (∀ h, h ∈ s.net.take i → sameFlow f h = false) ∧ f.place = .unit (0x40 + g) ∧
      f.body = .sync r ∧ s.partOf g = some f.part ∧ s.holdsAll ((s.partOf (r.from_ / 144)).getD 0) = false) : s.syncAt i g r := by
  obtain ⟨f, h1, h2, h3, h4⟩ := h
  exact ⟨f, ⟨h1, h2, h3⟩, h4⟩

theorem okEq {e : Except Nat Nat} {n : Nat} (h : (match e with | .ok m => m == n | .error _ => false) = true) : e = .ok n := by
  cases e with
  | ok m => simpa using h
  | error m => cases h

theorem asks_of {s : State} {path : Nat} {msg : List Byte} {op : Nat} {m : List Byte} {party : Nat}
    (h : s.incoming path msg = (some m, s) ∧ emNum m 1 1 = emRequest ∧ emRow m = op ∧ emFormed (decide (path < 8)) m = true ∧
      (match (s.identify path m).1 with | .ok x => x == party | .error _ => false) = true ∧ (s.identify path m).2 = s ∧
      s.gate party op = emOk ∧ s.pins.devReady = true) : s.asks path msg op m party := by
  obtain ⟨h1, h2, h3, h4, h5, h6, h7⟩ := h
  exact ⟨h1, h2, h3, h4, Prod.ext (okEq h5) h6, h7⟩

/-- A check that some condition fails refuses. -/
theorem firstFail_of_mem {fs : Fails} {x : Nat × Nat} (h : x ∈ fs) : ∃ rs d, firstFail fs = some (rs, d) := by
  have some_stays : ∀ (gs : Fails) (y : Nat × Nat), ∃ z : Nat × Nat,
      gs.foldl (fun m x => match m with | none => some x | some y => some (if failLt x y then x else y)) (some y) = some z := by
    intro gs
    induction gs with
    | nil => exact fun y => ⟨y, rfl⟩
    | cons g gs ih => exact fun y => ih _
  cases fs with
  | nil => cases h
  | cons g gs =>
    obtain ⟨z, hz⟩ := some_stays gs g
    exact ⟨z.1, z.2, hz⟩

/-! ### A partition that an enable check finds clean -/

theorem tst_31 {w : Word} (h : w.toNat < 2 ^ 31) : tst w 31 = false := by
  simp [tst, fld]; omega

theorem findReg_some {b : Blk} {o : Nat} {d : RegDesc} (h : findReg b o = some d) : d ∈ b.table ∧ d.covers o = true :=
  ⟨List.mem_of_find?_eq_some h, List.find?_some (p := fun d => RegDesc.covers d o) h⟩

/-- Bit 31 of an egress path's or destination's first word of a port is 0 at reset. -/
theorem evp_reset {f : Fuses} {up : Bool} {e o : Nat} (he : e < 2) (h : 0x1000 ≤ o) (ho : o < 0x100000)
    (hd : o < 0x20000 ∨ o % 32 = 0) : tst (resetWord f up (0x7000000 + 0x100000 * e + o)) 31 = false := by
  have hl : locate (0x7000000 + 0x100000 * e + o) = some (.evp e, o) := by
    have h1 : (0x7000000 + 0x100000 * e + o) % 0x100000000 = 0x7000000 + 0x100000 * e + o := Nat.mod_eq_of_lt (by omega)
    have h2 : (0x7000000 + 0x100000 * e + o - 0x7000000) / 0x100000 = e := by omega
    have h3 : (0x7000000 + 0x100000 * e + o - 0x7000000) % 0x100000 = o := by omega
    unfold locate
    simp only [h1, h2, h3]
    repeat rw [if_neg (by omega)]
    rw [if_pos (by omega), if_pos (by omega)]
  unfold resetWord
  rw [hl]
  dsimp only
  split
  · rfl
  · next d hr =>
    obtain ⟨hm, hc⟩ := findReg_some hr
    have hall : ∀ d ∈ RegTab.evp, d.reset < 2 ^ 31 ∨ d.off + 4 * d.count ≤ 0x1000 ∧ d.stride = 4 ∨
        (0x20000 ≤ d.off ∧ d.off % 32 ≠ 0 ∧ d.stride = 32) := by decide
    refine tst_31 ?_
    have hz : fuseWord f up (.evp e) o = 0#32 := rfl
    rw [hz, BitVec.or_zero, BitVec.toNat_ofNat]
    rcases hall d hm with h1 | ⟨h1, h2⟩ | ⟨h1, h2, h3⟩
    · omega
    · exfalso
      simp only [RegDesc.covers, h2, Bool.and_eq_true, decide_eq_true_eq, beq_iff_eq] at hc
      omega
    · exfalso
      simp only [RegDesc.covers, h3, Bool.and_eq_true, decide_eq_true_eq, beq_iff_eq] at hc
      omega

theorem att_resets : ∀ d ∈ RegTab.att, d.reset < 2 ^ 31 := by decide

theorem hif_resets : ∀ d ∈ RegTab.hif, d.reset < 2 ^ 31 ∨ 0xF00000 ≤ d.off := by decide

theorem path_place {key i : Nat} (hk : key < 0xF00000000) (hm : key % 0x100000000 = 0x6060000 + 16 * i) (hi : i < 256) :
    locate key = some (.att, 0x60000 + 16 * i) ∨ locate key = some (.hif, 0x60000 + 16 * i) := by
  have h2 : 0x6060000 + 16 * i - 0x6000000 = 0x60000 + 16 * i := by omega
  unfold locate
  simp only [hm, h2]
  repeat rw [if_neg (by omega)]
  rw [if_pos (by omega)]
  split
  · exact .inl rfl
  · exact .inr rfl

/-- EN of an egress path of an attachment is 0 at reset. -/
theorem path_reset {f : Fuses} {up : Bool} {key o : Nat} (hl : locate key = some (.att, o) ∨ locate key = some (.hif, o))
    (h : 0x60000 ≤ o) (ho : o < 0x70000) : tst (resetWord f up key) 31 = false := by
  unfold resetWord
  rcases hl with hl | hl
  · rw [hl]
    dsimp only
    split
    · rfl
    · next d hr =>
      obtain ⟨hm, hc⟩ := findReg_some hr
      have hz : fuseWord f up .att o = 0#32 := if_neg (by omega)
      rw [hz, BitVec.or_zero]
      refine tst_31 ?_
      rw [BitVec.toNat_ofNat]
      have := att_resets d hm
      omega
  · rw [hl]
    dsimp only
    split
    · rfl
    · next d hr =>
      obtain ⟨hm, hc⟩ := findReg_some hr
      have hz : fuseWord f up .hif o = 0#32 := by
        show (if o = 0 then f.cap0 else if o = 4 then f.cap1 else 0) = (0 : Word)
        rw [if_neg (by omega), if_neg (by omega)]
      rw [hz, BitVec.or_zero]
      refine tst_31 ?_
      rw [BitVec.toNat_ofNat]
      rcases hif_resets d hm with h3 | h3
      · omega
      · exfalso
        simp only [RegDesc.covers, Bool.and_eq_true, decide_eq_true_eq] at hc
        omega

theorem get_unlisted {β : Type} (d : Nat → β) {m : Store β} {k : Nat} (h : ∀ e ∈ m, e.1 ≠ k) : Store.get d m k = d k := by
  induction m with
  | nil => rfl
  | cons e m ih =>
    show (if e.1 = k then e.2 else Store.get d m k) = d k
    rw [if_neg (h e (List.mem_cons_self ..)), ih fun x hx => h x (List.mem_cons_of_mem _ hx)]

/-- A partition in CHECKING of one core, without groups, windows or operations, which steps on global channel 7. -/
def chkSt : State :=
  { rg [(Reg.HIF_PART_STATUS 0, 0x20000000), (Reg.TB_GCH_OWNER 7, 0x80000000), (chKey 7, 0x10000000), (chKey 7 + 0x10, 5)] with
    fuses := { Fuses.full with active := 1 } }

theorem chkSt_groves : chkSt.grovesOf 0 = [0] := by decide +kernel

theorem chkSt_active : chkSt.activeCores 0 = [0] := by decide +kernel

theorem chkSt_cores : chkSt.coresOfPart 0 = [0] := by
  unfold State.coresOfPart
  rw [chkSt_groves]
  simp only [List.flatMap_cons, List.flatMap_nil, chkSt_active]
  rfl

theorem chkSt_globals : chkSt.globalsOf 0 = [7] := by decide +kernel

theorem chkSt_evp {e o : Nat} (he : e < 2) (h : 0x1000 ≤ o) (ho : o < 0x100000) (hd : o < 0x20000 ∨ o % 32 = 0) :
    chkSt.bit (0x7000000 + 0x100000 * e + o) 31 = false := by
  have : ∀ x ∈ chkSt.regs, x.1 ≠ 0x7000000 + 0x100000 * e + o := by
    have hall : ∀ x ∈ chkSt.regs, x.1 < 0x7000000 ∨ 0x7200000 ≤ x.1 := by decide +kernel
    intro x hx
    have := hall x hx
    omega
  show tst (Store.get _ _ _) 31 = false
  rw [get_unlisted _ this]
  exact evp_reset he h ho hd

theorem chkSt_paths {a : Nat} (ha : a < 8) : chkSt.pathsOf a 0 = [] := by
  have : ∀ i, i < 256 → chkSt.bit (Reg.HIF_EP_CFG a i) 31 = false := by
    intro i hi
    have hk : ∀ x ∈ chkSt.regs, x.1 ≠ Reg.HIF_EP_CFG a i := by
      have hall : ∀ x ∈ chkSt.regs, x.1 < 0x100000000 := by decide +kernel
      intro x hx
      have := hall x hx
      simp only [Reg.HIF_EP_CFG, attReg]
      omega
    show tst (Store.get _ _ _) 31 = false
    rw [get_unlisted _ hk]
    refine path_reset (path_place (i := i) ?_ ?_ hi) (by omega) (by omega)
    · unfold Reg.HIF_EP_CFG attReg; omega
    · unfold Reg.HIF_EP_CFG attReg; omega
  unfold State.pathsOf
  rw [List.filter_eq_nil_iff.2, List.map_nil]
  intro i hi
  simp [this i (List.mem_range.1 hi)]

theorem chkSt_portPaths {e : Nat} (he : e < 2) : chkSt.portPaths e 0 = [] := by
  unfold State.portPaths
  rw [List.filter_eq_nil_iff.2, List.map_nil]
  intro i hi
  have hi := List.mem_range.1 hi
  have hk : evpPath e i 0 = 0x7000000 + 0x100000 * e + (0x10000 + 0x10 * i) := by simp only [evpPath]; omega
  rw [hk, chkSt_evp he (by omega) (by omega) (by omega)]
  simp

theorem chkSt_dests {e : Nat} (he : e < 2) : chkSt.destsOf e 0 = [] := by
  unfold State.destsOf
  rw [List.filter_eq_nil_iff.2]
  intro i hi
  have hi := List.mem_range.1 hi
  have hk : evpDest e i 0 = 0x7000000 + 0x100000 * e + (0x20000 + 0x20 * i) := by simp only [evpDest]; omega
  rw [hk, chkSt_evp he (by omega) (by omega) (by omega)]
  simp

theorem chkSt_pacers {e : Nat} (he : e < 2) :
    ((List.range 64).filter fun j => chkSt.bit (Reg.EVP_PACER_CFG e j) 31 && chkSt.rf (Reg.EVP_PACER_CFG e j) 24 6 == 0) = [] := by
  rw [List.filter_eq_nil_iff.2]
  intro i hi
  have hi := List.mem_range.1 hi
  have hk : Reg.EVP_PACER_CFG e i = 0x7000000 + 0x100000 * e + (0x1000 + 0x10 * i) := by simp only [Reg.EVP_PACER_CFG]; omega
  rw [hk, chkSt_evp he (by omega) (by omega) (by omega)]
  simp

theorem chkSt_clean : chkSt.enableCheck 0 = none := by
  have h1 : chkSt.chkEgress 0 = [] := by
    unfold State.chkEgress
    rw [chkSt_cores]
    have ha : ∀ a ∈ List.range 8, chkSt.pathsOf a 0 = [] := fun a h => chkSt_paths (List.mem_range.1 h)
    have he : ∀ e ∈ List.range 2, chkSt.portPaths e 0 = [] := fun e h => chkSt_portPaths (List.mem_range.1 h)
    have hc : chkSt.tapsOf 0 = [] := by decide +kernel
    simp only [List.flatMap_cons, List.flatMap_nil, hc, List.append_nil]
    rw [List.flatMap_eq_nil_iff.2, List.flatMap_eq_nil_iff.2]
    · rfl
    · intro e h; rw [he e h]; rfl
    · intro a h; rw [ha a h]; rfl
  have h2 : chkSt.chkPorts 0 = [] := by
    unfold State.chkPorts
    have hc : chkSt.ctxsOf 0 = [] := by decide +kernel
    rw [hc, List.flatMap_nil, List.nil_append, List.flatMap_eq_nil_iff.2]
    intro e h
    rw [chkSt_dests (List.mem_range.1 h), chkSt_pacers (List.mem_range.1 h)]
    rfl
  have h3 : chkSt.timerFails 0 = [] := by
    unfold State.timerFails
    rw [chkSt_cores, chkSt_globals]
    decide +kernel
  have h4 : chkSt.intFails 0 = [] := by unfold State.intFails; rw [chkSt_cores]; decide +kernel
  have h5 : chkSt.replicaFails 0 = [] := by unfold State.replicaFails; rw [chkSt_cores]; decide +kernel
  have h6 : chkSt.chkPower 0 = [] := by unfold State.chkPower; rw [chkSt_cores]; decide +kernel
  have h7 : chkSt.chkAbsent 0 = [] := by unfold State.chkAbsent; rw [chkSt_cores]; decide +kernel
  have h8 : chkSt.chkFabric 0 = [] := by
    unfold State.chkFabric
    rw [chkSt_groves]
    simp only [List.flatMap_cons, List.flatMap_nil, chkSt_active]
    decide +kernel
  have h9 : chkSt.chkEmpty 0 = [] := by decide +kernel
  have h10 : chkSt.chkMapped 0 = [] := by decide +kernel
  have h11 : chkSt.stepFails 0 = [] := by decide +kernel
  have h12 : chkSt.plsFails 0 = [] := by decide +kernel
  have h13 : chkSt.pinFails 0 = [] := by decide +kernel
  have h14 : chkSt.streamFails 0 = [] := by decide +kernel
  have h15 : chkSt.syncFails 0 = [] := by decide +kernel
  have h16 : chkSt.coreFails 0 = [] := by decide +kernel
  have h17 : chkSt.windowFails 0 0 = [] := by decide +kernel
  unfold State.enableCheck State.enableFails
  rw [h1, h2, h3, h4, h5, h6, h7, h8, h9, h10, h11, h12, chkSt_cores, chkSt_groves]
  simp only [List.flatMap_cons, List.flatMap_nil, h13, h14, h15, h16, h17, List.append_nil]
  rfl

/-! ### For every statement, states and operands that meet the hypotheses of each clause -/

theorem witness_StepTakesTheFrontCommand : ∃ (s : State) (c : Instr) (rest : List Instr), s.pending = c :: rest :=
  ⟨{ rdy with pending := [.intTick, .bypass] }, .intTick, [.bypass], rfl⟩

theorem witness_StepKeepsTheInvariant : ∃ s t : State, step s = .next t ∧ s.canonical :=
  ⟨{ State.reset with pending := [.bypass] }, _, rfl, by unfold State.canonical; decide +kernel⟩

theorem witness_CommandsTouchOnlyTheirParts :
    ∃ (c : Instr) (s t : State) (f : Component), exec c s = .next t ∧ f ∉ touched c :=
  ⟨.bypass, rdy, _, .mem, rfl, by decide +kernel⟩

theorem witness_ResetAndTime_idle : ∃ s : State, s.pending = [] ∧ s.pins.sysRstN = true ∧ s.up = true ∧
    (∀ x ∈ s.cores, x.1 < 9216) ∧ (∀ x ∈ s.groves, x.1 < 64) ∧ (∀ x ∈ s.parts, x.1 < 64) ∧ ∀ f ∈ s.waiting, f.inPort ≤ 6 :=
  ⟨rdy.updCore 9215 fun c => { c with gated := true }, by decide +kernel⟩

theorem witness_ResetAndTime_off : ∃ s : State, s.pending = [] ∧ s.pins.sysRstN = false := ⟨State.reset, by decide +kernel⟩

theorem witness_HandlerArithmetic :
    (∃ (s : State) (p : Nat) (rd : Nat) (ra : Nat) (rb : Nat), rd < 16 ∧ ra < 16 ∧ rb < 16
        ∧ s.willIssue p (encR 0x01 rd ra rb 0)) ∧
    (∃ (s : State) (p : Nat) (rd : Nat) (ra : Nat) (rb : Nat), rd < 16 ∧ ra < 16 ∧ rb < 16
        ∧ s.willIssue p (encR 0x02 rd ra rb 0)) ∧
    (∃ (s : State) (p : Nat) (rd : Nat) (ra : Nat) (rb : Nat), rd < 16 ∧ ra < 16 ∧ rb < 16
        ∧ s.willIssue p (encR 0x03 rd ra rb 0)) ∧
    (∃ (s : State) (p : Nat) (rd : Nat) (ra : Nat) (rb : Nat), rd < 16 ∧ ra < 16 ∧ rb < 16
        ∧ s.willIssue p (encR 0x04 rd ra rb 0)) ∧
    (∃ (s : State) (p : Nat) (rd : Nat) (ra : Nat) (rb : Nat), rd < 16 ∧ ra < 16 ∧ rb < 16
        ∧ s.willIssue p (encR 0x05 rd ra rb 0)) ∧
    (∃ (s : State) (p : Nat) (rd : Nat) (ra : Nat) (rb : Nat), rd < 16 ∧ ra < 16 ∧ rb < 16
        ∧ s.willIssue p (encR 0x06 rd ra rb 0)) ∧
    (∃ (s : State) (p : Nat) (rd : Nat) (ra : Nat) (rb : Nat), rd < 16 ∧ ra < 16 ∧ rb < 16
        ∧ s.willIssue p (encR 0x07 rd ra rb 0)) ∧
    (∃ (s : State) (p : Nat) (rd : Nat) (ra : Nat) (rb : Nat), rd < 16 ∧ ra < 16 ∧ rb < 16
        ∧ s.willIssue p (encR 0x08 rd ra rb 0)) ∧
    (∃ (s : State) (p : Nat) (rd : Nat) (ra : Nat) (rb : Nat), rd < 16 ∧ ra < 16 ∧ rb < 16
        ∧ s.willIssue p (encR 0x09 rd ra rb 0)) ∧
    (∃ (s : State) (p : Nat) (rd : Nat) (ra : Nat) (rb : Nat), rd < 16 ∧ ra < 16 ∧ rb < 16
        ∧ s.willIssue p (encR 0x0A rd ra rb 0)) ∧
    (∃ (s : State) (p : Nat) (rd : Nat) (ra : Nat) (imm : Nat), rd < 16 ∧ ra < 16 ∧ imm < 2 ^ 18
        ∧ s.willIssue p (encI 0x0B rd ra imm)) ∧
    (∃ (s : State) (p : Nat) (rd : Nat) (ra : Nat) (imm : Nat), rd < 16 ∧ ra < 16 ∧ imm < 2 ^ 18
        ∧ s.willIssue p (encI 0x0C rd ra imm)) ∧
    (∃ (s : State) (p : Nat) (rd : Nat) (ra : Nat) (imm : Nat), rd < 16 ∧ ra < 16 ∧ imm < 2 ^ 18
        ∧ s.willIssue p (encI 0x0D rd ra imm)) ∧
    (∃ (s : State) (p : Nat) (rd : Nat) (ra : Nat) (imm : Nat), rd < 16 ∧ ra < 16 ∧ imm < 2 ^ 18
        ∧ s.willIssue p (encI 0x0E rd 0 imm)) ∧
    (∃ (s : State) (p : Nat) (rd : Nat) (ra : Nat) (imm : Nat), rd < 16 ∧ ra < 16 ∧ imm < 2 ^ 18
        ∧ s.willIssue p (encI 0x15 rd 0 imm) ∧ imm ≤ 8) :=
  ⟨⟨hs 0 (encR 1 15 1 2 0), 0, 15, 1, 2, (by unfold State.willIssue State.intact; decide +kernel)⟩,
    ⟨hs 0 (encR 2 15 1 2 0), 0, 15, 1, 2, (by unfold State.willIssue State.intact; decide +kernel)⟩,
    ⟨hs 0 (encR 3 15 1 2 0), 0, 15, 1, 2, (by unfold State.willIssue State.intact; decide +kernel)⟩,
    ⟨hs 0 (encR 4 15 1 2 0), 0, 15, 1, 2, (by unfold State.willIssue State.intact; decide +kernel)⟩,
    ⟨hs 0 (encR 5 15 1 2 0), 0, 15, 1, 2, (by unfold State.willIssue State.intact; decide +kernel)⟩,
    ⟨hs 0 (encR 6 15 1 2 0), 0, 15, 1, 2, (by unfold State.willIssue State.intact; decide +kernel)⟩,
    ⟨hs 0 (encR 7 15 1 2 0), 0, 15, 1, 2, (by unfold State.willIssue State.intact; decide +kernel)⟩,
    ⟨hs 0 (encR 8 15 1 2 0), 0, 15, 1, 2, (by unfold State.willIssue State.intact; decide +kernel)⟩,
    ⟨hs 0 (encR 9 15 1 2 0), 0, 15, 1, 2, (by unfold State.willIssue State.intact; decide +kernel)⟩,
    ⟨hs 0 (encR 10 15 1 2 0), 0, 15, 1, 2, (by unfold State.willIssue State.intact; decide +kernel)⟩,
    ⟨hs 0 (encI 11 15 1 262143), 0, 15, 1, 262143, (by unfold State.willIssue State.intact; decide +kernel)⟩,
    ⟨hs 0 (encI 12 15 1 262143), 0, 15, 1, 262143, (by unfold State.willIssue State.intact; decide +kernel)⟩,
    ⟨hs 0 (encI 13 15 1 262143), 0, 15, 1, 262143, (by unfold State.willIssue State.intact; decide +kernel)⟩,
    ⟨hs 0 (encI 14 15 0 262143), 0, 15, 1, 262143, (by unfold State.willIssue State.intact; decide +kernel)⟩,
    ⟨hs 0 (encI 21 15 0 8), 0, 15, 1, 8, (by unfold State.willIssue State.intact; decide +kernel)⟩⟩

theorem witness_HandlerMemory :
    (∃ (s : State) (p : Nat) (rd : Nat) (ra : Nat) (imm : Nat) (ea : Nat), rd < 16 ∧ ra < 16 ∧ imm < 2 ^ 18
        ∧ (s.h p ra).toInt + sx 18 imm = (ea : Int) ∧ s.willIssue p (encI 0x10 rd ra imm) ∧ ea % 4 = 0
        ∧ ea + 4 ≤ s.rf (Reg.HDL_DATA_SIZE p) 0 18 ∧ s.intact p (s.rf (Reg.HDL_DATA_BASE p) 0 18 + ea) 4) ∧
    (∃ (s : State) (p : Nat) (rd : Nat) (ra : Nat) (imm : Nat) (ea : Nat), rd < 16 ∧ ra < 16 ∧ imm < 2 ^ 18
        ∧ (s.h p ra).toInt + sx 18 imm = (ea : Int) ∧ s.willIssue p (encI 0x12 rd ra imm)
        ∧ ea + 1 ≤ s.rf (Reg.HDL_DATA_SIZE p) 0 18 ∧ s.intact p (s.rf (Reg.HDL_DATA_BASE p) 0 18 + ea) 1) ∧
    (∃ (s : State) (p : Nat) (rd : Nat) (ra : Nat) (imm : Nat) (ea : Nat) (g : _), rd < 16 ∧ ra < 16 ∧ imm < 2 ^ 18
        ∧ (s.h p ra).toInt + sx 18 imm = (ea : Int) ∧ s.willIssue p (encI 0x14 rd ra imm) ∧ rd < 15 ∧ ea ≤ 4095
        ∧ s.grpOf p ea = some g ∧ s.intact p (g.copyAt ea ((s.core p).live (ea / 64))) 8) ∧
    (∃ (s : State) (p : Nat) (rd : Nat) (ra : Nat) (imm : Nat) (ea : Nat), rd < 16 ∧ ra < 16 ∧ imm < 2 ^ 18
        ∧ (s.h p ra).toInt + sx 18 imm = (ea : Int) ∧ s.willIssue p (encI 0x11 rd ra imm) ∧ ea % 4 = 0
        ∧ ea + 4 ≤ s.rf (Reg.HDL_DATA_SIZE p) 0 18 ∧ s.intact p (s.rf (Reg.HDL_DATA_BASE p) 0 18 + ea) 4) ∧
    (∃ (s : State) (p : Nat) (rd : Nat) (ra : Nat) (imm : Nat) (ea : Nat), rd < 16 ∧ ra < 16 ∧ imm < 2 ^ 18
        ∧ (s.h p ra).toInt + sx 18 imm = (ea : Int) ∧ s.willIssue p (encI 0x13 rd ra imm)
        ∧ ea + 1 ≤ s.rf (Reg.HDL_DATA_SIZE p) 0 18 ∧ s.intact p (s.rf (Reg.HDL_DATA_BASE p) 0 18 + ea) 1) :=
  ⟨⟨hs 0 (encI 0x10 2 3 20) (rg [(Reg.HDL_DATA_BASE 0, 0x20000), (Reg.HDL_DATA_SIZE 0, 64)]), 0, 2, 3, 20, 60,
      (by unfold State.willIssue State.intact; decide +kernel)⟩,
    ⟨hs 0 (encI 0x12 2 3 23) (rg [(Reg.HDL_DATA_BASE 0, 0x20000), (Reg.HDL_DATA_SIZE 0, 64)]), 0, 2, 3, 23, 63,
        (by unfold State.willIssue State.intact; decide +kernel)⟩,
    ⟨hs 0 (encI 0x14 14 3 23) (rg [(Reg.NEU_GRP_CFG 0 0, 0x80401000)]), 0, 14, 3, 23, 63,
        grpAt ((hs 0 (encI 0x14 14 3 23) (rg [(Reg.NEU_GRP_CFG 0 0, 0x80401000)]) : State)) 0 63,
        (by unfold State.willIssue State.intact; decide +kernel)⟩,
    ⟨hs 0 (encI 0x11 2 3 20) (rg [(Reg.HDL_DATA_BASE 0, 0x20000), (Reg.HDL_DATA_SIZE 0, 64)]), 0, 2, 3, 20, 60,
        (by unfold State.willIssue State.intact; decide +kernel)⟩,
    ⟨hs 0 (encI 0x13 2 3 23) (rg [(Reg.HDL_DATA_BASE 0, 0x20000), (Reg.HDL_DATA_SIZE 0, 64)]), 0, 2, 3, 23, 63,
        (by unfold State.willIssue State.intact; decide +kernel)⟩⟩

theorem witness_HandlerControl :
    (∃ (s : State) (p : Nat) (ra : Nat) (rb : Nat) (off : Nat), ra < 16 ∧ rb < 16 ∧ off < 2 ^ 18
        ∧ s.willIssue p (encI 0x20 ra rb off) ∧ s.h p ra = s.h p rb ∧ 0 ≤ (s.pc p : Int) + sx 18 off
        ∧ (s.pc p : Int) + sx 18 off ≤ 2047) ∧
    (∃ (s : State) (p : Nat) (ra : Nat) (rb : Nat) (off : Nat), ra < 16 ∧ rb < 16 ∧ off < 2 ^ 18
        ∧ s.willIssue p (encI 0x20 ra rb off) ∧ s.h p ra ≠ s.h p rb) ∧
    (∃ (s : State) (p : Nat) (ra : Nat) (rb : Nat) (off : Nat), ra < 16 ∧ rb < 16 ∧ off < 2 ^ 18
        ∧ s.willIssue p (encI 0x21 ra rb off) ∧ s.h p ra ≠ s.h p rb ∧ 0 ≤ (s.pc p : Int) + sx 18 off
        ∧ (s.pc p : Int) + sx 18 off ≤ 2047) ∧
    (∃ (s : State) (p : Nat) (ra : Nat) (rb : Nat) (off : Nat), ra < 16 ∧ rb < 16 ∧ off < 2 ^ 18
        ∧ s.willIssue p (encI 0x21 ra rb off) ∧ s.h p ra = s.h p rb) ∧
    (∃ (s : State) (p : Nat) (ra : Nat) (rb : Nat) (off : Nat), ra < 16 ∧ rb < 16 ∧ off < 2 ^ 18
        ∧ s.willIssue p (encI 0x22 ra rb off) ∧ (s.h p ra).toInt < (s.h p rb).toInt ∧ 0 ≤ (s.pc p : Int) + sx 18 off
        ∧ (s.pc p : Int) + sx 18 off ≤ 2047) ∧
    (∃ (s : State) (p : Nat) (ra : Nat) (rb : Nat) (off : Nat), ra < 16 ∧ rb < 16 ∧ off < 2 ^ 18
        ∧ s.willIssue p (encI 0x22 ra rb off) ∧ (s.h p rb).toInt ≤ (s.h p ra).toInt) ∧
    (∃ (s : State) (p : Nat) (ra : Nat) (rb : Nat) (off : Nat), ra < 16 ∧ rb < 16 ∧ off < 2 ^ 18
        ∧ s.willIssue p (encI 0x23 ra rb off) ∧ (s.h p rb).toInt ≤ (s.h p ra).toInt ∧ 0 ≤ (s.pc p : Int) + sx 18 off
        ∧ (s.pc p : Int) + sx 18 off ≤ 2047) ∧
    (∃ (s : State) (p : Nat) (ra : Nat) (rb : Nat) (off : Nat), ra < 16 ∧ rb < 16 ∧ off < 2 ^ 18
        ∧ s.willIssue p (encI 0x23 ra rb off) ∧ (s.h p ra).toInt < (s.h p rb).toInt) ∧
    (∃ (s : State) (p : Nat) (ra : Nat) (rb : Nat) (off : Nat) (target : _), ra < 16 ∧ rb < 16 ∧ off < 2 ^ 18 ∧ target < 2 ^ 11
        ∧ s.willIssue p (encJ 0x24 target)) ∧
    (∃ (s : State) (p : Nat) (ra : Nat) (rb : Nat) (off : Nat), ra < 16 ∧ rb < 16 ∧ off < 2 ^ 18 ∧ s.willIssue p (encJ 0x00 0)
        ∧ (s.core p).outer = none) ∧
    (∃ (s : State) (p : Nat) (ra : Nat) (rb : Nat) (off : Nat) (o : _), ra < 16 ∧ rb < 16 ∧ off < 2 ^ 18
        ∧ s.willIssue p (encJ 0x00 0) ∧ (s.core p).outer = some o) :=
  ⟨⟨hs 0 (encI 0x20 0 5 262140) rdy, 0, 0, 5, 262140, (by unfold State.willIssue State.intact; decide +kernel)⟩,
    ⟨hs 0 (encI 0x20 1 2 0) rdy, 0, 1, 2, 0, (by unfold State.willIssue State.intact; decide +kernel)⟩,
    ⟨hs 0 (encI 0x21 1 2 2043) rdy, 0, 1, 2, 2043, (by unfold State.willIssue State.intact; decide +kernel)⟩,
    ⟨hs 0 (encI 0x21 0 5 0) rdy, 0, 0, 5, 0, (by unfold State.willIssue State.intact; decide +kernel)⟩,
    ⟨hs 0 (encI 0x22 1 2 262140) rdy, 0, 1, 2, 262140, (by unfold State.willIssue State.intact; decide +kernel)⟩,
    ⟨hs 0 (encI 0x22 2 1 0) rdy, 0, 2, 1, 0, (by unfold State.willIssue State.intact; decide +kernel)⟩,
    ⟨hs 0 (encI 0x23 2 1 2043) rdy, 0, 2, 1, 2043, (by unfold State.willIssue State.intact; decide +kernel)⟩,
    ⟨hs 0 (encI 0x23 1 2 0) rdy, 0, 1, 2, 0, (by unfold State.willIssue State.intact; decide +kernel)⟩,
    ⟨hs 0 (encJ 0x24 2047) rdy, 0, 0, 0, 0, 2047, (by unfold State.willIssue State.intact; decide +kernel)⟩,
    ⟨hs 0 (encJ 0x0 0) rdy, 0, 0, 0, 0, (by unfold State.willIssue State.intact; decide +kernel)⟩,
    ⟨(hs 0 (encJ 0x0 0) rdy).updCore 0 fun c => { c with outer := some ⟨[(1, 3)], 2, 9, 500, ⟨4, 1, 2, [7], false, true, 1, 0⟩⟩ },
        0, 0, 0, 0, ⟨[(1, 3)], 2, 9, 500, ⟨4, 1, 2, [7], false, true, 1, 0⟩⟩,
        (by unfold State.willIssue State.intact; decide +kernel)⟩⟩

theorem witness_HandlerFaults :
    (∃ (s : State) (p : Nat) (rd : Nat) (ra : Nat) (rb : Nat) (imm : Nat) (ext : _), p < 9216 ∧ rd < 16 ∧ ra < 16 ∧ rb < 16
        ∧ imm < 2 ^ 18 ∧ (s.core p).outer = none ∧ 0 < ext ∧ ext < 2 ^ 14 ∧ s.willIssue p (encR 0x01 rd ra rb ext)) ∧
    (∃ (s : State) (p : Nat) (rd : Nat) (ra : Nat) (rb : Nat) (imm : Nat), p < 9216 ∧ rd < 16 ∧ ra < 16 ∧ rb < 16 ∧ imm < 2 ^ 18
        ∧ (s.core p).outer = none ∧ s.willIssue p (encI 0x0E rd ra imm) ∧ ra ≠ 0) ∧
    (∃ (s : State) (p : Nat) (rd : Nat) (ra : Nat) (rb : Nat) (imm : Nat), p < 9216 ∧ rd < 16 ∧ ra < 16 ∧ rb < 16 ∧ imm < 2 ^ 18
        ∧ (s.core p).outer = none ∧ s.willIssue p (encI 0x15 rd 0 imm) ∧ 8 < imm) ∧
    (∃ (s : State) (p : Nat) (rd : Nat) (ra : Nat) (rb : Nat) (imm : Nat), p < 9216 ∧ rd < 16 ∧ ra < 16 ∧ rb < 16 ∧ imm < 2 ^ 18
        ∧ (s.core p).outer = none ∧ s.willIssue p (encR 0x1D 15 ra rb 0)) ∧
    (∃ (s : State) (p : Nat) (rd : Nat) (ra : Nat) (rb : Nat) (imm : Nat), p < 9216 ∧ rd < 16 ∧ ra < 16 ∧ rb < 16 ∧ imm < 2 ^ 18
        ∧ (s.core p).outer = none ∧ s.willIssue p (encI 0x14 15 ra imm)) ∧
    (∃ (s : State) (p : Nat) (rd : Nat) (ra : Nat) (rb : Nat) (imm : Nat), p < 9216 ∧ rd < 16 ∧ ra < 16 ∧ rb < 16 ∧ imm < 2 ^ 18
        ∧ (s.core p).outer = none ∧ s.willIssue p (encI 0x10 rd ra imm) ∧ (s.h p ra).toInt + sx 18 imm < 0) ∧
    (∃ (s : State) (p : Nat) (rd : Nat) (ra : Nat) (rb : Nat) (imm : Nat), p < 9216 ∧ rd < 16 ∧ ra < 16 ∧ rb < 16 ∧ imm < 2 ^ 18
        ∧ (s.core p).outer = none ∧ s.willIssue p (encI 0x13 rd ra imm)
        ∧ ((s.rf (Reg.HDL_DATA_SIZE p) 0 18 : Nat) : Int) < (s.h p ra).toInt + sx 18 imm + 1) ∧
    (∃ (s : State) (p : Nat) (rd : Nat) (ra : Nat) (rb : Nat) (imm : Nat), p < 9216 ∧ rd < 16 ∧ ra < 16 ∧ rb < 16 ∧ imm < 2 ^ 18
        ∧ (s.core p).outer = none ∧ s.willIssue p (encI 0x11 rd ra imm) ∧ 0 ≤ (s.h p ra).toInt + sx 18 imm
        ∧ (s.h p ra).toInt + sx 18 imm + 4 ≤ ((s.rf (Reg.HDL_DATA_SIZE p) 0 18 : Nat) : Int)
        ∧ ((s.h p ra).toInt + sx 18 imm) % 4 ≠ 0) ∧
    (∃ (s : State) (p : Nat) (rd : Nat) (ra : Nat) (rb : Nat) (imm : Nat), p < 9216 ∧ rd < 16 ∧ ra < 16 ∧ rb < 16 ∧ imm < 2 ^ 18
        ∧ (s.core p).outer = none ∧ s.willIssue p (encI 0x20 ra rb imm) ∧ s.h p ra = s.h p rb
        ∧ 2047 < (s.pc p : Int) + sx 18 imm) ∧
    (∃ (s : State) (p : Nat) (rd : Nat) (ra : Nat) (rb : Nat) (imm : Nat), p < 9216 ∧ rd < 16 ∧ ra < 16 ∧ rb < 16 ∧ imm < 2 ^ 18
        ∧ (s.core p).outer = none ∧ s.willIssue p (encI 0x14 rd ra imm) ∧ rd ≠ 15 ∧ 4095 < (s.h p ra).toInt + sx 18 imm) ∧
    (∃ (s : State) (p : Nat) (rd : Nat) (ra : Nat) (rb : Nat) (imm : Nat), p < 9216 ∧ rd < 16 ∧ ra < 16 ∧ rb < 16 ∧ imm < 2 ^ 18
        ∧ (s.core p).outer = none ∧ s.hdlSt p ≠ hsIdle ∧ s.hdlSt p ≠ hsHalted ∧ (s.core p).budget = 0) :=
  ⟨⟨hs 0 (encR 0x1 1 1 2 16383) rdy, 0, 1, 1, 2, 0, 2 ^ 14 - 1, (by unfold State.willIssue State.intact; decide +kernel)⟩,
    ⟨hs 0 (encI 0xe 1 1 0) rdy, 0, 1, 1, 2, 0, (by unfold State.willIssue State.intact; decide +kernel)⟩,
    ⟨hs 0 (encI 0x15 1 0 9) rdy, 0, 1, 1, 2, 9, (by unfold State.willIssue State.intact; decide +kernel)⟩,
    ⟨hs 0 (encR 0x1d 15 1 2 0) rdy, 0, 1, 1, 2, 0, (by unfold State.willIssue State.intact; decide +kernel)⟩,
    ⟨hs 0 (encI 0x14 15 1 0) rdy, 0, 1, 1, 2, 0, (by unfold State.willIssue State.intact; decide +kernel)⟩,
    ⟨hs 0 (encI 0x10 1 0 262143) rdy, 0, 1, 0, 2, 2 ^ 18 - 1, (by unfold State.willIssue State.intact; decide +kernel)⟩,
    ⟨hs 0 (encI 0x13 1 3 24) (rg [(Reg.HDL_DATA_BASE 0, 0x20000), (Reg.HDL_DATA_SIZE 0, 64)]), 0, 1, 3, 2, 24,
        (by unfold State.willIssue State.intact; decide +kernel)⟩,
    ⟨hs 0 (encI 0x11 1 3 17) (rg [(Reg.HDL_DATA_BASE 0, 0x20000), (Reg.HDL_DATA_SIZE 0, 64)]), 0, 1, 3, 2, 17,
        (by unfold State.willIssue State.intact; decide +kernel)⟩,
    ⟨hs 0 (encI 0x20 0 5 2044) rdy, 0, 1, 0, 5, 2044, (by unfold State.willIssue State.intact; decide +kernel)⟩,
    ⟨hs 0 (encI 0x14 14 0 4096) rdy, 0, 14, 0, 2, 4096, (by unfold State.willIssue State.intact; decide +kernel)⟩,
    ⟨(hs 0 (encR 0x1 1 1 2 0) rdy).updCore 0 fun c => { c with budget := 0 }, 0, 1, 1, 2, 0, (by decide +kernel)⟩⟩

theorem witness_HandlerDispatch :
    (∃ (s : State) (p : Nat) (q : Nat) (n : Nat) (w : Word) (ws : List Word) (src : Nat) (rest : List QEntry),
        s.mayDispatch p = true ∧ (s.core p).gated = false ∧ s.amQueue p = some q ∧ ((s.core p).queue q).entries = ⟨w :: ws,
        src⟩ :: rest ∧ fld w 24 2 = ws.length ∧ n = (s.word p (handlerTable + 4 * fld w 26 6)).toNat ∧ 2 ^ 31 ≤ n) :=
  ⟨mw 0 [(handlerTable + 36, 0x800007FF)] (rg [(Reg.HDL_CTRL 0, 0x10004081), (Reg.HDL_STATUS 0, 0), (Reg.HDL_Q_CFG 0 2,
      0x80000001)] (rdy.updCore 0 fun c => { c with queues := [(2, ⟨[⟨[0x26000ABC, 5, 6], 3⟩], 0⟩)] })), 0, 2, 0x800007FF,
      0x26000ABC, [5, 6], 3, [], (by decide +kernel)⟩

theorem witness_HandlerEmit :
    (∃ (s : State) (p : Nat) (ra : Nat) (rb : Nat) (ext : Nat) (slot : Nat) (e : EmitReq), p < 9216 ∧ ra < 16 ∧ rb < 16
        ∧ ext < 16 ∧ s.willIssue p (encR 0x18 0 ra rb ext) ∧ e = ⟨(s.h p ra).toNat % 2 ^ 28, (s.h p rb).toNat % 2 ^ 8, ext % 8,
        1 - ext / 8⟩ ∧ ((s.core p).openStep = none ∨ (s.core p).declared = true) ∧ s.logAllows p e.cls 2 = true
        ∧ (s.core p).nextSlot 2 = some slot ∧ s.intact p (logAt slot) 4 ∧ s.intact p (logAt ((slot + 1) % 4096)) 4) ∧
    (∃ (s : State) (p : Nat) (ra : Nat) (rb : Nat) (ext : Nat) (e : EmitReq), p < 9216 ∧ ra < 16 ∧ rb < 16 ∧ ext < 16
        ∧ s.willIssue p (encR 0x18 0 ra rb ext) ∧ e = ⟨(s.h p ra).toNat % 2 ^ 28, (s.h p rb).toNat % 2 ^ 8, ext % 8, 1 - ext / 8⟩
        ∧ ((s.core p).openStep = none ∨ (s.core p).declared = true) ∧ s.logAllows p e.cls 2 = false) ∧
    (∃ (s : State) (p : Nat) (ra : Nat) (rb : Nat) (ext : Nat) (n : Nat) (slot : Nat), p < 9216 ∧ ra < 16 ∧ rb < 16 ∧ ext < 16
        ∧ s.willIssue p (encR 0x18 0 ra rb ext) ∧ (s.core p).openStep = some n ∧ (s.core p).declared = false
        ∧ s.logAllows p (1 - ext / 8) 2 = true ∧ (s.core p).nextSlot 2 = some slot ∧ s.intact p (logAt slot) 4
        ∧ s.intact p (logAt ((slot + 1) % 4096)) 4) ∧
    (∃ (s : State) (p : Nat) (ra : Nat) (rb : Nat) (ext : Nat) (n : Nat), p < 9216 ∧ ra < 16 ∧ rb < 16 ∧ ext < 16
        ∧ s.willIssue p (encR 0x18 0 ra rb ext) ∧ (s.core p).openStep = some n ∧ (s.core p).declared = false
        ∧ s.logAllows p (1 - ext / 8) 2 = false) :=
  ⟨⟨hs 0 (encR 0x18 0 1 2 15) rdy, 0, 1, 2, 15, 0, ⟨7, 9, 7, 0⟩, (by unfold State.willIssue State.intact; decide +kernel)⟩,

           ⟨(hs 0 (encR 0x18 0 1 2 7) rdy).updCore 0 fun c => { c with openStep := some 3, declared := true, log := (List.range 4095).map fun i => ⟨i, 3⟩ },
        0, 1, 2, 7, ⟨7, 9, 7, 1⟩, (by unfold State.willIssue State.intact; decide +kernel)⟩,
    ⟨(hs 0 (encR 0x18 0 1 2 15) rdy).updCore 0 fun c => { c with openStep := some 3 }, 0, 1, 2, 15, 3, 0,
        (by unfold State.willIssue State.intact; decide +kernel)⟩,
    ⟨(hs 0 (encR 0x18 0 1 2 7) rdy).updCore 0 fun c => { c with openStep := some 3, log := (List.range 4095).map fun i => ⟨i, 3⟩ },
        0, 1, 2, 7, 3, (by unfold State.willIssue State.intact; decide +kernel)⟩⟩

theorem witness_HandlerWaits :
    (∃ (s : State) (p : Nat) (rd : Nat) (ra : Nat) (mask : _), rd < 16 ∧ ra < 16 ∧ mask < 256
        ∧ s.willIssue p (encI 0x1C rd ra mask) ∧ s.dataQueue p mask = none ∧ s.h p ra = 0) ∧
    (∃ (s : State) (p : Nat) (rd : Nat) (ra : Nat) (mask : _), rd < 16 ∧ ra < 16 ∧ mask < 256
        ∧ s.willIssue p (encI 0x1C rd ra mask) ∧ s.dataQueue p mask = none ∧ s.h p ra ≠ 0) ∧
    (∃ (s : State) (p : Nat) (rd : Nat) (ra : Nat) (mask : _), rd < 16 ∧ ra < 16 ∧ (s.core p).wait = .waitq mask rd) ∧
    (∃ (s : State) (p : Nat) (rd : Nat) (ra : Nat) (mask : _) (q : _) (ws : _) (src : _) (rest : _), rd < 16 ∧ ra < 16
        ∧ mask < 256 ∧ s.willIssue p (encI 0x1C 0 ra mask) ∧ s.dataQueue p mask = some q ∧ ((s.core p).queue q).entries = ⟨ws,
        src⟩ :: rest) ∧
    (∃ (s : State) (p : Nat) (rd : Nat) (ra : Nat) (mask : _) (q : _) (ws : _) (src : _) (rest : _), rd < 16 ∧ ra < 16
        ∧ mask < 256 ∧ 0 < rd ∧ s.willIssue p (encI 0x1C rd ra mask) ∧ s.dataQueue p mask = some q
        ∧ ((s.core p).queue q).entries = ⟨ws, src⟩ :: rest) :=
  ⟨⟨hs 0 (encI 0x1c 15 0 255) rdy, 0, 15, 0, 255, (by unfold State.willIssue State.intact; decide +kernel)⟩,
    ⟨hs 0 (encI 0x1c 15 1 255) rdy, 0, 15, 1, 255, (by unfold State.willIssue State.intact; decide +kernel)⟩,
    ⟨(hs 0 (encI 0x1c 15 1 255) (rg [(Reg.HDL_STATUS 0, 0x60000004)])).updCore 0 fun c => { c with wait := .waitq 255 15 }, 0,
        15, 1, 255, (by decide +kernel)⟩,
    ⟨(hs 0 (encI 0x1c 0 1 255) (rg [(Reg.HDL_Q_CFG 0 7,
        0x80000000)])).updCore 0 fun c => { c with queues := [(7, ⟨[⟨[5, 6, 8, 9], 9215⟩, ⟨[1], 2⟩], 0⟩)] }, 0, 1, 1, 255, 7, [5,
        6, 8, 9], 9215, [⟨[1], 2⟩], (by unfold State.willIssue State.intact; decide +kernel)⟩,
    ⟨(hs 0 (encI 0x1c 12 1 255) (rg [(Reg.HDL_Q_CFG 0 7,
        0x80000000)])).updCore 0 fun c => { c with queues := [(7, ⟨[⟨[5, 6, 8, 9], 9215⟩, ⟨[1], 2⟩], 0⟩)] }, 0, 12, 1, 255, 7,
        [5, 6, 8, 9], 9215, [⟨[1], 2⟩], (by unfold State.willIssue State.intact; decide +kernel)⟩⟩

theorem witness_HandlerSends :
    (∃ (s : State) (p : Nat) (rd : Nat) (ra : Nat) (rb : Nat) (q : Nat) (n : Nat), rd < 16 ∧ ra < 16 ∧ rb < 16 ∧ p < 9216
        ∧ s.flows ((s.partOf (p / 144)).getD 0) ∧ fld (s.h p ra) 19 13 = 0 ∧ fld (s.h p ra) 13 3 = q ∧ fld (s.h p ra) 16 2 = 0
        ∧ tst (s.h p ra) 18 = false ∧ s.resolve p (fld (s.h p ra) 0 13) = .ok n ∧ n ≠ p ∧ s.willIssue p (encR 0x1A rd ra rb 0)) ∧
    (∃ (s : State) (p : Nat) (rd : Nat) (ra : Nat) (rb : Nat) (q : Nat) (n : Nat), rd < 16 ∧ ra < 16 ∧ rb < 16 ∧ p < 9216
        ∧ s.flows ((s.partOf (p / 144)).getD 0) ∧ fld (s.h p ra) 19 13 = 0 ∧ fld (s.h p ra) 13 3 = q ∧ fld (s.h p ra) 16 2 = 0
        ∧ tst (s.h p ra) 18 = false ∧ s.resolve p (fld (s.h p ra) 0 13) = .ok n ∧ n ≠ p ∧ s.willIssue p (encR 0x1B rd ra rb 0)) ∧
    (∃ (s : State) (p : Nat) (r : SendReq), p < 9216 ∧ (s.core p).wait = .send r ∧ r.retrying = false) ∧
    (∃ (s : State) (p : Nat) (r : SendReq) (n : _) (w : _), p < 9216 ∧ (s.core p).wait = .gap r ∧ r.words = [w] ∧ r.crc = false
        ∧ s.resolve p r.dest = .ok n ∧ n ≠ p ∧ s.flows ((s.partOf (p / 144)).getD 0)) :=
  ⟨⟨(hs 0 (encR 0x1a 4 1 2 0) (rg [(Reg.HDL_PART_GROVES_LO 0, 1)])).updCore 0 fun c => { c with hregs := [(1, 0xE07F), (2, 9)] },
      0, 4, 1, 2, 7, 127, (by decide +kernel), (by decide +kernel), (by decide +kernel), (by decide +kernel),
      (by unfold State.flows; decide +kernel), (by decide +kernel), (by decide +kernel), (by decide +kernel),
      (by decide +kernel), okEq (by decide +kernel), (by unfold State.willIssue State.intact; decide +kernel)⟩,
    ⟨(hs 0 (encR 0x1b 4 1 2 0) (rg [(Reg.HDL_PART_GROVES_LO 0,
        1)])).updCore 0 fun c => { c with hregs := [(1, 0xE07F), (2, 9)] }, 0, 4, 1, 2, 7, 127, (by decide +kernel),
        (by decide +kernel), (by decide +kernel), (by decide +kernel), (by unfold State.flows; decide +kernel),
        (by decide +kernel), (by decide +kernel), (by decide +kernel), (by decide +kernel), okEq (by decide +kernel),
        (by unfold State.willIssue State.intact; decide +kernel)⟩,
    ⟨(hs 0 (encR 0x1a 4 1 2 0) (rg [(Reg.HDL_STATUS 0,
        0x40000004)])).updCore 0 fun c => { c with wait := .send ⟨15, 127, 7, [9], false, false, 0, 0⟩ }, 0, ⟨15, 127, 7, [9],
        false, false, 0, 0⟩, (by decide +kernel)⟩,
    ⟨(hs 0 (encR 0x1b 4 1 2 0) (rg [(Reg.HDL_STATUS 0, 0x80000004), (Reg.HDL_PART_GROVES_LO 0,
        1)])).updCore 0 fun c => { c with wait := .gap ⟨15, 127, 7, [9], false, true, 0, 0⟩ }, 0, ⟨15, 127, 7, [9], false, true,
        0, 0⟩, 127, 9, (by decide +kernel), (by decide +kernel), (by decide +kernel), (by decide +kernel),
        okEq (by decide +kernel), (by unfold State.flows; decide +kernel)⟩⟩

theorem witness_HandlerSyncRequests :
    (∃ (s : State) (p : Nat) (rd : Nat) (ra : Nat) (rb : Nat) (g : Nat), rd < 15 ∧ ra < 16 ∧ rb < 15 ∧ fld (s.h p ra) 20 12 = 0
        ∧ g = fld (s.h p ra) 11 6 ∧ s.rd64 (Reg.HDL_PART_GROVES_LO p) / 2 ^ g % 2 = 1 ∧ s.flows ((s.partOf (p / 144)).getD 0)
        ∧ s.willIssue p (encR 0x1D rd ra rb 0)) ∧
    (∃ (s : State) (p : Nat) (rd : Nat) (ra : Nat) (rb : Nat) (g : Nat) (sel : _), rd < 15 ∧ ra < 16 ∧ rb < 15
        ∧ fld (s.h p ra) 20 12 = 0 ∧ g = fld (s.h p ra) 11 6 ∧ s.rd64 (Reg.HDL_PART_GROVES_LO p) / 2 ^ g % 2 = 1
        ∧ s.flows ((s.partOf (p / 144)).getD 0) ∧ sel < 8 ∧ s.willIssue p (encR 0x1F rd ra 0 sel)) ∧
    (∃ (s : State) (p : Nat) (rd : Nat) (ra : Nat) (rb : Nat) (g : Nat) (q : _), rd < 15 ∧ ra < 16 ∧ rb < 15
        ∧ fld (s.h p ra) 20 12 = 0 ∧ g = fld (s.h p ra) 11 6 ∧ s.rd64 (Reg.HDL_PART_GROVES_LO p) / 2 ^ g % 2 = 1
        ∧ s.flows ((s.partOf (p / 144)).getD 0) ∧ q = fld (s.h p ra) 17 3 ∧ s.willIssue p (encR 0x1E rd ra rb 0)
        ∧ s.qEnabled p q = true ∧ 0 < ((s.core p).queue q).free) :=
  ⟨⟨(hs 0 (encR 0x1d 14 1 2 0) (rg [(Reg.HDL_PART_GROVES_LO 0, 0), (Reg.HDL_PART_GROVES_HI 0,
      0x80000000)])).updCore 0 fun c => { c with hregs := [(1, 0x1FFFF), (2, 9)] }, 0, 14, 1, 2, 63,
      (by unfold State.flows State.willIssue State.intact; decide +kernel)⟩,
    ⟨(hs 0 (encR 0x1f 14 1 0 7) (rg [(Reg.HDL_PART_GROVES_LO 0,
        1)])).updCore 0 fun c => { c with hregs := [(1, 0x7FF), (2, 9)] }, 0, 14, 1, 2, 0, 7,
        (by unfold State.flows State.willIssue State.intact; decide +kernel)⟩,
    ⟨(hs 0 (encR 0x1e 14 1 14 0) (rg [(Reg.HDL_PART_GROVES_LO 0, 1), (Reg.HDL_Q_CFG 0 7,
        0x80000000)])).updCore 0 fun c => { c with hregs := [(1, 0xE07FF), (14, 9), (15, 11)] }, 0, 14, 1, 14, 0, 7,
        (by unfold State.flows State.willIssue State.intact; decide +kernel)⟩⟩

theorem witness_HandlerDense :
    (∃ (s : State) (p : Nat) (rd : Nat) (ra : Nat) (rb : Nat), p < 9216 ∧ rd < 16 ∧ ra < 16 ∧ rb < 16 ∧ fld (s.h p ra) 5 27 = 0
        ∧ s.willIssue p (encR 0x19 rd ra rb 0) ∧ (s.opCfg p (fld (s.h p ra) 0 2)).en = false) ∧
    (∃ (s : State) (p : Nat) (rd : Nat) (ra : Nat) (rb : Nat) (q : _) (run : _), p < 9216 ∧ rd < 16 ∧ ra < 16 ∧ rb < 16
        ∧ fld (s.h p ra) 5 27 = 0 ∧ s.willIssue p (encR 0x19 rd ra rb 0) ∧ q = fld (s.h p ra) 2 3
        ∧ (s.opCfg p (fld (s.h p ra) 0 2)).en = true ∧ (s.opCfg p (fld (s.h p ra) 0 2)).trigger = trgHandler
        ∧ (s.core p).dns = some run ∧ run.op ≠ fld (s.h p ra) 0 2 ∧ (s.core p).dnsQ = [] ∧ s.qEnabled p q = true
        ∧ 0 < ((s.core p).queue q).free) :=
  ⟨⟨(hs 0 (encR 0x19 15 1 2 0) rdy).updCore 0 fun c => { c with hregs := [(1, 0x1F), (2, 9)] }, 0, 15, 1, 2,
      (by unfold State.willIssue State.intact; decide +kernel)⟩,
    ⟨(hs 0 (encR 0x19 15 1 2 0) (rg [(Reg.HDL_Q_CFG 0 7, 0x80000000), (Reg.DNS_OP_CFG 0 3,
        0xC0000000)])).updCore 0 fun c => { c with hregs := [(1, 0x1F), (2, 9)], dns := some ⟨0, 0, .step, 0, false, 0, 0⟩ }, 0,
        15, 1, 2, 7, ⟨0, 0, .step, 0, false, 0, 0⟩, (by unfold State.willIssue State.intact; decide +kernel)⟩⟩

theorem witness_MessagesReachQueues :
    (∃ (s : State) (i : Nat) (p : Nat) (q : Nat) (src : Nat) (f : Flight) (w : _) (code : _), p < 9216 ∧ q < 8 ∧ s.arrived i f
        ∧ f.place = .core p ∧ srcKnown src = true ∧ src ≠ srcUnit ∧ (s.core p).gated = false ∧ (∀ m rd,
        (s.core p).wait ≠ .waitq m rd) ∧ f.body = .msg 0 w src q code ∧ s.qEnabled p q = true ∧ 0 < ((s.core p).queue q).free) ∧
    (∃ (s : State) (i : Nat) (p : Nat) (q : Nat) (src : Nat) (f : Flight) (w : _) (code : _), p < 9216 ∧ q < 8 ∧ s.arrived i f
        ∧ f.place = .core p ∧ srcKnown src = true ∧ src ≠ srcUnit ∧ (s.core p).gated = false ∧ (∀ m rd,
        (s.core p).wait ≠ .waitq m rd) ∧ f.body = .msg 0 w src q code ∧ s.qEnabled p q = true ∧ ((s.core p).queue q).free = 0) ∧
    (∃ (s : State) (i : Nat) (p : Nat) (q : Nat) (src : Nat) (f : Flight) (ws : _), p < 9216 ∧ q < 8 ∧ s.arrived i f
        ∧ f.place = .core p ∧ srcKnown src = true ∧ src ≠ srcUnit ∧ (s.core p).gated = false ∧ (∀ m rd,
        (s.core p).wait ≠ .waitq m rd) ∧ f.body = .amArgs src q ws none ∧ s.qEnabled p q = true ∧ 0 < ((s.core p).queue q).free) ∧
    (∃ (s : State) (i : Nat) (p : Nat) (q : Nat) (src : Nat) (f : Flight) (ws : _) (v : _), p < 9216 ∧ q < 8 ∧ s.arrived i f
        ∧ f.place = .core p ∧ srcKnown src = true ∧ src ≠ srcUnit ∧ (s.core p).gated = false ∧ (∀ m rd,
        (s.core p).wait ≠ .waitq m rd) ∧ f.body = .amArgs src q ws (some v)
        ∧ v ≠ crc c16t (ws.flatMap fun w => toBytes 4 w.toNat) ∧ s.qEnabled p q = true) ∧
    (∃ (s : State) (i : Nat) (p : Nat) (q : Nat) (src : Nat) (f : Flight) (w : _) (code : _), p < 9216 ∧ q < 8 ∧ s.arrived i f
        ∧ f.place = .core p ∧ srcKnown src = true ∧ src ≠ srcUnit ∧ (s.core p).gated = false ∧ (∀ m rd,
        (s.core p).wait ≠ .waitq m rd) ∧ f.body = .msg 1 w srcUnit q code ∧ 0 < ((s.core p).queue q).reserved) :=
  ⟨⟨pk (fl (.core 0) (.unicast 1 0) 0 none (.msg 0 5 0x2407 7 0) 3) ((rg [(Reg.HDL_Q_CFG 0 7,
      0x80000000)]).updCore 0 fun c => { c with queues := [(7, ⟨(List.range 31).map fun _ => ⟨[1], 2⟩, 0⟩)] }), 0, 0, 7, 0x2407,
      (fl (.core 0) (.unicast 1 0) 0 none (.msg 0 5 0x2407 7 0) 3), 5, 0, (by decide +kernel), (by decide +kernel),
      (by unfold State.arrived; decide +kernel), (by decide +kernel), (by decide +kernel), (by decide +kernel),
      (by decide +kernel), noWaitq (by decide +kernel), (by decide +kernel)⟩,
    ⟨pk (fl (.core 0) (.unicast 1 0) 0 none (.msg 0 5 9215 7 0) 3) ((rg [(Reg.HDL_Q_CFG 0 7,
        0x80000000)]).updCore 0 fun c => { c with queues := [(7, ⟨(List.range 31).map fun _ => ⟨[1], 2⟩, 1⟩)] }), 0, 0, 7, 9215,
        (fl (.core 0) (.unicast 1 0) 0 none (.msg 0 5 9215 7 0) 3), 5, 0, (by decide +kernel), (by decide +kernel),
        (by unfold State.arrived; decide +kernel), (by decide +kernel), (by decide +kernel), (by decide +kernel),
        (by decide +kernel), noWaitq (by decide +kernel), (by decide +kernel)⟩,
    ⟨pk (fl (.core 0) (.unicast 1 0) 0 none (.amArgs 9215 7 [1, 2, 3, 4] none) 3) (rg [(Reg.HDL_Q_CFG 0 7, 0x80000000)]), 0, 0,
        7, 9215, (fl (.core 0) (.unicast 1 0) 0 none (.amArgs 9215 7 [1, 2, 3, 4] none) 3), [1, 2, 3, 4], (by decide +kernel),
        (by decide +kernel), (by unfold State.arrived; decide +kernel), (by decide +kernel), (by decide +kernel),
        (by decide +kernel), (by decide +kernel), noWaitq (by decide +kernel), (by decide +kernel)⟩,
    ⟨pk (fl (.core 0) (.unicast 1 0) 0 none (.amArgs 0 7 [1, 2] (some 0)) 3) (rg [(Reg.HDL_Q_CFG 0 7, 0x80000000)]), 0, 0, 7, 0,
        (fl (.core 0) (.unicast 1 0) 0 none (.amArgs 0 7 [1, 2] (some 0)) 3), [1, 2], 0, (by decide +kernel),
        (by decide +kernel), (by unfold State.arrived; decide +kernel), (by decide +kernel), (by decide +kernel),
        (by decide +kernel), (by decide +kernel), noWaitq (by decide +kernel), (by decide +kernel)⟩,
    ⟨pk (fl (.core 0) (.unicast 1 0) 0 none (.msg 1 5 srcUnit 7 0) 3) ((rg [(Reg.HDL_Q_CFG 0 7,
        0x80000000)]).updCore 0 fun c => { c with queues := [(7, ⟨[], 1⟩)] }), 0, 0, 7, 0,
        (fl (.core 0) (.unicast 1 0) 0 none (.msg 1 5 srcUnit 7 0) 3), 5, 0, (by decide +kernel), (by decide +kernel),
        (by unfold State.arrived; decide +kernel), (by decide +kernel), (by decide +kernel), (by decide +kernel),
        (by decide +kernel), noWaitq (by decide +kernel), (by decide +kernel)⟩⟩

theorem witness_ResponsesEndWaits :
    (∃ (s : State) (i : Nat) (p : Nat) (f : Flight) (r : _) (w : _) (src : _) (code : _), p < 9216 ∧ s.arrived i f
        ∧ f.place = .core p ∧ f.body = .msg 2 w src r.queue code ∧ (s.core p).wait = .send r ∧ r.mark = f.mark
        ∧ (r.retrying = false ∨ code = rcOk) ∧ code < 13) ∧
    (∃ (s : State) (i : Nat) (p : Nat) (f : Flight) (r : _) (w : _) (src : _) (q : _) (code : _), p < 9216 ∧ s.arrived i f
        ∧ f.place = .core p ∧ f.body = .msg 2 w src q code ∧ (s.core p).wait = .send r ∧ r.mark ≠ f.mark) ∧
    (∃ (s : State) (i : Nat) (p : Nat) (f : Flight) (w : _) (src : _) (q : _) (code : _) (op : _) (rd : _) (qq : _), p < 9216
        ∧ s.arrived i f ∧ f.place = .core p ∧ f.body = .msg 3 w src q code ∧ (s.core p).wait = .sync op rd qq f.mark ∧ rd < 15
        ∧ (op ≠ 1 ∨ code = rcOk)) ∧
    (∃ (s : State) (i : Nat) (p : Nat) (f : Flight) (w : _) (src : _) (q : _) (op : _) (rd : _) (qq : _), p < 9216
        ∧ s.arrived i f ∧ f.place = .core p ∧ f.body = .msg 3 w src q rcPoolFull ∧ (s.core p).wait = .sync op rd qq f.mark
        ∧ rd < 15 ∧ qq < 8 ∧ op = 1) ∧
    (∃ (s : State) (i : Nat) (p : Nat) (f : Flight) (w : _) (src : _) (q : _) (code : _) (op : _) (rd : _) (qq : _) (m : _),
        p < 9216 ∧ s.arrived i f ∧ f.place = .core p ∧ f.body = .msg 3 w src q code ∧ (s.core p).wait = .sync op rd qq m
        ∧ m ≠ f.mark) ∧
    (∃ (s : State) (p : Nat) (v : _) (src : _), p < 9216 ∧ nextResponse (s.core p).respLast (s.core p).responses = some (src, v)
        ∧ src < 9216 ∧ s.flows ((s.partOf (p / 144)).getD 0)) :=
  ⟨⟨pk (fl (.core 0) (.unicast 1 0) 0 none (.msg 2 0 127 7 12) 3) ((rg [(Reg.HDL_STATUS 0,
      0x40000004)]).updCore 0 fun c => { c with wait := .send ⟨15, 127, 7, [9], false, false, 0, 3⟩ }), 0, 0,
      (fl (.core 0) (.unicast 1 0) 0 none (.msg 2 0 127 7 12) 3), ⟨15, 127, 7, [9], false, false, 0, 3⟩, 0, 127, 12,
      (by unfold State.arrived; decide +kernel)⟩,
    ⟨pk (fl (.core 0) (.unicast 1 0) 0 none (.msg 2 0 126 7 0) 3) ((rg [(Reg.HDL_STATUS 0,
        0x40000004)]).updCore 0 fun c => { c with wait := .send ⟨15, 127, 7, [9], false, false, 0, 4⟩ }), 0, 0,
        (fl (.core 0) (.unicast 1 0) 0 none (.msg 2 0 126 7 0) 3), ⟨15, 127, 7, [9], false, false, 0, 4⟩, 0, 126, 7, 0,
        (by unfold State.arrived; decide +kernel)⟩,
    ⟨pk (fl (.core 0) (.unicast 1 0) 0 none (.msg 3 77 srcUnit 0 0) 3) ((rg [(Reg.HDL_STATUS 0,
        0x40000004)]).updCore 0 fun c => { c with wait := .sync 1 14 7 3 }), 0, 0,
        (fl (.core 0) (.unicast 1 0) 0 none (.msg 3 77 srcUnit 0 0) 3), 77, srcUnit, 0, 0, 1, 14, 7,
        (by unfold State.arrived; decide +kernel)⟩,
    ⟨pk (fl (.core 0) (.unicast 1 0) 0 none (.msg 3 77 srcUnit 0 rcPoolFull) 3) ((rg [(Reg.HDL_STATUS 0,
        0x40000004)]).updCore 0 fun c => { c with wait := .sync 1 14 7 3, queues := [(7, ⟨[], 1⟩)] }), 0, 0,
        (fl (.core 0) (.unicast 1 0) 0 none (.msg 3 77 srcUnit 0 rcPoolFull) 3), 77, srcUnit, 0, 1, 14, 7,
        (by unfold State.arrived; decide +kernel)⟩,
    ⟨pk (fl (.core 0) (.unicast 1 0) 0 none (.msg 3 77 srcUnit 0 0) 3) ((rg [(Reg.HDL_STATUS 0,
        0x40000004)]).updCore 0 fun c => { c with wait := .sync 1 14 7 4 }), 0, 0,
        (fl (.core 0) (.unicast 1 0) 0 none (.msg 3 77 srcUnit 0 0) 3), 77, srcUnit, 0, 0, 1, 14, 7, 4,
        (by unfold State.arrived; decide +kernel)⟩,
    ⟨rdy.updCore 0 fun c => { c with responses := [(9215, 482)] }, 0, 482, 9215, (by unfold State.flows; decide +kernel)⟩⟩

theorem witness_SyncAdds :
    (∃ (s : State) (i : Nat) (g : Nat) (r : SyncReq), g < 64 ∧ s.syncAt i g r ∧ r.op = 0 ∧ (s.obj g r.object).en = false) ∧
    (∃ (s : State) (i : Nat) (g : Nat) (r : SyncReq), g < 64 ∧ s.syncAt i g r ∧ r.op = 0 ∧ (s.obj g r.object).en = true
        ∧ (s.obj g r.object).semaphore = false ∧ ((s.obj g r.object).count + r.operand).toInt < (s.obj g r.object).target.toInt) ∧
    (∃ (s : State) (i : Nat) (g : Nat) (r : SyncReq), g < 64 ∧ s.syncAt i g r ∧ r.op = 0 ∧ (s.obj g r.object).en = true
        ∧ (s.obj g r.object).semaphore = false ∧ 0 < (s.obj g r.object).target.toInt
        ∧ (s.obj g r.object).target.toInt ≤ ((s.obj g r.object).count + r.operand).toInt
        ∧ ((s.obj g r.object).count + r.operand).toInt < 2 * (s.obj g r.object).target.toInt) ∧
    (∃ (s : State) (i : Nat) (g : Nat) (r : SyncReq) (w : Waiter) (rest : List Waiter), g < 64 ∧ s.syncAt i g r
        ∧ (s.obj g r.object).en = true ∧ (s.obj g r.object).semaphore = true ∧ r.op = 0 ∧ (s.grove g).waiters = w :: rest
        ∧ w.object = r.object ∧ 0 < (s.obj g r.object).target.toInt
        ∧ (s.obj g r.object).target.toInt ≤ ((s.obj g r.object).count + r.operand).toInt
        ∧ ((s.obj g r.object).count + r.operand).toInt < 2 * (s.obj g r.object).target.toInt) ∧
    (∃ (s : State) (i : Nat) (g : Nat) (r : SyncReq), g < 64 ∧ s.syncAt i g r ∧ (s.obj g r.object).en = true
        ∧ (s.obj g r.object).semaphore = true ∧ r.op = 1 ∧ s.armed g r.object = 0
        ∧ (s.obj g r.object).target.toInt ≤ (s.obj g r.object).count.toInt) :=
  ⟨⟨pk (fl (.unit 64) (.unit 64 0) 0 none (.sync ⟨3, 0, 2047, 5, 0, 0, 5⟩)) rdy, 0, 0, ⟨3, 0, 2047, 5, 0, 0, 5⟩,
      (by decide +kernel), syncAt_of (by decide +kernel), (by decide +kernel)⟩,
    ⟨pk (fl (.unit 64) (.unit 64 0) 0 none (.sync ⟨3, 0, 2047, 5, 0, 0,
        5⟩)) (rdy.updGrove 0 fun c => { c with objs := [(2047, ⟨0x80000000, 9, 3, 41⟩)], waiters := [⟨2047, 3, 7, 11⟩] }), 0, 0,
        ⟨3, 0, 2047, 5, 0, 0, 5⟩, (by decide +kernel), syncAt_of (by decide +kernel), (by decide +kernel)⟩,
    ⟨pk (fl (.unit 64) (.unit 64 0) 0 none (.sync ⟨3, 0, 2047, 5, 0, 0,
        5⟩)) (rdy.updGrove 0 fun c => { c with objs := [(2047, ⟨0x80000000, 4, 2, 41⟩)], waiters := [⟨2047, 3, 7, 11⟩, ⟨5, 3, 7, 12⟩] }),
        0, 0, ⟨3, 0, 2047, 5, 0, 0, 5⟩, (by decide +kernel), syncAt_of (by decide +kernel), (by decide +kernel)⟩,
    ⟨pk (fl (.unit 64) (.unit 64 0) 0 none (.sync ⟨3, 0, 2047, 5, 0, 0,
        5⟩)) (rdy.updGrove 0 fun c => { c with objs := [(2047, ⟨0x80000001, 4, 0, 41⟩)], waiters := [⟨2047, 3, 7, 11⟩, ⟨2047, 3, 7, 12⟩] }),
        0, 0, ⟨3, 0, 2047, 5, 0, 0, 5⟩, ⟨2047, 3, 7, 11⟩, [⟨2047, 3, 7, 12⟩], (by decide +kernel), syncAt_of (by decide +kernel),
        (by decide +kernel)⟩,
    ⟨pk (fl (.unit 64) (.unit 64 0) 0 none (.sync ⟨3, 1, 2047, 5, 0, 7,
        5⟩)) (rdy.updGrove 0 fun c => { c with objs := [(2047, ⟨0x80000001, 4, 4, 41⟩)] }), 0, 0, ⟨3, 1, 2047, 5, 0, 7, 5⟩,
        (by decide +kernel), syncAt_of (by decide +kernel), (by decide +kernel)⟩⟩

theorem witness_SyncWaits :
    (∃ (s : State) (i : Nat) (g : Nat) (r : SyncReq), g < 64 ∧ s.syncAt i g r ∧ r.op = 1 ∧ (s.obj g r.object).en = true
        ∧ (s.obj g r.object).semaphore = false ∧ fld (s.obj g r.object).gen 0 16 ≠ r.gen16) ∧
    (∃ (s : State) (i : Nat) (g : Nat) (r : SyncReq), g < 64 ∧ s.syncAt i g r ∧ r.op = 1 ∧ (s.obj g r.object).en = true
        ∧ (s.obj g r.object).semaphore = false ∧ fld (s.obj g r.object).gen 0 16 = r.gen16 ∧ (s.grove g).waiters.length < 4096) ∧
    (∃ (s : State) (i : Nat) (g : Nat) (r : SyncReq), g < 64 ∧ s.syncAt i g r ∧ r.op = 1 ∧ (s.obj g r.object).en = true
        ∧ (s.obj g r.object).semaphore = false ∧ fld (s.obj g r.object).gen 0 16 = r.gen16 ∧ 4096 ≤ (s.grove g).waiters.length) ∧
    (∃ (s : State) (i : Nat) (g : Nat) (r : SyncReq), g < 64 ∧ s.syncAt i g r ∧ r.op = 2) ∧
    (∃ (s : State) (g : Nat) (n : _) (rest : _) (p : _), g < 64 ∧ (s.grove g).notices = n :: rest ∧ s.physOf n.logical = some p
        ∧ s.flows ((s.partOf (p / 144)).getD 0)) ∧
    (∃ (s : State) (a : Nat) (g : Nat) (i : Nat), g < 64 ∧ i < 2048 ∧ a < 8 ∧ s.barReach a g i = true ∧ s.ownsGrove a g = false) ∧
    (∃ (s : State) (a : Nat) (g : Nat) (i : Nat) (v : Word), g < 64 ∧ i < 2048 ∧ a < 8 ∧ s.barReach a g i = true
        ∧ s.ownsGrove a g = true ∧ (s.obj g i).en = true ∧ (s.obj g i).semaphore = false
        ∧ ((s.obj g i).count + v).toInt < (s.obj g i).target.toInt) ∧
    (∃ (s : State) (a : Nat) (g : Nat) (i : Nat) (v : Word), g < 64 ∧ i < 2048 ∧ a < 8 ∧ s.barReach a g i = true
        ∧ s.ownsGrove a g = true ∧ s.armed g i = 0 ∧ (v.toNat < 2 ^ 31 ∨ 1 ≤ (s.obj g i).target.toInt)) ∧
    (∃ (s : State) (a : Nat) (g : Nat) (i : Nat) (v : Word), g < 64 ∧ i < 2048 ∧ a < 8 ∧ s.barReach a g i = true
        ∧ s.ownsGrove a g = true ∧ s.armed g i = 0 ∧ ((s.obj g i).en = false ∨ 1 ≤ v.toInt)) ∧
    (∃ (s : State) (a : Nat) (g : Nat) (i : Nat), g < 64 ∧ i < 2048 ∧ a < 8 ∧ s.barReach a g i = true ∧ s.ownsGrove a g = true
        ∧ s.armed g i = 0) ∧
    (∃ (s : State) (a : Nat) (g : Nat) (i : Nat), g < 64 ∧ i < 2048 ∧ a < 8 ∧ s.barReach a g i = true ∧ s.ownsGrove a g = true
        ∧ 0 < s.armed g i) :=
  ⟨⟨pk (fl (.unit 64) (.unit 64 0) 0 none (.sync ⟨3, 1, 2047, 5, 40, 7,
      5⟩)) (rdy.updGrove 0 fun c => { c with objs := [(2047, ⟨0x80000000, 4, 0, 41⟩)] }), 0, 0, ⟨3, 1, 2047, 5, 40, 7, 5⟩,
      (by decide +kernel), syncAt_of (by decide +kernel), (by decide +kernel)⟩,
    ⟨pk (fl (.unit 64) (.unit 64 0) 0 none (.sync ⟨3, 1, 2047, 5, 41, 7,
        5⟩)) (rdy.updGrove 0 fun c => { c with objs := [(2047, ⟨0x80000000, 4, 0, 41⟩)] }), 0, 0, ⟨3, 1, 2047, 5, 41, 7, 5⟩,
        (by decide +kernel), syncAt_of (by decide +kernel), (by decide +kernel)⟩,
    ⟨pk (fl (.unit 64) (.unit 64 0) 0 none (.sync ⟨3, 1, 2047, 5, 41, 7,
        5⟩)) (rdy.updGrove 0 fun c => { c with objs := [(2047, ⟨0x80000000, 4, 0, 41⟩)], waiters := List.replicate 4096 ⟨5, 3, 7, 12⟩ }),
        0, 0, ⟨3, 1, 2047, 5, 41, 7, 5⟩, (by decide +kernel), syncAt_of (by decide +kernel), (by decide +kernel)⟩,
    ⟨pk (fl (.unit 64) (.unit 64 0) 0 none (.sync ⟨3, 2, 2047, 3, 0, 0,
        5⟩)) (rdy.updGrove 0 fun c => { c with objs := [(2047, ⟨0x80000000, 4, 0, 41⟩)], waiters := [⟨2047, 3, 7, 11⟩] }), 0, 0,
        ⟨3, 2, 2047, 3, 0, 0, 5⟩, (by decide +kernel), syncAt_of (by decide +kernel), (by decide +kernel)⟩,
    ⟨rdy.updGrove 63 fun c => { c with notices := [⟨8191, 7, 11⟩] }, 63, ⟨8191, 7, 11⟩, [], 9199,
        (by unfold State.flows; decide +kernel)⟩,
    ⟨rdy, 0, 63, 2047, (by decide +kernel)⟩,
    ⟨rdy.updGrove 0 fun c => { c with objs := [(2047, ⟨0x80000000, 9, 3, 41⟩)] }, 0, 0, 2047, 5, (by decide +kernel)⟩,
    ⟨rdy.updGrove 0 fun c => { c with objs := [(2047, ⟨0, 0, 3, 41⟩)] }, 0, 0, 2047, 0x7FFFFFFF, (by decide +kernel)⟩,
    ⟨rdy.updGrove 0 fun c => { c with objs := [(2047, ⟨0x80000000, 9, 3, 41⟩)] }, 0, 0, 2047, 1, (by decide +kernel)⟩,
    ⟨rdy.updGrove 0 fun c => { c with objs := [(2047, ⟨0x80000000, 9, 3, 41⟩)] }, 0, 0, 2047, (by decide +kernel)⟩,
    ⟨rdy.updGrove 0 fun c => { c with objs := [(2047, ⟨0x80000000, 9, 3, 41⟩)], waiters := [⟨2047, 3, 7, 11⟩] }, 0, 0, 2047,
        (by decide +kernel)⟩⟩

theorem witness_LeakShrinksTheMembrane :
    (∃ (g : Grp), g.leakMode = 0 ∧ g.leakK = 0) ∧
    (∃ (g : Grp) (v : Int), g.leakMode = 0 ∧ 0 < g.leakK ∧ 0 ≤ v) ∧
    (∃ (g : Grp) (v : Int), g.leakMode = 0 ∧ 0 < g.leakK ∧ v ≤ 0) ∧
    (∃ (g : Grp) (v : Int), g.leakMode = 0 ∧ 0 < g.leakK ∧ v.natAbs < 2 ^ (g.leakK - 1)) ∧
    (∃ (g : Grp) (v : Int), g.leakMode = 1 ∧ 0 ≤ g.leakC ∧ 0 < v) ∧
    (∃ (g : Grp) (v : Int), g.leakMode = 1 ∧ 0 ≤ g.leakC ∧ v < 0) ∧
    (∃ (g : Grp) (v : Int), 0 ≤ g.leakC ∧ 0 ≤ v) ∧
    (∃ (g : Grp) (v : Int), 0 ≤ g.leakC ∧ 0 ≤ v) ∧
    (∃ (g : Grp) (v : Int), 0 ≤ g.leakC ∧ v ≤ 0) ∧
    (∃ (g : Grp) (v : Int), 0 ≤ g.leakC ∧ v ≤ 0) :=
  ⟨⟨grpNone, (by decide +kernel)⟩,
    ⟨{ grpNone with leakK := 1 }, 0, (by decide +kernel)⟩,
    ⟨{ grpNone with leakK := 15 }, -32768, (by decide +kernel)⟩,
    ⟨{ grpNone with leakK := 4 }, -7, (by decide +kernel)⟩,
    ⟨{ grpNone with leakMode := 1, leakC := 5 }, 1, (by decide +kernel)⟩,
    ⟨{ grpNone with leakMode := 1, leakC := 0 }, -1, (by decide +kernel)⟩,
    ⟨{ grpNone with leakMode := 1, leakC := 9 }, 0, (by decide +kernel)⟩,
    ⟨{ grpNone with leakK := 3 }, 5, (by decide +kernel)⟩,
    ⟨{ grpNone with leakMode := 1, leakC := 9 }, -3, (by decide +kernel)⟩,
    ⟨{ grpNone with leakK := 3 }, 0, (by decide +kernel)⟩⟩

theorem witness_NeuronUpdates :
    (∃ (x1 : Word), 0 < fld x1 16 8) ∧
    (∃ (g : Grp) (e : Resc) (n : Nat) (cur : Nat) (x0 : Word) (x1 : Word) (v : Nat), (neuUpdate g e n x0 x1 cur).event = some v) ∧
    (∃ (g : Grp) (e : Resc) (n : Nat) (cur : Nat) (x0 : Word) (x1 : Word) (v : Nat), (neuUpdate g e n x0 x1 cur).event = some v
        ∧ g.fire ≠ 2) ∧
    (∃ (g : Grp) (e : Resc) (n : Nat) (cur : Nat) (x0 : Word) (x1 : Word) (v : Nat), (neuUpdate g e n x0 x1 cur).event = some v
        ∧ g.fire = 2) ∧
    (∃ (g : Grp) (e : Resc) (n : Nat) (cur : Nat) (x0 : Word) (x1 : Word) (v : Nat), (neuUpdate g e n x0 x1 cur).event = some v
        ∧ g.fire = 0) :=
  ⟨⟨0x0701FFFF, (by decide +kernel)⟩,
    ⟨{ grpNone with theta0 := 5, vMax := 100, value := 200, refrac := 255, fire := 1, leakMode := 1 }, rescOf 0x10 0, 65536, 0,
        0x00000007, 0xF8000000, 200, (by decide +kernel)⟩,
    ⟨{ grpNone with theta0 := 5, vMax := 100, value := 200, refrac := 255, fire := 1, leakK := 4 }, rescOf 0x10 0, 65536, 0,
        0x00000007, 0xF8000000, 200, (by decide +kernel)⟩,
    ⟨{ grpNone with theta0 := 5, vMax := 100, value := 200, refrac := 255, fire := 2, leakK := 15 }, rescOf 0x10 0, 65536, 0,
        0x00007FFF, 0xF8000000, 15, (by decide +kernel)⟩,
    ⟨{ grpNone with theta0 := 5, vReset := -3, value := 200, fire := 0, leakK := 15 }, rescOf 0x10 0, 65536, 0, 0x00007FFF,
        0xF8000000, 200, (by decide +kernel)⟩⟩

theorem witness_StepWorkOfACore :
    (∃ (s : State) (p : Nat) (n : _), p < 9216 ∧ (s.core p).openComing = some n ∧ s.entriesOf p n = []
        ∧ (s.core p).gated = false) ∧
    (∃ (s : State) (p : Nat) (n : _) (d : _) (rest : _) (g : _), p < 9216 ∧ (s.core p).openStep = some n
        ∧ (s.core p).deferred = d :: rest ∧ d.ej = 0 ∧ (s.core p).neuTake.contains d.lane = false ∧ s.grpOf p d.lane = some g
        ∧ d.pos < g.depth ∧ s.intact p (g.ringAt d.lane d.pos) 3) ∧
    (∃ (s : State) (p : Nat) (n : _), p < 9216 ∧ (s.core p).openStep = some n ∧ (s.core p).spanEnded = false
        ∧ (s.core p).neuTodo = [] ∧ (s.core p).dns = none ∧ s.rf (Reg.INT_GRV_AUDIT (p / 144)) 0 16 = 0) ∧
    (∃ (s : State) (p : Nat), p < 9216 ∧ s.mayGate p = true) ∧
    (∃ (s : State) (p : Nat) (src : _), p < 9216 ∧ s.wakeSource p src = true ∧ (s.core p).gated = true) :=
  ⟨⟨(rg [(Reg.NEU_GRP_CFG 0 0, 0x80401000)]).updCore 0 fun c => { c with openComing := some 16384 }, 0, 16384,
      (by decide +kernel)⟩,
    ⟨(rg [(Reg.NEU_GRP_CFG 0 0, 0x80401000)]).updCore 0 fun c => { c with openStep := some 3, deferred := [⟨63, 1, -5, 0, 0⟩] },
        0, 3, ⟨63, 1, -5, 0, 0⟩, [], grpAt (((rg [(Reg.NEU_GRP_CFG 0 0,
        0x80401000)]).updCore 0 fun c => { c with openStep := some 3, deferred := [⟨63, 1, -5, 0, 0⟩] } : State)) 0 63,
        (by unfold State.intact; decide +kernel)⟩,
    ⟨rdy.updCore 0 fun c => { c with openStep := some 3 }, 0, 3, (by decide +kernel)⟩,
    ⟨(rg [(Reg.NEU_CTRL 0, 1), (Reg.HDL_STATUS 0, 0)]).updCore 0 fun c => { c with openStep := none }, 0, (by decide +kernel)⟩,
    ⟨rdy.updCore 0 fun c => { c with gated := true, openComing := some 4 }, 0, 1, (by decide +kernel)⟩⟩

theorem witness_SynapseWork :
    (∃ (s : State) (p : Nat) (e : Ev) (rest : List Ev) (w : _), p < 9216 ∧ (s.core p).synQ = e :: rest ∧ (s.core p).gated = false
        ∧ s.bit (Reg.SYN_CTRL p) 0 = false ∧ e.parity < 4 ∧ s.winOf p e.key = some w ∧ w.grove = true
        ∧ (s.grove (p / 144)).rowQ.length < 1024) ∧
    (∃ (s : State) (p : Nat) (e : Ev) (rest : List Ev) (w : _), p < 9216 ∧ (s.core p).synQ = e :: rest ∧ (s.core p).gated = false
        ∧ s.bit (Reg.SYN_CTRL p) 0 = false ∧ e.parity < 4 ∧ s.winOf p e.key = some w ∧ w.grove = true
        ∧ 1024 ≤ (s.grove (p / 144)).rowQ.length) ∧
    (∃ (s : State) (p : Nat) (e : Ev) (rest : List Ev), p < 9216 ∧ (s.core p).synQ = e :: rest ∧ (s.core p).gated = false
        ∧ s.bit (Reg.SYN_CTRL p) 0 = false ∧ e.parity < 4 ∧ s.winOf p e.key = none) ∧
    (∃ (s : State) (p : Nat) (e : Ev) (rest : List Ev) (w : _) (off : _) (h : _) (f : _), p < 9216 ∧ (s.core p).synQ = e :: rest
        ∧ (s.core p).gated = false ∧ s.bit (Reg.SYN_CTRL p) 0 = false ∧ e.parity < 4 ∧ s.winOf p e.key = some w ∧ w.grove = false
        ∧ s.intact p (w.dir + 8 * (e.key - w.base)) 8 ∧ dirValid (s.num p (w.dir + 8 * (e.key - w.base)) 8) = true
        ∧ s.localRow p w e.key (s.num p (w.dir + 8 * (e.key - w.base)) 8) = some (off, h, f) ∧ h.nblk = 0
        ∧ s.intact p off (rowLen f h.nblk)) ∧
    (∃ (s : State) (i : Nat) (p : Nat) (par : Nat) (f : Flight) (b : BlockPkt), p < 9216 ∧ par < 4 ∧ s.arrived i f
        ∧ f.place = .core p ∧ f.body = .block b ∧ f.step = some par ∧ (s.core p).gated = false ∧ b.mask = 1 ∧ b.retract = false
        ∧ b.header = true) ∧
    (∃ (s : State) (i : Nat) (p : Nat) (par : Nat) (f : Flight) (b : BlockPkt), p < 9216 ∧ par < 4 ∧ s.arrived i f
        ∧ f.place = .core p ∧ f.body = .block b ∧ f.step = some par ∧ (s.core p).gated = false ∧ b.mask = 1 ∧ b.retract = false
        ∧ b.header = false
        ∧ s.blockGroup p (blkHdrOf b.bytes) (s.fmtSlot p b.fslot) b.tgt b.dmax (s.logicalOf p - s.fuses.active * (p / 144)) = none)
        ∧
    (∃ (s : State) (i : Nat) (p : Nat) (par : Nat) (f : Flight) (b : BlockPkt) (g : _) (n : _), p < 9216 ∧ par < 4
        ∧ s.arrived i f ∧ f.place = .core p ∧ f.body = .block b ∧ f.step = some par ∧ (s.core p).gated = false ∧ b.mask = 1
        ∧ b.retract = false ∧ b.header = false
        ∧ s.blockGroup p (blkHdrOf b.bytes) (s.fmtSlot p b.fslot) b.tgt b.dmax (s.logicalOf p - s.fuses.active * (p / 144)) = some g
        ∧ (blkHdrOf b.bytes).count = 0 ∧ 0 < g.lanes ∧ (blkHdrOf b.bytes).dly + 1 < g.depth ∧ (s.core p).openStep = some n
        ∧ s.intact p (g.ringAt (g.lane 0 (blkHdrOf b.bytes).tbase) ((n + 1 + (blkHdrOf b.bytes).dly) % g.depth)) 3) :=
  ⟨⟨(rg [(Reg.SYN_CTRL 0, 0), (Reg.SYN_WIN_KEY 0 7, 0x80000005), (Reg.SYN_WIN_CNT 0 7, 1), (Reg.SYN_WIN_CFG 0 7, 0x80000000),
      (Reg.SYN_WIN_DIR 0 7, 0x8000), (Reg.SYN_WIN_EXT 0 7,
      64)]).updCore 0 fun c => { c with synQ := [⟨5, 3, 9, 0, 7, false, false, false, false⟩] }, 0, ⟨5, 3, 9, 0, 7, false, false,
      false, false⟩, [], (((rg [(Reg.SYN_CTRL 0, 0), (Reg.SYN_WIN_KEY 0 7, 0x80000005), (Reg.SYN_WIN_CNT 0 7, 1),
      (Reg.SYN_WIN_CFG 0 7, 0x80000000), (Reg.SYN_WIN_DIR 0 7, 0x8000), (Reg.SYN_WIN_EXT 0 7,
      64)]).updCore 0 fun c => { c with synQ := [⟨5, 3, 9, 0, 7, false, false, false, false⟩] } : State)).win 0 7,
      (by decide +kernel)⟩,
    ⟨((rg [(Reg.SYN_CTRL 0, 0), (Reg.SYN_WIN_KEY 0 7, 0x80000005), (Reg.SYN_WIN_CNT 0 7, 1), (Reg.SYN_WIN_CFG 0 7, 0x80000000),
        (Reg.SYN_WIN_DIR 0 7, 0x8000), (Reg.SYN_WIN_EXT 0 7,
        64)]).updCore 0 fun c => { c with synQ := [⟨5, 3, 9, 0, 7, false, false, false, false⟩] }).updGrove 0 fun g => { g with rowQ := (List.range 1024).map fun _ => ⟨0, 7, 5, 3, false, 128, [], [1]⟩ },
        0, ⟨5, 3, 9, 0, 7, false, false, false, false⟩, [], ((((rg [(Reg.SYN_CTRL 0, 0), (Reg.SYN_WIN_KEY 0 7, 0x80000005),
        (Reg.SYN_WIN_CNT 0 7, 1), (Reg.SYN_WIN_CFG 0 7, 0x80000000), (Reg.SYN_WIN_DIR 0 7, 0x8000), (Reg.SYN_WIN_EXT 0 7,
        64)]).updCore 0 fun c => { c with synQ := [⟨5, 3, 9, 0, 7, false, false, false, false⟩] }).updGrove 0 fun g => { g with rowQ := (List.range 1024).map fun _ => ⟨0, 7, 5, 3, false, 128, [], [1]⟩ } : State)).win 0 7,
        (by decide +kernel)⟩,
    ⟨(rg [(Reg.SYN_CTRL 0, 0)]).updCore 0 fun c => { c with synQ := [⟨5, 3, 9, 0, 7, false, false, false, false⟩] }, 0, ⟨5, 3, 9,
        0, 7, false, false, false, false⟩, [], (by decide +kernel)⟩,
    ⟨mw 0 [(0x8000, 0x8010), (0x8004, 0x80000000), (0x8010, 0xFFFFFFFD), (0x8014, 5)] ((rg [(Reg.SYN_CTRL 0, 0),
        (Reg.SYN_WIN_KEY 0 7, 0x80000005), (Reg.SYN_WIN_CNT 0 7, 1), (Reg.SYN_WIN_CFG 0 7, 0), (Reg.SYN_WIN_DIR 0 7, 0x8000),
        (Reg.SYN_WIN_EXT 0 7, 64)]).updCore 0 fun c => { c with synQ := [⟨5, 3, 9, 0, 7, false, false, false, false⟩] }), 0, ⟨5,
        3, 9, 0, 7, false, false, false, false⟩, [], ((mw 0 [(0x8000, 0x8010), (0x8004, 0x80000000), (0x8010, 0xFFFFFFFD),
        (0x8014, 5)] ((rg [(Reg.SYN_CTRL 0, 0), (Reg.SYN_WIN_KEY 0 7, 0x80000005), (Reg.SYN_WIN_CNT 0 7, 1),
        (Reg.SYN_WIN_CFG 0 7, 0), (Reg.SYN_WIN_DIR 0 7, 0x8000), (Reg.SYN_WIN_EXT 0 7,
        64)]).updCore 0 fun c => { c with synQ := [⟨5, 3, 9, 0, 7, false, false, false, false⟩] }) : State)).win 0 7, 0x8010,
        rowHdrOf (((mw 0 [(0x8000, 0x8010), (0x8004, 0x80000000), (0x8010, 0xFFFFFFFD), (0x8014, 5)] ((rg [(Reg.SYN_CTRL 0, 0),
        (Reg.SYN_WIN_KEY 0 7, 0x80000005), (Reg.SYN_WIN_CNT 0 7, 1), (Reg.SYN_WIN_CFG 0 7, 0), (Reg.SYN_WIN_DIR 0 7, 0x8000),
        (Reg.SYN_WIN_EXT 0 7,
        64)]).updCore 0 fun c => { c with synQ := [⟨5, 3, 9, 0, 7, false, false, false, false⟩] }) : State)).bytes 0 0x8010 16),
        ((mw 0 [(0x8000, 0x8010), (0x8004, 0x80000000), (0x8010, 0xFFFFFFFD), (0x8014, 5)] ((rg [(Reg.SYN_CTRL 0, 0),
        (Reg.SYN_WIN_KEY 0 7, 0x80000005), (Reg.SYN_WIN_CNT 0 7, 1), (Reg.SYN_WIN_CFG 0 7, 0), (Reg.SYN_WIN_DIR 0 7, 0x8000),
        (Reg.SYN_WIN_EXT 0 7,
        64)]).updCore 0 fun c => { c with synQ := [⟨5, 3, 9, 0, 7, false, false, false, false⟩] }) : State)).fmtSlot 0 0,
        (by unfold State.intact; decide +kernel)⟩,
    ⟨pk (fl (.core 0) (.unicast 0 0) 0 (some 3) (.block ⟨[3, 0, 0, 0, 0, 0, 0, 0], 1, 0, 31, false, true, 65535, 0,
        (List.replicate 3 (0xFF : Byte)) ++ List.replicate 13 0⟩)), 0, 0, 3, (fl (.core 0) (.unicast 0 0) 0 (some 3) (.block ⟨[3,
        0, 0, 0, 0, 0, 0, 0], 1, 0, 31, false, true, 65535, 0, (List.replicate 3 (0xFF : Byte)) ++ List.replicate 13 0⟩)), ⟨[3,
        0, 0, 0, 0, 0, 0, 0], 1, 0, 31, false, true, 65535, 0, (List.replicate 3 (0xFF : Byte)) ++ List.replicate 13 0⟩,
        (by unfold State.arrived; decide +kernel)⟩,
    ⟨pk (fl (.core 0) (.unicast 0 0) 0 (some 3) (.block ⟨[3, 0, 0, 0, 0, 0, 0, 0], 1, 0, 31, false, false, 65535, 0,
        List.replicate 16 (0 : Byte)⟩)), 0, 0, 3, (fl (.core 0) (.unicast 0 0) 0 (some 3) (.block ⟨[3, 0, 0, 0, 0, 0, 0, 0], 1,
        0, 31, false, false, 65535, 0, List.replicate 16 (0 : Byte)⟩)), ⟨[3, 0, 0, 0, 0, 0, 0, 0], 1, 0, 31, false, false, 65535,
        0, List.replicate 16 (0 : Byte)⟩, (by unfold State.arrived; decide +kernel)⟩,
    ⟨pk (fl (.core 0) (.unicast 0 0) 0 (some 3) (.block ⟨[3, 0, 0, 0, 0, 0, 0, 0], 1, 0, 31, false, false, 65535, 0,
        List.replicate 16 (0 : Byte)⟩)) (mw 0 [(0x3000, 0x80)] ((rg [(Reg.NEU_GRP_CFG 0 0,
        0x80801000)]).updCore 0 fun c => { c with openStep := some 3 })), 0, 0, 3,
        (fl (.core 0) (.unicast 0 0) 0 (some 3) (.block ⟨[3, 0, 0, 0, 0, 0, 0, 0], 1, 0, 31, false, false, 65535, 0,
        List.replicate 16 (0 : Byte)⟩)), ⟨[3, 0, 0, 0, 0, 0, 0, 0], 1, 0, 31, false, false, 65535, 0,
        List.replicate 16 (0 : Byte)⟩, grpAt ((pk (fl (.core 0) (.unicast 0 0) 0 (some 3) (.block ⟨[3, 0, 0, 0, 0, 0, 0, 0], 1,
        0, 31, false, false, 65535, 0, List.replicate 16 (0 : Byte)⟩)) (mw 0 [(0x3000, 0x80)] ((rg [(Reg.NEU_GRP_CFG 0 0,
        0x80801000)]).updCore 0 fun c => { c with openStep := some 3 })) : State)) 0 0, 3,
        (by unfold State.arrived State.intact; decide +kernel)⟩⟩

theorem witness_GroveMemory :
    (∃ (s : State) (i : Nat) (g : Nat) (f : Flight) (r : RowReq), g < 64 ∧ s.arrived i f ∧ f.place = .unit g ∧ f.body = .rowReq r
        ∧ (s.grove g).rowQ = [] ∧ (s.grove g).rows.length < s.rowStreams g) ∧
    (∃ (s : State) (i : Nat) (g : Nat) (f : Flight) (r : RowReq), g < 64 ∧ s.arrived i f ∧ f.place = .unit g ∧ f.body = .rowReq r
        ∧ (s.grove g).rows.length = s.rowStreams g ∧ (s.grove g).rowQ.length < 1024 ∧ (s.grove g).rowQ.any (·.joins r) = false) ∧
    (∃ (s : State) (i : Nat) (g : Nat) (f : Flight) (r : RowReq), g < 64 ∧ s.arrived i f ∧ f.place = .unit g ∧ f.body = .rowReq r
        ∧ (s.grove g).rowQ.length = 1024 ∧ (s.grove g).rowQ.any (·.joins r) = false) ∧
    (∃ (s : State) (i : Nat) (g : Nat) (f : Flight) (r : RowReq) (q : _), g < 64 ∧ s.arrived i f ∧ f.place = .unit g
        ∧ f.body = .rowReq r ∧ (s.grove g).rowQ = [q] ∧ q.joins r = true) ∧
    (∃ (s : State) (g : Nat) (j : Nat) (job : RowJob) (w : Win) (status : _), g < 64 ∧ j < denseStreamBase
        ∧ (s.grove g).rows.find? (·.id == j) = some job ∧ job.req.home < 9216 ∧ job.req.parity < 4
        ∧ w = s.win job.req.home job.req.win ∧ (s.grove g).rowQ = [] ∧ (s.grove g).hbmOut.contains job.id = false
        ∧ s.readable (w.entryAt job.req.key) 8 ∧ status ≠ hbmBad ∧ dirValid (s.hbmNum (w.entryAt job.req.key) 8) = false) ∧
    (∃ (s : State) (g : Nat) (j : Nat) (job : RowJob) (w : Win) (a : _) (h : _) (f : _), g < 64 ∧ j < denseStreamBase
        ∧ (s.grove g).rows.find? (·.id == j) = some job ∧ job.req.home < 9216 ∧ job.req.parity < 4
        ∧ w = s.win job.req.home job.req.win ∧ (s.grove g).rowQ = [] ∧ (s.grove g).hbmOut.contains job.id = false
        ∧ s.readable (w.entryAt job.req.key) 8 ∧ s.groveRow job.req w none 0 0 = .row a h f ∧ s.readable a (rowLen f h.nblk)
        ∧ rowCrc ((s.hbmBytes a (rowLen f h.nblk)).take 16) ((s.hbmBytes a (rowLen f h.nblk)).drop 16) = h.crc) ∧
    (∃ (s : State) (st : Nat), st < 4 ∧ s.stackState st = 2) :=
  ⟨⟨pk (fl (.unit 0) (.unit 0 0) 0 (some 3) (.rowReq ⟨0, 7, 5, 3, false, 128, [],
      [1]⟩)) (rdy.updGrove 0 fun g => { g with rows := (List.range 255).map fun n => ⟨n, ⟨0, 7, 5, 3, false, 128, [], [1]⟩, 0, false, 0, none⟩, nextJob := 255 }),
      0, 0, (fl (.unit 0) (.unit 0 0) 0 (some 3) (.rowReq ⟨0, 7, 5, 3, false, 128, [], [1]⟩)), ⟨0, 7, 5, 3, false, 128, [], [1]⟩,
      (by unfold State.arrived; decide +kernel)⟩,
    ⟨pk (fl (.unit 0) (.unit 0 0) 0 (some 3) (.rowReq ⟨0, 7, 5, 3, false, 128, [],
        [1]⟩)) (rdy.updGrove 0 fun g => { g with rowQ := [⟨0, 7, 6, 3, false, 128, [], [1]⟩], rows := (List.range 256).map fun n => ⟨n, ⟨0, 7, 5, 3, false, 128, [], [1]⟩, 0, false, 0, none⟩, nextJob := 256 }),
        0, 0, (fl (.unit 0) (.unit 0 0) 0 (some 3) (.rowReq ⟨0, 7, 5, 3, false, 128, [], [1]⟩)), ⟨0, 7, 5, 3, false, 128, [],
        [1]⟩, (by unfold State.arrived; decide +kernel)⟩,
    ⟨pk (fl (.unit 0) (.unit 0 0) 0 (some 3) (.rowReq ⟨0, 7, 5, 3, false, 128, [],
        [1]⟩)) (rdy.updGrove 0 fun g => { g with rowQ := List.replicate 1024 ⟨0, 7, 6, 3, false, 128, [], [1]⟩ }), 0, 0,
        (fl (.unit 0) (.unit 0 0) 0 (some 3) (.rowReq ⟨0, 7, 5, 3, false, 128, [], [1]⟩)), ⟨0, 7, 5, 3, false, 128, [], [1]⟩,
        (by unfold State.arrived; decide +kernel)⟩,
    ⟨pk (fl (.unit 0) (.unit 0 0) 0 (some 3) (.rowReq ⟨0, 7, 5, 3, false, 128, [],
        [1]⟩)) (rdy.updGrove 0 fun g => { g with rowQ := [⟨0, 7, 5, 3, false, 1, [], [1]⟩], rows := (List.range 256).map fun n => ⟨n, ⟨0, 7, 5, 3, false, 128, [], [1]⟩, 0, false, 0, none⟩, nextJob := 256 }),
        0, 0, (fl (.unit 0) (.unit 0 0) 0 (some 3) (.rowReq ⟨0, 7, 5, 3, false, 128, [], [1]⟩)), ⟨0, 7, 5, 3, false, 128, [],
        [1]⟩, ⟨0, 7, 5, 3, false, 1, [], [1]⟩, (by unfold State.arrived; decide +kernel)⟩,
    ⟨(rg [(Reg.SYN_CTRL 0, 0), (Reg.SYN_WIN_KEY 0 7, 0x80000005), (Reg.SYN_WIN_CNT 0 7, 1), (Reg.SYN_WIN_CFG 0 7, 0x80000000),
        (Reg.SYN_WIN_DIR 0 7, 0), (Reg.SYN_WIN_EXT 0 7,
        64)]).updGrove 0 fun g => { g with rows := [⟨6, ⟨0, 7, 5, 3, false, 128, [], [1]⟩, 0, false, 0, none⟩], nextJob := 7 },
        0, 6, ⟨6, ⟨0, 7, 5, 3, false, 128, [], [1]⟩, 0, false, 0, none⟩, (((rg [(Reg.SYN_CTRL 0, 0), (Reg.SYN_WIN_KEY 0 7,
        0x80000005), (Reg.SYN_WIN_CNT 0 7, 1), (Reg.SYN_WIN_CFG 0 7, 0x80000000), (Reg.SYN_WIN_DIR 0 7, 0), (Reg.SYN_WIN_EXT 0 7,
        64)]).updGrove 0 fun g => { g with rows := [⟨6, ⟨0, 7, 5, 3, false, 128, [], [1]⟩, 0, false, 0, none⟩], nextJob := 7 } : State)).win 0 7,
        1, (by unfold State.readable; decide +kernel)⟩,
    ⟨((let s := ((rg [(Reg.SYN_CTRL 0, 0), (Reg.SYN_WIN_KEY 0 7, 0x80000005), (Reg.SYN_WIN_CNT 0 7, 1), (Reg.SYN_WIN_CFG 0 7,
        0x80000000), (Reg.SYN_WIN_DIR 0 7, 0), (Reg.SYN_WIN_EXT 0 7, 64)]).setHbmBytes 0 ([1, 0, 0, 0, 0, 0, 0,
        0x80] : List Byte)).setHbmBytes 36 ([5, 0, 0,
        0] : List Byte); s.setHbmBytes 44 ((List.range 4).map fun k => BitVec.ofNat 8 (rowCrc (s.hbmBytes 32 12) [] / 256 ^ k)))).updGrove 0 fun g => { g with rows := [⟨6, ⟨0, 7, 5, 3, false, 128, [], [1]⟩, 0, false, 0, none⟩], nextJob := 7 },
        0, 6, ⟨6, ⟨0, 7, 5, 3, false, 128, [], [1]⟩, 0, false, 0, none⟩, ((((let s := ((rg [(Reg.SYN_CTRL 0, 0),
        (Reg.SYN_WIN_KEY 0 7, 0x80000005), (Reg.SYN_WIN_CNT 0 7, 1), (Reg.SYN_WIN_CFG 0 7, 0x80000000), (Reg.SYN_WIN_DIR 0 7, 0),
        (Reg.SYN_WIN_EXT 0 7, 64)]).setHbmBytes 0 ([1, 0, 0, 0, 0, 0, 0, 0x80] : List Byte)).setHbmBytes 36 ([5, 0, 0,
        0] : List Byte); s.setHbmBytes 44 ((List.range 4).map fun k => BitVec.ofNat 8 (rowCrc (s.hbmBytes 32 12) [] / 256 ^ k)))).updGrove 0 fun g => { g with rows := [⟨6, ⟨0, 7, 5, 3, false, 128, [], [1]⟩, 0, false, 0, none⟩], nextJob := 7 } : State)).win 0 7,
        32, rowHdrOf (((((let s := ((rg [(Reg.SYN_CTRL 0, 0), (Reg.SYN_WIN_KEY 0 7, 0x80000005), (Reg.SYN_WIN_CNT 0 7, 1),
        (Reg.SYN_WIN_CFG 0 7, 0x80000000), (Reg.SYN_WIN_DIR 0 7, 0), (Reg.SYN_WIN_EXT 0 7, 64)]).setHbmBytes 0 ([1, 0, 0, 0, 0,
        0, 0, 0x80] : List Byte)).setHbmBytes 36 ([5, 0, 0,
        0] : List Byte); s.setHbmBytes 44 ((List.range 4).map fun k => BitVec.ofNat 8 (rowCrc (s.hbmBytes 32 12) [] / 256 ^ k)))).updGrove 0 fun g => { g with rows := [⟨6, ⟨0, 7, 5, 3, false, 128, [], [1]⟩, 0, false, 0, none⟩], nextJob := 7 } : State)).hbmBytes 32 16),
        ((((let s := ((rg [(Reg.SYN_CTRL 0, 0), (Reg.SYN_WIN_KEY 0 7, 0x80000005), (Reg.SYN_WIN_CNT 0 7, 1),
        (Reg.SYN_WIN_CFG 0 7, 0x80000000), (Reg.SYN_WIN_DIR 0 7, 0), (Reg.SYN_WIN_EXT 0 7, 64)]).setHbmBytes 0 ([1, 0, 0, 0, 0,
        0, 0, 0x80] : List Byte)).setHbmBytes 36 ([5, 0, 0,
        0] : List Byte); s.setHbmBytes 44 ((List.range 4).map fun k => BitVec.ofNat 8 (rowCrc (s.hbmBytes 32 12) [] / 256 ^ k)))).updGrove 0 fun g => { g with rows := [⟨6, ⟨0, 7, 5, 3, false, 128, [], [1]⟩, 0, false, 0, none⟩], nextJob := 7 } : State)).fmtSlot 0 0,
        (by unfold State.readable; decide +kernel)⟩,
    ⟨rg [(Reg.MEM_HBM_STATUS 3, 8)], 3, (by decide +kernel)⟩⟩

theorem witness_DenseWork :
    (∃ (s : State) (p : Nat) (r : DnsRun) (ref : _), p < 9216 ∧ (s.core p).dns = some r ∧ (s.core p).dnsEvents = []
        ∧ r.owner = .desc ref ∧ r.cb < (s.opCfg p r.op).blocks ∧ (s.core p).halted = false ∧ (s.opCfg p r.op).stream = false
        ∧ (s.core p).openStep = none ∧ s.forcing p = false
        ∧ s.intact p ((s.opCfg p r.op).weightSpan r.cb).1 ((s.opCfg p r.op).weightSpan r.cb).2
        ∧ s.intact p ((s.opCfg p r.op).inputSpan 0).1 ((s.opCfg p r.op).inputSpan 0).2
        ∧ (s.colBlock p p (s.opCfg p r.op) 0 r.cb).checks = true) ∧
    (∃ (s : State) (p : Nat) (r : DnsRun) (ref : _), p < 9216 ∧ (s.core p).dns = some r ∧ (s.core p).dnsEvents = []
        ∧ r.owner = .desc ref ∧ r.cb < (s.opCfg p r.op).blocks ∧ (s.core p).halted = false ∧ (s.opCfg p r.op).stream = false
        ∧ (s.core p).openStep = none ∧ r.rerun = false
        ∧ s.intact p ((s.opCfg p r.op).weightSpan r.cb).1 ((s.opCfg p r.op).weightSpan r.cb).2
        ∧ s.intact p ((s.opCfg p r.op).inputSpan 0).1 ((s.opCfg p r.op).inputSpan 0).2) ∧
    (∃ (s : State) (p : Nat) (r : DnsRun) (q : _) (w : _), p < 9216 ∧ (s.core p).dns = some r ∧ (s.core p).dnsEvents = []
        ∧ r.owner = .handler q w ∧ q < 8 ∧ (s.opCfg p r.op).blocks ≤ r.cb ∧ (∀ m rd, (s.core p).wait ≠ .waitq m rd)) ∧
    (∃ (s : State) (p : Nat) (r : DnsRun), p < 9216 ∧ (s.core p).dns = some r ∧ (s.core p).dnsEvents = [] ∧ r.owner = .step
        ∧ (s.opCfg p r.op).blocks ≤ r.cb ∧ (s.core p).dnsQ = [] ∧ (s.core p).dnsSteps = [r.op]) :=
  ⟨⟨mw 0 [(0x3000, 0x84), (0x20000, 0x1234ABCD), (0x21000, 0x80FF017F)] ((rg [(Reg.DNS_OP_CFG 0 3, 0xa0000000),
      (Reg.DNS_OP_SHAPE 0 3, 0x00080008), (Reg.DNS_OP_IN 0 3, 0x21000), (Reg.DNS_OP_W 0 3, 0x20000), (Reg.DNS_OP_OUT 0 3,
      0x22000)]).updCore 0 fun c => { c with dns := some ⟨3, 0, .desc ⟨0, 0, 0⟩, 0, false, 0, 0⟩ }), 0, ⟨3, 0, .desc ⟨0, 0, 0⟩,
      0, false, 0, 0⟩, ⟨0, 0, 0⟩, (by unfold State.intact; decide +kernel)⟩,
    ⟨mw 0 [(0x3000, 0x84), (0x20000, 0x1234ABCD), (0x21000, 0x80FF017F)] ((rg [(Reg.DNS_OP_CFG 0 3, 0xa0000000),
        (Reg.DNS_OP_SHAPE 0 3, 0x00080008), (Reg.DNS_OP_IN 0 3, 0x21000), (Reg.DNS_OP_W 0 3, 0x20000), (Reg.DNS_OP_OUT 0 3,
        0x22000)]).updCore 0 fun c => { c with dns := some ⟨3, 0, .desc ⟨0, 0, 0⟩, 0, false, 0, 0⟩ }), 0, ⟨3, 0, .desc ⟨0, 0, 0⟩,
        0, false, 0, 0⟩, ⟨0, 0, 0⟩, (by unfold State.intact; decide +kernel)⟩,
    ⟨mw 0 [(0x3000, 0x84), (0x20000, 0x1234ABCD), (0x21000, 0x80FF017F)] ((rg [(Reg.DNS_OP_CFG 0 3, 0xc0000000),
        (Reg.DNS_OP_SHAPE 0 3, 0x00080008), (Reg.DNS_OP_IN 0 3, 0x21000), (Reg.DNS_OP_W 0 3, 0x20000), (Reg.DNS_OP_OUT 0 3,
        0x22000)]).updCore 0 fun c => { c with dns := some ⟨3, 1, .handler 7 0x26000A00, 0, false, 1, 0⟩ }), 0, ⟨3, 1,
        .handler 7 0x26000A00, 0, false, 1, 0⟩, 7, 0x26000A00, (by decide +kernel), (by decide +kernel), (by decide +kernel),
        (by decide +kernel), (by decide +kernel), (by decide +kernel), noWaitq (by decide +kernel)⟩,
    ⟨mw 0 [(0x3000, 0x84), (0x20000, 0x1234ABCD), (0x21000, 0x80FF017F)] ((rg [(Reg.DNS_OP_CFG 0 3, 0x80000000),
        (Reg.DNS_OP_SHAPE 0 3, 0x00080008), (Reg.DNS_OP_IN 0 3, 0x21000), (Reg.DNS_OP_W 0 3, 0x20000), (Reg.DNS_OP_OUT 0 3,
        0x22000)]).updCore 0 fun c => { c with dns := some ⟨3, 1, .step, 0, false, 0, 0⟩, dnsSteps := [3] }), 0, ⟨3, 1, .step, 0,
        false, 0, 0⟩, (by decide +kernel)⟩⟩

theorem witness_DepositsAddUpInAnyOrder :
    (∃ (kept : List Int) (taken : List Int) (order : List Int), order.Perm (kept ++ taken ++ taken.map fun d => -d)) ∧
    (∃ (slot : Nat) (kept : List Int) (taken : List Int) (order : List Int), order.Perm (kept ++ taken ++ taken.map fun d => -d)
        ∧ -8388608 ≤ sx 24 slot + kept.sum ∧ sx 24 slot + kept.sum ≤ 8388607) :=
  ⟨⟨[1, -9], [4], [-4, 1, 4, -9], (by decide +kernel)⟩,
    ⟨0x7FFFFF, [1, -9], [4], [-4, 1, 4, -9], (by decide +kernel)⟩⟩

theorem witness_CanopyRouting :
    (∃ (s : State) (i : Nat) (k : Nat) (c : Nat) (remote : Bool) (f : Flight) (e : Ev), k < 9216 ∧ s.arrived i f
        ∧ f.place = .router k ∧ f.tag = .canopy remote (k / 144) c ∧ f.way = none ∧ f.body = .event e ∧ s.rtrState k ≠ rsFaulty
        ∧ canMask (s.canopy (k / 144) c) (k % 144) = 0) ∧
    (∃ (s : State) (i : Nat) (k : Nat) (c : Nat) (remote : Bool) (f : Flight) (e : Ev) (port : _) (n : _) (q : _), k < 9216
        ∧ s.arrived i f ∧ f.place = .router k ∧ f.tag = .canopy remote (k / 144) c ∧ f.way = none ∧ f.body = .event e
        ∧ s.rtrState k ≠ rsFaulty ∧ port < 4 ∧ canMask (s.canopy (k / 144) c) (k % 144) = 2 ^ port
        ∧ s.crosses i k port n q f.body) ∧
    (∃ (s : State) (i : Nat) (k : Nat) (c : Nat) (remote : Bool) (f : Flight) (e : Ev), k < 9216 ∧ s.arrived i f
        ∧ f.place = .router k ∧ f.tag = .canopy remote (k / 144) c ∧ f.way = none ∧ f.body = .event e ∧ s.rtrState k ≠ rsFaulty
        ∧ canMask (s.canopy (k / 144) c) (k % 144) = 32 ∧ s.ejectRole k c = none ∧ s.logicOn k = true ∧ s.role k = roleActive
        ∧ e.tclass < 2 ∧ (s.core k).synQ.length < 64) ∧
    (∃ (s : State) (i : Nat) (k : Nat) (c : Nat) (remote : Bool) (f : Flight) (e : Ev), k < 9216 ∧ s.arrived i f
        ∧ f.place = .router k ∧ f.tag = .canopy remote (k / 144) c ∧ f.way = none ∧ f.body = .event e ∧ s.rtrState k ≠ rsFaulty
        ∧ canMask (s.canopy (k / 144) c) (k % 144) = 32 ∧ s.ejectRole k c = none ∧ s.logicOn k = true ∧ s.role k = roleActive
        ∧ e.tclass < 2 ∧ 64 ≤ (s.core k).synQ.length) ∧
    (∃ (s : State) (i : Nat) (k : Nat) (c : Nat) (remote : Bool) (f : Flight) (e : Ev) (p : _), k < 9216 ∧ s.arrived i f
        ∧ f.place = .router k ∧ f.tag = .canopy remote (k / 144) c ∧ f.way = none ∧ f.body = .event e ∧ s.rtrState k ≠ rsFaulty
        ∧ canMask (s.canopy (k / 144) c) (k % 144) = 32 ∧ s.ejectRole k c = none ∧ s.logicOn k = true ∧ s.role k ≠ roleActive
        ∧ f.step = some p ∧ p < 4) ∧
    (∃ (s : State) (i : Nat) (g : Nat) (h : Nat) (c : Nat) (p : Nat) (f : Flight) (e : Ev) (remote : _) (n : _) (q : _), g < 64
        ∧ p < 4 ∧ s.arrived i f ∧ f.place = .stop g ∧ f.body = .event e ∧ f.step = some p ∧ f.tag = .canopy remote h c
        ∧ f.inPort ≠ 4 ∧ f.targets = [g] ∧ s.crosses i (stopNode g) 4 n q f.body) ∧
    (∃ (s : State) (i : Nat) (g : Nat) (c : Nat) (p : Nat) (f : Flight) (e : Ev) (x : _) (n : _) (q : _), g < 64 ∧ p < 4
        ∧ s.arrived i f ∧ f.place = .stop g ∧ f.body = .event e ∧ f.step = some p ∧ f.tag = .canopy false g c ∧ f.inPort = 4
        ∧ canTargets (s.canopy g c) = [x] ∧ x ≠ g ∧ s.crosses i (stopNode g) (stopPort g x) n q f.body) :=
  ⟨⟨pk (fl (.router 0) (.canopy false 0 4095) 0 (some 3) (.event ⟨5, 3, 9, 0, 7, false, false, false,
      false⟩)) { rdy with canLive := [(4095, 2 ^ 76)] }, 0, 0, 4095, false,
      (fl (.router 0) (.canopy false 0 4095) 0 (some 3) (.event ⟨5, 3, 9, 0, 7, false, false, false, false⟩)), ⟨5, 3, 9, 0, 7,
      false, false, false, false⟩, (by unfold State.arrived; decide +kernel)⟩,
    ⟨pk (fl (.router 0) (.canopy false 0 4095) 0 (some 3) (.event ⟨5, 3, 9, 0, 7, false, false, false,
        false⟩)) { rdy with canLive := [(4095, 2 ^ 129)] }, 0, 0, 4095, false,
        (fl (.router 0) (.canopy false 0 4095) 0 (some 3) (.event ⟨5, 3, 9, 0, 7, false, false, false, false⟩)), ⟨5, 3, 9, 0, 7,
        false, false, false, false⟩, 1, 1, 3, (by unfold State.arrived State.crosses; decide +kernel)⟩,
    ⟨pk (fl (.router 0) (.canopy false 0 4095) 0 (some 3) (.event ⟨5, 3, 9, 0, 7, false, false, false,
        false⟩)) { rdy with canLive := [(4095, 2 ^ 133)] }, 0, 0, 4095, false,
        (fl (.router 0) (.canopy false 0 4095) 0 (some 3) (.event ⟨5, 3, 9, 0, 7, false, false, false, false⟩)), ⟨5, 3, 9, 0, 7,
        false, false, false, false⟩, (by unfold State.arrived; decide +kernel)⟩,
    ⟨(pk (fl (.router 0) (.canopy false 0 4095) 0 (some 3) (.event ⟨5, 3, 9, 0, 7, false, false, false,
        false⟩)) { rdy with canLive := [(4095, 2 ^ 133)] }).updCore 0 fun c => { c with synQ := List.replicate 64 ⟨5, 3, 9, 0, 7, false, false, false, false⟩ },
        0, 0, 4095, false, (fl (.router 0) (.canopy false 0 4095) 0 (some 3) (.event ⟨5, 3, 9, 0, 7, false, false, false,
        false⟩)), ⟨5, 3, 9, 0, 7, false, false, false, false⟩, (by unfold State.arrived; decide +kernel)⟩,
    ⟨pk (fl (.router 0) (.canopy false 0 4095) 0 (some 3) (.event ⟨5, 3, 9, 0, 7, false, false, false,
        false⟩)) { (rg [(Reg.INT_PHYS_STATE 0, 0x20000000)]) with canLive := [(4095, 2 ^ 133)] }, 0, 0, 4095, false,
        (fl (.router 0) (.canopy false 0 4095) 0 (some 3) (.event ⟨5, 3, 9, 0, 7, false, false, false, false⟩)), ⟨5, 3, 9, 0, 7,
        false, false, false, false⟩, 3, (by unfold State.arrived; decide +kernel)⟩,

           ⟨pk { fl (.stop 0) (.canopy false 63 4095) 0 (some 3) (.event ⟨5, 3, 9, 0, 7, false, false, false, false⟩) with inPort := 1, targets := [0] } { rdy with canLive := [(4095, 2 ^ 76 * 5 + 2 ^ 133)] },
        0, 0, 63, 4095, 3,
        { fl (.stop 0) (.canopy false 63 4095) 0 (some 3) (.event ⟨5, 3, 9, 0, 7, false, false, false, false⟩) with inPort := 1, targets := [0] },
        ⟨5, 3, 9, 0, 7, false, false, false, false⟩, false, 78, 5, (by unfold State.arrived State.crosses; decide +kernel)⟩,
    ⟨pk { fl (.stop 0) (.canopy false 0 4095) 0 (some 3) (.event ⟨5, 3, 9, 0, 7, false, false, false, false⟩) with inPort := 4 } { rdy with canLive := [(4095, 2 ^ 63 + 2 ^ 76 * 5)] },
        0, 0, 4095, 3,
        { fl (.stop 0) (.canopy false 0 4095) 0 (some 3) (.event ⟨5, 3, 9, 0, 7, false, false, false, false⟩) with inPort := 4 },
        ⟨5, 3, 9, 0, 7, false, false, false, false⟩, 63, 9217, 3, (by unfold State.arrived State.crosses; decide +kernel)⟩⟩

theorem witness_UnicastRouting :
    (∃ (s : State) (i : Nat) (k : Nat) (dest : Nat) (endpoint : Nat) (f : Flight) (n : _) (q : _), k < 9216 ∧ dest < 9216
        ∧ s.arrived i f ∧ f.place = .router k ∧ f.tag = .unicast endpoint dest ∧ f.way = none ∧ s.rtrState k ≠ rsFaulty
        ∧ k ≠ dest ∧ k / 144 = dest / 144 ∧ s.crosses i k (hopPort k dest) n q f.body) ∧
    (∃ (s : State) (i : Nat) (k : Nat) (dest : Nat) (endpoint : Nat) (f : Flight), k < 9216 ∧ dest < 9216 ∧ s.arrived i f
        ∧ f.place = .router k ∧ f.tag = .unicast endpoint dest ∧ f.way = none ∧ s.rtrState k ≠ rsFaulty ∧ k = dest ∧ endpoint = 3
        ∧ (∀ e, f.body ≠ .event e)) ∧
    (∃ (s : State) (i : Nat) (k : Nat) (dest : Nat) (endpoint : Nat) (f : Flight) (mt : _) (w : _) (src : _) (q : _) (code : _),
        k < 9216 ∧ dest < 9216 ∧ s.arrived i f ∧ f.place = .router k ∧ f.tag = .unicast endpoint dest ∧ f.way = none
        ∧ s.rtrState k ≠ rsFaulty ∧ k = dest ∧ endpoint = 1 ∧ f.body = .msg mt w src q code ∧ s.logicOn k = true
        ∧ s.role k = roleActive) :=
  ⟨⟨pk (fl (.router 0) (.unicast 1 143) 0 none .badOpcode), 0, 0, 143, 1, (fl (.router 0) (.unicast 1 143) 0 none .badOpcode), 1,
      3, (by unfold State.arrived State.crosses; decide +kernel)⟩,
    ⟨pk (fl (.router 0) (.unicast 3 0) 0 none .badOpcode), 0, 0, 0, 3, (fl (.router 0) (.unicast 3 0) 0 none .badOpcode),
        (by decide +kernel), (by decide +kernel), (by unfold State.arrived; decide +kernel), (by decide +kernel),
        (by decide +kernel), (by decide +kernel), (by decide +kernel), (by decide +kernel), (by decide +kernel),
        noEvent (by decide +kernel)⟩,
    ⟨pk (fl (.router 0) (.unicast 1 0) 0 none (.msg 2 5 7 7 15)), 0, 0, 0, 1,
        (fl (.router 0) (.unicast 1 0) 0 none (.msg 2 5 7 7 15)), 2, 5, 7, 7, 15, (by unfold State.arrived; decide +kernel)⟩⟩

theorem witness_LinksRefuseAndResend :
    (∃ (s : State) (k : Nat) (port : Nat) (n : Nat) (q : Nat) (bytes : _), linkPeer k port = some (n, q)
        ∧ s.linkCut n q k port = false ∧ Store.get (fun _ => false) s.resync (linkId n q) = false
        ∧ Store.get (fun _ => false) s.nacked (linkId n q) = false ∧ linkDecode bytes = none) ∧
    (∃ (s : State) (k : Nat) (port : Nat) (n : Nat) (q : Nat), linkPeer k port = some (n, q) ∧ s.linkCut n q k port = false
        ∧ Store.get (fun _ => false) s.resync (linkId n q) = false ∧ Store.get (fun _ => false) s.nacked (linkId n q) = true) ∧
    (∃ (s : State) (k : Nat) (port : Nat) (n : Nat) (q : Nat) (bytes : _) (d : _) (fixed : _) (v : _) (i : _) (f : _),
        linkPeer k port = some (n, q) ∧ s.linkCut n q k port = false ∧ Store.get (fun _ => false) s.resync (linkId n q) = false
        ∧ Store.get (fun _ => false) s.nacked (linkId n q) = false ∧ linkDecode bytes = some (d, fixed)
        ∧ s.flitNext k port d = some (1, v) ∧ s.credit k port v = true ∧ s.nextOnLink i k port v f) ∧
    (∃ (s : State) (k : Nat) (port : Nat) (n : Nat) (q : Nat) (i : _) (v : _) (f : _), linkPeer k port = some (n, q)
        ∧ s.refused n q i 1 = some v ∧ s.net[i]? = some f ∧ Store.get (fun _ => false) s.nacked (linkId k port) = true
        ∧ Store.get (fun _ => 0) s.refusals (linkId k port) < 4) ∧
    (∃ (s : State) (k : Nat) (port : Nat) (n : Nat) (q : Nat) (i : _) (v : _) (f : _), linkPeer k port = some (n, q)
        ∧ s.refused n q i 1 = some v ∧ s.net[i]? = some f ∧ Store.get (fun _ => false) s.nacked (linkId k port) = true
        ∧ 4 ≤ Store.get (fun _ => 0) s.refusals (linkId k port) ∧ Store.get (fun _ => []) s.abandons (linkId k port) = []) ∧
    (∃ (k : Nat) (port : Nat) (n : Nat) (q : Nat), linkPeer k port = some (n, q)) :=
  ⟨⟨{ rdy with refusals := [(linkId 0 1, 2)] }, 1, 3, 0, 1, (List.replicate 52 (0 : Byte)), (by decide +kernel)⟩,
    ⟨{ rdy with nacked := [(linkId 0 1, true)], refusals := [(linkId 0 1, 2)] }, 1, 3, 0, 1, (by decide +kernel)⟩,

           ⟨pk { fl (.router 1) (.unicast 3 143) 0 none .badOpcode with inPort := 3, left := 2 } { rdy with refusals := [(linkId 0 1, 2)] },
        1, 3, 0, 1,
        ((rsEnc (Flight.dataFlit { fl (.router 1) (.unicast 3 143) 0 none .badOpcode with inPort := 3, left := 2 } 0)).set 51 0),
        Flight.dataFlit { fl (.router 1) (.unicast 3 143) 0 none .badOpcode with inPort := 3, left := 2 } 0, true,
        Body.vc .badOpcode, 0, { fl (.router 1) (.unicast 3 143) 0 none .badOpcode with inPort := 3, left := 2 },
        (by unfold State.nextOnLink; decide +kernel)⟩,

           ⟨pk { fl (.router 1) (.unicast 3 143) 0 none .badOpcode with inPort := 3, left := 2 } { rdy with nacked := [(linkId 0 1, true)], refusals := [(linkId 0 1, 3)] },
        0, 1, 1, 3, 0, Body.vc .badOpcode, { fl (.router 1) (.unicast 3 143) 0 none .badOpcode with inPort := 3, left := 2 },
        (by decide +kernel)⟩,

           ⟨pk { fl (.router 1) (.unicast 3 143) 0 none .badOpcode with inPort := 3, left := 2 } { rdy with nacked := [(linkId 0 1, true)], refusals := [(linkId 0 1, 4)] },
        0, 1, 1, 3, 0, Body.vc .badOpcode, { fl (.router 1) (.unicast 3 143) 0 none .badOpcode with inPort := 3, left := 2 },
        (by decide +kernel)⟩,
    ⟨0, 1, 1, 3, (by decide +kernel)⟩⟩

theorem witness_RouterFaultsAndResets :
    (∃ (s : State) (k : Nat), k < 9216 ∧ k % 144 ≠ 78 ∧ s.rtrState k ≠ rsFaulty ∧ s.routerOn k = true) ∧
    (∃ (s : State) (k : Nat) (a : _), k < 9216 ∧ a < 8 ∧ s.access a (Reg.FAB_RTR_CTRL k) = .ok
        ∧ (s.rtrState k = rsExcluded ∨ s.rtrState k = rsFaulty) ∧ Store.get (fun _ => false) s.excluded k = true) ∧
    (∃ (s : State) (k : Nat) (a : _), k < 9216 ∧ a < 8 ∧ s.access a (Reg.FAB_RTR_CTRL k) = .ok ∧ ((s.rtrState k ≠ rsExcluded
        ∧ s.rtrState k ≠ rsFaulty) ∨ Store.get (fun _ => false) s.excluded k = false)) ∧
    (∃ (s : State) (k : Nat), k < 9216 ∧ s.rtrState k = rsResetting ∧ (∀ port, port < 6 → ∀ x,
        x ∈ linkPeer k port → x.1 < 9216 → s.rtrState x.1 ≠ rsFaulty) ∧ (∀ port,
        port < 6 → Store.get (fun _ => false) s.linkDead (linkId k port) = false)) :=
  ⟨⟨pk (fl (.router 0) (.unicast 1 0) 0 none (.msg 2 5 7 7 15)) (rg [(coreReg 9215 0xE24, 0)]), 9215, (by decide +kernel)⟩,
    ⟨{ rg [(Reg.FAB_RTR_STATUS 143, 1)] with excluded := [(143, true)] }, 143, 0, (by decide +kernel)⟩,
    ⟨rdy, 0, 0, (by decide +kernel)⟩,
    ⟨pk (fl (.router 0) (.unicast 1 0) 0 none (.msg 2 5 7 7 15)) (rg [(Reg.FAB_RTR_STATUS 0, 0x003F0003)]), 0,
        (by decide +kernel)⟩⟩

theorem witness_Clearings :
    (∃ (s : State) (k : Nat) (a : _), k < 64 ∧ a < 8 ∧ s.access a (Reg.FAB_CLEAR_CTRL k) = .ok ∧ (s.part k).clearing = .none) ∧
    (∃ (s : State) (k : Nat) (d : _), k < 64 ∧ (s.part k).clearing = .pending ∧ (s.part k).openStep = none
        ∧ (s.part k).applying = 0 ∧ s.stagedFault k = some d) ∧
    (∃ (s : State) (k : Nat), k < 64 ∧ (s.part k).clearing = .pending ∧ (s.part k).openStep = none ∧ (s.part k).applying = 0
        ∧ s.stagedFault k = none ∧ s.pathFault stagedView k = none ∧ s.cycleFault stagedView k = none) ∧
    (∃ (s : State) (k : Nat) (start : Nat) (all : Bool) (e : _), k < 64 ∧ (s.part k).clearing = .draining start all
        ∧ s.drained k all = true ∧ s.ref ≤ start + 3000 ∧ s.srcChanged = [(e, true)] ∧ s.holds k (e / 1024 / 144) = true) ∧
    (∃ (s : State) (k : Nat) (start : Nat) (all : Bool), k < 64 ∧ (s.part k).clearing = .draining start all
        ∧ s.drained k all = false ∧ start + 3000 ≤ s.ref) :=
  ⟨⟨rg [(Reg.FAB_CLEAR_STATUS 0, 0)], 0, 0, (by decide +kernel)⟩,
    ⟨{ rdy.updPart 0 (fun q => { q with clearing := .pending }) with srcStaged := [(3, 0x800000FF)], srcChanged := [(3, true)] },
        0,
        ((({ rdy.updPart 0 (fun q => { q with clearing := .pending }) with srcStaged := [(3, 0x800000FF)], srcChanged := [(3, true)] } : State)).stagedFault 0).getD 0,
        (by decide +kernel)⟩,
    ⟨rdy.updPart 5 fun q => { q with clearing := .pending }, 5, (by decide +kernel)⟩,

           ⟨{ rdy.updPart 0 (fun q => { q with clearing := .draining 0 true }) with srcStaged := [(1024, 7)], srcLive := [(1024, 9)], srcChanged := [(1024, true)] },
        0, 0, true, 1024, (by decide +kernel)⟩,
    ⟨rg [(Reg.FAB_PC_INJ 0 2, 1), (Reg.TB_REF_LO, 3000)] (rdy.updPart 0 fun q => { q with clearing := .draining 0 false }), 0, 0,
        false, (by decide +kernel)⟩⟩

theorem witness_StepsOpen :
    (∃ (s : State) (k : Nat) (n : Nat), k < 64 ∧ n = ((s.rd (Reg.STEP_COMMITTED k)).toNat + 1) % 2 ^ 32 ∧ s.mayOpen k = true
        ∧ (s.port 0).holdBuf = [] ∧ (s.port 1).holdBuf = []) ∧
    (∃ (s : State) (k : Nat), s.pstate k ≠ psRunning) :=
  ⟨⟨rg [(Reg.STEP_COMMITTED 0, 0xFFFFFFFF), (Reg.STEP_STATE 0, 0x00800000), (Reg.FAB_PC_INJ 0 0, 8)], 0, 0, (by decide +kernel)⟩,
    ⟨rdy, 63, (by decide +kernel)⟩⟩

theorem witness_FiresReachTheSequencer :
    (∃ (s : State) (k : Nat), k < 64 ∧ s.pstate k = psRunning ∧ 0 < (s.part k).fires ∧ s.pendingFire k = true) ∧
    (∃ (s : State) (k : Nat) (n : Nat), k < 64 ∧ s.pstate k = psRunning ∧ 0 < (s.part k).fires ∧ s.pendingFire k = false
        ∧ (s.part k).openStep = some n ∧ s.rf (Reg.STEP_POLICY k) 0 2 = 0) ∧
    (∃ (s : State) (k : Nat) (n : Nat), k < 64 ∧ s.pstate k = psRunning ∧ 0 < (s.part k).fires ∧ s.pendingFire k = false
        ∧ (s.part k).openStep = some n ∧ s.rf (Reg.STEP_POLICY k) 0 2 = 2 ∧ (s.part k).applying = 0) ∧
    (∃ (s : State) (k : Nat) (n : Nat), k < 64 ∧ s.pstate k = psRunning ∧ s.pendingFire k = true ∧ (s.part k).overrun = true
        ∧ (s.part k).openStep = some n ∧ (s.part k).applying = 0 ∧ (s.rd (Reg.STEP_MAX_STRETCH k)).toNat ≠ 0xFFFFFFFF
        ∧ (s.rd (Reg.STEP_MAX_STRETCH k)).toNat ≤ (s.ptb + 2 ^ 64 - (s.part k).firePtb) % 2 ^ 64) :=
  ⟨⟨(rg [(Reg.STEP_STATE 0, 0x00800000)]).updPart 0 fun q => { q with fires := 1, merged := 5 }, 0, (by decide +kernel)⟩,
    ⟨(rg [(Reg.STEP_POLICY 0, 0)]).updPart 0 fun q => { q with fires := 1, openStep := some 9 }, 0, 9, (by decide +kernel)⟩,
    ⟨(rg [(Reg.STEP_POLICY 0, 2)]).updPart 0 fun q => { q with fires := 1, openStep := some 9 }, 0, 9, (by decide +kernel)⟩,
    ⟨(rg [(Reg.STEP_STATE 0, 0x00800000), (Reg.STEP_MAX_STRETCH 0,
        0)]).updPart 0 fun q => { q with overrun := true, openStep := some 9 }, 0, 9, (by decide +kernel)⟩⟩

theorem witness_StepsCloseAndDeliver :
    (∃ (s : State) (k : Nat) (p : _), k < 64 ∧ s.runningPart p = some k ∧ (s.core p).mayDeclare = true) ∧
    (∃ (s : State) (k : Nat) (n : Nat), k < 64 ∧ (s.part k).openStep = some n ∧ (s.part k).delivered = false
        ∧ (s.part k).closed = true ∧ s.settled k n = true ∧ (∀ g ∈ s.grovesOf k, (s.grove g).held = false
        ∧ (s.grove g).passed = false)) ∧
    (∃ (s : State) (k : Nat) (n : Nat), k < 64 ∧ (s.part k).openStep = some n ∧ (s.part k).roundAsked = true
        ∧ ((s.grovesOf k).all fun g => (s.grove g).passed) = true) ∧
    (∃ (s : State) (k : Nat) (n : Nat), k < 64 ∧ (s.part k).openStep = some n ∧ (s.part k).roundAsked = false
        ∧ (s.part k).delivered = false ∧ s.settled k n = true ∧ ((s.coresOfPart k).any fun p => (s.core p).stalled) = true
        ∧ ((s.coresOfPart k).all fun p => (s.core p).declared || (s.core p).stalled) = true) :=
  ⟨⟨(((rg ((List.range 127).map fun i => (Reg.INT_PHYS_STATE (i + 1),
      0x30000000)) (rdy))).updPart 0 (fun q => { q with openStep := some 7 })).updCore 0 (fun c => { c with openStep := some 7, spanEnded := true }),
      0, 0, (by decide +kernel)⟩,
    ⟨(rdy).updPart 0 (fun q => { q with openStep := some 7, closed := true }), 0, 7, (by decide +kernel)⟩,

           ⟨((rdy).updPart 0 (fun q => { q with openStep := some 7, roundAsked := true })).updGrove 0 (fun g => { g with passed := true }),
        0, 7, (by decide +kernel)⟩,
    ⟨(((rg ((List.range 127).map fun i => (Reg.INT_PHYS_STATE (i + 1),
        0x30000000)) (rdy))).updPart 0 (fun q => { q with openStep := some 7 })).updCore 0 (fun c => { c with openStep := some 7, neuTodo := [5], neuTake := [] }),
        0, 7, (by decide +kernel)⟩⟩

theorem witness_StepsCommit :
    (∃ (s : State) (k : Nat) (n : Nat), k < 64 ∧ s.mayCommit k = true ∧ (s.part k).openStep = some n ∧ (∀ p ∈ s.coresOfPart k,
        (s.core p).fencePending = false)) :=
  ⟨(((rdy).updPart 0 (fun q => { q with openStep := some 0xFFFFFFFF, delivered := true })).updGrove 0 (fun g => { g with passed := true })).updCore 0 (fun c => { c with openStep := some 0xFFFFFFFF, selectors := 6, blocks := 5 }),
      0, 0xFFFFFFFF, (by decide +kernel)⟩

theorem witness_VerdictsAndGroveFaults :
    (∃ (s : State) (g : Nat) (k : Nat) (i : _) (f : _) (r : _), g < 64 ∧ s.partOf g = some k ∧ s.arrived i f
        ∧ f.place = .unit (0x80 + g) ∧ f.body = .check r) ∧
    (∃ (s : State) (g : Nat) (k : Nat) (a : _), g < 64 ∧ s.partOf g = some k ∧ (s.grove g).asked = some a
        ∧ (s.grove g).passed = false ∧ (s.grove g).hbmOut = [] ∧ (s.grove g).replay = none ∧ (s.grove g).repair = []
        ∧ ((s.activeCores g).all fun p => (reportOf (s.grove g).reports p).isSome) = true
        ∧ s.findingOf k (s.grove g).reports = none) ∧
    (∃ (s : State) (g : Nat) (cause : Nat), g < 64 ∧ cause < 3 ∧ (s.grove g).plsApply = false ∧ s.partOf g = none) ∧
    (∃ (s : State) (g : Nat) (cause : Nat) (k : _), g < 64 ∧ cause < 3 ∧ (s.grove g).plsApply = false ∧ s.partOf g = some k
        ∧ s.pstate k = psRunning ∧ (s.part k).applying = 0) :=
  ⟨⟨pk (fl (.unit 128) (.unit 128 0) 0 none (.check ⟨0, 0, 0, 0, 0, 0, 0, 0, 3, false, 0⟩)), 0, 0, 0,
      (fl (.unit 128) (.unit 128 0) 0 none (.check ⟨0, 0, 0, 0, 0, 0, 0, 0, 3, false, 0⟩)), ⟨0, 0, 0, 0, 0, 0, 0, 0, 3, false,
      0⟩, (by unfold State.arrived; decide +kernel)⟩,
    ⟨((rg ((List.range 127).map fun i => (Reg.INT_PHYS_STATE (i + 1),
        0x30000000)) (rdy))).updGrove 0 (fun g => { g with asked := some (3, true), reports := [⟨0, 0, 0, 0, 0, 0, 0, 0, 3, false, 0⟩] }),
        0, 0, (3, true), (by decide +kernel)⟩,
    ⟨rdy, 63, 0, (by decide +kernel)⟩,
    ⟨rdy, 0, 2, 0, (by decide +kernel)⟩⟩

theorem witness_ReplaysAndRepairs :
    (∃ (s : State) (g : Nat) (k : Nat) (i : _) (f : _) (r : Replay) (bytes : _) (offs : _), g < 64 ∧ s.partOf g = some k
        ∧ s.arrived i f ∧ f.place = .core r.sapling ∧ f.body = .shadowCopy g r.copied bytes ∧ (s.core r.sapling).gated = false
        ∧ (s.grove g).replay = some r ∧ r.running = false
        ∧ offs = ((s.image r.core (s.verdictStep g)).drop r.copied).take bytes.length) ∧
    (∃ (s : State) (g : Nat) (k : Nat) (r : Replay), g < 64 ∧ s.partOf g = some k ∧ (s.grove g).replay = some r
        ∧ r.running = false ∧ (s.image r.core (s.verdictStep g)).length ≤ r.copied ∧ s.coreOn r.sapling = true) ∧
    (∃ (s : State) (g : Nat) (k : Nat) (r : Replay), g < 64 ∧ s.partOf g = some k ∧ (s.grove g).replay = some r
        ∧ r.running = true ∧ r.trigger = trigAudit ∧ r.y1 = none ∧ r.sapling < 9216 ∧ (s.core r.core).declared = true
        ∧ s.replayAgrees g r = true ∧ s.role r.sapling = roleReplay) ∧
    (∃ (s : State) (g : Nat) (k : Nat) (p : _) (w : _) (f : _) (rest : _), g < 64 ∧ s.partOf g = some k
        ∧ (s.grove g).repair = (p, w, f) :: rest ∧ p < 9216) :=
  ⟨⟨pk (fl (.core 143) (.unicast 0 143) 0 none (.shadowCopy 0 5 [1, 2, 3])) (((mw 0 [(0x4000,
      0x12345678)] (rg [(Reg.NEU_GRP_CFG 0 0, 0x80401000), (coreReg 143 0xE14,
      0)])).updPart 0 (fun q => { q with openStep := some 7 })).updGrove 0 (fun g => { g with replay := some ⟨2, 0, 143, 256, 5, false, none⟩ })),
      0, 0, 0, (fl (.core 143) (.unicast 0 143) 0 none (.shadowCopy 0 5 [1, 2, 3])), ⟨2, 0, 143, 256, 5, false, none⟩, [1, 2, 3],
      ((((pk (fl (.core 143) (.unicast 0 143) 0 none (.shadowCopy 0 5 [1, 2, 3])) (((mw 0 [(0x4000,
      0x12345678)] (rg [(Reg.NEU_GRP_CFG 0 0, 0x80401000), (coreReg 143 0xE14,
      0)])).updPart 0 (fun q => { q with openStep := some 7 })).updGrove 0 (fun g => { g with replay := some ⟨2, 0, 143, 256, 5, false, none⟩ })) : State)).image ((⟨2,
      0, 143, 256, 5, false, none⟩ : Replay)).core (((pk (fl (.core 143) (.unicast 0 143) 0 none (.shadowCopy 0 5 [1, 2,
      3])) (((mw 0 [(0x4000, 0x12345678)] (rg [(Reg.NEU_GRP_CFG 0 0, 0x80401000), (coreReg 143 0xE14,
      0)])).updPart 0 (fun q => { q with openStep := some 7 })).updGrove 0 (fun g => { g with replay := some ⟨2, 0, 143, 256, 5, false, none⟩ })) : State)).verdictStep ((0 : Nat)))).drop ((⟨2,
      0, 143, 256, 5, false, none⟩ : Replay)).copied).take ([1, 2, 3]).length, (by unfold State.arrived; decide +kernel)⟩,

           ⟨((rdy).updPart 0 (fun q => { q with openStep := some 7 })).updGrove 0 (fun g => { g with replay := some ⟨2, 0, 143, 4096, 4096, false, none⟩ }) |> rg [(coreReg 143 0xE04,
        0), (coreReg 143 0xE14, 0)], 0, 0, ⟨2, 0, 143, 4096, 4096, false, none⟩, (by decide +kernel)⟩,
    ⟨(((rg [(Reg.INT_PHYS_STATE 143, 0x50000000), (Reg.INT_GRV_STATUS 0,
        0x40000000)]).updPart 0 (fun q => { q with openStep := some 7 })).updGrove 0 (fun g => { g with replay := some ⟨2, 0, 143, 4096, 4096, true, none⟩ })).updCore 0 (fun c => { c with declared := true, openStep := some 7 }),
        0, 0, ⟨2, 0, 143, 4096, 4096, true, none⟩, (by decide +kernel)⟩,
    ⟨(((rg [(Reg.INT_STRIKES 0,
        0)]).updPart 0 (fun q => { q with openStep := some 7 })).updGrove 0 (fun g => { g with repair := [(0, 1, 1), (2, 3, 5)] })).updCore 1 (fun c => { c with selectors := 5 }),
        0, 0, 0, 1, 1, [(2, 3, 5)], (by decide +kernel)⟩⟩

theorem witness_ScrubsAndDigests :
    (∃ (s : State) (p : Nat) (off : _), p < 9216 ∧ off = 8 * (s.core p).scrubPtr ∧ s.memOn p = true
        ∧ s.bankFor p (off / 0x4000) ownCore = true ∧ s.intact p off 8) ∧
    (∃ (s : State) (p : Nat) (k : _), p < 9216 ∧ k < 64 ∧ s.bit (Reg.HIF_PART_OWNER k) 31 = true ∧ s.coresOfPart k = [p]) :=
  ⟨⟨rdy.updCore 0 fun c => { c with scrubPtr := 0x7FFF }, 0, 0x3FFF8, (by unfold State.intact; decide +kernel)⟩,
    ⟨(rg ((List.range 127).map fun i => (Reg.INT_PHYS_STATE (i + 1), 0x30000000)) (rdy)), 0, 0, (by decide +kernel)⟩⟩

theorem witness_FencesMoveRoles :
    (∃ (s : State) (p : Nat) (q : Nat) (k : Nat) (rest : _), p < 9216 ∧ q < 9216 ∧ p ≠ q ∧ s.partOf (p / 144) = some k
        ∧ (s.grove (p / 144)).fenceWaits = [] ∧ (s.grove (p / 144)).reserved = (p, q) :: rest ∧ s.atBoundary k = true
        ∧ s.mayMove p = true ∧ s.role q = roleSapling ∧ s.role p = roleActive ∧ s.coreOn q = true) ∧
    (∃ (s : State) (p : Nat) (q : Nat) (k : Nat) (a : _) (v : _), p < 9216 ∧ q < 9216 ∧ p ≠ q ∧ s.partOf (p / 144) = some k
        ∧ a < 8 ∧ s.access a (Reg.INT_PHYS_STATE p) = .ok ∧ fld v 28 4 = roleFenced ∧ s.ownerOf k = some a ∧ s.enabled k = false
        ∧ s.role p = roleSapling ∧ s.descBusy p = false) ∧
    (∃ (s : State) (p : Nat) (q : Nat) (k : Nat) (a : _), p < 9216 ∧ q < 9216 ∧ p ≠ q ∧ s.partOf (p / 144) = some k ∧ a < 8
        ∧ s.access a (Reg.INT_PHYS_STATE p) = .ok ∧ s.enabled k = true) :=
  ⟨⟨(mw 0 [(0x3FFFC, 77)] (rg [(Reg.HDL_STATUS 0, 0), (coreReg 143 0xE04, 0), (coreReg 143 0xE14,
      0)])).updGrove 0 (fun g => { g with reserved := [(0, 143)] }), 0, 143, 0, [], (by decide +kernel)⟩,
    ⟨rg [(Reg.HIF_PART_STATUS 0, 0)], 143, 0, 0, 0, 0x3FFFFFFF, (by decide +kernel)⟩,
    ⟨rdy, 143, 0, 0, 0, (by decide +kernel)⟩⟩

theorem witness_InFieldTests :
    (∃ (s : State) (p : Nat), p < 9216 ∧ s.bit Reg.INT_TEST_CFG 31 = true ∧ (s.partOf (p / 144)).isSome = true
        ∧ s.role p = roleActive ∧ (s.grove (p / 144)).faulted = none ∧ s.bit (Reg.INT_TEST p) 30 = false ∧ s.testAt p ≤ s.ref) ∧
    (∃ (s : State) (p : Nat), p < 9216 ∧ s.bit (Reg.INT_TEST p) 30 = true ∧ s.mayTest p = true ∧ s.coreOn p = true
        ∧ s.role p = roleSapling) ∧
    (∃ (s : State) (p : Nat), p < 9216 ∧ s.bit (Reg.INT_TEST p) 30 = true ∧ s.role p = roleActive
        ∧ (s.core p).testDue + s.rf Reg.INT_TEST_CFG 16 12 * 10 ^ 9 ≤ s.ref) ∧
    (∃ (s : State) (p : Nat), p < 9216 ∧ s.role p = roleTest ∧ (s.grove (p / 144)).testing = some p
        ∧ (s.grove (p / 144)).faulted = none) :=
  ⟨⟨rg [(Reg.INT_TEST_CFG, 0x80000000)], 0, (by decide +kernel)⟩,
    ⟨rg [(Reg.INT_TEST_CFG, 0x80000000), (Reg.INT_TEST_STATUS, 0x80000000), (Reg.INT_TEST 143, 0x40000000), (coreReg 143 0xE04,
        0), (coreReg 143 0xE14, 0)], 143, (by decide +kernel)⟩,
    ⟨rg [(Reg.INT_TEST_CFG, 0x80010000), (Reg.INT_TEST 0, 0x40000000), (Reg.TB_REF_LO, 1000000000)], 0, (by decide +kernel)⟩,
    ⟨(mw 143 [(0x3FFFC, 77)] (rg [(Reg.INT_PHYS_STATE 143, 0x40000000)])).updGrove 0 (fun g => { g with testing := some 143 }),
        143, (by decide +kernel)⟩⟩

theorem witness_PassesAndApplies :
    (∃ (s : State) (k : Nat) (g : Nat), k < 64 ∧ g < 64 ∧ (s.grove g).plsPass = true) ∧
    (∃ (s : State) (k : Nat) (g : Nat), k < 64 ∧ g < 64 ∧ (s.part k).applying = 1 ∧ s.passing k = false ∧ s.plasticGroves k ≠ []
        ∧ (∀ h ∈ s.plasticGroves k, (s.grove h).stopped = false)) ∧
    (∃ (s : State) (k : Nat) (g : Nat), k < 64 ∧ g < 64 ∧ s.partOf g = some k ∧ (s.part k).applying = 2 ∧ s.plasticGroves k = [g]
        ∧ (s.grove g).plsApply = true ∧ (s.part k).stopAsked = none) ∧
    (∃ (s : State) (k : Nat) (g : Nat) (a : _), k < 64 ∧ g < 64 ∧ a < 8 ∧ s.access a (Reg.PLS_PART_CTRL k) = .ok
        ∧ s.enabled k = true) :=
  ⟨⟨(rg [(Reg.PLS_RNG_KEY 0 0, 0x80000005), (Reg.PLS_RNG_CNT 0 0,
      1)]).updGrove 0 (fun g => { g with plsPass := true, plsRunLen := 1, plsRunStep := 3 }), 0, 0, (by decide +kernel)⟩,
    ⟨(rg [(Reg.PLS_RNG_KEY 0 0, 0x80000005), (Reg.PLS_RNG_CNT 0 0, 1)]).updPart 0 (fun q => { q with applying := 1 }), 0, 0,
        (by decide +kernel)⟩,
    ⟨((rg [(Reg.PLS_RNG_KEY 0 0, 0x80000005), (Reg.PLS_RNG_CNT 0 0, 1), (Reg.PLS_PART_STATUS 0,
        0x80007FFF)]).updPart 0 (fun q => { q with applying := 2 })).updGrove 0 (fun g => { g with plsApply := true, plsFill := [(0, 1)] }),
        0, 0, (by decide +kernel)⟩,
    ⟨rdy, 0, 0, 0, (by decide +kernel)⟩⟩

theorem witness_RegisterWrites :
    (∃ (s : State) (a : Nat) (k : Nat), a < 8 ∧ k < 64 ∧ s.access a (Reg.STEP_MAX_STRETCH k) = .ok ∧ s.enabled k = false) ∧
    (∃ (s : State) (a : Nat) (k : Nat), a < 8 ∧ k < 64 ∧ s.access a (Reg.STEP_MAX_STRETCH k) = .ok ∧ s.enabled k = true) ∧
    (∃ (s : State) (a : Nat) (k : Nat), a < 8 ∧ k < 64 ∧ s.access a (Reg.STEP_COMMITTED k) = .ok) ∧
    (∃ (s : State) (a : Nat) (k : Nat) (p : _), a < 8 ∧ k < 64 ∧ p < 9216 ∧ s.access a (Reg.FAB_RTR_STATUS p) = .ok) ∧
    (∃ (s : State) (a : Nat) (k : Nat) (addr : _), a < 8 ∧ k < 64 ∧ s.access a addr = .bad) ∧
    (∃ (s : State) (a : Nat) (k : Nat) (addr : _), a < 8 ∧ k < 64 ∧ s.access a addr = .filtered) ∧
    (∃ (s : State) (a : Nat) (v : Word), a < 8 ∧ s.access a cvuCtrl = .ok ∧ fld v 0 2 = 1 ∧ tst v 30 = false) ∧
    (∃ (s : State) (a : Nat), a < 8 ∧ s.access a cvuRunning = .ok) :=
  ⟨⟨rg [(Reg.HIF_PART_STATUS 0, 0)], 0, 0, (by decide +kernel)⟩,
    ⟨rdy, 0, 0, (by decide +kernel)⟩,
    ⟨rdy, 0, 0, (by decide +kernel)⟩,
    ⟨rg [(Reg.FAB_RTR_STATUS 143, 0xFFFFFFFF)], 0, 0, 143, (by decide +kernel)⟩,
    ⟨rdy, 0, 0, 2, (by decide +kernel)⟩,
    ⟨rdy, 0, 0, Reg.STEP_POLICY 63, (by decide +kernel)⟩,
    ⟨rdy, 0, 1, (by decide +kernel)⟩,
    ⟨rdy, 0, (by decide +kernel)⟩⟩

theorem witness_PairsOfRegisters :
    (∃ (s : State) (a : Nat) (addr : Nat) (b : Blk) (o : Nat), a < 8 ∧ s.access a addr = .ok ∧ locate addr = some (b, o)
        ∧ pairLo b o = true ∧ locate (addr + 4) = some (b, o + 4) ∧ s.stampHidden a b o = false) ∧
    (∃ (s : State) (a : Nat) (addr : Nat) (b : Blk) (o : Nat) (ch : _), a < 8 ∧ s.access a addr = .ok ∧ locate addr = some (b, o)
        ∧ pairLo b o = true ∧ locate (addr + 4) = some (b, o + 4) ∧ s.stampHidden a b o = false ∧ ch < 1024 ∧ addr = chKey ch + 8
        ∧ s.notDue ch) :=
  ⟨⟨rg [(chKey 7 + 8, 5), (chKey 7 + 12, 6), (Reg.TB_GCH_OWNER 7, 0x80000000)], 0, chKey 7 + 8, .tb, 0x101C8,
      (by decide +kernel)⟩,
    ⟨rg [(Reg.TB_GCH_OWNER 1023, 0x80000000)], 0, chKey 1023 + 8, .tb, 0x10008 + 0x40 * 1023, 1023,
        (by unfold State.notDue; decide +kernel)⟩⟩

theorem witness_Channels :
    (∃ (s : State) (ch : Nat) (k : Nat), ch < 1024 ∧ s.chReady ch = true ∧ s.slavesOf ch = [] ∧ s.chClass ch = clsStep
        ∧ s.chPart ch = some k ∧ s.bit (chKey ch) 27 = true) ∧
    (∃ (s : State) (ch : Nat) (k : Nat), ch < 1024 ∧ s.chReady ch = true ∧ s.slavesOf ch = [] ∧ s.chClass ch = clsStep
        ∧ s.chPart ch = some k ∧ s.bit (chKey ch) 27 = false ∧ 0 < s.chInterval ch) ∧
    (∃ (s : State) (a : Nat) (ch : Nat), a < 8 ∧ ch < 1024 ∧ s.access a (chKey ch + 0xC) = .ok ∧ s.chReady ch = true
        ∧ s.masterOf ch = none ∧ s.slavesOf ch = [] ∧ s.chClass ch = clsGeneral) ∧
    (∃ (s : State) (a : Nat) (ch : Nat) (v : Word), a < 8 ∧ ch < 1024 ∧ s.notDue ch ∧ s.access a (chKey ch) = .ok
        ∧ tst v 30 = false ∧ s.chInterval ch ≠ 0) ∧
    (∃ (s : State) (a : Nat) (ch : Nat) (v : Word), a < 8 ∧ ch < 1024 ∧ s.notDue ch ∧ s.access a (chKey ch) = .ok
        ∧ tst v 30 = true) ∧
    (∃ (s : State) (a : Nat) (ch : Nat) (v : Word), a < 8 ∧ ch < 1024 ∧ s.notDue ch ∧ s.access a (chKey ch) = .ok
        ∧ tst v 31 = false) ∧
    (∃ (s : State) (a : Nat) (ch : Nat), a < 8 ∧ ch < 1024 ∧ s.notDue ch ∧ s.access a (chKey ch + 0xC) = .ok) ∧
    (∃ (s : State) (a : Nat) (ch : Nat), a < 8 ∧ ch < 1024 ∧ s.notDue ch ∧ s.access a (chKey ch + 0x10) = .ok
        ∧ s.chState ch = chIdle) ∧
    (∃ (s : State) (a : Nat) (ch : Nat) (v : Word), a < 8 ∧ ch < 1024 ∧ s.notDue ch ∧ s.access a (chKey ch + 0x10) = .ok
        ∧ s.chState ch ≠ chIdle ∧ s.bit (chKey ch) 27 = false ∧ v ≠ 0 ∧ s.bit (chKey ch + 4) 28 = true) ∧
    (∃ (s : State) (a : Nat) (ch : Nat), a < 8 ∧ ch < 1024 ∧ s.notDue ch ∧ s.access a (chKey ch + 0x10) = .ok
        ∧ s.chState ch ≠ chIdle ∧ s.bit (chKey ch) 27 = false) ∧
    (∃ (s : State) (a : Nat) (ch : Nat) (v : Word) (k : _), a < 8 ∧ ch < 1024 ∧ k < 64 ∧ s.access a 0x4000204 = .ok
        ∧ s.chState ch = chWait ∧ s.chClass ch = clsStep ∧ s.chPart ch = some k ∧ s.ownerOf k = some a ∧ s.pstate k = psRunning
        ∧ ((s.loHalf (latchKey a 0x4000200)).toNat + 2 ^ 32 * v.toNat) / 2 ^ k % 2 = 1) :=
  ⟨⟨rg [(Reg.TB_GCH_OWNER 7, 0x80000000), (chKey 7 + 4, 0x80000000), (chKey 7, 0x18000000), (chKey 7 + 8, 0)], 7, 0,
      (by decide +kernel)⟩,
    ⟨rg [(Reg.TB_GCH_OWNER 7, 0x80000000), (chKey 7 + 4, 0x80000000), (chKey 7, 0x10000000), (chKey 7 + 8, 0), (chKey 7 + 0x10,
        5), (Reg.TB_PTB_LO, 10)], 7, 0, (by decide +kernel)⟩,
    ⟨rg [(Reg.TB_GCH_OWNER 7, 0x80000000), (chKey 7 + 4, 0x80000000), (chKey 7, 0x08000000), (chKey 7 + 8, 0)], 0, 7,
        (by decide +kernel)⟩,
    ⟨rg [(Reg.TB_GCH_OWNER 7, 0x80000000), (chKey 7 + 4, 0x10000000), (chKey 7 + 0x10, 5)], 0, 7, 0x80000000,
        (by unfold State.notDue; decide +kernel)⟩,
    ⟨rg [(Reg.TB_GCH_OWNER 7, 0x80000000), (chKey 7 + 4, 0), (chKey 7 + 0x10, 5)], 0, 7, 0xC0000000,
        (by unfold State.notDue; decide +kernel)⟩,
    ⟨rg [(Reg.TB_GCH_OWNER 7, 0x80000000), (chKey 7 + 4, 0x40000000), (chKey 7 + 0x10, 5)], 0, 7, 0x40000000,
        (by unfold State.notDue; decide +kernel)⟩,
    ⟨rg [(Reg.TB_GCH_OWNER 7, 0x80000000), (chKey 7 + 4, 0x40000000)], 0, 7, (by unfold State.notDue; decide +kernel)⟩,
    ⟨rg [(Reg.TB_GCH_OWNER 7, 0x80000000), (chKey 7 + 4, 0)], 0, 7, (by unfold State.notDue; decide +kernel)⟩,
    ⟨rg [(Reg.TB_GCH_OWNER 7, 0x80000000), (chKey 7 + 4, 0x50000000), (chKey 7 + 0x28, 0xFFFFFFFF), (chKey 7 + 0x2C,
        0xFFFFFFFF)], 0, 7, 1, (by unfold State.notDue; decide +kernel)⟩,
    ⟨rg [(Reg.TB_GCH_OWNER 7, 0x80000000), (chKey 7 + 4, 0x50000000)], 0, 7, (by unfold State.notDue; decide +kernel)⟩,
    ⟨{ (rg [(Reg.TB_GCH_OWNER 7, 0x80000000), (chKey 7 + 4, 0x40000000), (chKey 7, 0x10000000)]) with loPend := [(latchKey 0 0x4000200, 1)] },
        0, 7, 0, 0, (by decide +kernel)⟩⟩

theorem witness_Timebase :
    (∃ (s : State), s.noneDue ∧ s.phaseOn = true ∧ s.source = srcEnc ∧ s.driven = true ∧ s.srcPin < 7
        ∧ s.filterOk s.srcPin 1 = true ∧ s.rd Reg.TB_BACKLASH = 0
        ∧ ((!(s.pinLevel s.srcPin) != s.pinLevel (s.srcPin + 1)) != s.bit Reg.TB_SOURCE 26) = true) ∧
    (∃ (s : State), s.noneDue ∧ s.phaseOn = true ∧ s.source = srcEnc ∧ s.driven = true ∧ s.srcPin < 7
        ∧ s.filterOk s.srcPin 1 = true
        ∧ ((!(s.pinLevel s.srcPin) != s.pinLevel (s.srcPin + 1)) != s.bit Reg.TB_SOURCE 26) = false) ∧
    (∃ (s : State), s.noneDue ∧ s.phaseOn = true ∧ s.source = srcLine ∧ s.driven = true ∧ s.srcPin < 8 ∧ s.selectedOk = true
        ∧ s.tb.lineLast = none) ∧
    (∃ (s : State) (z : _), s.noneDue ∧ s.phaseOn = true ∧ s.source = srcLine ∧ s.srcPin < 8 ∧ s.selectedOk = true
        ∧ s.tb.lineLast = some z ∧ s.ref - z < 10) ∧
    (∃ (s : State), s.noneDue ∧ s.phaseOn = true ∧ s.source = srcMains ∧ s.driven = true ∧ 0 < s.tb.mainsOwed) ∧
    (∃ (s : State), s.noneDue ∧ s.source = srcPtp ∧ s.driven = true ∧ s.ptb < s.ptpTarget) ∧
    (∃ (s : State), s.noneDue ∧ s.source = srcPtp ∧ s.driven = true ∧ s.ptpTarget < s.ptb) ∧
    (∃ (s : State), s.noneDue ∧ s.up = true ∧ s.source = srcInt ∧ s.driven = true
        ∧ s.tb.intLast + (s.rd Reg.TB_INT_DIV).toNat ≤ s.ref) ∧
    (∃ (s : State), s.phaseOn = true ∧ s.source = srcMains ∧ s.srcPin < 8 ∧ s.selectedOk = true ∧ s.tb.mainsZero = none) ∧
    (∃ (s : State) (z : _) (r : _), s.phaseOn = true ∧ s.source = srcMains ∧ s.srcPin < 8 ∧ s.selectedOk = true
        ∧ s.tb.mainsZero = some z ∧ s.tb.mainsRef = some r ∧ 4 * (s.ref - z) < 3 * r) ∧
    (∃ (s : State), s.lossNow = true ∧ s.tbState = tsRunning) ∧
    (∃ (s : State), s.lossNow = false ∧ 10 ^ 6 ≤ s.ref - s.tb.lossAt ∧ s.tbState = tsSubstituted ∧ s.bit Reg.TB_SOURCE 27 = true
        ∧ s.source ≠ srcMains) ∧
    (∃ (s : State) (i : _) (level : _), i < 8 ∧ s.phaseOn = true ∧ s.bit (Reg.TB_PIN_STATUS i) 31 = false ∧ s.pinLevel i = !level
        ∧ s.filterOk i 1 = true ∧ s.rf (Reg.TB_PIN_CFG i) 30 2 = 1 ∧ s.edgeChosen i level = true ∧ (s.stampQ i).length < 16) ∧
    (∃ (s : State) (i : _) (level : _), i < 8 ∧ s.phaseOn = true ∧ s.bit (Reg.TB_PIN_STATUS i) 31 = false ∧ s.pinLevel i = !level
        ∧ s.filterOk i 1 = true ∧ s.rf (Reg.TB_PIN_CFG i) 30 2 = 1 ∧ s.edgeChosen i level = true ∧ 16 ≤ (s.stampQ i).length) ∧
    (∃ (s : State) (i : _), s.filterOk i 1 = false) ∧
    (∃ (s : State), s.selectedOk = false) ∧
    (∃ (s : State), s.selectedOk = false) ∧
    (∃ (s : State) (i : _) (st : _) (rest : _), i < 8 ∧ s.stampQ i = st :: rest
        ∧ (s.meetCtx (s.rf (Reg.TB_PIN_CFG i) 0 20)).ctxBad (s.rf (Reg.TB_PIN_CFG i) 0 20) = false
        ∧ cfld (s.context (s.rf (Reg.TB_PIN_CFG i) 0 20)) 0 31 1 = 0) ∧
    (∃ (s : State) (i : _) (st : _) (rest : _) (c : _) (w : _) (k : _), i < 8 ∧ s.stampQ i = st :: rest
        ∧ c = s.rf (Reg.TB_PIN_CFG i) 0 20 ∧ w = s.context c ∧ (s.meetCtx c).ctxBad c = false ∧ cfld w 0 31 1 = 1
        ∧ cfld w 0 30 1 = 0 ∧ k = cfld w 0 0 6 ∧ s.pstate k = psRunning ∧ i ≤ cfld w 2 0 20 ∧ s.ingressStep k = none
        ∧ (((s.port (cfld w 0 27 1)).holdBuf.map fun h => h.evs.length).foldl (· + ·) 0) < holdLen) :=
  ⟨⟨rg [(Reg.TB_SOURCE, 0x24060000), (0x90000A4, 0), (Reg.TB_PIN_STATUS 7, 0x40000000)],
      (by unfold State.noneDue; decide +kernel)⟩,
    ⟨rg [(Reg.TB_SOURCE, 0x20060000), (0x90000A4, 0), (Reg.TB_PIN_STATUS 7, 0x40000000)],
        (by unfold State.noneDue; decide +kernel)⟩,
    ⟨rg [(Reg.TB_SOURCE, 0x40070000), (0x90000A4, 0)], (by unfold State.noneDue; decide +kernel)⟩,
    ⟨{ rg [(Reg.TB_SOURCE, 0x40070000), (0x90000A4, 0), (Reg.TB_REF_LO, 9)] with tb := { Tb.init with lineLast := some 0 } }, 0,
        (by unfold State.noneDue; decide +kernel)⟩,
    ⟨{ rg [(Reg.TB_SOURCE, 0x60070000), (0x90000A4, 0)] with tb := { Tb.init with mainsOwed := 1 } },
        (by unfold State.noneDue; decide +kernel)⟩,
    ⟨rg [(Reg.TB_SOURCE, 0x80000000), (0x90000A4, 0), (Reg.TB_PTP_PERIOD, 256), (Reg.EVP_PTP_NS_LO 0, 1)],
        (by unfold State.noneDue; decide +kernel)⟩,
    ⟨rg [(Reg.TB_SOURCE, 0x80000000), (0x90000A4, 0), (Reg.TB_PTP_PERIOD, 256), (Reg.TB_PTB_LO, 1)],
        (by unfold State.noneDue; decide +kernel)⟩,
    ⟨rg [(Reg.TB_SOURCE, 0), (0x90000A4, 0), (Reg.TB_INT_DIV, 5), (Reg.TB_REF_LO, 5)], (by unfold State.noneDue; decide +kernel)⟩,
    ⟨rg [(Reg.TB_SOURCE, 0x60070000), (0x90000A4, 0)], (by decide +kernel)⟩,

           ⟨{ rg [(Reg.TB_SOURCE, 0x60070000), (0x90000A4, 0), (Reg.TB_REF_LO, 2)] with tb := { Tb.init with mainsZero := some 0, mainsRef := some 3 } },
        0, 3, (by decide +kernel)⟩,
    ⟨{ rg [(Reg.TB_SOURCE, 0x70000000), (0x90000A4, 0)] with tb := { Tb.init with lockLost := true } }, (by decide +kernel)⟩,
    ⟨rg [(Reg.TB_SOURCE, 0x18000000), (0x90000A4, 0), (Reg.TB_STATUS, 3), (Reg.TB_REF_LO, 1000000)], (by decide +kernel)⟩,

           ⟨{ rg [(0x90000A4, 0), (Reg.TB_PIN_CFG 7, 0x60000000)] with tb := { Tb.init with stamps := [(7, List.replicate 15 (1, 2))] } },
        7, true, (by decide +kernel)⟩,

           ⟨{ rg [(0x90000A4, 0), (Reg.TB_PIN_CFG 7, 0x60000000)] with tb := { Tb.init with stamps := [(7, List.replicate 16 (1, 2))] } },
        7, true, (by decide +kernel)⟩,
    ⟨{ rg [(0x90000A4, 0), (Reg.TB_PIN_CFG 7, 0x60500000), (Reg.TB_REF_LO, 9)] with tb := { Tb.init with edgeAt := [(7, 0)] } },
        7, (by decide +kernel)⟩,

           ⟨{ rg [(Reg.TB_SOURCE, 0x40070000), (0x90000A4, 0), (Reg.TB_PIN_CFG 7, 0x60500000), (Reg.TB_REF_LO, 9)] with tb := { Tb.init with edgeAt := [(7, 0)] } },
        (by decide +kernel)⟩,

           ⟨{ rg [(Reg.TB_SOURCE, 0x60070000), (0x90000A4, 0), (Reg.TB_PIN_CFG 7, 0x60500000), (Reg.TB_REF_LO, 9)] with tb := { Tb.init with edgeAt := [(7, 0)] } },
        (by decide +kernel)⟩,
    ⟨{ rdy with tb := { Tb.init with stamps := [(7, [(1, 2)])] } }, 7, (1, 2), [], (by decide +kernel)⟩,
    ⟨({ rdy with tb := { Tb.init with stamps := [(7, [(1, 2)])] } }).setContext 0 (2 ^ 31 + 7 * 2 ^ 64 + 2 ^ 32 * 0xFFFFFFF), 7,
        (1, 2), [], 0,
        ((({ rdy with tb := { Tb.init with stamps := [(7, [(1, 2)])] } }).setContext 0 (2 ^ 31 + 7 * 2 ^ 64 + 2 ^ 32 * 0xFFFFFFF) : State)).context 0,
        0, (by decide +kernel)⟩⟩

theorem witness_EventPorts :
    (∃ (s : State) (e : Nat), e < 2 ∧ s.evpUp e = true) ∧
    (∃ (s : State) (e : Nat) (bs : _) (udp : _) (six : _) (l : _) (w1 : _), e < 2 ∧ s.evpUp e = true ∧ 64 ≤ frameSize bs
        ∧ frameSize bs ≤ s.rf (Reg.EVP_PORT_CFG e) 0 14 ∧ s.evpMine e bs = true ∧ etherType bs ≠ 0x88F7
        ∧ s.evpUdp e bs = some (udp, six, true) ∧ be udp 2 2 = s.rf (Reg.EVP_UDP e) 0 16 ∧ be udp 2 2 ≠ 319 ∧ be udp 2 2 ≠ 320
        ∧ be udp 6 2 ≠ 0 ∧ parseLylet (udp.drop 8) (be udp 4 2) = some l ∧ lyletTrailerOk (udp.drop 8) l = true
        ∧ (s.meetCtx l.ctx).ctxBad l.ctx = false ∧ cfld (s.context l.ctx) 0 31 1 = 1 ∧ cfld (s.context l.ctx) 0 30 1 = 0
        ∧ cfld (s.context l.ctx) 0 29 1 = 1 ∧ cfld (s.context l.ctx) 0 27 1 = e ∧ cfld (s.context l.ctx) 0 26 1 = 0
        ∧ l.tc0 = false ∧ l.runchk = false ∧ l.count = 0 ∧ s.pstate (cfld (s.context l.ctx) 0 0 6) = psRunning
        ∧ seqStep (s.context l.ctx) l.seq = some w1) ∧
    (∃ (s : State) (e : Nat), e < 2 ∧ s.evpUp e = true ∧ s.bit (Reg.EVP_PTP_STATUS e) 30 = true
        ∧ s.bit (Reg.EVP_PTP_STATUS e) 31 = true) ∧
    (∃ (s : State) (e : Nat), e < 2 ∧ (e = 1 → s.fuses.eth2 = true) ∧ s.bit (Reg.EVP_PORT_CFG e) 31 = true ∧ s.pwr (pwrEvp e) = 0
        ∧ s.up = true) ∧
    (∃ (s : State) (e : Nat), e < 2 ∧ s.evpUp e = true) ∧
    (∃ (s : State) (e : Nat) (f : TxFrame) (rest : List TxFrame), e < 2 ∧ (s.port e).earlyWait = [] ∧ f.early = false
        ∧ f.retract = false ∧ s.evpUp e = true ∧ (s.port e).tx0 = f :: rest
        ∧ Store.get (fun _ => 0) (s.port e).outUsed f.part + 20 * s.txSize e f ≤ bucketDepth) ∧
    (∃ (s : State) (e : Nat) (f : TxFrame) (rest : List TxFrame), e < 2 ∧ (s.port e).earlyWait = [] ∧ f.early = false
        ∧ f.retract = false ∧ s.evpUp e = false ∧ (s.port e).tx0 = f :: rest) ∧
    (∃ (s : State) (e : Nat) (f : TxFrame) (m : _) (ms : _), e < 2 ∧ (s.port e).earlyWait = [] ∧ f.early = false
        ∧ f.retract = false ∧ s.evpUp e = true ∧ (s.port e).tx0 = [] ∧ (s.port e).txPtp = m :: ms) ∧
    (∃ (s : State) (e : Nat) (f : TxFrame) (rest : List TxFrame), e < 2 ∧ (s.port e).earlyWait = [] ∧ f.early = false
        ∧ f.retract = false ∧ s.evpUp e = true ∧ (s.port e).tx0 = [] ∧ (s.port e).txPtp = [] ∧ (s.port e).tx1 = f :: rest) :=
  ⟨⟨rg [(Reg.EVP_PORT_STATUS 0, 0x80000000)], 0, (by decide +kernel)⟩,
    ⟨(rg [(Reg.EVP_PORT_STATUS 0, 0x80000000), (Reg.EVP_PORT_CFG 0, 78), (Reg.EVP_MAC_LO 0, 7), (Reg.EVP_MAC_HI 0, 0x200),
        (Reg.EVP_IPV4 0, 0x0A000002), (Reg.EVP_UDP 0, 0x1235)]).setContext 5 (5 * 2 ^ 29), 0, [2, 0, 0, 0, 0, 7, 2, 0, 0, 0, 0,
        8, 8, 0, 69, 0, 0, 60, 0, 0, 0, 0, 64, 17, 102, 175, 10, 0, 0, 1, 10, 0, 0, 2, 18, 52, 18, 53, 0, 40, 109, 252, 16, 0, 0,
        0, 0, 0, 0, 5, 0, 0, 0, 9, 0, 0, 0, 0, 0, 0, 0, 0, 0, 0, 0, 0, 0, 0, 0, 0, 202, 227, 126, 68], ([2, 0, 0, 0, 0, 7, 2, 0,
        0, 0, 0, 8, 8, 0, 69, 0, 0, 60, 0, 0, 0, 0, 64, 17, 102, 175, 10, 0, 0, 1, 10, 0, 0, 2, 18, 52, 18, 53, 0, 40, 109, 252,
        16, 0, 0, 0, 0, 0, 0, 5, 0, 0, 0, 9, 0, 0, 0, 0, 0, 0, 0, 0, 0, 0, 0, 0, 0, 0, 0, 0, 202, 227, 126,
        68] : List Byte).drop 34, false, (parseLylet ((([2, 0, 0, 0, 0, 7, 2, 0, 0, 0, 0, 8, 8, 0, 69, 0, 0, 60, 0, 0, 0, 0, 64,
        17, 102, 175, 10, 0, 0, 1, 10, 0, 0, 2, 18, 52, 18, 53, 0, 40, 109, 252, 16, 0, 0, 0, 0, 0, 0, 5, 0, 0, 0, 9, 0, 0, 0, 0,
        0, 0, 0, 0, 0, 0, 0, 0, 0, 0, 0, 0, 202, 227, 126, 68] : List Byte).drop 34).drop 8) 40).getD ⟨false, false, false, 0, 0,
        0, 0, 0, []⟩, (seqStep ((((rg [(Reg.EVP_PORT_STATUS 0, 0x80000000), (Reg.EVP_PORT_CFG 0, 78), (Reg.EVP_MAC_LO 0, 7),
        (Reg.EVP_MAC_HI 0, 0x200), (Reg.EVP_IPV4 0, 0x0A000002), (Reg.EVP_UDP 0,
        0x1235)]).setContext 5 (5 * 2 ^ 29) : State)).context 5) 9).getD 0, (by decide +kernel)⟩,
    ⟨rg [(Reg.EVP_PORT_STATUS 0, 0x80000000), (Reg.EVP_PTP_STATUS 0, 0xC0000000), (Reg.EVP_PTP_NS_LO 0, 3)], 0,
        (by decide +kernel)⟩,
    ⟨rg [(Reg.EVP_PORT_CFG 1, 0x80000000), (pwrEvp 1 + 4, 0)], 1, (by decide +kernel)⟩,
    ⟨rg [(Reg.EVP_PORT_STATUS 0, 0x80000000)], 0, (by decide +kernel)⟩,
    ⟨(rg [(Reg.EVP_PORT_STATUS 0,
        0x80000000)]).updPort 0 fun q => { q with tx0 := [⟨5, 63, true, false, false, 3, false, [1, 2, 3]⟩], outUsed := [(63, 327680 - 1280)] },
        0, ⟨5, 63, true, false, false, 3, false, [1, 2, 3]⟩, [], (by decide +kernel)⟩,
    ⟨(rg [(Reg.EVP_PORT_STATUS 0,
        0)]).updPort 0 fun q => { q with tx0 := [⟨5, 63, true, false, false, 3, false, [1, 2, 3]⟩], outUsed := [(63, 327680)] },
        0, ⟨5, 63, true, false, false, 3, false, [1, 2, 3]⟩, [], (by decide +kernel)⟩,
    ⟨(rg [(Reg.EVP_PORT_STATUS 0,
        0x80000000)]).updPort 0 fun q => { q with txPtp := [[9]], tx1 := [⟨5, 63, true, false, false, 3, false, [1, 2, 3]⟩] }, 0,
        ⟨5, 63, true, false, false, 3, false, [1, 2, 3]⟩, [9], [], (by decide +kernel)⟩,
    ⟨(rg [(Reg.EVP_PORT_STATUS 0,
        0x80000000)]).updPort 0 fun q => { q with tx1 := [⟨5, 63, true, false, false, 3, false, [1, 2, 3]⟩] }, 0, ⟨5, 63, true,
        false, false, 3, false, [1, 2, 3]⟩, [], (by decide +kernel)⟩⟩

theorem witness_TapCopiesReachBuffers :
    (∃ (s : State) (i : Nat) (u : Nat) (p : Nat) (par : Nat) (f : Flight) (ev : Ev) (a : _) (path : _), s.arrived i f
        ∧ f.body = .event ev ∧ f.tag = .unit u p ∧ f.step = some par ∧ p < 9216 ∧ par < 4 ∧ f.part < 64
        ∧ s.bit (Reg.STEP_POLICY f.part) 4 = false ∧ ev.retract = false ∧ a < 8 ∧ f.place = .unit (0xC0 + a)
        ∧ s.hifPath a f.part ev.key = some path ∧ s.ringRuns (ringBase a .egress (s.rf (Reg.HIF_EP_CFG a path) 0 9)) = true
        ∧ (s.att a).held.length < relUnits) ∧
    (∃ (s : State) (i : Nat) (u : Nat) (p : Nat) (par : Nat) (f : Flight) (ev : Ev) (a : _), s.arrived i f ∧ f.body = .event ev
        ∧ f.tag = .unit u p ∧ f.step = some par ∧ p < 9216 ∧ par < 4 ∧ f.part < 64 ∧ s.bit (Reg.STEP_POLICY f.part) 4 = false
        ∧ ev.retract = false ∧ a < 8 ∧ f.place = .unit (0xC0 + a) ∧ s.hifPath a f.part ev.key = none) ∧
    (∃ (s : State) (i : Nat) (u : Nat) (p : Nat) (par : Nat) (f : Flight) (ev : Ev) (e : _) (path : _), s.arrived i f
        ∧ f.body = .event ev ∧ f.tag = .unit u p ∧ f.step = some par ∧ p < 9216 ∧ par < 4 ∧ f.part < 64
        ∧ s.bit (Reg.STEP_POLICY f.part) 4 = false ∧ ev.retract = false ∧ e < 2 ∧ f.place = .unit (0xD0 + e)
        ∧ s.evpPathOf e f.part ev.key = some path ∧ (s.port e).held.length < relRecords) ∧
    (∃ (s : State) (i : Nat) (u : Nat) (p : Nat) (par : Nat) (f : Flight) (ev : Ev) (e : _), s.arrived i f ∧ f.body = .event ev
        ∧ f.tag = .unit u p ∧ f.step = some par ∧ p < 9216 ∧ par < 4 ∧ f.part < 64 ∧ s.bit (Reg.STEP_POLICY f.part) 4 = false
        ∧ ev.retract = false ∧ e < 2 ∧ f.place = .unit (0xD0 + e) ∧ s.evpPathOf e f.part ev.key = none) :=
  ⟨⟨pk (fl (.unit 0xC7) (.unit 0xC7 143) 0 (some 3) (.event ⟨5, 3, 9, 1, 7, false, false, false,
      false⟩)) (rg [(hifPaths 7 + 16 * 255, 0x80000000 + 511), (hifPaths 7 + 16 * 255 + 4, 5), (hifPaths 7 + 16 * 255 + 8, 1),
      (ringBase 7 .egress 511 + 4, 0x40000000)]), 0, 0xC7, 143, 3, (fl (.unit 0xC7) (.unit 0xC7 143) 0 (some 3) (.event ⟨5, 3, 9,
      1, 7, false, false, false, false⟩)), ⟨5, 3, 9, 1, 7, false, false, false, false⟩, 7, 255,
      (by unfold State.arrived; decide +kernel)⟩,
    ⟨pk (fl (.unit 0xC7) (.unit 0xC7 143) 0 (some 3) (.event ⟨5, 3, 9, 1, 7, false, false, false, false⟩)), 0, 0xC7, 143, 3,
        (fl (.unit 0xC7) (.unit 0xC7 143) 0 (some 3) (.event ⟨5, 3, 9, 1, 7, false, false, false, false⟩)), ⟨5, 3, 9, 1, 7,
        false, false, false, false⟩, 7, (by unfold State.arrived; decide +kernel)⟩,
    ⟨pk (fl (.unit 0xD1) (.unit 0xD1 143) 0 (some 3) (.event ⟨5, 3, 9, 1, 7, false, false, false, false⟩)) (rg [(evpPath 1 255 0,
        0x80000000), (evpPath 1 255 1, 5), (evpPath 1 255 2, 1)]), 0, 0xD1, 143, 3,
        (fl (.unit 0xD1) (.unit 0xD1 143) 0 (some 3) (.event ⟨5, 3, 9, 1, 7, false, false, false, false⟩)), ⟨5, 3, 9, 1, 7,
        false, false, false, false⟩, 1, 255, (by unfold State.arrived; decide +kernel)⟩,
    ⟨pk (fl (.unit 0xD1) (.unit 0xD1 143) 0 (some 3) (.event ⟨5, 3, 9, 1, 7, false, false, false, false⟩)), 0, 0xD1, 143, 3,
        (fl (.unit 0xD1) (.unit 0xD1 143) 0 (some 3) (.event ⟨5, 3, 9, 1, 7, false, false, false, false⟩)), ⟨5, 3, 9, 1, 7,
        false, false, false, false⟩, 1, (by unfold State.arrived; decide +kernel)⟩⟩

theorem witness_Attachments :
    (∃ (s : State) (a : Nat), a < 8 ∧ s.busUp a = true) ∧
    (∃ (s : State) (a : Nat), a < 8 ∧ (s.att a).linkUp = true) ∧
    (∃ (a : Nat), a < 8) ∧
    (∃ (s : State) (a : Nat), a < 8 ∧ (s.att a).linkUp = true) ∧
    (∃ (s : State) (a : Nat) (width : _) (rate : _), a < 8 ∧ (s.att a).present = true ∧ (s.att a).linkUp = false
        ∧ s.perstHigh a = true ∧ s.pins.pgIo = true ∧ s.domOn (.pcie (a / 2)) = true ∧ width ≤ (if s.bifurcated a then 3 else 4)
        ∧ 1 ≤ rate ∧ rate ≤ 6) ∧
    (∃ (s : State) (a : Nat), a < 8 ∧ (s.att a).linkUp = true ∧ s.pins.devReady = false) ∧
    (∃ (s : State) (a : Nat), a < 8 ∧ (s.att a).linkUp = true ∧ s.pins.devReady = true) ∧
    (∃ (s : State) (a : Nat), a < 8 ∧ (s.att a).linkUp = true ∧ s.pins.devReady = true) :=

       ⟨⟨{ rg [(ringBase 0 .command 3, 0x80000006)] with atts := [(0, { Att.init with present := true, linkUp := true, descs := [⟨3, 9, [], false, none, 0, false, 0, 0⟩] })] },
      0, (by decide +kernel)⟩,

           ⟨{ rg [(Reg.HIF_ATT_ID 0, 0x01600000)] with atts := [(0, { Att.init with present := true, linkUp := true, descs := [⟨3, 9, [], false, none, 0, false, 0, 0⟩] })] },
        0, (by decide +kernel)⟩,
    ⟨7, (by decide +kernel)⟩,
    ⟨rdy, 0, (by decide +kernel)⟩,
    ⟨{ (rg [(0x9000064, 0)]) with pins := { rdy.pins with perstN := 1 }, atts := [(0, { Att.init with present := true })] }, 0,
        4, 6, (by decide +kernel)⟩,
    ⟨{ rdy with pins := { rdy.pins with devReady := false } }, 0, (by decide +kernel)⟩,
    ⟨rdy, 0, (by decide +kernel)⟩,
    ⟨rdy, 0, (by decide +kernel)⟩⟩

theorem witness_ScansAndRings :
    (∃ (s : State) (a : Nat) (r : Nat) (v : Word), a < 8 ∧ r < 64 ∧ s.access a 0x6000014 = .ok ∧ tst v 0 = true
        ∧ s.inWindow a permRead (s.rd64 (Reg.HIF_DB_BASE_LO a)) 4096 = true
        ∧ s.inWindow a permWrite (s.rd64 (Reg.HIF_SHADOW_BASE_LO a)) 4096 = true ∧ s.bit (Reg.HIF_ATT_CTRL a) 0 = false) ∧
    (∃ (s : State) (a : Nat) (r : Nat) (v : Word), a < 8 ∧ r < 64 ∧ s.access a 0x6000014 = .ok ∧ tst v 0 = true
        ∧ s.inWindow a permRead (s.rd64 (Reg.HIF_DB_BASE_LO a)) 4096 = false) ∧
    (∃ (s : State) (a : Nat) (r : Nat) (v : Word), a < 8 ∧ r < 64 ∧ s.access a (0x6010000 + 0x20 * r) = .ok
        ∧ s.bit (ringBase a .command r) 31 = false ∧ tst v 31 = true
        ∧ s.inWindow a permRead (s.ringAddr (ringBase a .command r)) (2 ^ min 16 (max 6 (fld v 0 5)) * 64) = true) ∧
    (∃ (s : State) (a : Nat) (r : Nat) (v : Word), a < 8 ∧ r < 64 ∧ s.access a (0x6010000 + 0x20 * r) = .ok
        ∧ s.bit (ringBase a .command r) 31 = false ∧ tst v 31 = true
        ∧ s.inWindow a permRead (s.ringAddr (ringBase a .command r)) (2 ^ min 16 (max 6 (fld v 0 5)) * 64) = false) ∧
    (∃ (s : State) (a : Nat) (r : Nat) (v : Word), a < 8 ∧ r < 64 ∧ s.access a (0x6010000 + 0x20 * r) = .ok
        ∧ s.bit (ringBase a .command r) 31 = true ∧ tst v 31 = false) ∧
    (∃ (s : State) (a : Nat) (r : Nat) (v : Word), a < 8 ∧ r < 64 ∧ s.access a (0x6040000 + 0x20 * r) = .ok
        ∧ s.bit (ringBase a .egress r) 31 = true ∧ tst v 31 = false ∧ s.ringNamed a r = true) ∧
    (∃ (s : State) (a : Nat) (r : Nat), a < 8 ∧ r < 64 ∧ s.bit (Reg.HIF_ATT_CTRL a) 0 = true ∧ (s.att a).scanNext ≤ s.ref
        ∧ (s.att a).scanOut = false) ∧
    (∃ (s : State) (a : Nat) (r : Nat), a < 8 ∧ r < 64 ∧ s.bit (Reg.HIF_ATT_CTRL a) 0 = true ∧ (s.att a).scanNext ≤ s.ref
        ∧ (s.att a).scanOut = true) ∧
    (∃ (s : State) (a : Nat) (r : Nat) (h : _), a < 8 ∧ r < 64 ∧ h < 2 ^ 32 ∧ (s.att a).scanOut = true ∧ (s.att a).descs = []
        ∧ s.ringRuns (ringBase a .command r) = true ∧ Store.get (fun _ => false) (s.att a).scanned (ringBase a .command r) = true
        ∧ s.ringHost (ringBase a .command r) = 0 ∧ s.ringDev (ringBase a .command r) = 0
        ∧ h ≤ s.ringSize (ringBase a .command r)) ∧
    (∃ (s : State) (a : Nat) (r : Nat) (h : _), a < 8 ∧ r < 64 ∧ h < 2 ^ 32 ∧ (s.att a).scanOut = true ∧ (s.att a).descs = []
        ∧ s.ringRuns (ringBase a .command r) = true ∧ Store.get (fun _ => false) (s.att a).scanned (ringBase a .command r) = true
        ∧ s.ringHost (ringBase a .command r) = 0 ∧ s.ringDev (ringBase a .command r) = 0
        ∧ s.ringSize (ringBase a .command r) < h) :=
  ⟨⟨rg [(Reg.MGT_WIN_CFG 0 15, 0x80000003), (Reg.MGT_WIN_SIZE_LO 0 15, 8192), (Reg.HIF_DB_BASE_LO 0, 4096),
      (Reg.HIF_SHADOW_BASE_LO 0, 0)], 0, 0, 1, (by decide +kernel)⟩,
    ⟨rg [(Reg.MGT_WIN_CFG 0 15, 0x80000003), (Reg.MGT_WIN_SIZE_LO 0 15, 8191), (Reg.HIF_DB_BASE_LO 0, 4096),
        (Reg.HIF_SHADOW_BASE_LO 0, 0)], 0, 0, 1, (by decide +kernel)⟩,
    ⟨rg [(Reg.MGT_WIN_CFG 0 15, 0x80000003), (Reg.MGT_WIN_SIZE_LO 0 15, 8192), (Reg.HIF_DB_BASE_LO 0, 4096),
        (Reg.HIF_SHADOW_BASE_LO 0, 0), (ringBase 0 .command 63 + 8, 4096)], 0, 63, 0x80000006, (by decide +kernel)⟩,
    ⟨rg [(Reg.MGT_WIN_CFG 0 15, 0x80000003), (Reg.MGT_WIN_SIZE_LO 0 15, 8191), (Reg.HIF_DB_BASE_LO 0, 4096),
        (Reg.HIF_SHADOW_BASE_LO 0, 0), (ringBase 0 .command 63 + 8, 4096)], 0, 63, 0x80000006, (by decide +kernel)⟩,

           ⟨{ rg [(ringBase 0 .command 63, 0x80000006), (ringBase 0 .command 63 + 4, 0x40000000)] with atts := [(0, { Att.init with present := true, linkUp := true, descs := [⟨63, 9, [], false, none, 0, false, 0, 0⟩] })] },
        0, 63, 0x7FFFFFFF, (by decide +kernel)⟩,
    ⟨rg [(ringBase 0 .egress 63, 0x80000006), (ringBase 0 .egress 63 + 4, 0x40000000), (Reg.HIF_EP_CFG 0 255, 0x8000003F)], 0,
        63, 0, (by decide +kernel)⟩,
    ⟨{ rg [(Reg.HIF_ATT_CTRL 0, 1)] with atts := [(0, { Att.init with present := true, linkUp := true, scanNext := 0 })] }, 0, 0,
        (by decide +kernel)⟩,

           ⟨{ rg [(Reg.HIF_ATT_CTRL 0, 1)] with atts := [(0, { Att.init with present := true, linkUp := true, scanNext := 0, scanOut := true })] },
        0, 0, (by decide +kernel)⟩,

           ⟨{ rg [(Reg.HIF_ATT_CTRL 0, 1), (ringBase 0 .command 63, 0x80000006), (ringBase 0 .command 63 + 4, 0x40000000)] with atts := [(0, { Att.init with present := true, linkUp := true, scanOut := true, scanned := [(ringBase 0 .command 63, true)] })] },
        0, 63, 64, (by decide +kernel)⟩,
    ⟨{ rg [(Reg.HIF_ATT_CTRL 0, 1), (ringBase 0 .command 63, 0x80000006), (ringBase 0 .command 63 + 4, 0x40000000)] with atts := [(0, { Att.init with present := true, linkUp := true, scanOut := true, scanned := [(ringBase 0 .command 63, true)] })] },
        0, 63, 65, (by decide +kernel)⟩⟩

theorem witness_DescriptorsThatEnd :
    (∃ (s : State) (a : Nat) (r : Nat) (d : DescRun), s.starts a r 0x00 d) ∧
    (∃ (s : State) (a : Nat) (r : Nat) (d : DescRun) (st : _), s.opening a r 0x08 = some (⟨a, r, d.index⟩, d)
        ∧ (s.att a).descs = [d] ∧ firstOf (s.descChecks a d) = some st) ∧
    (∃ (s : State) (a : Nat) (r : Nat) (d : DescRun), s.starts a r 0x08 d ∧ s.hbmLocked (d.dev, d.len) = true) ∧
    (∃ (s : State) (a : Nat) (r : Nat) (d : DescRun) (payload : List Byte), s.starts a r 0x08 d ∧ s.hbmLocked (d.dev,
        d.len) = false ∧ s.stacksReady (d.dev, d.len) = true ∧ payload.length = d.len) ∧
    (∃ (s : State) (a : Nat) (r : Nat) (d : DescRun), s.starts a r 0x09 d ∧ s.stacksReady (d.dev, d.len) = true
        ∧ (s.part d.part).applying ≠ 2) ∧
    (∃ (s : State) (a : Nat) (r : Nat) (d : DescRun) (payload : List Byte), s.starts a r 0x0A d ∧ payload.length = d.len
        ∧ s.enabled d.part = false ∧ (s.ctxNamed d).any (fun w => ctxForeign w d.part) = false
        ∧ (entries 32 payload).any (fun w => ctxForeign w d.part) = false ∧ s.fuses.eth2 = true) ∧
    (∃ (s : State) (a : Nat) (r : Nat) (d : DescRun), s.starts a r 0x0A d
        ∧ (s.ctxNamed d).any (fun w => ctxForeign w d.part) = true) ∧
    (∃ (s : State) (a : Nat) (r : Nat) (d : DescRun), s.starts a r 0x0B d ∧ (∀ i,
        i < d.len / 32 → (s.meetCtx (d.target + i)).ctxBad (d.target + i) = false)) ∧
    (∃ (s : State) (a : Nat) (r : Nat) (d : DescRun), s.starts a r 0x0C d ∧ (s.meetCtx d.target).ctxBad d.target = false
        ∧ ¬(cfld (s.context d.target) 0 31 1 = 1 ∧ cfld (s.context d.target) 0 30 1 = 0 ∧ cfld (s.context d.target) 0 28 1 = 1
        ∧ cfld (s.context d.target) 0 0 6 = d.part)) ∧
    (∃ (s : State) (a : Nat) (r : Nat) (d : DescRun) (w1 : _), s.starts a r 0x0C d ∧ (s.meetCtx d.target).ctxBad d.target = false
        ∧ cfld (s.context d.target) 0 31 1 = 1 ∧ cfld (s.context d.target) 0 30 1 = 0 ∧ cfld (s.context d.target) 0 28 1 = 1
        ∧ cfld (s.context d.target) 0 0 6 = d.part ∧ d.inline = true ∧ d.ext = false ∧ s.pstate d.part = psRunning
        ∧ seqStep (s.context d.target) d.sub = some w1) ∧
    (∃ (s : State) (a : Nat) (d : DescRun) (p : _) (q : _), a < 8 ∧ d.ring < 64 ∧ s.rings a d ∧ (s.att a).descs = [d]
        ∧ (s.att a).msgWait = some (⟨a, d.ring, d.index⟩, p, q) ∧ (s.att a).msgAt + messageWait ≤ s.ref) :=

       ⟨⟨{ (rg [(ringBase 0 .command 63, 0x80000006), (ringBase 0 .command 63 + 4, 0x40000000), (ringBase 0 .completion 5, 0x80000006), (ringBase 0 .completion 5 + 4, 0x40000000), (ringBase 0 .command 63 + 16, 9), (Reg.MGT_WIN_CFG 0 15, 0x80000003), (Reg.MGT_WIN_SIZE_LO 0 15, 8192), (Reg.MGT_HBM_REGION_SIZE 15, 1), (Reg.MEM_HBM_STATUS 0, 8)]) with atts := [(0, { Att.init with present := true, linkUp := true, descs := [(dsc 0 0 0 0 0 0 0 [] false 0)] })] },
      0, 63, (dsc 0 0 0 0 0 0 0 [] false 0), (by unfold State.starts; decide +kernel)⟩,

           ⟨{ (rg [(ringBase 0 .command 63, 0x80000006), (ringBase 0 .command 63 + 4, 0x40000000), (ringBase 0 .completion 5, 0x80000006), (ringBase 0 .completion 5 + 4, 0x40000000), (ringBase 0 .command 63 + 16, 9), (Reg.MGT_WIN_CFG 0 15, 0x80000003), (Reg.MGT_WIN_SIZE_LO 0 15, 8192), (Reg.MGT_HBM_REGION_SIZE 15, 1), (Reg.MEM_HBM_STATUS 0, 8)]) with atts := [(0, { Att.init with present := true, linkUp := true, descs := [(dsc 8 0 0 0 0 65536 64 [] false 0)] })] },
        0, 63, (dsc 8 0 0 0 0 65536 64 [] false 0), stHbmRegion, (by decide +kernel)⟩,

           ⟨{ (rg [(ringBase 0 .command 63, 0x80000006), (ringBase 0 .command 63 + 4, 0x40000000), (ringBase 0 .completion 5, 0x80000006), (ringBase 0 .completion 5 + 4, 0x40000000), (ringBase 0 .command 63 + 16, 9), (Reg.MGT_WIN_CFG 0 15, 0x80000003), (Reg.MGT_WIN_SIZE_LO 0 15, 8192), (Reg.MGT_HBM_REGION_SIZE 15, 1), (Reg.MEM_HBM_STATUS 0, 8), (Reg.SYN_WIN_KEY 0 7, 0x80000005), (Reg.SYN_WIN_CFG 0 7, 0x80000000), (Reg.SYN_WIN_EXT 0 7, 2)]) with atts := [(0, { Att.init with present := true, linkUp := true, descs := [(dsc 8 0 0 0 0 0 64 [] false 0)] })] },
        0, 63, (dsc 8 0 0 0 0 0 64 [] false 0), (by unfold State.starts; decide +kernel)⟩,

           ⟨{ (rg [(ringBase 0 .command 63, 0x80000006), (ringBase 0 .command 63 + 4, 0x40000000), (ringBase 0 .completion 5, 0x80000006), (ringBase 0 .completion 5 + 4, 0x40000000), (ringBase 0 .command 63 + 16, 9), (Reg.MGT_WIN_CFG 0 15, 0x80000003), (Reg.MGT_WIN_SIZE_LO 0 15, 8192), (Reg.MGT_HBM_REGION_SIZE 15, 1), (Reg.MEM_HBM_STATUS 0, 8), (Reg.HIF_PART_STATUS 0, 0)]) with atts := [(0, { Att.init with present := true, linkUp := true, descs := [(dsc 8 0 0 0 0 65472 64 [] false 0)] })] },
        0, 63, (dsc 8 0 0 0 0 65472 64 [] false 0), (List.range 64).map fun k => BitVec.ofNat 8 k,
        (by unfold State.starts; decide +kernel)⟩,

           ⟨{ (rg [(ringBase 0 .command 63, 0x80000006), (ringBase 0 .command 63 + 4, 0x40000000), (ringBase 0 .completion 5, 0x80000006), (ringBase 0 .completion 5 + 4, 0x40000000), (ringBase 0 .command 63 + 16, 9), (Reg.MGT_WIN_CFG 0 15, 0x80000003), (Reg.MGT_WIN_SIZE_LO 0 15, 8192), (Reg.MGT_HBM_REGION_SIZE 15, 1), (Reg.MEM_HBM_STATUS 0, 8), (Reg.HIF_PART_STATUS 0, 0)]) with atts := [(0, { Att.init with present := true, linkUp := true, descs := [(dsc 9 0 0 0 0 65472 64 [] false 0)] })] },
        0, 63, (dsc 9 0 0 0 0 65472 64 [] false 0), (by unfold State.starts; decide +kernel)⟩,

           ⟨{ (rg [(ringBase 0 .command 63, 0x80000006), (ringBase 0 .command 63 + 4, 0x40000000), (ringBase 0 .completion 5, 0x80000006), (ringBase 0 .completion 5 + 4, 0x40000000), (ringBase 0 .command 63 + 16, 9), (Reg.MGT_WIN_CFG 0 15, 0x80000003), (Reg.MGT_WIN_SIZE_LO 0 15, 8192), (Reg.MGT_HBM_REGION_SIZE 15, 1), (Reg.MEM_HBM_STATUS 0, 8), (Reg.HIF_PART_STATUS 0, 0)]) with atts := [(0, { Att.init with present := true, linkUp := true, descs := [(dsc 10 0 0 1048575 0 0 32 [] false 0)] })] },
        0, 63, (dsc 10 0 0 1048575 0 0 32 [] false 0), List.replicate 32 (0xC0 : Byte), (by unfold State.starts; decide +kernel)⟩,

           ⟨({ (rg [(ringBase 0 .command 63, 0x80000006), (ringBase 0 .command 63 + 4, 0x40000000), (ringBase 0 .completion 5, 0x80000006), (ringBase 0 .completion 5 + 4, 0x40000000), (ringBase 0 .command 63 + 16, 9), (Reg.MGT_WIN_CFG 0 15, 0x80000003), (Reg.MGT_WIN_SIZE_LO 0 15, 8192), (Reg.MGT_HBM_REGION_SIZE 15, 1), (Reg.MEM_HBM_STATUS 0, 8), (Reg.HIF_PART_STATUS 0, 0)]) with atts := [(0, { Att.init with present := true, linkUp := true, descs := [(dsc 10 0 0 1048575 0 0 32 [] false 0)] })] }).setContext (2 ^ 20 - 1) (2 ^ 31 + 63),
        0, 63, (dsc 10 0 0 1048575 0 0 32 [] false 0), (by unfold State.starts; decide +kernel)⟩,

           ⟨({ (rg [(ringBase 0 .command 63, 0x80000006), (ringBase 0 .command 63 + 4, 0x40000000), (ringBase 0 .completion 5, 0x80000006), (ringBase 0 .completion 5 + 4, 0x40000000), (ringBase 0 .command 63 + 16, 9), (Reg.MGT_WIN_CFG 0 15, 0x80000003), (Reg.MGT_WIN_SIZE_LO 0 15, 8192), (Reg.MGT_HBM_REGION_SIZE 15, 1), (Reg.MEM_HBM_STATUS 0, 8), (Reg.HIF_PART_STATUS 0, 0)]) with atts := [(0, { Att.init with present := true, linkUp := true, descs := [(dsc 11 0 0 1048575 0 0 32 [] false 0)] })] }).setContext (2 ^ 20 - 1) (2 ^ 31 + 63),
        0, 63, (dsc 11 0 0 1048575 0 0 32 [] false 0), (by unfold State.starts; decide +kernel)⟩,

           ⟨{ (rg [(ringBase 0 .command 63, 0x80000006), (ringBase 0 .command 63 + 4, 0x40000000), (ringBase 0 .completion 5, 0x80000006), (ringBase 0 .completion 5 + 4, 0x40000000), (ringBase 0 .command 63 + 16, 9), (Reg.MGT_WIN_CFG 0 15, 0x80000003), (Reg.MGT_WIN_SIZE_LO 0 15, 8192), (Reg.MGT_HBM_REGION_SIZE 15, 1), (Reg.MEM_HBM_STATUS 0, 8)]) with atts := [(0, { Att.init with present := true, linkUp := true, descs := [(dsc 12 0 0 5 9 0 0 [] false 0)] })] },
        0, 63, (dsc 12 0 0 5 9 0 0 [] false 0), (by unfold State.starts; decide +kernel)⟩,

           ⟨({ (rg [(ringBase 0 .command 63, 0x80000006), (ringBase 0 .command 63 + 4, 0x40000000), (ringBase 0 .completion 5, 0x80000006), (ringBase 0 .completion 5 + 4, 0x40000000), (ringBase 0 .command 63 + 16, 9), (Reg.MGT_WIN_CFG 0 15, 0x80000003), (Reg.MGT_WIN_SIZE_LO 0 15, 8192), (Reg.MGT_HBM_REGION_SIZE 15, 1), (Reg.MEM_HBM_STATUS 0, 8)]) with atts := [(0, { Att.init with present := true, linkUp := true, descs := [(dsc 12 8 0 5 9 0 0 [] false 0)] })] }).setContext 5 (2 ^ 31 + 2 ^ 28),
        0, 63, (dsc 12 8 0 5 9 0 0 [] false 0),
        (seqStep (((({ (rg [(ringBase 0 .command 63, 0x80000006), (ringBase 0 .command 63 + 4, 0x40000000), (ringBase 0 .completion 5, 0x80000006), (ringBase 0 .completion 5 + 4, 0x40000000), (ringBase 0 .command 63 + 16, 9), (Reg.MGT_WIN_CFG 0 15, 0x80000003), (Reg.MGT_WIN_SIZE_LO 0 15, 8192), (Reg.MGT_HBM_REGION_SIZE 15, 1), (Reg.MEM_HBM_STATUS 0, 8)]) with atts := [(0, { Att.init with present := true, linkUp := true, descs := [(dsc 12 8 0 5 9 0 0 [] false 0)] })] }).setContext 5 (2 ^ 31 + 2 ^ 28) : State)).context 5) 9).getD 0,
        (by unfold State.starts; decide +kernel)⟩,
    ⟨{ (rg [(ringBase 0 .command 63, 0x80000006), (ringBase 0 .command 63 + 4, 0x40000000), (ringBase 0 .completion 5, 0x80000006), (ringBase 0 .completion 5 + 4, 0x40000000), (ringBase 0 .command 63 + 16, 9), (Reg.MGT_WIN_CFG 0 15, 0x80000003), (Reg.MGT_WIN_SIZE_LO 0 15, 8192), (Reg.MGT_HBM_REGION_SIZE 15, 1), (Reg.MEM_HBM_STATUS 0, 8), (Reg.TB_REF_LO, 100000)]) with atts := [(0, { Att.init with present := true, linkUp := true, descs := [(dsc 13 0 0 0 0 0 0 [] true 0)], msgWait := some (⟨0, 63, 9⟩, 0, 7), msgAt := 0 })] },
        0, (dsc 13 0 0 0 0 0 0 [] true 0), 0, 7, (by unfold State.rings; decide +kernel)⟩⟩

theorem witness_DescriptorsThatSend :
    (∃ (s : State) (a : Nat) (r : Nat) (p : Nat) (d : DescRun) (payload : List Byte), p = s.descCore d ∧ s.memOn p = true
        ∧ payload.length = d.len ∧ d.len ≤ 256 ∧ s.edgeOpen (0xC0 + a) d.part ∧ s.starts a r 0x01 d ∧ d.dev + d.len ≤ 0x40000
        ∧ s.touchesProtected p (d.dev, d.len) = false ∧ s.enabled d.part = false) ∧
    (∃ (s : State) (a : Nat) (r : Nat) (p : Nat) (d : DescRun) (payload : List Byte), p = s.descCore d ∧ s.memOn p = true
        ∧ payload.length = d.len ∧ d.len ≤ 256 ∧ s.edgeOpen (0xC0 + a) d.part ∧ s.starts a r 0x01 d ∧ 0x40000 < d.dev + d.len) ∧
    (∃ (s : State) (a : Nat) (r : Nat) (p : Nat) (d : DescRun) (payload : List Byte), p = s.descCore d ∧ s.memOn p = true
        ∧ payload.length = d.len ∧ d.len ≤ 256 ∧ s.edgeOpen (0xC0 + a) d.part ∧ s.starts a r 0x02 d ∧ d.dev + d.len ≤ 0x40000) ∧
    (∃ (s : State) (a : Nat) (r : Nat) (p : Nat) (d : DescRun) (payload : List Byte), p = s.descCore d ∧ s.memOn p = true
        ∧ payload.length = d.len ∧ d.len ≤ 256 ∧ s.edgeOpen (0xC0 + a) d.part ∧ s.starts a r 0x03 d ∧ s.enabled d.part = false) ∧
    (∃ (s : State) (a : Nat) (r : Nat) (p : Nat) (d : DescRun) (payload : List Byte), p = s.descCore d ∧ s.memOn p = true
        ∧ payload.length = d.len ∧ d.len ≤ 256 ∧ s.edgeOpen (0xC0 + a) d.part ∧ s.starts a r 0x03 d ∧ s.enabled d.part = true) ∧
    (∃ (s : State) (a : Nat) (r : Nat) (p : Nat) (d : DescRun) (payload : List Byte), p = s.descCore d ∧ s.memOn p = true
        ∧ payload.length = d.len ∧ d.len ≤ 256 ∧ s.edgeOpen (0xC0 + a) d.part ∧ s.starts a r 0x04 d) ∧
    (∃ (s : State) (a : Nat) (r : Nat) (p : Nat) (d : DescRun) (payload : List Byte), p = s.descCore d ∧ s.memOn p = true
        ∧ payload.length = d.len ∧ d.len ≤ 256 ∧ s.edgeOpen (0xC0 + a) d.part ∧ s.starts a r 0x05 d ∧ d.kind = 2) ∧
    (∃ (s : State) (a : Nat) (r : Nat) (p : Nat) (d : DescRun) (payload : List Byte), p = s.descCore d ∧ s.memOn p = true
        ∧ payload.length = d.len ∧ d.len ≤ 256 ∧ s.edgeOpen (0xC0 + a) d.part ∧ s.starts a r 0x06 d ∧ d.kind = 2) ∧
    (∃ (s : State) (a : Nat) (r : Nat) (p : Nat) (d : DescRun) (payload : List Byte), p = s.descCore d ∧ s.memOn p = true
        ∧ payload.length = d.len ∧ d.len ≤ 256 ∧ s.edgeOpen (0xC0 + a) d.part ∧ s.starts a r 0x07 d ∧ d.hbm = false
        ∧ d.dev + d.len ≤ 0x40000 ∧ s.touchesProtected p (d.dev, d.len) = false ∧ s.enabled d.part = false
        ∧ badRow (s.fmtSlot p) 16 (d.len / 16 + 1) 0 payload = none) ∧
    (∃ (s : State) (a : Nat) (r : Nat) (p : Nat) (d : DescRun) (payload : List Byte) (off : _), p = s.descCore d
        ∧ s.memOn p = true ∧ payload.length = d.len ∧ d.len ≤ 256 ∧ s.edgeOpen (0xC0 + a) d.part ∧ s.starts a r 0x07 d
        ∧ d.hbm = false ∧ d.dev + d.len ≤ 0x40000 ∧ s.touchesProtected p (d.dev, d.len) = false ∧ s.enabled d.part = false
        ∧ badRow (s.fmtSlot p) 16 (d.len / 16 + 1) 0 payload = some off) ∧
    (∃ (s : State) (a : Nat) (r : Nat) (p : Nat) (d : DescRun) (payload : List Byte), p = s.descCore d ∧ s.memOn p = true
        ∧ payload.length = d.len ∧ d.len ≤ 256 ∧ s.edgeOpen (0xC0 + a) d.part ∧ s.starts a r 0x0D d ∧ s.pstate d.part = psRunning
        ∧ (s.att a).msgWait = none ∧ d.sub / 8 % 4 = 0 ∧ d.sub / 32 % 2 = 0) ∧
    (∃ (s : State) (a : Nat) (r : Nat) (p : Nat) (d : DescRun) (payload : List Byte) (run : _), p = s.descCore d
        ∧ s.memOn p = true ∧ payload.length = d.len ∧ d.len ≤ 256 ∧ s.edgeOpen (0xC0 + a) d.part ∧ s.starts a r 0x0E d
        ∧ s.pstate d.part = psRunning ∧ (s.core p).dns = some run ∧ run.op ≠ d.sub % 4 ∧ (s.core p).dnsQ = []
        ∧ (s.core p).gated = false ∧ (s.opCfg p (d.sub % 4)).en = true ∧ (s.opCfg p (d.sub % 4)).trigger = trgDesc) ∧
    (∃ (s : State) (a : Nat) (r : Nat) (p : Nat) (d : DescRun) (payload : List Byte) (run : _), p = s.descCore d
        ∧ s.memOn p = true ∧ payload.length = d.len ∧ d.len ≤ 256 ∧ s.edgeOpen (0xC0 + a) d.part ∧ s.starts a r 0x0E d
        ∧ (s.core p).dns = some run ∧ run.op = d.sub % 4) :=

       ⟨⟨{ (rg [(ringBase 0 .command 63, 0x80000006), (ringBase 0 .command 63 + 4, 0x40000000), (ringBase 0 .completion 5, 0x80000006), (ringBase 0 .completion 5 + 4, 0x40000000), (ringBase 0 .command 63 + 16, 9), (Reg.MGT_WIN_CFG 0 15, 0x80000003), (Reg.MGT_WIN_SIZE_LO 0 15, 8192), (Reg.MGT_HBM_REGION_SIZE 15, 1), (Reg.MEM_HBM_STATUS 0, 8), (Reg.HIF_PART_STATUS 0, 0), (Reg.INT_CORE_MAP 0, 0x80000000)]) with atts := [(0, { Att.init with present := true, linkUp := true, descs := [(dsc 1 0 0 0 0 196604 4 [] false 0)] })] },
      0, 63, 0, (dsc 1 0 0 0 0 196604 4 [] false 0), List.replicate 4 (7 : Byte),
      (by unfold State.edgeOpen State.starts; decide +kernel)⟩,

           ⟨{ (rg [(ringBase 0 .command 63, 0x80000006), (ringBase 0 .command 63 + 4, 0x40000000), (ringBase 0 .completion 5, 0x80000006), (ringBase 0 .completion 5 + 4, 0x40000000), (ringBase 0 .command 63 + 16, 9), (Reg.MGT_WIN_CFG 0 15, 0x80000003), (Reg.MGT_WIN_SIZE_LO 0 15, 8192), (Reg.MGT_HBM_REGION_SIZE 15, 1), (Reg.MEM_HBM_STATUS 0, 8), (Reg.HIF_PART_STATUS 0, 0), (Reg.INT_CORE_MAP 0, 0x80000000)]) with atts := [(0, { Att.init with present := true, linkUp := true, descs := [(dsc 1 0 0 0 0 262141 4 [] false 0)] })] },
        0, 63, 0, (dsc 1 0 0 0 0 262141 4 [] false 0), List.replicate 4 (7 : Byte),
        (by unfold State.edgeOpen State.starts; decide +kernel)⟩,

           ⟨{ (rg [(ringBase 0 .command 63, 0x80000006), (ringBase 0 .command 63 + 4, 0x40000000), (ringBase 0 .completion 5, 0x80000006), (ringBase 0 .completion 5 + 4, 0x40000000), (ringBase 0 .command 63 + 16, 9), (Reg.MGT_WIN_CFG 0 15, 0x80000003), (Reg.MGT_WIN_SIZE_LO 0 15, 8192), (Reg.MGT_HBM_REGION_SIZE 15, 1), (Reg.MEM_HBM_STATUS 0, 8), (Reg.HIF_PART_STATUS 0, 0), (Reg.INT_CORE_MAP 0, 0x80000000), (Reg.STEP_COMMITTED 0, 77)]) with atts := [(0, { Att.init with present := true, linkUp := true, descs := [(dsc 2 0 0 0 0 262140 4 [] false 0)] })] },
        0, 63, 0, (dsc 2 0 0 0 0 262140 4 [] false 0), List.replicate 4 (7 : Byte),
        (by unfold State.edgeOpen State.starts; decide +kernel)⟩,

           ⟨{ (rg [(ringBase 0 .command 63, 0x80000006), (ringBase 0 .command 63 + 4, 0x40000000), (ringBase 0 .completion 5, 0x80000006), (ringBase 0 .completion 5 + 4, 0x40000000), (ringBase 0 .command 63 + 16, 9), (Reg.MGT_WIN_CFG 0 15, 0x80000003), (Reg.MGT_WIN_SIZE_LO 0 15, 8192), (Reg.MGT_HBM_REGION_SIZE 15, 1), (Reg.MEM_HBM_STATUS 0, 8), (Reg.HIF_PART_STATUS 0, 0), (Reg.INT_CORE_MAP 0, 0x80000000)]) with atts := [(0, { Att.init with present := true, linkUp := true, descs := [(dsc 3 0 0 0 0 4095 8 [] false 0)] })] },
        0, 63, 0, (dsc 3 0 0 0 0 4095 8 [] false 0), List.replicate 8 (7 : Byte),
        (by unfold State.edgeOpen State.starts; decide +kernel)⟩,

           ⟨{ (rg [(ringBase 0 .command 63, 0x80000006), (ringBase 0 .command 63 + 4, 0x40000000), (ringBase 0 .completion 5, 0x80000006), (ringBase 0 .completion 5 + 4, 0x40000000), (ringBase 0 .command 63 + 16, 9), (Reg.MGT_WIN_CFG 0 15, 0x80000003), (Reg.MGT_WIN_SIZE_LO 0 15, 8192), (Reg.MGT_HBM_REGION_SIZE 15, 1), (Reg.MEM_HBM_STATUS 0, 8), (Reg.INT_CORE_MAP 0, 0x80000000)]) with atts := [(0, { Att.init with present := true, linkUp := true, descs := [(dsc 3 0 0 0 0 4095 8 [] false 0)] })] },
        0, 63, 0, (dsc 3 0 0 0 0 4095 8 [] false 0), List.replicate 8 (7 : Byte),
        (by unfold State.edgeOpen State.starts; decide +kernel)⟩,

           ⟨{ (rg [(ringBase 0 .command 63, 0x80000006), (ringBase 0 .command 63 + 4, 0x40000000), (ringBase 0 .completion 5, 0x80000006), (ringBase 0 .completion 5 + 4, 0x40000000), (ringBase 0 .command 63 + 16, 9), (Reg.MGT_WIN_CFG 0 15, 0x80000003), (Reg.MGT_WIN_SIZE_LO 0 15, 8192), (Reg.MGT_HBM_REGION_SIZE 15, 1), (Reg.MEM_HBM_STATUS 0, 8), (Reg.INT_CORE_MAP 0, 0x80000000), (Reg.STEP_COMMITTED 0, 77)]) with atts := [(0, { Att.init with present := true, linkUp := true, descs := [(dsc 4 0 0 0 0 4095 8 [] false 0)] })] },
        0, 63, 0, (dsc 4 0 0 0 0 4095 8 [] false 0), List.replicate 8 (7 : Byte),
        (by unfold State.edgeOpen State.starts; decide +kernel)⟩,

           ⟨{ (rg [(ringBase 0 .command 63, 0x80000006), (ringBase 0 .command 63 + 4, 0x40000000), (ringBase 0 .completion 5, 0x80000006), (ringBase 0 .completion 5 + 4, 0x40000000), (ringBase 0 .command 63 + 16, 9), (Reg.MGT_WIN_CFG 0 15, 0x80000003), (Reg.MGT_WIN_SIZE_LO 0 15, 8192), (Reg.MGT_HBM_REGION_SIZE 15, 1), (Reg.MEM_HBM_STATUS 0, 8), (Reg.INT_CORE_MAP 0, 0x80000000)]) with atts := [(0, { Att.init with present := true, linkUp := true, descs := [(dsc 5 0 0 0 67043330 0 8 [] false 0)] })] },
        0, 63, 0, (dsc 5 0 0 0 67043330 0 8 [] false 0), List.replicate 8 (7 : Byte),
        (by unfold State.edgeOpen State.starts; decide +kernel)⟩,

           ⟨{ (rg [(ringBase 0 .command 63, 0x80000006), (ringBase 0 .command 63 + 4, 0x40000000), (ringBase 0 .completion 5, 0x80000006), (ringBase 0 .completion 5 + 4, 0x40000000), (ringBase 0 .command 63 + 16, 9), (Reg.MGT_WIN_CFG 0 15, 0x80000003), (Reg.MGT_WIN_SIZE_LO 0 15, 8192), (Reg.MGT_HBM_REGION_SIZE 15, 1), (Reg.MEM_HBM_STATUS 0, 8), (Reg.INT_CORE_MAP 0, 0x80000000)]) with atts := [(0, { Att.init with present := true, linkUp := true, descs := [(dsc 6 0 0 0 67043330 0 8 [] false 0)] })] },
        0, 63, 0, (dsc 6 0 0 0 67043330 0 8 [] false 0), List.replicate 8 (7 : Byte),
        (by unfold State.edgeOpen State.starts; decide +kernel)⟩,

           ⟨{ (rg [(ringBase 0 .command 63, 0x80000006), (ringBase 0 .command 63 + 4, 0x40000000), (ringBase 0 .completion 5, 0x80000006), (ringBase 0 .completion 5 + 4, 0x40000000), (ringBase 0 .command 63 + 16, 9), (Reg.MGT_WIN_CFG 0 15, 0x80000003), (Reg.MGT_WIN_SIZE_LO 0 15, 8192), (Reg.MGT_HBM_REGION_SIZE 15, 1), (Reg.MEM_HBM_STATUS 0, 8), (Reg.HIF_PART_STATUS 0, 0), (Reg.INT_CORE_MAP 0, 0x80000000)]) with atts := [(0, { Att.init with present := true, linkUp := true, descs := [(dsc 7 0 0 0 0 196592 16 [] false 0)] })] },
        0, 63, 0, (dsc 7 0 0 0 0 196592 16 [] false 0),
        (List.replicate 12 (0 : Byte)) ++ toBytes 4 (rowCrc (List.replicate 12 0) []),
        (by unfold State.edgeOpen State.starts; decide +kernel)⟩,

           ⟨{ (rg [(ringBase 0 .command 63, 0x80000006), (ringBase 0 .command 63 + 4, 0x40000000), (ringBase 0 .completion 5, 0x80000006), (ringBase 0 .completion 5 + 4, 0x40000000), (ringBase 0 .command 63 + 16, 9), (Reg.MGT_WIN_CFG 0 15, 0x80000003), (Reg.MGT_WIN_SIZE_LO 0 15, 8192), (Reg.MGT_HBM_REGION_SIZE 15, 1), (Reg.MEM_HBM_STATUS 0, 8), (Reg.HIF_PART_STATUS 0, 0), (Reg.INT_CORE_MAP 0, 0x80000000)]) with atts := [(0, { Att.init with present := true, linkUp := true, descs := [(dsc 7 0 0 0 0 196592 16 [] false 0)] })] },
        0, 63, 0, (dsc 7 0 0 0 0 196592 16 [] false 0), List.replicate 16 (1 : Byte), 0,
        (by unfold State.edgeOpen State.starts; decide +kernel)⟩,

           ⟨{ (rg [(ringBase 0 .command 63, 0x80000006), (ringBase 0 .command 63 + 4, 0x40000000), (ringBase 0 .completion 5, 0x80000006), (ringBase 0 .completion 5 + 4, 0x40000000), (ringBase 0 .command 63 + 16, 9), (Reg.MGT_WIN_CFG 0 15, 0x80000003), (Reg.MGT_WIN_SIZE_LO 0 15, 8192), (Reg.MGT_HBM_REGION_SIZE 15, 1), (Reg.MEM_HBM_STATUS 0, 8), (Reg.INT_CORE_MAP 0, 0x80000000)]) with atts := [(0, { Att.init with present := true, linkUp := true, descs := [(dsc 13 0 0 0 7 0 0 [1, 2, 3, 4] false 0)] })] },
        0, 63, 0, (dsc 13 0 0 0 7 0 0 [1, 2, 3, 4] false 0), [], (by unfold State.edgeOpen State.starts; decide +kernel)⟩,

           ⟨({ (rg [(ringBase 0 .command 63, 0x80000006), (ringBase 0 .command 63 + 4, 0x40000000), (ringBase 0 .completion 5, 0x80000006), (ringBase 0 .completion 5 + 4, 0x40000000), (ringBase 0 .command 63 + 16, 9), (Reg.MGT_WIN_CFG 0 15, 0x80000003), (Reg.MGT_WIN_SIZE_LO 0 15, 8192), (Reg.MGT_HBM_REGION_SIZE 15, 1), (Reg.MEM_HBM_STATUS 0, 8), (Reg.INT_CORE_MAP 0, 0x80000000), (Reg.DNS_OP_CFG 0 3, 0xA0000000)]) with atts := [(0, { Att.init with present := true, linkUp := true, descs := [(dsc 14 0 0 0 3 0 0 [] false 0)] })] }).updCore 0 fun c => { c with dns := some ⟨2, 0, .step, 0, false, 0, 0⟩ },
        0, 63, 0, (dsc 14 0 0 0 3 0 0 [] false 0), [], ⟨2, 0, .step, 0, false, 0, 0⟩,
        (by unfold State.edgeOpen State.starts; decide +kernel)⟩,
    ⟨({ (rg [(ringBase 0 .command 63, 0x80000006), (ringBase 0 .command 63 + 4, 0x40000000), (ringBase 0 .completion 5, 0x80000006), (ringBase 0 .completion 5 + 4, 0x40000000), (ringBase 0 .command 63 + 16, 9), (Reg.MGT_WIN_CFG 0 15, 0x80000003), (Reg.MGT_WIN_SIZE_LO 0 15, 8192), (Reg.MGT_HBM_REGION_SIZE 15, 1), (Reg.MEM_HBM_STATUS 0, 8), (Reg.INT_CORE_MAP 0, 0x80000000)]) with atts := [(0, { Att.init with present := true, linkUp := true, descs := [(dsc 14 0 0 0 2 0 0 [] false 0)] })] }).updCore 0 fun c => { c with dns := some ⟨2, 0, .step, 0, false, 0, 0⟩ },
        0, 63, 0, (dsc 14 0 0 0 2 0 0 [] false 0), [], ⟨2, 0, .step, 0, false, 0, 0⟩,
        (by unfold State.edgeOpen State.starts; decide +kernel)⟩⟩

theorem witness_LoaderPackets :
    (∃ (s : State) (i : Nat) (a : Nat) (r : Nat) (q : Nat) (p : Nat) (off : Nat) (f : Flight) (bs : _), a < 8 ∧ r < 64 ∧ p < 9216
        ∧ s.arrived i f ∧ s.flows f.part ∧ f.place = .core p ∧ f.body = .loadWrite ⟨a, r, q⟩ p 0 off bs true
        ∧ (s.core p).gated = false ∧ s.loaderMay p 0 off bs.length = true ∧ s.intact p off bs.length) ∧
    (∃ (s : State) (i : Nat) (a : Nat) (r : Nat) (q : Nat) (p : Nat) (off : Nat) (f : Flight) (bs : _) (last : _), a < 8 ∧ r < 64
        ∧ p < 9216 ∧ s.arrived i f ∧ s.flows f.part ∧ f.place = .core p ∧ f.body = .loadWrite ⟨a, r, q⟩ p 0 off bs last
        ∧ (s.core p).gated = false ∧ s.loaderMay p 0 off bs.length = false) ∧
    (∃ (s : State) (i : Nat) (a : Nat) (r : Nat) (q : Nat) (p : Nat) (off : Nat) (f : Flight) (n : _) (staged : _), a < 8
        ∧ r < 64 ∧ p < 9216 ∧ s.arrived i f ∧ s.flows f.part ∧ f.place = .core p ∧ f.body = .loadRead ⟨a, r, q⟩ p 0 staged off n
        ∧ (s.core p).gated = false ∧ s.loaderMay p 0 off n = true ∧ s.intact p off n) ∧
    (∃ (s : State) (i : Nat) (a : Nat) (r : Nat) (q : Nat) (p : Nat) (off : Nat) (f : Flight) (n : _) (staged : _), a < 8
        ∧ r < 64 ∧ p < 9216 ∧ s.arrived i f ∧ s.flows f.part ∧ f.place = .core p ∧ f.body = .loadRead ⟨a, r, q⟩ p 0 staged off n
        ∧ (s.core p).gated = false ∧ s.loaderMay p 0 off n = true ∧ s.poisoned p off n = true) ∧
    (∃ (s : State) (i : Nat) (a : Nat) (r : Nat) (q : Nat) (p : Nat) (off : Nat) (f : Flight) (e : _) (es : _), a < 8 ∧ r < 64
        ∧ p < 9216 ∧ s.arrived i f ∧ s.flows f.part ∧ f.place = .stop (p / 144) ∧ f.body = .loadWrite ⟨a, r, q⟩ p 4 off es false
        ∧ entries 8 es = [e]) ∧
    (∃ (s : State) (i : Nat) (a : Nat) (r : Nat) (p : Nat) (d : DescRun) (f : Flight) (addr : _) (bs : _) (ue : _), a < 8
        ∧ r < 64 ∧ p < 9216 ∧ s.arrived i f ∧ s.flows f.part ∧ f.place = .unit (0xC0 + a) ∧ f.body = .readReturn ⟨a, d.ring,
        d.index⟩ addr bs ue true ∧ d.ring < 64 ∧ s.rings a d ∧ (s.att a).descs = [d] ∧ d.op = 0x01) ∧
    (∃ (s : State) (i : Nat) (a : Nat) (r : Nat) (p : Nat) (d : DescRun) (f : Flight) (bs : _) (ue : _), a < 8 ∧ r < 64
        ∧ p < 9216 ∧ s.arrived i f ∧ s.flows f.part ∧ f.place = .unit (0xC0 + a) ∧ f.body = .readReturn ⟨a, d.ring,
        d.index⟩ d.addr0 bs ue false ∧ d.ring < 64 ∧ s.rings a d ∧ (s.att a).descs = [d] ∧ d.op = 0x02 ∧ d.left ≤ bs.length
        ∧ s.hostOk a permWrite d.host bs.length = true) ∧
    (∃ (s : State) (i : Nat) (a : Nat) (r : Nat) (p : Nat) (d : DescRun) (f : Flight) (bs : _), a < 8 ∧ r < 64 ∧ p < 9216
        ∧ s.arrived i f ∧ s.flows f.part ∧ f.place = .unit (0xC0 + a) ∧ f.body = .readReturn ⟨a, d.ring,
        d.index⟩ d.addr0 bs false false ∧ (s.att a).descs = [d] ∧ bs.length < d.left
        ∧ s.hostOk a permWrite d.host bs.length = true) :=
  ⟨⟨pk (fl (.core 0) (.unicast 2 0) 0 none (.loadWrite ⟨0, 63, 9⟩ 0 0 0x3FFFC [1, 2, 3, 4] true)), 0, 0, 63, 9, 0, 0x3FFFC,
      (fl (.core 0) (.unicast 2 0) 0 none (.loadWrite ⟨0, 63, 9⟩ 0 0 0x3FFFC [1, 2, 3, 4] true)), [1, 2, 3, 4],
      (by unfold State.arrived State.flows State.intact; decide +kernel)⟩,
    ⟨pk (fl (.core 0) (.unicast 2 0) 0 none (.loadWrite ⟨0, 63, 9⟩ 0 0 0x3FFFC [1, 2, 3, 4] true)) (rg [(Reg.MEM_BANK_OWNER 0 15,
        0x80000000)]), 0, 0, 63, 9, 0, 0x3FFFC, (fl (.core 0) (.unicast 2 0) 0 none (.loadWrite ⟨0, 63, 9⟩ 0 0 0x3FFFC [1, 2, 3,
        4] true)), [1, 2, 3, 4], true, (by unfold State.arrived State.flows; decide +kernel)⟩,
    ⟨pk (fl (.core 0) (.unicast 2 0) 0 none (.loadRead ⟨0, 63, 9⟩ 0 0 false 0x3FFFC 4)), 0, 0, 63, 9, 0, 0x3FFFC,
        (fl (.core 0) (.unicast 2 0) 0 none (.loadRead ⟨0, 63, 9⟩ 0 0 false 0x3FFFC 4)), 4, false,
        (by unfold State.arrived State.flows State.intact; decide +kernel)⟩,
    ⟨pk (fl (.core 0) (.unicast 2 0) 0 none (.loadRead ⟨0, 63,
        9⟩ 0 0 false 0x3FFFC 4)) ({ rdy with poison := [(memKey 0 0x3FFF8, true)] }), 0, 0, 63, 9, 0, 0x3FFFC,
        (fl (.core 0) (.unicast 2 0) 0 none (.loadRead ⟨0, 63, 9⟩ 0 0 false 0x3FFFC 4)), 4, false,
        (by unfold State.arrived State.flows; decide +kernel)⟩,
    ⟨pk (fl (.stop 0) (.unicast 2 0) 0 none (.loadWrite ⟨0, 63, 9⟩ 0 4 8184 (toBytes 8 0x8000000000000001) false)), 0, 0, 63, 9,
        0, 8184, (fl (.stop 0) (.unicast 2 0) 0 none (.loadWrite ⟨0, 63, 9⟩ 0 4 8184 (toBytes 8 0x8000000000000001) false)),
        0x8000000000000001, toBytes 8 0x8000000000000001, (by unfold State.arrived State.flows; decide +kernel)⟩,
    ⟨pk (fl (.unit 192) (.unicast 2 0) 0 none (.readReturn ⟨0, 63, 9⟩ 0 [0, 0, 0,
        0] false true)) ({ (rg [(ringBase 0 .command 63, 0x80000006), (ringBase 0 .command 63 + 4, 0x40000000), (ringBase 0 .completion 5, 0x80000006), (ringBase 0 .completion 5 + 4, 0x40000000), (ringBase 0 .command 63 + 16, 9), (Reg.MGT_WIN_CFG 0 15, 0x80000003), (Reg.MGT_WIN_SIZE_LO 0 15, 8192), (Reg.MGT_HBM_REGION_SIZE 15, 1), (Reg.MEM_HBM_STATUS 0, 8)]) with atts := [(0, { Att.init with present := true, linkUp := true, descs := [(dsc 1 0 0 0 0 262140 4 [] true 0)] })] }),
        0, 0, 63, 0, (dsc 1 0 0 0 0 262140 4 [] true 0), (fl (.unit 192) (.unicast 2 0) 0 none (.readReturn ⟨0, 63, 9⟩ 0 [0, 0,
        0, 0] false true)), 0, [0, 0, 0, 0], false, (by unfold State.arrived State.flows State.rings; decide +kernel)⟩,
    ⟨pk (fl (.unit 192) (.unicast 2 0) 0 none (.readReturn ⟨0, 63, 9⟩ 0x3FFFC [1, 2, 3,
        4] false false)) ({ (rg [(ringBase 0 .command 63, 0x80000006), (ringBase 0 .command 63 + 4, 0x40000000), (ringBase 0 .completion 5, 0x80000006), (ringBase 0 .completion 5 + 4, 0x40000000), (ringBase 0 .command 63 + 16, 9), (Reg.MGT_WIN_CFG 0 15, 0x80000003), (Reg.MGT_WIN_SIZE_LO 0 15, 8192), (Reg.MGT_HBM_REGION_SIZE 15, 1), (Reg.MEM_HBM_STATUS 0, 8)]) with atts := [(0, { Att.init with present := true, linkUp := true, descs := [(dsc 2 0 0 0 0 262140 4 [] true 4)] })] }),
        0, 0, 63, 0, (dsc 2 0 0 0 0 262140 4 [] true 4), (fl (.unit 192) (.unicast 2 0) 0 none (.readReturn ⟨0, 63,
        9⟩ 0x3FFFC [1, 2, 3, 4] false false)), [1, 2, 3, 4], false,
        (by unfold State.arrived State.flows State.rings; decide +kernel)⟩,
    ⟨pk (fl (.unit 192) (.unicast 2 0) 0 none (.readReturn ⟨0, 63, 9⟩ 0x3FFFC [1, 2, 3,
        4] false false)) ({ (rg [(ringBase 0 .command 63, 0x80000006), (ringBase 0 .command 63 + 4, 0x40000000), (ringBase 0 .completion 5, 0x80000006), (ringBase 0 .completion 5 + 4, 0x40000000), (ringBase 0 .command 63 + 16, 9), (Reg.MGT_WIN_CFG 0 15, 0x80000003), (Reg.MGT_WIN_SIZE_LO 0 15, 8192), (Reg.MGT_HBM_REGION_SIZE 15, 1), (Reg.MEM_HBM_STATUS 0, 8)]) with atts := [(0, { Att.init with present := true, linkUp := true, descs := [(dsc 2 0 0 0 0 262140 8 [] true 8)] })] }),
        0, 0, 63, 0, (dsc 2 0 0 0 0 262140 8 [] true 8), (fl (.unit 192) (.unicast 2 0) 0 none (.readReturn ⟨0, 63,
        9⟩ 0x3FFFC [1, 2, 3, 4] false false)), [1, 2, 3, 4], (by unfold State.arrived State.flows; decide +kernel)⟩⟩

theorem witness_EnableAndDisable :
    (∃ (s : State) (a : Nat) (k : Nat) (v : Word), a < 8 ∧ k < 64 ∧ s.access a (Reg.HIF_PART_CTRL k) = .ok ∧ tst v 30 = false
        ∧ (s.pstate k = psDisabled ∨ s.pstate k = psRefused)) ∧
    (∃ (s : State) (a : Nat) (k : Nat) (v : Word), a < 8 ∧ k < 64 ∧ s.access a (Reg.HIF_PART_CTRL k) = .ok ∧ tst v 30 = false
        ∧ s.pstate k = psRunning) ∧
    (∃ (s : State) (k : Nat) (rs d : Nat), k < 64 ∧ s.pstate k = psChecking ∧ s.enableCheck k = some (rs, d)) ∧
    (∃ (s : State) (k : Nat), k < 64 ∧ s.pstate k = psChecking ∧ s.enableCheck k = none ∧ (∀ e ∈ s.forwards, e.1 < 9216) ∧
      (∀ f ∈ s.waiting, f.inPort ≤ 6)) ∧
    (∃ (s : State) (a : Nat) (k : Nat) (v : Word), a < 8 ∧ k < 64 ∧ s.access a (Reg.HIF_PART_CTRL k) = .ok ∧ tst v 31 = false
        ∧ s.pstate k = psStopped ∧ s.passing k = false) ∧
    (∃ (s : State) (a : Nat) (k : Nat) (v : Word), a < 8 ∧ k < 64 ∧ s.access a (Reg.HIF_PART_CTRL k) = .ok ∧ tst v 31 = false
        ∧ s.pstate k = psRunning ∧ (s.part k).applying = 0 ∧ s.passing k = true) ∧
    (∃ (s : State) (a : Nat) (k : Nat) (v : Word) (n : _), a < 8 ∧ k < 64 ∧ s.access a (Reg.HIF_PART_CTRL k) = .ok
        ∧ tst v 31 = false ∧ s.pstate k = psRunning ∧ (s.part k).applying = 0 ∧ (s.part k).openStep = some n
        ∧ s.passing k = false) ∧
    (∃ (s : State) (a : Nat) (k : Nat) (v : Word), a < 8 ∧ k < 64 ∧ s.access a (Reg.HIF_PART_CTRL k) = .ok ∧ tst v 31 = false
        ∧ s.pstate k = psRunning ∧ (s.part k).applying ≠ 0) :=
  ⟨⟨rg [(Reg.HIF_PART_STATUS 0, 0), (Reg.TB_REF_LO, 5)], 0, 0, 0x80000000, (by decide +kernel)⟩,
    ⟨rdy, 0, 0, 0x80000000, (by decide +kernel)⟩,
    by
      have h : (0x01, 0) ∈ (rg [(Reg.HIF_PART_STATUS 5, 0x20000000)]).enableFails 5 := by
        unfold State.enableFails
        simp only [List.append_assoc]
        exact List.mem_append_left _ (by decide +kernel)
      obtain ⟨rs, d, hf⟩ := firstFail_of_mem h
      exact ⟨_, 5, rs, d, by decide, by decide +kernel, hf⟩,
    ⟨chkSt, 0, by decide, by decide +kernel, chkSt_clean, by decide +kernel, by decide +kernel⟩,
    ⟨rg [(Reg.HIF_PART_STATUS 0, 0x80000000)], 0, 0, 0, (by decide +kernel)⟩,
    ⟨(rg [(Reg.PLS_RNG_KEY 0 0, 0x80000005), (Reg.PLS_RNG_CNT 0 0, 1)]).updGrove 0 fun g => { g with plsPass := true }, 0, 0, 0,
        (by decide +kernel)⟩,
    ⟨pk (fl (.router 0) (.unicast 1 0) 0 (some 3) .badOpcode) (rdy.updPart 0 fun q => { q with openStep := some 7 }), 0, 0, 0, 7,
        (by decide +kernel)⟩,
    ⟨rdy.updPart 0 fun q => { q with applying := 2, openStep := some 7 }, 0, 0, 0, (by decide +kernel)⟩⟩

theorem witness_PowerAndBanks :
    (∃ (s : State) (a : Nat) (addr : Nat) (d : Dom) (v : Word), a < 8 ∧ Dom.ofAddr addr = some d ∧ s.fuses.hasDom d = true
        ∧ addr = d.base ∧ addr < 0x4000000 ∧ s.access a addr = .ok ∧ fld v 0 2 = 3) ∧
    (∃ (s : State) (a : Nat) (addr : Nat) (d : Dom) (v : Word), a < 8 ∧ Dom.ofAddr addr = some d ∧ s.fuses.hasDom d = true
        ∧ addr = d.base ∧ addr < 0x4000000 ∧ s.access a addr = .ok ∧ fld v 0 2 = 2 ∧ s.refusal d 2 = pcNone ∧ s.pw d = pwOn
        ∧ s.stage d = none ∧ (∀ p, d = .mem p → s.pw (.logic p) ≠ pwEntering)) ∧
    (∃ (s : State) (a : Nat) (addr : Nat) (d : Dom) (v : Word), a < 8 ∧ Dom.ofAddr addr = some d ∧ s.fuses.hasDom d = true
        ∧ addr = d.base ∧ addr < 0x4000000 ∧ s.access a addr = .ok ∧ fld v 0 2 = 0 ∧ s.refusal d 0 = pcNone ∧ s.pw d = pwOff
        ∧ d.needs = []) ∧
    (∃ (s : State) (a : Nat) (addr : Nat) (d : Dom) (n : _) (x : _), a < 8 ∧ Dom.ofAddr addr = some d ∧ s.fuses.hasDom d = true
        ∧ s.pw d = pwEntering ∧ s.stage d = some (n, x) ∧ 0 < n ∧ n < 4 ∧ s.heldReq d ≠ 1) ∧
    (∃ (s : State) (a : Nat) (addr : Nat) (d : Dom) (n : _) (x : _), a < 8 ∧ Dom.ofAddr addr = some d ∧ s.fuses.hasDom d = true
        ∧ s.pw d = pwEntering ∧ s.stage d = some (n, x) ∧ 0 < n ∧ n < 4 ∧ s.heldReq d = 1) ∧
    (∃ (s : State) (a : Nat) (addr : Nat) (d : Dom), a < 8 ∧ Dom.ofAddr addr = some d ∧ s.fuses.hasDom d = true
        ∧ s.pw d = pwEntering ∧ s.stage d = some (4, 2) ∧ s.heldReq d = 0 ∧ (∃ x, d = .mem x ∨ d = .sync x ∨ d = .pls x)) ∧
    (∃ (s : State) (a : Nat) (addr : Nat) (d : Dom) (p : _), a < 8 ∧ Dom.ofAddr addr = some d ∧ s.fuses.hasDom d = true
        ∧ d = .router p ∧ s.pw d = pwEntering ∧ s.stage d = some (4, 2) ∧ s.heldReq d = 0) ∧
    (∃ (s : State) (a : Nat) (addr : Nat) (d : Dom), a < 8 ∧ Dom.ofAddr addr = some d ∧ s.fuses.hasDom d = true
        ∧ s.pw d = pwAborting ∧ s.heldReq d = 0 ∧ (∀ p, d = .logic p → s.pw (.mem p) ≠ pwEntering)) ∧
    (∃ (s : State) (a : Nat) (addr : Nat) (d : Dom) (p : _), a < 8 ∧ Dom.ofAddr addr = some d ∧ s.fuses.hasDom d = true
        ∧ d = .mem p ∧ s.pw d = pwWaking ∧ s.stage d = some (0, 1) ∧ s.heldReq d = 0 ∧ (s.grove (p / 144)).replay = none) ∧
    (∃ (s : State) (a : Nat) (addr : Nat) (d : Dom) (p : _), a < 8 ∧ Dom.ofAddr addr = some d ∧ s.fuses.hasDom d = true
        ∧ d = .mem p ∧ s.pw d = pwWaking ∧ s.stage d = some (0, 2) ∧ s.heldReq d = 0 ∧ (s.grove (p / 144)).replay = none) ∧
    (∃ (s : State) (a : Nat) (p : Nat) (b : Nat) (v : Word), a < 8 ∧ p < 9216 ∧ b < 16
        ∧ s.access a (Reg.MEM_BANK_OWNER p b) = .ok ∧ fld v 0 16 ≠ s.rf (Reg.MEM_BANK_OWNER p b) 0 16) ∧
    (∃ (s : State) (a : Nat) (p : Nat) (b : Nat) (v : Word), a < 8 ∧ p < 9216 ∧ b < 16
        ∧ s.access a (Reg.MEM_BANK_OWNER p b) = .ok ∧ fld v 0 16 = s.rf (Reg.MEM_BANK_OWNER p b) 0 16
        ∧ s.ownsGrove a (p / 144) = true ∧ s.groveEnabled (p / 144) = false ∧ s.nextOwner p b = ownCore ∧ fld v 30 2 = ownLoader)
        ∧
    (∃ (s : State) (a : Nat) (p : Nat) (b : Nat) (v : Word), a < 8 ∧ p < 9216 ∧ b < 16
        ∧ s.access a (Reg.MEM_BANK_OWNER p b) = .ok ∧ fld v 0 16 = s.rf (Reg.MEM_BANK_OWNER p b) 0 16
        ∧ s.groveEnabled (p / 144) = true) ∧
    (∃ (s : State) (a : Nat) (p : Nat) (b : Nat) (own : _), a < 8 ∧ p < 9216 ∧ b < 16 ∧ own < 4
        ∧ (s.core p).handover.find? (·.1 == b) = some (b, own)) :=
  ⟨⟨rdy, 0, coreReg 143 0xE10, .mem 143, 3, (by decide +kernel)⟩,
    ⟨rg [(coreReg 143 0xE14, 0x0), (coreReg 143 0xE04, 0x40000000), (Reg.INT_PHYS_STATE 143, 0x20000000), (Reg.HIF_PART_STATUS 0,
        0)], 0, coreReg 143 0xE10, .mem 143, 2, (by decide +kernel), (by decide +kernel), (by decide +kernel),
        (by decide +kernel), (by decide +kernel), (by decide +kernel), (by decide +kernel), (by decide +kernel),
        (by decide +kernel), (by decide +kernel), (by intro p h; cases h <;> decide +kernel)⟩,
    ⟨rg [(coreReg 143 0xE14, 0x40000000)], 0, coreReg 143 0xE10, .mem 143, 0, (by decide +kernel)⟩,
    ⟨{ (rg [(coreReg 143 0xE14, 0x60000000)]) with pwrStage := [(Dom.base (.mem 143), some (3, 2))] }, 0, coreReg 143 0xE10,
        .mem 143, 3, 2, (by decide +kernel)⟩,

           ⟨{ (rg [(coreReg 143 0xE14, 0x60000000)]) with pwrStage := [(Dom.base (.mem 143), some (1, 2))], pwrHeld := [(Dom.base (.mem 143), 1)] },
        0, coreReg 143 0xE10, .mem 143, 1, 2, (by decide +kernel)⟩,
    ⟨{ (rg [(coreReg 143 0xE14, 0x60000000)]) with pwrStage := [(Dom.base (.mem 143), some (4, 2))] }, 0, coreReg 143 0xE10,
        .mem 143, (by decide +kernel), (by decide +kernel), (by decide +kernel), (by decide +kernel), (by decide +kernel),
        (by decide +kernel), ⟨143, .inl rfl⟩⟩,
    ⟨{ rg [(Dom.base (.router 143) + 4, 2 ^ 29 * 3)] with pwrStage := [(Dom.base (.router 143), some (4, 2))] }, 0,
        Dom.base (.router 143), .router 143, 143, (by decide +kernel)⟩,
    ⟨{ (rg [(coreReg 143 0xE14, 0xa0000000)]) with pwrStage := [(Dom.base (.mem 143), some (1, 2))] }, 0, coreReg 143 0xE10,
        .mem 143, (by decide +kernel), (by decide +kernel), (by decide +kernel), (by decide +kernel), (by decide +kernel),
        (by intro p h; cases h <;> decide +kernel)⟩,
    ⟨{ (rg [(coreReg 143 0xE14, 0x80000000)]) with pwrStage := [(Dom.base (.mem 143), some (0, 1))] }, 0, coreReg 143 0xE10,
        .mem 143, 143, (by decide +kernel)⟩,
    ⟨mw 143 [(0x3FFFC, 7)] ({ (rg [(coreReg 143 0xE14, 0x80000000)]) with pwrStage := [(Dom.base (.mem 143), some (0, 2))] }), 0,
        coreReg 143 0xE10, .mem 143, 143, (by decide +kernel)⟩,
    ⟨rg [(coreReg 143 0xE04, 0), (coreReg 143 0xE14, 0), (Reg.MEM_BANK_OWNER 143 15, 5)], 0, 143, 15, 0, (by decide +kernel)⟩,
    ⟨rg [(coreReg 143 0xE04, 0), (coreReg 143 0xE14, 0), (Reg.MEM_BANK_OWNER 143 15, 0xFFFF), (Reg.HIF_PART_STATUS 0, 0)], 0,
        143, 15, 0x4000FFFF, (by decide +kernel)⟩,
    ⟨rg [(coreReg 143 0xE04, 0), (coreReg 143 0xE14, 0), (Reg.MEM_BANK_OWNER 143 15, 5)], 0, 143, 15, 0x40000005,
        (by decide +kernel)⟩,
    ⟨(rg [(Reg.MEM_BANK_OWNER 143 15, 0x20000005)]).updCore 143 fun c => { c with handover := [(15, 3)] }, 0, 143, 15, 3,
        (by decide +kernel)⟩⟩

theorem witness_RequestsAnswered :
    (∃ (s : State) (path : Nat) (msg : List Byte) (m : List Byte) (party : Nat), s.asks path msg opGetStatus m party
        ∧ emPayload m = []) ∧
    (∃ (s : State) (path : Nat) (msg : List Byte) (m : List Byte) (party : Nat), s.asks path msg opGetRecords m party
        ∧ emPayload m = []) ∧
    (∃ (s : State) (path : Nat) (msg : List Byte) (m : List Byte) (party : Nat) (v : _), s.asks path msg opDevcfg m party
        ∧ (emPayload m).length = 8 ∧ cfgPairs (emPayload m) = [(Reg.INT_SCRUB_CFG, v)] ∧ v ≠ 0
        ∧ noReserved Reg.INT_SCRUB_CFG v = true) ∧
    (∃ (s : State) (path : Nat) (msg : List Byte) (m : List Byte) (party : Nat), s.asks path msg opDevcfg m party
        ∧ (emPayload m).length = 8 ∧ cfgPairs (emPayload m) = [(Reg.INT_SCRUB_CFG, 0)]) ∧
    (∃ (s : State) (path : Nat) (msg : List Byte) (m : List Byte) (party : Nat), s.asks path msg opPatternPush m party
        ∧ emNum (emPayload m) 0 4 = 0 ∧ 0 < emNum (emPayload m) 4 2 ∧ emNum (emPayload m) 4 2 ≤ 1024
        ∧ (emPayload m).length = 8 + emNum (emPayload m) 4 2 ∧ emNum (emPayload m) 6 1 = 0 ∧ emNum (emPayload m) 7 1 = 0
        ∧ 0 < s.flash.mib ∧ emNum (emPayload m) 4 2 ≤ s.flash.slotBytes) ∧
    (∃ (s : State) (path : Nat) (msg : List Byte) (m : List Byte) (party : Nat) (p : _) (off : _) (n : _),
        s.asks path msg opReadCoreMem m party ∧ (emPayload m).length = 8 ∧ p = emNum (emPayload m) 0 2
        ∧ off = emNum (emPayload m) 2 4 ∧ n = emNum (emPayload m) 6 2 ∧ 8 ≤ n ∧ n ≤ 1024 ∧ n % 8 = 0 ∧ p < 9216
        ∧ s.role p = roleFenced ∧ off + n ≤ 0x40000 ∧ s.memOn p = true ∧ s.badWords p off n = [] ∧ (∀ b,
        b < 16 → s.bankFor p b ownCore = true)) ∧
    (∃ (s : State) (path : Nat) (msg : List Byte) (m : List Byte) (party : Nat) (p : _), s.asks path msg opReadCoreMem m party
        ∧ (emPayload m).length = 8 ∧ p = emNum (emPayload m) 0 2 ∧ 8 ≤ emNum (emPayload m) 6 2 ∧ emNum (emPayload m) 6 2 ≤ 1024
        ∧ emNum (emPayload m) 6 2 % 8 = 0 ∧ s.role p ≠ roleFenced) ∧
    (∃ (s : State) (path : Nat) (msg : List Byte) (m : List Byte) (party : Nat), s.asks path msg opMgmtNet m party
        ∧ (emPayload m).length = 58) ∧
    (∃ (s : State) (path : Nat) (msg : List Byte) (m : List Byte) (f : _), s.incoming path msg = (some m, s) ∧ 8 ≤ path
        ∧ s.fuses.life ≠ lcBlank ∧ emRow m = opLifecycle ∧ emNum m 1 1 = emRequest ∧ emFormed false m = true ∧ emSigned m = true
        ∧ s.pins.devReady = true ∧ s.mgt.changed = false ∧ s.bit Reg.MGT_TAMPER 31 = false ∧ (emPayload m).length = 17
        ∧ emNum (emPayload m) 0 1 ≤ 4 ∧ emNum (emPayload m) 1 16 = s.fuses.deviceId
        ∧ s.fuses.change (emNum (emPayload m) 0 1) = some f) :=
  ⟨⟨{ (rdy) with fuses := { Fuses.full with life := 0 } }, 8, emTrailer (emMessage emRequest opGetStatus 0 7 0 ([])),
      (emMessage emRequest opGetStatus 0 7 0 ([])), 8, asks_of (by decide +kernel), (by decide +kernel)⟩,
    ⟨{ (rdy) with fuses := { Fuses.full with life := 0 } }, 8, emTrailer (emMessage emRequest opGetRecords 0 7 0 ([])),
        (emMessage emRequest opGetRecords 0 7 0 ([])), 8, asks_of (by decide +kernel), (by decide +kernel)⟩,
    ⟨{ (rdy) with fuses := { Fuses.full with life := 0 } }, 8,
        emTrailer (emMessage emRequest opDevcfg 0 7 0 (toBytes 4 Reg.INT_SCRUB_CFG ++ toBytes 4 77)),
        (emMessage emRequest opDevcfg 0 7 0 (toBytes 4 Reg.INT_SCRUB_CFG ++ toBytes 4 77)), 8, 77, asks_of (by decide +kernel),
        (by decide +kernel)⟩,
    ⟨{ (rdy) with fuses := { Fuses.full with life := 0 } }, 8,
        emTrailer (emMessage emRequest opDevcfg 0 7 0 (toBytes 4 Reg.INT_SCRUB_CFG ++ toBytes 4 0)),
        (emMessage emRequest opDevcfg 0 7 0 (toBytes 4 Reg.INT_SCRUB_CFG ++ toBytes 4 0)), 8, asks_of (by decide +kernel),
        (by decide +kernel)⟩,
    ⟨{ ({ (rdy) with fuses := { Fuses.full with life := 0 } }) with flash := ⟨1, [], [], false⟩ }, 8,
        emTrailer (emMessage emRequest opPatternPush 0 7 0 (toBytes 4 0 ++ toBytes 2 3 ++ [0, 0, 1, 2, 3])),
        (emMessage emRequest opPatternPush 0 7 0 (toBytes 4 0 ++ toBytes 2 3 ++ [0, 0, 1, 2, 3])), 8,
        asks_of (by decide +kernel), (by decide +kernel)⟩,

           ⟨{ (rg [(coreReg 143 0xE04, 0), (coreReg 143 0xE14, 0), (Reg.INT_PHYS_STATE 143, 0x30000000)]) with fuses := { Fuses.full with life := 0 } },
        8, emTrailer (emMessage emRequest opReadCoreMem 0 7 0 (toBytes 2 143 ++ toBytes 4 (0x40000 - 8) ++ toBytes 2 8)),
        (emMessage emRequest opReadCoreMem 0 7 0 (toBytes 2 143 ++ toBytes 4 (0x40000 - 8) ++ toBytes 2 8)), 8, 143, 0x3FFF8, 8,
        asks_of (by decide +kernel), (by decide +kernel)⟩,
    ⟨{ (rg [(coreReg 143 0xE04, 0), (coreReg 143 0xE14, 0)]) with fuses := { Fuses.full with life := 0 } }, 8,
        emTrailer (emMessage emRequest opReadCoreMem 0 7 0 (toBytes 2 143 ++ toBytes 4 (0x40000 - 8) ++ toBytes 2 8)),
        (emMessage emRequest opReadCoreMem 0 7 0 (toBytes 2 143 ++ toBytes 4 (0x40000 - 8) ++ toBytes 2 8)), 8, 143,
        asks_of (by decide +kernel), (by decide +kernel)⟩,
    ⟨{ (rdy) with fuses := { Fuses.full with life := 0 } }, 8,
        emTrailer (emMessage emRequest opMgmtNet 0 7 0 (toBytes 4 0x0A000001 ++ toBytes 16 5 ++ toBytes 2 99 ++ List.replicate 36 0)),
        (emMessage emRequest opMgmtNet 0 7 0 (toBytes 4 0x0A000001 ++ toBytes 16 5 ++ toBytes 2 99 ++ List.replicate 36 0)), 8,
        asks_of (by decide +kernel), (by decide +kernel)⟩,
    ⟨rdy, 8,
        emTrailer (let m := emMessage emRequest opLifecycle 0 7 0 ([3] ++ toBytes 16 0) ++ List.replicate 192 0; (m.set 7 1).set 2 (BitVec.ofNat 8 m.length)),
        (let m := emMessage emRequest opLifecycle 0 7 0 ([3] ++ toBytes 16 0) ++ List.replicate 192 0; (m.set 7 1).set 2 (BitVec.ofNat 8 m.length)),
        (((rdy : State)).fuses.change (emNum (emPayload (((let m := emMessage emRequest opLifecycle 0 7 0 ([3] ++ toBytes 16 0) ++ List.replicate 192 0; (m.set 7 1).set 2 (BitVec.ofNat 8 m.length)) : List Byte))) 0 1)).getD ((rdy : State)).fuses,
        (by decide +kernel)⟩⟩

theorem witness_ChangesNeedTwoParties :
    (∃ (s : State) (path : Nat) (msg : List Byte) (m : List Byte) (party : Nat), s.asks path msg opStage m party
        ∧ s.fuses.life ≠ lcReturned ∧ (changeOf (emPayload m)).formed (emPayload m) = true
        ∧ s.eligible (changeOf (emPayload m)) party = true ∧ s.changeFail (changeOf (emPayload m)) = emOk ∧ (∀ j,
        j < 8 → s.slot j = none)) ∧
    (∃ (s : State) (path : Nat) (msg : List Byte) (m : List Byte) (party : Nat), s.asks path msg opStage m party
        ∧ s.fuses.life ≠ lcReturned ∧ (changeOf (emPayload m)).formed (emPayload m) = true
        ∧ s.eligible (changeOf (emPayload m)) party = false) ∧
    (∃ (s : State) (path : Nat) (msg : List Byte) (m : List Byte) (party : Nat) (i : _) (x : _),
        s.asks path msg opConfirm m party ∧ (emPayload m).length = 12 ∧ s.slotOf (emNum (emPayload m) 0 4) = some (i, x)
        ∧ s.arrivedAt path < x.deadline ∧ s.pairFail (changeOf x.record) x.party party = emOk
        ∧ emNum (emPayload m) 4 8 = stageDigest s.bootNonce (emNum (emPayload m) 0 4) x.record
        ∧ (changeOf x.record).kind = kPartOwner ∧ (changeOf x.record).part < 64 ∧ (changeOf x.record).attach < 8
        ∧ s.changeFail (changeOf x.record) = emOk) ∧
    (∃ (s : State) (path : Nat) (msg : List Byte) (m : List Byte) (party : Nat) (i : _) (x : _),
        s.asks path msg opConfirm m party ∧ (emPayload m).length = 12 ∧ s.slotOf (emNum (emPayload m) 0 4) = some (i, x)
        ∧ s.arrivedAt path < x.deadline ∧ s.eligible (changeOf x.record) party = true ∧ x.party = party) ∧
    (∃ (s : State) (path : Nat) (msg : List Byte) (m : List Byte) (party : Nat) (i : _) (x : _),
        s.asks path msg opConfirm m party ∧ (emPayload m).length = 12 ∧ s.slotOf (emNum (emPayload m) 0 4) = some (i, x)
        ∧ s.arrivedAt path < x.deadline ∧ s.pairFail (changeOf x.record) x.party party = emOk
        ∧ emNum (emPayload m) 4 8 ≠ stageDigest s.bootNonce (emNum (emPayload m) 0 4) x.record) ∧
    (∃ (s : State) (path : Nat) (msg : List Byte) (m : List Byte) (party : Nat) (i : _) (x : _), s.asks path msg opCancel m party
        ∧ (emPayload m).length = 4 ∧ s.slotOf (emNum (emPayload m) 0 4) = some (i, x) ∧ x.party = party) ∧
    (∃ (s : State) (path : Nat) (msg : List Byte) (m : List Byte) (party : Nat) (i : _) (x : _), s.asks path msg opCancel m party
        ∧ (emPayload m).length = 4 ∧ s.slotOf (emNum (emPayload m) 0 4) = some (i, x) ∧ x.party ≠ party) ∧
    (∃ (s : State) (path : Nat) (msg : List Byte) (m : List Byte) (party : Nat) (i : _) (x : _),
        s.asks path msg opReadStage m party ∧ (emPayload m).length = 4 ∧ s.slotOf (emNum (emPayload m) 0 4) = some (i, x)) ∧
    (∃ (s : State) (i : _) (x : _), i < 8 ∧ s.slot i = some x ∧ x.deadline ≤ s.ref) :=

       ⟨⟨{ ({ (rg [(Reg.HIF_PART_OWNER 63, 0x80000000)]) with fuses := { Fuses.full with life := 0 } }) with atts := [(0, { Att.init with present := true, linkUp := true }), (7, { Att.init with present := true, linkUp := true })] },
      8, emTrailer (emMessage emRequest opStage 0 7 0 (([3, 7, 63, 0] ++ List.replicate 60 0 : List Byte))),
      (emMessage emRequest opStage 0 7 0 (([3, 7, 63, 0] ++ List.replicate 60 0 : List Byte))), 8, asks_of (by decide +kernel),
      (by decide +kernel)⟩,
    ⟨(let m : List Byte := (emMessage emRequest opStage 0 7 0 (([3, 7, 63,
        0] ++ List.replicate 60 0 : List Byte))); let w := (List.range 64).map fun i => (Reg.MGT_MB_REQ 6 i,
        BitVec.ofNat 32 (emNum m (4 * i) 4)); let s := { rg ([(Reg.HIF_PART_OWNER 63, 0x80000000), (Reg.MGT_MB_STATUS 6, 0x40000000)] ++ w) with atts := [(0, { Att.init with present := true, linkUp := true }), (7, { Att.init with present := true, linkUp := true })] }; s.updMgt fun g => { g with goLen := [(6, m.length)], stageId := 3 }),
        6, [], (emMessage emRequest opStage 0 7 0 (([3, 7, 63, 0] ++ List.replicate 60 0 : List Byte))), 6,
        asks_of (by decide +kernel), (by decide +kernel)⟩,
    ⟨(let m : List Byte := (emMessage emRequest opConfirm 0 7 0 (toBytes 4 5 ++ toBytes 8 (stageDigest 0 5 ([3, 7, 63,
        0] ++ List.replicate 60 0 : List Byte)))); let w := (List.range 64).map fun i => (Reg.MGT_MB_REQ 7 i,
        BitVec.ofNat 32 (emNum m (4 * i) 4)); let s := { rg ([(Reg.HIF_PART_OWNER 63, 0x80000000), (Reg.MGT_MB_STATUS 7, 0x40000000)] ++ w) with atts := [(0, { Att.init with present := true, linkUp := true }), (7, { Att.init with present := true, linkUp := true })] }; s.updMgt fun g => { g with goLen := [(7, m.length)], slots := [(2, some ⟨5, 0, ([3, 7, 63, 0] ++ List.replicate 60 0 : List Byte), 10⟩)] }),
        7, [], (emMessage emRequest opConfirm 0 7 0 (toBytes 4 5 ++ toBytes 8 (stageDigest 0 5 ([3, 7, 63,
        0] ++ List.replicate 60 0 : List Byte)))), 7, 2, ⟨5, 0, ([3, 7, 63, 0] ++ List.replicate 60 0 : List Byte), 10⟩,
        asks_of (by decide +kernel), (by decide +kernel)⟩,
    ⟨(let m : List Byte := (emMessage emRequest opConfirm 0 7 0 (toBytes 4 5 ++ toBytes 8 (stageDigest 0 5 ([3, 7, 63,
        0] ++ List.replicate 60 0 : List Byte)))); let w := (List.range 64).map fun i => (Reg.MGT_MB_REQ 0 i,
        BitVec.ofNat 32 (emNum m (4 * i) 4)); let s := { rg ([(Reg.HIF_PART_OWNER 63, 0x80000000), (Reg.MGT_MB_STATUS 0, 0x40000000)] ++ w) with atts := [(0, { Att.init with present := true, linkUp := true }), (7, { Att.init with present := true, linkUp := true })] }; s.updMgt fun g => { g with goLen := [(0, m.length)], slots := [(2, some ⟨5, 0, ([3, 7, 63, 0] ++ List.replicate 60 0 : List Byte), 10⟩)] }),
        0, [], (emMessage emRequest opConfirm 0 7 0 (toBytes 4 5 ++ toBytes 8 (stageDigest 0 5 ([3, 7, 63,
        0] ++ List.replicate 60 0 : List Byte)))), 0, 2, ⟨5, 0, ([3, 7, 63, 0] ++ List.replicate 60 0 : List Byte), 10⟩,
        asks_of (by decide +kernel), (by decide +kernel)⟩,

           ⟨(let m : List Byte := (emMessage emRequest opConfirm 0 7 0 (toBytes 4 5 ++ toBytes 8 6)); let w := (List.range 64).map fun i => (Reg.MGT_MB_REQ 7 i,
        BitVec.ofNat 32 (emNum m (4 * i) 4)); let s := { rg ([(Reg.HIF_PART_OWNER 63, 0x80000000), (Reg.MGT_MB_STATUS 7, 0x40000000)] ++ w) with atts := [(0, { Att.init with present := true, linkUp := true }), (7, { Att.init with present := true, linkUp := true })] }; s.updMgt fun g => { g with goLen := [(7, m.length)], slots := [(2, some ⟨5, 0, ([3, 7, 63, 0] ++ List.replicate 60 0 : List Byte), 10⟩)] }),
        7, [], (emMessage emRequest opConfirm 0 7 0 (toBytes 4 5 ++ toBytes 8 6)), 7, 2, ⟨5, 0, ([3, 7, 63,
        0] ++ List.replicate 60 0 : List Byte), 10⟩, asks_of (by decide +kernel), (by decide +kernel)⟩,

           ⟨(let m : List Byte := (emMessage emRequest opCancel 0 7 0 (toBytes 4 5)); let w := (List.range 64).map fun i => (Reg.MGT_MB_REQ 0 i,
        BitVec.ofNat 32 (emNum m (4 * i) 4)); let s := { rg ([(Reg.HIF_PART_OWNER 63, 0x80000000), (Reg.MGT_MB_STATUS 0, 0x40000000)] ++ w) with atts := [(0, { Att.init with present := true, linkUp := true }), (7, { Att.init with present := true, linkUp := true })] }; s.updMgt fun g => { g with goLen := [(0, m.length)], slots := [(2, some ⟨5, 0, ([3, 7, 63, 0] ++ List.replicate 60 0 : List Byte), 10⟩)] }),
        0, [], (emMessage emRequest opCancel 0 7 0 (toBytes 4 5)), 0, 2, ⟨5, 0, ([3, 7, 63,
        0] ++ List.replicate 60 0 : List Byte), 10⟩, asks_of (by decide +kernel), (by decide +kernel)⟩,

           ⟨(let m : List Byte := (emMessage emRequest opCancel 0 7 0 (toBytes 4 5)); let w := (List.range 64).map fun i => (Reg.MGT_MB_REQ 7 i,
        BitVec.ofNat 32 (emNum m (4 * i) 4)); let s := { rg ([(Reg.HIF_PART_OWNER 63, 0x80000000), (Reg.MGT_MB_STATUS 7, 0x40000000)] ++ w) with atts := [(0, { Att.init with present := true, linkUp := true }), (7, { Att.init with present := true, linkUp := true })] }; s.updMgt fun g => { g with goLen := [(7, m.length)], slots := [(2, some ⟨5, 0, ([3, 7, 63, 0] ++ List.replicate 60 0 : List Byte), 10⟩)] }),
        7, [], (emMessage emRequest opCancel 0 7 0 (toBytes 4 5)), 7, 2, ⟨5, 0, ([3, 7, 63,
        0] ++ List.replicate 60 0 : List Byte), 10⟩, asks_of (by decide +kernel), (by decide +kernel)⟩,

           ⟨(let m : List Byte := (emMessage emRequest opReadStage 0 7 0 (toBytes 4 5)); let w := (List.range 64).map fun i => (Reg.MGT_MB_REQ 7 i,
        BitVec.ofNat 32 (emNum m (4 * i) 4)); let s := { rg ([(Reg.HIF_PART_OWNER 63, 0x80000000), (Reg.MGT_MB_STATUS 7, 0x40000000)] ++ w) with atts := [(0, { Att.init with present := true, linkUp := true }), (7, { Att.init with present := true, linkUp := true })] }; s.updMgt fun g => { g with goLen := [(7, m.length)], slots := [(2, some ⟨5, 0, ([3, 7, 63, 0] ++ List.replicate 60 0 : List Byte), 10⟩)] }),
        7, [], (emMessage emRequest opReadStage 0 7 0 (toBytes 4 5)), 7, 2, ⟨5, 0, ([3, 7, 63,
        0] ++ List.replicate 60 0 : List Byte), 10⟩, asks_of (by decide +kernel), (by decide +kernel)⟩,
    ⟨(rg [(Reg.TB_REF_LO,
        10)]).updMgt fun g => { g with slots := [(2, some ⟨5, 0, ([3, 7, 63, 0] ++ List.replicate 60 0 : List Byte), 10⟩)] }, 2,
        ⟨5, 0, ([3, 7, 63, 0] ++ List.replicate 60 0 : List Byte), 10⟩, (by decide +kernel)⟩⟩

theorem witness_ReportsAndTamper :
    (∃ (s : State) (path : _) (msg : _) (m : _), s.incoming path msg = (some m, s) ∧ emNum m 1 1 = emAck ∧ ackFormed m = true
        ∧ emOpcode m = 0) ∧
    (∃ (s : State) (path : _) (msg : _) (m : _), s.incoming path msg = (some m, s) ∧ emNum m 1 1 = emAck ∧ ackFormed m = true
        ∧ emOpcode m ≠ 0) ∧
    (∃ (s : State) (path : _) (msg : _) (m : _), s.incoming path msg = (some m, s) ∧ emNum m 1 1 = emRequest ∧ emRow m = opStage
        ∧ s.pins.devReady = false) ∧
    (∃ (s : State), s.pins.sysRstN = true ∧ s.mgt.resendAt ≤ s.ref ∧ s.mgt.collectors = []) ∧
    (∃ (s : State) (r : _) (c : _), s.pins.sysRstN = true ∧ s.mgt.resendAt ≤ s.ref ∧ s.mgt.collectors = [c] ∧ c ≠ (0, 0)
        ∧ s.sigs = [r] ∧ s.mgt.notices = []) ∧
    (∃ (s : State) (d : _), d < 5 ∧ s.bit Reg.MGT_TAMPER (8 + d) = true) ∧
    (∃ (s : State) (op : _) (eid : _), s.pins.sysRstN = true ∧ op % 4 < 2 ∧ 8 ≤ eid ∧ eid < 255) ∧
    (∃ (s : State), s.pins.sysRstN = true) ∧
    (∃ (s : State) (addr : _), s.pins.sysRstN = true ∧ addr = s.mgt.ip4 ∧ addr ≠ 0) ∧
    (∃ (s : State) (addr : _), addr ≠ s.mgt.ip4) :=

       ⟨⟨{ rdy with sigs := [⟨1, 5, 6, none, none, none, none, none, 3, []⟩, ⟨1, 5, 6, none, none, none, none, none, 4, []⟩] } |>.updMgt fun g => { g with notices := [⟨1, [], 3, 0⟩, ⟨2, [], 4, 0⟩] },
      8, emTrailer (emMessage emAck 0 0 3 0 ([])), (emMessage emAck 0 0 3 0 ([])), (by decide +kernel)⟩,

           ⟨{ rdy with sigs := [⟨1, 5, 6, none, none, none, none, none, 3, []⟩, ⟨1, 5, 6, none, none, none, none, none, 4, []⟩] } |>.updMgt fun g => { g with notices := [⟨1, [], 3, 0⟩, ⟨2, [], 4, 0⟩] },
        8, emTrailer (emMessage emAck 1 0 3 0 ([])), (emMessage emAck 1 0 3 0 ([])), (by decide +kernel)⟩,
    ⟨{ rdy with pins := { rdy.pins with devReady := false } }, 8, emTrailer (emMessage emRequest opStage 0 7 0 ([])),
        (emMessage emRequest opStage 0 7 0 ([])), (by decide +kernel)⟩,
    ⟨{ (rg [(Reg.TB_REF_LO, 100000000)]) with sigs := [⟨1, 5, 6, none, none, none, none, none, 4, []⟩] }, (by decide +kernel)⟩,

           ⟨{ (rg [(Reg.TB_REF_LO, 100000000)]) with sigs := [⟨1, 5, 6, none, none, none, none, none, 4, []⟩] } |>.updMgt fun g => { g with collectors := [(5, 6)] },
        ⟨1, 5, 6, none, none, none, none, none, 4, []⟩, (5, 6), (by decide +kernel)⟩,
    ⟨rg [(Reg.MGT_TAMPER, 0x1F00), (Reg.MGT_BOOT_NONCE, 9)], 4, (by decide +kernel)⟩,
    ⟨rdy, 1, 254, (by decide +kernel)⟩,
    ⟨rdy, (by decide +kernel)⟩,
    ⟨rdy.updMgt fun g => { g with ip4 := 7 }, 7, (by decide +kernel)⟩,
    ⟨rdy.updMgt fun g => { g with ip4 := 7 }, 8, (by decide +kernel)⟩⟩

theorem witness_TapAndDebug :
    (∃ (s : State), s.pins.sysRstN = true) ∧
    (∃ (s : State), s.debugOpen = true) ∧
    (∃ (s : State) (n : _) (t0 : _), s.debugOpen = true ∧ s.mgt.dbgNonce = some (n, t0) ∧ s.debugLevel < dlFull
        ∧ s.rf Reg.MGT_DEBUG 0 4 < 7) ∧
    (∃ (s : State), s.debugOpen = true ∧ s.debugLevel = dlClosed ∧ s.rf Reg.MGT_DEBUG 0 4 < 7) ∧
    (∃ (s : State) (len : _), s.debugOpen = true ∧ len < 16 ∧ 7 ≤ s.rf Reg.MGT_DEBUG 0 4) ∧
    (∃ (s : State), s.debugOpen = true ∧ s.fuses.life = lcField) ∧
    (∃ (s : State) (n : _) (t0 : _), s.mgt.dbgNonce = some (n, t0) ∧ t0 + 10000000000 ≤ s.ref) ∧
    (∃ (s : State) (addr : _), s.debugOpen = true ∧ s.debugLevel ≠ dlClosed ∧ isMailbox addr = false
        ∧ s.accessBy (fun _ _ => .ok) addr = .ok) ∧
    (∃ (s : State) (k : _), k < 64 ∧ s.debugOpen = true ∧ s.debugLevel = dlFull ∧ s.enabled k = false
        ∧ s.accessBy (fun _ _ => .ok) (Reg.STEP_MAX_STRETCH k) = .ok) ∧
    (∃ (s : State), s.debugLevel ≠ dlFull) ∧
    (∃ (s : State) (p : _) (off : _), s.debugOpen = true ∧ s.debugLevel ≠ dlClosed ∧ s.memOn p = true ∧ off < 0x40000
        ∧ off % 4 = 0 ∧ s.bankFor p (off / 0x4000) ownCore = true) ∧
    (∃ (s : State) (k : _), k < 64 ∧ s.debugOpen = true ∧ s.debugLevel = dlFull ∧ (s.part k).openStep = none) ∧
    (∃ (s : State) (k : _) (n : _), k < 64 ∧ s.debugOpen = true ∧ s.debugLevel = dlFull ∧ (s.part k).openStep = some n) ∧
    (∃ (s : State) (p : _), p < 9216 ∧ s.debugOpen = true ∧ s.debugLevel = dlFull ∧ s.mayHalt p = true ∧ s.logicOn p = true) ∧
    (∃ (s : State) (p : _), p < 9216 ∧ s.debugOpen = true ∧ s.debugLevel = dlFull ∧ (s.core p).halted = true ∧ (∀ c,
        c < 4 → s.chFrozen (coreCh p c) = false)) ∧
    (∃ (s : State) (k : _), k < 64 ∧ s.debugOpen = true ∧ s.debugLevel = dlFull ∧ (∀ c ∈ s.globalsOf k, s.chFrozen c = false)) :=
  ⟨⟨rdy, (by decide +kernel)⟩,
    ⟨rdy, (by decide +kernel)⟩,
    ⟨(rg [(Reg.MGT_DEBUG, 6)]).updMgt fun g => { g with dbgNonce := some (5, 0) }, 5, 0, (by decide +kernel)⟩,
    ⟨rg [(Reg.MGT_DEBUG, 6)], (by decide +kernel)⟩,
    ⟨rg [(Reg.MGT_DEBUG, 7)], 15, (by decide +kernel)⟩,
    ⟨rg [(Reg.MGT_DEBUG, 0x80000000)], (by decide +kernel)⟩,
    ⟨(rg [(Reg.TB_REF_HI, 5)]).updMgt fun g => { g with dbgNonce := some (5, 0) }, 5, 0, (by decide +kernel)⟩,
    ⟨rg [(Reg.MGT_DEBUG, 0x40000000)], Reg.STEP_POLICY 63, (by decide +kernel)⟩,
    ⟨rg [(Reg.MGT_DEBUG, 0x80000000), (Reg.HIF_PART_STATUS 0, 0)], 0, (by decide +kernel)⟩,
    ⟨rg [(Reg.MGT_DEBUG, 0x40000000)], (by decide +kernel)⟩,
    ⟨mw 0 [(0x3FFFC, 9)] (rg [(Reg.MGT_DEBUG, 0x40000000)]), 0, 0x3FFFC, (by decide +kernel)⟩,
    ⟨rg [(Reg.MGT_DEBUG, 0x80000000)], 0, (by decide +kernel)⟩,
    ⟨(rg [(Reg.MGT_DEBUG, 0x80000000)]).updPart 0 fun q => { q with openStep := some 4 }, 0, 4, (by decide +kernel)⟩,
    ⟨rg [(Reg.MGT_DEBUG, 0x80000000), (Reg.HIF_PART_STATUS 0, 0)], 0, (by decide +kernel)⟩,
    ⟨(rg [(Reg.MGT_DEBUG, 0x80000000)]).updCore 0 fun c => { c with halted := true }, 0, (by decide +kernel)⟩,
    ⟨(rg [(Reg.MGT_DEBUG, 0x80000000)]).updPart 0 fun q => { q with halted := true }, 0, (by decide +kernel)⟩⟩

theorem witness_StartUpAndFailures :
    (∃ (s : State), s.pins.sysRstN = false) ∧
    (∃ (s : State), s.pins.sysRstN = true) ∧
    (∃ (s : State), s.pins.sysRstN = true ∧ s.pins.booted = false) ∧
    (∃ (s : State), s.starting = true ∧ s.pins.pwrEnCore = true ∧ s.pins.pgCore = false) ∧
    (∃ (s : State), s.starting = true ∧ s.pins.pgCore = true ∧ s.pins.pwrEnIo = true ∧ s.pins.pgIo = false
        ∧ s.pins.hbmOver ≠ s.fuses.stackMask) ∧
    (∃ (s : State), s.starting = true ∧ s.pins.pgCore = true ∧ s.pins.pwrEnIo = true ∧ s.pins.pgIo = false
        ∧ s.pins.hbmOver = s.fuses.stackMask ∧ s.mgt.heldReqs = []) ∧
    (∃ (s : State) (st : _), s.starting = true ∧ st < 4 ∧ s.pins.hbmEn / 2 ^ st % 2 = 1 ∧ s.pins.pgHbm / 2 ^ st % 2 = 0
        ∧ s.pins.hbmOver / 2 ^ st % 2 = 0 ∧ s.fuses.hasStack st = true ∧ s.pw (.hbm st) = pwOff
        ∧ ({ s with pins := { s.pins with pgHbm := setBit s.pins.pgHbm st } } : State).hbmSettled = true) ∧
    (∃ (s : State) (st : _), st < 4 ∧ s.pw (.hbm st) = pwWaking ∧ s.stage (.hbm st) = some (0, 2)) ∧
    (∃ (s : State) (st : _), st < 4 ∧ s.pw (.hbm st) = pwWaking ∧ s.stage (.hbm st) = some (0, 2) ∧ s.starting = false) ∧
    (∃ (s : State) (st : _), st < 4 ∧ s.pw (.hbm st) = pwWaking ∧ s.stage (.hbm st) = some (1, 2) ∧ s.starting = false
        ∧ s.heldReq (.hbm st) = 0) ∧
    (∃ (s : State), s.starting = true ∧ s.pins.pwrEnIo = true ∧ s.pins.pgIo = false) ∧
    (∃ (s : State), s.pins.devReady = true ∧ s.pins.pgCore = true) ∧
    (∃ (s : State), s.pins.devReady = true ∧ s.pins.pgIo = true) ∧
    (∃ (s : State) (st : _), s.pins.devReady = true ∧ st < 4 ∧ s.pins.pgHbm / 2 ^ st % 2 = 1) ∧
    (∃ (s : State) (reading : _), s.pins.sysRstN = true ∧ s.pins.pgCore = true ∧ s.pins.tripN = true ∧ 120 ≤ reading) ∧
    (∃ (reading : _), reading < 120) :=
  ⟨⟨State.reset, (by decide +kernel)⟩,
    ⟨rdy, (by decide +kernel)⟩,
    ⟨{ State.reset with pins := { Pins.init with sysRstN := true } }, (by decide +kernel)⟩,
    ⟨{ State.reset with pins := { Pins.init with sysRstN := true, booted := true, pwrEnCore := true } }, (by decide +kernel)⟩,

           ⟨{ State.reset with up := true, pins := { Pins.init with sysRstN := true, booted := true, pwrEnCore := true, pgCore := true, pwrEnIo := true } },
        (by decide +kernel)⟩,

           ⟨{ State.reset with up := true, pins := { Pins.init with sysRstN := true, booted := true, pwrEnCore := true, pgCore := true, pwrEnIo := true, hbmOver := 15 } },
        (by decide +kernel)⟩,

           ⟨{ State.reset with up := true, pins := { Pins.init with sysRstN := true, booted := true, pwrEnCore := true, pgCore := true, pwrEnIo := true, pgIo := true, hbmEn := 15, hbmOver := 7 } },
        3, (by decide +kernel)⟩,
    ⟨{ (rg [(Dom.base (.hbm 3) + 4, 2 ^ 29 * 4)]) with pwrStage := [(Dom.base (.hbm 3), some (0, 2))] }, 3, (by decide +kernel)⟩,
    ⟨{ (rg [(Dom.base (.hbm 3) + 4, 2 ^ 29 * 4)]) with pwrStage := [(Dom.base (.hbm 3), some (0, 2))] }, 3, (by decide +kernel)⟩,

           ⟨({ (rg [(Dom.base (.hbm 3) + 4, 2 ^ 29 * 4)]) with pwrStage := [(Dom.base (.hbm 3), some (1, 2))] }).setHbmBytes (4 * stackBytes - 1) [7],
        3, (by decide +kernel)⟩,

           ⟨{ State.reset with up := true, pins := { Pins.init with sysRstN := true, booted := true, pwrEnCore := true, pgCore := true, pwrEnIo := true } },
        (by decide +kernel)⟩,
    ⟨rdy, (by decide +kernel)⟩,
    ⟨rdy, (by decide +kernel)⟩,
    ⟨{ rdy with pins := { rdy.pins with pgHbm := 8, hbmEn := 8 } }, 3, (by decide +kernel)⟩,
    ⟨rdy, 120, (by decide +kernel)⟩,
    ⟨119, (by decide +kernel)⟩⟩

theorem witness_ResetAndTime :
    (∃ (k : _), k < 64) ∧
    (∃ (p : _), p < 9216) ∧
    (∃ (a : _), a < 8) :=
  ⟨⟨63, (by decide +kernel)⟩,
    ⟨9215, (by decide +kernel)⟩,
    ⟨7, (by decide +kernel)⟩⟩

theorem witness_MemoryHoldsWhatIsWritten :
    (∃ (s : State) (p : Nat) (off : Nat) (bs : List Byte), s.poisoned p off bs.length = false) ∧
    (∃ (off : Nat) (bs : List Byte), bs.length = 8 ∧ off % 8 = 0) ∧
    (∃ (s : State) (p : Nat) (off : Nat) (bs : List Byte), bs.length < 8 ∧ off / 8 = (off + bs.length - 1) / 8
        ∧ s.bad p off = true) ∧
    (∃ (a : Nat) (bs : List Byte) (x : _), ¬(a ≤ x ∧ x < a + bs.length)) :=
  ⟨⟨rdy, 0, 0x3FFFC, [1, 2, 3, 4], (by decide +kernel)⟩,
    ⟨0x3FFF8, [1, 2, 3, 4, 5, 6, 7, 8], (by decide +kernel)⟩,
    ⟨{ rdy with poison := [(memKey 0 0x3FFF8, true)] }, 0, 0x3FFFC, [1, 2, 3, 4], (by decide +kernel)⟩,
    ⟨5, [1, 2, 3, 4], 9, (by decide +kernel)⟩⟩


end Sys2Proof.Machine.Tests
end

section
/-! SUPPORT. Every command of the table answers a next state, in every state: no meaning ends in a fault or a refusal. -/
namespace Sys2Proof.Machine

/-- The command completes: its outcome is a next state. -/
def Answers (o : Host.Outcome State Fault Refusal) : Prop := ∃ t, o = .next t

theorem Answers.next (t : State) : Answers (.next t) := ⟨t, rfl⟩

theorem Answers.ite {c : Prop} [Decidable c] {a b : Host.Outcome State Fault Refusal} (ha : Answers a) (hb : Answers b) :
    Answers (if c then a else b) := by
  split
  · exact ha
  · exact hb

/-- By the shape of each meaning: the leaves of its decisions are all next states. -/
theorem exec_answers (c : Instr) (s : State) : Answers (exec c s) := by
  cases c
  -- one `if`: the event can occur in this state, or the command changes nothing (log entry 5)
  case registerWrite | roleFenceWrite | groveFault | stepOpen | coreClockGate | coreWake | hbmTrainingLost |
      routerFault | routerReset | routerResetDone | clearingStart | handlerBudgetExpire | phaseLost | channelArm |
      channelDisarm | compareWrite | intervalWrite | groupStart | stretchLimit | applyStart | endEpoch | scrub |
      cfgDigestPass | testDue | testDeferExpire | functionLevelReset | pcieLinkLoss | perstChange | scanEnable |
      ringEnable | ringDisable | doorbellScan | scanReturn | partitionEnable | partitionDisable | evpLinkDown |
      bankHandover | getEndpointId | getMessageTypeSupport | neighbourRequest | reportResend | tamperFire |
      dbgStatus | dbgChallenge | dbgClose | debugPartitionHalt | debugCoreHalt | sysRstNRise | sysRstNFall |
      mgmtBootDone | pgCoreRise | pgIoRise | pgHbmRise | hbmClearDone | thermalTrip | cvuStart | cvuRunningWrite |
      evpLinkUp | pcieLinkUp =>
    exact .ite (.next _) (.next _)
  -- an `if` inside another
  case reg64LoRead | hostSyncAdd | lineEdge | mainsZeroCross | intTick | sourceAutoReturn | setEndpointId |
      getMctpVersionSupport | getVendorDefinedMessageSupport =>
    exact .ite (.next _) (.ite (.next _) (.next _))
  case ptpFollowTick =>
    exact .ite (.next _) (.ite (.next _) (.ite (.next _) (.next _)))
  case pinStamp =>
    exact .ite (.next _) (.ite (.ite (.next _) (.next _)) (.next _))
  case sequencerFire | pgWaitTimeout =>
    exact .ite (.next _) (.ite (.next _) (.ite (.next _) (.ite (.next _) (.next _))))
  case testDone | ptpEventMessage | dbgPassword | hbmTrainingDone =>
    exact .ite (.ite (.next _) (.next _)) (.next _)
  case debugSetupAccess =>
    exact .ite (.next _) (.ite (.ite (.next _) (.ite (.next _) (.next _))) (.ite (.next _) (.next _)))
  case pgFall =>
    exact .ite (.next _) (.ite (.ite (.next _) (.next _)) (.ite (.ite (.next _) (.next _)) (.ite (.next _) (.next _))))
  case debugResume =>
    exact .ite (.next _) (.ite (.ite (.next _) (.next _)) (.ite (.next _) (.next _)))
  -- a packet is taken from the fabric: none, one of another kind, or one that acts
  case rowRequest | rowHeader | block | canopyPacketArrive | stopReceiveCopy | msg | notify | amArgs | response |
      syncReply | syncAdd | syncWait | syncRead | checkReport | shadowCopy | loadWrite | loadRead | readReturn |
      tapCopyArrive | portTapCopy =>
    dsimp only [exec, execRowRequest, execRowHeader, execBlock, execCanopyPacketArrive, execStopReceiveCopy, execMsg,
        execNotify, execAmArgs, execResponse, execSyncReply, execSyncAdd, execSyncWait, execSyncRead, execCheckReport,
        execShadowCopy, execLoadWrite, execLoadRead, execReadReturn, execTapCopyArrive, execPortTapCopy]
    repeat' with_reducible first | exact .next _ | refine .ite ?_ ?_ | dsimp only | split
  -- what the state holds for the event: nothing, or the entry that it acts on
  case stepOpenIndication | integrationSpanEnd | deferredDeposit | synEventTake | hbmReadReturn |
      denseColumnBlockDone | denseOpDone | linkFlitReceive | linkNack | clearingRun | clearingSwap | clearingTimeout |
      deliveryEvaluate | responseSend | handlerDispatch | sendResponseTimeout | sendwRetryGap | waitqTimeout |
      syncNotifyIssue | bar2SyncWrite | encCount | mainsTick | stampDeliver | lastInjectionDeclare | round |
      groveVerdict | replayCopyDone | replayDone | twinRepairDone | partitionCommit | fenceMigrationDone |
      plsPassDone | applyDone | testMigrate | configRequest | messageTimeout | enableCheckDone | lyletFrameReceive |
      frameTransmit | powerRequest | powerEntryStage | powerAbortDone | powerWakeDone | ack | stageExpire |
      dbgResponse | dbgNonceExpire =>
    dsimp only [exec, execStepOpenIndication, execIntegrationSpanEnd, execDeferredDeposit, execSynEventTake,
        execHbmReadReturn, execDenseColumnBlockDone, execDenseOpDone, execLinkFlitReceive, execLinkNack,
        execClearingRun, execClearingSwap, execClearingTimeout, execDeliveryEvaluate, execResponseSend,
        execHandlerDispatch, execSendResponseTimeout, execSendwRetryGap, execWaitqTimeout, execSyncNotifyIssue,
        execBar2SyncWrite, execEncCount, execMainsTick, execStampDeliver, execLastInjectionDeclare, execRound,
        execGroveVerdict, execReplayCopyDone, execReplayDone, execTwinRepairDone, execPartitionCommit,
        execFenceMigrationDone, execPlsPassDone, execApplyDone, execTestMigrate, execConfigRequest,
        execMessageTimeout, execEnableCheckDone, execLyletFrameReceive, execFrameTransmit, execPowerRequest,
        execPowerEntryStage, execPowerAbortDone, execPowerWakeDone, execAck, execStageExpire, execDbgResponse,
        execDbgNonceExpire]
    repeat' with_reducible first | exact .next _ | refine .ite ?_ ?_ | dsimp only | split
  -- every other meaning is one next state, whatever the state before
  all_goals exact .next _

/-- Settles O2: every meaning answers a next state, and what a meaning answers has the queue it was given. -/
theorem everyCommandCompletes : Obligations.EveryCommandCompletes := by
  intro c s
  obtain ⟨t, ht⟩ := exec_answers c s
  exact ⟨t, ht, (exec_keeps (Keeps.refl s) t ht).pending⟩

end Sys2Proof.Machine
end

section
/-! SUPPORT. Set-up accesses: what the rules of the registers read after each operation, where a set-up address lies, what a write
and a read of a register come to, and the check-value unit. -/
namespace Sys2Proof.Machine

theorem completes_of {c : Instr} {s t : State} {post : State → Prop} (e : exec c s = .next t) (h : post t) :
    completes c s post := ⟨t, e, h⟩

/-! ### Registers after the operations of a set-up write -/

@[simp] theorem State.rd_setHeld (s : State) (key k : Nat) (w : Word) : (s.setHeld key w).rd k = s.rd k := rfl
@[simp] theorem State.rd_holdLo (s : State) (lo k : Nat) (v : Word) : (s.holdLo lo v).rd k = s.rd k := rfl
@[simp] theorem State.rd_dropLo (s : State) (lo k : Nat) : (s.dropLo lo).rd k = s.rd k := rfl

@[simp] theorem State.rd_filtered (s : State) (a addr k : Nat) :
    (s.filtered a addr).rd k = if k = Reg.HIF_FILTER_ADDR a then BitVec.ofNat 32 addr
      else if k = Reg.HIF_FILTERED a then sticky (s.rd (Reg.HIF_FILTERED a)) 1 else s.rd k := by
  simp [State.filtered]

theorem State.rd_maskWrite {s : State} {key : Nat} {d : RegDesc} (hd : regAt key = some d) (v : Word) (locked : Bool) (k : Nat) :
    (s.maskWrite key v locked).rd k = if k = key then d.apply (s.rd key) v locked else s.rd k := by
  simp only [State.maskWrite, hd, State.rd_setHeld, State.rd_wr]

@[simp] theorem State.rd_wr64 (s : State) (lo v k : Nat) :
    (s.wr64 lo v).rd k =
      if k = lo + 4 then BitVec.ofNat 32 (v / 2 ^ 32) else if k = lo then BitVec.ofNat 32 v else s.rd k := by
  simp [State.wr64]

theorem State.rd64_wr64_same (s : State) (lo v : Nat) : (s.wr64 lo v).rd64 lo = v % 2 ^ 64 := by
  simp only [State.rd64, State.rd_wr64, if_true, BitVec.toNat_ofNat]
  rw [if_neg (by omega)]
  simp only [BitVec.toNat_ofNat]
  omega

theorem State.rd64_wr64_other (s : State) {lo k : Nat} (v : Nat) (h : k + 4 < lo ∨ lo + 4 < k) :
    (s.wr64 lo v).rd64 k = s.rd64 k := by
  simp only [State.rd64, State.rd_wr64]
  rw [if_neg (by omega), if_neg (by omega), if_neg (by omega), if_neg (by omega)]

theorem State.rd64_wr_wr (s : State) (k : Nat) (lo hi : Word) :
    ((s.wr k lo).wr (k + 4) hi).rd64 k = lo.toNat + 2 ^ 32 * hi.toNat := by
  simp [State.rd64]

theorem State.rd64_lt (s : State) (k : Nat) : s.rd64 k < 2 ^ 64 := by
  have hlo := (s.rd k).isLt
  have hhi := (s.rd (k + 4)).isLt
  simp only [State.rd64]
  omega

theorem otherRegs_count (s : State) (key n : Nat) : otherRegs [key] s (s.count key n) := fun k hk => by
  rw [State.rd_count, if_neg (List.ne_of_not_mem_cons hk)]

theorem otherRegs_maskWrite {s : State} {key : Nat} {d : RegDesc} (hd : regAt key = some d) (v : Word) (locked : Bool) :
    otherRegs [key] s (s.maskWrite key v locked) := fun k hk => by
  rw [State.rd_maskWrite hd, if_neg (List.ne_of_not_mem_cons hk)]

theorem otherRegs_wr64 (s : State) (lo v : Nat) : otherRegs [lo, lo + 4] s (s.wr64 lo v) := fun k hk => by
  simp only [List.mem_cons, List.not_mem_nil, or_false, not_or] at hk
  rw [State.rd_wr64, if_neg hk.2, if_neg hk.1]

theorem otherRegs_wr_wr (s : State) (k : Nat) (lo hi : Word) : otherRegs [k, k + 4] s ((s.wr k lo).wr (k + 4) hi) :=
  fun j hj => by
    simp only [List.mem_cons, List.not_mem_nil, or_false, not_or] at hj
    rw [State.rd_wr, if_neg hj.2, State.rd_wr, if_neg hj.1]

theorem otherRegs_nil_of_rd_eq {s t : State} {key : Nat} (h : otherRegs [key] s t) (hk : t.rd key = s.rd key) :
    otherRegs [] s t := fun k _ => by
  by_cases e : k = key
  · rw [e, hk]
  · exact h k (by simpa using e)

/-! ### Bits that a write by access type leaves or takes (R16) -/

theorem tst_eq_getLsbD (w : Word) (i : Nat) : tst w i = w.getLsbD i := by
  simp only [tst, fld, BitVec.getLsbD, Nat.testBit_eq_decide_div_mod_eq, pow_one]
  rfl

theorem tst_setFld_bit (w : Word) (i : Nat) (b : Bool) (hi : i < 32) : tst (setFld w i 1 (b2n b)) i = b := by
  rw [tst, fld_setFld_same _ _ _ _ (by omega)]
  cases b <;> rfl

theorem fld_or_of_mod_eq_zero (v c : Word) (n : Nat) (h : c.toNat % 2 ^ n = 0) : fld (v ||| c) 0 n = fld v 0 n := by
  simp [fld, BitVec.toNat_or, Nat.or_mod_two_pow, h]

/-- Where every bit is RW or RWL and nothing is locked, the register takes the word written. -/
theorem RegDesc.apply_unlocked_eq {d : RegDesc} (h : BitVec.ofNat 32 (d.rw ||| d.rwl) = BitVec.allOnes 32) (hc : d.w1c = 0)
    (old v : Word) : d.apply old v false = v := by
  simp only [RegDesc.apply, h, hc, Bool.false_eq_true, if_false, BitVec.not_allOnes, BitVec.and_zero, BitVec.zero_or,
    BitVec.and_allOnes, BitVec.not_zero]

/-- Where no bit can be written but those of W1C, these are cleared by a 1 and nothing else changes. -/
theorem RegDesc.apply_no_rw {d : RegDesc} {locked : Bool} (h : d.rw = 0) (hl : locked = true ∨ d.rwl = 0) (old v : Word) :
    d.apply old v locked = old &&& ~~~(v &&& BitVec.ofNat 32 d.w1c) := by
  have hm : (if locked then d.rw else d.rw ||| d.rwl) = 0 := by rcases hl with rfl | hl <;> simp [*]
  simp only [RegDesc.apply, hm, BitVec.not_zero, BitVec.and_zero, BitVec.or_zero, BitVec.and_allOnes]

/-- Where nothing at all can be written, the register keeps what it holds. -/
theorem RegDesc.apply_read_only {d : RegDesc} {locked : Bool} (h : d.rw = 0) (hl : locked = true ∨ d.rwl = 0) (hc : d.w1c = 0)
    (old v : Word) : d.apply old v locked = old := by
  rw [RegDesc.apply_no_rw h hl, hc, BitVec.and_zero, BitVec.not_zero, BitVec.and_allOnes]

theorem RegDesc.getLsbD_apply_rw {d : RegDesc} (hc : d.w1c = 0) (old v : Word) (locked : Bool) {i : Nat} (hi : i < 32)
    (hrw : d.rw.testBit i = true) : (d.apply old v locked).getLsbD i = v.getLsbD i := by
  have hm : (BitVec.ofNat 32 (if locked then d.rw else d.rw ||| d.rwl)).getLsbD i = true := by
    split <;> simp [BitVec.getLsbD_ofNat, hi, hrw]
  simp only [RegDesc.apply, BitVec.getLsbD_and, BitVec.getLsbD_or, BitVec.getLsbD_not, hm, hc]
  simp [hi]

/-! ### Where set-up addresses lie (R29 to R31)

Each fact about a register with a symbolic number goes through `locate` of a key that is a variable: unfolding `locate` at such an
address makes the kernel count in unary. -/

theorem regAt_of_locate {key o : Nat} {b : Blk} (hl : locate key = some (b, o)) : regAt key = findReg b o := by
  simp only [regAt, hl]

theorem locate_coreReg {p off : Nat} (hp : p < 9216) (ho : off < 0x1000) :
    locate (coreReg p off) = some (.core p, off) := by
  have hm : coreReg p off % 0x100000000 = coreReg p off := by unfold coreReg; omega
  unfold locate
  rw [if_neg (by unfold coreReg; omega)]
  dsimp only
  rw [hm, if_pos (by unfold coreReg; omega), if_pos (by unfold coreReg; omega)]
  unfold coreReg
  congr 3 <;> omega

theorem locate_tb {o : Nat} (ho : o < 0x1000000) : locate (0x4000000 + o) = some (.tb, o) := by
  have hm : (0x4000000 + o) % 0x100000000 = 0x4000000 + o := by omega
  unfold locate
  rw [if_neg (by omega)]
  dsimp only
  rw [hm, if_neg (by omega), if_pos (by omega), Nat.add_sub_cancel_left]

theorem RegDesc.lt_of_covers {d : RegDesc} {o : Nat} (hs : 0 < d.stride) (h : d.covers o = true) :
    o < d.off + d.count * d.stride := by
  simp only [RegDesc.covers, Bool.and_eq_true, decide_eq_true_eq] at h
  have := (Nat.div_lt_iff_lt_mul hs).1 h.2
  omega

/-- An attachment's own view ends below offset 0x80000 of the host interface. -/
theorem findReg_att_eq_none {o : Nat} (ho : 0x80000 ≤ o) : findReg .att o = none := by
  have hrows : ∀ d ∈ RegTab.att, 0 < d.stride ∧ d.off + d.count * d.stride ≤ 0x80000 := by decide
  refine List.find?_eq_none.2 fun d hd hc => ?_
  obtain ⟨hs, hle⟩ := hrows d hd
  have := RegDesc.lt_of_covers hs hc
  omega

theorem locate_hif {o : Nat} (ho : 0x80000 ≤ o) (h : o < 0x1000000) : locate (0x6000000 + o) = some (.hif, o) := by
  have hm : (0x6000000 + o) % 0x100000000 = 0x6000000 + o := by omega
  unfold locate
  rw [if_neg (by omega)]
  dsimp only
  rw [hm, if_neg (by omega), if_neg (by omega), if_neg (by omega), if_pos (by omega), Nat.add_sub_cancel_left,
    findReg_att_eq_none ho]
  rfl

/-- The sync-object window, which the model counts after the set-up space, holds no set-up register. -/
theorem locate_bar2 {addr : Nat} (h : bar2Base ≤ addr) (h' : addr < bar2Base + 2 ^ 22) : locate addr = none := by
  unfold bar2Base at h h'
  have hm : addr % 0x100000000 = addr := by omega
  unfold locate
  rw [if_neg (by omega)]
  dsimp only
  rw [hm, if_neg (by omega), if_neg (by omega), if_neg (by omega), if_neg (by omega), if_neg (by omega), if_neg (by omega),
    if_neg (by omega), if_neg (by omega), if_neg (by omega), if_neg (by omega)]

theorem chKey_global {ch : Nat} (h : ch < 1024) : chKey ch = 0x4010000 + 0x40 * ch := if_pos h

theorem locate_chKey {ch r : Nat} (h : ch < 1024) (hr : r < 0x40) :
    locate (chKey ch + r) = some (.tb, 0x10000 + 0x40 * ch + r) := by
  have e : chKey ch + r = 0x4000000 + (0x10000 + 0x40 * ch + r) := by rw [chKey_global h]; omega
  rw [e, locate_tb (by omega)]

theorem locate_FAB_RTR_STATUS {p : Nat} (hp : p < 9216) : locate (Reg.FAB_RTR_STATUS p) = some (.core p, 0xC04) :=
  locate_coreReg hp (by decide)

theorem Dom.ofAddr_core {key p o : Nat} (hl : locate key = some (.core p, o)) (ho : o < 0xE00) : Dom.ofAddr key = none := by
  simp only [Dom.ofAddr, hl]
  rw [if_neg (by omega), if_neg (by omega), if_neg (by omega)]

/-! ### 64-bit pairs (R14) -/

/-- No register is the LO of one pair and the HI of another. -/
theorem pairHi_eq_false_of_pairLo {b : Blk} {o : Nat} (h : pairLo b o = true) : pairHi b o = false := by
  rw [Bool.eq_false_iff]
  intro hhi
  cases b <;> simp [pairHi, pairLo] at h hhi <;> omega

theorem pairHi_add_four {b : Blk} {o : Nat} (h : pairLo b o = true) : pairHi b (o + 4) = true := by
  simp [pairHi, h]

theorem pairLo_compare {ch : Nat} : pairLo .tb (0x10000 + 0x40 * ch + 8) = true := by
  simp [pairLo]
  omega

theorem State.plainWrite_unpaired {s : State} {b : Blk} {o key : Nat} {v : Word} (hlo : pairLo b o = false)
    (hhi : pairHi b o = false) : s.plainWrite b o key v = s.maskWrite key v (s.rwlLocked b o) := by
  simp [State.plainWrite, hlo, hhi]

theorem State.plainWrite_lo {s : State} {b : Blk} {o key : Nat} {v : Word} {d : RegDesc} (hlo : pairLo b o = true)
    (hd : regAt key = some d) : s.plainWrite b o key v = s.holdLo key v := by
  simp [State.plainWrite, hlo, hd]

/-! ### What the check of an access lets through (R33, R34, R386) -/

theorem State.guard_ok {s : State} {a addr : Nat} {effect : State → State} (h : s.access a addr = .ok) :
    s.guard a addr effect = effect s := by simp only [State.guard, h]

theorem State.guard_bad {s : State} {a addr : Nat} {effect : State → State} (h : s.access a addr = .bad) :
    s.guard a addr effect = s.count (Reg.HIF_BAD_ACCESS a) 1 := by simp only [State.guard, h]

theorem State.guard_filtered {s : State} {a addr : Nat} {effect : State → State} (h : s.access a addr = .filtered) :
    s.guard a addr effect = s.filtered a addr := by simp only [State.guard, h]

/-- An access is served at a register of the tables only. -/
theorem State.regAt_of_access_ok {s : State} {a addr : Nat} (h : s.access a addr = .ok) : ∃ d, regAt addr = some d := by
  cases hl : locate addr with
  | none => cases hup : s.busUp a <;> simp [State.access, State.accessBy, hl, hup] at h
  | some x =>
    obtain ⟨b, o⟩ := x
    cases hd : findReg b o with
    | none => cases hup : s.busUp a <;> simp [State.access, State.accessBy, hl, hd, hup] at h
    | some d => exact ⟨d, (regAt_of_locate hl).trans hd⟩

/-! ### REGISTER_WRITE -/

theorem exec_registerWrite {s : State} {a addr : Nat} {v : Word} (ha : a < 8) :
    exec (.registerWrite a addr v) s = .next (s.guard a addr fun t => t.setupWrite a addr v) := by
  simp only [exec, execRegisterWrite, if_pos ha]

/-- A register whose write goes by its row alone takes what the row makes of the word it holds and the word written. -/
theorem registerWrite_completes {s : State} {a addr : Nat} {v w : Word} {locked : Bool} {d : RegDesc} (ha : a < 8)
    (hacc : s.access a addr = .ok) (hw : s.setupWrite a addr v = s.maskWrite addr v locked) (hd : regAt addr = some d)
    (hv : d.apply (s.rd addr) v locked = w) :
    completes (.registerWrite a addr v) s fun t => t.rd addr = w ∧ otherRegs [addr] s t := by
  refine completes_of (exec_registerWrite ha) ?_
  rw [State.guard_ok hacc, hw]
  exact ⟨by rw [State.rd_maskWrite hd, if_pos rfl, hv], otherRegs_maskWrite hd v locked⟩

theorem registerWrite_keeps_registers {s : State} {a addr : Nat} {v : Word} {locked : Bool} {d : RegDesc} (ha : a < 8)
    (hacc : s.access a addr = .ok) (hw : s.setupWrite a addr v = s.maskWrite addr v locked) (hd : regAt addr = some d)
    (hv : d.apply (s.rd addr) v locked = s.rd addr) :
    completes (.registerWrite a addr v) s fun t => otherRegs [] s t := by
  obtain ⟨t, e, hrd, hother⟩ := registerWrite_completes ha hacc hw hd hv
  exact ⟨t, e, otherRegs_nil_of_rd_eq hother hrd⟩

theorem registerWrite_bad {s : State} {a addr : Nat} {v : Word} (ha : a < 8) (hacc : s.access a addr = .bad) :
    completes (.registerWrite a addr v) s fun t => t.rd (Reg.HIF_BAD_ACCESS a) = sticky (s.rd (Reg.HIF_BAD_ACCESS a)) 1 ∧
      otherRegs [Reg.HIF_BAD_ACCESS a] s t := by
  refine completes_of (exec_registerWrite ha) ?_
  rw [State.guard_bad hacc]
  exact ⟨by rw [State.rd_count, if_pos rfl], otherRegs_count s _ 1⟩

theorem registerWrite_filtered {s : State} {a addr : Nat} {v : Word} (ha : a < 8) (hacc : s.access a addr = .filtered) :
    completes (.registerWrite a addr v) s fun t => t.rd (Reg.HIF_FILTERED a) = sticky (s.rd (Reg.HIF_FILTERED a)) 1 ∧
      t.rd (Reg.HIF_FILTER_ADDR a) = BitVec.ofNat 32 addr ∧
      otherRegs [Reg.HIF_FILTERED a, Reg.HIF_FILTER_ADDR a] s t := by
  have hne : Reg.HIF_FILTERED a ≠ Reg.HIF_FILTER_ADDR a := by
    simp [Reg.HIF_FILTERED, Reg.HIF_FILTER_ADDR, attReg]
  refine completes_of (exec_registerWrite ha) ?_
  rw [State.guard_filtered hacc]
  refine ⟨?_, ?_, fun k hk => ?_⟩
  · rw [State.rd_filtered, if_neg hne, if_pos rfl]
  · rw [State.rd_filtered, if_pos rfl]
  · simp only [List.mem_cons, List.not_mem_nil, or_false, not_or] at hk
    rw [State.rd_filtered, if_neg hk.2, if_neg hk.1]

/-! ### The registers of a sequencer and of a router -/

theorem State.setupWrite_hif {s : State} {a addr o : Nat} {v : Word} (hl : locate addr = some (.hif, o)) (ho : 0x80800 ≤ o) :
    s.setupWrite a addr v = s.plainWrite .hif o addr v := by
  simp only [State.setupWrite, hl]
  rw [if_neg (by omega)]

/-- Of a sequencer's window, STEP_MAX_STRETCH and STEP_COMMITTED are written by their rows, under the lock of its partition. -/
theorem State.setupWrite_step {s : State} {a o : Nat} {v : Word} (ho : 0xF00000 ≤ o) (h : o < 0x1000000)
    (hr : o % 0x400 = 4 ∨ o % 0x400 = 0x14) :
    s.setupWrite a (0x6000000 + o) v = s.maskWrite (0x6000000 + o) v (s.enabled ((o - 0xF00000) / 0x400)) := by
  have hlo : pairLo .hif o = false := by
    simp [pairLo]
    omega
  have hhi : pairHi .hif o = false := by
    simp [pairHi, pairLo]
    omega
  have hlock : s.rwlLocked .hif o = s.enabled ((o - 0xF00000) / 0x400) := by
    simp only [State.rwlLocked, State.lockPart, if_pos ho]
  rw [State.setupWrite_hif (locate_hif (by omega) h) (by omega), State.plainWrite_unpaired hlo hhi, hlock]

theorem State.setupWrite_STEP_MAX_STRETCH {s : State} {a k : Nat} {v : Word} (hk : k < 64) :
    s.setupWrite a (Reg.STEP_MAX_STRETCH k) v = s.maskWrite (Reg.STEP_MAX_STRETCH k) v (s.enabled k) := by
  have hpart : (0xF00004 + 0x400 * k - 0xF00000) / 0x400 = k := by omega
  rw [Reg.STEP_MAX_STRETCH, Nat.add_assoc, State.setupWrite_step (by omega) (by omega) (by omega), hpart]

theorem State.setupWrite_STEP_COMMITTED {s : State} {a k : Nat} {v : Word} (hk : k < 64) :
    s.setupWrite a (Reg.STEP_COMMITTED k) v = s.maskWrite (Reg.STEP_COMMITTED k) v (s.enabled k) := by
  have hpart : (0xF00014 + 0x400 * k - 0xF00000) / 0x400 = k := by omega
  rw [Reg.STEP_COMMITTED, Nat.add_assoc, State.setupWrite_step (by omega) (by omega) (by omega), hpart]

theorem findReg_step : ∀ k < 64,
    findReg .hif (0xF00004 + 0x400 * k) = some ⟨0xF00004, 0x400, 64, 0xFFFFFFFF, 0x0, 0xFFFFFFFF, 0x0, 0x0, 0x0⟩ ∧
    findReg .hif (0xF00014 + 0x400 * k) = some ⟨0xF00014, 0x400, 64, 0xFFFFFFFF, 0x0, 0x0, 0x0, 0x0, 0xFFFFFFFF⟩ := by
  decide

theorem regAt_STEP_MAX_STRETCH {k : Nat} (hk : k < 64) : regAt (Reg.STEP_MAX_STRETCH k) =
    some ⟨0xF00004, 0x400, 64, 0xFFFFFFFF, 0x0, 0xFFFFFFFF, 0x0, 0x0, 0x0⟩ := by
  rw [Reg.STEP_MAX_STRETCH, Nat.add_assoc, regAt_of_locate (locate_hif (by omega) (by omega))]
  exact (findReg_step k hk).1

theorem regAt_STEP_COMMITTED {k : Nat} (hk : k < 64) : regAt (Reg.STEP_COMMITTED k) =
    some ⟨0xF00014, 0x400, 64, 0xFFFFFFFF, 0x0, 0x0, 0x0, 0x0, 0xFFFFFFFF⟩ := by
  rw [Reg.STEP_COMMITTED, Nat.add_assoc, regAt_of_locate (locate_hif (by omega) (by omega))]
  exact (findReg_step k hk).2

theorem State.setupWrite_core {s : State} {a addr p o : Nat} {v : Word} (hl : locate addr = some (.core p, o)) :
    s.setupWrite a addr v = s.coreWrite a p o addr v := by
  simp only [State.setupWrite, hl]

theorem State.coreWrite_routerStatus {s : State} {a addr p : Nat} {v : Word} (hl : locate addr = some (.core p, 0xC04)) :
    s.coreWrite a p 0xC04 addr v = s.plainWrite (.core p) 0xC04 addr v := by
  simp [State.coreWrite, Dom.ofAddr_core hl (by decide)]

theorem State.setupWrite_FAB_RTR_STATUS {s : State} {a p : Nat} {v : Word} (hp : p < 9216) :
    s.setupWrite a (Reg.FAB_RTR_STATUS p) v = s.maskWrite (Reg.FAB_RTR_STATUS p) v (s.rwlLocked (.core p) 0xC04) := by
  have hl := locate_FAB_RTR_STATUS hp
  rw [State.setupWrite_core hl, State.coreWrite_routerStatus hl,
    State.plainWrite_unpaired (by simp [pairLo]) (by simp [pairHi, pairLo])]

theorem regAt_FAB_RTR_STATUS {p : Nat} (hp : p < 9216) : regAt (Reg.FAB_RTR_STATUS p) =
    some ⟨0xC04, 0x4, 1, 0x0, 0x0, 0x0, 0x8, 0x0, 0x3F0007⟩ := by
  have hrow : RegTab.core.find? (·.covers 0xC04) = some ⟨0xC04, 0x4, 1, 0x0, 0x0, 0x0, 0x8, 0x0, 0x3F0007⟩ := by decide
  exact (regAt_of_locate (locate_FAB_RTR_STATUS hp)).trans hrow

/-! ### The check-value unit (R337 to R341) -/

theorem State.cvuWidth_congr {s t : State} (h : t.rd cvuCtrl = s.rd cvuCtrl) : t.cvuWidth = s.cvuWidth := by
  unfold State.cvuWidth State.rf
  rw [h]

theorem State.cvuPar_congr {s t : State} (h : t.rd cvuCtrl = s.rd cvuCtrl)
    (hr : ∀ r ∈ [cvuPoly, cvuInit, cvuXorout], t.rd64 r % 2 ^ s.cvuWidth = s.rd64 r % 2 ^ s.cvuWidth) :
    t.cvuPar = s.cvuPar := by
  simp only [List.forall_mem_cons] at hr
  obtain ⟨hpoly, hinit, hxor, -⟩ := hr
  simp only [State.cvuPar, State.bit, State.cvuWidth_congr h, h, hpoly, hinit, hxor]

/-- RUNNING is no parameter. -/
theorem State.cvuPar_of_otherRegs {s t : State} (h : otherRegs [cvuRunning, cvuRunning + 4] s t) : t.cvuPar = s.cvuPar := by
  refine State.cvuPar_congr (h _ (by decide)) fun r hr => ?_
  have hk : r ∉ [cvuRunning, cvuRunning + 4] ∧ r + 4 ∉ [cvuRunning, cvuRunning + 4] := by
    revert r
    decide
  simp only [State.rd64, h _ hk.1, h _ hk.2]

/-- The unit with its registers cut to the bits below w: `cvuShow` before it shows VALUE (`cvuShow_eq`). -/
def State.cvuTrunc (s : State) : State :=
  [cvuPoly, cvuInit, cvuXorout, cvuRunning].foldl (fun t r => t.wr64 r (t.rd64 r % 2 ^ s.cvuWidth)) s

theorem State.cvuShow_eq (s : State) :
    s.cvuShow = s.cvuTrunc.wr64 cvuValueReg (cvuValue s.cvuTrunc.cvuPar (s.cvuTrunc.rd64 cvuRunning)) := rfl

theorem State.rd_cvuTrunc_ctrl (s : State) : s.cvuTrunc.rd cvuCtrl = s.rd cvuCtrl := by
  simp [State.cvuTrunc, cvuCtrl, cvuPoly, cvuInit, cvuXorout, cvuRunning, cvuReg]

theorem State.rd64_cvuTrunc (s : State) {r : Nat} (hr : r ∈ [cvuPoly, cvuInit, cvuXorout, cvuRunning]) :
    s.cvuTrunc.rd64 r = s.rd64 r % 2 ^ s.cvuWidth := by
  have hlt : ∀ x, s.rd64 x % 2 ^ s.cvuWidth < 18446744073709551616 := fun x => (Nat.mod_le _ _).trans_lt (s.rd64_lt x)
  simp only [List.mem_cons, List.not_mem_nil, or_false] at hr
  rcases hr with rfl | rfl | rfl | rfl <;>
    simp [State.cvuTrunc, State.rd64_wr64_same, State.rd64_wr64_other, hlt, cvuPoly, cvuInit, cvuXorout, cvuRunning, cvuReg]

theorem State.cvuPar_cvuTrunc (s : State) : s.cvuTrunc.cvuPar = s.cvuPar :=
  State.cvuPar_congr s.rd_cvuTrunc_ctrl fun r hr => by
    rw [s.rd64_cvuTrunc (List.mem_append_left [cvuRunning] hr), Nat.mod_mod]

theorem State.rd64_cvuShow (s : State) {r : Nat} (hr : r ∈ [cvuPoly, cvuInit, cvuXorout, cvuRunning]) :
    s.cvuShow.rd64 r = s.rd64 r % 2 ^ s.cvuWidth := by
  have hbelow : r + 4 < cvuValueReg ∨ cvuValueReg + 4 < r := by
    revert r
    decide
  rw [s.cvuShow_eq, State.rd64_wr64_other _ _ hbelow, s.rd64_cvuTrunc hr]

theorem State.cvuPar_cvuShow (s : State) : s.cvuShow.cvuPar = s.cvuPar := by
  refine State.cvuPar_congr ?_ fun r hr => ?_
  · rw [s.cvuShow_eq, State.rd_wr64, if_neg (by decide), if_neg (by decide), s.rd_cvuTrunc_ctrl]
  · rw [s.rd64_cvuShow (List.mem_append_left [cvuRunning] hr), Nat.mod_mod]

theorem State.rd64_cvuShow_value (s : State) :
    s.cvuShow.rd64 cvuValueReg = cvuValue s.cvuPar (s.rd64 cvuRunning % 2 ^ s.cvuWidth) % 2 ^ 64 := by
  rw [s.cvuShow_eq, State.rd64_wr64_same, s.cvuPar_cvuTrunc, s.rd64_cvuTrunc (by decide)]

/-- What the unit shows after a change of RUNNING alone. -/
theorem State.cvuShow_of_otherRegs {s t : State} (h : otherRegs [cvuRunning, cvuRunning + 4] s t) :
    t.cvuShow.rd64 cvuRunning = t.rd64 cvuRunning % 2 ^ s.cvuWidth ∧ t.cvuShow.cvuPar = s.cvuPar ∧
      t.cvuShow.rd64 cvuValueReg = cvuValue s.cvuPar (t.rd64 cvuRunning % 2 ^ s.cvuWidth) % 2 ^ 64 := by
  have hpar := State.cvuPar_of_otherRegs h
  have hw : t.cvuWidth = s.cvuWidth := congrArg CvuPar.w hpar
  rw [t.rd64_cvuShow (by decide), t.cvuPar_cvuShow, t.rd64_cvuShow_value, hpar, hw]
  exact ⟨rfl, rfl, rfl⟩

theorem State.rd_cvuLoad_ctrl (s : State) (p : CvuPar) :
    (s.cvuLoad p).rd cvuCtrl =
      setFld (setFld (setFld (s.rd cvuCtrl) 16 7 p.w) 29 1 (b2n p.refin)) 28 1 (b2n p.refout) := by
  simp [State.cvuLoad, cvuCtrl, cvuPoly, cvuInit, cvuXorout, cvuReg]

theorem State.bit30_cvuLoad (s : State) (p : CvuPar) : (s.cvuLoad p).bit cvuCtrl 30 = s.bit cvuCtrl 30 := by
  rw [State.bit, State.rd_cvuLoad_ctrl, tst, fld_setFld_above _ _ _ _ _ _ (by decide) (by decide),
    fld_setFld_above _ _ _ _ _ _ (by decide) (by decide), fld_setFld_above _ _ _ _ _ _ (by decide) (by decide)]
  rfl

theorem State.cvuWidth_cvuLoad (s : State) {p : CvuPar} (h8 : 8 ≤ p.w) (h64 : p.w ≤ 64) : (s.cvuLoad p).cvuWidth = p.w := by
  have hw : (s.cvuLoad p).rf cvuCtrl 16 7 = p.w := by
    rw [State.rf, s.rd_cvuLoad_ctrl, fld_setFld_below _ _ _ _ _ _ (by decide) (by decide),
      fld_setFld_below _ _ _ _ _ _ (by decide) (by decide), fld_setFld_same _ _ _ _ (by decide)]
    omega
  simp only [State.cvuWidth, hw]
  rw [if_neg (by omega)]

/-- A preset of a width that the unit has is loaded whole. -/
theorem State.cvuPar_cvuLoad (s : State) {p : CvuPar} (h8 : 8 ≤ p.w) (h64 : p.w ≤ 64) (hp : p.poly < 2 ^ p.w)
    (hi : p.init < 2 ^ p.w) (hx : p.xorout < 2 ^ p.w) : (s.cvuLoad p).cvuPar = p := by
  have h2 : (2 : Nat) ^ p.w ≤ 2 ^ 64 := Nat.pow_le_pow_right (by decide) h64
  have hval : ∀ x, x < 2 ^ p.w → x % 2 ^ 64 % 2 ^ p.w = x := fun x hx => by
    rw [Nat.mod_eq_of_lt (hx.trans_le h2), Nat.mod_eq_of_lt hx]
  have hin : (s.cvuLoad p).bit cvuCtrl 29 = p.refin := by
    rw [State.bit, s.rd_cvuLoad_ctrl, tst, fld_setFld_above _ _ _ _ _ _ (by decide) (by decide)]
    exact tst_setFld_bit _ _ _ (by decide)
  have hout : (s.cvuLoad p).bit cvuCtrl 28 = p.refout := by
    rw [State.bit, s.rd_cvuLoad_ctrl, tst_setFld_bit _ _ _ (by decide)]
  have hpoly : (s.cvuLoad p).rd64 cvuPoly = p.poly % 2 ^ 64 := by
    rw [State.cvuLoad, State.rd64_wr64_other _ _ (by decide), State.rd64_wr64_other _ _ (by decide), State.rd64_wr64_same]
  have hinit : (s.cvuLoad p).rd64 cvuInit = p.init % 2 ^ 64 := by
    rw [State.cvuLoad, State.rd64_wr64_other _ _ (by decide), State.rd64_wr64_same]
  have hxor : (s.cvuLoad p).rd64 cvuXorout = p.xorout % 2 ^ 64 := by
    rw [State.cvuLoad, State.rd64_wr64_same]
  rw [State.cvuPar, s.cvuWidth_cvuLoad h8 h64, hin, hout, hpoly, hinit, hxor, hval _ hp, hval _ hi, hval _ hx]

theorem State.cvuPar_cvuLoad_c32c (s : State) : (s.cvuLoad c32c).cvuPar = c32c :=
  s.cvuPar_cvuLoad (by decide) (by decide) (by decide) (by decide) (by decide)

theorem regAt_cvuCtrl : regAt cvuCtrl = some ⟨0x0, 0x4, 1, 0x30200001, 0x707F0003, 0x0, 0x0, 0x80000000, 0x0⟩ := by
  decide

/-- CVU_CTRL written with START, the preset C32C and no fold: the preset is loaded and r is its initial value. -/
theorem State.cvuCtrlWrite_c32c (s : State) (v : Word) (hp : fld v 0 2 = 1) (h31 : tst v 31 = true) (h30 : tst v 30 = false) :
    s.cvuCtrlWrite v = (((s.maskWrite cvuCtrl v false).cvuLoad c32c).wr64 cvuRunning c32c.init).cvuShow := by
  have hfold : ((s.maskWrite cvuCtrl v false).cvuLoad c32c).bit cvuCtrl 30 = false := by
    rw [State.bit30_cvuLoad, State.bit, State.rd_maskWrite regAt_cvuCtrl, if_pos rfl, tst_eq_getLsbD,
      RegDesc.getLsbD_apply_rw rfl _ _ _ (by decide) (by decide), ← tst_eq_getLsbD, h30]
  simp only [State.cvuCtrlWrite, hp, h31, hfold, State.cvuPar_cvuLoad_c32c]
  rfl

theorem exec_cvuStart {s : State} {a : Nat} {v : Word} (ha : a < 8) (h : s.access a cvuCtrl = .ok) :
    exec (.cvuStart a v) s = .next (s.cvuCtrlWrite (v ||| 0x80000000)) := by
  simp only [exec, execCvuStart, if_pos ha, State.guard_ok h]

theorem exec_cvuRunningWrite {s : State} {a : Nat} {lo hi : Word} (ha : a < 8) (h : s.access a cvuRunning = .ok) :
    exec (.cvuRunningWrite a lo hi) s =
      .next (((s.dropLo cvuRunning).wr cvuRunning lo).wr (cvuRunning + 4) hi).cvuShow := by
  simp only [exec, execCvuRunningWrite, if_pos ha, State.guard_ok h]

theorem cvuStart_completes {s : State} {a : Nat} {v : Word} (ha : a < 8) (hacc : s.access a cvuCtrl = .ok)
    (hp : fld v 0 2 = 1) (h30 : tst v 30 = false) :
    completes (.cvuStart a v) s fun t => t.rd64 cvuRunning = 0xFFFFFFFF ∧ t.cvuPar = c32c ∧
      t.rd64 cvuValueReg = cvuValue c32c 0xFFFFFFFF := by
  refine completes_of (exec_cvuStart ha hacc) ?_
  have hp' : fld (v ||| 0x80000000) 0 2 = 1 := by rw [fld_or_of_mod_eq_zero _ _ _ (by decide), hp]
  have h31' : tst (v ||| 0x80000000) 31 = true := by
    rw [tst_eq_getLsbD, BitVec.getLsbD_or]
    exact Bool.or_true _
  have h30' : tst (v ||| 0x80000000) 30 = false := by
    rw [tst_eq_getLsbD, BitVec.getLsbD_or, ← tst_eq_getLsbD, h30]
    rfl
  rw [State.cvuCtrlWrite_c32c _ _ hp' h31' h30']
  obtain ⟨hrun, hpar, hval⟩ := State.cvuShow_of_otherRegs
    (otherRegs_wr64 ((s.maskWrite cvuCtrl (v ||| 0x80000000) false).cvuLoad c32c) cvuRunning c32c.init)
  have hw : ((s.maskWrite cvuCtrl (v ||| 0x80000000) false).cvuLoad c32c).cvuWidth = 32 :=
    congrArg CvuPar.w (State.cvuPar_cvuLoad_c32c _)
  rw [State.rd64_wr64_same, hw] at hrun hval
  rw [State.cvuPar_cvuLoad_c32c] at hpar hval
  exact ⟨hrun, hpar, hval.trans (by decide)⟩

theorem cvuRunningWrite_completes {s : State} {a : Nat} {lo hi : Word} (ha : a < 8) (hacc : s.access a cvuRunning = .ok) :
    completes (.cvuRunningWrite a lo hi) s fun t =>
      t.rd64 cvuRunning = (lo.toNat + 2 ^ 32 * hi.toNat) % 2 ^ s.cvuWidth ∧
      t.rd64 cvuValueReg = cvuValue s.cvuPar ((lo.toNat + 2 ^ 32 * hi.toNat) % 2 ^ s.cvuWidth) % 2 ^ 64 := by
  refine completes_of (exec_cvuRunningWrite ha hacc) ?_
  obtain ⟨hrun, -, hval⟩ := State.cvuShow_of_otherRegs (otherRegs_wr_wr (s.dropLo cvuRunning) cvuRunning lo hi)
  rw [State.rd64_wr_wr] at hrun hval
  exact ⟨hrun, hval⟩

/-- Settles O41: each register is written by its row of the table, and the check-value unit shows what RUNNING and its parameters
come to. -/
theorem registerWrites : Obligations.RegisterWrites := by
  refine ⟨fun s a k v ha hk => ⟨fun hacc hdis => ?_, fun hacc hen => ?_, fun hacc => ?_, fun p hp hacc => ?_,
    fun addr => registerWrite_bad ha, fun addr => registerWrite_filtered ha⟩,
    fun s a v lo hi ha => ⟨cvuStart_completes ha, cvuRunningWrite_completes ha⟩⟩
  · refine registerWrite_completes ha hacc (State.setupWrite_STEP_MAX_STRETCH hk) (regAt_STEP_MAX_STRETCH hk) ?_
    rw [hdis]
    exact RegDesc.apply_unlocked_eq (by decide) rfl _ _
  · refine registerWrite_keeps_registers ha hacc (State.setupWrite_STEP_MAX_STRETCH hk) (regAt_STEP_MAX_STRETCH hk) ?_
    exact RegDesc.apply_read_only rfl (.inl hen) rfl _ _
  · refine registerWrite_keeps_registers ha hacc (State.setupWrite_STEP_COMMITTED hk) (regAt_STEP_COMMITTED hk) ?_
    exact RegDesc.apply_read_only rfl (.inr rfl) rfl _ _
  · refine registerWrite_completes ha hacc (State.setupWrite_FAB_RTR_STATUS hp) (regAt_FAB_RTR_STATUS hp) ?_
    exact RegDesc.apply_no_rw rfl (.inr rfl) _ _

end Sys2Proof.Machine
end

section
/-! SUPPORT. Pairs of registers: the HI half that a read of LO latches, and the LO half that a write holds for its HI. -/
namespace Sys2Proof.Machine

theorem Store.find?_insert_of_not_mem {β : Type} (m : Store β) (k : Nat) (v : β) (h : ∀ e ∈ m, e.1 ≠ k) :
    (Store.insert k v m).find? (·.1 == k) = some (k, v) := by
  induction m with
  | nil => simp [Store.insert]
  | cons e t ih =>
    obtain ⟨a, w⟩ := e
    have ha : a ≠ k := h (a, w) List.mem_cons_self
    have ht := ih fun e he => h e (List.mem_cons_of_mem _ he)
    by_cases hk : k < a
    · simp [Store.insert, hk]
    · simp [Store.insert, hk, ha, ht]

theorem Store.find?_insert_erase {β : Type} (m : Store β) (k : Nat) (v : β) :
    (Store.insert k v (Store.erase k m)).find? (·.1 == k) = some (k, v) :=
  Store.find?_insert_of_not_mem _ k v (Store.not_mem_erase m k)

/-! ### Reads -/

theorem exec_reg64LoRead {s : State} {a addr o : Nat} {b : Blk} (ha : a < 8) (hl : locate addr = some (b, o)) :
    exec (.reg64LoRead a addr) s = .next (s.setupRead a addr) := by
  have hbar : ¬(bar2Base ≤ addr ∧ addr < bar2Base + 2 ^ 22) := fun h => by simp [locate_bar2 h.1 h.2] at hl
  simp only [exec, execReg64LoRead, if_neg (Nat.not_le.2 ha), if_neg hbar]

theorem State.readReg_plain {s : State} {a addr o : Nat} {b : Blk} (hl : locate addr = some (b, o))
    (hs : s.stampHidden a b o = false) (hhi : pairHi b o = false) : s.readReg a addr = s.rd (regKey a addr) := by
  simp [State.readReg, hl, hs, hhi]

theorem State.readReg_latched {s : State} {a addr o : Nat} {b : Blk} {e : Nat × Word} (hl : locate addr = some (b, o))
    (hs : s.stampHidden a b o = false) (hhi : pairHi b o = true)
    (he : s.hiLatch.find? (·.1 == latchKey a addr) = some e) : s.readReg a addr = e.2 := by
  simp [State.readReg, hl, hs, hhi, he]

section
variable {s : State} {a addr o : Nat} {b : Blk} (hacc : s.access a addr = .ok) (hl : locate addr = some (b, o))
include hacc hl

theorem State.out_setupRead : (s.setupRead a addr).out = .regData a (s.readReg a addr) :: s.out := by
  simp only [State.setupRead, hacc, hl]
  split <;> rfl

theorem State.rd_setupRead (k : Nat) : (s.setupRead a addr).rd k = s.rd k := by
  simp only [State.setupRead, hacc, hl]
  split <;> rfl

/-- A read of LO latches HI as it is at the read. -/
theorem State.hiLatch_setupRead (hlo : pairLo b o = true) (hs : s.stampHidden a b o = false) :
    (s.setupRead a addr).hiLatch.find? (·.1 == latchKey a (addr + 4)) =
      some (latchKey a (addr + 4), s.rd (regKey a (addr + 4))) := by
  simp only [State.setupRead, hacc, hl, hlo, hs, if_true, Bool.false_eq_true, if_false]
  exact Store.find?_insert_erase _ _ _

end

/-! ### Writes of a channel's COMPARE -/

theorem State.foldl_fireIfReady {s : State} {chs : List Nat} (h : ∀ ch ∈ chs, s.chReady ch = false) :
    chs.foldl State.fireIfReady s = s := by
  induction chs with
  | nil => rfl
  | cons ch chs ih =>
    have hch : s.fireIfReady ch = s := by simp [State.fireIfReady, h ch List.mem_cons_self]
    rw [List.foldl_cons, hch, ih fun x hx => h x (List.mem_cons_of_mem _ hx)]

theorem State.fireAll_eq_self {s : State} {chs : List Nat} (h : ∀ ch ∈ chs, s.chReady ch = false) : s.fireAll chs = s := by
  have hf : ∀ p : Nat → Bool, (chs.filter p).foldl State.fireIfReady s = s := fun p =>
    State.foldl_fireIfReady fun ch hch => h ch (List.mem_of_mem_filter hch)
  simp only [State.fireAll, hf]

theorem State.evalBefore_of_notDue {s : State} {ch : Nat} (h : s.notDue ch) : s.evalBefore ch = s := by
  obtain ⟨hch, hmaster⟩ := h
  refine State.fireAll_eq_self fun x hx => ?_
  rcases List.mem_append.1 hx with hx | hx
  · exact hmaster x (Option.mem_toList.1 hx)
  · rw [List.mem_singleton.1 hx, hch]

theorem State.setupWrite_channel {s : State} {a ch r : Nat} {v : Word} (h : ch < 1024) (hr : r < 0x40) :
    s.setupWrite a (chKey ch + r) v = s.channelWrite .tb (0x10000 + 0x40 * ch + r) ch r v := by
  have hch : (0x10000 + 0x40 * ch + r - 0x10000) / 0x40 = ch := by omega
  have hoff : (0x10000 + 0x40 * ch + r) % 0x40 = r := by omega
  simp only [State.setupWrite, locate_chKey h hr]
  rw [if_neg (by omega), if_neg (by omega), if_pos (by omega), hch, hoff]

/-- The LO half of COMPARE, written with nothing due, waits for its HI half. -/
theorem State.setupWrite_compareLo {s : State} {a ch : Nat} {lo : Word} {d : RegDesc} (h : ch < 1024) (hdue : s.notDue ch)
    (hd : regAt (chKey ch + 8) = some d) : s.setupWrite a (chKey ch + 8) lo = s.holdLo (chKey ch + 8) lo := by
  rw [State.setupWrite_channel h (by decide)]
  simp only [State.channelWrite, State.evalBefore_of_notDue hdue]
  exact State.plainWrite_lo pairLo_compare hd

theorem State.loHalf_of_loPend {s t : State} {lo : Nat} {v : Word} (h : t.loPend = (s.holdLo lo v).loPend) :
    t.loHalf lo = v := by
  have hf : t.loPend.find? (·.1 == lo) = some (lo, v) := by
    rw [h]
    exact Store.find?_insert_erase _ _ _
  simp only [State.loHalf, hf]

theorem State.compareWrite_of_notDue {s : State} {ch : Nat} (hi : Word) (h : s.notDue ch) :
    s.compareWrite ch hi =
      ((s.dropLo (chKey ch + 8)).wr (chKey ch + 8) (s.loHalf (chKey ch + 8))).wr (chKey ch + 8 + 4) hi := by
  simp only [State.compareWrite, State.evalBefore_of_notDue h]

theorem exec_compareWrite {s : State} {a ch : Nat} {hi : Word} (ha : a < 8) (hch : ch < channels)
    (h : s.access a (chKey ch + 0xC) = .ok) : exec (.compareWrite a ch hi) s = .next (s.compareWrite ch hi) := by
  simp only [exec, execCompareWrite, if_pos (And.intro ha hch), State.guard_ok h]

/-- Settles O42: the latch that a read of LO leaves and the half that a write of LO holds are what the HI access then finds. -/
theorem pairsOfRegisters : Obligations.PairsOfRegisters := by
  intro s a addr b o ha hacc hl hlo hl4 hs
  refine ⟨completes_of (exec_reg64LoRead ha hl) ⟨?_, fun k _ => State.rd_setupRead hacc hl k, ?_⟩, ?_⟩
  · rw [State.out_setupRead hacc hl, State.readReg_plain hl hs (pairHi_eq_false_of_pairLo hlo)]
  · intro u hu hacc4 hs4
    refine completes_of (exec_reg64LoRead ha hl4) ?_
    have hlatch := State.hiLatch_setupRead hacc hl hlo hs
    rw [← hu] at hlatch
    rw [State.out_setupRead hacc4 hl4, State.readReg_latched hl4 hs4 (pairHi_add_four hlo) hlatch]
  · rintro ch lo hi hch rfl hdue
    obtain ⟨d, hd⟩ := State.regAt_of_access_ok hacc
    refine completes_of (exec_registerWrite ha) ?_
    rw [State.guard_ok hacc, State.setupWrite_compareLo hch hdue hd]
    refine ⟨fun k _ => State.rd_holdLo _ _ _ _, fun u hu hacc4 hdue4 => ?_⟩
    refine completes_of (exec_compareWrite ha (by unfold channels; omega) hacc4) ?_
    rw [State.compareWrite_of_notDue hi hdue4, State.loHalf_of_loPend hu]
    exact ⟨State.rd64_wr_wr _ _ _ _, otherRegs_wr_wr (u.dropLo (chKey ch + 8)) _ _ _⟩

end Sys2Proof.Machine
end

section
/-! SUPPORT. What a command may not touch it leaves as it is: the list of parts behind a mask. -/
namespace Sys2Proof.Machine

theorem Component.ctorIdx_injective : Function.Injective Component.ctorIdx := fun f g h => by
  rw [← Component.ofNat_ctorIdx f, h, Component.ofNat_ctorIdx]

theorem testBit_foldl_mask (l : List Component) (n i : Nat) :
    (l.foldl (fun n f => n ||| 2 ^ f.ctorIdx) n).testBit i = (n.testBit i || l.any fun f => f.ctorIdx == i) := by
  induction l generalizing n with
  | nil => simp
  | cons f l ih => simp [ih, Nat.testBit_or, Nat.testBit_two_pow, Bool.or_assoc, beq_eq_decide]

theorem testBit_mask_of_not_mem {f : Component} {l : List Component} (h : f ∉ l) : (mask l).testBit f.ctorIdx = false := by
  have hne : ∀ g ∈ l, g.ctorIdx ≠ f.ctorIdx := fun g hg e => h (Component.ctorIdx_injective e ▸ hg)
  simpa [mask, testBit_foldl_mask] using hne

/-- Settles O3: `exec_keeps` for the mask of the command's own list. -/
theorem commandsTouchOnlyTheirParts : Obligations.CommandsTouchOnlyTheirParts := fun _ s t ht f hf =>
  (exec_keeps (Keeps.refl s) t ht).same f (testBit_mask_of_not_mem hf)

end Sys2Proof.Machine
end

section
/-! SUPPORT. A fence move over a memory that is not in canonical form: the copy folds the entries of the store, of which
only the first of a key is ever read. -/
namespace Sys2Proof.Machine

/-- Core 0 of a running partition is to move to the SAPLING 143 at a step boundary, and byte 0 of its memory has two
entries: the first is what the byte reads as. -/
def twiceWritten : State :=
  { State.cold Fuses.full ⟨0, [], [], false⟩ Pins.init with
    up := true
    regs := [(Reg.HIF_PART_OWNER 0, 0x80000000), (Reg.HIF_PART_GROVES_LO 0, 1), (Reg.HDL_STATUS 0, 0), (coreReg 143 0xE04, 0),
      (coreReg 143 0xE14, 0)]
    groves := [(0, { Grove.init with reserved := [(0, 143)] })]
    mem := [(memKey 0 0, 1), (memKey 0 0, 2)] }

theorem byte_twiceWritten : twiceWritten.byte 0 0 = 1 := by decide

theorem sub_of_land {a l : Nat} (h : Nat.land a l = a) : Sub a l := (Sub.same rfl).of h

/-- What a move does to memory is the copy of the old core's window; none of its other steps reaches it. -/
theorem State.moveRole_mem (s : State) (p q left : Nat) : (s.moveRole p q left).mem =
    Store.copyWin zeroByte (memKey p 0) (memKey q 0) 0x40000 s.mem := by
  have hrest : Keeps 8831526566924 (s.copyMem p q 0 0x40000) (s.moveRole p q left) := by
    unfold State.moveRole
    exact State.noteSaplings_keeps (State.forwardAt_keeps (State.mapEvent_keeps (State.setMap_keeps (State.setRole_keeps
      (State.setRole_keeps (State.setCore_keeps (State.setCore_keeps (State.moveSources_keeps (State.clearRegs_keeps
      (State.copyRegs_keeps (Keeps.refl _) (sub_of_land rfl)) (sub_of_land rfl)) (sub_of_land rfl)) (sub_of_land rfl))
      (sub_of_land rfl)) (sub_of_land rfl)) (sub_of_land rfl)) (sub_of_land rfl)) (sub_of_land rfl)) (sub_of_land rfl))
      (sub_of_land rfl)
  exact hrest.same .mem rfl

theorem exec_fenceMigrationDone_twiceWritten : exec (.fenceMigrationDone (0 / 144)) twiceWritten =
    .next ((twiceWritten.updGrove 0 fun v => { v with reserved := [] }).moveRole 0 143 roleFenced) := by
  have hw : (twiceWritten.grove 0).fenceWaits = [] := by decide
  have hr : (twiceWritten.grove 0).reserved = [(0, 143)] := by decide
  have hp : twiceWritten.partOf 0 = some 0 := by decide +kernel
  have hmay : twiceWritten.atBoundary 0 = true ∧ twiceWritten.mayMove 0 = true ∧ twiceWritten.role 143 = roleSapling ∧
    twiceWritten.role 0 = roleActive ∧ twiceWritten.coreOn 143 = true := by decide +kernel
  simp [exec, execFenceMigrationDone, hw, hr, hp, hmay]

/-- Refutes O38: the statement is about every state, and in one whose memory holds two entries of byte 0 of the old
core (1, the one that reads, before 2) the copy leaves 2 in the sapling. A canonical memory has no such pair. -/
theorem not_fencesMoveRoles : ¬ Obligations.FencesMoveRoles := by
  unfold Obligations.FencesMoveRoles
  intro h
  obtain ⟨t, ht, -, -, -, -, hbyte, -⟩ := (h twiceWritten 0 143 0 (by decide) (by decide) (by decide) (by decide +kernel)).1 []
    (by decide) (by decide) (by decide +kernel) (by decide +kernel) (by decide +kernel) (by decide +kernel) (by decide +kernel)
  obtain rfl := Host.Outcome.next.inj (exec_fenceMigrationDone_twiceWritten.symm.trans ht)
  have hcopy : Store.get zeroByte (Store.copyWin zeroByte (memKey 0 0) (memKey 143 0) 0x40000 twiceWritten.mem) (memKey 143 0) = 2 := by
    decide +kernel
  have h0 := (hbyte 0 (by decide)).trans byte_twiceWritten
  rw [State.byte, State.moveRole_mem] at h0
  exact absurd (hcopy.symm.trans h0) (by decide)

end Sys2Proof.Machine
end

section
/-! SUPPORT. Frames: the registers of a class of keys, carried through an operation; what a loop over cores or groves establishes;
and the roster of a partition (which groves and which ACTIVE cores it has), which reads three families of registers. -/
namespace Sys2Proof.Machine

/-- Every register whose key is in `P` reads in `t` as in `s`. -/
def Reads (P : Nat → Prop) (s t : State) : Prop := ∀ key, P key → t.rd key = s.rd key

section
variable {P : Nat → Prop} {s0 s t : State}

theorem Reads.refl : Reads P s s := fun _ _ => rfl

theorem Reads.trans (h : Reads P s0 s) (h' : Reads P s t) : Reads P s0 t := fun key hk => (h' key hk).trans (h key hk)

theorem Reads.mono {Q : Nat → Prop} (h : Reads P s t) (hq : ∀ key, Q key → P key) : Reads Q s t := fun key hk => h key (hq key hk)

theorem Reads.of_regs {K : Nat} (h : Keeps K s t) (hf : K.testBit Component.fuses.ctorIdx = false)
    (hu : K.testBit Component.up.ctorIdx = false) (hr : K.testBit Component.regs.ctorIdx = false) : Reads P s t := fun key _ => by
  have e1 : t.fuses = s.fuses := h.same .fuses hf
  have e2 : t.up = s.up := h.same .up hu
  have e3 : t.regs = s.regs := h.same .regs hr
  rw [State.rd, State.rd, e1, e2, e3]

theorem Reads.wr {key : Nat} {w : Word} (h : Reads P s0 s) (hk : ¬P key) : Reads P s0 (s.wr key w) := fun j hj => by
  rw [State.rd_wr, if_neg (by rintro rfl; exact hk hj), h j hj]

theorem Reads.wf' {key lo n v : Nat} (h : Reads P s0 s) (hk : ¬P key) : Reads P s0 (s.wf' key lo n v) := h.wr hk

theorem Reads.count {key n : Nat} (h : Reads P s0 s) (hk : ¬P key) : Reads P s0 (s.count key n) := h.wr hk

theorem Reads.wr64 {lo v : Nat} (h : Reads P s0 s) (hlo : ¬P lo) (hhi : ¬P (lo + 4)) : Reads P s0 (s.wr64 lo v) := (h.wr hlo).wr hhi

theorem Reads.updCore {p : Nat} {f : Core → Core} (h : Reads P s0 s) : Reads P s0 (s.updCore p f) := h

theorem Reads.updGrove {g : Nat} {f : Grove → Grove} (h : Reads P s0 s) : Reads P s0 (s.updGrove g f) := h

theorem Reads.updPort {e : Nat} {f : Port → Port} (h : Reads P s0 s) : Reads P s0 (s.updPort e f) := h

theorem Reads.updPart {k : Nat} {f : Part → Part} (h : Reads P s0 s) : Reads P s0 (s.updPart k f) := h

theorem Reads.foldl {α : Type} {l : List α} {f : State → α → State} (h : Reads P s0 s)
    (hf : ∀ t, Reads P s0 t → ∀ x ∈ l, Reads P s0 (f t x)) : Reads P s0 (l.foldl f s) :=
  List.foldlRecOn l f h hf

end

/-- What a step of a loop establishes and no other step undoes holds after the loop. -/
theorem foldl_establishes {α : Type} {l : List α} {f : State → α → State} {P : State → Prop} {x : α} (hx : x ∈ l)
    (h1 : ∀ t, P (f t x)) (h2 : ∀ t, P t → ∀ y ∈ l, P (f t y)) (s : State) : P (l.foldl f s) := by
  induction l generalizing s with
  | nil => exact absurd hx List.not_mem_nil
  | cons y l ih =>
    rcases List.mem_cons.1 hx with rfl | hx
    · exact List.foldlRecOn l f (h1 s) fun t ht z hz => h2 t ht z (List.mem_cons_of_mem _ hz)
    · exact ih hx (fun t ht z hz => h2 t ht z (List.mem_cons_of_mem _ hz)) (f s y)

/-- A fact about one core's own state, after a loop that gives it to every core it visits. -/
theorem foldl_updCore_establishes {l : List Nat} {f : Core → Core} {Q : Core → Prop} {p : Nat} (hp : p ∈ l) (hf : ∀ c, Q (f c))
    (s : State) : Q ((l.foldl (fun t p => t.updCore p f) s).core p) :=
  foldl_establishes (P := fun t => Q (t.core p)) hp (fun t => by simpa using hf _)
    (fun t ht q _ => by rw [State.core_updCore]; split <;> simp [hf, ht]) s

/-! ### The roster of a partition -/

/-- The registers that say which partition holds a grove and which role a core has: INT_PHYS_STATE, HIF_PART_OWNER and
HIF_PART_GROVES (01_organisation.md R25, R35, R36). -/
def RosterKey (key : Nat) : Prop :=
  (0x800C000 ≤ key ∧ key < 0x8015000) ∨ (0x6080000 ≤ key ∧ key < 0x6080800 ∧ 12 ≤ key % 32 ∧ key % 32 < 24)

section
variable {s t : State} (h : Reads RosterKey s t)
include h

theorem Reads.role_eq {p : Nat} (hp : p < 9216) : t.role p = s.role p := by
  rw [State.role, State.role, State.rf, State.rf, h (Reg.INT_PHYS_STATE p) (by simp only [RosterKey, Reg.INT_PHYS_STATE]; omega)]

theorem Reads.holds_eq {k : Nat} (hk : k < 64) (g : Nat) : t.holds k g = s.holds k g := by
  rw [State.holds, State.holds, State.bit, State.bit, State.rd64, State.rd64,
    h (Reg.HIF_PART_OWNER k) (by simp only [RosterKey, Reg.HIF_PART_OWNER]; omega),
    h (Reg.HIF_PART_GROVES_LO k) (by simp only [RosterKey, Reg.HIF_PART_GROVES_LO]; omega),
    h (Reg.HIF_PART_GROVES_LO k + 4) (by simp only [RosterKey, Reg.HIF_PART_GROVES_LO]; omega)]

theorem Reads.partOf_eq (g : Nat) : t.partOf g = s.partOf g := by
  rw [State.partOf, State.partOf]
  exact List.find?_congr fun k hk => h.holds_eq (List.mem_range.1 hk) g

theorem Reads.grovesOf_eq {k : Nat} (hk : k < 64) : t.grovesOf k = s.grovesOf k := by
  rw [State.grovesOf, State.grovesOf]
  exact List.filter_congr fun g _ => h.holds_eq hk g

theorem Reads.activeCores_eq {g : Nat} (hg : g < 64) : t.activeCores g = s.activeCores g := by
  rw [State.activeCores, State.activeCores]
  refine List.filter_congr fun p hp => ?_
  obtain ⟨i, hi, rfl⟩ := List.mem_map.1 hp
  rw [List.mem_range] at hi
  rw [h.role_eq (by omega)]

theorem Reads.coresOfPart_eq {k : Nat} (hk : k < 64) : t.coresOfPart k = s.coresOfPart k := by
  rw [State.coresOfPart, State.coresOfPart, h.grovesOf_eq hk]
  refine List.flatMap_congr fun g hg => h.activeCores_eq ?_
  exact List.mem_range.1 (List.mem_of_mem_filter hg)

end

theorem State.lt_of_mem_grovesOf {s : State} {k g : Nat} (h : g ∈ s.grovesOf k) : g < 64 :=
  List.mem_range.1 (List.mem_of_mem_filter h)

theorem State.lt_of_mem_coresOfPart {s : State} {k p : Nat} (h : p ∈ s.coresOfPart k) : p < 9216 := by
  obtain ⟨g, hg, hp⟩ := List.mem_flatMap.1 h
  obtain ⟨i, hi, rfl⟩ := List.mem_map.1 (List.mem_of_mem_filter hp)
  have := State.lt_of_mem_grovesOf hg
  rw [List.mem_range] at hi
  omega

end Sys2Proof.Machine
end

section
/-! SUPPORT. STEP_OPEN: the stages of opening a step, and what each writes. -/
namespace Sys2Proof.Machine

/-! ### The parity counters -/

/-- The parity counters of a grove cleared for one parity (05_fabric.md R178). -/
def State.clearGroveParity (s : State) (par g : Nat) : State :=
  (((s.wr (Reg.FAB_PC_INJ g par) 0).wr (Reg.FAB_PC_EJ g par) 0).wr (Reg.FAB_PC_XOUT g par) 0).wr (Reg.FAB_PC_XIN g par) 0

/-- The parity counters of every grove of `gs`, and the endpoints', cleared. -/
def State.clearCounters (s : State) (k par : Nat) : State :=
  (List.range 10).foldl (fun t e => t.setEpX e k par 0) ((s.grovesOf k).foldl (fun t g => t.clearGroveParity par g) s)

/-- The sums of one parity of a core cleared (10_integrity.md R343). -/
def Core.clearSums (par : Nat) (c : Core) : Core :=
  (((c.setSum par sumDLoc 0).setSum par sumRLoc 0).setSum par sumDGrv 0).setSum par sumRGrv 0

theorem State.clearParity_eq (s : State) (k par : Nat) : s.clearParity k par =
    ((s.clearCounters k par).coresOfPart k).foldl (fun t p => t.updCore p (Core.clearSums par)) (s.clearCounters k par) := rfl

theorem Core.sum_setSum (c : Core) (par i v par' j : Nat) :
    (c.setSum par i v).sum par' j = if 4 * par' + j = 4 * par + i then v else c.sum par' j := Store.get_set _ _ _ _ _

theorem Core.sum_clearSums (c : Core) (par : Nat) {i : Nat} (hi : i < 4) : (c.clearSums par).sum par i = 0 := by
  simp only [Core.clearSums, Core.sum_setSum, sumDLoc, sumRLoc, sumDGrv, sumRGrv]
  repeat' split
  all_goals first | rfl | omega

/-- The registers of a grove from STEP_GROVE_STATUS on, by offset: the parity counters lie there, and nothing of the roster. -/
theorem not_rosterKey_groveReg {g off : Nat} (hg : g < 64) (ho : off < 0x100000) : ¬RosterKey (groveReg g off) := by
  simp only [RosterKey, groveReg]
  omega

/-- The keys of the parity counters of the groves. -/
def ParityKey (key : Nat) : Prop := key < 0x4000000 ∧ 0xC3010 ≤ key % 0x100000 ∧ key % 0x100000 < 0xC3050

theorem parityKey_groveReg {g off : Nat} (hg : g < 64) (h : 0xC3010 ≤ off) (h' : off < 0xC3050) : ParityKey (groveReg g off) := by
  simp only [ParityKey, groveReg]
  omega

theorem State.clearCounters_reads (s : State) {k par : Nat} (hpar : par < 4) :
    Reads (fun key => ¬ParityKey key) s (s.clearCounters k par) := by
  refine List.foldlRecOn (motive := Reads _ s) _ _ ?_ fun t ht e _ => ht.trans Reads.refl
  refine Reads.refl.foldl fun t ht g hg => ?_
  have hg64 := State.lt_of_mem_grovesOf hg
  have hkey : ∀ off, 0xC3010 ≤ off → off < 0xC3050 → ¬¬ParityKey (groveReg g off) := fun off h h' =>
    not_not_intro (parityKey_groveReg hg64 h h')
  exact (((ht.wr (hkey _ (by omega) (by omega))).wr (hkey _ (by omega) (by omega))).wr (hkey _ (by omega) (by omega))).wr
    (hkey _ (by omega) (by omega))

/-- The four counters of a grove and a parity read 0. -/
def ParityClear (g par : Nat) (t : State) : Prop :=
  t.rd (Reg.FAB_PC_INJ g par) = 0 ∧ t.rd (Reg.FAB_PC_EJ g par) = 0 ∧ t.rd (Reg.FAB_PC_XOUT g par) = 0 ∧ t.rd (Reg.FAB_PC_XIN g par) = 0

theorem State.parityClear_clearGroveParity (s : State) (g par : Nat) : ParityClear g par (s.clearGroveParity par g) := by
  simp [ParityClear, State.clearGroveParity]

/-- A zero written over the counters leaves those that read 0 at 0. -/
theorem ParityClear.clearGroveParity {g par h : Nat} {t : State} (ht : ParityClear g par t) : ParityClear g par (t.clearGroveParity par h) := by
  obtain ⟨h1, h2, h3, h4⟩ := ht
  simp only [ParityClear, State.clearGroveParity, State.rd_wr, h1, h2, h3, h4, ite_self, and_self]

theorem State.parityClear_clearCounters (s : State) {k par g : Nat} (hg : g ∈ s.grovesOf k) : ParityClear g par (s.clearCounters k par) :=
  List.foldlRecOn (motive := ParityClear g par) _ _
    (foldl_establishes hg (fun t => t.parityClear_clearGroveParity g par) (fun _ ht _ _ => ht.clearGroveParity) s) fun _ ht _ _ => ht

theorem ParityClear.of_reads {g par : Nat} {s t : State} (h : ParityClear g par s) (ht : Reads ParityKey s t) (hg : g < 64)
    (hpar : par < 4) : ParityClear g par t := by
  obtain ⟨h1, h2, h3, h4⟩ := h
  refine ⟨(ht _ ?_).trans h1, (ht _ ?_).trans h2, (ht _ ?_).trans h3, (ht _ ?_).trans h4⟩ <;>
    exact parityKey_groveReg hg (by omega) (by omega)

/-! ### The stages of an opening -/

/-- A core is told step `n`. -/
def Core.told (n : Nat) (c : Core) : Core := { c with openComing := some n, declared := false, cut := false }

/-- Every core of the partition is told step `n`. -/
def State.tellOpen (s : State) (k n : Nat) : State := (s.coresOfPart k).foldl (fun t p => t.updCore p (Core.told n)) s

/-- Every grove of the partition begins a step of a parity. -/
def State.openGroves (s : State) (k par : Nat) : State :=
  (s.grovesOf k).foldl (fun t g =>
    (t.updGrove g fun v => { v with passed := false, asked := none, reports := [], held := false, heldCount := false }).wr
      (Reg.STEP_GROVE_STATUS g) (BitVec.ofNat 32 par)) s

/-- The partition has step `n` open. -/
def State.beginStep (s : State) (k n : Nat) : State :=
  s.updPart k fun q => { q with
    openStep := some n, closed := false, delivered := false, cut := false, heldFlag := false, stretched := false, rounds := 0,
    roundAsked := false, earlyRetract := false, spilled := 0, recEnts := [], overrun := false, mergedOpen := q.merged, merged := 0 }

/-- The registers of the sequencer show step `n` open, with the times of its opening. -/
def State.showOpen (s : State) (k n : Nat) : State :=
  let s5 := ((s.wf' (Reg.STEP_STATE k) 23 1 0).stepState k ssOpen).wr (Reg.STEP_OPEN k) (BitVec.ofNat 32 n)
  (s5.wr64 (Reg.STEP_OPEN_PTB_LO k) s5.ptb).wr64 (Reg.STEP_OPEN_REF_LO k) s5.ref

/-- A stretched tick is counted. -/
def State.countStretch (s : State) (k firePtb : Nat) (stretched : Bool) : State :=
  if stretched then
    (s.count (Reg.STEP_STRETCHED k) 1).count (Reg.STEP_STRETCH_TICKS k) ((s.ptb + 2 ^ 64 - firePtb) % 2 ^ 64)
  else s

/-- With nothing waiting at a port, an opening takes nothing in there. -/
theorem State.openIngress_of_empty {s : State} {e k n : Nat} (h : (s.port e).holdBuf = []) :
    s.openIngress e k n = s.updPort e fun v => { v with holdBuf := [] } := by
  simp [State.openIngress, h]

end Sys2Proof.Machine
end

section
/-! SUPPORT. STEP_OPEN: what the state holds once a step has opened. -/
namespace Sys2Proof.Machine

/-- Keys after the windows of the groves and cores: the timebase, the host interface and what follows it. -/
def OuterKey (key : Nat) : Prop := 0x4000000 ≤ key

theorem RosterKey.outer {key : Nat} (h : RosterKey key) : OuterKey key := by
  simp only [RosterKey, OuterKey] at *
  omega

theorem ParityKey.not_outer {key : Nat} (h : ParityKey key) : ¬OuterKey key := Nat.not_le.2 h.1

/-- The opening up to the registers that show it. -/
def State.openCore (s : State) (k n : Nat) : State :=
  (((s.clearParity k (n % 4)).tellOpen k n).openGroves k (n % 4)).beginStep k n

section
variable (s : State) {k n : Nat}

theorem State.clearParity_reads {P : Nat → Prop} {par : Nat} (hpar : par < 4) (hP : ∀ key, P key → ¬ParityKey key) :
    Reads P s (s.clearParity k par) := by
  rw [State.clearParity_eq]
  exact ((s.clearCounters_reads hpar).mono hP).foldl fun _ ht _ _ => ht.updCore

theorem State.tellOpen_reads {P : Nat → Prop} : Reads P s (s.tellOpen k n) := Reads.refl.foldl fun _ ht _ _ => ht.updCore

theorem State.openGroves_reads {P : Nat → Prop} {par : Nat} (hP : ∀ g ∈ s.grovesOf k, ¬P (Reg.STEP_GROVE_STATUS g)) :
    Reads P s (s.openGroves k par) := Reads.refl.foldl fun _ ht g hg => ht.updGrove.wr (hP g hg)

theorem not_outerKey_groveReg {g off : Nat} (hg : g < 64) (ho : off < 0x100000) : ¬OuterKey (groveReg g off) := by
  simp only [OuterKey, groveReg]
  omega

theorem State.openCore_reads : Reads OuterKey s (s.openCore k n) := by
  have h1 : Reads OuterKey s (s.clearParity k (n % 4)) :=
    s.clearParity_reads (Nat.mod_lt _ (by decide)) fun _ hk h => h.not_outer hk
  refine ((h1.trans (State.tellOpen_reads _)).trans (State.openGroves_reads _ fun g hg => ?_)).updPart
  exact not_outerKey_groveReg (State.lt_of_mem_grovesOf hg) (by decide)

theorem State.tellOpen_keeps {K : Nat} (hK : Sub 1024 K) : Keeps K s (s.tellOpen k n) :=
  keeps_foldl (fun _ _ h => State.updCore_keeps h hK) (Keeps.refl s)

theorem State.openGroves_keeps {K par : Nat} (hr : Sub 4 K) (hg : Sub 2048 K) : Keeps K s (s.openGroves k par) :=
  keeps_foldl (fun _ _ h => State.wr_keeps (State.updGrove_keeps h hg) hr) (Keeps.refl s)

/-- The registers, the cores, the groves and the counters of the endpoints: what an opening touches beside its partition. -/
theorem State.openGroves_tellOpen_keeps :
    Keeps 536873988 s (((s.clearParity k (n % 4)).tellOpen k n).openGroves k (n % 4)) :=
  ((State.clearParity_keeps (Keeps.refl s) (sub_of_land rfl)).trans (State.tellOpen_keeps _ (sub_of_land rfl))).trans
    (State.openGroves_keeps _ (sub_of_land rfl) (sub_of_land rfl))

theorem State.part_openCore (j : Nat) : (s.openCore k n).part j =
    if j = k then { s.part k with
      openStep := some n, closed := false, delivered := false, cut := false, heldFlag := false, stretched := false, rounds := 0,
      roundAsked := false, earlyRetract := false, spilled := 0, recEnts := [], overrun := false,
      mergedOpen := (s.part k).merged, merged := 0 } else s.part j := by
  have hparts : (((s.clearParity k (n % 4)).tellOpen k n).openGroves k (n % 4)).parts = s.parts :=
    s.openGroves_tellOpen_keeps.same .parts rfl
  have hpart : ∀ i, (((s.clearParity k (n % 4)).tellOpen k n).openGroves k (n % 4)).part i = s.part i := fun i => by
    rw [State.part, State.part, hparts]
  simp only [State.openCore, State.beginStep, State.part_updPart, hpart]

theorem State.ports_openCore : (s.openCore k n).ports = s.ports := s.openGroves_tellOpen_keeps.same .ports rfl

theorem State.core_openGroves {par : Nat} (p : Nat) : (s.openGroves k par).core p = s.core p := by
  have h : (s.openGroves k par).cores = s.cores := (s.openGroves_keeps (K := 2052) (sub_of_land rfl) (sub_of_land rfl)).same .cores rfl
  rw [State.core, State.core, h]

theorem State.core_openCore (p : Nat) : (s.openCore k n).core p = ((s.clearParity k (n % 4)).tellOpen k n).core p :=
  State.core_openGroves _ p

theorem State.openComing_openCore (hk : k < 64) {p : Nat} (hp : p ∈ s.coresOfPart k) : ((s.openCore k n).core p).openComing = some n := by
  have hr : Reads RosterKey s (s.clearParity k (n % 4)) :=
    s.clearParity_reads (Nat.mod_lt _ (by decide)) fun _ hk h => h.not_outer hk.outer
  rw [State.core_openCore]
  refine foldl_updCore_establishes (Q := fun c => c.openComing = some n) ?_ (fun _ => rfl) _
  rwa [hr.coresOfPart_eq hk]

theorem State.sum_openCore (hk : k < 64) {p i : Nat} (hp : p ∈ s.coresOfPart k) (hi : i < 4) :
    ((s.openCore k n).core p).sum (n % 4) i = 0 := by
  have hr : Reads RosterKey s (s.clearCounters k (n % 4)) :=
    (s.clearCounters_reads (Nat.mod_lt _ (by decide))).mono fun _ hk h => h.not_outer hk.outer
  rw [State.core_openCore, State.tellOpen]
  refine List.foldlRecOn (motive := fun t : State => (t.core p).sum (n % 4) i = 0) _ _ ?_ fun t ht q _ => ?_
  · rw [State.clearParity_eq]
    refine foldl_updCore_establishes (Q := fun c => c.sum (n % 4) i = 0) ?_ (fun c => c.sum_clearSums _ hi) _
    rwa [hr.coresOfPart_eq hk]
  · rw [State.core_updCore]
    split
    · next h => subst h; exact ht
    · exact ht

theorem State.parityClear_openCore {g : Nat} (hg : g ∈ s.grovesOf k) : ParityClear g (n % 4) (s.openCore k n) := by
  have hpar : n % 4 < 4 := Nat.mod_lt _ (by decide)
  have hcores : Reads ParityKey (s.clearCounters k (n % 4)) (s.clearParity k (n % 4)) := by
    rw [State.clearParity_eq]
    exact Reads.refl.foldl fun _ ht _ _ => ht.updCore
  have hgroves : Reads ParityKey ((s.clearParity k (n % 4)).tellOpen k n) (((s.clearParity k (n % 4)).tellOpen k n).openGroves k (n % 4)) := by
    refine State.openGroves_reads _ fun h hh => ?_
    have := State.lt_of_mem_grovesOf hh
    simp only [ParityKey, Reg.STEP_GROVE_STATUS, groveReg]
    omega
  exact (s.parityClear_clearCounters hg).of_reads ((hcores.trans (State.tellOpen_reads _)).trans hgroves).updPart
    (State.lt_of_mem_grovesOf hg) hpar

/-! ### The registers that show the step -/

theorem State.showOpen_reads {P : Nat → Prop} (hP : ∀ key, 0x6F00000 ≤ key → ¬P key) : Reads P s (s.showOpen k n) := by
  refine Reads.wr64 (Reads.wr64 (Reads.wr (Reads.wf' (Reads.wf' Reads.refl (hP _ ?_)) (hP _ ?_)) (hP _ ?_)) (hP _ ?_) (hP _ ?_)) (hP _ ?_)
    (hP _ ?_) <;> simp only [Reg.STEP_STATE, Reg.STEP_OPEN, Reg.STEP_OPEN_PTB_LO, Reg.STEP_OPEN_REF_LO] <;> omega

theorem State.countStretch_reads {P : Nat → Prop} (firePtb : Nat) (b : Bool) (h1 : ¬P (Reg.STEP_STRETCHED k))
    (h2 : ¬P (Reg.STEP_STRETCH_TICKS k)) : Reads P s (s.countStretch k firePtb b) := by
  unfold State.countStretch
  split
  · exact (Reads.refl.count h1).count h2
  · exact Reads.refl

end

/-- The registers of a step's opening show it in `t`, with the times that `s` has. -/
def ShowsOpen (k n : Nat) (s t : State) : Prop :=
  t.rd (Reg.STEP_OPEN k) = BitVec.ofNat 32 n ∧ t.rf (Reg.STEP_STATE k) 28 4 = ssOpen ∧ t.bit (Reg.STEP_STATE k) 23 = false ∧
    t.rd64 (Reg.STEP_OPEN_PTB_LO k) = s.ptb ∧ t.rd64 (Reg.STEP_OPEN_REF_LO k) = s.ref

theorem State.rd64_wr_other {s : State} {key k : Nat} {w : Word} (h : k ≠ key) (h' : k + 4 ≠ key) : (s.wr key w).rd64 k = s.rd64 k := by
  rw [State.rd64, State.rd64, State.rd_wr, if_neg h, State.rd_wr, if_neg h']

theorem State.rd64_wf'_other {s : State} {key lo n v k : Nat} (h : k ≠ key) (h' : k + 4 ≠ key) :
    (s.wf' key lo n v).rd64 k = s.rd64 k := State.rd64_wr_other h h'

theorem State.showsOpen_showOpen (s : State) (k n : Nat) : ShowsOpen k n s (s.showOpen k n) := by
  have htb : ∀ lo, lo + 4 < 0x6F00000 → ∀ t : State, t = ((s.wf' (Reg.STEP_STATE k) 23 1 0).stepState k ssOpen).wr (Reg.STEP_OPEN k)
      (BitVec.ofNat 32 n) → t.rd64 lo = s.rd64 lo := by
    rintro lo hlo t rfl
    rw [State.rd64_wr_other, State.stepState, State.rd64_wf'_other, State.rd64_wf'_other] <;>
      simp only [Reg.STEP_STATE, Reg.STEP_OPEN] <;> omega
  have hbelow : Reg.STEP_OPEN_PTB_LO k + 4 < Reg.STEP_OPEN_REF_LO k := by
    simp only [Reg.STEP_OPEN_PTB_LO, Reg.STEP_OPEN_REF_LO]; omega
  have hne : Reg.STEP_STATE k ≠ Reg.STEP_OPEN k := by simp only [Reg.STEP_STATE, Reg.STEP_OPEN]; omega
  have hlow : ∀ key, key ≤ Reg.STEP_OPEN k → ∀ (t : State) (v w : Nat),
      ((t.wr64 (Reg.STEP_OPEN_PTB_LO k) v).wr64 (Reg.STEP_OPEN_REF_LO k) w).rd key = t.rd key := fun key hkey t v w => by
    simp only [Reg.STEP_OPEN] at hkey
    rw [State.rd_wr64, if_neg, if_neg, State.rd_wr64, if_neg, if_neg] <;>
      simp only [Reg.STEP_OPEN_PTB_LO, Reg.STEP_OPEN_REF_LO] <;> omega
  have hstate : (s.showOpen k n).rd (Reg.STEP_STATE k) = setFld (setFld (s.rd (Reg.STEP_STATE k)) 23 1 0) 28 4 ssOpen := by
    rw [State.showOpen, hlow _ (by simp only [Reg.STEP_STATE, Reg.STEP_OPEN]; omega), State.rd_wr, if_neg hne]
    simp [State.stepState]
  refine ⟨?_, ?_, ?_, ?_, ?_⟩
  · rw [State.showOpen, hlow _ le_rfl, State.rd_wr, if_pos rfl]
  · rw [State.rf, hstate, fld_setFld_same _ _ _ _ (by decide)]
    rfl
  · rw [State.bit, hstate, tst, fld_setFld_below _ _ _ _ _ _ (by decide) (by decide), fld_setFld_same _ _ _ _ (by decide)]
    rfl
  · rw [State.showOpen, State.rd64_wr64_other _ _ (.inl hbelow), State.rd64_wr64_same, State.ptb, htb _ (by decide) _ rfl]
    exact Nat.mod_eq_of_lt (State.rd64_lt _ _)
  · rw [State.showOpen, State.rd64_wr64_same, State.ref, htb _ (by decide) _ rfl]
    exact Nat.mod_eq_of_lt (State.rd64_lt _ _)

theorem ShowsOpen.of_reads {k n : Nat} {s t u : State} (h : ShowsOpen k n s t)
    (hu : Reads (fun key => 0x6F0000C + 0x400 * k ≤ key ∧ key < 0x6F00028 + 0x400 * k) t u) : ShowsOpen k n s u := by
  simpa only [ShowsOpen, State.rf, State.bit, State.rd64,
    hu (Reg.STEP_OPEN k) (by simp only [Reg.STEP_OPEN]; omega), hu (Reg.STEP_STATE k) (by simp only [Reg.STEP_STATE]; omega),
    hu (Reg.STEP_OPEN_PTB_LO k) (by simp only [Reg.STEP_OPEN_PTB_LO]; omega),
    hu (Reg.STEP_OPEN_PTB_LO k + 4) (by simp only [Reg.STEP_OPEN_PTB_LO]; omega),
    hu (Reg.STEP_OPEN_REF_LO k) (by simp only [Reg.STEP_OPEN_REF_LO]; omega),
    hu (Reg.STEP_OPEN_REF_LO k + 4) (by simp only [Reg.STEP_OPEN_REF_LO]; omega)] using h

theorem State.mayOpen_eq_false {s : State} {k : Nat} (h : s.pstate k ≠ psRunning) : s.mayOpen k = false := by
  simp [State.mayOpen, h]

theorem State.mayCommit_eq_false {s : State} {k : Nat} (h : s.pstate k ≠ psRunning) : s.mayCommit k = false := by
  simp [State.mayCommit, h]

/-- The step open and shown, with a stretched tick counted. -/
def State.opened (s : State) (k n : Nat) : State :=
  ((s.openCore k n).showOpen k n).countStretch k (s.part k).firePtb ((s.part k).overrun && !(s.part k).cut)

theorem State.openNext_eq (s : State) {k n : Nat} (hn : n = ((s.rd (Reg.STEP_COMMITTED k)).toNat + 1) % 2 ^ 32) :
    s.openNext k = ((s.opened k n).openIngress 0 k n).openIngress 1 k n := by
  subst hn
  rfl

/-- What shows the step touches registers only. -/
theorem State.opened_keeps (s : State) (k n : Nat) : Keeps 4 (s.openCore k n) (s.opened k n) := by
  have h : Keeps 4 (s.openCore k n) ((s.openCore k n).showOpen k n) :=
    State.wr64_keeps (State.wr64_keeps (State.wr_keeps (State.wf'_keeps (State.wf'_keeps (Keeps.refl _) (.same rfl)) (.same rfl))
      (.same rfl)) (.same rfl)) (.same rfl)
  unfold State.opened State.countStretch
  split
  · exact State.count_keeps (State.count_keeps h (.same rfl)) (.same rfl)
  · exact h

theorem State.port_opened (s : State) (k n e : Nat) : (s.opened k n).port e = s.port e := by
  have h : (s.opened k n).ports = (s.openCore k n).ports := (s.opened_keeps k n).same .ports rfl
  rw [State.port, State.port, h, State.ports_openCore]

theorem State.part_opened (s : State) (k n j : Nat) : (s.opened k n).part j = (s.openCore k n).part j := by
  have h : (s.opened k n).parts = (s.openCore k n).parts := (s.opened_keeps k n).same .parts rfl
  rw [State.part, State.part, h]

theorem State.core_opened (s : State) (k n p : Nat) : (s.opened k n).core p = (s.openCore k n).core p := by
  have h : (s.opened k n).cores = (s.openCore k n).cores := (s.opened_keeps k n).same .cores rfl
  rw [State.core, State.core, h]

/-- Where nothing waits at the event ports, the opening is all there is. -/
theorem State.openNext_eq_of_nothingWaits {s : State} {k n : Nat} (hn : n = ((s.rd (Reg.STEP_COMMITTED k)).toNat + 1) % 2 ^ 32)
    (h0 : (s.port 0).holdBuf = []) (h1 : (s.port 1).holdBuf = []) : s.openNext k =
      ((s.opened k n).updPort 0 fun v => { v with holdBuf := [] }).updPort 1 fun v => { v with holdBuf := [] } := by
  have e0 : ((s.opened k n).port 0).holdBuf = [] := by rw [State.port_opened, h0]
  have e1 : (((s.opened k n).updPort 0 fun v => { v with holdBuf := [] }).port 1).holdBuf = [] := by
    rw [State.port_updPort, if_neg (by decide), State.port_opened, h1]
  exact (State.openNext_eq s hn).trans ((congrArg (fun t => t.openIngress 1 k n) (State.openIngress_of_empty e0)).trans
    (State.openIngress_of_empty e1))

theorem State.showsOpen_opened (s : State) (k n : Nat) : ShowsOpen k n s (s.opened k n) := by
  have hpre : ShowsOpen k n (s.openCore k n) (s.opened k n) :=
    (State.showsOpen_showOpen _ k n).of_reads (State.countStretch_reads _ _ _ (by simp only [Reg.STEP_STRETCHED]; omega)
      (by simp only [Reg.STEP_STRETCH_TICKS]; omega))
  have hr := s.openCore_reads (k := k) (n := n)
  have hptb : (s.openCore k n).ptb = s.ptb := by
    rw [State.ptb, State.ptb, State.rd64, State.rd64, hr _ (by unfold OuterKey; decide), hr _ (by unfold OuterKey; decide)]
  have href : (s.openCore k n).ref = s.ref := by
    rw [State.ref, State.ref, State.rd64, State.rd64, hr _ (by unfold OuterKey; decide), hr _ (by unfold OuterKey; decide)]
  rwa [ShowsOpen, hptb, href] at hpre

theorem State.parityClear_opened (s : State) {k n g : Nat} (hg : g ∈ s.grovesOf k) : ParityClear g (n % 4) (s.opened k n) := by
  have hlow : ∀ key, 0x6F00000 ≤ key → ¬ParityKey key := fun key h hp => by
    unfold ParityKey at hp
    omega
  refine (s.parityClear_openCore (n := n) hg).of_reads ?_ (State.lt_of_mem_grovesOf hg) (Nat.mod_lt _ (by decide))
  exact (State.showOpen_reads _ hlow).trans (State.countStretch_reads _ _ _ (hlow _ (by simp only [Reg.STEP_STRETCHED]; omega))
    (hlow _ (by simp only [Reg.STEP_STRETCH_TICKS]; omega)))

/-- Settles O31: the stages of an opening write the parts that the statement names, and no later stage changes what an earlier one
wrote. -/
theorem stepsOpen : Obligations.StepsOpen := by
  refine ⟨fun s k n hk hn hmay h0 h1 => ?_, fun s k h => ⟨?_, ?_⟩⟩
  · refine completes_of (t := s.openNext k) (by simp only [exec, execStepOpen, hmay, if_true]) ?_
    have ht := State.openNext_eq_of_nothingWaits hn h0 h1
    have hrd : ∀ P, Reads P (s.opened k n) (s.openNext k) := fun P => ht ▸ Reads.refl.updPort.updPort
    have hcore : ∀ p, (s.openNext k).core p = (s.openCore k n).core p := fun p => by
      rw [ht, State.core_updPort, State.core_updPort, State.core_opened]
    have hpart : ∀ j, (s.openNext k).part j = _ := fun j => by
      rw [ht, State.part_updPort, State.part_updPort, State.part_opened, State.part_openCore]
    obtain ⟨hopen, hst, hfire, hptb, href⟩ := (s.showsOpen_opened k n).of_reads (hrd _)
    generalize s.openNext k = t at *
    refine ⟨?_, ?_, ?_, fun j hj => (hpart j).trans (if_neg hj), hopen, hst, hfire, hptb, href, fun p hp => ?_, fun g hg => ?_,
      fun p hp i hi => ?_⟩
    · rw [hpart, if_pos rfl]
    · rw [hpart, if_pos rfl]
    · rw [hpart, if_pos rfl]
    · rw [hcore, s.openComing_openCore hk hp]
    · exact (s.parityClear_opened hg).of_reads (hrd _) (State.lt_of_mem_grovesOf hg) (Nat.mod_lt _ (by decide))
    · rw [hcore, s.sum_openCore hk hp hi]
  · simp only [exec, execStepOpen, State.mayOpen_eq_false h, Bool.false_eq_true, if_false]
  · simp only [exec, execPartitionCommit, State.mayCommit_eq_false h]

end Sys2Proof.Machine
end

section
/-! SUPPORT. Registers after the operations that several commands share: a failure report, the count of SAPLINGS, a wake of power
domains, a handover of memory banks; and memory after a clear. -/
namespace Sys2Proof.Machine

variable {P : Nat → Prop}

theorem Reads.countWrap {s0 s : State} {key n : Nat} (h : Reads P s0 s) (hk : ¬P key) : Reads P s0 (s.countWrap key n) := h.wr hk

theorem Reads.ite {s0 a b : State} {c : Prop} [Decidable c] (ha : Reads P s0 a) (hb : Reads P s0 b) :
    Reads P s0 (if c then a else b) := by
  split
  · exact ha
  · exact hb

theorem State.toCollectors_reads (s : State) (msg : List Byte) : Reads P s (s.toCollectors msg) :=
  Reads.refl.foldl fun _ ht _ _ => ht.trans Reads.refl

/-- A report writes its sequence number and, as the queue has room or not, the queue's length or the count of lost records. -/
theorem State.report_reads (s : State) (cls : Nat) (k : SigKeys) (hseq : ¬P Reg.INT_FSIG_SEQ) (hq : ¬P Reg.MGT_QUEUES)
    (hlost : ¬P Reg.INT_FSIG_LOST) : Reads P s (s.report cls k) := by
  have h1 : Reads P s (s.wr Reg.INT_FSIG_SEQ (s.rd Reg.INT_FSIG_SEQ + 1)) := Reads.refl.wr hseq
  have hrec : ∀ r msg, Reads P s ((({ s.wr Reg.INT_FSIG_SEQ (s.rd Reg.INT_FSIG_SEQ + 1) with
      sigs := s.sigs ++ [r] } : State).wf' Reg.MGT_QUEUES 8 7 (s.sigs.length + 1)).toCollectors msg) := fun r msg =>
    (h1.trans (Reads.wf' (s := { s.wr Reg.INT_FSIG_SEQ (s.rd Reg.INT_FSIG_SEQ + 1) with sigs := s.sigs ++ [r] }) Reads.refl hq)).trans
      (State.toCollectors_reads _ _)
  unfold State.report
  dsimp only
  split <;> split
  · exact (hrec _ _).updPart
  · exact (h1.count hlost).updPart
  · exact hrec _ _
  · exact h1.count hlost

theorem State.noteSaplings_reads (s : State) (g : Nat) (hgrv : ¬P (Reg.INT_GRV_STATUS g)) (hseq : ¬P Reg.INT_FSIG_SEQ)
    (hq : ¬P Reg.MGT_QUEUES) (hlost : ¬P Reg.INT_FSIG_LOST) : Reads P s (s.noteSaplings g) := by
  have h1 : Reads P s (s.wf' (Reg.INT_GRV_STATUS g) 16 8 (s.saplingCount g)) := Reads.refl.wf' hgrv
  unfold State.noteSaplings
  dsimp only
  split
  · split
    · exact h1.trans (Reads.trans (Reads.updGrove Reads.refl) (State.report_reads _ _ _ hseq hq hlost))
    · exact h1
  · exact h1.updGrove

/-! ### A record after it is written -/

theorem State.core_updCore_same (s : State) (p : Nat) (f : Core → Core) : (s.updCore p f).core p = f (s.core p) := by
  rw [State.core_updCore, if_pos rfl]

theorem State.grove_updGrove_same (s : State) (g : Nat) (f : Grove → Grove) : (s.updGrove g f).grove g = f (s.grove g) := by
  rw [State.grove_updGrove, if_pos rfl]

/-! ### Fields of a register after a field is written -/

@[simp] theorem State.rf_updCore (s : State) (p : Nat) (f : Core → Core) (key lo n : Nat) : (s.updCore p f).rf key lo n = s.rf key lo n := rfl

theorem State.rf_wf'_same (s : State) (key v : Nat) {lo n : Nat} (h : lo + n ≤ 32) : (s.wf' key lo n v).rf key lo n = v % 2 ^ n := by
  rw [State.rf, State.rd_wf', if_pos rfl, fld_setFld_same _ _ _ _ h]

theorem State.rf_wf'_above (s : State) (key v : Nat) {lo n lo' n' : Nat} (h : lo + n ≤ lo') (h' : lo' ≤ 32) :
    (s.wf' key lo n v).rf key lo' n' = s.rf key lo' n' := by
  rw [State.rf, State.rd_wf', if_pos rfl, fld_setFld_above _ _ _ _ _ _ h h', State.rf]

theorem State.rf_wf'_below (s : State) (key v : Nat) {lo n lo' n' : Nat} (h : lo' + n' ≤ lo) (h' : lo + n ≤ 32) :
    (s.wf' key lo n v).rf key lo' n' = s.rf key lo' n' := by
  rw [State.rf, State.rd_wf', if_pos rfl, fld_setFld_below _ _ _ _ _ _ h h', State.rf]

theorem Reads.rf_eq {s t : State} (h : Reads P s t) {key : Nat} (hk : P key) (lo n : Nat) : t.rf key lo n = s.rf key lo n := by
  rw [State.rf, h key hk, State.rf]

theorem Reads.bit_eq {s t : State} (h : Reads P s t) {key : Nat} (hk : P key) (i : Nat) : t.bit key i = s.bit key i := by
  rw [State.bit, h key hk, State.bit]

/-! ### Power domains -/

@[simp] theorem State.rd_setStage (s : State) (d : Dom) (v : Option (Nat × Nat)) (key : Nat) : (s.setStage d v).rd key = s.rd key := rfl

theorem Reads.setStage {s0 s : State} {d : Dom} {v : Option (Nat × Nat)} (h : Reads P s0 s) : Reads P s0 (s.setStage d v) :=
  fun key hk => (s.rd_setStage d v key).trans (h key hk)

theorem Reads.holdReq {s0 s : State} {d : Dom} {v : Nat} {shown : Bool} (h : Reads P s0 s) (hd : ¬P (d.base + 4)) :
    Reads P s0 (s.holdReq d v shown) := h.trans (Reads.wf' (s := { s with pwrHeld := _ }) Reads.refl hd)

theorem State.beginWake_reads (s : State) {d : Dom} (hst : ∀ st, d ≠ .hbm st) (hd : ¬P (d.base + 4)) : Reads P s (s.beginWake d) := by
  have hset : Reads P s ((s.setPw d pwWaking).setStage d (some (0, if s.lost d then 2 else 1))) :=
    (Reads.refl.wf' hd).setStage
  unfold State.beginWake
  dsimp only
  split
  · exact absurd rfl (hst _)
  · exact hset

theorem State.askOn1_reads (s : State) {d : Dom} (hst : ∀ st, d ≠ .hbm st) (hb : ¬P d.base) (hd : ¬P (d.base + 4)) :
    Reads P s (s.askOn1 d) := by
  have h1 : Reads P s (s.wf' d.base 0 2 0) := Reads.refl.wf' hb
  unfold State.askOn1
  exact Reads.ite h1 (Reads.ite (h1.trans (State.beginWake_reads _ hst hd)) (Reads.ite (h1.holdReq hd) (h1.holdReq hd)))

/-- A wake of a core's logic writes registers of that core's domains and of its grove's sync unit only. -/
theorem State.wakeCore_reads (s : State) {p : Nat} (hcore : ∀ off, 0xE00 ≤ off → off < 0xE28 → ¬P (coreReg p off))
    (hgrove : ∀ off, 0xC4000 ≤ off → off < 0xC4008 → ¬P (groveReg (p / 144) off)) : Reads P s (s.wakeCore p) := by
  have hne : ∀ d : Dom, d ∈ (Dom.logic p).needs ∨ d = .logic p → (∀ st, d ≠ .hbm st) ∧ ¬P d.base ∧ ¬P (d.base + 4) := by
    intro d hd
    simp only [Dom.needs, List.mem_cons, List.not_mem_nil, or_false] at hd
    rcases hd with (rfl | rfl | rfl) | rfl
    · exact ⟨fun _ => Dom.noConfusion, hcore 0xE10 (by decide) (by decide), hcore 0xE14 (by decide) (by decide)⟩
    · exact ⟨fun _ => Dom.noConfusion, hcore 0xE20 (by decide) (by decide), hcore 0xE24 (by decide) (by decide)⟩
    · exact ⟨fun _ => Dom.noConfusion, hgrove 0xC4000 (by decide) (by decide), hgrove 0xC4004 (by decide) (by decide)⟩
    · exact ⟨fun _ => Dom.noConfusion, hcore 0xE00 (by decide) (by decide), hcore 0xE04 (by decide) (by decide)⟩
  have hask : ∀ t d, d ∈ (Dom.logic p).needs ∨ d = .logic p → Reads P s t → Reads P s (t.askOn1 d) := fun t d hd ht => by
    obtain ⟨hst, hb, hb4⟩ := hne d hd
    exact ht.trans (t.askOn1_reads hst hb hb4)
  unfold State.wakeCore State.powerOn
  split
  · exact hask _ _ (.inr rfl) (Reads.refl.foldl fun t ht d hd => hask t d (.inl hd) ht)
  · exact Reads.refl

/-! ### Memory banks -/

theorem find?_handover (l : List (Nat × Nat)) (b own : Nat) :
    (l.filter (·.1 != b) ++ [(b, own)]).find? (·.1 == b) = some (b, own) := by
  have h : (l.filter (·.1 != b)).find? (·.1 == b) = none :=
    List.find?_eq_none.2 fun x hx => by simpa using (List.mem_filter.1 hx).2
  rw [List.find?_append, h, Option.none_or, List.find?_cons_of_pos (by simp)]

theorem State.handover_handBank (s : State) (p b own : Nat) :
    ((s.handBank p b own).core p).handover.find? (·.1 == b) = some (b, own) := by
  unfold State.handBank State.bankResult
  rw [State.core_wr, State.core_updCore, if_pos rfl]
  exact find?_handover _ b own

/-- A bank that the device moves is handed over, and the handover takes effect. -/
theorem State.moveBank_eq (s : State) (p own b : Nat) : s.moveBank p own b =
    (((s.handBank p b own).wf' (Reg.MEM_BANK_OWNER p b) 30 2 own).wf' (Reg.MEM_BANK_OWNER p b) 29 1 0).updCore p
      fun c => { c with handover := c.handover.filter (·.1 != b) } := by
  unfold State.moveBank State.bankEffect
  rw [State.handover_handBank]

/-- The registers of the handover of a bank. -/
theorem State.moveBank_reads (s : State) {p own b : Nat} (hown : ¬P (Reg.MEM_BANK_OWNER p b)) (hst : ¬P (Reg.MEM_BANK_STATUS p)) :
    Reads P s (s.moveBank p own b) := by
  have h1 : Reads P s (s.handBank p b own) := ((Reads.refl.wf' hown).wf' hown).updCore.wr hst
  rw [State.moveBank_eq]
  exact ((h1.wf' hown).wf' hown).updCore

theorem State.bankOwner_moveBank (s : State) (p b : Nat) {own : Nat} (h : own < 4) : (s.moveBank p own b).bankOwner p b = own := by
  rw [State.moveBank_eq, State.bankOwner, State.rf_updCore, State.rf_wf'_above _ _ _ (by decide) (by decide),
    State.rf_wf'_same _ _ _ (by decide)]
  omega

theorem State.bankOwner_moveBanks (s : State) (p : Nat) {b own : Nat} (hb : b < 16) (h : own < 4) :
    (s.moveBanks p own).bankOwner p b = own := by
  refine foldl_establishes (P := fun t : State => t.bankOwner p b = own) (List.mem_range.2 hb)
    (fun t => t.bankOwner_moveBank p b h) (fun t ht c hc => ?_) s
  rw [List.mem_range] at hc
  by_cases e : c = b
  · rw [e, t.bankOwner_moveBank p b h]
  · have hr : Reads (· = Reg.MEM_BANK_OWNER p b) t (t.moveBank p own c) := t.moveBank_reads
      (by simp only [Reg.MEM_BANK_OWNER, coreReg]; omega) (by simp only [Reg.MEM_BANK_OWNER, Reg.MEM_BANK_STATUS, coreReg]; omega)
    rw [State.bankOwner, State.rf, hr _ rfl]
    exact ht

theorem State.moveBanks_reads (s : State) {p own : Nat} (h : ∀ off, 0xF00 ≤ off → off < 0xF44 → ¬P (coreReg p off)) :
    Reads P s (s.moveBanks p own) := by
  refine Reads.refl.foldl fun t ht b hb => ht.trans (t.moveBank_reads (h _ ?_ ?_) (h _ (by decide) (by decide))) <;>
    rw [List.mem_range] at hb <;> omega

/-! ### Memory -/

theorem Store.get_clearAll {β : Type} (d : Nat → β) (p : Nat → Bool) (m : Store β) (k : Nat) :
    Store.get d (Store.clearAll p m) k = if p k then d k else Store.get d m k := by
  induction m with
  | nil => simp [Store.clearAll, Store.get]
  | cons e m ih =>
    obtain ⟨a, v⟩ := e
    by_cases ha : a = k
    · subst ha
      cases hp : p a <;> simp_all [Store.clearAll, Store.get]
    · cases hp : p a <;> simp_all [Store.clearAll, Store.get]

theorem State.byte_clearMem (s : State) (p : Nat) {o : Nat} (ho : o < 0x40000) : (s.clearMem p).byte p o = 0 := by
  have hk : (memKey p o / 0x40000 == p) = true := by
    simp only [memKey, beq_iff_eq]
    omega
  rw [State.byte, State.clearMem, State.memClear, Store.get_clearAll, if_pos hk]
  rfl

end Sys2Proof.Machine
end

section
/-! SUPPORT. In-field tests (10_integrity.md R368 to R371): what beginning and ending a test leaves in the registers and in memory. -/
namespace Sys2Proof.Machine

theorem State.grove_report (s : State) (cls : Nat) (k : SigKeys) (g : Nat) : (s.report cls k).grove g = s.grove g := by
  have h : (s.report cls k).groves = s.groves := (State.report_keeps (Keeps.refl s) (.same rfl)).same .groves rfl
  rw [State.grove, State.grove, h]

theorem State.core_report (s : State) (cls : Nat) (k : SigKeys) (p : Nat) : (s.report cls k).core p = s.core p := by
  have h : (s.report cls k).cores = s.cores := (State.report_keeps (Keeps.refl s) (.same rfl)).same .cores rfl
  rw [State.core, State.core, h]

theorem State.byte_report (s : State) (cls : Nat) (k : SigKeys) (p o : Nat) : (s.report cls k).byte p o = s.byte p o := by
  have h : (s.report cls k).mem = s.mem := (State.report_keeps (Keeps.refl s) (.same rfl)).same .mem rfl
  rw [State.byte, State.byte, h]

/-- Counting the SAPLINGS of a grove changes no grove but for what arms its report. -/
theorem State.grove_noteSaplings (s : State) (g h : Nat) : ∃ armed, (s.noteSaplings g).grove h = { s.grove h with lowArmed := armed } := by
  have hupd : ∀ (t : State) (a : Option Bool), t.grove h = s.grove h →
      ∃ armed, (t.updGrove g fun v => { v with lowArmed := a }).grove h = { s.grove h with lowArmed := armed } := fun t a ht => by
    rw [State.grove_updGrove]
    split
    · next e => subst e; exact ⟨a, by rw [ht]⟩
    · exact ⟨(s.grove h).lowArmed, ht⟩
  unfold State.noteSaplings
  dsimp only
  split
  · split
    · rw [State.grove_report]
      exact hupd _ _ (State.grove_wf' ..)
    · exact ⟨(s.grove h).lowArmed, State.grove_wf' ..⟩
  · exact hupd _ _ (State.grove_wf' ..)

theorem State.core_noteSaplings (s : State) (g p : Nat) : (s.noteSaplings g).core p = s.core p := by
  have h : (s.noteSaplings g).cores = s.cores := (State.noteSaplings_keeps (Keeps.refl s) (.same rfl)).same .cores rfl
  rw [State.core, State.core, h]

theorem State.role_setRole (s : State) (p logical : Nat) {role : Nat} (h : role < 16) : (s.setRole p role logical).role p = role := by
  rw [State.role, State.rf, State.setRole, State.rd_wr, if_pos rfl, fld, BitVec.toNat_ofNat]
  omega

theorem State.rd_mapEvent (s : State) : s.mapEvent.rd Reg.INT_MAP_GEN = s.rd Reg.INT_MAP_GEN + 1 := by
  rw [State.mapEvent, State.countWrap, State.rd_wr, if_pos rfl]
  rfl

theorem Reads.setRole {P : Nat → Prop} {s0 s : State} {p role logical : Nat} (h : Reads P s0 s) (hp : ¬P (Reg.INT_PHYS_STATE p)) :
    Reads P s0 (s.setRole p role logical) := h.wr hp

theorem Reads.mapEvent {P : Nat → Prop} {s0 s : State} (h : Reads P s0 s) (hm : ¬P Reg.INT_MAP_GEN) : Reads P s0 s.mapEvent := h.wr hm

/-- A register that a change of role, its count and the SAPLINGS' leave. -/
theorem Reads.noteSaplings {P : Nat → Prop} {s0 s : State} {g : Nat} (h : Reads P s0 s) (hgrv : ¬P (Reg.INT_GRV_STATUS g))
    (hseq : ¬P Reg.INT_FSIG_SEQ) (hq : ¬P Reg.MGT_QUEUES) (hlost : ¬P Reg.INT_FSIG_LOST) : Reads P s0 (s.noteSaplings g) :=
  h.trans (s.noteSaplings_reads g hgrv hseq hq hlost)

/-- The end of every change of a core's role: the role, the count of map events, the SAPLINGS. -/
def State.changeRole (s : State) (p role : Nat) : State := ((s.setRole p role 0).mapEvent).noteSaplings (p / 144)

section
variable (s : State) {p role : Nat}

theorem State.rd_changeRole {key : Nat} (h1 : key ≠ Reg.INT_PHYS_STATE p) (h2 : key ≠ Reg.INT_MAP_GEN)
    (h3 : key ≠ Reg.INT_GRV_STATUS (p / 144)) (h4 : key ∉ [Reg.INT_FSIG_SEQ, Reg.MGT_QUEUES, Reg.INT_FSIG_LOST]) :
    (s.changeRole p role).rd key = s.rd key := by
  simp only [List.mem_cons, List.not_mem_nil, or_false, not_or] at h4
  exact ((Reads.refl.setRole h1.symm).mapEvent h2.symm).noteSaplings (P := (· = key)) h3.symm (Ne.symm h4.1) (Ne.symm h4.2.1)
    (Ne.symm h4.2.2) key rfl

theorem State.role_changeRole (hp : p < 9216) (h : role < 16) : (s.changeRole p role).role p = role := by
  have hr : Reads (· = Reg.INT_PHYS_STATE p) (s.setRole p role 0) (s.changeRole p role) :=
    (Reads.refl.mapEvent (by simp only [Reg.INT_MAP_GEN, Reg.INT_PHYS_STATE]; omega)).noteSaplings
      (by simp only [Reg.INT_GRV_STATUS, groveReg, Reg.INT_PHYS_STATE]; omega)
      (by simp only [Reg.INT_FSIG_SEQ, Reg.INT_PHYS_STATE]; omega) (by simp only [Reg.MGT_QUEUES, Reg.INT_PHYS_STATE]; omega)
      (by simp only [Reg.INT_FSIG_LOST, Reg.INT_PHYS_STATE]; omega)
  rw [State.role, hr.rf_eq rfl]
  exact s.role_setRole p 0 h

theorem State.mapGen_changeRole (hp : p < 9216) : (s.changeRole p role).rd Reg.INT_MAP_GEN = s.rd Reg.INT_MAP_GEN + 1 := by
  have hr : Reads (· = Reg.INT_MAP_GEN) (s.setRole p role 0).mapEvent (s.changeRole p role) :=
    Reads.refl.noteSaplings (by simp only [Reg.INT_GRV_STATUS, groveReg, Reg.INT_MAP_GEN]; omega) (by decide) (by decide) (by decide)
  rw [hr _ rfl, State.rd_mapEvent, State.setRole, State.rd_wr, if_neg]
  simp only [Reg.INT_PHYS_STATE, Reg.INT_MAP_GEN]
  omega

end

/-! ### The tests -/

/-- The end of a test, before its result is counted: memory cleared, the banks CORE's, no test in the grove. -/
def State.testEnded (s : State) (p : Nat) : State :=
  (((s.clearMem p).moveBanks p ownCore).updGrove (p / 144) fun v => { v with testing := none }).updCore p
    fun c => { c with testEnd := some s.ref }

theorem exec_testDone_pass {s : State} {p pattern : Nat}
    (h : s.role p = roleTest ∧ (s.grove (p / 144)).testing = some p ∧ (s.grove (p / 144)).faulted = none) :
    exec (.testDone p true pattern) s = .next ((((s.testEnded p).wr (Reg.INT_TEST_LAST p) (BitVec.ofNat 32 (s.ref / 10 ^ 9))).count
      Reg.INT_TEST_PASSED 1).changeRole p roleSapling) := by
  simp only [exec, execTestDone, if_pos h]
  rfl

theorem exec_testDone_fail {s : State} {p pattern : Nat}
    (h : s.role p = roleTest ∧ (s.grove (p / 144)).testing = some p ∧ (s.grove (p / 144)).faulted = none) :
    exec (.testDone p false pattern) s = .next ((((s.testEnded p).count Reg.INT_TEST_FAILED 1).report fltTestFail
      { part := s.partOf (p / 144), core := some p, grove := some (p / 144), detail := [pattern] }).changeRole p roleFenced) := by
  simp only [exec, execTestDone, if_pos h]
  rfl

theorem exec_testMigrate_sapling {s : State} {p : Nat} (hp : p < 9216) (hdue : s.bit (Reg.INT_TEST p) 30 = true)
    (hmay : s.mayTest p = true) (hon : s.coreOn p = true) (hrole : s.role p = roleSapling) :
    exec (.testMigrate p) s = .next (((s.changeRole p roleTest).testBegun p).moveBanks p ownTest) := by
  simp only [exec, execTestMigrate, if_pos (And.intro hp (And.intro hdue hmay)), hon, hrole]
  rfl

end Sys2Proof.Machine
end

section
/-! SUPPORT. In-field tests: each of the four commands. -/
namespace Sys2Proof.Machine

section
variable (s : State) {p role : Nat}

theorem State.changeRole_keeps : Keeps 8797166770180 s (s.changeRole p role) :=
  State.noteSaplings_keeps (State.mapEvent_keeps (State.setRole_keeps (Keeps.refl s) (sub_of_land rfl)) (sub_of_land rfl))
    (sub_of_land rfl)

theorem State.core_changeRole (q : Nat) : (s.changeRole p role).core q = s.core q := by
  have h : (s.changeRole p role).cores = s.cores := s.changeRole_keeps.same .cores rfl
  rw [State.core, State.core, h]

theorem State.byte_changeRole (q o : Nat) : (s.changeRole p role).byte q o = s.byte q o := by
  have h : (s.changeRole p role).mem = s.mem := s.changeRole_keeps.same .mem rfl
  rw [State.byte, State.byte, h]

theorem State.testing_changeRole (g : Nat) : ((s.changeRole p role).grove g).testing = (s.grove g).testing := by
  obtain ⟨armed, h⟩ := State.grove_noteSaplings ((s.setRole p role 0).mapEvent) (p / 144) g
  rw [State.changeRole, h, State.mapEvent, State.countWrap, State.grove_wr, State.setRole, State.grove_wr]

theorem State.bankOwner_changeRole (hp : p < 9216) {b : Nat} (hb : b < 16) :
    (s.changeRole p role).bankOwner p b = s.bankOwner p b := by
  rw [State.bankOwner, State.bankOwner, State.rf, State.rf, s.rd_changeRole] <;>
    simp only [Reg.MEM_BANK_OWNER, coreReg, Reg.INT_PHYS_STATE, Reg.INT_MAP_GEN, Reg.INT_GRV_STATUS, groveReg, Reg.INT_FSIG_SEQ,
      Reg.MGT_QUEUES, Reg.INT_FSIG_LOST, List.mem_cons, List.not_mem_nil, or_false, not_or] <;> omega

/-! ### The end of a test -/

theorem State.byte_testEnded {o : Nat} (ho : o < 0x40000) : (s.testEnded p).byte p o = 0 := by
  have h : ((s.clearMem p).moveBanks p ownCore).mem = (s.clearMem p).mem :=
    (State.moveBanks_keeps (Keeps.refl _) (.same rfl)).same .mem rfl
  rw [State.testEnded, State.byte_updCore, State.byte_updGrove, State.byte, h]
  exact s.byte_clearMem p ho

theorem State.bankOwner_testEnded {b : Nat} (hb : b < 16) : (s.testEnded p).bankOwner p b = ownCore := by
  rw [State.testEnded, State.bankOwner, State.rf_updCore, State.rf, State.rd_updGrove]
  exact (s.clearMem p).bankOwner_moveBanks p hb (by decide)

theorem State.testing_testEnded : ((s.testEnded p).grove (p / 144)).testing = none := by
  rw [State.testEnded, State.grove_updCore, State.grove_updGrove_same]

theorem State.testEnd_testEnded : ((s.testEnded p).core p).testEnd = some s.ref := by
  rw [State.testEnded, State.core_updCore_same]

@[simp] theorem State.rd_memClear (f : Nat → Bool) (key : Nat) : (s.memClear f).rd key = s.rd key := rfl

/-- Ending a test writes the registers of the core's banks only. -/
theorem State.rd_testEnded (hp : p < 9216) {key : Nat} (hkey : OuterKey key) : (s.testEnded p).rd key = s.rd key := by
  have h : Reads (· = key) (s.clearMem p) ((s.clearMem p).moveBanks p ownCore) := State.moveBanks_reads _ fun off h1 h2 e => by
    simp only [OuterKey, ← e, coreReg] at hkey
    omega
  rw [State.testEnded, State.rd_updCore, State.rd_updGrove, h key rfl]
  exact s.rd_memClear _ key

/-- What the end of a test leaves, whichever result it has: `u` has ended the test and counted the result. -/
theorem State.testDone_leaves {s u : State} (hp : p < 9216) (hcore : ∀ q, u.core q = (s.testEnded p).core q)
    (hgrove : ∀ g, u.grove g = (s.testEnded p).grove g) (hbyte : ∀ o, u.byte p o = (s.testEnded p).byte p o)
    (hbank : ∀ b, b < 16 → u.bankOwner p b = (s.testEnded p).bankOwner p b) :
    ((u.changeRole p role).grove (p / 144)).testing = none ∧ ((u.changeRole p role).core p).testEnd = some s.ref ∧
      (∀ b, b < 16 → (u.changeRole p role).bankOwner p b = ownCore) ∧ ∀ o, o < 0x40000 → (u.changeRole p role).byte p o = 0 := by
  refine ⟨?_, ?_, fun b hb => ?_, fun o ho => ?_⟩
  · rw [State.testing_changeRole, hgrove, State.testing_testEnded]
  · rw [State.core_changeRole, hcore, State.testEnd_testEnded]
  · rw [State.bankOwner_changeRole _ hp hb, hbank b hb, State.bankOwner_testEnded _ hb]
  · rw [State.byte_changeRole, hbyte, State.byte_testEnded _ ho]

theorem testDone_pass_completes {s : State} {p pattern : Nat} (hp : p < 9216)
    (h : s.role p = roleTest ∧ (s.grove (p / 144)).testing = some p ∧ (s.grove (p / 144)).faulted = none) :
    completes (.testDone p true pattern) s fun t => t.role p = roleSapling ∧ (t.grove (p / 144)).testing = none ∧
      (t.core p).testEnd = some s.ref ∧ (∀ b, b < 16 → t.bankOwner p b = ownCore) ∧ (∀ o, o < 0x40000 → t.byte p o = 0) ∧
      t.rd Reg.INT_TEST_PASSED = sticky (s.rd Reg.INT_TEST_PASSED) 1 := by
  refine completes_of (exec_testDone_pass h) ⟨State.role_changeRole _ hp (by decide), ?_⟩
  obtain ⟨htest, hend, hbank, hbyte⟩ := State.testDone_leaves (role := roleSapling) (s := s)
    (u := ((s.testEnded p).wr (Reg.INT_TEST_LAST p) (BitVec.ofNat 32 (s.ref / 10 ^ 9))).count Reg.INT_TEST_PASSED 1) hp
    (fun q => by rw [State.core_count, State.core_wr]) (fun g => by rw [State.grove_count, State.grove_wr])
    (fun o => by rw [State.byte_count, State.byte_wr]) fun b hb => by
      rw [State.bankOwner, State.bankOwner, State.rf, State.rf, State.rd_count, if_neg, State.rd_wr, if_neg] <;>
        simp only [Reg.MEM_BANK_OWNER, Reg.INT_TEST_LAST, Reg.INT_TEST_PASSED, coreReg] <;> omega
  refine ⟨htest, hend, hbank, hbyte, ?_⟩
  rw [State.rd_changeRole, State.rd_count, if_pos rfl, State.rd_wr, if_neg, s.rd_testEnded hp (by unfold OuterKey; decide)]
  · simp only [Reg.INT_TEST_PASSED, Reg.INT_TEST_LAST, coreReg]; omega
  · simp only [Reg.INT_TEST_PASSED, Reg.INT_PHYS_STATE]; omega
  · decide
  · simp only [Reg.INT_TEST_PASSED, Reg.INT_GRV_STATUS, groveReg]; omega
  · decide

theorem testDone_fail_completes {s : State} {p pattern : Nat} (hp : p < 9216)
    (h : s.role p = roleTest ∧ (s.grove (p / 144)).testing = some p ∧ (s.grove (p / 144)).faulted = none) :
    completes (.testDone p false pattern) s fun t => t.role p = roleFenced ∧ (t.grove (p / 144)).testing = none ∧
      (∀ b, b < 16 → t.bankOwner p b = ownCore) ∧ (∀ o, o < 0x40000 → t.byte p o = 0) ∧
      t.rd Reg.INT_TEST_FAILED = sticky (s.rd Reg.INT_TEST_FAILED) 1 := by
  refine completes_of (exec_testDone_fail h) ⟨State.role_changeRole _ hp (by decide), ?_⟩
  generalize ({ part := s.partOf (p / 144), core := some p, grove := some (p / 144), detail := [pattern] } : SigKeys) = keys
  have hrep : ∀ key, key ∉ [Reg.INT_FSIG_SEQ, Reg.MGT_QUEUES, Reg.INT_FSIG_LOST] →
      (((s.testEnded p).count Reg.INT_TEST_FAILED 1).report fltTestFail keys).rd key =
        ((s.testEnded p).count Reg.INT_TEST_FAILED 1).rd key := fun key hkey =>
    State.report_reads (P := (· ∉ [Reg.INT_FSIG_SEQ, Reg.MGT_QUEUES, Reg.INT_FSIG_LOST])) _ _ _ (by decide) (by decide) (by decide) key hkey
  obtain ⟨htest, -, hbank, hbyte⟩ := State.testDone_leaves (role := roleFenced) (s := s)
    (u := ((s.testEnded p).count Reg.INT_TEST_FAILED 1).report fltTestFail keys) hp
    (fun q => by rw [State.core_report, State.core_count]) (fun g => by rw [State.grove_report, State.grove_count])
    (fun o => by rw [State.byte_report, State.byte_count]) fun b hb => by
      rw [State.bankOwner, State.bankOwner, State.rf, State.rf, hrep, State.rd_count, if_neg] <;>
        simp only [Reg.MEM_BANK_OWNER, Reg.INT_TEST_FAILED, Reg.INT_FSIG_SEQ, Reg.MGT_QUEUES, Reg.INT_FSIG_LOST, coreReg,
          List.mem_cons, List.not_mem_nil, or_false, not_or] <;> omega
  refine ⟨htest, hbank, hbyte, ?_⟩
  rw [State.rd_changeRole, hrep _ (by decide), State.rd_count, if_pos rfl, s.rd_testEnded hp (by unfold OuterKey; decide)]
  · simp only [Reg.INT_TEST_FAILED, Reg.INT_PHYS_STATE]; omega
  · decide
  · simp only [Reg.INT_TEST_FAILED, Reg.INT_GRV_STATUS, groveReg]; omega
  · decide

end

/-! ### The other commands -/

theorem testMigrate_completes {s : State} {p : Nat} (hp : p < 9216) (hdue : s.bit (Reg.INT_TEST p) 30 = true)
    (hmay : s.mayTest p = true) (hon : s.coreOn p = true) (hrole : s.role p = roleSapling) :
    completes (.testMigrate p) s fun t => t.role p = roleTest ∧ (t.grove (p / 144)).testing = some p ∧
      (∀ b, b < 16 → t.bankOwner p b = ownTest) ∧ t.bit (Reg.INT_TEST p) 30 = false ∧
      t.rd Reg.INT_MAP_GEN = s.rd Reg.INT_MAP_GEN + 1 := by
  refine completes_of (exec_testMigrate_sapling hp hdue hmay hon hrole) ?_
  have hmove : ∀ u : State, Reads (fun key => OuterKey key ∨ key = Reg.INT_TEST p) u (u.moveBanks p ownTest) := fun u =>
    u.moveBanks_reads fun off h1 h2 h => by
      simp only [OuterKey, Reg.INT_TEST, coreReg] at h
      omega
  have hbegun : Reads OuterKey (s.changeRole p roleTest) ((s.changeRole p roleTest).testBegun p) := by
    refine (Reads.refl.wf' fun h => ?_).updGrove
    simp only [OuterKey, Reg.INT_TEST, coreReg] at h
    omega
  have hall : Reads OuterKey (s.changeRole p roleTest) (((s.changeRole p roleTest).testBegun p).moveBanks p ownTest) :=
    hbegun.trans ((hmove _).mono fun _ h => .inl h)
  refine ⟨?_, ?_, fun b hb => State.bankOwner_moveBanks _ p hb (by decide), ?_, ?_⟩
  · rw [State.role, hall.rf_eq (by simp only [OuterKey, Reg.INT_PHYS_STATE]; omega)]
    exact s.role_changeRole hp (by decide)
  · have h : (((s.changeRole p roleTest).testBegun p).moveBanks p ownTest).groves = ((s.changeRole p roleTest).testBegun p).groves :=
      (State.moveBanks_keeps (Keeps.refl _) (.same rfl)).same .groves rfl
    rw [State.grove, h]
    exact congrArg Grove.testing ((State.grove_updGrove _ _ _ _).trans (if_pos rfl))
  · rw [(hmove _).bit_eq (.inr rfl), State.testBegun, State.bit, State.rd_updGrove, State.rd_wf', if_pos rfl]
    have h0 := fld_setFld_same ((s.changeRole p roleTest).rd (Reg.INT_TEST p)) 29 2 0 (by decide)
    simp only [tst, fld, beq_eq_false_iff_ne] at h0 ⊢
    omega
  · rw [hall _ (by unfold OuterKey; decide), s.mapGen_changeRole hp]

theorem testDue_completes {s : State} {p : Nat} (hp : p < 9216) (hcfg : s.bit Reg.INT_TEST_CFG 31 = true)
    (hpart : (s.partOf (p / 144)).isSome = true) (hrole : s.role p = roleActive) (hok : (s.grove (p / 144)).faulted = none)
    (hnot : s.bit (Reg.INT_TEST p) 30 = false) (hat : s.testAt p ≤ s.ref) :
    completes (.testDue p) s fun t => t.bit (Reg.INT_TEST p) 30 = true ∧ (t.core p).testDue = s.ref ∧ t.role p = roleActive := by
  have hwake : ∀ u : State, Reads (fun key => OuterKey key ∨ key = Reg.INT_TEST p) u (u.wakeCore p) := fun u =>
    u.wakeCore_reads (fun off h1 h2 h => by simp only [OuterKey, Reg.INT_TEST, coreReg] at h; omega)
      fun off h1 h2 h => by simp only [OuterKey, Reg.INT_TEST, coreReg, groveReg] at h; omega
  have hrole1 : (((s.wf' (Reg.INT_TEST p) 30 1 1).updCore p fun c => { c with testDue := s.ref }).wakeCore p).role p = roleActive := by
    rw [State.role, (hwake _).rf_eq (.inl (by simp only [OuterKey, Reg.INT_PHYS_STATE]; omega)), State.rf_updCore, State.rf,
      State.rd_wf', if_neg (by simp only [Reg.INT_PHYS_STATE, Reg.INT_TEST, coreReg]; omega)]
    exact hrole
  refine completes_of (t := ((s.wf' (Reg.INT_TEST p) 30 1 1).updCore p fun c => { c with testDue := s.ref }).wakeCore p) ?_ ⟨?_, ?_, hrole1⟩
  · have hne : ¬roleActive = roleSapling := by decide
    simp only [exec, execTestDue, if_pos (And.intro hp (And.intro hcfg (And.intro hpart (And.intro hok (And.intro (Or.inl hrole)
      (And.intro hnot hat)))))), hrole1, hne, false_and, if_false]
  · rw [(hwake _).bit_eq (.inr rfl), State.bit, State.rd_updCore, State.rd_wf', if_pos rfl]
    exact tst_setFld_bit _ 30 true (by decide)
  · have h : (((s.wf' (Reg.INT_TEST p) 30 1 1).updCore p fun c => { c with testDue := s.ref }).wakeCore p).cores = _ :=
      (State.wakeCore_keeps (Keeps.refl _) (.same rfl)).same .cores rfl
    rw [State.core, h]
    exact congrArg Core.testDue ((State.core_updCore _ _ _ _).trans (if_pos rfl))

theorem testDeferExpire_completes {s : State} {p : Nat} (hp : p < 9216) (hdue : s.bit (Reg.INT_TEST p) 30 = true)
    (hrole : s.role p = roleActive) (hat : (s.core p).testDue + s.rf Reg.INT_TEST_CFG 16 12 * 10 ^ 9 ≤ s.ref) :
    completes (.testDeferExpire p) s fun t => t.bit (Reg.INT_TEST p) 29 = true ∧ otherRegs [Reg.INT_TEST p] s t := by
  refine completes_of (t := s.wf' (Reg.INT_TEST p) 29 1 1) ?_ ⟨?_, fun key hkey => ?_⟩
  · simp only [exec, execTestDeferExpire, if_pos (And.intro hp (And.intro hdue (And.intro hrole hat)))]
  · rw [State.bit, State.rd_wf', if_pos rfl]
    exact tst_setFld_bit _ 29 true (by decide)
  · rw [State.rd_wf', if_neg (List.ne_of_not_mem_cons hkey)]

/-- Settles O39: each of the four commands writes the role, the banks and the counts that it names, and what follows in the command
leaves them. -/
theorem inFieldTests : Obligations.InFieldTests := fun _ _ hp =>
  ⟨fun hcfg hpart hrole hok hnot hat => testDue_completes hp hcfg hpart hrole hok hnot hat, testMigrate_completes hp,
    testDeferExpire_completes hp,
    fun _ hrole htest hok => ⟨testDone_pass_completes hp ⟨hrole, htest, hok⟩, testDone_fail_completes hp ⟨hrole, htest, hok⟩⟩⟩

end Sys2Proof.Machine
end

section
/-! SUPPORT. CHECK_REPORT and GROVE_VERDICT: a packet taken out of the fabric, and a verdict that passes. -/
namespace Sys2Proof.Machine

/-! ### A packet that has arrived -/

theorem State.take_of_arrived {s : State} {i : Nat} {f : Flight} (h : s.arrived i f) : s.take i = some (f, s.without i) := by
  obtain ⟨hnet, hleft, hflow⟩ := h
  have hany : (s.net.take i).any (sameFlow f) = false := List.any_eq_false.2 fun x hx => by simp [hflow x hx]
  simp only [State.take, hnet, hleft, hany, ne_eq, not_true_eq_false, Bool.false_eq_true, or_self, if_false]
  rfl

theorem State.takeUnit_of_arrived {s : State} {i u lo hi : Nat} {f : Flight} (h : s.arrived i f) (hp : f.place = .unit u)
    (hlo : lo ≤ u) (hhi : u < hi) : s.takeUnit i lo hi = some (u - lo, f, s.without i) := by
  simp only [State.takeUnit, State.take_of_arrived h, hp, if_pos (And.intro hlo hhi)]

@[simp] theorem State.grove_without (s : State) (i g : Nat) : (s.without i).grove g = s.grove g := rfl
@[simp] theorem State.rd_without (s : State) (i key : Nat) : (s.without i).rd key = s.rd key := rfl

theorem checkReport_completes {s : State} {i g : Nat} {f : Flight} {r : Report} (hg : g < 64) (harr : s.arrived i f)
    (hplace : f.place = .unit (0x80 + g)) (hbody : f.body = .check r) :
    completes (.checkReport i) s fun t => (t.grove g).reports = (s.grove g).reports ++ [r] ∧ took i [] s t ∧
      otherGroves g s t ∧ otherRegs [] s t := by
  refine completes_of (t := (s.without i).updGrove g fun v => { v with reports := v.reports ++ [r] }) ?_
    ⟨?_, (List.append_nil _).symm, fun h hh => ?_, fun key _ => s.rd_without i key⟩
  · simp only [exec, execCheckReport, State.takeUnit_of_arrived harr hplace (Nat.le_add_right _ _) (by omega : 0x80 + g < 0xC0),
      hbody, Nat.add_sub_cancel_left]
  · rw [State.grove_updGrove_same, State.grove_without]
  · rw [State.grove_updGrove, if_neg hh, State.grove_without]

/-! ### A verdict that passes -/

/-- A grove that holds commit no longer: its flag and, where the step shows HELD for it alone, STEP_STATE. -/
theorem State.grove_unholdGrove (s : State) (g h : Nat) :
    (s.unholdGrove g).grove h = if h = g then { s.grove g with held := false } else s.grove h := by
  have h1 : ((s.wf' (Reg.STEP_GROVE_STATUS g) 31 1 0).updGrove g fun v => { v with held := false }).grove h =
      if h = g then { s.grove g with held := false } else s.grove h := by
    rw [State.grove_updGrove, State.grove_wf', State.grove_wf']
  unfold State.unholdGrove
  dsimp only
  split
  · exact h1
  · split
    · exact h1
    · rw [State.stepState, State.grove_wf', h1]

@[simp] theorem State.rf_updGrove (s : State) (g : Nat) (f : Grove → Grove) (key lo n : Nat) :
    (s.updGrove g f).rf key lo n = s.rf key lo n := rfl

theorem State.hold_unholdGrove (s : State) (g : Nat) :
    (s.unholdGrove g).rf (Reg.STEP_GROVE_STATUS g) 31 1 = 0 := by
  have h1 : ((s.wf' (Reg.STEP_GROVE_STATUS g) 31 1 0).updGrove g fun v => { v with held := false }).rf (Reg.STEP_GROVE_STATUS g) 31 1 = 0 := by
    rw [State.rf_updGrove, State.rf_wf'_same s _ _ (by decide), Nat.zero_mod]
  have hne : ∀ k, Reg.STEP_GROVE_STATUS g ≠ Reg.STEP_STATE k := fun k => by
    simp only [Reg.STEP_GROVE_STATUS, groveReg, Reg.STEP_STATE]
    omega
  unfold State.unholdGrove
  dsimp only
  split
  · exact h1
  · split
    · exact h1
    · rw [State.rf, State.stepState, State.rd_wf', if_neg (hne _)]
      exact h1

/-- A field of two bits is 1 where its high bit is 0 and its low bit is then made 1. -/
theorem State.rf_wf'_low_of_high (s : State) (key : Nat) (h : s.rf key 31 1 = 0) : (s.wf' key 30 1 1).rf key 30 2 = 1 := by
  have hhi := s.rf_wf'_above key 1 (lo := 30) (n := 1) (lo' := 31) (n' := 1) (by decide) (by decide)
  have hlo := s.rf_wf'_same key 1 (lo := 30) (n := 1) (by decide)
  rw [h] at hhi
  simp only [State.rf, fld] at *
  omega

theorem State.grove_passVerdict (s : State) (g h : Nat) :
    (s.passVerdict g).grove h = if h = g then { s.grove g with passed := true, finding := 0, held := false } else s.grove h := by
  unfold State.passVerdict
  refine (List.foldlRecOn (motive := fun t : State => t.grove h = _) _ _ rfl fun t ht p _ => (State.grove_wf' ..).trans ht).trans ?_
  rw [State.grove_wf', State.grove_wf', State.grove_unholdGrove, State.grove_updGrove_same, State.grove_updGrove]
  split <;> rfl

theorem groveVerdict_completes {s : State} {g k : Nat} {a : Nat × Bool} (hk : s.partOf g = some k)
    (hask : (s.grove g).asked = some a) (hpass : (s.grove g).passed = false) (hout : (s.grove g).hbmOut = [])
    (hrep : (s.grove g).replay = none) (hfix : (s.grove g).repair = [])
    (hall : ((s.activeCores g).all fun p => (reportOf (s.grove g).reports p).isSome) = true)
    (hnone : s.findingOf k (s.grove g).reports = none) :
    completes (.groveVerdict g) s fun t => (t.grove g).passed = true ∧ (t.grove g).held = false ∧
      t.rf (Reg.STEP_GROVE_STATUS g) 30 2 = 1 ∧ t.bit (Reg.INT_GRV_STATUS g) 31 = false ∧
      t.grove g = { s.grove g with passed := true, finding := 0, held := false } ∧ otherGroves g s t := by
  have hgrove := s.grove_passVerdict g
  have hgg := (hgrove g).trans (if_pos rfl)
  refine completes_of (t := s.passVerdict g) ?_ ⟨by rw [hgg], by rw [hgg], ?_, ?_, hgg, fun h hh => (hgrove h).trans (if_neg hh)⟩
  · simp only [exec, execGroveVerdict, hk, hask, hpass, hout, hrep, hfix, hall, hnone, ne_eq, not_true_eq_false, Bool.false_eq_true,
      Bool.true_eq_false, or_self, if_false]
  all_goals
    unfold State.passVerdict
    dsimp only
    generalize (s.updGrove g fun v => { v with passed := true, finding := 0 }) = u
  · have hmarks : ∀ t : State, Reads (· = Reg.STEP_GROVE_STATUS g) t
        ((t.activeCores g).foldl (fun t p => t.wf' (Reg.INT_CORE_STATUS p) 31 1 0) t) := fun t =>
      Reads.refl.foldl fun _ ht p _ => ht.wf' (by simp only [Reg.INT_CORE_STATUS, coreReg, Reg.STEP_GROVE_STATUS, groveReg]; omega)
    rw [(hmarks _).rf_eq rfl, State.rf, State.rd_wf', if_neg (by simp only [Reg.STEP_GROVE_STATUS, Reg.INT_GRV_STATUS, groveReg]; omega)]
    exact State.rf_wf'_low_of_high _ _ (u.hold_unholdGrove g)
  · have hmarks : ∀ t : State, Reads (· = Reg.INT_GRV_STATUS g) t
        ((t.activeCores g).foldl (fun t p => t.wf' (Reg.INT_CORE_STATUS p) 31 1 0) t) := fun t =>
      Reads.refl.foldl fun _ ht p _ => ht.wf' (by simp only [Reg.INT_CORE_STATUS, coreReg, Reg.INT_GRV_STATUS, groveReg]; omega)
    rw [(hmarks _).bit_eq rfl, State.bit, State.rd_wf', if_pos rfl]
    exact tst_setFld_bit _ 31 false (by decide)

end Sys2Proof.Machine
end

section
/-! SUPPORT. What a stop of a partition leaves: the partitions' records but for the faults they list, and the mark of a grove-wide
fault. -/
namespace Sys2Proof.Machine

/-! ### The partitions' records -/

/-- Every partition's own state is in `t` as in `s`, but for the list of faults reported of it. -/
def SameParts (s t : State) : Prop := ∀ k, ∃ fs, t.part k = { s.part k with faults := fs }

section
variable {s0 s t : State}

theorem SameParts.refl : SameParts s s := fun k => ⟨(s.part k).faults, rfl⟩

theorem SameParts.trans (h : SameParts s0 s) (h' : SameParts s t) : SameParts s0 t := fun k => by
  obtain ⟨fs, e⟩ := h k
  obtain ⟨fs', e'⟩ := h' k
  exact ⟨fs', by rw [e', e]⟩

theorem SameParts.of_keeps {K : Nat} (h : Keeps K s t) (hK : K.testBit Component.parts.ctorIdx = false) : SameParts s t := fun k =>
  ⟨(s.part k).faults, by rw [State.part, show t.parts = s.parts from h.same .parts hK, State.part]⟩

theorem SameParts.foldl {α : Type} {l : List α} {f : State → α → State} (hf : ∀ t, ∀ x ∈ l, SameParts t (f t x)) :
    SameParts s (l.foldl f s) := List.foldlRecOn l f (motive := SameParts s) .refl fun t ht x hx => ht.trans (hf t x hx)

/-- A change of one partition's list of faults. -/
theorem SameParts.updPart {k : Nat} {f : Part → Part} (h : SameParts s0 s) (hf : ∀ v, ∃ fs, f v = { v with faults := fs }) :
    SameParts s0 (s.updPart k f) := h.trans fun j => by
  rw [State.part_updPart]
  split
  · next e => subst e; exact hf _
  · exact ⟨(s.part j).faults, rfl⟩

theorem SameParts.applying (h : SameParts s t) (k : Nat) : (t.part k).applying = (s.part k).applying := by
  obtain ⟨fs, e⟩ := h k
  rw [e]

theorem SameParts.openStep (h : SameParts s t) (k : Nat) : (t.part k).openStep = (s.part k).openStep := by
  obtain ⟨fs, e⟩ := h k
  rw [e]

end

theorem State.report_sameParts (s : State) (cls : Nat) (k : SigKeys) : SameParts s (s.report cls k) := by
  have hfaults : ∀ v : Part, ∃ fs, (if v.faults.contains cls then v else { v with faults := v.faults ++ [cls] }) = { v with faults := fs } :=
    fun v => by split; exacts [⟨v.faults, rfl⟩, ⟨_, rfl⟩]
  have hwr : ∀ w, SameParts s (s.wr Reg.INT_FSIG_SEQ w) := fun w => .of_keeps (State.wr_keeps (Keeps.refl s) (.same rfl)) rfl
  have hrec : ∀ t : State, ∀ n msg, t.parts = s.parts → SameParts s ((t.wf' Reg.MGT_QUEUES 8 7 n).toCollectors msg) := fun t n msg ht => by
    have hk : ((t.wf' Reg.MGT_QUEUES 8 7 n).toCollectors msg).parts = t.parts :=
      (State.toCollectors_keeps (K := 8796093022212) (State.wf'_keeps (Keeps.refl t) (sub_of_land rfl)) (sub_of_land rfl)).same .parts rfl
    exact fun j => ⟨(s.part j).faults, by rw [State.part, hk, ht, State.part]⟩
  have hlost : ∀ w, SameParts s ((s.wr Reg.INT_FSIG_SEQ w).count Reg.INT_FSIG_LOST 1) := fun w =>
    .of_keeps (State.count_keeps (State.wr_keeps (Keeps.refl s) (.same rfl)) (.same rfl)) rfl
  unfold State.report
  dsimp only
  split <;> split
  · refine SameParts.updPart (hrec _ _ _ ?_) hfaults
    rfl
  · exact (hlost _).updPart hfaults
  · refine hrec _ _ _ ?_
    rfl
  · exact hlost _

theorem SameParts.ite {s a b : State} {c : Prop} [Decidable c] (ha : SameParts s a) (hb : SameParts s b) :
    SameParts s (if c then a else b) := by
  split
  · exact ha
  · exact hb

theorem State.ringDrop_sameParts (s : State) (a r : Nat) (full : Bool) : SameParts s (s.ringDrop a r full) := by
  have h : ∀ v : Att, SameParts s ((s.setAtt a v).count (ringBase a .egress r + 24) 1) := fun v =>
    .of_keeps (K := 8589934596) (State.count_keeps (State.setAtt_keeps (Keeps.refl s) (sub_of_land rfl)) (sub_of_land rfl)) rfl
  exact SameParts.ite (h _) ((h _).trans (State.report_sameParts _ _ _))

theorem State.putRecord_sameParts (s : State) (a r : Nat) (units : List Nat) : SameParts s (s.putRecord a r units).1 := by
  unfold State.putRecord
  split
  · exact .of_keeps (State.putFit_keeps (Keeps.refl s) (.same rfl)) rfl
  · exact s.ringDrop_sameParts a r false

theorem State.ringEmit_sameParts (s : State) (a r : Nat) (units : List Nat) : SameParts s (s.ringEmit a r units).1 := by
  unfold State.ringEmit
  split
  · exact s.ringDrop_sameParts a r false
  · exact (SameParts.of_keeps (State.payLoss_keeps (Keeps.refl s) (.same rfl)) rfl).trans (State.putRecord_sameParts _ _ _ _)

theorem State.ringSend_sameParts (s : State) (a r : Nat) (units : List Nat) : SameParts s (s.ringSend a r units).1 := by
  have h := s.ringEmit_sameParts a r units
  exact SameParts.ite h (h.trans (.of_keeps (State.shadow_keeps (Keeps.refl _) (.same rfl)) rfl))

theorem State.retractEarly_sameParts (s : State) (a : Nat) (h : HeldRec) : SameParts s (s.retractEarly a h) := by
  have hcount : ∀ (t : State) key, SameParts t (t.count key 1) := fun t key => .of_keeps (State.count_keeps (Keeps.refl t) (.same rfl)) rfl
  exact (SameParts.ite (s.ringSend_sameParts a h.ring _) (hcount s _)).trans (hcount _ _)

theorem State.stopEgress_sameParts (s : State) (k : Nat) : SameParts s (s.stopEgress k) := by
  unfold State.stopEgress
  refine SameParts.trans (.foldl fun t a _ => ?_) (.foldl fun t e _ => ?_)
  · refine SameParts.trans (.of_keeps (State.updAtt_keeps (Keeps.refl t) (.same rfl)) rfl) (.foldl fun u h _ => u.retractEarly_sameParts a h)
  · refine SameParts.trans (.of_keeps (K := 17179869188) (keeps_foldl (fun _ _ h => State.wf'_keeps h (sub_of_land rfl))
      (State.updPort_keeps (Keeps.refl t) (sub_of_land rfl))) rfl) (.foldl fun u h _ => .of_keeps (State.retractEarlyPort_keeps (Keeps.refl u) (.same rfl)) rfl)

theorem State.noteSaplings_sameParts (s : State) (g : Nat) : SameParts s (s.noteSaplings g) := by
  have h1 : SameParts s (s.wf' (Reg.INT_GRV_STATUS g) 16 8 (s.saplingCount g)) :=
    .of_keeps (State.wf'_keeps (Keeps.refl s) (.same rfl)) rfl
  have hupd : ∀ (t : State) f, SameParts t (t.updGrove g f) := fun t f => .of_keeps (State.updGrove_keeps (Keeps.refl t) (.same rfl)) rfl
  exact SameParts.ite (SameParts.ite (h1.trans ((hupd _ _).trans (State.report_sameParts _ _ _))) h1) (h1.trans (hupd _ _))

theorem State.endReplay_sameParts (s : State) (g : Nat) : SameParts s (s.endReplay g) := by
  have h0 : SameParts s ((s.updGrove g fun v => { v with replay := none, repair := [] }).wf' (Reg.INT_GRV_STATUS g) 30 1 0) :=
    .of_keeps (K := 2052) (State.wf'_keeps (State.updGrove_keeps (Keeps.refl s) (sub_of_land rfl)) (sub_of_land rfl)) rfl
  have hend : ∀ (t : State) q, SameParts t (t.endSapling q) := fun t q => .of_keeps (State.endSapling_keeps (Keeps.refl t) (.same rfl)) rfl
  unfold State.endReplay
  dsimp only
  split
  · exact h0
  · refine (SameParts.trans ?_ (State.noteSaplings_sameParts _ _))
    split
    · exact (h0.trans (hend _ _)).trans (hend _ _)
    · exact h0.trans (hend _ _)

theorem State.stopGrove_sameParts (s : State) (g : Nat) : SameParts s (s.stopGrove g) := by
  refine (s.endReplay_sameParts g).trans (.of_keeps (K := 2052) ?_ rfl)
  exact State.logShow_keeps (State.wf'_keeps (State.wf'_keeps (State.wf'_keeps (State.wf'_keeps (State.wf'_keeps
    (State.updGrove_keeps (Keeps.refl _) (sub_of_land rfl)) (sub_of_land rfl)) (sub_of_land rfl)) (sub_of_land rfl)) (sub_of_land rfl))
    (sub_of_land rfl)) (sub_of_land rfl)

/-! ### The mark of a grove-wide fault -/

/-- Every grove is marked with the same grove-wide fault, or with none, in `t` as in `s`. -/
def SameFaulted (s t : State) : Prop := ∀ g, (t.grove g).faulted = (s.grove g).faulted

section
variable {s0 s t : State}

theorem SameFaulted.refl : SameFaulted s s := fun _ => rfl

theorem SameFaulted.trans (h : SameFaulted s0 s) (h' : SameFaulted s t) : SameFaulted s0 t := fun g => (h' g).trans (h g)

theorem SameFaulted.of_keeps {K : Nat} (h : Keeps K s t) (hK : K.testBit Component.groves.ctorIdx = false) : SameFaulted s t := fun g => by
  rw [State.grove, show t.groves = s.groves from h.same .groves hK, State.grove]

theorem SameFaulted.foldl {α : Type} {l : List α} {f : State → α → State} (hf : ∀ t, ∀ x ∈ l, SameFaulted t (f t x)) :
    SameFaulted s (l.foldl f s) := List.foldlRecOn l f (motive := SameFaulted s) .refl fun t ht x hx => ht.trans (hf t x hx)

theorem SameFaulted.updGrove {g : Nat} {f : Grove → Grove} (hf : ∀ v, (f v).faulted = v.faulted) : SameFaulted s (s.updGrove g f) :=
  fun h => by
    rw [State.grove_updGrove]
    split
    · next e => subst e; exact hf _
    · rfl

end

theorem State.noteSaplings_sameFaulted (s : State) (g : Nat) : SameFaulted s (s.noteSaplings g) := fun h => by
  obtain ⟨armed, e⟩ := s.grove_noteSaplings g h
  rw [e]

theorem State.endReplay_sameFaulted (s : State) (g : Nat) : SameFaulted s (s.endReplay g) := by
  have h0 : SameFaulted s ((s.updGrove g fun v => { v with replay := none, repair := [] }).wf' (Reg.INT_GRV_STATUS g) 30 1 0) := by
    refine SameFaulted.trans ?_ (.of_keeps (State.wf'_keeps (Keeps.refl _) (.same rfl)) rfl)
    exact .updGrove fun _ => rfl
  have hend : ∀ (t : State) q, SameFaulted t (t.endSapling q) := fun t q => .of_keeps (State.endSapling_keeps (Keeps.refl t) (.same rfl)) rfl
  unfold State.endReplay
  dsimp only
  split
  · exact h0
  · refine (SameFaulted.trans ?_ (State.noteSaplings_sameFaulted _ _))
    split
    · exact (h0.trans (hend _ _)).trans (hend _ _)
    · exact h0.trans (hend _ _)

theorem State.stopGrove_sameFaulted (s : State) (g : Nat) : SameFaulted s (s.stopGrove g) := by
  refine (s.endReplay_sameFaulted g).trans (SameFaulted.trans ?_ (.of_keeps (K := 4) (State.logShow_keeps (State.wf'_keeps
    (State.wf'_keeps (State.wf'_keeps (State.wf'_keeps (State.wf'_keeps (Keeps.refl _) (.same rfl)) (.same rfl)) (.same rfl))
    (.same rfl)) (.same rfl)) (.same rfl)) rfl))
  exact .updGrove fun _ => rfl

end Sys2Proof.Machine
end

section
/-! SUPPORT. GROVE_FAULT: a stop of a partition, and a grove that stops with it (01_organisation.md R45, 08_step_commit.md R289). -/
namespace Sys2Proof.Machine

/-- What a stop does to a partition's cores, egress, channels, groves and packets, before its own record. -/
def State.stopParts (s : State) (k : Nat) : State :=
  let cores := s.coresOfPart k
  let s3 := (((cores.foldl State.quiet s).stopDense cores).stopEgress k).disarmPart k
  let s4 := (s3.grovesOf k).foldl State.stopGrove s3
  { s4 with net := dropStepTraffic k s4.net }

/-- A partition's own record as it stops. -/
def Part.stopped (v : Part) : Part :=
  { v with openStep := none, fires := 0, overrun := false, merged := 0, closed := false, delivered := false, cut := false,
           roundAsked := false, spillOut := false, endAsked := false, stopAsked := none }

theorem State.stopEffects_eq (s : State) (k : Nat) : s.stopEffects k =
    ((((s.stopParts k).updPart k Part.stopped).wf' (Reg.STEP_STATE k) 23 1 0).wf' (Reg.PLS_PART_STATUS k) 30 2 0).haltNow k := rfl

theorem State.stopParts_sameParts (s : State) (k : Nat) : SameParts s (s.stopParts k) := by
  have hquiet : Keeps 1028 s ((s.coresOfPart k).foldl State.quiet s) :=
    keeps_foldl (fun _ _ h => State.quiet_keeps h (.same rfl)) (Keeps.refl s)
  have h3 := (((SameParts.of_keeps hquiet rfl).trans (.of_keeps (State.stopDense_keeps (cores := s.coresOfPart k) (Keeps.refl _) (.same rfl)) rfl)).trans
    (State.stopEgress_sameParts _ k)).trans (.of_keeps (State.disarmPart_keeps (k := k) (Keeps.refl _) (.same rfl)) rfl)
  exact h3.trans (SameParts.foldl fun t g _ => t.stopGrove_sameParts g)

theorem State.stopParts_sameFaulted (s : State) (k : Nat) : SameFaulted s (s.stopParts k) := by
  have hquiet : Keeps 1028 s ((s.coresOfPart k).foldl State.quiet s) :=
    keeps_foldl (fun _ _ h => State.quiet_keeps h (.same rfl)) (Keeps.refl s)
  have h3 := (((SameFaulted.of_keeps hquiet rfl).trans (.of_keeps (State.stopDense_keeps (cores := s.coresOfPart k) (Keeps.refl _) (.same rfl)) rfl)).trans
    (.of_keeps (State.stopEgress_keeps (k := k) (Keeps.refl _) (.same rfl)) rfl)).trans
      (.of_keeps (State.disarmPart_keeps (k := k) (Keeps.refl _) (.same rfl)) rfl)
  exact h3.trans (SameFaulted.foldl fun t g _ => t.stopGrove_sameFaulted g)

theorem State.part_updPart_same (s : State) (k : Nat) (f : Part → Part) : (s.updPart k f).part k = f (s.part k) := by
  rw [State.part_updPart, if_pos rfl]

/-- A halt that takes effect changes nothing of a partition but its two marks of the halt. -/
theorem State.part_haltNow (s : State) (k : Nat) :
    ∃ h asked, (s.haltNow k).part k = { s.part k with halted := h, haltAsked := asked } := by
  have hshow : ∀ t : State, (t.showHalt k).part k = t.part k := fun t =>
    List.foldlRecOn (motive := fun u : State => u.part k = t.part k) _ _ rfl fun u hu c _ => (State.part_wf' ..).trans hu
  unfold State.haltNow
  split
  · exact ⟨true, false, by rw [hshow, State.part_updPart_same]⟩
  · exact ⟨(s.part k).halted, (s.part k).haltAsked, rfl⟩

theorem State.part_stopEffects (s : State) (k : Nat) :
    ((s.stopEffects k).part k).openStep = none ∧ ((s.stopEffects k).part k).applying = (s.part k).applying := by
  obtain ⟨fs, hparts⟩ := s.stopParts_sameParts k k
  obtain ⟨h, asked, hhalt⟩ := State.part_haltNow ((((s.stopParts k).updPart k Part.stopped).wf' (Reg.STEP_STATE k) 23 1 0).wf'
    (Reg.PLS_PART_STATUS k) 30 2 0) k
  rw [State.stopEffects_eq, hhalt, State.part_wf', State.part_wf', State.part_updPart_same, hparts]
  exact ⟨rfl, rfl⟩

theorem State.stopEffects_sameFaulted (s : State) (k : Nat) : SameFaulted s (s.stopEffects k) := by
  rw [State.stopEffects_eq]
  exact (s.stopParts_sameFaulted k).trans (.of_keeps (K := 4100) (State.haltNow_keeps (State.wf'_keeps (State.wf'_keeps
    (State.updPart_keeps (Keeps.refl _) (sub_of_land rfl)) (sub_of_land rfl)) (sub_of_land rfl)) (.same rfl)) rfl)

/-! ### The stop -/

/-- Partition `k` has stopped with a cause: STOPPED, with no step open. -/
def StoppedFor (k cause : Nat) (t : State) : Prop :=
  t.pstate k = psStopped ∧ t.rf (Reg.STEP_STATE k) 24 4 = cause ∧ (t.part k).openStep = none

theorem State.stoppedFor_stopNow (s : State) {k cause : Nat} (hk : k < 64) (hc : cause < 16) : StoppedFor k cause (s.stopNow k cause) := by
  have hrep : ∀ (u : State) keys, Reads (fun key => key = Reg.HIF_PART_STATUS k ∨ key = Reg.STEP_STATE k) u (u.report fltStepStopped keys) :=
    fun u keys => u.report_reads _ _
      (by simp only [Reg.INT_FSIG_SEQ, Reg.HIF_PART_STATUS, Reg.STEP_STATE]; omega)
      (by simp only [Reg.MGT_QUEUES, Reg.HIF_PART_STATUS, Reg.STEP_STATE]; omega)
      (by simp only [Reg.INT_FSIG_LOST, Reg.HIF_PART_STATUS, Reg.STEP_STATE]; omega)
  have hne : Reg.STEP_STATE k ≠ Reg.HIF_PART_STATUS k := by
    simp only [Reg.HIF_PART_STATUS, Reg.STEP_STATE]
    omega
  refine ⟨?_, ?_, ?_⟩
  · rw [State.pstate, State.stopNow, (hrep _ _).rf_eq (.inl rfl), State.rf_wf'_same _ _ _ (by decide)]
    rfl
  · rw [State.stopNow, (hrep _ _).rf_eq (.inr rfl), State.rf, State.rd_wf', if_neg hne, State.rd_wr, if_pos rfl,
      fld_setFld_same _ _ _ _ (by decide)]
    exact Nat.mod_eq_of_lt hc
  · rw [State.stopNow, (State.report_sameParts _ _ _).openStep, State.part_wf', State.part_wr, (s.part_stopEffects k).1]

theorem State.applying_stopNow (s : State) (k cause : Nat) : ((s.stopNow k cause).part k).applying = (s.part k).applying := by
  rw [State.stopNow, (State.report_sameParts _ _ _).applying, State.part_wf', State.part_wr, (s.part_stopEffects k).2]

theorem State.stopNow_sameFaulted (s : State) (k cause : Nat) : SameFaulted s (s.stopNow k cause) := by
  unfold State.stopNow
  exact (s.stopEffects_sameFaulted k).trans (.of_keeps (K := 8797166768132) (State.report_keeps (State.wf'_keeps (State.wr_keeps
    (Keeps.refl _) (sub_of_land rfl)) (sub_of_land rfl)) (.same rfl)) rfl)

theorem State.stopPart_eq_stopNow {s : State} {k : Nat} (cause : Nat) (hrun : s.pstate k = psRunning) (hap : (s.part k).applying = 0) :
    s.stopPart k cause = s.stopNow k cause := by
  simp only [State.stopPart, hrun, hap, ne_eq, not_true_eq_false, if_false]

/-! ### The cores of a grove stop -/

/-- The registers that show the work of a core lie in the core's window. -/
theorem State.quiet_reads {P : Nat → Prop} (s : State) {p : Nat} (h : ∀ off, off < 0x1000 → ¬P (coreReg p off)) : Reads P s (s.quiet p) := by
  have hw : ∀ {off lo n v : Nat} {t : State}, off < 0x1000 → Reads P s t → Reads P s (t.wf' (coreReg p off) lo n v) := fun ho ht => ht.wf' (h _ ho)
  have hidle : ∀ t, Reads P s t → Reads P s (t.idleNeurons p) := fun t ht => by
    have h1 : Reads P s (t.wf' (Reg.NEU_STATUS p) 8 1 0) := hw (by decide) ht
    exact Reads.ite (hw (by decide) h1) h1
  have hqueues : ∀ t, Reads P s t → Reads P s (t.emptyQueues p) := fun t ht => by
    refine hw (by decide) (hw (by decide) (ht.updCore.foldl fun u hu q hq => hw ?_ (hw ?_ hu))) <;>
      rw [List.mem_range] at hq <;> omega
  exact hw (by decide) (((hqueues _ (hidle _ Reads.refl.updCore)).wr (h _ (by decide))).wr (h _ (by decide)))

theorem State.lt_of_mem_activeCores {s : State} {g p : Nat} (hg : g < 64) (h : p ∈ s.activeCores g) : p < 9216 := by
  obtain ⟨i, hi, rfl⟩ := List.mem_map.1 (List.mem_of_mem_filter h)
  rw [List.mem_range] at hi
  omega

theorem State.stopCores_reads (s : State) {g : Nat} (hg : g < 64) : Reads OuterKey s (s.stopCores g) := by
  refine (Reads.refl.updGrove).foldl fun t ht p hp => ht.trans (t.quiet_reads fun off ho h => ?_)
  have := State.lt_of_mem_activeCores hg hp
  simp only [OuterKey, coreReg] at h
  omega

theorem State.part_stopCores (s : State) (g k : Nat) : (s.stopCores g).part k = s.part k := by
  rw [State.part, show (s.stopCores g).parts = s.parts from (State.stopCores_keeps (Keeps.refl s) (.same rfl)).same .parts rfl, State.part]

theorem State.grove_stopCores (s : State) (g h : Nat) :
    (s.stopCores g).grove h = if h = g then { s.grove g with stopped := true } else s.grove h := by
  have hk : Keeps 1028 (s.updGrove g fun v => { v with stopped := true }) (s.stopCores g) :=
    keeps_foldl (fun _ _ h => State.quiet_keeps h (.same rfl)) (Keeps.refl _)
  rw [State.grove, show (s.stopCores g).groves = _ from hk.same .groves rfl]
  exact State.grove_updGrove ..

theorem State.stoppedFor_stopCores {s : State} {k cause g : Nat} (hg : g < 64) (h : StoppedFor k cause s) :
    StoppedFor k cause (s.stopCores g) := by
  obtain ⟨hst, hcause, hopen⟩ := h
  have hr := s.stopCores_reads hg
  refine ⟨?_, ?_, by rw [State.part_stopCores, hopen]⟩
  · rw [State.pstate, hr.rf_eq (by simp only [OuterKey, Reg.HIF_PART_STATUS]; omega)]
    exact hst
  · rw [hr.rf_eq (by simp only [OuterKey, Reg.STEP_STATE]; omega), hcause]

/-! ### The fault -/

/-- A grove-wide fault reported, marked, and its rail's power-good taken away where that is its cause. -/
def State.markFault (s : State) (g cause : Nat) : State :=
  let k := s.partOf g
  let s1 := s.report fltGrove { part := k, step := k.bind fun k => (s.part k).openStep, grove := some g, detail := [g, cause] }
  let s2 := s1.updGrove g fun v => { v with faulted := some cause }
  if cause = 0 then (s2.wf' (Reg.PWR_RAIL g) 30 1 1).wf' (Reg.PWR_RAIL g) 31 1 0 else s2

theorem State.groveWide_eq (s : State) (g : Nat) {cause : Nat} (h : cause < 3) :
    s.groveWide g cause = (s.markFault g cause).groveStops g := by
  simp only [State.groveWide, State.markFault, if_pos h]

section
variable (s : State) (g cause : Nat)

theorem State.grove_markFault (h : Nat) :
    (s.markFault g cause).grove h = if h = g then { s.grove g with faulted := some cause } else s.grove h := by
  have h2 : ∀ keys, ((s.report fltGrove keys).updGrove g fun v => { v with faulted := some cause }).grove h =
      if h = g then { s.grove g with faulted := some cause } else s.grove h := fun keys => by
    rw [State.grove_updGrove, State.grove_report, State.grove_report]
  unfold State.markFault
  dsimp only
  split
  · rw [State.grove_wf', State.grove_wf', h2]
  · exact h2 _

theorem State.markFault_sameParts : SameParts s (s.markFault g cause) := by
  have h2 : ∀ keys, SameParts s ((s.report fltGrove keys).updGrove g fun v => { v with faulted := some cause }) := fun keys =>
    (s.report_sameParts _ _).trans (.of_keeps (State.updGrove_keeps (Keeps.refl _) (.same rfl)) rfl)
  exact SameParts.ite ((h2 _).trans (.of_keeps (K := 4) (State.wf'_keeps (State.wf'_keeps (Keeps.refl _) (.same rfl)) (.same rfl)) rfl)) (h2 _)

/-- A mark writes the registers of the report, and PWR_RAIL of its grove. -/
theorem State.markFault_reads {P : Nat → Prop} (hseq : ¬P Reg.INT_FSIG_SEQ) (hq : ¬P Reg.MGT_QUEUES) (hlost : ¬P Reg.INT_FSIG_LOST)
    (hrail : ¬P (Reg.PWR_RAIL g)) : Reads P s (s.markFault g cause) := by
  have h2 : ∀ keys, Reads P s ((s.report fltGrove keys).updGrove g fun v => { v with faulted := some cause }) := fun keys =>
    (s.report_reads _ _ hseq hq hlost).updGrove
  exact Reads.ite (((h2 _).wf' hrail).wf' hrail) (h2 _)

theorem State.rail_markFault (h : cause = 0) :
    (s.markFault g cause).bit (Reg.PWR_RAIL g) 31 = false ∧ (s.markFault g cause).bit (Reg.PWR_RAIL g) 30 = true := by
  unfold State.markFault
  dsimp only
  rw [if_pos h]
  constructor
  · rw [State.bit, State.rd_wf', if_pos rfl]
    exact tst_setFld_bit _ 31 false (by decide)
  · rw [State.bit, State.rd_wf', if_pos rfl, tst, fld_setFld_below _ _ _ _ _ _ (by decide) (by decide), ← tst, State.rd_wf', if_pos rfl]
    exact tst_setFld_bit _ 30 true (by decide)

theorem State.markFault_roster {g : Nat} (hg : g < 64) : Reads RosterKey s (s.markFault g cause) :=
  s.markFault_reads g cause (by unfold RosterKey; decide) (by unfold RosterKey; decide) (by unfold RosterKey; decide)
    (not_rosterKey_groveReg hg (by decide))

end

/-- A grove without a partition, with no apply to cut, has nothing that stops. -/
theorem State.groveStops_of_none {s : State} {g : Nat} (hap : (s.grove g).plsApply = false) (hk : s.partOf g = none) :
    s.groveStops g = s := by
  simp only [State.groveStops, hap, Bool.false_eq_true, if_false, hk]

theorem State.applyEnd_of_applying_zero {s : State} {k : Nat} (h : (s.part k).applying = 0) : s.applyEnd k = s := by
  have hne : ¬(0 = 2) := by decide
  simp only [State.applyEnd, h, hne, false_and, if_false]

/-- A grove of a RUNNING partition that applies nothing: the partition stops, then the cores of the grove. -/
theorem State.groveStops_of_running {s : State} {g k : Nat} (hap : (s.grove g).plsApply = false) (hk : s.partOf g = some k)
    (hrun : s.pstate k = psRunning) (hno : (s.part k).applying = 0) :
    s.groveStops g = (s.stopNow k scGrove).stopCores g := by
  have hend : (((s.stopNow k scGrove).stopCores g).part k).applying = 0 := by
    rw [State.part_stopCores, State.applying_stopNow, hno]
  simp only [State.groveStops, hap, Bool.false_eq_true, if_false, hk, State.stopPart_eq_stopNow _ hrun hno,
    State.applyEnd_of_applying_zero hend]

theorem State.lt_of_partOf {s : State} {g k : Nat} (h : s.partOf g = some k) : k < 64 := by
  have := List.mem_of_find?_eq_some h
  rwa [List.mem_range] at this

theorem exec_groveFault {s : State} {g cause : Nat} (hg : g < 64) (hc : cause < 3) :
    exec (.groveFault g cause) s = .next ((s.markFault g cause).groveStops g) := by
  simp only [exec, execGroveFault, if_pos (And.intro hg hc), s.groveWide_eq g hc]

theorem groveFault_none_completes {s : State} {g cause : Nat} (hg : g < 64) (hc : cause < 3) (hap : (s.grove g).plsApply = false)
    (hk : s.partOf g = none) :
    completes (.groveFault g cause) s fun t => (t.grove g).faulted = some cause ∧ otherGroves g s t ∧
      (cause = 0 → t.bit (Reg.PWR_RAIL g) 31 = false ∧ t.bit (Reg.PWR_RAIL g) 30 = true) := by
  have hgrove := s.grove_markFault g cause
  have hgg := (hgrove g).trans (if_pos rfl)
  have hap' : ((s.markFault g cause).grove g).plsApply = false := by rw [hgg, hap]
  have hk' : (s.markFault g cause).partOf g = none := by rw [(s.markFault_roster cause hg).partOf_eq, hk]
  refine completes_of (exec_groveFault hg hc) ?_
  rw [State.groveStops_of_none hap' hk']
  exact ⟨by rw [hgg], fun h hh => (hgrove h).trans (if_neg hh), s.rail_markFault g cause⟩

theorem groveFault_running_completes {s : State} {g cause k : Nat} (hg : g < 64) (hc : cause < 3)
    (hap : (s.grove g).plsApply = false) (hk : s.partOf g = some k) (hrun : s.pstate k = psRunning) (hno : (s.part k).applying = 0) :
    completes (.groveFault g cause) s fun t => (t.grove g).faulted = some cause ∧ t.pstate k = psStopped ∧
      t.rf (Reg.STEP_STATE k) 24 4 = scGrove ∧ (t.part k).openStep = none ∧ (t.grove g).stopped = true := by
  have hk64 := State.lt_of_partOf hk
  have hgg := (s.grove_markFault g cause g).trans (if_pos rfl)
  have hap' : ((s.markFault g cause).grove g).plsApply = false := by rw [hgg, hap]
  have hk' : (s.markFault g cause).partOf g = some k := by rw [(s.markFault_roster cause hg).partOf_eq, hk]
  have hrun' : (s.markFault g cause).pstate k = psRunning := by
    have hr : Reads (· = Reg.HIF_PART_STATUS k) s (s.markFault g cause) := s.markFault_reads g cause
      (by simp only [Reg.INT_FSIG_SEQ, Reg.HIF_PART_STATUS]; omega) (by simp only [Reg.MGT_QUEUES, Reg.HIF_PART_STATUS]; omega)
      (by simp only [Reg.INT_FSIG_LOST, Reg.HIF_PART_STATUS]; omega) (by simp only [Reg.PWR_RAIL, groveReg, Reg.HIF_PART_STATUS]; omega)
    rw [State.pstate, hr.rf_eq rfl]
    exact hrun
  have hno' : ((s.markFault g cause).part k).applying = 0 := by rw [(s.markFault_sameParts g cause).applying, hno]
  refine completes_of (exec_groveFault hg hc) ?_
  rw [State.groveStops_of_running hap' hk' hrun' hno']
  obtain ⟨hst, hcause, hopen⟩ := State.stoppedFor_stopCores hg ((s.markFault g cause).stoppedFor_stopNow hk64 (by decide : scGrove < 16))
  refine ⟨?_, hst, hcause, hopen, ?_⟩
  · rw [State.grove_stopCores, if_pos rfl]
    exact ((State.stopNow_sameFaulted _ _ _) g).trans (by rw [hgg])
  · rw [State.grove_stopCores, if_pos rfl]

/-- Settles O35: a report joins its grove's, a verdict without a finding passes the grove, and a grove-wide fault stops what the grove
belongs to. -/
theorem verdictsAndGroveFaults : Obligations.VerdictsAndGroveFaults :=
  ⟨fun _ _ _ hg hk => ⟨fun _ _ _ harr hplace hbody => checkReport_completes hg harr hplace hbody,
      fun _ hask hpass hout hrep hfix hall hnone => groveVerdict_completes hk hask hpass hout hrep hfix hall hnone⟩,
    fun _ _ _ hg hc hap => ⟨groveFault_none_completes hg hc hap,
      fun _ hk hrun hno => groveFault_running_completes hg hc hap hk hrun hno⟩⟩

end Sys2Proof.Machine
end

section
/-! SUPPORT. Bytes of local memory: what a write of bytes leaves in words that are not poisoned, and what a read of a word with an
error does (10_integrity.md R346, R347; 13_memory_power.md R464). -/
namespace Sys2Proof.Machine

/-! ### Writing -/

theorem State.bad_putByte (s : State) (p off : Nat) (b : Byte) (q o : Nat) : (s.putByte p off b).bad q o = s.bad q o := rfl

theorem State.setByte_of_not_bad {s : State} {p off : Nat} (lo hi : Nat) (b : Byte) (h : s.bad p off = false) :
    s.setByte p lo hi off b = s.putByte p off b := by
  simp only [State.setByte, h, Bool.false_eq_true, if_false]

theorem State.setRun_cons_of_not_bad {s : State} {p off : Nat} (lo hi : Nat) (b : Byte) (bs : List Byte) (h : s.bad p off = false) :
    s.setRun p lo hi off (b :: bs) = (s.putByte p off b).setRun p lo hi (off + 1) bs := by
  rw [State.setRun, State.setByte_of_not_bad lo hi b h]

/-- A write to words that are not poisoned leaves every byte of its range as written, and every other byte. -/
theorem State.byte_setRun {s : State} {p off : Nat} {bs : List Byte} (lo hi : Nat) (h : ∀ i, i < bs.length → s.bad p (off + i) = false)
    (q o : Nat) : (s.setRun p lo hi off bs).byte q o =
      if memKey p off ≤ memKey q o ∧ memKey q o < memKey p off + bs.length then bs.getD (memKey q o - memKey p off) 0 else s.byte q o := by
  induction bs generalizing s off with
  | nil => rw [State.setRun, if_neg (by simp only [List.length_nil]; omega)]
  | cons b bs ih =>
    have h0 : s.bad p off = false := h 0 (Nat.succ_pos _)
    have ht : ∀ i, i < bs.length → (s.putByte p off b).bad p (off + 1 + i) = false := fun i hi => by
      rw [State.bad_putByte, Nat.add_assoc, Nat.add_comm 1 i]
      exact h (i + 1) (Nat.succ_lt_succ hi)
    have hk : memKey p (off + 1) = memKey p off + 1 := rfl
    rw [State.setRun_cons_of_not_bad lo hi b bs h0, ih ht, State.byte_putByte, hk, List.length_cons]
    by_cases heq : memKey q o = memKey p off
    · rw [if_neg (by omega), if_pos heq, if_pos (by omega), heq, Nat.sub_self]
      rfl
    · by_cases hin : memKey p off + 1 ≤ memKey q o ∧ memKey q o < memKey p off + 1 + bs.length
      · rw [if_pos hin, if_pos (by omega), show memKey q o - memKey p off = memKey q o - (memKey p off + 1) + 1 by omega]
        rfl
      · rw [if_neg hin, if_neg heq, if_neg (by omega)]

theorem State.byte_rewritten (s : State) (p off n q o : Nat) : (s.rewritten p off n).byte q o = s.byte q o := rfl

theorem State.byte_setBytes {s : State} {p off : Nat} {bs : List Byte} (h : ∀ i, i < bs.length → s.bad p (off + i) = false)
    (q o : Nat) : (s.setBytes p off bs).byte q o =
      if memKey p off ≤ memKey q o ∧ memKey q o < memKey p off + bs.length then bs.getD (memKey q o - memKey p off) 0 else s.byte q o := by
  rw [State.setBytes, State.byte_rewritten, State.byte_setRun _ _ h]

theorem State.poisoned_eq_false_iff {s : State} {p off n : Nat} : s.poisoned p off n = false ↔ ∀ i, i < n → s.bad p (off + i) = false := by
  simp only [State.poisoned, List.any_eq_false, List.mem_range, Bool.not_eq_true]
  rfl

theorem State.bytes_setBytes {s : State} {p off : Nat} {bs : List Byte} (h : s.poisoned p off bs.length = false) :
    (s.setBytes p off bs).bytes p off bs.length = bs := by
  refine List.ext_getElem (by simp [State.bytes]) fun i h1 h2 => ?_
  have hk : memKey p (off + i) = memKey p off + i := by simp only [memKey, Nat.add_assoc]
  simp only [State.bytes, List.getElem_map, List.getElem_range]
  rw [State.byte_setBytes (State.poisoned_eq_false_iff.1 h), if_pos (by omega), hk, Nat.add_sub_cancel_left,
    List.getD_eq_getElem _ _ h2]

theorem State.otherBytes_setBytes {s : State} {p off : Nat} {bs : List Byte} (h : s.poisoned p off bs.length = false) :
    otherBytes p off bs.length s (s.setBytes p off bs) := fun q o ho => by
  rw [State.byte_setBytes (State.poisoned_eq_false_iff.1 h), if_neg ho]

/-! ### Reading -/

/-- Where no error stands in the words that hold the bytes, a read finds none. -/
theorem State.meet_of_intact {s : State} {p off n : Nat} (h : s.intact p off n) : s.meet p off n = s := by
  have hnone : (s.flaws.filter fun e => n != 0 && decide (memKey p off / 8 * 8 ≤ e.1) && decide (e.1 < memKey p off + n)) = [] :=
    List.filter_eq_nil_iff.2 fun e he hc => by
      simp only [Bool.and_eq_true, decide_eq_true_eq] at hc
      exact h.2 e he ⟨hc.1.2, hc.2⟩
  simp only [State.meet, hnone, List.foldl_nil]

/-- Every word that is poisoned in `s` is poisoned in `t`. -/
def KeepsPoison (s t : State) : Prop :=
  ∀ key, Store.get (fun _ => false) s.poison key = true → Store.get (fun _ => false) t.poison key = true

theorem KeepsPoison.of_keeps {K : Nat} {s t : State} (h : Keeps K s t) (hK : K.testBit Component.poison.ctorIdx = false) :
    KeepsPoison s t := fun key hk => by
  rw [show t.poison = s.poison from h.same .poison hK]
  exact hk

theorem State.poison_setRun {s : State} {p off : Nat} {bs : List Byte} (lo hi : Nat) (h : ∀ i, i < bs.length → s.bad p (off + i) = false) :
    (s.setRun p lo hi off bs).poison = s.poison := by
  induction bs generalizing s off with
  | nil => rfl
  | cons b bs ih =>
    have h0 : s.bad p off = false := h 0 (Nat.succ_pos _)
    rw [State.setRun_cons_of_not_bad lo hi b bs h0, ih fun i hi' => ?_]
    · rfl
    · rw [State.bad_putByte, Nat.add_assoc, Nat.add_comm 1 i]
      exact h (i + 1) (Nat.succ_lt_succ hi')

theorem length_toBytes (n v : Nat) : (toBytes n v).length = n := by
  induction n generalizing v with
  | zero => rfl
  | succ n ih => rw [toBytes, List.length_cons, ih]

/-- The poison of a word written as a number, where none of its bytes is poisoned. -/
theorem State.poison_setNum {s : State} {p off n : Nat} (v : Nat) (h : s.poisoned p off n = false) :
    (s.setNum p off n v).poison = s.poison :=
  State.poison_setRun _ _ fun i hi => State.poisoned_eq_false_iff.1 h i (by rwa [length_toBytes] at hi)

theorem State.spoil_eq (s : State) (p off : Nat) : ∃ (u : State) (v : Nat), u.poison = s.poison ∧ s.spoil p off =
    { u.setNum p off 8 v with poison := Store.set (fun _ => false) (u.setNum p off 8 v).poison (memKey p off) true } :=
  ⟨s.freeWord.2.freeWord.2, s.freeWord.1.toNat + 2 ^ 32 * s.freeWord.2.freeWord.1.toNat, rfl, rfl⟩

/-- A word is spoilt where none of its eight bytes is poisoned yet, and becomes poisoned; no word is healed. -/
theorem State.spoil_keepsPoison {s : State} {p off : Nat} (h : s.poisoned p off 8 = false) : KeepsPoison s (s.spoil p off) := fun key hk => by
  obtain ⟨u, v, hu, e⟩ := s.spoil_eq p off
  have hun : u.poisoned p off 8 = false := by
    rw [State.poisoned, hu]
    exact h
  rw [e, State.poison_setNum v hun, hu, Store.get_set]
  split
  · rfl
  · exact hk

theorem State.readError_keepsPoison (s : State) (p off err : Nat) : KeepsPoison s (s.readError p off err) := by
  unfold State.readError
  split
  · exact fun _ hk => hk
  · exact .of_keeps (State.count_keeps (Keeps.refl s) (.same rfl)) rfl
  · split
    · exact fun _ hk => hk
    · next h =>
      have hspoil := State.spoil_keepsPoison (s := s) (p := p) (off := off) (by simpa using h)
      have hrest : KeepsPoison (s.spoil p off) (((s.spoil p off).count (Reg.INT_SRAM_UE p) 1).report fltSramUe (s.coreKeys p [off])) :=
        .of_keeps (State.report_keeps (State.count_keeps (Keeps.refl _) (sub_of_land rfl)) (.same rfl)) rfl
      exact fun key hk => hrest key (hspoil key hk)

/-- A read brings errors to light and heals no word. -/
theorem State.meet_keepsPoison (s : State) (p off n : Nat) : KeepsPoison s (s.meet p off n) :=
  List.foldlRecOn (motive := KeepsPoison s) _ _ (fun _ hk => hk) fun t ht e _ key hk =>
    State.readError_keepsPoison { t with flaws := Store.erase e.1 t.flaws } _ _ _ key (ht key hk)

theorem State.poisoned_meet {s : State} {p off n : Nat} (h : s.poisoned p off n = true) : (s.meet p off n).poisoned p off n = true := by
  simp only [State.poisoned, List.any_eq_true] at *
  obtain ⟨i, hi, hk⟩ := h
  exact ⟨i, hi, s.meet_keepsPoison p off n _ hk⟩

theorem State.readError_sameParts (s : State) (p off err : Nat) : SameParts s (s.readError p off err) := by
  unfold State.readError
  split
  · exact .refl
  · exact .of_keeps (State.count_keeps (Keeps.refl s) (.same rfl)) rfl
  · refine SameParts.ite .refl (SameParts.trans ?_ (State.report_sameParts _ _ _))
    exact .of_keeps (K := 17592186044868) (State.count_keeps (State.spoil_keeps (Keeps.refl s) (sub_of_land rfl)) (sub_of_land rfl)) rfl

theorem State.meet_sameParts (s : State) (p off n : Nat) : SameParts s (s.meet p off n) :=
  SameParts.foldl fun t e _ => State.readError_sameParts { t with flaws := Store.erase e.1 t.flaws } _ _ _

end Sys2Proof.Machine
end

section
/-! SUPPORT. The loader of a core and of a stop (11_host_interface.md R397): a packet taken, its answer, and each kind of load and
read. -/
namespace Sys2Proof.Machine

theorem State.takeLoad_of_arrived {s : State} {i : Nat} {f : Flight} (h : s.arrived i f)
    (hp : (∃ p, f.place = .core p) ∨ ∃ g, f.place = .stop g) : s.takeLoad i = some (f, s.without i) := by
  rcases hp with ⟨x, hx⟩ | ⟨x, hx⟩ <;> simp only [State.takeLoad, State.take_of_arrived h, hx]

/-- The high-water mark of the input from a router's own endpoints. -/
theorem State.qHigh_local_reads {P : Nat → Prop} (s : State) {p : Nat} (v : Nat) (hp : p < 9216) (h : ¬P (inputHigh p)) :
    Reads P s (s.qHigh p 4 v) := by
  have hkey : linkKey p 4 = some (portKey p 4) := if_pos hp
  unfold State.qHigh
  rw [hkey]
  exact Reads.ite (Reads.refl.wf' h) Reads.refl

/-- The state after the loader's answer has entered at the core's router: its input's high-water mark and nothing else beside. -/
def answeredBy (p : Nat) (f : Flight) (s t : State) : Prop :=
  t.net = s.net ++ [f] ∧ otherRegs [inputHigh p] s t ∧ t.mem = s.mem

theorem State.answerLoad_core {s : State} {f : Flight} {p a r q addr : Nat} {bs : List Byte} {ue wr : Bool} (hp : p < 9216)
    (hplace : f.place = .core p) (hflow : s.flows f.part) :
    answeredBy p (loaderAnswer a p f.part (.readReturn ⟨a, r, q⟩ addr bs ue wr)) s
      (s.answerLoad f (.readReturn ⟨a, r, q⟩ addr bs ue wr)) := by
  have he : s.answerLoad f (.readReturn ⟨a, r, q⟩ addr bs ue wr) =
      (s.put (loaderAnswer a p f.part (.readReturn ⟨a, r, q⟩ addr bs ue wr))).qHigh p 4 (Body.readReturn ⟨a, r, q⟩ addr bs ue wr).vc := by
    have hno : ∀ b, (s.holdsAll f.part && b) = false := fun b => by rw [hflow, Bool.false_and]
    simp only [State.answerLoad, hplace, State.inject, hno, Bool.false_eq_true, if_false, State.enter]
    rfl
  have hk := State.qHigh_keeps (K := 4) (n := p) (q := 4) (v := (Body.readReturn ⟨a, r, q⟩ addr bs ue wr).vc)
    (Keeps.refl (s.put (loaderAnswer a p f.part (.readReturn ⟨a, r, q⟩ addr bs ue wr)))) (.same rfl)
  rw [he]
  exact ⟨hk.same .net rfl, fun k hk => State.qHigh_local_reads (P := (· ∉ [inputHigh p])) _ _ hp (not_not_intro List.mem_cons_self) k hk,
    hk.same .mem rfl⟩

@[simp] theorem State.bankFor_without (s : State) (i p b own : Nat) : (s.without i).bankFor p b own = s.bankFor p b own := rfl

theorem State.loaderMay_without (s : State) (i p kind off n : Nat) : (s.without i).loaderMay p kind off n = s.loaderMay p kind off n := by
  simp only [State.loaderMay, State.bankFor_without]

theorem State.wake_of_not_gated {s : State} {p : Nat} (h : (s.core p).gated = false) : s.wake p = s := by
  simp only [State.wake, h, Bool.false_eq_true, if_false]

theorem State.mergesPoison_of_not_poisoned {s : State} {p off n : Nat} (h : s.poisoned p off n = false) : s.mergesPoison p off n = false := by
  refine List.any_eq_false.2 fun i hi => ?_
  have h1 : s.poisoned p (off + i) 1 = false := State.poisoned_eq_false_iff.2 fun j hj => by
    rw [Nat.lt_one_iff.1 hj, Nat.add_zero]
    exact State.poisoned_eq_false_iff.1 h i (List.mem_range.1 hi)
  simp [h1]

/-! ### Loads -/

section
variable {s : State} {i p a r q off : Nat} {f : Flight} (hp : p < 9216) (harr : s.arrived i f) (hplace : f.place = .core p)
  (hgate : (s.core p).gated = false)
include hp harr hplace hgate

omit hp in
theorem exec_loadWrite_core {bs : List Byte} {last : Bool} (hbody : f.body = .loadWrite ⟨a, r, q⟩ p 0 off bs last) :
    exec (.loadWrite i) s = .next (if last then ((s.without i).loaderWrite ⟨a, r, q⟩ p 0 off bs).answerLoad f
      (.readReturn ⟨a, r, q⟩ off [0, 0, 0, 0] false true) else (s.without i).loaderWrite ⟨a, r, q⟩ p 0 off bs) := by
  have hat : atLoader f p 0 = true := by simp only [atLoader, hplace]; rfl
  have hw : (s.without i).wake p = s.without i := State.wake_of_not_gated hgate
  simp only [exec, execLoadWrite, State.takeLoad_of_arrived harr (.inl ⟨p, hplace⟩), hbody, hat, Bool.true_eq_false, if_false,
    if_pos (by decide : 0 < 2), hw, State.loadInto]

omit hp in
theorem exec_loadRead_core {n : Nat} {staged : Bool} (hbody : f.body = .loadRead ⟨a, r, q⟩ p 0 staged off n) :
    exec (.loadRead i) s = .next (((s.without i).loaderRead p 0 off n).1.answerLoad f
      (.readReturn ⟨a, r, q⟩ off ((s.without i).loaderRead p 0 off n).2.1 ((s.without i).loaderRead p 0 off n).2.2 false)) := by
  have hat : atLoader f p 0 = true := by simp only [atLoader, hplace]; rfl
  have hw : (s.without i).wake p = s.without i := State.wake_of_not_gated hgate
  simp only [exec, execLoadRead, State.takeLoad_of_arrived harr (.inl ⟨p, hplace⟩), hbody, hat, Bool.true_eq_false, if_false,
    if_pos (by decide : 0 < 2), hw, State.readFrom]

end

theorem State.intact_without {s : State} {i p off n : Nat} (h : s.intact p off n) : (s.without i).intact p off n := h

theorem State.loaderWrite_of_intact {s : State} {ref : LoadRef} {p off : Nat} {bs : List Byte} (hmay : s.loaderMay p 0 off bs.length = true)
    (h : s.intact p off bs.length) : s.loaderWrite ref p 0 off bs = s.setBytes p off bs := by
  simp only [State.loaderWrite, hmay, if_true, State.meet_of_intact h, ite_self, State.mergesPoison_of_not_poisoned h.1,
    Bool.false_eq_true, if_false]

section
variable {s : State} {i p a r q off : Nat} {f : Flight} (hp : p < 9216) (harr : s.arrived i f) (hplace : f.place = .core p)
  (hflow : s.flows f.part) (hgate : (s.core p).gated = false)
include hp harr hplace hflow hgate

theorem loadWrite_completes {bs : List Byte} (hbody : f.body = .loadWrite ⟨a, r, q⟩ p 0 off bs true)
    (hmay : s.loaderMay p 0 off bs.length = true) (hin : s.intact p off bs.length) :
    completes (.loadWrite i) s fun t => t.bytes p off bs.length = bs ∧ otherBytes p off bs.length s t ∧
      took i [loaderAnswer a p f.part (.readReturn ⟨a, r, q⟩ off [0, 0, 0, 0] false true)] s t ∧ otherRegs [inputHigh p] s t := by
  have hkeep := State.setBytes_keeps (K := 448) (p := p) (off := off) (bs := bs) (Keeps.refl (s.without i)) (.same rfl)
  have hflow' : ((s.without i).setBytes p off bs).flows f.part := by
    rw [State.flows, State.holdsAll, State.part, show ((s.without i).setBytes p off bs).parts = s.parts from hkeep.same .parts rfl]
    exact hflow
  obtain ⟨hnet, hregs, hmem⟩ := State.answerLoad_core (a := a) (r := r) (q := q) (addr := off) (bs := [0, 0, 0, 0]) (ue := false) (wr := true)
    hp hplace hflow'
  refine completes_of (exec_loadWrite_core harr hplace hgate hbody) ?_
  rw [if_pos rfl, State.loaderWrite_of_intact (by rw [State.loaderMay_without]; exact hmay) (State.intact_without hin)]
  have hbyte : ∀ x o, (State.answerLoad ((s.without i).setBytes p off bs) f (.readReturn ⟨a, r, q⟩ off [0, 0, 0, 0] false true)).byte x o =
      ((s.without i).setBytes p off bs).byte x o := fun x o => by rw [State.byte, hmem, State.byte]
  refine ⟨?_, fun x o ho => ?_, hnet.trans (congrArg (· ++ _) ((show _ = (s.without i).net from hkeep.same .net rfl))), fun k hk => ?_⟩
  · simp only [State.bytes, hbyte]
    exact State.bytes_setBytes hin.1
  · rw [hbyte]
    exact State.otherBytes_setBytes (s := s.without i) hin.1 x o ho
  · rw [hregs k hk]
    exact Reads.of_regs (P := fun _ => True) hkeep rfl rfl rfl k trivial

theorem loadWrite_denied_completes {bs : List Byte} {last : Bool} (hbody : f.body = .loadWrite ⟨a, r, q⟩ p 0 off bs last)
    (hmay : s.loaderMay p 0 off bs.length = false) :
    completes (.loadWrite i) s fun t => t.mem = s.mem ∧ t.rd (Reg.MEM_BANK_DENIED p) = sticky (s.rd (Reg.MEM_BANK_DENIED p)) 1 ∧
      otherRegs [Reg.MEM_BANK_DENIED p, inputHigh p] s t := by
  have hden : (s.without i).loaderWrite ⟨a, r, q⟩ p 0 off bs = (s.without i).denied p := by
    simp only [State.loaderWrite, State.loaderMay_without, hmay, Bool.false_eq_true, if_false]
  have hcount : (s.without i).denied p = (s.without i).count (Reg.MEM_BANK_DENIED p) 1 := rfl
  have hne : Reg.MEM_BANK_DENIED p ∉ [inputHigh p] := by
    simp only [Reg.MEM_BANK_DENIED, inputHigh, portKey, coreReg, List.mem_singleton]
    omega
  have hcmem : ((s.without i).count (Reg.MEM_BANK_DENIED p) 1).mem = (s.without i).mem :=
    (State.count_keeps (K := 4) (Keeps.refl _) (.same rfl)).same .mem rfl
  refine completes_of (exec_loadWrite_core harr hplace hgate hbody) ?_
  rw [hden, hcount]
  cases last with
  | false =>
    rw [if_neg Bool.false_ne_true]
    refine ⟨hcmem, ?_, fun k hk => ?_⟩
    · rw [State.rd_count, if_pos rfl, State.rd_without]
    · rw [State.rd_count, if_neg (List.ne_of_not_mem_cons hk), State.rd_without]
  | true =>
    have hflow' : ((s.without i).count (Reg.MEM_BANK_DENIED p) 1).flows f.part := by
      rw [State.flows, State.holdsAll, State.part_count]
      exact hflow
    obtain ⟨-, hregs, hmem⟩ := State.answerLoad_core (a := a) (r := r) (q := q) (addr := off) (bs := [0, 0, 0, 0]) (ue := false)
      (wr := true) hp hplace hflow'
    rw [if_pos rfl]
    refine ⟨hmem.trans hcmem, ?_, fun k hk => ?_⟩
    · rw [hregs _ hne, State.rd_count, if_pos rfl, State.rd_without]
    · rw [hregs k (List.not_mem_of_not_mem_cons hk), State.rd_count, if_neg (List.ne_of_not_mem_cons hk), State.rd_without]

theorem loadRead_completes {n : Nat} {staged : Bool} (hbody : f.body = .loadRead ⟨a, r, q⟩ p 0 staged off n)
    (hmay : s.loaderMay p 0 off n = true) (hin : s.intact p off n) :
    completes (.loadRead i) s fun t => t.mem = s.mem ∧
      took i [loaderAnswer a p f.part (.readReturn ⟨a, r, q⟩ off (s.bytes p off n) false false)] s t ∧ otherRegs [inputHigh p] s t := by
  have hread : (s.without i).loaderRead p 0 off n = (s.without i, s.bytes p off n, false) := by
    have hpois : (s.without i).poisoned p off n = false := hin.1
    simp only [State.loaderRead, State.loaderMay_without, hmay, if_true, State.meet_of_intact (State.intact_without hin), hpois]
    rfl
  obtain ⟨hnet, hregs, hmem⟩ := State.answerLoad_core (s := s.without i) (a := a) (r := r) (q := q) (addr := off)
    (bs := s.bytes p off n) (ue := false) (wr := false) hp hplace hflow
  refine completes_of (exec_loadRead_core harr hplace hgate hbody) ?_
  rw [hread]
  exact ⟨hmem, hnet, fun k hk => (hregs k hk).trans (s.rd_without i k)⟩

theorem loadRead_poisoned_completes {n : Nat} {staged : Bool} (hbody : f.body = .loadRead ⟨a, r, q⟩ p 0 staged off n)
    (hmay : s.loaderMay p 0 off n = true) (hpois : s.poisoned p off n = true) :
    completes (.loadRead i) s fun t => ∃ bs, took i [loaderAnswer a p f.part (.readReturn ⟨a, r, q⟩ off bs true false)] s t := by
  have hread : (s.without i).loaderRead p 0 off n = ((s.without i).meet p off n, ((s.without i).meet p off n).bytes p off n, true) := by
    have hp' : ((s.without i).meet p off n).poisoned p off n = true := State.poisoned_meet (s := s.without i) hpois
    simp only [State.loaderRead, State.loaderMay_without, hmay, if_true, hp']
  have hflow' : ((s.without i).meet p off n).flows f.part := by
    obtain ⟨fs, e⟩ := (s.without i).meet_sameParts p off n f.part
    rw [State.flows, State.holdsAll, e]
    exact hflow
  have hnet' : ((s.without i).meet p off n).net = (s.without i).net := (State.meet_keeps (Keeps.refl _) (.same rfl)).same .net rfl
  obtain ⟨hnet, -, -⟩ := State.answerLoad_core (a := a) (r := r) (q := q) (addr := off)
    (bs := ((s.without i).meet p off n).bytes p off n) (ue := true) (wr := false) hp hplace hflow'
  refine completes_of (exec_loadRead_core harr hplace hgate hbody) ⟨((s.without i).meet p off n).bytes p off n, ?_⟩
  rw [hread]
  exact hnet.trans (by rw [hnet']; rfl)

end

/-- One entry of a source table, loaded at a stop: its staged copy, marked as changed (05_fabric.md R183). -/
theorem loadWrite_source_completes {s : State} {i p a r q off e : Nat} {es : List Byte} {f : Flight} (harr : s.arrived i f)
    (hplace : f.place = .stop (p / 144)) (hbody : f.body = .loadWrite ⟨a, r, q⟩ p 4 off es false) (hes : entries 8 es = [e]) :
    completes (.loadWrite i) s fun t => Store.get (fun _ => 0) t.srcStaged (1024 * p + off / 8) = e ∧
      Store.get (fun _ => false) t.srcChanged (1024 * p + off / 8) = true ∧ t.srcLive = s.srcLive ∧ took i [] s t ∧
      otherRegs [] s t := by
  have hat : atLoader f p 4 = true := by simp [atLoader, hplace]
  refine completes_of (t := (s.without i).stageSources p (off / 8) [e]) ?_ ?_
  · simp only [exec, execLoadWrite, State.takeLoad_of_arrived harr (.inr ⟨_, hplace⟩), hbody, hat, Bool.true_eq_false, if_false,
      if_neg (by decide : ¬4 < 2), State.loadInto, hes, Bool.false_eq_true]
  · have hkeep := State.stageSources_keeps (K := 49152) (p := p) (i := off / 8) (a3 := [e]) (Keeps.refl (s.without i)) (.same rfl)
    refine ⟨by simp only [State.stageSources, Store.get_set_same], by simp only [State.stageSources, Store.get_set_same], hkeep.same .srcLive rfl, ?_, fun k _ => ?_⟩
    · rw [took, List.append_nil]
      exact hkeep.same .net rfl
    · exact (Reads.of_regs (P := fun _ => True) hkeep rfl rfl rfl k trivial).trans (s.rd_without i k)

end Sys2Proof.Machine
end

section
/-! SUPPORT. The end of a descriptor (11_host_interface.md R391, R395, R403): its completion record, and the only descriptor of an
attachment that ends. -/
namespace Sys2Proof.Machine

/-! ### What the host is told -/

/-- From `s` to `t` attachment `a` tells its host something and nothing else changes that a descriptor's end goes by: registers,
packets and descriptors stay. -/
structure HostNews (a : Nat) (s t : State) : Prop where
  rd : ∀ key, t.rd key = s.rd key
  net : t.net = s.net
  out : ∀ x ∈ s.out, x ∈ t.out
  descs : (t.att a).descs = (s.att a).descs

section
variable {a : Nat} {s t u : State}

theorem HostNews.refl : HostNews a s s := ⟨fun _ => rfl, rfl, fun _ h => h, rfl⟩

theorem HostNews.trans (h : HostNews a s t) (h' : HostNews a t u) : HostNews a s u :=
  ⟨fun key => (h'.rd key).trans (h.rd key), h'.net.trans h.net, fun x hx => h'.out x (h.out x hx), h'.descs.trans h.descs⟩

theorem HostNews.emitOut (x : Out) : HostNews a s (s.emitOut x) :=
  ⟨fun key => State.rd_emitOut s x key, rfl, fun _ hy => List.mem_cons_of_mem _ hy, by rw [State.att_emitOut]⟩

theorem HostNews.ite {c : Prop} [Decidable c] (ht : HostNews a s t) (hu : HostNews a s u) : HostNews a s (if c then t else u) := by
  split
  · exact ht
  · exact hu

theorem HostNews.updAtt {f : Att → Att} (hf : ∀ v, (f v).descs = v.descs) : HostNews a s (s.updAtt a f) :=
  ⟨fun key => State.rd_updAtt .., rfl, fun _ h => h, by rw [State.att_updAtt, if_pos rfl, hf]⟩

theorem State.toHost_news (s : State) (a addr : Nat) (bytes : List Byte) : HostNews a s (s.toHost a addr bytes) :=
  HostNews.ite (.emitOut _) .refl

theorem State.ringIrq_news (s : State) (a b : Nat) : HostNews a s (s.ringIrq a b) := by
  unfold State.ringIrq
  refine HostNews.ite (HostNews.trans (.emitOut (.msix a (s.rf b 16 6))) ?_) ?_
  · exact HostNews.updAtt fun _ => rfl
  · exact HostNews.updAtt fun _ => rfl

theorem State.shadow_news (s : State) (a : Nat) (kind : RingKind) (r : Nat) : HostNews a s (s.shadow a kind r) := by
  have h := s.toHost_news a (s.rd64 (Reg.HIF_SHADOW_BASE_LO a) + shadowOff kind r) (toBytes 4 (s.ringDev (ringBase a kind r)))
  exact HostNews.ite (h.trans (State.ringIrq_news _ _ _)) h

theorem State.hostWrite_mem_toHost {addr : Nat} {bytes : List Byte} (h : s.hostOk a permWrite addr bytes.length = true) :
    .hostWrite a addr bytes ∈ (s.toHost a addr bytes).out := by
  rw [State.toHost, if_pos h]
  exact List.mem_cons_self

end

/-! ### A completion record -/

theorem length_completion (d : DescRun) (status oparg idx : Nat) : (completion d status oparg idx).length = 16 := by
  simp only [completion, List.length_append, length_toBytes, List.length_cons, List.length_nil]

/-- The completion record of descriptor `d` has been written: the ring's tail has moved on, and the record stands where it lies in a
window. -/
structure Recorded (a : Nat) (d : DescRun) (status oparg : Nat) (s t : State) : Prop where
  tail : t.ringDev (ringBase a .completion d.cpl) = (s.ringDev (ringBase a .completion d.cpl) + 1) % 2 ^ 32
  rd : ∀ key, key ≠ ringBase a .completion d.cpl + 16 → t.rd key = s.rd key
  net : t.net = s.net
  out : ∀ x ∈ s.out, x ∈ t.out
  descs : (t.att a).descs = (s.att a).descs
  record : let b := ringBase a .completion d.cpl
    s.hostOk a permWrite (s.ringAddr b + s.ringDev b % s.ringSize b * 16) 16 = true →
      .hostWrite a (s.ringAddr b + s.ringDev b % s.ringSize b * 16) (completion d status oparg (s.ringDev b)) ∈ t.out

theorem State.putCompletion_recorded {s : State} {a : Nat} {d : DescRun} (status oparg : Nat)
    (h : s.ringRuns (ringBase a .completion d.cpl) = true) : Recorded a d status oparg s (s.putCompletion a d status oparg) := by
  unfold State.putCompletion
  dsimp only
  rw [if_pos h]
  generalize hb : ringBase a .completion d.cpl = b
  have h1 := s.toHost_news a (s.ringAddr b + s.ringDev b % s.ringSize b * 16) (completion d status oparg (s.ringDev b))
  have h3 := State.shadow_news ((s.toHost a (s.ringAddr b + s.ringDev b % s.ringSize b * 16) (completion d status oparg (s.ringDev b))).wr (b + 16)
    (BitVec.ofNat 32 (s.ringDev b + 1))) a .completion d.cpl
  refine ⟨?_, fun key hkey => ?_, ?_, fun x hx => ?_, ?_, fun hok => ?_⟩
  · rw [hb, State.ringDev, h3.rd, State.rd_wr, if_pos rfl, BitVec.toNat_ofNat]
  · rw [hb] at hkey
    rw [h3.rd, State.rd_wr, if_neg hkey, h1.rd]
  · rw [h3.net, State.net_wr, h1.net]
  · refine h3.out x ?_
    rw [State.out_wr]
    exact h1.out x hx
  · rw [h3.descs, State.att_wr, h1.descs]
  · rw [hb] at hok ⊢
    refine h3.out _ ?_
    rw [State.out_wr]
    exact State.hostWrite_mem_toHost (by rw [length_completion]; exact hok)

/-! ### The only descriptor of an attachment ends -/

/-- Descriptor `d` has completed: its record stands, the head of its command ring has moved past it, and it is gone. -/
structure Completed (a : Nat) (d : DescRun) (status oparg : Nat) (s t : State) : Prop where
  head : t.ringDev (ringBase a .command d.ring) = (d.index + 1) % 2 ^ 32
  tail : t.ringDev (ringBase a .completion d.cpl) = (s.ringDev (ringBase a .completion d.cpl) + 1) % 2 ^ 32
  net : t.net = s.net
  out : ∀ x ∈ s.out, x ∈ t.out
  descs : (t.att a).descs = (s.att a).descs.filter fun q => !(q.ring == d.ring && q.index == d.index)
  record : let b := ringBase a .completion d.cpl
    s.hostOk a permWrite (s.ringAddr b + s.ringDev b % s.ringSize b * 16) 16 = true →
      .hostWrite a (s.ringAddr b + s.ringDev b % s.ringSize b * 16) (completion d status oparg (s.ringDev b)) ∈ t.out

/-- The registers of a command ring lie apart from those of a completion ring. -/
theorem ringBase_command_ne (a r c x y : Nat) (hr : r < 64) (hx : x < 0x20) (hy : y < 0x20) :
    ringBase a .command r + x ≠ ringBase a .completion c + y := by
  simp only [ringBase, attReg]
  omega

theorem DescRun.cpl_lt (d : DescRun) : d.cpl < 64 := Nat.mod_lt _ (by decide)

theorem State.complete_completed {s : State} {a : Nat} {d : DescRun} {status : Nat} (oparg : Nat) (hr : d.ring < 64) (h : s.rings a d)
    (hst : status ≠ 1) : Completed a d status oparg s (s.complete a d status oparg) := by
  have hrec := State.putCompletion_recorded status oparg h.2
  have hne : ∀ x y, x < 0x20 → y < 0x20 → ringBase a .command d.ring + x ≠ ringBase a .completion d.cpl + y := fun x y =>
    ringBase_command_ne a d.ring d.cpl x y hr
  have hruns : (s.putCompletion a d status oparg).ringRuns (ringBase a .command d.ring) = true := by
    rw [State.ringRuns, State.rf, hrec.rd _ (hne 4 16 (by decide) (by decide))]
    exact h.1
  unfold State.complete
  dsimp only
  rw [if_pos hruns, if_neg hst]
  generalize s.putCompletion a d status oparg = u at hrec
  have hnews := State.shadow_news ((u.wr (ringBase a .command d.ring + 16) (BitVec.ofNat 32 (d.index + 1))).count
    (ringBase a .command d.ring + 24) 1) a .command d.ring
  refine ⟨?_, ?_, ?_, fun x hx => ?_, ?_, fun hok => ?_⟩
  · rw [State.ringDev, State.rd_updAtt, hnews.rd, State.rd_count, if_neg (by omega), State.rd_wr, if_pos rfl, BitVec.toNat_ofNat]
  · rw [State.ringDev, State.rd_updAtt, hnews.rd, State.rd_count, if_neg (hne 24 16 (by decide) (by decide)).symm, State.rd_wr,
      if_neg (hne 16 16 (by decide) (by decide)).symm]
    exact hrec.tail
  · rw [State.net_updAtt, hnews.net, State.net_count, State.net_wr, hrec.net]
  · rw [State.out_updAtt]
    refine hnews.out x ?_
    rw [State.out_count, State.out_wr]
    exact hrec.out x hx
  · rw [State.att_updAtt, if_pos rfl, hnews.descs, State.att_count, State.att_wr, hrec.descs]
  · rw [State.out_updAtt]
    refine hnews.out _ ?_
    rw [State.out_count, State.out_wr]
    exact hrec.record hok

/-- What is shown of a ring's descriptors in progress changes nothing of a completion. -/
theorem Completed.inflight {a : Nat} {d : DescRun} {status oparg : Nat} {s t : State} (h : Completed a d status oparg s t) (hr : d.ring < 64) :
    Completed a d status oparg s (t.inflight a d.ring) := by
  have hne : ∀ y, y < 0x20 → ringBase a .completion d.cpl + y ≠ ringBase a .command d.ring + 4 := fun y hy =>
    (ringBase_command_ne a d.ring d.cpl 4 y hr (by decide) hy).symm
  unfold State.inflight
  exact ⟨by rw [State.ringDev, State.rd_wf', if_neg (by omega)]; exact h.head,
    by rw [State.ringDev, State.rd_wf', if_neg (hne 16 (by decide))]; exact h.tail,
    by rw [State.net_wf', h.net], fun x hx => by rw [State.out_wf']; exact h.out x hx, by rw [State.att_wf', h.descs], fun hok => by rw [State.out_wf']; exact h.record hok⟩

theorem State.retire_of_none {s : State} {a r : Nat} (fuel : Nat) (h : (s.att a).descs.find? (·.ring == r) = none) :
    s.retire (fuel + 1) a r = s.inflight a r := by
  rw [State.retire, h]

theorem State.retire_of_done {s : State} {a r st arg : Nat} {d : DescRun} (fuel : Nat)
    (h : (s.att a).descs.find? (·.ring == r) = some d) (hd : d.status = some (st, arg)) :
    s.retire (fuel + 1) a r = (s.complete a d st arg).retire fuel a r := by
  rw [State.retire, h]
  dsimp only
  rw [hd]

theorem State.pump_of_none {s : State} {a r : Nat} (fuel : Nat) (h : s.nextDesc a r = none) : s.pump (fuel + 1) a r = s.retire 64 a r := by
  rw [State.pump, h]

theorem State.nextDesc_of_nil {s : State} {a r : Nat} (h : (s.att a).descs = []) : s.nextDesc a r = none := by
  simp only [State.nextDesc, h, List.filter_nil, List.find?_nil]

/-- A descriptor that is the only one of its attachment completes as it ends, and nothing of its ring is left to start. -/
theorem State.finish_completed {s : State} {a : Nat} {d : DescRun} {status : Nat} (oparg : Nat) (hr : d.ring < 64) (hring : s.rings a d)
    (hdescs : (s.att a).descs = [d]) (hst : status ≠ 1) :
    Completed a { d with status := some (status, oparg) } status oparg (s.descDone ⟨a, d.ring, d.index⟩ status oparg)
      (s.finish ⟨a, d.ring, d.index⟩ status oparg) ∧ ((s.finish ⟨a, d.ring, d.index⟩ status oparg).att a).descs = [] := by
  generalize hu : s.descDone ⟨a, d.ring, d.index⟩ status oparg = u
  generalize hd' : ({ d with status := some (status, oparg) } : DescRun) = d'
  have hd'r : d'.ring = d.ring := by rw [← hd']
  have hd'i : d'.index = d.index := by rw [← hd']
  have hud : (u.att a).descs = [d'] := by
    rw [← hu, ← hd', State.descDone, State.updDesc, State.att_updAtt, if_pos rfl, hdescs]
    simp
  have hcomp : Completed a d' status oparg u (u.complete a d' status oparg) := by
    refine State.complete_completed oparg (by rw [hd'r]; exact hr) ?_ hst
    rw [← hu, ← hd']
    exact hring
  have hnil : ∀ t : State, Completed a d' status oparg u t → (t.att a).descs = [] := fun t ht => by
    rw [ht.descs, hud]
    simp
  have hret : u.retire 64 a d.ring = (u.complete a d' status oparg).inflight a d'.ring := by
    rw [State.retire_of_done 63 (by rw [hud, List.find?_cons_of_pos (by simp [hd'r])]) (by rw [← hd']),
      State.retire_of_none 62 (by rw [hnil _ hcomp, List.find?_nil]), hd'r]
  have hin := hcomp.inflight (by rw [hd'r]; exact hr)
  have hfin : s.finish ⟨a, d.ring, d.index⟩ status oparg = ((u.complete a d' status oparg).inflight a d'.ring).inflight a d'.ring := by
    rw [State.finish, hu, hret, State.pump_of_none 63 (State.nextDesc_of_nil (hnil _ hin)),
      State.retire_of_none 63 (by rw [hnil _ hin, List.find?_nil]), hd'r]
  rw [hfin]
  have hend := hin.inflight (by rw [hd'r]; exact hr)
  exact ⟨hend, hnil _ hend⟩

/-! ### READ_RETURN -/

section
variable {s u t : State} (h : ∀ key, u.rd key = s.rd key)
include h

theorem State.hostOk_congr (a perm addr len : Nat) : u.hostOk a perm addr len = s.hostOk a perm addr len := by
  have hbit : ∀ key i, u.bit key i = s.bit key i := fun key i => congrArg (tst · i) (h key)
  have hrf : ∀ key lo n, u.rf key lo n = s.rf key lo n := fun key lo n => congrArg (fld · lo n) (h key)
  have hrd64 : ∀ key, u.rd64 key = s.rd64 key := fun key => by rw [State.rd64, h, h, State.rd64]
  have hwin : ∀ w, u.window a w = s.window a w := fun w => by rw [State.window, hbit, hrf, hrd64, hrd64, State.window]
  simp only [State.hostOk, State.windows, hwin]

/-- A completion that began in a state with the registers of `s`, of a descriptor that differs from `d` in its progress only. -/
theorem Completed.ended {a : Nat} {d d' : DescRun} {status oparg : Nat} (hc : Completed a d' status oparg u t)
    (hnil : (t.att a).descs = []) (hring : d'.ring = d.ring) (hindex : d'.index = d.index) (hbytes : d'.bytes = d.bytes) :
    ended a d status oparg s t := by
  have hcpl : d'.cpl = d.cpl := by rw [DescRun.cpl, DescRun.num, hbytes]; rfl
  have hcompl : ∀ idx, completion d' status oparg idx = completion d status oparg idx := fun idx => by
    simp only [completion, DescRun.num, hbytes, hring, hindex, hcpl]
  have hhead := hc.head
  have htail := hc.tail
  have hrec := hc.record
  simp only [hring, hindex, hcpl, hcompl, State.hostOk_congr h, State.ringDev, State.ringAddr, State.ringSize, State.rf, State.rd64, h]
    at hhead htail hrec
  exact ⟨hnil, hhead, htail, hrec⟩

end

section
variable {s : State} {i a : Nat} {d : DescRun} {f : Flight} (ha : a < 8) (harr : s.arrived i f) (hplace : f.place = .unit (0xC0 + a))
  (hdescs : (s.att a).descs = [d])
include ha harr hplace hdescs

/-- A READ_RETURN that reaches the attachment whose only descriptor asked for it. -/
theorem exec_readReturn {addr : Nat} {bs : List Byte} {ue write : Bool}
    (hbody : f.body = .readReturn ⟨a, d.ring, d.index⟩ addr bs ue write) :
    exec (.readReturn i) s = .next
      (if write then (s.without i).finish ⟨a, d.ring, d.index⟩ (if ue || d.ue then stMemUe else stOk) ((s.without i).loadArg d [])
      else
        let t2 := ((s.without i).toHost a (d.host + (addr - d.addr0)) bs).updDesc ⟨a, d.ring, d.index⟩
          fun v => { v with left := d.left - bs.length, ue := d.ue || ue }
        if d.left ≤ bs.length then t2.finish ⟨a, d.ring, d.index⟩ (if d.ue || ue then stMemUe else stOk) (t2.loadArg d bs) else t2) := by
  have hfind : (s.without i).desc ⟨a, d.ring, d.index⟩ = some d := by
    have h : ((s.without i).att a).descs = [d] := hdescs
    simp [State.desc, h]
  simp only [exec, execReadReturn, State.takeUnit_of_arrived harr hplace (Nat.le_add_right _ _) (by omega : 0xC0 + a < 0xC8), hbody, hfind]
  cases write <;> rfl

end

theorem State.loadArg_of_op {s : State} {d : DescRun} {bs : List Byte} (h4 : d.op ≠ 0x04) (h6 : d.op ≠ 0x06) : s.loadArg d bs = d.len := by
  simp only [State.loadArg, if_neg h4, h6, false_and, if_false]

theorem memUe_or_ok_ne_one (b : Bool) : (if b then stMemUe else stOk) ≠ 1 := by
  cases b <;> decide

theorem State.rings_congr {s u : State} {a : Nat} {d d' : DescRun} (h : ∀ key, u.rd key = s.rd key) (hring : d'.ring = d.ring)
    (hbytes : d'.bytes = d.bytes) (hr : s.rings a d) : u.rings a d' := by
  have hcpl : d'.cpl = d.cpl := by rw [DescRun.cpl, DescRun.num, hbytes]; rfl
  rw [State.rings, State.ringRuns, State.ringRuns, State.rf, State.rf, h, h, hring, hcpl]
  exact hr

/-- The end of a descriptor in a state with the registers of `s`, where it is the attachment's only one and has gone on as `d'`. -/
theorem State.finish_ended {s u : State} {a : Nat} {d d' : DescRun} {status : Nat} (oparg : Nat) (h : ∀ key, u.rd key = s.rd key)
    (hr : d.ring < 64) (hrings : s.rings a d) (hdescs : (u.att a).descs = [d']) (hring : d'.ring = d.ring) (hindex : d'.index = d.index)
    (hbytes : d'.bytes = d.bytes) (hst : status ≠ 1) :
    ended a d status oparg s (u.finish ⟨a, d.ring, d.index⟩ status oparg) ∧ (u.finish ⟨a, d.ring, d.index⟩ status oparg).net = u.net ∧
      ∀ x ∈ u.out, x ∈ (u.finish ⟨a, d.ring, d.index⟩ status oparg).out := by
  obtain ⟨hc, hnil⟩ := State.finish_completed oparg (by rw [hring]; exact hr) (State.rings_congr h hring hbytes hrings) hdescs hst
  rw [hring, hindex] at hc hnil
  have hrd : ∀ key, (u.descDone ⟨a, d.ring, d.index⟩ status oparg).rd key = s.rd key := fun key => by
    rw [State.descDone, State.updDesc, State.rd_updAtt, h]
  refine ⟨hc.ended hrd hnil rfl rfl hbytes, ?_, fun x hx => hc.out x ?_⟩
  · rw [hc.net, State.descDone, State.updDesc, State.net_updAtt]
  · rw [State.descDone, State.updDesc, State.out_updAtt]
    exact hx

section
variable {s : State} {i a : Nat} {d : DescRun} {f : Flight} (ha : a < 8) (harr : s.arrived i f) (hplace : f.place = .unit (0xC0 + a))
  (hdescs : (s.att a).descs = [d])
include ha harr hplace hdescs

theorem readReturn_write_completes {addr : Nat} {bs : List Byte} {ue : Bool} (hr : d.ring < 64) (hrings : s.rings a d) (hop : d.op = 0x01)
    (hbody : f.body = .readReturn ⟨a, d.ring, d.index⟩ addr bs ue true) :
    completes (.readReturn i) s fun t => ended a d (if ue || d.ue then stMemUe else stOk) d.len s t ∧ took i [] s t := by
  obtain ⟨hend, hnet, -⟩ := State.finish_ended (u := s.without i) d.len (s.rd_without i) hr hrings hdescs rfl rfl rfl
    (memUe_or_ok_ne_one (ue || d.ue))
  refine completes_of (exec_readReturn ha harr hplace hdescs hbody) ?_
  rw [if_pos rfl, State.loadArg_of_op (by rw [hop]; decide) (by rw [hop]; decide)]
  exact ⟨hend, hnet.trans (List.append_nil _).symm⟩

omit ha harr hplace in
/-- A return that goes to the host's buffer: the bytes are written, and the descriptor has that much less to come. -/
theorem State.readReturn_toHost {bs : List Byte} {ue : Bool} (hok : s.hostOk a permWrite d.host bs.length = true) :
    let t := ((s.without i).toHost a (d.host + (d.addr0 - d.addr0)) bs).updDesc ⟨a, d.ring, d.index⟩
      fun v => { v with left := d.left - bs.length, ue := d.ue || ue }
    (∀ key, t.rd key = s.rd key) ∧ t.net = s.net.eraseIdx i ∧ t.out = .hostWrite a d.host bs :: s.out ∧
      (t.att a).descs = [{ d with left := d.left - bs.length, ue := d.ue || ue }] := by
  have hok' : (s.without i).hostOk a permWrite d.host bs.length = true := (State.hostOk_congr (s.rd_without i) _ _ _ _).trans hok
  have hhost : (s.without i).toHost a (d.host + (d.addr0 - d.addr0)) bs = (s.without i).emitOut (.hostWrite a d.host bs) := by
    rw [Nat.sub_self, Nat.add_zero, State.toHost, if_pos hok']
  intro t
  have ht : t = ((s.without i).emitOut (.hostWrite a d.host bs)).updDesc ⟨a, d.ring, d.index⟩
      fun v => { v with left := d.left - bs.length, ue := d.ue || ue } := by rw [← hhost]
  rw [ht, State.updDesc]
  refine ⟨fun key => ?_, ?_, ?_, ?_⟩
  · rw [State.rd_updAtt, State.rd_emitOut, State.rd_without]
  · rw [State.net_updAtt, State.net_emitOut]
    rfl
  · rw [State.out_updAtt, State.out_emitOut]
    rfl
  · have h : ((s.without i).att a).descs = [d] := hdescs
    rw [State.att_updAtt, if_pos rfl, State.att_emitOut, h]
    simp

theorem readReturn_last_completes {bs : List Byte} {ue : Bool} (hr : d.ring < 64) (hrings : s.rings a d) (hop : d.op = 0x02)
    (hlast : d.left ≤ bs.length) (hok : s.hostOk a permWrite d.host bs.length = true)
    (hbody : f.body = .readReturn ⟨a, d.ring, d.index⟩ d.addr0 bs ue false) :
    completes (.readReturn i) s fun t => ended a d (if d.ue || ue then stMemUe else stOk) d.len s t ∧
      .hostWrite a d.host bs ∈ t.out ∧ took i [] s t := by
  obtain ⟨hrd, hnet, hout, hdescs'⟩ := State.readReturn_toHost (i := i) hdescs (ue := ue) hok
  obtain ⟨hend, hnet', hout'⟩ := State.finish_ended d.len hrd hr hrings hdescs' rfl rfl rfl (memUe_or_ok_ne_one (d.ue || ue))
  refine completes_of (exec_readReturn ha harr hplace hdescs hbody) ?_
  dsimp only
  rw [if_neg Bool.false_ne_true, if_pos hlast, State.loadArg_of_op (by rw [hop]; decide) (by rw [hop]; decide)]
  exact ⟨hend, hout' _ (by rw [hout]; exact List.mem_cons_self), (hnet'.trans hnet).trans (List.append_nil _).symm⟩

theorem readReturn_more_completes {bs : List Byte} (hmore : bs.length < d.left) (hok : s.hostOk a permWrite d.host bs.length = true)
    (hbody : f.body = .readReturn ⟨a, d.ring, d.index⟩ d.addr0 bs false false) :
    completes (.readReturn i) s fun t => t.out = .hostWrite a d.host bs :: s.out ∧
      (t.att a).descs = [{ d with left := d.left - bs.length }] ∧ took i [] s t ∧ otherRegs [] s t := by
  obtain ⟨hrd, hnet, hout, hdescs'⟩ := State.readReturn_toHost (i := i) hdescs (ue := false) hok
  refine completes_of (exec_readReturn ha harr hplace hdescs hbody) ?_
  dsimp only
  rw [if_neg Bool.false_ne_true, if_neg (Nat.not_le.2 hmore)]
  exact ⟨hout, by rw [hdescs', Bool.or_false], hnet.trans (List.append_nil _).symm, fun key _ => hrd key⟩

end

/-- Settles O51: the packet is taken, the loader does what its kind says, and the last return ends the descriptor. -/
theorem loaderPackets : Obligations.LoaderPackets := fun _ _ _ _ _ _ _ _ _ ha _ hp harr hflow =>
  ⟨fun _ hplace hbody hgate hmay hin => loadWrite_completes hp harr hplace hflow hgate hbody hmay hin,
    fun _ _ hplace hbody hgate hmay => loadWrite_denied_completes hp harr hplace hflow hgate hbody hmay,
    fun _ _ hplace hbody hgate hmay hin => loadRead_completes hp harr hplace hflow hgate hbody hmay hin,
    fun _ _ hplace hbody hgate hmay hpois => loadRead_poisoned_completes hp harr hplace hflow hgate hbody hmay hpois,
    fun _ _ hplace hbody hes => loadWrite_source_completes harr hplace hbody hes,
    fun _ _ _ hplace hbody hr hrings hdescs hop => readReturn_write_completes ha harr hplace hdescs hr hrings hop hbody,
    fun _ _ hplace hbody hr hrings hdescs hop hlast hok => readReturn_last_completes ha harr hplace hdescs hr hrings hop hlast hok hbody,
    fun _ hplace hbody hdescs hmore hok => readReturn_more_completes ha harr hplace hdescs hmore hok hbody⟩

end Sys2Proof.Machine
end

section
/-! SUPPORT. PARTITION_COMMIT: what the operations of a commit leave as it was. Each is `Calm`: it keeps the roster of the partition
and the registers that say which step is committed, and what says of each core whether it has a step open, which blocks it
integrated and which copies it selects. -/
namespace Sys2Proof.Machine

/-- The registers whose values a commit must not lose: the roster's, and those that say which step is committed. -/
def CommitKey (key : Nat) : Prop :=
  RosterKey key ∨ (∃ k, k < 64 ∧ key = Reg.STEP_COMMITTED k) ∨ (∃ g, g < 64 ∧ key = Reg.STEP_GROVE_COMMITTED g) ∨
    ∃ p, p < 9216 ∧ key = Reg.NEU_LAST_STEP p

theorem not_commitKey_coreReg {p off : Nat} (hp : p < 9216) (ho : off < 0x1000) (hne : off ≠ 0x110) : ¬CommitKey (coreReg p off) := by
  simp only [CommitKey, RosterKey, Reg.STEP_COMMITTED, Reg.STEP_GROVE_COMMITTED, Reg.NEU_LAST_STEP, coreReg, groveReg]
  rintro (h | ⟨k, hk, h⟩ | ⟨g, hg, h⟩ | ⟨q, hq, h⟩) <;> omega

theorem not_commitKey_groveReg {g off : Nat} (h : 0xC0000 ≤ off) (ho : off < 0x100000) (hne : off ≠ 0xC0004) :
    ¬CommitKey (groveReg g off) := by
  simp only [CommitKey, RosterKey, Reg.STEP_COMMITTED, Reg.STEP_GROVE_COMMITTED, Reg.NEU_LAST_STEP, coreReg, groveReg]
  rintro (h' | ⟨k, hk, h'⟩ | ⟨g', _, h'⟩ | ⟨q, hq, h'⟩) <;> omega

theorem not_commitKey_stepReg {k off : Nat} (hk : k < 64) (ho : off < 0x400) (hne : off ≠ 0x14) :
    ¬CommitKey (0x6F00000 + off + 0x400 * k) := by
  simp only [CommitKey, RosterKey, Reg.STEP_COMMITTED, Reg.STEP_GROVE_COMMITTED, Reg.NEU_LAST_STEP, coreReg, groveReg]
  rintro (h | ⟨k', hk', h⟩ | ⟨g, hg, h⟩ | ⟨q, hq, h⟩) <;> omega

/-- The global channels of the timebase. -/
theorem not_commitKey_channel {key : Nat} (h : 0x4010000 ≤ key) (h' : key < 0x4020000) : ¬CommitKey key := by
  simp only [CommitKey, RosterKey, Reg.STEP_COMMITTED, Reg.STEP_GROVE_COMMITTED, Reg.NEU_LAST_STEP, coreReg, groveReg]
  rintro (h | ⟨k', hk', h⟩ | ⟨g, hg, h⟩ | ⟨q, hq, h⟩) <;> omega

/-- The event ports, and the integrity unit below its table of core states. -/
theorem not_commitKey_middle {key : Nat} (h : 0x6F10000 ≤ key) (h' : key < 0x800C000) : ¬CommitKey key := by
  simp only [CommitKey, RosterKey, Reg.STEP_COMMITTED, Reg.STEP_GROVE_COMMITTED, Reg.NEU_LAST_STEP, coreReg, groveReg]
  rintro (h | ⟨k', hk', h⟩ | ⟨g, hg, h⟩ | ⟨q, hq, h⟩) <;> omega

theorem not_commitKey_high {key : Nat} (h : 0x9000000 ≤ key) : ¬CommitKey key := by
  simp only [CommitKey, RosterKey, Reg.STEP_COMMITTED, Reg.STEP_GROVE_COMMITTED, Reg.NEU_LAST_STEP, coreReg, groveReg]
  rintro (h | ⟨k', hk', h⟩ | ⟨g, hg, h⟩ | ⟨q, hq, h⟩) <;> omega

/-- What a core's record says of the step: the one open, the copies selected, the blocks integrated, a fence that waits. -/
def Core.stepView (c : Core) : Option Nat × Nat × Nat × Bool := (c.openStep, c.selectors, c.blocks, c.fencePending)

theorem Core.stepView_setFlag (c : Core) (b : Nat) : (c.setFlag b).stepView = c.stepView := by
  unfold Core.setFlag
  split <;> rfl

/-- The commit's registers and each core's view of the step are in `t` as in `s`. -/
structure Calm (s t : State) : Prop where
  reads : Reads CommitKey s t
  view : ∀ p, (t.core p).stepView = (s.core p).stepView

section
variable {s0 s t : State}

theorem Calm.refl : Calm s s := ⟨.refl, fun _ => rfl⟩

theorem Calm.trans (h : Calm s0 s) (h' : Calm s t) : Calm s0 t := ⟨h.reads.trans h'.reads, fun p => (h'.view p).trans (h.view p)⟩

theorem Calm.of_reads (h : Reads CommitKey s t) (hc : t.cores = s.cores) : Calm s t := ⟨h, fun p => by rw [State.core, hc, State.core]⟩

/-- The frame of an operation that touches no register and no core. -/
theorem Calm.of_keeps {K : Nat} (h : Keeps K s t) (hf : K.testBit Component.fuses.ctorIdx = false)
    (hu : K.testBit Component.up.ctorIdx = false) (hr : K.testBit Component.regs.ctorIdx = false)
    (hc : K.testBit Component.cores.ctorIdx = false) : Calm s t := .of_reads (.of_regs h hf hu hr) (h.same .cores hc)

theorem Calm.wr {key : Nat} {w : Word} (h : Calm s0 s) (hk : ¬CommitKey key) : Calm s0 (s.wr key w) :=
  ⟨h.reads.wr hk, fun p => by rw [State.core_wr, h.view p]⟩

theorem Calm.wf' {key lo n v : Nat} (h : Calm s0 s) (hk : ¬CommitKey key) : Calm s0 (s.wf' key lo n v) := h.wr hk

theorem Calm.count {key n : Nat} (h : Calm s0 s) (hk : ¬CommitKey key) : Calm s0 (s.count key n) := h.wr hk

theorem Calm.countWrap {key n : Nat} (h : Calm s0 s) (hk : ¬CommitKey key) : Calm s0 (s.countWrap key n) := h.wr hk

theorem Calm.wr64 {lo v : Nat} (h : Calm s0 s) (hlo : ¬CommitKey lo) (hhi : ¬CommitKey (lo + 4)) : Calm s0 (s.wr64 lo v) :=
  (h.wr hlo).wr hhi

theorem Calm.updCore {p : Nat} {f : Core → Core} (h : Calm s0 s) (hf : ∀ c, (f c).stepView = c.stepView) : Calm s0 (s.updCore p f) :=
  ⟨h.reads.updCore, fun q => by
    rw [State.core_updCore]
    split
    · next e => rw [hf, e, h.view p]
    · exact h.view q⟩

theorem Calm.updGrove {g : Nat} {f : Grove → Grove} (h : Calm s0 s) : Calm s0 (s.updGrove g f) := ⟨h.reads.updGrove, h.view⟩

theorem Calm.updPart {k : Nat} {f : Part → Part} (h : Calm s0 s) : Calm s0 (s.updPart k f) := ⟨h.reads.updPart, h.view⟩

theorem Calm.updAtt {a : Nat} {f : Att → Att} (h : Calm s0 s) : Calm s0 (s.updAtt a f) := ⟨h.reads, h.view⟩

theorem Calm.updPort {e : Nat} {f : Port → Port} (h : Calm s0 s) : Calm s0 (s.updPort e f) := ⟨h.reads.updPort, h.view⟩

theorem Calm.ite {a b : State} {c : Prop} [Decidable c] (ha : Calm s0 a) (hb : Calm s0 b) : Calm s0 (if c then a else b) := by
  split
  · exact ha
  · exact hb

theorem Calm.high {key lo n v : Nat} (h : Calm s0 s) (hk : ¬CommitKey key) : Calm s0 (s.high key lo n v) := Calm.ite (h.wf' hk) h

/-- A loop whose steps are calm, while what the steps need of the state holds on. -/
theorem Calm.foldl {α : Type} {l : List α} {f : State → α → State} (hf : ∀ t, Calm s t → ∀ x ∈ l, Calm t (f t x)) :
    Calm s (l.foldl f s) := List.foldlRecOn l f (motive := Calm s) .refl fun t ht x hx => ht.trans (hf t ht x hx)

end

theorem State.report_calm (s : State) (cls : Nat) (k : SigKeys) : Calm s (s.report cls k) :=
  ⟨s.report_reads cls k (not_commitKey_middle (by decide) (by decide)) (not_commitKey_high (by decide))
    (not_commitKey_middle (by decide) (by decide)), fun p => by rw [State.core_report]⟩

/-! ### A core's memory and its event log -/

section
variable {p : Nat} (hp : p < 9216)
include hp

theorem State.readError_calm (s : State) (off err : Nat) : Calm s (s.readError p off err) := by
  have hk : ∀ off, off < 0x1000 → off ≠ 0x110 → ¬CommitKey (coreReg p off) := fun _ => not_commitKey_coreReg hp
  unfold State.readError
  split
  · exact .refl
  · exact Calm.refl.count (hk _ (by decide) (by decide))
  · refine Calm.ite .refl (Calm.trans ?_ (State.report_calm _ _ _))
    exact (Calm.of_keeps (State.spoil_keeps (Keeps.refl s) (.same rfl)) rfl rfl rfl rfl).count (hk _ (by decide) (by decide))

theorem State.meet_calm (s : State) (off n : Nat) : Calm s (s.meet p off n) :=
  .foldl fun t _ e _ => Calm.trans (s := { t with flaws := Store.erase e.1 t.flaws }) ⟨.refl, fun _ => rfl⟩ (State.readError_calm hp _ _ _)

theorem State.stepRead_calm (s : State) (off len : Nat) : Calm s (s.stepRead p off len) :=
  Calm.ite ((s.meet_calm hp off len).updCore fun c => c.stepView_setFlag _) (s.meet_calm hp off len)

theorem State.stepNum_calm (s : State) (off n v : Nat) : Calm s (s.stepNum p off n v) :=
  (Calm.ite .refl (s.stepRead_calm hp off n)).trans (.of_keeps (State.setNum_keeps (Keeps.refl _) (.same rfl)) rfl rfl rfl rfl)

theorem State.setLogState_calm (s : State) (slot st : Nat) : Calm s (s.setLogState p slot st) := by
  have h1 := s.stepNum_calm hp (logAt slot) 4 (setFld (s.word p (logAt slot)) 28 2 st).toNat
  exact Calm.ite (h1.trans (State.stepNum_calm hp _ _ _ _)) h1

theorem State.logAppend_calm (s : State) (slot step : Nat) (ws : List Word) : Calm s (s.logAppend p slot step ws) := by
  have hk : ¬CommitKey (Reg.CORE_EMIT_STATUS p) := not_commitKey_coreReg hp (by decide) (by decide)
  induction ws generalizing s slot with
  | nil => exact .refl
  | cons w ws ih =>
    have h1 := (s.stepNum_calm hp (logAt slot) 4 w.toNat).updCore (p := p)
      (f := fun c => { c with log := c.log ++ [⟨slot, step⟩] }) fun _ => rfl
    unfold State.logAppend
    exact ((h1.wf' hk).high hk).trans (ih _ _)

theorem State.keepLog_calm (s : State) (keep : LogEnt → Bool) : Calm s (s.keepLog p keep) :=
  (Calm.refl.updCore (f := fun c => { c with log := c.log.filter keep }) fun _ => rfl).wf' (not_commitKey_coreReg hp (by decide) (by decide))

end

/-- A log entry's event is of the parity of its step. -/
theorem State.parity_of_logEvent {s : State} {p slot step : Nat} {e : Ev} (h : s.logEvent p slot step = some e) : e.parity < 4 := by
  have hlt : step % 4 < 4 := Nat.mod_lt _ (by decide)
  unfold State.logEvent State.entEvent at h
  dsimp only at h
  split at h
  · split at h
    · cases h
    · cases h; exact hlt
  · cases h; exact hlt
  · cases h; exact hlt
  · cases h

end Sys2Proof.Machine
end

section
/-! SUPPORT. PARTITION_COMMIT: what a core does as its step commits, up to its events on their way to the fabric, is calm. -/
namespace Sys2Proof.Machine

variable {p : Nat} (hp : p < 9216)
include hp

/-! ### Events on their way to the fabric -/

/-- A packet that enters at a router's local input raises that input's high-water mark at most. -/
theorem State.inject_calm (s : State) {f : Flight} (hplace : f.place = .router p) (hin : f.inPort = 4) : Calm s (s.inject f) := by
  have hkey : ¬CommitKey (inputHigh p) := by
    rw [inputHigh, portKey, coreReg, Nat.add_assoc]
    exact not_commitKey_coreReg hp (by decide) (by decide)
  have hq : Calm (s.put f) ((s.put f).qHigh p 4 f.body.vc) :=
    .of_reads (State.qHigh_local_reads _ _ hp hkey) ((State.qHigh_keeps (K := 4) (Keeps.refl (s.put f)) (.same rfl)).same .cores rfl)
  have hput : Calm s (s.put f) := ⟨fun _ _ => rfl, fun _ => rfl⟩
  refine Calm.ite ⟨.refl, fun _ => rfl⟩ ?_
  simp only [State.enter, hplace, hin]
  exact hput.trans hq

omit hp in
theorem State.inj_calm (s : State) {i n : Nat} (hi : i < 4) : Calm s (s.inj (p / 144) i n) :=
  Calm.refl.countWrap (not_commitKey_groveReg (by omega) (by omega) (by omega))

theorem State.toUnit_calm (s : State) (u : Nat) (step : Option Nat) (b : Body) : Calm s (s.toUnit p u step b) := State.inject_calm hp _ rfl rfl

theorem State.tapCopies_calm (s : State) {e : Ev} (he : e.parity < 4) : Calm s (s.tapCopies p e) :=
  .foldl fun t _ _ _ => Calm.ite ((t.inj_calm he).trans (State.toUnit_calm hp _ _ _ _)) .refl

theorem State.canopyInject_calm (s : State) (c : Nat) {e : Ev} (he : e.parity < 4) : Calm s (s.canopyInject p c e) :=
  Calm.ite ((s.inj_calm he).trans (State.inject_calm hp _ rfl rfl)) ((s.inj_calm he).trans (State.inject_calm hp _ rfl rfl))

theorem State.present_calm (s : State) {e : Ev} (he : e.parity < 4) : Calm s (s.present p e) := by
  have h1 := s.tapCopies_calm hp he
  unfold State.present
  dsimp only
  split
  · exact h1.count (not_commitKey_coreReg hp (by decide) (by decide))
  · exact h1.trans (State.canopyInject_calm hp _ _ he)

theorem State.presentEntry_calm (s : State) (slot step st : Nat) (spilled : Bool) : Calm s (s.presentEntry p slot step st spilled) := by
  unfold State.presentEntry
  split
  · exact .refl
  · next e he =>
    have hpar : e.parity < 4 := State.parity_of_logEvent he
    exact Calm.ite (Calm.refl.updCore fun _ => rfl) ((s.setLogState_calm hp slot st).trans (State.present_calm hp _ hpar))

theorem State.injectSpills_calm (s : State) {k : Nat} (hk : k < 64) (n : Nat) : Calm s (s.injectSpills k p n) :=
  .foldl fun t _ slot _ => (State.presentEntry_calm hp t slot n lsSpillSent true).wr (not_commitKey_stepReg (off := 0x2C) hk (by decide) (by decide))

/-! ### The handler and the neurons -/

/-- An EMIT that waited, with no step open at the core, is logged for the next step at most. -/
theorem State.handlerEmit_calm {s t : State} {e : EmitReq} (hopen : (s.core p).openStep = none) (h : s.handlerEmit p e = some t) : Calm s t := by
  simp only [State.handlerEmit, hopen] at h
  split at h
  · obtain ⟨slot, -, rfl⟩ := Option.map_eq_some_iff.1 h
    exact s.logAppend_calm hp _ _ _
  · cases h

theorem State.hdlGo_calm (s : State) : Calm s (s.hdlGo p) := by
  have hk : ¬CommitKey (Reg.HDL_STATUS p) := not_commitKey_coreReg hp (by decide) (by decide)
  exact ((Calm.refl.updCore (f := fun c => { c with wait := .none }) fun _ => rfl).wf' hk).wf' hk

theorem State.resumeEmit_calm {s : State} (hopen : (s.core p).openStep = none) : Calm s (s.resumeEmit p) := by
  have hshow : ∀ t, Calm s t → Calm s (t.stallShow p) := fun t ht => ht.wf' (not_commitKey_coreReg hp (by decide) (by decide))
  unfold State.resumeEmit
  split
  · refine hshow _ ?_
    split
    · next t ht => exact (State.handlerEmit_calm hp hopen ht).trans (t.hdlGo_calm hp)
    · exact .refl
  · exact .refl

theorem State.idleNeurons_calm (s : State) : Calm s (s.idleNeurons p) := by
  have hk : ¬CommitKey (Reg.NEU_STATUS p) := not_commitKey_coreReg hp (by decide) (by decide)
  exact Calm.ite ((Calm.refl.wf' hk).wf' hk) (Calm.refl.wf' hk)

theorem State.commitScales_calm (s : State) (k : Nat) : Calm s (s.commitScales k p) := by
  have hk : ∀ off, off < 0x1000 → off ≠ 0x110 → ¬CommitKey (coreReg p off) := fun _ => not_commitKey_coreReg hp
  have hloop := keeps_foldl_fst (xs := List.range 496) (b := ScaleSum.mk 0 0 0 0)
    (f := fun (sa : State × ScaleSum) ch => sa.1.commitChannel k p ch sa.2)
    (fun _ _ _ h => State.commitChannel_keeps h Prod.mk.eta.symm (.same rfl)) (Keeps.refl s)
  unfold State.commitScales
  revert hloop
  generalize (List.range 496).foldl (fun (sa : State × ScaleSum) ch => sa.1.commitChannel k p ch sa.2) (s, ⟨0, 0, 0, 0⟩) = st
  obtain ⟨s1, t⟩ := st
  intro hloop
  have h1 : Calm s s1 := .of_keeps hloop rfl rfl rfl rfl
  exact ((h1.wr (hk _ (by decide) (by decide))).count (hk _ (by decide) (by decide))).count (hk _ (by decide) (by decide))

end Sys2Proof.Machine
end

section
/-! SUPPORT. PARTITION_COMMIT: the commit at the cores and at the groves. -/
namespace Sys2Proof.Machine

/-- The copies that a core selects once the blocks it integrated are flipped. -/
def Core.selected (c : Core) : Nat := Nat.xor c.selectors c.blocks

theorem Core.selected_flipBlocks (c : Core) : c.flipBlocks.selected = c.selected := Nat.xor_zero _

/-- The commit of step `n` has taken effect at core `p`. -/
structure CoreDone (n p : Nat) (t : State) : Prop where
  last : t.rd (Reg.NEU_LAST_STEP p) = BitVec.ofNat 32 n
  closed : (t.core p).openStep = none
  flipped : (t.core p).blocks = 0

/-- What a core's record says beside its open step and its flips. -/
def SameFlips (s t : State) : Prop :=
  ∀ q, (t.core q).selected = (s.core q).selected ∧ (t.core q).fencePending = (s.core q).fencePending

section
variable {s t u : State}

theorem Calm.core_eq (h : Calm s t) (p : Nat) : (t.core p).openStep = (s.core p).openStep ∧ (t.core p).selectors = (s.core p).selectors ∧
    (t.core p).blocks = (s.core p).blocks ∧ (t.core p).fencePending = (s.core p).fencePending := by
  have hv := h.view p
  simp only [Core.stepView, Prod.mk.injEq] at hv
  exact hv

theorem commitKey_neuLastStep {p : Nat} (hp : p < 9216) : CommitKey (Reg.NEU_LAST_STEP p) := .inr (.inr (.inr ⟨p, hp, rfl⟩))

theorem commitKey_stepCommitted {k : Nat} (hk : k < 64) : CommitKey (Reg.STEP_COMMITTED k) := .inr (.inl ⟨k, hk, rfl⟩)

theorem commitKey_groveCommitted {g : Nat} (hg : g < 64) : CommitKey (Reg.STEP_GROVE_COMMITTED g) := .inr (.inr (.inl ⟨g, hg, rfl⟩))

theorem SameFlips.refl : SameFlips s s := fun _ => ⟨rfl, rfl⟩

theorem SameFlips.trans (h : SameFlips s t) (h' : SameFlips t u) : SameFlips s u := fun q =>
  ⟨(h' q).1.trans (h q).1, (h' q).2.trans (h q).2⟩

theorem SameFlips.updCore {p : Nat} {f : Core → Core} (hf : ∀ c, (f c).selected = c.selected ∧ (f c).fencePending = c.fencePending) :
    SameFlips s (s.updCore p f) := fun q => by
  rw [State.core_updCore]
  split
  · next e => rw [e]; exact hf _
  · exact ⟨rfl, rfl⟩

theorem Calm.sameFlips (h : Calm s t) : SameFlips s t := fun q => by
  obtain ⟨-, hsel, hblk, hfence⟩ := h.core_eq q
  exact ⟨by rw [Core.selected, hsel, hblk, Core.selected], hfence⟩

theorem CoreDone.calm {n p : Nat} (hd : CoreDone n p s) (hp : p < 9216) (h : Calm s t) : CoreDone n p t := by
  obtain ⟨hopen, -, hblk, -⟩ := h.core_eq p
  exact ⟨(h.reads _ (commitKey_neuLastStep hp)).trans hd.last, hopen.trans hd.closed, hblk.trans hd.flipped⟩

end

/-! ### At a core -/

/-- What a core counted in its step, added to its registers. -/
def State.addCounts (s : State) (p : Nat) (c : StepCounts) : State :=
  (((s.count (Reg.NEU_OVERDRIVE p) c.overdrive).count (Reg.NEU_VSAT p) c.vsat).count (Reg.NEU_RIN_SLOTS p) c.rinSlots).count
    (Reg.NEU_RIN_MAG p) c.rinMag

/-- The end of a commit at a core, once it shows the step as its last: its record is cleared of the step, and what waited goes on. -/
def State.closeCore (s : State) (k n p : Nat) : State :=
  let s1 := (s.updCore p Core.stepOver).keepLog p fun e =>
    e.step == (n + 1) % 2 ^ 32 || (e.step == n && logState (s.word p (logAt e.slot)) == lsSpill)
  (((s1.injectSpills k p n).resumeEmit p).idleNeurons p).wf' (Reg.INT_CORE_STATUS p) 31 1 0

theorem State.commitCore_eq (s : State) (k n p : Nat) : s.commitCore k n p =
    ((((((s.updCore p Core.flipBlocks).commitScales k p).wr (Reg.NEU_LAST p)
      (BitVec.ofNat 32 ((s.core p).counts.fired * 65536 + (s.core p).counts.integrated))).wr (Reg.NEU_LAST_STEP p)
      (BitVec.ofNat 32 n)).addCounts p (s.core p).counts).closeCore k n p) := rfl

section
variable {k p : Nat} (hk : k < 64) (hp : p < 9216) (s : State) (n : Nat)
include hk hp

omit hk in
theorem State.addCounts_calm (c : StepCounts) : Calm s (s.addCounts p c) := by
  have hkey : ∀ off, off < 0x1000 → off ≠ 0x110 → ¬CommitKey (coreReg p off) := fun _ => not_commitKey_coreReg hp
  exact (((Calm.refl.count (hkey _ (by decide) (by decide))).count (hkey _ (by decide) (by decide))).count
    (hkey _ (by decide) (by decide))).count (hkey _ (by decide) (by decide))

theorem State.closeCore_calm : Calm (s.updCore p Core.stepOver) (s.closeCore k n p) := by
  unfold State.closeCore
  generalize (fun e : LogEnt => e.step == (n + 1) % 2 ^ 32 || (e.step == n && logState (s.word p (logAt e.slot)) == lsSpill)) = keep
  have h1 := ((s.updCore p Core.stepOver).keepLog_calm hp keep).trans (State.injectSpills_calm hp _ hk n)
  have hopen := (h1.core_eq p).1
  rw [State.core_updCore_same] at hopen
  exact ((h1.trans (State.resumeEmit_calm hp hopen)).trans (State.idleNeurons_calm hp _)).wf' (not_commitKey_coreReg hp (by decide) (by decide))

/-- A commit at a core flips its blocks, writes the step into NEU_LAST_STEP and closes the step, and is calm between. -/
theorem State.commitCore_stages : ∃ u v, Calm (s.updCore p Core.flipBlocks) u ∧ Calm (u.wr (Reg.NEU_LAST_STEP p) (BitVec.ofNat 32 n)) v ∧
    Calm (v.updCore p Core.stepOver) (s.commitCore k n p) := by
  rw [State.commitCore_eq]
  refine ⟨_, _, ?_, State.addCounts_calm hp _ _, State.closeCore_calm hk hp _ n⟩
  exact (State.commitScales_calm hp _ k).wr (not_commitKey_coreReg hp (by decide) (by decide))

theorem State.commitCore_done : CoreDone n p (s.commitCore k n p) := by
  obtain ⟨u, v, h1, h2, h3⟩ := s.commitCore_stages hk hp n
  have hkey := commitKey_neuLastStep hp
  obtain ⟨hopen, -, hblk, -⟩ := h3.core_eq p
  rw [State.core_updCore_same] at hopen hblk
  refine ⟨?_, hopen, ?_⟩
  · rw [h3.reads _ hkey, State.rd_updCore, h2.reads _ hkey, State.rd_wr, if_pos rfl]
  · rw [hblk, Core.stepOver, (h2.core_eq p).2.2.1, State.core_wr, (h1.core_eq p).2.2.1, State.core_updCore_same, Core.flipBlocks]

theorem State.commitCore_sameFlips : SameFlips s (s.commitCore k n p) := by
  obtain ⟨u, v, h1, h2, h3⟩ := s.commitCore_stages hk hp n
  have hw : SameFlips u (u.wr (Reg.NEU_LAST_STEP p) (BitVec.ofNat 32 n)) := fun q => by rw [State.core_wr]; exact ⟨rfl, rfl⟩
  exact (((SameFlips.updCore fun c => ⟨c.selected_flipBlocks, rfl⟩).trans h1.sameFlips).trans hw).trans
    (h2.sameFlips.trans ((SameFlips.updCore (f := Core.stepOver) fun _ => ⟨rfl, rfl⟩).trans h3.sameFlips))

theorem State.commitCore_reads : Reads (fun key => CommitKey key ∧ key ≠ Reg.NEU_LAST_STEP p) s (s.commitCore k n p) := by
  obtain ⟨u, v, h1, h2, h3⟩ := s.commitCore_stages hk hp n
  rintro key ⟨hkey, hne⟩
  rw [h3.reads _ hkey, State.rd_updCore, h2.reads _ hkey, State.rd_wr, if_neg hne, h1.reads _ hkey, State.rd_updCore]

/-- A commit at another core leaves the commit at a core as it was. -/
theorem CoreDone.commitCore {q : Nat} (hq : q < 9216) (hd : CoreDone n q s) : CoreDone n q (s.commitCore k n p) := by
  by_cases e : q = p
  · exact e ▸ s.commitCore_done hk hp n
  · obtain ⟨u, v, h1, h2, h3⟩ := s.commitCore_stages hk hp n
    have hne : Reg.NEU_LAST_STEP q ≠ Reg.NEU_LAST_STEP p := by
      simp only [Reg.NEU_LAST_STEP, coreReg]
      omega
    obtain ⟨hopen1, -, hblk1, -⟩ := h1.core_eq q
    obtain ⟨hopen2, -, hblk2, -⟩ := h2.core_eq q
    obtain ⟨hopen3, -, hblk3, -⟩ := h3.core_eq q
    rw [State.core_updCore, if_neg e] at hopen1 hblk1 hopen3 hblk3
    rw [State.core_wr] at hopen2 hblk2
    exact ⟨(s.commitCore_reads hk hp n _ ⟨commitKey_neuLastStep hq, hne⟩).trans hd.last,
      by rw [hopen3, hopen2, hopen1, hd.closed], by rw [hblk3, hblk2, hblk1, hd.flipped]⟩

end

/-! ### At a grove -/

theorem State.commitGrove_reads (s : State) (n g : Nat) :
    Reads (fun key => CommitKey key ∧ key ≠ Reg.STEP_GROVE_COMMITTED g) s (s.commitGrove n g) := by
  have hst : ¬CommitKey (Reg.STEP_GROVE_STATUS g) := not_commitKey_groveReg (by decide) (by decide) (by decide)
  exact ((Reads.updGrove Reads.refl).wf' fun h => hst h.1).wr fun h => h.2 rfl

theorem State.rd_commitGrove (s : State) (n g : Nat) : (s.commitGrove n g).rd (Reg.STEP_GROVE_COMMITTED g) = BitVec.ofNat 32 n := by
  rw [State.commitGrove, State.rd_wr, if_pos rfl]

theorem State.core_commitGrove (s : State) (n g p : Nat) : (s.commitGrove n g).core p = s.core p := by
  rw [State.commitGrove, State.core_wr, State.core_wf', State.core_updGrove]

theorem State.commitGrove_sameFlips (s : State) (n g : Nat) : SameFlips s (s.commitGrove n g) := fun p => by
  rw [State.core_commitGrove]
  exact ⟨rfl, rfl⟩

theorem CoreDone.commitGrove {t : State} {n p : Nat} (hd : CoreDone n p t) (hp : p < 9216) (g : Nat) : CoreDone n p (t.commitGrove n g) := by
  have hne : Reg.NEU_LAST_STEP p ≠ Reg.STEP_GROVE_COMMITTED g := by
    simp only [Reg.NEU_LAST_STEP, Reg.STEP_GROVE_COMMITTED, coreReg, groveReg]
    omega
  exact ⟨(t.commitGrove_reads n g _ ⟨commitKey_neuLastStep hp, hne⟩).trans hd.last, by rw [State.core_commitGrove, hd.closed],
    by rw [State.core_commitGrove, hd.flipped]⟩

/-! ### All of a partition -/

/-- The cores and the groves of partition `k` committed. -/
def State.commitParts (s : State) (k n : Nat) : State :=
  let s1 := (s.coresOfPart k).foldl (fun t p => t.commitCore k n p) s
  (s1.grovesOf k).foldl (fun t g => t.commitGrove n g) s1

/-- Step `n` of partition `k` is committed at the cores and the groves that `s` names, and the roster is as in `s`. -/
structure PartsDone (s : State) (k n : Nat) (t : State) : Prop where
  roster : Reads RosterKey s t
  flips : SameFlips s t
  cores : ∀ p ∈ s.coresOfPart k, CoreDone n p t
  groves : ∀ g ∈ s.grovesOf k, t.rd (Reg.STEP_GROVE_COMMITTED g) = BitVec.ofNat 32 n

theorem PartsDone.calm {s t u : State} {k n : Nat} (h : PartsDone s k n t) (hc : Calm t u) : PartsDone s k n u :=
  ⟨h.roster.trans (hc.reads.mono fun _ => .inl), h.flips.trans hc.sameFlips,
    fun p hp => (h.cores p hp).calm (State.lt_of_mem_coresOfPart hp) hc,
    fun g hg => (hc.reads _ (commitKey_groveCommitted (State.lt_of_mem_grovesOf hg))).trans (h.groves g hg)⟩

theorem not_rosterKey_neuLastStep {p : Nat} (hp : p < 9216) : ¬RosterKey (Reg.NEU_LAST_STEP p) := by
  simp only [RosterKey, Reg.NEU_LAST_STEP, coreReg]
  omega

theorem State.commitParts_done (s : State) {k : Nat} (hk : k < 64) (n : Nat) : PartsDone s k n (s.commitParts k n) := by
  have hlt : ∀ p ∈ s.coresOfPart k, p < 9216 := fun p => State.lt_of_mem_coresOfPart
  have hroster : ∀ g key, RosterKey key → CommitKey key ∧ key ≠ Reg.STEP_GROVE_COMMITTED g := fun g key h => ⟨.inl h, fun e => by
    rw [e] at h
    simp only [RosterKey, Reg.STEP_GROVE_COMMITTED, groveReg] at h
    omega⟩
  unfold State.commitParts
  dsimp only
  have h1 : Reads RosterKey s ((s.coresOfPart k).foldl (fun t p => t.commitCore k n p) s) := Reads.refl.foldl fun t ht p hp =>
    ht.trans ((t.commitCore_reads hk (hlt p hp) n).mono fun key h => ⟨.inl h, fun e => not_rosterKey_neuLastStep (hlt p hp) (e ▸ h)⟩)
  have h2 : SameFlips s ((s.coresOfPart k).foldl (fun t p => t.commitCore k n p) s) :=
    List.foldlRecOn _ _ (motive := SameFlips s) .refl fun t ht p hp => ht.trans (t.commitCore_sameFlips hk (hlt p hp) n)
  have h3 : ∀ p ∈ s.coresOfPart k, CoreDone n p ((s.coresOfPart k).foldl (fun t p => t.commitCore k n p) s) := fun p hp =>
    foldl_establishes (P := CoreDone n p) hp (fun t => t.commitCore_done hk (hlt p hp) n)
      (fun t ht q hq => CoreDone.commitCore hk (hlt q hq) t n (hlt p hp) ht) s
  rw [h1.grovesOf_eq hk]
  generalize (s.coresOfPart k).foldl (fun t p => t.commitCore k n p) s = s1 at *
  refine ⟨h1.trans (Reads.refl.foldl fun t ht g _ => ht.trans ((t.commitGrove_reads n g).mono (hroster g))), ?_, fun p hp => ?_, fun g hg => ?_⟩
  · exact List.foldlRecOn _ _ (motive := SameFlips s) h2 fun t ht g _ => ht.trans (t.commitGrove_sameFlips n g)
  · exact List.foldlRecOn _ _ (motive := CoreDone n p) (h3 p hp) fun t ht g _ => ht.commitGrove (hlt p hp) g
  · refine foldl_establishes (P := fun t => t.rd (Reg.STEP_GROVE_COMMITTED g) = BitVec.ofNat 32 n) hg (fun t => t.rd_commitGrove n g)
      (fun t ht g' _ => ?_) s1
    by_cases e : g' = g
    · rw [e]
      exact t.rd_commitGrove n g
    · refine (t.commitGrove_reads n g' _ ⟨commitKey_groveCommitted (State.lt_of_mem_grovesOf hg), ?_⟩).trans ht
      simp only [Reg.STEP_GROVE_COMMITTED, groveReg]
      omega

end Sys2Proof.Machine
end

section
/-! SUPPORT. PARTITION_COMMIT: what follows the commit at the cores and the groves is calm: the passes of learning, the step
record, the records that the attachments and the event ports release, and the weight digests. -/
namespace Sys2Proof.Machine

/-! ### Learning -/

theorem State.plsCommit_calm (s : State) {k : Nat} (n : Nat) : Calm s (s.plsCommit k n) := by
  have hkey : ∀ key, 0x9000000 ≤ key → ¬CommitKey key := fun _ => not_commitKey_high
  have hgrv : ∀ g, ¬CommitKey (Reg.PLS_GRV_STATUS g) := fun g => hkey _ (by simp only [Reg.PLS_GRV_STATUS]; omega)
  have hlost : ∀ g, ¬CommitKey (Reg.PLS_LIST_LOST g) := fun g => hkey _ (by simp only [Reg.PLS_LIST_LOST]; omega)
  have hst : ¬CommitKey (Reg.PLS_PART_STATUS k) := hkey _ (by simp only [Reg.PLS_PART_STATUS]; omega)
  have hearly : ¬CommitKey (Reg.PLS_EARLY_ENDS k) := hkey _ (by simp only [Reg.PLS_EARLY_ENDS]; omega)
  unfold State.plsCommit
  refine Calm.ite .refl ?_
  dsimp only
  generalize hs1 : List.foldl _ s (s.plasticGroves k) = s1
  have h1 : Calm s s1 := by
    rw [← hs1]
    exact .foldl fun t _ g _ => ((Calm.ite ((Calm.refl.count (hlost g)).trans (State.report_calm _ _ _)) Calm.refl).updGrove).wf' (hgrv g)
  have h2 := (h1.wf' (lo := 0) (n := 15) (v := s1.rf (Reg.PLS_PART_STATUS k) 0 15 + 1) hst).updPart (k := k)
    (f := fun q => { q with endAsked := false })
  split
  · exact h2
  · exact Calm.ite (h2.wf' hst).updPart ((h2.wf' hst).updPart.count hearly)

/-! ### The step record -/

section
variable {k : Nat} (hk : k < 64) (s : State)

theorem State.hbmWrite_calm (addr : Nat) (bs : List Byte) : Calm s (s.hbmWrite addr bs) := by
  have hkey : ∀ st, ¬CommitKey (Reg.MEM_HBM_BYTES_LO st) ∧ ¬CommitKey (Reg.MEM_HBM_BYTES_LO st + 4) := fun st => by
    refine ⟨not_commitKey_high ?_, not_commitKey_high ?_⟩ <;> simp only [Reg.MEM_HBM_BYTES_LO] <;> omega
  have h1 : Calm s (s.setHbmBytes addr bs) := .of_keeps (State.setHbmBytes_keeps (Keeps.refl s) (.same rfl)) rfl rfl rfl rfl
  have h2 : ∀ t : State, Calm t (t.hbmRead addr bs.length) := fun t =>
    .foldl fun u _ st _ => Calm.ite (Calm.refl.wr64 (hkey st).1 (hkey st).2) .refl
  exact (h1.trans (h2 _)).trans (.of_keeps (State.gcInvalidate_keeps (Keeps.refl _) (.same rfl)) rfl rfl rfl rfl)

include hk

theorem State.ringRecord_calm (bs : List Byte) : Calm s (s.ringRecord k bs) := by
  have hkey : ∀ off, off < 0x400 → off ≠ 0x14 → ¬CommitKey (0x6F00000 + off + 0x400 * k) := fun _ => not_commitKey_stepReg hk
  have hhead : ¬CommitKey (Reg.STEP_REC_HEAD k) := hkey 0x38 (by decide) (by decide)
  have hwraps : ¬CommitKey (Reg.STEP_REC_WRAPS k) := hkey 0x6C (by decide) (by decide)
  unfold State.ringRecord
  refine Calm.ite (Calm.refl.count (hkey 0x68 (by decide) (by decide))) ?_
  dsimp only
  have hend : ∀ (t : State) (h size : Nat), Calm s t → Calm s
      (if h + bs.length / 32 = size then
        ((t.hbmWrite (32 * ((t.rd (Reg.STEP_REC_BASE k)).toNat + h)) bs).count (Reg.STEP_REC_WRAPS k) 1).wr (Reg.STEP_REC_HEAD k) 0
      else (t.hbmWrite (32 * ((t.rd (Reg.STEP_REC_BASE k)).toNat + h)) bs).wr (Reg.STEP_REC_HEAD k) (BitVec.ofNat 32 (h + bs.length / 32))) :=
    fun t h size ht => by
      have h2 := ht.trans (State.hbmWrite_calm t (32 * ((t.rd (Reg.STEP_REC_BASE k)).toNat + h)) bs)
      exact Calm.ite ((h2.count hwraps).wr hhead) (h2.wr hhead)
  split
  · exact hend _ _ _ (Calm.refl.count hwraps)
  · exact hend _ _ _ .refl

theorem State.queueRecord_calm (bs : List Byte) : Calm s (s.queueRecord k bs) := by
  have hdrain : ∀ t : State, Calm t (t.drainRecords k) := fun t =>
    Calm.ite (Calm.trans Calm.refl.updPart (.foldl fun u _ b _ => State.ringRecord_calm hk u b)) .refl
  exact Calm.ite .refl (Calm.ite (Calm.refl.count (not_commitKey_stepReg (off := 0x68) hk (by decide) (by decide)))
    (Calm.refl.updPart.trans (hdrain _)))

end

/-! ### What the attachments release -/

theorem not_commitKey_attReg (a addr : Nat) : ¬CommitKey (attReg a addr) := not_commitKey_high (by simp only [attReg]; omega)

theorem not_commitKey_egress (a r off : Nat) : ¬CommitKey (ringBase a .egress r + off) :=
  not_commitKey_high (by simp only [ringBase, attReg]; omega)

section
variable (s : State) (a r : Nat)

theorem State.toHost_calm (addr : Nat) (bytes : List Byte) : Calm s (s.toHost a addr bytes) :=
  .of_keeps (State.toHost_keeps (Keeps.refl s) (.same rfl)) rfl rfl rfl rfl

theorem State.putFit_calm (units : List Nat) : Calm s (s.putFit a r units) := by
  have hpad : ∀ len, Calm s (s.padRing a r len) := fun _ => Calm.ite ((s.toHost_calm a _ _).wr (not_commitKey_egress a r 16)) .refl
  exact (hpad _).trans ((State.toHost_calm _ a _ _).wr (not_commitKey_egress a r 16))

theorem State.ringDrop_calm (full : Bool) : Calm s (s.ringDrop a r full) := by
  have h : ∀ v : Att, Calm s ((s.setAtt a v).count (ringBase a .egress r + 24) 1) := fun v =>
    Calm.count (s := s.setAtt a v) ⟨fun _ _ => rfl, fun _ => rfl⟩ (not_commitKey_egress a r 24)
  exact Calm.ite (h _) ((h _).trans (State.report_calm _ _ _))

theorem State.ringEmit_calm (units : List Nat) : Calm s (s.ringEmit a r units).1 := by
  have hput : ∀ t : State, Calm t (t.putRecord a r units).1 := fun t => by
    unfold State.putRecord
    split
    · exact t.putFit_calm a r units
    · exact t.ringDrop_calm a r false
  unfold State.ringEmit
  split
  · exact s.ringDrop_calm a r false
  · exact Calm.trans (Calm.ite (s.putFit_calm a r _).updAtt .refl) (hput _)

theorem State.writeAll_calm (us : List (List Nat)) : Calm s (s.writeAll a r us).1 := by
  induction us generalizing s with
  | nil => exact .refl
  | cons u us ih => exact (s.ringEmit_calm a r u).trans (ih _)

theorem State.releaseRing_calm (k n : Nat) (mine : List HeldRec) : Calm s (s.releaseRing a k n r mine) := by
  unfold State.releaseRing
  refine Calm.ite (Calm.refl.count (not_commitKey_attReg a _)) ?_
  dsimp only
  generalize hw : s.writeAll a r _ = w
  have h1 : Calm s w.1 := hw ▸ s.writeAll_calm a r _
  have h2 : ∀ units, Calm s (if w.1.bit (ringBase a .egress r) 29 then (w.1.ringEmit a r units).1 else w.1) := fun units =>
    Calm.ite (h1.trans (State.ringEmit_calm _ a r units)) h1
  exact Calm.ite (h2 _) ((h2 _).trans (.of_keeps (State.shadow_keeps (Keeps.refl _) (.same rfl)) rfl rfl rfl rfl))

theorem State.releaseAtt_calm (k n : Nat) : Calm s (s.releaseAtt a k n) :=
  (Calm.trans Calm.refl.updAtt (.foldl fun t _ r _ => t.releaseRing_calm a r k n _)).wf' (not_commitKey_attReg a _)

end

/-! ### What the event ports release -/

section
variable {e : Nat} (he : e < 2)

theorem State.formFrame_calm (s : State) (e c kind step stamp : Nat) (early retract : Bool) (recs : List HeldRec) :
    Calm s (s.formFrame e c kind step stamp early retract recs).2 := ⟨fun _ _ => rfl, fun _ => rfl⟩

include he

theorem State.queueFrame_calm (s : State) (f : TxFrame) : Calm s (s.queueFrame e f) := by
  have hpacer : ∀ w : Nat, ¬CommitKey (Reg.EVP_PACER_STATUS e (cfld w 2 20 6)) := fun w => by
    have hj : cfld w 2 20 6 < 64 := Nat.mod_lt _ (by decide)
    refine not_commitKey_middle ?_ ?_ <;> simp only [Reg.EVP_PACER_STATUS] <;> omega
  exact Calm.ite (Calm.refl.updPort.wf' (hpacer _)) (Calm.ite Calm.refl.updPort Calm.refl.updPort)

theorem State.sendFrame_calm (s : State) (c kind step stamp : Nat) (early retract : Bool) (recs : List HeldRec) :
    Calm s (s.sendFrame e c kind step stamp early retract recs) := by
  have hform : ∀ (t : State) kind step stamp early retract recs, Calm t
      ((t.formFrame e c kind step stamp early retract recs).2.queueFrame e (t.formFrame e c kind step stamp early retract recs).1) :=
    fun t _ _ _ _ _ _ => (t.formFrame_calm e c _ _ _ _ _ _).trans (State.queueFrame_calm he _ _)
  exact Calm.trans (Calm.ite .refl (hform s _ _ _ _ _ _).updPort) (hform _ _ _ _ _ _ _)

theorem State.releasePort_calm (s : State) (k n : Nat) : Calm s (s.releasePort e k n) := by
  have hflush : ∀ (t : State) c, Calm t (t.flushEarly e c) := fun t c => by
    unfold State.flushEarly
    split
    · exact .refl
    · exact Calm.refl.updPort.trans (State.sendFrame_calm he _ _ _ _ _ _ _ _)
  refine (Calm.trans (.foldl fun t _ c _ => hflush t c) Calm.refl.updPort).trans (.foldl fun t _ c _ => ?_)
  have hframes := fun stamp (l : List (List HeldRec)) => Calm.foldl (s := t) (l := l)
    (f := fun u recs => u.sendFrame e c 0 n stamp false false recs) fun u _ recs _ => State.sendFrame_calm he u c 0 n stamp false false recs
  exact Calm.ite ((hframes _ _).trans (State.sendFrame_calm he _ _ _ _ _ _ _ _)) (hframes _ _)

end

/-! ### The weight digests -/

theorem State.weightCompare_calm (s : State) {p : Nat} (hp : p < 9216) (a b : List Nat) : Calm s (s.weightCompare p a b) := by
  have h1 : Calm s (s.wf' (Reg.INT_DIG_STATUS p) 30 1 1) := Calm.refl.wf' (not_commitKey_coreReg hp (by decide) (by decide))
  unfold State.weightCompare
  split
  · exact .refl
  · dsimp only
    split
    · next k hk =>
      have hlt := State.lt_of_partOf hk
      refine (h1.wf' (not_commitKey_middle ?_ ?_)).trans (State.report_calm _ _ _) <;> simp only [Reg.INT_PART_STATUS] <;> omega
    · exact h1.trans (State.report_calm _ _ _)

theorem State.coreWalk_calm (s : State) {p : Nat} (hp : p < 9216) (budget : Nat) : Calm s (s.coreWalk p budget).1 := by
  have hkey : ∀ off, off < 0x1000 → off ≠ 0x110 → ¬CommitKey (coreReg p off) := fun _ => not_commitKey_coreReg hp
  have hlo : ∀ (t : State) v, Calm t (t.wr64 (Reg.INT_WDIG_LO p) v) := fun t v =>
    Calm.refl.wr64 (hkey 0xA20 (by decide) (by decide)) (hkey 0xA24 (by decide) (by decide))
  have hbase : ∀ (t : State) v, Calm t (t.wr64 (Reg.INT_WDIG_BASE_LO p) v) := fun t v =>
    Calm.refl.wr64 (hkey 0xA28 (by decide) (by decide)) (hkey 0xA2C (by decide) (by decide))
  unfold State.coreWalk
  dsimp only
  generalize walk (s.bytes p) _ _ _ _ _ _ _ = w
  split
  · exact .refl
  · split
    · exact Calm.refl.updCore (f := fun c => { c with wdigPos := w.pos, wdigRun := w.run, wdigMarks := w.marks }) fun _ => rfl
    · have h1 := Calm.trans (Calm.refl.updCore (s := s) (p := p)
        (f := fun c => { c with wdigPos := 0, wdigRun := 0, wdigMarks := [], wdigLast := w.marks, wdigNew := false }) fun _ => rfl)
        (hlo _ (cvuValue c64e w.run))
      split
      · have h2 := h1.updCore (p := p) (f := fun c => { c with wdigBase := w.marks }) fun _ => rfl
        exact (h2.trans (hbase _ _)).wf' (hkey 0xA30 (by decide) (by decide))
      · exact h1.trans (State.weightCompare_calm _ hp _ _)

/-- The walks of a partition's cores, with the cores whose walk has ended. -/
theorem State.coreWalks_calm (s : State) {cores : List Nat} (hc : ∀ p ∈ cores, p < 9216) (budget : Nat) :
    let te := cores.foldl (fun (te : State × List Nat) p =>
      ((te.1.coreWalk p budget).1, if (te.1.coreWalk p budget).2 then te.2 ++ [p] else te.2)) (s, [])
    Calm s te.1 ∧ ∀ p ∈ te.2, p < 9216 := by
  refine List.foldlRecOn cores _ (motive := fun te : State × List Nat => Calm s te.1 ∧ ∀ p ∈ te.2, p < 9216)
    ⟨.refl, fun _ h => absurd h List.not_mem_nil⟩ fun te ⟨ht, he⟩ p hp => ⟨ht.trans (te.1.coreWalk_calm (hc p hp) budget), ?_⟩
  split
  · exact fun q hq => (List.mem_append.1 hq).elim (he q) fun h => List.mem_singleton.1 h ▸ hc p hp
  · exact he

theorem State.twinWalks_calm (s : State) (hadBase : Nat → Bool) {ended : List Nat} (he : ∀ p ∈ ended, p < 9216) :
    Calm s (s.twinWalks hadBase ended) := by
  refine .foldl fun t _ p hp => ?_
  split
  · exact Calm.ite (t.weightCompare_calm (he p hp) _ _) .refl
  · exact .refl

theorem State.groveWalked_calm (s : State) (g : Nat) {cores : List Nat} (hc : ∀ p ∈ cores, p < 9216) : Calm s (s.groveWalked g cores) := by
  refine (Calm.trans Calm.refl.updGrove (.foldl fun t _ p hp => ?_)).trans (.foldl fun t _ p hp => ?_)
  · exact Calm.ite Calm.refl.updGrove (t.weightCompare_calm (hc p hp) _ _)
  · dsimp only
    split
    · exact Calm.ite (t.weightCompare_calm (hc p hp) _ _) .refl
    · exact .refl

theorem State.groveSpan_calm (s : State) (g : Nat) {all : List Nat} (hc : ∀ p ∈ all, p < 9216) (budget : Nat) (ps : List Nat) :
    Calm s (s.groveSpan g all budget ps) := by
  induction ps generalizing s budget with
  | nil => exact s.groveWalked_calm g hc
  | cons p ps ih =>
    unfold State.groveSpan
    generalize walk s.hbmBytes _ _ _ _ _ _ _ = w
    exact Calm.ite (Calm.refl.updGrove.trans (ih _ _)) Calm.refl.updGrove

theorem State.groveWalk_calm (s : State) {g : Nat} (hg : g < 64) (budget : Nat) : Calm s (s.groveWalk g budget) := by
  refine Calm.ite .refl (s.groveSpan_calm g (fun p hp => ?_) budget _)
  exact State.lt_of_mem_activeCores hg (List.mem_of_mem_filter hp)

theorem State.weightDigests_calm (s : State) (k : Nat) : Calm s (s.weightDigests k) := by
  have hwalks := fun budget => s.coreWalks_calm (cores := s.coresOfPart k) (fun p => State.lt_of_mem_coresOfPart) budget
  unfold State.weightDigests
  refine Calm.ite .refl ?_
  dsimp only
  generalize hte : List.foldl _ (s, []) (s.coresOfPart k) = te
  obtain ⟨h1, he⟩ : Calm s te.1 ∧ ∀ p ∈ te.2, p < 9216 := hte ▸ hwalks _
  exact (h1.trans (State.twinWalks_calm _ _ he)).trans (.foldl fun t _ g hg => t.groveWalk_calm (State.lt_of_mem_grovesOf hg) _)

/-! ### A halt that was asked for -/

theorem State.lt_of_mem_globalsOf {s : State} {k c : Nat} (h : c ∈ s.globalsOf k) : c < 1024 := by
  rw [State.globalsOf, List.mem_filter] at h
  exact List.mem_range.1 h.1

theorem State.haltNow_reads {P : Nat → Prop} (s : State) (k : Nat) (hch : ∀ c, c < 1024 → ¬P (chKey c + 4)) : Reads P s (s.haltNow k) := by
  have hshow : ∀ t : State, Reads P t (t.showHalt k) := fun t =>
    Reads.refl.foldl fun u hu c hc => hu.wf' (hch c (State.lt_of_mem_globalsOf hc))
  have hhalt : Reads P s (s.updPart k fun q => { q with halted := true, haltAsked := false }) := Reads.refl.updPart
  exact Reads.ite (hhalt.trans (hshow _)) .refl

theorem chKey_lt {c : Nat} (hc : c < 1024) : 0x4010000 ≤ chKey c + 4 ∧ chKey c + 4 < 0x4020000 := by
  rw [chKey, if_pos hc]
  omega

theorem State.haltNow_calm (s : State) (k : Nat) : Calm s (s.haltNow k) := by
  refine .of_reads (s.haltNow_reads k fun c hc => ?_) ((State.haltNow_keeps (K := 4100) (Keeps.refl s) (.same rfl)).same .cores rfl)
  obtain ⟨h, h'⟩ := chKey_lt hc
  exact not_commitKey_channel h h'

end Sys2Proof.Machine
end

section
/-! SUPPORT. PARTITION_COMMIT: its stages put together. -/
namespace Sys2Proof.Machine

theorem State.fencesAtCommit_of_none {s : State} {k : Nat} (h : ∀ p ∈ s.coresOfPart k, (s.core p).fencePending = false) :
    s.fencesAtCommit k = (s, []) := by
  have hnil : ((s.coresOfPart k).filter fun p => (s.core p).fencePending) = [] :=
    List.filter_eq_nil_iff.2 fun p hp => by rw [h p hp]; decide
  rw [State.fencesAtCommit, hnil, List.foldl_nil]

/-- The write of STEP_COMMITTED touches nothing that has been done at the parts. -/
theorem PartsDone.committed {s t : State} {k n : Nat} {w : Word} (hk : k < 64) (h : PartsDone s k n t) :
    PartsDone s k n (t.wr (Reg.STEP_COMMITTED k) w) where
  roster := h.roster.wr (by simp only [RosterKey, Reg.STEP_COMMITTED]; omega)
  flips := h.flips.trans fun p => by rw [State.core_wr]; exact ⟨rfl, rfl⟩
  cores p hp := by
    have hp9 := State.lt_of_mem_coresOfPart hp
    have hne : Reg.NEU_LAST_STEP p ≠ Reg.STEP_COMMITTED k := by
      simp only [Reg.NEU_LAST_STEP, Reg.STEP_COMMITTED, coreReg]
      omega
    obtain ⟨hlast, hclosed, hflipped⟩ := h.cores p hp
    exact ⟨by rw [State.rd_wr, if_neg hne, hlast], by rw [State.core_wr, hclosed], by rw [State.core_wr, hflipped]⟩
  groves g hg := by
    have hg6 := State.lt_of_mem_grovesOf hg
    have hne : Reg.STEP_GROVE_COMMITTED g ≠ Reg.STEP_COMMITTED k := by
      simp only [Reg.STEP_GROVE_COMMITTED, Reg.STEP_COMMITTED, groveReg]
      omega
    rw [State.rd_wr, if_neg hne, h.groves g hg]

/-- Where no block waits for its flip, the copies selected are those that will be. -/
theorem CoreDone.selectors_eq {n p : Nat} {t : State} (h : CoreDone n p t) : (t.core p).selected = (t.core p).selectors := by
  rw [Core.selected, h.flipped]
  exact Nat.xor_zero _

/-- What leaves the machine as a step commits: its duration, its record, the records held for it, and the weight digests. -/
def State.publish (s : State) (k n dur : Nat) (bs : List Byte) : State :=
  let s4 := (s.wr (Reg.STEP_LAST_NS k) (BitVec.ofNat 32 dur)).queueRecord k bs
  let s5 := (List.range 8).foldl (fun t a => t.releaseAtt a k n) s4
  ((s5.releasePort 0 k n).releasePort 1 k n).weightDigests k

/-- The partition's record once its step is committed. -/
def Part.closeStep (q : Part) : Part :=
  { q with openStep := none, closed := false, delivered := false, spillOut := decide (0 < q.spilled), spilled := 0, recEnts := [] }

/-- The state in which the cores, the groves and the plastic groves of the partition have committed. -/
def State.partsCommitted (s : State) (k n : Nat) : State := (s.commitParts k n).plsCommit k n

/-- How long the open step of a partition has taken. -/
def State.stepNs (s : State) (k : Nat) : Nat := min 0xFFFFFFFF (s.ref - s.rd64 (Reg.STEP_OPEN_REF_LO k))

/-- The step committed at the partition, after `s` in which its parts have committed. -/
def State.closeStep (s : State) (k n dur : Nat) : State :=
  ((((s.wr (Reg.STEP_COMMITTED k) (BitVec.ofNat 32 n)).publish k n dur (s.stepRecord k n dur)).updPart k Part.closeStep).stepState k
    ssWaiting).haltNow k

theorem State.commitStep_stages (s : State) (k n : Nat) : s.commitStep k n =
    (((s.partsCommitted k n).fencesAtCommit k).2).foldl (fun t g => t.groveWide g 3)
      ((((s.partsCommitted k n).fencesAtCommit k).1).closeStep k n (s.stepNs k)) := rfl

theorem State.commitStep_eq {s : State} {k : Nat} (n : Nat)
    (h : ∀ p ∈ (s.partsCommitted k n).coresOfPart k, ((s.partsCommitted k n).core p).fencePending = false) :
    s.commitStep k n = (s.partsCommitted k n).closeStep k n (s.stepNs k) := by
  rw [State.commitStep_stages, State.fencesAtCommit_of_none h, List.foldl_nil]

theorem State.publish_calm (s : State) {k : Nat} (hk : k < 64) (n dur : Nat) (bs : List Byte) : Calm s (s.publish k n dur bs) := by
  have h1 : Calm s (s.wr (Reg.STEP_LAST_NS k) (BitVec.ofNat 32 dur)) := Calm.refl.wr (not_commitKey_stepReg (off := 0x28) hk (by decide) (by decide))
  have hrel : ∀ t : State, Calm t ((List.range 8).foldl (fun t a => t.releaseAtt a k n) t) := fun t =>
    .foldl fun u _ a _ => u.releaseAtt_calm a k n
  have hport : ∀ t : State, Calm t ((t.releasePort 0 k n).releasePort 1 k n) := fun t =>
    (State.releasePort_calm (by decide) t k n).trans (State.releasePort_calm (by decide) _ k n)
  exact (((h1.trans (State.queueRecord_calm hk _ bs)).trans (hrel _)).trans (hport _)).trans (State.weightDigests_calm _ k)

/-- The last stage writes the partition's record and STEP_STATE beside what is calm. -/
theorem State.closing_calm (s : State) {k : Nat} (hk : k < 64) :
    Calm s (((s.updPart k Part.closeStep).stepState k ssWaiting).haltNow k) := by
  have h1 : Calm s ((s.updPart k Part.closeStep).stepState k ssWaiting) :=
    Calm.refl.updPart.wf' (not_commitKey_stepReg (off := 0xC) hk (by decide) (by decide))
  exact h1.trans (State.haltNow_calm _ k)

theorem State.stepState_closing (s : State) (k : Nat) : (((s.updPart k Part.closeStep).stepState k ssWaiting).haltNow k).rf (Reg.STEP_STATE k) 28 4 =
    ssWaiting := by
  have hr : Reads (· = Reg.STEP_STATE k) ((s.updPart k Part.closeStep).stepState k ssWaiting)
      (((s.updPart k Part.closeStep).stepState k ssWaiting).haltNow k) := State.haltNow_reads _ k fun c hc => by
    have := chKey_lt hc
    simp only [Reg.STEP_STATE]
    omega
  rw [hr.rf_eq rfl, State.stepState, State.rf_wf'_same _ _ _ (by decide)]
  rfl

theorem State.openStep_closing (s : State) (k : Nat) :
    ((((s.updPart k Part.closeStep).stepState k ssWaiting).haltNow k).part k).openStep = none := by
  obtain ⟨h, asked, e⟩ := State.part_haltNow ((s.updPart k Part.closeStep).stepState k ssWaiting) k
  rw [e, State.stepState, State.part_wf', State.part_updPart_same, Part.closeStep]

/-- Settles O34: the commits at the cores and at the groves and the write of STEP_COMMITTED give what the statement names, and
whatever else a commit does is calm. -/
theorem stepsCommit : Obligations.StepsCommit := fun s k n hk hmay hopen hfence => by
  have hdone : PartsDone s k n (s.partsCommitted k n) := (s.commitParts_done hk n).calm (State.plsCommit_calm _ n)
  have heq := State.commitStep_eq (s := s) (k := k) n fun p hp => by
    rw [hdone.roster.coresOfPart_eq hk] at hp
    rw [(hdone.flips p).2, hfence p hp]
  refine completes_of (t := s.commitStep k n) (by simp only [exec, execPartitionCommit, hmay, hopen]) ?_
  rw [heq, State.closeStep]
  generalize s.partsCommitted k n = u at *
  have hcalm := (State.publish_calm (u.wr (Reg.STEP_COMMITTED k) (BitVec.ofNat 32 n)) hk n (s.stepNs k) (u.stepRecord k n (s.stepNs k))).trans
    (State.closing_calm _ hk)
  have hwr : PartsDone s k n (u.wr (Reg.STEP_COMMITTED k) (BitVec.ofNat 32 n)) := hdone.committed hk
  have hend := hwr.calm hcalm
  refine ⟨?_, State.openStep_closing _ k, State.stepState_closing _ k, fun p hp => ⟨(hend.cores p hp).closed, ?_, (hend.cores p hp).last⟩, hend.groves⟩
  · rw [hcalm.reads _ (commitKey_stepCommitted hk), State.rd_wr, if_pos rfl]
  · rw [← (hend.cores p hp).selectors_eq, (hend.flips p).1, Core.selected]

end Sys2Proof.Machine
end

section
/-! SUPPORT. Addition into an A24 slot (02_arithmetic.md R57): `low` is the remainder modulo 2^n and `sx` the balanced remainder, so
a run of additions keeps the exact sum's class whatever its order. -/
namespace Sys2Proof.Machine

/-! ### Two's complement as remainders -/

theorem cast_low (n : Nat) (x : Int) : (low n x : Int) = x % (2 ^ n : Nat) :=
  Int.toNat_of_nonneg (Int.emod_nonneg _ (Int.natCast_ne_zero.mpr (Nat.two_pow_pos n).ne'))

theorem low_natCast (n x : Nat) : low n x = x % 2 ^ n := by
  rw [low, ← Int.natCast_emod, Int.toNat_natCast]

theorem low_low_add (n : Nat) (x d : Int) : low n ((low n x : Int) + d) = low n (x + d) := by
  rw [cast_low, low, Int.emod_add_emod, low]

/-- Half of 2^n, rounded up, is where the two readings of a word part. -/
theorem half_two_pow (n : Nat) : (2 ^ n + 1) / 2 = 2 ^ (n - 1) := by
  cases n with
  | zero => rfl
  | succ n =>
    rw [Nat.pow_succ, Nat.add_sub_cancel]
    omega

theorem sx_eq_bmod (n x : Nat) : sx n x = Int.bmod x (2 ^ n) := by
  have hhalf : ((x % 2 ^ n : Nat) : Int) < ((2 ^ n : Nat) + 1) / 2 ↔ x % 2 ^ n < 2 ^ (n - 1) := by
    rw [← half_two_pow]
    omega
  simp only [sx, Int.bmod_def, ← Int.natCast_emod, hhalf]

theorem sx_low (n : Nat) (x : Int) : sx n (low n x) = x.bmod (2 ^ n) := by
  rw [sx_eq_bmod, cast_low, Int.emod_bmod]

/-! ### Deposits and retractions -/

theorem a24Add_low (x d : Int) : a24Add (low 24 x) d = low 24 (x + d) := low_low_add 24 x d

theorem foldl_a24Add_low (ds : List Int) (x : Int) : ds.foldl a24Add (low 24 x) = low 24 (x + ds.sum) := by
  induction ds generalizing x with
  | nil => rw [List.foldl_nil, List.sum_nil, add_zero]
  | cons d ds ih => rw [List.foldl_cons, a24Add_low, ih, List.sum_cons, add_assoc]

/-- Each deposit taken back cancels against its retraction. -/
theorem sum_eq_of_perm_retracted {kept taken order : List Int} (h : order.Perm (kept ++ taken ++ taken.map fun d => -d)) :
    order.sum = kept.sum := by
  rw [h.sum_eq, List.sum_append, List.sum_append, ← List.sum_neg, add_neg_cancel_right]

/-- Settles O25: additions modulo 2^24 leave the remainder of the exact sum, retractions cancel in that sum, and the balanced
remainder of a sum in range is the sum. -/
theorem depositsAddUpInAnyOrder : Obligations.DepositsAddUpInAnyOrder := by
  intro slot kept taken order hperm
  have hslot : order.foldl a24Add (slot % 2 ^ 24) = low 24 ((slot : Int) + kept.sum) := by
    rw [← low_natCast, foldl_a24Add_low, sum_eq_of_perm_retracted hperm]
  refine ⟨hslot, fun hlo hhi => ?_⟩
  calc sx 24 (order.foldl a24Add (slot % 2 ^ 24))
      = ((slot : Int) + kept.sum).bmod (2 ^ 24) := by rw [hslot, sx_low]
    _ = (sx 24 slot + kept.sum).bmod (2 ^ 24) := by rw [sx_eq_bmod, Int.bmod_add_bmod]
    _ = sx 24 slot + kept.sum := Int.bmod_eq_of_le (by omega) (by omega)

end Sys2Proof.Machine
end

section
/-! SUPPORT. The leak of a membrane (03_neurons.md R93): the device's rounding (02_arithmetic.md R62) is odd and does not leave the
span from 0 to its operand, and so neither does the leak. -/
namespace Sys2Proof.Machine

/-! ### Rounding -/

theorem rnd_shift_zero (x : Int) : rnd x 0 = x := rfl

theorem rnd_eq_zero_of_lt {x : Int} {k : Nat} (hk : 0 < k) (h : x.natAbs < 2 ^ (k - 1)) : rnd x k = 0 := by
  have hpow : 2 ^ k = 2 * 2 ^ (k - 1) := (mul_pow_sub_one hk.ne' 2).symm
  have hq : (x.natAbs + 2 ^ (k - 1)) / 2 ^ k = 0 := Nat.div_eq_of_lt (by omega)
  simp only [rnd, if_neg hk.ne', hq, Int.natCast_zero, neg_zero, ite_self]

theorem rnd_zero (k : Nat) : rnd 0 k = 0 := by
  cases k with
  | zero => rfl
  | succ k => exact rnd_eq_zero_of_lt k.succ_pos (Nat.two_pow_pos _)

theorem rnd_neg (x : Int) (k : Nat) : rnd (-x) k = -rnd x k := by
  rcases lt_trichotomy x 0 with h | rfl | h
  · simp only [rnd, Int.natAbs_neg, if_pos h, if_neg (show ¬-x < 0 by omega)]
    split <;> simp
  · rw [neg_zero, rnd_zero, neg_zero]
  · simp only [rnd, Int.natAbs_neg, if_neg (show ¬x < 0 by omega), if_pos (show -x < 0 by omega)]
    split <;> rfl

theorem rnd_of_nonneg {x : Int} {k : Nat} (hk : 0 < k) (hx : 0 ≤ x) : rnd x k = (x + 2 ^ (k - 1)) / 2 ^ k := by
  lift x to Nat using hx
  simp only [rnd, if_neg hk.ne', if_neg (Int.natCast_nonneg x).not_gt, Int.natAbs_natCast]
  push_cast
  rfl

theorem rnd_of_nonpos {x : Int} {k : Nat} (hk : 0 < k) (hx : x ≤ 0) : rnd x k = -((2 ^ (k - 1) - x) / 2 ^ k) := by
  rw [← neg_neg x, rnd_neg, rnd_of_nonneg hk (by omega), neg_neg, neg_add_eq_sub]

theorem rnd_mem_span {x : Int} (k : Nat) (hx : 0 ≤ x) : 0 ≤ rnd x k ∧ rnd x k ≤ x := by
  rcases Nat.eq_zero_or_pos k with rfl | hk
  · exact ⟨hx, le_rfl⟩
  · have hpow : (2 : Int) ^ k = 2 * 2 ^ (k - 1) := (mul_pow_sub_one hk.ne' 2).symm
    have hhalf : (0 : Int) < 2 ^ (k - 1) := by positivity
    rw [rnd_of_nonneg hk hx, hpow]
    refine ⟨by positivity, Int.lt_add_one_iff.1 (Int.ediv_lt_of_lt_mul (by positivity) ?_)⟩
    nlinarith

/-! ### The leak -/

theorem leak_of_shift {g : Grp} (h : g.leakMode = 0) (v : Int) : leak g v = v - rnd v g.leakK := if_pos h

theorem leak_of_sub_pos {g : Grp} (h : g.leakMode ≠ 0) {v : Int} (hv : 0 < v) : leak g v = max (v - g.leakC) 0 := by
  rw [leak, if_neg h, if_pos hv]

theorem leak_zero (g : Grp) : leak g 0 = 0 := by
  simp [leak, rnd_zero]

theorem leak_neg (g : Grp) (v : Int) : leak g (-v) = -leak g v := by
  simp only [leak, rnd_neg]
  split
  · ring
  · split_ifs <;> omega

theorem leak_mem_span {g : Grp} {v : Int} (hc : 0 ≤ g.leakC) (hv : 0 ≤ v) : 0 ≤ leak g v ∧ leak g v ≤ v := by
  by_cases hm : g.leakMode = 0
  · have hr := rnd_mem_span g.leakK hv
    rw [leak_of_shift hm]
    omega
  · rcases hv.eq_or_lt with rfl | hpos
    · rw [leak_zero]
      exact ⟨le_rfl, le_rfl⟩
    · rw [leak_of_sub_pos hm hpos]
      omega

/-- Settles O19: the SHIFT form is what the rounding is on each side of 0, the SUB form is the definition, and the leak is odd, so its
bounds above 0 give those below. -/
theorem leakShrinksTheMembrane : Obligations.LeakShrinksTheMembrane := by
  intro g v
  refine ⟨leak_zero g, fun hm hk => ?_, fun hm hk hv => ?_, fun hm hk hv => ?_, fun hm hk hv => ?_, fun hm _ hv => ?_,
    fun hm _ hv => ?_, fun hc hv => leak_mem_span hc hv, fun hc hv => ?_⟩
  · rw [leak_of_shift hm, hk, rnd_shift_zero, sub_self]
  · rw [leak_of_shift hm, rnd_of_nonneg hk hv]
  · rw [leak_of_shift hm, rnd_of_nonpos hk hv, sub_neg_eq_add]
  · rw [leak_of_shift hm, rnd_eq_zero_of_lt hk hv, sub_zero]
  · exact leak_of_sub_pos (by omega) hv
  · have hodd := leak_neg g (-v)
    rw [neg_neg, leak_of_sub_pos (v := -v) (by omega) (by omega)] at hodd
    omega
  · have hspan := leak_mem_span (v := -v) hc (by omega)
    rw [leak_neg] at hspan
    omega

end Sys2Proof.Machine
end

section
/-! SUPPORT. One step of one lane-neuron (03_neurons.md R92 to R96): the fields of a packed record, what firing gives, and the two
results an update can have. -/
namespace Sys2Proof.Machine

/-! ### Records (R84) -/

theorem fld_lt (w : Word) (lo n : Nat) : fld w lo n < 2 ^ n := Nat.mod_lt _ (Nat.two_pow_pos n)

theorem fld_ofNat {x lo n : Nat} (h : x < 2 ^ 32) : fld (BitVec.ofNat 32 x) lo n = x / 2 ^ lo % 2 ^ n := by
  rw [fld, BitVec.toNat_ofNat, Nat.mod_eq_of_lt h]

theorem low_lt (n : Nat) (x : Int) : low n x < 2 ^ n := by
  have hpos : (0 : Int) < (2 ^ n : Nat) := by exact_mod_cast Nat.two_pow_pos n
  have hlt := Int.emod_lt_of_pos x hpos
  rw [← cast_low] at hlt
  exact_mod_cast hlt

theorem b2n_le_one (b : Bool) : b2n b ≤ 1 := by cases b <;> decide

theorem tst_eq_of_fld_eq {w : Word} {i : Nat} {b : Bool} (h : fld w i 1 = b2n b) : tst w i = b := by
  rw [tst, h]
  cases b <;> rfl

theorem fld_recWord0_v (v a : Int) : fld (recWord0 v a) 0 16 = low 16 v := by
  have hv := low_lt 16 v
  have ha := low_lt 16 a
  rw [recWord0, fld_ofNat (by omega)]
  omega

section
variable (resv : Nat) (beyond fired spiked : Bool) (ref stamp : Nat)

/-- A field of word 1 of a record: `omega` finds it in the sum that packs the word. -/
theorem fld_recWord1 (lo n : Nat) : fld (recWord1 resv beyond fired spiked ref stamp) lo n =
    (resv % 32 * 2 ^ 27 + b2n beyond * 2 ^ 26 + b2n fired * 2 ^ 25 + b2n spiked * 2 ^ 24 + ref % 256 * 2 ^ 16 + stamp % 65536) /
      2 ^ lo % 2 ^ n := by
  have h1 := b2n_le_one beyond
  have h2 := b2n_le_one fired
  have h3 := b2n_le_one spiked
  exact fld_ofNat (by omega)

theorem fld_recWord1_stamp : fld (recWord1 resv beyond fired spiked ref stamp) 0 16 = stamp % 65536 := by
  rw [fld_recWord1]
  omega

theorem fld_recWord1_ref : fld (recWord1 resv beyond fired spiked ref stamp) 16 8 = ref % 256 := by
  rw [fld_recWord1]
  omega

theorem tst_recWord1_spiked : tst (recWord1 resv beyond fired spiked ref stamp) 24 = spiked := by
  have h3 := b2n_le_one spiked
  refine tst_eq_of_fld_eq ?_
  rw [fld_recWord1]
  omega

theorem tst_recWord1_fired : tst (recWord1 resv beyond fired spiked ref stamp) 25 = fired := by
  have h2 := b2n_le_one fired
  have h3 := b2n_le_one spiked
  refine tst_eq_of_fld_eq ?_
  rw [fld_recWord1]
  omega

theorem fld_recWord1_reserved : fld (recWord1 resv beyond fired spiked ref stamp) 27 5 = resv % 32 := by
  have h1 := b2n_le_one beyond
  have h2 := b2n_le_one fired
  have h3 := b2n_le_one spiked
  rw [fld_recWord1]
  omega

end

/-! ### Firing (R94, R95) -/

theorem fireV_reset {g : Grp} (h : g.fire = 0) (v theta : Int) : fireV g v theta = (g.vReset, 1, false) := by
  simp only [fireV, h]

theorem fireV_burst_count_le {g : Grp} (h : g.fire = 2) (v theta : Int) : (fireV g v theta).2.1 ≤ 15 := by
  simp only [fireV, h]
  split <;> exact Nat.min_le_right _ _

/-! ### The update (R92, R96) -/

section
variable (g : Grp) (e : Resc) (n cur : Nat) (x0 x1 : Word)

/-- The two results of an update: the lane-neuron fires, at membrane `v` and threshold `theta`; or it emits nothing and counts REF down,
and where REF was not 0 its membrane has only leaked. -/
theorem neuUpdate_cases :
    (fld x1 16 8 = 0 ∧ ∃ v theta a sample vsat rinSlot rinMag, neuUpdate g e n x0 x1 cur =
      ⟨recWord0 (fireV g v theta).1 a, recWord1 (fld x1 27 5) (fireV g v theta).2.2 true true g.refrac n,
        some (if g.fire = 2 then (fireV g v theta).2.1 else g.value), sample, (fireV g v theta).2.2, vsat, rinSlot, rinMag⟩) ∨
    (∃ v a spiked sample vsat rinSlot rinMag, (0 < fld x1 16 8 → v = leak g (sx 16 (fld x0 0 16)) ∧ vsat = false) ∧
      neuUpdate g e n x0 x1 cur = ⟨recWord0 v a, recWord1 (fld x1 27 5) false false spiked (fld x1 16 8 - 1) (fld x1 0 16), none,
        sample, false, vsat, rinSlot, rinMag⟩) := by
  unfold neuUpdate
  extract_lets stamp0 ref0 aged spiked0 ro u v1 wasRef vin v2 vsat a0 a1 theta ignored rinSlot rinMag resv
  by_cases hfire : (!wasRef && decide (theta ≤ v2)) = true
  · rw [if_pos hfire]
    have hzero : ¬0 < ref0 := by simpa [wasRef] using And.left (Bool.and_eq_true_iff.1 hfire)
    exact .inl ⟨Nat.eq_zero_of_not_pos hzero, v2, theta, min (a1 + (fireV g v2 theta).2.1 * g.aInc) 32767, ro, vsat, rinSlot, rinMag,
      rfl⟩
  · rw [if_neg hfire]
    have href : (if wasRef then ref0 - 1 else ref0) = ref0 - 1 := by
      simp only [wasRef, decide_eq_true_eq]
      split <;> omega
    rw [href]
    refine .inr ⟨v2, a1, spiked0, ro, vsat, rinSlot, rinMag, fun hpos => ?_, rfl⟩
    have hwas : wasRef = true := decide_eq_true hpos
    exact ⟨if_pos hwas, by simp only [vsat, hwas, Bool.not_true, Bool.false_and]⟩

end

/-- Settles O20: with REF non-zero only the second result is possible, with an event only the first; the rest are the fields of the
records they pack. -/
theorem neuronUpdates : Obligations.NeuronUpdates := by
  refine ⟨fun g e n cur x0 x1 href => ?_, fun g e n cur x0 x1 w hev => ?_⟩
  · rcases neuUpdate_cases g e n cur x0 x1 with ⟨hzero, -⟩ | ⟨v, a, spiked, sample, vsat, rinSlot, rinMag, hleak, heq⟩
    · exact absurd href (by rw [hzero]; decide)
    · obtain ⟨hv, hsat⟩ := hleak href
      have href := fld_lt x1 16 8
      have hstamp := fld_lt x1 0 16
      rw [heq]
      refine ⟨rfl, ?_, ?_, ?_, rfl, hsat⟩
      · rw [fld_recWord1_ref]
        omega
      · rw [fld_recWord1_stamp]
        omega
      · rw [fld_recWord0_v, hv]
  · rcases neuUpdate_cases g e n cur x0 x1 with
      ⟨hzero, v, theta, a, sample, vsat, rinSlot, rinMag, heq⟩ | ⟨_, _, _, _, _, _, _, -, heq⟩
    · rw [heq, Option.some.injEq] at hev
      rw [heq]
      refine ⟨hzero, fld_recWord1_ref .., fld_recWord1_stamp .., tst_recWord1_spiked .., tst_recWord1_fired .., ?_, fun hf => ?_,
        fun hf => ?_, fun hf => ?_⟩
      · have hresv := fld_lt x1 27 5
        rw [fld_recWord1_reserved]
        omega
      · rw [← hev, if_neg hf]
      · rw [← hev, if_pos hf]
        exact fireV_burst_count_le hf v theta
      · rw [fld_recWord0_v, fireV_reset hf]
    · rw [heq] at hev
      cases hev

end Sys2Proof.Machine
end

section
/-! SUPPORT. Step work of a core: NEU_STATUS, a number written where no error stands, the groups that own lane-neurons, and the dense
tile as it takes up its next operation. -/
namespace Sys2Proof.Machine

/-! ### Registers and cores after one change -/

theorem otherRegs_wr (s : State) (key : Nat) (w : Word) : otherRegs [key] s (s.wr key w) := fun k hk => by
  rw [State.rd_wr, if_neg (List.ne_of_not_mem_cons hk)]

theorem otherCores_updCore (s : State) (p : Nat) (f : Core → Core) : otherCores p s (s.updCore p f) := fun q hq => by
  rw [State.core_updCore, if_neg hq]

theorem coreReg_ne {p off off' : Nat} (h : off ≠ off') : coreReg p off ≠ coreReg p off' := fun e => h (Nat.add_left_cancel e)

/-! ### NEU_STATUS (03_neurons.md R105) -/

section
variable (s : State) (p st ptr : Nat) (sweep : Bool)

@[simp] theorem State.core_neuStatus (q : Nat) : (s.neuStatus p st ptr sweep).core q = s.core q := by
  rw [State.neuStatus, State.core_wr]

theorem otherRegs_neuStatus : otherRegs [Reg.NEU_STATUS p] s (s.neuStatus p st ptr sweep) := otherRegs_wr s _ _

/-- A field of NEU_STATUS as it is written. -/
theorem State.rf_neuStatus (lo n : Nat) : (s.neuStatus p st ptr sweep).rf (Reg.NEU_STATUS p) lo n =
    (ptr % 8192 * 65536 + b2n sweep * 256 + st % 4) / 2 ^ lo % 2 ^ n := by
  have hsweep := b2n_le_one sweep
  rw [State.rf, State.neuStatus, State.rd_wr, if_pos rfl, fld_ofNat (by omega)]

theorem State.state_neuStatus : (s.neuStatus p st ptr sweep).rf (Reg.NEU_STATUS p) 0 2 = st % 4 := by
  rw [State.rf_neuStatus]
  omega

theorem State.sweep_neuStatus : (s.neuStatus p st ptr sweep).bit (Reg.NEU_STATUS p) 8 = sweep := by
  have hsweep := b2n_le_one sweep
  refine tst_eq_of_fld_eq ((s.rf_neuStatus p st ptr sweep 8 1).trans ?_)
  omega

end

/-! ### A number written by step work where no error stands (10_integrity.md R346, R347) -/

theorem ofBytes_toBytes (n v : Nat) : ofBytes (toBytes n v) = v % 256 ^ n := by
  induction n generalizing v with
  | zero => rw [toBytes, ofBytes, pow_zero, Nat.mod_one]
  | succ n ih =>
    rw [pow_succ', Nat.mod_mul, ← ih, toBytes, ofBytes, BitVec.toNat_ofNat]

section
variable {s : State} {p off n : Nat}

theorem State.stepRead_of_intact (h : s.intact p off n) : s.stepRead p off n = s := by
  simp only [State.stepRead, State.meet_of_intact h, h.1, Bool.false_eq_true, if_false]

theorem State.stepNum_of_intact (h : s.intact p off n) (v : Nat) : s.stepNum p off n v = s.setNum p off n v := by
  rw [State.stepNum, State.stepRead_of_intact h, ite_self]

theorem State.num_setNum (h : s.poisoned p off n = false) (v : Nat) : (s.setNum p off n v).num p off n = v % 256 ^ n := by
  have hb := State.bytes_setBytes (bs := toBytes n v) (by rwa [length_toBytes])
  rw [length_toBytes] at hb
  rw [State.num, State.setNum, hb, ofBytes_toBytes]

theorem State.otherBytes_setNum (h : s.poisoned p off n = false) (v : Nat) : otherBytes p off n s (s.setNum p off n v) := by
  have hb := State.otherBytes_setBytes (bs := toBytes n v) (by rwa [length_toBytes])
  rwa [length_toBytes] at hb

end

theorem State.core_setNum (s : State) (p off n v q : Nat) : (s.setNum p off n v).core q = s.core q := by
  have hkeep := State.setNum_keeps (K := 448) (p := p) (off := off) (n := n) (v := v) (Keeps.refl s) (.same rfl)
  rw [State.core, show (s.setNum p off n v).cores = s.cores from hkeep.same .cores rfl, State.core]

theorem State.rd_setNum (s : State) (p off n v key : Nat) : (s.setNum p off n v).rd key = s.rd key :=
  Reads.of_regs (P := fun _ => True) (State.setNum_keeps (K := 448) (Keeps.refl s) (.same rfl)) rfl rfl rfl key trivial

/-! ### Groups (R81, R82) -/

/-- The groups of a core are read out of its registers from NEU_GRP_CFG 0 on. -/
theorem State.grpOf_congr {s t : State} {p : Nat} (h : ∀ off, 0x180 ≤ off → t.rd (coreReg p off) = s.rd (coreReg p off)) (i : Nat) :
    t.grpOf p i = s.grpOf p i := by
  have hraw : ∀ g, t.grpRaw p g = s.grpRaw p g := fun g => by
    simp (disch := omega) only [State.grpRaw, State.rf, Reg.NEU_GRP_CFG, Reg.NEU_GRP_THR, Reg.NEU_GRP_LIM, Reg.NEU_GRP_DYN,
      Reg.NEU_GRP_OUT, Reg.NEU_GRP_AXON, h]
  have hcfg : ∀ g, t.rd (Reg.NEU_GRP_CFG p g) = s.rd (Reg.NEU_GRP_CFG p g) := fun g => h _ (by omega)
  simp only [State.grpOf, State.grps, State.bit, State.rf, hcfg, hraw]
  rfl

/-! ### The dense tile (04_synapses_dense.md R140) -/

@[simp] theorem State.core_flyShow (s : State) (q : Nat) : s.flyShow.core q = s.core q := by
  rw [State.core, show s.flyShow.cores = s.cores from (State.flyShow_keeps (K := 4) (Keeps.refl s) (.same rfl)).same .cores rfl,
    State.core]

@[simp] theorem State.core_dnsShow (s : State) (p st op cb q : Nat) : (s.dnsShow p st op cb).core q = s.core q := by
  rw [State.dnsShow, State.core_flyShow, State.core_wr]

/-- As the tile takes up its next operation, the core's own state changes in the run and in the operations that wait. -/
theorem State.core_dnsNext (s : State) (p : Nat) : ∃ run waiting, (s.dnsNext p).core p =
    { s.core p with dns := run, dnsQ := waiting } := by
  unfold State.dnsNext
  dsimp only
  split
  · exact ⟨_, _, rfl⟩
  · split
    · rw [State.dnsStart, State.core_dnsShow, State.core_updCore_same]
      exact ⟨_, _, rfl⟩
    · split
      · split
        · rw [State.dnsStart, State.core_dnsShow, State.core_updCore_same, State.core_updCore_same]
          exact ⟨_, _, rfl⟩
        · rw [State.core_dnsShow]
          exact ⟨_, _, rfl⟩
      · rw [State.core_dnsShow]
        exact ⟨_, _, rfl⟩

section
variable {P : Nat → Prop} {s0 s : State}

theorem Reads.high {key lo n v : Nat} (h : Reads P s0 s) (hk : ¬P key) : Reads P s0 (s.high key lo n v) := Reads.ite (h.wf' hk) h

theorem Reads.flyShow (h : Reads P s0 s) (hfly : ∀ st, ¬P (Reg.MEM_HBM_INFLIGHT st)) : Reads P s0 s.flyShow :=
  h.foldl fun _ ht st _ => (ht.wf' (hfly st)).high (hfly st)

theorem Reads.dnsShow {p st op cb : Nat} (h : Reads P s0 s) (hfly : ∀ st, ¬P (Reg.MEM_HBM_INFLIGHT st)) (hdns : ¬P (Reg.DNS_STATUS p)) :
    Reads P s0 (s.dnsShow p st op cb) := (h.wr hdns).flyShow hfly

theorem Reads.dnsNext {p : Nat} (h : Reads P s0 s) (hfly : ∀ st, ¬P (Reg.MEM_HBM_INFLIGHT st)) (hdns : ¬P (Reg.DNS_STATUS p)) :
    Reads P s0 (s.dnsNext p) := by
  unfold State.dnsNext
  dsimp only
  split
  · exact h
  · split
    · exact h.updCore.dnsShow hfly hdns
    · split
      · exact .ite (h.updCore.updCore.dnsShow hfly hdns) (h.dnsShow hfly hdns)
      · exact h.dnsShow hfly hdns

end

end Sys2Proof.Machine
end

section
/-! SUPPORT. Step work of a core: the five commands. -/
namespace Sys2Proof.Machine

variable {s : State} {p : Nat}

/-! ### STEP_OPEN_INDICATION (03_neurons.md R92, 08_step_commit.md R272) -/

/-- The core's own state as step `n` opens there, with the lane-neurons `todo` to integrate and `bad` the engine's fault. -/
def Core.beginStep (n : Nat) (todo : List Nat) (bad : NeuFault) (c : Core) : Core :=
  { c with
    openComing := none, openStep := some n, spanEnded := false, declared := false, neuTodo := todo, neuTake := todo,
    neuBad := bad, integ := [], blocks := 0, mons := [], counts := ⟨0, 0, 0, 0, 0, 0⟩, ents := [], flags := 0 }

theorem State.entriesOf_updCore {f : Core → Core} (hf : (f (s.core p)).log = (s.core p).log) (n : Nat) :
    (s.updCore p f).entriesOf p n = s.entriesOf p n := by
  simp only [State.entriesOf, State.core_updCore_same, hf]
  rfl

theorem State.openLogged_of_nil {n : Nat} (h : s.entriesOf p n = []) : s.openLogged p n = s := by
  rw [State.openLogged, h, List.foldl_nil]

theorem exec_stepOpenIndication {n : Nat} (lane : Nat) (flip : Word) (value : Nat) (hcoming : (s.core p).openComing = some n)
    (hlog : s.entriesOf p n = []) (hgate : (s.core p).gated = false) : ∃ ptr, exec (.stepOpenIndication p lane flip value) s =
      .next ((s.updCore p (Core.beginStep n ((s.toIntegrate p n).map (·.1)) ⟨lane, flip, value⟩)).neuStatus p nsIntegrating ptr
        (sweepStep n)) := by
  have hopen : (s.updCore p (Core.beginStep n ((s.toIntegrate p n).map (·.1)) ⟨lane, flip, value⟩)).openLogged p n = _ :=
    State.openLogged_of_nil ((State.entriesOf_updCore rfl n).trans hlog)
  simp only [exec, execStepOpenIndication, hcoming, State.wake_of_not_gated hgate]
  exact ⟨_, congrArg (fun t : State => Host.Outcome.next (t.neuStatus p nsIntegrating _ (sweepStep n))) hopen⟩

theorem stepOpenIndication_completes {n lane value : Nat} {flip : Word} (hcoming : (s.core p).openComing = some n)
    (hlog : s.entriesOf p n = []) (hgate : (s.core p).gated = false) :
    completes (.stepOpenIndication p lane flip value) s fun t =>
      (t.core p).openStep = some n ∧ (t.core p).openComing = none ∧ (t.core p).declared = false ∧
      (t.core p).spanEnded = false ∧ (t.core p).integ = [] ∧ (t.core p).mons = [] ∧ (t.core p).ents = [] ∧
      (t.core p).flags = 0 ∧ (t.core p).counts = ⟨0, 0, 0, 0, 0, 0⟩ ∧
      (t.core p).neuTodo = (s.toIntegrate p n).map (·.1) ∧ t.rf (Reg.NEU_STATUS p) 0 2 = 1 ∧
      t.bit (Reg.NEU_STATUS p) 8 = decide (n % 16384 = 0) ∧ otherCores p s t ∧ otherRegs [Reg.NEU_STATUS p] s t := by
  obtain ⟨ptr, hexec⟩ := exec_stepOpenIndication lane flip value hcoming hlog hgate
  refine completes_of hexec ?_
  rw [State.core_neuStatus, State.core_updCore_same]
  exact ⟨rfl, rfl, rfl, rfl, rfl, rfl, rfl, rfl, rfl, rfl, State.state_neuStatus .., State.sweep_neuStatus ..,
    fun q hq => by rw [State.core_neuStatus, otherCores_updCore s p _ q hq], fun k hk => otherRegs_neuStatus (s.updCore p _) _ _ _ _ k hk⟩

/-! ### DEFERRED_DEPOSIT (R90) -/

/-- A ring word that no error stands in takes the deposit modulo 2^24. -/
theorem State.addRing_of_intact {i r : Nat} {g : Grp} (d : Int) (h : s.intact p (g.ringAt i r) 3) : s.addRing p i g r d =
    (s.setNum p (g.ringAt i r) 3 (a24Add (s.num p (g.ringAt i r) 3) d)).updCore p fun c =>
      { c with touched := Store.set (fun _ => false) c.touched (touchKey i r) true } := by
  rw [State.addRing, State.stepNum_of_intact h]

/-- The oldest deposit that waits has left the core's list and is counted. -/
def State.takeDeferred (s : State) (p : Nat) (rest : List Deferred) : State :=
  (s.updCore p fun c => { c with deferred := rest }).count (Reg.NEU_DEFER p) 1

theorem State.core_takeDeferred (rest : List Deferred) (q : Nat) : (s.takeDeferred p rest).core q =
    (s.updCore p fun c => { c with deferred := rest }).core q := by
  rw [State.takeDeferred, State.core_count]

theorem State.byte_takeDeferred (rest : List Deferred) (q o : Nat) : (s.takeDeferred p rest).byte q o = s.byte q o := by
  rw [State.takeDeferred, State.byte_count, State.byte_updCore]

theorem State.num_takeDeferred (rest : List Deferred) (off n : Nat) : (s.takeDeferred p rest).num p off n = s.num p off n := by
  simp only [State.num, State.bytes, State.byte_takeDeferred]

theorem State.rd_takeDeferred (rest : List Deferred) (k : Nat) : (s.takeDeferred p rest).rd k =
    if k = Reg.NEU_DEFER p then sticky (s.rd (Reg.NEU_DEFER p)) 1 else s.rd k := by
  rw [State.takeDeferred, State.rd_count, State.rd_updCore, State.rd_updCore]

theorem State.intact_takeDeferred {off n : Nat} (rest : List Deferred) (h : s.intact p off n) : (s.takeDeferred p rest).intact p off n := by
  rw [State.takeDeferred, State.intact, State.flaws_count, State.flaws_updCore, State.poisoned_eq_false_iff]
  exact ⟨fun i hi => by rw [State.bad_count, State.bad_updCore, State.poisoned_eq_false_iff.1 h.1 i hi], h.2⟩

theorem State.grpOf_takeDeferred (rest : List Deferred) (i : Nat) : (s.takeDeferred p rest).grpOf p i = s.grpOf p i :=
  State.grpOf_congr (fun _ ho => (State.rd_takeDeferred rest _).trans (if_neg (coreReg_ne (by omega)))) i

theorem exec_deferredDeposit {n : Nat} {d : Deferred} {rest : List Deferred} {g : Grp} (hopen : (s.core p).openStep = some n)
    (hdef : (s.core p).deferred = d :: rest) (hej : d.ej = 0) (htake : (s.core p).neuTake.contains d.lane = false)
    (hgrp : s.grpOf p d.lane = some g) :
    exec (.deferredDeposit p) s = .next ((s.takeDeferred p rest).addRing p d.lane g d.pos d.value) := by
  have hgrp' := (State.grpOf_takeDeferred (s := s) (p := p) rest d.lane).trans hgrp
  simp only [State.takeDeferred] at hgrp'
  simp only [exec, execDeferredDeposit, hopen, hdef, htake, hgrp', hej, Bool.false_eq_true, if_false, if_true, State.takeDeferred]

theorem deferredDeposit_completes {n : Nat} {d : Deferred} {rest : List Deferred} {g : Grp} (hopen : (s.core p).openStep = some n)
    (hdef : (s.core p).deferred = d :: rest) (hej : d.ej = 0) (htake : (s.core p).neuTake.contains d.lane = false)
    (hgrp : s.grpOf p d.lane = some g) (hin : s.intact p (g.ringAt d.lane d.pos) 3) :
    completes (.deferredDeposit p) s fun t => (t.core p).deferred = rest ∧
      t.num p (g.ringAt d.lane d.pos) 3 = a24Add (s.num p (g.ringAt d.lane d.pos) 3) d.value ∧
      otherBytes p (g.ringAt d.lane d.pos) 3 s t ∧ t.rd (Reg.NEU_DEFER p) = sticky (s.rd (Reg.NEU_DEFER p)) 1 ∧
      otherCores p s t ∧ otherRegs [Reg.NEU_DEFER p] s t := by
  have hin' := State.intact_takeDeferred rest hin
  refine completes_of (exec_deferredDeposit hopen hdef hej htake hgrp) ?_
  rw [State.addRing_of_intact _ hin', State.num_takeDeferred]
  refine ⟨?_, ?_, fun q o ho => ?_, ?_, fun q hq => ?_, fun k hk => ?_⟩
  · rw [State.core_updCore_same, State.core_setNum, State.core_takeDeferred, State.core_updCore_same]
  · exact (State.num_setNum hin'.1 _).trans (Nat.mod_eq_of_lt (low_lt 24 _))
  · rw [State.byte_updCore, State.otherBytes_setNum hin'.1 _ q o ho, State.byte_takeDeferred]
  · rw [State.rd_updCore, State.rd_setNum, State.rd_takeDeferred, if_pos rfl]
  · rw [otherCores_updCore _ p _ q hq, State.core_setNum, State.core_takeDeferred, otherCores_updCore s p _ q hq]
  · rw [State.rd_updCore, State.rd_setNum, State.rd_takeDeferred, if_neg (List.ne_of_not_mem_cons hk)]

/-! ### INTEGRATION_SPAN_END (R92, 04_synapses_dense.md R140) -/

/-- The core's own state once the neuron engine has nothing left to do. -/
def Core.swept (c : Core) : Core := { c with neuTodo := [], neuTake := [] }

/-- With nothing left to integrate the engine only clears its list of slots to take. -/
theorem State.sweepOn_of_nothingLeft (n m : Nat) (h : (s.core p).neuTodo = []) : ∃ ptr, s.sweepOn p n m =
    ((s.updCore p Core.swept).stallShow p).neuStatus p nsIntegrating ptr (sweepStep n) := by
  have hnone : s.withGroups p [] = [] := rfl
  simp only [State.sweepOn, h, List.take_nil, List.drop_nil, hnone, State.integrate, ite_self]
  exact ⟨_, rfl⟩

theorem State.core_sweepOn_of_nothingLeft (n m : Nat) (h : (s.core p).neuTodo = []) :
    (s.sweepOn p n m).core p = (s.core p).swept := by
  obtain ⟨ptr, heq⟩ := State.sweepOn_of_nothingLeft n m h
  rw [heq, State.core_neuStatus, State.stallShow, State.core_wf', State.core_updCore_same]

theorem State.sweepOn_reads_of_nothingLeft {P : Nat → Prop} (n m : Nat) (h : (s.core p).neuTodo = [])
    (hemit : ¬P (Reg.CORE_EMIT_STATUS p)) (hneu : ¬P (Reg.NEU_STATUS p)) : Reads P s (s.sweepOn p n m) := by
  obtain ⟨ptr, heq⟩ := State.sweepOn_of_nothingLeft n m h
  rw [heq]
  exact (Reads.refl.updCore.wf' hemit).wr hneu

theorem State.auditStart_of_off (n : Nat) (h : s.rf (Reg.INT_GRV_AUDIT (p / 144)) 0 16 = 0) : s.auditStart p n = s := by
  simp [State.auditStart, h]

/-- No register of a core is the audit register of its grove. -/
theorem coreKey_ne_audit {off : Nat} (ho : off < 0x1000) : coreReg p off ≠ Reg.INT_GRV_AUDIT (p / 144) := by
  simp only [coreReg, Reg.INT_GRV_AUDIT, groveReg]
  omega

theorem inflightKey_ne_audit (st : Nat) : Reg.MEM_HBM_INFLIGHT st ≠ Reg.INT_GRV_AUDIT (p / 144) := by
  simp only [Reg.MEM_HBM_INFLIGHT, Reg.INT_GRV_AUDIT, groveReg]
  omega

/-- The integration span of core `p` has ended, with the STEP operations still to run. -/
def State.endSpan (s : State) (p n : Nat) : State :=
  (s.sweepOn p n 0).updCore p fun c =>
    { c with spanEnded := true, dnsSteps := (List.range 4).filter fun o => (s.opCfg p o).en && (s.opCfg p o).trigger == trgStep }

theorem exec_integrationSpanEnd {n : Nat} (hopen : (s.core p).openStep = some n) (hspan : (s.core p).spanEnded = false)
    (htodo : (s.core p).neuTodo = []) : ∃ sweep, exec (.integrationSpanEnd p) s =
      .next ((((s.endSpan p n).neuStatus p nsIdle 4096 sweep).dnsNext p).auditStart p n) := by
  have hstall : (s.core p).neuStalled = false := by rw [Core.neuStalled, htodo]; rfl
  have hdone : ((s.sweepOn p n 0).core p).neuTodo = [] := by
    rw [State.core_sweepOn_of_nothingLeft n 0 htodo, Core.swept]
  simp only [exec, execIntegrationSpanEnd, hopen, hspan, hstall, htodo, List.length_nil, hdone, Bool.false_eq_true, or_self, if_false,
    ne_eq, not_true_eq_false]
  exact ⟨_, rfl⟩

theorem integrationSpanEnd_completes {n : Nat} (hopen : (s.core p).openStep = some n)
    (hspan : (s.core p).spanEnded = false) (htodo : (s.core p).neuTodo = [])
    (haudit : s.rf (Reg.INT_GRV_AUDIT (p / 144)) 0 16 = 0) :
    completes (.integrationSpanEnd p) s fun t => (t.core p).spanEnded = true ∧ (t.core p).neuTodo = [] ∧
      (t.core p).dnsSteps = (List.range 4).filter fun o => (s.opCfg p o).en && (s.opCfg p o).trigger == trgStep := by
  obtain ⟨sweep, hexec⟩ := exec_integrationSpanEnd hopen hspan htodo
  have hemit : Reg.CORE_EMIT_STATUS p ≠ Reg.INT_GRV_AUDIT (p / 144) := coreKey_ne_audit (by decide)
  have hneu : Reg.NEU_STATUS p ≠ Reg.INT_GRV_AUDIT (p / 144) := coreKey_ne_audit (by decide)
  have hdns : Reg.DNS_STATUS p ≠ Reg.INT_GRV_AUDIT (p / 144) := coreKey_ne_audit (by decide)
  have hspan : Reads (· = Reg.INT_GRV_AUDIT (p / 144)) s (s.endSpan p n) :=
    (State.sweepOn_reads_of_nothingLeft n 0 htodo hemit hneu).updCore
  have hreads : Reads (· = Reg.INT_GRV_AUDIT (p / 144)) s (((s.endSpan p n).neuStatus p nsIdle 4096 sweep).dnsNext p) :=
    Reads.dnsNext (hspan.wr hneu) inflightKey_ne_audit hdns
  obtain ⟨run, waiting, hcore⟩ := State.core_dnsNext ((s.endSpan p n).neuStatus p nsIdle 4096 sweep) p
  refine completes_of hexec ?_
  rw [State.auditStart_of_off n ((hreads.rf_eq rfl 0 16).trans haudit), hcore, State.core_neuStatus, State.endSpan,
    State.core_updCore_same, State.core_sweepOn_of_nothingLeft n 0 htodo]
  exact ⟨rfl, rfl, rfl⟩

/-! ### CORE_CLOCK_GATE and CORE_WAKE (R102, R103) -/

/-- The core's own state as its logic is gated or not. -/
def Core.setGated (b : Bool) (c : Core) : Core := { c with gated := b }

theorem coreClockGate_completes (h : s.mayGate p = true) :
    completes (.coreClockGate p) s fun t => t.core p = { s.core p with gated := true } ∧
      t.rd (Reg.NEU_STATUS p) = setFld (s.rd (Reg.NEU_STATUS p)) 0 2 nsAsleep ∧ otherCores p s t ∧
      otherRegs [Reg.NEU_STATUS p] s t := by
  have hexec : exec (.coreClockGate p) s = .next ((s.updCore p (Core.setGated true)).wf' (Reg.NEU_STATUS p) 0 2 nsAsleep) := if_pos h
  refine completes_of hexec ⟨?_, ?_, fun q hq => ?_, fun k hk => ?_⟩
  · rw [State.core_wf', State.core_updCore_same, Core.setGated]
  · rw [State.rd_wf', if_pos rfl, State.rd_updCore]
  · rw [State.core_wf', otherCores_updCore s p _ q hq]
  · rw [State.rd_wf', if_neg (List.ne_of_not_mem_cons hk), State.rd_updCore]

theorem State.wake_of_gated (h : (s.core p).gated = true) : s.wake p =
    ((s.updCore p (Core.setGated false)).count (Reg.NEU_WAKES p) 1).wf' (Reg.NEU_STATUS p) 0 2 nsIdle := if_pos h

theorem coreWake_completes {src : Nat} (hsrc : s.wakeSource p src = true) (hgate : (s.core p).gated = true) :
    completes (.coreWake p src) s fun t => t.core p = { s.core p with gated := false } ∧
      t.rd (Reg.NEU_STATUS p) = setFld (s.rd (Reg.NEU_STATUS p)) 0 2 nsIdle ∧
      t.rd (Reg.NEU_WAKES p) = sticky (s.rd (Reg.NEU_WAKES p)) 1 ∧ otherCores p s t ∧
      otherRegs [Reg.NEU_STATUS p, Reg.NEU_WAKES p] s t := by
  have hne : Reg.NEU_STATUS p ≠ Reg.NEU_WAKES p := coreReg_ne (by decide)
  have hexec : exec (.coreWake p src) s = .next (s.wake p) := if_pos hsrc
  rw [State.wake_of_gated hgate] at hexec
  refine completes_of hexec ⟨?_, ?_, ?_, fun q hq => ?_, fun k hk => ?_⟩
  · rw [State.core_wf', State.core_count, State.core_updCore_same, Core.setGated]
  · rw [State.rd_wf', if_pos rfl, State.rd_count, if_neg hne, State.rd_updCore]
  · rw [State.rd_wf', if_neg hne.symm, State.rd_count, if_pos rfl, State.rd_updCore]
  · rw [State.core_wf', State.core_count, otherCores_updCore s p _ q hq]
  · obtain ⟨hstatus, hwakes⟩ := not_or.1 (mt List.mem_pair.2 hk)
    rw [State.rd_wf', if_neg hstatus, State.rd_count, if_neg hwakes, State.rd_updCore]

end Sys2Proof.Machine
end

section
/-! SUPPORT. Step work of a core: the five commands together. -/
namespace Sys2Proof.Machine

/-- Settles O21, command by command: what each does to the core's own state, its registers and its memory. -/
theorem stepWorkOfACore : Obligations.StepWorkOfACore := fun _ _ _ =>
  ⟨fun _ _ _ _ hcoming hlog hgate => stepOpenIndication_completes hcoming hlog hgate,
    fun _ _ _ _ hopen hdef hej htake hgrp _ hin => deferredDeposit_completes hopen hdef hej htake hgrp hin,
    fun _ hopen hspan htodo _ haudit => integrationSpanEnd_completes hopen hspan htodo haudit,
    coreClockGate_completes, fun _ hsrc hgate => coreWake_completes hsrc hgate⟩

end Sys2Proof.Machine
end

section
/-! SUPPORT. A handler's instruction that issues, and DENSE (06_core_messaging.md R207 to R211, R213). -/
namespace Sys2Proof.Machine

/-! ### An instruction that issues -/

/-- Core `p` is charged the cycles of the instruction it issues (R213). -/
def State.charged (s : State) (p cycles : Nat) : State := s.updCore p fun c => { c with budget := c.budget - cycles }

/-- The answer of an instruction in register `rd`, with the next one to issue. -/
def State.hdlAnswer (s : State) (p rd : Nat) (w : Word) : State := (s.setH p rd w).hdlNext p

section
variable {s : State} {p : Nat}

/-- The instruction a core is about to issue is charged and has its effect: its word is neither poisoned nor in error. -/
theorem State.instr_of_willIssue {w : Word} (cycles : Nat) (effect : State → State) (h : s.willIssue p w) :
    s.instr p w cycles effect = effect (s.charged p cycles) := by
  obtain ⟨hiss, hin⟩ := h
  simp only [State.instr, hiss, State.meet_of_intact hin, hin.1, Bool.not_true, Bool.false_eq_true, if_false, State.charged]

theorem Core.h_setH (c : Core) {rd r : Nat} (w : Word) (hrd : rd < 16) :
    (c.setH rd w).h r = if r = rd ∧ r ≠ 0 then w else c.h r := by
  by_cases h0 : rd = 0
  · rw [Core.setH, if_pos (.inl h0), if_neg (by omega)]
  · rw [Core.setH, if_neg (by omega)]
    by_cases hr : r = 0
    · rw [if_neg (by omega), Core.h, Core.h, if_pos hr, if_pos hr]
    · rw [Core.h, Core.h, if_neg hr, if_neg hr, Store.get_set]
      simp only [hr, ne_eq, not_false_eq_true, and_true]

/-- A write of a handler register changes nothing of a core but its handler registers. -/
theorem Core.setH_eq (c : Core) (rd : Nat) (w : Word) : c.setH rd w = { c with hregs := (c.setH rd w).hregs } := by
  unfold Core.setH
  split <;> rfl

theorem State.core_hdlAnswer (rd : Nat) (w : Word) (q : Nat) :
    (s.hdlAnswer p rd w).core q = if q = p then (s.core p).setH rd w else s.core q := by
  rw [State.hdlAnswer, State.hdlNext, State.setPc, State.core_wf', State.setH, State.core_updCore]

theorem State.rd_hdlAnswer (rd : Nat) (w : Word) (k : Nat) : (s.hdlAnswer p rd w).rd k =
    if k = Reg.HDL_STATUS p then setFld (s.rd (Reg.HDL_STATUS p)) 0 11 (s.pc p + 1) else s.rd k := State.rd_wf' ..

theorem State.pc_hdlAnswer (rd : Nat) (w : Word) : (s.hdlAnswer p rd w).pc p = (s.pc p + 1) % 2 ^ 11 := by
  rw [State.pc, State.rf, State.rd_hdlAnswer, if_pos rfl, fld_setFld_same _ _ _ _ (by decide)]

theorem wrote_hdlAnswer {rd : Nat} (w : Word) (hrd : rd < 16) : wrote p rd w s (s.hdlAnswer p rd w) := fun r _ => by
  rw [State.h, State.core_hdlAnswer, if_pos rfl, Core.h_setH _ _ hrd, State.h]

/-- An instruction that only answers is an instruction that went on. -/
theorem wentOn_hdlAnswer (cycles rd : Nat) (w : Word) : wentOn p cycles s ((s.charged p cycles).hdlAnswer p rd w) := by
  refine ⟨?_, State.pc_hdlAnswer rd w, ?_, fun q hq => ?_, fun k hk => ?_⟩
  · rw [State.rd_hdlAnswer, if_pos rfl]
    rfl
  · rw [State.core_hdlAnswer, if_pos rfl, Core.setH_eq, State.charged, State.core_updCore_same]
  · rw [State.core_hdlAnswer, if_neg hq, State.charged, otherCores_updCore s p _ q hq]
  · rw [State.rd_hdlAnswer, if_neg (List.ne_of_not_mem_cons hk)]
    rfl

/-! ### An entry of a queue reserved (R196) -/

theorem Core.queue_setQueue (c : Core) (q : Nat) (v : Queue) (r : Nat) :
    (c.setQueue q v).queue r = if r = q then v else c.queue r := Store.get_set ..

theorem State.core_putQueue (q : Nat) (v : Queue) (r : Nat) :
    (s.putQueue p q v).core r = if r = p then (s.core p).setQueue q v else s.core r := by
  unfold State.putQueue State.high
  dsimp only
  split
  · rw [State.core_wf', State.core_wf', State.core_wf', State.core_updCore]
  · rw [State.core_wf', State.core_wf', State.core_updCore]

theorem State.putQueue_reads {P : Nat → Prop} (q : Nat) (v : Queue) (h : ¬P (Reg.HDL_Q_STATUS p q)) : Reads P s (s.putQueue p q v) :=
  ((Reads.refl.updCore.wf' h).wf' h).high h

/-- One more entry of queue `q` of core `p` is reserved. -/
def State.oneReserved (s : State) (p q : Nat) : State :=
  s.putQueue p q { (s.core p).queue q with reserved := ((s.core p).queue q).reserved + 1 }

theorem State.reserve_of_free {q : Nat} (hen : s.qEnabled p q = true) (hfree : 0 < ((s.core p).queue q).free) :
    s.reserve p q = (s.oneReserved p q, rcOk) := by
  simp only [State.reserve, hen, Nat.pos_iff_ne_zero.1 hfree, Bool.not_true, Bool.false_eq_true, if_false, State.oneReserved]

end

/-! ### DENSE (R209, R210, R211) -/

/-- The run that a handler's DENSE adds to those that wait for the tile. -/
def State.handlerRun (s : State) (p ra rb : Nat) : DnsRun :=
  ⟨fld (s.h p ra) 0 2, 0, .handler (fld (s.h p ra) 2 3) (s.h p rb), 0, false, 0, 0⟩

/-- A core with an entry of queue `q` reserved and a run behind those that wait for the tile. -/
def Core.withRun (q : Nat) (r : DnsRun) (c : Core) : Core :=
  { c.setQueue q { c.queue q with reserved := (c.queue q).reserved + 1 } with dnsQ := c.dnsQ ++ [r] }

/-- The state as DENSE reserves an entry of queue `q` of core `p` and lets run `r` wait. -/
def State.runWaits (s : State) (p q : Nat) (r : DnsRun) : State :=
  (s.oneReserved p q).updCore p fun c => { c with dnsQ := c.dnsQ ++ [r] }

theorem State.core_runWaits (s : State) (p q : Nat) (r : DnsRun) (i : Nat) :
    (s.runWaits p q r).core i = if i = p then (s.core p).withRun q r else s.core i := by
  rw [State.runWaits, State.core_updCore, State.oneReserved, State.core_putQueue, State.core_putQueue, if_pos rfl, Core.withRun]
  split <;> rfl

theorem State.h_charged (s : State) (p cycles r : Nat) : (s.charged p cycles).h p r = s.h p r := by
  rw [State.h, State.charged, State.core_updCore_same]
  rfl

theorem State.dnsNext_of_running {s : State} {p : Nat} {run : DnsRun} (h : (s.core p).dns = some run) : s.dnsNext p = s := by
  simp only [State.dnsNext, h]

section
variable {s : State} {p rd ra rb : Nat} (hrd : rd < 16) (hra : ra < 16) (hfld : fld (s.h p ra) 5 27 = 0)
  (hiss : s.willIssue p (encR 0x19 rd ra rb 0))
include hrd hra hfld hiss

theorem exec_dense_not_handler (hoff : (s.opCfg p (fld (s.h p ra) 0 2)).en = false) :
    exec (.dense p rd ra rb 0) s = .next ((s.charged p 2).hdlAnswer p rd (BitVec.ofNat 32 rcNotHandler)) := by
  have hcfg : ∀ o, (s.charged p 2).opCfg p o = s.opCfg p o := fun _ => rfl
  simp only [exec, execDense, State.instr_of_willIssue _ _ hiss, Nat.mod_eq_of_lt hrd, Nat.mod_eq_of_lt hra, State.h_charged, hcfg,
    hfld, hoff, Nat.zero_mod, ne_eq, not_true_eq_false, if_false, Bool.false_and, Bool.not_false, if_true, State.hdlAnswer]

/-- A DENSE that is accepted while another operation has the tile: it waits behind it. -/
theorem exec_dense_accepted {run : DnsRun} (hrb : rb < 16) (hen : (s.opCfg p (fld (s.h p ra) 0 2)).en = true)
    (htrg : (s.opCfg p (fld (s.h p ra) 0 2)).trigger = trgHandler) (hrun : (s.core p).dns = some run)
    (hop : run.op ≠ fld (s.h p ra) 0 2) (hnone : (s.core p).dnsQ = []) (hq : s.qEnabled p (fld (s.h p ra) 2 3) = true)
    (hfree : 0 < ((s.core p).queue (fld (s.h p ra) 2 3)).free) :
    exec (.dense p rd ra rb 0) s = .next (((s.charged p 2).runWaits p (fld (s.h p ra) 2 3) (s.handlerRun p ra rb)).hdlAnswer p rd
      (BitVec.ofNat 32 rcOk)) := by
  have hcore : (s.charged p 2).core p = { s.core p with budget := (s.core p).budget - 2 } := State.core_updCore_same ..
  have hcfg : ∀ o, (s.charged p 2).opCfg p o = s.opCfg p o := fun _ => rfl
  have hdns : ((s.charged p 2).core p).dns = some run := by rw [hcore]; exact hrun
  have hdnsQ : ((s.charged p 2).core p).dnsQ = [] := by rw [hcore]; exact hnone
  have hres : (s.charged p 2).reserve p (fld (s.h p ra) 2 3) = ((s.charged p 2).oneReserved p (fld (s.h p ra) 2 3), rcOk) :=
    State.reserve_of_free hq (by rw [hcore]; exact hfree)
  have hword : ((s.charged p 2).oneReserved p (fld (s.h p ra) 2 3)).h p rb = s.h p rb := by
    rw [State.h, State.oneReserved, State.core_putQueue, if_pos rfl, hcore]
    rfl
  have hnext : ∀ t w, (t.core p).dns = some run → (State.hdlAnswer t p rd w).dnsNext p = t.hdlAnswer p rd w := fun t w ht => by
    refine State.dnsNext_of_running (run := run) ?_
    rw [State.core_hdlAnswer, if_pos rfl, Core.setH_eq]
    exact ht
  have hwait := hnext ((s.charged p 2).runWaits p (fld (s.h p ra) 2 3) (s.handlerRun p ra rb)) (BitVec.ofNat 32 rcOk)
    (by rw [State.core_runWaits, if_pos rfl, hcore]; exact hrun)
  simp only [exec, execDense, State.instr_of_willIssue _ _ hiss, Nat.mod_eq_of_lt hrd, Nat.mod_eq_of_lt hra, Nat.mod_eq_of_lt hrb,
    State.h_charged, hcfg, hfld, hen, htrg, hres, hword, hdns, hdnsQ, Nat.zero_mod, ne_eq, not_true_eq_false, if_false,
    beq_self_eq_true, Bool.and_self, Bool.not_true, Bool.false_eq_true, beq_eq_false_iff_ne.2 hop, List.any_nil, Bool.or_self]
  exact congrArg Host.Outcome.next hwait

end

/-- Settles O14: an operation that is not enabled is answered at once; one that is accepted behind another only waits. -/
theorem handlerDense : Obligations.HandlerDense := by
  intro s p rd ra rb hp hrd hra hrb hfld hiss
  refine ⟨fun hoff => completes_of (exec_dense_not_handler hrd hra hfld hiss hoff) ⟨?_, wentOn_hdlAnswer ..⟩, ?_⟩
  · intro r hr
    rw [wrote_hdlAnswer _ hrd r hr, State.h_charged]
  · rintro q run rfl hen htrg hrun hop hnone hq hfree
    have hne : Reg.HDL_STATUS p ≠ Reg.HDL_Q_STATUS p (fld (s.h p ra) 2 3) := by
      have := fld_lt (s.h p ra) 2 3
      exact coreReg_ne (by omega)
    have hcore := State.core_runWaits (s.charged p 2) p (fld (s.h p ra) 2 3) (s.handlerRun p ra rb)
    have hcharged : (s.charged p 2).core p = { s.core p with budget := (s.core p).budget - 2 } := State.core_updCore_same ..
    have hreads : ∀ k, k ≠ Reg.HDL_Q_STATUS p (fld (s.h p ra) 2 3) →
        ((s.charged p 2).runWaits p (fld (s.h p ra) 2 3) (s.handlerRun p ra rb)).rd k = s.rd k := fun k hk =>
      (State.putQueue_reads (s := s.charged p 2) (P := (· = k)) _ _ (Ne.symm hk)).updCore k rfl
    refine completes_of (exec_dense_accepted hrd hra hfld hiss hrb hen htrg hrun hop hnone hq hfree) ⟨fun r hr => ?_, ?_, ?_, ?_, ?_,
      fun i hi => ?_, fun k hk => ?_⟩
    · rw [wrote_hdlAnswer _ hrd r hr, State.h, hcore, if_pos rfl, hcharged]
      rfl
    · rw [State.core_hdlAnswer, if_pos rfl, Core.setH_eq, hcore, if_pos rfl, hcharged]
      exact congrArg Queue.reserved ((Core.queue_setQueue ..).trans (if_pos rfl))
    · rw [State.core_hdlAnswer, if_pos rfl, Core.setH_eq, hcore, if_pos rfl, hcharged, Core.withRun, hnone]
      rfl
    · rw [State.core_hdlAnswer, if_pos rfl, Core.setH_eq, hcore, if_pos rfl, hcharged]
      exact hrun
    · rw [State.pc_hdlAnswer, State.pc, State.rf, hreads _ hne, State.pc, State.rf]
    · rw [State.core_hdlAnswer, if_neg hi, hcore, if_neg hi, State.charged, otherCores_updCore s p _ i hi]
    · obtain ⟨hstatus, hqueue⟩ := not_or.1 (mt List.mem_pair.2 hk)
      rw [State.rd_hdlAnswer, if_neg hstatus, hreads k hqueue]

end Sys2Proof.Machine
end

section
/-! SUPPORT. Frames of a core's work: what an operation that touches no core, no grove or no register leaves, and what work of a core
on its own memory leaves (10_integrity.md R346, R347). -/
namespace Sys2Proof.Machine

/-! ### Records that an operation does not touch -/

theorem Keeps.core_eq {K : Nat} {s t : State} (h : Keeps K s t) (hK : K.testBit Component.cores.ctorIdx = false) (q : Nat) :
    t.core q = s.core q := by
  rw [State.core, show t.cores = s.cores from h.same .cores hK, State.core]

theorem Keeps.grove_eq {K : Nat} {s t : State} (h : Keeps K s t) (hK : K.testBit Component.groves.ctorIdx = false) (g : Nat) :
    t.grove g = s.grove g := by
  rw [State.grove, show t.groves = s.groves from h.same .groves hK, State.grove]

theorem otherCores.trans {p : Nat} {s t u : State} (h : otherCores p s t) (h' : otherCores p t u) : otherCores p s u :=
  fun q hq => (h' q hq).trans (h q hq)

/-- The registers of a core lie below those of the timebase, the host interface and the device. -/
theorem coreReg_lt {p off : Nat} (hp : p < 9216) (ho : off < 0x1000) : coreReg p off < 0x4000000 := by
  unfold coreReg
  omega

theorem coreReg_ne_inflight {p off : Nat} (hp : p < 9216) (ho : off < 0x1000) (st : Nat) : Reg.MEM_HBM_INFLIGHT st ≠ coreReg p off := by
  have := coreReg_lt hp ho
  unfold Reg.MEM_HBM_INFLIGHT
  omega

/-! ### Work on a core's own memory -/

/-- The registers that a core's work on its memory may write: its counts of errors, and those of a report. -/
def memoryRegs (p : Nat) : List Nat := [Reg.INT_SRAM_CE p, Reg.INT_SRAM_UE p, Reg.INT_FSIG_SEQ, Reg.MGT_QUEUES, Reg.INT_FSIG_LOST]

/-- From `s` to `t` core `p` has worked on its memory: of the cores' own states only its monitors and flags have changed. -/
structure MemoryWork (p : Nat) (s t : State) : Prop where
  regs : otherRegs (memoryRegs p) s t
  others : otherCores p s t
  core : ∃ mons flags, t.core p = { s.core p with mons := mons, flags := flags }

/-- No register of a core but its counts of memory errors is one of them. -/
theorem coreReg_not_mem_memoryRegs {p off : Nat} (hp : p < 9216) (ho : off < 0x1000) (hce : off ≠ 0xA44) (hue : off ≠ 0xA48) :
    coreReg p off ∉ memoryRegs p := by
  have := coreReg_lt hp ho
  simp only [memoryRegs, List.mem_cons, List.not_mem_nil, or_false, not_or, Reg.INT_FSIG_SEQ, Reg.MGT_QUEUES, Reg.INT_FSIG_LOST]
  exact ⟨coreReg_ne hce, coreReg_ne hue, by omega, by omega, by omega⟩

section
variable {p : Nat} {s t u : State}

theorem MemoryWork.refl : MemoryWork p s s := ⟨fun _ _ => rfl, fun _ _ => rfl, (s.core p).mons, (s.core p).flags, rfl⟩

theorem MemoryWork.trans (h : MemoryWork p s t) (h' : MemoryWork p t u) : MemoryWork p s u := by
  obtain ⟨mons, flags, e⟩ := h'.core
  obtain ⟨_, _, e0⟩ := h.core
  exact ⟨fun k hk => (h'.regs k hk).trans (h.regs k hk), h.others.trans h'.others, mons, flags, by rw [e, e0]⟩

/-- Work that touches neither a core's own state nor a register but those of the errors. -/
theorem MemoryWork.of_reads {K : Nat} (hk : Keeps K s t) (hK : K.testBit Component.cores.ctorIdx = false)
    (hr : otherRegs (memoryRegs p) s t) : MemoryWork p s t :=
  ⟨hr, fun q _ => hk.core_eq hK q, (s.core p).mons, (s.core p).flags, hk.core_eq hK p⟩

theorem MemoryWork.ite {c : Prop} [Decidable c] (ht : MemoryWork p s t) (hu : MemoryWork p s u) :
    MemoryWork p s (if c then t else u) := by
  split
  · exact ht
  · exact hu

theorem MemoryWork.foldl {α : Type} {l : List α} {f : State → α → State} (hf : ∀ t, ∀ x ∈ l, MemoryWork p t (f t x)) :
    MemoryWork p s (l.foldl f s) :=
  List.foldlRecOn l f (motive := MemoryWork p s) .refl fun t ht x hx => ht.trans (hf t x hx)

theorem MemoryWork.updCore {f : Core → Core} (hf : ∀ c, ∃ mons flags, f c = { c with mons := mons, flags := flags }) :
    MemoryWork p s (s.updCore p f) := by
  obtain ⟨mons, flags, e⟩ := hf (s.core p)
  exact ⟨fun _ _ => rfl, otherCores_updCore s p f, mons, flags, by rw [State.core_updCore_same, e]⟩

end

section
variable (s : State) (p : Nat)

theorem State.flag_memoryWork (b : Nat) : MemoryWork p s (s.flag p b) := .updCore fun c => by
  unfold Core.setFlag
  split
  · exact ⟨c.mons, c.flags, rfl⟩
  · exact ⟨c.mons, c.flags + 2 ^ b, rfl⟩

theorem State.readError_memoryWork (off err : Nat) : MemoryWork p s (s.readError p off err) := by
  have hmem : ∀ k ∈ memoryRegs p, ¬k ∉ memoryRegs p := fun _ h => not_not_intro h
  unfold State.readError
  split
  · exact .refl
  · exact .of_reads (State.count_keeps (Keeps.refl s) (.same rfl)) rfl
      (Reads.refl.count (P := (· ∉ memoryRegs p)) (hmem _ (by simp [memoryRegs])))
  · have hspoil := State.spoil_keeps (p := p) (off := off) (Keeps.refl s) (.same rfl)
    have hreads : Reads (· ∉ memoryRegs p) s ((s.spoil p off).count (Reg.INT_SRAM_UE p) 1) :=
      (Reads.of_regs hspoil rfl rfl rfl).count (hmem _ (by simp [memoryRegs]))
    refine .ite .refl ⟨hreads.trans (State.report_reads _ _ _ (hmem _ (by simp [memoryRegs])) (hmem _ (by simp [memoryRegs]))
      (hmem _ (by simp [memoryRegs]))), fun q _ => ?_, (s.core p).mons, (s.core p).flags, ?_⟩ <;>
      rw [State.core_report, State.core_count, hspoil.core_eq rfl]

theorem State.meet_memoryWork (off n : Nat) : MemoryWork p s (s.meet p off n) :=
  .foldl fun t e _ => MemoryWork.trans (t := { t with flaws := Store.erase e.1 t.flaws })
    ⟨fun _ _ => rfl, fun _ _ => rfl, (t.core p).mons, (t.core p).flags, rfl⟩ (State.readError_memoryWork _ p _ _)

theorem State.stepRead_memoryWork (off len : Nat) : MemoryWork p s (s.stepRead p off len) :=
  .ite ((s.meet_memoryWork p off len).trans (State.flag_memoryWork _ p _)) (s.meet_memoryWork p off len)

theorem State.stepNum_memoryWork (off n v : Nat) : MemoryWork p s (s.stepNum p off n v) := by
  have hread : MemoryWork p s (if n = 8 ∧ off % 8 = 0 then s else s.stepRead p off n) := .ite .refl (s.stepRead_memoryWork p off n)
  have hkeep : ∀ t : State, Keeps 448 t (t.setNum p off n v) := fun t => State.setNum_keeps (Keeps.refl t) (.same rfl)
  exact hread.trans (.of_reads (hkeep _) rfl (Reads.of_regs (P := (· ∉ memoryRegs p)) (hkeep _) rfl rfl rfl))

end

end Sys2Proof.Machine
end

section
/-! SUPPORT. The tile's column blocks and the ends of its operations (04_synapses_dense.md R139 to R143, R150): O24. -/
namespace Sys2Proof.Machine

/-! ### A column block outside the step -/

section
variable {s : State} {p : Nat} {r : DnsRun}

theorem State.monSample_memoryWork (s : State) (p ch : Nat) (x : RescOut) : MemoryWork p s (s.monSample p ch x) :=
  .updCore fun c => ⟨_, c.flags, rfl⟩

/-- Outputs are samples of their channels, and numbers written to memory unless they are events. -/
theorem State.denseOut_memoryWork (s : State) (p o : Nat) (op : DnsOp) (n : Nat) (outs : List (Nat × Nat × RescOut)) :
    MemoryWork p s (s.denseOut p o op n outs).1 := by
  have hmon : MemoryWork p s (outs.foldl (fun t x => t.monSample p (op.channel x.2.1) x.2.2) s) :=
    .foldl fun t x _ => t.monSample_memoryWork p _ _
  unfold State.denseOut
  dsimp only
  split
  · exact hmon
  · exact hmon.trans (.foldl fun t x _ => t.stepNum_memoryWork p _ _ _)

theorem State.rd_count64 (s : State) {lo n k : Nat} (hlo : k ≠ lo) (hhi : k ≠ lo + 4) : (s.count64 lo n).rd k = s.rd k := by
  rw [State.count64, State.rd_wr64, if_neg hhi, if_neg hlo]

theorem State.core_count64 (s : State) (lo n q : Nat) : (s.count64 lo n).core q = s.core q := rfl

/-- The state as the multiplications of a column block have been counted. -/
def State.blockCounted (s : State) (p : Nat) (r : DnsRun) : State :=
  (s.count (Reg.CORE_FMT_ODD p) (s.colBlock p p (s.opCfg p r.op) 0 r.cb).odd).count64 (Reg.DNS_MACS_LO p)
    ((s.opCfg p r.op).k * (s.opCfg p r.op).m * (s.opCfg p r.op).nc)

theorem State.core_blockCounted (s : State) (p : Nat) (r : DnsRun) (q : Nat) : (s.blockCounted p r).core q = s.core q := by
  rw [State.blockCounted, State.core_count64, State.core_count]

theorem State.rd_blockCounted (s : State) (p : Nat) (r : DnsRun) {k : Nat} (hodd : k ≠ Reg.CORE_FMT_ODD p)
    (hlo : k ≠ Reg.DNS_MACS_LO p) (hhi : k ≠ Reg.DNS_MACS_LO p + 4) : (s.blockCounted p r).rd k = s.rd k := by
  rw [State.blockCounted, State.rd_count64 _ hlo hhi, State.rd_count, if_neg hodd]

theorem State.macs_blockCounted (s : State) (p : Nat) (r : DnsRun) : (s.blockCounted p r).rd64 (Reg.DNS_MACS_LO p) =
    (s.rd64 (Reg.DNS_MACS_LO p) + (s.opCfg p r.op).k * (s.opCfg p r.op).m * (s.opCfg p r.op).nc) % 2 ^ 64 := by
  have hlo : Reg.DNS_MACS_LO p ≠ Reg.CORE_FMT_ODD p := coreReg_ne (by decide)
  have hhi : Reg.DNS_MACS_LO p + 4 ≠ Reg.CORE_FMT_ODD p := coreReg_ne (off := 0x50C) (by decide)
  rw [State.blockCounted, State.count64, State.rd64_wr64_same]
  simp only [State.rd64, State.rd_count, if_neg hlo, if_neg hhi]

section
variable {ref : LoadRef} (hrun : (s.core p).dns = some r) (hevs : (s.core p).dnsEvents = []) (hown : r.owner = .desc ref)
  (hcb : r.cb < (s.opCfg p r.op).blocks) (hhalt : (s.core p).halted = false) (hstream : (s.opCfg p r.op).stream = false)
  (hopen : (s.core p).openStep = none)
  (hw : s.intact p ((s.opCfg p r.op).weightSpan r.cb).1 ((s.opCfg p r.op).weightSpan r.cb).2)
  (hin : s.intact p ((s.opCfg p r.op).inputSpan 0).1 ((s.opCfg p r.op).inputSpan 0).2)
include hrun hevs hown hcb hhalt hstream hopen hw hin

/-- A column block of an operation outside the step, its weights and inputs free of error: it is tried again or its outputs go on. -/
theorem exec_denseColumnBlockDone_free (mismatch : Bool) : exec (.denseColumnBlockDone p mismatch) s =
    .next ((s.blockCounted p r).freeBlock p (s.opCfg p r.op) r 0 (s.colBlock p p (s.opCfg p r.op) 0 r.cb) false
      (mismatch || !(s.colBlock p p (s.opCfg p r.op) 0 r.cb).checks)) := by
  have hmeet : s.blockMeet p (s.opCfg p r.op) r.cb 0 = s := by rw [State.blockMeet, State.meet_of_intact hw, State.meet_of_intact hin]
  have hpois : s.blockPoisoned p (s.opCfg p r.op) r.cb 0 = false := by rw [State.blockPoisoned, hw.1, hin.1]; rfl
  have hne : r.owner ≠ .step := by rw [hown]; exact DnsOwner.noConfusion
  simp only [exec, execDenseColumnBlockDone, hrun, hevs, hhalt, hstream, hopen, Nat.not_le.2 hcb, State.streamReady, Bool.not_false,
    Bool.true_or, Bool.true_eq_false, Bool.false_eq_true, ne_eq, not_true_eq_false, or_self, if_false, Option.getD_none, hmeet, hpois,
    State.doBlock, hne, State.blockCounted]

end

/-- A run outside the step whose core has no step open and forces no migration keeps the tile after a block. -/
theorem State.dnsAdvance_of_free {op : DnsOp} (hopen : (s.core p).openStep = none) (hforce : s.forcing p = false) :
    ∃ v ch rr, (v = s ∨ v = s.count (Reg.DNS_CHUNKS p) 1) ∧ s.dnsAdvance p op r =
      (v.updCore p fun c => { c with dns := some { r with cb := r.cb + 1, chunk := ch, rerun := rr } }).dnsShow p dsRunning r.op
        (r.cb + 1) := by
  have hdone : (s.core p).stepDone = true := by simp only [Core.stepDone, hopen]; rfl
  cases hend : decide (r.chunk + s.chunkBlocks p op ≤ r.cb + 1) || decide (op.blocks ≤ r.cb + 1) with
  | false =>
    refine ⟨s, r.chunk, r.rerun, .inl rfl, ?_⟩
    unfold State.dnsAdvance
    simp only [hend, Bool.false_eq_true, if_false, hdone, Bool.not_true, Bool.false_and, Bool.or_self, Bool.and_false]
  | true =>
    have hne : Reg.INT_TEST p ≠ Reg.DNS_CHUNKS p := coreReg_ne (by decide)
    have hforce' : (s.count (Reg.DNS_CHUNKS p) 1).forcing p = false := by
      rw [State.forcing, State.bit, State.rd_count, if_neg hne]
      exact hforce
    have hdone' : ((s.count (Reg.DNS_CHUNKS p) 1).core p).stepDone = true := by rw [State.core_count, hdone]
    refine ⟨_, r.cb + 1, false, .inr rfl, ?_⟩
    generalize ht : s.count (Reg.DNS_CHUNKS p) 1 = t at *
    unfold State.dnsAdvance
    simp only [ht, hend, if_true, hdone', hforce', Bool.not_true, Bool.and_false, Bool.or_self, Bool.false_eq_true, if_false]

end

theorem State.mem_dnsShow (s : State) (p st op cb : Nat) : (s.dnsShow p st op cb).mem = s.mem :=
  (State.dnsShow_keeps (K := 4) (Keeps.refl s) (.same rfl)).same .mem rfl

theorem State.mem_report (s : State) (cls : Nat) (k : SigKeys) : (s.report cls k).mem = s.mem :=
  (State.report_keeps (Keeps.refl s) (.same rfl)).same .mem rfl

theorem State.mem_count (s : State) (key n : Nat) : (s.count key n).mem = s.mem := rfl

theorem State.mem_blockCounted (s : State) (p : Nat) (r : DnsRun) : (s.blockCounted p r).mem = s.mem := by
  rw [State.blockCounted, show ∀ (t : State) lo n, (t.count64 lo n).mem = t.mem from fun _ _ _ => rfl, State.mem_count]

theorem State.mem_updCore (s : State) (p : Nat) (f : Core → Core) : (s.updCore p f).mem = s.mem := rfl

section
variable {s t u : State} {p : Nat} {r : DnsRun}

/-- As the run moves on after work on the core's memory: it stands one block further, and the products counted are as before. -/
theorem State.dnsAdvance_of_memoryWork {op : DnsOp} (hp : p < 9216) (hwork : MemoryWork p t u) (hopen : (t.core p).openStep = none)
    (hforce : t.forcing p = false) :
    (∃ ch rr, ((u.dnsAdvance p op r).core p).dns = some { r with cb := r.cb + 1, chunk := ch, rerun := rr }) ∧
    (u.dnsAdvance p op r).rd64 (Reg.DNS_MACS_LO p) = t.rd64 (Reg.DNS_MACS_LO p) ∧ otherCores p t (u.dnsAdvance p op r) := by
  obtain ⟨hregs, hothers, mons, flags, hcore⟩ := hwork
  have huopen : (u.core p).openStep = none := by rw [hcore, ← hopen]
  have htest : u.rd (Reg.INT_TEST p) = t.rd (Reg.INT_TEST p) :=
    hregs _ (coreReg_not_mem_memoryRegs hp (by decide) (by decide) (by decide))
  have huforce : u.forcing p = false := by rw [State.forcing, State.bit, htest]; exact hforce
  obtain ⟨v, ch, rr, hv, hadv⟩ := u.dnsAdvance_of_free (r := r) (op := op) huopen huforce
  have hvcore : ∀ q, v.core q = u.core q := by
    rcases hv with rfl | rfl
    · exact fun _ => rfl
    · exact fun q => State.core_count ..
  have hmacs : ∀ off, off = 0x508 ∨ off = 0x50C → (u.dnsAdvance p op r).rd (coreReg p off) = t.rd (coreReg p off) := fun off hoff => by
    have ho : off < 0x1000 := by omega
    have hvreads : Reads (· = coreReg p off) t v := by
      have hmem : Reads (· = coreReg p off) t u := fun k hk =>
        hregs k (hk ▸ coreReg_not_mem_memoryRegs hp ho (by omega) (by omega))
      rcases hv with rfl | rfl
      · exact hmem
      · exact hmem.count (coreReg_ne (by omega))
    rw [hadv]
    exact (hvreads.updCore).dnsShow (fun st => coreReg_ne_inflight hp ho st) (coreReg_ne (by omega)) _ rfl
  refine ⟨⟨ch, rr, ?_⟩, ?_, fun q hq => ?_⟩
  · rw [hadv, State.core_dnsShow, State.core_updCore_same]
  · rw [State.rd64, State.rd64]
    exact congrArg₂ (fun a b : Word => a.toNat + 4294967296 * b.toNat) (hmacs 0x508 (.inl rfl)) (hmacs 0x50C (.inr rfl))
  · rw [hadv, State.core_dnsShow, otherCores_updCore _ p _ q hq, hvcore, hothers q hq]

/-- The first failed check of a chunk: the run starts the chunk again. -/
theorem State.dnsMismatch_first {op : DnsOp} (hp : p < 9216) (hrerun : r.rerun = false) :
    ((s.dnsMismatch p op r).core p).dns = some { r with rerun := true, cb := r.chunk, got := 0 } ∧ (s.dnsMismatch p op r).mem = s.mem ∧
    (s.dnsMismatch p op r).rd (Reg.DNS_CHECK_FAIL p) = sticky (s.rd (Reg.DNS_CHECK_FAIL p)) 1 := by
  have hhigh : ∀ key, 0x4000000 ≤ key → key ≠ Reg.DNS_CHECK_FAIL p := fun key hk =>
    (Nat.lt_of_lt_of_le (coreReg_lt hp (by decide)) hk).ne'
  unfold State.dnsMismatch
  rw [hrerun, if_neg Bool.false_ne_true]
  refine ⟨?_, ?_, ?_⟩
  · rw [State.core_dnsShow, State.core_updCore_same]
  · rw [State.mem_dnsShow, State.mem_updCore, State.mem_report, State.mem_count]
  · have hreads : ∀ k f, Reads (· = Reg.DNS_CHECK_FAIL p) (s.count (Reg.DNS_CHECK_FAIL p) 1)
        ((((s.count (Reg.DNS_CHECK_FAIL p) 1).report fltDense k).updCore p f).dnsShow p dsRunning r.op r.chunk) := fun k f =>
      (Reads.updCore (State.report_reads _ _ _ (hhigh _ (by decide)) (hhigh _ (by decide)) (hhigh _ (by decide)))).dnsShow
        (fun st => coreReg_ne_inflight hp (by decide) st) (coreReg_ne (by decide))
    rw [hreads _ _ _ rfl, State.rd_count, if_pos rfl]

section
variable {ref : LoadRef} (hp : p < 9216) (hrun : (s.core p).dns = some r)
  (hevs : (s.core p).dnsEvents = []) (hown : r.owner = .desc ref) (hcb : r.cb < (s.opCfg p r.op).blocks)
  (hhalt : (s.core p).halted = false) (hstream : (s.opCfg p r.op).stream = false) (hopen : (s.core p).openStep = none)
  (hw : s.intact p ((s.opCfg p r.op).weightSpan r.cb).1 ((s.opCfg p r.op).weightSpan r.cb).2)
  (hin : s.intact p ((s.opCfg p r.op).inputSpan 0).1 ((s.opCfg p r.op).inputSpan 0).2)
include hp hrun hevs hown hcb hhalt hstream hopen hw hin

/-- A good column block of an operation outside the step: the run has moved on by it and its multiplications are counted. -/
theorem denseColumnBlockDone_advances (hforce : s.forcing p = false)
    (hchk : (s.colBlock p p (s.opCfg p r.op) 0 r.cb).checks = true) :
    completes (.denseColumnBlockDone p false) s fun t =>
      (∃ ch rr, (t.core p).dns = some { r with cb := r.cb + 1, chunk := ch, rerun := rr }) ∧
      t.rd64 (Reg.DNS_MACS_LO p) =
        (s.rd64 (Reg.DNS_MACS_LO p) + (s.opCfg p r.op).k * (s.opCfg p r.op).m * (s.opCfg p r.op).nc) % 2 ^ 64 ∧
      otherCores p s t := by
  have hexec := exec_denseColumnBlockDone_free hrun hevs hown hcb hhalt hstream hopen hw hin false
  rw [hchk, Bool.not_true, Bool.or_false, State.freeBlock, if_neg Bool.false_ne_true, if_neg Bool.false_ne_true] at hexec
  have hcopen : ((s.blockCounted p r).core p).openStep = none := by rw [State.core_blockCounted, hopen]
  have htest : (s.blockCounted p r).rd (Reg.INT_TEST p) = s.rd (Reg.INT_TEST p) :=
    s.rd_blockCounted p r (coreReg_ne (by decide)) (coreReg_ne (by decide)) (coreReg_ne (off' := 0x50C) (by decide))
  have hcforce : (s.blockCounted p r).forcing p = false := by rw [State.forcing, State.bit, htest]; exact hforce
  obtain ⟨hdns, hmacs, hothers⟩ := State.dnsAdvance_of_memoryWork (r := r) (op := s.opCfg p r.op) hp
    ((s.blockCounted p r).denseOut_memoryWork p r.op (s.opCfg p r.op) 0 _) hcopen hcforce
  refine completes_of hexec ⟨hdns, hmacs.trans (s.macs_blockCounted p r), fun q hq => ?_⟩
  rw [hothers q hq, State.core_blockCounted]

/-- A column block of an operation outside the step that fails its checks the first time: the run starts its chunk again. -/
theorem denseColumnBlockDone_reruns (hrerun : r.rerun = false) :
    completes (.denseColumnBlockDone p true) s fun t =>
      (t.core p).dns = some { r with rerun := true, cb := r.chunk, got := 0 } ∧ t.mem = s.mem ∧
      t.rd (Reg.DNS_CHECK_FAIL p) = sticky (s.rd (Reg.DNS_CHECK_FAIL p)) 1 := by
  have hexec := exec_denseColumnBlockDone_free hrun hevs hown hcb hhalt hstream hopen hw hin true
  rw [Bool.true_or, State.freeBlock, if_neg Bool.false_ne_true, if_pos rfl] at hexec
  obtain ⟨hdns, hmem, hfail⟩ := (s.blockCounted p r).dnsMismatch_first (op := s.opCfg p r.op) hp hrerun
  have hcount : (s.blockCounted p r).rd (Reg.DNS_CHECK_FAIL p) = s.rd (Reg.DNS_CHECK_FAIL p) :=
    s.rd_blockCounted p r (coreReg_ne (by decide)) (coreReg_ne (by decide)) (coreReg_ne (off' := 0x50C) (by decide))
  exact completes_of hexec ⟨hdns, hmem.trans (s.mem_blockCounted p r), by rw [hfail, hcount]⟩

end

/-! ### The end of an operation -/

theorem State.otherCores_dnsStart (s : State) (p : Nat) (run : DnsRun) : otherCores p s (s.dnsStart p run) := fun q hq => by
  rw [State.dnsStart, State.core_dnsShow, otherCores_updCore s p _ q hq]

/-- As the tile of a core takes up its next operation, the other cores stay as they are. -/
theorem State.otherCores_dnsNext (s : State) (p : Nat) : otherCores p s (s.dnsNext p) := by
  have hshow : ∀ st op cb, otherCores p s (s.dnsShow p st op cb) := fun st op cb q _ => State.core_dnsShow ..
  unfold State.dnsNext
  dsimp only
  split
  · exact fun _ _ => rfl
  · split
    · exact s.otherCores_dnsStart p _
    · split
      · split
        · exact (otherCores_updCore s p _).trans (State.otherCores_dnsStart _ p _)
        · exact hshow _ _ _
      · exact hshow _ _ _

/-- The counts of a stack's lines in flight alone change. -/
theorem otherRegs_flyShow (s : State) : otherRegs flyRegs s s.flyShow :=
  Reads.foldl (P := (· ∉ flyRegs)) Reads.refl fun _ ht st hst =>
    have hin : ¬Reg.MEM_HBM_INFLIGHT st ∉ flyRegs := not_not_intro (List.mem_map_of_mem hst)
    (ht.wf' hin).high hin

theorem State.waitqCheck_of_not_waiting (h : ∀ m rd, (s.core p).wait ≠ .waitq m rd) : s.waitqCheck p = s := by
  unfold State.waitqCheck
  split
  next m rd hwait => exact absurd hwait (h m rd)
  next => rfl

/-- A word in the entry of queue `q` reserved for it, where the core waits for none. -/
theorem State.fillReserved_of_not_waiting (q : Nat) (w : Word) (h : ∀ m rd, (s.core p).wait ≠ .waitq m rd) :
    ((s.fillReserved p q w).core p).queue q =
      ⟨((s.core p).queue q).entries ++ [⟨[w], srcUnit⟩], ((s.core p).queue q).reserved - 1⟩ ∧ otherCores p s (s.fillReserved p q w) := by
  have hput : ∀ v i, ((s.unreserve p q).putQueue p q v).core i = if i = p then ((s.unreserve p q).core p).setQueue q v else s.core i :=
    fun v i => by
      rw [State.core_putQueue]
      split
      next => rfl
      next hi => rw [State.unreserve, State.core_putQueue, if_neg hi]
  have hwait : ∀ m rd, (((s.unreserve p q).enqueue p q ⟨[w], srcUnit⟩).core p).wait ≠ .waitq m rd := by
    rw [State.enqueue, State.core_count, hput, if_pos rfl, State.unreserve, State.core_putQueue, if_pos rfl]
    exact h
  rw [State.fillReserved, State.waitqCheck_of_not_waiting hwait]
  refine ⟨?_, fun i hi => ?_⟩
  · rw [State.enqueue, State.core_count, hput, if_pos rfl, Core.queue_setQueue, if_pos rfl, State.unreserve, State.core_putQueue,
      if_pos rfl, Core.queue_setQueue, if_pos rfl]
  · rw [State.enqueue, State.core_count, hput, if_neg hi]

/-- A HANDLER operation ends: its word and outcome stand in the entry reserved for it. -/
theorem denseOpDone_handler {q : Nat} {w : Word} (hrun : (s.core p).dns = some r) (hevs : (s.core p).dnsEvents = [])
    (hown : r.owner = .handler q w) (hcb : (s.opCfg p r.op).blocks ≤ r.cb) (hwait : ∀ m rd, (s.core p).wait ≠ .waitq m rd) :
    completes (.denseOpDone p) s fun t =>
      ((t.core p).queue q).entries = ((s.core p).queue q).entries ++
        [⟨[BitVec.ofNat 32 (w.toNat / 256 * 256 + (if r.failed = 0 then 0 else 1))], srcUnit⟩] ∧
      ((t.core p).queue q).reserved = ((s.core p).queue q).reserved - 1 ∧ otherCores p s t := by
  have hnstep : r.owner ≠ .step := by rw [hown]; exact DnsOwner.noConfusion
  have hexec : exec (.denseOpDone p) s = .next (((s.updCore p fun c => { c with dns := none }).dnsNext p).fillReserved p q
      (BitVec.ofNat 32 (w.toNat / 256 * 256 + (if r.failed = 0 then 0 else 1)))) := by
    simp only [exec, execDenseOpDone, hrun, hevs, Nat.not_lt.2 hcb, ne_eq, not_true_eq_false, or_self, if_false, hnstep]
    rw [hown]
  obtain ⟨run, waiting, hcore⟩ := (s.updCore p fun c => { c with dns := none }).core_dnsNext p
  rw [State.core_updCore_same] at hcore
  obtain ⟨hqueue, hothers⟩ := ((s.updCore p fun c => { c with dns := none }).dnsNext p).fillReserved_of_not_waiting (p := p) q
    (BitVec.ofNat 32 (w.toNat / 256 * 256 + (if r.failed = 0 then 0 else 1))) (by rw [hcore]; exact hwait)
  have hqcore : (((s.updCore p fun c => { c with dns := none }).dnsNext p).core p).queue q = (s.core p).queue q := by rw [hcore]; rfl
  rw [hqcore] at hqueue
  exact completes_of hexec ⟨by rw [hqueue], by rw [hqueue],
    ((otherCores_updCore s p _).trans (State.otherCores_dnsNext _ p)).trans hothers⟩

/-- The last STEP operation ends: the tile is IDLE. -/
theorem denseOpDone_last_step (hp : p < 9216) (hrun : (s.core p).dns = some r) (hevs : (s.core p).dnsEvents = []) (hown : r.owner = .step)
    (hcb : (s.opCfg p r.op).blocks ≤ r.cb) (hq : (s.core p).dnsQ = []) (hsteps : (s.core p).dnsSteps = [r.op]) :
    completes (.denseOpDone p) s fun t => (t.core p).dns = none ∧ (t.core p).dnsSteps = [] ∧
      t.rf (Reg.DNS_STATUS p) 0 2 = 0 ∧ otherCores p s t ∧ otherRegs (Reg.DNS_STATUS p :: flyRegs) s t := by
  let u := s.updCore p fun c => { c with dns := none, dnsSteps := c.dnsSteps.drop 1 }
  have hexec : exec (.denseOpDone p) s = .next (u.dnsShow p dsIdle 0 0) := by
    have hucore : u.core p = { s.core p with dns := none, dnsSteps := [] } := by rw [State.core_updCore_same, hsteps]; rfl
    have hnext : u.dnsNext p = u.dnsShow p dsIdle 0 0 := by
      simp only [State.dnsNext, hucore, hq]
    rw [← hnext]
    simp only [exec, execDenseOpDone, hrun, hevs, Nat.not_lt.2 hcb, ne_eq, not_true_eq_false, or_self, if_false, hown, if_true]
    rfl
  have hstatus : (u.dnsShow p dsIdle 0 0).rd (Reg.DNS_STATUS p) = 0 := by
    have hfly : Reg.DNS_STATUS p ∉ flyRegs := fun h => by
      obtain ⟨st, _, hst⟩ := List.mem_map.1 h
      exact coreReg_ne_inflight hp (by decide) st hst
    rw [State.dnsShow, otherRegs_flyShow _ _ hfly, State.rd_wr, if_pos rfl]
    rfl
  refine completes_of hexec ⟨?_, ?_, ?_, ?_, fun k hk => ?_⟩
  · rw [State.core_dnsShow, State.core_updCore_same]
  · rw [State.core_dnsShow, State.core_updCore_same, hsteps]
    rfl
  · rw [State.rf, hstatus]
    rfl
  · exact fun i hi => by rw [State.core_dnsShow, otherCores_updCore s p _ i hi]
  · obtain ⟨hdns, hfly⟩ := not_or.1 (List.mem_cons.not.1 hk)
    rw [State.dnsShow, otherRegs_flyShow _ _ hfly, State.rd_wr, if_neg hdns]
    rfl

end

/-- Settles O24, per clause: a good column block, the first failed check, the end of a HANDLER operation and of the last STEP one. -/
theorem denseWork : Obligations.DenseWork := by
  unfold Obligations.DenseWork
  intro s p r hp hrun hevs
  refine ⟨fun ref hown hcb hhalt hstream hopen hforce hw hin hchk => ?_, fun ref hown hcb hhalt hstream hopen hrerun hw hin => ?_,
    fun q w hown _ hcb hwait => ?_, fun hown hcb hq hsteps => ?_⟩
  · exact denseColumnBlockDone_advances hp hrun hevs hown hcb hhalt hstream hopen hw hin hforce hchk
  · exact denseColumnBlockDone_reruns hp hrun hevs hown hcb hhalt hstream hopen hw hin hrerun
  · exact denseOpDone_handler hrun hevs hown hcb hwait
  · exact denseOpDone_last_step hp hrun hevs hown hcb hq hsteps

end Sys2Proof.Machine
end

section
/-! SUPPORT. The synapse engine: events taken, row headers and blocks (04_synapses_dense.md R117 to R125): O22. -/
namespace Sys2Proof.Machine

/-! ### Keys, flags and packets -/

/-- The registers of cores lie below those of the fabric in a grove's window. -/
theorem coreReg_ne_groveReg {p off g off' : Nat} (ho : off < 0x1000) (hlo : 0x90000 ≤ off') (hhi : off' < 0x100000) :
    coreReg p off ≠ groveReg g off' := by
  unfold coreReg groveReg
  omega

/-- The registers of a grove's window lie below those of the timebase, the host interface and the device. -/
theorem groveReg_lt {g off : Nat} (hg : g < 64) (ho : off < 0x100000) : groveReg g off < 0x4000000 := by
  unfold groveReg
  omega

theorem Core.flag_setFlag (c : Core) (b : Nat) : (c.setFlag b).flag b = true := by
  unfold Core.setFlag
  split
  next h => exact h
  next h =>
    have hbit : c.flags / 2 ^ b % 2 = 0 := by
      rw [Core.flag, beq_iff_eq] at h
      omega
    rw [Core.flag, beq_iff_eq, Nat.add_div_right _ (Nat.two_pow_pos b)]
    omega

theorem State.takeCore_of_arrived {s : State} {i p : Nat} {f : Flight} (h : s.arrived i f) (hp : f.place = .core p) :
    s.takeCore i = some (p, f, s.without i) := by
  simp only [State.takeCore, State.take_of_arrived h, hp]

theorem State.num_of_mem {s t : State} (h : t.mem = s.mem) (p off n : Nat) : t.num p off n = s.num p off n := by
  simp only [State.num, State.bytes, State.byte, h]

section
variable (s : State) (p : Nat)

theorem State.core_ej (g par n q : Nat) : (s.ej g par n).core q = s.core q := State.core_wr ..

theorem State.net_ej (g par n : Nat) : (s.ej g par n).net = s.net := State.net_wr ..

theorem State.mem_wr (key : Nat) (w : Word) : (s.wr key w).mem = s.mem := rfl

theorem State.mem_ej (g par n : Nat) : (s.ej g par n).mem = s.mem := s.mem_wr _ _

theorem State.core_inj (g par n q : Nat) : (s.inj g par n).core q = s.core q := State.core_wr ..

theorem State.net_inj (g par n : Nat) : (s.inj g par n).net = s.net := State.net_wr ..

theorem State.rd_inj (g par n k : Nat) : (s.inj g par n).rd k =
    if k = Reg.FAB_PC_INJ g par then s.rd (Reg.FAB_PC_INJ g par) + BitVec.ofNat 32 n else s.rd k := State.rd_wr ..

theorem State.rd_ej (g par n k : Nat) : (s.ej g par n).rd k =
    if k = Reg.FAB_PC_EJ g par then s.rd (Reg.FAB_PC_EJ g par) + BitVec.ofNat 32 n else s.rd k := State.rd_wr ..

theorem State.core_synShow (q : Nat) : (s.synShow p).core q = s.core q := by
  rw [State.synShow, State.core_wf', State.core_wf']

theorem State.net_synShow : (s.synShow p).net = s.net := by
  rw [State.synShow, State.net_wf', State.net_wf']

theorem State.synShow_reads {P : Nat → Prop} (h : ¬P (Reg.SYN_STATUS p)) : Reads P s (s.synShow p) := (Reads.refl.wf' h).wf' h

/-! ### FLT_ROW_FORMAT (R117, R118) -/

theorem State.core_rowFormat (w q : Nat) : (s.rowFormat p w).core q = if q = p then (s.core p).setFlag flagRow else s.core q := by
  rw [State.rowFormat, State.flag, State.core_updCore, State.core_report, State.core_report]

theorem State.net_rowFormat (w : Nat) : (s.rowFormat p w).net = s.net :=
  (State.report_keeps (s := s) (Keeps.refl s) (.same rfl)).same .net rfl

theorem State.mem_rowFormat (w : Nat) : (s.rowFormat p w).mem = s.mem := State.mem_report ..

theorem State.rowFormat_reads {P : Nat → Prop} (w : Nat) (h : ∀ key, 0x4000000 ≤ key → ¬P key) : Reads P s (s.rowFormat p w) :=
  (s.report_reads _ _ (h _ (by decide)) (h _ (by decide)) (h _ (by decide))).updCore

end

/-! ### SYN_EVENT_TAKE -/

/-- The head `e` of the input queue of core `p` has been taken and counted. -/
def State.eventTaken (s : State) (p : Nat) (e : Ev) (rest : List Ev) : State :=
  (((s.updCore p fun c => { c with synQ := rest }).count (Reg.SYN_EVENTS p) 1).count (Reg.SYN_COALESCED p) 0).count (Reg.SYN_RETRACT p)
    (if e.retract then 1 else 0)

/-- What is done with the event: a request, the work on a LOCAL row, or no window matches its key. -/
def State.eventWork (t : State) (p : Nat) (e : Ev) (pair : Nat) (err : Word) : Option Win → State
  | none => (t.count (Reg.SYN_KEY_MISS p) 1).rowFormat p 8
  | some w => if w.grove then t.groveRequest p w [e] else t.localGroup p w [e] pair err

section
variable {s : State} {p pair : Nat} {err : Word} {e : Ev} {rest : List Ev}

theorem State.core_eventTaken (q : Nat) :
    (s.eventTaken p e rest).core q = if q = p then { s.core p with synQ := rest } else s.core q := by
  rw [State.eventTaken, State.core_count, State.core_count, State.core_count, State.core_updCore]

theorem State.rd_eventTaken {k : Nat} (hev : k ≠ Reg.SYN_EVENTS p) (hco : k ≠ Reg.SYN_COALESCED p) (hre : k ≠ Reg.SYN_RETRACT p) :
    (s.eventTaken p e rest).rd k = s.rd k := by
  rw [State.eventTaken, State.rd_count, if_neg hre, State.rd_count, if_neg hco, State.rd_count, if_neg hev]
  rfl

theorem State.events_eventTaken : (s.eventTaken p e rest).rd (Reg.SYN_EVENTS p) = sticky (s.rd (Reg.SYN_EVENTS p)) 1 := by
  have hre : Reg.SYN_EVENTS p ≠ Reg.SYN_RETRACT p := coreReg_ne (by decide)
  have hco : Reg.SYN_EVENTS p ≠ Reg.SYN_COALESCED p := coreReg_ne (by decide)
  rw [State.eventTaken, State.rd_count, if_neg hre, State.rd_count, if_neg hco, State.rd_count, if_pos rfl]
  rfl

theorem State.net_eventTaken : (s.eventTaken p e rest).net = s.net := by
  rw [State.eventTaken, State.net_count, State.net_count, State.net_count, State.net_updCore]

section
variable (hq : (s.core p).synQ = e :: rest) (hgate : (s.core p).gated = false) (hco : s.bit (Reg.SYN_CTRL p) 0 = false)
include hq hgate hco

/-- An event that does not wait for the request queue is taken alone, and its work defers no deposit. -/
theorem exec_synEventTake (hroom : ∀ w, s.winOf p e.key = some w → w.grove = true → (s.grove (p / 144)).rowQ.length < 1024)
    (hdef : (((s.eventTaken p e rest).eventWork p e pair err (s.winOf p e.key)).core p).deferred = (s.core p).deferred) :
    exec (.synEventTake p pair err) s =
      .next ((((s.eventTaken p e rest).eventWork p e pair err (s.winOf p e.key)).ej (p / 144) e.parity 1).synShow p) := by
  have hkeep := (congrArg List.length hdef).le.not_gt
  simp only [exec, execSynEventTake, hq, State.wake_of_not_gated hgate, hco, Bool.false_eq_true, if_false]
  cases hwin : s.winOf p e.key with
  | none =>
    rw [hwin] at hkeep
    simp only [Bool.false_eq_true, if_false]
    exact congrArg (fun t : State => Host.Outcome.next (t.synShow p)) (if_neg (by rw [decide_eq_true_eq]; exact hkeep))
  | some w =>
    rw [hwin] at hkeep
    have hstall : (w.grove && s.rqFull (p / 144)) = false := by
      cases hg : w.grove with
      | false => rfl
      | true => exact decide_eq_false (Nat.not_le.2 (hroom w hwin hg))
    simp only [hstall, Bool.false_eq_true, if_false]
    exact congrArg (fun t : State => Host.Outcome.next (t.synShow p)) (if_neg (by rw [decide_eq_true_eq]; exact hkeep))

/-- The engine waits for the request queue. -/
theorem exec_synEventTake_waits {w : Win} (hwin : s.winOf p e.key = some w) (hg : w.grove = true)
    (hfull : 1024 ≤ (s.grove (p / 144)).rowQ.length) : exec (.synEventTake p pair err) s = .next s := by
  have hstall : (w.grove && s.rqFull (p / 144)) = true := by rw [hg, Bool.true_and]; exact decide_eq_true hfull
  simp only [exec, execSynEventTake, hq, State.wake_of_not_gated hgate, hco, Bool.false_eq_true, if_false, hwin, hstall, if_true]

end

/-- What a taken event leaves in every case: the queue without it, its counts and the other cores, as far as its work does. -/
theorem State.eventDone {t : State} {rest' : List Ev} (ht : (t.core p).synQ = rest') (hothers : otherCores p s t) :
    ((((t.ej (p / 144) e.parity 1).synShow p).core p).synQ = rest') ∧ ((t.ej (p / 144) e.parity 1).synShow p).net = t.net ∧
    otherCores p s ((t.ej (p / 144) e.parity 1).synShow p) := by
  refine ⟨?_, ?_, fun q hq => ?_⟩
  · rw [State.core_synShow, State.core_ej, ht]
  · rw [State.net_synShow, State.net_ej]
  · rw [State.core_synShow, State.core_ej, hothers q hq]

theorem State.rd_eventDone {t : State} {k : Nat} (hej : k ≠ Reg.FAB_PC_EJ (p / 144) e.parity) (hst : k ≠ Reg.SYN_STATUS p) :
    ((t.ej (p / 144) e.parity 1).synShow p).rd k = t.rd k := by
  rw [State.synShow_reads (P := (· = k)) _ _ (Ne.symm hst) k rfl, State.rd_ej, if_neg hej]

theorem State.ej_eventDone {t : State} (hpar : e.parity < 4) :
    ((t.ej (p / 144) e.parity 1).synShow p).rd (Reg.FAB_PC_EJ (p / 144) e.parity) = t.rd (Reg.FAB_PC_EJ (p / 144) e.parity) + 1 := by
  have hne : Reg.SYN_STATUS p ≠ Reg.FAB_PC_EJ (p / 144) e.parity := coreReg_ne_groveReg (by decide) (by omega) (by omega)
  rw [State.synShow_reads (P := (· = Reg.FAB_PC_EJ (p / 144) e.parity)) _ _ hne _ rfl, State.rd_ej, if_pos rfl]
  rfl

end

/-- The request that event `e` makes for a row of window `w`. -/
def rowRequestOf (p : Nat) (w : Win) (e : Ev) : RowReq :=
  { home := p, win := w.idx, key := e.key, parity := e.parity, retract := e.retract, mask := 2 ^ e.lane,
    values := (List.range 8).map fun l => if e.lane = l then e.value else 0, homes := [p] }

/-- Its packet, on the way from the core to the grove's memory unit. -/
def State.rowReqPkt (s : State) (p : Nat) (w : Win) (e : Ev) : Flight :=
  { s.corePkt p (.unit (p / 144) p) none (.rowReq (rowRequestOf p w e)) 0 with step := some e.parity }

section
variable {s t : State} {p : Nat} {w : Win} {e : Ev}

theorem State.rowReqPkt_congr (h : t.partOf (p / 144) = s.partOf (p / 144)) : t.rowReqPkt p w e = s.rowReqPkt p w e := by
  simp only [State.rowReqPkt, State.corePkt, h]

theorem not_rosterKey_coreReg {off : Nat} (hp : p < 9216) (ho : off < 0x1000) : ¬RosterKey (coreReg p off) := by
  have := coreReg_lt hp ho
  simp only [RosterKey]
  omega

theorem State.partOf_eventTaken {rest : List Ev} (hp : p < 9216) (g : Nat) : (s.eventTaken p e rest).partOf g = s.partOf g := by
  have hreads : Reads RosterKey s (s.eventTaken p e rest) := fun k hk =>
    have hne : ∀ off, off < 0x1000 → k ≠ coreReg p off := fun off ho h => not_rosterKey_coreReg hp ho (h ▸ hk)
    State.rd_eventTaken (hne 0x308 (by decide)) (hne 0x324 (by decide)) (hne 0x328 (by decide))
  exact hreads.partOf_eq g

/-- The packet enters at the core's router. -/
theorem State.groveRequest_one (hp : p < 9216) (hpar : e.parity < 4) : t.groveRequest p w [e] =
    (((t.inj (p / 144) e.parity 1).put (t.rowReqPkt p w e)).qHigh p 4 (Body.rowReq (rowRequestOf p w e)).vc).synShow p := by
  have hroster : Reads RosterKey t (t.inj (p / 144) e.parity 1) := Reads.refl.wr (not_rosterKey_groveReg (by omega) (by omega))
  have hmask : [e].foldl (fun m v => m + 2 ^ v.lane) 0 = 2 ^ e.lane := Nat.zero_add _
  have hto : t.groveRequest p w [e] =
      ((t.inj (p / 144) e.parity 1).toUnit p (p / 144) (some e.parity) (.rowReq (rowRequestOf p w e))).synShow p := by
    unfold State.groveRequest
    rw [hmask]
    refine congrArg (fun vals => ((t.inj (p / 144) e.parity 1).toUnit p (p / 144) (some e.parity)
      (.rowReq { rowRequestOf p w e with values := vals })).synShow p) (List.map_congr_left fun l _ => ?_)
    by_cases h : e.lane = l
    · simp only [h, List.find?_cons, beq_self_eq_true, if_true]
    · simp only [List.find?_cons, beq_eq_false_iff_ne.2 h, List.find?_nil, h, if_false]
  rw [hto, ← State.rowReqPkt_congr (hroster.partOf_eq _)]
  simp only [State.toUnit, State.toUnitMark, State.inject, Option.isNone_some, Bool.and_false, Bool.false_eq_true, if_false, State.enter]
  rfl

theorem State.groveRequest_core (hp : p < 9216) (hpar : e.parity < 4) (q : Nat) : (t.groveRequest p w [e]).core q = t.core q := by
  rw [State.groveRequest_one hp hpar, State.core_synShow, (State.qHigh_keeps (K := 4) (Keeps.refl _) (.same rfl)).core_eq rfl,
    State.core_put, State.core_inj]

theorem State.groveRequest_net (hp : p < 9216) (hpar : e.parity < 4) :
    (t.groveRequest p w [e]).net = t.net ++ [t.rowReqPkt p w e] := by
  have hhigh := State.qHigh_keeps (K := 4) (n := p) (q := 4) (v := (Body.rowReq (rowRequestOf p w e)).vc)
    (Keeps.refl ((t.inj (p / 144) e.parity 1).put (t.rowReqPkt p w e))) (.same rfl)
  rw [State.groveRequest_one hp hpar, State.net_synShow, hhigh.same .net rfl, State.net_put, State.net_inj]

/-- Of the registers the counts of injections, the high-water mark of the router's input and SYN_STATUS change. -/
theorem State.groveRequest_rd (hp : p < 9216) (hpar : e.parity < 4) {k : Nat} (hhigh : k ≠ inputHigh p) (hst : k ≠ Reg.SYN_STATUS p) :
    (t.groveRequest p w [e]).rd k = (t.inj (p / 144) e.parity 1).rd k := by
  rw [State.groveRequest_one hp hpar, State.synShow_reads (P := (· = k)) _ _ (Ne.symm hst) k rfl,
    State.qHigh_local_reads (P := (· = k)) _ _ hp (Ne.symm hhigh) k rfl, State.rd_put]

/-- An event whose key lies in a GROVE window goes out as one request. -/
theorem synEventTake_grove {pair : Nat} {err : Word} {rest : List Ev} (hp : p < 9216) (hq : (s.core p).synQ = e :: rest)
    (hgate : (s.core p).gated = false) (hco : s.bit (Reg.SYN_CTRL p) 0 = false) (hpar : e.parity < 4)
    (hwin : s.winOf p e.key = some w) (hg : w.grove = true) (hroom : (s.grove (p / 144)).rowQ.length < 1024) :
    completes (.synEventTake p pair err) s fun t => (t.core p).synQ = rest ∧
      t.net = s.net ++ [s.rowReqPkt p w e] ∧
      t.rd (Reg.SYN_EVENTS p) = sticky (s.rd (Reg.SYN_EVENTS p)) 1 ∧
      t.rd (Reg.FAB_PC_INJ (p / 144) e.parity) = s.rd (Reg.FAB_PC_INJ (p / 144) e.parity) + 1 ∧
      t.rd (Reg.FAB_PC_EJ (p / 144) e.parity) = s.rd (Reg.FAB_PC_EJ (p / 144) e.parity) + 1 ∧ otherCores p s t := by
  have hwork : (s.eventTaken p e rest).eventWork p e pair err (s.winOf p e.key) = (s.eventTaken p e rest).groveRequest p w [e] := by
    rw [hwin, State.eventWork, if_pos hg]
  have hcore : ∀ q, ((s.eventTaken p e rest).groveRequest p w [e]).core q =
      if q = p then { s.core p with synQ := rest } else s.core q := fun q => by
    rw [State.groveRequest_core hp hpar, State.core_eventTaken]
  have hexec := exec_synEventTake (pair := pair) (err := err) hq hgate hco
    (fun w' hw' _ => hroom) (by rw [hwork, hcore, if_pos rfl])
  rw [hwork] at hexec
  obtain ⟨hqueue, hnet, hothers⟩ := State.eventDone (s := s) (p := p) (e := e) (rest' := rest)
    (t := (s.eventTaken p e rest).groveRequest p w [e]) (by rw [hcore, if_pos rfl]) (fun q hq => by rw [hcore, if_neg hq])
  have hne : Reg.FAB_PC_EJ (p / 144) e.parity ≠ Reg.FAB_PC_INJ (p / 144) e.parity := by
    simp only [Reg.FAB_PC_EJ, Reg.FAB_PC_INJ, groveReg]
    omega
  have hcg : ∀ off off', off < 0x1000 → 0x90000 ≤ off' → off' < 0x100000 → coreReg p off ≠ groveReg (p / 144) off' :=
    fun _ _ => coreReg_ne_groveReg
  have hgrove : ∀ off, 0x90000 ≤ off → off < 0x100000 → ((s.eventTaken p e rest).groveRequest p w [e]).rd (groveReg (p / 144) off) =
      (s.eventTaken p e rest |>.inj (p / 144) e.parity 1).rd (groveReg (p / 144) off) := fun off hlo hhi =>
    State.groveRequest_rd hp hpar (hcg 0xD50 off (by decide) hlo hhi).symm (hcg 0x304 off (by decide) hlo hhi).symm
  have htaken : ∀ off, 0x90000 ≤ off → off < 0x100000 →
      (s.eventTaken p e rest).rd (groveReg (p / 144) off) = s.rd (groveReg (p / 144) off) :=
    fun off hlo hhi => State.rd_eventTaken (hcg 0x308 off (by decide) hlo hhi).symm (hcg 0x324 off (by decide) hlo hhi).symm
      (hcg 0x328 off (by decide) hlo hhi).symm
  have hinj := hgrove (0xC3010 + 0x10 * e.parity) (by omega) (by omega)
  have hej := hgrove (0xC3014 + 0x10 * e.parity) (by omega) (by omega)
  have hinj' := htaken (0xC3010 + 0x10 * e.parity) (by omega) (by omega)
  have hej' := htaken (0xC3014 + 0x10 * e.parity) (by omega) (by omega)
  rw [State.rd_inj, ← Reg.FAB_PC_INJ] at hinj
  rw [State.rd_inj, ← Reg.FAB_PC_EJ, if_neg hne] at hej
  rw [← Reg.FAB_PC_INJ] at hinj'
  rw [← Reg.FAB_PC_EJ] at hej'
  have hsyn : Reg.SYN_EVENTS p ≠ Reg.FAB_PC_EJ (p / 144) e.parity := hcg _ _ (by decide) (by omega) (by omega)
  have hsyn' : Reg.SYN_EVENTS p ≠ Reg.FAB_PC_INJ (p / 144) e.parity := hcg _ _ (by decide) (by omega) (by omega)
  have hst : Reg.SYN_EVENTS p ≠ Reg.SYN_STATUS p := coreReg_ne (by decide)
  have hin : Reg.SYN_EVENTS p ≠ inputHigh p := coreReg_ne (off := 0x308) (off' := 0xD50) (by decide)
  have hst' : Reg.FAB_PC_INJ (p / 144) e.parity ≠ Reg.SYN_STATUS p := (hcg _ _ (by decide) (by omega) (by omega)).symm
  refine completes_of hexec ⟨hqueue, ?_, ?_, ?_, ?_, hothers⟩
  · rw [hnet, State.groveRequest_net hp hpar, State.net_eventTaken, State.rowReqPkt_congr (State.partOf_eventTaken hp _)]
  · rw [State.rd_eventDone hsyn hst, State.groveRequest_rd hp hpar hin hst, State.rd_inj, if_neg hsyn',
      State.events_eventTaken]
  · rw [State.rd_eventDone hne.symm hst', hinj, if_pos rfl, hinj']
    rfl
  · rw [State.ej_eventDone hpar, hej, hej']

end

section
variable {s t : State} {p pair : Nat} {err : Word} {e : Ev} {rest : List Ev}

/-- An event in no window counts and marks the step. -/
theorem synEventTake_miss (hp : p < 9216) (hq : (s.core p).synQ = e :: rest) (hgate : (s.core p).gated = false)
    (hco : s.bit (Reg.SYN_CTRL p) 0 = false) (hpar : e.parity < 4) (hwin : s.winOf p e.key = none) :
    completes (.synEventTake p pair err) s fun t => (t.core p).synQ = rest ∧ t.net = s.net ∧
      t.rd (Reg.SYN_KEY_MISS p) = sticky (s.rd (Reg.SYN_KEY_MISS p)) 1 ∧ (t.core p).flag flagRow = true ∧
      t.rd (Reg.FAB_PC_EJ (p / 144) e.parity) = s.rd (Reg.FAB_PC_EJ (p / 144) e.parity) + 1 ∧ otherCores p s t := by
  let u := ((s.eventTaken p e rest).count (Reg.SYN_KEY_MISS p) 1).rowFormat p 8
  have hwork : (s.eventTaken p e rest).eventWork p e pair err (s.winOf p e.key) = u := by rw [hwin, State.eventWork]
  have hcore : ∀ q, u.core q = if q = p then Core.setFlag { s.core p with synQ := rest } flagRow else s.core q := fun q => by
    rw [State.core_rowFormat, State.core_count, State.core_count, State.core_eventTaken, State.core_eventTaken, if_pos rfl]
    split
    · rfl
    · rfl
  have hset : ∀ c : Core, (c.setFlag flagRow).synQ = c.synQ ∧ (c.setFlag flagRow).deferred = c.deferred := fun c => by
    unfold Core.setFlag
    split
    · exact ⟨rfl, rfl⟩
    · exact ⟨rfl, rfl⟩
  have hexec := exec_synEventTake (pair := pair) (err := err) hq hgate hco
    (fun w hw _ => absurd (hwin.symm.trans hw) nofun) (by rw [hwork, hcore, if_pos rfl]; exact (hset _).2)
  rw [hwork] at hexec
  obtain ⟨hqueue, hnet, hothers⟩ := State.eventDone (s := s) (p := p) (e := e) (rest' := rest) (t := u)
    (by rw [hcore, if_pos rfl]; exact (hset _).1) (fun q hq => by rw [hcore, if_neg hq])
  have hrd : ∀ key, key < 0x4000000 → u.rd key = ((s.eventTaken p e rest).count (Reg.SYN_KEY_MISS p) 1).rd key := fun key hk =>
    State.rowFormat_reads _ p 8 (P := (· = key)) (fun j hj h => by omega) key rfl
  have hcg : ∀ off, off < 0x1000 → coreReg p off ≠ Reg.FAB_PC_EJ (p / 144) e.parity := fun off ho =>
    coreReg_ne_groveReg ho (by omega) (by omega)
  have hmissej : Reg.SYN_KEY_MISS p ≠ Reg.FAB_PC_EJ (p / 144) e.parity := hcg 0x318 (by decide)
  have hkm : Reg.SYN_KEY_MISS p < 0x4000000 := coreReg_lt hp (by decide)
  have hej : Reg.FAB_PC_EJ (p / 144) e.parity < 0x4000000 := groveReg_lt (by omega) (by omega)
  have hmiss : ∀ off, off ≠ 0x318 → Reg.SYN_KEY_MISS p ≠ coreReg p off := fun off h => coreReg_ne h.symm
  refine completes_of hexec ⟨hqueue, ?_, ?_, ?_, ?_, hothers⟩
  · rw [hnet, State.net_rowFormat, State.net_count, State.net_eventTaken]
  · rw [State.rd_eventDone hmissej (hmiss 0x304 (by decide)), hrd _ hkm, State.rd_count, if_pos rfl,
      State.rd_eventTaken (hmiss 0x308 (by decide)) (hmiss 0x324 (by decide)) (hmiss 0x328 (by decide))]
  · rw [State.core_synShow, State.core_ej, hcore, if_pos rfl]
    exact Core.flag_setFlag _ _
  · rw [State.ej_eventDone hpar, hrd _ hej, State.rd_count, if_neg hmissej.symm,
      State.rd_eventTaken (hcg 0x308 (by decide)).symm (hcg 0x324 (by decide)).symm (hcg 0x328 (by decide)).symm]

theorem State.intact_eventTaken (q off n : Nat) : (s.eventTaken p e rest).intact q off n = s.intact q off n := by
  have hcount : ∀ (t : State) key m, (t.count key m).intact q off n = t.intact q off n := fun _ _ _ => rfl
  rw [State.eventTaken, hcount, hcount, hcount]
  rfl

theorem State.num_eventTaken (q off n : Nat) : (s.eventTaken p e rest).num q off n = s.num q off n := by
  have hcount : ∀ (t : State) key m, (t.count key m).num q off n = t.num q off n := fun _ _ _ => rfl
  rw [State.eventTaken, hcount, hcount, hcount]
  rfl

theorem State.localRow_eventTaken (w : Win) (key d : Nat) : (s.eventTaken p e rest).localRow p w key d = s.localRow p w key d := by
  have hcount : ∀ (t : State) k m, (t.count k m).localRow p w key d = t.localRow p w key d := fun _ _ _ => rfl
  rw [State.eventTaken, hcount, hcount, hcount]
  rfl

/-- One event and a LOCAL row without blocks: its ROWSUM goes into the delivering sum. -/
theorem State.localGroup_of_no_blocks {w : Win} {off : Nat} {h : RowHdr} {f : FmtSlot}
    (hdir : t.intact p (w.dir + 8 * (e.key - w.base)) 8) (hvalid : dirValid (t.num p (w.dir + 8 * (e.key - w.base)) 8) = true)
    (hrow : t.localRow p w e.key (t.num p (w.dir + 8 * (e.key - w.base)) 8) = some (off, h, f)) (hnblk : h.nblk = 0)
    (hint : t.intact p off (rowLen f h.nblk)) :
    t.localGroup p w [e] pair err = t.updCore p fun c => c.addSum e.parity sumDLoc
      ((if e.retract then -(actOperand f e.value) else actOperand f e.value) * h.rowsum) := by
  have hoff : dirAddr (t.num p (w.dir + 8 * (e.key - w.base)) 8) % 2 ^ 18 = off := by
    unfold State.localRow at hrow
    dsimp only at hrow
    split at hrow
    · exact congrArg Prod.fst (Option.some.inj hrow)
    · exact absurd hrow nofun
  have hlen : rowLen f h.nblk = 16 := by rw [hnblk, rowLen, Nat.zero_mul]
  have hint16 : t.intact p off 16 := hlen ▸ hint
  rw [hnblk] at hint
  simp only [State.localGroup, State.stepRead_of_intact hdir, hvalid, Bool.not_true, Bool.false_eq_true, if_false, hoff,
    State.stepRead_of_intact hint16, hrow, State.stepRead_of_intact hint, hnblk, rowBlocks, List.range_zero, List.map_cons,
    List.map_nil, List.foldl_cons, List.foldl_nil]

/-- An event of a LOCAL row without blocks adds operand times ROWSUM. -/
theorem synEventTake_local {w : Win} {off : Nat} {h : RowHdr} {f : FmtSlot} (hq : (s.core p).synQ = e :: rest)
    (hgate : (s.core p).gated = false) (hco : s.bit (Reg.SYN_CTRL p) 0 = false) (hpar : e.parity < 4)
    (hwin : s.winOf p e.key = some w) (hg : w.grove = false)
    (hdir : s.intact p (w.dir + 8 * (e.key - w.base)) 8) (hvalid : dirValid (s.num p (w.dir + 8 * (e.key - w.base)) 8) = true)
    (hrow : s.localRow p w e.key (s.num p (w.dir + 8 * (e.key - w.base)) 8) = some (off, h, f)) (hnblk : h.nblk = 0)
    (hint : s.intact p off (rowLen f h.nblk)) :
    completes (.synEventTake p pair err) s fun t => (t.core p).synQ = rest ∧ t.net = s.net ∧
      (t.core p).sum e.parity sumDLoc = sumAdd ((s.core p).sum e.parity sumDLoc)
        ((if e.retract then -(actOperand f e.value) else actOperand f e.value) * h.rowsum) ∧
      t.rd (Reg.SYN_EVENTS p) = sticky (s.rd (Reg.SYN_EVENTS p)) 1 ∧ otherCores p s t := by
  let d : Int := (if e.retract then -(actOperand f e.value) else actOperand f e.value) * h.rowsum
  let u := (s.eventTaken p e rest).updCore p fun c => c.addSum e.parity sumDLoc d
  have hwork : (s.eventTaken p e rest).eventWork p e pair err (s.winOf p e.key) = u := by
    rw [hwin, State.eventWork, hg, if_neg Bool.false_ne_true]
    rw [← State.num_eventTaken (e := e) (rest := rest)] at hvalid hrow
    rw [← State.localRow_eventTaken (e := e) (rest := rest)] at hrow
    rw [← State.intact_eventTaken (p := p) (e := e) (rest := rest)] at hdir hint
    exact State.localGroup_of_no_blocks hdir hvalid hrow hnblk hint
  have hcore : ∀ q, u.core q = if q = p then Core.addSum { s.core p with synQ := rest } e.parity sumDLoc d else s.core q := fun q => by
    rw [State.core_updCore, State.core_eventTaken, State.core_eventTaken, if_pos rfl]
    split
    · rfl
    · rfl
  have hexec := exec_synEventTake (pair := pair) (err := err) hq hgate hco
    (fun w' hw' hg' => absurd ((Option.some.inj (hwin.symm.trans hw')) ▸ hg) (by rw [hg']; exact Bool.noConfusion))
    (by rw [hwork, hcore, if_pos rfl]; rfl)
  rw [hwork] at hexec
  obtain ⟨hqueue, hnet, hothers⟩ := State.eventDone (s := s) (p := p) (e := e) (rest' := rest) (t := u)
    (by rw [hcore, if_pos rfl]; rfl) (fun q hq => by rw [hcore, if_neg hq])
  refine completes_of hexec ⟨hqueue, ?_, ?_, ?_, hothers⟩
  · rw [hnet, State.net_updCore, State.net_eventTaken]
  · rw [State.core_synShow, State.core_ej, hcore, if_pos rfl, Core.addSum, Core.sum_setSum, if_pos rfl]
    rfl
  · have hej : Reg.SYN_EVENTS p ≠ Reg.FAB_PC_EJ (p / 144) e.parity := coreReg_ne_groveReg (by decide) (by omega) (by omega)
    have hst : Reg.SYN_EVENTS p ≠ Reg.SYN_STATUS p := coreReg_ne (by decide)
    rw [State.rd_eventDone hej hst, State.rd_updCore, State.events_eventTaken]

end

/-! ### ROW_HEADER and BLOCK -/

theorem ones_one : ones 8 1 = [0] := by decide

section
variable {s : State} {i p par : Nat} {f : Flight} {b : BlockPkt}

/-- The operand of the packet's lane 0 (04_synapses_dense.md R123). -/
def State.laneOperand (s : State) (p : Nat) (b : BlockPkt) : Int := actOperand (s.fmtSlot p b.fslot) (b.values.getD 0 0)

section
variable (harr : s.arrived i f) (hplace : f.place = .core p) (hbody : f.body = .block b) (hstep : f.step = some par)
  (hgate : (s.core p).gated = false) (hmask : b.mask = 1) (hret : b.retract = false)
include harr hplace hbody hstep hgate hmask hret

/-- A row header with one lane. -/
theorem exec_rowHeader_one (hhdr : b.header = true) : exec (.rowHeader i) s =
    .next (((s.without i).updCore p fun c => c.addSum par sumDGrv (s.laneOperand p b * (rowHdrOf b.bytes).rowsum)).ej (p / 144) par 1) := by
  have hgate' : ((s.without i).core p).gated = false := hgate
  simp only [exec, execRowHeader, State.takeCore_of_arrived harr hplace, hbody, hhdr, if_true, State.wake_of_not_gated hgate', hmask,
    ones_one, hstep, Option.getD_some, List.foldl_cons, List.foldl_nil, hret, Bool.false_eq_true, if_false]
  rfl

theorem rowHeader_completes (hhdr : b.header = true) :
    completes (.rowHeader i) s fun t =>
      (t.core p).sum par sumDGrv = sumAdd ((s.core p).sum par sumDGrv) (s.laneOperand p b * (rowHdrOf b.bytes).rowsum) ∧
      t.rd (Reg.FAB_PC_EJ (p / 144) par) = s.rd (Reg.FAB_PC_EJ (p / 144) par) + 1 ∧ took i [] s t ∧ otherCores p s t ∧
      otherRegs [Reg.FAB_PC_EJ (p / 144) par] s t := by
  refine completes_of (exec_rowHeader_one harr hplace hbody hstep hgate hmask hret hhdr) ⟨?_, ?_, ?_, fun q hq => ?_, fun k hk => ?_⟩
  · rw [State.core_ej, State.core_updCore_same, Core.addSum, Core.sum_setSum, if_pos rfl]
    rfl
  · rw [State.rd_ej, if_pos rfl, State.rd_updCore, State.rd_without]
    rfl
  · rw [took, State.net_ej, State.net_updCore, List.append_nil]
    rfl
  · rw [State.core_ej, otherCores_updCore _ p _ q hq]
    rfl
  · rw [State.rd_ej, if_neg (List.mem_singleton.not.1 hk), State.rd_updCore, State.rd_without]

omit hmask hret in
/-- A block that no group takes. -/
theorem exec_block_bad (hhdr : b.header = false) (hbad : s.blockGroup p (blkHdrOf b.bytes) (s.fmtSlot p b.fslot) b.tgt b.dmax
    (s.logicalOf p - s.fuses.active * (p / 144)) = none) (pair : Nat) (err : Word) : exec (.block i pair err) s =
    .next ((((s.without i).count (Reg.SYN_BAD_BLOCK p) 1).rowFormat p b.win).ej (p / 144) par 1) := by
  have hgate' : ((s.without i).core p).gated = false := hgate
  have hbad' : (s.without i).blockGroup p (blkHdrOf b.bytes) ((s.without i).fmtSlot p b.fslot) b.tgt b.dmax
    ((s.without i).logicalOf p - (s.without i).fuses.active * (p / 144)) = none := hbad
  simp only [exec, execBlock, State.takeCore_of_arrived harr hplace, hbody, hhdr, Bool.false_eq_true, if_false,
    State.wake_of_not_gated hgate', hbad', hstep, Option.getD_some]

omit hmask hret in
theorem block_bad_completes (hp : p < 9216) (hpar : par < 4) (hhdr : b.header = false) (hbad : s.blockGroup p (blkHdrOf b.bytes)
    (s.fmtSlot p b.fslot) b.tgt b.dmax (s.logicalOf p - s.fuses.active * (p / 144)) = none) (pair : Nat) (err : Word) :
    completes (.block i pair err) s fun t =>
      t.rd (Reg.SYN_BAD_BLOCK p) = sticky (s.rd (Reg.SYN_BAD_BLOCK p)) 1 ∧ (t.core p).flag flagRow = true ∧ t.mem = s.mem ∧
      t.rd (Reg.FAB_PC_EJ (p / 144) par) = s.rd (Reg.FAB_PC_EJ (p / 144) par) + 1 ∧ took i [] s t ∧ otherCores p s t := by
  have hne : Reg.SYN_BAD_BLOCK p ≠ Reg.FAB_PC_EJ (p / 144) par := coreReg_ne_groveReg (by decide) (by omega) (by omega)
  have hrd : ∀ key, key < 0x4000000 → (((s.without i).count (Reg.SYN_BAD_BLOCK p) 1).rowFormat p b.win).rd key =
      if key = Reg.SYN_BAD_BLOCK p then sticky (s.rd (Reg.SYN_BAD_BLOCK p)) 1 else s.rd key := fun key hk => by
    rw [State.rowFormat_reads _ p b.win (P := (· = key)) (fun j hj h => by omega) key rfl, State.rd_count, State.rd_without,
      State.rd_without]
  have hbadlt : Reg.SYN_BAD_BLOCK p < 0x4000000 := coreReg_lt hp (by decide)
  have hejlt : Reg.FAB_PC_EJ (p / 144) par < 0x4000000 := groveReg_lt (by omega) (by omega)
  refine completes_of (exec_block_bad harr hplace hbody hstep hgate hhdr hbad pair err) ⟨?_, ?_, ?_, ?_, ?_, fun q hq => ?_⟩
  · rw [State.rd_ej, if_neg hne, hrd _ hbadlt, if_pos rfl]
  · rw [State.core_ej, State.core_rowFormat, if_pos rfl]
    exact Core.flag_setFlag _ _
  · rw [State.mem_ej, State.mem_rowFormat, State.mem_count]
    rfl
  · rw [State.rd_ej, if_pos rfl, hrd _ hejlt, if_neg hne.symm]
    rfl
  · rw [took, State.net_ej, State.net_rowFormat, State.net_count, List.append_nil]
    rfl
  · rw [State.core_ej, State.core_rowFormat, if_neg hq, State.core_count]
    rfl

end

/-- The product of a block of one element with its one lane. -/
def State.blockProduct (s : State) (p : Nat) (b : BlockPkt) : Int :=
  product (weightOperand (s.fmtSlot p b.fslot) (packedCode (s.fmtSlot p b.fslot) (ofBytes (b.bytes.drop 8)) 0)) (s.laneOperand p b)
    (blockShift (s.fmtSlot p b.fslot) (blkHdrOf b.bytes) 0)

/-- A product that goes straight into its ring word. -/
def State.intoRing (s : State) (p : Nat) (g : Grp) (i r : Nat) (d : Int) : State :=
  (s.setNum p (g.ringAt i r) 3 (a24Add (s.num p (g.ringAt i r) 3) d)).updCore p fun c =>
    { c with touched := Store.set (fun _ => false) c.touched (touchKey i r) true }

/-- A deposit of lane 0 whose slot is neither the last one nor in error goes into the ring. -/
theorem State.deposit_of_intact {g : Grp} {j dly n : Nat} (d : Int) (hlanes : 0 < g.lanes) (hdly : dly + 1 < g.depth)
    (hopen : (s.core p).openStep = some n) (hint : s.intact p (g.ringAt (g.lane 0 j) ((n + 1 + dly) % g.depth)) 3) :
    s.deposit p g 0 j dly d = s.intoRing p g (g.lane 0 j) ((n + 1 + dly) % g.depth) d := by
  have hat : s.stepAt p = n := by simp only [State.stepAt, hopen]
  have hfold : decide (g.lanes ≤ 0) = false := decide_eq_false (by omega)
  have hlast : ¬dly + 1 = g.depth := by omega
  simp only [State.deposit, hfold, Bool.false_eq_true, if_false, hat, hlast, false_and]
  exact State.addRing_of_intact d hint

/-- The products of a block of one element with one lane, at an array that works. -/
theorem State.applyBlock_one {g : Grp} {fm : FmtSlot} {bs : List Byte} {a : Int} {sum : Nat} (hcount : (blkHdrOf bs).count = 0) :
    s.applyBlock p g fm bs [(0, a)] par sum 0 =
      ((((s.deposit p g 0 (blkHdrOf bs).tbase (blkHdrOf bs).dly
          (product (weightOperand fm (packedCode fm (ofBytes (bs.drop 8)) 0)) a (blockShift fm (blkHdrOf bs) 0))).updCore p fun c =>
        c.addSum par sum (product (weightOperand fm (packedCode fm (ofBytes (bs.drop 8)) 0)) a (blockShift fm (blkHdrOf bs) 0))).count64
        (Reg.SYN_OPS_LO p) 1).count (Reg.CORE_FMT_ODD p) (blockOdd fm (blkHdrOf bs) (ofBytes (bs.drop 8)))) := by
  simp only [State.applyBlock, hcount, show List.range (0 + 1) = [0] from rfl, List.foldl_cons, List.foldl_nil, ite_self, Int.add_zero,
    Nat.add_zero, List.length_singleton, Nat.mul_one]

/-- A product gone into ring word `r` of lane-neuron `j` and into the receiving sum, and counted. -/
def State.productTaken (s : State) (p : Nat) (g : Grp) (par j r : Nat) (d : Int) (odd : Nat) : State :=
  (((s.intoRing p g j r d).updCore p fun c => c.addSum par sumRGrv d).count64 (Reg.SYN_OPS_LO p) 1).count (Reg.CORE_FMT_ODD p) odd

theorem State.core_productTaken (g : Grp) (j r : Nat) (d : Int) (odd q : Nat) : (s.productTaken p g par j r d odd).core q =
    if q = p then
      Core.addSum { s.core p with touched := Store.set (fun _ => false) (s.core p).touched (touchKey j r) true } par sumRGrv d
    else s.core q := by
  rw [State.productTaken, State.core_count, State.core_count64, State.core_updCore, State.intoRing, State.core_updCore, State.core_updCore,
    if_pos rfl, State.core_setNum, State.core_setNum]
  split
  · rfl
  · rfl

theorem Core.deferred_addSum (c : Core) (par' k : Nat) (d : Int) : (c.addSum par' k d).deferred = c.deferred := rfl

theorem State.deferred_productTaken (g : Grp) (j r : Nat) (d : Int) (odd : Nat) :
    ((s.productTaken p g par j r d odd).core p).deferred = (s.core p).deferred := by
  rw [State.core_productTaken, if_pos rfl, Core.deferred_addSum]

theorem State.mem_productTaken (g : Grp) (j r : Nat) (d : Int) (odd : Nat) : (s.productTaken p g par j r d odd).mem =
    (s.setNum p (g.ringAt j r) 3 (a24Add (s.num p (g.ringAt j r) 3) d)).mem := by
  have h64 : ∀ (t : State) lo n, (t.count64 lo n).mem = t.mem := fun _ _ _ => rfl
  rw [State.productTaken, State.mem_count, h64, State.mem_updCore, State.intoRing, State.mem_updCore]

theorem State.net_productTaken (g : Grp) (j r : Nat) (d : Int) (odd : Nat) : (s.productTaken p g par j r d odd).net = s.net := by
  have h64 : ∀ (t : State) lo n, (t.count64 lo n).net = t.net := fun _ _ _ => rfl
  rw [State.productTaken, State.net_count, h64, State.net_updCore, State.intoRing, State.net_updCore]
  exact (State.setNum_keeps (K := 448) (Keeps.refl s) (.same rfl)).same .net rfl

section
variable {g : Grp} {n : Nat} (harr : s.arrived i f) (hplace : f.place = .core p) (hbody : f.body = .block b) (hstep : f.step = some par)
  (hgate : (s.core p).gated = false) (hmask : b.mask = 1) (hret : b.retract = false) (hhdr : b.header = false)
  (hgrp : s.blockGroup p (blkHdrOf b.bytes) (s.fmtSlot p b.fslot) b.tgt b.dmax (s.logicalOf p - s.fuses.active * (p / 144)) = some g)
  (hcount : (blkHdrOf b.bytes).count = 0) (hlanes : 0 < g.lanes) (hdly : (blkHdrOf b.bytes).dly + 1 < g.depth)
  (hopen : (s.core p).openStep = some n)
  (hint : s.intact p (g.ringAt (g.lane 0 (blkHdrOf b.bytes).tbase) ((n + 1 + (blkHdrOf b.bytes).dly) % g.depth)) 3)
include harr hplace hbody hstep hgate hmask hret hhdr hgrp hcount hlanes hdly hopen hint

/-- A block of one element and one lane: its product is in the ring word and in the receiving sum. -/
theorem exec_block_one (err : Word) : ∃ odd, exec (.block i 0 err) s =
    .next (((s.without i).productTaken p g par (g.lane 0 (blkHdrOf b.bytes).tbase) ((n + 1 + (blkHdrOf b.bytes).dly) % g.depth)
      (s.blockProduct p b) odd).ej (p / 144) par 1) := by
  have hgate' : ((s.without i).core p).gated = false := hgate
  have hopen' : ((s.without i).core p).openStep = some n := hopen
  have hint' : (s.without i).intact p (g.ringAt (g.lane 0 (blkHdrOf b.bytes).tbase) ((n + 1 + (blkHdrOf b.bytes).dly) % g.depth)) 3 := hint
  have hfm : ∀ j, (s.without i).fmtSlot p j = s.fmtSlot p j := fun _ => rfl
  have hgrp' : (s.without i).blockGroup p (blkHdrOf b.bytes) (s.fmtSlot p b.fslot) b.tgt b.dmax
    ((s.without i).logicalOf p - (s.without i).fuses.active * (p / 144)) = some g := hgrp
  have hpair : (s.without i).pairFault p 0 = s.without i := rfl
  have herr : pairErr 0 err = 0 := rfl
  have hop : actOperand (s.fmtSlot p b.fslot) (b.values.getD 0 0) = s.laneOperand p b := rfl
  have hwork : ∃ odd, (s.without i).applyBlock p g (s.fmtSlot p b.fslot) b.bytes [(0, s.laneOperand p b)] par sumRGrv 0 =
      (s.without i).productTaken p g par (g.lane 0 (blkHdrOf b.bytes).tbase) ((n + 1 + (blkHdrOf b.bytes).dly) % g.depth)
        (s.blockProduct p b) odd := by
    rw [State.applyBlock_one hcount, ← State.blockProduct, State.deposit_of_intact (s.blockProduct p b) hlanes hdly hopen' hint']
    exact ⟨_, rfl⟩
  obtain ⟨odd, hwork⟩ := hwork
  refine ⟨odd, ?_⟩
  have hdef : ¬((s.without i).core p).deferred.length < (((s.without i).productTaken p g par (g.lane 0 (blkHdrOf b.bytes).tbase)
      ((n + 1 + (blkHdrOf b.bytes).dly) % g.depth) (s.blockProduct p b) odd).core p).deferred.length := by
    rw [State.deferred_productTaken]
    exact lt_irrefl _
  simp only [exec, execBlock, State.takeCore_of_arrived harr hplace, hbody, hhdr, Bool.false_eq_true, if_false,
    State.wake_of_not_gated hgate', hfm, hgrp', hstep, Option.getD_some, hmask, ones_one, List.map_cons, List.map_nil, hret, hpair,
    herr, hop, hwork, decide_eq_false hdef]

theorem block_one_completes (err : Word) :
    completes (.block i 0 err) s fun t =>
      t.num p (g.ringAt (g.lane 0 (blkHdrOf b.bytes).tbase) ((n + 1 + (blkHdrOf b.bytes).dly) % g.depth)) 3 =
        a24Add (s.num p (g.ringAt (g.lane 0 (blkHdrOf b.bytes).tbase) ((n + 1 + (blkHdrOf b.bytes).dly) % g.depth)) 3)
          (s.blockProduct p b) ∧
      (t.core p).sum par sumRGrv = sumAdd ((s.core p).sum par sumRGrv) (s.blockProduct p b) ∧
      otherBytes p (g.ringAt (g.lane 0 (blkHdrOf b.bytes).tbase) ((n + 1 + (blkHdrOf b.bytes).dly) % g.depth)) 3 s t ∧
      took i [] s t ∧ otherCores p s t := by
  obtain ⟨odd, hexec⟩ := exec_block_one harr hplace hbody hstep hgate hmask hret hhdr hgrp hcount hlanes hdly hopen hint err
  generalize hj : g.lane 0 (blkHdrOf b.bytes).tbase = j at *
  generalize hr : (n + 1 + (blkHdrOf b.bytes).dly) % g.depth = r at *
  have hint' : (s.without i).poisoned p (g.ringAt j r) 3 = false := hint.1
  have hmem : (((s.without i).productTaken p g par j r (s.blockProduct p b) odd).ej (p / 144) par 1).mem =
      ((s.without i).setNum p (g.ringAt j r) 3 (a24Add ((s.without i).num p (g.ringAt j r) 3) (s.blockProduct p b))).mem := by
    rw [State.mem_ej, State.mem_productTaken]
  refine completes_of hexec ⟨?_, ?_, fun q o ho => ?_, ?_, fun q hq => ?_⟩
  · rw [State.num_of_mem hmem, State.num_setNum hint']
    exact Nat.mod_eq_of_lt (low_lt 24 _)
  · rw [State.core_ej, State.core_productTaken, if_pos rfl, Core.addSum, Core.sum_setSum, if_pos rfl]
    rfl
  · have hbyte := State.otherBytes_setNum hint' (a24Add ((s.without i).num p (g.ringAt j r) 3) (s.blockProduct p b)) q o ho
    rw [State.byte] at hbyte ⊢
    rw [hmem]
    exact hbyte
  · rw [took, State.net_ej, State.net_productTaken, List.append_nil]
    rfl
  · rw [State.core_ej, State.core_productTaken, if_neg hq]
    rfl

end
end

/-- Settles O22, per clause: an event by what its key matches, a row header, a malformed block and a block of one element. -/
theorem synapseWork : Obligations.SynapseWork := by
  unfold Obligations.SynapseWork
  refine ⟨fun s p pair err e rest hp hq hgate hco hpar => ⟨fun w hwin hg hroom => ?_, fun w hwin hg hfull => ?_, fun hwin => ?_,
    fun w off h f hwin hg hdir hvalid hrow hnblk hint => ?_⟩,
    fun s i p par f b hp hpar harr hplace hbody hstep hgate hmask hret => ⟨fun hhdr => ?_, fun hhdr hbad pair err => ?_,
      fun g n hhdr hgrp hcount hlanes hdly hopen hint err => ?_⟩⟩
  · exact synEventTake_grove hp hq hgate hco hpar hwin hg hroom
  · exact completes_of (exec_synEventTake_waits hq hgate hco hwin hg hfull) rfl
  · exact synEventTake_miss hp hq hgate hco hpar hwin
  · exact synEventTake_local hq hgate hco hpar hwin hg hdir hvalid hrow hnblk hint
  · exact rowHeader_completes harr hplace hbody hstep hgate hmask hret hhdr
  · exact block_bad_completes harr hplace hbody hstep hgate hp hpar hhdr hbad pair err
  · exact block_one_completes harr hplace hbody hstep hgate hmask hret hhdr hgrp hcount hlanes hdly hopen hint err

end Sys2Proof.Machine
end

section
/-! SUPPORT. A row whose packet the fabric loses: the stop empties the grove's memory unit (05_fabric.md R182,
08_step_commit.md R289): O23. -/
namespace Sys2Proof.Machine

/-! ### The memory unit's requests as a partition stops -/

/-- What the memory unit of grove `g` has in hand: open rows, waiting requests and the reads that hold the grove's commit. -/
def State.rowWork (s : State) (g : Nat) : List RowJob × List RowReq × List Nat :=
  ((s.grove g).rows, (s.grove g).rowQ, (s.grove g).hbmOut)

section
variable {s t : State} {k g h : Nat}

theorem State.rows_of_rowWork {x : List RowJob × List RowReq × List Nat} (e : s.rowWork g = x) : (s.grove g).rows = x.1 :=
  congrArg Prod.fst e

theorem State.rowWork_of_grove (e : t.grove g = s.grove g) : t.rowWork g = s.rowWork g := by
  rw [State.rowWork, e, State.rowWork]

theorem State.rowWork_of_keeps {K : Nat} (hk : Keeps K s t) (hK : K.testBit Component.groves.ctorIdx = false) : t.rowWork g = s.rowWork g :=
  State.rowWork_of_grove (hk.grove_eq hK g)

theorem State.rowWork_endReplay (s : State) (g h : Nat) : (s.endReplay g).rowWork h = s.rowWork h := by
  have hstart : ((s.updGrove g fun v => { v with replay := none, repair := [] }).wf' (Reg.INT_GRV_STATUS g) 30 1 0).rowWork h =
      s.rowWork h := by
    rw [State.rowWork, State.grove_wf', State.grove_updGrove]
    split
    next e => rw [e]; rfl
    next => rfl
  have hend : ∀ (t : State) q, (t.endSapling q).rowWork h = t.rowWork h := fun t q =>
    State.rowWork_of_keeps (State.endSapling_keeps (K := 1028) (Keeps.refl t) (.same rfl)) rfl
  have hnote : ∀ t : State, (t.noteSaplings g).rowWork h = t.rowWork h := fun t => by
    obtain ⟨armed, e⟩ := t.grove_noteSaplings g h
    rw [State.rowWork, e]
    rfl
  unfold State.endReplay
  dsimp only
  split
  · exact hstart
  · rw [hnote]
    split
    · rw [hend, hend, hstart]
    · rw [hend, hstart]

theorem State.rowWork_stopGrove (s : State) (g h : Nat) : (s.stopGrove g).rowWork h = if h = g then ([], [], []) else s.rowWork h := by
  have hshow : ∀ t : State, (t.logShow g).rowWork h = t.rowWork h := fun t =>
    State.rowWork_of_keeps (State.logShow_keeps (K := 4) (Keeps.refl t) (.same rfl)) rfl
  have hwf : ∀ (t : State) key lo n v, (t.wf' key lo n v).rowWork h = t.rowWork h := fun _ _ _ _ _ =>
    State.rowWork_of_grove (State.grove_wf' ..)
  unfold State.stopGrove
  dsimp only
  rw [hshow, hwf, hwf, hwf, hwf, hwf, State.rowWork, State.grove_updGrove]
  split
  · rfl
  · exact s.rowWork_endReplay g h

/-- As the groves of a list stop, each of them loses its requests. -/
theorem State.rowWork_stopGroves {gs : List Nat} (hg : g ∈ gs) : (gs.foldl State.stopGrove s).rowWork g = ([], [], []) := by
  induction gs generalizing s with
  | nil => exact absurd hg List.not_mem_nil
  | cons h gs ih =>
    by_cases hin : g ∈ gs
    · exact ih hin
    · have he : g = h := (List.mem_cons.1 hg).resolve_right hin
      have hrest : ∀ t : State, t.rowWork g = ([], [], []) → (gs.foldl State.stopGrove t).rowWork g = ([], [], []) := fun t ht =>
        List.foldlRecOn gs State.stopGrove (motive := fun u => u.rowWork g = ([], [], [])) ht fun u hu x _ => by
          rw [State.rowWork_stopGrove, hu, ite_self]
      exact hrest _ (by rw [State.rowWork_stopGrove, if_pos he])

/-- No attachment holds an early record, and no event port an early or a paced one. -/
def State.noEgress (s : State) : Prop :=
  (∀ a, (s.att a).early = []) ∧ ∀ e, (s.port e).early = [] ∧ (s.port e).pacerQ = []

theorem State.noEgress_of_same (ha : t.atts = s.atts) (hp : t.ports = s.ports) (hs : s.noEgress) : t.noEgress := by
  obtain ⟨hatt, hport⟩ := hs
  refine ⟨fun a => ?_, fun e => ?_⟩
  · rw [State.att, ha]; exact hatt a
  · rw [State.port, hp]; exact hport e

theorem State.noEgress_updAtt {a : Nat} {f : Att → Att} (hf : ∀ v, v.early = [] → (f v).early = []) (hs : s.noEgress) :
    (s.updAtt a f).noEgress := by
  obtain ⟨hatt, hport⟩ := hs
  refine ⟨fun b => ?_, hport⟩
  rw [State.att_updAtt]
  split
  · exact hf _ (hatt _)
  · exact hatt b

theorem State.noEgress_updPort {e : Nat} {f : Port → Port} (hf : ∀ v, v.early = [] ∧ v.pacerQ = [] → (f v).early = [] ∧ (f v).pacerQ = [])
    (hs : s.noEgress) : (s.updPort e f).noEgress := by
  obtain ⟨hatt, hport⟩ := hs
  refine ⟨hatt, fun b => ?_⟩
  rw [State.port_updPort]
  split
  · exact hf _ (hport _)
  · exact hport b

/-- A stop of partition `k` at attachment `a`: its held records go and its early ones are taken back. -/
def State.stopAtt (k : Nat) (t : State) (a : Nat) : State :=
  ((t.att a).early.filter fun h => h.part == k).foldl (fun t h => t.retractEarly a h)
    (t.updAtt a fun v => { v with held := v.held.filter (·.part != k), early := v.early.filter (·.part != k) })

/-- A stop of partition `k` at event port `e`; the contexts are those of `s`. -/
def State.stopPort (s : State) (k : Nat) (t : State) (e : Nat) : State :=
  ((t.port e).early.filter fun h => h.part == k).foldl (fun t h => t.retractEarlyPort e h)
    (((t.port e).pacerQ.map (·.1)).foldl
      (fun u j => u.wf' (Reg.EVP_PACER_STATUS e j) 0 16 (Store.get (fun _ => []) (u.port e).pacerQ j).length)
      (t.updPort e fun v => { v with
        held := v.held.filter (·.part != k), early := v.early.filter (·.part != k),
        holdBuf := v.holdBuf.filter fun h => cfld (s.context h.ctx) 0 0 6 != k,
        tx0 := v.tx0.filter fun f => f.part != k || f.early,
        tx1 := v.tx1.filter fun f => f.part != k || f.early,
        pacerQ := v.pacerQ.filterMap fun q =>
          let l := q.2.filter (·.part != k)
          if l.isEmpty then none else some (q.1, l) }))

theorem State.stopEgress_eq (s : State) (k : Nat) :
    s.stopEgress k = (List.range 2).foldl (s.stopPort k) ((List.range 8).foldl (State.stopAtt k) s) := rfl

/-- Where nothing waits to leave, a stop takes no record back and shows no pacer. -/
theorem State.stopEgress_reads {P : Nat → Prop} (k : Nat) (hs : s.noEgress) : Reads P s (s.stopEgress k) := by
  have hatt : ∀ t : State, Reads P s t ∧ t.noEgress → ∀ a ∈ List.range 8,
      Reads P s (State.stopAtt k t a) ∧ (State.stopAtt k t a).noEgress :=
    fun t ⟨hr, ht⟩ a _ => by
      rw [State.stopAtt, ht.1 a, List.filter_nil, List.foldl_nil]
      exact ⟨hr.trans .refl, State.noEgress_updAtt (fun v hv => by rw [hv]; rfl) ht⟩
  have hport : ∀ t : State, Reads P s t ∧ t.noEgress → ∀ e ∈ List.range 2,
      Reads P s (s.stopPort k t e) ∧ (s.stopPort k t e).noEgress :=
    fun t ⟨hr, ht⟩ e _ => by
      obtain ⟨hearly, hpaced⟩ := ht.2 e
      rw [State.stopPort, hearly, hpaced, List.filter_nil, List.map_nil, List.foldl_nil, List.foldl_nil]
      exact ⟨hr.updPort, State.noEgress_updPort (fun v hv => by rw [hv.1, hv.2]; exact ⟨rfl, rfl⟩) ht⟩
  rw [State.stopEgress_eq]
  exact (List.foldlRecOn (List.range 2) (s.stopPort k) (motive := fun t => Reads P s t ∧ t.noEgress)
    (List.foldlRecOn (List.range 8) (State.stopAtt k) (motive := fun t => Reads P s t ∧ t.noEgress) ⟨.refl, hs⟩ hatt) hport).1

theorem State.disarmPart_reads {P : Nat → Prop} (s : State) (k : Nat) (hch : ∀ c, c < 1024 → ¬P (chKey c + 4))
    (hcore : ∀ p c, p < 9216 → c < 4 → ¬P (chKey (coreCh p c) + 4)) : Reads P s (s.disarmPart k) :=
  (Reads.refl.foldl fun _ ht c hc => ht.wf' (hch c (State.lt_of_mem_globalsOf hc))).foldl fun _ ht p hp =>
    ht.foldl fun _ hu c hc => hu.wf' (hcore p c (State.lt_of_mem_coresOfPart hp) (List.mem_range.1 hc))

theorem not_rosterKey_coreChannel {p c : Nat} (hp : p < 9216) (hc : c < 4) : ¬RosterKey (chKey (coreCh p c) + 4) := by
  have hge : ¬coreCh p c < 1024 := by unfold coreCh; omega
  have hcore : (coreCh p c - 1024) / 4 = p := by unfold coreCh; omega
  rw [chKey, if_neg hge, hcore]
  simp only [RosterKey, coreReg]
  omega

theorem State.noEgress_stopDense (cores : List Nat) (hs : s.noEgress) : (s.stopDense cores).noEgress := by
  unfold State.stopDense
  dsimp only
  refine List.foldlRecOn (List.range 8) _ (motive := State.noEgress) hs fun u hu a _ => ?_
  split
  · exact hu
  · exact State.noEgress_updAtt (fun v hv => hv) hu

/-- Up to the stop of the groves themselves a stop leaves alone which groves the partition has. -/
theorem State.grovesOf_beforeStop (hk : k < 64) (hs : s.noEgress) :
    (((((s.coresOfPart k).foldl State.quiet s).stopDense (s.coresOfPart k)).stopEgress k).disarmPart k).grovesOf k = s.grovesOf k := by
  have hquiet : Reads RosterKey s ((s.coresOfPart k).foldl State.quiet s) := Reads.refl.foldl fun t ht p hp =>
    ht.trans (t.quiet_reads fun off ho => not_rosterKey_coreReg (State.lt_of_mem_coresOfPart hp) ho)
  have hquietKeeps : Keeps 1028 s ((s.coresOfPart k).foldl State.quiet s) :=
    keeps_foldl (fun _ _ h => State.quiet_keeps h (.same rfl)) (Keeps.refl s)
  have hquietEgress := State.noEgress_of_same (hquietKeeps.same .atts rfl) (hquietKeeps.same .ports rfl) hs
  generalize (s.coresOfPart k).foldl State.quiet s = t at *
  have hdenseKeeps := State.stopDense_keeps (K := 8589934592) (cores := s.coresOfPart k) (Keeps.refl t) (.same rfl)
  have hdense : Reads RosterKey t (t.stopDense (s.coresOfPart k)) := Reads.of_regs hdenseKeeps rfl rfl rfl
  have hdenseEgress := State.noEgress_stopDense (s.coresOfPart k) hquietEgress
  refine Reads.grovesOf_eq ((((hquiet.trans hdense).trans (State.stopEgress_reads k hdenseEgress)).trans (State.disarmPart_reads _ k
    (fun c hc h => ?_) fun p c hp hc => not_rosterKey_coreChannel hp hc))) hk
  obtain ⟨hlo, hhi⟩ := chKey_lt hc
  simp only [RosterKey] at h
  omega

/-- Partition `k` runs in grove `g` and applies nothing, and no record waits to leave. -/
structure State.StopsAtOnce (s : State) (k g : Nat) : Prop where
  part_lt : k < 64
  owns : g ∈ s.grovesOf k
  runs : s.pstate k = psRunning
  applying : (s.part k).applying = 0
  egress : s.noEgress

/-- A stop of such a partition empties the memory unit of the grove. -/
theorem State.rowWork_stopPart (h : s.StopsAtOnce k g) (cause : Nat) : (s.stopPart k cause).rowWork g = ([], [], []) := by
  have hparts : (s.stopParts k).rowWork g = ([], [], []) := by
    refine Eq.trans (State.rowWork_of_grove rfl) (State.rowWork_stopGroves ?_)
    rw [State.grovesOf_beforeStop h.part_lt h.egress]
    exact h.owns
  have heffects : (s.stopEffects k).rowWork g = (s.stopParts k).rowWork g := by
    rw [State.stopEffects_eq]
    exact State.rowWork_of_keeps (K := 4100) (State.haltNow_keeps (State.wf'_keeps (State.wf'_keeps (State.updPart_keeps (Keeps.refl _)
      (sub_of_land rfl)) (sub_of_land rfl)) (sub_of_land rfl)) (.same rfl)) rfl
  rw [State.stopPart_eq_stopNow _ h.runs h.applying, State.stopNow]
  exact (State.rowWork_of_grove (by rw [State.grove_report, State.grove_wf', State.grove_wr])).trans (heffects.trans hparts)

/-! ### A row read that returns (R124, R135) -/

/-- The window through which job `j` reads, and the HBM byte address of its directory entry. -/
def State.jobWin (s : State) (j : RowJob) : Win := s.win j.req.home j.req.win
def State.jobEntry (s : State) (j : RowJob) : Nat := (s.jobWin j).entryAt j.req.key

/-- The directory entry of job `j` has been read through the cache of grove `g`. -/
def State.entryRead (s : State) (g : Nat) (j : RowJob) : State := s.gcRange g (s.jobEntry j) 8 none

/-- A good read of a row that is read for the first time: the row is handed out. -/
theorem exec_hbmReadReturn_row {j tr pos a : Nat} {job : RowJob} {hd : RowHdr} {f : FmtSlot} (hj : j < denseStreamBase)
    (hfind : (s.grove g).rows.find? (·.id == j) = some job) (hfirst : job.refetch = none) (hhdr : job.headerSent = false)
    (hdir : s.failing (s.missing g (s.jobEntry job) 8) hbmOk (jobTrans (s.jobEntry job) 0 tr) = none)
    (hrow : (s.entryRead g job).groveRow job.req (s.jobWin job) (some g) pos 0 = .row a hd f)
    (hread : (s.entryRead g job).failing ((s.entryRead g job).missing g a (rowLen f hd.nblk)) hbmOk (jobTrans (s.jobEntry job) a tr) = none) :
    exec (.hbmReadReturn g j hbmOk tr pos 0) s =
      .next (((s.entryRead g job).gcRange g a (rowLen f hd.nblk) none).rowDeliver g job (s.jobWin job) a hd f
        ((s.entryRead g job).rowBytes (some g) a 0 (rowLen f hd.nblk) pos 0)) := by
  have hok : ∀ (t : State) m x, t.readCorrected m hbmOk x = t := fun t m x => if_neg fun h => absurd h.1 (by decide)
  simp only [State.entryRead, State.jobEntry, State.jobWin] at hdir hrow hread ⊢
  simp only [exec, execHbmReadReturn, Nat.not_le.2 hj, if_false, hfind, State.rowReturn, hdir, hok, hhdr, Bool.false_eq_true, hrow, hfirst,
    Option.isSome_none, hread, ite_self]

theorem State.rowWork_rowDone {job : RowJob} (h : s.rowWork g = ([], [], [])) : (s.rowDone g job).rowWork g = ([], [], []) := by
  obtain ⟨hrows, hrest⟩ := Prod.mk.inj h
  obtain ⟨hq, hout⟩ := Prod.mk.inj hrest
  have hshow : ∀ t : State, t.rowWork g = ([], [], []) → (t.rqOpen g).rowWork g = ([], [], []) := fun t ht => by
    have hnil : (t.grove g).rowQ = [] := congrArg (fun x => x.2.1) ht
    have hopen : t.rqOpen g = t.rqShow g := by
      unfold State.rqOpen
      dsimp only
      rw [hnil]
    rw [hopen]
    exact (State.rowWork_of_keeps (State.rqShow_keeps (K := 4) (Keeps.refl t) (.same rfl)) rfl).trans ht
  have hdrop : (s.updGrove g fun v => { v with rows := v.rows.filter (·.id != job.id), hbmOut := v.hbmOut.filter (· != job.id) }).rowWork
      g = ([], [], []) := by
    rw [State.rowWork, State.grove_updGrove, if_pos rfl, hrows, hq, hout]
    rfl
  unfold State.rowDone
  dsimp only
  refine hshow _ ((State.rowWork_of_keeps (K := 4) (keeps_foldl (fun _ _ h => State.synShow_keeps h (.same rfl)) ?_) rfl).trans hdrop)
  exact State.wr_keeps (Keeps.refl _) (.same rfl)

/-- The header of a row is lost, for no router may take it: its partition stops. -/
theorem State.rowWork_unitInject_lost {dest par : Nat} {b : Body} (h : s.StopsAtOnce k g) (hg : g < 64) (hpar : par < 4)
    (hpart : s.partOf g = some k) (hport : s.mPort dest = none) : (s.unitInject g dest par b).rowWork g = ([], [], []) := by
  obtain ⟨hk, hof, hrun, hap, hs⟩ := h
  have hreads : ∀ key n cls sk, (RosterKey key ∨ key = Reg.HIF_PART_STATUS k) →
      (((s.inj g par 1).count (Reg.FAB_LOSS k) n).report cls sk).rd key = s.rd key := fun key n cls sk hkey => by
    have hne : ∀ x, ¬RosterKey x → x ≠ Reg.HIF_PART_STATUS k → key ≠ x := fun x hx hx' e => hkey.elim (e ▸ hx) (e ▸ hx')
    have hloss : key ≠ Reg.FAB_LOSS k := hne _ (by simp only [RosterKey, Reg.FAB_LOSS]; omega)
      (by simp only [Reg.FAB_LOSS, Reg.HIF_PART_STATUS]; omega)
    have hinj : key ≠ Reg.FAB_PC_INJ g par := hne _ (not_rosterKey_groveReg hg (by omega)) (by
      have := groveReg_lt (g := g) (off := 0xC3010 + 0x10 * par) hg (by omega)
      simp only [Reg.FAB_PC_INJ, Reg.HIF_PART_STATUS]
      omega)
    have hsig : ∀ x, x = Reg.INT_FSIG_SEQ ∨ x = Reg.MGT_QUEUES ∨ x = Reg.INT_FSIG_LOST → ¬key = x := fun x hx =>
      have hlarge : 0x8000000 ≤ x ∧ x < 0x800C000 ∨ 0x8015000 ≤ x := by rcases hx with rfl | rfl | rfl <;> decide
      hne x (by simp only [RosterKey]; omega) (by simp only [Reg.HIF_PART_STATUS]; omega)
    rw [State.report_reads (P := (key = ·)) _ cls sk (hsig _ (.inl rfl)) (hsig _ (.inr (.inl rfl))) (hsig _ (.inr (.inr rfl))) key rfl,
      State.rd_count, if_neg hloss, State.inj, State.countWrap, State.rd_wr, if_neg hinj]
  have hkeeps : ∀ n cls sk, Keeps 8797166768132 s (((s.inj g par 1).count (Reg.FAB_LOSS k) n).report cls sk) := fun n cls sk =>
    State.report_keeps (State.count_keeps (State.wr_keeps (Keeps.refl s) (sub_of_land rfl)) (sub_of_land rfl)) (.same rfl)
  have hinject : s.unitInject g dest par b = (s.inj g par 1).fabricLoss k par (flits b) := by
    simp only [State.unitInject, hport, State.abandon, hpart, Option.getD_some]
  rw [hinject, State.fabricLoss]
  refine State.rowWork_stopPart ⟨hk, ?_, ?_, ?_,
    State.noEgress_of_same ((hkeeps _ _ _).same .atts rfl) ((hkeeps _ _ _).same .ports rfl) hs⟩ _
  · rw [Reads.grovesOf_eq (fun key h => hreads key _ _ _ (.inl h)) hk]
    exact hof
  · rw [State.pstate, State.rf, hreads _ _ _ _ (.inr rfl)]
    exact hrun
  · rw [(State.report_sameParts _ _ _).applying, State.part_count, State.inj, State.countWrap, State.part_wr]
    exact hap

/-- A row without blocks whose header is lost: nothing is left of the memory unit's requests. -/
theorem State.rowWork_rowDeliver_lost {job : RowJob} {w : Win} {a : Nat} {hd : RowHdr} {f : FmtSlot} {bytes : List Byte}
    (h : s.StopsAtOnce k g) (hg : g < 64) (hpar : job.req.parity < 4) (hpart : s.partOf g = some k)
    (hport : s.mPort job.req.home = none) (hpls : s.fuses.pls = false) (hhdr : job.headerSent = false) (hnblk : hd.nblk = 0)
    (hcrc : rowCrc (bytes.take 16) (bytes.drop 16) = hd.crc) : (s.rowDeliver g job w a hd f bytes).rowWork g = ([], [], []) := by
  have hlost := fun b => State.rowWork_unitInject_lost (dest := job.req.home) (b := b) h hg hpar hpart hport
  have hfuses : ∀ b, (s.unitInject g job.req.home job.req.parity b).fuses.pls = false := fun b => by
    rw [(State.unitInject_keeps (Keeps.refl s) (.same rfl)).same .fuses rfl]
    exact hpls
  have hblocks : rowBlocks f hd.nblk (bytes.drop 16) = [] := by rw [rowBlocks, hnblk]; rfl
  unfold State.rowDeliver
  dsimp only
  rw [hhdr, if_neg Bool.false_ne_true, hblocks, List.drop_nil, if_pos hcrc]
  generalize (Body.block (job.req.pkt w hd.fslot true job.req.retract (bytes.take 16))) = b
  have hwork := hlost b
  have hf := hfuses b
  generalize s.unitInject g job.req.home job.req.parity b = t at hwork hf
  have hsend : t.sendBlocks g job.req w hd.fslot job.req.retract [] = t := rfl
  have hout : (t.grove g).hbmOut = [] := congrArg (fun x => x.2.2) hwork
  have hresumed : t.hbmResumed g job.id job.req.home = t := by
    unfold State.hbmResumed
    rw [hout]
    rfl
  have hplain : (t.count (Reg.MEM_GROVE_ROWS g) 1).plsServe g job.req w a hd = t.count (Reg.MEM_GROVE_ROWS g) 1 := by
    have hrange : (t.count (Reg.MEM_GROVE_ROWS g) 1).plsRange g job.req.key = none := if_neg (by
      rw [State.fuses_count, hf]
      exact Bool.false_ne_true)
    unfold State.plsServe
    rw [hrange]
  rw [hsend, hresumed, hplain]
  exact State.rowWork_rowDone ((State.rowWork_of_grove (State.grove_count ..)).trans hwork)

end

/-! ### The state that refutes it -/

/-- A request at the grove memory unit for key 5, of window 7 of core 0. -/
def lostJob (id : Nat) : RowJob :=
  { id := id, next := 0, headerSent := false, crcFails := 0, refetch := none,
    req := { home := 0, win := 7, key := 5, parity := 3, retract := false, mask := 128, values := [], homes := [0] } }

/-- Partition 0 runs in grove 0, all of whose M-port routers are FAULTY; two jobs read the row at 32, valid and without blocks. -/
def lostRow : State :=
  { State.cold { Fuses.full with pls := false } ⟨0, [], [], false⟩ Pins.init with
    up := true
    regs := [(Reg.HIF_PART_OWNER 0, 0x80000000), (Reg.HIF_PART_GROVES_LO 0, 1), (Reg.HIF_PART_STATUS 0, 0x40000000),
      (Reg.FAB_RTR_STATUS 39, 2), (Reg.FAB_RTR_STATUS 44, 2), (Reg.FAB_RTR_STATUS 99, 2), (Reg.FAB_RTR_STATUS 104, 2),
      (Reg.SYN_WIN_KEY 0 7, 0x80000005), (Reg.SYN_WIN_CNT 0 7, 1), (Reg.SYN_WIN_CFG 0 7, 0x80000000),
      (Reg.SYN_WIN_DIR 0 7, 0), (Reg.SYN_WIN_EXT 0 7, 64)]
    hbm := [(0, 1), (7, 0x80), (36, 5), (44, 0x17), (45, 0x4A), (46, 0x41), (47, 0x43)]
    groves := [(0, { Grove.init with rows := [lostJob 6, lostJob 7], nextJob := 8 })] }

/-- The header of the row at 32. -/
def lostHdr : RowHdr := { rowsum := 0, key := 5, fslot := 0, nblk := 0, reserved := false, crc := 1128352279 }

/-- The format slot the row names. -/
def lostFmt : FmtSlot := { wfmt := 0, afmt := 0, zw := 0, za := 0, xb := 0, x4f4 := false, reservedOk := true }

/-- The directory entry has been read through the cache, and then the row. -/
def lostRead : State := lostRow.entryRead 0 (lostJob 6)
def lostSeen : State := lostRead.gcRange 0 32 16 none

theorem lostRow_readable (a n : Nat) (h : a + n ≤ stackBytes) : lostRow.readable a n := fun i hi => by
  have h0 : (a + i) / stackBytes = 0 := Nat.div_eq_of_lt (by omega)
  rw [h0]
  decide +kernel

theorem exec_lostRow : exec (.hbmReadReturn 0 6 hbmOk 0 0 0) lostRow =
    .next (lostSeen.rowDeliver 0 (lostJob 6) (lostRow.jobWin (lostJob 6)) 32 lostHdr lostFmt (lostRead.rowBytes (some 0) 32 0 16 0 0)) := by
  have hlen : rowLen lostFmt lostHdr.nblk = 16 := rfl
  have h := exec_hbmReadReturn_row (s := lostRow) (g := 0) (j := 6) (tr := 0) (pos := 0) (a := 32) (job := lostJob 6) (hd := lostHdr)
    (f := lostFmt) (by decide) (by decide +kernel) rfl rfl (by decide +kernel) (by decide +kernel) (by decide +kernel)
  rw [hlen] at h
  exact h

theorem rowWork_lostSeen : (lostSeen.rowDeliver 0 (lostJob 6) (lostRow.jobWin (lostJob 6)) 32 lostHdr lostFmt
    (lostRead.rowBytes (some 0) 32 0 16 0 0)).rowWork 0 = ([], [], []) :=
  State.rowWork_rowDeliver_lost (k := 0)
    ⟨by decide, by decide +kernel, by decide +kernel, by decide +kernel, fun _ => rfl, fun _ => ⟨rfl, rfl⟩⟩ (by decide) (by decide)
    (by decide +kernel) (by decide +kernel) (by decide +kernel) rfl rfl (by decide +kernel)

/-- Refutes O23: the header of a row that reads well is lost in the fabric, for all M-port routers of the grove are FAULTY. The partition
stops, and the job of the next row is gone with that of the row read (05_fabric.md R182). -/
theorem not_groveMemory : ¬ Obligations.GroveMemory := by
  unfold Obligations.GroveMemory
  rintro ⟨-, hreturn, -⟩
  obtain ⟨-, hrow⟩ := hreturn lostRow 0 6 0 0 0 (lostJob 6) (lostRow.win 0 7) (by decide) (by decide) (by decide +kernel) (by decide)
    (by decide) rfl (by decide +kernel) (by decide +kernel) (lostRow_readable _ _ (by decide +kernel))
  obtain ⟨t, hexec, hrows, -⟩ := hrow 32 lostHdr lostFmt (by decide +kernel) (lostRow_readable _ _ (by decide +kernel)) (by decide +kernel)
  rw [exec_lostRow] at hexec
  have hnil : (t.grove 0).rows = [] := by
    rw [← Host.Outcome.next.inj hexec]
    exact State.rows_of_rowWork rowWork_lostSeen
  rw [hnil] at hrows
  exact absurd hrows (by decide +kernel)

end Sys2Proof.Machine
end

section
/-! SUPPORT. A packet that moves on from a router or a stop (05_fabric.md R158, R163, R172): what leaves on a link that is up, what is
counted at its port, and what an ejection or a discard leaves. -/
namespace Sys2Proof.Machine

/-! ### Counters of a port (R192, R193) -/

theorem State.count64_reads {P : Nat → Prop} (s : State) {lo n : Nat} (hlo : ¬P lo) (hhi : ¬P (lo + 4)) : Reads P s (s.count64 lo n) :=
  Reads.refl.wr64 hlo hhi

theorem State.net_count64 (s : State) (lo n : Nat) : (s.count64 lo n).net = s.net := rfl

/-- A packet has left node `k` on a port: it is counted there, where the port has telemetry. -/
def State.portSent (s : State) (k port : Nat) : State :=
  match linkKey k port with
  | some key => s.count64 key 1
  | none => s

section
variable (s : State) (k port : Nat)

theorem State.net_portSent : (s.portSent k port).net = s.net := by
  unfold State.portSent
  split
  · exact s.net_count64 _ _
  · rfl

theorem State.portSent_reads {P : Nat → Prop} (h : ∀ key ∈ portKeys k port 0, ¬P key) : Reads P s (s.portSent k port) := by
  unfold State.portSent
  unfold portKeys at h
  split
  · next key hkey =>
    rw [hkey] at h
    exact s.count64_reads (h _ List.mem_cons_self) (h _ (List.mem_cons_of_mem _ List.mem_cons_self))
  · exact Reads.refl

theorem State.rd64_portSent {key : Nat} (h : linkKey k port = some key) : (s.portSent k port).rd64 key = (s.rd64 key + 1) % 2 ^ 64 := by
  rw [State.portSent, h]
  exact s.rd64_wr64_same _ _

end

theorem Reads.rd64_eq {P : Nat → Prop} {s t : State} (h : Reads P s t) {lo : Nat} (hlo : P lo) (hhi : P (lo + 4)) : t.rd64 lo = s.rd64 lo := by
  rw [State.rd64, State.rd64, h _ hlo, h _ hhi]

theorem linkKey_router {k : Nat} (h : k < 9216) (port : Nat) : linkKey k port = some (portKey k port) := if_pos h

theorem linkKey_stop {g : Nat} (h : g < 64) (port : Nat) : linkKey (stopNode g) port = some (stopPortKey g port) := by
  have hcore : ¬stopNode g < 9216 := by unfold stopNode; omega
  have hstop : stopNode g < 9280 := by unfold stopNode; omega
  rw [linkKey, if_neg hcore, if_pos hstop, stopNode, Nat.add_sub_cancel_left]

theorem portKeys_of_linkKey {k port key : Nat} (h : linkKey k port = some key) (off : Nat) : portKeys k port off = [key + off, key + off + 4] := by
  rw [portKeys, h]

/-! ### A packet on its way -/

@[simp] theorem State.net_without (s : State) (i : Nat) : (s.without i).net = s.net.eraseIdx i := rfl
@[simp] theorem State.core_without (s : State) (i p : Nat) : (s.without i).core p = s.core p := rfl

/-- A packet leaves on a link that is up. -/
theorem State.sendOn_of_up {s : State} {k port n q : Nat} {f : Flight} (hpeer : linkPeer k port = some (n, q))
    (hup : s.linkCut k port n q = false) : s.sendOn k port f = (s.portSent k port).put (f.sentTo n q) := by
  simp only [State.sendOn, hpeer, hup, Bool.false_eq_true, if_false]
  rfl

theorem State.maySend_of_crosses {s : State} {i k port n q : Nat} {b : Body} (h : s.crosses i k port n q b) :
    (s.without i).maySend k port b = true := by
  obtain ⟨hpeer, -, hroom⟩ := h
  simp only [State.maySend, hpeer, hroom, Bool.or_true]

/-- Where packet `i` may cross a link, the fabric without it sends a packet over that link. -/
theorem State.sendOn_without_of_crosses {s : State} {i k port n q : Nat} {b : Body} (h : s.crosses i k port n q b) (f : Flight) :
    (s.without i).sendOn k port f = ((s.without i).portSent k port).put (f.sentTo n q) :=
  State.sendOn_of_up h.1 h.2.1

theorem exec_canopyPacketArrive {s : State} {i k : Nat} {f : Flight} (harr : s.arrived i f) (hplace : f.place = .router k) :
    exec (.canopyPacketArrive i) s = .next (if (s.without i).routerReady k f then (s.without i).routerArrive k f else s) := by
  simp only [exec, execCanopyPacketArrive, State.take_of_arrived harr, hplace]

theorem exec_stopReceiveCopy {s : State} {i g : Nat} {f : Flight} (harr : s.arrived i f) (hplace : f.place = .stop g) :
    exec (.stopReceiveCopy i) s =
      .next (if stopLoads g f || !((s.without i).stopReady g f) then s else (s.without i).stopArrive g f) := by
  simp only [exec, execStopReceiveCopy, State.take_of_arrived harr, hplace]

theorem Flight.pastWay_of_none {f : Flight} (h : f.way = none) (k : Nat) : f.pastWay k = f := by
  rw [Flight.pastWay, h, if_neg (by simp)]

/-- A packet sent over a link has been taken out of its place and is behind what was in the fabric. -/
theorem took_portSent (s : State) (i k port : Nat) (f : Flight) : took i [f] s (((s.without i).portSent k port).put f) := by
  rw [took, State.net_put, State.net_portSent, State.net_without]

/-! ### Ejection and discard (R172, R176, R188, R192) -/

theorem State.net_discard (s : State) (k : Nat) (f : Flight) : (s.discard k f).net = s.net := by
  unfold State.discard
  dsimp only
  split
  · rw [State.net_ej, State.net_count]
  · rw [State.net_count]

theorem State.core_discard (s : State) (k : Nat) (f : Flight) (q : Nat) : (s.discard k f).core q = s.core q := by
  unfold State.discard
  dsimp only
  split
  · rw [State.core_ej, State.core_count]
  · rw [State.core_count]

theorem State.badPkt_discard (s : State) (k : Nat) (f : Flight) :
    (s.discard k f).rd (Reg.FAB_BAD_PKT k) = sticky (s.rd (Reg.FAB_BAD_PKT k)) 1 := by
  have hcount : (s.count (Reg.FAB_BAD_PKT k) 1).rd (Reg.FAB_BAD_PKT k) = sticky (s.rd (Reg.FAB_BAD_PKT k)) 1 := by
    rw [State.rd_count, if_pos rfl]
  unfold State.discard
  dsimp only
  split
  · rw [State.rd_ej, if_neg (by simp only [Reg.FAB_BAD_PKT, Reg.FAB_PC_EJ, coreReg, groveReg]; omega), hcount]
  · exact hcount

theorem State.ej_discard (s : State) {k p : Nat} {f : Flight} (h : f.step = some p) :
    (s.discard k f).rd (Reg.FAB_PC_EJ (k / 144) p) = s.rd (Reg.FAB_PC_EJ (k / 144) p) + 1 := by
  have hne : Reg.FAB_PC_EJ (k / 144) p ≠ Reg.FAB_BAD_PKT k := by
    simp only [Reg.FAB_BAD_PKT, Reg.FAB_PC_EJ, coreReg, groveReg]
    omega
  rw [State.discard, h]
  dsimp only
  rw [State.rd_ej, if_pos rfl, State.rd_count, if_neg hne]
  rfl

theorem State.eject_of_drop {s : State} {p endpoint : Nat} {f : Flight} (h : s.ejects p endpoint f.body = .drop) :
    s.eject p endpoint f = s.discard p f := by
  simp only [State.eject, h]

end Sys2Proof.Machine
end

section
/-! SUPPORT. UNICAST packets (05_fabric.md R158, R166, R188, R192): O27. -/
namespace Sys2Proof.Machine

/-! ### Neighbours within a grove -/

theorem neighbour_north {k : Nat} (h : 0 < coreY k) : neighbour k 0 = some (k - 12) := by
  have hedge : gridY k ≠ 0 := by unfold gridY; omega
  refine (if_neg hedge).trans (congrArg some ?_)
  simp only [coreAt, gridX, gridY, coreX, coreY] at *
  omega

theorem neighbour_east {k : Nat} (h : coreX k < 11) : neighbour k 1 = some (k + 1) := by
  have hedge : gridX k ≠ 95 := by unfold gridX; omega
  refine (if_neg hedge).trans (congrArg some ?_)
  simp only [coreAt, gridX, gridY, coreX, coreY] at *
  omega

theorem neighbour_south {k : Nat} (h : coreY k < 11) : neighbour k 2 = some (k + 12) := by
  have hedge : gridY k ≠ 95 := by unfold gridY; omega
  refine (if_neg hedge).trans (congrArg some ?_)
  simp only [coreAt, gridX, gridY, coreX, coreY] at *
  omega

theorem neighbour_west {k : Nat} (h : 0 < coreX k) : neighbour k 3 = some (k - 1) := by
  have hedge : gridX k ≠ 0 := by unfold gridX; omega
  refine (if_neg hedge).trans (congrArg some ?_)
  simp only [coreAt, gridX, gridY, coreX, coreY] at *
  omega

theorem linkPeer_mesh {k port : Nat} (hk : k < 9216) (hp : port < 4) :
    linkPeer k port = (neighbour k port).map fun n => (n, opposite port) := by
  rw [linkPeer, if_pos hk, if_pos hp]

theorem coreX_lt (k : Nat) : coreX k < 12 := Nat.mod_lt _ (by decide)

theorem coreY_lt (k : Nat) : coreY k < 12 := by
  unfold coreY
  omega

theorem coords_east {k : Nat} (h : coreX k < 11) : coreX (k + 1) = coreX k + 1 ∧ coreY (k + 1) = coreY k := by
  simp only [coreX, coreY] at *
  omega

theorem coords_west {k : Nat} (h : 0 < coreX k) : coreX (k - 1) = coreX k - 1 ∧ coreY (k - 1) = coreY k := by
  simp only [coreX, coreY] at *
  omega

theorem coords_south {k : Nat} (h : coreY k < 11) : coreX (k + 12) = coreX k ∧ coreY (k + 12) = coreY k + 1 := by
  simp only [coreX, coreY] at *
  omega

theorem coords_north {k : Nat} (h : 0 < coreY k) : coreX (k - 12) = coreX k ∧ coreY (k - 12) = coreY k - 1 := by
  simp only [coreX, coreY] at *
  omega

theorem eq_of_coords {k d : Nat} (hgrove : k / 144 = d / 144) (hx : coreX k = coreX d) (hy : coreY k = coreY d) : k = d := by
  simp only [coreX, coreY] at *
  omega

/-- The distance of two routers, with truncated differences. -/
theorem dist_eq (a b : Nat) :
    dist a b = (coreX b - coreX a + (coreX a - coreX b)) + (coreY b - coreY a + (coreY a - coreY b)) := by
  unfold dist
  split <;> split <;> omega

/-- One hop toward a core of the same grove: along the row while the columns differ, and one nearer (R158). -/
theorem hop_nearer {k dest n q : Nat} (hk : k < 9216) (hne : k ≠ dest) (hgrove : k / 144 = dest / 144)
    (hpeer : linkPeer k (hopPort k dest) = some (n, q)) :
    (coreX k ≠ coreX dest → coreY n = coreY k) ∧ dist n dest + 1 = dist k dest := by
  have hx := coreX_lt dest
  have hy := coreY_lt dest
  have hto : ∀ port m, port < 4 → neighbour k port = some m → hopPort k dest = port → n = m := fun port m hp hm hport => by
    rw [hport, linkPeer_mesh hk hp, hm] at hpeer
    exact (congrArg Prod.fst (Option.some.inj hpeer)).symm
  unfold hopPort at hto
  by_cases heast : coreX k < coreX dest
  · obtain ⟨hX, hY⟩ := coords_east (k := k) (by omega)
    rw [hto 1 _ (by decide) (neighbour_east (by omega)) (if_pos heast), dist_eq, dist_eq, hX, hY]
    omega
  rw [if_neg heast] at hto
  by_cases hwest : coreX dest < coreX k
  · obtain ⟨hX, hY⟩ := coords_west (k := k) (by omega)
    rw [hto 3 _ (by decide) (neighbour_west (by omega)) (if_pos hwest), dist_eq, dist_eq, hX, hY]
    omega
  rw [if_neg hwest] at hto
  by_cases hsouth : coreY k < coreY dest
  · obtain ⟨hX, hY⟩ := coords_south (k := k) (by omega)
    rw [hto 2 _ (by decide) (neighbour_south (by omega)) (if_pos hsouth), dist_eq, dist_eq, hX, hY]
    omega
  · have hnorth : coreY dest < coreY k := by
      have := mt (eq_of_coords hgrove (by omega)) hne
      omega
    obtain ⟨hX, hY⟩ := coords_north (k := k) (by omega)
    rw [hto 0 _ (by decide) (neighbour_north (by omega)) (if_neg hsouth), dist_eq, dist_eq, hX, hY]
    omega

/-! ### A UNICAST packet at a router -/

theorem uniPort_of_arrived {f : Flight} (h : f.way = none) (k : Nat) : uniPort k k f = none := by
  simp only [uniPort, h, Option.getD_none, if_true]

theorem uniPort_of_same_grove {f : Flight} {k dest : Nat} (h : f.way = none) (hne : k ≠ dest) (hgrove : k / 144 = dest / 144) :
    uniPort k dest f = some (hopPort k dest) := by
  simp only [uniPort, h, Option.getD_none, if_neg hne, if_pos hgrove]

section
variable {s : State} {i k endpoint dest : Nat} {f : Flight} (harr : s.arrived i f) (hplace : f.place = .router k)
  (htag : f.tag = .unicast endpoint dest) (hway : f.way = none) (hrtr : s.rtrState k ≠ rsFaulty)
include htag hway

theorem State.routerReady_unicast_hop {port : Nat} (huni : uniPort k dest f = some port) (hmay : s.maySend k port f.body = true) :
    s.routerReady k f = true := by
  simp only [State.routerReady, State.routerPorts, State.ejectHeld, htag, Flight.pastWay_of_none hway, huni, Option.toList_some,
    List.all_cons, List.all_nil, hmay, Option.isNone_some, Bool.false_and, Bool.not_false, Bool.and_true, Bool.or_true]

theorem State.routerReady_unicast_end (huni : uniPort k dest f = none) (htake : s.ejects k endpoint f.body ≠ .hold) :
    s.routerReady k f = true := by
  have hno : (s.ejects k endpoint f.body == Eject.hold) = false := beq_false_of_ne htake
  simp only [State.routerReady, State.routerPorts, State.ejectHeld, htag, Flight.pastWay_of_none hway, huni, Option.toList_none,
    List.all_nil, hno, Bool.and_false, Bool.not_false, Bool.and_true, Bool.or_true]

include hrtr in
theorem State.routerArrive_unicast : s.routerArrive k f = s.unicastArrive k endpoint dest f := by
  simp only [State.routerArrive, Flight.pastWay_of_none hway, if_neg hrtr, htag]

include harr hplace hrtr

theorem exec_unicast_hop {n q : Nat} (hne : k ≠ dest) (hgrove : k / 144 = dest / 144)
    (hx : s.crosses i k (hopPort k dest) n q f.body) :
    exec (.canopyPacketArrive i) s = .next (((s.without i).portSent k (hopPort k dest)).put (f.sentTo n q)) := by
  have huni := uniPort_of_same_grove hway hne hgrove
  rw [exec_canopyPacketArrive harr hplace, if_pos (State.routerReady_unicast_hop htag hway huni (State.maySend_of_crosses hx)),
    State.routerArrive_unicast htag hway (by exact hrtr), State.unicastArrive, huni]
  dsimp only
  rw [State.sendOn_without_of_crosses hx]

theorem exec_unicast_eject (hend : k = dest) (hbody : ∀ e, f.body ≠ .event e) (htake : (s.without i).ejects k endpoint f.body ≠ .hold) :
    exec (.canopyPacketArrive i) s = .next ((s.without i).eject k endpoint f) := by
  subst hend
  have huni := uniPort_of_arrived hway k
  rw [exec_canopyPacketArrive harr hplace, if_pos (State.routerReady_unicast_end htag hway huni htake),
    State.routerArrive_unicast htag hway (by exact hrtr), State.unicastArrive, huni]
  dsimp only
  split
  next e _ _ he _ => exact absurd he (hbody _)
  next => rfl

end

/-- No core has an ENDPOINT 3. -/
theorem State.ejects_three (s : State) (p : Nat) (b : Body) : s.ejects p 3 b = .drop := by
  simp only [State.ejects, true_or, if_true]

/-- The message endpoint of an ACTIVE core with its logic ON takes a message. -/
theorem State.ejects_msg {s : State} {p mt src q code : Nat} {w : Word} (hlogic : s.logicOn p = true) (hrole : s.role p = roleActive) :
    s.ejects p 1 (.msg mt w src q code) = .take := by
  have hloader : ((1 : Nat) == 2) = false := rfl
  simp only [State.ejects, hloader, hlogic, hrole, Bool.false_eq_true, if_false, beq_self_eq_true, Bool.true_or, Bool.not_true, or_self]
  rw [if_neg (by decide)]

theorem State.eject_msg {s : State} {p endpoint mt src q code : Nat} {w : Word} {f : Flight} (hbody : f.body = .msg mt w src q code)
    (htake : s.ejects p endpoint f.body = .take) :
    s.eject p endpoint f = (s.sentL p f.body).put { f with place := .core p, inPort := 4, left := 0, shares := false } := by
  rw [State.eject, htake]
  dsimp only
  rw [hbody]

/-- Settles O27: a hop takes the packet nearer, ENDPOINT 3 discards it, and the message endpoint takes it. -/
theorem unicastRouting : Obligations.UnicastRouting := by
  intro s i k dest endpoint f hk _ harr hplace htag hway hrtr
  refine ⟨fun n q hne hgrove hx => ?_, fun hend h3 hbody => ?_, fun mt w src q code hend h1 hbody hlogic hrole => ?_⟩
  · exact completes_of (exec_unicast_hop harr hplace htag hway hrtr hne hgrove hx)
      ⟨took_portSent s i k _ _, hop_nearer hk hne hgrove hx.1⟩
  · subst h3
    have hdrop := (s.without i).ejects_three k f.body
    refine completes_of (exec_unicast_eject harr hplace htag hway hrtr hend hbody (by rw [hdrop]; decide)) ?_
    rw [State.eject_of_drop hdrop]
    exact ⟨by rw [took, State.net_discard, State.net_without, List.append_nil], State.badPkt_discard _ _ _⟩
  · subst h1
    have htake : (s.without i).ejects k 1 f.body = .take := by
      rw [hbody]
      exact State.ejects_msg hlogic hrole
    refine completes_of (exec_unicast_eject harr hplace htag hway hrtr hend (by rw [hbody]; exact fun _ => Body.noConfusion)
      (by rw [htake]; decide)) ?_
    rw [State.eject_msg hbody htake]
    rfl

end Sys2Proof.Machine
end

section
/-! SUPPORT. Canopy packets at routers and stops (05_fabric.md R158, R166, R171, R172, R176, R192, R193): O26. -/
namespace Sys2Proof.Machine

/-! ### What a link shows -/

/-- The registers by which a link is cut: the router's and the stop's state, and their power. -/
def LinkSense (key : Nat) : Prop :=
  key < 0x4000000 ∧ (key % 0x100000 < 0x90000 ∧ (key % 0x1000 = 0xC04 ∨ key % 0x1000 = 0xE24) ∨
    key % 0x100000 = 0xC3000 ∨ key % 0x100000 = 0xC4004)

section
variable {s t : State} (h : Reads LinkSense s t)
include h

theorem Reads.nodeDown_eq (k port : Nat) : t.nodeDown k port = s.nodeDown k port := by
  unfold State.nodeDown
  split
  · exact h.bit_eq (by simp only [LinkSense, Reg.FAB_RTR_STATUS, coreReg]; omega) _
  split
  · exact h.bit_eq (by simp only [LinkSense, Reg.FAB_XS_STATUS, groveReg]; omega) _
  · rfl

theorem Reads.nodeOut_eq (n : Nat) : t.nodeOut n = s.nodeOut n := by
  unfold State.nodeOut
  split
  · have hstate : t.rtrState n = s.rtrState n := h.rf_eq (by simp only [LinkSense, Reg.FAB_RTR_STATUS, coreReg]; omega) _ _
    have hpower : t.routerOn n = s.routerOn n := by
      rw [State.routerOn, State.routerOn, State.pwr, State.pwr, h.rf_eq (by simp only [LinkSense, coreReg]; omega)]
    rw [hstate, hpower]
  split
  · rw [State.pwr, State.pwr, h.rf_eq (by simp only [LinkSense, groveReg]; omega)]
  · rfl

theorem Reads.linkCut_eq (k port n q : Nat) : t.linkCut k port n q = s.linkCut k port n q := by
  rw [State.linkCut, State.linkCut, h.nodeDown_eq, h.nodeDown_eq, h.nodeOut_eq]

end

/-- Where packet `i` may cross a link, it does so from a state that shows the link as `s` does. -/
theorem State.sendOn_of_crosses {s t : State} {i k port n q : Nat} {b : Body} (h : s.crosses i k port n q b)
    (ht : Reads LinkSense (s.without i) t) (f : Flight) : t.sendOn k port f = (t.portSent k port).put (f.sentTo n q) := by
  obtain ⟨hpeer, hup, -⟩ := h
  exact State.sendOn_of_up hpeer ((ht.linkCut_eq k port n q).trans hup)

/-! ### A canopy packet at a router -/

section
variable {s : State} {i k c : Nat} {remote : Bool} {f : Flight} {e : Ev}

theorem State.canopyPorts_of_none (h : canMask (s.canopy (k / 144) c) (k % 144) = 0) : s.canopyPorts k (k / 144) c = [] := by
  simp only [State.canopyPorts, h]
  rw [if_neg (by omega)]
  decide

theorem State.canopyPorts_of_eject (h : canMask (s.canopy (k / 144) c) (k % 144) = 32) : s.canopyPorts k (k / 144) c = [] := by
  simp only [State.canopyPorts, h]
  rw [if_neg (by omega)]
  decide

theorem State.canopyPorts_of_port {port : Nat} (hport : port < 4) (h : canMask (s.canopy (k / 144) c) (k % 144) = 2 ^ port) :
    s.canopyPorts k (k / 144) c = [port] := by
  have hlt : 2 ^ port < 16 := Nat.pow_lt_pow_right (by decide) hport
  simp only [State.canopyPorts, h]
  rw [if_neg (by omega), List.append_nil]
  match port, hport with
  | 0, _ | 1, _ | 2, _ | 3, _ => decide

section
variable (harr : s.arrived i f) (hplace : f.place = .router k) (htag : f.tag = .canopy remote (k / 144) c) (hway : f.way = none)
  (hbody : f.body = .event e) (hrtr : s.rtrState k ≠ rsFaulty)
include harr hplace htag hway hbody hrtr

/-- A canopy packet in a grove of its own is carried when its ports take it and its endpoint does not hold it. -/
theorem exec_canopy {ports : List Nat} {m : Nat} (hmask : canMask (s.canopy (k / 144) c) (k % 144) = m)
    (hports : s.canopyPorts k (k / 144) c = ports) (hsend : ports.all (fun port => (s.without i).maySend k port f.body) = true) :
    exec (.canopyPacketArrive i) s = .next
      (if (m / 32 == 1 && (s.ejectRole k c).isNone && (s.without i).ejects k 0 f.body == .hold) = true then s
       else
        let t := ports.foldl (fun u port => u.sendOn k port f) (s.without i)
        if m / 32 = 1 then t.ejectCanopy k c f e else t) := by
  have hmask' : canMask ((s.without i).canopy (k / 144) c) (k % 144) = m := hmask
  have hports' : (s.without i).canopyPorts k (k / 144) c = ports := hports
  have hrole : (s.without i).ejectRole k c = s.ejectRole k c := rfl
  have hfaulty : ((s.without i).rtrState k == rsFaulty) = false := beq_false_of_ne hrtr
  have hnf : ¬(s.without i).rtrState k = rsFaulty := hrtr
  rw [exec_canopyPacketArrive harr hplace]
  simp only [State.routerReady, State.routerPorts, State.ejectHeld, State.routerArrive, State.canopyArrive,
    Flight.pastWay_of_none hway, htag, hbody, if_true, if_neg hnf, hfaulty, hmask', hports', hrole, beq_self_eq_true, Bool.true_and,
    Bool.false_or] at hsend ⊢
  rw [hsend, Bool.true_and]
  cases (m / 32 == 1 && (s.ejectRole k c).isNone && (s.without i).ejects k 0 (.event e) == .hold) <;> rfl

theorem exec_canopy_gone (hmask : canMask (s.canopy (k / 144) c) (k % 144) = 0) :
    exec (.canopyPacketArrive i) s = .next (s.without i) :=
  exec_canopy harr hplace htag hway hbody hrtr hmask (State.canopyPorts_of_none hmask) rfl

theorem exec_canopy_port {port n q : Nat} (hport : port < 4) (hmask : canMask (s.canopy (k / 144) c) (k % 144) = 2 ^ port)
    (hx : s.crosses i k port n q f.body) :
    exec (.canopyPacketArrive i) s = .next (((s.without i).portSent k port).put (f.sentTo n q)) := by
  have hlt : 2 ^ port / 32 = 0 := Nat.div_eq_of_lt ((Nat.pow_lt_pow_right (by decide) hport).trans (by decide : 2 ^ 4 < 32))
  rw [exec_canopy harr hplace htag hway hbody hrtr hmask (State.canopyPorts_of_port hport hmask)
    (by rw [List.all_cons, State.maySend_of_crosses hx]; rfl), hlt]
  exact congrArg _ (State.sendOn_without_of_crosses hx f)

/-- The endpoint of the core takes, holds or drops the packet. -/
theorem exec_canopy_eject (hmask : canMask (s.canopy (k / 144) c) (k % 144) = 32) (hrole : s.ejectRole k c = none) :
    exec (.canopyPacketArrive i) s =
      .next (if (s.without i).ejects k 0 f.body = .hold then s else (s.without i).eject k 0 f) := by
  have hrole' : (s.without i).ejectRole k c = none := hrole
  rw [exec_canopy harr hplace htag hway hbody hrtr hmask (State.canopyPorts_of_eject hmask) rfl]
  simp only [hrole, State.ejectCanopy, List.foldl_nil, hrole', Option.isNone_none, Bool.and_true, Nat.div_self (by decide : 0 < 32),
    beq_self_eq_true, Bool.true_and, beq_iff_eq, if_true]

end

theorem State.ejects_event (hlogic : s.logicOn k = true) (hrole : s.role k = roleActive) (hclass : e.tclass < 2) :
    s.ejects k 0 (.event e) = if (s.core k).synQ.length < 64 then .take else .hold := by
  have hloader : ((0 : Nat) == 2) = false := rfl
  simp only [State.ejects, hloader, hlogic, hrole, Bool.false_eq_true, if_false, beq_self_eq_true, Bool.true_or, Bool.not_true, or_self]
  rw [if_neg (by decide), if_neg (by omega)]
  rfl

theorem State.ejects_inactive {b : Body} (hlogic : s.logicOn k = true) (hrole : s.role k ≠ roleActive) : s.ejects k 0 b = .drop := by
  have hloader : ((0 : Nat) == 2) = false := rfl
  simp only [State.ejects, hloader, hlogic, Bool.false_eq_true, if_false, beq_false_of_ne hrole, Bool.or_self, Bool.not_false,
    or_true, if_true]

/-! ### An event taken by the endpoint of a core -/

theorem State.eject_event (hbody : f.body = .event e) (htake : s.ejects k 0 f.body = .take) :
    s.eject k 0 f = ((s.sentL k f.body).updCore k fun c => { c with synQ := c.synQ ++ [e] }).synShow k := by
  rw [State.eject, htake]
  dsimp only
  rw [hbody]

theorem State.sentL_reads {P : Nat → Prop} (s : State) (k : Nat) (b : Body) (hcount : ∀ key ∈ [portKey k 4, portKey k 4 + 4], ¬P key)
    (hflits : ∀ key ∈ [portKey k 4 + 8, portKey k 4 + 8 + 4], ¬P key) : Reads P s (s.sentL k b) :=
  (s.count64_reads (hcount _ List.mem_cons_self) (hcount _ (List.mem_cons_of_mem _ List.mem_cons_self))).trans
    (State.count64_reads _ (hflits _ List.mem_cons_self) (hflits _ (List.mem_cons_of_mem _ List.mem_cons_self)))

theorem State.rd64_sentL (s : State) (k : Nat) (b : Body) :
    (s.sentL k b).rd64 (portKey k 4) = (s.rd64 (portKey k 4) + 1) % 2 ^ 64 := by
  have hflits : Reads (· ∈ [portKey k 4, portKey k 4 + 4]) (s.count64 (portKey k 4) 1) (s.sentL k b) := by
    refine State.count64_reads _ ?_ ?_ <;>
      simp only [List.mem_cons, List.not_mem_nil, or_false, not_or] <;> omega
  rw [hflits.rd64_eq (by simp) (by simp)]
  exact s.rd64_wr64_same _ _

theorem State.net_sentL (s : State) (k : Nat) (b : Body) : (s.sentL k b).net = s.net := by
  rw [State.sentL, State.net_count64, State.net_count64]

theorem State.core_sentL (s : State) (k : Nat) (b : Body) (q : Nat) : (s.sentL k b).core q = s.core q := by
  rw [State.sentL, State.core_count64, State.core_count64]

section
variable (s k e) (b : Body)

/-- An event that joins the input queue of core `k`. -/
def State.synTaken : State := ((s.sentL k b).updCore k fun c => { c with synQ := c.synQ ++ [e] }).synShow k

theorem State.net_synTaken : (State.synTaken s k e b).net = s.net := by
  rw [State.synTaken, State.net_synShow, State.net_updCore, State.net_sentL]

theorem State.core_synTaken (q : Nat) :
    (State.synTaken s k e b).core q = if q = k then { s.core k with synQ := (s.core k).synQ ++ [e] } else s.core q := by
  rw [State.synTaken, State.core_synShow, State.core_updCore, State.core_sentL, State.core_sentL]

theorem State.synTaken_reads {P : Nat → Prop} (hsyn : ¬P (Reg.SYN_STATUS k)) (hcount : ∀ key ∈ [portKey k 4, portKey k 4 + 4], ¬P key)
    (hflits : ∀ key ∈ [portKey k 4 + 8, portKey k 4 + 8 + 4], ¬P key) : Reads P s (State.synTaken s k e b) := by
  have hsent := (s.sentL_reads k b hcount hflits).updCore (p := k) (f := fun c => { c with synQ := c.synQ ++ [e] })
  exact hsent.trans (State.synShow_reads _ _ hsyn)

theorem State.rd64_synTaken : (State.synTaken s k e b).rd64 (portKey k 4) = (s.rd64 (portKey k 4) + 1) % 2 ^ 64 := by
  have hshow : Reads (fun key => key ≠ Reg.SYN_STATUS k) (s.sentL k b) (State.synTaken s k e b) :=
    (Reads.refl (s := s.sentL k b).updCore (p := k)).trans (State.synShow_reads _ _ (not_not.2 rfl))
  have hlo : portKey k 4 ≠ Reg.SYN_STATUS k := by simp only [Reg.SYN_STATUS, portKey, coreReg]; omega
  have hhi : portKey k 4 + 4 ≠ Reg.SYN_STATUS k := by simp only [Reg.SYN_STATUS, portKey, coreReg]; omega
  exact (hshow.rd64_eq hlo hhi).trans (s.rd64_sentL k b)

end
end

section
variable {s : State} {i k c : Nat} {remote : Bool} {f : Flight} {e : Ev} (harr : s.arrived i f) (hplace : f.place = .router k)
  (htag : f.tag = .canopy remote (k / 144) c) (hway : f.way = none) (hbody : f.body = .event e) (hrtr : s.rtrState k ≠ rsFaulty)
  (hmask : canMask (s.canopy (k / 144) c) (k % 144) = 32) (hrole : s.ejectRole k c = none) (hlogic : s.logicOn k = true)
include harr hplace htag hway hbody hrtr hmask hrole hlogic

/-- The input queue of an ACTIVE core takes an event while it has room. -/
theorem canopy_taken (hactive : s.role k = roleActive) (hclass : e.tclass < 2) (hroom : (s.core k).synQ.length < 64) :
    completes (.canopyPacketArrive i) s fun t => (t.core k).synQ = (s.core k).synQ ++ [e] ∧ took i [] s t ∧
      t.rd64 (portKey k 4) = (s.rd64 (portKey k 4) + 1) % 2 ^ 64 ∧ otherCores k s t ∧
      otherRegs (Reg.SYN_STATUS k :: ([portKey k 4, portKey k 4 + 4] ++ [portKey k 4 + 8, portKey k 4 + 8 + 4])) s t := by
  have htake : (s.without i).ejects k 0 f.body = .take := by
    rw [hbody, State.ejects_event (s := s.without i) hlogic hactive hclass]
    exact if_pos hroom
  have hexec := exec_canopy_eject harr hplace htag hway hbody hrtr hmask hrole
  rw [htake, if_neg (by decide), State.eject_event hbody htake] at hexec
  refine completes_of (t := State.synTaken (s.without i) k e f.body) hexec ⟨?_, ?_, ?_, fun q hq => ?_, ?_⟩
  · rw [State.core_synTaken, if_pos rfl, State.core_without]
  · rw [took, State.net_synTaken, State.net_without, List.append_nil]
  · exact State.rd64_synTaken _ _ _ _
  · rw [State.core_synTaken, if_neg hq, State.core_without]
  · refine State.synTaken_reads (s.without i) k e f.body (not_not.2 List.mem_cons_self) (fun key hkey => not_not.2 ?_)
      (fun key hkey => not_not.2 ?_)
    · exact List.mem_cons_of_mem _ (List.mem_append_left _ hkey)
    · exact List.mem_cons_of_mem _ (List.mem_append_right _ hkey)

/-- The input queue of an ACTIVE core that holds 64 events leaves the packet where it is. -/
theorem canopy_held (hactive : s.role k = roleActive) (hclass : e.tclass < 2) (hfull : 64 ≤ (s.core k).synQ.length) :
    completes (.canopyPacketArrive i) s fun t => t = s := by
  have hhold : (s.without i).ejects k 0 f.body = .hold := by
    rw [hbody, State.ejects_event (s := s.without i) hlogic hactive hclass]
    exact if_neg (Nat.not_lt.2 hfull)
  refine completes_of (exec_canopy_eject harr hplace htag hway hbody hrtr hmask hrole) ?_
  rw [if_pos hhold]

/-- A core that is not ACTIVE discards a packet and counts it. -/
theorem canopy_dropped {p : Nat} (hinactive : s.role k ≠ roleActive) (hstep : f.step = some p) :
    completes (.canopyPacketArrive i) s fun t => took i [] s t ∧ t.core k = s.core k ∧
      t.rd (Reg.FAB_BAD_PKT k) = sticky (s.rd (Reg.FAB_BAD_PKT k)) 1 ∧
      t.rd (Reg.FAB_PC_EJ (k / 144) p) = s.rd (Reg.FAB_PC_EJ (k / 144) p) + 1 := by
  have hdrop : (s.without i).ejects k 0 f.body = .drop := State.ejects_inactive (s := s.without i) hlogic hinactive
  refine completes_of (exec_canopy_eject harr hplace htag hway hbody hrtr hmask hrole) ?_
  rw [hdrop, if_neg (by decide), State.eject_of_drop hdrop]
  refine ⟨?_, State.core_discard _ _ _ _, State.badPkt_discard _ _ _, State.ej_discard _ hstep⟩
  rw [took, State.net_discard, State.net_without, List.append_nil]

end

theorem linkPeer_stop_grove {g : Nat} (hg : g < 64) : linkPeer (stopNode g) 4 = some (144 * g + 78, 5) := by
  have hcore : ¬stopNode g < 9216 := by unfold stopNode; omega
  have hstop : stopNode g < 9280 := by unfold stopNode; omega
  rw [linkPeer, if_neg hcore, if_pos hstop, stopNode, Nat.add_sub_cancel_left]
  rfl

/-! ### A copy at a stop (R171, R172) -/

theorem stopPort_lt (g x : Nat) : stopPort g x < 4 := by
  unfold stopPort
  repeat' split
  all_goals decide

section
variable {s : State} {i g h c p n q : Nat} {remote : Bool} {f : Flight} {e : Ev}

/-- A copy that has the stop's grove alone to reach goes through port X, under that grove's tag. -/
theorem State.stopCopies_own (htag : f.tag = .canopy remote h c) (hin : f.inPort ≠ 4) (htargets : f.targets = [g]) :
    s.stopCopies g f = [(4, { f with tag := .canopy true g c, targets := [], part := (s.partOf g).getD f.part })] := by
  have hts : s.stopTargets g f = [g] := by
    unfold State.stopTargets
    split
    · rw [if_neg fun hc => hin hc.1, htargets]
    · exact htargets
  have hidx : ¬(remote = false ∧ f.inPort = 4 ∧ h = g) := fun hc => hin hc.2.1
  have honward : ∀ port, [g].filter (fun x => x != g && Machine.stopPort g x == port) = [] := fun port => by simp
  rw [State.stopCopies, htag]
  simp only [hts, if_neg hidx, honward, List.contains_cons, beq_self_eq_true, Bool.true_or, if_true, List.isEmpty_nil]
  rw [List.filterMap_eq_nil_iff.2 fun _ _ => rfl]
  rfl

/-- A copy of the stop's own grove that has one other to reach goes to it under the REMOTE index. -/
theorem State.stopCopies_onward {x : Nat} (htag : f.tag = .canopy false g c) (hin : f.inPort = 4)
    (htargets : canTargets (s.canopy g c) = [x]) (hx : x ≠ g) :
    s.stopCopies g f = [(Machine.stopPort g x, { f with tag := .canopy false g (canRemote (s.canopy g c)), targets := [x] })] := by
  have hts : s.stopTargets g f = [x] := by
    rw [State.stopTargets, htag]
    exact (if_pos ⟨hin, rfl⟩).trans htargets
  have hgx : ¬g = x := fun hc => hx hc.symm
  rw [State.stopCopies, htag]
  dsimp only
  simp only [hts, hin, and_self, if_true]
  generalize hport : Machine.stopPort g x = port
  have hlt : port < 4 := hport ▸ stopPort_lt g x
  match port, hlt with
  | 0, _ | 1, _ | 2, _ | 3, _ => simp [List.range_succ, hport, hx, hgx]

theorem State.stopCounts_own (htag : f.tag = .canopy remote h c) (hin : f.inPort ≠ 4) (htargets : f.targets = [g]) (hstep : f.step = some p) :
    s.stopCounts g f = (s.xin g p 1).inj g p (canEjects (s.canopy g c)) := by
  have hown : f.targets.contains g = true := by rw [htargets]; simp
  rw [State.stopCounts, htag, hstep]
  cases remote
  · exact (if_neg fun hc => hin hc.1).trans (if_pos hown)
  · exact if_pos hown

theorem State.stopCounts_onward {x : Nat} (htag : f.tag = .canopy false g c) (hin : f.inPort = 4)
    (htargets : canTargets (s.canopy g c) = [x]) (hstep : f.step = some p) : s.stopCounts g f = (s.ej g p 1).xout g p 1 := by
  rw [State.stopCounts, htag, hstep]
  refine (if_pos ⟨hin, rfl⟩).trans ?_
  rw [htargets]
  rfl

/-- A stop that has one copy to send over a link that may be crossed counts and sends it. -/
theorem exec_stopReceiveCopy_of_crosses {f' : Flight} {port : Nat} (harr : s.arrived i f) (hplace : f.place = .stop g) (hbody : f.body = .event e)
    (hport : port < 6) (hcopies : (s.without i).stopCopies g f = [(port, f')])
    (hx : s.crosses i (stopNode g) port n q f.body) (hreads : Reads LinkSense (s.without i) ((s.without i).stopCounts g f)) :
    exec (.stopReceiveCopy i) s = .next ((((s.without i).stopCounts g f).portSent (stopNode g) port).put (f'.sentTo n q)) := by
  have hready : (s.without i).stopReady g f = true := by
    rw [State.stopReady, hcopies, List.all_cons, State.maySend_of_crosses hx]
    simp
  have hload : stopLoads g f = false := by rw [stopLoads, hbody]
  rw [exec_stopReceiveCopy harr hplace, hload, hready, State.stopArrive, hcopies]
  have h6 : port ≠ 6 := by omega
  simp only [Bool.not_true, Bool.or_self, Bool.false_eq_true, if_false, List.foldl_cons, List.foldl_nil, State.stopSend, if_neg h6]
  rw [State.sendOn_of_crosses hx hreads]

end

/-- Two wrapping counters move on as a packet leaves. -/
theorem counted_portSent (s : State) {a b : Nat} (x y k port : Nat) (f : Flight) (hne : a ≠ b) (ha : a ∉ portKeys k port 0)
    (hb : b ∉ portKeys k port 0) {t : State} (ht : t = (((s.countWrap a x).countWrap b y).portSent k port).put f) :
    t.net = s.net ++ [f] ∧ t.rd a = s.rd a + BitVec.ofNat 32 x ∧ t.rd b = s.rd b + BitVec.ofNat 32 y ∧
      otherRegs (a :: b :: portKeys k port 0) s t := by
  subst ht
  have hport : ∀ {key}, key ∉ portKeys k port 0 → ((((s.countWrap a x).countWrap b y).portSent k port).put f).rd key =
      ((s.countWrap a x).countWrap b y).rd key := fun {key} hkey =>
    State.portSent_reads (P := (· = key)) _ k port (fun j hj hjk => hkey (hjk ▸ hj)) key rfl
  refine ⟨?_, ?_, ?_, fun key hkey => ?_⟩
  · rw [State.net_put, State.net_portSent]
    rfl
  · rw [hport ha, State.countWrap, State.rd_wr, if_neg hne, State.countWrap, State.rd_wr, if_pos rfl]
  · rw [hport hb, State.countWrap, State.rd_wr, if_pos rfl, State.countWrap, State.rd_wr, if_neg hne.symm]
  · obtain ⟨hka, hkb, hk⟩ : key ≠ a ∧ key ≠ b ∧ key ∉ portKeys k port 0 := by
      simpa only [List.mem_cons, not_or] using hkey
    rw [hport hk, State.countWrap, State.rd_wr, if_neg hkb, State.countWrap, State.rd_wr, if_neg hka]

section
variable {s : State} {i g h c p n q : Nat} {remote : Bool} {f : Flight} {e : Ev} (hg : g < 64) (hp : p < 4) (harr : s.arrived i f)
  (hplace : f.place = .stop g) (hbody : f.body = .event e) (hstep : f.step = some p)

include hp in
theorem stop_counter_not_sense {off : Nat} (hoff : off < 0x10) :
    ¬LinkSense (groveReg g (0xC3010 + off + 0x10 * p)) := by
  simp only [LinkSense, groveReg]
  omega

include hg hp in
theorem stop_counter_not_port {off : Nat} (hoff : off < 0x10) (port : Nat) :
    groveReg g (0xC3010 + off + 0x10 * p) ∉ portKeys (stopNode g) port 0 := by
  rw [portKeys_of_linkKey (linkKey_stop hg port)]
  simp only [List.mem_cons, List.not_mem_nil, or_false, stopPortKey, groveReg]
  omega

include hg hp harr hplace hbody hstep

/-- A copy that reaches the stop of its grove counts as received there, and its ejections as injected. -/
theorem copy_enters_grove (htag : f.tag = .canopy remote h c) (hin : f.inPort ≠ 4) (htargets : f.targets = [g])
    (hx : s.crosses i (stopNode g) 4 n q f.body) :
    completes (.stopReceiveCopy i) s fun t =>
      took i [{ f with tag := .canopy true g c, targets := [], part := (s.partOf g).getD f.part }.sentTo n q] s t ∧
      t.rd (Reg.FAB_PC_XIN g p) = s.rd (Reg.FAB_PC_XIN g p) + 1 ∧
      t.rd (Reg.FAB_PC_INJ g p) = s.rd (Reg.FAB_PC_INJ g p) + BitVec.ofNat 32 (canEjects (s.canopy g c)) ∧
      otherRegs (Reg.FAB_PC_XIN g p :: Reg.FAB_PC_INJ g p :: portKeys (stopNode g) 4 0) s t := by
  have hne : Reg.FAB_PC_XIN g p ≠ Reg.FAB_PC_INJ g p := by simp only [Reg.FAB_PC_XIN, Reg.FAB_PC_INJ, groveReg]; omega
  have hcounts := State.stopCounts_own (s := s.without i) htag hin htargets hstep
  have hsense : Reads LinkSense s ((s.without i).stopCounts g f) := by
    rw [hcounts]
    exact (Reads.countWrap (s := s.without i) (s0 := s) Reads.refl (stop_counter_not_sense hp (off := 0xC) (by decide))).countWrap
      (stop_counter_not_sense hp (off := 0) (by decide))
  have hexec := exec_stopReceiveCopy_of_crosses harr hplace hbody (by decide) (State.stopCopies_own htag hin htargets) hx hsense
  rw [hcounts] at hexec
  exact completes_of hexec (counted_portSent (s.without i) 1 _ (stopNode g) 4 _
    hne
    (stop_counter_not_port hg hp (off := 0xC) (by decide) 4) (stop_counter_not_port hg hp (off := 0) (by decide) 4) rfl)

/-- A copy at the stop of its root counts as ejected and sent, and leaves under the REMOTE index. -/
theorem copy_leaves_root {x : Nat} (htag : f.tag = .canopy false g c) (hin : f.inPort = 4)
    (htargets : canTargets (s.canopy g c) = [x]) (hxg : x ≠ g) (hx : s.crosses i (stopNode g) (stopPort g x) n q f.body) :
    completes (.stopReceiveCopy i) s fun t =>
      took i [{ f with tag := .canopy false g (canRemote (s.canopy g c)), targets := [x] }.sentTo n q] s t ∧
      t.rd (Reg.FAB_PC_EJ g p) = s.rd (Reg.FAB_PC_EJ g p) + 1 ∧ t.rd (Reg.FAB_PC_XOUT g p) = s.rd (Reg.FAB_PC_XOUT g p) + 1 ∧
      otherRegs (Reg.FAB_PC_EJ g p :: Reg.FAB_PC_XOUT g p :: portKeys (stopNode g) (stopPort g x) 0) s t := by
  have hne : Reg.FAB_PC_EJ g p ≠ Reg.FAB_PC_XOUT g p := by simp only [Reg.FAB_PC_EJ, Reg.FAB_PC_XOUT, groveReg]; omega
  have hcounts := State.stopCounts_onward (s := s.without i) htag hin htargets hstep
  have hsense : Reads LinkSense s ((s.without i).stopCounts g f) := by
    rw [hcounts]
    exact (Reads.countWrap (s := s.without i) (s0 := s) Reads.refl (stop_counter_not_sense hp (off := 4) (by decide))).countWrap
      (stop_counter_not_sense hp (off := 8) (by decide))
  have hport := (stopPort_lt g x).trans (by decide : 4 < 6)
  have hexec := exec_stopReceiveCopy_of_crosses harr hplace hbody hport (State.stopCopies_onward htag hin htargets hxg) hx hsense
  rw [hcounts] at hexec
  exact completes_of hexec (counted_portSent (s.without i) 1 1 (stopNode g) _ _
    hne
    (stop_counter_not_port hg hp (off := 4) (by decide) _) (stop_counter_not_port hg hp (off := 8) (by decide) _) rfl)

end

/-- Settles O26: what a router and a stop do with a copy, by the ports its entry names and the groves it has to reach. -/
theorem canopyRouting : Obligations.CanopyRouting := by
  refine ⟨fun s i k c remote f e hk harr hplace htag hway hbody hrtr => ⟨fun hmask => ?_, fun port n q hport hmask hx => ?_,
    fun hmask hrole hlogic hactive hclass => ?_, fun p hmask hrole hlogic hinactive hstep _ => ?_⟩,
    fun s i g h c p f e hg hp harr hplace hbody hstep => ⟨fun remote n q htag hin htargets hx => ?_,
      fun x n q htag hin htargets hxg hx => ?_⟩⟩
  · exact completes_of (exec_canopy_gone harr hplace htag hway hbody hrtr hmask) rfl
  · have hkey := linkKey_router hk port
    exact completes_of (exec_canopy_port harr hplace htag hway hbody hrtr hport hmask hx) ⟨took_portSent s i k port _,
      State.rd64_portSent (s.without i) k port hkey, State.portSent_reads (s.without i) k port fun _ hj => not_not.2 hj⟩
  · rw [portKeys_of_linkKey (linkKey_router hk 4), portKeys_of_linkKey (linkKey_router hk 4)]
    exact ⟨canopy_taken harr hplace htag hway hbody hrtr hmask hrole hlogic hactive hclass,
      canopy_held harr hplace htag hway hbody hrtr hmask hrole hlogic hactive hclass⟩
  · exact canopy_dropped harr hplace htag hway hbody hrtr hmask hrole hlogic hinactive hstep
  · obtain ⟨rfl, rfl⟩ : n = 144 * g + 78 ∧ q = 5 := by
      have hpeer := (linkPeer_stop_grove hg).symm.trans hx.1
      simp only [Option.some.injEq, Prod.mk.injEq] at hpeer
      exact ⟨hpeer.1.symm, hpeer.2.symm⟩
    exact copy_enters_grove hg hp harr hplace hbody hstep htag hin htargets hx
  · exact copy_leaves_root hg hp harr hplace hbody hstep htag hin htargets hxg hx

end Sys2Proof.Machine
end

section
/-! SUPPORT. Tap copies at attachments and ports (11_host_interface.md R405 to R410, R440; 05_fabric.md R176): O46. -/
namespace Sys2Proof.Machine

/-! ### The part of a store that a write of another key leaves -/

namespace Store
variable {β : Type}

theorem filter_insert {p : Nat × β → Bool} {k : Nat} {v : β} (h : p (k, v) = false) (m : Store β) : (insert k v m).filter p = m.filter p := by
  induction m with
  | nil => simp [insert, h]
  | cons e rest ih =>
    rw [insert]
    split
    · rw [List.filter_cons_of_neg (by simp [h])]
    · rw [List.filter_cons, List.filter_cons, ih]

theorem filter_erase {p : Nat × β → Bool} {k : Nat} (h : ∀ v, p (k, v) = false) (m : Store β) : (erase k m).filter p = m.filter p := by
  rw [erase_eq_filter, List.filter_filter]
  refine List.filter_congr fun e _ => ?_
  by_cases hk : e.1 = k
  · rw [← hk] at h
    rw [h, Bool.false_and]
  · rw [decide_eq_true hk, Bool.and_true]

theorem filter_set [DecidableEq β] {p : Nat × β → Bool} {k : Nat} (h : ∀ v, p (k, v) = false) (d : Nat → β) (m : Store β) (v : β) :
    (set d m k v).filter p = m.filter p := by
  unfold set
  split
  · exact filter_erase h m
  · rw [filter_insert (h v), filter_erase h]

end Store

/-! ### The path that covers a key (R407, R440) -/

theorem State.enabledPaths_wr (s : State) {base key : Nat} (h : key < base) (w : Word) : (s.wr key w).enabledPaths base = s.enabledPaths base := by
  refine congrArg (List.map _) (Store.filter_set (fun v => ?_) _ _ _)
  rw [decide_eq_false (Nat.not_le.2 h)]
  rfl

theorem State.pathCovers_wr (s : State) {b key : Nat} (h : key < b) (w : Word) (k : Nat) : (s.wr key w).pathCovers b k = s.pathCovers b k := by
  have hreads : Reads (key < ·) s (s.wr key w) := Reads.refl.wr (Nat.lt_irrefl key)
  rw [State.pathCovers, State.pathCovers, hreads.rf_eq (by omega), hreads.rf_eq (by omega)]

theorem State.hifPath_wr (s : State) {a key : Nat} (h : key < hifPaths a) (w : Word) (k j : Nat) :
    (s.wr key w).hifPath a k j = s.hifPath a k j := by
  simp only [State.hifPath, s.enabledPaths_wr h, s.pathCovers_wr (h.trans_le (Nat.le_add_right _ _))]

theorem State.evpPathOf_wr (s : State) {e key : Nat} (h : key < evpPaths e) (w : Word) (k j : Nat) :
    (s.wr key w).evpPathOf e k j = s.evpPathOf e k j := by
  simp only [State.evpPathOf, s.enabledPaths_wr h, s.pathCovers_wr (h.trans_le (Nat.le_add_right _ _))]

/-! ### Recording a copy -/

theorem State.stepNow_of_reads {P : Nat → Prop} {s t : State} {k : Nat} (hpart : t.part k = s.part k) (h : Reads P s t)
    (hk : P (Reg.STEP_COMMITTED k)) : t.stepNow k = s.stepNow k := by
  rw [State.stepNow, State.stepNow, hpart, h _ hk]

theorem State.hifRecord_held {s : State} {a : Nat} {r : HeldRec} (hearly : s.releasesEarly r = false) (hroom : (s.att a).held.length < relUnits) :
    s.hifRecord a r false = (s.updAtt a fun v => { v with held := v.held ++ [r] }).relShow a := by
  simp only [State.hifRecord, Bool.false_eq_true, if_false, hearly, if_neg (Nat.not_le.2 hroom)]

theorem State.evpRecord_held {s : State} {e : Nat} {r : HeldRec} (hearly : s.releasesEarly r = false) (hroom : (s.port e).held.length < relRecords) :
    s.evpRecord e r false = s.updPort e fun v => { v with held := v.held ++ [r] } := by
  simp only [State.evpRecord, Bool.false_eq_true, if_false, hearly, false_and, if_neg (Nat.not_le.2 hroom)]

theorem State.releasesEarly_off {s : State} {r : HeldRec} (h : s.bit (Reg.STEP_POLICY r.part) 4 = false) : s.releasesEarly r = false := by
  rw [State.releasesEarly, h]
  rfl

theorem State.att_relShow (s : State) (a b : Nat) : (s.relShow a).att b = s.att b := State.att_wf' ..

theorem State.net_relShow (s : State) (a : Nat) : (s.relShow a).net = s.net := State.net_wf' ..

section
variable {s : State} {i p par u : Nat} {f : Flight} {ev : Ev} (harr : s.arrived i f) (hbody : f.body = .event ev)
  (htag : f.tag = .unit u p) (hstep : f.step = some par)

/-- The packet taken and counted as ejected at the grove of its core. -/
def State.tapped (s : State) (i p par : Nat) : State := (s.without i).ej (p / 144) par 1

include htag hstep in
theorem State.tapEjected_eq : (s.without i).tapEjected f = s.tapped i p par := by
  rw [State.tapEjected, htag, hstep]
  rfl

theorem State.tapped_reads {P : Nat → Prop} (s : State) (i : Nat) (h : ¬P (Reg.FAB_PC_EJ (p / 144) par)) : Reads P s (s.tapped i p par) :=
  (Reads.refl (s := s.without i)).countWrap h

theorem State.rd_tapped (s : State) (i p par : Nat) :
    (s.tapped i p par).rd (Reg.FAB_PC_EJ (p / 144) par) = s.rd (Reg.FAB_PC_EJ (p / 144) par) + 1 := by
  rw [State.tapped, State.rd_ej, if_pos rfl, State.rd_without]
  rfl

theorem State.net_tapped (s : State) (i p par : Nat) : (s.tapped i p par).net = s.net.eraseIdx i := State.net_ej ..

theorem State.att_tapped (s : State) (i p par a : Nat) : (s.tapped i p par).att a = s.att a := by
  rw [State.tapped, State.ej, State.countWrap, State.att_wr]
  rfl

theorem State.port_tapped (s : State) (i p par e : Nat) : (s.tapped i p par).port e = s.port e := by
  rw [State.tapped, State.ej, State.countWrap, State.port_wr]
  rfl

theorem State.tap_key_lt {p par : Nat} (hp : p < 9216) (hpar : par < 4) : Reg.FAB_PC_EJ (p / 144) par < 0x4000000 := by
  simp only [Reg.FAB_PC_EJ, groveReg]
  omega

section
include harr hbody htag hstep

/-- What a tap copy does once it has been taken from the fabric. -/
theorem exec_tapCopy_missed {a : Nat} (ha : a < 8) (hplace : f.place = .unit (0xC0 + a))
    (hpath : (s.tapped i p par).hifPath a f.part ev.key = none) :
    exec (.tapCopyArrive i) s = .next ((s.tapped i p par).count (Reg.HIF_EGRESS_MISS a) 1) := by
  have htake := State.takeUnit_of_arrived harr hplace (lo := 0xC0) (hi := 0xC8) (by omega) (by omega)
  simp only [exec, execTapCopyArrive, htake, Nat.add_sub_cancel_left, State.tapEjected_eq htag hstep, hbody, hpath]

theorem exec_tapCopy_recorded {a path : Nat} (ha : a < 8) (hplace : f.place = .unit (0xC0 + a))
    (hpath : (s.tapped i p par).hifPath a f.part ev.key = some path)
    (hruns : (s.tapped i p par).ringRuns (ringBase a .egress ((s.tapped i p par).rf (Reg.HIF_EP_CFG a path) 0 9)) = true) :
    exec (.tapCopyArrive i) s = .next ((s.tapped i p par).hifRecord a (tapRec ((s.tapped i p par).stepNow f.part) f.part path
      ((s.tapped i p par).rf (Reg.HIF_EP_CFG a path) 0 9) ev) ev.retract) := by
  have htake := State.takeUnit_of_arrived harr hplace (lo := 0xC0) (hi := 0xC8) (by omega) (by omega)
  simp only [exec, execTapCopyArrive, htake, Nat.add_sub_cancel_left, State.tapEjected_eq htag hstep, hbody, hpath, hruns,
    Bool.not_true, Bool.false_eq_true, if_false]

theorem exec_portTapCopy_missed {e : Nat} (he : e < 2) (hplace : f.place = .unit (0xD0 + e))
    (hpath : (s.tapped i p par).evpPathOf e f.part ev.key = none) :
    exec (.portTapCopy i) s = .next ((s.tapped i p par).count (Reg.EVP_EGRESS_MISS e) 1) := by
  have htake := State.takeUnit_of_arrived harr hplace (lo := 0xD0) (hi := 0xD2) (by omega) (by omega)
  simp only [exec, execPortTapCopy, htake, Nat.add_sub_cancel_left, State.tapEjected_eq htag hstep, hbody, hpath]

theorem exec_portTapCopy_recorded {e path : Nat} (he : e < 2) (hplace : f.place = .unit (0xD0 + e))
    (hpath : (s.tapped i p par).evpPathOf e f.part ev.key = some path) :
    exec (.portTapCopy i) s = .next ((s.tapped i p par).evpRecord e (tapRec ((s.tapped i p par).stepNow f.part) f.part path
      ((s.tapped i p par).rf (evpPath e path 0) 0 20) ev) ev.retract) := by
  have htake := State.takeUnit_of_arrived harr hplace (lo := 0xD0) (hi := 0xD2) (by omega) (by omega)
  simp only [exec, execPortTapCopy, htake, Nat.add_sub_cancel_left, State.tapEjected_eq htag hstep, hbody, hpath]

end

/-! ### What the taken copy leaves of the paths, the rings and the policy -/

variable (hp : p < 9216) (hpar : par < 4)
include hp hpar

theorem State.tapped_reads_high : Reads (0x4000000 ≤ ·) s (s.tapped i p par) :=
  State.tapped_reads s i (Nat.not_le.2 (State.tap_key_lt hp hpar))

theorem State.hifPath_tapped (a k key : Nat) : (s.tapped i p par).hifPath a k key = s.hifPath a k key := by
  refine State.hifPath_wr (s.without i) ((State.tap_key_lt hp hpar).trans ?_) _ k key
  simp only [hifPaths, attReg]
  omega

theorem State.evpPathOf_tapped (e k key : Nat) : (s.tapped i p par).evpPathOf e k key = s.evpPathOf e k key := by
  refine State.evpPathOf_wr (s.without i) ((State.tap_key_lt hp hpar).trans ?_) _ k key
  simp only [evpPaths]
  omega

theorem State.epCfg_tapped (a path : Nat) : (s.tapped i p par).rf (Reg.HIF_EP_CFG a path) 0 9 = s.rf (Reg.HIF_EP_CFG a path) 0 9 :=
  (State.tapped_reads_high hp hpar).rf_eq (by simp only [Reg.HIF_EP_CFG, attReg]; omega) _ _

theorem State.evpPathCfg_tapped (e path : Nat) : (s.tapped i p par).rf (evpPath e path 0) 0 20 = s.rf (evpPath e path 0) 0 20 :=
  (State.tapped_reads_high hp hpar).rf_eq (by simp only [evpPath]; omega) _ _

theorem State.ringRuns_tapped (a r : Nat) :
    (s.tapped i p par).ringRuns (ringBase a .egress r) = s.ringRuns (ringBase a .egress r) := by
  rw [State.ringRuns, State.ringRuns, (State.tapped_reads_high hp hpar).rf_eq (by simp only [ringBase, attReg]; omega)]

theorem State.stepNow_tapped (k : Nat) : (s.tapped i p par).stepNow k = s.stepNow k :=
  State.stepNow_of_reads (State.part_wr ..) (State.tapped_reads_high hp hpar) (by simp only [Reg.STEP_COMMITTED]; omega)

theorem State.releasesEarly_tapped (hpol : s.bit (Reg.STEP_POLICY f.part) 4 = false) (step path ring : Nat) :
    (s.tapped i p par).releasesEarly (tapRec step f.part path ring ev) = false :=
  State.releasesEarly_off (((State.tapped_reads_high hp hpar).bit_eq (by simp only [tapRec, Reg.STEP_POLICY]; omega) 4).trans hpol)

/-! ### The outcomes -/

include harr hbody htag hstep

/-- A copy that no path of the attachment covers is counted there. -/
theorem tapCopy_missed {a : Nat} (ha : a < 8) (hplace : f.place = .unit (0xC0 + a)) (hpath : s.hifPath a f.part ev.key = none) :
    completes (.tapCopyArrive i) s fun t => t.att a = s.att a ∧
      t.rd (Reg.HIF_EGRESS_MISS a) = sticky (s.rd (Reg.HIF_EGRESS_MISS a)) 1 ∧
      t.rd (Reg.FAB_PC_EJ (p / 144) par) = s.rd (Reg.FAB_PC_EJ (p / 144) par) + 1 ∧ took i [] s t ∧
      otherRegs [Reg.FAB_PC_EJ (p / 144) par, Reg.HIF_EGRESS_MISS a] s t := by
  have hne : Reg.FAB_PC_EJ (p / 144) par ≠ Reg.HIF_EGRESS_MISS a := by
    simp only [Reg.FAB_PC_EJ, groveReg, Reg.HIF_EGRESS_MISS, attReg]
    omega
  have hmiss : (s.tapped i p par).rd (Reg.HIF_EGRESS_MISS a) = s.rd (Reg.HIF_EGRESS_MISS a) :=
    State.tapped_reads (P := (· ≠ Reg.FAB_PC_EJ (p / 144) par)) s i (not_not.2 rfl) _ hne.symm
  refine completes_of (exec_tapCopy_missed harr hbody htag hstep ha hplace ((State.hifPath_tapped hp hpar _ _ _).trans hpath))
    ⟨by rw [State.att_count, State.att_tapped], ?_, ?_, ?_, (State.tapped_reads s i (by simp)).count (by simp)⟩
  · rw [State.rd_count, if_pos rfl, hmiss]
  · rw [State.rd_count, if_neg hne, State.rd_tapped]
  · rw [took, State.net_count, State.net_tapped, List.append_nil]

/-- A copy that a path covers joins the release buffer of the attachment. -/
theorem tapCopy_held {a path : Nat} (ha : a < 8) (hplace : f.place = .unit (0xC0 + a)) (hpath : s.hifPath a f.part ev.key = some path)
    (hruns : s.ringRuns (ringBase a .egress (s.rf (Reg.HIF_EP_CFG a path) 0 9)) = true) (hroom : (s.att a).held.length < relUnits)
    (hpol : s.bit (Reg.STEP_POLICY f.part) 4 = false) (hplain : ev.retract = false) :
    completes (.tapCopyArrive i) s fun t =>
      (t.att a).held = (s.att a).held ++ [tapRec (s.stepNow f.part) f.part path (s.rf (Reg.HIF_EP_CFG a path) 0 9) ev] ∧
      t.rd (Reg.FAB_PC_EJ (p / 144) par) = s.rd (Reg.FAB_PC_EJ (p / 144) par) + 1 ∧ took i [] s t ∧
      otherRegs [Reg.FAB_PC_EJ (p / 144) par, Reg.HIF_REL_STATUS a] s t := by
  have hne : Reg.FAB_PC_EJ (p / 144) par ≠ Reg.HIF_REL_STATUS a := by
    simp only [Reg.FAB_PC_EJ, groveReg, Reg.HIF_REL_STATUS, attReg]
    omega
  have hexec := exec_tapCopy_recorded harr hbody htag hstep ha hplace ((State.hifPath_tapped hp hpar _ _ _).trans hpath)
    (by rw [State.epCfg_tapped hp hpar, State.ringRuns_tapped hp hpar, hruns])
  rw [State.epCfg_tapped hp hpar, State.stepNow_tapped hp hpar, hplain,
    State.hifRecord_held (State.releasesEarly_tapped hp hpar hpol _ _ _) (by rw [State.att_tapped]; exact hroom)] at hexec
  refine completes_of hexec ⟨?_, ?_, ?_, ?_⟩
  · rw [State.att_relShow, State.att_updAtt, if_pos rfl, State.att_tapped]
  · rw [State.relShow, State.rd_wf', if_neg hne, State.rd_updAtt, State.rd_tapped]
  · rw [took, State.net_relShow, State.net_updAtt, State.net_tapped, List.append_nil]
  · exact (State.tapped_reads s i (by simp)).trans (Reads.wf' (s := (s.tapped i p par).updAtt a _) Reads.refl (by simp))

/-- A copy that no path of the port covers is counted there. -/
theorem portTapCopy_missed {e : Nat} (he : e < 2) (hplace : f.place = .unit (0xD0 + e)) (hpath : s.evpPathOf e f.part ev.key = none) :
    completes (.portTapCopy i) s fun t => t.port e = s.port e ∧
      t.rd (Reg.EVP_EGRESS_MISS e) = sticky (s.rd (Reg.EVP_EGRESS_MISS e)) 1 ∧ took i [] s t ∧
      otherRegs [Reg.FAB_PC_EJ (p / 144) par, Reg.EVP_EGRESS_MISS e] s t := by
  have hmiss : (s.tapped i p par).rd (Reg.EVP_EGRESS_MISS e) = s.rd (Reg.EVP_EGRESS_MISS e) :=
    State.tapped_reads_high hp hpar _ (by simp only [Reg.EVP_EGRESS_MISS]; omega)
  refine completes_of (exec_portTapCopy_missed harr hbody htag hstep he hplace ((State.evpPathOf_tapped hp hpar _ _ _).trans hpath))
    ⟨by rw [State.port_count, State.port_tapped], ?_, ?_, (State.tapped_reads s i (by simp)).count (by simp)⟩
  · rw [State.rd_count, if_pos rfl, hmiss]
  · rw [took, State.net_count, State.net_tapped, List.append_nil]

/-- A copy that a path covers joins the release buffer of the port. -/
theorem portTapCopy_held {e path : Nat} (he : e < 2) (hplace : f.place = .unit (0xD0 + e)) (hpath : s.evpPathOf e f.part ev.key = some path)
    (hroom : (s.port e).held.length < relRecords) (hpol : s.bit (Reg.STEP_POLICY f.part) 4 = false) (hplain : ev.retract = false) :
    completes (.portTapCopy i) s fun t =>
      (t.port e).held = (s.port e).held ++ [tapRec (s.stepNow f.part) f.part path (s.rf (evpPath e path 0) 0 20) ev] ∧
      took i [] s t ∧ otherRegs [Reg.FAB_PC_EJ (p / 144) par] s t := by
  have hexec := exec_portTapCopy_recorded harr hbody htag hstep he hplace ((State.evpPathOf_tapped hp hpar _ _ _).trans hpath)
  rw [State.evpPathCfg_tapped hp hpar, State.stepNow_tapped hp hpar, hplain,
    State.evpRecord_held (State.releasesEarly_tapped hp hpar hpol _ _ _) (by rw [State.port_tapped]; exact hroom)] at hexec
  refine completes_of hexec ⟨?_, ?_, (State.tapped_reads s i (by simp)).updPort⟩
  · rw [State.port_updPort, if_pos rfl, State.port_tapped]
  · rw [took, State.net_updPort, State.net_tapped, List.append_nil]

end

/-- Settles O46: a copy is taken and counted as ejected, then held by the path that covers it or counted as missed. -/
theorem tapCopiesReachBuffers : Obligations.TapCopiesReachBuffers := by
  intro s i u p par f ev harr hbody htag hstep hp hpar _ hpol hplain
  exact ⟨fun a path ha hplace hpath hruns hroom => tapCopy_held harr hbody htag hstep hp hpar ha hplace hpath hruns hroom hpol hplain,
    fun a ha hplace hpath => tapCopy_missed harr hbody htag hstep hp hpar ha hplace hpath,
    fun e path he hplace hpath hroom => portTapCopy_held harr hbody htag hstep hp hpar he hplace hpath hroom hpol hplain,
    fun e he hplace hpath => portTapCopy_missed harr hbody htag hstep hp hpar he hplace hpath⟩

end Sys2Proof.Machine
end

section
/-! SUPPORT. Power domains and memory banks (12_power.md R465 to R485; 05_fabric.md R190): O53. -/
namespace Sys2Proof.Machine

/-! ### The state of a domain (R476, R477) -/

section
variable {s : State} {d e : Dom}

theorem State.pw_eq (s : State) (d : Dom) : s.pw d = s.rf (d.base + 4) 29 3 := rfl

theorem State.pw_setPw (s : State) (d : Dom) (x : Nat) : (s.setPw d x).pw d = x % 8 := s.rf_wf'_same (d.base + 4) x (by decide)

theorem State.setPw_reads {P : Nat → Prop} (s : State) (x : Nat) (h : ¬P (d.base + 4)) : Reads P s (s.setPw d x) := Reads.refl.wf' h

theorem State.pw_setStage (v : Option (Nat × Nat)) : (s.setStage e v).pw d = s.pw d := rfl

theorem State.stage_setStage (s : State) (d : Dom) (v : Option (Nat × Nat)) : (s.setStage d v).stage d = v := Store.get_set_same ..

theorem State.stage_wf' (key lo n v : Nat) : (s.wf' key lo n v).stage d = s.stage d := rfl

theorem State.heldReq_wf' (key lo n v : Nat) : (s.wf' key lo n v).heldReq d = s.heldReq d := rfl

theorem State.heldReq_count (key n : Nat) : (s.count key n).heldReq d = s.heldReq d := rfl

theorem State.heldReq_setPw (x : Nat) : (s.setPw e x).heldReq d = s.heldReq d := State.heldReq_wf' ..

theorem State.heldReq_setStage (v : Option (Nat × Nat)) : (s.setStage e v).heldReq d = s.heldReq d := rfl

theorem State.heldReq_holdReq (s : State) (d : Dom) (v : Nat) (shown : Bool) : (s.holdReq d v shown).heldReq d = v :=
  Store.get_set_same ..

theorem State.pw_holdReq (s : State) (d : Dom) (v : Nat) (shown : Bool) : (s.holdReq d v shown).pw d = s.pw d :=
  State.rf_wf'_above _ _ _ (by decide) (by decide)

theorem State.applyHeld_none (h : s.heldReq d = 0) : s.applyHeld d = s := by
  rw [State.applyHeld, h]

/-- A write to the request register of a domain leaves its state. -/
theorem State.pw_request (s : State) (d : Dom) (v : Nat) : (s.wf' d.base 0 2 v).pw d = s.pw d :=
  (Reads.refl (P := (· = d.base + 4))).wf' (by omega) |>.rf_eq rfl _ _

/-! ### Requests (R476, R477) -/

theorem exec_powerRequest {a addr : Nat} {v : Word} (haddr : Dom.ofAddr addr = some d) (hbase : addr = d.base) (hlow : addr < 0x4000000)
    (hok : s.access a addr = .ok) (hdom : s.fuses.hasDom d = true) :
    exec (.powerRequest a addr v) s = .next
      (let c := s.refusal d (fld v 0 2)
       if c ≠ pcNone then (s.wf' (d.base + 4) 28 1 1).wf' (d.base + 4) 24 4 c
       else if fld v 0 2 = 0 then s.powerOn d
       else s.askDown d (fld v 0 2)) := by
  simp only [exec, execPowerRequest, haddr, if_pos (And.intro hbase hlow), State.guard_ok hok, State.powerReq, hdom, Bool.true_eq_false,
    if_false]

/-- Every domain below the grove windows' end is a core's or a grove's. -/
theorem Dom.ne_hbm (h : d.base < 0x4000000) (st : Nat) : d ≠ .hbm st := by
  rintro rfl
  simp only [Dom.base] at h
  omega

theorem powerRequest_reserved {a addr : Nat} {v : Word} (haddr : Dom.ofAddr addr = some d) (hdom : s.fuses.hasDom d = true)
    (hbase : addr = d.base) (hlow : addr < 0x4000000) (hok : s.access a addr = .ok) (hv : fld v 0 2 = 3) :
    completes (.powerRequest a addr v) s fun t => t.bit (addr + 4) 28 = true ∧ t.rf (addr + 4) 24 4 = pcReserved ∧
      t.pw d = s.pw d ∧ otherRegs [addr + 4] s t := by
  refine completes_of (exec_powerRequest haddr hbase hlow hok hdom) ?_
  have href : s.refusal d 3 = pcReserved := by unfold State.refusal; exact if_pos rfl
  dsimp only
  rw [hv, href, if_pos (by decide), hbase]
  refine ⟨?_, State.rf_wf'_same _ _ _ (by decide), ?_, (Reads.refl.wf' (by simp)).wf' (by simp)⟩
  · have hbit := (s.wf' (d.base + 4) 28 1 1).rf_wf'_above (d.base + 4) pcReserved (lo := 24) (n := 4) (lo' := 28) (n' := 1)
      (by decide) (by decide)
    rw [s.rf_wf'_same _ _ (by decide)] at hbit
    rw [State.bit, tst, ← State.rf, hbit]
    rfl
  · rw [State.pw_eq, State.rf_wf'_above _ _ _ (by decide) (by decide), State.rf_wf'_above _ _ _ (by decide) (by decide),
      ← State.pw_eq]

theorem State.lost_on (hon : s.pw d = pwOn) (hstage : s.stage d = none) : s.lost d = false := by
  rw [State.lost, hon, hstage]
  rfl

/-- Entry begins with its first stage where nothing is lost and no other domain has to go first. -/
theorem State.beginEntry_first (target : Nat) (hlost : s.lost d = false) (hfirst : ∀ p, d = .mem p → s.pw (.logic p) ≠ pwEntering) :
    s.beginEntry d target = (s.setPw d pwEntering).setStage d (some (1, target)) := by
  unfold State.beginEntry
  rw [hlost]
  cases d
  case mem p =>
    have hwaits : (s.pw (.logic p) == pwEntering) = false := beq_false_of_ne (hfirst p rfl)
    simp only [hwaits, Bool.false_eq_true, if_false, Nat.add_zero]
  all_goals rfl

theorem powerRequest_entry {a addr : Nat} {v : Word} (haddr : Dom.ofAddr addr = some d) (hdom : s.fuses.hasDom d = true)
    (hbase : addr = d.base) (hlow : addr < 0x4000000) (hok : s.access a addr = .ok) (hv : fld v 0 2 = 2) (href : s.refusal d 2 = pcNone)
    (hon : s.pw d = pwOn) (hstage : s.stage d = none) (hfirst : ∀ p, d = .mem p → s.pw (.logic p) ≠ pwEntering) :
    completes (.powerRequest a addr v) s fun t => t.pw d = pwEntering ∧ t.stage d = some (1, 2) ∧ t.rf addr 0 2 = 2 ∧
      otherRegs [addr, addr + 4] s t := by
  refine completes_of (exec_powerRequest haddr hbase hlow hok hdom) ?_
  subst hbase
  have hreq : s.askDown d 2 = ((s.wf' d.base 0 2 2).setPw d pwEntering).setStage d (some (1, 2)) := by
    have hon' : (s.wf' d.base 0 2 2).pw d = pwOn := (s.pw_request d 2).trans hon
    have hfirst' : ∀ p, d = .mem p → (s.wf' d.base 0 2 2).pw (.logic p) ≠ pwEntering := by
      rintro p rfl
      have hreads : Reads (· = (Dom.logic p).base + 4) s (s.wf' (Dom.mem p).base 0 2 2) :=
        Reads.refl.wf' (by simp only [Dom.base, coreReg]; omega)
      rw [State.pw_eq, hreads.rf_eq rfl]
      exact hfirst p rfl
    rw [State.askDown, hon, if_neg (by decide), if_pos (.inl rfl), State.beginEntry_first 2 (State.lost_on hon' hstage) hfirst']
  dsimp only
  rw [hv, href, if_neg (not_not.2 rfl), if_neg (by decide), hreq]
  refine ⟨?_, State.stage_setStage _ d _, ?_, ((Reads.refl.wf' (by simp)).trans (State.setPw_reads _ _ (by simp))).setStage⟩
  · rw [State.pw_setStage, State.pw_setPw]
    rfl
  · have hreads : Reads (· = d.base) (s.wf' d.base 0 2 2) (((s.wf' d.base 0 2 2).setPw d pwEntering).setStage d (some (1, 2))) :=
      (State.setPw_reads _ _ (by omega)).setStage
    rw [hreads.rf_eq rfl, State.rf_wf'_same _ _ _ (by decide)]
    rfl

/-- A wake of a domain that is OFF begins with nothing kept. -/
theorem State.askOn1_off (hd : ∀ st, d ≠ .hbm st) (hoff : s.pw d = pwOff) :
    s.askOn1 d = ((s.wf' d.base 0 2 0).setPw d pwWaking).setStage d (some (0, 2)) := by
  have hlost : (s.wf' d.base 0 2 0).lost d = true := by
    rw [State.lost, s.pw_request, hoff]
    rfl
  have hwake : (s.wf' d.base 0 2 0).beginWake d = ((s.wf' d.base 0 2 0).setPw d pwWaking).setStage d (some (0, 2)) := by
    unfold State.beginWake
    rw [hlost]
    cases d
    case hbm st => exact absurd rfl (hd st)
    all_goals rfl
  unfold State.askOn1
  rw [hoff]
  cases d
  case hbm st => exact absurd rfl (hd st)
  all_goals exact (if_neg Bool.false_ne_true).trans ((if_pos (.inr rfl)).trans hwake)

theorem powerRequest_wake {a addr : Nat} {v : Word} (haddr : Dom.ofAddr addr = some d) (hdom : s.fuses.hasDom d = true)
    (hbase : addr = d.base) (hlow : addr < 0x4000000) (hok : s.access a addr = .ok) (hv : fld v 0 2 = 0) (href : s.refusal d 0 = pcNone)
    (hoff : s.pw d = pwOff) (hneeds : d.needs = []) :
    completes (.powerRequest a addr v) s fun t => t.pw d = pwWaking ∧ t.stage d = some (0, 2) ∧ t.rf addr 0 2 = 0 ∧
      otherRegs [addr, addr + 4] s t := by
  refine completes_of (exec_powerRequest haddr hbase hlow hok hdom) ?_
  subst hbase
  have hreq : s.powerOn d = ((s.wf' d.base 0 2 0).setPw d pwWaking).setStage d (some (0, 2)) := by
    rw [State.powerOn, if_pos hdom, hneeds, List.foldl_nil, State.askOn1_off (Dom.ne_hbm hlow) hoff]
  dsimp only
  rw [hv, href, if_neg (not_not.2 rfl), if_pos rfl, hreq]
  refine ⟨?_, State.stage_setStage _ d _, ?_, ((Reads.refl.wf' (by simp)).trans (State.setPw_reads _ _ (by simp))).setStage⟩
  · rw [State.pw_setStage, State.pw_setPw]
    rfl
  · have hreads : Reads (· = d.base) (s.wf' d.base 0 2 0) (((s.wf' d.base 0 2 0).setPw d pwWaking).setStage d (some (0, 2))) :=
      (State.setPw_reads _ _ (by omega)).setStage
    rw [hreads.rf_eq rfl, State.rf_wf'_same _ _ _ (by decide)]
    rfl

/-! ### Entry, stage by stage (R476, R477) -/

section
variable {addr n x : Nat} (haddr : Dom.ofAddr addr = some d) (hpw : s.pw d = pwEntering)
include haddr hpw

theorem exec_powerEntryStage_middle (hstage : s.stage d = some (n, x)) (hn : 0 < n) (hn4 : n < 4) :
    exec (.powerEntryStage addr) s = .next
      (if s.heldReq d = 1 then ((s.setPw d pwAborting).holdReq d 0 false).count (d.base + 12) 1 else s.setStage d (some (n + 1, x))) := by
  simp only [exec, execPowerEntryStage, haddr, hpw, hstage, pwEntering, if_neg (Nat.pos_iff_ne_zero.1 hn), if_pos hn4]
  split <;> rfl

theorem exec_powerEntryStage_last (hstage : s.stage d = some (4, 2)) :
    exec (.powerEntryStage addr) s =
      .next ((((((s.setPw d 2).setStage d none).powered d 2).releaseMem d).applyHeld d)) := by
  simp only [exec, execPowerEntryStage, haddr, hpw, hstage, pwEntering]
  rfl

theorem powerEntryStage_goes_on (hstage : s.stage d = some (n, x)) (hn : 0 < n) (hn4 : n < 4) (hheld : s.heldReq d ≠ 1) :
    completes (.powerEntryStage addr) s fun t => t.stage d = some (n + 1, x) ∧ otherRegs [] s t := by
  refine completes_of (exec_powerEntryStage_middle haddr hpw hstage hn hn4) ?_
  rw [if_neg hheld]
  exact ⟨State.stage_setStage s d _, Reads.refl.setStage⟩

/-- A request taken back in the middle of an entry aborts it and counts at its domain. -/
theorem powerEntryStage_aborts (hstage : s.stage d = some (n, x)) (hn : 0 < n) (hn4 : n < 4) (hheld : s.heldReq d = 1) :
    completes (.powerEntryStage addr) s fun t => t.pw d = pwAborting ∧ t.heldReq d = 0 ∧
      t.rd (d.base + 12) = sticky (s.rd (d.base + 12)) 1 ∧ otherRegs [d.base + 4, d.base + 12] s t := by
  have hreads : ∀ {P : Nat → Prop}, ¬P (d.base + 4) → Reads P s ((s.setPw d pwAborting).holdReq d 0 false) := fun hne =>
    (State.setPw_reads s _ hne).holdReq hne
  refine completes_of (exec_powerEntryStage_middle haddr hpw hstage hn hn4) ?_
  rw [if_pos hheld]
  refine ⟨?_, ?_, ?_, (hreads (by simp)).count (by simp)⟩
  · have hcount : Reads (· = d.base + 4) ((s.setPw d pwAborting).holdReq d 0 false)
        (((s.setPw d pwAborting).holdReq d 0 false).count (d.base + 12) 1) := Reads.refl.count (by omega)
    rw [State.pw_eq, hcount.rf_eq rfl, ← State.pw_eq, State.pw_holdReq, State.pw_setPw]
    rfl
  · rw [State.heldReq_count, State.heldReq_holdReq]
  · rw [State.rd_count, if_pos rfl, hreads (P := (· = d.base + 12)) (by omega) _ rfl]

/-- The last stage of an entry into OFF. -/
theorem powerEntryStage_off (hstage : s.stage d = some (4, 2)) (hheld : s.heldReq d = 0) (hkind : ∃ x, d = .mem x ∨ d = .sync x ∨ d = .pls x) :
    completes (.powerEntryStage addr) s fun t => t.pw d = pwOff ∧ t.stage d = none ∧ otherRegs [d.base + 4] s t := by
  have hplain : (((s.setPw d 2).setStage d none).powered d 2).releaseMem d = (s.setPw d 2).setStage d none := by
    obtain ⟨x, rfl | rfl | rfl⟩ := hkind <;> rfl
  have hheld' : ((s.setPw d 2).setStage d none).heldReq d = 0 := by rw [State.heldReq_setStage, State.heldReq_setPw, hheld]
  refine completes_of (exec_powerEntryStage_last haddr hpw hstage) ?_
  rw [hplain, State.applyHeld_none hheld']
  refine ⟨?_, State.stage_setStage _ d _, (State.setPw_reads s _ (by simp)).setStage⟩
  rw [State.pw_setStage, State.pw_setPw]
  rfl

/-- A router that has entered OFF shows it. -/
theorem powerEntryStage_router {p : Nat} (hd : d = .router p) (hstage : s.stage d = some (4, 2)) (hheld : s.heldReq d = 0) :
    completes (.powerEntryStage addr) s fun t => t.pw d = pwOff ∧ t.stage d = none ∧ t.rf (Reg.FAB_RTR_STATUS p) 0 3 = rsOff ∧
      otherRegs [d.base + 4, Reg.FAB_RTR_STATUS p] s t := by
  subst hd
  have hshow : (((s.setPw (.router p) 2).setStage (.router p) none).powered (.router p) 2).releaseMem (.router p) =
      ((s.setPw (.router p) 2).setStage (.router p) none).wf' (Reg.FAB_RTR_STATUS p) 0 3 rsOff := rfl
  have hheld' : (((s.setPw (.router p) 2).setStage (.router p) none).wf' (Reg.FAB_RTR_STATUS p) 0 3 rsOff).heldReq (.router p) = 0 := by
    rw [State.heldReq_wf', State.heldReq_setStage, State.heldReq_setPw, hheld]
  have hpower : Reads (· = (Dom.router p).base + 4) ((s.setPw (.router p) 2).setStage (.router p) none)
      (((s.setPw (.router p) 2).setStage (.router p) none).wf' (Reg.FAB_RTR_STATUS p) 0 3 rsOff) :=
    Reads.refl.wf' (by simp only [Dom.base, Reg.FAB_RTR_STATUS, coreReg]; omega)
  refine completes_of (exec_powerEntryStage_last haddr hpw hstage) ?_
  rw [hshow, State.applyHeld_none hheld']
  refine ⟨?_, ?_, ?_, ((State.setPw_reads s _ (by simp)).setStage).wf' (by simp)⟩
  · rw [State.pw_eq, hpower.rf_eq rfl, ← State.pw_eq, State.pw_setStage, State.pw_setPw]
    rfl
  · rw [State.stage_wf', State.stage_setStage]
  · exact State.rf_wf'_same _ (Reg.FAB_RTR_STATUS p) rsOff (by decide)

end

/-! ### Aborts and wakes (R471, R472, R477) -/

theorem State.mem_setPw (s : State) (d : Dom) (x : Nat) : (s.setPw d x).mem = s.mem := State.mem_wr s _ _

theorem State.mem_setStage (s : State) (d : Dom) (v : Option (Nat × Nat)) : (s.setStage d v).mem = s.mem := rfl

/-- An abort of a domain whose memory is not in an entry ends with the domain ON. -/
theorem exec_powerAbortDone {addr : Nat} (haddr : Dom.ofAddr addr = some d) (hpw : s.pw d = pwAborting) (hheld : s.heldReq d = 0)
    (hmem : ∀ p, d = .logic p → s.pw (.mem p) ≠ pwEntering) :
    exec (.powerAbortDone addr) s = .next ((s.setPw d pwOn).setStage d none) := by
  have hheld' : ((s.setPw d pwOn).setStage d none).heldReq d = 0 := by rw [State.heldReq_setStage, State.heldReq_setPw, hheld]
  simp only [exec, execPowerAbortDone, haddr, hpw, if_true]
  cases d
  case logic p =>
    have hmem' : ((s.setPw (.logic p) pwOn).setStage (.logic p) none).pw (.mem p) ≠ 3 := by
      have hreads : Reads (· = (Dom.mem p).base + 4) s (s.setPw (.logic p) pwOn) :=
        State.setPw_reads s _ (by simp only [Dom.base, coreReg]; omega)
      rw [State.pw_setStage, State.pw_eq, hreads.rf_eq rfl]
      exact hmem p rfl
    dsimp only
    split
    · next h3 _ => exact absurd h3 hmem'
    · rw [State.applyHeld_none hheld']
  all_goals exact congrArg _ (State.applyHeld_none hheld')

theorem powerAbortDone_on {addr : Nat} (haddr : Dom.ofAddr addr = some d) (hpw : s.pw d = pwAborting) (hheld : s.heldReq d = 0)
    (hmem : ∀ p, d = .logic p → s.pw (.mem p) ≠ pwEntering) :
    completes (.powerAbortDone addr) s fun t => t.pw d = pwOn ∧ t.stage d = none ∧ t.mem = s.mem ∧ otherRegs [d.base + 4] s t := by
  refine completes_of (exec_powerAbortDone haddr hpw hheld hmem)
    ⟨?_, State.stage_setStage _ d _, ?_, (State.setPw_reads s _ (by simp)).setStage⟩
  · rw [State.pw_setStage, State.pw_setPw]
    rfl
  · rw [State.mem_setStage, State.mem_setPw]

theorem State.grove_setPw (s : State) (d : Dom) (x g : Nat) : (s.setPw d x).grove g = s.grove g := State.grove_wf' ..

theorem State.grove_setStage (s : State) (d : Dom) (v : Option (Nat × Nat)) (g : Nat) : (s.setStage d v).grove g = s.grove g := rfl

/-! ### A core memory that wakes (R472, R477) -/

theorem State.rd_resetRegs (s : State) (p : Nat → Bool) (key : Nat) :
    (s.resetRegs p).rd key = if p key then resetWord s.fuses s.up key else s.rd key := by
  rw [State.rd, State.resetRegs]
  dsimp only
  rw [← Store.clearAll_eq_filter, Store.get_clearAll]
  rfl

/-- After a reset every bank is at CORE. -/
theorem resetWord_bankOwner (f : Fuses) (up : Bool) {p b : Nat} (hp : p < 9216) (hb : b < 16) :
    resetWord f up (Reg.MEM_BANK_OWNER p b) = 0 := by
  have hrow : ∀ c : Fin 16, (RegTab.core.find? (·.covers (0xF00 + 0x4 * c.val))).map (·.reset) = some 0 := by decide
  obtain ⟨r, hr, hreset⟩ := Option.map_eq_some_iff.1 (hrow ⟨b, hb⟩)
  have hfind : findReg (.core p) (0xF00 + 0x4 * b) = some r := hr
  have hfuse : fuseWord f up (.core p) (0xF00 + 0x4 * b) = 0 := by
    rw [fuseWord]
    rw [if_neg (by omega), if_neg (by omega)]
  rw [resetWord, Reg.MEM_BANK_OWNER, locate_coreReg hp (by omega)]
  dsimp only
  rw [hfind]
  dsimp only
  rw [hreset, hfuse]
  rfl

theorem State.sendImage_none {g : Nat} (h : (s.grove g).replay = none) : s.sendImage g = s := by
  rw [State.sendImage, h]

section
variable (s) (p : Nat)

/-- A core memory brought ON. -/
def State.memWoken : State := ((s.setPw (.mem p) pwOn).setStage (.mem p) none).count ((Dom.mem p).base + 8) 1

theorem State.mem_memWoken : (s.memWoken p).mem = s.mem := by
  rw [State.memWoken, State.mem_count, State.mem_setStage, State.mem_setPw]

theorem State.memWoken_reads {P : Nat → Prop} (hstate : ¬P ((Dom.mem p).base + 4)) (hwakes : ¬P ((Dom.mem p).base + 8)) :
    Reads P s (s.memWoken p) := ((State.setPw_reads s _ hstate).setStage).count hwakes

theorem State.pw_memWoken : (s.memWoken p).pw (.mem p) = pwOn := by
  have hcount : Reads (· = (Dom.mem p).base + 4) ((s.setPw (.mem p) pwOn).setStage (.mem p) none) (s.memWoken p) :=
    Reads.refl.count (by omega)
  rw [State.pw_eq, hcount.rf_eq rfl, ← State.pw_eq, State.pw_setStage, State.pw_setPw]
  rfl

theorem State.wakes_memWoken : (s.memWoken p).rd ((Dom.mem p).base + 8) = sticky (s.rd ((Dom.mem p).base + 8)) 1 := by
  have hreads : Reads (· = (Dom.mem p).base + 8) s ((s.setPw (.mem p) pwOn).setStage (.mem p) none) :=
    (State.setPw_reads s _ (by omega)).setStage
  rw [State.memWoken, State.rd_count, if_pos rfl, hreads _ rfl]

theorem State.replay_memWoken (g : Nat) : ((s.memWoken p).grove g).replay = (s.grove g).replay := by
  rw [State.memWoken, State.grove_count, State.grove_setStage, State.grove_setPw]

end

/-- A waking core memory without a pending image of a replay comes ON. -/
theorem exec_powerWakeDone_mem {addr p : Nat} {u : State} (haddr : Dom.ofAddr addr = some (.mem p)) (hpw : s.pw (.mem p) = pwWaking)
    (hu : (if s.lost (.mem p) then s.clearDom (.mem p) else s) = u) (hreplay : (u.grove (p / 144)).replay = none)
    (hheld : u.heldReq (.mem p) = 0) : exec (.powerWakeDone addr) s = .next (u.memWoken p) := by
  have hheld' : (u.memWoken p).heldReq (.mem p) = 0 := by
    rw [State.memWoken, State.heldReq_count, State.heldReq_setStage, State.heldReq_setPw, hheld]
  have hdone : s.wakeDone (.mem p) = u.memWoken p := by
    unfold State.wakeDone
    rw [hu]
    refine Eq.trans (b := ((u.memWoken p).sendImage (p / 144)).applyHeld (.mem p)) rfl ?_
    rw [State.sendImage_none ((u.replay_memWoken p _).trans hreplay), State.applyHeld_none hheld']
  simp only [exec, execPowerWakeDone, haddr, hpw, Dom.needs, List.all_nil, and_self, if_true, hdone]

/-- A memory in DROWSE has kept its bytes when it wakes. -/
theorem powerWakeDone_drowse {addr p : Nat} (haddr : Dom.ofAddr addr = some (.mem p)) (hpw : s.pw (.mem p) = pwWaking)
    (hstage : s.stage (.mem p) = some (0, 1)) (hheld : s.heldReq (.mem p) = 0) (hreplay : (s.grove (p / 144)).replay = none) :
    completes (.powerWakeDone addr) s fun t => t.pw (.mem p) = pwOn ∧ t.mem = s.mem ∧
      t.rd ((Dom.mem p).base + 8) = sticky (s.rd ((Dom.mem p).base + 8)) 1 ∧
      otherRegs [(Dom.mem p).base + 4, (Dom.mem p).base + 8] s t := by
  have hlost : s.lost (.mem p) = false := by
    rw [State.lost, hpw, hstage]
    rfl
  refine completes_of (exec_powerWakeDone_mem haddr hpw (u := s) (by rw [hlost]; rfl) hreplay hheld) ?_
  exact ⟨s.pw_memWoken p, s.mem_memWoken p, s.wakes_memWoken p, s.memWoken_reads p (by simp) (by simp)⟩

theorem State.clearCoreMem_mem (s : State) (p : Nat) : (s.clearCoreMem p).mem = (s.clearMem p).mem := rfl

theorem State.byte_clearMem_other (s : State) {p q o : Nat} (hq : q ≠ p) (ho : o < 0x40000) : (s.clearMem p).byte q o = s.byte q o := by
  have hk : ¬(memKey q o / 0x40000 == p) = true := by
    simp only [memKey, beq_iff_eq]
    omega
  rw [State.byte, State.clearMem, State.memClear, Store.get_clearAll, if_neg hk, State.byte]

/-- A memory that was OFF is cleared, its banks are at CORE, and no other core's byte changes. -/
theorem powerWakeDone_off {addr p : Nat} (haddr : Dom.ofAddr addr = some (.mem p)) (hp : p < 9216) (hpw : s.pw (.mem p) = pwWaking)
    (hstage : s.stage (.mem p) = some (0, 2)) (hheld : s.heldReq (.mem p) = 0) (hreplay : (s.grove (p / 144)).replay = none) :
    completes (.powerWakeDone addr) s fun t => t.pw (.mem p) = pwOn ∧ (∀ o, o < 0x40000 → t.byte p o = 0) ∧
      (∀ b, b < 16 → t.bankOwner p b = ownCore) ∧ ∀ q o, q ≠ p → o < 0x40000 → t.byte q o = s.byte q o := by
  have hlost : s.lost (.mem p) = true := by
    rw [State.lost, hpw, hstage]
    rfl
  have hbyte : ∀ q o, ((s.clearCoreMem p).memWoken p).byte q o = (s.clearMem p).byte q o := fun q o => by
    rw [State.byte, State.mem_memWoken, State.clearCoreMem_mem, State.byte]
  refine completes_of (exec_powerWakeDone_mem haddr hpw (u := s.clearCoreMem p) (by rw [hlost]; rfl) hreplay hheld)
    ⟨State.pw_memWoken _ p, fun o ho => ?_, fun b hb => ?_, fun q o hq ho => ?_⟩
  · rw [hbyte, s.byte_clearMem p ho]
  · have hin : inCore p 0xF00 0x1000 (Reg.MEM_BANK_OWNER p b) = true := by
      rw [inCore, Bool.and_eq_true, decide_eq_true_eq, decide_eq_true_eq]
      simp only [Reg.MEM_BANK_OWNER, coreReg]
      omega
    have hreads : Reads (· = Reg.MEM_BANK_OWNER p b) (s.clearCoreMem p) ((s.clearCoreMem p).memWoken p) :=
      State.memWoken_reads _ p (by simp only [Dom.base, Reg.MEM_BANK_OWNER, coreReg]; omega)
        (by simp only [Dom.base, Reg.MEM_BANK_OWNER, coreReg]; omega)
    have hreset : (s.clearCoreMem p).rd (Reg.MEM_BANK_OWNER p b) = 0 := by
      rw [State.clearCoreMem, State.rd_updCore, State.rd_resetRegs, if_pos hin, resetWord_bankOwner _ _ hp hb]
    rw [State.bankOwner, hreads.rf_eq rfl, State.rf, hreset]
    rfl
  · rw [hbyte, s.byte_clearMem_other hq ho]

/-! ### Bank handovers (R465 to R468) -/

section
variable {p b : Nat}

theorem exec_bankHandover {a : Nat} {v : Word} (hp : p < 9216) (hb : b < 16) (hok : s.access a (Reg.MEM_BANK_OWNER p b) = .ok) :
    exec (.bankHandover a p b v) s = .next (s.bankWrite a p b v) := by
  simp only [exec, execBankHandover, if_pos (And.intro hp hb), State.guard_ok hok]

theorem Reg.bankOwner_ne_status (hb : b < 16) : Reg.MEM_BANK_OWNER p b ≠ Reg.MEM_BANK_STATUS p := by
  simp only [Reg.MEM_BANK_OWNER, Reg.MEM_BANK_STATUS, coreReg]
  omega

theorem State.bankResult_shows (s : State) (p : Nat) {r : Nat} (hr : r < 4) (hb : b < 16) :
    (s.bankResult p b r).rf (Reg.MEM_BANK_STATUS p) 30 2 = r ∧ (s.bankResult p b r).rf (Reg.MEM_BANK_STATUS p) 16 4 = b := by
  rw [State.rf, State.rf, State.bankResult, State.rd_wr, if_pos rfl, fld_ofNat (by omega), fld_ofNat (by omega)]
  omega

theorem State.bankResult_reads {P : Nat → Prop} (s : State) (p b r : Nat) (h : ¬P (Reg.MEM_BANK_STATUS p)) : Reads P s (s.bankResult p b r) :=
  Reads.refl.wr h

theorem State.core_bankResult (s : State) (p b r q : Nat) : (s.bankResult p b r).core q = s.core q := State.core_wr ..

/-- The owner a bank is to have hangs on its handover and its register. -/
theorem State.nextOwner_congr {t : State} (hcore : t.core p = s.core p) (howner : t.bankOwner p b = s.bankOwner p b) :
    t.nextOwner p b = s.nextOwner p b := by
  rw [State.nextOwner, State.nextOwner, hcore, howner]

theorem State.nextOwner_bankResult (s : State) (p r : Nat) (hb : b < 16) : (s.bankResult p b r).nextOwner p b = s.nextOwner p b := by
  have hreads : Reads (· = Reg.MEM_BANK_OWNER p b) s (s.bankResult p b r) := s.bankResult_reads p b r (Reg.bankOwner_ne_status hb).symm
  exact State.nextOwner_congr (s.core_bankResult p b r p) (hreads.rf_eq rfl 30 2)

/-- A handover that is refused shows its code and changes no owner. -/
theorem bankHandover_refused {a r : Nat} {v : Word} (hp : p < 9216) (hb : b < 16) (hr : r < 4)
    (hok : s.access a (Reg.MEM_BANK_OWNER p b) = .ok) (hwrite : s.bankWrite a p b v = s.bankResult p b r) :
    completes (.bankHandover a p b v) s fun t => t.rf (Reg.MEM_BANK_STATUS p) 30 2 = r ∧ t.nextOwner p b = s.nextOwner p b ∧
      otherRegs [Reg.MEM_BANK_STATUS p] s t := by
  refine completes_of (exec_bankHandover hp hb hok) ?_
  rw [hwrite]
  exact ⟨(s.bankResult_shows p hr hb).1, s.nextOwner_bankResult p r hb, s.bankResult_reads p b r (by simp)⟩

theorem State.bankWrite_taken {a : Nat} {v : Word} (htoken : fld v 0 16 = s.rf (Reg.MEM_BANK_OWNER p b) 0 16)
    (howns : s.ownsGrove a (p / 144) = true) (hgrove : s.groveEnabled (p / 144) = false) (hfrom : s.nextOwner p b = ownCore)
    (hdest : fld v 30 2 = ownLoader) : s.bankWrite a p b v = s.handBank p b ownLoader := by
  have hpair : ((ownCore == ownCore && ownLoader == ownLoader) || (ownCore == ownLoader && ownLoader == ownCore)) = true := rfl
  simp only [State.bankWrite, htoken, ne_eq, not_true_eq_false, if_false, hfrom, hdest, hpair, howns, hgrove, Bool.true_eq_false,
    Bool.false_eq_true, or_self]

section
variable (s) (p b) (own : Nat)

/-- The register of a bank that is being handed over: the token counted, the handover shown. -/
def State.bankMarked : State :=
  (s.wf' (Reg.MEM_BANK_OWNER p b) 0 16 (s.rf (Reg.MEM_BANK_OWNER p b) 0 16 + 1)).wf' (Reg.MEM_BANK_OWNER p b) 29 1 1

/-- What a bank's register shows after a handover has been taken. -/
theorem State.handBank_shows (hb : b < 16) : (s.handBank p b own).bankOwner p b = s.bankOwner p b ∧
    (s.handBank p b own).rf (Reg.MEM_BANK_OWNER p b) 0 16 = (s.rf (Reg.MEM_BANK_OWNER p b) 0 16 + 1) % 2 ^ 16 ∧
    (s.handBank p b own).bit (Reg.MEM_BANK_OWNER p b) 29 = true := by
  have hreads : Reads (· = Reg.MEM_BANK_OWNER p b) (s.bankMarked p b) (s.handBank p b own) :=
    (Reads.refl (s := s.bankMarked p b).updCore (p := p)).trans (State.bankResult_reads _ p b 0 (Reg.bankOwner_ne_status hb).symm)
  refine ⟨?_, ?_, ?_⟩
  · rw [State.bankOwner, hreads.rf_eq rfl, State.bankMarked, State.rf_wf'_above _ _ _ (by decide) (by decide),
      State.rf_wf'_above _ _ _ (by decide) (by decide), State.bankOwner]
  · rw [hreads.rf_eq rfl, State.bankMarked, State.rf_wf'_below _ _ _ (by decide) (by decide), State.rf_wf'_same _ _ _ (by decide)]
  · rw [hreads.bit_eq rfl, State.bankMarked, State.bit, State.rd_wf', if_pos rfl]
    exact tst_setFld_bit _ 29 true (by decide)

theorem State.nextOwner_handBank : (s.handBank p b own).nextOwner p b = own := by
  rw [State.nextOwner, State.handover_handBank]

theorem State.handBank_reads {P : Nat → Prop} (howner : ¬P (Reg.MEM_BANK_OWNER p b)) (hstatus : ¬P (Reg.MEM_BANK_STATUS p)) :
    Reads P s (s.handBank p b own) :=
  (((Reads.refl.wf' howner).wf' howner).updCore).trans (State.bankResult_reads _ p b 0 hstatus)

end

theorem bankHandover_taken {a : Nat} {v : Word} (hp : p < 9216) (hb : b < 16) (hok : s.access a (Reg.MEM_BANK_OWNER p b) = .ok)
    (hwrite : s.bankWrite a p b v = s.handBank p b ownLoader) :
    completes (.bankHandover a p b v) s fun t => t.rf (Reg.MEM_BANK_STATUS p) 30 2 = 0 ∧ t.rf (Reg.MEM_BANK_STATUS p) 16 4 = b ∧
      t.nextOwner p b = ownLoader ∧ t.bankOwner p b = s.bankOwner p b ∧
      t.rf (Reg.MEM_BANK_OWNER p b) 0 16 = (s.rf (Reg.MEM_BANK_OWNER p b) 0 16 + 1) % 2 ^ 16 ∧
      t.bit (Reg.MEM_BANK_OWNER p b) 29 = true ∧ otherRegs [Reg.MEM_BANK_STATUS p, Reg.MEM_BANK_OWNER p b] s t := by
  obtain ⟨howner, htoken, hmoving⟩ := s.handBank_shows p b ownLoader hb
  refine completes_of (exec_bankHandover hp hb hok) ?_
  rw [hwrite]
  obtain ⟨hresult, hbank⟩ := State.bankResult_shows (((s.bankMarked p b).updCore p fun c =>
    { c with handover := c.handover.filter (·.1 != b) ++ [(b, ownLoader)] })) p (r := 0) (by decide) hb
  exact ⟨hresult, hbank, s.nextOwner_handBank p b _, howner, htoken, hmoving, s.handBank_reads p b _ (by simp) (by simp)⟩

/-- A handover takes effect: its bank has the new owner, and the handover is over. -/
theorem bankHandoverEffect_moved {own : Nat} (hown : own < 4) (hfind : (s.core p).handover.find? (·.1 == b) = some (b, own)) :
    completes (.bankHandoverEffect p b) s fun t => t.bankOwner p b = own ∧ t.nextOwner p b = own ∧
      t.bit (Reg.MEM_BANK_OWNER p b) 29 = false ∧ otherRegs [Reg.MEM_BANK_OWNER p b] s t := by
  have heffect : s.bankEffect p b = (((s.wf' (Reg.MEM_BANK_OWNER p b) 30 2 own).wf' (Reg.MEM_BANK_OWNER p b) 29 1 0).updCore p fun c =>
      { c with handover := c.handover.filter (·.1 != b) }) := by
    rw [State.bankEffect, hfind]
  have howner : (s.bankEffect p b).bankOwner p b = own := by
    rw [heffect, State.bankOwner, State.rf_updCore, State.rf_wf'_above _ _ _ (by decide) (by decide), State.rf_wf'_same _ _ _ (by decide)]
    exact Nat.mod_eq_of_lt hown
  have hover : ((s.bankEffect p b).core p).handover.find? (·.1 == b) = none := by
    rw [heffect, State.core_updCore, if_pos rfl]
    exact List.find?_eq_none.2 fun x hx => by simpa using (List.mem_filter.1 hx).2
  refine completes_of (t := s.bankEffect p b) rfl ⟨howner, ?_, ?_, ?_⟩
  · rw [State.nextOwner, hover]
    exact howner
  · rw [heffect, State.bit, State.rd_updCore, State.rd_wf', if_pos rfl]
    exact tst_setFld_bit _ 29 false (by decide)
  · rw [heffect]
    exact ((Reads.refl.wf' (by simp)).wf' (by simp)).updCore

end
end

/-- Settles O53: requests, stages, aborts and wakes of one domain, and the handover of one bank, each by its own lemma. -/
theorem powerAndBanks : Obligations.PowerAndBanks := by
  refine ⟨fun s a addr d v ha haddr hdom => ⟨fun hbase hlow hok hv => ?_, fun hbase hlow hok hv href hon hstage hfirst => ?_,
    fun hbase hlow hok hv href hoff hneeds => ?_, fun n x hpw hstage hn hn4 hheld => ?_, fun n x hpw hstage hn hn4 hheld => ?_,
    fun hpw hstage hheld hkind => ?_, fun p hd hpw hstage hheld => ?_, fun hpw hheld hmem => ?_,
    fun p hd hpw hstage hheld hreplay => ?_, fun p hd hpw hstage hheld hreplay => ?_⟩,
    fun s a p b v ha hp hb => ⟨fun hok htoken => ?_, fun hok htoken howns hgrove hfrom hdest => ?_, fun hok htoken hgrove => ?_,
      fun own hown hfind => ?_⟩⟩
  · exact powerRequest_reserved haddr hdom hbase hlow hok hv
  · exact powerRequest_entry haddr hdom hbase hlow hok hv href hon hstage hfirst
  · exact powerRequest_wake haddr hdom hbase hlow hok hv href hoff hneeds
  · exact powerEntryStage_goes_on haddr hpw hstage hn hn4 hheld
  · exact powerEntryStage_aborts haddr hpw hstage hn hn4 hheld
  · exact powerEntryStage_off haddr hpw hstage hheld hkind
  · exact powerEntryStage_router haddr hpw hd hstage hheld
  · exact powerAbortDone_on haddr hpw hheld hmem
  · subst hd
    exact powerWakeDone_drowse haddr hpw hstage hheld hreplay
  · subst hd
    exact powerWakeDone_off haddr (of_decide_eq_true hdom) hpw hstage hheld hreplay
  · exact bankHandover_refused hp hb (by decide) hok (if_pos htoken)
  · exact bankHandover_taken hp hb hok (State.bankWrite_taken htoken howns hgrove hfrom hdest)
  · refine bankHandover_refused hp hb (by decide) hok ?_
    unfold State.bankWrite
    exact (if_neg (not_not.2 htoken)).trans (if_pos (.inr (.inr hgrove)))
  · exact bankHandoverEffect_moved hown hfind

end Sys2Proof.Machine
end

section
/-! SUPPORT. Rounds (08_timing.md R278, R279): O33, refuted. A grove that has an audit's replay in hand gives it up when its partition asks a
round, its replay sapling is a SAPLING again or none, and FLT_SAPLING_LOW goes to the partition of the grove, which is the lowest-numbered
that holds it. -/
namespace Sys2Proof.Machine

/-- Grove 0, whose cores but core 0 are FENCED, is held by partitions 0 and 1; the step of partition 1 is open, core 0 has stalled in it,
and the grove has an audit's replay in hand. -/
def roundInSharedGrove : State :=
  { State.cold Fuses.full ⟨0, [], [], false⟩ Pins.init with
    up := true
    regs := [(Reg.HIF_PART_OWNER 0, 0x80000000), (Reg.HIF_PART_GROVES_LO 0, 1), (Reg.HIF_PART_OWNER 1, 0x80000000),
      (Reg.HIF_PART_GROVES_LO 1, 1)] ++ (List.range 143).map fun i => (Reg.INT_PHYS_STATE (i + 1), 0x30000000)
    cores := [(0, { Core.init with openStep := some 7, neuTodo := [5] })]
    groves := [(0, { Grove.init with
      lowArmed := some true
      replay := some { trigger := trigAudit, core := 0, sapling := 1, sent := 0, copied := 0, running := false, y1 := none } })]
    parts := [(1, { Part.init with openStep := some 7 })] }

/-- FLT_SAPLING_LOW is recorded for partition 0, whose step is not the one in which the round is asked. -/
theorem exec_round_roundInSharedGrove {t : State} (h : exec (.round 1) roundInSharedGrove = .next t) : (t.part 0).faults = [fltSaplingLow] := by
  have hfaults : (match exec (.round 1) roundInSharedGrove with | .next t => (t.part 0).faults | _ => []) = [fltSaplingLow] := by
    decide +kernel
  rw [h] at hfaults
  exact hfaults

/-- Refutes O33: a round of partition 1 ends the audit's replay in a grove that partition 0 holds as well, and partition 0 is told that the
grove is short of SAPLINGS. -/
theorem not_stepsCloseAndDeliver : ¬ Obligations.StepsCloseAndDeliver := by
  unfold Obligations.StepsCloseAndDeliver
  intro h
  obtain ⟨-, -, -, hround⟩ := h roundInSharedGrove 1 7 (by decide)
  obtain ⟨t, hexec, -, -, -, hothers⟩ := hround (by decide +kernel) (by decide +kernel) (by decide +kernel) (by decide +kernel)
    (by decide +kernel) (by decide +kernel)
  have hfaults := exec_round_roundInSharedGrove hexec
  have hkept : (roundInSharedGrove.part 0).faults = [] := by decide +kernel
  rw [hothers 0 (by decide), hkept] at hfaults
  exact List.cons_ne_nil _ _ hfaults.symm

end Sys2Proof.Machine
end

section
/-! SUPPORT. What a loss in the fabric leaves (05_fabric.md R181, R182, R186; 08_step_commit.md R289): the registers of the routers, their ports
and the stops, and the packets that are not of the partition that stops. -/
namespace Sys2Proof.Machine

/-! ### The registers of routers and stops -/

/-- The registers of routers, of their ports, of the stops and of the ports of these (R188, R192, R193). -/
def FabricKey (key : Nat) : Prop :=
  key < 0x4000000 ∧ (key % 0x100000 < 0x90000 ∧ 0xC00 ≤ key % 0x1000 ∧ key % 0x1000 < 0xE00 ∨
    0xC3000 ≤ key % 0x100000 ∧ key % 0x100000 < 0xC4000)

theorem not_fabricKey_high {key : Nat} (h : 0x4000000 ≤ key) : ¬FabricKey key := fun hk => Nat.not_lt.2 h hk.1

theorem not_fabricKey_core {p off : Nat} (h : off < 0xC00) : ¬FabricKey (coreReg p off) := by
  simp only [FabricKey, coreReg]
  omega

theorem not_fabricKey_grove {g off : Nat} (h : 0xC0000 ≤ off) (h' : off < 0xC3000 ∨ 0xC4000 ≤ off) (hoff : off < 0x100000) :
    ¬FabricKey (groveReg g off) := by
  simp only [FabricKey, groveReg]
  omega

theorem fabricKey_router {k off : Nat} (hk : k < 9216) (h : 0xC00 ≤ off) (h' : off < 0xE00) : FabricKey (coreReg k off) := by
  simp only [FabricKey, coreReg]
  omega

theorem fabricKey_stop {g off : Nat} (hg : g < 64) (h : 0xC3000 ≤ off) (h' : off < 0xC4000) : FabricKey (groveReg g off) := by
  simp only [FabricKey, groveReg]
  omega

theorem not_fabricKey_egress (a r off : Nat) : ¬FabricKey (ringBase a .egress r + off) :=
  not_fabricKey_high (by simp only [ringBase, attReg]; omega)

theorem not_fabricKey_att (a off : Nat) : ¬FabricKey (attReg a off) := not_fabricKey_high (by simp only [attReg]; omega)

/-! ### Registers kept, packets only taken away -/

/-- The fabric's registers are in `t` as in `s`, and every packet of `t` is one of `s`. -/
structure Sheds (s t : State) : Prop where
  reads : Reads FabricKey s t
  net : t.net.Sublist s.net

section
variable {s0 s t : State}

theorem Sheds.refl : Sheds s s := ⟨.refl, .refl _⟩

theorem Sheds.trans (h : Sheds s0 s) (h' : Sheds s t) : Sheds s0 t := ⟨h.reads.trans h'.reads, h'.net.trans h.net⟩

theorem Sheds.of_net (h : Reads FabricKey s t) (hnet : t.net = s.net) : Sheds s t := ⟨h, hnet ▸ .refl _⟩

/-- The frame of an operation that touches no register and no packet. -/
theorem Sheds.of_keeps {K : Nat} (h : Keeps K s t) (hf : K.testBit Component.fuses.ctorIdx = false)
    (hu : K.testBit Component.up.ctorIdx = false) (hr : K.testBit Component.regs.ctorIdx = false)
    (hn : K.testBit Component.net.ctorIdx = false) : Sheds s t := .of_net (.of_regs h hf hu hr) (h.same .net hn)

theorem Sheds.wr {key : Nat} {w : Word} (h : Sheds s0 s) (hk : ¬FabricKey key) : Sheds s0 (s.wr key w) :=
  h.trans (.of_net (Reads.refl.wr hk) (State.net_wr ..))

theorem Sheds.wf' {key lo n v : Nat} (h : Sheds s0 s) (hk : ¬FabricKey key) : Sheds s0 (s.wf' key lo n v) := h.wr hk

theorem Sheds.count {key n : Nat} (h : Sheds s0 s) (hk : ¬FabricKey key) : Sheds s0 (s.count key n) := h.wr hk

theorem Sheds.countWrap {key n : Nat} (h : Sheds s0 s) (hk : ¬FabricKey key) : Sheds s0 (s.countWrap key n) := h.wr hk

theorem Sheds.updCore {p : Nat} {f : Core → Core} (h : Sheds s0 s) : Sheds s0 (s.updCore p f) := ⟨h.reads.updCore, h.net⟩

theorem Sheds.updGrove {g : Nat} {f : Grove → Grove} (h : Sheds s0 s) : Sheds s0 (s.updGrove g f) := ⟨h.reads.updGrove, h.net⟩

theorem Sheds.updPart {k : Nat} {f : Part → Part} (h : Sheds s0 s) : Sheds s0 (s.updPart k f) := ⟨h.reads.updPart, h.net⟩

theorem Sheds.updAtt {a : Nat} {f : Att → Att} (h : Sheds s0 s) : Sheds s0 (s.updAtt a f) := ⟨h.reads, h.net⟩

theorem Sheds.updPort {e : Nat} {f : Port → Port} (h : Sheds s0 s) : Sheds s0 (s.updPort e f) := ⟨h.reads.updPort, h.net⟩

theorem Sheds.ite {a b : State} {c : Prop} [Decidable c] (ha : Sheds s0 a) (hb : Sheds s0 b) : Sheds s0 (if c then a else b) := by
  split
  · exact ha
  · exact hb

theorem Sheds.foldl {α : Type} {l : List α} {f : State → α → State} (hf : ∀ t, ∀ x ∈ l, Sheds t (f t x)) : Sheds s (l.foldl f s) :=
  List.foldlRecOn l f Sheds.refl fun t ht x hx => ht.trans (hf t x hx)

end

theorem State.report_sheds (s : State) (cls : Nat) (k : SigKeys) : Sheds s (s.report cls k) :=
  .of_net (s.report_reads cls k (not_fabricKey_high (by decide)) (not_fabricKey_high (by decide)) (not_fabricKey_high (by decide)))
    ((State.report_keeps (Keeps.refl s) (.same rfl)).same .net rfl)

/-! ### Records taken back (R289, R291, R448) -/

section
variable (s : State) (a r : Nat)

theorem State.toHost_sheds (addr : Nat) (bytes : List Byte) : Sheds s (s.toHost a addr bytes) :=
  .of_keeps (State.toHost_keeps (Keeps.refl s) (.same rfl)) rfl rfl rfl rfl

theorem State.putFit_sheds (units : List Nat) : Sheds s (s.putFit a r units) := by
  have hpad : ∀ len, Sheds s (s.padRing a r len) := fun _ => Sheds.ite ((s.toHost_sheds a _ _).wr (not_fabricKey_egress a r 16)) .refl
  exact (hpad _).trans ((State.toHost_sheds _ a _ _).wr (not_fabricKey_egress a r 16))

theorem State.ringDrop_sheds (full : Bool) : Sheds s (s.ringDrop a r full) := by
  have hset : ∀ v : Att, Sheds s (s.setAtt a v) := fun v => ⟨fun _ _ => rfl, .refl _⟩
  have h : ∀ v : Att, Sheds s ((s.setAtt a v).count (ringBase a .egress r + 24) 1) := fun v => (hset v).count (not_fabricKey_egress a r 24)
  exact Sheds.ite (h _) ((h _).trans (State.report_sheds _ _ _))

theorem State.ringEmit_sheds (units : List Nat) : Sheds s (s.ringEmit a r units).1 := by
  have hput : ∀ t : State, Sheds t (t.putRecord a r units).1 := fun t => by
    unfold State.putRecord
    split
    · exact t.putFit_sheds a r units
    · exact t.ringDrop_sheds a r false
  unfold State.ringEmit
  split
  · exact s.ringDrop_sheds a r false
  · exact Sheds.trans (Sheds.ite (s.putFit_sheds a r _).updAtt .refl) (hput _)

theorem State.ringSend_sheds (units : List Nat) : Sheds s (s.ringSend a r units).1 := by
  have h := s.ringEmit_sheds a r units
  exact Sheds.ite h (h.trans (.of_keeps (State.shadow_keeps (Keeps.refl _) (.same rfl)) rfl rfl rfl rfl))

theorem State.retractEarly_sheds (h : HeldRec) : Sheds s (s.retractEarly a h) := by
  have hcount : ∀ t : State, Sheds t (t.count (Reg.STEP_EARLY_RETRACT h.part) 1) := fun t =>
    Sheds.refl.count (not_fabricKey_high (by simp only [Reg.STEP_EARLY_RETRACT]; omega))
  exact (Sheds.ite (s.ringSend_sheds a h.ring _) (Sheds.refl.count (not_fabricKey_att a _))).trans (hcount _)

theorem State.queueFrame_sheds (e : Nat) (f : TxFrame) : Sheds s (s.queueFrame e f) := by
  have hpacer : ∀ j, ¬FabricKey (Reg.EVP_PACER_STATUS e j) := fun j => not_fabricKey_high (by simp only [Reg.EVP_PACER_STATUS]; omega)
  exact Sheds.ite (Sheds.refl.updPort.wf' (hpacer _)) (Sheds.ite Sheds.refl.updPort Sheds.refl.updPort)

theorem State.sendFrame_sheds (e c kind step stamp : Nat) (early retract : Bool) (recs : List HeldRec) :
    Sheds s (s.sendFrame e c kind step stamp early retract recs) := by
  have hform : ∀ (t : State) kind step stamp early retract recs, Sheds t
      ((t.formFrame e c kind step stamp early retract recs).2.queueFrame e (t.formFrame e c kind step stamp early retract recs).1) :=
    fun t _ _ _ _ _ _ => Sheds.trans (s := (t.formFrame e c _ _ _ _ _ _).2) ⟨fun _ _ => rfl, .refl _⟩ (State.queueFrame_sheds _ e _)
  exact Sheds.trans (Sheds.ite .refl (hform s _ _ _ _ _ _).updPort) (hform _ _ _ _ _ _ _)

theorem State.retractEarlyPort_sheds (e : Nat) (h : HeldRec) : Sheds s (s.retractEarlyPort e h) := by
  have hflush : Sheds s (s.flushEarly e h.ring) := by
    unfold State.flushEarly
    split
    · exact .refl
    · exact Sheds.refl.updPort.trans (State.sendFrame_sheds _ _ _ _ _ _ _ _ _)
  exact (hflush.trans (State.sendFrame_sheds _ _ _ _ _ _ _ _ _)).count (not_fabricKey_high (by simp only [Reg.STEP_EARLY_RETRACT]; omega))

theorem State.stopEgress_sheds (k : Nat) : Sheds s (s.stopEgress k) := by
  have hatt : ∀ (t : State) a, Sheds t (State.stopAtt k t a) := fun t a =>
    Sheds.refl.updAtt.trans (.foldl fun u h _ => u.retractEarly_sheds a h)
  have hport : ∀ (t : State) e, Sheds t (s.stopPort k t e) := fun t e => by
    have hpacer : ∀ j, ¬FabricKey (Reg.EVP_PACER_STATUS e j) := fun j => not_fabricKey_high (by simp only [Reg.EVP_PACER_STATUS]; omega)
    exact (Sheds.refl.updPort.trans (.foldl fun u j _ => Sheds.refl.wf' (hpacer j))).trans (.foldl fun u h _ => u.retractEarlyPort_sheds e h)
  rw [State.stopEgress_eq]
  exact (Sheds.foldl fun t a _ => hatt t a).trans (.foldl fun t e _ => hport t e)

end

/-! ### A partition stops (R289) -/

theorem State.quiet_sheds (s : State) (p : Nat) : Sheds s (s.quiet p) := by
  have hw : ∀ {off lo n v : Nat} {t : State}, off < 0xC00 → Sheds s t → Sheds s (t.wf' (coreReg p off) lo n v) :=
    fun ho ht => ht.wf' (not_fabricKey_core ho)
  have hidle : ∀ t, Sheds s t → Sheds s (t.idleNeurons p) := fun t ht => by
    have h1 : Sheds s (t.wf' (Reg.NEU_STATUS p) 8 1 0) := hw (by decide) ht
    exact Sheds.ite (hw (by decide) h1) h1
  have hqueues : ∀ t, Sheds s t → Sheds s (t.emptyQueues p) := fun t ht => by
    have hfold : ∀ u : State, ∀ q ∈ List.range 8, Sheds u ((u.wf' (Reg.HDL_Q_STATUS p q) 0 6 0).wf' (Reg.HDL_Q_STATUS p q) 8 6 0) :=
      fun u q hq => by
        have hkey : ¬FabricKey (Reg.HDL_Q_STATUS p q) := not_fabricKey_core (by rw [List.mem_range] at hq; omega)
        exact (Sheds.refl.wf' hkey).wf' hkey
    exact hw (by decide) (hw (by decide) (ht.updCore.trans (.foldl hfold)))
  exact hw (by decide) (((hqueues _ (hidle _ Sheds.refl.updCore)).wr (not_fabricKey_core (by decide))).wr (not_fabricKey_core (by decide)))

theorem State.disarmPart_sheds (s : State) (k : Nat) : Sheds s (s.disarmPart k) := by
  refine .of_net (s.disarmPart_reads k (fun c hc => not_fabricKey_high ?_) fun p c hp hc => ?_)
    ((State.disarmPart_keeps (Keeps.refl s) (.same rfl)).same .net rfl)
  · have := chKey_lt hc
    omega
  · have hge : ¬coreCh p c < 1024 := by unfold coreCh; omega
    have hmod : (coreCh p c - 1024) % 4 = c := by unfold coreCh; omega
    rw [chKey, if_neg hge, hmod]
    simp only [FabricKey, coreReg]
    omega

theorem State.noteSaplings_sheds (s : State) (g : Nat) : Sheds s (s.noteSaplings g) :=
  .of_net (s.noteSaplings_reads g (not_fabricKey_grove (by decide) (.inl (by decide)) (by decide)) (not_fabricKey_high (by decide))
    (not_fabricKey_high (by decide)) (not_fabricKey_high (by decide))) ((State.noteSaplings_keeps (Keeps.refl s) (.same rfl)).same .net rfl)

theorem State.endSapling_sheds (s : State) (q : Nat) : Sheds s (s.endSapling q) := by
  have hrole : Sheds s ((s.setRole q roleSapling 0).mapEvent) :=
    (Sheds.refl.wr (not_fabricKey_high (by simp only [Reg.INT_PHYS_STATE]; omega))).countWrap (not_fabricKey_high (by decide))
  exact Sheds.ite (hrole.updCore.wf' (not_fabricKey_core (by decide))) .refl

theorem State.endReplay_sheds (s : State) (g : Nat) : Sheds s (s.endReplay g) := by
  have h0 : Sheds s ((s.updGrove g fun v => { v with replay := none, repair := [] }).wf' (Reg.INT_GRV_STATUS g) 30 1 0) :=
    Sheds.refl.updGrove.wf' (not_fabricKey_grove (by decide) (.inl (by decide)) (by decide))
  unfold State.endReplay
  dsimp only
  split
  · exact h0
  · refine Sheds.trans ?_ (State.noteSaplings_sheds _ g)
    split
    · exact (h0.trans (State.endSapling_sheds _ _)).trans (State.endSapling_sheds _ _)
    · exact h0.trans (State.endSapling_sheds _ _)

theorem State.stopGrove_sheds (s : State) (g : Nat) : Sheds s (s.stopGrove g) := by
  have hlow : ∀ {off}, 0xC0000 ≤ off → off < 0xC3000 → ¬FabricKey (groveReg g off) := fun h h' =>
    not_fabricKey_grove h (.inl h') (by omega)
  have hlog : ∀ t, Sheds t (t.logShow g) := fun t => by
    have hst : ¬FabricKey (Reg.PLS_GRV_STATUS g) := not_fabricKey_high (by simp only [Reg.PLS_GRV_STATUS]; omega)
    exact ((Sheds.refl.wf' hst).wf' hst).wr (not_fabricKey_high (by simp only [Reg.PLS_GRV_RECORDS]; omega))
  exact ((((((s.endReplay_sheds g).updGrove.wf' (hlow (by decide) (by decide))).wf' (hlow (by decide) (by decide))).wf'
    (not_fabricKey_grove (by decide) (.inr (by decide)) (by decide))).wf' (hlow (by decide) (by decide))).wf'
      (hlow (by decide) (by decide))).trans (hlog _)

theorem State.stopParts_sheds (s : State) (k : Nat) : Sheds s (s.stopParts k) := by
  have h3 : Sheds s (((((s.coresOfPart k).foldl State.quiet s).stopDense (s.coresOfPart k)).stopEgress k).disarmPart k) :=
    (((Sheds.foldl fun t p _ => t.quiet_sheds p).trans (.of_keeps (State.stopDense_keeps (Keeps.refl _) (.same rfl)) rfl rfl rfl rfl)).trans
      (State.stopEgress_sheds _ k)).trans (State.disarmPart_sheds _ k)
  have h4 := h3.trans (Sheds.foldl (l := State.grovesOf (((((s.coresOfPart k).foldl State.quiet s).stopDense (s.coresOfPart k)).stopEgress
    k).disarmPart k) k) (f := State.stopGrove) fun t g _ => t.stopGrove_sheds g)
  exact ⟨h4.reads, List.filter_sublist.trans h4.net⟩

theorem State.haltNow_sheds (s : State) (k : Nat) : Sheds s (s.haltNow k) := by
  refine .of_net (s.haltNow_reads k fun c hc => not_fabricKey_high ?_) ((State.haltNow_keeps (Keeps.refl s) (.same rfl)).same .net rfl)
  have := chKey_lt hc
  omega

theorem State.stopNow_sheds (s : State) (k cause : Nat) : Sheds s (s.stopNow k cause) := by
  have hstate : ¬FabricKey (Reg.STEP_STATE k) := not_fabricKey_high (by simp only [Reg.STEP_STATE]; omega)
  have hpls : ¬FabricKey (Reg.PLS_PART_STATUS k) := not_fabricKey_high (by simp only [Reg.PLS_PART_STATUS]; omega)
  have hpart : ¬FabricKey (Reg.HIF_PART_STATUS k) := not_fabricKey_high (by simp only [Reg.HIF_PART_STATUS]; omega)
  have heffects : Sheds s (s.stopEffects k) := by
    rw [State.stopEffects_eq]
    exact ((((s.stopParts_sheds k).updPart).wf' hstate).wf' hpls).trans
      (State.haltNow_sheds _ k)
  unfold State.stopNow
  exact ((heffects.wr hstate).wf' hpart).trans (State.report_sheds _ _ _)

theorem State.stopPart_sheds (s : State) (k cause : Nat) : Sheds s (s.stopPart k cause) :=
  Sheds.ite .refl (Sheds.ite Sheds.refl.updPart (s.stopNow_sheds k cause))

/-! ### Packets lost (R182, R186) -/

theorem State.fabricLoss_sheds (s : State) (k parity n : Nat) : Sheds s (s.fabricLoss k parity n) := by
  have hcount : Sheds s (s.count (Reg.FAB_LOSS k) n) := Sheds.refl.count (not_fabricKey_high (by simp only [Reg.FAB_LOSS]; omega))
  exact (hcount.trans (State.report_sheds _ _ _)).trans (State.stopPart_sheds _ k _)

theorem State.lose_sheds (s : State) (f : Flight) (n : Nat) : Sheds s (s.lose f n) := by
  unfold State.lose
  split
  · exact s.fabricLoss_sheds _ _ _
  · exact .refl

theorem State.abandon_sheds (s : State) (f : Flight) : Sheds s (s.abandon f) := by
  unfold State.abandon
  split
  · exact s.fabricLoss_sheds _ _ _
  · exact .refl

theorem State.dropLink_sheds (s : State) (n q : Nat) : Sheds s (s.dropLink n q) :=
  Sheds.trans (s := { s with net := s.net.filter fun f => !(f.atInput n q && f.left != 0) }) ⟨.refl, List.filter_sublist⟩
    (.foldl fun t f _ => t.lose_sheds f f.left)

end Sys2Proof.Machine
end

section
/-! SUPPORT. Routers that fail and are reset (05_fabric.md R181, R186, R189, R190): O29. -/
namespace Sys2Proof.Machine

/-! ### What a router's state shows -/

theorem Reg.rtrStatus_inj {j k : Nat} (h : Reg.FAB_RTR_STATUS j = Reg.FAB_RTR_STATUS k) : j = k := by
  simp only [Reg.FAB_RTR_STATUS, coreReg] at h
  omega

theorem Reg.rtrStatus_ne_stop (j g : Nat) : Reg.FAB_RTR_STATUS j ≠ Reg.FAB_XS_STATUS g := by
  simp only [Reg.FAB_RTR_STATUS, Reg.FAB_XS_STATUS, coreReg, groveReg]
  omega

section
variable (s : State) {k port j r : Nat} (hport : port < 16)

theorem State.rtrState_stopBit (g lo n v : Nat) : (s.wf' (Reg.FAB_XS_STATUS g) lo n v).rtrState j = s.rtrState j :=
  (Reads.refl (P := (· = Reg.FAB_RTR_STATUS j))).wf' (Reg.rtrStatus_ne_stop j g).symm |>.rf_eq rfl _ _

theorem State.portDown_stopBit (g lo n v : Nat) : (s.wf' (Reg.FAB_XS_STATUS g) lo n v).portDown j r = s.portDown j r :=
  (Reads.refl (P := (· = Reg.FAB_RTR_STATUS j))).wf' (Reg.rtrStatus_ne_stop j g).symm |>.bit_eq rfl _

/-- Another field of the state register of a router leaves the state. -/
theorem State.rtrState_field {lo n : Nat} (v : Nat) (hlo : 3 ≤ lo) (hn : lo + n ≤ 32) :
    (s.wf' (Reg.FAB_RTR_STATUS k) lo n v).rtrState j = s.rtrState j := by
  by_cases hjk : j = k
  · rw [hjk]
    exact s.rf_wf'_below _ _ hlo hn
  · exact (Reads.refl (P := (· = Reg.FAB_RTR_STATUS j))).wf' (fun h => hjk (Reg.rtrStatus_inj h).symm) |>.rf_eq rfl _ _

theorem State.rtrState_set (v : Nat) : (s.wf' (Reg.FAB_RTR_STATUS k) 0 3 v).rtrState j = if j = k then v % 8 else s.rtrState j := by
  by_cases hjk : j = k
  · rw [if_pos hjk, hjk]
    exact s.rf_wf'_same _ v (by decide)
  · rw [if_neg hjk]
    exact (Reads.refl (P := (· = Reg.FAB_RTR_STATUS j))).wf' (fun h => hjk (Reg.rtrStatus_inj h).symm) |>.rf_eq rfl _ _

include hport

theorem State.portDown_linkBit (hr : r < 16) (b : Bool) :
    (s.wf' (Reg.FAB_RTR_STATUS k) (16 + port) 1 (b2n b)).portDown j r = if j = k ∧ r = port then b else s.portDown j r := by
  by_cases hjk : j = k
  · subst hjk
    rw [State.portDown, State.bit, State.rd_wf', if_pos rfl]
    rcases Nat.lt_trichotomy r port with hlt | rfl | hgt
    · rw [if_neg (by omega), tst, fld_setFld_below _ _ _ _ _ _ (by omega) (by omega)]
      rfl
    · rw [if_pos ⟨rfl, rfl⟩]
      exact tst_setFld_bit _ _ b (by omega)
    · rw [if_neg (by omega), tst, fld_setFld_above _ _ _ _ _ _ (by omega) (by omega)]
      rfl
  · rw [if_neg fun h => hjk h.1]
    exact (Reads.refl (P := (· = Reg.FAB_RTR_STATUS j))).wf' (fun h => hjk (Reg.rtrStatus_inj h).symm) |>.bit_eq rfl _

theorem State.rtrState_markDown : (s.markDown k port).rtrState j = s.rtrState j := by
  unfold State.markDown
  split
  · exact s.rtrState_field 1 (by omega) (by omega)
  split
  · exact s.rtrState_stopBit _ _ _ _
  · rfl

theorem State.rtrState_markUp : (s.markUp k port).rtrState j = s.rtrState j := by
  unfold State.markUp
  split
  · exact s.rtrState_field 0 (by omega) (by omega)
  split
  · exact s.rtrState_stopBit _ _ _ _
  · rfl

theorem State.portDown_markDown (hr : r < 16) :
    (s.markDown k port).portDown j r = if k < 9216 ∧ j = k ∧ r = port then true else s.portDown j r := by
  unfold State.markDown
  by_cases hk : k < 9216
  · simp only [hk, true_and, if_true]
    exact s.portDown_linkBit hport hr true
  · simp only [hk, false_and, if_false]
    split
    · exact s.portDown_stopBit _ _ _ _
    · rfl

theorem State.portDown_markUp (hr : r < 16) :
    (s.markUp k port).portDown j r = if k < 9216 ∧ j = k ∧ r = port then false else s.portDown j r := by
  unfold State.markUp
  by_cases hk : k < 9216
  · simp only [hk, true_and, if_true]
    exact s.portDown_linkBit hport hr false
  · simp only [hk, false_and, if_false]
    split
    · exact s.portDown_stopBit _ _ _ _
    · rfl

end

theorem State.net_markDown (s : State) (k port : Nat) : (s.markDown k port).net = s.net := by
  unfold State.markDown
  split
  · exact State.net_wf' ..
  split
  · exact State.net_wf' ..
  · rfl

theorem State.linkDead_markUp (s : State) (k port : Nat) : (s.markUp k port).linkDead = s.linkDead := by
  unfold State.markUp
  split
  · exact State.linkDead_wf' ..
  split
  · exact State.linkDead_wf' ..
  · rfl

section
variable {s t : State} (h : Sheds s t) {j : Nat} (hj : j < 9216)
include h hj

theorem Sheds.rtrState_eq : t.rtrState j = s.rtrState j := h.reads.rf_eq (fabricKey_router hj (by decide) (by decide)) _ _

theorem Sheds.portDown_eq (r : Nat) : t.portDown j r = s.portDown j r := h.reads.bit_eq (fabricKey_router hj (by decide) (by decide)) _

end

/-! ### The ports of a router -/

theorem mem_linkedPorts {k port : Nat} : port ∈ linkedPorts k ↔ port < 6 ∧ ∃ n q, linkPeer k port = some (n, q) := by
  rw [linkedPorts, List.mem_filter, List.mem_range, Option.isSome_iff_exists]
  exact and_congr_right fun _ => ⟨fun ⟨x, hx⟩ => ⟨x.1, x.2, hx⟩, fun ⟨n, q, hx⟩ => ⟨(n, q), hx⟩⟩

theorem opposite_lt {port : Nat} (h : port < 4) : opposite port < 4 := by
  match port, h with
  | 0, _ | 1, _ | 2, _ | 3, _ => decide

/-- A router has six ports, and so has what is at the other end of its links. -/
theorem linkPeer_ports {k port n q : Nat} (hk : k < 9216) (h : linkPeer k port = some (n, q)) : port < 6 ∧ q < 6 := by
  rw [linkPeer, if_pos hk] at h
  split at h
  · next hp =>
    obtain ⟨m, -, hm⟩ := Option.map_eq_some_iff.1 h
    have := opposite_lt hp
    rw [(Prod.mk.inj hm).2] at this
    omega
  split at h
  · next hp =>
    refine ⟨by omega, ?_⟩
    split at h
    · rw [← (Prod.mk.inj (Option.some.inj h)).2]
      decide
    · obtain ⟨j, hj, hm⟩ := Option.map_eq_some_iff.1 h
      have hlt : j < mRouters.length := (List.findIdx?_eq_some_iff_getElem.1 hj).1
      rw [← (Prod.mk.inj hm).2]
      exact hlt.trans (by decide)
  · exact absurd h (by simp)

/-! ### A router that fails (R186) -/

section
variable {s : State} {k port n q : Nat} (hk : k < 9216) (hpeer : linkPeer k port = some (n, q))
include hpeer

/-- A link goes DOWN: marked at both ends, with what is on it taken away. -/
theorem State.linkDown_sheds (s : State) : Sheds ((s.markDown k port).markDown n q) (s.linkDown k port) := by
  rw [State.linkDown, hpeer]
  exact (State.dropLink_sheds _ n q).trans (State.dropLink_sheds _ k port)

/-- The link taken DOWN holds nothing that has not arrived. -/
theorem State.linkDown_empty (s : State) : ∀ f ∈ (s.linkDown k port).net, f.atInput k port = true → f.left = 0 := by
  intro f hf hat
  have hdrop : ∀ t : State, ∀ g ∈ (t.dropLink k port).net, (g.atInput k port && g.left != 0) = false := fun t g hg => by
    have hsub : (t.dropLink k port).net.Sublist (t.net.filter fun g => !(g.atInput k port && g.left != 0)) :=
      (Sheds.foldl (s := { t with net := t.net.filter fun g => !(g.atInput k port && g.left != 0) }) fun u f _ => u.lose_sheds f f.left).net
    simpa only [Bool.not_eq_true'] using (List.mem_filter.1 (hsub.subset hg)).2
  rw [State.linkDown, hpeer] at hf
  have h := hdrop _ f hf
  rw [hat, Bool.true_and] at h
  simpa using h

include hk

theorem State.rtrState_linkDown {j : Nat} (hj : j < 9216) : (s.linkDown k port).rtrState j = s.rtrState j := by
  obtain ⟨hport, hq⟩ := linkPeer_ports hk hpeer
  rw [(State.linkDown_sheds hpeer s).rtrState_eq hj, State.rtrState_markDown _ (by omega), State.rtrState_markDown _ (by omega)]

theorem State.portDown_linkDown {j r : Nat} (hj : j < 9216) (hr : r < 16) :
    (s.linkDown k port).portDown j r =
      if n < 9216 ∧ j = n ∧ r = q then true else if k < 9216 ∧ j = k ∧ r = port then true else s.portDown j r := by
  obtain ⟨hport, hq⟩ := linkPeer_ports hk hpeer
  rw [(State.linkDown_sheds hpeer s).portDown_eq hj, State.portDown_markDown _ (by omega) hr, State.portDown_markDown _ (by omega) hr]

/-- A port that is DOWN stays so as another link goes DOWN. -/
theorem State.portDown_linkDown_of_down {j r : Nat} (hj : j < 9216) (hr : r < 16) (h : s.portDown j r = true) :
    (s.linkDown k port).portDown j r = true := by
  rw [State.portDown_linkDown hk hpeer hj hr, h]
  simp


end

/-- What a router that has failed and taken its links DOWN shows. -/
theorem State.failed_shows (s : State) {k : Nat} (hk : k < 9216) {t : State} (ht : t = (linkedPorts k).foldl (fun t port => t.linkDown k port) s) :
    t.rtrState k = s.rtrState k ∧ (∀ port ∈ linkedPorts k, t.portDown k port = true) ∧
      (∀ port n q, linkPeer k port = some (n, q) → n < 9216 → t.portDown n q = true) ∧
      (∀ f ∈ t.net, ∀ port ∈ linkedPorts k, f.atInput k port = true → f.left = 0) := by
  subst ht
  have hstay : ∀ {j r}, j < 9216 → r < 16 → ∀ t : State, t.portDown j r = true → ∀ port ∈ linkedPorts k,
      (t.linkDown k port).portDown j r = true :=
    fun hj hr t ht port hport => by
      obtain ⟨-, n, q, hpeer⟩ := mem_linkedPorts.1 hport
      exact State.portDown_linkDown_of_down hk hpeer hj hr ht
  refine ⟨?_, fun port hport => ?_, fun port n q hpeer hn => ?_, fun f hf port hport hat => ?_⟩
  · exact List.foldlRecOn (motive := fun t : State => t.rtrState k = s.rtrState k) _ _ rfl fun t ht port hport => by
      obtain ⟨-, n, q, hpeer⟩ := mem_linkedPorts.1 hport
      rw [State.rtrState_linkDown hk hpeer hk, ht]
  · obtain ⟨hlt, n, q, hpeer⟩ := mem_linkedPorts.1 hport
    refine foldl_establishes (P := fun t : State => t.portDown k port = true) hport (fun t => ?_) (hstay hk (by omega)) s
    rw [State.portDown_linkDown hk hpeer hk (by omega), if_pos (c := k < 9216 ∧ k = k ∧ port = port) ⟨hk, rfl, rfl⟩]
    simp
  · obtain ⟨hlt, hq⟩ := linkPeer_ports hk hpeer
    refine foldl_establishes (P := fun t : State => t.portDown n q = true) (mem_linkedPorts.2 ⟨hlt, n, q, hpeer⟩) (fun t => ?_)
      (hstay hn (by omega)) s
    rw [State.portDown_linkDown hk hpeer hn (by omega), if_pos ⟨hn, rfl, rfl⟩]
  · obtain ⟨-, n, q, hpeer⟩ := mem_linkedPorts.1 hport
    have hempty := foldl_establishes (P := fun t : State => ∀ f ∈ t.net, f.atInput k port = true → f.left = 0) hport
      (fun t => t.linkDown_empty hpeer) (fun t ht other hother f hf => by
        obtain ⟨-, m, r, hother'⟩ := mem_linkedPorts.1 hother
        have hsub := (State.linkDown_sheds hother' t).net
        rw [State.net_markDown, State.net_markDown] at hsub
        exact ht f (hsub.subset hf)) s
    exact hempty f hf hat

theorem exec_routerFault {s : State} {k : Nat} (hk : k < 9216) (hstop : k % 144 ≠ 78) (hstate : s.rtrState k ≠ rsFaulty)
    (hon : s.routerOn k = true) :
    ∃ sig, exec (.routerFault k) s =
      .next (((linkedPorts k).foldl (fun t port => t.linkDown k port) (s.wf' (Reg.FAB_RTR_STATUS k) 0 3 rsFaulty)).report fltRouter sig) := by
  have hno : ¬(9216 ≤ k ∨ s.rtrState k = rsFaulty ∨ (!(s.routerOn k)) = true) := by
    rw [hon]
    simp only [Bool.not_true, Bool.false_eq_true, or_false, not_or]
    exact ⟨by omega, hstate⟩
  simp only [exec, execRouterFault, if_neg hno, if_neg hstop]
  exact ⟨_, rfl⟩

theorem routerFault_shows {s : State} {k : Nat} (hk : k < 9216) (hstop : k % 144 ≠ 78) (hstate : s.rtrState k ≠ rsFaulty)
    (hon : s.routerOn k = true) :
    completes (.routerFault k) s fun t => t.rtrState k = rsFaulty ∧ (∀ port ∈ linkedPorts k, t.portDown k port = true) ∧
      (∀ port n q, linkPeer k port = some (n, q) → n < 9216 → t.portDown n q = true) ∧
      (∀ f ∈ t.net, ∀ port ∈ linkedPorts k, f.atInput k port = true → f.left = 0) := by
  obtain ⟨sig, hexec⟩ := exec_routerFault hk hstop hstate hon
  obtain ⟨hfaulty, hdown, hfar, hempty⟩ := State.failed_shows (s.wf' (Reg.FAB_RTR_STATUS k) 0 3 rsFaulty) hk rfl
  refine completes_of hexec ?_
  have hreport := State.report_sheds ((linkedPorts k).foldl (fun t port => t.linkDown k port) (s.wf' (Reg.FAB_RTR_STATUS k) 0 3 rsFaulty))
    fltRouter sig
  refine ⟨?_, fun port hport => ?_, fun port n q hpeer hn => ?_, fun f hf => hempty f (hreport.net.subset hf)⟩
  · rw [hreport.rtrState_eq hk, hfaulty, State.rtrState_set, if_pos rfl]
    rfl
  · rw [hreport.portDown_eq hk]
    exact hdown port hport
  · rw [hreport.portDown_eq hn]
    exact hfar port n q hpeer hn

/-! ### A reset (R189, R190) -/

theorem exec_routerReset {s : State} {a k : Nat} (v : Word) (ha : a < 8) (hk : k < 9216) (hok : s.access a (Reg.FAB_RTR_CTRL k) = .ok) :
    exec (.routerReset a k v) s = .next
      (if (s.rtrState k = rsExcluded ∨ s.rtrState k = rsFaulty) ∧ Store.get (fun _ => false) s.excluded k = true then
        (s.maskWrite (Reg.FAB_RTR_CTRL k) (v ||| 0x80000000) false).wf' (Reg.FAB_RTR_STATUS k) 0 3 rsResetting
      else s.wf' (Reg.FAB_RTR_STATUS k) 3 1 1) := by
  have hreset : tst (v ||| 0x80000000) 31 = true := by
    rw [tst_eq_getLsbD, BitVec.getLsbD_or]
    simp
  simp only [exec, execRouterReset, if_pos (And.intro ha hk), State.guard_ok hok, State.rtrCtrl, hreset, Bool.true_and, if_true,
    Bool.not_eq_true', Bool.and_eq_false_iff, Bool.or_eq_false_iff, beq_eq_false_iff_ne]
  by_cases hmay : (s.rtrState k = rsExcluded ∨ s.rtrState k = rsFaulty) ∧ Store.get (fun _ => false) s.excluded k = true
  · rw [if_pos hmay, if_neg]
    rintro (⟨hnot, hnot'⟩ | hnot)
    · exact hmay.1.elim hnot hnot'
    · exact Bool.false_ne_true (hnot.symm.trans hmay.2)
  · rw [if_neg hmay, if_pos]
    by_contra hno
    refine hmay ⟨?_, ?_⟩
    · by_contra hstate
      exact hno (.inl (not_or.1 hstate))
    · by_contra hex
      exact hno (.inr (Bool.not_eq_true _ ▸ hex))

theorem routerReset_accepted {s : State} {a k : Nat} {v : Word} (ha : a < 8) (hk : k < 9216) (hok : s.access a (Reg.FAB_RTR_CTRL k) = .ok)
    (hstate : s.rtrState k = rsExcluded ∨ s.rtrState k = rsFaulty) (hex : Store.get (fun _ => false) s.excluded k = true) :
    completes (.routerReset a k v) s fun t => t.rtrState k = rsResetting := by
  refine completes_of (exec_routerReset v ha hk hok) ?_
  rw [if_pos ⟨hstate, hex⟩, State.rtrState_set, if_pos rfl]
  rfl

theorem routerReset_refused {s : State} {a k : Nat} {v : Word} (ha : a < 8) (hk : k < 9216) (hok : s.access a (Reg.FAB_RTR_CTRL k) = .ok)
    (hno : (s.rtrState k ≠ rsExcluded ∧ s.rtrState k ≠ rsFaulty) ∨ Store.get (fun _ => false) s.excluded k = false) :
    completes (.routerReset a k v) s fun t => t.rtrState k = s.rtrState k ∧ t.bit (Reg.FAB_RTR_STATUS k) 3 = true ∧
      otherRegs [Reg.FAB_RTR_STATUS k] s t := by
  refine completes_of (exec_routerReset v ha hk hok) ?_
  rw [if_neg]
  · refine ⟨s.rtrState_field 1 (by decide) (by decide), ?_, Reads.refl.wf' (by simp)⟩
    rw [State.bit, State.rd_wf', if_pos rfl]
    exact tst_setFld_bit _ 3 true (by decide)
  · rintro ⟨hstate, hex⟩
    rcases hno with ⟨hnot, hnot'⟩ | hnot
    · exact hstate.elim hnot hnot'
    · exact Bool.false_ne_true (hnot.symm.trans hex)

/-! ### The end of a reset (R181, R189) -/

section
variable {s : State} {k port : Nat} (hk : k < 9216)
include hk

theorem State.retrain_keeps_state (s : State) : (s.retrain k port).linkDead = s.linkDead ∧ ∀ j, (s.retrain k port).rtrState j = s.rtrState j := by
  unfold State.retrain
  split
  · next n q hpeer =>
    obtain ⟨hport, hq⟩ := linkPeer_ports hk hpeer
    split
    · exact ⟨rfl, fun _ => rfl⟩
    · refine ⟨?_, fun j => ?_⟩
      · rw [State.linkDead_markUp, State.linkDead_markUp]
      · rw [State.rtrState_markUp _ (by omega), State.rtrState_markUp _ (by omega)]
  · exact ⟨rfl, fun _ => rfl⟩

theorem State.portDown_retrain_of_up {j r : Nat} (hr : r < 16) (h : s.portDown j r = false) : (s.retrain k port).portDown j r = false := by
  unfold State.retrain
  split
  · next n q hpeer =>
    obtain ⟨hport, hq⟩ := linkPeer_ports hk hpeer
    split
    · exact h
    · rw [State.portDown_markUp _ (by omega) hr, State.portDown_markUp _ (by omega) hr, h]
      simp
  · exact h

/-- Nothing keeps the links of router `k` DOWN: no abandons, and no FAULTY router at the other end. -/
def State.maySpeak (s : State) (k : Nat) : Prop :=
  (∀ port, port < 6 → ∀ x, x ∈ linkPeer k port → x.1 < 9216 → s.rtrState x.1 ≠ rsFaulty) ∧
    ∀ port, port < 6 → Store.get (fun _ => false) s.linkDead (linkId k port) = false

theorem State.portDown_retrain (hs : s.maySpeak k) (hport : port ∈ linkedPorts k) : (s.retrain k port).portDown k port = false := by
  obtain ⟨hfaulty, hdead⟩ := hs
  obtain ⟨hlt, n, q, hpeer⟩ := mem_linkedPorts.1 hport
  have hq := (linkPeer_ports hk hpeer).2
  have hno : (Store.get (fun _ => false) s.linkDead (linkId k port) || (decide (n < 9216) && s.rtrState n == rsFaulty)) = false := by
    rw [hdead port hlt, Bool.false_or, Bool.and_eq_false_iff]
    by_cases hn : n < 9216
    · exact .inr (beq_false_of_ne (hfaulty port hlt (n, q) hpeer hn))
    · exact .inl (decide_eq_false hn)
  rw [State.retrain, hpeer]
  dsimp only
  rw [hno, if_neg Bool.false_ne_true, State.portDown_markUp _ (by omega) (by omega), State.portDown_markUp _ (by omega) (by omega)]
  simp [hk]

theorem State.retrained_shows (hs : s.maySpeak k) : ((linkedPorts k).foldl (fun t port => t.retrain k port) s).rtrState k = s.rtrState k ∧
    ∀ port ∈ linkedPorts k, ((linkedPorts k).foldl (fun t port => t.retrain k port) s).portDown k port = false := by
  have hsame : ∀ (t : State) p, (t.retrain k p).maySpeak k ↔ t.maySpeak k := fun t p => by
    obtain ⟨hdead, hstate⟩ := State.retrain_keeps_state hk (port := p) t
    simp only [State.maySpeak, hdead, hstate]
  refine ⟨?_, fun port hport => ?_⟩
  · exact List.foldlRecOn (motive := fun t : State => t.rtrState k = s.rtrState k) _ _ rfl fun t ht p _ =>
      ((State.retrain_keeps_state hk (port := p) t).2 k).trans ht
  · have hlt := (mem_linkedPorts.1 hport).1
    have hkeep : ∀ t : State, t.maySpeak k → ((linkedPorts k).foldl (fun t port => t.retrain k port) t).maySpeak k := fun t ht =>
      List.foldlRecOn (motive := fun t : State => t.maySpeak k) _ _ ht fun u hu p _ => (hsame u p).2 hu
    exact foldl_establishes (P := fun t : State => t.maySpeak k → t.portDown k port = false) hport
      (fun t ht => State.portDown_retrain hk ((hsame t port).1 ht) hport)
      (fun t ht p _ hp => State.portDown_retrain_of_up hk (by omega) (ht ((hsame t p).1 hp))) s (hkeep s hs)

end

theorem exec_routerResetDone {s : State} {k : Nat} (hstate : s.rtrState k = rsResetting) :
    exec (.routerResetDone k) s = .next
      (let t := (linkedPorts k).foldl (fun t port => t.retrain k port) (s.wf' (Reg.FAB_RTR_STATUS k) 0 3 rsExcluded)
       (t.net.filter fun f => f.place == .router k).foldl State.abandon { t with net := t.net.filter fun f => !(f.place == .router k) }) := by
  simp only [exec, execRouterResetDone, hstate, ne_eq, not_true_eq_false, if_false]

theorem routerResetDone_shows {s : State} {k : Nat} (hk : k < 9216) (hstate : s.rtrState k = rsResetting) (hs : s.maySpeak k) :
    completes (.routerResetDone k) s fun t => t.rtrState k = rsExcluded ∧ (∀ f ∈ t.net, f.place ≠ .router k) ∧
      (∀ port ∈ linkedPorts k, t.portDown k port = false) := by
  have hs' : (s.wf' (Reg.FAB_RTR_STATUS k) 0 3 rsExcluded).maySpeak k := by
    obtain ⟨hfaulty, hdead⟩ := hs
    refine ⟨fun port hport x hx hlt => ?_, fun port hport => by rw [State.linkDead_wf', hdead port hport]⟩
    rw [State.rtrState_set]
    split
    · decide
    · exact hfaulty port hport x hx hlt
  obtain ⟨hexcluded, hup⟩ := State.retrained_shows hk hs'
  refine completes_of (exec_routerResetDone hstate) ?_
  dsimp only
  generalize (linkedPorts k).foldl (fun t port => t.retrain k port) (s.wf' (Reg.FAB_RTR_STATUS k) 0 3 rsExcluded) = t at *
  have hsheds : Sheds { t with net := t.net.filter fun f => !(f.place == .router k) } ((t.net.filter fun f => f.place == .router k).foldl
      State.abandon { t with net := t.net.filter fun f => !(f.place == .router k) }) := .foldl fun u f _ => u.abandon_sheds f
  refine ⟨?_, fun f hf hplace => ?_, fun port hport => ?_⟩
  · refine (hsheds.rtrState_eq hk).trans (hexcluded.trans ?_)
    rw [State.rtrState_set, if_pos rfl]
    rfl
  · have hf' := (List.mem_filter.1 (hsheds.net.subset hf)).2
    rw [hplace] at hf'
    simp at hf'
  · exact (hsheds.portDown_eq hk port).trans (hup port hport)

/-- Settles O29: a router that fails, a reset accepted or refused, and its end, each by its own lemma. -/
theorem routerFaultsAndResets : Obligations.RouterFaultsAndResets := fun _ _ hk =>
  ⟨fun hstop hstate hon => routerFault_shows hk hstop hstate hon, fun _ _ ha hok hstate hex => routerReset_accepted ha hk hok hstate hex,
    fun _ _ ha hok hno => routerReset_refused ha hk hok hno, fun hstate hfaulty hdead => routerResetDone_shows hk hstate ⟨hfaulty, hdead⟩⟩

end Sys2Proof.Machine
end

section
/-! SUPPORT. Link flits refused, taken and abandoned (05_fabric.md R163, R179 to R182, R192): O28. -/
namespace Sys2Proof.Machine

/-! ### The telemetry of a link's ports (R192) -/

section
variable {k port key : Nat} (hkey : linkKey k port = some key)
include hkey

/-- The telemetry of a port begins at a multiple of 0x40. -/
theorem linkKey_aligned : key % 0x40 = 0 := by
  unfold linkKey at hkey
  split at hkey
  · rw [← Option.some.inj hkey, portKey, coreReg]
    omega
  split at hkey
  · rw [← Option.some.inj hkey, stopPortKey, groveReg]
    omega
  · exact absurd hkey (by simp)

/-- It is among the registers of routers and stops. -/
theorem fabricKey_link {off : Nat} (hoff : off < 0x40) (hport : port < 6) : FabricKey (key + off) := by
  unfold linkKey at hkey
  split at hkey
  · next hk =>
    have h := fabricKey_router (k := k) (off := 0xC40 + 0x40 * port + off) hk (by omega) (by omega)
    rw [coreReg, ← Nat.add_assoc] at h
    rw [← Option.some.inj hkey, portKey, coreReg]
    exact h
  split at hkey
  · next hk =>
    have h := fabricKey_stop (g := k - 9216) (off := 0xC3100 + 0x40 * port + off) (by omega) (by omega) (by omega)
    rw [groveReg, ← Nat.add_assoc] at h
    rw [← Option.some.inj hkey, stopPortKey, groveReg]
    exact h
  · exact absurd hkey (by simp)

theorem State.portCount_eq (s : State) (off n : Nat) : s.portCount k port off n = s.count (key + off) n := by
  rw [State.portCount, hkey]

end

theorem linkPeer_port_lt {k port n q : Nat} (h : linkPeer k port = some (n, q)) (hk : k < 9280) : port < 6 := by
  by_cases hcore : k < 9216
  · exact (linkPeer_ports hcore h).1
  · rw [linkPeer, if_neg hcore, if_pos hk] at h
    dsimp only at h
    split at h
    case h_7 => simp at h
    all_goals omega

theorem State.portCount_same (s : State) (k port off n : Nat) : (s.portCount k port off n).net = s.net ∧
    (s.portCount k port off n).refusals = s.refusals ∧ (s.portCount k port off n).nacked = s.nacked ∧
    (s.portCount k port off n).abandons = s.abandons := by
  unfold State.portCount
  split <;> exact ⟨rfl, rfl, rfl, rfl⟩

/-- A link flit has been sent at a port, where that has telemetry. -/
def State.flitSent (s : State) (n q : Nat) : State :=
  match linkKey n q with
  | some key => s.count64 (key + 8) 1
  | none => s

theorem State.flitSent_same (s : State) (n q : Nat) : (s.flitSent n q).net = s.net ∧ (s.flitSent n q).refusals = s.refusals ∧
    (s.flitSent n q).nacked = s.nacked := by
  unfold State.flitSent
  split <;> exact ⟨rfl, rfl, rfl⟩

theorem State.flitSent_reads {P : Nat → Prop} (s : State) {n q : Nat} (h : ∀ key ∈ portKeys n q 8, ¬P key) : Reads P s (s.flitSent n q) := by
  unfold State.flitSent
  split
  · next key hkey =>
    rw [portKeys_of_linkKey hkey] at h
    exact s.count64_reads (h _ List.mem_cons_self) (h _ (List.mem_cons_of_mem _ List.mem_cons_self))
  · exact .refl

theorem State.rd64_flitSent (s : State) {n q key : Nat} (hkey : linkKey n q = some key) :
    (s.flitSent n q).rd64 (key + 8) = (s.rd64 (key + 8) + 1) % 2 ^ 64 := by
  rw [State.flitSent, hkey]
  exact s.rd64_wr64_same _ _

/-! ### The first packet on a link -/

/-- The first packet of a channel on a link is changed, or taken out, where it stands. -/
theorem editHeads_one {n q v j : Nat} (h : Nat → Flight → Option Flight) {f : Flight} (hat : f.atInput n q = true) (hvc : f.body.vc = v)
    (hleft : f.left ≠ 0) : ∀ {net : List Flight} {i : Nat}, net[i]? = some f →
      (∀ g ∈ net.take i, ¬(g.atInput n q = true ∧ g.body.vc = v ∧ g.left ≠ 0)) →
      editHeads n q v h 1 j net = net.take i ++ ((h j f).toList ++ net.drop (i + 1))
  | [], i, hf, _ => absurd hf (by simp)
  | g :: net, 0, hf, _ => by
    have hg : g = f := Option.some.inj hf
    have hmatch : (g.atInput n q && g.body.vc == v && g.left != 0) = true := by simp [hg, hat, hvc, hleft]
    rw [editHeads, if_pos hmatch, editHeads, hg]
    rfl
  | g :: net, i + 1, hf, hfirst => by
    have hno := hfirst g (by simp)
    have hmatch : ¬(g.atInput n q && g.body.vc == v && g.left != 0) = true := by
      simpa only [Bool.and_eq_true, beq_iff_eq, bne_iff_ne, and_assoc] using hno
    rw [editHeads, if_neg hmatch, Nat.zero_add, editHeads_one (net := net) (i := i) h hat hvc hleft hf fun g hg => hfirst g (by simp [hg])]
    rfl

section
variable {s : State} {i n q v : Nat} {f : Flight} (hnext : s.nextOnLink i n q v f)
include hnext

theorem State.nextOnLink.editHeads_eq (h : Nat → Flight → Option Flight) :
    editHeads n q v h 1 0 s.net = s.net.take i ++ ((h 0 f).toList ++ s.net.drop (i + 1)) := by
  obtain ⟨hf, hat, hvc, hleft, hfirst⟩ := hnext
  exact editHeads_one h hat hvc hleft hf hfirst

theorem State.nextOnLink.set_eq (g : Flight) : editHeads n q v (fun _ _ => some g) 1 0 s.net = s.net.set i g := by
  have hlt : i < s.net.length := (List.getElem?_eq_some_iff.1 hnext.1).1
  rw [hnext.editHeads_eq, List.set_eq_take_append_cons_drop, if_pos hlt]
  rfl

theorem State.nextOnLink.eraseIdx_eq : editHeads n q v (fun _ _ => none) 1 0 s.net = s.net.eraseIdx i := by
  rw [hnext.editHeads_eq, List.eraseIdx_eq_take_drop_succ]
  rfl

/-- It is the first of those on the link. -/
theorem State.nextOnLink.onLink_take : (s.onLink n q v).take 1 = [f] := by
  obtain ⟨hf, hat, hvc, hleft, hfirst⟩ := hnext
  obtain ⟨hlt, hget⟩ := List.getElem?_eq_some_iff.1 hf
  have hsplit : s.net = s.net.take i ++ f :: s.net.drop (i + 1) := by
    rw [← hget, ← List.drop_eq_getElem_cons hlt, List.take_append_drop]
  have hnone : (s.net.take i).filter (fun f => f.atInput n q && f.body.vc == v && f.left != 0) = [] :=
    List.filter_eq_nil_iff.2 fun g hg => by
      simpa only [Bool.and_eq_true, beq_iff_eq, bne_iff_ne, and_assoc] using hfirst g hg
  rw [State.onLink, hsplit, List.filter_append, hnone, List.nil_append, List.filter_cons_of_pos (by simp [hat, hvc, hleft])]
  rfl

end

/-- The flit that a NACK names holds the packet that is the next of its channel. -/
theorem State.refused_next {s : State} {n q i m v : Nat} {f : Flight} (h : s.refused n q i m = some v) (hf : s.net[i]? = some f) :
    s.nextOnLink i n q v f := by
  simp only [State.refused, hf, Option.ite_none_right_eq_some, Bool.and_eq_true, bne_iff_ne, Bool.not_eq_true', List.any_eq_false,
    beq_iff_eq, decide_eq_true_eq, not_and, Option.some.injEq] at h
  obtain ⟨⟨⟨⟨⟨⟨⟨hat, hleft⟩, hfirst⟩, -⟩, -⟩, -⟩, -⟩, hvc⟩ := h
  refine ⟨hf, hat, hvc, hleft, fun g hg ⟨hgat, hgvc, hgleft⟩ => hfirst g hg ⟨hgat, hgvc.trans hvc.symm⟩ hgleft⟩

/-! ### A flit received (R179, R180) -/

/-- A good flit has come to a port from its sender, which counts it; the port counts one that was corrected. -/
def State.flitHeard (s : State) (n q k port : Nat) (fixed : Bool) : State :=
  if fixed then (s.flitSent n q).portCount k port 0x18 1 else s.flitSent n q

section
variable (s : State) {n q k port key : Nat} (fixed : Bool)

theorem State.flitHeard_same (n q k port : Nat) : (s.flitHeard n q k port fixed).net = s.net ∧
    (s.flitHeard n q k port fixed).nacked = s.nacked := by
  obtain ⟨hsent, -, hkept⟩ := s.flitSent_same n q
  obtain ⟨hnet, -, hnacked, -⟩ := (s.flitSent n q).portCount_same k port 0x18 1
  cases fixed
  · exact ⟨hsent, hkept⟩
  · exact ⟨hnet.trans hsent, hnacked.trans hkept⟩

theorem State.flitHeard_reads {P : Nat → Prop} (h : ∀ key, linkKey k port = some key → ¬P (key + 0x18)) :
    Reads P (s.flitSent n q) (s.flitHeard n q k port fixed) := by
  refine Reads.ite ?_ .refl
  unfold State.portCount
  split
  · next key hkey => exact Reads.refl.count (h key hkey)
  · exact .refl

theorem State.corrected_flitHeard (hkey : linkKey k port = some key) : (s.flitHeard n q k port fixed).rd (key + 0x18) =
    if fixed then sticky (s.rd (key + 0x18)) 1 else s.rd (key + 0x18) := by
  have haligned := linkKey_aligned hkey
  have hsent : Reads (· = key + 0x18) s (s.flitSent n q) := s.flitSent_reads fun j hj => by
    unfold portKeys at hj
    split at hj
    · next other hother =>
      have := linkKey_aligned hother
      simp only [List.mem_cons, List.not_mem_nil, or_false] at hj
      omega
    · simp at hj
  cases fixed
  · exact hsent _ rfl
  · rw [State.flitHeard, if_pos rfl, State.portCount_eq hkey, State.rd_count, if_pos rfl, hsent _ rfl, if_pos rfl]

end

section
variable {s : State} {k port n q : Nat} {bytes : List Byte} (hpeer : linkPeer k port = some (n, q)) (hcut : s.linkCut n q k port = false)
  (hsync : Store.get (fun _ => false) s.resync (linkId n q) = false)
include hpeer hcut hsync

/-- On a link that is up and in step, the flit counts at its sender; what follows a refused flit is discarded. -/
theorem exec_linkFlitReceive : exec (.linkFlitReceive k port bytes) s = .next
    (if Store.get (fun _ => false) s.nacked (linkId n q) then s.flitSent n q
     else match linkDecode bytes with
       | none => { s.flitSent n q with nacked := Store.set (fun _ => false) (s.flitSent n q).nacked (linkId n q) true }
       | some (data, fixed) =>
         (s.flitHeard n q k port fixed).flitTaken (linkId n q) k port data) := by
  have hopen : ¬(s.linkCut n q k port = true ∨ Store.get (fun _ => false) s.resync (linkId n q) = true) := by
    rw [hcut, hsync]
    simp
  simp only [exec, execLinkFlitReceive, hpeer, if_neg hopen]
  split
  · rfl
  cases linkDecode bytes <;> rfl

theorem linkFlit_refused (hnacked : Store.get (fun _ => false) s.nacked (linkId n q) = false) (hbad : linkDecode bytes = none) :
    completes (.linkFlitReceive k port bytes) s fun t => Store.get (fun _ => false) t.nacked (linkId n q) = true ∧
      t.refusals = s.refusals ∧ t.net = s.net ∧ otherRegs (portKeys n q 8) s t := by
  obtain ⟨hnet, hrefusals, -⟩ := s.flitSent_same n q
  have hexec := exec_linkFlitReceive (bytes := bytes) hpeer hcut hsync
  rw [hnacked, hbad, if_neg Bool.false_ne_true] at hexec
  dsimp only at hexec
  exact completes_of hexec ⟨by rw [Store.get_set_same], hrefusals, hnet, s.flitSent_reads fun _ h => not_not.2 h⟩

theorem linkFlit_discarded (hnacked : Store.get (fun _ => false) s.nacked (linkId n q) = true) :
    completes (.linkFlitReceive k port bytes) s fun t => t.nacked = s.nacked ∧ t.refusals = s.refusals ∧ t.net = s.net ∧
      otherRegs (portKeys n q 8) s t := by
  obtain ⟨hnet, hrefusals, hsame⟩ := s.flitSent_same n q
  have hexec := exec_linkFlitReceive (bytes := bytes) hpeer hcut hsync
  rw [hnacked, if_pos rfl] at hexec
  exact completes_of hexec ⟨hsame, hrefusals, hnet, s.flitSent_reads fun _ h => not_not.2 h⟩

end

/-- What a flit says of the packets on its link hangs on these alone. -/
theorem State.flitNext_of_net {s t : State} (h : t.net = s.net) (n q : Nat) (bytes : List Byte) : t.flitNext n q bytes = s.flitNext n q bytes := by
  have hwaiting : ∀ v, t.onLink n q v = s.onLink n q v := fun v => by rw [State.onLink, State.onLink, h]
  simp only [State.flitNext, hwaiting]

theorem State.credit_of_net {s t : State} (h : t.net = s.net) (n q v : Nat) : t.credit n q v = s.credit n q v := by
  have hhere : t.atInput n q v = s.atInput n q v := by rw [State.atInput, State.atInput, h]
  rw [State.credit, State.credit, hhere]

/-- A packet of which one more flit has come to input `port` of node `k`, its link's refusals over. -/
def State.flitCame (s : State) (id k port v i : Nat) (f : Flight) : State :=
  { s with net := s.net.set i { f with left := f.left - 1, shares := false }, refusals := Store.erase id s.refusals }.qHigh k port v

/-- The next flit of its channel brings one packet one flit further. -/
theorem State.flitTaken_one {s : State} {id k port v i : Nat} {d : List Byte} {f : Flight} (hflit : s.flitNext k port d = some (1, v))
    (hcredit : s.credit k port v = true) (hnext : s.nextOnLink i k port v f) : s.flitTaken id k port d = s.flitCame id k port v i f := by
  have hedit : editHeads k port v (fun j g => some { g with left := g.left - 1, shares := decide (0 < j) }) 1 0 s.net =
      s.net.set i { f with left := f.left - 1, shares := false } := by
    rw [hnext.editHeads_eq, ← hnext.set_eq, hnext.editHeads_eq]
    rfl
  rw [State.flitTaken, hflit]
  dsimp only
  rw [if_pos hcredit, hedit]
  rfl

theorem State.qHigh_reads {P : Nat → Prop} (s : State) {k port : Nat} (v : Nat) (h : ∀ key, linkKey k port = some key → ¬P (key + 0x10)) :
    Reads P s (s.qHigh k port v) := by
  unfold State.qHigh
  split
  · exact .refl
  · next key hkey => exact Reads.ite (Reads.refl.wf' (h key hkey)) .refl

section
variable (s : State) (id k port v i : Nat) (f : Flight)

theorem State.flitCame_same : (s.flitCame id k port v i f).net = s.net.set i { f with left := f.left - 1, shares := false } ∧
    (s.flitCame id k port v i f).refusals = Store.erase id s.refusals ∧ (s.flitCame id k port v i f).nacked = s.nacked := by
  have hkeeps : ∀ t : State, Keeps 4 t (t.qHigh k port v) := fun t => State.qHigh_keeps (Keeps.refl t) (sub_of_land rfl)
  exact ⟨(hkeeps _).same .net rfl, (hkeeps _).same .refusals rfl, (hkeeps _).same .nacked rfl⟩

theorem State.flitCame_reads {P : Nat → Prop} (h : ∀ key, linkKey k port = some key → ¬P (key + 0x10)) :
    Reads P s (s.flitCame id k port v i f) := State.qHigh_reads _ v h

end

theorem linkFlit_taken {s : State} {k port n q v i : Nat} {bytes d : List Byte} {fixed : Bool} {f : Flight} (hpeer : linkPeer k port = some (n, q))
    (hcut : s.linkCut n q k port = false) (hsync : Store.get (fun _ => false) s.resync (linkId n q) = false)
    (hnacked : Store.get (fun _ => false) s.nacked (linkId n q) = false) (hgood : linkDecode bytes = some (d, fixed))
    (hflit : s.flitNext k port d = some (1, v)) (hcredit : s.credit k port v = true) (hnext : s.nextOnLink i k port v f) :
    completes (.linkFlitReceive k port bytes) s fun t => Store.get (fun _ => 0) t.refusals (linkId n q) = 0 ∧
      t.net = s.net.set i { f with left := f.left - 1, shares := false } ∧ t.nacked = s.nacked ∧
      (∀ key, linkKey n q = some key → t.rd64 (key + 8) = (s.rd64 (key + 8) + 1) % 2 ^ 64) ∧
      (∀ key, linkKey k port = some key →
        t.rd (key + 0x18) = if fixed then sticky (s.rd (key + 0x18)) 1 else s.rd (key + 0x18)) := by
  obtain ⟨hunet, hunacked⟩ := s.flitHeard_same fixed n q k port
  have hnext' : (s.flitHeard n q k port fixed).nextOnLink i k port v f := by
    rw [State.nextOnLink, hunet]
    exact hnext
  have hexec := exec_linkFlitReceive (bytes := bytes) hpeer hcut hsync
  rw [hnacked, hgood, if_neg Bool.false_ne_true] at hexec
  dsimp only at hexec
  rw [State.flitTaken_one ((State.flitNext_of_net hunet k port d).trans hflit) ((State.credit_of_net hunet k port v).trans hcredit) hnext'] at hexec
  obtain ⟨hnet, hrefusals, hnack⟩ := (s.flitHeard n q k port fixed).flitCame_same (linkId n q) k port v i f
  have hcame : ∀ {P : Nat → Prop}, (∀ key, linkKey k port = some key → ¬P (key + 0x10)) →
      Reads P (s.flitHeard n q k port fixed) ((s.flitHeard n q k port fixed).flitCame (linkId n q) k port v i f) :=
    fun h => State.flitCame_reads _ _ _ _ _ _ _ h
  refine completes_of hexec ⟨?_, hnet.trans (by rw [hunet]), hnack.trans hunacked, fun key hkey => ?_, fun key hkey => ?_⟩
  · exact (congrArg (fun r => Store.get (fun _ => 0) r (linkId n q)) hrefusals).trans (Store.get_erase_same ..)
  · have haligned := linkKey_aligned hkey
    have hcount : Reads (fun j => j = key + 8 ∨ j = key + 8 + 4) (s.flitSent n q) (s.flitHeard n q k port fixed) :=
      s.flitHeard_reads fixed fun other hother => by
        have := linkKey_aligned hother
        omega
    have hhigh := hcame (P := fun j => j = key + 8 ∨ j = key + 8 + 4) fun other hother => by
      have := linkKey_aligned hother
      omega
    rw [(hcount.trans hhigh).rd64_eq (.inl rfl) (.inr rfl), s.rd64_flitSent hkey]
  · have haligned := linkKey_aligned hkey
    have hhigh := hcame (P := (· = key + 0x18)) fun other hother => by
      have := linkKey_aligned hother
      omega
    rw [hhigh _ rfl, s.corrected_flitHeard fixed hkey]

/-! ### A NACK (R180, R181) -/

section
variable {s : State} {k port n q i v : Nat} {f : Flight} (hpeer : linkPeer k port = some (n, q)) (href : s.refused n q i 1 = some v)
  (hnacked : Store.get (fun _ => false) s.nacked (linkId k port) = true)
include hpeer href hnacked

theorem exec_linkNack : exec (.linkNack k port (i, 1)) s = .next
    (let x := Store.get (fun _ => 0) s.refusals (linkId k port) + 1
     if x < 5 then { s with refusals := Store.set (fun _ => 0) s.refusals (linkId k port) x,
                            nacked := Store.erase (linkId k port) s.nacked }.portCount k port 0x1C 1
     else s.abandonFlit k port n q v 1) := by
  simp only [exec, execLinkNack, hpeer, href, hnacked, Bool.not_true, Bool.false_eq_true, if_false]
  split <;> rfl

theorem linkNack_resent (hfew : Store.get (fun _ => 0) s.refusals (linkId k port) < 4) :
    completes (.linkNack k port (i, 1)) s fun t =>
      Store.get (fun _ => 0) t.refusals (linkId k port) = Store.get (fun _ => 0) s.refusals (linkId k port) + 1 ∧
      Store.get (fun _ => false) t.nacked (linkId k port) = false ∧ t.net = s.net ∧
      (∀ key, linkKey k port = some key → t.rd (key + 0x1C) = sticky (s.rd (key + 0x1C)) 1 ∧ otherRegs [key + 0x1C] s t) := by
  have hexec := exec_linkNack hpeer href hnacked
  dsimp only at hexec
  rw [if_pos (by omega)] at hexec
  obtain ⟨hnet, hrefusals, hnack, -⟩ := State.portCount_same { s with
    refusals := Store.set (fun _ => 0) s.refusals (linkId k port) (Store.get (fun _ => 0) s.refusals (linkId k port) + 1)
    nacked := Store.erase (linkId k port) s.nacked } k port 0x1C 1
  refine completes_of hexec ⟨?_, ?_, hnet, fun key hkey => ?_⟩
  · exact (congrArg (fun r => Store.get (fun _ => 0) r (linkId k port)) hrefusals).trans (by rw [Store.get_set_same])
  · exact (congrArg (fun r => Store.get (fun _ => false) r (linkId k port)) hnack).trans (Store.get_erase_same ..)
  · rw [State.portCount_eq hkey]
    exact ⟨(State.rd_count ..).trans (if_pos rfl), Reads.count (s := { s with refusals := _, nacked := _ }) .refl (by simp)⟩

end

/-- The packet of an abandoned flit is taken out; its link has forgotten its refusals and re-synchronises. -/
def State.flitAbandoned (s : State) (k port i : Nat) : State :=
  { (s.portCount k port 0x20 1).noteAbandon k port [(s.portCount k port 0x20 1).ref] with net := s.net.eraseIdx i }

theorem State.flitAbandoned_shows (s : State) (k port i : Nat) :
    Store.get (fun _ => 0) (s.flitAbandoned k port i).refusals (linkId k port) = 0 ∧
      Store.get (fun _ => false) (s.flitAbandoned k port i).resync (linkId k port) = true ∧
      ∀ key, linkKey k port = some key → (s.flitAbandoned k port i).rd (key + 0x20) = sticky (s.rd (key + 0x20)) 1 := by
  refine ⟨Store.get_erase_same .., ?_, fun key hkey => ?_⟩
  · rw [State.flitAbandoned, State.noteAbandon, Store.get_set_same]
  · have hcount : (s.flitAbandoned k port i).rd (key + 0x20) = (s.portCount k port 0x20 1).rd (key + 0x20) := rfl
    rw [hcount, State.portCount_eq hkey, State.rd_count, if_pos rfl]

/-- The first abandon of a link leaves it up, and reports its packet. -/
theorem State.abandonFlit_first {s : State} {k port n q i v : Nat} {f : Flight} (href : s.refused n q i 1 = some v)
    (hf : s.net[i]? = some f) (hnone : Store.get (fun _ => []) s.abandons (linkId k port) = []) :
    s.abandonFlit k port n q v 1 = (s.flitAbandoned k port i).loseFlit [f] := by
  obtain ⟨hnet, -, -, habandons⟩ := s.portCount_same k port 0x20 1
  have hnext := State.refused_next href hf
  have hnext' : (s.portCount k port 0x20 1).nextOnLink i n q v f := by
    rw [State.nextOnLink, hnet]
    exact hnext
  unfold State.abandonFlit
  dsimp only
  rw [habandons, hnone, hnext'.onLink_take, hnext'.eraseIdx_eq, hnet]
  rfl

theorem State.loseFlit_sheds (s : State) (fs : List Flight) : Sheds s (s.loseFlit fs) := .foldl fun t x _ => t.lose_sheds x.1 _

theorem linkNack_abandoned {s : State} {k port n q i v : Nat} {f : Flight} (hpeer : linkPeer k port = some (n, q))
    (href : s.refused n q i 1 = some v) (hf : s.net[i]? = some f) (hnacked : Store.get (fun _ => false) s.nacked (linkId k port) = true)
    (hmany : 4 ≤ Store.get (fun _ => 0) s.refusals (linkId k port)) (hnone : Store.get (fun _ => []) s.abandons (linkId k port) = []) :
    completes (.linkNack k port (i, 1)) s fun t => Store.get (fun _ => 0) t.refusals (linkId k port) = 0 ∧
      Store.get (fun _ => false) t.resync (linkId k port) = true ∧ (f.step = none → t.net = s.net.eraseIdx i) ∧
      (∀ key, linkKey k port = some key → t.rd (key + 0x20) = sticky (s.rd (key + 0x20)) 1) := by
  have hexec := exec_linkNack hpeer href hnacked
  dsimp only at hexec
  rw [if_neg (by omega), State.abandonFlit_first href hf hnone] at hexec
  have hkeeps : Keeps 8829513243908 (s.flitAbandoned k port i) ((s.flitAbandoned k port i).loseFlit [f]) :=
    State.loseFlit_keeps (Keeps.refl _) (.same rfl)
  have hrefusals : ((s.flitAbandoned k port i).loseFlit [f]).refusals = (s.flitAbandoned k port i).refusals := hkeeps.same .refusals rfl
  have hresync : ((s.flitAbandoned k port i).loseFlit [f]).resync = (s.flitAbandoned k port i).resync := hkeeps.same .resync rfl
  obtain ⟨hforgot, hagain, hcount⟩ := s.flitAbandoned_shows k port i
  refine completes_of hexec ⟨by rw [hrefusals, hforgot], by rw [hresync, hagain], fun hstep => ?_, fun key hkey => ?_⟩
  · have hsilent : (s.flitAbandoned k port i).loseFlit [f] = s.flitAbandoned k port i := by
      rw [State.loseFlit, List.filter_cons_of_neg (by simp [hstep])]
      rfl
    rw [hsilent]
    rfl
  · have hk : k < 9280 := by
      by_contra hk
      rw [linkKey, if_neg (by omega), if_neg hk] at hkey
      exact absurd hkey (by simp)
    have hfabric := fabricKey_link (off := 0x20) hkey (by decide) (linkPeer_port_lt hpeer hk)
    rw [(State.loseFlit_sheds _ [f]).reads _ hfabric, hcount key hkey]

/-- Settles O28: a flit refused, discarded or taken, a NACK that has it resent or abandoned, and the end of a re-synchronisation. -/
theorem linksRefuseAndResend : Obligations.LinksRefuseAndResend := by
  intro s k port n q hpeer
  refine ⟨fun bytes hcut hsync => ⟨fun hnacked hbad => ?_, fun hnacked => ?_, fun d fixed v i f hnacked hgood hflit hcredit hnext => ?_⟩,
    fun i v f href hf hnacked => ⟨fun hfew => ?_, fun hmany hnone => ?_⟩, ?_⟩
  · exact linkFlit_refused hpeer hcut hsync hnacked hbad
  · exact linkFlit_discarded hpeer hcut hsync hnacked
  · exact linkFlit_taken hpeer hcut hsync hnacked hgood hflit hcredit hnext
  · exact linkNack_resent hpeer href hnacked hfew
  · exact linkNack_abandoned hpeer href hf hnacked hmany hnone
  · exact completes_of rfl ⟨Store.get_erase_same .., Reads.refl⟩

end Sys2Proof.Machine
end

section
/-! SUPPORT. Clearings (05_fabric.md R177, R183 to R185, R194): O30. -/
namespace Sys2Proof.Machine

/-! ### What leaves every partition's clearing -/

/-- Where every partition's clearing stands is in `t` as in `s`. -/
def SameClearing (s t : State) : Prop := ∀ k, (t.part k).clearing = (s.part k).clearing

section
variable {s0 s t : State}

theorem SameClearing.refl : SameClearing s s := fun _ => rfl

theorem SameClearing.trans (h : SameClearing s0 s) (h' : SameClearing s t) : SameClearing s0 t := fun k => (h' k).trans (h k)

theorem SameClearing.of_sameParts (h : SameParts s t) : SameClearing s t := fun k => by
  obtain ⟨fs, e⟩ := h k
  rw [e]

theorem SameClearing.of_keeps {K : Nat} (h : Keeps K s t) (hK : K.testBit Component.parts.ctorIdx = false) : SameClearing s t :=
  .of_sameParts (.of_keeps h hK)

theorem SameClearing.updPart {k : Nat} {f : Part → Part} (h : SameClearing s0 s) (hf : ∀ q, (f q).clearing = q.clearing) :
    SameClearing s0 (s.updPart k f) := h.trans fun j => by
  rw [State.part_updPart]
  split
  · next e => rw [hf, e]
  · rfl

theorem SameClearing.ite {a b : State} {c : Prop} [Decidable c] (ha : SameClearing s0 a) (hb : SameClearing s0 b) :
    SameClearing s0 (if c then a else b) := by
  split
  · exact ha
  · exact hb

theorem SameClearing.foldl {α : Type} {l : List α} {f : State → α → State} (hf : ∀ t, ∀ x ∈ l, SameClearing t (f t x)) :
    SameClearing s (l.foldl f s) := List.foldlRecOn l f (motive := SameClearing s) .refl fun t ht x hx => ht.trans (hf t x hx)

theorem SameClearing.wr {key : Nat} {w : Word} (h : SameClearing s0 s) : SameClearing s0 (s.wr key w) :=
  h.trans (.of_keeps (State.wr_keeps (Keeps.refl s) (.same rfl)) rfl)

theorem SameClearing.wf' {key lo n v : Nat} (h : SameClearing s0 s) : SameClearing s0 (s.wf' key lo n v) := h.wr

end

/-! ### A packet lost, a packet sent -/

theorem State.stopPart_sameClearing (s : State) (k cause : Nat) : SameClearing s (s.stopPart k cause) := by
  have hhalt : ∀ t : State, SameClearing t (t.haltNow k) := fun t =>
    SameClearing.ite ((SameClearing.refl.updPart (f := fun q => { q with halted := true, haltAsked := false }) fun _ => rfl).trans
      (.of_keeps (State.showHalt_keeps (Keeps.refl _) (.same rfl)) rfl)) .refl
  have heffects : SameClearing s (s.stopEffects k) := by
    rw [State.stopEffects_eq]
    have hparts : SameClearing s (s.stopParts k) := .of_sameParts (s.stopParts_sameParts k)
    exact (hparts.updPart (f := Part.stopped) fun _ => rfl).wf'.wf'.trans (hhalt _)
  have hstop : SameClearing s (s.stopNow k cause) := by
    unfold State.stopNow
    exact heffects.wr.wf'.trans (.of_sameParts (State.report_sameParts _ _ _))
  exact SameClearing.ite .refl (SameClearing.ite (SameClearing.refl.updPart fun _ => rfl) hstop)

theorem State.abandon_sameClearing (s : State) (f : Flight) : SameClearing s (s.abandon f) := by
  unfold State.abandon
  split
  · exact (SameClearing.refl.wr.trans (.of_sameParts (State.report_sameParts _ _ _))).trans (State.stopPart_sameClearing _ _ _)
  · exact .refl

theorem State.put_sameClearing (s : State) (f : Flight) : SameClearing s (s.put f) := fun _ => rfl

theorem State.sendOn_sameClearing (s : State) (k port : Nat) (f : Flight) : SameClearing s (s.sendOn k port f) := by
  have hsent : SameClearing s (s.portSent k port) := by
    unfold State.portSent
    split
    · exact SameClearing.refl.wr.wr
    · exact .refl
  unfold State.sendOn
  split
  · exact s.abandon_sameClearing f
  · exact SameClearing.ite (s.abandon_sameClearing f) (hsent.trans (State.put_sameClearing _ _))

theorem State.enter_sameClearing (s : State) (f : Flight) : SameClearing s (s.enter f) := by
  unfold State.enter
  split
  · exact (s.put_sameClearing f).trans (.of_keeps (State.qHigh_keeps (Keeps.refl _) (.same rfl)) rfl)
  · exact s.sendOn_sameClearing _ _ f
  · exact s.put_sameClearing f

/-! ### Injection (R170, R172, R184) -/

theorem State.inject_sameClearing (s : State) (f : Flight) : SameClearing s (s.inject f) :=
  SameClearing.ite (fun _ => rfl) (s.enter_sameClearing f)

theorem State.tapCopies_sameClearing (s : State) (p : Nat) (e : Ev) : SameClearing s (s.tapCopies p e) :=
  .foldl fun _ _ _ => SameClearing.ite (SameClearing.refl.wr.trans (State.inject_sameClearing _ _)) .refl

theorem State.canopyInject_sameClearing (s : State) (p c : Nat) (e : Ev) : SameClearing s (s.canopyInject p c e) :=
  SameClearing.ite (SameClearing.refl.wr.trans (State.inject_sameClearing _ _)) (SameClearing.refl.wr.trans (State.inject_sameClearing _ _))

theorem State.present_sameClearing (s : State) (p : Nat) (e : Ev) : SameClearing s (s.present p e) := by
  have htaps := s.tapCopies_sameClearing p e
  unfold State.present
  dsimp only
  split
  · exact htaps.wr
  · exact htaps.trans (State.canopyInject_sameClearing _ _ _ _)

theorem State.stepNum_sameClearing (s : State) (p off n v : Nat) : SameClearing s (s.stepNum p off n v) := by
  have hread : SameClearing s (s.stepRead p off n) :=
    SameClearing.ite ((SameClearing.of_sameParts (s.meet_sameParts p off n)).trans (.of_keeps (State.flag_keeps (Keeps.refl _) (.same rfl)) rfl))
      (.of_sameParts (s.meet_sameParts p off n))
  exact (SameClearing.ite .refl hread).trans (.of_keeps (State.setNum_keeps (Keeps.refl _) (.same rfl)) rfl)

theorem State.setLogState_sameClearing (s : State) (p slot st : Nat) : SameClearing s (s.setLogState p slot st) :=
  SameClearing.ite ((s.stepNum_sameClearing _ _ _ _).trans (State.stepNum_sameClearing _ _ _ _ _)) (s.stepNum_sameClearing _ _ _ _)

theorem State.presentEntry_sameClearing (s : State) (p slot step st : Nat) (spilled : Bool) :
    SameClearing s (s.presentEntry p slot step st spilled) := by
  unfold State.presentEntry
  split
  · exact .refl
  · exact SameClearing.ite (.of_keeps (K := 1024) (State.updCore_keeps (Keeps.refl _) (sub_of_land rfl)) rfl)
      ((s.setLogState_sameClearing p slot st).trans (State.present_sameClearing _ _ _))

/-- An event of core `p` that a clearing held is presented. -/
def State.presentHeld (p : Nat) (t : State) (slot : Nat) : State :=
  match (t.core p).log.find? fun e => e.slot == slot with
  | none => t
  | some e => t.presentEntry p slot e.step lsSent false

/-- The events of core `p` that a clearing held are presented in their order. -/
def State.presentQueue (t : State) (p : Nat) : State :=
  (t.core p).injQ.foldl (State.presentHeld p) (t.updCore p fun c => { c with injQ := [] })

theorem State.resumeInjection_eq (s : State) (k : Nat) : s.resumeInjection k =
    let t := (s.updPart k fun q => { q with clearing := .none }).flushWaiting k
    (t.coresOfPart k).foldl State.presentQueue t := rfl

theorem State.presentQueue_sameClearing (t : State) (p : Nat) : SameClearing t (t.presentQueue p) := by
  refine SameClearing.trans (.of_keeps (K := 1024) (State.updCore_keeps (Keeps.refl t) (sub_of_land rfl)) rfl) (.foldl fun u slot _ => ?_)
  unfold State.presentHeld
  split
  · exact .refl
  · exact u.presentEntry_sameClearing _ _ _ _ _

theorem State.flushWaiting_sameClearing (t : State) (k : Nat) : SameClearing t (t.flushWaiting k) :=
  SameClearing.trans (s := { t with waiting := t.waiting.filter fun f => !(f.part == k) }) (fun _ => rfl)
    (.foldl fun u _ _ => u.enter_sameClearing _)

/-- The end of a clearing, whose partition has none until its next. -/
theorem State.clearing_resumeInjection (s : State) (k : Nat) : ((s.resumeInjection k).part k).clearing = .none := by
  have hended : ((s.updPart k fun q => { q with clearing := .none }).part k).clearing = .none := by rw [State.part_updPart, if_pos rfl]
  rw [State.resumeInjection_eq]
  exact ((State.flushWaiting_sameClearing _ k).trans (.foldl fun t p _ => t.presentQueue_sameClearing p) k).trans hended

/-! ### The result of a clearing (R194) -/

section
variable (s : State) (k : Nat) {r d : Nat}

theorem State.clearResult_shows (hr : r < 8) : (s.clearResult k r d).rf (Reg.FAB_CLEAR_STATUS k) 29 3 = r ∧
    (s.clearResult k r d).rf (Reg.FAB_CLEAR_STATUS k) 0 24 = d % 2 ^ 24 := by
  rw [State.rf, State.rf, State.clearResult, State.rd_wr, if_pos rfl, fld_ofNat (by omega), fld_ofNat (by omega)]
  omega

theorem State.part_clearResult (j : Nat) : (s.clearResult k r d).part j = s.part j := State.part_wr ..

/-- A clearing moved on, with its result shown. -/
def State.clearingAt (c : Clearing) (r d : Nat) : State := (s.updPart k fun q => { q with clearing := c }).clearResult k r d

theorem State.clearingAt_part (c : Clearing) : ((s.clearingAt k c r d).part k).clearing = c ∧ otherParts k s (s.clearingAt k c r d) := by
  refine ⟨?_, fun j hj => ?_⟩
  · rw [State.clearingAt, State.part_clearResult, State.part_updPart, if_pos rfl]
  · rw [State.clearingAt, State.part_clearResult, State.part_updPart, if_neg hj]

theorem State.clearingAt_shows (c : Clearing) (hr : r < 8) : (s.clearingAt k c r d).rf (Reg.FAB_CLEAR_STATUS k) 29 3 = r ∧
    (s.clearingAt k c r d).rf (Reg.FAB_CLEAR_STATUS k) 0 24 = d % 2 ^ 24 := State.clearResult_shows _ k hr

theorem State.otherRegs_clearingAt (c : Clearing) : otherRegs [Reg.FAB_CLEAR_STATUS k] s (s.clearingAt k c r d) :=
  Reads.wr (s := s.updPart k _) Reads.refl (by simp)

end

theorem exec_clearingStart {s : State} {a k : Nat} (ha : a < 8) (hk : k < 64) (hok : s.access a (Reg.FAB_CLEAR_CTRL k) = .ok)
    (hnone : (s.part k).clearing = .none) : exec (.clearingStart a k) s = .next (s.clearingAt k .pending crPending 0) := by
  have hstart : ¬((!(tst (0x80000000 : Word) 31)) = true ∨ (s.part k).clearing ≠ .none) := by
    rw [hnone]
    decide
  simp only [exec, execClearingStart, if_pos (And.intro ha hk), State.guard_ok hok, State.clearCtrl, if_neg hstart]
  rfl

section
variable {s : State} {k : Nat} (hpending : (s.part k).clearing = .pending) (hclosed : (s.part k).openStep = none)
  (happly : (s.part k).applying = 0)
include hpending hclosed happly

theorem exec_clearingRun : exec (.clearingRun k) s = .next
    (match s.stagedFault k, s.pathFault stagedView k, s.cycleFault stagedView k with
     | some d, _, _ => s.clearingAt k .none crCanopy d
     | none, some r, _ => s.clearingAt k .none crPath r
     | none, none, some r => s.clearingAt k .none crCycle r
     | none, none, none => s.clearingAt k (.draining s.ref (s.allHeld k)) crRunning 0) := by
  simp only [exec, execClearingRun, hpending, hclosed, happly, ne_eq, not_true_eq_false, or_self, if_false]
  cases s.stagedFault k
  case some => rfl
  cases s.pathFault stagedView k
  case some => rfl
  cases s.cycleFault stagedView k <;> rfl

theorem clearingRun_refused {d : Nat} (hfault : s.stagedFault k = some d) :
    completes (.clearingRun k) s fun t => (t.part k).clearing = .none ∧ t.rf (Reg.FAB_CLEAR_STATUS k) 29 3 = crCanopy ∧
      t.rf (Reg.FAB_CLEAR_STATUS k) 0 24 = d % 2 ^ 24 ∧ otherParts k s t ∧ otherRegs [Reg.FAB_CLEAR_STATUS k] s t := by
  have hexec := exec_clearingRun hpending hclosed happly
  rw [hfault] at hexec
  obtain ⟨hpart, hothers⟩ := s.clearingAt_part k (r := crCanopy) (d := d) .none
  obtain ⟨hresult, hdetail⟩ := s.clearingAt_shows k (r := crCanopy) (d := d) .none (by decide)
  exact completes_of hexec ⟨hpart, hresult, hdetail, hothers, s.otherRegs_clearingAt k .none⟩

theorem clearingRun_drains (hfault : s.stagedFault k = none) (hpath : s.pathFault stagedView k = none)
    (hcycle : s.cycleFault stagedView k = none) :
    completes (.clearingRun k) s fun t => (t.part k).clearing = .draining s.ref (s.allHeld k) ∧
      t.rf (Reg.FAB_CLEAR_STATUS k) 29 3 = crRunning ∧ otherParts k s t ∧ otherRegs [Reg.FAB_CLEAR_STATUS k] s t := by
  have hexec := exec_clearingRun hpending hclosed happly
  rw [hfault, hpath, hcycle] at hexec
  obtain ⟨hpart, hothers⟩ := s.clearingAt_part k (r := crRunning) (d := 0) (.draining s.ref (s.allHeld k))
  exact completes_of hexec ⟨hpart, (s.clearingAt_shows k (.draining s.ref (s.allHeld k)) (by decide)).1, hothers,
    s.otherRegs_clearingAt k (.draining s.ref (s.allHeld k))⟩

end

/-! ### The swap (R183, R184) -/

/-- A clearing's end after what it has swapped: injection resumes, and its time and result are shown. -/
def State.cleared (s : State) (k start r : Nat) : State := ((s.resumeInjection k).clearTime k start).clearResult k r 0

theorem State.cleared_shows (s : State) (k start : Nat) {r : Nat} (hr : r < 8) :
    ((s.cleared k start r).part k).clearing = .none ∧ (s.cleared k start r).rf (Reg.FAB_CLEAR_STATUS k) 29 3 = r := by
  refine ⟨?_, (State.clearResult_shows _ k hr).1⟩
  rw [State.cleared, State.part_clearResult, State.clearTime, State.part_wr, State.clearing_resumeInjection]

theorem State.cleared_keeps (s : State) (k start r : Nat) : Keeps 26421967723972 s (s.cleared k start r) :=
  State.clearResult_keeps (State.clearTime_keeps (State.resumeInjection_keeps (Keeps.refl s) (.same rfl)) (sub_of_land rfl)) (sub_of_land rfl)

/-- The one entry that has changed, of the groves of the partition, is switched. -/
theorem State.swapTables_one {s : State} {k e : Nat} (hchanged : s.srcChanged = [(e, true)]) (hmine : s.holds k (e / 1024 / 144) = true) :
    (s.swapTables k).srcLive = Store.set (fun _ => 0) s.srcLive e (Store.get (fun _ => 0) s.srcStaged e) ∧
      (s.swapTables k).srcStaged = Store.set (fun _ => 0) s.srcStaged e (Store.get (fun _ => 0) s.srcLive e) ∧
      (s.swapTables k).srcChanged = [] := by
  have hkeys : s.srcChanged.filter (fun x => s.holds k (x.1 / 1024 / 144)) = [(e, true)] := by
    rw [hchanged, List.filter_cons_of_pos (by exact hmine), List.filter_nil]
  have hrest : s.srcChanged.filter (fun x => !(s.holds k (x.1 / 1024 / 144))) = [] := by
    rw [hchanged, List.filter_cons_of_neg (by simp [hmine]), List.filter_nil]
  have hshow : ∀ (u : State) (gs : List Nat), Keeps 4 u (gs.foldl (fun t g =>
      t.wf' (Reg.FAB_XS_STATUS g) 0 13 ((t.canLive.filter fun e => e.1 / 4096 == g && canValid e.2).length)) u) := fun u gs =>
    keeps_foldl (fun t g h => State.wf'_keeps h (sub_of_land rfl)) (Keeps.refl u)
  unfold State.swapTables
  dsimp only
  refine ⟨((hshow _ _).same .srcLive rfl).trans ?_, ((hshow _ _).same .srcStaged rfl).trans ?_, ((hshow _ _).same .srcChanged rfl).trans hrest⟩
  · dsimp only
    rw [swapKeys, hkeys]
    rfl
  · dsimp only
    rw [swapKeys, hkeys]
    rfl

theorem exec_clearingSwap {s : State} {k start : Nat} {all : Bool} (hdrain : (s.part k).clearing = .draining start all)
    (hdrained : s.drained k all = true) (hsoon : s.ref ≤ start + 3000) :
    exec (.clearingSwap k) s = .next ((((s.swapTables k).applyExclude k).endForwards s.canChanged).cleared k start crDone) := by
  have hlimit : decide (s.ref ≤ start + clearLimit) = true := decide_eq_true hsoon
  simp only [exec, execClearingSwap, hdrain, hdrained, hlimit, Bool.and_self, if_true]
  rfl

theorem clearingSwap_switched {s : State} {k start e : Nat} {all : Bool} (hdrain : (s.part k).clearing = .draining start all)
    (hdrained : s.drained k all = true) (hsoon : s.ref ≤ start + 3000) (hchanged : s.srcChanged = [(e, true)])
    (hmine : s.holds k (e / 1024 / 144) = true) :
    completes (.clearingSwap k) s fun t => (t.part k).clearing = .none ∧ t.rf (Reg.FAB_CLEAR_STATUS k) 29 3 = crDone ∧
      Store.get (fun _ => 0) t.srcLive e = Store.get (fun _ => 0) s.srcStaged e ∧
      Store.get (fun _ => 0) t.srcStaged e = Store.get (fun _ => 0) s.srcLive e ∧ t.srcChanged = [] ∧
      (∀ e', e' ≠ e → Store.get (fun _ => 0) t.srcLive e' = Store.get (fun _ => 0) s.srcLive e') := by
  obtain ⟨hlive, hstaged, hdone⟩ := State.swapTables_one hchanged hmine
  generalize hu : ((s.swapTables k).applyExclude k).endForwards s.canChanged = u
  have hlate : Keeps 26456126136068 (s.swapTables k) u := by
    rw [← hu]
    exact State.endForwards_keeps (State.applyExclude_keeps (Keeps.refl _) (sub_of_land rfl)) (sub_of_land rfl)
  have hend := u.cleared_keeps k start crDone
  obtain ⟨hnone, hresult⟩ := u.cleared_shows k start (r := crDone) (by decide)
  have hlive' : (u.cleared k start crDone).srcLive = _ := (hend.same .srcLive rfl).trans ((hlate.same .srcLive rfl).trans hlive)
  have hstaged' : (u.cleared k start crDone).srcStaged = _ := (hend.same .srcStaged rfl).trans ((hlate.same .srcStaged rfl).trans hstaged)
  have hdone' : (u.cleared k start crDone).srcChanged = _ := (hend.same .srcChanged rfl).trans ((hlate.same .srcChanged rfl).trans hdone)
  have hexec := exec_clearingSwap hdrain hdrained hsoon
  rw [hu] at hexec
  refine completes_of hexec ⟨hnone, hresult, ?_, ?_, hdone', fun e' he' => ?_⟩
  · rw [hlive', Store.get_set_same]
  · rw [hstaged', Store.get_set_same]
  · rw [hlive', Store.get_set_other _ _ _ he']

/-! ### The timeout (R185) -/

theorem exec_clearingTimeout {s : State} {k start : Nat} {all : Bool} (hdrain : (s.part k).clearing = .draining start all)
    (hdrained : s.drained k all = false) (hlate : start + 3000 ≤ s.ref) : exec (.clearingTimeout k) s = .next (s.cleared k start crTimeout) := by
  have hover : (decide (start + clearLimit < s.ref) || (decide (s.ref = start + clearLimit) && !(s.drained k all))) = true := by
    rw [hdrained, clearLimit]
    simp only [Bool.not_false, Bool.and_true, Bool.or_eq_true, decide_eq_true_eq]
    omega
  simp only [exec, execClearingTimeout, hdrain, hover, if_true]
  rfl

theorem clearingTimeout_unswitched {s : State} {k start : Nat} {all : Bool} (hdrain : (s.part k).clearing = .draining start all)
    (hdrained : s.drained k all = false) (hlate : start + 3000 ≤ s.ref) :
    completes (.clearingTimeout k) s fun t => (t.part k).clearing = .none ∧ t.rf (Reg.FAB_CLEAR_STATUS k) 29 3 = crTimeout ∧
      t.srcLive = s.srcLive ∧ t.canLive = s.canLive ∧ t.detLive = s.detLive ∧ t.srcChanged = s.srcChanged := by
  obtain ⟨hnone, hresult⟩ := s.cleared_shows k start (r := crTimeout) (by decide)
  have hend := s.cleared_keeps k start crTimeout
  exact completes_of (exec_clearingTimeout hdrain hdrained hlate) ⟨hnone, hresult, hend.same .srcLive rfl, hend.same .canLive rfl,
    hend.same .detLive rfl, hend.same .srcChanged rfl⟩

/-- Settles O30: a clearing is started, checked, and ends with its entry switched or with nothing switched, each by its own lemma. -/
theorem clearings : Obligations.Clearings := by
  refine ⟨fun s k hk => ⟨fun a ha hok hnone => ?_, fun hpending hclosed happly => ⟨fun d hfault => ?_, fun hfault hpath hcycle => ?_⟩⟩,
    fun s k start all _ hdrain => ⟨fun e hdrained hsoon hchanged hmine => ?_, fun hdrained hlate => ?_⟩⟩
  · obtain ⟨hpart, hothers⟩ := s.clearingAt_part k (r := crPending) (d := 0) .pending
    exact completes_of (exec_clearingStart ha hk hok hnone) ⟨hpart, (s.clearingAt_shows k .pending (by decide)).1, hothers⟩
  · exact clearingRun_refused hpending hclosed happly hfault
  · exact clearingRun_drains hpending hclosed happly hfault hpath hcycle
  · exact clearingSwap_switched hdrain hdrained hsoon hchanged hmine
  · exact clearingTimeout_unswitched hdrain hdrained hlate

end Sys2Proof.Machine
end

section
/-! SUPPORT. A handler's instructions as they complete (06_core_messaging.md R207 to R209, R213): the handler's registers and its pc
after each change, and the arithmetic instructions (O5). -/
namespace Sys2Proof.Machine

/-! ### What an instruction leaves -/

theorem Core.h_setH_of_lt (c : Core) (rd : Nat) {r : Nat} (w : Word) (hr : r < 16) :
    (c.setH rd w).h r = if r = rd ∧ r ≠ 0 then w else c.h r := by
  by_cases hrd : rd < 16
  · exact c.h_setH w hrd
  · rw [Core.setH, if_pos (.inr (by omega)), if_neg (by omega)]

section
variable {s u : State} {p : Nat}

theorem State.h_setH_of_lt (rd : Nat) {r : Nat} (w : Word) (hr : r < 16) :
    (s.setH p rd w).h p r = if r = rd ∧ r ≠ 0 then w else s.h p r := by
  rw [State.h, State.setH, State.core_updCore_same, Core.h_setH_of_lt _ _ _ hr, State.h]

theorem State.h_of_core (h : u.core p = s.core p) (r : Nat) : u.h p r = s.h p r := by
  rw [State.h, h, State.h]

theorem keptRegs_of_hregs (h : (u.core p).hregs = (s.core p).hregs) : keptRegs p s u := fun r _ => by
  simp only [State.h, Core.h, h]

@[simp] theorem State.rd_charged (cycles k : Nat) : (s.charged p cycles).rd k = s.rd k := State.rd_updCore ..
@[simp] theorem State.rd_setH (r : Nat) (w : Word) (k : Nat) : (s.setH p r w).rd k = s.rd k := State.rd_updCore ..

theorem State.otherCores_charged (cycles : Nat) : otherCores p s (s.charged p cycles) := otherCores_updCore s p _

theorem State.core_charged_same (cycles : Nat) : (s.charged p cycles).core p = { s.core p with budget := (s.core p).budget - cycles } :=
  State.core_updCore_same ..

/-- The pc is set in HDL_STATUS, and nothing else is changed with it. -/
theorem State.rd_setPc (n k : Nat) : (s.setPc p n).rd k =
    if k = Reg.HDL_STATUS p then setFld (s.rd (Reg.HDL_STATUS p)) 0 11 n else s.rd k := State.rd_wf' ..

@[simp] theorem State.core_setPc (n q : Nat) : (s.setPc p n).core q = s.core q := State.core_wf' ..
@[simp] theorem State.core_hdlNext (q : Nat) : (s.hdlNext p).core q = s.core q := State.core_setPc ..
@[simp] theorem State.byte_hdlNext (q o : Nat) : (s.hdlNext p).byte q o = s.byte q o := State.byte_wf' ..

theorem State.h_hdlNext (r : Nat) : (s.hdlNext p).h p r = s.h p r := State.h_of_core (State.core_hdlNext p) r

theorem State.pc_setPc (n : Nat) : (s.setPc p n).pc p = n % 2 ^ 11 := by
  rw [State.pc, State.rf, State.rd_setPc, if_pos rfl, fld_setFld_same _ _ _ _ (by decide)]

/-- An instruction that has changed no register of the set-up space, and of the cores' own states only the registers and the budget
of its handler, is complete once the pc is set. -/
theorem wentTo_setPc {cycles : Nat} (hrd : ∀ k, u.rd k = s.rd k)
    (hcore : ∃ regs, u.core p = { s.core p with hregs := regs, budget := (s.core p).budget - cycles })
    (hothers : otherCores p s u) (n : Nat) : wentTo p cycles n s (u.setPc p n) := by
  obtain ⟨regs, hcore⟩ := hcore
  refine ⟨?_, State.pc_setPc n, ?_, fun q hq => ?_, fun k hk => ?_⟩
  · rw [State.rd_setPc, if_pos rfl, hrd]
  · rw [State.core_setPc, hcore]
  · rw [State.core_setPc, hothers q hq]
  · rw [State.rd_setPc, if_neg (List.ne_of_not_mem_cons hk), hrd]

theorem wentOn_hdlNext {cycles : Nat} (hrd : ∀ k, u.rd k = s.rd k)
    (hcore : ∃ regs, u.core p = { s.core p with hregs := regs, budget := (s.core p).budget - cycles })
    (hothers : otherCores p s u) : wentOn p cycles s (u.hdlNext p) := by
  have hpc : u.pc p = s.pc p := by rw [State.pc, State.rf, hrd, State.pc, State.rf]
  rw [State.hdlNext, hpc]
  exact wentTo_setPc hrd hcore hothers _

theorem wentTo_charged (cycles n : Nat) : wentTo p cycles n s ((s.charged p cycles).setPc p n) :=
  wentTo_setPc (State.rd_charged cycles) ⟨_, State.core_charged_same cycles⟩ (State.otherCores_charged cycles) n

theorem wrote_charged_hdlAnswer (cycles : Nat) {rd : Nat} (w : Word) (hrd : rd < 16) :
    wrote p rd w s ((s.charged p cycles).hdlAnswer p rd w) := fun r hr => by
  rw [wrote_hdlAnswer w hrd r hr, State.h_charged]

end

/-! ### Arithmetic (R209) -/

section
variable {s : State} {p op rd ra rb imm : Nat} {c : Instr}

/-- A command that only answers: its register is written and the next instruction issues. -/
theorem completes_hdlAnswer {cycles : Nat} {w : Word} (hexec : exec c s = .next ((s.charged p cycles).hdlAnswer p rd w)) (hrd : rd < 16) :
    completes c s fun t => wrote p rd w s t ∧ wentOn p cycles s t :=
  completes_of hexec ⟨wrote_charged_hdlAnswer cycles w hrd, wentOn_hdlAnswer cycles rd w⟩

theorem aluR_completes {cycles : Nat} {f : Word → Word → Word} (hexec : exec c s = .next (s.aluR p op rd ra rb 0 cycles f))
    (hrd : rd < 16) (hra : ra < 16) (hrb : rb < 16) (hiss : s.willIssue p (encR op rd ra rb 0)) :
    completes c s fun t => wrote p rd (f (s.h p ra) (s.h p rb)) s t ∧ wentOn p cycles s t := by
  refine completes_hdlAnswer (hexec.trans (congrArg _ ?_)) hrd
  simp only [State.aluR, State.instr_of_willIssue _ _ hiss, Nat.zero_mod, ne_eq, not_true_eq_false, if_false, Nat.mod_eq_of_lt hrd,
    Nat.mod_eq_of_lt hra, Nat.mod_eq_of_lt hrb, State.h_charged, State.hdlAnswer]

theorem aluI_completes {f : Word → Word} (hexec : exec c s = .next (s.aluI p op rd ra imm f)) (hrd : rd < 16) (hra : ra < 16)
    (hiss : s.willIssue p (encI op rd ra imm)) : completes c s fun t => wrote p rd (f (s.h p ra)) s t ∧ wentOn p 1 s t := by
  refine completes_hdlAnswer (hexec.trans (congrArg _ ?_)) hrd
  simp only [State.aluI, State.instr_of_willIssue _ _ hiss, Nat.mod_eq_of_lt hrd, Nat.mod_eq_of_lt hra, State.h_charged, State.hdlAnswer]

theorem lui_completes (hrd : rd < 16) (himm : imm < 2 ^ 18) (hiss : s.willIssue p (encI 0x0E rd 0 imm)) :
    completes (.lui p rd 0 imm) s fun t => wrote p rd (BitVec.ofNat 32 (imm * 2 ^ 14)) s t ∧ wentOn p 1 s t := by
  refine completes_hdlAnswer (congrArg Host.Outcome.next ?_) hrd
  simp only [State.instr_of_willIssue _ _ hiss, Nat.zero_mod, ne_eq, not_true_eq_false, if_false, Nat.mod_eq_of_lt hrd,
    Nat.mod_eq_of_lt himm, State.hdlAnswer]

/-- The selectors 0 to 8 are those that have a value (R211). -/
theorem State.isSome_sysValue (s : State) (p : Nat) {sel : Nat} (h : sel ≤ 8) : (s.sysValue p sel).isSome = true := by
  unfold State.sysValue
  interval_cases sel <;> rfl

theorem sys_completes (hrd : rd < 16) (himm : imm < 2 ^ 18) (hsel : imm ≤ 8) (hiss : s.willIssue p (encI 0x15 rd 0 imm)) :
    completes (.sys p rd 0 imm) s fun t =>
      wrote p rd ((s.sysValue p imm).getD 0) s t ∧ (s.sysValue p imm).isSome = true ∧ wentOn p 1 s t := by
  have hsome := s.isSome_sysValue p hsel
  obtain ⟨w, hw⟩ := Option.isSome_iff_exists.1 hsome
  have hexec : exec (.sys p rd 0 imm) s = .next ((s.charged p 1).hdlAnswer p rd w) := by
    simp only [exec, execSys, State.instr_of_willIssue _ _ hiss, Nat.zero_mod, ne_eq, not_true_eq_false, if_false, Nat.mod_eq_of_lt hrd,
      Nat.mod_eq_of_lt himm, hw, State.hdlAnswer]
  obtain ⟨t, ht, hwrote, hwent⟩ := completes_hdlAnswer hexec hrd
  exact ⟨t, ht, by rwa [hw], hsome, hwent⟩

end

/-- Settles O5: each instruction only answers, with the result that R209 gives. -/
theorem handlerArithmetic : Obligations.HandlerArithmetic := by
  refine ⟨fun s p rd ra rb hrd hra hrb => ?_, fun s p rd ra imm hrd hra himm => ?_⟩
  · exact ⟨aluR_completes (f := (· + ·)) rfl hrd hra hrb, aluR_completes (f := (· - ·)) rfl hrd hra hrb,
      aluR_completes (f := (· &&& ·)) rfl hrd hra hrb, aluR_completes (f := (· ||| ·)) rfl hrd hra hrb,
      aluR_completes (f := (· ^^^ ·)) rfl hrd hra hrb, aluR_completes (f := fun a b => a <<< (b.toNat % 32)) rfl hrd hra hrb,
      aluR_completes (f := fun a b => a >>> (b.toNat % 32)) rfl hrd hra hrb,
      aluR_completes (f := fun a b => a.sshiftRight (b.toNat % 32)) rfl hrd hra hrb,
      aluR_completes (f := fun a b => if a.toInt < b.toInt then 1 else 0) rfl hrd hra hrb,
      aluR_completes (f := fun a b => BitVec.ofInt 32 (sx 16 a.toNat * sx 16 b.toNat)) rfl hrd hra hrb⟩
  · have hmod := Nat.mod_eq_of_lt himm
    exact ⟨aluI_completes (f := (· + BitVec.ofInt 32 (sx 18 imm))) rfl hrd hra,
      aluI_completes (f := (· &&& BitVec.ofNat 32 imm)) (by rw [exec, execAndi, hmod]) hrd hra,
      aluI_completes (f := (· ||| BitVec.ofNat 32 imm)) (by rw [exec, execOri, hmod]) hrd hra,
      lui_completes hrd himm, fun hiss hsel => sys_completes hrd himm hsel hiss⟩

end Sys2Proof.Machine
end

section
/-! SUPPORT. A handler's loads and stores (06_core_messaging.md R209, R212): O6. -/
namespace Sys2Proof.Machine

/-! ### The data window and local memory -/

section
variable {s : State} {p ra imm size ea : Nat}

theorem State.dataAt_charged (cycles : Nat) : (s.charged p cycles).dataAt p ra imm size = s.dataAt p ra imm size := by
  simp only [State.dataAt, State.h_charged]
  rfl

/-- An address inside the data area, aligned where a word is accessed. -/
theorem State.dataAt_of_inside (hra : ra < 16) (hea : (s.h p ra).toInt + sx 18 imm = (ea : Int))
    (hfit : ea + size ≤ s.rf (Reg.HDL_DATA_SIZE p) 0 18) (halign : size = 4 → ea % 4 = 0) :
    s.dataAt p ra imm size = .ok (s.rf (Reg.HDL_DATA_BASE p) 0 18 + ea) := by
  have hin : ¬((ea : Int) < 0 ∨ ((s.rf (Reg.HDL_DATA_SIZE p) 0 18 : Nat) : Int) < ea + (size : Int)) := by omega
  have hword : ¬(size = 4 ∧ (ea : Int) % 4 ≠ 0) := by omega
  simp only [State.dataAt, Nat.mod_eq_of_lt hra, sword, sext18, hea, hin, hword, if_false, Int.toNat_natCast]

theorem State.intact_charged {q off n : Nat} (cycles : Nat) (h : s.intact q off n) : (s.charged p cycles).intact q off n := h

theorem State.byte_charged (cycles q o : Nat) : (s.charged p cycles).byte q o = s.byte q o := State.byte_updCore ..

theorem State.num_hdlNext (off n : Nat) : (s.hdlNext p).num p off n = s.num p off n := by
  simp only [State.num, State.bytes, State.byte_hdlNext]

theorem State.num_one (s : State) (p off : Nat) : BitVec.ofNat 32 (s.num p off 1) = (s.byte p off).setWidth 32 := by
  refine BitVec.eq_of_toNat_eq ?_
  simp [State.num, State.bytes, ofBytes]

theorem State.toNat_word (s : State) (p off : Nat) : (s.word p off).toNat = s.num p off 4 % 2 ^ 32 := BitVec.toNat_ofNat ..

end

/-! ### Loads -/

section
variable {s : State} {p op rd ra imm size ea : Nat} {c : Instr}

theorem load_completes (hexec : exec c s = .next (s.hdlLoad p op rd ra imm size)) (hrd : rd < 16) (hra : ra < 16)
    (hiss : s.willIssue p (encI op rd ra imm)) (hea : (s.h p ra).toInt + sx 18 imm = (ea : Int))
    (hfit : ea + size ≤ s.rf (Reg.HDL_DATA_SIZE p) 0 18) (halign : size = 4 → ea % 4 = 0)
    (hin : s.intact p (s.rf (Reg.HDL_DATA_BASE p) 0 18 + ea) size) :
    completes c s fun t => wrote p rd (BitVec.ofNat 32 (s.num p (s.rf (Reg.HDL_DATA_BASE p) 0 18 + ea) size)) s t ∧ wentOn p 2 s t := by
  have hin' := State.intact_charged (p := p) 2 hin
  refine completes_hdlAnswer (hexec.trans (congrArg _ ?_)) hrd
  simp only [State.hdlLoad, State.instr_of_willIssue _ _ hiss, State.dataAt_charged, State.dataAt_of_inside hra hea hfit halign,
    State.meet_of_intact hin', hin'.1, Bool.false_eq_true, if_false, Nat.mod_eq_of_lt hrd]
  rfl

/-- A pair of handler registers after both are written; h0 stays zero (R207). -/
theorem State.h_setPair {r : Nat} (a b : Word) (hr : r < 16) :
    (s.setPair p rd a b).h p r = if r = rd + 1 then b else if r = rd ∧ r ≠ 0 then a else s.h p r := by
  rw [State.setPair, State.h_setH_of_lt _ _ hr, State.h_setH_of_lt _ _ hr]
  refine if_congr ⟨And.left, fun h => ⟨h, by omega⟩⟩ rfl rfl

theorem State.core_setPair (a b : Word) (q : Nat) :
    (s.setPair p rd a b).core q = if q = p then ((s.core p).setH rd a).setH (rd + 1) b else s.core q := by
  rw [State.setPair, State.setH, State.core_updCore, State.setH, State.core_updCore, State.core_updCore, if_pos rfl]
  split <;> rfl

theorem State.rd_setPair (a b : Word) (k : Nat) : (s.setPair p rd a b).rd k = s.rd k := by
  rw [State.setPair, State.rd_setH, State.rd_setH]

theorem Core.setH_setH_eq (c : Core) (r r' : Nat) (a b : Word) : ∃ regs, (c.setH r a).setH r' b = { c with hregs := regs } := by
  rw [Core.setH_eq, Core.setH_eq]
  exact ⟨_, rfl⟩

/-- An instruction that answers in a pair of registers. -/
theorem wentOn_setPair (cycles : Nat) (a b : Word) : wentOn p cycles s (((s.charged p cycles).setPair p rd a b).hdlNext p) := by
  refine wentOn_hdlNext (fun k => ?_) ?_ (fun q hq => ?_)
  · rw [State.rd_setPair, State.rd_charged]
  · obtain ⟨regs, hregs⟩ := ((s.charged p cycles).core p).setH_setH_eq rd (rd + 1) a b
    rw [State.core_setPair, if_pos rfl, hregs, State.core_charged_same]
    exact ⟨regs, rfl⟩
  · rw [State.core_setPair, if_neg hq, State.otherCores_charged _ q hq]

theorem State.grpOf_charged (cycles i : Nat) : (s.charged p cycles).grpOf p i = s.grpOf p i := State.grpOf_congr (fun _ _ => State.rd_charged ..) i

theorem exec_nrd {g : Grp} (hrd : rd < 15) (hra : ra < 16) (hiss : s.willIssue p (encI 0x14 rd ra imm))
    (hea : (s.h p ra).toInt + sx 18 imm = (ea : Int)) (hlane : ea ≤ 4095) (hgrp : s.grpOf p ea = some g)
    (hin : s.intact p (g.copyAt ea ((s.core p).live (ea / 64))) 8) :
    exec (.nrd p rd ra imm) s = .next (((s.charged p 2).setPair p rd (s.word p (g.copyAt ea ((s.core p).live (ea / 64))))
      (s.word p (g.copyAt ea ((s.core p).live (ea / 64)) + 4))).hdlNext p) := by
  have hin' := State.intact_charged (p := p) 2 hin
  have hlive : ((s.charged p 2).core p).live (ea / 64) = (s.core p).live (ea / 64) := by
    rw [State.core_charged_same]
    rfl
  have hpair : rd ≠ 15 := by omega
  have hrange : ¬((ea : Int) < 0 ∨ 4095 < (ea : Int)) := by omega
  simp only [exec, execNrd, State.instr_of_willIssue _ _ hiss, Nat.mod_eq_of_lt hra, State.h_charged, sword, sext18, hea, hpair, hrange,
    if_false, Int.toNat_natCast, State.grpOf_charged, hgrp, hlive, State.meet_of_intact hin', hin'.1, Bool.false_eq_true,
    Nat.mod_eq_of_lt (show rd < 16 by omega)]
  rfl

theorem nrd_completes {g : Grp} (hrd : rd < 15) (hra : ra < 16) (hiss : s.willIssue p (encI 0x14 rd ra imm))
    (hea : (s.h p ra).toInt + sx 18 imm = (ea : Int)) (hlane : ea ≤ 4095) (hgrp : s.grpOf p ea = some g)
    (hin : s.intact p (g.copyAt ea ((s.core p).live (ea / 64))) 8) :
    completes (.nrd p rd ra imm) s fun t =>
      (rd ≠ 0 → t.h p rd = s.word p (g.copyAt ea ((s.core p).live (ea / 64)))) ∧
      t.h p (rd + 1) = s.word p (g.copyAt ea ((s.core p).live (ea / 64)) + 4) ∧
      (∀ r, r < 16 → r ≠ rd → r ≠ rd + 1 → t.h p r = s.h p r) ∧ wentOn p 2 s t := by
  refine completes_of (exec_nrd hrd hra hiss hea hlane hgrp hin) ⟨fun h0 => ?_, ?_, fun r hr hne hne' => ?_, wentOn_setPair ..⟩
  · rw [State.h_hdlNext, State.h_setPair _ _ (by omega), if_neg (by omega), if_pos ⟨rfl, h0⟩]
  · rw [State.h_hdlNext, State.h_setPair _ _ (by omega), if_pos rfl]
  · rw [State.h_hdlNext, State.h_setPair _ _ hr, if_neg hne', if_neg (hne ·.1), State.h_charged]

end

/-! ### Stores -/

section
variable {s : State} {p op rd ra imm size ea : Nat} {c : Instr}

theorem store_completes (hexec : exec c s = .next (s.hdlStore p op rd ra imm size)) (hrd : rd < 16) (hra : ra < 16)
    (hiss : s.willIssue p (encI op rd ra imm)) (hea : (s.h p ra).toInt + sx 18 imm = (ea : Int))
    (hfit : ea + size ≤ s.rf (Reg.HDL_DATA_SIZE p) 0 18) (halign : size = 4 → ea % 4 = 0)
    (hin : s.intact p (s.rf (Reg.HDL_DATA_BASE p) 0 18 + ea) size) :
    completes c s fun t => t.num p (s.rf (Reg.HDL_DATA_BASE p) 0 18 + ea) size = (s.h p rd).toNat % 256 ^ size ∧
      otherBytes p (s.rf (Reg.HDL_DATA_BASE p) 0 18 + ea) size s t ∧ keptRegs p s t ∧ wentOn p 1 s t := by
  have hin' := State.intact_charged (p := p) 1 hin
  have hcore : ∀ q, ((s.charged p 1).setNum p (s.rf (Reg.HDL_DATA_BASE p) 0 18 + ea) size (s.h p rd).toNat).core q = (s.charged p 1).core q :=
    fun q => State.core_setNum ..
  refine completes_of (t := ((s.charged p 1).setNum p (s.rf (Reg.HDL_DATA_BASE p) 0 18 + ea) size (s.h p rd).toNat).hdlNext p)
    (hexec.trans (congrArg Host.Outcome.next ?_)) ⟨?_, ?_, ?_, ?_⟩
  · simp only [State.hdlStore, State.instr_of_willIssue _ _ hiss, State.dataAt_charged, State.dataAt_of_inside hra hea hfit halign,
      State.meet_of_intact hin', hin'.1, Bool.false_eq_true, if_false, Nat.mod_eq_of_lt hrd, State.h_charged]
  · rw [State.num_hdlNext, State.num_setNum hin'.1]
  · intro q o ho
    rw [State.byte_hdlNext, State.otherBytes_setNum hin'.1 _ q o ho, State.byte_charged]
  · intro r _
    rw [State.h_hdlNext, State.h_of_core (hcore p), State.h_charged]
  · refine wentOn_hdlNext (fun k => ?_) ?_ (fun q hq => ?_)
    · rw [State.rd_setNum, State.rd_charged]
    · rw [hcore, State.core_charged_same]
      exact ⟨_, rfl⟩
    · rw [hcore, State.otherCores_charged _ q hq]

end

/-- Settles O6: loads and stores inside the data area, by what the memory reads there before and after. -/
theorem handlerMemory : Obligations.HandlerMemory := by
  refine ⟨fun s p rd ra imm ea hrd hra _ hea => ⟨fun hiss halign hfit hin => ?_, fun hiss hfit hin => ?_,
    fun g hiss hrd' hlane hgrp hin => nrd_completes hrd' hra hiss hea hlane hgrp hin⟩,
    fun s p rd ra imm ea hrd hra _ hea => ⟨fun hiss halign hfit hin => ?_, fun hiss hfit hin => ?_⟩⟩
  · exact load_completes rfl hrd hra hiss hea hfit (fun _ => halign) hin
  · rw [← State.num_one]
    exact load_completes rfl hrd hra hiss hea hfit (fun h => absurd h (by decide)) hin
  · obtain ⟨t, ht, hnum, hrest⟩ := store_completes (c := .st p rd ra imm) rfl hrd hra hiss hea hfit (fun _ => halign) hin
    exact ⟨t, ht, BitVec.eq_of_toNat_eq (by rw [State.toNat_word, hnum]; have := (s.h p rd).isLt; omega), hrest⟩
  · obtain ⟨t, ht, hnum, hrest⟩ := store_completes (c := .stb p rd ra imm) rfl hrd hra hiss hea hfit (fun h => absurd h (by decide)) hin
    refine ⟨t, ht, BitVec.eq_of_toNat_eq ?_, hrest⟩
    have hbyte := congrArg BitVec.toNat (t.num_one p (s.rf (Reg.HDL_DATA_BASE p) 0 18 + ea))
    simp only [BitVec.toNat_ofNat, BitVec.toNat_setWidth, hnum] at hbyte ⊢
    have := (t.byte p (s.rf (Reg.HDL_DATA_BASE p) 0 18 + ea)).isLt
    omega

end Sys2Proof.Machine
end

section
/-! SUPPORT. Branches and the end of a handler (06_core_messaging.md R209, R213, R215): O7. -/
namespace Sys2Proof.Machine

/-! ### Branches and jumps -/

section
variable {s : State} {p op ra rb off : Nat} {f : Word → Word → Bool} {c : Instr}

theorem branch_taken_completes (hexec : exec c s = .next (s.branch p op ra rb off f)) (hra : ra < 16) (hrb : rb < 16)
    (hiss : s.willIssue p (encI op ra rb off)) (hf : f (s.h p ra) (s.h p rb) = true)
    (hlo : 0 ≤ (s.pc p : Int) + sx 18 off) (hhi : (s.pc p : Int) + sx 18 off ≤ 2047) :
    completes c s fun t => wentTo p 2 ((s.pc p : Int) + sx 18 off).toNat s t ∧ keptRegs p s t := by
  have hpc : (s.charged p 2).pc p = s.pc p := by rw [State.pc, State.rf, State.rd_charged, State.pc, State.rf]
  have hin : ¬((s.pc p : Int) + sx 18 off < 0 ∨ 2047 < (s.pc p : Int) + sx 18 off) := by omega
  refine completes_of (t := (s.charged p 2).setPc p ((s.pc p : Int) + sx 18 off).toNat) (hexec.trans (congrArg _ ?_))
    ⟨wentTo_charged 2 _, fun r _ => ?_⟩
  · simp only [State.branch, Nat.mod_eq_of_lt hra, Nat.mod_eq_of_lt hrb, hf, if_true, State.instr_of_willIssue _ _ hiss, hpc, sext18, hin,
      if_false]
  · rw [State.h_of_core (State.core_setPc ..), State.h_charged]

theorem branch_not_taken_completes (hexec : exec c s = .next (s.branch p op ra rb off f)) (hra : ra < 16) (hrb : rb < 16)
    (hiss : s.willIssue p (encI op ra rb off)) (hf : f (s.h p ra) (s.h p rb) = false) :
    completes c s fun t => wentOn p 1 s t ∧ keptRegs p s t := by
  refine completes_of (t := (s.charged p 1).hdlNext p) (hexec.trans (congrArg _ ?_)) ⟨?_, fun r _ => ?_⟩
  · simp only [State.branch, Nat.mod_eq_of_lt hra, Nat.mod_eq_of_lt hrb, hf, Bool.false_eq_true, if_false, State.instr_of_willIssue _ _ hiss]
  · exact wentOn_hdlNext (State.rd_charged 1) ⟨_, State.core_charged_same 1⟩ (State.otherCores_charged 1)
  · rw [State.h_hdlNext, State.h_charged]

theorem jump_completes {target : Nat} (htarget : target < 2 ^ 11) (hiss : s.willIssue p (encJ 0x24 target)) :
    completes (.j p target) s fun t => wentTo p 2 target s t ∧ keptRegs p s t := by
  have hlow : target % 2 ^ 26 / 2 ^ 11 = 0 := by omega
  have hpc : target % 2 ^ 11 = target := Nat.mod_eq_of_lt htarget
  refine completes_of (t := (s.charged p 2).setPc p target) ?_ ⟨wentTo_charged 2 _, fun r _ => ?_⟩
  · simp only [exec, execJ, State.instr_of_willIssue _ _ hiss, hlow, hpc, ne_eq, not_true_eq_false, if_false]
  · rw [State.h_of_core (State.core_setPc ..), State.h_charged]

end

/-! ### The end of a handler -/

theorem hdlStatus_ne_emitStatus (p : Nat) : Reg.HDL_STATUS p ≠ Reg.CORE_EMIT_STATUS p := coreReg_ne (by decide)

section
variable {s : State} {p : Nat}

theorem State.core_stallShow (q : Nat) : (s.stallShow p).core q = s.core q := State.core_wf' ..
theorem State.core_hdlState (st q : Nat) : (s.hdlState p st).core q = s.core q := State.core_wf' ..
theorem State.mem_wf' (key lo n v : Nat) : (s.wf' key lo n v).mem = s.mem := State.mem_wr ..

/-- A core whose handler waits for nothing. -/
def Core.waitsForNothing (c : Core) : Core := { c with wait := .none }

/-- The handler ends and none is waiting outside it: the engine is IDLE. -/
theorem State.hdlEnd_eq (hout : (s.core p).outer = none) :
    s.hdlEnd p = ((s.updCore p Core.waitsForNothing).stallShow p).hdlState p hsIdle := by
  simp only [State.hdlEnd, hout]
  rfl

theorem State.core_hdlEnd (hout : (s.core p).outer = none) (q : Nat) :
    (s.hdlEnd p).core q = if q = p then (s.core p).waitsForNothing else s.core q := by
  rw [State.hdlEnd_eq hout, State.core_hdlState, State.core_stallShow, State.core_updCore]

/-- Of the registers HDL_STATUS and CORE_EMIT_STATUS change. -/
theorem State.rd_hdlEnd (hout : (s.core p).outer = none) {k : Nat} (hk : k ≠ Reg.CORE_EMIT_STATUS p) :
    (s.hdlEnd p).rd k = if k = Reg.HDL_STATUS p then setFld (s.rd (Reg.HDL_STATUS p)) 29 3 hsIdle else s.rd k := by
  rw [State.hdlEnd_eq hout, State.hdlState, State.stallShow, State.rd_wf', State.rd_wf', State.rd_wf', if_neg (hdlStatus_ne_emitStatus p),
    if_neg hk, State.rd_updCore, State.rd_updCore]

theorem State.mem_hdlEnd (hout : (s.core p).outer = none) : (s.hdlEnd p).mem = s.mem := by
  rw [State.hdlEnd_eq hout, State.hdlState, State.stallShow, State.mem_wf', State.mem_wf', State.mem_updCore]

/-- The handler that was interrupted by a nested one that has ended: it waits the gap of its retry (R215). -/
def Core.restored (o : Outer) (c : Core) : Core := { c with hregs := o.regs, budget := o.budget, wait := .gap o.wait, outer := none }

theorem State.hdlEnd_nested_eq {o : Outer} (hout : (s.core p).outer = some o) :
    s.hdlEnd p = (((((s.updCore p (Core.restored o)).stallShow p).wf' (Reg.HDL_STATUS p) 28 1 0).wf' (Reg.HDL_STATUS p) 16 6 o.handler).setPc
      p o.pc).hdlState p hsRetryGap := by
  simp only [State.hdlEnd, hout]
  rfl

theorem State.core_hdlEnd_nested {o : Outer} (hout : (s.core p).outer = some o) (q : Nat) :
    (s.hdlEnd p).core q = if q = p then (s.core p).restored o else s.core q := by
  rw [State.hdlEnd_nested_eq hout, State.core_hdlState, State.core_setPc, State.core_wf', State.core_wf', State.core_stallShow,
    State.core_updCore]

/-- HDL_STATUS as a nested handler ends. -/
theorem State.status_hdlEnd_nested {o : Outer} (hout : (s.core p).outer = some o) : (s.hdlEnd p).rd (Reg.HDL_STATUS p) =
    setFld (setFld (setFld (setFld (s.rd (Reg.HDL_STATUS p)) 28 1 0) 16 6 o.handler) 0 11 o.pc) 29 3 hsRetryGap := by
  rw [State.hdlEnd_nested_eq hout, State.hdlState, State.rd_wf', if_pos rfl, State.rd_setPc, if_pos rfl, State.rd_wf', if_pos rfl,
    State.rd_wf', if_pos rfl, State.stallShow, State.rd_wf', if_neg (hdlStatus_ne_emitStatus p), State.rd_updCore]

theorem State.rd_hdlEnd_nested {o : Outer} (hout : (s.core p).outer = some o) {k : Nat} (hst : k ≠ Reg.HDL_STATUS p)
    (hemit : k ≠ Reg.CORE_EMIT_STATUS p) : (s.hdlEnd p).rd k = s.rd k := by
  rw [State.hdlEnd_nested_eq hout, State.hdlState, State.rd_wf', if_neg hst, State.rd_setPc, if_neg hst, State.rd_wf', if_neg hst,
    State.rd_wf', if_neg hst, State.stallShow, State.rd_wf', if_neg hemit, State.rd_updCore]

theorem exec_ret (hiss : s.willIssue p (encJ 0x00 0)) : exec (.ret p 0) s = .next ((s.charged p 1).hdlEnd p) := by
  simp only [exec, execRet, State.instr_of_willIssue _ _ hiss, Nat.zero_mod, ne_eq, not_true_eq_false, if_false]

theorem ret_completes (hiss : s.willIssue p (encJ 0x00 0)) (hout : (s.core p).outer = none) :
    completes (.ret p 0) s fun t => t.rd (Reg.HDL_STATUS p) = setFld (s.rd (Reg.HDL_STATUS p)) 29 3 hsIdle ∧
      keptRegs p s t ∧ otherCores p s t ∧ otherRegs [Reg.HDL_STATUS p, Reg.CORE_EMIT_STATUS p] s t := by
  have hout' : ((s.charged p 1).core p).outer = none := by rw [State.core_charged_same, hout]
  refine completes_of (exec_ret hiss) ⟨?_, ?_, fun q hq => ?_, fun k hk => ?_⟩
  · rw [State.rd_hdlEnd hout' (hdlStatus_ne_emitStatus p), if_pos rfl, State.rd_charged]
  · refine keptRegs_of_hregs ?_
    rw [State.core_hdlEnd hout', if_pos rfl, State.core_charged_same, Core.waitsForNothing]
  · rw [State.core_hdlEnd hout', if_neg hq, State.otherCores_charged 1 q hq]
  · obtain ⟨hst, hemit⟩ := not_or.1 (mt List.mem_pair.2 hk)
    rw [State.rd_hdlEnd hout' hemit, if_neg hst, State.rd_charged]

theorem ret_nested_completes {o : Outer} (hiss : s.willIssue p (encJ 0x00 0)) (hout : (s.core p).outer = some o) :
    completes (.ret p 0) s fun t => t.hdlSt p = hsRetryGap ∧ t.pc p = o.pc % 2 ^ 11 ∧ (t.core p).hregs = o.regs ∧
      (t.core p).budget = o.budget ∧ (t.core p).wait = .gap o.wait ∧ (t.core p).outer = none ∧ t.nested p = false ∧
      otherCores p s t ∧ otherRegs [Reg.HDL_STATUS p, Reg.CORE_EMIT_STATUS p] s t := by
  have hout' : ((s.charged p 1).core p).outer = some o := by rw [State.core_charged_same, hout]
  have hcore : ((s.charged p 1).hdlEnd p).core p = ((s.charged p 1).core p).restored o :=
    (State.core_hdlEnd_nested hout' p).trans (if_pos rfl)
  refine completes_of (exec_ret hiss) ⟨?_, ?_, ?_, ?_, ?_, ?_, ?_, fun q hq => ?_, fun k hk => ?_⟩
  · rw [State.hdlSt, State.rf, State.status_hdlEnd_nested hout', fld_setFld_same _ _ _ _ (by decide)]
    rfl
  · rw [State.pc, State.rf, State.status_hdlEnd_nested hout', fld_setFld_below _ _ _ _ _ _ (by decide) (by decide),
      fld_setFld_same _ _ _ _ (by decide)]
  · rw [hcore, Core.restored]
  · rw [hcore, Core.restored]
  · rw [hcore, Core.restored]
  · rw [hcore, Core.restored]
  · rw [State.nested, State.bit, State.status_hdlEnd_nested hout', tst, fld_setFld_below _ _ _ _ _ _ (by decide) (by decide),
      fld_setFld_above _ _ _ _ _ _ (by decide) (by decide), fld_setFld_above _ _ _ _ _ _ (by decide) (by decide),
      fld_setFld_same _ _ _ _ (by decide)]
    rfl
  · rw [State.core_hdlEnd_nested hout', if_neg hq, State.otherCores_charged 1 q hq]
  · obtain ⟨hst, hemit⟩ := not_or.1 (mt List.mem_pair.2 hk)
    rw [State.rd_hdlEnd_nested hout' hst hemit, State.rd_charged]

end

/-- Settles O7: what each comparison decides, where the pc goes, and what the end of a handler restores. -/
theorem handlerControl : Obligations.HandlerControl := by
  intro s p ra rb off hra hrb _
  refine ⟨fun hiss hcmp => ?_, fun hiss hcmp => ?_, fun hiss hcmp => ?_, fun hiss hcmp => ?_, fun hiss hcmp => ?_, fun hiss hcmp => ?_,
    fun hiss hcmp => ?_, fun hiss hcmp => ?_, fun target htarget hiss => jump_completes htarget hiss, ret_completes,
    fun o hiss hout => ret_nested_completes hiss hout⟩
  · exact branch_taken_completes rfl hra hrb hiss (beq_iff_eq.2 hcmp)
  · exact branch_not_taken_completes rfl hra hrb hiss (beq_eq_false_iff_ne.2 hcmp)
  · exact branch_taken_completes rfl hra hrb hiss (bne_iff_ne.2 hcmp)
  · exact branch_not_taken_completes rfl hra hrb hiss (bne_eq_false_iff_eq.2 hcmp)
  · exact branch_taken_completes rfl hra hrb hiss (decide_eq_true hcmp)
  · exact branch_not_taken_completes rfl hra hrb hiss (decide_eq_false (Int.not_lt.2 hcmp))
  · exact branch_taken_completes rfl hra hrb hiss (decide_eq_true hcmp)
  · exact branch_not_taken_completes rfl hra hrb hiss (decide_eq_false (Int.not_le.2 hcmp))

end Sys2Proof.Machine
end

section
/-! SUPPORT. Faults of a handler (06_core_messaging.md R212): O8. -/
namespace Sys2Proof.Machine

/-! ### A fault with no outer handler -/

/-- HDL_FAULT as a fault of `cause` leaves it: it holds the first fault until software has taken it. -/
def State.faultWord (s : State) (p cause : Nat) : Word :=
  if s.bit (Reg.HDL_FAULT p) 31 then s.rd (Reg.HDL_FAULT p)
  else BitVec.ofNat 32 (2 ^ 31 + cause * 2 ^ 24 + s.rf (Reg.HDL_STATUS p) 16 6 * 2 ^ 16 + s.pc p)

/-- The fault counted, and kept in HDL_FAULT where none is kept there. -/
def State.faultShown (s : State) (p cause : Nat) : State :=
  if (s.count (Reg.HDL_FAULTS p) 1).bit (Reg.HDL_FAULT p) 31 then s.count (Reg.HDL_FAULTS p) 1
  else (s.count (Reg.HDL_FAULTS p) 1).wr (Reg.HDL_FAULT p) (BitVec.ofNat 32 (2 ^ 31 + cause % 8 * 2 ^ 24 + s.rf (Reg.HDL_STATUS p) 16 6 * 2 ^ 16 + s.pc p))

section
variable (s : State) (p cause : Nat)

theorem hdlFaults_ne_hdlFault : Reg.HDL_FAULTS p ≠ Reg.HDL_FAULT p := coreReg_ne (by decide)

theorem State.hdlFault_eq : ∃ keys, s.hdlFault p cause = ((s.faultShown p cause).report fltHandler keys).hdlEnd p := ⟨_, rfl⟩

theorem State.core_faultShown (q : Nat) : (s.faultShown p cause).core q = s.core q := by
  unfold State.faultShown
  split
  · rw [State.core_count]
  · rw [State.core_wr, State.core_count]

theorem State.mem_faultShown : (s.faultShown p cause).mem = s.mem := by
  unfold State.faultShown
  split
  · rw [State.mem_count]
  · rw [State.mem_wr, State.mem_count]

theorem State.faults_faultShown : (s.faultShown p cause).rd (Reg.HDL_FAULTS p) = sticky (s.rd (Reg.HDL_FAULTS p)) 1 := by
  unfold State.faultShown
  split
  · rw [State.rd_count, if_pos rfl]
  · rw [State.rd_wr, if_neg (hdlFaults_ne_hdlFault p), State.rd_count, if_pos rfl]

theorem State.fault_faultShown {cause : Nat} (h : cause < 8) : (s.faultShown p cause).rd (Reg.HDL_FAULT p) = s.faultWord p cause := by
  have hne := (hdlFaults_ne_hdlFault p).symm
  have hbit : (s.count (Reg.HDL_FAULTS p) 1).bit (Reg.HDL_FAULT p) 31 = s.bit (Reg.HDL_FAULT p) 31 := by
    rw [State.bit, State.rd_count, if_neg hne, State.bit]
  unfold State.faultShown State.faultWord
  rw [hbit, Nat.mod_eq_of_lt h]
  split
  · rw [State.rd_count, if_neg hne]
  · rw [State.rd_wr, if_pos rfl]

end

section
variable {s : State} {p cause : Nat}

/-- A fault ends the handler; of the registers of the core it shows in HDL_STATUS, HDL_FAULTS and HDL_FAULT, and memory stays. -/
theorem State.hdlFault_faulted (hp : p < 9216) (hout : (s.core p).outer = none) (hcause : cause < 8) :
    faulted p cause s (s.hdlFault p cause) ∧ (s.hdlFault p cause).mem = s.mem := by
  obtain ⟨keys, heq⟩ := s.hdlFault_eq p cause
  have hcore : ∀ q, ((s.faultShown p cause).report fltHandler keys).core q = s.core q := fun q => by
    rw [State.core_report, State.core_faultShown]
  have hout' : (((s.faultShown p cause).report fltHandler keys).core p).outer = none := by rw [hcore, hout]
  have hreport : Reads (· < 0x4000000) (s.faultShown p cause) ((s.faultShown p cause).report fltHandler keys) :=
    State.report_reads _ _ _ (by decide) (by decide) (by decide)
  have hends : ∀ off, off < 0x1000 → off ≠ 0x604 → off ≠ 0xA0 → (((s.faultShown p cause).report fltHandler keys).hdlEnd p).rd (coreReg p off) =
      (s.faultShown p cause).rd (coreReg p off) := fun off ho hst hemit => by
    rw [State.rd_hdlEnd hout' (coreReg_ne hemit), Reg.HDL_STATUS, if_neg (coreReg_ne hst), hreport _ (coreReg_lt hp ho)]
  rw [heq]
  refine ⟨⟨?_, ?_, ?_, ?_⟩, ?_⟩
  · rw [State.hdlSt, State.rf, State.rd_hdlEnd hout' (hdlStatus_ne_emitStatus p), if_pos rfl, fld_setFld_same _ _ _ _ (by decide)]
    rfl
  · refine keptRegs_of_hregs ?_
    rw [State.core_hdlEnd hout', if_pos rfl, hcore, Core.waitsForNothing]
  · exact (hends 0x634 (by decide) (by decide) (by decide)).trans (State.faults_faultShown ..)
  · exact (hends 0x614 (by decide) (by decide) (by decide)).trans (State.fault_faultShown _ _ hcause)
  · rw [State.mem_hdlEnd hout', State.mem_report, State.mem_faultShown]

theorem State.pc_charged (cycles : Nat) : (s.charged p cycles).pc p = s.pc p := by
  rw [State.pc, State.rf, State.rd_charged, State.pc, State.rf]

/-- Cycles that the faulting instruction was charged do not show. -/
theorem faulted_of_charged {t : State} (cycles : Nat) (h : faulted p cause (s.charged p cycles) t) : faulted p cause s t := by
  obtain ⟨hst, hregs, hcount, hfault⟩ := h
  refine ⟨hst, fun r hr => (hregs r hr).trans (State.h_charged ..), ?_, ?_⟩
  · rw [hcount, State.rd_charged]
  · rw [hfault, State.bit, State.rd_charged, State.bit, State.rf, State.rd_charged, State.rf, State.pc_charged]

/-- An instruction whose effect is a fault, once it is charged. -/
theorem fault_completes {c : Instr} (cycles : Nat) (hexec : exec c s = .next ((s.charged p cycles).hdlFault p cause)) (hp : p < 9216)
    (hout : (s.core p).outer = none) (hcause : cause < 8) : completes c s fun t => faulted p cause s t ∧ t.mem = s.mem := by
  have hout' : ((s.charged p cycles).core p).outer = none := by rw [State.core_charged_same, hout]
  obtain ⟨hfault, hmem⟩ := State.hdlFault_faulted hp hout' hcause
  refine completes_of hexec ⟨faulted_of_charged cycles hfault, ?_⟩
  rw [hmem, State.charged, State.mem_updCore]

theorem completes.faulted {c : Instr} (h : completes c s fun t => faulted p cause s t ∧ t.mem = s.mem) :
    completes c s (Machine.faulted p cause s) := by
  obtain ⟨t, ht, hfault, -⟩ := h
  exact ⟨t, ht, hfault⟩

end

/-! ### What faults (R209, R211, R212) -/

section
variable {s : State} {p rd ra rb imm : Nat} (hp : p < 9216) (hout : (s.core p).outer = none) (hra : ra < 16)
include hp hout

theorem add_faults {ext : Nat} (h0 : 0 < ext) (h : ext < 2 ^ 14) (hiss : s.willIssue p (encR 0x01 rd ra rb ext)) :
    completes (.add p rd ra rb ext) s (faulted p hfIllegal s) := by
  refine (fault_completes 1 ?_ hp hout (by decide)).faulted
  simp only [exec, execAdd, State.aluR, State.instr_of_willIssue _ _ hiss, Nat.mod_eq_of_lt h, Nat.ne_of_gt h0, ne_eq, not_false_eq_true,
    if_true]

theorem sys_faults (himm : imm < 2 ^ 18) (h : 8 < imm) (hiss : s.willIssue p (encI 0x15 rd 0 imm)) :
    completes (.sys p rd 0 imm) s (faulted p hfIllegal s) := by
  have hnone : s.sysValue p imm = none := by
    unfold State.sysValue
    split <;> first | omega | rfl
  refine (fault_completes 1 ?_ hp hout (by decide)).faulted
  simp only [exec, execSys, State.instr_of_willIssue _ _ hiss, Nat.mod_eq_of_lt himm, hnone, Nat.zero_mod, ne_eq, not_true_eq_false,
    if_false]

theorem sadd_faults (hiss : s.willIssue p (encR 0x1D 15 ra rb 0)) : completes (.sadd p 15 ra rb 0) s (faulted p hfOperand s) := by
  refine (fault_completes 5 ?_ hp hout (by decide)).faulted
  simp [exec, execSadd, State.syncInstr, State.instr_of_willIssue _ _ hiss]

/-- NRD into the pair that would begin at h15. -/
theorem nrd_pair_faults (hiss : s.willIssue p (encI 0x14 15 ra imm)) : completes (.nrd p 15 ra imm) s (faulted p hfOperand s) := by
  refine (fault_completes 2 ?_ hp hout (by decide)).faulted
  simp [exec, execNrd, State.instr_of_willIssue _ _ hiss]

section
include hra

theorem lui_faults (h : ra ≠ 0) (hiss : s.willIssue p (encI 0x0E rd ra imm)) : completes (.lui p rd ra imm) s (faulted p hfIllegal s) := by
  refine (fault_completes 1 ?_ hp hout (by decide)).faulted
  simp only [exec, execLui, State.instr_of_willIssue _ _ hiss, Nat.mod_eq_of_lt hra, h, ne_eq, not_false_eq_true, if_true]

/-- NRD of a lane-neuron that a core cannot have. -/
theorem nrd_faults (hrd : rd < 16) (h : rd ≠ 15) (hlane : 4095 < (s.h p ra).toInt + sx 18 imm) (hiss : s.willIssue p (encI 0x14 rd ra imm)) :
    completes (.nrd p rd ra imm) s (faulted p hfNeuron s) := by
  refine (fault_completes 2 ?_ hp hout (by decide)).faulted
  simp only [exec, execNrd, State.instr_of_willIssue _ _ hiss, Nat.mod_eq_of_lt hra, Nat.mod_eq_of_lt hrd, h, State.h_charged, sword, sext18,
    hlane, or_true, if_true, if_false]

theorem beq_faults (hrb : rb < 16) (heq : s.h p ra = s.h p rb) (hfar : 2047 < (s.pc p : Int) + sx 18 imm)
    (hiss : s.willIssue p (encI 0x20 ra rb imm)) : completes (.beq p ra rb imm) s (faulted p hfBranch s) := by
  refine (fault_completes 2 ?_ hp hout (by decide)).faulted
  simp only [exec, execBeq, State.branch, State.instr_of_willIssue _ _ hiss, Nat.mod_eq_of_lt hra, Nat.mod_eq_of_lt hrb, heq,
    beq_self_eq_true, if_true, State.pc_charged, sext18, hfar, or_true]

end

/-- An access that the data window refuses. -/
theorem load_faults {c : Instr} {op size cause : Nat} (hexec : exec c s = .next (s.hdlLoad p op rd ra imm size)) (hcause : cause < 8)
    (hdata : s.dataAt p ra imm size = .error cause) (hiss : s.willIssue p (encI op rd ra imm)) :
    completes c s fun t => faulted p cause s t ∧ t.mem = s.mem := by
  refine fault_completes 2 (hexec.trans (congrArg _ ?_)) hp hout hcause
  simp only [State.hdlLoad, State.instr_of_willIssue _ _ hiss, State.dataAt_charged, hdata]

theorem store_faults {c : Instr} {op size cause : Nat} (hexec : exec c s = .next (s.hdlStore p op rd ra imm size)) (hcause : cause < 8)
    (hdata : s.dataAt p ra imm size = .error cause) (hiss : s.willIssue p (encI op rd ra imm)) :
    completes c s fun t => faulted p cause s t ∧ t.mem = s.mem := by
  refine fault_completes 1 (hexec.trans (congrArg _ ?_)) hp hout hcause
  simp only [State.hdlStore, State.instr_of_willIssue _ _ hiss, State.dataAt_charged, hdata]

end

section
variable {s : State} {p ra imm size : Nat} (hra : ra < 16)
include hra

theorem State.dataAt_outside (h : (s.h p ra).toInt + sx 18 imm < 0 ∨
    ((s.rf (Reg.HDL_DATA_SIZE p) 0 18 : Nat) : Int) < (s.h p ra).toInt + sx 18 imm + (size : Int)) : s.dataAt p ra imm size = .error hfRange := by
  simp only [State.dataAt, Nat.mod_eq_of_lt hra, sword, sext18, if_pos h]

theorem State.dataAt_unaligned (hlo : 0 ≤ (s.h p ra).toInt + sx 18 imm)
    (hhi : (s.h p ra).toInt + sx 18 imm + 4 ≤ ((s.rf (Reg.HDL_DATA_SIZE p) 0 18 : Nat) : Int))
    (halign : ((s.h p ra).toInt + sx 18 imm) % 4 ≠ 0) : s.dataAt p ra imm 4 = .error hfAlign := by
  have hin : ¬((s.h p ra).toInt + sx 18 imm < 0 ∨
      ((s.rf (Reg.HDL_DATA_SIZE p) 0 18 : Nat) : Int) < (s.h p ra).toInt + sx 18 imm + ((4 : Nat) : Int)) := by omega
  simp only [State.dataAt, Nat.mod_eq_of_lt hra, sword, sext18, if_neg hin, if_pos (And.intro trivial halign)]

end

/-- The budget of the handler that runs or waits is used up (R213). -/
theorem budget_faults {s : State} {p : Nat} (hp : p < 9216) (hout : (s.core p).outer = none) (hidle : s.hdlSt p ≠ hsIdle)
    (hhalted : s.hdlSt p ≠ hsHalted) (hbudget : (s.core p).budget = 0) :
    completes (.handlerBudgetExpire p) s (faulted p hfBudget s) := by
  have hexec : exec (.handlerBudgetExpire p) s = .next (s.hdlFault p hfBudget) := if_neg (by simp only [hidle, hhalted, hbudget]; simp)
  exact completes_of hexec (State.hdlFault_faulted hp hout (by decide)).1

/-- Settles O8: each cause ends the handler in the same way, and only finding it differs. -/
theorem handlerFaults : Obligations.HandlerFaults := by
  intro s p rd ra rb imm hp hrd hra hrb himm hout
  refine ⟨fun ext h0 h hiss => add_faults hp hout h0 h hiss, fun hiss h => lui_faults hp hout hra h hiss,
    fun hiss h => sys_faults hp hout himm h hiss, sadd_faults hp hout, nrd_pair_faults hp hout, fun hiss h => ?_, fun hiss h => ?_,
    fun hiss hlo hhi halign => ?_, fun hiss heq hfar => beq_faults hp hout hra hrb heq hfar hiss,
    fun hiss h hlane => nrd_faults hp hout hra hrd h hlane hiss, budget_faults hp hout⟩
  · exact (load_faults hp hout rfl (by decide) (State.dataAt_outside hra (.inl h)) hiss).faulted
  · exact store_faults hp hout rfl (by decide) (State.dataAt_outside hra (.inr h)) hiss
  · exact store_faults hp hout rfl (by decide) (State.dataAt_unaligned hra hlo hhi halign) hiss

end Sys2Proof.Machine
end

section
/-! SUPPORT. Handler registers loaded from a queue's entry, and a wait that ends (06_core_messaging.md R199, R205, R210, R211). -/
namespace Sys2Proof.Machine

/-! ### Work on handler registers alone -/

/-- From `s` to `t` nothing has changed but handler registers of core `p`: no register of the set-up space, no other part of a core,
no packet. -/
structure RegsOnly (p : Nat) (s t : State) : Prop where
  rd : ∀ k, t.rd k = s.rd k
  others : otherCores p s t
  core : ∃ regs, t.core p = { s.core p with hregs := regs }
  net : t.net = s.net

section
variable {p : Nat} {s t u : State}

theorem RegsOnly.refl : RegsOnly p s s := ⟨fun _ => rfl, fun _ _ => rfl, ⟨(s.core p).hregs, rfl⟩, rfl⟩

theorem RegsOnly.trans (h : RegsOnly p s t) (h' : RegsOnly p t u) : RegsOnly p s u := by
  obtain ⟨_, e⟩ := h.core
  obtain ⟨regs, e'⟩ := h'.core
  exact ⟨fun k => (h'.rd k).trans (h.rd k), h.others.trans h'.others, ⟨regs, by rw [e', e]⟩, h'.net.trans h.net⟩

theorem State.setH_regsOnly (s : State) (p r : Nat) (w : Word) : RegsOnly p s (s.setH p r w) :=
  ⟨State.rd_setH r w, otherCores_updCore s p _, ⟨_, (State.core_updCore_same ..).trans (Core.setH_eq ..)⟩, State.net_updCore ..⟩

theorem State.setPair_regsOnly (s : State) (p r : Nat) (a b : Word) : RegsOnly p s (s.setPair p r a b) :=
  (s.setH_regsOnly p r a).trans (State.setH_regsOnly _ p _ b)

theorem RegsOnly.pc (h : RegsOnly p s t) : t.pc p = s.pc p := by
  rw [State.pc, State.rf, h.rd, State.pc, State.rf]

end

/-- The first four of a list of words into four handler registers from `r` on, zero where the list has fewer (R205, R211). -/
def State.loadWords (s : State) (p r : Nat) (ws : List Word) : State :=
  (List.range 4).foldl (fun t i => t.setH p (r + i) (ws.getD i 0)) s

section
variable {p : Nat} {s : State}

theorem State.loadWords_regsOnly (r : Nat) (ws : List Word) : RegsOnly p s (s.loadWords p r ws) :=
  List.foldlRecOn _ _ (motive := RegsOnly p s) .refl fun _ ht _ _ => ht.trans (State.setH_regsOnly ..)

theorem State.h_loadWords {r0 r : Nat} (ws : List Word) (h0 : 0 < r0) (hr : r < 16) :
    (s.loadWords p r0 ws).h p r = if r0 ≤ r ∧ r < r0 + 4 then ws.getD (r - r0) 0 else s.h p r := by
  have heq : s.loadWords p r0 ws = (((s.setH p (r0 + 0) (ws.getD 0 0)).setH p (r0 + 1) (ws.getD 1 0)).setH p (r0 + 2)
      (ws.getD 2 0)).setH p (r0 + 3) (ws.getD 3 0) := rfl
  rw [heq, State.h_setH_of_lt _ _ hr, State.h_setH_of_lt _ _ hr, State.h_setH_of_lt _ _ hr, State.h_setH_of_lt _ _ hr]
  by_cases hin : r0 ≤ r ∧ r < r0 + 4
  · obtain ⟨d, rfl⟩ := Nat.exists_eq_add_of_le hin.1
    have hd : d < 4 := by omega
    rw [if_pos hin, Nat.add_sub_cancel_left]
    interval_cases d <;> simp
    all_goals omega
  · rw [if_neg hin, if_neg (by omega), if_neg (by omega), if_neg (by omega), if_neg (by omega)]

/-! ### An entry leaves its queue -/

/-- The entries `rest` are left in queue `q` of core `p`. -/
def State.leftInQueue (s : State) (p q : Nat) (rest : List QEntry) : State :=
  s.putQueue p q { (s.core p).queue q with entries := rest }

theorem hdlStatus_ne_queueStatus (p q : Nat) : Reg.HDL_STATUS p ≠ Reg.HDL_Q_STATUS p q := coreReg_ne (by omega)

theorem State.core_leftInQueue (q : Nat) (rest : List QEntry) (i : Nat) : (s.leftInQueue p q rest).core i =
    if i = p then (s.core p).setQueue q { (s.core p).queue q with entries := rest } else s.core i := State.core_putQueue ..

theorem State.rd_putQueue (q : Nat) (v : Queue) {k : Nat} (h : k ≠ Reg.HDL_Q_STATUS p q) : (s.putQueue p q v).rd k = s.rd k :=
  State.putQueue_reads (P := (· = k)) q v (Ne.symm h) k rfl

theorem State.mem_putQueue (q : Nat) (v : Queue) : (s.putQueue p q v).mem = s.mem :=
  (State.putQueue_keeps (Keeps.refl s) (.same rfl)).same .mem rfl

theorem State.net_putQueue (q : Nat) (v : Queue) : (s.putQueue p q v).net = s.net :=
  (State.putQueue_keeps (Keeps.refl s) (.same rfl)).same .net rfl

/-- OCCUPANCY of a queue's status register (R229). -/
theorem State.occupancy_putQueue (q : Nat) (v : Queue) :
    (s.putQueue p q v).rf (Reg.HDL_Q_STATUS p q) 0 6 = v.entries.length % 2 ^ 6 := by
  unfold State.putQueue State.high
  dsimp only
  split
  · rw [State.rf, State.rd_wf', if_pos rfl, fld_setFld_below _ _ _ _ _ _ (by decide) (by decide), State.rd_wf', if_pos rfl,
      fld_setFld_below _ _ _ _ _ _ (by decide) (by decide), State.rd_wf', if_pos rfl, fld_setFld_same _ _ _ _ (by decide)]
  · rw [State.rf, State.rd_wf', if_pos rfl, fld_setFld_below _ _ _ _ _ _ (by decide) (by decide), State.rd_wf', if_pos rfl,
      fld_setFld_same _ _ _ _ (by decide)]

/-! ### A wait that ends (R210, R211) -/

/-- HDL_STATUS as a waiting instruction completes. -/
theorem State.rd_hdlGo (k : Nat) : (s.hdlGo p).rd k = if k = Reg.HDL_STATUS p then
    setFld (setFld (s.rd (Reg.HDL_STATUS p)) 0 11 (s.pc p + 1)) 29 3 hsRunning else s.rd k := by
  rw [State.hdlGo, State.hdlState, State.rd_wf', State.rd_setPc, if_pos rfl, State.rd_setPc, State.rd_updCore, State.rd_updCore]
  split <;> rfl

theorem State.core_hdlGo (q : Nat) : (s.hdlGo p).core q = if q = p then (s.core p).waitsForNothing else s.core q := by
  rw [State.hdlGo, State.core_hdlState, State.core_setPc, State.core_updCore]
  rfl

theorem State.h_hdlGo (r : Nat) : (s.hdlGo p).h p r = s.h p r := by
  rw [State.h, State.core_hdlGo, if_pos rfl, State.h]
  rfl

/-- The handler of core `p` has gone on after its wait: the next instruction issues, and of other cores and registers of the set-up
space nothing but HDL_STATUS has changed. -/
structure WentOnAfterWait (p : Nat) (s t : State) : Prop where
  wait : (t.core p).wait = .none
  running : t.hdlSt p = hsRunning
  pc : t.pc p = (s.pc p + 1) % 2 ^ 11
  others : otherCores p s t
  regs : otherRegs [Reg.HDL_STATUS p] s t
  net : t.net = s.net

theorem RegsOnly.hdlGo {t : State} (h : RegsOnly p s t) : WentOnAfterWait p s (t.hdlGo p) := by
  refine ⟨?_, ?_, ?_, fun q hq => ?_, fun k hk => ?_, ?_⟩
  · rw [State.core_hdlGo, if_pos rfl, Core.waitsForNothing]
  · rw [State.hdlSt, State.rf, State.rd_hdlGo, if_pos rfl, fld_setFld_same _ _ _ _ (by decide)]
    rfl
  · rw [State.pc, State.rf, State.rd_hdlGo, if_pos rfl, fld_setFld_below _ _ _ _ _ _ (by decide) (by decide),
      fld_setFld_same _ _ _ _ (by decide), h.pc]
  · rw [State.core_hdlGo, if_neg hq, h.others q hq]
  · rw [State.rd_hdlGo, if_neg (List.ne_of_not_mem_cons hk), h.rd]
  · rw [State.hdlGo, State.hdlState, State.net_wf', State.setPc, State.net_wf', State.net_updCore, h.net]

/-- The answer to a waiting instruction in register `rd`, with which the handler goes on. -/
theorem wrote_hdlGo (rd : Nat) (w : Word) : wrote p rd w s ((s.setH p rd w).hdlGo p) := fun r hr => by
  rw [State.h_hdlGo, State.h_setH_of_lt _ _ hr]

end

end Sys2Proof.Machine
end

section
/-! SUPPORT. HANDLER_DISPATCH (06_core_messaging.md R203, R205): O9. -/
namespace Sys2Proof.Machine

section
variable {s : State} {p q : Nat}

/-- A core as it begins a handler: its registers are zero and its budget is full (R213). -/
def Core.begun (c : Core) : Core := { c with hregs := [], budget := hdlBudget, wait := .none }

/-- The oldest entry of queue `q` has been taken for dispatch, and `rest` are left (R205). -/
def State.entryTaken (s : State) (p q : Nat) (rest : List QEntry) : State :=
  (s.leftInQueue p q rest).updCore p fun c => { c with lastDispatch := q }

/-- The state in which the arguments of a handler are loaded. -/
def State.begun (s : State) (p q : Nat) (rest : List QEntry) : State := (s.entryTaken p q rest).updCore p Core.begun

theorem State.word_entryTaken (rest : List QEntry) (off : Nat) : (s.entryTaken p q rest).word p off = s.word p off := by
  have hmem : (s.entryTaken p q rest).mem = s.mem := (State.mem_updCore ..).trans (State.mem_putQueue ..)
  rw [State.word, State.num_of_mem hmem, State.word]

theorem State.core_begun (rest : List QEntry) (i : Nat) : (s.begun p q rest).core i =
    if i = p then { ((s.core p).setQueue q { (s.core p).queue q with entries := rest }).begun with lastDispatch := q } else s.core i := by
  rw [State.begun, State.core_updCore, State.entryTaken, State.core_updCore, State.core_updCore, State.core_leftInQueue,
    State.core_leftInQueue, if_pos rfl, if_pos rfl]
  split <;> rfl

theorem State.h_begun (rest : List QEntry) (r : Nat) : (s.begun p q rest).h p r = 0 := by
  rw [State.h, State.core_begun, if_pos rfl, Core.h]
  split <;> rfl

theorem State.rd_begun (rest : List QEntry) {k : Nat} (h : k ≠ Reg.HDL_Q_STATUS p q) : (s.begun p q rest).rd k = s.rd k := by
  rw [State.begun, State.rd_updCore, State.entryTaken, State.rd_updCore, State.leftInQueue, State.rd_putQueue _ _ h]

/-- The header and its arguments into h1 to h4, the sender into h5, queue and argument count into h6. -/
def State.argsLoaded (s : State) (p q : Nat) (e : QEntry) : State :=
  ((s.loadWords p 1 e.words).setH p 5 (BitVec.ofNat 32 e.src)).setH p 6 (BitVec.ofNat 32 (q + (e.words.length - 1) * 8))

theorem State.argsLoaded_regsOnly (e : QEntry) : RegsOnly p s (s.argsLoaded p q e) :=
  ((State.loadWords_regsOnly 1 e.words).trans (State.setH_regsOnly ..)).trans (State.setH_regsOnly ..)

theorem State.h_argsLoaded (e : QEntry) {r : Nat} (hr : r < 16) : (s.argsLoaded p q e).h p r =
    if r = 6 then BitVec.ofNat 32 (q + (e.words.length - 1) * 8) else if r = 5 then BitVec.ofNat 32 e.src
    else if 1 ≤ r ∧ r < 5 then e.words.getD (r - 1) 0 else s.h p r := by
  rw [State.argsLoaded, State.h_setH_of_lt _ _ hr, State.h_setH_of_lt _ _ hr, State.h_loadWords _ (by decide) hr]
  refine if_congr ⟨And.left, fun h => ⟨h, by omega⟩⟩ rfl (if_congr ⟨And.left, fun h => ⟨h, by omega⟩⟩ rfl rfl)

/-- The engine runs the handler of selector `sel` from instruction `n` on (R205). -/
def State.invoked (s : State) (p sel n : Nat) : State :=
  (((s.wf' (Reg.HDL_STATUS p) 16 6 sel).setPc p n).hdlState p hsRunning).count (Reg.HDL_INVOKE p) 1

theorem State.core_invoked (sel n i : Nat) : (s.invoked p sel n).core i = s.core i := by
  rw [State.invoked, State.core_count, State.core_hdlState, State.core_setPc, State.core_wf']

theorem hdlInvoke_ne_hdlStatus (p : Nat) : Reg.HDL_INVOKE p ≠ Reg.HDL_STATUS p := coreReg_ne (by decide)

theorem State.status_invoked (sel n : Nat) : (s.invoked p sel n).rd (Reg.HDL_STATUS p) =
    setFld (setFld (setFld (s.rd (Reg.HDL_STATUS p)) 16 6 sel) 0 11 n) 29 3 hsRunning := by
  rw [State.invoked, State.rd_count, if_neg (hdlInvoke_ne_hdlStatus p).symm, State.hdlState, State.rd_wf', if_pos rfl, State.rd_setPc,
    if_pos rfl, State.rd_wf', if_pos rfl]

theorem State.rd_invoked (sel n : Nat) {k : Nat} (h : k ≠ Reg.HDL_STATUS p) : (s.invoked p sel n).rd k =
    if k = Reg.HDL_INVOKE p then sticky (s.rd (Reg.HDL_INVOKE p)) 1 else s.rd k := by
  have hsame : ∀ j, j ≠ Reg.HDL_STATUS p → (((s.wf' (Reg.HDL_STATUS p) 16 6 sel).setPc p n).hdlState p hsRunning).rd j = s.rd j :=
    fun j hj => by rw [State.hdlState, State.rd_wf', if_neg hj, State.rd_setPc, if_neg hj, State.rd_wf', if_neg hj]
  rw [State.invoked, State.rd_count, hsame _ (hdlInvoke_ne_hdlStatus p), hsame _ h]

/-- A good entry whose handler the table has begins its handler (R203, R205). -/
theorem State.dispatchFrom_of_valid {e : QEntry} {rest : List QEntry} {w t : Word} (hent : ((s.core p).queue q).entries = e :: rest)
    (hw : e.words.headD 0 = w) (ht : s.word p (handlerTable + 4 * fld w 26 6) = t) (hvalid : tst t 31 = true)
    (hlen : fld w 24 2 + 1 = e.words.length) :
    s.dispatchFrom p q = (((s.begun p q rest).argsLoaded p q e).invoked p (fld w 26 6) (fld t 0 11), true) := by
  have hword := (State.word_entryTaken (q := q) rest _).trans ht
  have hbad : (!tst t 31 || fld w 24 2 + 1 != e.words.length) = false := by rw [hvalid, hlen, bne_self_eq_false]; rfl
  rw [State.entryTaken, State.leftInQueue] at hword
  simp only [State.dispatchFrom, hent, hw, hword, hbad, Bool.false_eq_true, if_false]
  rfl

/-- What HANDLER_DISPATCH leaves: the handler runs, its arguments are loaded, and its entry has left the queue. -/
theorem handlerDispatch_completes {n : Nat} {w : Word} {ws : List Word} {src : Nat} {rest : List QEntry} (hmay : s.mayDispatch p = true)
    (hgate : (s.core p).gated = false) (hq : s.amQueue p = some q) (hent : ((s.core p).queue q).entries = ⟨w :: ws, src⟩ :: rest)
    (hlen : fld w 24 2 = ws.length) (hn : n = (s.word p (handlerTable + 4 * fld w 26 6)).toNat) (hvalid : 2 ^ 31 ≤ n) :
    completes (.handlerDispatch p) s fun t =>
      t.hdlSt p = hsRunning ∧ t.pc p = n % 2 ^ 11 ∧ t.rf (Reg.HDL_STATUS p) 16 6 = fld w 26 6 ∧
      t.h p 1 = w ∧ (∀ i, i < 3 → t.h p (2 + i) = ws.getD i 0) ∧ t.h p 5 = BitVec.ofNat 32 src ∧
      t.h p 6 = BitVec.ofNat 32 (q + ws.length * 8) ∧ (∀ r, 7 ≤ r → r < 16 → t.h p r = 0) ∧
      (t.core p).budget = 65536 ∧ ((t.core p).queue q).entries = rest ∧
      t.rd (Reg.HDL_INVOKE p) = sticky (s.rd (Reg.HDL_INVOKE p)) 1 ∧ otherCores p s t ∧
      otherRegs [Reg.HDL_STATUS p, Reg.HDL_INVOKE p, Reg.HDL_Q_STATUS p q] s t := by
  let e : QEntry := ⟨w :: ws, src⟩
  let entry := s.word p (handlerTable + 4 * fld w 26 6)
  have hentry : entry.toNat < 2 ^ 32 := entry.isLt
  have htst : tst entry 31 = true := by
    rw [tst, fld, ← hn, beq_iff_eq]
    omega
  have hexec : exec (.handlerDispatch p) s = .next (((s.begun p q rest).argsLoaded p q e).invoked p (fld w 26 6) (fld entry 0 11)) := by
    simp only [exec, execHandlerDispatch, hmay, if_true, hq, State.wake_of_not_gated hgate,
      State.dispatchFrom_of_valid hent (e := e) rfl rfl htst (congrArg (· + 1) hlen)]
    rfl
  have hregs := (s.begun p q rest).argsLoaded_regsOnly (p := p) (q := q) e
  obtain ⟨regs, hcore⟩ := hregs.core
  have hh : ∀ r, r < 16 → (((s.begun p q rest).argsLoaded p q e).invoked p (fld w 26 6) (fld entry 0 11)).h p r =
      ((s.begun p q rest).argsLoaded p q e).h p r := fun r _ => State.h_of_core (State.core_invoked ..) r
  have hinvoke : Reg.HDL_INVOKE p ≠ Reg.HDL_Q_STATUS p q := coreReg_ne (by omega)
  refine completes_of hexec ⟨?_, ?_, ?_, ?_, fun i hi => ?_, ?_, ?_, fun r hlo hr => ?_, ?_, ?_, ?_, fun i hi => ?_, fun k hk => ?_⟩
  · rw [State.hdlSt, State.rf, State.status_invoked, fld_setFld_same _ _ _ _ (by decide)]
    rfl
  · rw [State.pc, State.rf, State.status_invoked, fld_setFld_below _ _ _ _ _ _ (by decide) (by decide), fld_setFld_same _ _ _ _ (by decide),
      fld, ← hn]
    omega
  · rw [State.rf, State.status_invoked, fld_setFld_below _ _ _ _ _ _ (by decide) (by decide),
      fld_setFld_above _ _ _ _ _ _ (by decide) (by decide), fld_setFld_same _ _ _ _ (by decide), Nat.mod_eq_of_lt (fld_lt ..)]
  · rw [hh 1 (by decide), State.h_argsLoaded e (by decide)]
    rfl
  · rw [hh _ (by omega), State.h_argsLoaded e (by omega), if_neg (by omega), if_neg (by omega), if_pos (by omega),
      show 2 + i - 1 = i + 1 by omega]
    rfl
  · rw [hh 5 (by decide), State.h_argsLoaded e (by decide)]
    rfl
  · rw [hh 6 (by decide), State.h_argsLoaded e (by decide)]
    rfl
  · rw [hh r hr, State.h_argsLoaded e hr, if_neg (by omega), if_neg (by omega), if_neg (by omega), State.h_begun]
  · rw [State.core_invoked, hcore, State.core_begun, if_pos rfl]
    rfl
  · rw [State.core_invoked, hcore, State.core_begun, if_pos rfl]
    exact congrArg Queue.entries ((Core.queue_setQueue ..).trans (if_pos rfl))
  · rw [State.rd_invoked _ _ (hdlInvoke_ne_hdlStatus p), if_pos rfl, hregs.rd, State.rd_begun _ hinvoke]
  · rw [State.core_invoked, hregs.others i hi, State.core_begun, if_neg hi]
  · simp only [List.mem_cons, List.not_mem_nil, or_false, not_or] at hk
    obtain ⟨hst, hinv, hqs⟩ := hk
    rw [State.rd_invoked _ _ hst, if_neg hinv, hregs.rd, State.rd_begun _ hqs]

end

/-- Settles O9: a good entry whose handler the table has begins that handler. -/
theorem handlerDispatch : Obligations.HandlerDispatch := fun _ _ _ _ _ _ _ _ hmay hgate hq hent hlen hn hvalid =>
  handlerDispatch_completes hmay hgate hq hent hlen hn hvalid

end Sys2Proof.Machine
end

section
/-! SUPPORT. WAITQ and its time limit (06_core_messaging.md R199, R209, R211): O11. -/
namespace Sys2Proof.Machine

section
variable {s : State} {p q rd ra mask : Nat}

theorem State.dataQueue_charged (cycles : Nat) : (s.charged p cycles).dataQueue p mask = s.dataQueue p mask := by
  simp only [State.dataQueue, State.rotates, State.qEnabled, State.qAm, State.bit, State.rd_charged, State.core_charged_same, Core.queue]

/-- A handler that waits for an entry (R211). -/
def Core.waitsInWaitq (mask rd : Nat) (c : Core) : Core := { c with wait := .waitq mask rd }

/-- WAITQ, once it is issued and charged, where no queue has an entry (R211). -/
theorem exec_waitq_none (hrd : rd < 16) (hra : ra < 16) (hmask : mask < 256) (hiss : s.willIssue p (encI 0x1C rd ra mask))
    (hnone : s.dataQueue p mask = none) :
    exec (.waitq p rd ra mask) s = .next (if s.h p ra = 0 then (s.charged p 3).hdlAnswer p rd 0x80000000
      else ((s.charged p 3).updCore p (Core.waitsInWaitq mask rd)).hdlState p hsWaitQueue) := by
  have hlow : mask % 2 ^ 18 = mask := by omega
  have hlegal : ¬256 ≤ mask := by omega
  simp only [exec, execWaitq, State.instr_of_willIssue _ _ hiss, hlow, hlegal, if_false, Nat.mod_eq_of_lt hmask, State.dataQueue_charged,
    hnone, Nat.mod_eq_of_lt hrd, Nat.mod_eq_of_lt hra, State.h_charged, State.hdlAnswer]
  rfl

/-- The same where queue `q` has one. -/
theorem exec_waitq_taken (hrd : rd < 16) (hmask : mask < 256) (hiss : s.willIssue p (encI 0x1C rd ra mask))
    (hq : s.dataQueue p mask = some q) : exec (.waitq p rd ra mask) s = .next (((s.charged p 3).waitqTake p q rd).hdlNext p) := by
  have hlow : mask % 2 ^ 18 = mask := by omega
  have hlegal : ¬256 ≤ mask := by omega
  simp only [exec, execWaitq, State.instr_of_willIssue _ _ hiss, hlow, hlegal, if_false, Nat.mod_eq_of_lt hmask, State.dataQueue_charged,
    hq, Nat.mod_eq_of_lt hrd]

theorem waitq_answers_none (hrd : rd < 16) (hra : ra < 16) (hmask : mask < 256) (hiss : s.willIssue p (encI 0x1C rd ra mask))
    (hnone : s.dataQueue p mask = none) (hzero : s.h p ra = 0) :
    completes (.waitq p rd ra mask) s fun t => wrote p rd 0x80000000 s t ∧ wentOn p 3 s t := by
  refine completes_hdlAnswer ((exec_waitq_none hrd hra hmask hiss hnone).trans ?_) hrd
  rw [if_pos hzero]

theorem waitq_waits (hrd : rd < 16) (hra : ra < 16) (hmask : mask < 256) (hiss : s.willIssue p (encI 0x1C rd ra mask))
    (hnone : s.dataQueue p mask = none) (hlimit : s.h p ra ≠ 0) :
    completes (.waitq p rd ra mask) s fun t => (t.core p).wait = .waitq mask rd ∧ t.hdlSt p = hsWaitQueue ∧
      t.pc p = s.pc p ∧ keptRegs p s t ∧ otherCores p s t ∧ otherRegs [Reg.HDL_STATUS p] s t := by
  have hcore : ∀ i, (((s.charged p 3).updCore p (Core.waitsInWaitq mask rd)).hdlState p hsWaitQueue).core i =
      if i = p then ((s.charged p 3).core p).waitsInWaitq mask rd else (s.charged p 3).core i := fun i => by
    rw [State.core_hdlState, State.core_updCore]
  have hexec := exec_waitq_none hrd hra hmask hiss hnone
  rw [if_neg hlimit] at hexec
  refine completes_of hexec ⟨?_, ?_, ?_, keptRegs_of_hregs ?_, fun i hi => ?_, fun k hk => ?_⟩
  · rw [hcore, if_pos rfl, Core.waitsInWaitq]
  · rw [State.hdlSt, State.rf, State.hdlState, State.rd_wf', if_pos rfl, fld_setFld_same _ _ _ _ (by decide)]
    rfl
  · rw [State.pc, State.rf, State.hdlState, State.rd_wf', if_pos rfl, fld_setFld_below _ _ _ _ _ _ (by decide) (by decide),
      State.rd_updCore, State.rd_charged, State.pc, State.rf]
  · rw [hcore, if_pos rfl, Core.waitsInWaitq, State.core_charged_same]
  · rw [hcore, if_neg hi, State.otherCores_charged 3 i hi]
  · rw [State.hdlState, State.rd_wf', if_neg (List.ne_of_not_mem_cons hk), State.rd_updCore, State.rd_charged]

theorem waitqTimeout_completes (hwait : (s.core p).wait = .waitq mask rd) :
    completes (.waitqTimeout p) s fun t => wrote p rd 0x80000000 s t ∧ (t.core p).wait = .none ∧
      t.hdlSt p = hsRunning ∧ t.pc p = (s.pc p + 1) % 2 ^ 11 ∧ otherCores p s t ∧ otherRegs [Reg.HDL_STATUS p] s t := by
  have hexec : exec (.waitqTimeout p) s = .next ((s.setH p rd 0x80000000).hdlGo p) := by
    simp only [exec, execWaitqTimeout, hwait]
  have hgo := (s.setH_regsOnly p rd 0x80000000).hdlGo
  exact completes_of hexec ⟨wrote_hdlGo _ _, hgo.wait, hgo.running, hgo.pc, hgo.others, hgo.regs⟩

/-! ### An entry taken -/

/-- The oldest entry of queue `q` has been taken for WAITQ, and `rest` are left (R211). -/
def State.entryWaited (s : State) (p q : Nat) (rest : List QEntry) : State :=
  (s.leftInQueue p q rest).updCore p fun c => { c with lastWaitq := q }

theorem State.waitqTake_of_entry {e : QEntry} {rest : List QEntry} (hent : ((s.core p).queue q).entries = e :: rest) :
    s.waitqTake p q rd = ((s.entryWaited p q rest).loadWords p 12 e.words).setH p rd
      (BitVec.ofNat 32 (q + (e.words.length - 1) * 8 + e.src % 2 ^ 14 * 32)) := by
  simp only [State.waitqTake, hent]
  rfl

theorem State.core_entryWaited (rest : List QEntry) (i : Nat) : (s.entryWaited p q rest).core i =
    if i = p then { (s.core p).setQueue q { (s.core p).queue q with entries := rest } with lastWaitq := q } else s.core i := by
  rw [State.entryWaited, State.core_updCore, State.core_leftInQueue, State.core_leftInQueue, if_pos rfl]
  split <;> rfl

theorem State.waitqTake_regsOnly {e : QEntry} {rest : List QEntry} (hent : ((s.core p).queue q).entries = e :: rest) :
    RegsOnly p (s.entryWaited p q rest) (s.waitqTake p q rd) := by
  rw [State.waitqTake_of_entry hent]
  exact (State.loadWords_regsOnly 12 e.words).trans (State.setH_regsOnly ..)

/-- The entries that are left once WAITQ has taken the oldest. -/
theorem State.entries_waitqTake {e : QEntry} {rest : List QEntry} (hent : ((s.core p).queue q).entries = e :: rest) :
    (((s.waitqTake p q rd).core p).queue q).entries = rest := by
  obtain ⟨regs, hcore⟩ := (State.waitqTake_regsOnly (rd := rd) hent).core
  rw [hcore, State.core_entryWaited, if_pos rfl]
  exact congrArg Queue.entries ((Core.queue_setQueue ..).trans (if_pos rfl))

theorem State.h_entryWaited (rest : List QEntry) (r : Nat) : (s.entryWaited p q rest).h p r = s.h p r := by
  rw [State.h, State.core_entryWaited, if_pos rfl, State.h]
  rfl

theorem State.h_waitqTake {e : QEntry} {rest : List QEntry} (hent : ((s.core p).queue q).entries = e :: rest) {r : Nat} (hr : r < 16) :
    (s.waitqTake p q rd).h p r = if r = rd ∧ r ≠ 0 then BitVec.ofNat 32 (q + (e.words.length - 1) * 8 + e.src % 2 ^ 14 * 32)
      else if 12 ≤ r ∧ r < 16 then e.words.getD (r - 12) 0 else s.h p r := by
  rw [State.waitqTake_of_entry hent, State.h_setH_of_lt _ _ hr, State.h_loadWords _ (by decide) hr, State.h_entryWaited]

/-- A WAITQ that takes an entry, with rd zero: the words alone are answered. -/
theorem waitq_takes_words {ws : List Word} {src : Nat} {rest : List QEntry} (hmask : mask < 256)
    (hiss : s.willIssue p (encI 0x1C 0 ra mask)) (hq : s.dataQueue p mask = some q)
    (hent : ((s.core p).queue q).entries = ⟨ws, src⟩ :: rest) :
    completes (.waitq p 0 ra mask) s fun t => (∀ i, i < 4 → t.h p (12 + i) = ws.getD i 0) ∧
      (∀ r, r < 12 → t.h p r = s.h p r) ∧ ((t.core p).queue q).entries = rest ∧
      t.rf (Reg.HDL_Q_STATUS p q) 0 6 = rest.length % 64 ∧ t.pc p = (s.pc p + 1) % 2 ^ 11 ∧ otherCores p s t := by
  have hent' : (((s.charged p 3).core p).queue q).entries = ⟨ws, src⟩ :: rest := by
    rw [State.core_charged_same]
    exact hent
  have hregs := State.waitqTake_regsOnly (rd := 0) hent'
  have hne := hdlStatus_ne_queueStatus p q
  refine completes_of (exec_waitq_taken (by decide) hmask hiss hq) ⟨fun i hi => ?_, fun r hr => ?_, ?_, ?_, ?_, fun i hi => ?_⟩
  · rw [State.h_hdlNext, State.h_waitqTake hent' (by omega), if_neg (by omega), if_pos (by omega), Nat.add_sub_cancel_left]
  · rw [State.h_hdlNext, State.h_waitqTake hent' (by omega), if_neg (by omega), if_neg (by omega), State.h_charged]
  · rw [State.core_hdlNext, State.entries_waitqTake hent']
  · rw [State.rf, State.hdlNext, State.rd_setPc, if_neg hne.symm, hregs.rd, State.entryWaited, State.rd_updCore]
    exact State.occupancy_putQueue ..
  · rw [State.hdlNext, State.pc_setPc, hregs.pc, State.pc, State.rf, State.entryWaited, State.rd_updCore, State.leftInQueue,
      State.rd_putQueue _ _ hne, State.rd_charged, State.pc, State.rf]
  · rw [State.core_hdlNext, hregs.others i hi, State.core_entryWaited, if_neg hi, State.otherCores_charged 3 i hi]

/-- A WAITQ that takes an entry and names it in rd, which is written last. -/
theorem waitq_takes_entry {ws : List Word} {src : Nat} {rest : List QEntry} (hrd : rd < 16) (h0 : 0 < rd)
    (hmask : mask < 256) (hiss : s.willIssue p (encI 0x1C rd ra mask)) (hq : s.dataQueue p mask = some q)
    (hent : ((s.core p).queue q).entries = ⟨ws, src⟩ :: rest) :
    completes (.waitq p rd ra mask) s fun t =>
      t.h p rd = BitVec.ofNat 32 (q + (ws.length - 1) * 8 + src % 2 ^ 14 * 32) ∧ ((t.core p).queue q).entries = rest := by
  have hent' : (((s.charged p 3).core p).queue q).entries = ⟨ws, src⟩ :: rest := by
    rw [State.core_charged_same]
    exact hent
  refine completes_of (exec_waitq_taken hrd hmask hiss hq) ⟨?_, ?_⟩
  · rw [State.h_hdlNext, State.h_waitqTake hent' hrd, if_pos ⟨rfl, Nat.ne_of_gt h0⟩]
  · rw [State.core_hdlNext, State.entries_waitqTake hent']

end

/-- Settles O11: WAITQ by what stands in the queues and by its limit, and the end of the limit. -/
theorem handlerWaits : Obligations.HandlerWaits := fun _ _ _ _ hrd hra =>
  ⟨fun _ hmask hiss hnone hzero => waitq_answers_none hrd hra hmask hiss hnone hzero,
    fun _ hmask hiss hnone hlimit => waitq_waits hrd hra hmask hiss hnone hlimit, fun _ hwait => waitqTimeout_completes hwait,
    fun _ _ _ _ _ hmask hiss hq hent => waitq_takes_words hmask hiss hq hent,
    fun _ _ _ _ _ hmask h0 hiss hq hent => waitq_takes_entry hrd h0 hmask hiss hq hent⟩

end Sys2Proof.Machine
end

section
/-! SUPPORT. What sync objects and the pools of waiters do (06_core_messaging.md R216 to R218), and what a sync unit leaves alone. -/
namespace Sys2Proof.Machine

/-! ### Releases of an object (R217) -/

namespace SyncObj

theorem releases_below {o : SyncObj} (h : o.count.toInt < o.target.toInt) : o.releases = 0 := if_neg (by omega)

theorem releases_once {o : SyncObj} (h0 : 0 < o.target.toInt) (hlo : o.target.toInt ≤ o.count.toInt)
    (hhi : o.count.toInt < 2 * o.target.toInt) : o.releases = 1 := by
  have hdiv : o.count.toInt / o.target.toInt = 1 :=
    le_antisymm (Int.lt_add_one_iff.1 (Int.ediv_lt_of_lt_mul h0 hhi)) (Int.le_ediv_of_mul_le h0 (by omega))
  rw [releases, if_pos ⟨h0, hlo⟩, hdiv, Int.toNat_one]

theorem after_zero (o : SyncObj) : o.after 0 = o := by
  have hcount : toWord (o.count.toInt - ((0 : Nat) : Int) * o.target.toInt) = o.count := by
    rw [Nat.cast_zero, Int.zero_mul, Int.sub_zero, toWord, BitVec.ofInt_toInt]
  rw [after, hcount, BitVec.add_zero]

theorem after_one (o : SyncObj) : o.after 1 = { o with count := o.count - o.target, gen := o.gen + 1 } := by
  have hcount : toWord (o.count.toInt - ((1 : Nat) : Int) * o.target.toInt) = o.count - o.target := by
    rw [Nat.cast_one, Int.one_mul, toWord]
    exact BitVec.eq_of_toInt_eq (by rw [BitVec.toInt_ofInt, BitVec.toInt_sub])
  rw [after, hcount]
  rfl

end SyncObj

/-! ### Waiters (R218) -/

theorem freeWaiters_all {i n : Nat} {ws : List Waiter} (h : (ws.filter (·.object == i)).length ≤ n) :
    freeWaiters i n ws = ws.filter (fun w => w.object != i) := by
  induction ws generalizing n with
  | nil => cases n <;> rfl
  | cons w ws ih =>
    by_cases hw : w.object = i
    · rw [List.filter_cons_of_pos (by simpa using hw), List.length_cons] at h
      obtain ⟨m, rfl⟩ := Nat.exists_eq_add_of_le' (Nat.le_trans (Nat.succ_le_succ (Nat.zero_le _)) h)
      rw [List.filter_cons_of_neg (by simpa using hw), freeWaiters, if_pos hw, ih (Nat.le_of_succ_le_succ h)]
    · rw [List.filter_cons_of_neg (by simpa using hw)] at h
      rw [List.filter_cons_of_pos (by simpa using hw)]
      cases n with
      | zero => rw [← ih h]; cases ws <;> rfl
      | succ m => rw [freeWaiters, if_neg hw, ih h]

theorem freeWaiters_first {i : Nat} {w : Waiter} (ws : List Waiter) (h : w.object = i) : freeWaiters i 1 (w :: ws) = ws := by
  rw [freeWaiters, if_pos h]
  cases ws <;> rfl

/-! ### Objects and groves after each operation -/

section
variable {s t : State} {g : Nat}

theorem State.obj_of_objs {i : Nat} (h : (t.grove g).objs = (s.grove g).objs) : t.obj g i = s.obj g i := by
  rw [State.obj, h, State.obj]

theorem State.grove_setObj (i : Nat) (o : SyncObj) (h : Nat) : (s.setObj g i o).grove h =
    if h = g then { s.grove g with objs := Store.set emptyObj (s.grove g).objs i o } else s.grove h := State.grove_updGrove ..

theorem State.obj_setObj (i : Nat) (o : SyncObj) (j : Nat) : (s.setObj g i o).obj g j = if j = i then o else s.obj g j := by
  rw [State.obj, State.grove_setObj, if_pos rfl]
  exact Store.get_set ..

theorem State.waiters_setObj (i : Nat) (o : SyncObj) : ((s.setObj g i o).grove g).waiters = (s.grove g).waiters := by
  rw [State.grove_setObj, if_pos rfl]

theorem State.notices_setObj (i : Nat) (o : SyncObj) : ((s.setObj g i o).grove g).notices = (s.grove g).notices := by
  rw [State.grove_setObj, if_pos rfl]

theorem State.grove_poolShow (h : Nat) : (s.poolShow g).grove h = s.grove h := by
  unfold State.poolShow State.high
  dsimp only
  split
  · rw [State.grove_wf', State.grove_wf']
  · rw [State.grove_wf']

/-- The grove of a unit that notifies up to `n` waiters on object `i`. -/
def Grove.notified (i n : Nat) (v : Grove) : Grove :=
  { v with
    waiters := freeWaiters i n v.waiters
    notices := v.notices ++ ((v.waiters.filter (·.object == i)).take n).map fun w => ⟨w.logical, w.queue, w.word⟩ }

theorem State.notify_eq (i n : Nat) : s.notify g i n = (s.updGrove g (Grove.notified i n)).poolShow g := rfl

theorem State.grove_notify (i n h : Nat) : (s.notify g i n).grove h = if h = g then (s.grove g).notified i n else s.grove h := by
  rw [State.notify_eq, State.grove_poolShow, State.grove_updGrove]

theorem State.obj_notify (i n j : Nat) : (s.notify g i n).obj g j = s.obj g j := State.obj_of_objs (by
  rw [State.grove_notify, if_pos rfl, Grove.notified])

end

/-! ### What the work of a unit leaves alone -/

/-- From `s` to `t` the sync unit of grove `g` has worked: it has written no register but those listed, put no packet into the fabric,
and changed no other grove and no partition. -/
structure UnitWork (g : Nat) (ks : List Nat) (s t : State) : Prop where
  regs : otherRegs ks s t
  others : otherGroves g s t
  parts : t.parts = s.parts
  net : t.net = s.net

section
variable {g : Nat} {ks : List Nat} {s t u : State}

theorem UnitWork.refl : UnitWork g ks s s := ⟨fun _ _ => rfl, fun _ _ => rfl, rfl, rfl⟩

theorem UnitWork.trans (h : UnitWork g ks s t) (h' : UnitWork g ks t u) : UnitWork g ks s u :=
  ⟨fun k hk => (h'.regs k hk).trans (h.regs k hk), fun j hj => (h'.others j hj).trans (h.others j hj), h'.parts.trans h.parts,
    h'.net.trans h.net⟩

theorem UnitWork.count {key n : Nat} (hk : key ∈ ks) (h : UnitWork g ks s t) : UnitWork g ks s (t.count key n) :=
  h.trans ⟨Reads.refl.count (P := (· ∉ ks)) (not_not_intro hk), fun _ _ => State.grove_count .., rfl, State.net_count ..⟩

theorem UnitWork.updGrove {f : Grove → Grove} (h : UnitWork g ks s t) : UnitWork g ks s (t.updGrove g f) :=
  h.trans ⟨fun _ _ => State.rd_updGrove .., fun j hj => by rw [State.grove_updGrove, if_neg hj], rfl, State.net_updGrove ..⟩

theorem UnitWork.setObj {i : Nat} {o : SyncObj} (h : UnitWork g ks s t) : UnitWork g ks s (t.setObj g i o) := h.updGrove

theorem UnitWork.poolShow (hk : Reg.FAB_SYNC_STATUS g ∈ ks) (h : UnitWork g ks s t) : UnitWork g ks s (t.poolShow g) := by
  have hreads : otherRegs ks t (t.poolShow g) := (Reads.refl.wf' (P := (· ∉ ks)) (not_not_intro hk)).high (not_not_intro hk)
  have hkeep := State.poolShow_keeps (K := 4) (g := g) (Keeps.refl t) (.same rfl)
  exact h.trans ⟨hreads, fun _ _ => State.grove_poolShow _, hkeep.same .parts rfl, hkeep.same .net rfl⟩

theorem UnitWork.notify {i n : Nat} (hk : Reg.FAB_SYNC_STATUS g ∈ ks) (h : UnitWork g ks s t) : UnitWork g ks s (t.notify g i n) :=
  State.notify_eq (s := t) (g := g) i n ▸ h.updGrove.poolShow hk

theorem UnitWork.roster (h : UnitWork g ks s t) (hks : ∀ k ∈ ks, ¬RosterKey k) : Reads RosterKey s t :=
  Reads.mono (P := (· ∉ ks)) h.regs fun k hk hmem => hks k hmem hk

/-- A packet of the unit enters at its stop (05_fabric.md R159). -/
theorem UnitWork.fromStopMark {p mark : Nat} {b : Body} (h : UnitWork g ks s t) (hks : ∀ k ∈ ks, ¬RosterKey k)
    (hflow : s.flows ((s.partOf (p / 144)).getD 0)) : t.fromStopMark g (0x40 + g) 1 p b mark = t.put (s.syncPkt g p b mark) := by
  have hpart := (h.roster hks).partOf_eq (p / 144)
  have hopen : t.holdsAll ((s.partOf (p / 144)).getD 0) = false := by
    rw [State.holdsAll, State.part, h.parts]
    exact hflow
  simp only [State.fromStopMark, State.inject, hpart, hopen, Bool.false_and, Bool.false_eq_true, if_false, State.enter, State.syncPkt]

end

end Sys2Proof.Machine
end

section
/-! SUPPORT. The requests that reach a sync unit and the operations it performs on them (06_core_messaging.md R217 to R219). -/
namespace Sys2Proof.Machine

/-- The registers in which the sync unit of grove `g` counts and shows its work on requests (06_core_messaging.md R230). -/
def syncKeys (g : Nat) : List Nat := [Reg.FAB_SYNC_OPS g, Reg.FAB_SYNC_STATUS g, Reg.FAB_SYNC_POOL_FULL g, Reg.FAB_SYNC_NOTIFY g]

theorem not_rosterKey_of_mem_syncKeys {g key : Nat} (hg : g < 64) (h : key ∈ syncKeys g) : ¬RosterKey key := by
  simp only [syncKeys, List.mem_cons, List.not_mem_nil, or_false] at h
  rcases h with rfl | rfl | rfl | rfl <;> exact not_rosterKey_groveReg hg (by decide)

section
variable {s : State} {i g : Nat} {r : SyncReq}

theorem State.syncTake_of_syncAt (hg : g < 64) (h : s.syncAt i g r) : s.syncTake i r.op = some (g, r, true, s.without i) := by
  obtain ⟨f, harr, hplace, hbody, hpart, -⟩ := h
  have htake := State.takeUnit_of_arrived harr hplace (Nat.le_add_right 0x40 g) (by omega : 0x40 + g < 0x80)
  have hok : (s.without i).partOf g = some f.part := hpart
  simp only [State.syncTake, htake, hbody, if_pos, hok, decide_true, Nat.add_sub_cancel_left]

/-- From `u` the unit of grove `g` answers request `r`, and changes nothing but the fabric. -/
structure UnitAnswers (s : State) (i g : Nat) (r : SyncReq) (code : Nat) (v : Word) (u t : State) : Prop where
  sent : took i [s.replyTo g r code v] s t
  grove : t.grove = u.grove
  rd : t.rd = u.rd

variable {u : State} {code : Nat} {v : Word} {ks : List Nat}

theorem unitAnswers_syncReply (hg : g < 64) (h : s.syncAt i g r) (hks : ks ⊆ syncKeys g) (hu : UnitWork g ks (s.without i) u) :
    UnitAnswers s i g r code v u (u.syncReply g r code v) := by
  obtain ⟨f, -, -, -, -, hflow⟩ := h
  have hreply : u.syncReply g r code v = u.put (s.replyTo g r code v) :=
    hu.fromStopMark (fun k hk => not_rosterKey_of_mem_syncKeys hg (hks hk)) hflow
  rw [hreply]
  exact ⟨by rw [took, State.net_put, hu.net, State.net_without], rfl, rfl⟩

theorem completes_syncAdd (hg : g < 64) (h : s.syncAt i g r) (hop : r.op = 0)
    (hdo : (s.without i).syncAddOp g r.object r.operand = (u, code, v)) (hks : ks ⊆ syncKeys g) (hu : UnitWork g ks (s.without i) u) :
    completes (.syncAdd i) s (UnitAnswers s i g r code v u) := by
  refine ⟨u.syncReply g r code v, ?_, unitAnswers_syncReply hg h hks hu⟩
  have htake := State.syncTake_of_syncAt hg h
  rw [hop] at htake
  simp only [exec, execSyncAdd, htake, hdo, Bool.not_true, Bool.false_eq_true, if_false]

theorem completes_syncWait (hg : g < 64) (h : s.syncAt i g r) (hop : r.op = 1)
    (hdo : (s.without i).syncWaitOp g r (s.logicalOf r.from_) = (u, code, v)) (hks : ks ⊆ syncKeys g)
    (hu : UnitWork g ks (s.without i) u) : completes (.syncWait i) s (UnitAnswers s i g r code v u) := by
  refine ⟨u.syncReply g r code v, ?_, unitAnswers_syncReply hg h hks hu⟩
  have htake := State.syncTake_of_syncAt hg h
  rw [hop] at htake
  have hlog : (s.without i).logicalOf r.from_ = s.logicalOf r.from_ := rfl
  simp only [exec, execSyncWait, htake, hlog, hdo, Bool.not_true, Bool.false_eq_true, if_false]

theorem completes_syncRead (hg : g < 64) (h : s.syncAt i g r) (hop : r.op = 2) :
    completes (.syncRead i) s
      (UnitAnswers s i g r rcOk (s.syncReadOp g r.object (fld r.operand 0 3)) ((s.without i).count (Reg.FAB_SYNC_OPS g) 1)) := by
  refine ⟨_, ?_, unitAnswers_syncReply (ks := [Reg.FAB_SYNC_OPS g]) hg h (by simp [syncKeys]) (UnitWork.refl.count List.mem_cons_self)⟩
  have htake := State.syncTake_of_syncAt hg h
  rw [hop] at htake
  have hread : (s.without i).syncReadOp g r.object (fld r.operand 0 3) = s.syncReadOp g r.object (fld r.operand 0 3) := rfl
  simp only [exec, execSyncRead, htake, hread, Bool.not_true, Bool.false_eq_true, if_false]

end

/-! ### The operations (R217) -/

section
variable {s : State} {g i : Nat} {v : Word}

theorem State.syncAddOp_of_disabled (h : (s.obj g i).en = false) : s.syncAddOp g i v = (s, rcSyncDisabled, 0) := by
  simp only [State.syncAddOp, h, Bool.not_false, if_true]

/-- An ADD that leaves a barrier below its target counts the operand. -/
theorem State.syncAddOp_of_below (hen : (s.obj g i).en = true) (hsem : (s.obj g i).semaphore = false)
    (hlt : ((s.obj g i).count + v).toInt < (s.obj g i).target.toInt) :
    s.syncAddOp g i v = ((s.count (Reg.FAB_SYNC_OPS g) 1).setObj g i { s.obj g i with count := (s.obj g i).count + v }, rcOk,
      (s.obj g i).gen) := by
  have hn : SyncObj.releases { s.obj g i with count := (s.obj g i).count + v } = 0 := SyncObj.releases_below hlt
  simp only [State.syncAddOp, hen, hsem, hn, SyncObj.after_zero, Bool.not_true, Bool.false_eq_true, if_false, if_true]

/-- The object after an ADD of `v` that reaches its target once. -/
def SyncObj.reached (o : SyncObj) (v : Word) : SyncObj := { o with count := o.count + v - o.target, gen := o.gen + 1 }

/-- An ADD that reaches a barrier's target once releases every waiter of the object. -/
theorem State.syncAddOp_of_release (hen : (s.obj g i).en = true) (hsem : (s.obj g i).semaphore = false)
    (h0 : 0 < (s.obj g i).target.toInt) (hlo : (s.obj g i).target.toInt ≤ ((s.obj g i).count + v).toInt)
    (hhi : ((s.obj g i).count + v).toInt < 2 * (s.obj g i).target.toInt) :
    s.syncAddOp g i v = (((s.count (Reg.FAB_SYNC_OPS g) 1).setObj g i ((s.obj g i).reached v)).notify g i (s.armed g i), rcOk,
      (s.obj g i).gen) := by
  have hn : SyncObj.releases { s.obj g i with count := (s.obj g i).count + v } = 1 := SyncObj.releases_once h0 hlo hhi
  have harmed : ((s.count (Reg.FAB_SYNC_OPS g) 1).setObj g i ((s.obj g i).reached v)).armed g i = s.armed g i := by
    rw [State.armed, State.waiters_setObj, State.grove_count, State.armed]
  have hafter : SyncObj.after { s.obj g i with count := (s.obj g i).count + v } 1 = (s.obj g i).reached v := SyncObj.after_one _
  simp only [State.syncAddOp, hen, hsem, hn, hafter, harmed, Bool.not_true, Bool.false_eq_true, if_false, one_ne_zero]

/-- An ADD that reaches a semaphore's target once grants it to one waiter. -/
theorem State.syncAddOp_of_grant (hen : (s.obj g i).en = true) (hsem : (s.obj g i).semaphore = true)
    (h0 : 0 < (s.obj g i).target.toInt) (hlo : (s.obj g i).target.toInt ≤ ((s.obj g i).count + v).toInt)
    (hhi : ((s.obj g i).count + v).toInt < 2 * (s.obj g i).target.toInt) (harmed : 1 ≤ s.armed g i) :
    s.syncAddOp g i v = (((s.count (Reg.FAB_SYNC_OPS g) 1).setObj g i ((s.obj g i).reached v)).notify g i 1, rcOk,
      (s.obj g i).count + v - (s.obj g i).target) := by
  have hn : SyncObj.releases { s.obj g i with count := (s.obj g i).count + v } = 1 := SyncObj.releases_once h0 hlo hhi
  have hafter : SyncObj.after { s.obj g i with count := (s.obj g i).count + v } 1 = (s.obj g i).reached v := SyncObj.after_one _
  simp only [State.syncAddOp, hen, hsem, hn, hafter, Nat.min_eq_left harmed, Bool.not_true, Bool.false_eq_true, if_false, if_true]
  rw [SyncObj.reached]

variable {r : SyncReq} {logical : Nat}

theorem State.syncWaitOp_of_semaphore (hen : (s.obj g r.object).en = true) (hsem : (s.obj g r.object).semaphore = true)
    (harmed : s.armed g r.object = 0) (hle : (s.obj g r.object).target.toInt ≤ (s.obj g r.object).count.toInt) :
    s.syncWaitOp g r logical =
      (((s.count (Reg.FAB_SYNC_OPS g) 1).setObj g r.object ((s.obj g r.object).after 1)).noticeNow g logical r.queue r.operand,
        rcImmediate, ((s.obj g r.object).after 1).count) := by
  simp only [State.syncWaitOp, hen, hsem, harmed, hle, Bool.not_true, Bool.false_eq_true, if_false, Bool.false_and, Bool.true_and,
    beq_self_eq_true, decide_true, if_true]

theorem State.syncWaitOp_of_passed (hen : (s.obj g r.object).en = true) (hsem : (s.obj g r.object).semaphore = false)
    (hgen : fld (s.obj g r.object).gen 0 16 ≠ r.gen16) :
    s.syncWaitOp g r logical =
      ((s.count (Reg.FAB_SYNC_OPS g) 1).noticeNow g logical r.queue r.operand, rcImmediate, (s.obj g r.object).gen) := by
  simp only [State.syncWaitOp, hen, hsem, bne_iff_ne.2 hgen, Bool.not_true, Bool.not_false, Bool.false_eq_true, if_false, Bool.and_self,
    if_true]

theorem State.syncWaitOp_of_current (hen : (s.obj g r.object).en = true) (hsem : (s.obj g r.object).semaphore = false)
    (hgen : fld (s.obj g r.object).gen 0 16 = r.gen16) :
    s.syncWaitOp g r logical =
      if poolLen ≤ (s.grove g).waiters.length then
        ((s.count (Reg.FAB_SYNC_OPS g) 1).count (Reg.FAB_SYNC_POOL_FULL g) 1, rcPoolFull, 0)
      else ((((s.count (Reg.FAB_SYNC_OPS g) 1).updGrove g fun v =>
        { v with waiters := v.waiters ++ [⟨r.object, logical, r.queue, r.operand⟩] }).poolShow g), rcOk, (s.obj g r.object).gen) := by
  simp only [State.syncWaitOp, hen, hsem, hgen, bne_self_eq_false, Bool.not_true, Bool.not_false, Bool.false_eq_true, if_false,
    Bool.and_false, Bool.false_and]

end

end Sys2Proof.Machine
end

section
/-! SUPPORT. The ADDs that a sync unit takes from its requests (06_core_messaging.md R217). -/
namespace Sys2Proof.Machine

section
variable {s t u : State} {g i : Nat} {o : SyncObj} {v : Word} {r : SyncReq} {code : Nat}

theorem State.obj_counted (key n : Nat) (j : Nat) : ((s.count key n).setObj g i o).obj g j = if j = i then o else s.obj g j := by
  rw [State.obj_setObj]
  rfl

theorem State.waiters_notified (key m n : Nat) : ((((s.count key m).setObj g i o).notify g i n).grove g).waiters =
    freeWaiters i n (s.grove g).waiters := by
  rw [State.grove_notify, if_pos rfl, Grove.notified, State.waiters_setObj, State.grove_count]

theorem State.notices_notified (key m n : Nat) : ((((s.count key m).setObj g i o).notify g i n).grove g).notices =
    (s.grove g).notices ++ (((s.grove g).waiters.filter (·.object == i)).take n).map fun w => ⟨w.logical, w.queue, w.word⟩ := by
  rw [State.grove_notify, if_pos rfl, Grove.notified, State.notices_setObj, State.waiters_setObj, State.grove_count]

theorem UnitWork.counted : UnitWork g [Reg.FAB_SYNC_OPS g] s ((s.count (Reg.FAB_SYNC_OPS g) 1).setObj g i o) :=
  (UnitWork.refl.count List.mem_cons_self).setObj

theorem UnitWork.notified (n : Nat) : UnitWork g [Reg.FAB_SYNC_OPS g, Reg.FAB_SYNC_STATUS g] s
    (((s.count (Reg.FAB_SYNC_OPS g) 1).setObj g i o).notify g i n) :=
  (UnitWork.refl.count List.mem_cons_self).setObj.notify (List.mem_cons_of_mem _ List.mem_cons_self)

theorem UnitAnswers.obj (h : UnitAnswers s i g r code v u t) (j : Nat) : t.obj g j = u.obj g j := State.obj_of_objs (by rw [h.grove])

end

variable {s : State} {i g : Nat} {r : SyncReq}

theorem syncAdd_of_disabled (hg : g < 64) (hat : s.syncAt i g r) (hop : r.op = 0) (hen : (s.obj g r.object).en = false) :
    completes (.syncAdd i) s fun t => took i [s.replyTo g r rcSyncDisabled 0] s t ∧ t.obj g r.object = s.obj g r.object ∧
      otherGroves g s t ∧ otherRegs [] s t := by
  obtain ⟨t, hexec, h⟩ := completes_syncAdd hg hat hop (State.syncAddOp_of_disabled hen) (List.nil_subset _) UnitWork.refl
  refine ⟨t, hexec, h.sent, h.obj _, fun j _ => ?_, fun k _ => ?_⟩
  · rw [h.grove, State.grove_without]
  · rw [h.rd, State.rd_without]

theorem syncAdd_of_below (hg : g < 64) (hat : s.syncAt i g r) (hop : r.op = 0) (hen : (s.obj g r.object).en = true)
    (hsem : (s.obj g r.object).semaphore = false)
    (hlt : ((s.obj g r.object).count + r.operand).toInt < (s.obj g r.object).target.toInt) :
    completes (.syncAdd i) s fun t => took i [s.replyTo g r rcOk (s.obj g r.object).gen] s t ∧
      t.obj g r.object = { s.obj g r.object with count := (s.obj g r.object).count + r.operand } ∧
      (t.grove g).waiters = (s.grove g).waiters ∧ (t.grove g).notices = (s.grove g).notices ∧
      (∀ j, j ≠ r.object → t.obj g j = s.obj g j) ∧ otherGroves g s t ∧
      t.rd (Reg.FAB_SYNC_OPS g) = sticky (s.rd (Reg.FAB_SYNC_OPS g)) 1 ∧ otherRegs [Reg.FAB_SYNC_OPS g] s t := by
  have hwork := UnitWork.counted (s := s.without i) (g := g) (i := r.object)
    (o := { s.obj g r.object with count := (s.obj g r.object).count + r.operand })
  obtain ⟨t, hexec, h⟩ := completes_syncAdd hg hat hop (State.syncAddOp_of_below (s := s.without i) hen hsem hlt)
    (by simp [syncKeys]) hwork
  refine ⟨t, hexec, h.sent, ?_, ?_, ?_, fun j hj => ?_, fun j hj => ?_, ?_, fun k hk => ?_⟩
  · rw [h.obj, State.obj_counted, if_pos rfl]
    rfl
  · rw [h.grove, State.waiters_setObj, State.grove_count, State.grove_without]
  · rw [h.grove, State.notices_setObj, State.grove_count, State.grove_without]
  · rw [h.obj, State.obj_counted, if_neg hj]
    rfl
  · rw [h.grove]
    exact hwork.others j hj
  · rw [h.rd, State.setObj, State.rd_updGrove, State.rd_count, if_pos rfl, State.rd_without]
  · rw [h.rd]
    exact hwork.regs k hk

theorem syncAdd_of_release (hg : g < 64) (hat : s.syncAt i g r) (hop : r.op = 0) (hen : (s.obj g r.object).en = true)
    (hsem : (s.obj g r.object).semaphore = false) (h0 : 0 < (s.obj g r.object).target.toInt)
    (hlo : (s.obj g r.object).target.toInt ≤ ((s.obj g r.object).count + r.operand).toInt)
    (hhi : ((s.obj g r.object).count + r.operand).toInt < 2 * (s.obj g r.object).target.toInt) :
    completes (.syncAdd i) s fun t => took i [s.replyTo g r rcOk (s.obj g r.object).gen] s t ∧
      t.obj g r.object = (s.obj g r.object).reached r.operand ∧
      (t.grove g).waiters = (s.grove g).waiters.filter (fun w => w.object != r.object) ∧
      (t.grove g).notices = (s.grove g).notices ++
        ((s.grove g).waiters.filter (fun w => w.object == r.object)).map fun w => ⟨w.logical, w.queue, w.word⟩ := by
  obtain ⟨t, hexec, h⟩ := completes_syncAdd hg hat hop (State.syncAddOp_of_release (s := s.without i) hen hsem h0 hlo hhi)
    (by simp [syncKeys]) (UnitWork.notified _)
  refine ⟨t, hexec, h.sent, ?_, ?_, ?_⟩
  · rw [h.obj, State.obj_notify, State.obj_counted, if_pos rfl]
    rfl
  · rw [h.grove, State.waiters_notified, State.grove_without]
    exact freeWaiters_all le_rfl
  · rw [h.grove, State.notices_notified, State.grove_without]
    congr 2
    exact List.take_length

theorem syncAdd_of_grant {w : Waiter} {rest : List Waiter} (hg : g < 64) (hat : s.syncAt i g r) (hop : r.op = 0)
    (hen : (s.obj g r.object).en = true) (hsem : (s.obj g r.object).semaphore = true) (hws : (s.grove g).waiters = w :: rest)
    (hw : w.object = r.object) (h0 : 0 < (s.obj g r.object).target.toInt)
    (hlo : (s.obj g r.object).target.toInt ≤ ((s.obj g r.object).count + r.operand).toInt)
    (hhi : ((s.obj g r.object).count + r.operand).toInt < 2 * (s.obj g r.object).target.toInt) :
    completes (.syncAdd i) s fun t =>
      took i [s.replyTo g r rcOk ((s.obj g r.object).count + r.operand - (s.obj g r.object).target)] s t ∧
      t.obj g r.object = (s.obj g r.object).reached r.operand ∧ (t.grove g).waiters = rest ∧
      (t.grove g).notices = (s.grove g).notices ++ [⟨w.logical, w.queue, w.word⟩] := by
  have hfilter : (s.grove g).waiters.filter (·.object == r.object) = w :: rest.filter (·.object == r.object) := by
    rw [hws, List.filter_cons_of_pos (by simpa using hw)]
  have harmed : 1 ≤ s.armed g r.object := by
    rw [State.armed, hfilter, List.length_cons]
    exact Nat.le_add_left 1 _
  obtain ⟨t, hexec, h⟩ := completes_syncAdd hg hat hop (State.syncAddOp_of_grant (s := s.without i) hen hsem h0 hlo hhi harmed)
    (by simp [syncKeys]) (UnitWork.notified 1)
  refine ⟨t, hexec, h.sent, ?_, ?_, ?_⟩
  · rw [h.obj, State.obj_notify, State.obj_counted, if_pos rfl]
    rfl
  · rw [h.grove, State.waiters_notified, State.grove_without, hws, freeWaiters_first rest hw]
  · rw [h.grove, State.notices_notified, State.grove_without, hfilter]
    rfl

theorem UnitWork.noticeNow {s t : State} {ks : List Nat} {logical q : Nat} {w : Word} (h : UnitWork g ks s t) :
    UnitWork g ks s (t.noticeNow g logical q w) := h.updGrove

theorem State.grove_noticeNow (s : State) (g logical q : Nat) (w : Word) : (s.noticeNow g logical q w).grove g =
    { s.grove g with notices := (s.grove g).notices ++ [⟨logical, q, w⟩] } := State.grove_updGrove_same ..

theorem State.obj_noticeNow (s : State) (g logical q : Nat) (w : Word) (j : Nat) : (s.noticeNow g logical q w).obj g j = s.obj g j :=
  State.obj_of_objs (by rw [State.grove_noticeNow])

theorem syncWait_of_semaphore (hg : g < 64) (hat : s.syncAt i g r) (hop : r.op = 1)
    (hen : (s.obj g r.object).en = true) (hsem : (s.obj g r.object).semaphore = true) (harmed : s.armed g r.object = 0)
    (hle : (s.obj g r.object).target.toInt ≤ (s.obj g r.object).count.toInt) :
    completes (.syncWait i) s fun t =>
      t.obj g r.object = (s.obj g r.object).after 1 ∧ (t.grove g).waiters = (s.grove g).waiters ∧
      (t.grove g).notices = (s.grove g).notices ++ [⟨s.logicalOf r.from_, r.queue, r.operand⟩] ∧
      took i [s.replyTo g r rcImmediate ((s.obj g r.object).after 1).count] s t := by
  obtain ⟨t, hexec, h⟩ := completes_syncWait hg hat hop (State.syncWaitOp_of_semaphore (s := s.without i) hen hsem harmed hle)
    (by simp [syncKeys]) UnitWork.counted.noticeNow
  refine ⟨t, hexec, ?_, ?_, ?_, h.sent⟩
  · rw [h.obj, State.obj_noticeNow, State.obj_counted, if_pos rfl]
    rfl
  · rw [h.grove, State.grove_noticeNow, State.waiters_setObj, State.grove_count, State.grove_without]
  · rw [h.grove, State.grove_noticeNow, State.notices_setObj, State.grove_count, State.grove_without]

/-- Settles O17: what the unit does on the object is decided by EN, MODE and how COUNT compares with TARGET, and its reply is all
that it puts into the fabric. -/
theorem syncAdds : Obligations.SyncAdds := by
  unfold Obligations.SyncAdds
  refine ⟨fun s i g r hg hat hop => ⟨?_, ?_, ?_⟩, fun s i g r w rest hg hat hen hsem => ⟨?_, ?_⟩⟩
  · exact syncAdd_of_disabled hg hat hop
  · exact syncAdd_of_below hg hat hop
  · exact syncAdd_of_release hg hat hop
  · exact fun hop hws hw => syncAdd_of_grant hg hat hop hen hsem hws hw
  · exact fun hop => syncWait_of_semaphore hg hat hop hen hsem

end Sys2Proof.Machine
end

section
/-! SUPPORT. WAITs, READs, notifications, and the host's accesses of sync objects (06_core_messaging.md R217, R218; 11_host_interface.md
R387). -/
namespace Sys2Proof.Machine

section
variable {s : State} {i g : Nat} {r : SyncReq}

theorem syncWait_of_passed (hg : g < 64) (hat : s.syncAt i g r) (hop : r.op = 1) (hen : (s.obj g r.object).en = true)
    (hsem : (s.obj g r.object).semaphore = false) (hgen : fld (s.obj g r.object).gen 0 16 ≠ r.gen16) :
    completes (.syncWait i) s fun t => took i [s.replyTo g r rcImmediate (s.obj g r.object).gen] s t ∧
      (t.grove g).waiters = (s.grove g).waiters ∧ t.obj g r.object = s.obj g r.object ∧
      (t.grove g).notices = (s.grove g).notices ++ [⟨s.logicalOf r.from_, r.queue, r.operand⟩] ∧
      otherRegs [Reg.FAB_SYNC_OPS g] s t := by
  have hwork : UnitWork g [Reg.FAB_SYNC_OPS g] (s.without i)
      (((s.without i).count (Reg.FAB_SYNC_OPS g) 1).noticeNow g (s.logicalOf r.from_) r.queue r.operand) :=
    (UnitWork.refl.count List.mem_cons_self).noticeNow
  obtain ⟨t, hexec, h⟩ := completes_syncWait hg hat hop (State.syncWaitOp_of_passed (s := s.without i) hen hsem hgen)
    (by simp [syncKeys]) hwork
  refine ⟨t, hexec, h.sent, ?_, ?_, ?_, fun k hk => ?_⟩
  · rw [h.grove, State.grove_noticeNow, State.grove_count, State.grove_without]
  · rw [h.obj, State.obj_noticeNow]
    exact State.obj_of_objs (by rw [State.grove_count, State.grove_without])
  · rw [h.grove, State.grove_noticeNow, State.grove_count, State.grove_without]
  · rw [h.rd]
    exact hwork.regs k hk

theorem syncWait_of_room (hg : g < 64) (hat : s.syncAt i g r) (hop : r.op = 1) (hen : (s.obj g r.object).en = true)
    (hsem : (s.obj g r.object).semaphore = false) (hgen : fld (s.obj g r.object).gen 0 16 = r.gen16)
    (hroom : (s.grove g).waiters.length < 4096) :
    completes (.syncWait i) s fun t => took i [s.replyTo g r rcOk (s.obj g r.object).gen] s t ∧
      (t.grove g).waiters = (s.grove g).waiters ++ [⟨r.object, s.logicalOf r.from_, r.queue, r.operand⟩] ∧
      (t.grove g).notices = (s.grove g).notices ∧ t.obj g r.object = s.obj g r.object ∧
      otherRegs [Reg.FAB_SYNC_OPS g, Reg.FAB_SYNC_STATUS g] s t := by
  have hop' := State.syncWaitOp_of_current (s := s.without i) (logical := s.logicalOf r.from_) hen hsem hgen
  rw [State.grove_without, poolLen, if_neg (Nat.not_le.2 hroom)] at hop'
  have hwork : UnitWork g [Reg.FAB_SYNC_OPS g, Reg.FAB_SYNC_STATUS g] (s.without i) ((((s.without i).count (Reg.FAB_SYNC_OPS g) 1).updGrove g
      fun v => { v with waiters := v.waiters ++ [⟨r.object, s.logicalOf r.from_, r.queue, r.operand⟩] }).poolShow g) :=
    (UnitWork.refl.count List.mem_cons_self).updGrove.poolShow (List.mem_cons_of_mem _ List.mem_cons_self)
  obtain ⟨t, hexec, h⟩ := completes_syncWait hg hat hop hop' (by simp [syncKeys]) hwork
  have hgrove : t.grove g =
      { s.grove g with waiters := (s.grove g).waiters ++ [⟨r.object, s.logicalOf r.from_, r.queue, r.operand⟩] } := by
    rw [h.grove, State.grove_poolShow, State.grove_updGrove_same, State.grove_count, State.grove_without]
  refine ⟨t, hexec, h.sent, ?_, ?_, State.obj_of_objs ?_, fun k hk => ?_⟩
  · rw [hgrove]
  · rw [hgrove]
  · rw [hgrove]
  · rw [h.rd]
    exact hwork.regs k hk

theorem syncWait_of_full (hg : g < 64) (hat : s.syncAt i g r) (hop : r.op = 1) (hen : (s.obj g r.object).en = true)
    (hsem : (s.obj g r.object).semaphore = false) (hgen : fld (s.obj g r.object).gen 0 16 = r.gen16)
    (hfull : 4096 ≤ (s.grove g).waiters.length) :
    completes (.syncWait i) s fun t => took i [s.replyTo g r rcPoolFull 0] s t ∧
      (t.grove g).waiters = (s.grove g).waiters ∧
      t.rd (Reg.FAB_SYNC_POOL_FULL g) = sticky (s.rd (Reg.FAB_SYNC_POOL_FULL g)) 1 ∧
      otherRegs [Reg.FAB_SYNC_OPS g, Reg.FAB_SYNC_POOL_FULL g] s t := by
  have hop' := State.syncWaitOp_of_current (s := s.without i) (logical := s.logicalOf r.from_) hen hsem hgen
  rw [State.grove_without, poolLen, if_pos hfull] at hop'
  have hwork : UnitWork g [Reg.FAB_SYNC_OPS g, Reg.FAB_SYNC_POOL_FULL g] (s.without i)
      (((s.without i).count (Reg.FAB_SYNC_OPS g) 1).count (Reg.FAB_SYNC_POOL_FULL g) 1) :=
    (UnitWork.refl.count List.mem_cons_self).count (List.mem_cons_of_mem _ List.mem_cons_self)
  obtain ⟨t, hexec, h⟩ := completes_syncWait hg hat hop hop' (by simp [syncKeys]) hwork
  have hne : Reg.FAB_SYNC_POOL_FULL g ≠ Reg.FAB_SYNC_OPS g := by simp [Reg.FAB_SYNC_POOL_FULL, Reg.FAB_SYNC_OPS, groveReg]
  refine ⟨t, hexec, h.sent, ?_, ?_, fun k hk => ?_⟩
  · rw [h.grove, State.grove_count, State.grove_count, State.grove_without]
  · rw [h.rd, State.rd_count, if_pos rfl, State.rd_count, if_neg hne, State.rd_without]
  · rw [h.rd]
    exact hwork.regs k hk

theorem syncRead_answers (hg : g < 64) (hat : s.syncAt i g r) (hop : r.op = 2) : completes (.syncRead i) s fun t =>
    took i [s.replyTo g r rcOk (s.syncReadOp g r.object (fld r.operand 0 3))] s t ∧ t.grove g = s.grove g ∧
    otherRegs [Reg.FAB_SYNC_OPS g] s t := by
  obtain ⟨t, hexec, h⟩ := completes_syncRead hg hat hop
  refine ⟨t, hexec, h.sent, ?_, fun k hk => ?_⟩
  · rw [h.grove, State.grove_count, State.grove_without]
  · rw [h.rd]
    exact otherRegs_count _ _ _ k hk

/-- A count of the unit moves no core. -/
theorem State.physOf_count_groveReg (hg : g < 64) {off : Nat} (ho : off < 0x100000) (n l : Nat) :
    (s.count (groveReg g off) n).physOf l = s.physOf l := by
  have hne : Reg.INT_CORE_MAP l ≠ groveReg g off := by
    have hlt := groveReg_lt hg ho
    simp only [Reg.INT_CORE_MAP]
    omega
  rw [State.physOf, State.bit, State.rf, State.rd_count, if_neg hne, State.physOf, State.bit, State.rf]

theorem syncNotifyIssue_sends {n : Notice} {rest : List Notice} {p : Nat} (hg : g < 64) (hns : (s.grove g).notices = n :: rest)
    (hp : s.physOf n.logical = some p) (hflow : s.flows ((s.partOf (p / 144)).getD 0)) :
    completes (.syncNotifyIssue g) s fun t =>
      t.net = s.net ++ [s.syncPkt g p (.msg 1 n.word srcUnit n.queue 0) 0] ∧ t.grove g = { s.grove g with notices := rest } ∧
      t.rd (Reg.FAB_SYNC_NOTIFY g) = sticky (s.rd (Reg.FAB_SYNC_NOTIFY g)) 1 ∧ otherGroves g s t ∧
      otherRegs [Reg.FAB_SYNC_NOTIFY g] s t := by
  have hwork : UnitWork g [Reg.FAB_SYNC_NOTIFY g] s
      ((s.updGrove g fun v => { v with notices := rest }).count (Reg.FAB_SYNC_NOTIFY g) 1) :=
    UnitWork.refl.updGrove.count List.mem_cons_self
  have hphys : ((s.updGrove g fun v => { v with notices := rest }).count (Reg.FAB_SYNC_NOTIFY g) 1).physOf n.logical = some p :=
    (State.physOf_count_groveReg hg (by decide) _ _).trans hp
  have hkeys : ∀ k ∈ [Reg.FAB_SYNC_NOTIFY g], ¬RosterKey k := fun k hk =>
    not_rosterKey_of_mem_syncKeys hg (by simp only [List.mem_singleton.1 hk, syncKeys, List.mem_cons, true_or, or_true])
  refine ⟨_, by simp only [exec, execSyncNotifyIssue, hns, hphys, State.fromStop]; rw [hwork.fromStopMark hkeys hflow], ?_, ?_, ?_,
    fun j hj => ?_, fun k hk => ?_⟩
  · rw [State.net_put, hwork.net]
  · rw [State.grove_put, State.grove_count, State.grove_updGrove_same]
  · rw [State.rd_put, State.rd_count, if_pos rfl, State.rd_updGrove]
  · rw [State.grove_put]
    exact hwork.others j hj
  · rw [State.rd_put]
    exact hwork.regs k hk

end

/-! ### The host's accesses (11_host_interface.md R386, R387) -/

section
variable {s : State} {a g i : Nat} {v : Word} (hreach : s.barReach a g i = true)
include hreach

theorem hostSyncAdd_filtered (hown : s.ownsGrove a g = false) : completes (.hostSyncAdd a g i v) s fun t => t.grove g = s.grove g ∧
    t.rd (Reg.HIF_FILTERED a) = sticky (s.rd (Reg.HIF_FILTERED a)) 1 ∧
    t.rd (Reg.HIF_FILTER_ADDR a) = BitVec.ofNat 32 (32 * (2048 * g + i) + 0x10) ∧
    otherRegs [Reg.HIF_FILTERED a, Reg.HIF_FILTER_ADDR a] s t := by
  have hne : Reg.HIF_FILTERED a ≠ Reg.HIF_FILTER_ADDR a := by simp [Reg.HIF_FILTERED, Reg.HIF_FILTER_ADDR, attReg]
  refine ⟨s.filtered a (barAddr g i 0x10), by simp [exec, execHostSyncAdd, hreach, hown], ?_, ?_, ?_, fun k hk => ?_⟩
  · rw [State.filtered, State.grove_wr, State.grove_count]
  · rw [State.filtered, State.rd_wr, if_neg hne, State.rd_count, if_pos rfl]
  · rw [State.filtered, State.rd_wr, if_pos rfl, barAddr]
  · simp only [List.mem_cons, List.not_mem_nil, or_false, not_or] at hk
    rw [State.filtered, State.rd_wr, if_neg hk.2, State.rd_count, if_neg hk.1]

theorem hostSyncAdd_of_below (hown : s.ownsGrove a g = true) (hen : (s.obj g i).en = true) (hsem : (s.obj g i).semaphore = false)
    (hlt : ((s.obj g i).count + v).toInt < (s.obj g i).target.toInt) :
    completes (.hostSyncAdd a g i v) s fun t => t.obj g i = { s.obj g i with count := (s.obj g i).count + v } ∧
      (∀ j, j ≠ i → t.obj g j = s.obj g j) ∧ otherGroves g s t ∧ otherRegs [Reg.FAB_SYNC_OPS g] s t := by
  have hexec : exec (.hostSyncAdd a g i v) s = .next ((s.count (Reg.FAB_SYNC_OPS g) 1).setObj g i
      { s.obj g i with count := (s.obj g i).count + v }) := by
    simp only [exec, execHostSyncAdd, hreach, hown, Bool.true_eq_false, if_false, if_true, State.syncAddOp_of_below hen hsem hlt]
  refine ⟨_, hexec, ?_, fun j hj => ?_, UnitWork.counted.others, UnitWork.counted.regs⟩
  · rw [State.obj_counted, if_pos rfl]
  · rw [State.obj_counted, if_neg hj]

variable (hown : s.ownsGrove a g = true)
include hown

theorem exec_bar2SyncWrite_of_armed (harmed : 0 < s.armed g i) (reg : Nat) : exec (.bar2SyncWrite a g i reg v) s = .next s := by
  simp only [exec, execBar2SyncWrite, hreach, hown, harmed, Bool.not_true, Bool.false_eq_true, Bool.true_eq_false, if_false, if_true]

variable (harmed : s.armed g i = 0)
include harmed

theorem exec_bar2SyncWrite_cfg (hv : v.toNat < 2 ^ 31 ∨ 1 ≤ (s.obj g i).target.toInt) :
    exec (.bar2SyncWrite a g i 0 v) s = .next (s.setObj g i { s.obj g i with cfg := v }) := by
  have hok : (tst v 31 && decide ((s.obj g i).target.toInt < 1)) = false := by
    rcases hv with hv | hv
    · have htop : tst v 31 = false := (tst_eq_getLsbD v 31).trans (Nat.testBit_lt_two_pow hv)
      rw [htop, Bool.false_and]
    · rw [decide_eq_false (Int.not_lt.2 hv), Bool.and_false]
  simp only [exec, execBar2SyncWrite, hreach, hown, harmed, hok, Bool.not_true, Bool.false_eq_true, Bool.true_eq_false, if_false,
    Nat.lt_irrefl]

theorem exec_bar2SyncWrite_target (hv : (s.obj g i).en = false ∨ 1 ≤ v.toInt) :
    exec (.bar2SyncWrite a g i 4 v) s = .next (s.setObj g i { s.obj g i with target := v }) := by
  have hok : ((s.obj g i).en && decide (v.toInt < 1)) = false := by
    rcases hv with hv | hv
    · rw [hv, Bool.false_and]
    · rw [decide_eq_false (Int.not_lt.2 hv), Bool.and_false]
  simp only [exec, execBar2SyncWrite, hreach, hown, harmed, hok, Bool.not_true, Bool.false_eq_true, Bool.true_eq_false, if_false,
    Nat.lt_irrefl]

theorem exec_bar2SyncWrite_count : exec (.bar2SyncWrite a g i 8 v) s = .next (s.setObj g i { s.obj g i with count := v }) := by
  simp only [exec, execBar2SyncWrite, hreach, hown, harmed, Bool.not_true, Bool.false_eq_true, Bool.true_eq_false, if_false, Nat.lt_irrefl]

end

theorem State.obj_setObj_same (s : State) (g i : Nat) (o : SyncObj) : (s.setObj g i o).obj g i = o := by rw [State.obj_setObj, if_pos rfl]

theorem State.setObj_work (s : State) (g i : Nat) (o : SyncObj) : UnitWork g [] s (s.setObj g i o) := UnitWork.refl.setObj

/-- Settles O18: each request and each host access that is served changes its object, the pool or the notifications as the operation
says, and nothing else but the counts. -/
theorem syncWaits : Obligations.SyncWaits := by
  unfold Obligations.SyncWaits
  refine ⟨fun s i g r hg => ⟨?_, ?_, ?_, ?_, ?_⟩, fun s a g i v hg hi ha hreach => ⟨?_, ?_, ?_, ?_, ?_, ?_⟩⟩
  · exact syncWait_of_passed hg
  · exact syncWait_of_room hg
  · exact syncWait_of_full hg
  · exact syncRead_answers hg
  · exact fun n rest p => syncNotifyIssue_sends hg
  · exact hostSyncAdd_filtered hreach
  · exact hostSyncAdd_of_below hreach
  · exact fun hown harmed hv => ⟨_, exec_bar2SyncWrite_cfg hreach hown harmed hv, State.obj_setObj_same .., fun j hj => by
      rw [State.obj_setObj, if_neg hj], (s.setObj_work g i _).others, (s.setObj_work g i _).regs⟩
  · exact fun hown harmed hv => ⟨_, exec_bar2SyncWrite_target hreach hown harmed hv, State.obj_setObj_same .., (s.setObj_work g i _).others⟩
  · exact fun hown harmed => ⟨_, exec_bar2SyncWrite_count hreach hown harmed, State.obj_setObj_same .., (s.setObj_work g i _).others⟩
  · exact fun hown harmed reg => ⟨s, exec_bar2SyncWrite_of_armed hreach hown harmed reg, rfl⟩

end Sys2Proof.Machine
end

section
/-! SUPPORT. Messages and notifications at the receive endpoint of a core (06_core_messaging.md R196, R197, R200, R201, R218): O15. -/
namespace Sys2Proof.Machine

/-- From `s` to `t` core `p` has worked by itself: no register but those listed, no other core and nothing of the fabric has changed,
nor has what holds a packet (05_fabric.md R184) or sends it on a detour (05_fabric.md R187). -/
structure CoreWork (p : Nat) (ks : List Nat) (s t : State) : Prop where
  regs : otherRegs ks s t
  others : otherCores p s t
  net : t.net = s.net
  parts : t.parts = s.parts
  detLive : t.detLive = s.detLive

section
variable {s t u : State} {p q : Nat} {ks : List Nat}

theorem CoreWork.refl : CoreWork p ks s s := ⟨fun _ _ => rfl, fun _ _ => rfl, rfl, rfl, rfl⟩

theorem CoreWork.trans (h : CoreWork p ks s t) (h' : CoreWork p ks t u) : CoreWork p ks s u :=
  ⟨fun k hk => (h'.regs k hk).trans (h.regs k hk), fun j hj => (h'.others j hj).trans (h.others j hj), h'.net.trans h.net,
    h'.parts.trans h.parts, h'.detLive.trans h.detLive⟩

theorem CoreWork.count {key n : Nat} (hk : key ∈ ks) (h : CoreWork p ks s t) : CoreWork p ks s (t.count key n) :=
  h.trans ⟨Reads.refl.count (P := (· ∉ ks)) (not_not_intro hk), fun _ _ => State.core_count .., State.net_count .., rfl, rfl⟩

theorem CoreWork.updCore {f : Core → Core} (h : CoreWork p ks s t) : CoreWork p ks s (t.updCore p f) :=
  h.trans ⟨fun _ _ => State.rd_updCore .., otherCores_updCore t p f, State.net_updCore .., rfl, rfl⟩

theorem CoreWork.putQueue {v : Queue} (hk : Reg.HDL_Q_STATUS p q ∈ ks) (h : CoreWork p ks s t) : CoreWork p ks s (t.putQueue p q v) :=
  h.trans ⟨State.putQueue_reads (P := (· ∉ ks)) q v (not_not_intro hk), fun _ hj => (State.core_putQueue ..).trans (if_neg hj),
    State.net_putQueue .., (State.putQueue_keeps (Keeps.refl t) (.same rfl)).same .parts rfl,
    (State.putQueue_keeps (Keeps.refl t) (.same rfl)).same .detLive rfl⟩

theorem CoreWork.enqueue {e : QEntry} (hks : Reg.HDL_Q_STATUS p q ∈ ks) (hka : Reg.HDL_Q_ACCEPT p q ∈ ks) (h : CoreWork p ks s t) :
    CoreWork p ks s (t.enqueue p q e) := (h.putQueue hks).count hka

theorem CoreWork.unreserve (hks : Reg.HDL_Q_STATUS p q ∈ ks) (h : CoreWork p ks s t) : CoreWork p ks s (t.unreserve p q) := h.putQueue hks

theorem CoreWork.respond {src mark code : Nat} (hk : code = rcOk ∨ Reg.HDL_NAK_SENT p ∈ ks) (h : CoreWork p ks s t) :
    CoreWork p ks s (t.respond p q src mark code) := by
  unfold State.respond
  dsimp only
  split
  next => exact h.updCore
  next hcode => exact h.updCore.count (hk.resolve_left hcode)

/-! ### What the queue and the responses hold -/

theorem State.core_enqueue (e : QEntry) : (s.enqueue p q e).core p =
    (s.core p).setQueue q { (s.core p).queue q with entries := ((s.core p).queue q).entries ++ [e] } := by
  rw [State.enqueue, State.core_count, State.core_putQueue, if_pos rfl]

theorem State.queue_enqueue (e : QEntry) : ((s.enqueue p q e).core p).queue q =
    { (s.core p).queue q with entries := ((s.core p).queue q).entries ++ [e] } := by
  rw [State.core_enqueue, Core.queue_setQueue, if_pos rfl]

theorem hdlQAccept_ne_hdlQStatus (p q : Nat) : Reg.HDL_Q_ACCEPT p q ≠ Reg.HDL_Q_STATUS p q := coreReg_ne (by omega)

theorem State.rd_accept_enqueue (e : QEntry) :
    (s.enqueue p q e).rd (Reg.HDL_Q_ACCEPT p q) = sticky (s.rd (Reg.HDL_Q_ACCEPT p q)) 1 := by
  rw [State.enqueue, State.rd_count, if_pos rfl, State.rd_putQueue _ _ (hdlQAccept_ne_hdlQStatus p q)]

/-- A handler that does not wait for an entry is left alone as one arrives. -/
theorem State.waitqCheck_enqueue (e : QEntry) (h : ∀ m rd, (s.core p).wait ≠ .waitq m rd) :
    (s.enqueue p q e).waitqCheck p = s.enqueue p q e :=
  State.waitqCheck_of_not_waiting fun m rd => by
    rw [State.core_enqueue]
    exact h m rd

theorem State.core_respond (src mark code : Nat) : (s.respond p q src mark code).core p =
    { s.core p with responses := Store.set (fun _ => 0) (s.core p).responses src (1 + q % 8 + 8 * code + 128 * mark) } := by
  unfold State.respond
  dsimp only
  split
  · rw [State.core_updCore_same]
  · rw [State.core_count, State.core_updCore_same]

theorem State.queue_respond (src mark code r : Nat) : ((s.respond p q src mark code).core p).queue r = (s.core p).queue r := by
  rw [State.core_respond]
  rfl

/-- The response owed to a sender (R197). -/
theorem State.owed_respond (hq : q < 8) (src mark code : Nat) :
    Store.get (fun _ => 0) ((s.respond p q src mark code).core p).responses src = 1 + q + 8 * code + 128 * mark := by
  rw [State.core_respond, Nat.mod_eq_of_lt hq]
  exact (Store.get_set ..).trans (if_pos rfl)

theorem State.rd_respond (src mark code k : Nat) : (s.respond p q src mark code).rd k =
    if code ≠ rcOk ∧ k = Reg.HDL_NAK_SENT p then sticky (s.rd k) 1 else s.rd k := by
  unfold State.respond
  dsimp only
  by_cases hcode : code = rcOk
  · rw [if_pos hcode, if_neg (fun h => h.1 hcode), State.rd_updCore]
  · rw [if_neg hcode, State.rd_count, State.rd_updCore, State.rd_updCore]
    by_cases hk : k = Reg.HDL_NAK_SENT p
    · rw [if_pos hk, if_pos ⟨hcode, hk⟩, hk]
    · rw [if_neg hk, if_neg (fun h => hk h.2)]

/-! ### A message at the endpoint (R196) -/

variable {ws : List Word} {src mark : Nat}

theorem State.accept_of_room (hen : s.qEnabled p q = true) (hfree : 0 < ((s.core p).queue q).free)
    (hwait : ∀ m rd, (s.core p).wait ≠ .waitq m rd) : s.accept p q ws src true = (s.enqueue p q ⟨ws, src⟩, rcOk) := by
  simp only [State.accept, hen, Nat.pos_iff_ne_zero.1 hfree, State.waitqCheck_enqueue _ hwait, Bool.not_true, Bool.false_eq_true, if_false]

theorem State.accept_of_full (hen : s.qEnabled p q = true) (hfree : ((s.core p).queue q).free = 0) :
    s.accept p q ws src true = (s.count (Reg.HDL_Q_DROP p q) 1, rcFull) := by
  simp only [State.accept, hen, hfree, Bool.not_true, Bool.false_eq_true, if_false, if_true]

theorem State.accept_of_badCrc (hen : s.qEnabled p q = true) :
    s.accept p q ws src false = (s.count (Reg.HDL_Q_DROP p q) 1, rcCrc) := by
  simp only [State.accept, hen, Bool.not_true, Bool.not_false, Bool.false_eq_true, if_false, if_true]

theorem State.receive_of_sender {ok : Bool} {code : Nat} (hsrc : src ≠ srcUnit) (hgate : (s.core p).gated = false)
    (hacc : s.accept p q ws src ok = (u, code)) : s.receive p q ws src mark ok = u.respond p q src mark code := by
  simp only [State.receive, State.wake_of_not_gated hgate, hacc, if_neg hsrc]

variable {i : Nat} {f : Flight} {code : Nat}

theorem exec_msg_of_arrived {w : Word} (h : s.arrived i f) (hplace : f.place = .core p) (hbody : f.body = .msg 0 w src q code)
    (hknown : srcKnown src = true) : exec (.msg i) s = .next ((s.without i).receive p q [w] src f.mark true) := by
  simp [exec, execMsg, State.takeCore_of_arrived h hplace, hbody, hknown]

/-- The CRC-16 of an active message's arguments. -/
def amCrc (ws : List Word) : Nat := crc c16t (ws.flatMap fun w => toBytes 4 w.toNat)

theorem exec_amArgs_of_arrived (h : s.arrived i f) (hplace : f.place = .core p) (hbody : f.body = .amArgs src q ws none)
    (hknown : srcKnown src = true) : exec (.amArgs i) s = .next ((s.without i).receive p q ws src f.mark true) := by
  simp only [exec, execAmArgs, State.takeCore_of_arrived h hplace, hbody, hknown, if_true]

theorem exec_amArgs_of_badCrc {v : Nat} (h : s.arrived i f) (hplace : f.place = .core p) (hbody : f.body = .amArgs src q ws (some v))
    (hv : v ≠ amCrc ws) (hknown : srcKnown src = true) :
    exec (.amArgs i) s = .next ((s.without i).receive p q ws src f.mark false) := by
  have hcrc : (v == crc c16t (ws.flatMap fun w => toBytes 4 w.toNat)) = false := beq_false_of_ne hv
  simp only [exec, execAmArgs, State.takeCore_of_arrived h hplace, hbody, hknown, hcrc, if_true]

theorem exec_notify_of_arrived {w : Word} {src : Nat} (h : s.arrived i f) (hplace : f.place = .core p)
    (hbody : f.body = .msg 1 w src q code) (hgate : (s.core p).gated = false) :
    exec (.notify i) s = .next ((s.without i).fillReserved p q w) := by
  have hwake : (s.without i).wake p = s.without i := State.wake_of_not_gated hgate
  simp only [exec, execNotify, State.takeCore_of_arrived h hplace, hbody, hwake]

theorem CoreWork.took (h : CoreWork p ks (s.without i) t) : took i [] s t := by
  rw [Machine.took, h.net, State.net_without, List.append_nil]

/-- A message that is accepted is the newest entry of its queue, and OK is owed to its sender. -/
theorem accepted_respond (hq : q < 8) (e : QEntry) :
    ∀ t, t = ((s.without i).enqueue p q e).respond p q src mark rcOk →
      (t.core p).queue q = { (s.core p).queue q with entries := ((s.core p).queue q).entries ++ [e] } ∧
      Store.get (fun _ => 0) (t.core p).responses src = 1 + q + 8 * rcOk + 128 * mark ∧
      t.rd (Reg.HDL_Q_ACCEPT p q) = sticky (s.rd (Reg.HDL_Q_ACCEPT p q)) 1 ∧
      CoreWork p [Reg.HDL_Q_STATUS p q, Reg.HDL_Q_ACCEPT p q] (s.without i) t := by
  rintro t rfl
  refine ⟨?_, State.owed_respond hq .., ?_,
    (CoreWork.refl.enqueue List.mem_cons_self (List.mem_cons_of_mem _ List.mem_cons_self)).respond (.inl rfl)⟩
  · rw [State.queue_respond, State.queue_enqueue, State.core_without]
  · rw [State.rd_respond, if_neg (fun h => h.1 rfl), State.rd_accept_enqueue, State.rd_without]

/-- A message that is dropped leaves its queue alone, and its sender is owed the reason. -/
theorem dropped_respond (hq : q < 8) (hcode : code ≠ rcOk) :
    ∀ t, t = ((s.without i).count (Reg.HDL_Q_DROP p q) 1).respond p q src mark code →
      (t.core p).queue q = (s.core p).queue q ∧
      Store.get (fun _ => 0) (t.core p).responses src = 1 + q + 8 * code + 128 * mark ∧
      t.rd (Reg.HDL_Q_DROP p q) = sticky (s.rd (Reg.HDL_Q_DROP p q)) 1 ∧
      t.rd (Reg.HDL_NAK_SENT p) = sticky (s.rd (Reg.HDL_NAK_SENT p)) 1 ∧
      CoreWork p [Reg.HDL_Q_DROP p q, Reg.HDL_NAK_SENT p] (s.without i) t := by
  have hne : Reg.HDL_Q_DROP p q ≠ Reg.HDL_NAK_SENT p := coreReg_ne (by omega)
  rintro t rfl
  refine ⟨?_, State.owed_respond hq .., ?_, ?_,
    (CoreWork.refl.count List.mem_cons_self).respond (.inr (List.mem_cons_of_mem _ List.mem_cons_self))⟩
  · rw [State.queue_respond, State.core_count, State.core_without]
  · rw [State.rd_respond, if_neg (fun h => hne h.2), State.rd_count, if_pos rfl, State.rd_without]
  · rw [State.rd_respond, if_pos ⟨hcode, rfl⟩, State.rd_count, if_neg hne.symm, State.rd_without]

/-- A word that fills a reserved entry is the newest entry of its queue. -/
theorem fillReserved_fills (w : Word) (hwait : ∀ m rd, (s.core p).wait ≠ .waitq m rd) :
    ((s.fillReserved p q w).core p).queue q =
      ⟨((s.core p).queue q).entries ++ [⟨[w], srcUnit⟩], ((s.core p).queue q).reserved - 1⟩ ∧
    CoreWork p [Reg.HDL_Q_STATUS p q, Reg.HDL_Q_ACCEPT p q] s (s.fillReserved p q w) := by
  have hwait' : ∀ m rd, ((s.unreserve p q).core p).wait ≠ .waitq m rd := fun m rd => by
    rw [State.unreserve, State.core_putQueue, if_pos rfl]
    exact hwait m rd
  refine ⟨(State.fillReserved_of_not_waiting q w hwait).1, ?_⟩
  rw [State.fillReserved, State.waitqCheck_enqueue _ hwait']
  exact (CoreWork.refl.unreserve List.mem_cons_self).enqueue List.mem_cons_self (List.mem_cons_of_mem _ List.mem_cons_self)

end

/-- Settles O15: `State.accept` decides by the queue's state and the CRC-16, and what it answers is recorded for the sender. -/
theorem messagesReachQueues : Obligations.MessagesReachQueues := by
  unfold Obligations.MessagesReachQueues
  intro s i p q src f hp hq harr hplace hknown hsrc hgate hwait
  refine ⟨fun w code hbody hen hfree => ?_, fun w code hbody hen hfree => ?_, fun ws hbody hen hfree => ?_,
    fun ws v hbody hv hen => ?_, fun w code hbody hres => ?_⟩
  · have hexec := exec_msg_of_arrived harr hplace hbody hknown
    rw [State.receive_of_sender (s := s.without i) hsrc hgate (State.accept_of_room (s := s.without i) hen hfree hwait)] at hexec
    obtain ⟨hqueue, howed, hcount, hwork⟩ := accepted_respond (s := s) (i := i) (p := p) (src := src) (mark := f.mark) hq ⟨[w], src⟩ _ rfl
    exact completes_of hexec ⟨by rw [hqueue], by rw [hqueue], howed, hcount, hwork.took, hwork.others, hwork.regs⟩
  · have hexec := exec_msg_of_arrived harr hplace hbody hknown
    rw [State.receive_of_sender (s := s.without i) hsrc hgate (State.accept_of_full (s := s.without i) hen hfree)] at hexec
    obtain ⟨hqueue, howed, hdrop, hnak, hwork⟩ :=
      dropped_respond (s := s) (i := i) (p := p) (src := src) (mark := f.mark) (code := rcFull) hq (by decide) _ rfl
    exact completes_of hexec ⟨by rw [hqueue], howed, hdrop, hnak, hwork.took, hwork.others, hwork.regs⟩
  · have hexec := exec_amArgs_of_arrived harr hplace hbody hknown
    rw [State.receive_of_sender (s := s.without i) hsrc hgate (State.accept_of_room (s := s.without i) hen hfree hwait)] at hexec
    obtain ⟨hqueue, howed, -, hwork⟩ := accepted_respond (s := s) (i := i) (p := p) (src := src) (mark := f.mark) hq ⟨ws, src⟩ _ rfl
    exact completes_of hexec ⟨by rw [hqueue], howed, hwork.took, hwork.others, hwork.regs⟩
  · have hexec := exec_amArgs_of_badCrc harr hplace hbody hv hknown
    rw [State.receive_of_sender (s := s.without i) hsrc hgate (State.accept_of_badCrc (s := s.without i) hen)] at hexec
    obtain ⟨hqueue, howed, hdrop, -, hwork⟩ :=
      dropped_respond (s := s) (i := i) (p := p) (src := src) (mark := f.mark) (code := rcCrc) hq (by decide) _ rfl
    exact completes_of hexec ⟨by rw [hqueue], howed, hdrop, hwork.took, hwork.others, hwork.regs⟩
  · obtain ⟨hqueue, hwork⟩ := fillReserved_fills (s := s.without i) (p := p) (q := q) w hwait
    exact completes_of (exec_notify_of_arrived harr hplace hbody hgate)
      ⟨by rw [hqueue, State.core_without], by rw [hqueue, State.core_without], hwork.took, hwork.others, hwork.regs⟩

end Sys2Proof.Machine
end

section
/-! SUPPORT. Packets that a core puts into the fabric at its own router (05_fabric.md R157, R159, R184, R187). -/
namespace Sys2Proof.Machine

/-- From `t` to `u` packet `f` has entered at the router of core `p`: the high-water mark of its input and nothing else beside. -/
structure Entered (p : Nat) (f : Flight) (t u : State) : Prop where
  net : u.net = t.net ++ [f]
  core : ∀ q, u.core q = t.core q
  rd : ∀ k, k ≠ inputHigh p → u.rd k = t.rd k

section
variable {s t : State} {p : Nat} {ks : List Nat}

theorem CoreWork.wf' {key lo n v : Nat} (hk : key ∈ ks) (h : CoreWork p ks s t) : CoreWork p ks s (t.wf' key lo n v) :=
  h.trans ⟨Reads.refl.wf' (P := (· ∉ ks)) (not_not_intro hk), fun _ _ => State.core_wf' .., State.net_wf' .., rfl, rfl⟩

theorem CoreWork.hdlState {st : Nat} (hk : Reg.HDL_STATUS p ∈ ks) (h : CoreWork p ks s t) : CoreWork p ks s (t.hdlState p st) := h.wf' hk

theorem CoreWork.roster (h : CoreWork p ks s t) (hks : ∀ k ∈ ks, ¬RosterKey k) : Reads RosterKey s t :=
  Reads.mono (P := (· ∉ ks)) h.regs fun k hk hmem => hks k hmem hk

/-- A packet that nothing holds enters at the input of its router (R159). -/
theorem State.inject_local {f : Flight} (hp : p < 9216) (hplace : f.place = .router p) (hport : f.inPort = 4)
    (hflow : t.holdsAll f.part = false) : Entered p f t (t.inject f) := by
  have heq : t.inject f = (t.put f).qHigh p 4 f.body.vc := by
    simp only [State.inject, hflow, Bool.false_and, Bool.false_eq_true, if_false, State.enter, hplace, hport]
  have hkeep := State.qHigh_keeps (K := 4) (n := p) (q := 4) (v := f.body.vc) (Keeps.refl (t.put f)) (.same rfl)
  rw [heq]
  exact ⟨(hkeep.same .net rfl).trans (State.net_put ..), fun q => (hkeep.core_eq rfl q).trans (State.core_put ..),
    fun k hk => (State.qHigh_local_reads (P := (· = k)) _ _ hp (Ne.symm hk) k rfl).trans (State.rd_put ..)⟩

/-- A message that core `p` sends after work of its own takes its detour, and enters at its router. -/
theorem CoreWork.unicastMark {n mark : Nat} {b : Body} (h : CoreWork p ks s t) (hks : ∀ k ∈ ks, ¬RosterKey k) (hp : p < 9216)
    (hflow : s.flows ((s.partOf (p / 144)).getD 0)) :
    Entered p (s.corePkt p (.unicast 1 n) (s.detour p n) b mark) t (t.unicastMark p 1 n none b mark) := by
  have hpart := (h.roster hks).partOf_eq (p / 144)
  have hway : t.detour p n = s.detour p n := by rw [State.detour, h.detLive, State.detour]
  have hpkt : t.uniFlight p 1 n none b mark = s.corePkt p (.unicast 1 n) (s.detour p n) b mark := by
    rw [State.uniFlight, hway, hpart, State.corePkt]
  rw [State.unicastMark, hpkt]
  refine State.inject_local hp rfl rfl ?_
  rw [State.holdsAll, State.part, h.parts]
  exact hflow

theorem Entered.took {f : Flight} {u : State} {i : Nat} (h : Entered p f t u) (hwork : CoreWork p ks (s.without i) t) : took i [f] s u := by
  rw [Machine.took, h.net, hwork.net, State.net_without]

theorem Entered.others {f : Flight} {u : State} (h : Entered p f t u) (hwork : CoreWork p ks s t) : otherCores p s u :=
  fun q hq => (h.core q).trans (hwork.others q hq)

theorem Entered.regs {f : Flight} {u : State} (h : Entered p f t u) (hwork : CoreWork p ks s t) : otherRegs (ks ++ [inputHigh p]) s u :=
  fun k hk => by
    rw [List.mem_append, not_or] at hk
    rw [h.rd k (List.ne_of_not_mem_cons hk.2), hwork.regs k hk.1]

theorem hdlReg_ne_inputHigh {p off : Nat} (hoff : off < 0xC00) : coreReg p off ≠ inputHigh p := by
  simp only [inputHigh, portKey, coreReg]
  omega

end

end Sys2Proof.Machine
end

section
/-! SUPPORT. SEND and SENDW (06_core_messaging.md R211, R214, R215): O12. -/
namespace Sys2Proof.Machine

/-- A core that waits for the answer to its message number `m`. -/
def Core.awaits (w : HWait) (m : Nat) (c : Core) : Core := { c with wait := w, sends := m }

/-- The handler of core `p` waits for the answer to the core's message number `m` (R214, R226). -/
def State.awaits (s : State) (p : Nat) (w : HWait) (m : Nat) : State := (s.updCore p (Core.awaits w m)).hdlState p hsWaitResponse

section
variable {s t : State} {p m : Nat} {w : HWait} {ks : List Nat}

theorem State.core_awaits : (s.awaits p w m).core p = (s.core p).awaits w m := by
  rw [State.awaits, State.core_hdlState, State.core_updCore_same]

theorem CoreWork.awaits (hk : Reg.HDL_STATUS p ∈ ks) (h : CoreWork p ks s t) : CoreWork p ks s (t.awaits p w m) := h.updCore.hdlState hk

theorem CoreWork.charged {cycles : Nat} (h : CoreWork p ks s t) : CoreWork p ks s (t.charged p cycles) := h.updCore

theorem State.rd_awaits {k : Nat} (hk : k ≠ Reg.HDL_STATUS p) : (s.awaits p w m).rd k = s.rd k := by
  rw [State.awaits, State.hdlState, State.rd_wf', if_neg hk, State.rd_updCore]

theorem State.status_awaits : (s.awaits p w m).rd (Reg.HDL_STATUS p) = setFld (s.rd (Reg.HDL_STATUS p)) 29 3 hsWaitResponse := by
  rw [State.awaits, State.hdlState, State.rd_wf', if_pos rfl, State.rd_updCore]

/-- What the handler shows once its message is in the fabric. -/
theorem Entered.waits {f : Flight} {u : State} (h : Entered p f (s.awaits p w m) u) :
    (u.core p).wait = w ∧ (u.core p).sends = m ∧ u.hdlSt p = hsWaitResponse ∧ u.pc p = s.pc p ∧ keptRegs p s u := by
  have hstatus : u.rd (Reg.HDL_STATUS p) = setFld (s.rd (Reg.HDL_STATUS p)) 29 3 hsWaitResponse :=
    (h.rd _ (hdlReg_ne_inputHigh (by decide))).trans State.status_awaits
  have hcore : u.core p = (s.core p).awaits w m := (h.core p).trans State.core_awaits
  refine ⟨by rw [hcore, Core.awaits], by rw [hcore, Core.awaits], ?_, ?_, keptRegs_of_hregs (by rw [hcore, Core.awaits])⟩
  · rw [State.hdlSt, State.rf, hstatus, fld_setFld_same _ _ _ _ (by decide)]
    rfl
  · rw [State.pc, State.rf, hstatus, fld_setFld_below _ _ _ _ _ _ (by decide) (by decide), State.pc, State.rf]

variable {r : SendReq} {n : Nat} {word : Word}

/-- An attempt at another core sends the message and waits (R214). -/
theorem State.attempt_of_resolved (hres : s.resolve p r.dest = .ok n) (hne : n ≠ p) (hwords : r.words = [word]) (hcrc : r.crc = false) :
    s.attempt p r = (s.awaits p (.send { r with mark := (s.core p).sends + 1 }) ((s.core p).sends + 1)).unicastMark p 1 n none
      (.msg 0 word p r.queue 0) ((s.core p).sends + 1) := by
  simp only [State.attempt, hres, hne, hwords, hcrc, if_false]
  rfl

theorem CoreWork.resolve_eq (h : CoreWork p ks s t) (hf : t.fuses = s.fuses) (hlo : Reg.HDL_PART_GROVES_LO p ∉ ks)
    (hhi : Reg.HDL_PART_GROVES_LO p + 4 ∉ ks) (hmap : ∀ l, Reg.INT_CORE_MAP l ∉ ks) (dest : Nat) : t.resolve p dest = s.resolve p dest := by
  have hphys : t.physOf dest = s.physOf dest := by
    rw [State.physOf, State.bit, State.rf, h.regs _ (hmap dest), State.physOf, State.bit, State.rf]
  have hgroves : t.rd64 (Reg.HDL_PART_GROVES_LO p) = s.rd64 (Reg.HDL_PART_GROVES_LO p) := by
    rw [State.rd64, h.regs _ hlo, h.regs _ hhi, State.rd64]
  rw [State.resolve, hf, hgroves, hphys, State.resolve]

/-- The request that SEND and SENDW make of one word (R211, R214). -/
def State.sendReq (s : State) (p rd ra rb : Nat) (retrying : Bool) : SendReq :=
  ⟨rd, fld (s.h p ra) 0 13, fld (s.h p ra) 13 3, [s.h p rb], false, retrying, 0, 0⟩

variable {op rd ra rb : Nat} {retrying : Bool}

theorem State.sendInstr_of_one (hrd : rd < 16) (hra : ra < 16) (hrb : rb < 16) (hiss : s.willIssue p (encR op rd ra rb 0))
    (hlegal : fld (s.h p ra) 19 13 = 0) (hcount : fld (s.h p ra) 16 2 = 0) (hcrc : tst (s.h p ra) 18 = false) :
    s.sendInstr p op rd ra rb 0 retrying = (s.charged p 4).attempt p (s.sendReq p rd ra rb retrying) := by
  have hlast : ¬15 < rb + 0 := by omega
  simp only [State.sendInstr, State.instr_of_willIssue _ _ hiss, State.h_charged, Nat.mod_eq_of_lt hrd, Nat.mod_eq_of_lt hra,
    Nat.mod_eq_of_lt hrb, hlegal, hcount, hcrc, hlast, Nat.zero_mod, ne_eq, not_true_eq_false, false_or, if_false]
  rfl

/-- A one-word message of core `p` has gone out to core `n`, and the handler waits for its response. -/
theorem send_goes_out {c : Instr} (hexec : exec c s = .next (s.sendInstr p op rd ra rb 0 retrying)) (hrd : rd < 16) (hra : ra < 16)
    (hrb : rb < 16) (hp : p < 9216) (hflow : s.flows ((s.partOf (p / 144)).getD 0)) (hlegal : fld (s.h p ra) 19 13 = 0)
    (hcount : fld (s.h p ra) 16 2 = 0) (hcrc : tst (s.h p ra) 18 = false) (hres : s.resolve p (fld (s.h p ra) 0 13) = .ok n)
    (hne : n ≠ p) (hiss : s.willIssue p (encR op rd ra rb 0)) :
    completes c s fun t =>
      t.net = s.net ++ [s.corePkt p (.unicast 1 n) (s.detour p n) (.msg 0 (s.h p rb) p (fld (s.h p ra) 13 3) 0) ((s.core p).sends + 1)] ∧
      (t.core p).sends = (s.core p).sends + 1 ∧
      (t.core p).wait = .send { s.sendReq p rd ra rb retrying with mark := (s.core p).sends + 1 } ∧ t.hdlSt p = hsWaitResponse ∧
      t.pc p = s.pc p ∧ keptRegs p s t ∧ otherCores p s t ∧ otherRegs [Reg.HDL_STATUS p, inputHigh p] s t := by
  have hcharged : CoreWork p [] s (s.charged p 4) := CoreWork.refl.charged
  have hsends : ((s.charged p 4).core p).sends = (s.core p).sends := by rw [State.core_charged_same]
  rw [State.sendInstr_of_one hrd hra hrb hiss hlegal hcount hcrc, State.attempt_of_resolved (n := n) (word := s.h p rb)
    ((hcharged.resolve_eq rfl List.not_mem_nil List.not_mem_nil (fun _ => List.not_mem_nil) _).trans hres) hne rfl rfl, hsends] at hexec
  have hwork : ∀ w, CoreWork p [Reg.HDL_STATUS p] s ((s.charged p 4).awaits p w ((s.core p).sends + 1)) := fun w =>
    CoreWork.refl.charged.awaits List.mem_cons_self
  have hin := (hwork (.send { s.sendReq p rd ra rb retrying with mark := (s.core p).sends + 1 })).unicastMark (n := n)
    (b := .msg 0 (s.h p rb) p (fld (s.h p ra) 13 3) 0) (mark := (s.core p).sends + 1) (fun k hk => List.mem_singleton.1 hk ▸ not_rosterKey_coreReg hp (by decide)) hp hflow
  obtain ⟨hwait, hm, hst, hpc, hkept⟩ := hin.waits
  refine completes_of hexec ⟨hin.net.trans (by rw [(hwork _).net]), hm, hwait, hst, hpc.trans (State.pc_charged 4), fun r hr => ?_,
    hin.others (hwork _), hin.regs (hwork _)⟩
  exact (hkept r hr).trans (State.h_charged ..)

/-- A result code other than OK is counted (R226). -/
def State.nakCounted (s : State) (p code : Nat) : State := if code = rcOk then s else s.count (Reg.HDL_NAK_RCVD p) 1

theorem State.nakCounted_of_ne {code : Nat} (h : code ≠ rcOk) : s.nakCounted p code = s.count (Reg.HDL_NAK_RCVD p) 1 := if_neg h

theorem State.core_nakCounted (code q : Nat) : (s.nakCounted p code).core q = s.core q := by
  unfold State.nakCounted
  split
  · rfl
  · exact State.core_count ..

theorem CoreWork.nakCounted {code : Nat} : CoreWork p [Reg.HDL_NAK_RCVD p] s (s.nakCounted p code) := by
  unfold State.nakCounted
  split
  · exact CoreWork.refl
  · exact CoreWork.refl.count List.mem_cons_self

/-- The result of an attempt that is not tried again ends the instruction (R210, R214). -/
theorem State.attemptEnds_of_final {code : Nat} (hfinal : r.retrying = false ∨ code = rcOk) :
    s.attemptEnds p r code = (s.nakCounted p code).sendResult p r code := by
  have hno : ¬(r.retrying = true ∧ (code = rcFull ∨ code = rcTimeout)) := by
    rintro ⟨hretry, hcode⟩
    rcases hfinal with h | rfl
    · exact absurd hretry (by rw [h]; decide)
    · exact absurd hcode (by decide)
  simp only [State.attemptEnds, hno, if_false, State.nakCounted]

/-- From `s` to `u` an attempt of core `p` has ended with `code` in its register, after what led to `t`, and the handler has gone on. -/
structure AttemptDone (p : Nat) (r : SendReq) (code : Nat) (s t u : State) : Prop where
  wrote : wrote p r.rd (BitVec.ofNat 32 code) s u
  wait : (u.core p).wait = .none
  running : u.hdlSt p = hsRunning
  pc : u.pc p = (s.pc p + 1) % 2 ^ 11
  others : otherCores p s u
  regs : otherRegs [Reg.HDL_STATUS p, Reg.HDL_NAK_RCVD p] s u
  count : u.rd (Reg.HDL_NAK_RCVD p) = t.rd (Reg.HDL_NAK_RCVD p)
  net : u.net = s.net

theorem hdlNakRcvd_ne_hdlStatus (p : Nat) : Reg.HDL_NAK_RCVD p ≠ Reg.HDL_STATUS p := coreReg_ne (by decide)

theorem State.sendResult_done {code : Nat} (hcore : t.core p = s.core p) (hwork : CoreWork p [Reg.HDL_NAK_RCVD p] s t) :
    AttemptDone p r code s t (t.sendResult p r code) := by
  have hgo := (t.setH_regsOnly p r.rd (BitVec.ofNat 32 code)).hdlGo
  have hpc : t.pc p = s.pc p := by
    rw [State.pc, State.rf, hwork.regs _ (by simpa using (hdlNakRcvd_ne_hdlStatus p).symm), State.pc, State.rf]
  refine ⟨fun i hi => (wrote_hdlGo _ _ i hi).trans (by rw [State.h_of_core hcore]), hgo.wait, hgo.running, hgo.pc.trans (by rw [hpc]),
    fun q hq => (hgo.others q hq).trans (hwork.others q hq), fun k hk => ?_, hgo.regs _ (by simpa using hdlNakRcvd_ne_hdlStatus p),
    hgo.net.trans hwork.net⟩
  simp only [List.mem_cons, List.not_mem_nil, or_false, not_or] at hk
  exact (hgo.regs k (by simpa using hk.1)).trans (hwork.regs k (by simpa using hk.2))

theorem sendResponseTimeout_completes (hwait : (s.core p).wait = .send r) (hno : r.retrying = false) :
    completes (.sendResponseTimeout p) s fun t => wrote p r.rd (BitVec.ofNat 32 rcTimeout) s t ∧ (t.core p).wait = .none ∧
      t.hdlSt p = hsRunning ∧ t.pc p = (s.pc p + 1) % 2 ^ 11 ∧
      t.rd (Reg.HDL_NAK_RCVD p) = sticky (s.rd (Reg.HDL_NAK_RCVD p)) 1 ∧ otherCores p s t ∧
      otherRegs [Reg.HDL_STATUS p, Reg.HDL_NAK_RCVD p] s t := by
  have hdone : AttemptDone p r rcTimeout s (s.nakCounted p rcTimeout) _ := State.sendResult_done (State.core_nakCounted ..) CoreWork.nakCounted
  have hcount : (s.nakCounted p rcTimeout).rd (Reg.HDL_NAK_RCVD p) = sticky (s.rd (Reg.HDL_NAK_RCVD p)) 1 := by
    rw [State.nakCounted_of_ne (by decide), State.rd_count, if_pos rfl]
  have hexec : exec (.sendResponseTimeout p) s = .next ((s.nakCounted p rcTimeout).sendResult p r rcTimeout) := by
    simp only [exec, execSendResponseTimeout, hwait, State.attemptEnds_of_final (.inl hno)]
  exact completes_of hexec ⟨hdone.wrote, hdone.wait, hdone.running, hdone.pc, hdone.count.trans hcount,
    hdone.others, hdone.regs⟩

/-- The state in which a message is sent again: the retry is counted (R215). -/
def State.retried (s : State) (p : Nat) : State := s.count (Reg.HDL_RETRIES p) 1

theorem CoreWork.retried (hk : Reg.HDL_RETRIES p ∈ ks) : CoreWork p ks s (s.retried p) := CoreWork.refl.count hk

theorem State.core_retried (q : Nat) : (s.retried p).core q = s.core q := State.core_count ..

theorem State.resolve_retried (hp : p < 9216) (dest : Nat) : (s.retried p).resolve p dest = s.resolve p dest := by
  have hlt : Reg.HDL_RETRIES p < 0x4000000 := coreReg_lt hp (by decide)
  refine (CoreWork.retried (ks := [Reg.HDL_RETRIES p]) List.mem_cons_self).resolve_eq (State.fuses_count ..) ?_ ?_ (fun l => ?_) dest <;> rw [List.mem_singleton]
  · exact coreReg_ne (by decide)
  · simp only [Reg.HDL_PART_GROVES_LO, Reg.HDL_RETRIES, coreReg]
    omega
  · simp only [Reg.INT_CORE_MAP]
    omega

/-- The request of a message that is sent again, under a number of its own (R215). -/
def SendReq.again (r : SendReq) (m : Nat) : SendReq := { r with resends := r.resends + 1, mark := m }

theorem exec_sendwRetryGap (hp : p < 9216) (hwait : (s.core p).wait = .gap r) (hwords : r.words = [word]) (hcrc : r.crc = false)
    (hres : s.resolve p r.dest = .ok n) (hne : n ≠ p) : exec (.sendwRetryGap p) s =
      .next (((s.retried p).awaits p (.send (r.again ((s.core p).sends + 1))) ((s.core p).sends + 1)).unicastMark p 1 n none
        (.msg 0 word p r.queue 0) ((s.core p).sends + 1)) := by
  have hattempt := State.attempt_of_resolved (s := s.retried p) (r := { r with resends := r.resends + 1 })
    ((State.resolve_retried hp r.dest).trans hres) hne hwords hcrc
  rw [State.core_retried] at hattempt
  simp only [exec, execSendwRetryGap, hwait]
  exact congrArg _ hattempt

theorem sendwRetryGap_completes (hp : p < 9216) (hwait : (s.core p).wait = .gap r) (hwords : r.words = [word]) (hcrc : r.crc = false)
    (hres : s.resolve p r.dest = .ok n) (hne : n ≠ p) (hflow : s.flows ((s.partOf (p / 144)).getD 0)) :
    completes (.sendwRetryGap p) s fun t =>
      t.net = s.net ++ [s.corePkt p (.unicast 1 n) (s.detour p n) (.msg 0 word p r.queue 0) ((s.core p).sends + 1)] ∧
      (t.core p).wait = .send (r.again ((s.core p).sends + 1)) ∧ t.hdlSt p = hsWaitResponse ∧
      t.rd (Reg.HDL_RETRIES p) = sticky (s.rd (Reg.HDL_RETRIES p)) 1 ∧ keptRegs p s t ∧ otherCores p s t ∧
      otherRegs [Reg.HDL_STATUS p, Reg.HDL_RETRIES p, inputHigh p] s t := by
  have hwork : CoreWork p [Reg.HDL_STATUS p, Reg.HDL_RETRIES p] s
      ((s.retried p).awaits p (.send (r.again ((s.core p).sends + 1))) ((s.core p).sends + 1)) :=
    (CoreWork.retried (List.mem_cons_of_mem _ List.mem_cons_self)).awaits List.mem_cons_self
  have hin := hwork.unicastMark (n := n) (b := .msg 0 word p r.queue 0) (mark := (s.core p).sends + 1) (fun k hk => by
    rcases List.mem_cons.1 hk with rfl | hk
    · exact not_rosterKey_coreReg hp (by decide)
    · exact List.mem_singleton.1 hk ▸ not_rosterKey_coreReg hp (by decide)) hp hflow
  obtain ⟨hwaits, -, hst, -, hkept⟩ := hin.waits
  have hne' : Reg.HDL_RETRIES p ≠ Reg.HDL_STATUS p := coreReg_ne (by decide)
  refine completes_of (exec_sendwRetryGap hp hwait hwords hcrc hres hne) ⟨by rw [hin.net, hwork.net], hwaits, hst, ?_,
    fun i hi => (hkept i hi).trans (State.h_of_core (State.core_retried p) i), hin.others hwork, hin.regs hwork⟩
  rw [hin.rd (Reg.HDL_RETRIES p) (hdlReg_ne_inputHigh (by decide)), State.rd_awaits hne', State.retried, State.rd_count, if_pos rfl]

end

/-- Settles O12: the message enters at the core's router after work on the core's own registers, which moves neither the destination
nor the detour. -/
theorem handlerSends : Obligations.HandlerSends := by
  unfold Obligations.HandlerSends
  refine ⟨fun s p rd ra rb q n hrd hra hrb hp hflow hlegal hq hcount hcrc hres hne => ⟨?_, ?_⟩, fun s p r hp => ⟨?_, ?_⟩⟩
  · subst hq
    exact send_goes_out rfl hrd hra hrb hp hflow hlegal hcount hcrc hres hne
  · subst hq
    exact send_goes_out rfl hrd hra hrb hp hflow hlegal hcount hcrc hres hne
  · exact sendResponseTimeout_completes
  · exact fun n w => sendwRetryGap_completes hp

end Sys2Proof.Machine
end

section
/-! SUPPORT. Responses and sync replies at the core they answer, and the responses that a core owes (06_core_messaging.md R197, R200,
R214, R219): O16. -/
namespace Sys2Proof.Machine

section
variable {s t u : State} {p i q src code : Nat} {f : Flight} {r : SendReq} {w : Word}

theorem Core.queue_goesOn (c : Core) (regs : Store Word) (q : Nat) : ({ c with hregs := regs } : Core).waitsForNothing.queue q = c.queue q :=
  rfl

theorem exec_response_of_send (harr : s.arrived i f) (hplace : f.place = .core p) (hbody : f.body = .msg 2 w src q code)
    (hwait : (s.core p).wait = .send r) : exec (.response i) s =
      .next (if r.mark = f.mark then (s.without i).attemptEnds p r code else (s.without i).count (Reg.HDL_STRAY p) 1) := by
  have hwait' : ((s.without i).core p).wait = .send r := hwait
  simp only [exec, execResponse, State.take_of_arrived harr, hplace, hbody, hwait']

theorem response_ends (harr : s.arrived i f) (hplace : f.place = .core p) (hbody : f.body = .msg 2 w src q code)
    (hwait : (s.core p).wait = .send r) (hmark : r.mark = f.mark) (hfinal : r.retrying = false ∨ code = rcOk) :
    completes (.response i) s fun t => wrote p r.rd (BitVec.ofNat 32 code) s t ∧ (t.core p).wait = .none ∧
      t.hdlSt p = hsRunning ∧ t.pc p = (s.pc p + 1) % 2 ^ 11 ∧ took i [] s t ∧ otherCores p s t ∧
      otherRegs [Reg.HDL_STATUS p, Reg.HDL_NAK_RCVD p] s t := by
  have hexec := exec_response_of_send harr hplace hbody hwait
  rw [if_pos hmark, State.attemptEnds_of_final hfinal] at hexec
  have hdone : AttemptDone p r code (s.without i) ((s.without i).nakCounted p code) _ :=
    State.sendResult_done (State.core_nakCounted ..) CoreWork.nakCounted
  exact completes_of hexec ⟨hdone.wrote, hdone.wait, hdone.running, hdone.pc, by rw [took, hdone.net, State.net_without, List.append_nil],
    hdone.others, hdone.regs⟩

/-- An answer to an earlier message is counted, and changes nothing else (R200). -/
theorem stray_counted {c : Instr} (hexec : exec c s = .next ((s.without i).count (Reg.HDL_STRAY p) 1)) : completes c s fun t =>
    t.core p = s.core p ∧ t.rd (Reg.HDL_STRAY p) = sticky (s.rd (Reg.HDL_STRAY p)) 1 ∧ took i [] s t ∧
    otherRegs [Reg.HDL_STRAY p] s t := by
  have hwork : CoreWork p [Reg.HDL_STRAY p] (s.without i) ((s.without i).count (Reg.HDL_STRAY p) 1) := CoreWork.refl.count List.mem_cons_self
  exact completes_of hexec ⟨(State.core_count ..).trans (State.core_without ..), (State.rd_count ..).trans (if_pos rfl), hwork.took, hwork.regs⟩

/-! ### Sync replies (R219) -/

variable {op rd qq m : Nat}

/-- What a sync reply leaves of the reservation that its WAIT made (R218). -/
def State.afterReply (s : State) (p op qq code : Nat) : State :=
  if op = 1 ∧ (code = rcPoolFull ∨ code = rcSyncDisabled) then s.unreserve p qq else s

theorem exec_syncReply_of_sync (harr : s.arrived i f) (hplace : f.place = .core p) (hbody : f.body = .msg 3 w src q code)
    (hwait : (s.core p).wait = .sync op rd qq m) : exec (.syncReply i) s =
      .next (if m ≠ f.mark then (s.without i).count (Reg.HDL_STRAY p) 1
        else (((s.without i).afterReply p op qq code).setPair p rd (BitVec.ofNat 32 code) w).hdlGo p) := by
  have hwait' : ((s.without i).core p).wait = .sync op rd qq m := hwait
  simp only [exec, execSyncReply, State.takeCore_of_arrived harr hplace, hbody, hwait', State.afterReply]
  split <;> rfl

theorem syncReply_ends (harr : s.arrived i f) (hplace : f.place = .core p) (hbody : f.body = .msg 3 w src q code)
    (hwait : (s.core p).wait = .sync op rd qq f.mark) (hrd : rd < 15) (hkeep : op ≠ 1 ∨ code = rcOk) :
    completes (.syncReply i) s fun t => (rd ≠ 0 → t.h p rd = BitVec.ofNat 32 code) ∧ t.h p (rd + 1) = w ∧
      (∀ r, r < 16 → r ≠ rd → r ≠ rd + 1 → t.h p r = s.h p r) ∧ (t.core p).wait = .none ∧ t.hdlSt p = hsRunning ∧
      t.pc p = (s.pc p + 1) % 2 ^ 11 ∧ took i [] s t ∧ otherCores p s t ∧ otherRegs [Reg.HDL_STATUS p] s t := by
  have hsame : (s.without i).afterReply p op qq code = s.without i := if_neg (by
    rintro ⟨hop, hcode⟩
    rcases hkeep with h | rfl
    · exact h hop
    · exact absurd hcode (by decide))
  have hexec := exec_syncReply_of_sync harr hplace hbody hwait
  rw [if_neg (not_not_intro rfl), hsame] at hexec
  have hgo := ((s.without i).setPair_regsOnly p rd (BitVec.ofNat 32 code) w).hdlGo
  have hh : ∀ r, r < 16 → ((((s.without i).setPair p rd (BitVec.ofNat 32 code) w).hdlGo p).h p r =
      if r = rd + 1 then w else if r = rd ∧ r ≠ 0 then BitVec.ofNat 32 code else s.h p r) := fun r hr => by
    rw [State.h_hdlGo, State.h_setPair _ _ hr]
    rfl
  refine completes_of hexec ⟨fun h0 => ?_, ?_, fun r hr hne hne' => ?_, hgo.wait, hgo.running, hgo.pc,
    by rw [took, hgo.net, State.net_without, List.append_nil], hgo.others, hgo.regs⟩
  · rw [hh rd (by omega), if_neg (by omega), if_pos ⟨rfl, h0⟩]
  · rw [hh (rd + 1) (by omega), if_pos rfl]
  · rw [hh r hr, if_neg hne', if_neg (fun h => hne h.1)]

theorem syncReply_frees (harr : s.arrived i f) (hplace : f.place = .core p) (hbody : f.body = .msg 3 w src q rcPoolFull)
    (hwait : (s.core p).wait = .sync op rd qq f.mark) (hrd : rd < 15) (hop : op = 1) :
    completes (.syncReply i) s fun t => t.h p (rd + 1) = w ∧
      ((t.core p).queue qq).reserved = ((s.core p).queue qq).reserved - 1 ∧ (t.core p).wait = .none ∧
      otherCores p s t ∧ otherRegs [Reg.HDL_STATUS p, Reg.HDL_Q_STATUS p qq] s t := by
  have hfreed : (s.without i).afterReply p op qq rcPoolFull = (s.without i).unreserve p qq := if_pos ⟨hop, .inl rfl⟩
  have hexec := exec_syncReply_of_sync harr hplace hbody hwait
  rw [if_neg (not_not_intro rfl), hfreed] at hexec
  have hwork : CoreWork p [Reg.HDL_Q_STATUS p qq] (s.without i) ((s.without i).unreserve p qq) := CoreWork.refl.unreserve List.mem_cons_self
  have hregs := ((s.without i).unreserve p qq).setPair_regsOnly p rd (BitVec.ofNat 32 rcPoolFull) w
  have hgo := hregs.hdlGo
  obtain ⟨regs, hcore⟩ := hregs.core
  refine completes_of hexec ⟨?_, ?_, hgo.wait, fun j hj => (hgo.others j hj).trans (hwork.others j hj), fun k hk => ?_⟩
  · rw [State.h_hdlGo, State.h_setPair _ _ (by omega), if_pos rfl]
  · have hqueue : ((((s.without i).unreserve p qq).core p).queue qq).reserved = ((s.core p).queue qq).reserved - 1 := by
      rw [State.unreserve, State.core_putQueue, if_pos rfl, Core.queue_setQueue, if_pos rfl, State.core_without]
    rw [State.core_hdlGo, if_pos rfl, hcore, Core.queue_goesOn, hqueue]
  · simp only [List.mem_cons, List.not_mem_nil, or_false, not_or] at hk
    exact (hgo.regs k (by simpa using hk.1)).trans (hwork.regs k (by simpa using hk.2))

/-! ### Responses owed (R197) -/

/-- A core that has taken the response it owes to `src` for sending. -/
def Core.served (src : Nat) (c : Core) : Core := { c with responses := Store.erase src c.responses, respLast := src }

theorem responseSend_sends {v : Nat} (hp : p < 9216) (hnext : nextResponse (s.core p).respLast (s.core p).responses = some (src, v))
    (hsrc : src < 9216) (hflow : s.flows ((s.partOf (p / 144)).getD 0)) : completes (.responseSend p) s fun t =>
      t.net = s.net ++ [s.corePkt p (.unicast 1 src) (s.detour p src) (.msg 2 0 p ((v - 1) % 8) ((v - 1) / 8 % 16)) ((v - 1) / 128)] ∧
      t.core p = { s.core p with responses := Store.erase src (s.core p).responses, respLast := src } ∧
      otherCores p s t ∧ otherRegs [inputHigh p] s t := by
  have hwork : CoreWork p [] s (s.updCore p (Core.served src)) := CoreWork.refl.updCore
  have hin := hwork.unicastMark (n := src) (b := .msg 2 0 p ((v - 1) % 8) ((v - 1) / 8 % 16)) (mark := (v - 1) / 128)
    (fun k hk => absurd hk List.not_mem_nil) hp hflow
  have hexec : exec (.responseSend p) s = .next ((s.updCore p (Core.served src)).unicastMark p 1 src none
      (.msg 2 0 p ((v - 1) % 8) ((v - 1) / 8 % 16)) ((v - 1) / 128)) := by
    simp only [exec, execResponseSend, hnext, hsrc, if_true]
    rfl
  exact completes_of hexec ⟨hin.net.trans (by rw [hwork.net]), (hin.core p).trans (State.core_updCore_same ..), hin.others hwork,
    hin.regs hwork⟩

end

/-- Settles O16: an answer ends the wait whose number it bears, and is counted as stray otherwise. -/
theorem responsesEndWaits : Obligations.ResponsesEndWaits := by
  unfold Obligations.ResponsesEndWaits
  intro s i p f hp
  refine ⟨?_, ?_, ?_, ?_, ?_, fun v src hnext hsrc hflow => responseSend_sends hp hnext hsrc hflow⟩
  · exact fun r w src code harr hplace hbody hwait hmark hfinal _ => response_ends harr hplace hbody hwait hmark hfinal
  · exact fun r w src q code harr hplace hbody hwait hmark =>
      stray_counted ((exec_response_of_send harr hplace hbody hwait).trans (congrArg _ (if_neg hmark)))
  · exact fun w src q code op rd qq harr hplace hbody hwait hrd hkeep => syncReply_ends harr hplace hbody hwait hrd hkeep
  · exact fun w src q op rd qq harr hplace hbody hwait hrd _ hop => syncReply_frees harr hplace hbody hwait hrd hop
  · exact fun w src q code op rd qq m harr hplace hbody hwait hmark =>
      stray_counted ((exec_syncReply_of_sync harr hplace hbody hwait).trans (congrArg _ (if_pos hmark)))

end Sys2Proof.Machine
end

section
/-! SUPPORT. A sync request of a number that is no core's: O13. The statement bounds p nowhere, and above the 9,216 routers the
fabric's telemetry numbers the stops. -/
namespace Sys2Proof.Machine

/-- The node numbered 9,216 is the stop of grove 0. As a core it RUNS a handler at pc 4 whose instruction is SADD h14, h1, h2, on
object 2,047 of grove 0 of its partition. -/
def stopAsCore : State :=
  ({ State.cold Fuses.full ⟨0, [], [], false⟩ Pins.init with
      up := true
      regs := [(Reg.HDL_STATUS 9216, 0x20000004), (Reg.HDL_PART_GROVES_LO 9216, 1)]
      cores := [(9216, { Core.init with budget := 1000, hregs := [(1, 0x7FF), (2, 9)] })] }).setWord 9216 (handlerStore + 16) (encR 0x1D 14 1 2 0)

/-- The high-water marks of input 4 of the stop of grove 0 (05_fabric.md R192). -/
def stopInputHigh : Nat := stopPortKey 0 4 + 0x10

theorem stopInputHigh_changes : ((stopAsCore.syncInstr 9216 0x1D 14 1 2 0 0).rd stopInputHigh) ≠ stopAsCore.rd stopInputHigh := by
  decide +kernel

theorem stopAsCore_issues : stopAsCore.willIssue 9216 (encR 0x1D 14 1 2 0) := by
  unfold State.willIssue State.intact
  decide +kernel

/-- Refutes O13: the statement is about every number p. The packet of a SADD at 9,216, the number of the stop of grove 0, raises the
high-water mark of an input of that stop, a register that the statement says is unchanged. -/
theorem not_handlerSyncRequests : ¬ Obligations.HandlerSyncRequests := by
  unfold Obligations.HandlerSyncRequests
  intro h
  obtain ⟨t, ht, -, -, -, -, -, hregs⟩ := (h stopAsCore 9216 14 1 2 0 (by decide) (by decide) (by decide) (by decide +kernel)
    (by decide +kernel) (by decide +kernel) (by unfold State.flows; decide +kernel)).1 stopAsCore_issues
  have hexec : exec (.sadd 9216 14 1 2 0) stopAsCore = .next (stopAsCore.syncInstr 9216 0x1D 14 1 2 0 0) := rfl
  obtain rfl := Host.Outcome.next.inj (hexec.symm.trans ht)
  exact stopInputHigh_changes (hregs stopInputHigh (by decide))

end Sys2Proof.Machine
end
